-- ==== Sys2Proof/Word.lean ====
section
/-! DEFINITION. The words of R8: bytes, dwords and qwords as bit vectors, byte strings and blocks as lists of bytes. -/

set_option Elab.async false

namespace Sys2Proof

/-- A byte, 8 bits (R8). -/
abbrev Byte := BitVec 8

/-- A dword, 32 bits (R8). -/
abbrev Dword := BitVec 32

/-- A qword, 64 bits (R8). -/
abbrev Qword := BitVec 64

/-- A byte string, lowest address first (R8). -/
abbrev Bytes := List Byte

/-- The content of one 4096-byte block (R7): the listed bytes, and zero beyond them. -/
abbrev Block := List Byte

/-- A table with natural-number keys, sorted by key; an unlisted key holds the table's default. -/
abbrev Tbl (α : Type) := List (Nat × α)

/-- Bytes in a block (R7). -/
def blockBytes : Nat := 4096

/-- ⌈a / b⌉, 0 when b is 0. -/
def ceilDiv (a b : Nat) : Nat := if b = 0 then 0 else (a + b - 1) / b

/-- Serial-number arithmetic of R11: a precedes b. -/
def serialBefore (a b : Nat) : Bool :=
  let d := (b + 2 ^ 32 - a % 2 ^ 32) % 2 ^ 32
  decide (1 ≤ d ∧ d ≤ 2 ^ 31 - 1)

/-- The number that a little-endian byte string spells (R8). -/
def leNat : Bytes → Nat
  | [] => 0
  | b :: bs => b.toNat + 256 * leNat bs

/-- The n-byte little-endian string of a number (R8). -/
def leBytes : Nat → Nat → Bytes
  | 0, _ => []
  | n + 1, v => BitVec.ofNat 8 v :: leBytes n (v / 256)

end Sys2Proof
end

