-- ==== Sys2Proof/Syntax.lean ====
section
/-! DEFINITION. The commands of spec/opcode_table.json, one constructor of Instr per row, with the operands that come from
outside the block: addresses and values the host writes, data that a read brings, what a drive, a sensor or a check
reported. -/

set_option Elab.async false

namespace Sys2Proof

/-- The fourteen blocks of R12, in page order (R25). -/
inductive Blk where
  | sys | hif | qmx | tmb | bps | pwc | smc | ece | lay | mnt | vlt | bme | ccx | dpx
  deriving DecidableEq, Repr, Inhabited

/-- Page number of a block: its page lies at page × 0x1_0000 (R25, R30). -/
def Blk.page : Blk → Nat
  | .sys => 0 | .hif => 1 | .qmx => 2 | .tmb => 3 | .bps => 4 | .pwc => 5 | .smc => 6 | .ece => 7
  | .lay => 8 | .mnt => 9 | .vlt => 10 | .bme => 11 | .ccx => 12 | .dpx => 13

/-- The two DRAM groups (R150). -/
inductive Group where
  | a | b
  deriving DecidableEq, Repr, Inhabited

/-- The memory spaces a host access can name (R25, R47, R73, R77): PF0's BAR0 and its doorbell BAR2, a VF's BAR0, the
function's MSI-X BAR. -/
inductive Space where
  | bar0 | doorbell | vf | msix
  deriving DecidableEq, Repr, Inhabited

/-- One host memory write to registers (R27, R28): function, space, byte address, width, byte enables, value. -/
structure BusWrite where
  fn : Nat
  space : Space
  addr : Nat
  wide : Bool
  allBytes : Bool
  value : Qword
  deriving DecidableEq, Repr, Inhabited

/-- One host memory read of a function (R27, R28): space, byte address, width, and the bytes enabled, bit i for byte i. -/
structure BusRead where
  space : Space
  addr : Nat
  wide : Bool
  enables : Nat
  deriving DecidableEq, Repr, Inhabited

/-- A request that R42 or R46 answers with Unsupported Request. -/
inductive BadReq where
  | unsupportedOption (fn : Nat)
  | disabledFunction (fn : Nat)
  | outsideBars (fn : Nat)
  deriving DecidableEq, Repr, Inhabited

/-- What R60 lists as causes of containment. -/
inductive ContainCause where
  | surpriseDown | dlProtocol | fcProtocol | malformedTlp | receiverOverflow | ecrc | poisonedTlp | internal
  deriving DecidableEq, Repr, Inhabited

/-- The ten maintenance activities (R226). -/
inductive Act where
  | rebuild | copyback | scrub | restripe | learn | calibrate | dramRetrain | smcRekey | fwActivate | driveFw
  deriving DecidableEq, Repr, Inhabited

/-- The fields of a member's label (R114). -/
structure Label where
  version : Nat
  gen : Nat
  seed : Qword
  array : Nat
  k : Nat
  m : Nat
  unit : Nat
  g : Nat
  s : Nat
  c : Nat
  index : Nat
  cycles : Nat
  created : Qword
  arrayId : Qword
  ident : Qword
  ports : List (Option Nat)
  idents : List Qword
  deriving DecidableEq, Repr, Inhabited

/-- One slot of a member's volume table (R113): the live volume descriptor's fields of R130. -/
structure VolSlot where
  volume : Nat
  pf0 : Bool
  streamEn : Bool
  holdMs : Nat
  access : Qword
  first : Nat
  stripes : Nat
  tagId : Nat
  deriving DecidableEq, Repr, Inhabited

/-- Drive protocol (R234). -/
inductive Proto where
  | sas | sata
  deriving DecidableEq, Repr, Inhabited

/-- What bring-up learns of an attached device (R238, R239). -/
structure DriveInfo where
  proto : Proto
  rate : Nat
  ident : Qword
  blocks : Nat
  logBytes : Nat
  physBytes : Nat
  fwrev : Qword
  ncq : Bool
  expander : Bool
  portMultiplier : Bool
  deviceType : Nat
  atapi : Bool
  hostManaged : Bool
  protection : Bool
  /-- member blocks 0 and 1: the label copies (R113) -/
  labelA : Block
  labelB : Block
  /-- member blocks 2 to 17: the volume table (R113) -/
  volumes : List Block
  /-- the unit records that are not 0: cycle and dword (R113, R115) -/
  unitRecords : List (Nat × Nat)
  deriving DecidableEq, Repr, Inhabited

/-- The classes of drive error of R243. -/
inductive DriveErr where
  | transport
  | readMedium
  | writeMedium (noDefectSpare : Bool)
  | informational
  | other
  deriving DecidableEq, Repr, Inhabited

/-- The contents of a stripe's units as read from the members, by stripe position; none where no read answered. -/
abbrev Units := List (Option (List Block))

/-- An SMC access (R187): a read of a line, or a write of at most 16 bytes at an offset of it. -/
inductive SmcOp where
  | read
  | write (off : Nat) (data : Bytes)
  deriving DecidableEq, Repr, Inhabited

/-- The table of the metadata region that a line belongs to, and what of it lies in the line (R151, R352). -/
inductive MetaTable where
  /-- state and generation of data stripes of an array -/
  | stripes (array first count : Nat)
  /-- lost marks of data stripes of an array -/
  | lostMarks (array first count : Nat)
  /-- member states of an array -/
  | members (array : Nat)
  /-- remap table and failure slots of an array -/
  | remap (array : Nat)
  /-- unit records of a member -/
  | unitRecs (array member cycle count : Nat)
  | intents
  | indices
  deriving DecidableEq, Repr, Inhabited

/-- What the SRAM check of a looked-up set found (R190, R191); `replayUnreadable`: a tag parity error whose replay meets a
journal entry of the looked-up line that neither group can read, with the table the line belongs to (R192). -/
inductive SmcErr where
  | none | single | double | tagParity
  | replayUnreadable (table : MetaTable)
  deriving DecidableEq, Repr, Inhabited

/-- What the patrol reads in a group (R151, R155): a cached block (by volume, LBA and the admission number of its write; 0
for a clean copy), a block of an open destage buffer (by stripe, position and row), an intent record, a metadata line,
another log or table, the scratch region. -/
inductive DramItem where
  | block (vol lba adm : Nat)
  | buffer (array t j row : Nat)
  | intent (seq : Nat)
  | metadata (la : Nat)
  | logs
  | scratch
  deriving DecidableEq, Repr, Inhabited

/-- Averages measured at a load step (R272): millivolts and milliamperes, and whether the current varied too far. -/
structure StepMeas where
  vb : Int
  ib : Int
  v1 : Int
  i1 : Int
  v200 : Int
  i200 : Int
  varied : Bool
  deriving DecidableEq, Repr, Inhabited

/-- One pack sample (R262): cell voltages in 0.1 mV, current in mA (into the pack positive), NTC readings in 0.1 °C. -/
structure PackSample where
  cells : List Int
  current : Int
  ntc0 : Int
  ntc1 : Int
  deriving DecidableEq, Repr, Inhabited

/-- One attempt of ADC calibration (R291): the two offset readings in LSB, the two gain corrections in 2^−30 units. -/
structure AdcAttempt where
  ofs1 : Int
  ofs2 : Int
  gain1 : Int
  gain2 : Int
  deriving DecidableEq, Repr, Inhabited

/-- Mean readings of one channel in the cross-check (R293, R294), in µV at the ADC input, with the channel's full scale. -/
structure ChanMean where
  primary : Int
  secondary : Int
  fullScale : Int
  deriving DecidableEq, Repr, Inhabited

/-- The measurements of one calibration round (R291, R293). -/
structure CalMeas where
  attempts : List AdcAttempt
  channels : List ChanMean
  byHost : Bool
  deriving DecidableEq, Repr, Inhabited

/-- The verdict facts of a firmware image header and payload (R331). -/
structure FwImage where
  magicOk : Bool
  version : Nat
  svn : Nat
  length : Nat
  pubKey : Nat
  digest : Nat
  signature : Nat
  readOk : Bool
  deriving DecidableEq, Repr, Inhabited

/-- The battery section of the board profile (R264); `crcOk` stands for its magic, version and CRC-32. -/
structure BattProfile where
  crcOk : Bool
  chemistry : Nat
  n : Nat
  designMah : Nat
  vMin : Nat
  vMax : Nat
  vFull : Nat
  vNom : Nat
  vRestart : Nat
  iChg : Nat
  iTerm : Nat
  floatMode : Bool
  chgLow : Int
  chgHigh : Int
  dsgLow : Int
  dsgHigh : Int
  stepMa : Nat
  tauS : Nat
  rDesign : Nat
  kp : Nat
  ki : Nat
  pwmKhz : Nat
  maxDuty : Nat
  temps : List Int
  rates : List Nat
  ocv : List (List Nat)
  derate : List (List (Nat × Nat))
  deriving DecidableEq, Repr, Inhabited

/-- The calibration section (R292): load-step resistance in mΩ and each channel's nominal gain and offset. -/
structure CalProfile where
  crcOk : Bool
  rLs : Nat
  gains : List Nat
  offsets : List Int
  deriving DecidableEq, Repr, Inhabited

/-- The Dusk section (R321). -/
structure DuskProfile where
  crcOk : Bool
  pDusk : Nat
  eFixed : Nat
  holdMs : Nat
  vaultMbps : Nat
  diesPerChannel : Nat
  deriving DecidableEq, Repr, Inhabited

/-- One Halo parameter slot (R283); `crcOk` stands for its magic and CRC-32. -/
structure HaloSlot where
  crcOk : Bool
  seq : Nat
  qL : Nat
  qPend : Nat
  acceptedTs : Qword
  pendTs : Qword
  rDc : Nat
  r0 : Nat
  cycles : Nat
  resultReason : Nat
  designMah : Nat
  chemistry : Nat
  n : Nat
  deriving DecidableEq, Repr, Inhabited

/-- One copy of the boot directory (R326). -/
structure BootDir where
  crcOk : Bool
  seq : Nat
  preferB : Bool
  deriving DecidableEq, Repr, Inhabited

/-- What start-up reads and finds from the rising edge of PWR_GOOD on (R324 to R331) (DESIGN CHOICE, log entry 8). -/
structure BootInput where
  bootMode : Nat
  smbAddr : Nat
  pairsOk : List Bool
  eceLanesOk : List Bool
  smcOk : Bool
  otherOk : Bool
  failedBlocks : Nat
  dir0 : BootDir
  dir1 : BootDir
  imageA : FwImage
  imageB : FwImage
  batt : Option BattProfile
  bcal : Option CalProfile
  dusk : Option DuskProfile
  subsystem : Option (Nat × Nat)
  sgpioPorts : List (Nat × Nat)
  slotA : HaloSlot
  slotB : HaloSlot
  adcCal : List (List AdcAttempt)
  vaultDies : List Nat
  vaultGroupBytes : Nat
  deriving DecidableEq, Repr, Inhabited

/-- How an activation ended (R361, R362). -/
inductive FwEnd where
  | done (pauseUs : Nat)
  | slotFails (result : Nat)
  | roleFailsStep2
  | roleFailsStep3 (pauseUs : Nat)
  deriving DecidableEq, Repr, Inhabited

/-- What restore found unreadable beyond its cross-die stripe (R320). -/
structure RestoreBad where
  rebuiltPages : Nat
  dirty : List (Nat × Nat)
  buffers : List Nat
  metadata : List (Nat × Nat)
  intents : Bool
  journal : Bool
  outcomeFns : List Nat
  det : Bool
  control : Bool
  deriving DecidableEq, Repr, Inhabited

/-- The result of restripe work on one target cycle: the array blocks it covers, as read with the old layout (R223). -/
abbrev StepData := List Block

/-- The end of an SMC fill: its line, and whether the group that was read gave good codewords (R155, R181, R186). -/
structure FillEnd where
  la : Nat
  ok : Bool
  deriving DecidableEq, Repr, Inhabited

/-- The commands of the table, one constructor per row, in the table's order. `patrolRead` names the 64-byte line of the item
that its codeword holds. -/
inductive Instr where
  | registerWrite (w : BusWrite)
  | lowDwordRead (fn : Nat) (r : BusRead)
  | errClr (b : Blk)
  | softReset (b : Blk)
  | blockDisable (b : Blk)
  | blockEnable (b : Blk)
  | blockDrainDone (b : Blk)
  | lockSet (b : Blk) (bits : Dword)
  | clockGate (b : Blk)
  | commitGo (b : Blk) (token : BitVec 16) (alsoDiscard : Bool)
  | commitDiscard (b : Blk)
  | commitComplete (b : Blk)
  | sidebandRead (addr : Nat)
  | sidebandWrite (addr : Nat) (v : Dword)
  | unsupportedRequest (r : BadReq)
  | configRequest (fn off : Nat) (wr : Option Dword)
  | numVfsWrite (n : BitVec 16)
  | vfEnableSet
  | vfEnableClear
  | msixUnmask (fn vec : Nat)
  | tagGrant
  | hostReadCompletion (tag : Nat) (data : Bytes) (poisoned : Bool)
  | completionTimeout (tag : Nat)
  | quarantineExpire (tag : Nat)
  | unexpectedCompletion (tag : Nat)
  | perstAssert
  | perstDeassert
  | hotReset
  | flrPf0
  | flrVf (fn : Nat)
  | flrComplete (fn : Nat)
  | memorySpaceDisable (fn : Nat)
  | busMasterDisable (fn : Nat)
  | busMasterEnable (fn : Nat)
  | d3hotEntry (fn : Nat)
  | d0Entry (fn : Nat)
  | pmeTurnOff
  | l1EntryRequest
  | l0pNarrow
  | l0pWiden
  | containment (cause : ContainCause) (fn : Option Nat)
  | containRelease
  | containLogClr
  | quotaWrite (cq : Bool) (fn base count : Nat)
  | sqTailDoorbell (fn i : Nat) (v : Dword) (partialBytes : Bool)
  | cqHeadDoorbell (fn i : Nat) (v : Dword) (partialBytes : Bool)
  | eventHeadDoorbell (fn : Nat) (v : Dword) (partialBytes : Bool)
  | sqEnable (fn i : Nat)
  | sqDisable (fn i : Nat)
  | sqRestart (fn i : Nat)
  | cqEnable (fn i : Nat)
  | cqDisable (fn i : Nat)
  | eventRingEnable (fn : Nat)
  | eventRingDisable (fn : Nat)
  | arbitrate
  | entryAdmit
  | fragmentTableCheck (adm : Nat)
  | haltRecordClear
  | read (adm : Nat)
  | write (adm : Nat)
  | flush (adm : Nat)
  | verify (adm : Nat)
  | deallocate (adm : Nat)
  | writeZeroes (adm : Nat)
  | nop (adm : Nat)
  | identify (adm : Nat)
  | getLog (adm : Nat)
  | detAck (adm : Nat)
  | outcomeRead (adm : Nat)
  | setEventMask (adm : Nat)
  | fenceRelease (adm : Nat)
  | rangeLockGrant (adm : Nat)
  | admissionGrant
  | blockFlip (adm : Nat)
  | streamHoldExpire (array stripe : Nat)
  | destageStart
  | memberReadDone (op : Nat)
  | memberWriteDone (op : Nat)
  | readDeadline (op : Nat)
  | patrolRead (g : Group) (item : DramItem) (line : Nat) (bits : List (Nat × Nat))
  | ceilingRecompute
  | channelLost (channel : Nat)
  | groupRejoin (trained : Bool)
  | rejoinDone
  | smcRequest (r la : Nat) (op : SmcOp) (err : SmcErr)
  | smcFillDone (x : FillEnd)
  | smcJournalAck (seq : Nat)
  | smcWritebackDone (la : Nat)
  | smcInvalidate
  | smcInvalidateDone
  | smcRekey
  | smcBist
  | smcBistDone (pass : Bool)
  | smcResetInvalidation
  | smcHotSample
  | katInterval
  | katRun
  | katDone (firstOk repeatOk : Bool)
  | encode (job : Nat)
  | deltaUpdate (job : Nat)
  | decode (job : Nat)
  | syndromeCheck (job : Nat)
  | eceRowRetry (job : Nat) (retryOk : Bool)
  | eceRetest
  | eceRetestDone (lane : Nat) (runsPassed : Nat)
  | labelWriteDone (array : Nat) (failedMembers : List Nat)
  | assembleTimeout (array : Nat)
  | missingTimeout (array member : Nat)
  | memberFail (array member : Nat)
  | memberReplace (array member port : Nat)
  | memberRebuild (array member : Nat)
  | rebuildStripe (array : Nat) (units : Units)
  | catchupCycle (array member : Nat) (units : Units)
  | copybackCycle (array : Nat) (units : Units)
  | scrubPeriod (array : Nat)
  | scrubStripe (array : Nat) (units : Units)
  | restripeStep (array : Nat) (data : StepData)
  | dfwGo
  | dfwPortDone (port : Nat) (ident : Qword) (ok : Bool)
  | dfwTimeout (port : Nat)
  | arbiterRequest (reqs : List (Act × Nat))
  | deferredStart (act : Act) (array : Nat)
  | hotspotSample (busy : List (Nat × List Nat))
  | portCominit (port : Nat) (dev : DriveInfo)
  | spinupSlot (cluster : Nat)
  | driveReady (port : Nat)
  | readyTimeout (port : Nat)
  | driveCommandComplete (port op : Nat) (data : List Block)
  | driveError (port op : Nat) (e : DriveErr) (sense : Nat)
  | driveCommandTimeout (port op : Nat)
  | recoveryStep (port : Nat) (answered : Bool)
  | linkLoss (port : Nat)
  | graceExpire (port : Nat)
  | portReset (port : Nat)
  | portFail (port : Nat)
  | clusterReset (cluster : Nat)
  | clusterDisable (cluster : Nat)
  | clusterEnable (cluster : Nat)
  | clusterFail (cluster : Nat)
  | portPartial (port : Nat)
  | arrayPowerTimer (array : Nat)
  | powerEntryConfirm (array : Nat)
  | arrayWake (array : Nat)
  | pwrLatClear (array : Nat)
  | sgpioFrame (cluster : Nat) (present : Nat)
  | loopbackStart (port : Nat)
  | loopbackStop (port : Nat)
  | loopbackEnd (port errors : Nat)
  | packAbsent
  | packPresent
  | ntcFault (ntc : Nat)
  | chargeLoop
  | chargeSetpoint
  | chargeDone
  | chargeRestart
  | chargerInhibit (on : Bool)
  | restPoint
  | filterStep
  | loadStep (m : Option StepMeas)
  | naturalStep (m : StepMeas)
  | haloPublish
  | haloFirstBound
  | restWindowRequest (byHost : Bool)
  | restWindowCheck
  | restWindowEnd
  | learnDue
  | learnGo
  | learnAbort
  | learnPhase
  | gaugeReset
  | newPack
  | paramWrite (firstOk secondOk : Bool)
  | adcUntrusted (adc : Nat)
  | calRound (m : CalMeas)
  | rampStep
  | calHoldRelease
  | dramRetrain
  | retrainChannel (ok : Bool)
  | pwrFail
  | pwrFailGlitch
  | brownout
  | pwrGoodFall
  | duskStart
  | vaultDieFail (group die : Nat)
  | duskSealed (durationUs : Nat)
  | sleepExit (b : BootInput)
  | pwrGoodRise (b : BootInput)
  | holdRelease (b : BootInput)
  | dramTrainingDone (trained : List Bool) (dimmGib : List Nat)
  | vaultAccept
  | vaultDiscard
  | dawnRestoreDone (bad : RestoreBad)
  | vaultErase (bytes : Nat) (done : Bool)
  | imageBackgroundCheck (image : FwImage)
  | peRefclkLost
  | peRefclkRestored
  | dpRefclkLost
  | thermalSample (temps : List Int)
  | throttleStep (step : Nat)
  | thermCfgWrite (v : Dword)
  | pairMismatch (pair : Nat) (stallNs : Nat)
  | storeUncorrectable (role : Nat) (stallNs : Nat)
  | checkpoint (role : Nat)
  | pairTestDone (pair : Nat) (pass : Bool)
  | pairRetest (bits : Nat)
  | fwWrite
  | fwWriteDone (image : FwImage) (readBackOk : Bool)
  | fwActivate (image : FwImage)
  | fwActivationDone (e : FwEnd)
  | ppsEdge (falling : Bool) (jitterNs : Int)
  | ppsMiss
  | secondWrap
  | timeSetArm
  | ppsEnable (on : Bool)
  | bmeArm (ch : Nat)
  | bmeResume (ch : Nat)
  | bmeChannelDisable (ch : Nat)
  | bmeChannelEnable (ch : Nat)
  | bmeSetDone (ch : Nat)
  | bmeSetError (ch : Nat) (error doneBytes : Nat)
  | packSample (p : PackSample)
  | retrainChannelReturn
  | vddAonApplied
  | pwrFailRelease
  deriving DecidableEq, Repr

end Sys2Proof
end

