-- ==== Sys2Proof/Decode.lean ====
section
/-! DEFINITION. The decoder of words. Every row of spec/opcode_table.json gives an empty list of fields, so no row gives
bits and no word spells a command. -/

set_option Elab.async false

namespace Sys2Proof

/-- The command that a word of `nbits` bits spells: none, since no row of the table gives bits
(DESIGN CHOICE, log entry 1). -/
def decodeTableWord (_nbits _w : Nat) : Option Instr := none

end Sys2Proof
end

