-- ==== Sys2Proof/Config.lean ====
section
/-! DEFINITION. The values that the spec leaves open: opaque constants without a body, which no proof can evaluate. -/

set_option Elab.async false

namespace Sys2Proof

/-- A free value: what the spec does not say, one for each use (the argument is the state's counter of free values). -/
opaque Config.freeNat : Nat → Nat

/-- A free byte string's bytes, by use and position (content the spec leaves undefined). -/
opaque Config.freeByte : Nat → Nat → Byte

/-- The DRAM channel of a group, 0 to 5, that holds a metadata line (R151 states no interleave). -/
opaque Config.lineChannel : Nat → Nat

/-- The DRAM channel of a group, 0 to 5, that takes a block put into the cache pool, by the number of its placement and
whether the group is B (R151 states no interleave). -/
opaque Config.poolChannel : Nat → Bool → Nat

/-- The square root as the Halo arithmetic of R271 and R275 rounds it; the spec does not state the rounding. -/
opaque Config.sqrtVal : Rat → Rat

/-- The exponential e^(−x) as the Halo arithmetic of R271 rounds it. -/
opaque Config.expNeg : Rat → Rat

/-- Whether the digest of a firmware payload and the ECDSA signature over the header verify under the key (R331); the
arguments are the public key, the digest and the signature as numbers (DESIGN CHOICE, log entry 8). -/
opaque Config.signatureOk : Nat → Nat → Nat → Bool

/-- The SHA-384 hash of a public key (R331), compared with the key hash of the fuses. -/
opaque Config.keyHash : Nat → Nat

/-- The key hash in the fuses (R331) (DESIGN CHOICE, log entry 8). -/
opaque Config.fuseKeyHash : Nat

/-- The security version count in the fuses when the device is first powered (R332) (DESIGN CHOICE, log entry 8). -/
opaque Config.fuseSvn : Nat

/-- The device serial number in the fuses (R45) (DESIGN CHOICE, log entry 8). -/
opaque Config.serial : Nat

/-- The ordering-code fuse (R3): 0 or 1. -/
opaque Config.gradeFuse : Bool

/-- OCV⁻¹ of a voltage in mV that lies off the curve at a temperature in 0.1 °C (R266 states no value there). -/
opaque Config.ocvInvOutside : Rat → Int → Rat

/-- P_avail for a resistance of zero (R171 divides by it), by V_ocv and V_min in mV. -/
opaque Config.powerAtZeroR : Nat → Nat → Nat

/-- Busy share in percent of an ECE lane over a second (R148); the model's jobs take no time. -/
opaque Config.eceLoad : Nat → Nat → Nat

/-- The quotient of a measurement whose divisor is zero (R272, R281, R293), by the dividend. -/
opaque Config.zeroDivide : Int → Rat

end Sys2Proof
end

