-- ==== Sys2Proof/Machine/State.lean ====
section
/-! DEFINITION. The state of the Z256 as plain data: register fields by key, and beside them the queues, tables, buffers,
engines and pins that the spec gives the block; the faults and refusals of a step; the state at power-on. -/

set_option Elab.async false

namespace Sys2Proof.Machine

/-- Why a step stops. The only stop of this model: an event from outside that names a unit the device does not have. -/
inductive Fault where
  /-- The event names a unit that the device does not have (a drive port, array, cluster, DRAM channel, lane, pair, sensor
  or engine channel beyond the counts of R12, R38 and R177). Raised by `onUnit`. Safe: no such event can occur. -/
  | noSuchUnit
  deriving DecidableEq, Repr

/-- Why a command has no meaning in this model. -/
inductive Refusal where
  /-- A command the model gives no meaning. Raised by an arm of exec only; no arm raises it now. Safe. -/
  | notModelled (mnemonic : String)
  deriving DecidableEq, Repr

/-- The access codes of R9. -/
inductive Acc where
  | ro | rw | w1c | w1s | wo | rws | rwl
  deriving DecidableEq, Repr

/-- A register field: byte offset of its register in BAR0 (for index 0), bits, access code and reset value; `dims` gives
the stride and count of each index still open, `resets` the reset values of the first indexes when they differ,
`wide` marks a 64-bit register (R28). -/
structure Fld where
  base : Nat
  hi : Nat
  lo : Nat
  acc : Acc
  reset : Nat
  wide : Bool := false
  dims : List (Nat × Nat) := []
  resets : List Nat := []
  deriving DecidableEq, Repr

/-- What a host read is for (R49): write data, a CRC list, SQ entries, a fragment table, BME data, or nothing any more. -/
inductive ReadKind where
  | data (adm off : Nat)
  | crcs (adm off : Nat)
  | entries (q slot n : Nat)
  | frags (adm off : Nat)
  | bme (ch off : Nat)
  | dropped
  /-- nothing any more, of a dropped BME channel (R385, R386) -/
  | droppedBme
  deriving DecidableEq, Repr

/-- One host read tag in use (R49 to R53). -/
structure Tag where
  id : Nat
  fn : Nat
  kind : ReadKind
  addr : Nat
  len : Nat
  retried : Bool
  quar : Bool
  /-- its data will be discarded: a containment freeze began while it was outstanding (R61) -/
  doomed : Bool := false
  deriving DecidableEq, Repr

/-- A read that waits for a tag (R50). -/
structure ReadReq where
  fn : Nat
  kind : ReadKind
  addr : Nat
  len : Nat
  retried : Bool
  deriving DecidableEq, Repr

/-- An event entry before its ring gives it a slot (R103); seq is its number under R72. -/
structure Event where
  concerns : Nat
  severity : Nat
  type : Nat
  seq : Nat
  ts : Nat
  dw4 : Nat
  dw5 : Nat
  dw6 : Nat
  dw7 : Nat
  deriving DecidableEq, Repr

/-- A completion (R89). -/
structure Cpl where
  fn : Nat
  cq : Nat
  sq : Nat
  sqId : Nat
  cmdTag : Nat
  asn : Nat
  adm : Nat
  pf : Bool
  rc : Bool
  /-- the arrays whose power exit the completion waited for; LP is set where there is one (R90) -/
  woken : List Nat
  /-- the volumes whose Deferred Error Table entries set DE when the completion is written (R90) -/
  vols : List Nat
  status : Nat
  dw3 : Nat
  deriving DecidableEq, Repr

/-- Host-side state of one function (R43 to R58, R95): configuration space fields, held entries, pending events
(PRESUMED, log entry 9). -/
structure FnState where
  mse : Bool := false
  bme : Bool := false
  d3 : Bool := false
  pmeEn : Bool := false
  pmeStatus : Bool := false
  msixEn : Bool := false
  fmask : Bool := false
  mps : Nat := 0
  mrrs : Nat := 2
  relaxed : Bool := true
  ctoValue : Nat := 0
  aerUncorr : Nat := 0
  aerCorr : Nat := 0
  /-- Device Status bits 3..0: errors seen -/
  devStatus : Nat := 0
  /-- the other writable dwords of the configuration space, by offset -/
  cfg : Tbl Nat := []
  /-- configuration requests get Request Retry Status before this tick (R44, R55) -/
  readyAt : Nat := 0
  /-- an FLR is under way (R55) -/
  flr : Bool := false
  heldOvf : Bool := false
  held : List Cpl := []
  deriving DecidableEq, Repr

/-- One MSI-X vector (R47) (PRESUMED, log entry 9). -/
structure MsixVec where
  addr : Nat := 0
  data : Nat := 0
  masked : Bool := true
  pend : Bool := false
  deriving DecidableEq, Repr

/-- What one block's header counts and raises: BLK_INT_RAW, BLK_ERR_CNT, BLK_ERR_FIRST (R30, R34, R35). -/
structure BlkNote where
  raw : Nat := 0
  corr : Nat := 0
  uncorr : Nat := 0
  firstCode : Nat := 0
  firstTs : Nat := 0
  deriving DecidableEq, Repr

/-- One function's event ring beside its base, size and vector (R72, R77, R104), with its pending queue and its mask. -/
structure EvRing where
  head : Nat := 0
  tail : Nat := 0
  phase : Bool := false
  lost : Nat := 0
  seq : Nat := 0
  pend : List Event := []
  classMask : Nat := 0xFFFF
  minSev : Nat := 0
  deriving DecidableEq, Repr

/-- One Squall record (R340). -/
structure SqlRec where
  block : Nat
  fault : Nat
  stall : Nat
  ts : Nat
  deriving DecidableEq, Repr

/-- What the device reports: header counters and causes by block page, event rings by function, the Squall record. -/
structure NoteState where
  blks : Tbl BlkNote := []
  rings : Tbl EvRing := []
  sqlCount : Nat := 0
  sqlNext : Nat := 0
  sqlRecs : Tbl SqlRec := []
  sqlTimes : List (Nat × Nat) := []
  wakeN : Bool := true
  /-- SYS_INT_SUM was non-zero at the end of the last command (R34) -/
  sumLive : Bool := false
  deriving DecidableEq, Repr

/-- The host link (R54 to R59). -/
inductive Link where
  | down | l0 | l1 | l23 | off | abandoned
  deriving DecidableEq, Repr

/-- HIF state beside its registers (DESIGN CHOICE, log entry 7). -/
structure HifState where
  fns : Tbl FnState := []
  vfEnable : Bool := false
  numVfs : Nat := 0
  tag10 : Bool := false
  tag14 : Bool := false
  aspmL1 : Bool := false
  l0pEn : Bool := false
  msix : Tbl MsixVec := []
  tags : List Tag := []
  waiting : List ReadReq := []
  grantNext : Nat := 0
  link : Link := .down
  /-- cause of a freeze whose CONTAINMENT_FREEZE is still to be raised (R61) -/
  freezeOwed : Option Nat := none
  pmeTurnedOff : Bool := false
  d3cold : Bool := false
  ltrBusy : Bool := false
  subsystem : Option (Nat × Nat) := none
  deriving DecidableEq, Repr

/-- A submission entry fetched and not yet validated (R81); data is none until its read completes. -/
structure Fetched where
  q : Nat
  slot : Nat
  data : Option (List Dword)
  deriving DecidableEq, Repr

/-- Where an admitted command stands between admission and its end (R13, R81, R92, R98, R209). -/
inductive Stage where
  | fenced | ready | assembling | table | lockWait | crcs | running | waiting
  deriving DecidableEq, Repr

/-- What became of one block of a READ or VERIFY (R91, R94). -/
inductive BlkRes where
  | good (data : Block) (crc : Nat)
  | unrec | lost | offline
  deriving DecidableEq, Repr

/-- One fragment of a transfer (R80). -/
structure Frag where
  addr : Nat
  len : Nat
  flags : Nat
  deriving DecidableEq, Repr

/-- An admitted command that has not ended (R81 to R98). -/
structure Cmd where
  adm : Nat
  fn : Nat
  q : Nat
  cq : Nat
  slot : Nat
  entry : List Dword
  stage : Stage
  lockDone : Bool := false
  granted : Nat := 0
  wt : Bool := false
  /-- the parts of its space that were granted while the Ceiling was 0: first block and blocks (R161) -/
  wtGrants : List (Nat × Nat) := []
  /-- blocks admitted to the cache so far -/
  inCache : Nat := 0
  /-- blocks admitted and flipped in the cache index (R159) -/
  flipped : Nat := 0
  /-- blocks that have taken effect and are persistent from lba on (the prefix of R99) -/
  persist : Nat := 0
  recv : Tbl Bytes := []
  frags : List Frag := []
  crcList : List Nat := []
  /-- a FLUSH covers blocks admitted up to this count (R93, R94) -/
  cover : Nat := 0
  results : Tbl BlkRes := []
  recon : Nat := 0
  rewrites : Nat := 0
  rc : Bool := false
  recovered : Bool := false
  /-- arrays of the command that were entering or in a lower power state at admission (R90) -/
  asleep : List Nat := []
  /-- those among them that the completion waited for (R90, R252) -/
  waited : List Nat := []
  /-- the first block lost at its destage; of a FLUSH, that a covered block was lost (R93, R94) -/
  lostFirst : Option Nat := none
  lostCount : Nat := 0
  /-- status and dw3 the command ends with once its admitted part is persistent, when it cannot go on -/
  ending : Option (Nat × Nat) := none
  /-- no completion is posted: a reset reached the function, or the halt began (R54, R83) -/
  silent : Bool := false
  /-- access, size in blocks and stream coalescing of its volume, where a commit after its admission switched them (R40) -/
  seen : Option (Bool × Nat × Bool) := none
  deriving DecidableEq, Repr

/-- An Outcome Log record (R99). -/
structure OlRec where
  asn : Nat
  adm : Nat
  cmdTag : Nat
  opcode : Nat
  state : Nat
  status : Nat
  final : Bool
  posted : Bool
  de : Bool
  lp : Bool
  rc : Bool
  pf : Bool
  sq : Nat
  volume : Nat
  lba : Nat
  persist : Nat
  count : Nat
  ts : Nat
  deriving DecidableEq, Repr

/-- One function's Outcome Log: commands admitted since power-on without an image, and the records by slot (R99). -/
structure OLog where
  admittedCount : Nat := 0
  recs : Tbl OlRec := []
  deriving DecidableEq, Repr

/-- A Deferred Error Table entry (R101). -/
structure DetEntry where
  id : Nat
  volume : Nat
  lba : Nat
  reason : Nat
  count : Nat
  asn : Nat
  array : Nat
  ts : Nat
  deriving DecidableEq, Repr

/-- The mark of a lost block: its volume LBA, and the ASN and time of the write that supplied it (R101). -/
structure LostMark where
  volume : Nat
  lba : Nat
  asn : Nat
  ts : Nat
  deriving DecidableEq, Repr

/-- What the metadata tables hold for one data stripe (R119, R122, R101). -/
structure StripeRec where
  state : Nat := 0
  gen : Nat := 0
  /-- the generation must be taken from the first tag block read with a valid trailer (R320, R352) -/
  genUnknown : Bool := false
  lost : List LostMark := []
  deriving DecidableEq, Repr

/-- A unit record (R115). -/
structure UnitRec where
  gen : Nat := 0
  s : Nat := 0
  j : Nat := 0
  holds : Bool := false
  state : Nat := 0
  deriving DecidableEq, Repr

/-- One copy of a cached block in a DRAM group; a `wrong` one reads as codewords, but of other content (R153, R155). -/
inductive Copy where
  | absent | good | bad | wrong
  deriving DecidableEq, Repr

/-- Where a cached block stands (R159, R15, R175). -/
inductive CSt where
  | writing | dirty | destaging | clean
  deriving DecidableEq, Repr

/-- A block in the cache pool (R151, R155). -/
structure CBlk where
  vol : Nat
  lba : Nat
  array : Nat
  t : Nat
  data : Block
  crc : Nat
  zero : Bool
  adm : Nat
  copyA : Copy
  copyB : Copy
  st : CSt
  persistent : Bool
  wt : Bool
  fua : Bool
  stream : Option Nat
  readAhead : Bool
  /-- order of admission, or of last use of a clean copy -/
  used : Nat
  /-- time of the write that supplied it: when the block entered the cache (R101) (DEDUCED, log entry 66) -/
  wts : Nat := 0
  /-- deallocated while its destage runs: no read sees it (R124) -/
  gone : Bool := false
  /-- the channels of groups A and B that hold its copies (R151, R156) -/
  chA : Nat := 0
  chB : Nat := 6
  deriving DecidableEq, Repr

/-- A block that a destage writes: stripe position, block row, content (R165's buffer). -/
structure BufBlk where
  j : Nat
  row : Nat
  data : Block
  deriving DecidableEq, Repr

/-- An intent record with its destage buffer (R165). Kind: 1 FULL, 2 FRESH_PARTIAL, 3 DELTA, 4 RECONSTRUCT, 5 REPAIR. -/
structure Intent where
  array : Nat
  t : Nat
  kind : Nat
  gen : Nat
  writeMap : List Nat
  doneMap : List Nat
  lostMap : List Nat
  leftMap : List Nat
  asnLow : Nat
  asnHigh : Nat
  buffer : Nat
  seq : Nat
  ts : Nat
  blocks : List BufBlk
  /-- the dirty blocks this destage carries: volume, lba, admission number -/
  carries : List (Nat × Nat × Nat)
  blocked : Bool := false
  deriving DecidableEq, Repr

/-- A metadata journal entry (R187). -/
structure JEntry where
  la : Nat
  off : Nat
  data : Bytes
  seq : Nat
  acked : Bool
  deriving DecidableEq, Repr

/-- The regions of R151 that the DRAM groups hold. -/
structure Dram where
  stripes : Tbl (Tbl StripeRec) := []
  unitRecs : Tbl (Tbl UnitRec) := []
  missed : Tbl (List Nat) := []
  ologs : Tbl OLog := []
  det : List DetEntry := []
  detNext : Nat := 0
  overflow : List DetEntry := []
  intents : List Intent := []
  intentSeq : Nat := 0
  cache : List CBlk := []
  journal : List JEntry := []
  metaA : Tbl Bytes := []
  metaB : Tbl Bytes := []
  deriving DecidableEq, Repr

/-- A stripe with dirty blocks: when its hold began, and whether it is due (R163). -/
structure DueRec where
  array : Nat
  t : Nat
  since : Nat
  due : Bool
  deriving DecidableEq, Repr

/-- An open stream (R162). -/
structure StreamRec where
  id : Nat
  volume : Nat
  array : Nat
  t : Nat
  deriving DecidableEq, Repr

/-- The destage methods of R164. -/
inductive Method where
  | full | freshPartial | reconstruct | delta
  deriving DecidableEq, Repr

/-- A destage between its choice and its intent record (R166 steps 1 and 2). -/
structure Destage where
  id : Nat
  array : Nat
  t : Nat
  method : Method
  gen : Nat
  carries : List (Nat × Nat × Nat)
  /-- rows that the ECE job covers -/
  rows : List Nat
  /-- what must still be read: position and row -/
  need : List (Nat × Nat)
  /-- what has been read: position, row, content -/
  got : List BufBlk
  /-- positions whose content could not be read -/
  missing : List Nat
  /-- unchanged rows whose tag failed, rewritten with this destage (R121) -/
  fix : List (Nat × Nat)
  /-- what failed its tag check: position, row and LAY's code, counted once it is rebuilt or given up (R121, R128) -/
  codes : List (Nat × Nat × Nat) := []
  deriving DecidableEq, Repr

/-- Whom a member operation or a reconstruction serves. -/
inductive Client where
  | hostRead (adm : Nat)
  | verify (adm : Nat)
  | destage (id : Nat)
  | intentWrite (seq : Nat)
  | gather (id : Nat)
  /-- a unit record that a FUA command waits for (R95) -/
  | unitRec (adm : Nat)
  /-- blocks read ahead under a SEQUENTIAL hint (R91, R175) -/
  | readAhead
  /-- a mismatched unit that no command reads, to be repaired (R121) -/
  | repair
  deriving DecidableEq, Repr

/-- Where a member operation stands. -/
inductive OpSt where
  | queued | issued | done | failedMedium | failed
  deriving DecidableEq, Repr

/-- A read or write of rows of one stripe unit on one member (R121, R166, R241). -/
structure MemberOp where
  id : Nat
  port : Nat
  array : Nat
  member : Nat
  t : Nat
  j : Nat
  rows : List Nat
  isWrite : Bool
  data : List Block
  client : Client
  st : OpSt
  bypassed : Bool
  /-- transport errors seen (R243) -/
  occurrences : Nat
  /-- a write that failed on the medium once (R243) -/
  writeFailed : Bool := false
  deriving DecidableEq, Repr

/-- A reconstruction being gathered: positions still awaited, contents so far, the lost positions and rows (R211). -/
structure Gather where
  id : Nat
  client : Client
  array : Nat
  t : Nat
  rows : List Nat
  lost : List Nat
  want : List Nat
  got : List BufBlk
  /-- the lost units were read and failed a tag or a medium check, so they are rewritten on the member (R121) -/
  rewrite : Bool
  medium : Bool
  /-- rows whose tag check failed, with LAY's error code (R128) -/
  codes : List (Nat × Nat)
  deriving DecidableEq, Repr

/-- A repair rewrite that waits for its stripe's intent record (R121, R165): position and blocks. -/
structure Repair where
  array : Nat
  t : Nat
  j : Nat
  blocks : List BufBlk
  deriving DecidableEq, Repr

/-- ECE job kinds (R138 to R142). -/
inductive JobKind where
  | encode | delta | reencode | decode | syndrome
  deriving DecidableEq, Repr

/-- The maintenance work that a decode job serves (R205, R216, R219, R221). -/
inductive MntWork where
  | rebuild
  | catchup (member cycle : Nat)
  | copyback (member cycle : Nat)
  | scrub
  deriving DecidableEq, Repr

/-- Whom ECE returns a job's outputs to. -/
inductive JobClient where
  | destage (id : Nat)
  | gather (id : Nat)
  | scrub
  /-- maintenance work, with the positions read for it whose rows failed their tags, and LAY's codes (R121) -/
  | mnt (work : MntWork) (bad : List (Nat × List (Nat × Nat)))
  /-- a target stripe of a restripe step, by its number in the cycle (R223) -/
  | restripe (s : Nat)
  deriving DecidableEq, Repr

/-- An ECE job: code, stripe, contiguous block rows, inputs by position and row, those that LAY marks as zero among them
(R137, R142); `fresh` inputs are the new contents of a delta, `freshZeros` the zero ones among those. -/
structure EceJob where
  id : Nat
  kind : JobKind
  lane : Nat
  array : Nat
  t : Nat
  k : Nat
  m : Nat
  rows : List Nat
  inputs : List BufBlk
  fresh : List BufBlk
  lost : List Nat
  parityRows : List Nat
  client : JobClient
  zeros : List (Nat × Nat) := []
  freshZeros : List (Nat × Nat) := []
  deriving DecidableEq, Repr

/-- ECE state beside its registers (R142 to R147). -/
structure EceState where
  jobs : List EceJob := []
  /-- outputs that jobs have returned to a client which waits for more of its jobs (R142, R143) -/
  outs : List (JobClient × BufBlk) := []
  /-- the lane of the known-answer test in progress (R146) -/
  katOn : Option Nat := none
  /-- the lane whose turn the next run is (R146) -/
  katLane : Nat := 0
  /-- lanes under retest; the first one runs the test (R146, R147) -/
  retesting : List Nat := []
  deriving DecidableEq, Repr

/-- A rebuild walk of an array (R215, R217): `recent` are the units placed in the last 60 s, with the tick of each step;
`beganTicks` is its last start or restart. -/
structure Walk where
  pass : Nat
  cycle : Nat
  s : Nat
  planned : Nat
  placed : Nat
  startTicks : Nat
  lastPost : Nat
  stripes : Nat
  recent : List (Nat × Nat) := []
  beganTicks : Nat := 0
  deriving DecidableEq, Repr

/-- A stripe under scrub (R220, R221): what was read of it, its tag blocks as found or repaired, and what its syndrome jobs
have given so far. -/
structure ScrubWork where
  t : Nat
  units : List BufBlk := []
  tags : List Block := []
  fixes : List BufBlk := []
  unresolved : Nat := 0
  deriving DecidableEq, Repr

/-- A scrub pass of an array (R220). -/
structure ScrubSt where
  /-- SUSPECT stripes still to be visited first -/
  suspectFirst : List Nat := []
  /-- stripes checked in this pass -/
  visited : List Nat := []
  /-- the walk is back at the stripes it skipped -/
  secondRound : Bool := false
  /-- the stripe whose jobs are under way -/
  work : Option ScrubWork := none
  deriving DecidableEq, Repr

/-- A restripe step (R223): its target cycle, its buffer of array blocks, the generations of its target stripes, and the
parity that ECE has returned, by stripe. -/
structure RsStep where
  cycle : Nat
  data : List Block
  gens : List Nat
  parity : List (Nat × BufBlk) := []
  deriving DecidableEq, Repr

/-- A restripe in progress (R222, R223): target code, spares, seed and members, and the unfinished step. -/
structure RestripeSt where
  k : Nat
  m : Nat
  spares : Nat
  seed : Nat
  ports : List Nat
  descending : Bool
  step : Option RsStep := none
  deriving DecidableEq, Repr

/-- Array state beside its registers. -/
structure ArrSt where
  assembling : Bool := false
  labelGen : Nat := 0
  arrayId : Nat := 0
  created : Nat := 0
  /-- recorded port and identity by member (R114) -/
  recPorts : Tbl Nat := []
  recIdents : Tbl Nat := []
  /-- ports recorded in the labels after a replacement (R365); the layout keeps the ranks of `recPorts` -/
  newPorts : Tbl Nat := []
  /-- members found while the array assembles (R209) -/
  foundMembers : List Nat := []
  /-- label generation of a member at its departure (R204) -/
  leftGen : Tbl Nat := []
  /-- next cycle to catch up, by member (R205) -/
  catchCycle : Tbl Nat := []
  walk : Option Walk := none
  /-- a walk is to start with the REBUILD activity that waits (R215, R227) -/
  walkOwed : Bool := false
  scrub : Option ScrubSt := none
  restripe : Option RestripeSt := none
  /-- the cycle count fixed at creation (R112, R222) -/
  cycles : Nat := 0
  /-- FAILED members whose units the rebuild has all placed (R206) -/
  placedAll : List Nat := []
  /-- L while a walk runs (R215) -/
  wantL : Nat := 0
  /-- the power state being entered (R251) -/
  pwrTarget : Nat := 0
  exitFrom : Nat := 0
  exitTicks : Nat := 0
  exitWait : List Nat := []
  exitSpoiled : Bool := false
  /-- longest exit measured from each state, ms (R253) -/
  longest : Tbl Nat := []
  hotStreak : Nat := 0
  hotQuiet : Nat := 0
  hotPosted : Bool := false
  deriving DecidableEq, Repr

/-- LAY state beside its registers and the tables in DRAM. -/
structure LayState where
  arrs : Tbl ArrSt := []
  incarnation : Tbl Nat := []
  due : List DueRec := []
  /-- stripes deallocated while a destage runs: FRESH when it ends (R124) -/
  freshOwed : List (Nat × Nat) := []
  streams : List StreamRec := []
  destages : List Destage := []
  ops : List MemberOp := []
  gathers : List Gather := []
  repairs : List Repair := []
  nextId : Nat := 0
  /-- Dawn runs from member labels (R133): collecting, and the labels found with the port each was read on -/
  collecting : Bool := false
  found : List (Nat × Label × List VolSlot) := []
  refusedIds : List Nat := []
  labelsOwed : List Nat := []
  /-- every non-FRESH stripe rebuilt from unit records starts SUSPECT (R316) -/
  suspectAll : Bool := false
  deriving DecidableEq, Repr

/-- PWC state beside its registers and the groups' contents. -/
structure PwcState where
  /-- grants are made in ASN order (R158); blocks granted and not yet in the cache are counted by the commands -/
  prevCeil : Nat := 0
  prevTerm : Nat := 6
  reported : Nat := 0
  everReported : Bool := false
  /-- a recompute has seen an estimate of Halo since power-on (R173) -/
  estimated : Bool := false
  retrainNext : Option Nat := none
  retraining : Option Nat := none
  /-- metadata lines held in the journal for the channel being retrained (R156): group, line, content -/
  retrainHeld : List (Group × Nat × Bytes) := []
  uncorrTimes : Tbl (List Nat) := []
  rejoining : Option Group := none
  bothLost : Bool := false
  predictedFloorMiss : Bool := false
  clock : Nat := 0
  /-- ticks of the microsecond that PWC_STALL_US has not counted yet -/
  stallTicks : Nat := 0
  deriving DecidableEq, Repr

/-- One way of an SMC set (R180, R190). -/
structure Way where
  way : Nat
  la : Nat
  dirty : Bool
  reserved : Bool
  data : Bytes
  deriving DecidableEq, Repr

/-- One SMC set: valid or reserved ways, round-robin pointer (R184). -/
structure SmcSet where
  ways : List Way := []
  ptr : Nat := 0
  deriving DecidableEq, Repr

/-- An SMC request (R185); `seen` once its hit or miss is counted and its detector trained. -/
structure SmcReq where
  r : Nat
  la : Nat
  op : SmcOp
  seen : Bool := false
  deriving DecidableEq, Repr

/-- A miss register (R186): the fill's line, its way if it allocates, and the requests it answers, in arrival order. -/
structure MissReg where
  la : Nat
  way : Option Nat
  prefetch : Bool
  reqs : List SmcReq
  deriving DecidableEq, Repr

/-- An eviction buffer entry (R189), one of at most 16; the write-back of the oldest one is issued, the others wait for the
port. -/
structure EvEntry where
  la : Nat
  data : Bytes
  deriving DecidableEq, Repr

/-- A stride detector (R188). -/
structure Detector where
  last : Nat
  stride : Int
  run : Nat
  used : Nat
  deriving DecidableEq, Repr

/-- SMC state beside its registers. -/
structure SmcState where
  sets : Tbl SmcSet := []
  regs : List MissReg := []
  waiting : List SmcReq := []
  evict : List EvEntry := []
  detectors : Tbl (List Detector) := []
  journalSeq : Nat := 0
  /-- writes answered once both journal writes are acknowledged (R187) -/
  ackWait : List (Nat × SmcReq) := []
  replayTimes : List Nat := []
  modeInForce : Nat := 1
  resetInval : Bool := false
  /-- reset invalidation of a start-up, after which the key is chosen (R195) -/
  newKey : Bool := false
  invWalk : Bool := false
  /-- the set that a walker visits next (R193, R197) -/
  walkSet : Option Nat := none
  /-- misses of this second by set (R196) -/
  misses : Tbl Nat := []
  rekeyPending : Bool := false
  rekeyRunning : Bool := false
  bistRunning : Bool := false
  stepNo : Nat := 0
  hotStreak : Nat := 0
  hotQuiet : Nat := 0
  hotPosted : Bool := false
  hotSet : Nat := 0
  deriving DecidableEq, Repr

/-- Recovery of one port (R244): step, failing operation. -/
structure Recovery where
  step : Nat
  op : Nat
  deriving DecidableEq, Repr

/-- Drive port state beside its registers (R237 to R255). -/
structure PortSt where
  dev : Option DriveInfo := none
  queue : List Nat := []
  outst : List Nat := []
  recovery : Option Recovery := none
  recovTimes : List Nat := []
  grace : Bool := false
  spinWait : Bool := false
  spinning : Bool := false
  partialLink : Bool := false
  slumber : Bool := false
  /-- when the activity indicator last went on (R254) -/
  ledTick : Option Nat := none
  identBefore : Option Nat := none
  deriving DecidableEq, Repr

/-- DPX state beside its registers. -/
structure DpxState where
  ports : Tbl PortSt := []
  sgpio : Tbl Nat := []
  sgpioMap : List (Nat × Nat) := []
  deriving DecidableEq, Repr

/-- Whether a maintenance activity runs, waits for another, or is paused (R227). -/
inductive ActSt where
  | running
  | deferred (blocker : Nat)
  | paused (blocker : Nat)
  deriving DecidableEq, Repr

/-- One maintenance activity (R226); array 0xFF is device-wide. -/
structure Activity where
  act : Act
  array : Nat
  st : ActSt
  deriving DecidableEq, Repr

/-- The drive firmware download (R225): ports still to do, ports in download. -/
structure Dfw where
  todo : List Nat
  active : List Nat
  failed : Nat
  done : Nat
  deriving DecidableEq, Repr

/-- MNT state beside its registers. -/
structure MntState where
  acts : List Activity := []
  dfw : Option Dfw := none
  deriving DecidableEq, Repr

/-- The saved image (R308): the DRAM regions, live register fields, LAY's control state, admission number, cursors. -/
structure Image where
  seq : Nat
  reason : Nat
  ts : Nat
  serial : Nat
  live : List (Nat × Nat)
  dram : Dram
  arrs : Tbl ArrSt
  incarnation : Tbl Nat
  adm : Nat
  epochs : List Nat
  acts : List Activity
  dfw : Option Dfw
  /-- a deferred parameter write (R284) -/
  param : Option HaloSlot
  lostList : List (Nat × Nat)
  fixedBytes : Nat
  dirtyBytes : Nat
  duskUs : Nat
  diesFailed : Nat
  /-- stripes that become FRESH when their open intent record retires (R124) -/
  freshOwed : List (Nat × Nat) := []
  deriving DecidableEq, Repr

/-- A valid open record (R306, R308): image sequence number, reason, time of t0, device serial. -/
structure OpenRec where
  seq : Nat
  reason : Nat
  ts : Nat
  serial : Nat
  deriving DecidableEq, Repr

/-- One image area of the vault (R306): erased, or the records written in it. -/
structure VArea where
  openRec : Option OpenRec := none
  sealA : Bool := false
  sealB : Bool := false
  consumed : Bool := false
  image : Option Image := none
  /-- bytes erased and good -/
  erased : Nat := 0
  deriving DecidableEq, Repr

/-- VLT state beside its registers (R304 to R313). -/
structure VltState where
  area0 : VArea := {}
  area1 : VArea := {}
  /-- bytes that one usable group adds to each area, after BCH -/
  groupBytes : Nat := 0
  /-- MB/s measured at the last Dusk, 0 if none (R307) -/
  measured : Nat := 0
  /-- dies that failed in this Dusk: group and die (R305) -/
  failedDies : List (Nat × Nat) := []
  /-- Dusk in progress: reason, and the timestamp of t0 -/
  dusk : Option (Nat × Nat) := none
  duskStarted : Bool := false
  /-- what this Dusk saves -/
  writing : Option Image := none
  /-- no group was usable at t0, or both DRAM groups were lost (R407, R409): nothing is sealed -/
  noSeal : Bool := false
  /-- Dawn restores from this image -/
  dawn : Option Image := none
  dawnWarm : Bool := false
  foreignWait : Bool := false
  deriving DecidableEq, Repr

/-- The extended Kalman filter of R271. -/
structure Filt where
  soc : Rat := 0
  vrc : Rat := 0
  p00 : Rat := 0
  p01 : Rat := 0
  p11 : Rat := 0
  deriving DecidableEq, Repr

/-- Candidate coefficients of a calibration round (R293): per channel offset of the secondary, and the shunt gain. -/
structure Cand where
  offsets : List Int
  shuntGain : Int
  adc : Nat
  deriving DecidableEq, Repr

/-- BPS state beside its registers (R261 to R299) (DESIGN CHOICE, log entry 7). -/
structure BpsState where
  batt : Option BattProfile := none
  bcal : Option CalProfile := none
  dusk : Option DuskProfile := none
  slotA : Option HaloSlot := none
  slotB : Option HaloSlot := none
  firstSecond : Bool := false
  sample : PackSample := ⟨[], 0, 0, 0⟩
  ntc0Bad : Bool := false
  ntc1Bad : Bool := false
  /-- coulomb counts since the anchor, mA·ms; Q_h counts |I| ≥ C/20 -/
  qc : Int := 0
  qh : Int := 0
  anchorS : Rat := 0
  anchorU : Rat := 0
  anchorTick : Nat := 0
  filt : Filt := {}
  r0s : List Nat := []
  rdcs : List Nat := []
  rdcHold : Option Nat := none
  gainEsts : List Int := []
  iSet : Int := 0
  ePrev : Int := 0
  /-- the rest candidate: lowest and highest T_pack so far, and when it began (R270) -/
  restCand : Option (Int × Int × Nat) := none
  restWindow : Bool := false
  /-- a LEARN request waits for the rest window's end (R278) -/
  learnAsked : Bool := false
  sTop : Rat := 0
  tTopLow : Int := 0
  tTopHigh : Int := 0
  backToCharge : Bool := false
  /-- charge counted since the end of REST_TOP, mA·ms (R279) -/
  learnQ : Int := 0
  /-- a valid rest point was taken in this phase of the learn cycle -/
  restDone : Bool := false
  phaseTick : Nat := 0
  /-- samples out of the rate band, and without discharge current, in a row (R280) -/
  rateBad : Nat := 0
  paused : Nat := 0
  /-- when LEARN is due (R279) -/
  learnTick : Nat := 0
  dsgDuty : Int := 0
  dsgPrev : Int := 0
  qPend : Nat := 0
  pendTs : Nat := 0
  /-- a learned capacity exists since the last new pack -/
  learned : Bool := false
  learnCycles : Nat := 0
  alarms : Tbl Nat := []
  /-- alarm reasons whose condition holds, and when each was last seen (R285) -/
  alarmOn : List Nat := []
  calRefusals : Nat := 0
  calNote : Bool := false
  mustPass : Option Nat := none
  heldCand : Option Cand := none
  /-- a coefficient ramp: steps taken, coefficients, whether the roles swap (R296) -/
  ramp : Option (Nat × Cand × Bool) := none
  deriving DecidableEq, Repr

/-- SYS state beside its registers (DESIGN CHOICE, log entry 7). -/
structure SysState where
  vddAon : Bool := true
  perstN : Bool := false
  pwrGood : Bool := false
  pwrFailN : Bool := true
  brownout : Bool := false
  waitFail : Bool := false
  sleeping : Bool := false
  refclk : Bool := true
  dpRefclk : Bool := true
  pdMain : Bool := false
  pdHphy : Bool := false
  pdDrv : List Bool := []
  pdMem : Bool := false
  loadStepPin : Bool := false
  dsgEnPin : Bool := false
  /-- reason of the Dusk, or of the trigger, that the device sleeps after (R314) -/
  sleepReason : Nat := 0
  bootInput : Option BootInput := none
  deriving DecidableEq, Repr

/-- TMB state beside its registers (R369 to R375) (DESIGN CHOICE, log entry 7). -/
structure TmbState where
  sec : Nat := 0
  ns : Nat := 0
  frac : Nat := 0
  slew : Int := 0
  /-- ticks for which the slew still applies -/
  slewLeft : Nat := 0
  setPending : Option Nat := none
  /-- the pending value is applied at the first wrap from this tick on -/
  armDue : Nat := 0
  /-- captured count in ns since second 0 of the last edge outside the window, in HOLDOVER -/
  outEdge : Option Int := none
  limitRun : Nat := 0
  lastInSec : Nat := 0
  aonSec : Nat := 0
  aonSub : Nat := 0
  /-- phase of the 32.768 kHz count within the TMB tick clock of the model -/
  aonFrac : Nat := 0
  aonTrim : Nat := 0
  deriving DecidableEq, Repr

/-- A firmware operation of CCX (R360, R361). -/
inductive FwOp where
  | idle
  | writing
  | activating
  deriving DecidableEq, Repr

/-- CCX state beside its registers (R343 to R347, R360). -/
structure CcxState where
  /-- pair that holds role 0 and role 1; none while CCX is in FAULT -/
  role0 : Option Nat := some 0
  role1 : Option Nat := some 1
  mismatchTimes : Tbl (List Nat) := []
  /-- EXCLUDED pairs under a retest that the host asked for -/
  retests : List Nat := []
  /-- number of checkpoints of each role since the start; its lowest bit tells the newer copy (R344) -/
  checkpoints : Tbl Nat := []
  fwOp : FwOp := .idle
  fwPicked : Option FwImage := none
  deriving DecidableEq, Repr

/-- A range of SCRATCH (1) or MAILBOX (2) whose content is undefined until it is written (R383 to R386), with the free values
it reads as. -/
structure UndefRange where
  space : Nat
  lo : Nat
  hi : Nat
  stamp : Nat
  deriving DecidableEq, Repr

/-- A BME channel beside its registers: data that arrived ahead of the prefix, by offset (R383), and destination ranges that
another channel wrote while this one's set ran. -/
structure BmeCh where
  recv : Tbl Bytes := []
  raced : List (Nat × Nat) := []
  deriving DecidableEq, Repr

/-- BME state beside its registers (R381 to R386). -/
structure BmeState where
  chs : Tbl BmeCh := []
  undef : List UndefRange := []
  deriving DecidableEq, Repr

/-- QMX state beside its registers (DESIGN CHOICE, log entry 7). -/
structure QmxState where
  credit : Tbl Nat := []
  urgentNext : Nat := 1
  normalNext : Nat := 1
  fetched : List Fetched := []
  adm : Nat := 0
  halted : Bool := false
  cmds : List Cmd := []
  deriving DecidableEq, Repr

/-- What the block sends out. -/
inductive Emit where
  | reply (data : Nat)
  | unsupported (fn : Nat)
  | retryStatus (fn : Nat)
  | cfgReply (fn : Nat) (data : Nat)
  | smbusReply (data : Nat)
  | smbusNack
  | memRead (fn tag addr len : Nat)
  | memWrite (fn addr : Nat) (data : Bytes) (relaxed : Bool)
  | msix (fn vec : Nat)
  | pmPme (fn : Nat)
  | pmeToAck
  | ltr (us : Option Nat)
  | l1Request
  | lanes (width : Nat)
  | advisoryNonFatal (fn : Nat)
  | errMessage (fn kind : Nat)
  | wakePin (asserted : Bool)
  /-- a read of a member operation: first LBA and sectors of the drive (R116) -/
  | driveRead (port op lba sectors : Nat)
  /-- a write of one member block: first LBA and sectors of the drive (R116) -/
  | driveWrite (port op lba sectors : Nat) (data : List Block)
  /-- a unit record in a member's reserve: block, byte in it, record (R113, R115) -/
  | driveUnitRecord (port block byte record : Nat)
  /-- writes of whole member blocks: first LBA, sectors of one block (R116) -/
  | driveBlocks (port lba sectors : Nat) (data : List Block)
  | driveAbort (port op step : Nat)
  | drivePower (port state : Nat)
  | driveSpinup (port : Nat)
  | driveReset (port : Nat)
  | drivePartial (port : Nat)
  | driveFirmware (port offset len : Nat)
  | sgpio (cluster bits : Nat)
  | loopback (port : Nat) (on : Bool)
  | smcAnswer (r la : Nat) (data : Bytes)
  | dramFill (g : Group) (la : Nat)
  /-- the verdict of a syndrome job with the parity row or data position it reports (R141) -/
  | eceVerdict (job verdict unit : Nat)
  | paramSlot (slotB : Bool) (rec : HaloSlot)
  | spiImage (slotB : Bool) (offset len : Nat)
  | spiDirectory (preferB : Bool) (seq : Nat)
  | vaultWrite (area : Nat) (kind : Nat) (data : Bytes)
  | chargePwm (duty : Nat)
  | loadStepPin (on : Bool)
  | dischargePin (on : Bool)
  | bmeData (ch space addr : Nat) (data : Bytes)
  | linkTrain
  deriving DecidableEq, Repr

/-- The device beside its two addressed RAMs. `regs` holds the live value of each register field that differs from its
reset value, by field key; `staged` the staged values that differ from the live ones (R9, R40). -/
structure Dev where
  regs : List (Nat × Nat) := []
  staged : List (Nat × Nat) := []
  hiLatch : Tbl Nat := []
  heldLow : Tbl Nat := []
  ticks : Nat := 0
  freeCtr : Nat := 0
  emitted : List Emit := []
  nt : NoteState := {}
  sys : SysState := {}
  hif : HifState := {}
  qmx : QmxState := {}
  lay : LayState := {}
  dram : Dram := {}
  pwc : PwcState := {}
  smc : SmcState := {}
  ece : EceState := {}
  dpx : DpxState := {}
  mnt : MntState := {}
  vlt : VltState := {}
  bps : BpsState := {}
  tmb : TmbState := {}
  ccx : CcxState := {}
  bme : BmeState := {}
  deriving DecidableEq, Repr

/-- The Z256: the commands that wait, the scratch region of PWC (R151, R377), the CCX mailbox (R377), and the rest of the
device. The two RAMs are in canonical form: addresses strictly rising, no entry of the unlisted value
(DESIGN CHOICE, log entry 63). -/
structure State where
  pending : List Instr
  scratch : List Host.Cell
  mailbox : List Host.Cell
  dev : Dev
  deriving DecidableEq, Repr

/-- The machine when VDD_AON has just been applied (R333): every register field at its reset value, no main power,
phase RESET, DRAM and vault blank, nothing pending (DESIGN CHOICE, log entry 1) (DESIGN CHOICE, log entry 7). -/
def State.reset : State where
  pending := []
  scratch := []
  mailbox := []
  dev := {}

/-- The outcome of a command. -/
abbrev Out := Host.Outcome State Fault Refusal

end Sys2Proof.Machine
end

