-- ==== Sys2Proof/Machine/RegTable.lean ====
section
/-! DEFINITION. Every register field of the spec's register tables, by name: address in BAR0, bits, access code, reset value
(R25, R30, R38, R64, R75 and the register rules of each chapter); `ix` takes one index of an indexed register. The list
`Reg.all` puts them in address order of the chapters. -/

set_option Elab.async false

namespace Sys2Proof.Machine

/-- The field of one more index: its address moves by the stride; at the last index the indexed reset value is taken. -/
def Fld.ix (f : Fld) (i : Nat) : Fld :=
  match f.dims with
  | [] => f
  | (st, _) :: ds =>
    { f with base := f.base + st * i, dims := ds, reset := if ds = [] then f.resets.getD i f.reset else f.reset }

/-- Number of bits of a field. -/
def Fld.width (f : Fld) : Nat := f.hi + 1 - f.lo

/-- Key of a field in the register file: 64 × address + low bit. -/
def Fld.key (f : Fld) : Nat := f.base * 64 + f.lo

end Sys2Proof.Machine

namespace Sys2Proof.Machine.Reg

/-- R38: SYS_ID.stepping. -/
def SYS_ID_stepping : Fld := { base := 0x40, hi := 31, lo := 16, acc := .ro, reset := 16944 }
/-- R38: SYS_ID.member. -/
def SYS_ID_member : Fld := { base := 0x40, hi := 15, lo := 8, acc := .ro, reset := 4 }
/-- R38: SYS_ID.grade. -/
def SYS_ID_grade : Fld := { base := 0x40, hi := 0, lo := 0, acc := .ro, reset := 0 }
/-- R38: SYS_CAP0.vfs. -/
def SYS_CAP0_vfs : Fld := { base := 0x8, hi := 27, lo := 21, acc := .ro, reset := 64 }
/-- R38: SYS_CAP0.max_parity. -/
def SYS_CAP0_max_parity : Fld := { base := 0x8, hi := 20, lo := 18, acc := .ro, reset := 4 }
/-- R38: SYS_CAP0.dram_channels. -/
def SYS_CAP0_dram_channels : Fld := { base := 0x8, hi := 17, lo := 13, acc := .ro, reset := 12 }
/-- R38: SYS_CAP0.clusters. -/
def SYS_CAP0_clusters : Fld := { base := 0x8, hi := 12, lo := 9, acc := .ro, reset := 8 }
/-- R38: SYS_CAP0.ports. -/
def SYS_CAP0_ports : Fld := { base := 0x8, hi := 8, lo := 0, acc := .ro, reset := 256 }
/-- R38: SYS_CAP1.volumes. -/
def SYS_CAP1_volumes : Fld := { base := 0xc, hi := 26, lo := 16, acc := .ro, reset := 1024 }
/-- R38: SYS_CAP1.arrays. -/
def SYS_CAP1_arrays : Fld := { base := 0xc, hi := 15, lo := 11, acc := .ro, reset := 16 }
/-- R38: SYS_CAP1.queues. -/
def SYS_CAP1_queues : Fld := { base := 0xc, hi := 10, lo := 0, acc := .ro, reset := 1024 }
/-- R64: HIF_CAP0.max_width. -/
def HIF_CAP0_max_width : Fld := { base := 0x10008, hi := 28, lo := 24, acc := .ro, reset := 16 }
/-- R64: HIF_CAP0.max_speed. -/
def HIF_CAP0_max_speed : Fld := { base := 0x10008, hi := 23, lo := 20, acc := .ro, reset := 6 }
/-- R64: HIF_CAP0.vfs. -/
def HIF_CAP0_vfs : Fld := { base := 0x10008, hi := 18, lo := 12, acc := .ro, reset := 64 }
/-- R64: HIF_CAP0.read_tags. -/
def HIF_CAP0_read_tags : Fld := { base := 0x10008, hi := 11, lo := 0, acc := .ro, reset := 2048 }
/-- R64: HIF_CAP1.vf_vectors. -/
def HIF_CAP1_vf_vectors : Fld := { base := 0x1000c, hi := 22, lo := 16, acc := .ro, reset := 64 }
/-- R64: HIF_CAP1.pf_vectors. -/
def HIF_CAP1_pf_vectors : Fld := { base := 0x1000c, hi := 11, lo := 0, acc := .ro, reset := 2048 }
/-- R64: HIF_LINK.up. -/
def HIF_LINK_up : Fld := { base := 0x10040, hi := 31, lo := 31, acc := .ro, reset := 0 }
/-- R64: HIF_LINK.l0p_width. -/
def HIF_LINK_l0p_width : Fld := { base := 0x10040, hi := 20, lo := 16, acc := .ro, reset := 0 }
/-- R64: HIF_LINK.width. -/
def HIF_LINK_width : Fld := { base := 0x10040, hi := 15, lo := 11, acc := .ro, reset := 0 }
/-- R64: HIF_LINK.flit. -/
def HIF_LINK_flit : Fld := { base := 0x10040, hi := 10, lo := 10, acc := .ro, reset := 0 }
/-- R64: HIF_LINK.speed. -/
def HIF_LINK_speed : Fld := { base := 0x10040, hi := 3, lo := 0, acc := .ro, reset := 0 }
/-- R64: HIF_ASPM.l1_idle_us. -/
def HIF_ASPM_l1_idle_us : Fld := { base := 0x10044, hi := 31, lo := 16, acc := .rw, reset := 32 }
/-- R64: HIF_ASPM.l0p_min. -/
def HIF_ASPM_l0p_min : Fld := { base := 0x10044, hi := 1, lo := 0, acc := .rw, reset := 2 }
/-- R64: HIF_LTR.busy_us. -/
def HIF_LTR_busy_us : Fld := { base := 0x10048, hi := 31, lo := 16, acc := .rw, reset := 10 }
/-- R64: HIF_LTR.auto. -/
def HIF_LTR_auto : Fld := { base := 0x10048, hi := 0, lo := 0, acc := .rw, reset := 1 }
/-- R64: HIF_CONTAIN.frozen. -/
def HIF_CONTAIN_frozen : Fld := { base := 0x10050, hi := 31, lo := 31, acc := .ro, reset := 0 }
/-- R64: HIF_CONTAIN.fn. -/
def HIF_CONTAIN_fn : Fld := { base := 0x10050, hi := 30, lo := 24, acc := .ro, reset := 0 }
/-- R64: HIF_CONTAIN.count. -/
def HIF_CONTAIN_count : Fld := { base := 0x10050, hi := 23, lo := 16, acc := .ro, reset := 0 }
/-- R64: HIF_CONTAIN.log_clr. -/
def HIF_CONTAIN_log_clr : Fld := { base := 0x10050, hi := 15, lo := 15, acc := .wo, reset := 0 }
/-- R64: HIF_CONTAIN.cause. -/
def HIF_CONTAIN_cause : Fld := { base := 0x10050, hi := 4, lo := 1, acc := .ro, reset := 0 }
/-- R64: HIF_CONTAIN.release. -/
def HIF_CONTAIN_release : Fld := { base := 0x10050, hi := 0, lo := 0, acc := .wo, reset := 0 }
/-- R64: HIF_CONTAIN_TS.ts. -/
def HIF_CONTAIN_TS_ts : Fld := { base := 0x10058, hi := 63, lo := 0, acc := .ro, reset := 0, wide := true }
/-- R64: HIF_TAG_STAT.quarantined. -/
def HIF_TAG_STAT_quarantined : Fld := { base := 0x10060, hi := 27, lo := 16, acc := .ro, reset := 0 }
/-- R64: HIF_TAG_STAT.in_use. -/
def HIF_TAG_STAT_in_use : Fld := { base := 0x10060, hi := 11, lo := 0, acc := .ro, reset := 0 }
/-- R64: HIF_LATE_CNT.late. -/
def HIF_LATE_CNT_late : Fld := { base := 0x10064, hi := 31, lo := 0, acc := .ro, reset := 0 }
/-- R64: HIF_CTO_CNT.timeouts. -/
def HIF_CTO_CNT_timeouts : Fld := { base := 0x10068, hi := 31, lo := 0, acc := .ro, reset := 0 }
/-- R64: HIF_FN_TAG.in_use. -/
def HIF_FN_TAG_in_use : Fld := { base := 0x11000, hi := 27, lo := 16, acc := .ro, reset := 0, dims := [(16, 65)] }
/-- R64: HIF_FN_TAG.limit. -/
def HIF_FN_TAG_limit : Fld := { base := 0x11000, hi := 11, lo := 0, acc := .rw, reset := 256, dims := [(16, 65)], resets := [2048] }
/-- R64: HIF_FN_STAT.epoch. -/
def HIF_FN_STAT_epoch : Fld := { base := 0x11004, hi := 31, lo := 16, acc := .ro, reset := 0, dims := [(16, 65)] }
/-- R64: HIF_FN_STAT.held_ovf. -/
def HIF_FN_STAT_held_ovf : Fld := { base := 0x11004, hi := 5, lo := 5, acc := .ro, reset := 0, dims := [(16, 65)] }
/-- R64: HIF_FN_STAT.bme. -/
def HIF_FN_STAT_bme : Fld := { base := 0x11004, hi := 4, lo := 4, acc := .ro, reset := 0, dims := [(16, 65)] }
/-- R64: HIF_FN_STAT.mse. -/
def HIF_FN_STAT_mse : Fld := { base := 0x11004, hi := 3, lo := 3, acc := .ro, reset := 0, dims := [(16, 65)] }
/-- R64: HIF_FN_STAT.dstate. -/
def HIF_FN_STAT_dstate : Fld := { base := 0x11004, hi := 1, lo := 0, acc := .ro, reset := 0, dims := [(16, 65)] }
/-- R64: HIF_FN_HELD.held. -/
def HIF_FN_HELD_held : Fld := { base := 0x11008, hi := 31, lo := 0, acc := .ro, reset := 0, dims := [(16, 65)] }
/-- R64: HIF_FN_QUAR.quarantined. -/
def HIF_FN_QUAR_quarantined : Fld := { base := 0x1100c, hi := 11, lo := 0, acc := .ro, reset := 0, dims := [(16, 65)] }
/-- R75: QD_SQ_BASE.base. -/
def QD_SQ_BASE_base : Fld := { base := 0x100000, hi := 63, lo := 12, acc := .rw, reset := 0, wide := true, dims := [(64, 1024)] }
/-- R75: QD_SQ_CFG.en. -/
def QD_SQ_CFG_en : Fld := { base := 0x100008, hi := 31, lo := 31, acc := .rw, reset := 0, dims := [(64, 1024)] }
/-- R75: QD_SQ_CFG.restart. -/
def QD_SQ_CFG_restart : Fld := { base := 0x100008, hi := 30, lo := 30, acc := .wo, reset := 0, dims := [(64, 1024)] }
/-- R75: QD_SQ_CFG.class. -/
def QD_SQ_CFG_class : Fld := { base := 0x100008, hi := 29, lo := 29, acc := .rw, reset := 0, dims := [(64, 1024)] }
/-- R75: QD_SQ_CFG.cq. -/
def QD_SQ_CFG_cq : Fld := { base := 0x100008, hi := 25, lo := 16, acc := .rw, reset := 0, dims := [(64, 1024)] }
/-- R75: QD_SQ_CFG.size_m1. -/
def QD_SQ_CFG_size_m1 : Fld := { base := 0x100008, hi := 15, lo := 0, acc := .rw, reset := 0, dims := [(64, 1024)] }
/-- R75: QD_SQ_ARB.burst. -/
def QD_SQ_ARB_burst : Fld := { base := 0x10000c, hi := 15, lo := 8, acc := .rw, reset := 1, dims := [(64, 1024)] }
/-- R75: QD_SQ_ARB.weight. -/
def QD_SQ_ARB_weight : Fld := { base := 0x10000c, hi := 7, lo := 0, acc := .rw, reset := 1, dims := [(64, 1024)] }
/-- R75: QD_SQ_PTR.tail. -/
def QD_SQ_PTR_tail : Fld := { base := 0x100010, hi := 31, lo := 16, acc := .ro, reset := 0, dims := [(64, 1024)] }
/-- R75: QD_SQ_PTR.head. -/
def QD_SQ_PTR_head : Fld := { base := 0x100010, hi := 15, lo := 0, acc := .ro, reset := 0, dims := [(64, 1024)] }
/-- R75: QD_SQ_STAT.inflight. -/
def QD_SQ_STAT_inflight : Fld := { base := 0x100014, hi := 31, lo := 16, acc := .ro, reset := 0, dims := [(64, 1024)] }
/-- R75: QD_SQ_STAT.state. -/
def QD_SQ_STAT_state : Fld := { base := 0x100014, hi := 2, lo := 0, acc := .ro, reset := 0, dims := [(64, 1024)] }
/-- R75: QD_SQ_COUNT.admitted. -/
def QD_SQ_COUNT_admitted : Fld := { base := 0x100018, hi := 31, lo := 0, acc := .ro, reset := 0, dims := [(64, 1024)] }
/-- R75: QD_CQ_BASE.base. -/
def QD_CQ_BASE_base : Fld := { base := 0x100020, hi := 63, lo := 12, acc := .rw, reset := 0, wide := true, dims := [(64, 1024)] }
/-- R75: QD_CQ_CFG.en. -/
def QD_CQ_CFG_en : Fld := { base := 0x100028, hi := 31, lo := 31, acc := .rw, reset := 0, dims := [(64, 1024)] }
/-- R75: QD_CQ_CFG.irq_en. -/
def QD_CQ_CFG_irq_en : Fld := { base := 0x100028, hi := 30, lo := 30, acc := .rw, reset := 0, dims := [(64, 1024)] }
/-- R75: QD_CQ_CFG.vector. -/
def QD_CQ_CFG_vector : Fld := { base := 0x100028, hi := 26, lo := 16, acc := .rw, reset := 0, dims := [(64, 1024)] }
/-- R75: QD_CQ_CFG.size_m1. -/
def QD_CQ_CFG_size_m1 : Fld := { base := 0x100028, hi := 15, lo := 0, acc := .rw, reset := 0, dims := [(64, 1024)] }
/-- R75: QD_CQ_PTR.head. -/
def QD_CQ_PTR_head : Fld := { base := 0x10002c, hi := 31, lo := 16, acc := .ro, reset := 0, dims := [(64, 1024)] }
/-- R75: QD_CQ_PTR.tail. -/
def QD_CQ_PTR_tail : Fld := { base := 0x10002c, hi := 15, lo := 0, acc := .ro, reset := 0, dims := [(64, 1024)] }
/-- R75: QD_CQ_STAT.phase. -/
def QD_CQ_STAT_phase : Fld := { base := 0x100030, hi := 31, lo := 31, acc := .ro, reset := 0, dims := [(64, 1024)] }
/-- R75: QD_CQ_STAT.state. -/
def QD_CQ_STAT_state : Fld := { base := 0x100030, hi := 16, lo := 16, acc := .ro, reset := 0, dims := [(64, 1024)] }
/-- R75: QD_CQ_STAT.reserved_slots. -/
def QD_CQ_STAT_reserved_slots : Fld := { base := 0x100030, hi := 15, lo := 0, acc := .ro, reset := 0, dims := [(64, 1024)] }
/-- R77: EVR_BASE.base. -/
def EVR_BASE_base : Fld := { base := 0x22000, hi := 63, lo := 12, acc := .rw, reset := 0, wide := true, dims := [(32, 65)] }
/-- R77: EVR_CFG.en. -/
def EVR_CFG_en : Fld := { base := 0x22008, hi := 31, lo := 31, acc := .rw, reset := 0, dims := [(32, 65)] }
/-- R77: EVR_CFG.irq_en. -/
def EVR_CFG_irq_en : Fld := { base := 0x22008, hi := 30, lo := 30, acc := .rw, reset := 0, dims := [(32, 65)] }
/-- R77: EVR_CFG.vector. -/
def EVR_CFG_vector : Fld := { base := 0x22008, hi := 26, lo := 16, acc := .rw, reset := 0, dims := [(32, 65)] }
/-- R77: EVR_CFG.size_m1. -/
def EVR_CFG_size_m1 : Fld := { base := 0x22008, hi := 15, lo := 0, acc := .rw, reset := 0, dims := [(32, 65)] }
/-- R77: EVR_PTR.head. -/
def EVR_PTR_head : Fld := { base := 0x2200c, hi := 31, lo := 16, acc := .ro, reset := 0, dims := [(32, 65)] }
/-- R77: EVR_PTR.tail. -/
def EVR_PTR_tail : Fld := { base := 0x2200c, hi := 15, lo := 0, acc := .ro, reset := 0, dims := [(32, 65)] }
/-- R77: EVR_STAT.phase. -/
def EVR_STAT_phase : Fld := { base := 0x22010, hi := 31, lo := 31, acc := .ro, reset := 0, dims := [(32, 65)] }
/-- R77: EVR_STAT.pending. -/
def EVR_STAT_pending : Fld := { base := 0x22010, hi := 22, lo := 16, acc := .ro, reset := 0, dims := [(32, 65)] }
/-- R77: EVR_STAT.lost. -/
def EVR_STAT_lost : Fld := { base := 0x22010, hi := 15, lo := 0, acc := .ro, reset := 0, dims := [(32, 65)] }
/-- R77: EVR_SEQ.next. -/
def EVR_SEQ_next : Fld := { base := 0x22014, hi := 31, lo := 0, acc := .ro, reset := 0, dims := [(32, 65)] }
/-- R84: SYS_HALT_SRC.valid. -/
def SYS_HALT_SRC_valid : Fld := { base := 0x100, hi := 31, lo := 31, acc := .w1c, reset := 0 }
/-- R84: SYS_HALT_SRC.kind. -/
def SYS_HALT_SRC_kind : Fld := { base := 0x100, hi := 30, lo := 29, acc := .ro, reset := 0 }
/-- R84: SYS_HALT_SRC.overrun. -/
def SYS_HALT_SRC_overrun : Fld := { base := 0x100, hi := 28, lo := 28, acc := .ro, reset := 0 }
/-- R84: SYS_HALT_SRC.fn. -/
def SYS_HALT_SRC_fn : Fld := { base := 0x100, hi := 26, lo := 20, acc := .ro, reset := 0 }
/-- R84: SYS_HALT_SRC.sq. -/
def SYS_HALT_SRC_sq : Fld := { base := 0x100, hi := 9, lo := 0, acc := .ro, reset := 0 }
/-- R84: SYS_HALT_POS.frag. -/
def SYS_HALT_POS_frag : Fld := { base := 0x104, hi := 27, lo := 16, acc := .ro, reset := 0 }
/-- R84: SYS_HALT_POS.index. -/
def SYS_HALT_POS_index : Fld := { base := 0x104, hi := 15, lo := 0, acc := .ro, reset := 0 }
/-- R84: SYS_HALT_COND.cond. -/
def SYS_HALT_COND_cond : Fld := { base := 0x108, hi := 7, lo := 0, acc := .ro, reset := 0 }
/-- R84: SYS_HALT_ASN.asn. -/
def SYS_HALT_ASN_asn : Fld := { base := 0x10c, hi := 31, lo := 0, acc := .ro, reset := 0 }
/-- R84: SYS_HALT_TS.ts. -/
def SYS_HALT_TS_ts : Fld := { base := 0x110, hi := 63, lo := 0, acc := .ro, reset := 0, wide := true }
/-- R84: SYS_HALT_ENTRY.image. -/
def SYS_HALT_ENTRY_image : Fld := { base := 0x140, hi := 31, lo := 0, acc := .ro, reset := 0, dims := [(4, 16)] }
/-- R84: SYS_HALT_FRAG.frag_image. -/
def SYS_HALT_FRAG_frag_image : Fld := { base := 0x180, hi := 31, lo := 0, acc := .ro, reset := 0, dims := [(4, 4)] }
/-- R87: QMX_CAP0.cqs. -/
def QMX_CAP0_cqs : Fld := { base := 0x20008, hi := 26, lo := 16, acc := .ro, reset := 1024 }
/-- R87: QMX_CAP0.sqs. -/
def QMX_CAP0_sqs : Fld := { base := 0x20008, hi := 10, lo := 0, acc := .ro, reset := 1024 }
/-- R87: QMX_CAP1.max_frags. -/
def QMX_CAP1_max_frags : Fld := { base := 0x2000c, hi := 28, lo := 16, acc := .ro, reset := 4096 }
/-- R87: QMX_CAP1.depth_log2. -/
def QMX_CAP1_depth_log2 : Fld := { base := 0x2000c, hi := 12, lo := 8, acc := .ro, reset := 16 }
/-- R87: QMX_CAP1.max_burst. -/
def QMX_CAP1_max_burst : Fld := { base := 0x2000c, hi := 7, lo := 0, acc := .ro, reset := 128 }
/-- R87: QMX_ASN_NEXT.asn. -/
def QMX_ASN_NEXT_asn : Fld := { base := 0x20040, hi := 31, lo := 0, acc := .ro, reset := 0 }
/-- R87: QMX_DB_ERR.count. -/
def QMX_DB_ERR_count : Fld := { base := 0x20044, hi := 31, lo := 0, acc := .ro, reset := 0 }
/-- R87: QMX_DB_LAST.kind. -/
def QMX_DB_LAST_kind : Fld := { base := 0x20048, hi := 31, lo := 30, acc := .ro, reset := 0 }
/-- R87: QMX_DB_LAST.reason. -/
def QMX_DB_LAST_reason : Fld := { base := 0x20048, hi := 29, lo := 28, acc := .ro, reset := 0 }
/-- R87: QMX_DB_LAST.fn. -/
def QMX_DB_LAST_fn : Fld := { base := 0x20048, hi := 26, lo := 20, acc := .ro, reset := 0 }
/-- R87: QMX_DB_LAST.queue. -/
def QMX_DB_LAST_queue : Fld := { base := 0x20048, hi := 19, lo := 10, acc := .ro, reset := 0 }
/-- R87: QMX_INTAKE.admitted. -/
def QMX_INTAKE_admitted : Fld := { base := 0x20050, hi := 63, lo := 0, acc := .ro, reset := 0, wide := true }
/-- R87: QMX_FN_SQ.count. -/
def QMX_FN_SQ_count : Fld := { base := 0x21000, hi := 26, lo := 16, acc := .rw, reset := 0, dims := [(16, 65)], resets := [1024] }
/-- R87: QMX_FN_SQ.base. -/
def QMX_FN_SQ_base : Fld := { base := 0x21000, hi := 9, lo := 0, acc := .rw, reset := 0, dims := [(16, 65)] }
/-- R87: QMX_FN_CQ.count. -/
def QMX_FN_CQ_count : Fld := { base := 0x21004, hi := 26, lo := 16, acc := .rw, reset := 0, dims := [(16, 65)], resets := [1024] }
/-- R87: QMX_FN_CQ.base. -/
def QMX_FN_CQ_base : Fld := { base := 0x21004, hi := 9, lo := 0, acc := .rw, reset := 0, dims := [(16, 65)] }
/-- R87: QMX_FN_STAT.inflight. -/
def QMX_FN_STAT_inflight : Fld := { base := 0x21008, hi := 31, lo := 16, acc := .ro, reset := 0, dims := [(16, 65)] }
/-- R128: LAY_CAP0.volumes. -/
def LAY_CAP0_volumes : Fld := { base := 0x80008, hi := 26, lo := 16, acc := .ro, reset := 1024 }
/-- R128: LAY_CAP0.max_k. -/
def LAY_CAP0_max_k : Fld := { base := 0x80008, hi := 12, lo := 8, acc := .ro, reset := 28 }
/-- R128: LAY_CAP0.arrays. -/
def LAY_CAP0_arrays : Fld := { base := 0x80008, hi := 4, lo := 0, acc := .ro, reset := 16 }
/-- R128: LAY_CAP1.meta_mib. -/
def LAY_CAP1_meta_mib : Fld := { base := 0x8000c, hi := 31, lo := 16, acc := .ro, reset := 32768 }
/-- R128: LAY_CAP1.max_spares. -/
def LAY_CAP1_max_spares : Fld := { base := 0x8000c, hi := 12, lo := 8, acc := .ro, reset := 16 }
/-- R128: LAY_CAP1.max_width. -/
def LAY_CAP1_max_width : Fld := { base := 0x8000c, hi := 5, lo := 0, acc := .ro, reset := 32 }
/-- R128: LAY_META_USED.mib. -/
def LAY_META_USED_mib : Fld := { base := 0x80050, hi := 15, lo := 0, acc := .ro, reset := 0 }
/-- R129: AR_CFG.en. -/
def AR_CFG_en : Fld := { base := 0x400000, hi := 31, lo := 31, acc := .rws, reset := 0, dims := [(4096, 16)] }
/-- R129: AR_CFG.m. -/
def AR_CFG_m : Fld := { base := 0x400000, hi := 26, lo := 24, acc := .rws, reset := 0, dims := [(4096, 16)] }
/-- R129: AR_CFG.k. -/
def AR_CFG_k : Fld := { base := 0x400000, hi := 20, lo := 16, acc := .rws, reset := 0, dims := [(4096, 16)] }
/-- R129: AR_CFG.unit. -/
def AR_CFG_unit : Fld := { base := 0x400000, hi := 10, lo := 8, acc := .rws, reset := 0, dims := [(4096, 16)] }
/-- R129: AR_CFG.spares. -/
def AR_CFG_spares : Fld := { base := 0x400000, hi := 4, lo := 0, acc := .rws, reset := 0, dims := [(4096, 16)] }
/-- R129: AR_SEED.seed. -/
def AR_SEED_seed : Fld := { base := 0x400008, hi := 63, lo := 0, acc := .rws, reset := 0, wide := true, dims := [(4096, 16)] }
/-- R129: AR_DEADLINE.ms. -/
def AR_DEADLINE_ms : Fld := { base := 0x400010, hi := 10, lo := 0, acc := .rws, reset := 0, dims := [(4096, 16)] }
/-- R129: AR_POLICY.cache_on_read. -/
def AR_POLICY_cache_on_read : Fld := { base := 0x400014, hi := 0, lo := 0, acc := .rws, reset := 0, dims := [(4096, 16)] }
/-- R129: AR_STAT.relocated. -/
def AR_STAT_relocated : Fld := { base := 0x400020, hi := 4, lo := 4, acc := .ro, reset := 0, dims := [(4096, 16)] }
/-- R129: AR_STAT.labelled. -/
def AR_STAT_labelled : Fld := { base := 0x400020, hi := 3, lo := 3, acc := .ro, reset := 0, dims := [(4096, 16)] }
/-- R129: AR_STAT.state. -/
def AR_STAT_state : Fld := { base := 0x400020, hi := 2, lo := 0, acc := .ro, reset := 0, dims := [(4096, 16)] }
/-- R129: AR_GROUP.cmask. -/
def AR_GROUP_cmask : Fld := { base := 0x400024, hi := 31, lo := 24, acc := .ro, reset := 0, dims := [(4096, 16)] }
/-- R129: AR_GROUP.C. -/
def AR_GROUP_C : Fld := { base := 0x400024, hi := 23, lo := 20, acc := .ro, reset := 0, dims := [(4096, 16)] }
/-- R129: AR_GROUP.g. -/
def AR_GROUP_g : Fld := { base := 0x400024, hi := 19, lo := 14, acc := .ro, reset := 0, dims := [(4096, 16)] }
/-- R129: AR_GROUP.G. -/
def AR_GROUP_G : Fld := { base := 0x400024, hi := 8, lo := 0, acc := .ro, reset := 0, dims := [(4096, 16)] }
/-- R129: AR_GEOM.dpu. -/
def AR_GEOM_dpu : Fld := { base := 0x400028, hi := 23, lo := 16, acc := .ro, reset := 0, dims := [(4096, 16)] }
/-- R129: AR_GEOM.unused. -/
def AR_GEOM_unused : Fld := { base := 0x400028, hi := 15, lo := 8, acc := .ro, reset := 0, dims := [(4096, 16)] }
/-- R129: AR_GEOM.spc. -/
def AR_GEOM_spc : Fld := { base := 0x400028, hi := 7, lo := 0, acc := .ro, reset := 0, dims := [(4096, 16)] }
/-- R129: AR_CYCLES.cycles. -/
def AR_CYCLES_cycles : Fld := { base := 0x400030, hi := 63, lo := 0, acc := .ro, reset := 0, wide := true, dims := [(4096, 16)] }
/-- R129: AR_STRIPES.stripes. -/
def AR_STRIPES_stripes : Fld := { base := 0x400038, hi := 63, lo := 0, acc := .ro, reset := 0, wide := true, dims := [(4096, 16)] }
/-- R129: AR_FREE.free. -/
def AR_FREE_free : Fld := { base := 0x400040, hi := 63, lo := 0, acc := .ro, reset := 0, wide := true, dims := [(4096, 16)] }
/-- R129: AR_META.mib. -/
def AR_META_mib : Fld := { base := 0x400048, hi := 15, lo := 0, acc := .ro, reset := 0, dims := [(4096, 16)] }
/-- R129: AR_TAG_CRC.count. -/
def AR_TAG_CRC_count : Fld := { base := 0x400050, hi := 31, lo := 0, acc := .ro, reset := 0, dims := [(4096, 16)] }
/-- R129: AR_TAG_MISDIR.count. -/
def AR_TAG_MISDIR_count : Fld := { base := 0x400054, hi := 31, lo := 0, acc := .ro, reset := 0, dims := [(4096, 16)] }
/-- R129: AR_TAG_STALE.count. -/
def AR_TAG_STALE_count : Fld := { base := 0x400058, hi := 31, lo := 0, acc := .ro, reset := 0, dims := [(4096, 16)] }
/-- R129: AR_TAG_UNREP.count. -/
def AR_TAG_UNREP_count : Fld := { base := 0x40005c, hi := 31, lo := 0, acc := .ro, reset := 0, dims := [(4096, 16)] }
/-- R129: AR_MEMBER.valid_hi. -/
def AR_MEMBER_valid_hi : Fld := { base := 0x400200, hi := 31, lo := 31, acc := .rws, reset := 0, dims := [(4096, 16), (4, 128)] }
/-- R129: AR_MEMBER.port_hi. -/
def AR_MEMBER_port_hi : Fld := { base := 0x400200, hi := 24, lo := 16, acc := .rws, reset := 0, dims := [(4096, 16), (4, 128)] }
/-- R129: AR_MEMBER.valid_lo. -/
def AR_MEMBER_valid_lo : Fld := { base := 0x400200, hi := 15, lo := 15, acc := .rws, reset := 0, dims := [(4096, 16), (4, 128)] }
/-- R129: AR_MEMBER.port_lo. -/
def AR_MEMBER_port_lo : Fld := { base := 0x400200, hi := 8, lo := 0, acc := .rws, reset := 0, dims := [(4096, 16), (4, 128)] }
/-- R130: VD_CFG.en. -/
def VD_CFG_en : Fld := { base := 0x500000, hi := 31, lo := 31, acc := .rws, reset := 0, dims := [(64, 1024)] }
/-- R130: VD_CFG.pf0. -/
def VD_CFG_pf0 : Fld := { base := 0x500000, hi := 30, lo := 30, acc := .rws, reset := 0, dims := [(64, 1024)] }
/-- R130: VD_CFG.stream_en. -/
def VD_CFG_stream_en : Fld := { base := 0x500000, hi := 29, lo := 29, acc := .rws, reset := 0, dims := [(64, 1024)] }
/-- R130: VD_CFG.array. -/
def VD_CFG_array : Fld := { base := 0x500000, hi := 19, lo := 16, acc := .rws, reset := 0, dims := [(64, 1024)] }
/-- R130: VD_CFG.hold_ms. -/
def VD_CFG_hold_ms : Fld := { base := 0x500000, hi := 15, lo := 0, acc := .rws, reset := 200, dims := [(64, 1024)] }
/-- R130: VD_ACCESS.vfs. -/
def VD_ACCESS_vfs : Fld := { base := 0x500008, hi := 63, lo := 0, acc := .rws, reset := 0, wide := true, dims := [(64, 1024)] }
/-- R130: VD_FIRST.first. -/
def VD_FIRST_first : Fld := { base := 0x500010, hi := 63, lo := 0, acc := .rws, reset := 0, wide := true, dims := [(64, 1024)] }
/-- R130: VD_STRIPES.stripes. -/
def VD_STRIPES_stripes : Fld := { base := 0x500018, hi := 63, lo := 0, acc := .rws, reset := 0, wide := true, dims := [(64, 1024)] }
/-- R130: VD_SIZE.blocks. -/
def VD_SIZE_blocks : Fld := { base := 0x500020, hi := 63, lo := 0, acc := .ro, reset := 0, wide := true, dims := [(64, 1024)] }
/-- R130: VD_TAGID.tag_id. -/
def VD_TAGID_tag_id : Fld := { base := 0x500028, hi := 15, lo := 0, acc := .ro, reset := 0, dims := [(64, 1024)] }
/-- R130: VD_STAT.det_held. -/
def VD_STAT_det_held : Fld := { base := 0x50002c, hi := 31, lo := 16, acc := .ro, reset := 0, dims := [(64, 1024)] }
/-- R130: VD_STAT.offline. -/
def VD_STAT_offline : Fld := { base := 0x50002c, hi := 2, lo := 2, acc := .ro, reset := 0, dims := [(64, 1024)] }
/-- R130: VD_STAT.fenced. -/
def VD_STAT_fenced : Fld := { base := 0x50002c, hi := 1, lo := 1, acc := .ro, reset := 0, dims := [(64, 1024)] }
/-- R130: VD_STAT.de. -/
def VD_STAT_de : Fld := { base := 0x50002c, hi := 0, lo := 0, acc := .ro, reset := 0, dims := [(64, 1024)] }
/-- R130: VD_OVF.overflow. -/
def VD_OVF_overflow : Fld := { base := 0x500030, hi := 31, lo := 0, acc := .ro, reset := 0, dims := [(64, 1024)] }
/-- R148: ECE_CAP0.max_inputs. -/
def ECE_CAP0_max_inputs : Fld := { base := 0x70008, hi := 21, lo := 16, acc := .ro, reset := 32 }
/-- R148: ECE_CAP0.lanes. -/
def ECE_CAP0_lanes : Fld := { base := 0x70008, hi := 7, lo := 4, acc := .ro, reset := 2 }
/-- R148: ECE_CAP0.max_parity. -/
def ECE_CAP0_max_parity : Fld := { base := 0x70008, hi := 2, lo := 0, acc := .ro, reset := 4 }
/-- R148: ECE_CAP1.poly. -/
def ECE_CAP1_poly : Fld := { base := 0x7000c, hi := 24, lo := 16, acc := .ro, reset := 285 }
/-- R148: ECE_CAP1.y_base. -/
def ECE_CAP1_y_base : Fld := { base := 0x7000c, hi := 15, lo := 8, acc := .ro, reset := 4 }
/-- R148: ECE_CAP1.beat. -/
def ECE_CAP1_beat : Fld := { base := 0x7000c, hi := 7, lo := 0, acc := .ro, reset := 64 }
/-- R148: ECE_LANE_STAT.carrier. -/
def ECE_LANE_STAT_carrier : Fld := { base := 0x70040, hi := 17, lo := 16, acc := .ro, reset := 0 }
/-- R148: ECE_LANE_STAT.dec_state. -/
def ECE_LANE_STAT_dec_state : Fld := { base := 0x70040, hi := 3, lo := 2, acc := .ro, reset := 0 }
/-- R148: ECE_LANE_STAT.enc_state. -/
def ECE_LANE_STAT_enc_state : Fld := { base := 0x70040, hi := 1, lo := 0, acc := .ro, reset := 0 }
/-- R148: ECE_LANE_CTRL.retest. -/
def ECE_LANE_CTRL_retest : Fld := { base := 0x70044, hi := 0, lo := 0, acc := .wo, reset := 0 }
/-- R148: ECE_ENC_BYTES.bytes. -/
def ECE_ENC_BYTES_bytes : Fld := { base := 0x70048, hi := 63, lo := 0, acc := .ro, reset := 0, wide := true }
/-- R148: ECE_DEC_BYTES.bytes. -/
def ECE_DEC_BYTES_bytes : Fld := { base := 0x70050, hi := 63, lo := 0, acc := .ro, reset := 0, wide := true }
/-- R148: ECE_CHK.retry_fail. -/
def ECE_CHK_retry_fail : Fld := { base := 0x70058, hi := 31, lo := 16, acc := .ro, reset := 0 }
/-- R148: ECE_CHK.mismatch. -/
def ECE_CHK_mismatch : Fld := { base := 0x70058, hi := 15, lo := 0, acc := .ro, reset := 0 }
/-- R148: ECE_UNCHECKED.rows. -/
def ECE_UNCHECKED_rows : Fld := { base := 0x7005c, hi := 31, lo := 0, acc := .ro, reset := 0 }
/-- R148: ECE_SYND.unlocated. -/
def ECE_SYND_unlocated : Fld := { base := 0x70060, hi := 31, lo := 16, acc := .ro, reset := 0 }
/-- R148: ECE_SYND.located. -/
def ECE_SYND_located : Fld := { base := 0x70060, hi := 15, lo := 0, acc := .ro, reset := 0 }
/-- R148: ECE_KAT_CTRL.interval_s. -/
def ECE_KAT_CTRL_interval_s : Fld := { base := 0x70064, hi := 31, lo := 16, acc := .rw, reset := 60 }
/-- R148: ECE_KAT_CTRL.run. -/
def ECE_KAT_CTRL_run : Fld := { base := 0x70064, hi := 0, lo := 0, acc := .wo, reset := 0 }
/-- R148: ECE_KAT_STAT.runs. -/
def ECE_KAT_STAT_runs : Fld := { base := 0x70068, hi := 31, lo := 16, acc := .ro, reset := 0 }
/-- R148: ECE_KAT_STAT.running. -/
def ECE_KAT_STAT_running : Fld := { base := 0x70068, hi := 7, lo := 7, acc := .ro, reset := 0 }
/-- R148: ECE_KAT_STAT.lane. -/
def ECE_KAT_STAT_lane : Fld := { base := 0x70068, hi := 4, lo := 4, acc := .ro, reset := 0 }
/-- R148: ECE_KAT_STAT.result. -/
def ECE_KAT_STAT_result : Fld := { base := 0x70068, hi := 1, lo := 0, acc := .ro, reset := 0 }
/-- R148: ECE_KAT_TS.ts. -/
def ECE_KAT_TS_ts : Fld := { base := 0x70070, hi := 63, lo := 0, acc := .ro, reset := 0, wide := true }
/-- R148: ECE_LOAD.dec_pct. -/
def ECE_LOAD_dec_pct : Fld := { base := 0x70078, hi := 15, lo := 8, acc := .ro, reset := 0 }
/-- R148: ECE_LOAD.enc_pct. -/
def ECE_LOAD_enc_pct : Fld := { base := 0x70078, hi := 7, lo := 0, acc := .ro, reset := 0 }
/-- R177: PWC_CAP0.max_dimm_gib. -/
def PWC_CAP0_max_dimm_gib : Fld := { base := 0x50008, hi := 23, lo := 16, acc := .ro, reset := 64 }
/-- R177: PWC_CAP0.channels. -/
def PWC_CAP0_channels : Fld := { base := 0x50008, hi := 15, lo := 8, acc := .ro, reset := 12 }
/-- R177: PWC_CAP0.groups. -/
def PWC_CAP0_groups : Fld := { base := 0x50008, hi := 3, lo := 0, acc := .ro, reset := 2 }
/-- R177: PWC_CAP1.ceiling_max_gib. -/
def PWC_CAP1_ceiling_max_gib : Fld := { base := 0x5000c, hi := 31, lo := 24, acc := .ro, reset := 128 }
/-- R177: PWC_CAP1.staging_mib. -/
def PWC_CAP1_staging_mib : Fld := { base := 0x5000c, hi := 23, lo := 16, acc := .ro, reset := 16 }
/-- R177: PWC_CAP1.intents_log2. -/
def PWC_CAP1_intents_log2 : Fld := { base := 0x5000c, hi := 15, lo := 11, acc := .ro, reset := 20 }
/-- R177: PWC_CAP1.scratch_max_mib. -/
def PWC_CAP1_scratch_max_mib : Fld := { base := 0x5000c, hi := 10, lo := 0, acc := .ro, reset := 1024 }
/-- R177: PWC_CEIL.limit. -/
def PWC_CEIL_limit : Fld := { base := 0x50050, hi := 31, lo := 28, acc := .ro, reset := 6 }
/-- R177: PWC_CEIL.mib. -/
def PWC_CEIL_mib : Fld := { base := 0x50050, hi := 17, lo := 0, acc := .ro, reset := 0 }
/-- R177: PWC_CEIL_E.mib. -/
def PWC_CEIL_E_mib : Fld := { base := 0x50054, hi := 31, lo := 0, acc := .ro, reset := 0 }
/-- R177: PWC_CEIL_IN.p_avail_w. -/
def PWC_CEIL_IN_p_avail_w : Fld := { base := 0x50058, hi := 31, lo := 16, acc := .ro, reset := 0 }
/-- R177: PWC_CEIL_IN.p_dusk_w. -/
def PWC_CEIL_IN_p_dusk_w : Fld := { base := 0x50058, hi := 15, lo := 0, acc := .ro, reset := 0 }
/-- R177: PWC_CEIL_CFG.margin_pct. -/
def PWC_CEIL_CFG_margin_pct : Fld := { base := 0x50060, hi := 31, lo := 24, acc := .rws, reset := 20 }
/-- R177: PWC_CEIL_CFG.floor_gib. -/
def PWC_CEIL_CFG_floor_gib : Fld := { base := 0x50060, hi := 23, lo := 16, acc := .rws, reset := 16 }
/-- R177: PWC_CEIL_CFG.max_gib. -/
def PWC_CEIL_CFG_max_gib : Fld := { base := 0x50060, hi := 7, lo := 0, acc := .rws, reset := 128 }
/-- R177: PWC_WT_CFG.window_mib. -/
def PWC_WT_CFG_window_mib : Fld := { base := 0x50064, hi := 15, lo := 0, acc := .rws, reset := 1024 }
/-- R177: PWC_SCRATCH.mib. -/
def PWC_SCRATCH_mib : Fld := { base := 0x50068, hi := 10, lo := 0, acc := .rws, reset := 0 }
/-- R177: PWC_STAT.grp_b. -/
def PWC_STAT_grp_b : Fld := { base := 0x5006c, hi := 11, lo := 10, acc := .ro, reset := 0 }
/-- R177: PWC_STAT.grp_a. -/
def PWC_STAT_grp_a : Fld := { base := 0x5006c, hi := 9, lo := 8, acc := .ro, reset := 0 }
/-- R177: PWC_STAT.mode. -/
def PWC_STAT_mode : Fld := { base := 0x5006c, hi := 2, lo := 0, acc := .ro, reset := 3 }
/-- R177: PWC_GRP_CTRL.rejoin. -/
def PWC_GRP_CTRL_rejoin : Fld := { base := 0x50070, hi := 0, lo := 0, acc := .wo, reset := 0 }
/-- R177: PWC_DIRTY.bytes. -/
def PWC_DIRTY_bytes : Fld := { base := 0x50078, hi := 63, lo := 0, acc := .ro, reset := 0, wide := true }
/-- R177: PWC_POOL.group_gib. -/
def PWC_POOL_group_gib : Fld := { base := 0x50080, hi := 31, lo := 16, acc := .ro, reset := 0 }
/-- R177: PWC_POOL.pool_gib. -/
def PWC_POOL_pool_gib : Fld := { base := 0x50080, hi := 15, lo := 0, acc := .ro, reset := 0 }
/-- R177: PWC_INTENTS.open. -/
def PWC_INTENTS_open : Fld := { base := 0x50084, hi := 20, lo := 0, acc := .ro, reset := 0 }
/-- R177: PWC_STREAMS.open. -/
def PWC_STREAMS_open : Fld := { base := 0x50088, hi := 12, lo := 0, acc := .ro, reset := 0 }
/-- R177: PWC_STAGE.used_kib. -/
def PWC_STAGE_used_kib : Fld := { base := 0x5008c, hi := 15, lo := 0, acc := .ro, reset := 0 }
/-- R177: PWC_STALL_US.us. -/
def PWC_STALL_US_us : Fld := { base := 0x50090, hi := 63, lo := 0, acc := .ro, reset := 0, wide := true }
/-- R177: PWC_DSTG_FULL.stripes. -/
def PWC_DSTG_FULL_stripes : Fld := { base := 0x50098, hi := 31, lo := 0, acc := .ro, reset := 0 }
/-- R177: PWC_DSTG_FRESH.stripes. -/
def PWC_DSTG_FRESH_stripes : Fld := { base := 0x5009c, hi := 31, lo := 0, acc := .ro, reset := 0 }
/-- R177: PWC_DSTG_DELTA.stripes. -/
def PWC_DSTG_DELTA_stripes : Fld := { base := 0x500a0, hi := 31, lo := 0, acc := .ro, reset := 0 }
/-- R177: PWC_DSTG_RECON.stripes. -/
def PWC_DSTG_RECON_stripes : Fld := { base := 0x500a4, hi := 31, lo := 0, acc := .ro, reset := 0 }
/-- R177: PWC_BYPASS.count. -/
def PWC_BYPASS_count : Fld := { base := 0x500a8, hi := 31, lo := 0, acc := .ro, reset := 0 }
/-- R177: PWC_CH.state. -/
def PWC_CH_state : Fld := { base := 0x50100, hi := 31, lo := 30, acc := .ro, reset := 0, dims := [(8, 12)] }
/-- R177: PWC_CH.corr. -/
def PWC_CH_corr : Fld := { base := 0x50100, hi := 15, lo := 0, acc := .ro, reset := 0, dims := [(8, 12)] }
/-- R177: PWC_CH_HI.uncorr. -/
def PWC_CH_HI_uncorr : Fld := { base := 0x50104, hi := 15, lo := 0, acc := .ro, reset := 0, dims := [(8, 12)] }
/-- R201: SMC_CAP0.line_bytes. -/
def SMC_CAP0_line_bytes : Fld := { base := 0x60008, hi := 31, lo := 24, acc := .ro, reset := 128 }
/-- R201: SMC_CAP0.ways. -/
def SMC_CAP0_ways : Fld := { base := 0x60008, hi := 23, lo := 16, acc := .ro, reset := 16 }
/-- R201: SMC_CAP0.sets_log2. -/
def SMC_CAP0_sets_log2 : Fld := { base := 0x60008, hi := 4, lo := 0, acc := .ro, reset := 14 }
/-- R201: SMC_CAP1.detectors. -/
def SMC_CAP1_detectors : Fld := { base := 0x6000c, hi := 27, lo := 24, acc := .ro, reset := 4 }
/-- R201: SMC_CAP1.evict_buf. -/
def SMC_CAP1_evict_buf : Fld := { base := 0x6000c, hi := 23, lo := 16, acc := .ro, reset := 16 }
/-- R201: SMC_CAP1.merge. -/
def SMC_CAP1_merge : Fld := { base := 0x6000c, hi := 15, lo := 12, acc := .ro, reset := 8 }
/-- R201: SMC_CAP1.miss_regs. -/
def SMC_CAP1_miss_regs : Fld := { base := 0x6000c, hi := 11, lo := 6, acc := .ro, reset := 32 }
/-- R201: SMC_CAP1.requesters. -/
def SMC_CAP1_requesters : Fld := { base := 0x6000c, hi := 3, lo := 0, acc := .ro, reset := 8 }
/-- R201: SMC_CFG.pf_en. -/
def SMC_CFG_pf_en : Fld := { base := 0x60040, hi := 8, lo := 8, acc := .rw, reset := 1 }
/-- R201: SMC_CFG.pf_depth. -/
def SMC_CFG_pf_depth : Fld := { base := 0x60040, hi := 7, lo := 4, acc := .rw, reset := 2 }
/-- R201: SMC_CFG.miss_mode. -/
def SMC_CFG_miss_mode : Fld := { base := 0x60040, hi := 0, lo := 0, acc := .rw, reset := 1 }
/-- R201: SMC_KEY.next. -/
def SMC_KEY_next : Fld := { base := 0x60044, hi := 29, lo := 16, acc := .rw, reset := 0 }
/-- R201: SMC_KEY.key. -/
def SMC_KEY_key : Fld := { base := 0x60044, hi := 13, lo := 0, acc := .ro, reset := 0 }
/-- R201: SMC_REKEY.go. -/
def SMC_REKEY_go : Fld := { base := 0x60048, hi := 0, lo := 0, acc := .wo, reset := 0 }
/-- R201: SMC_INV.go. -/
def SMC_INV_go : Fld := { base := 0x6004c, hi := 0, lo := 0, acc := .wo, reset := 0 }
/-- R201: SMC_MASK.ways. -/
def SMC_MASK_ways : Fld := { base := 0x60060, hi := 15, lo := 0, acc := .rw, reset := 0, dims := [(4, 8)], resets := [1023, 4095, 12288, 49152, 32768, 3072, 12288, 3840] }
/-- R201: SMC_DIRTY.lines. -/
def SMC_DIRTY_lines : Fld := { base := 0x60080, hi := 18, lo := 0, acc := .ro, reset := 0 }
/-- R201: SMC_EVB.reclaims. -/
def SMC_EVB_reclaims : Fld := { base := 0x60084, hi := 31, lo := 16, acc := .ro, reset := 0 }
/-- R201: SMC_EVB.in_use. -/
def SMC_EVB_in_use : Fld := { base := 0x60084, hi := 4, lo := 0, acc := .ro, reset := 0 }
/-- R201: SMC_REPLAY.count. -/
def SMC_REPLAY_count : Fld := { base := 0x60088, hi := 31, lo := 0, acc := .ro, reset := 0 }
/-- R201: SMC_JOURNAL.entries_k. -/
def SMC_JOURNAL_entries_k : Fld := { base := 0x6008c, hi := 20, lo := 0, acc := .ro, reset := 0 }
/-- R201: SMC_HOT.ratio. -/
def SMC_HOT_ratio : Fld := { base := 0x60090, hi := 31, lo := 16, acc := .ro, reset := 0 }
/-- R201: SMC_HOT.set. -/
def SMC_HOT_set : Fld := { base := 0x60090, hi := 13, lo := 0, acc := .ro, reset := 0 }
/-- R201: SMC_BIST.result. -/
def SMC_BIST_result : Fld := { base := 0x60094, hi := 2, lo := 1, acc := .ro, reset := 0 }
/-- R201: SMC_BIST.go. -/
def SMC_BIST_go : Fld := { base := 0x60094, hi := 0, lo := 0, acc := .wo, reset := 0 }
/-- R201: SMC_BYPASS.count. -/
def SMC_BYPASS_count : Fld := { base := 0x60098, hi := 31, lo := 0, acc := .ro, reset := 0 }
/-- R201: SMC_REQ_HIT.hits. -/
def SMC_REQ_HIT_hits : Fld := { base := 0x60100, hi := 63, lo := 0, acc := .ro, reset := 0, wide := true, dims := [(16, 8)] }
/-- R201: SMC_REQ_MISS.misses. -/
def SMC_REQ_MISS_misses : Fld := { base := 0x60108, hi := 63, lo := 0, acc := .ro, reset := 0, wide := true, dims := [(16, 8)] }
/-- R231: MNT_CAP0.slots. -/
def MNT_CAP0_slots : Fld := { base := 0x90008, hi := 12, lo := 8, acc := .ro, reset := 16 }
/-- R231: MNT_CAP0.activities. -/
def MNT_CAP0_activities : Fld := { base := 0x90008, hi := 3, lo := 0, acc := .ro, reset := 10 }
/-- R231: MNT_ARB_RUN.run. -/
def MNT_ARB_RUN_run : Fld := { base := 0x90050, hi := 9, lo := 0, acc := .ro, reset := 0 }
/-- R231: MNT_ARB_WAIT.wait. -/
def MNT_ARB_WAIT_wait : Fld := { base := 0x90054, hi := 9, lo := 0, acc := .ro, reset := 0 }
/-- R231: MNT_SHARE.dpx_maint_crit. -/
def MNT_SHARE_dpx_maint_crit : Fld := { base := 0x90060, hi := 31, lo := 28, acc := .rws, reset := 1 }
/-- R231: MNT_SHARE.dpx_host_crit. -/
def MNT_SHARE_dpx_host_crit : Fld := { base := 0x90060, hi := 27, lo := 24, acc := .rws, reset := 1 }
/-- R231: MNT_SHARE.dpx_maint. -/
def MNT_SHARE_dpx_maint : Fld := { base := 0x90060, hi := 23, lo := 20, acc := .rws, reset := 1 }
/-- R231: MNT_SHARE.dpx_host. -/
def MNT_SHARE_dpx_host : Fld := { base := 0x90060, hi := 19, lo := 16, acc := .rws, reset := 3 }
/-- R231: MNT_SHARE.ece_restripe. -/
def MNT_SHARE_ece_restripe : Fld := { base := 0x90060, hi := 15, lo := 8, acc := .rws, reset := 1 }
/-- R231: MNT_SHARE.ece_rebuild. -/
def MNT_SHARE_ece_rebuild : Fld := { base := 0x90060, hi := 7, lo := 0, acc := .rws, reset := 3 }
/-- R231: MNT_CFG.auto_rebuild. -/
def MNT_CFG_auto_rebuild : Fld := { base := 0x90064, hi := 31, lo := 31, acc := .rws, reset := 1 }
/-- R231: MNT_CFG.assemble_s. -/
def MNT_CFG_assemble_s : Fld := { base := 0x90064, hi := 25, lo := 16, acc := .rws, reset := 60 }
/-- R231: MNT_CFG.missing_s. -/
def MNT_CFG_missing_s : Fld := { base := 0x90064, hi := 15, lo := 0, acc := .rws, reset := 300 }
/-- R231: MNT_SCRUB_CFG.en. -/
def MNT_SCRUB_CFG_en : Fld := { base := 0x90068, hi := 31, lo := 31, acc := .rws, reset := 1 }
/-- R231: MNT_SCRUB_CFG.period_days. -/
def MNT_SCRUB_CFG_period_days : Fld := { base := 0x90068, hi := 8, lo := 0, acc := .rws, reset := 30 }
/-- R231: MNT_HOT_CFG.smc_ratio. -/
def MNT_HOT_CFG_smc_ratio : Fld := { base := 0x9006c, hi := 31, lo := 16, acc := .rws, reset := 800 }
/-- R231: MNT_HOT_CFG.layout_ratio. -/
def MNT_HOT_CFG_layout_ratio : Fld := { base := 0x9006c, hi := 15, lo := 0, acc := .rws, reset := 300 }
/-- R231: MNT_RBLD_RATE.max_mbps. -/
def MNT_RBLD_RATE_max_mbps : Fld := { base := 0x90070, hi := 31, lo := 0, acc := .rws, reset := 0 }
/-- R231: MNT_DFW_SRC.offset. -/
def MNT_DFW_SRC_offset : Fld := { base := 0x90080, hi := 63, lo := 0, acc := .rw, reset := 0, wide := true }
/-- R231: MNT_DFW_LEN.bytes. -/
def MNT_DFW_LEN_bytes : Fld := { base := 0x90088, hi := 31, lo := 0, acc := .rw, reset := 0 }
/-- R231: MNT_DFW_CTRL.timeout_s. -/
def MNT_DFW_CTRL_timeout_s : Fld := { base := 0x9008c, hi := 31, lo := 16, acc := .rw, reset := 120 }
/-- R231: MNT_DFW_CTRL.go. -/
def MNT_DFW_CTRL_go : Fld := { base := 0x9008c, hi := 0, lo := 0, acc := .wo, reset := 0 }
/-- R231: MNT_DFW_STAT.running. -/
def MNT_DFW_STAT_running : Fld := { base := 0x90090, hi := 31, lo := 31, acc := .ro, reset := 0 }
/-- R231: MNT_DFW_STAT.failed. -/
def MNT_DFW_STAT_failed : Fld := { base := 0x90090, hi := 17, lo := 9, acc := .ro, reset := 0 }
/-- R231: MNT_DFW_STAT.done. -/
def MNT_DFW_STAT_done : Fld := { base := 0x90090, hi := 8, lo := 0, acc := .ro, reset := 0 }
/-- R231: MNT_DFW_PORTS.ports. -/
def MNT_DFW_PORTS_ports : Fld := { base := 0x900a0, hi := 31, lo := 0, acc := .rw, reset := 0, dims := [(4, 8)] }
/-- R232: AR_MSTATE.missed. -/
def AR_MSTATE_missed : Fld := { base := 0x400400, hi := 31, lo := 16, acc := .ro, reset := 0, dims := [(4096, 16), (4, 256)] }
/-- R232: AR_MSTATE.slotted. -/
def AR_MSTATE_slotted : Fld := { base := 0x400400, hi := 8, lo := 8, acc := .ro, reset := 0, dims := [(4096, 16), (4, 256)] }
/-- R232: AR_MSTATE.slot. -/
def AR_MSTATE_slot : Fld := { base := 0x400400, hi := 7, lo := 4, acc := .ro, reset := 0, dims := [(4096, 16), (4, 256)] }
/-- R232: AR_MSTATE.state. -/
def AR_MSTATE_state : Fld := { base := 0x400400, hi := 2, lo := 0, acc := .ro, reset := 0, dims := [(4096, 16), (4, 256)] }
/-- R232: AR_MCTRL.action. -/
def AR_MCTRL_action : Fld := { base := 0x400800, hi := 31, lo := 30, acc := .wo, reset := 0, dims := [(4096, 16)] }
/-- R232: AR_MCTRL.port. -/
def AR_MCTRL_port : Fld := { base := 0x400800, hi := 24, lo := 16, acc := .wo, reset := 0, dims := [(4096, 16)] }
/-- R232: AR_MCTRL.member. -/
def AR_MCTRL_member : Fld := { base := 0x400800, hi := 7, lo := 0, acc := .wo, reset := 0, dims := [(4096, 16)] }
/-- R232: AR_MCTRL_STAT.member. -/
def AR_MCTRL_STAT_member : Fld := { base := 0x400804, hi := 15, lo := 8, acc := .ro, reset := 0, dims := [(4096, 16)] }
/-- R232: AR_MCTRL_STAT.result. -/
def AR_MCTRL_STAT_result : Fld := { base := 0x400804, hi := 2, lo := 0, acc := .ro, reset := 0, dims := [(4096, 16)] }
/-- R232: AR_SLOT.state. -/
def AR_SLOT_state : Fld := { base := 0x400840, hi := 31, lo := 30, acc := .ro, reset := 0, dims := [(4096, 16), (4, 16)] }
/-- R232: AR_SLOT.member. -/
def AR_SLOT_member : Fld := { base := 0x400840, hi := 7, lo := 0, acc := .ro, reset := 0, dims := [(4096, 16), (4, 16)] }
/-- R232: AR_REDUND.lost. -/
def AR_REDUND_lost : Fld := { base := 0x400880, hi := 24, lo := 16, acc := .ro, reset := 0, dims := [(4096, 16)] }
/-- R232: AR_REDUND.l. -/
def AR_REDUND_l : Fld := { base := 0x400880, hi := 10, lo := 8, acc := .ro, reset := 0, dims := [(4096, 16)] }
/-- R232: AR_REDUND.left. -/
def AR_REDUND_left : Fld := { base := 0x400880, hi := 2, lo := 0, acc := .ro, reset := 0, dims := [(4096, 16)] }
/-- R232: AR_RBLD.running. -/
def AR_RBLD_running : Fld := { base := 0x400884, hi := 31, lo := 31, acc := .ro, reset := 0, dims := [(4096, 16)] }
/-- R232: AR_RBLD.pass. -/
def AR_RBLD_pass : Fld := { base := 0x400884, hi := 30, lo := 28, acc := .ro, reset := 0, dims := [(4096, 16)] }
/-- R232: AR_RBLD.permille. -/
def AR_RBLD_permille : Fld := { base := 0x400884, hi := 25, lo := 16, acc := .ro, reset := 0, dims := [(4096, 16)] }
/-- R232: AR_RBLD_ETA.s. -/
def AR_RBLD_ETA_s : Fld := { base := 0x400888, hi := 31, lo := 0, acc := .ro, reset := 0, dims := [(4096, 16)] }
/-- R232: AR_RBLD_CUR.cycle. -/
def AR_RBLD_CUR_cycle : Fld := { base := 0x400890, hi := 63, lo := 0, acc := .ro, reset := 0, wide := true, dims := [(4096, 16)] }
/-- R232: AR_RBLD_UNPLACED.units. -/
def AR_RBLD_UNPLACED_units : Fld := { base := 0x400898, hi := 63, lo := 0, acc := .ro, reset := 0, wide := true, dims := [(4096, 16)] }
/-- R232: AR_CPBK.running. -/
def AR_CPBK_running : Fld := { base := 0x4008a0, hi := 31, lo := 31, acc := .ro, reset := 0, dims := [(4096, 16)] }
/-- R232: AR_CPBK.member. -/
def AR_CPBK_member : Fld := { base := 0x4008a0, hi := 7, lo := 0, acc := .ro, reset := 0, dims := [(4096, 16)] }
/-- R232: AR_CPBK_CUR.cycle. -/
def AR_CPBK_CUR_cycle : Fld := { base := 0x4008a8, hi := 63, lo := 0, acc := .ro, reset := 0, wide := true, dims := [(4096, 16)] }
/-- R232: AR_SCRUB.running. -/
def AR_SCRUB_running : Fld := { base := 0x4008b0, hi := 31, lo := 31, acc := .ro, reset := 0, dims := [(4096, 16)] }
/-- R232: AR_SCRUB.paused. -/
def AR_SCRUB_paused : Fld := { base := 0x4008b0, hi := 30, lo := 30, acc := .ro, reset := 0, dims := [(4096, 16)] }
/-- R232: AR_SCRUB.permille. -/
def AR_SCRUB_permille : Fld := { base := 0x4008b0, hi := 25, lo := 16, acc := .ro, reset := 0, dims := [(4096, 16)] }
/-- R232: AR_SCRUB_CUR.stripe. -/
def AR_SCRUB_CUR_stripe : Fld := { base := 0x4008b8, hi := 63, lo := 0, acc := .ro, reset := 0, wide := true, dims := [(4096, 16)] }
/-- R232: AR_SCRUB_CNT.repaired. -/
def AR_SCRUB_CNT_repaired : Fld := { base := 0x4008c0, hi := 31, lo := 16, acc := .ro, reset := 0, dims := [(4096, 16)] }
/-- R232: AR_SCRUB_CNT.unrepaired. -/
def AR_SCRUB_CNT_unrepaired : Fld := { base := 0x4008c0, hi := 15, lo := 0, acc := .ro, reset := 0, dims := [(4096, 16)] }
/-- R232: AR_SCRUB_LAST.ts. -/
def AR_SCRUB_LAST_ts : Fld := { base := 0x4008c8, hi := 63, lo := 0, acc := .ro, reset := 0, wide := true, dims := [(4096, 16)] }
/-- R232: AR_RS_CFG.go. -/
def AR_RS_CFG_go : Fld := { base := 0x4008d0, hi := 31, lo := 31, acc := .rws, reset := 0, dims := [(4096, 16)] }
/-- R232: AR_RS_CFG.m. -/
def AR_RS_CFG_m : Fld := { base := 0x4008d0, hi := 26, lo := 24, acc := .rws, reset := 0, dims := [(4096, 16)] }
/-- R232: AR_RS_CFG.k. -/
def AR_RS_CFG_k : Fld := { base := 0x4008d0, hi := 20, lo := 16, acc := .rws, reset := 0, dims := [(4096, 16)] }
/-- R232: AR_RS_CFG.spares. -/
def AR_RS_CFG_spares : Fld := { base := 0x4008d0, hi := 4, lo := 0, acc := .rws, reset := 0, dims := [(4096, 16)] }
/-- R232: AR_RS_SEED.seed. -/
def AR_RS_SEED_seed : Fld := { base := 0x4008d8, hi := 63, lo := 0, acc := .rws, reset := 0, wide := true, dims := [(4096, 16)] }
/-- R232: AR_RS_STAT.running. -/
def AR_RS_STAT_running : Fld := { base := 0x4008e0, hi := 31, lo := 31, acc := .ro, reset := 0, dims := [(4096, 16)] }
/-- R232: AR_RS_STAT.paused. -/
def AR_RS_STAT_paused : Fld := { base := 0x4008e0, hi := 30, lo := 30, acc := .ro, reset := 0, dims := [(4096, 16)] }
/-- R232: AR_RS_STAT.descending. -/
def AR_RS_STAT_descending : Fld := { base := 0x4008e0, hi := 29, lo := 29, acc := .ro, reset := 0, dims := [(4096, 16)] }
/-- R232: AR_RS_STAT.permille. -/
def AR_RS_STAT_permille : Fld := { base := 0x4008e0, hi := 25, lo := 16, acc := .ro, reset := 0, dims := [(4096, 16)] }
/-- R232: AR_RS_CUR.cycle. -/
def AR_RS_CUR_cycle : Fld := { base := 0x4008e8, hi := 63, lo := 0, acc := .ro, reset := 0, wide := true, dims := [(4096, 16)] }
/-- R232: AR_HOT.ratio. -/
def AR_HOT_ratio : Fld := { base := 0x4008f0, hi := 31, lo := 16, acc := .ro, reset := 0, dims := [(4096, 16)] }
/-- R232: AR_HOT.member. -/
def AR_HOT_member : Fld := { base := 0x4008f0, hi := 7, lo := 0, acc := .ro, reset := 0, dims := [(4096, 16)] }
/-- R232: AR_RS_MEMBER.valid_hi. -/
def AR_RS_MEMBER_valid_hi : Fld := { base := 0x400900, hi := 31, lo := 31, acc := .rws, reset := 0, dims := [(4096, 16), (4, 128)] }
/-- R232: AR_RS_MEMBER.port_hi. -/
def AR_RS_MEMBER_port_hi : Fld := { base := 0x400900, hi := 24, lo := 16, acc := .rws, reset := 0, dims := [(4096, 16), (4, 128)] }
/-- R232: AR_RS_MEMBER.valid_lo. -/
def AR_RS_MEMBER_valid_lo : Fld := { base := 0x400900, hi := 15, lo := 15, acc := .rws, reset := 0, dims := [(4096, 16), (4, 128)] }
/-- R232: AR_RS_MEMBER.port_lo. -/
def AR_RS_MEMBER_port_lo : Fld := { base := 0x400900, hi := 8, lo := 0, acc := .rws, reset := 0, dims := [(4096, 16), (4, 128)] }
/-- R256: DPX_CAP0.sata_qd. -/
def DPX_CAP0_sata_qd : Fld := { base := 0xd0008, hi := 31, lo := 24, acc := .ro, reset := 32 }
/-- R256: DPX_CAP0.sas_qd. -/
def DPX_CAP0_sas_qd : Fld := { base := 0xd0008, hi := 23, lo := 16, acc := .ro, reset := 128 }
/-- R256: DPX_CAP0.clusters. -/
def DPX_CAP0_clusters : Fld := { base := 0xd0008, hi := 15, lo := 12, acc := .ro, reset := 8 }
/-- R256: DPX_CAP0.ports. -/
def DPX_CAP0_ports : Fld := { base := 0xd0008, hi := 8, lo := 0, acc := .ro, reset := 256 }
/-- R256: DPX_CAP1.max_tib. -/
def DPX_CAP1_max_tib : Fld := { base := 0xd000c, hi := 31, lo := 16, acc := .ro, reset := 64 }
/-- R256: DPX_CAP1.max_rate. -/
def DPX_CAP1_max_rate : Fld := { base := 0xd000c, hi := 2, lo := 0, acc := .ro, reset := 5 }
/-- R256: DPX_CFG.spinup_max. -/
def DPX_CFG_spinup_max : Fld := { base := 0xd0050, hi := 31, lo := 24, acc := .rws, reset := 8 }
/-- R256: DPX_CFG.ready_s. -/
def DPX_CFG_ready_s : Fld := { base := 0xd0050, hi := 23, lo := 16, acc := .rws, reset := 60 }
/-- R256: DPX_CFG.grace_ms. -/
def DPX_CFG_grace_ms : Fld := { base := 0xd0050, hi := 15, lo := 0, acc := .rws, reset := 2000 }
/-- R256: DPX_TMO.io_ms. -/
def DPX_TMO_io_ms : Fld := { base := 0xd0054, hi := 31, lo := 16, acc := .rws, reset := 7000 }
/-- R256: DPX_TMO.long_s. -/
def DPX_TMO_long_s : Fld := { base := 0xd0054, hi := 15, lo := 0, acc := .rws, reset := 120 }
/-- R256: DPX_SG.en. -/
def DPX_SG_en : Fld := { base := 0xd0058, hi := 31, lo := 31, acc := .rw, reset := 1 }
/-- R256: DPX_SG.clk_khz. -/
def DPX_SG_clk_khz : Fld := { base := 0xd0058, hi := 7, lo := 0, acc := .rw, reset := 100 }
/-- R256: DPX_CL.en. -/
def DPX_CL_en : Fld := { base := 0xd0100, hi := 31, lo := 31, acc := .rw, reset := 1, dims := [(8, 8)] }
/-- R256: DPX_CL.reset. -/
def DPX_CL_reset : Fld := { base := 0xd0100, hi := 30, lo := 30, acc := .wo, reset := 0, dims := [(8, 8)] }
/-- R256: DPX_CL.state. -/
def DPX_CL_state : Fld := { base := 0xd0100, hi := 1, lo := 0, acc := .ro, reset := 1, dims := [(8, 8)] }
/-- R256: DPX_CL_HI.mhz. -/
def DPX_CL_HI_mhz : Fld := { base := 0xd0104, hi := 31, lo := 16, acc := .ro, reset := 0, dims := [(8, 8)] }
/-- R256: DPX_CL_HI.linked. -/
def DPX_CL_HI_linked : Fld := { base := 0xd0104, hi := 5, lo := 0, acc := .ro, reset := 0, dims := [(8, 8)] }
/-- R257: PT_CFG.en. -/
def PT_CFG_en : Fld := { base := 0x200000, hi := 31, lo := 31, acc := .rws, reset := 1, dims := [(4096, 256)] }
/-- R257: PT_CFG.fail_on_pfa. -/
def PT_CFG_fail_on_pfa : Fld := { base := 0x200000, hi := 30, lo := 30, acc := .rws, reset := 0, dims := [(4096, 256)] }
/-- R257: PT_CFG.max_rate. -/
def PT_CFG_max_rate : Fld := { base := 0x200000, hi := 26, lo := 24, acc := .rws, reset := 0, dims := [(4096, 256)] }
/-- R257: PT_CFG.qd. -/
def PT_CFG_qd : Fld := { base := 0x200000, hi := 7, lo := 0, acc := .rws, reset := 0, dims := [(4096, 256)] }
/-- R257: PT_STAT.state. -/
def PT_STAT_state : Fld := { base := 0x200004, hi := 31, lo := 28, acc := .ro, reset := 0, dims := [(4096, 256)] }
/-- R257: PT_STAT.reason. -/
def PT_STAT_reason : Fld := { base := 0x200004, hi := 27, lo := 24, acc := .ro, reset := 0, dims := [(4096, 256)] }
/-- R257: PT_STAT.rate. -/
def PT_STAT_rate : Fld := { base := 0x200004, hi := 23, lo := 21, acc := .ro, reset := 0, dims := [(4096, 256)] }
/-- R257: PT_STAT.protocol. -/
def PT_STAT_protocol : Fld := { base := 0x200004, hi := 20, lo := 19, acc := .ro, reset := 0, dims := [(4096, 256)] }
/-- R257: PT_STAT.member. -/
def PT_STAT_member : Fld := { base := 0x200004, hi := 18, lo := 18, acc := .ro, reset := 0, dims := [(4096, 256)] }
/-- R257: PT_STAT.ncq. -/
def PT_STAT_ncq : Fld := { base := 0x200004, hi := 17, lo := 17, acc := .ro, reset := 0, dims := [(4096, 256)] }
/-- R257: PT_STAT.pfa. -/
def PT_STAT_pfa : Fld := { base := 0x200004, hi := 16, lo := 16, acc := .ro, reset := 0, dims := [(4096, 256)] }
/-- R257: PT_STAT.present. -/
def PT_STAT_present : Fld := { base := 0x200004, hi := 15, lo := 15, acc := .ro, reset := 0, dims := [(4096, 256)] }
/-- R257: PT_STAT.outstanding. -/
def PT_STAT_outstanding : Fld := { base := 0x200004, hi := 7, lo := 0, acc := .ro, reset := 0, dims := [(4096, 256)] }
/-- R257: PT_ID.id. -/
def PT_ID_id : Fld := { base := 0x200008, hi := 63, lo := 0, acc := .ro, reset := 0, wide := true, dims := [(4096, 256)] }
/-- R257: PT_BLOCKS.blocks. -/
def PT_BLOCKS_blocks : Fld := { base := 0x200010, hi := 63, lo := 0, acc := .ro, reset := 0, wide := true, dims := [(4096, 256)] }
/-- R257: PT_FMT.phys_bytes. -/
def PT_FMT_phys_bytes : Fld := { base := 0x200018, hi := 31, lo := 16, acc := .ro, reset := 0, dims := [(4096, 256)] }
/-- R257: PT_FMT.log_bytes. -/
def PT_FMT_log_bytes : Fld := { base := 0x200018, hi := 15, lo := 0, acc := .ro, reset := 0, dims := [(4096, 256)] }
/-- R257: PT_FWREV.rev. -/
def PT_FWREV_rev : Fld := { base := 0x200020, hi := 63, lo := 0, acc := .ro, reset := 0, wide := true, dims := [(4096, 256)] }
/-- R257: PT_CTRL.loop_stop. -/
def PT_CTRL_loop_stop : Fld := { base := 0x200028, hi := 3, lo := 3, acc := .wo, reset := 0, dims := [(4096, 256)] }
/-- R257: PT_CTRL.loop_start. -/
def PT_CTRL_loop_start : Fld := { base := 0x200028, hi := 2, lo := 2, acc := .wo, reset := 0, dims := [(4096, 256)] }
/-- R257: PT_CTRL.fail. -/
def PT_CTRL_fail : Fld := { base := 0x200028, hi := 1, lo := 1, acc := .wo, reset := 0, dims := [(4096, 256)] }
/-- R257: PT_CTRL.reset. -/
def PT_CTRL_reset : Fld := { base := 0x200028, hi := 0, lo := 0, acc := .wo, reset := 0, dims := [(4096, 256)] }
/-- R257: PT_LED.fail. -/
def PT_LED_fail : Fld := { base := 0x20002c, hi := 1, lo := 1, acc := .rw, reset := 0, dims := [(4096, 256)] }
/-- R257: PT_LED.locate. -/
def PT_LED_locate : Fld := { base := 0x20002c, hi := 0, lo := 0, acc := .rw, reset := 0, dims := [(4096, 256)] }
/-- R257: PT_ERR.transport. -/
def PT_ERR_transport : Fld := { base := 0x200030, hi := 31, lo := 16, acc := .ro, reset := 0, dims := [(4096, 256)] }
/-- R257: PT_ERR.medium. -/
def PT_ERR_medium : Fld := { base := 0x200030, hi := 15, lo := 0, acc := .ro, reset := 0, dims := [(4096, 256)] }
/-- R257: PT_RECOV.recoveries. -/
def PT_RECOV_recoveries : Fld := { base := 0x200034, hi := 31, lo := 16, acc := .ro, reset := 0, dims := [(4096, 256)] }
/-- R257: PT_RECOV.timeouts. -/
def PT_RECOV_timeouts : Fld := { base := 0x200034, hi := 15, lo := 0, acc := .ro, reset := 0, dims := [(4096, 256)] }
/-- R257: PT_SENSE.kind. -/
def PT_SENSE_kind : Fld := { base := 0x200038, hi := 24, lo := 24, acc := .ro, reset := 0, dims := [(4096, 256)] }
/-- R257: PT_SENSE.last. -/
def PT_SENSE_last : Fld := { base := 0x200038, hi := 23, lo := 0, acc := .ro, reset := 0, dims := [(4096, 256)] }
/-- R257: PT_LOOP.errors. -/
def PT_LOOP_errors : Fld := { base := 0x200040, hi := 31, lo := 16, acc := .ro, reset := 0, dims := [(4096, 256)] }
/-- R257: PT_LOOP.pass. -/
def PT_LOOP_pass : Fld := { base := 0x200040, hi := 1, lo := 1, acc := .ro, reset := 0, dims := [(4096, 256)] }
/-- R257: PT_LOOP.running. -/
def PT_LOOP_running : Fld := { base := 0x200040, hi := 0, lo := 0, acc := .ro, reset := 0, dims := [(4096, 256)] }
/-- R258: AR_PWR_CFG.standby_min. -/
def AR_PWR_CFG_standby_min : Fld := { base := 0x400080, hi := 31, lo := 16, acc := .rws, reset := 0, dims := [(4096, 16)] }
/-- R258: AR_PWR_CFG.idle_s. -/
def AR_PWR_CFG_idle_s : Fld := { base := 0x400080, hi := 15, lo := 0, acc := .rws, reset := 0, dims := [(4096, 16)] }
/-- R258: AR_PWR_COLD.cold_min. -/
def AR_PWR_COLD_cold_min : Fld := { base := 0x400084, hi := 15, lo := 0, acc := .rws, reset := 0, dims := [(4096, 16)] }
/-- R258: AR_PWR_STAT.entering. -/
def AR_PWR_STAT_entering : Fld := { base := 0x400088, hi := 31, lo := 31, acc := .ro, reset := 0, dims := [(4096, 16)] }
/-- R258: AR_PWR_STAT.exiting. -/
def AR_PWR_STAT_exiting : Fld := { base := 0x400088, hi := 30, lo := 30, acc := .ro, reset := 0, dims := [(4096, 16)] }
/-- R258: AR_PWR_STAT.pstate. -/
def AR_PWR_STAT_pstate : Fld := { base := 0x400088, hi := 1, lo := 0, acc := .ro, reset := 0, dims := [(4096, 16)] }
/-- R258: AR_PWR_LAT.ms. -/
def AR_PWR_LAT_ms : Fld := { base := 0x400090, hi := 31, lo := 0, acc := .ro, reset := 600, dims := [(4096, 16), (4, 3)], resets := [600, 60000, 72000] }
/-- R258: AR_PWR_CTRL.lat_clear. -/
def AR_PWR_CTRL_lat_clear : Fld := { base := 0x4000a0, hi := 1, lo := 1, acc := .wo, reset := 0, dims := [(4096, 16)] }
/-- R258: AR_PWR_CTRL.wake. -/
def AR_PWR_CTRL_wake : Fld := { base := 0x4000a0, hi := 0, lo := 0, acc := .wo, reset := 0, dims := [(4096, 16)] }
/-- R258: AR_PWR_LP.count. -/
def AR_PWR_LP_count : Fld := { base := 0x4000a4, hi := 31, lo := 0, acc := .ro, reset := 0, dims := [(4096, 16)] }
/-- R287: BPS_CAP0.sample_khz. -/
def BPS_CAP0_sample_khz : Fld := { base := 0x40008, hi := 23, lo := 16, acc := .ro, reset := 10 }
/-- R287: BPS_CAP0.ntcs. -/
def BPS_CAP0_ntcs : Fld := { base := 0x40008, hi := 11, lo := 8, acc := .ro, reset := 2 }
/-- R287: BPS_CAP0.adcs. -/
def BPS_CAP0_adcs : Fld := { base := 0x40008, hi := 7, lo := 4, acc := .ro, reset := 2 }
/-- R287: BPS_CAP0.max_cells. -/
def BPS_CAP0_max_cells : Fld := { base := 0x40008, hi := 2, lo := 0, acc := .ro, reset := 4 }
/-- R287: BPS_CAP1.max_mah. -/
def BPS_CAP1_max_mah : Fld := { base := 0x4000c, hi := 31, lo := 16, acc := .ro, reset := 20000 }
/-- R287: BPS_CAP1.min_mah_100. -/
def BPS_CAP1_min_mah_100 : Fld := { base := 0x4000c, hi := 15, lo := 8, acc := .ro, reset := 5 }
/-- R287: BPS_CAP1.chem. -/
def BPS_CAP1_chem : Fld := { base := 0x4000c, hi := 1, lo := 0, acc := .ro, reset := 3 }
/-- R287: BPS_CELL.mv. -/
def BPS_CELL_mv : Fld := { base := 0x40050, hi := 15, lo := 0, acc := .ro, reset := 0, dims := [(4, 4)] }
/-- R287: BPS_CUR.ma. -/
def BPS_CUR_ma : Fld := { base := 0x40060, hi := 31, lo := 0, acc := .ro, reset := 0 }
/-- R287: BPS_TEMP.ntc1. -/
def BPS_TEMP_ntc1 : Fld := { base := 0x40064, hi := 31, lo := 16, acc := .ro, reset := 0 }
/-- R287: BPS_TEMP.ntc0. -/
def BPS_TEMP_ntc0 : Fld := { base := 0x40064, hi := 15, lo := 0, acc := .ro, reset := 0 }
/-- R287: BPS_PACK.present. -/
def BPS_PACK_present : Fld := { base := 0x40068, hi := 31, lo := 31, acc := .ro, reset := 0 }
/-- R287: BPS_PACK.pwr_good. -/
def BPS_PACK_pwr_good : Fld := { base := 0x40068, hi := 30, lo := 30, acc := .ro, reset := 0 }
/-- R287: BPS_PACK.pwr_fail. -/
def BPS_PACK_pwr_fail : Fld := { base := 0x40068, hi := 29, lo := 29, acc := .ro, reset := 0 }
/-- R287: BPS_PACK.mv. -/
def BPS_PACK_mv : Fld := { base := 0x40068, hi := 15, lo := 0, acc := .ro, reset := 0 }
/-- R287: BPS_ADC.ramp. -/
def BPS_ADC_ramp : Fld := { base := 0x4006c, hi := 5, lo := 5, acc := .ro, reset := 0 }
/-- R287: BPS_ADC.primary. -/
def BPS_ADC_primary : Fld := { base := 0x4006c, hi := 4, lo := 4, acc := .ro, reset := 0 }
/-- R287: BPS_ADC.adc1_ok. -/
def BPS_ADC_adc1_ok : Fld := { base := 0x4006c, hi := 1, lo := 1, acc := .ro, reset := 1 }
/-- R287: BPS_ADC.adc0_ok. -/
def BPS_ADC_adc0_ok : Fld := { base := 0x4006c, hi := 0, lo := 0, acc := .ro, reset := 1 }
/-- R287: BPS_HALO_STAT.mode. -/
def BPS_HALO_STAT_mode : Fld := { base := 0x40070, hi := 31, lo := 30, acc := .ro, reset := 0 }
/-- R287: BPS_HALO_STAT.causes. -/
def BPS_HALO_STAT_causes : Fld := { base := 0x40070, hi := 22, lo := 16, acc := .ro, reset := 1 }
/-- R287: BPS_HALO_STAT.soc. -/
def BPS_HALO_STAT_soc : Fld := { base := 0x40070, hi := 15, lo := 0, acc := .ro, reset := 0 }
/-- R287: BPS_HALO_U.u_q. -/
def BPS_HALO_U_u_q : Fld := { base := 0x40074, hi := 31, lo := 16, acc := .ro, reset := 2000 }
/-- R287: BPS_HALO_U.u. -/
def BPS_HALO_U_u : Fld := { base := 0x40074, hi := 15, lo := 0, acc := .ro, reset := 0 }
/-- R287: BPS_E_LOW.j. -/
def BPS_E_LOW_j : Fld := { base := 0x40078, hi := 31, lo := 0, acc := .ro, reset := 0 }
/-- R287: BPS_VOLT.v_ocv. -/
def BPS_VOLT_v_ocv : Fld := { base := 0x4007c, hi := 31, lo := 16, acc := .ro, reset := 0 }
/-- R287: BPS_VOLT.v_min. -/
def BPS_VOLT_v_min : Fld := { base := 0x4007c, hi := 15, lo := 0, acc := .ro, reset := 0 }
/-- R287: BPS_R.r0. -/
def BPS_R_r0 : Fld := { base := 0x40080, hi := 31, lo := 16, acc := .ro, reset := 0 }
/-- R287: BPS_R.r_dc. -/
def BPS_R_r_dc : Fld := { base := 0x40080, hi := 15, lo := 0, acc := .ro, reset := 0 }
/-- R287: BPS_R_LAST.r0. -/
def BPS_R_LAST_r0 : Fld := { base := 0x40084, hi := 31, lo := 16, acc := .ro, reset := 0 }
/-- R287: BPS_R_LAST.r_dc. -/
def BPS_R_LAST_r_dc : Fld := { base := 0x40084, hi := 15, lo := 0, acc := .ro, reset := 0 }
/-- R287: BPS_REST.since_h. -/
def BPS_REST_since_h : Fld := { base := 0x40088, hi := 31, lo := 16, acc := .ro, reset := 0 }
/-- R287: BPS_REST.cand_min. -/
def BPS_REST_cand_min : Fld := { base := 0x40088, hi := 7, lo := 0, acc := .ro, reset := 0 }
/-- R287: BPS_REST_TS.ts. -/
def BPS_REST_TS_ts : Fld := { base := 0x40090, hi := 63, lo := 0, acc := .ro, reset := 0, wide := true }
/-- R287: BPS_Q.learned. -/
def BPS_Q_learned : Fld := { base := 0x40098, hi := 31, lo := 16, acc := .ro, reset := 0 }
/-- R287: BPS_Q.design. -/
def BPS_Q_design : Fld := { base := 0x40098, hi := 15, lo := 0, acc := .ro, reset := 0 }
/-- R287: BPS_LEARN_STAT.phase. -/
def BPS_LEARN_STAT_phase : Fld := { base := 0x4009c, hi := 31, lo := 28, acc := .ro, reset := 0 }
/-- R287: BPS_LEARN_STAT.result. -/
def BPS_LEARN_STAT_result : Fld := { base := 0x4009c, hi := 25, lo := 24, acc := .ro, reset := 0 }
/-- R287: BPS_LEARN_STAT.reason. -/
def BPS_LEARN_STAT_reason : Fld := { base := 0x4009c, hi := 19, lo := 16, acc := .ro, reset := 0 }
/-- R287: BPS_LEARN_STAT.due_days. -/
def BPS_LEARN_STAT_due_days : Fld := { base := 0x4009c, hi := 15, lo := 0, acc := .ro, reset := 0 }
/-- R287: BPS_LEARN_TS.ts. -/
def BPS_LEARN_TS_ts : Fld := { base := 0x400a0, hi := 63, lo := 0, acc := .ro, reset := 0, wide := true }
/-- R287: BPS_LEARN_CFG.interval_days. -/
def BPS_LEARN_CFG_interval_days : Fld := { base := 0x400a8, hi := 31, lo := 16, acc := .rws, reset := 90 }
/-- R287: BPS_LEARN_CFG.rate_c100. -/
def BPS_LEARN_CFG_rate_c100 : Fld := { base := 0x400a8, hi := 15, lo := 8, acc := .rws, reset := 20 }
/-- R287: BPS_LEARN_CTRL.abort. -/
def BPS_LEARN_CTRL_abort : Fld := { base := 0x400ac, hi := 1, lo := 1, acc := .wo, reset := 0 }
/-- R287: BPS_LEARN_CTRL.go. -/
def BPS_LEARN_CTRL_go : Fld := { base := 0x400ac, hi := 0, lo := 0, acc := .wo, reset := 0 }
/-- R287: BPS_HALO_CFG.drift. -/
def BPS_HALO_CFG_drift : Fld := { base := 0x400b0, hi := 15, lo := 0, acc := .rws, reset := 250 }
/-- R287: BPS_CHG_STAT.state. -/
def BPS_CHG_STAT_state : Fld := { base := 0x400b4, hi := 31, lo := 28, acc := .ro, reset := 5 }
/-- R287: BPS_CHG_STAT.inhibit. -/
def BPS_CHG_STAT_inhibit : Fld := { base := 0x400b4, hi := 23, lo := 16, acc := .ro, reset := 0 }
/-- R287: BPS_CHG_STAT.duty. -/
def BPS_CHG_STAT_duty : Fld := { base := 0x400b4, hi := 15, lo := 0, acc := .ro, reset := 0 }
/-- R287: BPS_CHG_CTRL.inhibit. -/
def BPS_CHG_CTRL_inhibit : Fld := { base := 0x400b8, hi := 0, lo := 0, acc := .rw, reset := 0 }
/-- R287: BPS_STEP.accepted. -/
def BPS_STEP_accepted : Fld := { base := 0x400bc, hi := 31, lo := 16, acc := .ro, reset := 0 }
/-- R287: BPS_STEP.rejected. -/
def BPS_STEP_rejected : Fld := { base := 0x400bc, hi := 15, lo := 8, acc := .ro, reset := 0 }
/-- R287: BPS_STEP.last. -/
def BPS_STEP_last : Fld := { base := 0x400bc, hi := 7, lo := 4, acc := .ro, reset := 0 }
/-- R287: BPS_STEP.go. -/
def BPS_STEP_go : Fld := { base := 0x400bc, hi := 0, lo := 0, acc := .wo, reset := 0 }
/-- R287: BPS_CTRL.new_pack. -/
def BPS_CTRL_new_pack : Fld := { base := 0x400c0, hi := 2, lo := 2, acc := .wo, reset := 0 }
/-- R287: BPS_CTRL.gauge_reset. -/
def BPS_CTRL_gauge_reset : Fld := { base := 0x400c0, hi := 1, lo := 1, acc := .wo, reset := 0 }
/-- R287: BPS_CTRL.rest_req. -/
def BPS_CTRL_rest_req : Fld := { base := 0x400c0, hi := 0, lo := 0, acc := .wo, reset := 0 }
/-- R287: BPS_PARAM.seq. -/
def BPS_PARAM_seq : Fld := { base := 0x400c4, hi := 31, lo := 16, acc := .ro, reset := 0 }
/-- R287: BPS_PARAM.pending. -/
def BPS_PARAM_pending : Fld := { base := 0x400c4, hi := 3, lo := 3, acc := .ro, reset := 0 }
/-- R287: BPS_PARAM.slot. -/
def BPS_PARAM_slot : Fld := { base := 0x400c4, hi := 2, lo := 2, acc := .ro, reset := 0 }
/-- R287: BPS_PARAM.b_ok. -/
def BPS_PARAM_b_ok : Fld := { base := 0x400c4, hi := 1, lo := 1, acc := .ro, reset := 0 }
/-- R287: BPS_PARAM.a_ok. -/
def BPS_PARAM_a_ok : Fld := { base := 0x400c4, hi := 0, lo := 0, acc := .ro, reset := 0 }
/-- R302: BPS_CAL_CFG.dtemp_c. -/
def BPS_CAL_CFG_dtemp_c : Fld := { base := 0x400d0, hi := 15, lo := 8, acc := .rws, reset := 5 }
/-- R302: BPS_CAL_CFG.interval_min. -/
def BPS_CAL_CFG_interval_min : Fld := { base := 0x400d0, hi := 7, lo := 0, acc := .rws, reset := 15 }
/-- R302: BPS_CAL_CTRL.go. -/
def BPS_CAL_CTRL_go : Fld := { base := 0x400d4, hi := 0, lo := 0, acc := .wo, reset := 0 }
/-- R302: BPS_CAL_STAT.running. -/
def BPS_CAL_STAT_running : Fld := { base := 0x400d8, hi := 31, lo := 31, acc := .ro, reset := 0 }
/-- R302: BPS_CAL_STAT.held. -/
def BPS_CAL_STAT_held : Fld := { base := 0x400d8, hi := 30, lo := 30, acc := .ro, reset := 0 }
/-- R302: BPS_CAL_STAT.reason. -/
def BPS_CAL_STAT_reason : Fld := { base := 0x400d8, hi := 15, lo := 8, acc := .ro, reset := 0 }
/-- R302: BPS_CAL_STAT.result. -/
def BPS_CAL_STAT_result : Fld := { base := 0x400d8, hi := 7, lo := 0, acc := .ro, reset := 0 }
/-- R302: BPS_CAL_CNT.accepted. -/
def BPS_CAL_CNT_accepted : Fld := { base := 0x400dc, hi := 31, lo := 16, acc := .ro, reset := 0 }
/-- R302: BPS_CAL_CNT.refused. -/
def BPS_CAL_CNT_refused : Fld := { base := 0x400dc, hi := 15, lo := 0, acc := .ro, reset := 0 }
/-- R302: BPS_ADC_OFS.lsb. -/
def BPS_ADC_OFS_lsb : Fld := { base := 0x400e0, hi := 15, lo := 0, acc := .ro, reset := 0, dims := [(8, 2)] }
/-- R302: BPS_ADC_GAIN.gain. -/
def BPS_ADC_GAIN_gain : Fld := { base := 0x400e4, hi := 31, lo := 0, acc := .ro, reset := 1073741824, dims := [(8, 2)] }
/-- R302: BPS_CH_GAIN.gain. -/
def BPS_CH_GAIN_gain : Fld := { base := 0x40100, hi := 31, lo := 0, acc := .ro, reset := 0, dims := [(8, 7)] }
/-- R302: BPS_CH_OFS.adc1. -/
def BPS_CH_OFS_adc1 : Fld := { base := 0x40104, hi := 31, lo := 16, acc := .ro, reset := 0, dims := [(8, 7)] }
/-- R302: BPS_CH_OFS.adc0. -/
def BPS_CH_OFS_adc0 : Fld := { base := 0x40104, hi := 15, lo := 0, acc := .ro, reset := 0, dims := [(8, 7)] }
/-- R303: PWC_RETRAIN_CFG.interval_h. -/
def PWC_RETRAIN_CFG_interval_h : Fld := { base := 0x500b0, hi := 31, lo := 16, acc := .rw, reset := 24 }
/-- R303: PWC_RETRAIN_CFG.dtemp_c. -/
def PWC_RETRAIN_CFG_dtemp_c : Fld := { base := 0x500b0, hi := 15, lo := 8, acc := .rw, reset := 10 }
/-- R303: PWC_RETRAIN_CTRL.go. -/
def PWC_RETRAIN_CTRL_go : Fld := { base := 0x500b4, hi := 0, lo := 0, acc := .wo, reset := 0 }
/-- R303: PWC_RETRAIN_STAT.running. -/
def PWC_RETRAIN_STAT_running : Fld := { base := 0x500b8, hi := 31, lo := 31, acc := .ro, reset := 0 }
/-- R303: PWC_RETRAIN_STAT.deferred. -/
def PWC_RETRAIN_STAT_deferred : Fld := { base := 0x500b8, hi := 30, lo := 30, acc := .ro, reset := 0 }
/-- R303: PWC_RETRAIN_STAT.channel. -/
def PWC_RETRAIN_STAT_channel : Fld := { base := 0x500b8, hi := 19, lo := 16, acc := .ro, reset := 0 }
/-- R303: PWC_RETRAIN_STAT.runs. -/
def PWC_RETRAIN_STAT_runs : Fld := { base := 0x500b8, hi := 15, lo := 0, acc := .ro, reset := 0 }
/-- R322: VLT_CAP0.group_dies. -/
def VLT_CAP0_group_dies : Fld := { base := 0xa0008, hi := 15, lo := 8, acc := .ro, reset := 16 }
/-- R322: VLT_CAP0.dies_per_ch. -/
def VLT_CAP0_dies_per_ch : Fld := { base := 0xa0008, hi := 7, lo := 4, acc := .ro, reset := 8 }
/-- R322: VLT_CAP0.channels. -/
def VLT_CAP0_channels : Fld := { base := 0xa0008, hi := 3, lo := 0, acc := .ro, reset := 8 }
/-- R322: VLT_CAP1.read_mbps. -/
def VLT_CAP1_read_mbps : Fld := { base := 0xa000c, hi := 31, lo := 16, acc := .ro, reset := 18000 }
/-- R322: VLT_CAP1.write_mbps. -/
def VLT_CAP1_write_mbps : Fld := { base := 0xa000c, hi := 15, lo := 0, acc := .ro, reset := 16000 }
/-- R322: VLT_STAT.can_seal. -/
def VLT_STAT_can_seal : Fld := { base := 0xa0040, hi := 31, lo := 31, acc := .ro, reset := 0 }
/-- R322: VLT_STAT.erasing. -/
def VLT_STAT_erasing : Fld := { base := 0xa0040, hi := 30, lo := 30, acc := .ro, reset := 0 }
/-- R322: VLT_STAT.area. -/
def VLT_STAT_area : Fld := { base := 0xa0040, hi := 29, lo := 29, acc := .ro, reset := 0 }
/-- R322: VLT_STAT.usable. -/
def VLT_STAT_usable : Fld := { base := 0xa0040, hi := 7, lo := 4, acc := .ro, reset := 0 }
/-- R322: VLT_STAT.groups. -/
def VLT_STAT_groups : Fld := { base := 0xa0040, hi := 3, lo := 0, acc := .ro, reset := 0 }
/-- R322: VLT_RATE.measured_mbps. -/
def VLT_RATE_measured_mbps : Fld := { base := 0xa0044, hi := 31, lo := 16, acc := .ro, reset := 0 }
/-- R322: VLT_RATE.mbps. -/
def VLT_RATE_mbps : Fld := { base := 0xa0044, hi := 15, lo := 0, acc := .ro, reset := 0 }
/-- R322: VLT_FREE.bytes. -/
def VLT_FREE_bytes : Fld := { base := 0xa0048, hi := 63, lo := 0, acc := .ro, reset := 0, wide := true }
/-- R322: VLT_FIXED.bytes. -/
def VLT_FIXED_bytes : Fld := { base := 0xa0050, hi := 63, lo := 0, acc := .ro, reset := 0, wide := true }
/-- R322: VLT_LAST.result. -/
def VLT_LAST_result : Fld := { base := 0xa0058, hi := 31, lo := 28, acc := .ro, reset := 0 }
/-- R322: VLT_LAST.reason. -/
def VLT_LAST_reason : Fld := { base := 0xa0058, hi := 27, lo := 24, acc := .ro, reset := 0 }
/-- R322: VLT_LAST.dies_failed. -/
def VLT_LAST_dies_failed : Fld := { base := 0xa0058, hi := 7, lo := 0, acc := .ro, reset := 0 }
/-- R322: VLT_LAST_SEQ.seq. -/
def VLT_LAST_SEQ_seq : Fld := { base := 0xa005c, hi := 31, lo := 0, acc := .ro, reset := 0 }
/-- R322: VLT_LAST_DUSK.us. -/
def VLT_LAST_DUSK_us : Fld := { base := 0xa0060, hi := 31, lo := 0, acc := .ro, reset := 0 }
/-- R322: VLT_LAST_TS.ts. -/
def VLT_LAST_TS_ts : Fld := { base := 0xa0068, hi := 63, lo := 0, acc := .ro, reset := 0, wide := true }
/-- R322: VLT_LOST.rebuilt. -/
def VLT_LOST_rebuilt : Fld := { base := 0xa0070, hi := 31, lo := 16, acc := .ro, reset := 0 }
/-- R322: VLT_LOST.blocks. -/
def VLT_LOST_blocks : Fld := { base := 0xa0070, hi := 15, lo := 0, acc := .ro, reset := 0 }
/-- R322: VLT_GLITCH.count. -/
def VLT_GLITCH_count : Fld := { base := 0xa0074, hi := 31, lo := 0, acc := .ro, reset := 0 }
/-- R322: VLT_CTRL.discard. -/
def VLT_CTRL_discard : Fld := { base := 0xa0078, hi := 1, lo := 1, acc := .wo, reset := 0 }
/-- R322: VLT_CTRL.accept. -/
def VLT_CTRL_accept : Fld := { base := 0xa0078, hi := 0, lo := 0, acc := .wo, reset := 0 }
/-- R322: VLT_CH.retired. -/
def VLT_CH_retired : Fld := { base := 0xa0080, hi := 15, lo := 8, acc := .ro, reset := 0, dims := [(4, 8)] }
/-- R322: VLT_CH.present. -/
def VLT_CH_present : Fld := { base := 0xa0080, hi := 7, lo := 0, acc := .ro, reset := 0, dims := [(4, 8)] }
/-- R338: SYS_STRAP.smb_addr. -/
def SYS_STRAP_smb_addr : Fld := { base := 0x50, hi := 3, lo := 2, acc := .ro, reset := 0 }
/-- R338: SYS_STRAP.boot_mode. -/
def SYS_STRAP_boot_mode : Fld := { base := 0x50, hi := 1, lo := 0, acc := .ro, reset := 0 }
/-- R338: SYS_BOOT.b_result. -/
def SYS_BOOT_b_result : Fld := { base := 0x54, hi := 23, lo := 20, acc := .ro, reset := 0 }
/-- R338: SYS_BOOT.a_result. -/
def SYS_BOOT_a_result : Fld := { base := 0x54, hi := 19, lo := 16, acc := .ro, reset := 0 }
/-- R338: SYS_BOOT.preferred. -/
def SYS_BOOT_preferred : Fld := { base := 0x54, hi := 9, lo := 9, acc := .ro, reset := 0 }
/-- R338: SYS_BOOT.running. -/
def SYS_BOOT_running : Fld := { base := 0x54, hi := 8, lo := 8, acc := .ro, reset := 0 }
/-- R338: SYS_FW_VER.version. -/
def SYS_FW_VER_version : Fld := { base := 0x58, hi := 31, lo := 0, acc := .ro, reset := 0 }
/-- R338: SYS_SVN.image. -/
def SYS_SVN_image : Fld := { base := 0x5c, hi := 13, lo := 8, acc := .ro, reset := 0 }
/-- R338: SYS_SVN.fuse. -/
def SYS_SVN_fuse : Fld := { base := 0x5c, hi := 5, lo := 0, acc := .ro, reset := 0 }
/-- R338: SYS_SELFTEST.blocks. -/
def SYS_SELFTEST_blocks : Fld := { base := 0x60, hi := 31, lo := 16, acc := .ro, reset := 0 }
/-- R338: SYS_SELFTEST.pairs_ok. -/
def SYS_SELFTEST_pairs_ok : Fld := { base := 0x60, hi := 2, lo := 0, acc := .ro, reset := 0 }
/-- R338: SYS_CLK.dp_ref_lost. -/
def SYS_CLK_dp_ref_lost : Fld := { base := 0x64, hi := 1, lo := 1, acc := .ro, reset := 0 }
/-- R338: SYS_CLK.ref_src. -/
def SYS_CLK_ref_src : Fld := { base := 0x64, hi := 0, lo := 0, acc := .ro, reset := 0 }
/-- R338: SYS_THERM_CFG.trip_c. -/
def SYS_THERM_CFG_trip_c : Fld := { base := 0x70, hi := 31, lo := 24, acc := .rwl, reset := 110 }
/-- R338: SYS_THERM_CFG.throttle_c. -/
def SYS_THERM_CFG_throttle_c : Fld := { base := 0x70, hi := 23, lo := 16, acc := .rwl, reset := 100 }
/-- R338: SYS_THERM_CFG.warn_c. -/
def SYS_THERM_CFG_warn_c : Fld := { base := 0x70, hi := 15, lo := 8, acc := .rwl, reset := 95 }
/-- R338: SYS_THERM_CFG.hyst_c. -/
def SYS_THERM_CFG_hyst_c : Fld := { base := 0x70, hi := 7, lo := 0, acc := .rwl, reset := 5 }
/-- R338: SYS_THERM_STAT.step. -/
def SYS_THERM_STAT_step : Fld := { base := 0x74, hi := 18, lo := 16, acc := .ro, reset := 0 }
/-- R338: SYS_THERM_STAT.hottest. -/
def SYS_THERM_STAT_hottest : Fld := { base := 0x74, hi := 2, lo := 0, acc := .ro, reset := 0 }
/-- R338: SYS_THERM_MAX.peak. -/
def SYS_THERM_MAX_peak : Fld := { base := 0x78, hi := 15, lo := 0, acc := .ro, reset := 0 }
/-- R338: SYS_TEMP.temp. -/
def SYS_TEMP_temp : Fld := { base := 0x80, hi := 15, lo := 0, acc := .ro, reset := 0, dims := [(4, 8)] }
/-- R356: SYS_SQL_CNT.count. -/
def SYS_SQL_CNT_count : Fld := { base := 0x200, hi := 31, lo := 0, acc := .ro, reset := 0 }
/-- R356: SYS_SQL_NEXT.idx. -/
def SYS_SQL_NEXT_idx : Fld := { base := 0x204, hi := 3, lo := 0, acc := .ro, reset := 0 }
/-- R356: SYS_SQL_REC.block. -/
def SYS_SQL_REC_block : Fld := { base := 0x210, hi := 31, lo := 16, acc := .ro, reset := 0, dims := [(16, 16)] }
/-- R356: SYS_SQL_REC.fault. -/
def SYS_SQL_REC_fault : Fld := { base := 0x210, hi := 7, lo := 0, acc := .ro, reset := 0, dims := [(16, 16)] }
/-- R356: SYS_SQL_STALL.stall_ns. -/
def SYS_SQL_STALL_stall_ns : Fld := { base := 0x214, hi := 31, lo := 0, acc := .ro, reset := 0, dims := [(16, 16)] }
/-- R356: SYS_SQL_TS.ts. -/
def SYS_SQL_TS_ts : Fld := { base := 0x218, hi := 63, lo := 0, acc := .ro, reset := 0, wide := true, dims := [(16, 16)] }
/-- R357: CCX_CAP0.standby. -/
def CCX_CAP0_standby : Fld := { base := 0xc0008, hi := 11, lo := 8, acc := .ro, reset := 1 }
/-- R357: CCX_CAP0.active. -/
def CCX_CAP0_active : Fld := { base := 0xc0008, hi := 7, lo := 4, acc := .ro, reset := 2 }
/-- R357: CCX_CAP0.pairs. -/
def CCX_CAP0_pairs : Fld := { base := 0xc0008, hi := 3, lo := 0, acc := .ro, reset := 3 }
/-- R357: CCX_CAP1.store_kib. -/
def CCX_CAP1_store_kib : Fld := { base := 0xc000c, hi := 31, lo := 16, acc := .ro, reset := 512 }
/-- R357: CCX_CAP1.ckpt_us. -/
def CCX_CAP1_ckpt_us : Fld := { base := 0xc000c, hi := 15, lo := 0, acc := .ro, reset := 8 }
/-- R357: CCX_PAIR.mismatches. -/
def CCX_PAIR_mismatches : Fld := { base := 0xc0100, hi := 31, lo := 16, acc := .ro, reset := 0, dims := [(8, 3)] }
/-- R357: CCX_PAIR.state. -/
def CCX_PAIR_state : Fld := { base := 0xc0100, hi := 2, lo := 0, acc := .ro, reset := 0, dims := [(8, 3)], resets := [0, 0, 1] }
/-- R357: CCX_PAIR_HI.last_sec. -/
def CCX_PAIR_HI_last_sec : Fld := { base := 0xc0104, hi := 31, lo := 0, acc := .ro, reset := 0, dims := [(8, 3)] }
/-- R357: CCX_STORE.uncorr. -/
def CCX_STORE_uncorr : Fld := { base := 0xc0120, hi := 31, lo := 16, acc := .ro, reset := 0 }
/-- R357: CCX_STORE.corr. -/
def CCX_STORE_corr : Fld := { base := 0xc0120, hi := 15, lo := 0, acc := .ro, reset := 0 }
/-- R357: CCX_CTRL.retest. -/
def CCX_CTRL_retest : Fld := { base := 0xc0124, hi := 2, lo := 0, acc := .wo, reset := 0 }
/-- R364: CCX_FW_SRC.offset. -/
def CCX_FW_SRC_offset : Fld := { base := 0xc0140, hi := 63, lo := 0, acc := .rw, reset := 0, wide := true }
/-- R364: CCX_FW_LEN.bytes. -/
def CCX_FW_LEN_bytes : Fld := { base := 0xc0148, hi := 31, lo := 0, acc := .rw, reset := 0 }
/-- R364: CCX_FW_CTRL.activate. -/
def CCX_FW_CTRL_activate : Fld := { base := 0xc014c, hi := 1, lo := 1, acc := .wo, reset := 0 }
/-- R364: CCX_FW_CTRL.write. -/
def CCX_FW_CTRL_write : Fld := { base := 0xc014c, hi := 0, lo := 0, acc := .wo, reset := 0 }
/-- R364: CCX_FW_STAT.busy. -/
def CCX_FW_STAT_busy : Fld := { base := 0xc0150, hi := 31, lo := 31, acc := .ro, reset := 0 }
/-- R364: CCX_FW_STAT.op. -/
def CCX_FW_STAT_op : Fld := { base := 0xc0150, hi := 27, lo := 24, acc := .ro, reset := 0 }
/-- R364: CCX_FW_STAT.result. -/
def CCX_FW_STAT_result : Fld := { base := 0xc0150, hi := 19, lo := 16, acc := .ro, reset := 0 }
/-- R364: CCX_FW_STAT.pause_us. -/
def CCX_FW_STAT_pause_us : Fld := { base := 0xc0150, hi := 15, lo := 0, acc := .ro, reset := 0 }
/-- R377: TMB_CAP0.window_us. -/
def TMB_CAP0_window_us : Fld := { base := 0x30008, hi := 31, lo := 16, acc := .ro, reset := 2000 }
/-- R377: TMB_CAP0.lost_pulses. -/
def TMB_CAP0_lost_pulses : Fld := { base := 0x30008, hi := 15, lo := 8, acc := .ro, reset := 3 }
/-- R377: TMB_CAP0.res_ns. -/
def TMB_CAP0_res_ns : Fld := { base := 0x30008, hi := 7, lo := 0, acc := .ro, reset := 4 }
/-- R377: TMB_CAP1.trim_max. -/
def TMB_CAP1_trim_max : Fld := { base := 0x3000c, hi := 31, lo := 0, acc := .ro, reset := 85899346 }
/-- R377: TMB_CFG.pps_en. -/
def TMB_CFG_pps_en : Fld := { base := 0x30040, hi := 31, lo := 31, acc := .rw, reset := 1 }
/-- R377: TMB_CFG.edge. -/
def TMB_CFG_edge : Fld := { base := 0x30040, hi := 30, lo := 30, acc := .rw, reset := 0 }
/-- R377: TMB_CFG.delay_ns. -/
def TMB_CFG_delay_ns : Fld := { base := 0x30040, hi := 15, lo := 0, acc := .rw, reset := 0 }
/-- R377: TMB_NOW.ts. -/
def TMB_NOW_ts : Fld := { base := 0x30048, hi := 63, lo := 0, acc := .ro, reset := 0, wide := true }
/-- R377: TMB_SET_SEC.sec. -/
def TMB_SET_SEC_sec : Fld := { base := 0x30050, hi := 33, lo := 0, acc := .rw, reset := 0, wide := true }
/-- R377: TMB_SET_CTRL.applied. -/
def TMB_SET_CTRL_applied : Fld := { base := 0x30058, hi := 3, lo := 2, acc := .ro, reset := 0 }
/-- R377: TMB_SET_CTRL.pending. -/
def TMB_SET_CTRL_pending : Fld := { base := 0x30058, hi := 1, lo := 1, acc := .ro, reset := 0 }
/-- R377: TMB_SET_CTRL.arm. -/
def TMB_SET_CTRL_arm : Fld := { base := 0x30058, hi := 0, lo := 0, acc := .wo, reset := 0 }
/-- R377: TMB_TRIM.trim. -/
def TMB_TRIM_trim : Fld := { base := 0x3005c, hi := 31, lo := 0, acc := .rw, reset := 0 }
/-- R377: TMB_STAT.state. -/
def TMB_STAT_state : Fld := { base := 0x30060, hi := 31, lo := 30, acc := .ro, reset := 0 }
/-- R377: TMB_STAT.missed. -/
def TMB_STAT_missed : Fld := { base := 0x30060, hi := 7, lo := 0, acc := .ro, reset := 0 }
/-- R377: TMB_PPS_ERR.e_ns. -/
def TMB_PPS_ERR_e_ns : Fld := { base := 0x30064, hi := 31, lo := 0, acc := .ro, reset := 0 }
/-- R377: TMB_PPS_TS.ts. -/
def TMB_PPS_TS_ts : Fld := { base := 0x30068, hi := 63, lo := 0, acc := .ro, reset := 0, wide := true }
/-- R377: TMB_CNT.outliers. -/
def TMB_CNT_outliers : Fld := { base := 0x30070, hi := 31, lo := 16, acc := .ro, reset := 0 }
/-- R377: TMB_CNT.steps. -/
def TMB_CNT_steps : Fld := { base := 0x30070, hi := 15, lo := 0, acc := .ro, reset := 0 }
/-- R389: BME_CAP0.total_gbs. -/
def BME_CAP0_total_gbs : Fld := { base := 0xb0008, hi := 31, lo := 24, acc := .ro, reset := 32 }
/-- R389: BME_CAP0.channel_gbs. -/
def BME_CAP0_channel_gbs : Fld := { base := 0xb0008, hi := 23, lo := 16, acc := .ro, reset := 16 }
/-- R389: BME_CAP0.channels. -/
def BME_CAP0_channels : Fld := { base := 0xb0008, hi := 3, lo := 0, acc := .ro, reset := 8 }
/-- R389: BME_CAP1.mailbox_kib. -/
def BME_CAP1_mailbox_kib : Fld := { base := 0xb000c, hi := 15, lo := 0, acc := .ro, reset := 256 }
/-- R389: BME_WIN_BASE.base. -/
def BME_WIN_BASE_base : Fld := { base := 0xb0040, hi := 63, lo := 12, acc := .rwl, reset := 0, wide := true }
/-- R389: BME_WIN_LIMIT.limit. -/
def BME_WIN_LIMIT_limit : Fld := { base := 0xb0048, hi := 63, lo := 12, acc := .rwl, reset := 0, wide := true }
/-- R389: BME_BYTES.bytes. -/
def BME_BYTES_bytes : Fld := { base := 0xb0050, hi := 63, lo := 0, acc := .ro, reset := 0, wide := true }
/-- R390: BME_CH_CTRL.en. -/
def BME_CH_CTRL_en : Fld := { base := 0xb0100, hi := 31, lo := 31, acc := .rw, reset := 1, dims := [(128, 8)] }
/-- R390: BME_CH_CTRL.resume. -/
def BME_CH_CTRL_resume : Fld := { base := 0xb0100, hi := 0, lo := 0, acc := .wo, reset := 0, dims := [(128, 8)] }
/-- R390: BME_CH_STAT.state. -/
def BME_CH_STAT_state : Fld := { base := 0xb0104, hi := 31, lo := 30, acc := .ro, reset := 0, dims := [(128, 8)] }
/-- R390: BME_CH_STAT.error. -/
def BME_CH_STAT_error : Fld := { base := 0xb0104, hi := 27, lo := 24, acc := .ro, reset := 0, dims := [(128, 8)] }
/-- R390: BME_CH_STAT.sets. -/
def BME_CH_STAT_sets : Fld := { base := 0xb0104, hi := 15, lo := 0, acc := .ro, reset := 0, dims := [(128, 8)] }
/-- R390: BME_CH_DONE.bytes. -/
def BME_CH_DONE_bytes : Fld := { base := 0xb0108, hi := 31, lo := 0, acc := .ro, reset := 0, dims := [(128, 8)] }
/-- R390: BME_ACT_SRC.addr. -/
def BME_ACT_SRC_addr : Fld := { base := 0xb0110, hi := 63, lo := 0, acc := .ro, reset := 0, wide := true, dims := [(128, 8)] }
/-- R390: BME_ACT_DST.addr. -/
def BME_ACT_DST_addr : Fld := { base := 0xb0118, hi := 63, lo := 0, acc := .ro, reset := 0, wide := true, dims := [(128, 8)] }
/-- R390: BME_ACT_LEN.bytes. -/
def BME_ACT_LEN_bytes : Fld := { base := 0xb0120, hi := 31, lo := 0, acc := .ro, reset := 0, dims := [(128, 8)] }
/-- R390: BME_ACT_CFG.irq. -/
def BME_ACT_CFG_irq : Fld := { base := 0xb0124, hi := 8, lo := 8, acc := .ro, reset := 0, dims := [(128, 8)] }
/-- R390: BME_ACT_CFG.dst_space. -/
def BME_ACT_CFG_dst_space : Fld := { base := 0xb0124, hi := 5, lo := 4, acc := .ro, reset := 0, dims := [(128, 8)] }
/-- R390: BME_ACT_CFG.src_space. -/
def BME_ACT_CFG_src_space : Fld := { base := 0xb0124, hi := 1, lo := 0, acc := .ro, reset := 0, dims := [(128, 8)] }
/-- R390: BME_SH_SRC.addr. -/
def BME_SH_SRC_addr : Fld := { base := 0xb0130, hi := 63, lo := 0, acc := .rw, reset := 0, wide := true, dims := [(128, 8)] }
/-- R390: BME_SH_DST.addr. -/
def BME_SH_DST_addr : Fld := { base := 0xb0138, hi := 63, lo := 0, acc := .rw, reset := 0, wide := true, dims := [(128, 8)] }
/-- R390: BME_SH_LEN.bytes. -/
def BME_SH_LEN_bytes : Fld := { base := 0xb0140, hi := 31, lo := 0, acc := .rw, reset := 0, dims := [(128, 8)] }
/-- R390: BME_SH_CFG.arm. -/
def BME_SH_CFG_arm : Fld := { base := 0xb0144, hi := 31, lo := 31, acc := .wo, reset := 0, dims := [(128, 8)] }
/-- R390: BME_SH_CFG.armed. -/
def BME_SH_CFG_armed : Fld := { base := 0xb0144, hi := 30, lo := 30, acc := .ro, reset := 0, dims := [(128, 8)] }
/-- R390: BME_SH_CFG.irq. -/
def BME_SH_CFG_irq : Fld := { base := 0xb0144, hi := 8, lo := 8, acc := .rw, reset := 0, dims := [(128, 8)] }
/-- R390: BME_SH_CFG.dst_space. -/
def BME_SH_CFG_dst_space : Fld := { base := 0xb0144, hi := 5, lo := 4, acc := .rw, reset := 0, dims := [(128, 8)] }
/-- R390: BME_SH_CFG.src_space. -/
def BME_SH_CFG_src_space : Fld := { base := 0xb0144, hi := 1, lo := 0, acc := .rw, reset := 0, dims := [(128, 8)] }
/-- R30: BLK_ID.inst. -/
def BLK_ID_inst : Fld := { base := 0x0, hi := 23, lo := 16, acc := .ro, reset := 0, dims := [(65536, 14)] }
/-- R30: BLK_ID.code. -/
def BLK_ID_code : Fld := { base := 0x0, hi := 15, lo := 0, acc := .ro, reset := 0, dims := [(65536, 14)], resets := [1, 2, 3, 4, 5, 6, 7, 8, 9, 10, 11, 12, 13, 14] }
/-- R31: BLK_VER.major. -/
def BLK_VER_major : Fld := { base := 0x4, hi := 31, lo := 16, acc := .ro, reset := 1, dims := [(65536, 14)] }
/-- R31: BLK_VER.minor. -/
def BLK_VER_minor : Fld := { base := 0x4, hi := 15, lo := 0, acc := .ro, reset := 0, dims := [(65536, 14)] }
/-- R32: BLK_CTRL.err_clr. -/
def BLK_CTRL_err_clr : Fld := { base := 0x10, hi := 3, lo := 3, acc := .wo, reset := 0, dims := [(65536, 14)] }
/-- R32: BLK_CTRL.clk_hold. -/
def BLK_CTRL_clk_hold : Fld := { base := 0x10, hi := 2, lo := 2, acc := .rw, reset := 0, dims := [(65536, 14)] }
/-- R32: BLK_CTRL.soft_reset. -/
def BLK_CTRL_soft_reset : Fld := { base := 0x10, hi := 1, lo := 1, acc := .wo, reset := 0, dims := [(65536, 14)] }
/-- R32: BLK_CTRL.en. -/
def BLK_CTRL_en : Fld := { base := 0x10, hi := 0, lo := 0, acc := .rw, reset := 1, dims := [(65536, 14)] }
/-- R33: BLK_STAT.specific. -/
def BLK_STAT_specific : Fld := { base := 0x14, hi := 31, lo := 16, acc := .ro, reset := 0, dims := [(65536, 14)] }
/-- R33: BLK_STAT.busy. -/
def BLK_STAT_busy : Fld := { base := 0x14, hi := 3, lo := 3, acc := .ro, reset := 0, dims := [(65536, 14)] }
/-- R33: BLK_STAT.state. -/
def BLK_STAT_state : Fld := { base := 0x14, hi := 2, lo := 0, acc := .ro, reset := 0, dims := [(65536, 14)] }
/-- R34: BLK_INT_RAW.specific. -/
def BLK_INT_RAW_specific : Fld := { base := 0x18, hi := 31, lo := 16, acc := .w1c, reset := 0, dims := [(65536, 14)] }
/-- R34: BLK_INT_RAW.common. -/
def BLK_INT_RAW_common : Fld := { base := 0x18, hi := 3, lo := 0, acc := .w1c, reset := 0, dims := [(65536, 14)] }
/-- R34: BLK_INT_EN.specific. -/
def BLK_INT_EN_specific : Fld := { base := 0x1c, hi := 31, lo := 16, acc := .rw, reset := 0, dims := [(65536, 14)] }
/-- R34: BLK_INT_EN.common. -/
def BLK_INT_EN_common : Fld := { base := 0x1c, hi := 3, lo := 0, acc := .rw, reset := 0, dims := [(65536, 14)] }
/-- R34: BLK_INT_STAT.specific. -/
def BLK_INT_STAT_specific : Fld := { base := 0x20, hi := 31, lo := 16, acc := .ro, reset := 0, dims := [(65536, 14)] }
/-- R34: BLK_INT_STAT.common. -/
def BLK_INT_STAT_common : Fld := { base := 0x20, hi := 3, lo := 0, acc := .ro, reset := 0, dims := [(65536, 14)] }
/-- R35: BLK_ERR_CNT.uncorr. -/
def BLK_ERR_CNT_uncorr : Fld := { base := 0x24, hi := 31, lo := 16, acc := .ro, reset := 0, dims := [(65536, 14)] }
/-- R35: BLK_ERR_CNT.corr. -/
def BLK_ERR_CNT_corr : Fld := { base := 0x24, hi := 15, lo := 0, acc := .ro, reset := 0, dims := [(65536, 14)] }
/-- R35: BLK_ERR_FIRST.ts_sec. -/
def BLK_ERR_FIRST_ts_sec : Fld := { base := 0x28, hi := 31, lo := 16, acc := .ro, reset := 0, dims := [(65536, 14)] }
/-- R35: BLK_ERR_FIRST.code. -/
def BLK_ERR_FIRST_code : Fld := { base := 0x28, hi := 15, lo := 0, acc := .ro, reset := 0, dims := [(65536, 14)] }
/-- R36: BLK_LOCK.lock. -/
def BLK_LOCK_lock : Fld := { base := 0x2c, hi := 31, lo := 0, acc := .w1s, reset := 0, dims := [(65536, 14)] }
/-- R37: BLK_POWER.idle_us. -/
def BLK_POWER_idle_us : Fld := { base := 0x30, hi := 31, lo := 8, acc := .rw, reset := 100, dims := [(65536, 14)] }
/-- R37: BLK_POWER.pstate. -/
def BLK_POWER_pstate : Fld := { base := 0x30, hi := 2, lo := 0, acc := .ro, reset := 0, dims := [(65536, 14)] }
/-- R34: SYS_INT_SUM.sum. -/
def SYS_INT_SUM_sum : Fld := { base := 0x44, hi := 31, lo := 0, acc := .ro, reset := 0 }
/-- R34: SYS_INT_VEC.vec. -/
def SYS_INT_VEC_vec : Fld := { base := 0x48, hi := 10, lo := 0, acc := .rw, reset := 0 }
/-- R40: COMMIT.token. -/
def COMMIT_token : Fld := { base := 0x40, hi := 31, lo := 16, acc := .wo, reset := 0, dims := [(65536, 14)] }
/-- R40: COMMIT.discard. -/
def COMMIT_discard : Fld := { base := 0x40, hi := 1, lo := 1, acc := .wo, reset := 0, dims := [(65536, 14)] }
/-- R40: COMMIT.go. -/
def COMMIT_go : Fld := { base := 0x40, hi := 0, lo := 0, acc := .wo, reset := 0, dims := [(65536, 14)] }
/-- R40: COMMIT_STAT.token. -/
def COMMIT_STAT_token : Fld := { base := 0x44, hi := 31, lo := 16, acc := .ro, reset := 0, dims := [(65536, 14)] }
/-- R40: COMMIT_STAT.busy. -/
def COMMIT_STAT_busy : Fld := { base := 0x44, hi := 8, lo := 8, acc := .ro, reset := 0, dims := [(65536, 14)] }
/-- R40: COMMIT_STAT.status. -/
def COMMIT_STAT_status : Fld := { base := 0x44, hi := 7, lo := 0, acc := .ro, reset := 9, dims := [(65536, 14)] }
/-- R40: COMMIT_WHERE.offset. -/
def COMMIT_WHERE_offset : Fld := { base := 0x48, hi := 24, lo := 0, acc := .ro, reset := 0, dims := [(65536, 14)] }
/-- R40: COMMIT_ASN.asn. -/
def COMMIT_ASN_asn : Fld := { base := 0x4c, hi := 31, lo := 0, acc := .ro, reset := 0, dims := [(65536, 14)] }

/-- The fields, part 1. -/
def part1 : List Fld := [SYS_ID_stepping, SYS_ID_member, SYS_ID_grade, SYS_CAP0_vfs, SYS_CAP0_max_parity,
  SYS_CAP0_dram_channels, SYS_CAP0_clusters, SYS_CAP0_ports, SYS_CAP1_volumes, SYS_CAP1_arrays, SYS_CAP1_queues,
  HIF_CAP0_max_width, HIF_CAP0_max_speed, HIF_CAP0_vfs, HIF_CAP0_read_tags, HIF_CAP1_vf_vectors, HIF_CAP1_pf_vectors,
  HIF_LINK_up, HIF_LINK_l0p_width, HIF_LINK_width, HIF_LINK_flit, HIF_LINK_speed, HIF_ASPM_l1_idle_us,
  HIF_ASPM_l0p_min, HIF_LTR_busy_us, HIF_LTR_auto, HIF_CONTAIN_frozen, HIF_CONTAIN_fn, HIF_CONTAIN_count,
  HIF_CONTAIN_log_clr, HIF_CONTAIN_cause, HIF_CONTAIN_release, HIF_CONTAIN_TS_ts, HIF_TAG_STAT_quarantined,
  HIF_TAG_STAT_in_use, HIF_LATE_CNT_late, HIF_CTO_CNT_timeouts, HIF_FN_TAG_in_use, HIF_FN_TAG_limit,
  HIF_FN_STAT_epoch]

/-- The fields, part 2. -/
def part2 : List Fld := [HIF_FN_STAT_held_ovf, HIF_FN_STAT_bme, HIF_FN_STAT_mse, HIF_FN_STAT_dstate,
  HIF_FN_HELD_held, HIF_FN_QUAR_quarantined, QD_SQ_BASE_base, QD_SQ_CFG_en, QD_SQ_CFG_restart, QD_SQ_CFG_class,
  QD_SQ_CFG_cq, QD_SQ_CFG_size_m1, QD_SQ_ARB_burst, QD_SQ_ARB_weight, QD_SQ_PTR_tail, QD_SQ_PTR_head,
  QD_SQ_STAT_inflight, QD_SQ_STAT_state, QD_SQ_COUNT_admitted, QD_CQ_BASE_base, QD_CQ_CFG_en, QD_CQ_CFG_irq_en,
  QD_CQ_CFG_vector, QD_CQ_CFG_size_m1, QD_CQ_PTR_head, QD_CQ_PTR_tail, QD_CQ_STAT_phase, QD_CQ_STAT_state,
  QD_CQ_STAT_reserved_slots, EVR_BASE_base, EVR_CFG_en, EVR_CFG_irq_en, EVR_CFG_vector, EVR_CFG_size_m1,
  EVR_PTR_head, EVR_PTR_tail, EVR_STAT_phase, EVR_STAT_pending, EVR_STAT_lost, EVR_SEQ_next]

/-- The fields, part 3. -/
def part3 : List Fld := [SYS_HALT_SRC_valid, SYS_HALT_SRC_kind, SYS_HALT_SRC_overrun, SYS_HALT_SRC_fn,
  SYS_HALT_SRC_sq, SYS_HALT_POS_frag, SYS_HALT_POS_index, SYS_HALT_COND_cond, SYS_HALT_ASN_asn, SYS_HALT_TS_ts,
  SYS_HALT_ENTRY_image, SYS_HALT_FRAG_frag_image, QMX_CAP0_cqs, QMX_CAP0_sqs, QMX_CAP1_max_frags,
  QMX_CAP1_depth_log2, QMX_CAP1_max_burst, QMX_ASN_NEXT_asn, QMX_DB_ERR_count, QMX_DB_LAST_kind, QMX_DB_LAST_reason,
  QMX_DB_LAST_fn, QMX_DB_LAST_queue, QMX_INTAKE_admitted, QMX_FN_SQ_count, QMX_FN_SQ_base, QMX_FN_CQ_count,
  QMX_FN_CQ_base, QMX_FN_STAT_inflight, LAY_CAP0_volumes, LAY_CAP0_max_k, LAY_CAP0_arrays, LAY_CAP1_meta_mib,
  LAY_CAP1_max_spares, LAY_CAP1_max_width, LAY_META_USED_mib, AR_CFG_en, AR_CFG_m, AR_CFG_k, AR_CFG_unit]

/-- The fields, part 4. -/
def part4 : List Fld := [AR_CFG_spares, AR_SEED_seed, AR_DEADLINE_ms, AR_POLICY_cache_on_read, AR_STAT_relocated,
  AR_STAT_labelled, AR_STAT_state, AR_GROUP_cmask, AR_GROUP_C, AR_GROUP_g, AR_GROUP_G, AR_GEOM_dpu, AR_GEOM_unused,
  AR_GEOM_spc, AR_CYCLES_cycles, AR_STRIPES_stripes, AR_FREE_free, AR_META_mib, AR_TAG_CRC_count,
  AR_TAG_MISDIR_count, AR_TAG_STALE_count, AR_TAG_UNREP_count, AR_MEMBER_valid_hi, AR_MEMBER_port_hi,
  AR_MEMBER_valid_lo, AR_MEMBER_port_lo, VD_CFG_en, VD_CFG_pf0, VD_CFG_stream_en, VD_CFG_array, VD_CFG_hold_ms,
  VD_ACCESS_vfs, VD_FIRST_first, VD_STRIPES_stripes, VD_SIZE_blocks, VD_TAGID_tag_id, VD_STAT_det_held,
  VD_STAT_offline, VD_STAT_fenced, VD_STAT_de]

/-- The fields, part 5. -/
def part5 : List Fld := [VD_OVF_overflow, ECE_CAP0_max_inputs, ECE_CAP0_lanes, ECE_CAP0_max_parity, ECE_CAP1_poly,
  ECE_CAP1_y_base, ECE_CAP1_beat, ECE_LANE_STAT_carrier, ECE_LANE_STAT_dec_state, ECE_LANE_STAT_enc_state,
  ECE_LANE_CTRL_retest, ECE_ENC_BYTES_bytes, ECE_DEC_BYTES_bytes, ECE_CHK_retry_fail, ECE_CHK_mismatch,
  ECE_UNCHECKED_rows, ECE_SYND_unlocated, ECE_SYND_located, ECE_KAT_CTRL_interval_s, ECE_KAT_CTRL_run,
  ECE_KAT_STAT_runs, ECE_KAT_STAT_running, ECE_KAT_STAT_lane, ECE_KAT_STAT_result, ECE_KAT_TS_ts, ECE_LOAD_dec_pct,
  ECE_LOAD_enc_pct, PWC_CAP0_max_dimm_gib, PWC_CAP0_channels, PWC_CAP0_groups, PWC_CAP1_ceiling_max_gib,
  PWC_CAP1_staging_mib, PWC_CAP1_intents_log2, PWC_CAP1_scratch_max_mib, PWC_CEIL_limit, PWC_CEIL_mib,
  PWC_CEIL_E_mib, PWC_CEIL_IN_p_avail_w, PWC_CEIL_IN_p_dusk_w, PWC_CEIL_CFG_margin_pct]

/-- The fields, part 6. -/
def part6 : List Fld := [PWC_CEIL_CFG_floor_gib, PWC_CEIL_CFG_max_gib, PWC_WT_CFG_window_mib, PWC_SCRATCH_mib,
  PWC_STAT_grp_b, PWC_STAT_grp_a, PWC_STAT_mode, PWC_GRP_CTRL_rejoin, PWC_DIRTY_bytes, PWC_POOL_group_gib,
  PWC_POOL_pool_gib, PWC_INTENTS_open, PWC_STREAMS_open, PWC_STAGE_used_kib, PWC_STALL_US_us, PWC_DSTG_FULL_stripes,
  PWC_DSTG_FRESH_stripes, PWC_DSTG_DELTA_stripes, PWC_DSTG_RECON_stripes, PWC_BYPASS_count, PWC_CH_state,
  PWC_CH_corr, PWC_CH_HI_uncorr, SMC_CAP0_line_bytes, SMC_CAP0_ways, SMC_CAP0_sets_log2, SMC_CAP1_detectors,
  SMC_CAP1_evict_buf, SMC_CAP1_merge, SMC_CAP1_miss_regs, SMC_CAP1_requesters, SMC_CFG_pf_en, SMC_CFG_pf_depth,
  SMC_CFG_miss_mode, SMC_KEY_next, SMC_KEY_key, SMC_REKEY_go, SMC_INV_go, SMC_MASK_ways, SMC_DIRTY_lines]

/-- The fields, part 7. -/
def part7 : List Fld := [SMC_EVB_reclaims, SMC_EVB_in_use, SMC_REPLAY_count, SMC_JOURNAL_entries_k, SMC_HOT_ratio,
  SMC_HOT_set, SMC_BIST_result, SMC_BIST_go, SMC_BYPASS_count, SMC_REQ_HIT_hits, SMC_REQ_MISS_misses, MNT_CAP0_slots,
  MNT_CAP0_activities, MNT_ARB_RUN_run, MNT_ARB_WAIT_wait, MNT_SHARE_dpx_maint_crit, MNT_SHARE_dpx_host_crit,
  MNT_SHARE_dpx_maint, MNT_SHARE_dpx_host, MNT_SHARE_ece_restripe, MNT_SHARE_ece_rebuild, MNT_CFG_auto_rebuild,
  MNT_CFG_assemble_s, MNT_CFG_missing_s, MNT_SCRUB_CFG_en, MNT_SCRUB_CFG_period_days, MNT_HOT_CFG_smc_ratio,
  MNT_HOT_CFG_layout_ratio, MNT_RBLD_RATE_max_mbps, MNT_DFW_SRC_offset, MNT_DFW_LEN_bytes, MNT_DFW_CTRL_timeout_s,
  MNT_DFW_CTRL_go, MNT_DFW_STAT_running, MNT_DFW_STAT_failed, MNT_DFW_STAT_done, MNT_DFW_PORTS_ports,
  AR_MSTATE_missed, AR_MSTATE_slotted, AR_MSTATE_slot]

/-- The fields, part 8. -/
def part8 : List Fld := [AR_MSTATE_state, AR_MCTRL_action, AR_MCTRL_port, AR_MCTRL_member, AR_MCTRL_STAT_member,
  AR_MCTRL_STAT_result, AR_SLOT_state, AR_SLOT_member, AR_REDUND_lost, AR_REDUND_l, AR_REDUND_left, AR_RBLD_running,
  AR_RBLD_pass, AR_RBLD_permille, AR_RBLD_ETA_s, AR_RBLD_CUR_cycle, AR_RBLD_UNPLACED_units, AR_CPBK_running,
  AR_CPBK_member, AR_CPBK_CUR_cycle, AR_SCRUB_running, AR_SCRUB_paused, AR_SCRUB_permille, AR_SCRUB_CUR_stripe,
  AR_SCRUB_CNT_repaired, AR_SCRUB_CNT_unrepaired, AR_SCRUB_LAST_ts, AR_RS_CFG_go, AR_RS_CFG_m, AR_RS_CFG_k,
  AR_RS_CFG_spares, AR_RS_SEED_seed, AR_RS_STAT_running, AR_RS_STAT_paused, AR_RS_STAT_descending,
  AR_RS_STAT_permille, AR_RS_CUR_cycle, AR_HOT_ratio, AR_HOT_member, AR_RS_MEMBER_valid_hi]

/-- The fields, part 9. -/
def part9 : List Fld := [AR_RS_MEMBER_port_hi, AR_RS_MEMBER_valid_lo, AR_RS_MEMBER_port_lo, DPX_CAP0_sata_qd,
  DPX_CAP0_sas_qd, DPX_CAP0_clusters, DPX_CAP0_ports, DPX_CAP1_max_tib, DPX_CAP1_max_rate, DPX_CFG_spinup_max,
  DPX_CFG_ready_s, DPX_CFG_grace_ms, DPX_TMO_io_ms, DPX_TMO_long_s, DPX_SG_en, DPX_SG_clk_khz, DPX_CL_en,
  DPX_CL_reset, DPX_CL_state, DPX_CL_HI_mhz, DPX_CL_HI_linked, PT_CFG_en, PT_CFG_fail_on_pfa, PT_CFG_max_rate,
  PT_CFG_qd, PT_STAT_state, PT_STAT_reason, PT_STAT_rate, PT_STAT_protocol, PT_STAT_member, PT_STAT_ncq, PT_STAT_pfa,
  PT_STAT_present, PT_STAT_outstanding, PT_ID_id, PT_BLOCKS_blocks, PT_FMT_phys_bytes, PT_FMT_log_bytes,
  PT_FWREV_rev, PT_CTRL_loop_stop]

/-- The fields, part 10. -/
def part10 : List Fld := [PT_CTRL_loop_start, PT_CTRL_fail, PT_CTRL_reset, PT_LED_fail, PT_LED_locate,
  PT_ERR_transport, PT_ERR_medium, PT_RECOV_recoveries, PT_RECOV_timeouts, PT_SENSE_kind, PT_SENSE_last,
  PT_LOOP_errors, PT_LOOP_pass, PT_LOOP_running, AR_PWR_CFG_standby_min, AR_PWR_CFG_idle_s, AR_PWR_COLD_cold_min,
  AR_PWR_STAT_entering, AR_PWR_STAT_exiting, AR_PWR_STAT_pstate, AR_PWR_LAT_ms, AR_PWR_CTRL_lat_clear,
  AR_PWR_CTRL_wake, AR_PWR_LP_count, BPS_CAP0_sample_khz, BPS_CAP0_ntcs, BPS_CAP0_adcs, BPS_CAP0_max_cells,
  BPS_CAP1_max_mah, BPS_CAP1_min_mah_100, BPS_CAP1_chem, BPS_CELL_mv, BPS_CUR_ma, BPS_TEMP_ntc1, BPS_TEMP_ntc0,
  BPS_PACK_present, BPS_PACK_pwr_good, BPS_PACK_pwr_fail, BPS_PACK_mv, BPS_ADC_ramp]

/-- The fields, part 11. -/
def part11 : List Fld := [BPS_ADC_primary, BPS_ADC_adc1_ok, BPS_ADC_adc0_ok, BPS_HALO_STAT_mode,
  BPS_HALO_STAT_causes, BPS_HALO_STAT_soc, BPS_HALO_U_u_q, BPS_HALO_U_u, BPS_E_LOW_j, BPS_VOLT_v_ocv, BPS_VOLT_v_min,
  BPS_R_r0, BPS_R_r_dc, BPS_R_LAST_r0, BPS_R_LAST_r_dc, BPS_REST_since_h, BPS_REST_cand_min, BPS_REST_TS_ts,
  BPS_Q_learned, BPS_Q_design, BPS_LEARN_STAT_phase, BPS_LEARN_STAT_result, BPS_LEARN_STAT_reason,
  BPS_LEARN_STAT_due_days, BPS_LEARN_TS_ts, BPS_LEARN_CFG_interval_days, BPS_LEARN_CFG_rate_c100,
  BPS_LEARN_CTRL_abort, BPS_LEARN_CTRL_go, BPS_HALO_CFG_drift, BPS_CHG_STAT_state, BPS_CHG_STAT_inhibit,
  BPS_CHG_STAT_duty, BPS_CHG_CTRL_inhibit, BPS_STEP_accepted, BPS_STEP_rejected, BPS_STEP_last, BPS_STEP_go,
  BPS_CTRL_new_pack, BPS_CTRL_gauge_reset]

/-- The fields, part 12. -/
def part12 : List Fld := [BPS_CTRL_rest_req, BPS_PARAM_seq, BPS_PARAM_pending, BPS_PARAM_slot, BPS_PARAM_b_ok,
  BPS_PARAM_a_ok, BPS_CAL_CFG_dtemp_c, BPS_CAL_CFG_interval_min, BPS_CAL_CTRL_go, BPS_CAL_STAT_running,
  BPS_CAL_STAT_held, BPS_CAL_STAT_reason, BPS_CAL_STAT_result, BPS_CAL_CNT_accepted, BPS_CAL_CNT_refused,
  BPS_ADC_OFS_lsb, BPS_ADC_GAIN_gain, BPS_CH_GAIN_gain, BPS_CH_OFS_adc1, BPS_CH_OFS_adc0, PWC_RETRAIN_CFG_interval_h,
  PWC_RETRAIN_CFG_dtemp_c, PWC_RETRAIN_CTRL_go, PWC_RETRAIN_STAT_running, PWC_RETRAIN_STAT_deferred,
  PWC_RETRAIN_STAT_channel, PWC_RETRAIN_STAT_runs, VLT_CAP0_group_dies, VLT_CAP0_dies_per_ch, VLT_CAP0_channels,
  VLT_CAP1_read_mbps, VLT_CAP1_write_mbps, VLT_STAT_can_seal, VLT_STAT_erasing, VLT_STAT_area, VLT_STAT_usable,
  VLT_STAT_groups, VLT_RATE_measured_mbps, VLT_RATE_mbps, VLT_FREE_bytes]

/-- The fields, part 13. -/
def part13 : List Fld := [VLT_FIXED_bytes, VLT_LAST_result, VLT_LAST_reason, VLT_LAST_dies_failed, VLT_LAST_SEQ_seq,
  VLT_LAST_DUSK_us, VLT_LAST_TS_ts, VLT_LOST_rebuilt, VLT_LOST_blocks, VLT_GLITCH_count, VLT_CTRL_discard,
  VLT_CTRL_accept, VLT_CH_retired, VLT_CH_present, SYS_STRAP_smb_addr, SYS_STRAP_boot_mode, SYS_BOOT_b_result,
  SYS_BOOT_a_result, SYS_BOOT_preferred, SYS_BOOT_running, SYS_FW_VER_version, SYS_SVN_image, SYS_SVN_fuse,
  SYS_SELFTEST_blocks, SYS_SELFTEST_pairs_ok, SYS_CLK_dp_ref_lost, SYS_CLK_ref_src, SYS_THERM_CFG_trip_c,
  SYS_THERM_CFG_throttle_c, SYS_THERM_CFG_warn_c, SYS_THERM_CFG_hyst_c, SYS_THERM_STAT_step, SYS_THERM_STAT_hottest,
  SYS_THERM_MAX_peak, SYS_TEMP_temp, SYS_SQL_CNT_count, SYS_SQL_NEXT_idx, SYS_SQL_REC_block, SYS_SQL_REC_fault,
  SYS_SQL_STALL_stall_ns]

/-- The fields, part 14. -/
def part14 : List Fld := [SYS_SQL_TS_ts, CCX_CAP0_standby, CCX_CAP0_active, CCX_CAP0_pairs, CCX_CAP1_store_kib,
  CCX_CAP1_ckpt_us, CCX_PAIR_mismatches, CCX_PAIR_state, CCX_PAIR_HI_last_sec, CCX_STORE_uncorr, CCX_STORE_corr,
  CCX_CTRL_retest, CCX_FW_SRC_offset, CCX_FW_LEN_bytes, CCX_FW_CTRL_activate, CCX_FW_CTRL_write, CCX_FW_STAT_busy,
  CCX_FW_STAT_op, CCX_FW_STAT_result, CCX_FW_STAT_pause_us, TMB_CAP0_window_us, TMB_CAP0_lost_pulses,
  TMB_CAP0_res_ns, TMB_CAP1_trim_max, TMB_CFG_pps_en, TMB_CFG_edge, TMB_CFG_delay_ns, TMB_NOW_ts, TMB_SET_SEC_sec,
  TMB_SET_CTRL_applied, TMB_SET_CTRL_pending, TMB_SET_CTRL_arm, TMB_TRIM_trim, TMB_STAT_state, TMB_STAT_missed,
  TMB_PPS_ERR_e_ns, TMB_PPS_TS_ts, TMB_CNT_outliers, TMB_CNT_steps, BME_CAP0_total_gbs]

/-- The fields, part 15. -/
def part15 : List Fld := [BME_CAP0_channel_gbs, BME_CAP0_channels, BME_CAP1_mailbox_kib, BME_WIN_BASE_base,
  BME_WIN_LIMIT_limit, BME_BYTES_bytes, BME_CH_CTRL_en, BME_CH_CTRL_resume, BME_CH_STAT_state, BME_CH_STAT_error,
  BME_CH_STAT_sets, BME_CH_DONE_bytes, BME_ACT_SRC_addr, BME_ACT_DST_addr, BME_ACT_LEN_bytes, BME_ACT_CFG_irq,
  BME_ACT_CFG_dst_space, BME_ACT_CFG_src_space, BME_SH_SRC_addr, BME_SH_DST_addr, BME_SH_LEN_bytes, BME_SH_CFG_arm,
  BME_SH_CFG_armed, BME_SH_CFG_irq, BME_SH_CFG_dst_space, BME_SH_CFG_src_space, BLK_ID_inst, BLK_ID_code,
  BLK_VER_major, BLK_VER_minor, BLK_CTRL_err_clr, BLK_CTRL_clk_hold, BLK_CTRL_soft_reset, BLK_CTRL_en,
  BLK_STAT_specific, BLK_STAT_busy, BLK_STAT_state, BLK_INT_RAW_specific, BLK_INT_RAW_common, BLK_INT_EN_specific]

/-- The fields, part 16. -/
def part16 : List Fld := [BLK_INT_EN_common, BLK_INT_STAT_specific, BLK_INT_STAT_common, BLK_ERR_CNT_uncorr,
  BLK_ERR_CNT_corr, BLK_ERR_FIRST_ts_sec, BLK_ERR_FIRST_code, BLK_LOCK_lock, BLK_POWER_idle_us, BLK_POWER_pstate,
  SYS_INT_SUM_sum, SYS_INT_VEC_vec, COMMIT_token, COMMIT_discard, COMMIT_go, COMMIT_STAT_token, COMMIT_STAT_busy,
  COMMIT_STAT_status, COMMIT_WHERE_offset, COMMIT_ASN_asn]

/-- Every register field of the device. -/
def all : List Fld :=
  part1 ++ part2 ++ part3 ++ part4 ++ part5 ++ part6 ++ part7 ++ part8 ++ part9 ++ part10 ++ part11 ++ part12 ++ part13 ++ part14 ++ part15 ++ part16

end Sys2Proof.Machine.Reg
end

