-- ==== Sys2Proof/Machine/Ops.lean ====
section
/-! DEFINITION. The named operations that every chapter shares: tables, the register file, reports (interrupt causes, error
counters, events, Squalls, MSI-X), requests to host memory, the two addressed RAMs, free values, and the form of a
command's outcome. -/

set_option Elab.async false

namespace Sys2Proof.Machine

/-! ### Tables -/

/-- The entry at a key. -/
def Tbl.get? {α : Type} : Tbl α → Nat → Option α
  | [], _ => none
  | (k', v) :: r, k => if k = k' then some v else Tbl.get? r k

/-- The entry at a key, or the table's default. -/
def Tbl.getD {α : Type} (m : Tbl α) (k : Nat) (dflt : α) : α := (Tbl.get? m k).getD dflt

/-- Write an entry, keeping the keys rising. -/
def Tbl.put {α : Type} : Tbl α → Nat → α → Tbl α
  | [], k, v => [(k, v)]
  | (k', v') :: r, k, v =>
    if k < k' then (k, v) :: (k', v') :: r
    else if k = k' then (k, v) :: r
    else (k', v') :: Tbl.put r k v

/-- Remove an entry. -/
def Tbl.erase {α : Type} (m : Tbl α) (k : Nat) : Tbl α := m.filter fun p => p.1 ≠ k

/-- Write an entry, or remove it when it equals the default of an unlisted key. -/
def Tbl.putD {α : Type} [DecidableEq α] (m : Tbl α) (k : Nat) (v dflt : α) : Tbl α :=
  if v = dflt then Tbl.erase m k else Tbl.put m k v

/-! ### Small helpers -/

/-- Apply a change when a condition holds. -/
def onlyIf {σ : Type} (c : Bool) (f : σ → σ) (s : σ) : σ := if c then f s else s

/-- Apply a change for each element, first to last. -/
def forEach {α σ : Type} (xs : List α) (f : α → σ → σ) (s : σ) : σ := xs.foldl (fun s x => f x s) s

/-- Bits hi..lo of a number. -/
def bitsOf (v hi lo : Nat) : Nat := v / 2 ^ lo % 2 ^ (hi + 1 - lo)

/-- Bit i of a number. -/
def bitOf (v i : Nat) : Bool := v / 2 ^ i % 2 = 1

/-- 1 for true, 0 for false. -/
def b2n (b : Bool) : Nat := if b then 1 else 0

/-- The w-bit two's complement code of an integer. -/
def codeOf (w : Nat) (i : Int) : Nat := (i % (2 ^ w : Nat)).toNat

/-- The integer that a w-bit two's complement code stands for. -/
def signedOf (w v : Nat) : Int := if v % 2 ^ w < 2 ^ (w - 1) then (v % 2 ^ w : Nat) else (v % 2 ^ w : Nat) - (2 ^ w : Nat)

/-- An integer held between two bounds. -/
def clampInt (lo hi v : Int) : Int := max lo (min hi v)

/-- A rational number rounded down to an integer. -/
def floorRat (r : Rat) : Int := r.num / (r.den : Int)

/-- A rational number rounded to the nearest integer, halves up. -/
def roundRat (r : Rat) : Int := floorRat (r + 1 / 2)

/-! ### Register file (R9) -/

/-- The live value of a register field (DESIGN CHOICE, log entry 12). -/
def Dev.rd (d : Dev) (f : Fld) : Nat := Tbl.getD d.regs f.key f.reset

/-- Give a register field a live value, cut to its width (DESIGN CHOICE, log entry 12). -/
def Dev.wr (d : Dev) (f : Fld) (v : Nat) : Dev :=
  { d with regs := Tbl.putD d.regs f.key (v % 2 ^ f.width) f.reset }

/-- Write a Boolean field. -/
def Dev.wrB (d : Dev) (f : Fld) (b : Bool) : Dev := d.wr f (b2n b)

/-- A Boolean field. -/
def Dev.rdB (d : Dev) (f : Fld) : Bool := decide (d.rd f ≠ 0)

/-- Count up, saturating at the field's largest value. -/
def Dev.incSat (d : Dev) (f : Fld) (n : Nat := 1) : Dev := d.wr f (min (d.rd f + n) (2 ^ f.width - 1))

/-- Count up, wrapping. -/
def Dev.incWrap (d : Dev) (f : Fld) (n : Nat := 1) : Dev := d.wr f (d.rd f + n)

/-- The staged value of a field (R9): the live one where nothing different is staged. -/
def Dev.rdStaged (d : Dev) (f : Fld) : Nat := Tbl.getD d.staged f.key (d.rd f)

/-- Change a field's staged value only (R9) (DESIGN CHOICE, log entry 12). -/
def Dev.wrStaged (d : Dev) (f : Fld) (v : Nat) : Dev :=
  { d with staged := Tbl.putD d.staged f.key (v % 2 ^ f.width) (d.rd f) }

/-! ### Free values -/

/-- A free value not used before (DESIGN CHOICE, log entry 5). -/
def Dev.free (d : Dev) : Nat := Config.freeNat d.freeCtr

/-- Go on to the next free value (DESIGN CHOICE, log entry 5). -/
def Dev.nextFree (d : Dev) : Dev := { d with freeCtr := d.freeCtr + 1 }

/-! ### Time (R103) -/

/-- The TMB timestamp: seconds in bits 63..30, nanoseconds in bits 29..0. -/
def Dev.now (d : Dev) : Nat := d.tmb.sec * 2 ^ 30 + d.tmb.ns / 4 * 4

/-- TMB ticks of 4 ns in a second. -/
def ticksPerSec : Nat := 250000000

/-- TMB ticks in a millisecond. -/
def ticksPerMs : Nat := 250000

/-! ### Output -/

/-- Send something out (DESIGN CHOICE, log entry 3). -/
def Dev.emit (d : Dev) (e : Emit) : Dev := { d with emitted := e :: d.emitted }

/-! ### Phases (R328) -/

/-- SYS_STAT.phase (R328). -/
def Dev.phase (d : Dev) : Nat := d.rd (Reg.BLK_STAT_specific.ix 0)
/-- Write SYS_STAT.phase. -/
def Dev.setPhase (d : Dev) (p : Nat) : Dev := d.wr (Reg.BLK_STAT_specific.ix 0) p

/-- Phases of R328: RESET. -/
def phReset : Nat := 0
/-- SELF_TEST. -/
def phSelfTest : Nat := 1
/-- BOOT. -/
def phBoot : Nat := 2
/-- TRAIN. -/
def phTrain : Nat := 3
/-- DAWN. -/
def phDawn : Nat := 4
/-- READY. -/
def phReady : Nat := 5
/-- DUSK. -/
def phDusk : Nat := 6
/-- NO_IMAGE. -/
def phNoImage : Nat := 7
/-- FAILED. -/
def phFailed : Nat := 8
/-- HOLD. -/
def phHold : Nat := 9

/-- Whether a page answers at all: in NO_IMAGE and FAILED only SYS and HIF do (R328) (DESIGN CHOICE, log entry 52). -/
def Dev.answers (d : Dev) (a : Nat) : Bool := decide (a < 0x20000) || !(d.phase = phNoImage || d.phase = phFailed)

/-! ### Functions (R43, R44) -/

/-- Host-side state of a function. -/
def Dev.fn (d : Dev) (f : Nat) : FnState := Tbl.getD d.hif.fns f {}

/-- Change the host-side state of a function. -/
def Dev.updFn (d : Dev) (f : Nat) (g : FnState → FnState) : Dev :=
  { d with hif := { d.hif with fns := Tbl.putD d.hif.fns f (g (d.fn f)) {} } }

/-- Whether a function exists: PF0, and the VFs that VF Enable and NumVFs create (R44). -/
def Dev.fnExists (d : Dev) (f : Nat) : Bool := f = 0 || (d.hif.vfEnable && decide (f ≤ d.hif.numVfs))

/-- The functions that exist. -/
def Dev.functions (d : Dev) : List Nat := (List.range 65).filter d.fnExists

/-- Whether the host link carries requests of the device (R54, R58, R60). -/
def Dev.linkUp (d : Dev) : Bool := d.hif.link = .l0 || d.hif.link = .l1

/-- Whether a containment freeze is on (R61). -/
def Dev.frozen (d : Dev) : Bool := d.rdB Reg.HIF_CONTAIN_frozen

/-- Whether a function may issue requests at all (R56, R57, R58, R61). -/
def Dev.canDma (d : Dev) (f : Nat) : Bool :=
  (d.fn f).bme && !(d.fn f).d3 && !d.frozen && d.linkUp && !d.hif.pmeTurnedOff

/-- Whether completions and events of a function may be posted now (R63). -/
def Dev.canPost (d : Dev) (f : Nat) : Bool := d.canDma f && !d.qmx.halted

/-! ### Requests to host memory (R48) -/

/-- Traffic brings the link back from L1 to L0 (R59) (DESIGN CHOICE, log entry 19). -/
def Dev.exitL1 (d : Dev) : Dev := if d.hif.link = .l1 then { d with hif := { d.hif with link := .l0 } } else d

/-- A dword of a function's configuration space that software writes, beside its value at reset (PRESUMED, log entry 9). -/
def Dev.cfgWord (d : Dev) (f off reset : Nat) : Nat := Tbl.getD (d.fn f).cfg off 0 ^^^ reset

/-- Uncorrectable Error Severity: 1 fatal (R52) (PRESUMED, log entry 9). -/
def Dev.aerSeverity (d : Dev) (f : Nat) : Nat := d.cfgWord f 0x10C 0x00462030
/-- Uncorrectable Error Mask (PRESUMED, log entry 9). -/
def Dev.aerMask (d : Dev) (f : Nat) : Nat := d.cfgWord f 0x108 0x00400000
/-- Correctable Error Mask (PRESUMED, log entry 9). -/
def Dev.aerCorrMask (d : Dev) (f : Nat) : Nat := d.cfgWord f 0x114 0xE000
/-- Device Control: bits 0 to 3 let ERR_COR, ERR_NONFATAL, ERR_FATAL and messages of Unsupported Requests out
(PRESUMED, log entry 9). -/
def Dev.errEnable (d : Dev) (f : Nat) : Nat := d.cfgWord f 0x68 0

/-- An error message of a function: 0 ERR_COR, 1 ERR_NONFATAL, 2 ERR_FATAL, while Device Control lets it out
(PRESUMED, log entry 9). -/
def Dev.errMessage (d : Dev) (f kind : Nat) : Dev :=
  if bitOf (d.errEnable f) kind && d.linkUp then d.exitL1.emit (.errMessage f kind) else d

/-- An uncorrectable error of a function is logged in its AER with the severity set there, and in Device Status
(R42, R52, R60) (PRESUMED, log entry 9). -/
def Dev.aerUncorrError (d : Dev) (f bit : Nat) : Dev :=
  let kind := if bitOf (d.aerSeverity f) bit then 2 else 1
  let d := d.updFn f fun x => { x with aerUncorr := x.aerUncorr ||| 2 ^ bit, devStatus := x.devStatus ||| 2 ^ kind }
  if bitOf (d.aerMask f) bit then d else d.errMessage f kind

/-- An advisory non-fatal error of a function: Advisory Non-Fatal in the correctable status; unless that is masked, the
error itself in the uncorrectable status and an ERR_COR (R53) (PRESUMED, log entry 9). -/
def Dev.aerAdvisory (d : Dev) (f bit : Nat) : Dev :=
  let d := d.updFn f fun x => { x with aerCorr := x.aerCorr ||| 2 ^ 13, devStatus := x.devStatus ||| 1 }
  if bitOf (d.aerCorrMask f) 13 then d
  else (d.updFn f fun x => { x with aerUncorr := x.aerUncorr ||| 2 ^ bit }).errMessage f 0

/-- A request is answered with Unsupported Request and logged in the AER of the function it names (R42, R46). A request
for a function that does not exist has no AER of its own, and is logged in none (DESIGN CHOICE, log entry 68). -/
def Dev.logUr (d : Dev) (f : Nat) : Dev :=
  let d := d.emit (.unsupported f)
  if d.fnExists f then (d.updFn f fun x => { x with devStatus := x.devStatus ||| 8 }).aerUncorrError f 20 else d

/-- Whether a request to a function's memory BARs is served (R46). -/
def Dev.reaches (d : Dev) (f : Nat) : Bool := d.fnExists f && (d.fn f).mse && !(d.fn f).d3

/-- Cut [addr, addr + len) into pieces of at most `most` bytes that cross no 4 KiB boundary; `fuel` bounds the pieces. -/
def pieces : Nat → Nat → Nat → Nat → List (Nat × Nat)
  | 0, _, _, _ => []
  | fuel + 1, addr, len, most =>
    if len = 0 then []
    else
      let n := min len (min (max most 1) (4096 - addr % 4096))
      (addr, n) :: pieces fuel (addr + n) (len - n) most

/-- Max_Payload_Size in bytes. -/
def Dev.maxPayload (d : Dev) (f : Nat) : Nat := min 512 (128 * 2 ^ (d.fn f).mps)

/-- Max_Read_Request_Size in bytes. -/
def Dev.maxRead (d : Dev) (f : Nat) : Nat := min 4096 (128 * 2 ^ (d.fn f).mrrs)

/-- Write bytes to host memory, cut as R48 says. -/
def Dev.writeHost (d : Dev) (f addr : Nat) (data : Bytes) (relaxed : Bool) : Dev :=
  forEach (pieces (data.length + 1) addr data.length (d.maxPayload f))
    (fun p d => d.exitL1.emit (.memWrite f p.1 ((data.drop (p.1 - addr)).take p.2) (relaxed && (d.fn f).relaxed))) d

/-! ### MSI-X (R47) -/

/-- A vector's place in the MSI-X table of the model: function and vector number. -/
def vecKey (f v : Nat) : Nat := f * 2048 + v

/-- Number of vectors of a function (R47). -/
def vectorsOf (f : Nat) : Nat := if f = 0 then 2048 else 64

/-- One MSI-X vector. -/
def Dev.vec (d : Dev) (f v : Nat) : MsixVec := Tbl.getD d.hif.msix (vecKey f v) {}

/-- Write one MSI-X vector. -/
def Dev.setVec (d : Dev) (f v : Nat) (m : MsixVec) : Dev :=
  { d with hif := { d.hif with msix := Tbl.putD d.hif.msix (vecKey f v) m {} } }

/-- Whether a message of the vector can go out now (R47, R57, R61, R83): during a halt only the vector of PF0's event
ring (DEDUCED, log entry 64). -/
def Dev.vecOpen (d : Dev) (f v : Nat) : Bool :=
  !(d.vec f v).masked && !(d.fn f).fmask && d.canDma f &&
    (!d.qmx.halted || (f == 0 && v == d.rd (Reg.EVR_CFG_vector.ix 0)))

/-- Raise a vector (R47): sent, or kept pending while a condition holds it; nothing while MSI-X Enable is 0 or for a
vector the function does not have. -/
def Dev.raiseVec (d : Dev) (f v : Nat) : Dev :=
  if !(d.fn f).msixEn || vectorsOf f ≤ v then d
  else if d.vecOpen f v then (d.setVec f v { d.vec f v with pend := false }).exitL1.emit (.msix f v)
  else d.setVec f v { d.vec f v with pend := true }

/-- Send every pending message of a function whose conditions are clear (R47, R56 step 7). -/
def Dev.sendPending (d : Dev) (f : Nat) : Dev :=
  forEach (d.hif.msix.filter fun p => p.1 / 2048 = f && p.2.pend)
    (fun p d => onlyIf ((d.fn f).msixEn && d.vecOpen f (p.1 % 2048)) (fun d => d.raiseVec f (p.1 % 2048)) d) d

/-! ### Block header reports (R30, R34, R35) -/

/-- The header counters and causes of a block. -/
def Dev.note (d : Dev) (b : Blk) : BlkNote := Tbl.getD d.nt.blks b.page {}

/-- Change the header counters and causes of a block. -/
def Dev.updNote (d : Dev) (b : Blk) (g : BlkNote → BlkNote) : Dev :=
  { d with nt := { d.nt with blks := Tbl.putD d.nt.blks b.page (g (d.note b)) {} } }

/-- Set bits of a number. -/
def orBits (v m : Nat) : Nat := v ||| m

/-- Set causes in BLK_INT_RAW. -/
def Dev.cause (d : Dev) (b : Blk) (mask : Nat) : Dev := d.updNote b fun n => { n with raw := n.raw ||| mask }

/-- Cause bit 3, refused (R30). -/
def Dev.refuse (d : Dev) (b : Blk) : Dev := d.cause b 8

/-- Set a block-specific cause, bit `i` of BLK_INT_RAW. -/
def Dev.causeBit (d : Dev) (b : Blk) (i : Nat) : Dev := d.cause b (2 ^ i)

/-- Record the first error since the last clear (R35). -/
def firstErr (d : Dev) (code : Nat) (n : BlkNote) : BlkNote :=
  if n.firstCode = 0 then { n with firstCode := code, firstTs := d.tmb.sec % 2 ^ 16 } else n

/-- Count a corrected error under a block-specific code (R30, R35). -/
def Dev.errCorr (d : Dev) (b : Blk) (code : Nat) : Dev :=
  d.updNote b fun n => firstErr d code { n with corr := min (n.corr + 1) 0xFFFF, raw := n.raw ||| 1 }

/-- Count an uncorrected error under a block-specific code (R30, R35). -/
def Dev.errUncorr (d : Dev) (b : Blk) (code : Nat) : Dev :=
  d.updNote b fun n => firstErr d code { n with uncorr := min (n.uncorr + 1) 0xFFFF, raw := n.raw ||| 2 }

/-- BLK_STAT.state values (R33). -/
def stOff : Nat := 0
/-- IDLE (R33). -/
def stIdle : Nat := 1
/-- ACTIVE (R33). -/
def stActive : Nat := 2
/-- DRAINING (R33). -/
def stDraining : Nat := 3
/-- FAULT (R33). -/
def stFault : Nat := 4
/-- HALT (R33). -/
def stHalt : Nat := 5

/-- A block's state (R33). -/
def Dev.blkState (d : Dev) (b : Blk) : Nat := d.rd (Reg.BLK_STAT_state.ix b.page)

/-- Move a block to a state; a change sets state_change (R30, R33). -/
def Dev.setState (d : Dev) (b : Blk) (st : Nat) : Dev :=
  if d.blkState b = st then d else (d.wr (Reg.BLK_STAT_state.ix b.page) st).cause b 4

/-- The fourteen blocks in page order. -/
def allBlks : List Blk :=
  [.sys, .hif, .qmx, .tmb, .bps, .pwc, .smc, .ece, .lay, .mnt, .vlt, .bme, .ccx, .dpx]

/-- BLK_INT_EN of a block as one dword. -/
def Dev.intEn (d : Dev) (b : Blk) : Nat :=
  d.rd (Reg.BLK_INT_EN_specific.ix b.page) * 2 ^ 16 + d.rd (Reg.BLK_INT_EN_common.ix b.page)

/-- BLK_INT_STAT (R34): BLK_INT_RAW and BLK_INT_EN, bit by bit. -/
def Dev.intStat (d : Dev) (b : Blk) : Nat := (d.note b).raw &&& d.intEn b

/-- SYS_INT_SUM (R34): bit i while the block at page i has a non-zero BLK_INT_STAT. -/
def Dev.intSum (d : Dev) : Nat := (allBlks.map fun b => if d.intStat b = 0 then 0 else 2 ^ b.page).sum

/-- Whether a block holds work (R30, R33) (DEDUCED, log entry 28). -/
def Dev.working (d : Dev) : Blk → Bool
  | .sys => decide (d.rd (Reg.BLK_STAT_specific.ix 0) ≠ 5)
  | .hif => decide (d.hif.tags ≠ []) || decide (d.hif.waiting ≠ []) || d.hif.fns.any fun p => decide (p.2.held ≠ [])
  | .qmx => decide (d.qmx.fetched ≠ []) || decide (d.qmx.cmds ≠ [])
  | .tmb => decide (d.rd (Reg.BLK_STAT_state.ix Blk.tmb.page) ≠ 0) &&
      (decide (d.rd Reg.TMB_STAT_state ≠ 0) || d.tmb.setPending.isSome)
  | .bps => [1, 2, 3].contains (d.rd Reg.BPS_CHG_STAT_state) || decide (d.rd Reg.BPS_LEARN_STAT_phase ≠ 0) ||
      d.bps.restWindow || d.rdB Reg.BPS_CAL_STAT_running || d.bps.ramp.isSome || d.rdB Reg.BPS_PARAM_pending
  | .pwc => d.dram.cache.any fun b => decide (b.st ≠ .clean)
  | .smc => decide (d.smc.regs ≠ []) || decide (d.smc.waiting ≠ []) || decide (d.smc.evict ≠ []) ||
      decide (d.smc.ackWait ≠ []) || d.smc.invWalk || d.smc.rekeyPending || d.smc.rekeyRunning
  | .ece => decide (d.ece.jobs ≠ []) || d.ece.katOn.isSome || decide (d.ece.retesting ≠ [])
  | .lay => decide (d.lay.ops ≠ []) || decide (d.lay.destages ≠ []) || decide (d.lay.gathers ≠ []) ||
      decide (d.dram.intents ≠ [])
  | .mnt => decide (d.mnt.acts ≠ [])
  | .vlt => d.vlt.dusk.isSome || d.vlt.dawn.isSome || d.rdB Reg.VLT_STAT_erasing
  | .bme => (List.range 8).any fun c => decide (d.rd (Reg.BME_CH_STAT_state.ix c) = 1)
  | .ccx => decide (d.ccx.fwOp ≠ .idle)
  | .dpx => d.dpx.ports.any fun p => decide (p.2.queue ≠ []) || decide (p.2.outst ≠ [])

/-- A GATED block that a request reaches runs again (R37). -/
def Dev.ungate (d : Dev) (b : Blk) : Dev :=
  if d.rd (Reg.BLK_POWER_pstate.ix b.page) = 0 then d else d.wr (Reg.BLK_POWER_pstate.ix b.page) 0

/-- A memory request of the host to a function, at a place that a block owns: no link carries it, or the function answers
Unsupported Request (R46), or the page does not answer (R328), or it acts; it ends L1 (R59), and a GATED block wakes
(R37). -/
def Dev.atFn (d : Dev) (f : Nat) (b : Blk) (g : Dev → Dev) : Dev :=
  if !d.linkUp then d
  else if !d.reaches f then d.exitL1.logUr f
  else if d.answers (b.page * 65536) then g ((d.exitL1.ungate .hif).ungate b)
  else d.exitL1

/-- A host write that reaches a block's page of PF0's BAR0. -/
def Dev.atPage (d : Dev) (b : Blk) (g : Dev → Dev) : Dev := d.atFn 0 b g

/-- A block that is IDLE or ACTIVE shows which of the two it is (R33; DEDUCED, log entry 28); a block with work is not GATED. -/
def Dev.showState (d : Dev) (b : Blk) : Dev :=
  let w := d.working b
  let d := if w then d.ungate b else d
  if d.blkState b = stIdle ∨ d.blkState b = stActive then d.setState b (if w then stActive else stIdle) else d

/-- The LTR message of R59: sent when work in flight or held entries begin or end, while HIF_LTR.auto is 1. -/
def Dev.showLtr (d : Dev) : Dev :=
  let busy := decide (d.qmx.cmds ≠ []) || (d.hif.fns.any fun p => decide (p.2.held ≠ [])) ||
    d.nt.rings.any fun p => !d.canPost p.1 && decide (p.2.pend ≠ [])
  if d.rdB Reg.HIF_LTR_auto && d.linkUp && decide (busy ≠ d.hif.ltrBusy) then
    ({ d with hif := { d.hif with ltrBusy := busy } } : Dev).exitL1.emit (.ltr (if busy then some (d.rd Reg.HIF_LTR_busy_us) else none))
  else d

/-- What R34 does after every change: the change of SYS_INT_SUM from zero to non-zero raises the PF0 vector that
SYS_INT_VEC selects. -/
def Dev.showSum (d : Dev) : Dev :=
  let live := decide (d.intSum ≠ 0)
  let d := if live && !d.nt.sumLive then d.raiseVec 0 (d.rd Reg.SYS_INT_VEC_vec) else d
  { d with nt := { d.nt with sumLive := live } }

/-- What every command ends with: block states, the LTR message and SYS_INT_SUM are brought up to date
(DEDUCED, log entry 28). -/
def Dev.settle (d : Dev) : Dev := (allBlks.foldl Dev.showState d).showLtr.showSum

/-! ### Events (R70, R72, R103, R104) -/

/-- A function's event ring. -/
def Dev.ring (d : Dev) (f : Nat) : EvRing := Tbl.getD d.nt.rings f {}

/-- Change a function's event ring. -/
def Dev.updRing (d : Dev) (f : Nat) (g : EvRing → EvRing) : Dev :=
  { d with nt := { d.nt with rings := Tbl.putD d.nt.rings f (g (d.ring f)) {} } }

/-- Depth of a function's event ring (R77). -/
def Dev.ringDepth (d : Dev) (f : Nat) : Nat := d.rd (Reg.EVR_CFG_size_m1.ix f) + 1

/-- Free entries of a function's event ring: depth − 1 less the entries not released (R68); none while it is disabled. -/
def Dev.ringFree (d : Dev) (f : Nat) : Nat :=
  if d.rdB (Reg.EVR_CFG_en.ix f) then
    d.ringDepth f - 1 - (d.ringDepth f + (d.ring f).tail - (d.ring f).head) % d.ringDepth f
  else 0

/-- The 32 bytes of an event entry (R103). -/
def Event.bytes (e : Event) (phase : Bool) : Bytes :=
  leBytes 4 (b2n phase * 2 ^ 31 + e.concerns % 128 * 2 ^ 20 + e.severity % 16 * 2 ^ 16 + e.type % 2 ^ 16) ++
  leBytes 4 e.seq ++ leBytes 8 e.ts ++ leBytes 4 e.dw4 ++ leBytes 4 e.dw5 ++ leBytes 4 e.dw6 ++ leBytes 4 e.dw7

/-- Write one event entry at the ring's tail (R70). -/
def Dev.putEvent (d : Dev) (f : Nat) (e : Event) : Dev :=
  let r := d.ring f
  let t := (r.tail + 1) % d.ringDepth f
  let d := d.writeHost f (d.rd (Reg.EVR_BASE_base.ix f) * 4096 + 32 * r.tail) (e.bytes r.phase) false
  d.updRing f fun r => { r with tail := t, phase := if t = 0 then !r.phase else r.phase }

/-- The vector of a function's event ring, raised once after the entries of one posting pass (R71, R72). -/
def Dev.raiseRing (d : Dev) (f : Nat) : Dev :=
  if d.rdB (Reg.EVR_CFG_irq_en.ix f) then d.raiseVec f (d.rd (Reg.EVR_CFG_vector.ix f)) else d

/-- A posting pass of one event. -/
def Dev.writeEvent (d : Dev) (f : Nat) (e : Event) : Dev := (d.putEvent f e).raiseRing f

/-- Whether an event passes a function's class mask and minimum severity (R104): bit type / 16 of the mask, with
DEFERRED_ERROR (0x0020) and HALT (0x0070) always passing. -/
def passesMask (r : EvRing) (e : Event) : Bool :=
  e.type = 0x20 || e.type = 0x70 || (bitOf r.classMask (e.type / 16 % 16) && decide (r.minSev ≤ e.severity))

/-- What an event does to a function in D3hot (R57, R58): PME_Status, and a PM_PME message or PE_WAKE_N when PME_En is 1. -/
def Dev.pmeEvent (d : Dev) (f : Nat) : Dev :=
  if (d.fn f).d3 then
    let d := d.updFn f fun x => { x with pmeStatus := true }
    if (d.fn f).pmeEn then
      if d.hif.d3cold then
        if d.nt.wakeN then { d with nt := { d.nt with wakeN := false } }.emit (.wakePin true) else d
      else if d.linkUp then d.exitL1.emit (.pmPme f) else d
    else d
  else d

/-- Put an event into one function's ring, or into its pending queue, or discard and count it (R56, R72). -/
def Dev.deliver (d : Dev) (f : Nat) (e : Event) : Dev :=
  let r := d.ring f
  if !passesMask r e then d
  else
    let e := { e with seq := r.seq }
    let d := d.updRing f fun r => { r with seq := (r.seq + 1) % 2 ^ 32 }
    let d := d.pmeEvent f
    let may := d.canPost f || (e.type = 0x70 && d.canDma f)
    if may && (r.pend = [] || d.qmx.halted) && decide (0 < d.ringFree f) then d.writeEvent f e
    else if r.pend.length < 64 + (if may then 0 else d.ringFree f) then
      d.updRing f fun r => { r with pend := r.pend ++ [e] }
    else
      let d := (d.updRing f fun r => { r with lost := min (r.lost + 1) 0xFFFF }).causeBit .qmx 18
      if may then d else (d.updFn f fun x => { x with heldOvf := true }).causeBit .hif 19

/-- Write waiting events of a function while it may post and its ring has room (R56 step 7, R72); `fuel` bounds them. -/
def Dev.drainEvents : Nat → Nat → Dev → Dev
  | 0, _, d => d
  | fuel + 1, f, d =>
    match (d.ring f).pend with
    | [] => d
    | e :: rest =>
      if d.canPost f && decide (0 < d.ringFree f) then
        Dev.drainEvents fuel f ((d.updRing f fun r => { r with pend := rest }).putEvent f e)
      else d

/-- One posting pass over the waiting events of a function (R71, R72). -/
def Dev.drainPass (d : Dev) (f : Nat) : Dev :=
  let n := (d.ring f).pend.length
  let e := Dev.drainEvents n f d
  if (e.ring f).pend.length < n then e.raiseRing f else e

/-- Write the HALT event that waits for PF0's ring, during the halt, once the ring is free and no condition of R63 holds
it; it passes the other waiting events, whose writes the halt stops (R83) (DEDUCED, log entry 64). -/
def Dev.drainHalt (d : Dev) (f : Nat) : Dev :=
  match (d.ring f).pend.find? fun e => e.type = 0x70 with
  | some e =>
    if d.qmx.halted && d.canDma f && decide (0 < d.ringFree f) then
      (d.updRing f fun r => { r with pend := r.pend.erase e }).writeEvent f e
    else d
  | none => d

/-- Write what waits for a function's ring and may be written now (R56, R72, R83) (DEDUCED, log entry 64). -/
def Dev.drainRing (d : Dev) (f : Nat) : Dev :=
  if d.qmx.halted then d.drainHalt f else d.drainPass f

/-- Post an event to PF0 (R104). -/
def Dev.post (d : Dev) (type sev dw4 dw5 dw6 dw7 : Nat) (concerns : Nat := 0x7F) : Dev :=
  d.deliver 0 ⟨concerns, sev, type, 0, d.now, dw4, dw5, dw6, dw7⟩

/-- Post an event to PF0 and to every function that a mask of VFs names (R104, "Volume"): bit v − 1 for VF v. -/
def Dev.postVolume (d : Dev) (vfs : Nat) (type sev dw4 dw5 dw6 dw7 : Nat) : Dev :=
  forEach ((List.range 65).filter fun f => f = 0 || (d.fnExists f && bitOf vfs (f - 1)))
    (fun f d => d.deliver f ⟨0x7F, sev, type, 0, d.now, dw4, dw5, dw6, dw7⟩) d

/-! ### Squall (R340, R342, R356) -/

/-- Block code of R30: page + 1. -/
def blkCode (b : Blk) : Nat := b.page + 1

/-- Record a Squall, and post SQUALL unless 16 of its block and code were posted within the last second. -/
def Dev.squall (d : Dev) (b : Blk) (fault stall : Nat) : Dev :=
  let n := d.nt
  let recent := n.sqlTimes.filter fun p => d.ticks < p.2 + ticksPerSec
  let mine := (recent.filter fun p => p.1 = blkCode b * 256 + fault).length
  let d := { d with nt := { n with
    sqlCount := min (n.sqlCount + 1) (2 ^ 32 - 1)
    sqlNext := (n.sqlNext + 1) % 16
    sqlRecs := Tbl.put n.sqlRecs n.sqlNext ⟨blkCode b, fault, stall, d.now⟩
    sqlTimes := if mine < 16 then (blkCode b * 256 + fault, d.ticks) :: recent else recent } }
  let d := d.causeBit .sys 20
  if mine < 16 then d.post 0x50 2 fault stall (blkCode b) 0 else d

/-! ### The addressed RAMs (R151, R377) -/

/-- A byte of a RAM; a byte that nothing has written reads 0 (DESIGN CHOICE, log entry 6). -/
def Memory.get (m : List Host.Cell) (a : Nat) : Byte := Tbl.getD m a 0

/-- Write a byte, keeping the canonical form. -/
def Memory.put (m : List Host.Cell) (a : Nat) (v : Byte) : List Host.Cell := Tbl.putD m a v 0

/-- Write a byte string from an address up. -/
def Memory.putAll : List Host.Cell → Nat → Bytes → List Host.Cell
  | m, _, [] => m
  | m, a, v :: vs => Memory.putAll (Memory.put m a v) (a + 1) vs

/-- Read n bytes from an address up. -/
def Memory.getAll (m : List Host.Cell) (a : Nat) : Nat → Bytes
  | 0 => []
  | n + 1 => Memory.get m a :: Memory.getAll m (a + 1) n

/-- Addresses strictly rise above a bound, and no entry is the unlisted value. -/
def Memory.wfFrom : Nat → List Host.Cell → Bool
  | _, [] => true
  | lo, (a, v) :: r => decide (lo ≤ a) && decide (v ≠ 0) && Memory.wfFrom (a + 1) r

/-- The canonical form of a RAM's content. -/
def Memory.wf (m : List Host.Cell) : Bool := Memory.wfFrom 0 m

/-! ### Outcomes of a command -/

/-- A command that changes the device beside its RAMs (DESIGN CHOICE, log entry 34). -/
def State.act (s : State) (f : Dev → Dev) : Out := .next { s with dev := (f s.dev).settle }

/-- A host's request about a unit: one that the device does not have is unimplemented, and the request is ignored (R26)
(DESIGN CHOICE, log entry 10). -/
def ifUnit (ok : Bool) (s : State) (f : Dev → Dev) : Out := s.act fun d => if ok then f d else d

/-- A host write to a register of a block's page, about a unit that the device may not have (R26, R46)
(DESIGN CHOICE, log entry 10). -/
def onPage (b : Blk) (ok : Bool) (s : State) (f : Dev → Dev) : Out := s.act fun d => d.atPage b fun d => if ok then f d else d

/-- An event on a unit: it stops where the device has no such unit (DESIGN CHOICE, log entry 10). -/
def onUnit (ok : Bool) (s : State) (f : Dev → Dev) : Out :=
  if ok then s.act f else .fault .noSuchUnit

end Sys2Proof.Machine
end

