-- ==== Sys2Proof/Machine/Operands.lean ====
section
/-! DEFINITION. The fields of submission entries (R79, R91), the ownership of queues (R66) and of volumes (R130), and the
lookups of admitted commands. -/

set_option Elab.async false

namespace Sys2Proof.Machine

/-! ### Submission entries (R79) -/

/-- Dword i of an entry. -/
def dw (e : List Dword) (i : Nat) : Nat := (e.getD i 0).toNat

/-- A field of dword i. -/
def dwBits (e : List Dword) (i hi lo : Nat) : Nat := bitsOf (dw e i) hi lo

/-- opcode, dw0 bits 7..0. -/
def eOpcode (e : List Dword) : Nat := dwBits e 0 7 0
/-- cmd_tag, dw0 bits 31..16. -/
def eCmdTag (e : List Dword) : Nat := dwBits e 0 31 16
/-- FENCE, dw0 bit 8. -/
def eFence (e : List Dword) : Bool := bitOf (dw e 0) 8
/-- FUA, dw0 bit 9. -/
def eFua (e : List Dword) : Bool := bitOf (dw e 0) 9
/-- IND, dw0 bit 10. -/
def eInd (e : List Dword) : Bool := bitOf (dw e 0) 10
/-- STRM, dw0 bit 11. -/
def eStrm (e : List Dword) : Bool := bitOf (dw e 0) 11
/-- TAGCHK, dw0 bit 12. -/
def eTagchk (e : List Dword) : Bool := bitOf (dw e 0) 12
/-- volume, dw1 bits 9..0. -/
def eVolume (e : List Dword) : Nat := dwBits e 1 9 0
/-- stream, dw1 bits 21..10. -/
def eStream (e : List Dword) : Nat := dwBits e 1 21 10
/-- hint, dw1 bits 23..22. -/
def eHint (e : List Dword) : Nat := dwBits e 1 23 22
/-- LBA, dw3 bits 15..0 above dw2. -/
def eLba (e : List Dword) : Nat := dwBits e 3 15 0 * 2 ^ 32 + dw e 2
/-- count, dw4. -/
def eCount (e : List Dword) : Nat := dw e 4
/-- addr, dw7 above dw6. -/
def eAddr (e : List Dword) : Nat := dw e 7 * 2 ^ 32 + dw e 6
/-- length, dw8, of a direct transfer. -/
def eLength (e : List Dword) : Nat := dw e 8
/-- frags, dw8 bits 15..0, of an indirect transfer. -/
def eFrags (e : List Dword) : Nat := dwBits e 8 15 0
/-- CRC list address, dw11 above dw10 (R91). -/
def eCrcAddr (e : List Dword) : Nat := dw e 11 * 2 ^ 32 + dw e 10

/-- READ (R91). -/
def opRead : Nat := 0x01
/-- WRITE (R91). -/
def opWrite : Nat := 0x02
/-- FLUSH (R91). -/
def opFlush : Nat := 0x03
/-- VERIFY (R91). -/
def opVerify : Nat := 0x05
/-- DEALLOCATE (R91). -/
def opDeallocate : Nat := 0x06
/-- WRITE_ZEROES (R91). -/
def opWriteZeroes : Nat := 0x07
/-- NOP (R91). -/
def opNop : Nat := 0x10
/-- IDENTIFY (R91). -/
def opIdentify : Nat := 0x81
/-- GET_LOG (R91). -/
def opGetLog : Nat := 0x82
/-- DET_ACK (R91). -/
def opDetAck : Nat := 0x83
/-- OUTCOME_READ (R91). -/
def opOutcomeRead : Nat := 0x84
/-- SET_EVENT_MASK (R91). -/
def opSetEventMask : Nat := 0x85

/-- The opcodes of I/O queues (R79). -/
def ioOpcodes : List Nat := [opRead, opWrite, opFlush, opVerify, opDeallocate, opWriteZeroes, opNop]
/-- The opcodes of the admin queue (R79). -/
def adminOpcodes : List Nat := [opIdentify, opGetLog, opDetAck, opOutcomeRead, opSetEventMask, opNop]
/-- The data opcodes, which address an LBA range (R79). -/
def isDataOp (op : Nat) : Bool := [opRead, opWrite, opVerify, opDeallocate, opWriteZeroes].contains op
/-- The write-class opcodes (R97). -/
def isWriteClass (op : Nat) : Bool := [opWrite, opDeallocate, opWriteZeroes].contains op
/-- The opcodes that name a volume (R91). -/
def namesVolume (op : Nat) : Bool := isDataOp op || op == opFlush
/-- The opcodes that transfer data (R91). -/
def transfersData (op : Nat) : Bool := [opRead, opWrite, opIdentify, opGetLog, opOutcomeRead].contains op

/-- Whether a FLUSH covers every volume (R93). -/
def eFlushAll (e : List Dword) : Bool := eOpcode e == opFlush && bitOf (dw e 9) 0

/-- Entry size of a log of GET_LOG, 0 for an undefined log (R91). -/
def logEntrySize (log : Nat) : Nat := if log = 1 then 32 else if log = 2 then 8 else if log = 3 then 32 else 0

/-- The length an admin opcode defines; none where it is not checked (R81). -/
def adminLength (e : List Dword) : Option Nat :=
  if eOpcode e = opIdentify then some 4096
  else if eOpcode e = opGetLog then
    if logEntrySize (dwBits e 9 7 0) = 0 then none
    else some ((dwBits e 11 15 0 + 1) * logEntrySize (dwBits e 9 7 0))
  else if eOpcode e = opOutcomeRead then some ((dwBits e 11 15 0 + 1) * 32)
  else none

/-- The length a transfer must have; none where it is not checked (R81, R82). -/
def wantedLength (e : List Dword) : Option Nat :=
  if eOpcode e = opRead ∨ eOpcode e = opWrite then
    if eCount e ≤ 16384 then some (eCount e * 4096) else none
  else adminLength e

/-! ### Queues and functions (R66) -/

/-- First device SQ of a function. -/
def Dev.sqBase (d : Dev) (f : Nat) : Nat := d.rd (Reg.QMX_FN_SQ_base.ix f)
/-- Number of SQs of a function. -/
def Dev.sqCount (d : Dev) (f : Nat) : Nat := d.rd (Reg.QMX_FN_SQ_count.ix f)
/-- First device CQ of a function. -/
def Dev.cqBase (d : Dev) (f : Nat) : Nat := d.rd (Reg.QMX_FN_CQ_base.ix f)
/-- Number of CQs of a function. -/
def Dev.cqCount (d : Dev) (f : Nat) : Nat := d.rd (Reg.QMX_FN_CQ_count.ix f)

/-- The function that owns a device SQ. -/
def Dev.sqOwner (d : Dev) (q : Nat) : Option Nat :=
  (List.range 65).find? fun f => decide (d.sqBase f ≤ q ∧ q < d.sqBase f + d.sqCount f)

/-- The function that owns a device CQ. -/
def Dev.cqOwner (d : Dev) (q : Nat) : Option Nat :=
  (List.range 65).find? fun f => decide (d.cqBase f ≤ q ∧ q < d.cqBase f + d.cqCount f)

/-- The device CQ of a device SQ of function f (R75). -/
def Dev.cqOfSq (d : Dev) (f q : Nat) : Nat := d.cqBase f + d.rd (Reg.QD_SQ_CFG_cq.ix q)

/-- SQ states (R76). -/
def sqDisabled : Nat := 0
/-- ACTIVE (R76). -/
def sqActive : Nat := 1
/-- DRAINING (R76). -/
def sqDraining : Nat := 2
/-- FETCH_TIMEOUT (R76). -/
def sqFetchTimeout : Nat := 3
/-- HALTED (R76). -/
def sqHalted : Nat := 4

/-- State of a device SQ beside the halt, which R83 shows over it. -/
def Dev.sqState (d : Dev) (q : Nat) : Nat := d.rd (Reg.QD_SQ_STAT_state.ix q)

/-- State of a device SQ as QD_SQ_STAT shows it (R76, R83). -/
def Dev.sqShown (d : Dev) (q : Nat) : Nat :=
  if d.qmx.halted && d.sqState q ≠ sqDisabled then sqHalted else d.sqState q

/-- Whether a device CQ is ACTIVE. -/
def Dev.cqActive (d : Dev) (q : Nat) : Bool := d.rdB (Reg.QD_CQ_STAT_state.ix q)

/-- Depth of a device SQ. -/
def Dev.sqDepth (d : Dev) (q : Nat) : Nat := d.rd (Reg.QD_SQ_CFG_size_m1.ix q) + 1
/-- Depth of a device CQ. -/
def Dev.cqDepth (d : Dev) (q : Nat) : Nat := d.rd (Reg.QD_CQ_CFG_size_m1.ix q) + 1

/-! ### Admitted commands -/

/-- An admitted command. -/
def Dev.cmd? (d : Dev) (adm : Nat) : Option Cmd := d.qmx.cmds.find? fun c => c.adm = adm

/-- Change an admitted command. -/
def Dev.updCmd (d : Dev) (adm : Nat) (g : Cmd → Cmd) : Dev :=
  { d with qmx := { d.qmx with cmds := d.qmx.cmds.map fun c => if c.adm = adm then g c else c } }

/-- Whether a command's block range meets another's on one volume (R97). -/
def overlaps (a b : Cmd) : Bool :=
  isDataOp (eOpcode a.entry) && isDataOp (eOpcode b.entry) && eVolume a.entry = eVolume b.entry &&
  decide (eLba a.entry < eLba b.entry + eCount b.entry) && decide (eLba b.entry < eLba a.entry + eCount a.entry)

/-! ### Volumes (R130) -/

/-- Whether a volume exists. -/
def Dev.volExists (d : Dev) (v : Nat) : Bool := decide (v < 1024) && d.rdB (Reg.VD_CFG_en.ix v)

/-- Whether a function may access a volume (R92 check 1, R130). -/
def Dev.volAccess (d : Dev) (f v : Nat) : Bool :=
  d.volExists v &&
  (if f = 0 then d.rdB (Reg.VD_CFG_pf0.ix v) else bitOf (d.rd (Reg.VD_ACCESS_vfs.ix v)) (f - 1))

/-- The array of a volume. -/
def Dev.volArray (d : Dev) (v : Nat) : Nat := d.rd (Reg.VD_CFG_array.ix v)

/-- The volumes that exist. -/
def Dev.volumes (d : Dev) : List Nat := (List.range 1024).filter d.volExists

/-- The volumes a FLUSH with ALL covers (R93). -/
def Dev.flushAllVols (d : Dev) (f : Nat) : List Nat :=
  if f = 0 then d.volumes else d.volumes.filter (d.volAccess f)

/-- Whether an array's drives take commands (R250, R251). -/
def Dev.arrAwake (d : Dev) (a : Nat) : Bool :=
  decide (d.rd (Reg.AR_PWR_STAT_pstate.ix a) = 0) && !d.rdB (Reg.AR_PWR_STAT_entering.ix a) &&
  !d.rdB (Reg.AR_PWR_STAT_exiting.ix a)

/-- A command's completion waits for the power exit of an array that slept when the command was admitted (R90, R252). -/
def Dev.waitsFor (d : Dev) (adm a : Nat) : Dev :=
  if d.arrAwake a then d
  else d.updCmd adm fun c =>
    if c.asleep.contains a && !c.waited.contains a then { c with waited := c.waited ++ [a] } else c

/-- Deferred Error Table entries held for a volume (R101). -/
def Dev.detHeld (d : Dev) (v : Nat) : Nat := (d.dram.det.filter fun e => e.volume = v).length

/-- Overflow count of a volume (R102). -/
def Dev.overflowOf (d : Dev) (v : Nat) : Nat := (d.dram.overflow.filter fun e => e.volume = v).length

/-- The VFs that some volume of an array, or one volume, admits: the mask of R104's "Volume" events. -/
def Dev.arrayVfs (d : Dev) (a : Nat) : Nat :=
  (d.volumes.filter fun v => d.volArray v = a).foldl (fun m v => m ||| d.rd (Reg.VD_ACCESS_vfs.ix v)) 0

end Sys2Proof.Machine
end

