-- ==== Sys2Proof/Machine/Tags.lean ====
section
/-! DEFINITION. The host read tag pool: issuing reads, waiting for tags, granting freed tags (R48 to R50), and the meaning of
TAG_GRANT. -/

set_option Elab.async false

namespace Sys2Proof.Machine

/-- What a read is for once its data will be discarded. -/
def ReadKind.drop : ReadKind → ReadKind
  | .bme _ _ => .droppedBme
  | .droppedBme => .droppedBme
  | _ => .dropped

/-- The tag values in use, by the tag sizes that PF0 has enabled (R49). -/
def Dev.tagIds (d : Dev) : List Nat :=
  if d.hif.tag14 && d.rdB Reg.HIF_LINK_flit then List.range 2048
  else if d.hif.tag10 || d.hif.tag14 then (List.range 768).map (· + 256)
  else List.range 256

/-- Tags a function holds, quarantined ones included (R50). -/
def Dev.tagsOf (d : Dev) (f : Nat) : Nat := (d.hif.tags.filter fun t => t.fn = f).length

/-- Tag limit of a function (R50, R64): 0 behaves as 1, values above 2048 as 2048. -/
def Dev.tagLimit (d : Dev) (f : Nat) : Nat := min 2048 (max 1 (d.rd (Reg.HIF_FN_TAG_limit.ix f)))

/-- The tag that the next read takes: the lowest free one (DESIGN CHOICE, log entry 16). -/
def Dev.freeTagId (d : Dev) : Option Nat := d.tagIds.find? fun i => !(d.hif.tags.any fun t => t.id = i)

/-- Whether a function may take a tag now (R50). -/
def Dev.mayTakeTag (d : Dev) (f : Nat) : Bool :=
  d.canDma f && !d.qmx.halted && decide (d.tagsOf f < d.tagLimit f) && d.freeTagId.isSome

/-- Send a read under a tag. -/
def Dev.sendRead (d : Dev) (r : ReadReq) (id : Nat) : Dev :=
  ({ d with hif := { d.hif with tags := d.hif.tags ++ [⟨id, r.fn, r.kind, r.addr, r.len, r.retried, false, false⟩] } } : Dev).exitL1.emit
    (.memRead r.fn id r.addr r.len)

/-- Whether a read must wait behind others: a read of its function waits, or one of a function that could take the free tag
(R50). -/
def Dev.mustQueue (d : Dev) (f : Nat) : Bool := d.hif.waiting.any fun w => w.fn = f || d.mayTakeTag w.fn

/-- Ask for a read: sent at once while the function may take a tag and no read comes before it, else it waits. -/
def Dev.askRead (d : Dev) (r : ReadReq) : Dev :=
  match d.freeTagId with
  | some id =>
    if d.mayTakeTag r.fn && !d.mustQueue r.fn then d.sendRead r id
    else { d with hif := { d.hif with waiting := d.hif.waiting ++ [r] } }
  | none => { d with hif := { d.hif with waiting := d.hif.waiting ++ [r] } }

/-- Read [addr, addr + len) of host memory, cut as R48 says; `kind` names what offset each piece serves. -/
def Dev.readHost (d : Dev) (f addr len : Nat) (kind : Nat → Nat → ReadKind) : Dev :=
  forEach (pieces (len + 1) addr len (d.maxRead f))
    (fun p d => d.askRead ⟨f, kind (p.1 - addr) p.2, p.1, p.2, false⟩) d

/-- Free a tag. -/
def Dev.freeTag (d : Dev) (id : Nat) : Dev :=
  { d with hif := { d.hif with tags := d.hif.tags.filter fun t => t.id ≠ id } }

/-- The reads of a command serve nothing any more: their data will be discarded; those still waiting are not sent. -/
def Dev.dropReads (d : Dev) (mine : ReadKind → Bool) : Dev :=
  { d with hif := { d.hif with
      tags := d.hif.tags.map fun t => if mine t.kind then { t with kind := t.kind.drop } else t
      waiting := d.hif.waiting.filter fun w => !mine w.kind } }

/-- Whether a read serves an admitted command. -/
def kindIsCmd (adm : Nat) : ReadKind → Bool
  | .data a _ => a == adm
  | .crcs a _ => a == adm
  | .frags a _ => a == adm
  | _ => false

/-- Whether a read serves the fetch of a queue's entries. -/
def kindIsSq (q : Nat) : ReadKind → Bool
  | .entries q' _ _ => q' == q
  | _ => false

/-! ### BME channels and their errors (R380, R384) -/

/-- HOST, SCRATCH and MAILBOX (R379). -/
def spHost : Nat := 0
/-- SCRATCH. -/
def spScratch : Nat := 1
/-- MAILBOX. -/
def spMailbox : Nat := 2

/-- A BME channel beside its registers. -/
def Dev.bmeCh (d : Dev) (c : Nat) : BmeCh := Tbl.getD d.bme.chs c {}

/-- Change a BME channel beside its registers. -/
def Dev.updBmeCh (d : Dev) (c : Nat) (g : BmeCh → BmeCh) : Dev :=
  { d with bme := { d.bme with chs := Tbl.putD d.bme.chs c (g (d.bmeCh c)) {} } }

/-- Whether a read serves a BME channel. -/
def kindIsBme (c : Nat) : ReadKind → Bool
  | .bme c' _ => c' == c
  | _ => false

/-- Whether a HOST range lies inside the host window (R380). -/
def Dev.inWindow (d : Dev) (addr len : Nat) : Bool :=
  decide (d.rd Reg.BME_WIN_BASE_base * 4096 ≤ addr ∧ addr + len ≤ d.rd Reg.BME_WIN_LIMIT_limit * 4096)

/-- State of a channel: 0 IDLE, 1 RUNNING, 2 ERROR, 3 OFF (R390). -/
def Dev.bmeState (d : Dev) (c : Nat) : Nat := d.rd (Reg.BME_CH_STAT_state.ix c)

/-- Whether a channel's active set names a space (R384). -/
def Dev.bmeNames (d : Dev) (c space : Nat) : Bool :=
  d.rd (Reg.BME_ACT_CFG_src_space.ix c) = space || d.rd (Reg.BME_ACT_CFG_dst_space.ix c) = space

/-- Content of a SCRATCH or MAILBOX range becomes undefined (R384, R385). -/
def Dev.bmeSpoil (d : Dev) (space lo hi : Nat) : Dev :=
  if (space = spScratch ∨ space = spMailbox) ∧ lo < hi then
    let d : Dev := { d with bme := { d.bme with undef := ⟨space, lo, hi, d.freeCtr⟩ :: d.bme.undef } }
    d.nextFree
  else d

/-- The destination of a channel's active set from an offset on becomes undefined. -/
def Dev.bmeSpoilActive (d : Dev) (c off : Nat) : Dev :=
  let a := d.rd (Reg.BME_ACT_DST_addr.ix c)
  d.bmeSpoil (d.rd (Reg.BME_ACT_CFG_dst_space.ix c)) (a + off) (a + d.rd (Reg.BME_ACT_LEN_bytes.ix c))

/-- A running set ends early (R384). -/
def Dev.bmeErr (d : Dev) (c e : Nat) : Dev :=
  if d.bmeState c = 1 then
    let d := (d.wr (Reg.BME_CH_STAT_state.ix c) 2).wr (Reg.BME_CH_STAT_error.ix c) e
    let d := (d.dropReads (kindIsBme c)).bmeSpoilActive c (d.rd (Reg.BME_CH_DONE_bytes.ix c))
    ((d.updBmeCh c fun _ => {}).causeBit .bme (24 + c)).errUncorr .bme e
  else d

/-- Every running set that names a space ends early (DEDUCED, log entry 30) (DESIGN CHOICE, log entry 49). -/
def Dev.bmeErrAll (d : Dev) (space e : Nat) : Dev :=
  forEach (List.range 8) (fun c d => if d.bmeNames c space then d.bmeErr c e else d) d

/-- A BME read outside the window ends its set instead of going out (R380, R384). -/
def Dev.bmeReadOk (d : Dev) (r : ReadReq) : Option Nat :=
  match r.kind with
  | .bme c _ => if d.inWindow r.addr r.len then none else some c
  | _ => none

/-- Give a freed tag to the next waiting function, in round-robin order of function number (R50). -/
def Dev.tagGrant (d : Dev) : Dev :=
  let order := (List.range 65).map fun i => (d.hif.grantNext + i) % 65
  match order.find? fun f => d.mayTakeTag f && d.hif.waiting.any fun w => w.fn = f with
  | none => d
  | some f =>
    match d.hif.waiting.find? (fun w => w.fn = f), d.freeTagId with
    | some r, some id =>
      let d := { d with hif := { d.hif with waiting := d.hif.waiting.erase r, grantNext := (f + 1) % 65 } }
      match d.bmeReadOk r with
      | some c => d.bmeErr c 2
      | none => d.sendRead r id
    | _, _ => d

/-- TAG_GRANT (R50). -/
def execTagGrant (s : State) : Out := s.act Dev.tagGrant

end Sys2Proof.Machine
end

