-- ==== Sys2Proof/Machine/BulkData.lean ====
section
/-! DEFINITION. The content of SCRATCH and MAILBOX as BME reads and writes it, undefined ranges included, and the arrival of
host data in a channel's destination (R379, R383, R384). -/

set_option Elab.async false

namespace Sys2Proof.Machine

/-- A byte of SCRATCH or MAILBOX: a free value where its content is undefined (DESIGN CHOICE, log entry 49). -/
def State.spaceByte (s : State) (space a : Nat) : Byte :=
  match s.dev.bme.undef.find? fun r => r.space = space && decide (r.lo ≤ a ∧ a < r.hi) with
  | some r => Config.freeByte r.stamp a
  | none => Memory.get (if space = spScratch then s.scratch else s.mailbox) a

/-- Read n bytes of SCRATCH or MAILBOX. -/
def State.spaceRead (s : State) (space a n : Nat) : Bytes := (List.range n).map fun i => s.spaceByte space (a + i)

/-- What is left of an undefined range once [lo, hi) of its space is written. -/
def UndefRange.cut (r : UndefRange) (space lo hi : Nat) : List UndefRange :=
  if r.space ≠ space then [r]
  else
    (if r.lo < min r.hi lo then [{ r with hi := min r.hi lo }] else []) ++
    (if max r.lo hi < r.hi then [{ r with lo := max r.lo hi }] else [])

/-- Write bytes to SCRATCH or MAILBOX. -/
def State.spaceWrite (s : State) (space a : Nat) (bs : Bytes) : State :=
  let u := s.dev.bme.undef.flatMap fun r => r.cut space a (a + bs.length)
  let s : State := { s with dev := { s.dev with bme := { s.dev.bme with undef := u } } }
  if space = spScratch then { s with scratch := Memory.putAll s.scratch a bs }
  else { s with mailbox := Memory.putAll s.mailbox a bs }

/-- Write bytes to a set's destination that another set wrote meanwhile: each 64-byte unit of the overlap holds the content of
one of the two, and which one is a free value (R383) (DESIGN CHOICE, log entry 49). -/
def State.racedWrite (s : State) (space a : Nat) (bs : Bytes) (raced : List (Nat × Nat)) : State :=
  let hit (x : Nat) : Bool := raced.any fun p => decide (p.1 ≤ x ∧ x < p.2)
  if raced = [] then s.spaceWrite space a bs
  else
    let c := s.dev.freeCtr
    let keep (x : Nat) : Bool := hit x && decide (Config.freeNat (c + x / 64) % 2 = 1)
    let old := s
    let s := s.spaceWrite space a ((List.range bs.length).map fun i =>
      if keep (a + i) then old.spaceByte space (a + i) else bs.getD i 0)
    { s with dev := { s.dev with freeCtr := c + (a + bs.length) / 64 + 1 } }

/-- Store the host data that extends a channel's prefix (R383); `fuel` bounds the pieces. -/
def State.bmeStore : Nat → Nat → State → State
  | 0, _, s => s
  | fuel + 1, c, s =>
    let d := s.dev
    let off := d.rd (Reg.BME_CH_DONE_bytes.ix c)
    match Tbl.get? (d.bmeCh c).recv off with
    | none => s
    | some bs =>
      let s := s.racedWrite (d.rd (Reg.BME_ACT_CFG_dst_space.ix c)) (d.rd (Reg.BME_ACT_DST_addr.ix c) + off) bs
        (d.bmeCh c).raced
      let d := s.dev.updBmeCh c fun x => { x with recv := Tbl.erase x.recv off }
      State.bmeStore fuel c { s with dev := d.wr (Reg.BME_CH_DONE_bytes.ix c) (off + bs.length) }

/-- Store what has arrived for every channel. -/
def State.bmeStoreAll (s : State) : State :=
  forEach (List.range 8) (fun c s => State.bmeStore (s.dev.bmeCh c).recv.length c s) s

end Sys2Proof.Machine
end

