-- ==== Sys2Proof/Machine/Layout.lean ====
section
/-! DEFINITION. The declustered layout as pure functions: the generator of R109, the roles of R110, the placement of spares
of R213, unit sizes, the member reserve, CRC-64 and CRC-32, tags and tag blocks (R108 to R120, R165). -/

set_option Elab.async false

namespace Sys2Proof.Machine

/-! ### The generator (R109) -/

/-- One call of splitmix64: the new state and the value. -/
def splitmix64 (state : Qword) : Qword × Qword :=
  let s := state + 0x9E3779B97F4A7C15#64
  let z := (s ^^^ (s >>> 30)) * 0xBF58476D1CE4E5B9#64
  let z := (z ^^^ (z >>> 27)) * 0x94D049BB133111EB#64
  (s, z ^^^ (z >>> 31))

/-- Exchange two elements. -/
def swapAt (x : List Nat) (i j : Nat) : List Nat := (x.set i (x.getD j 0)).set j (x.getD i 0)

/-- Fisher-Yates, last element first: positions n − 1 down to 1. -/
def shuffleFrom : Nat → List Nat → Qword → List Nat
  | 0, x, _ => x
  | 1, x, _ => x
  | n + 2, x, st =>
    let (st, v) := splitmix64 st
    shuffleFrom (n + 1) (swapAt x (n + 1) (v.toNat % (n + 2))) st

/-- Shuffle a list under a state. -/
def shuffle (x : List Nat) (st : Qword) : List Nat := shuffleFrom x.length x st

/-- An array's geometry: code, spares, unit code, seed, member count, cycle count and the cluster rank of each member. -/
structure Geo where
  k : Nat
  m : Nat
  spares : Nat
  unit : Nat
  seed : Qword
  g : Nat
  c : Nat
  cycles : Nat
  rank : List Nat
  deriving DecidableEq, Repr

/-- W = k + m (R106). -/
def Geo.w (a : Geo) : Nat := a.k + a.m
/-- Blocks of a unit (R108). -/
def unitBlocks (code : Nat) : Nat := 16 * 2 ^ code
/-- ub of R108. -/
def Geo.ub (a : Geo) : Nat := unitBlocks a.unit
/-- Data blocks of a unit (R108). -/
def Geo.dpu (a : Geo) : Nat := a.ub - 1
/-- Stripes per cycle (R110). -/
def Geo.spc (a : Geo) : Nat := (a.g - a.spares) / a.w
/-- q = ⌈W / C⌉ (R206). -/
def Geo.q (a : Geo) : Nat := ceilDiv a.w a.c
/-- Data stripes (R110). -/
def Geo.stripes (a : Geo) : Nat := a.cycles * a.spc
/-- Host blocks of a stripe. -/
def Geo.perStripe (a : Geo) : Nat := a.k * a.dpu

/-- The list of cycle c (R109). -/
def Geo.cycleList (a : Geo) (c : Nat) : List Nat :=
  let cc := BitVec.ofNat 64 (c % 2 ^ 20)
  let per := (List.range a.c).map fun r =>
    shuffle ((List.range a.g).filter fun i => a.rank.getD i 0 = r) (a.seed ^^^ (cc <<< 8) ^^^ BitVec.ofNat 64 r)
  let ord := shuffle (List.range a.c) (a.seed ^^^ (cc <<< 8) ^^^ 8#64)
  (List.range a.g).map fun p => (per.getD (ord.getD (p % a.c) 0) []).getD (p / a.c) 0

/-- Cycle of a stripe (R110). -/
def Geo.cycleOf (a : Geo) (t : Nat) : Nat := t / a.spc
/-- Number of a stripe within its cycle (R110). -/
def Geo.sOf (a : Geo) (t : Nat) : Nat := t % a.spc

/-- The layout member of position j of stripe s in a cycle's list (R110). -/
def layoutMember (a : Geo) (list : List Nat) (s j : Nat) : Nat := list.getD (s * a.w + j) 0

/-- The list positions of the spare units (R110). -/
def Geo.sparePos (a : Geo) : List Nat := (List.range a.spares).map (· + (a.g - a.spares))

/-- Blocks a member reserves (R112). -/
def rsv : Nat := 1048576

/-- First member block of the unit at cycle c (R112). -/
def Geo.unit0 (a : Geo) (c : Nat) : Nat := rsv + c * a.ub

/-- Cycle count for a smallest member capacity (R112). -/
def cyclesFor (ub dmin : Nat) : Nat := min ((dmin - rsv) / ub) 1069547520

/-! ### Placement of spares (R213) -/

/-- A unit: stripe and position. -/
abbrev UnitAt := Nat × Nat

/-- Room in the cluster of list entry e for unit u (fits of R213). -/
def fitsAt (a : Geo) (list excl : List Nat) (at_ : Tbl UnitAt) (u : UnitAt) (e : Nat) : Bool :=
  let r := a.rank.getD (list.getD e 0) 0
  let inPlace := (List.range a.w).filter fun j =>
    !excl.contains (layoutMember a list u.1 j) && a.rank.getD (layoutMember a list u.1 j) 0 = r
  let onSpares := at_.filter fun x => x.2.1 = u.1 && a.rank.getD (list.getD x.1 0) 0 = r
  decide (inPlace.length + onSpares.length < a.q)

/-- Place one slot's member's units: its own stripe unit, and a unit an earlier slot put on it. -/
def placeSlot (a : Geo) (list : List Nat) (st : List Nat × Tbl UnitAt) (f : Nat) : List Nat × Tbl UnitAt :=
  let excl := f :: st.1
  let own := ((List.range (a.spc * a.w)).filter fun p => list.getD p 0 = f).map fun p => (p / a.w, p % a.w)
  let moved := st.2.filter fun x => list.getD x.1 0 = f
  let at_ := st.2.filter fun x => list.getD x.1 0 ≠ f
  let at_ := (own ++ moved.map Prod.snd).foldl (fun at_ u =>
    match a.sparePos.find? fun e =>
        (Tbl.get? at_ e).isNone && !excl.contains (list.getD e 0) && fitsAt a list excl at_ u e with
    | some e => Tbl.put at_ e u
    | none => at_) at_
  (excl, at_)

/-- Which unit each spare entry of a cycle is to hold, for the members of the slots that are not EMPTY, in slot order. -/
def placeSpares (a : Geo) (list : List Nat) (slotMembers : List Nat) : Tbl UnitAt :=
  (slotMembers.foldl (placeSlot a list) ([], [])).2

/-! ### Checks (R117, R165) -/

/-- One bit of CRC-64 ECMA-182. -/
def crc64Bit (c : Qword) : Qword := if c.msb then (c <<< 1) ^^^ 0x42F0E1EBA9EA3693#64 else c <<< 1

/-- One byte of CRC-64. -/
def crc64Byte (c : Qword) (b : Byte) : Qword :=
  let c := c ^^^ (b.zeroExtend 64 <<< 56)
  crc64Bit (crc64Bit (crc64Bit (crc64Bit (crc64Bit (crc64Bit (crc64Bit (crc64Bit c)))))))

/-- CRC-64 of a byte string (R117). -/
def crc64 (bs : Bytes) : Nat := (bs.foldl crc64Byte 0#64).toNat

/-- Trailing zero bytes removed: the canonical form of a block. -/
def trimB (bs : Bytes) : Block := (bs.reverse.dropWhile (· = 0)).reverse

/-- A byte string of exactly n bytes: cut, or filled with zeros. -/
def padB (n : Nat) (bs : Bytes) : Bytes := bs.take n ++ List.replicate (n - bs.length) 0

/-- CRC-64 of a block: of its 4096 bytes; a zero block has CRC 0 (R117). -/
def blockCrc (b : Block) : Nat := if trimB b = [] then 0 else crc64 (padB blockBytes b)

/-- One bit of CRC-32 (IEEE 802.3, reflected). -/
def crc32Bit (c : Dword) : Dword := if c.getLsbD 0 then (c >>> 1) ^^^ 0xEDB88320#32 else c >>> 1

/-- One byte of CRC-32. -/
def crc32Byte (c : Dword) (b : Byte) : Dword :=
  let c := c ^^^ b.zeroExtend 32
  crc32Bit (crc32Bit (crc32Bit (crc32Bit (crc32Bit (crc32Bit (crc32Bit (crc32Bit c)))))))

/-- CRC-32 of a byte string (R165). -/
def crc32 (bs : Bytes) : Nat := (bs.foldl crc32Byte 0xFFFFFFFF#32 ^^^ 0xFFFFFFFF#32).toNat

/-! ### Labels and volume tables (R113, R114) -/

/-- ASCII "ZOTEAARY". -/
def labelMagic : Bytes := [0x5A, 0x4F, 0x54, 0x45, 0x41, 0x41, 0x52, 0x59]

/-- The 4096 bytes of a label. -/
def labelBytes (l : Label) : Bytes :=
  let port (i : Nat) : Nat := match l.ports.getD i none with | some p => 2 ^ 15 + p % 2 ^ 9 | none => 0
  let body := labelMagic ++ leBytes 4 l.version ++ leBytes 4 l.gen ++ leBytes 8 l.seed.toNat ++ leBytes 1 l.array ++
    leBytes 1 l.k ++ leBytes 1 l.m ++ leBytes 1 l.unit ++ leBytes 2 l.g ++ leBytes 1 l.s ++ leBytes 1 l.c ++
    leBytes 2 l.index ++ leBytes 6 0 ++ leBytes 8 l.cycles ++ leBytes 8 l.created.toNat ++ leBytes 8 l.arrayId.toNat ++
    leBytes 8 l.ident.toNat ++ List.replicate 184 0 ++ (List.range 256).flatMap (fun i => leBytes 2 (port i)) ++
    (List.range 256).flatMap (fun i => leBytes 8 (l.idents.getD i 0).toNat) ++ List.replicate 1272 0
  body ++ leBytes 8 (crc64 body)

/-- The number that n bytes at an offset of a byte string spell. -/
def leAt (bs : Bytes) (off n : Nat) : Nat := leNat ((bs.drop off).take n)

/-- The label that a block holds: none where the magic or the CRC-64 is wrong (DESIGN CHOICE, log entry 78). -/
def labelIn (b : Block) : Option Label :=
  let bs := padB blockBytes b
  if b ≠ [] ∧ bs.take 8 = labelMagic ∧ leAt bs 0xFF8 8 = crc64 (bs.take 0xFF8) then
    let q (off : Nat) : Qword := BitVec.ofNat 64 (leAt bs off 8)
    some {
      version := leAt bs 0x8 4, gen := leAt bs 0xC 4, seed := q 0x10, array := leAt bs 0x18 1, k := leAt bs 0x19 1
      m := leAt bs 0x1A 1, unit := leAt bs 0x1B 1, g := leAt bs 0x1C 2, s := leAt bs 0x1E 1, c := leAt bs 0x1F 1
      index := leAt bs 0x20 2, cycles := leAt bs 0x28 8, created := q 0x30, arrayId := q 0x38, ident := q 0x40
      ports := (List.range 256).map fun i =>
        let w := leAt bs (0x100 + 2 * i) 2
        if 2 ^ 15 ≤ w then some (w % 2 ^ 9) else none
      idents := (List.range 256).map fun i => q (0x300 + 8 * i) }
  else none

/-- The 64 bytes of a volume table's slot: the volume descriptor's registers in an array whose stripes hold `per` blocks; the
registers of its present state read 0 (DESIGN CHOICE, log entry 78). -/
def slotBytes (x : VolSlot) (array per : Nat) : Bytes :=
  leBytes 4 (2 ^ 31 + b2n x.pf0 * 2 ^ 30 + b2n x.streamEn * 2 ^ 29 + array % 16 * 2 ^ 16 + x.holdMs % 2 ^ 16) ++ leBytes 4 0 ++
  leBytes 8 x.access.toNat ++ leBytes 8 x.first ++ leBytes 8 x.stripes ++ leBytes 8 (x.stripes * per) ++
  leBytes 4 (x.tagId % 2 ^ 16) ++ List.replicate 20 0

/-- The 16 blocks of a volume table: slot v is that of volume v, zeros where the array does not hold it. -/
def volTableBlocks (vols : List VolSlot) (array per : Nat) : List Block :=
  (List.range 16).map fun b => trimB ((List.range 64).flatMap fun s =>
    match vols.find? fun x => x.volume = 64 * b + s with
    | some x => slotBytes x array per
    | none => List.replicate 64 0)

/-- The slots in use of a volume table. -/
def volSlotsIn (blocks : List Block) : List VolSlot :=
  ((List.range 16).filter fun b => blocks.getD b [] ≠ []).flatMap fun b => (List.range 64).filterMap fun s =>
    let bs := padB 64 ((blocks.getD b []).drop (64 * s))
    let cfg := leAt bs 0 4
    if bitOf cfg 31 then some {
      volume := 64 * b + s, pf0 := bitOf cfg 30, streamEn := bitOf cfg 29, holdMs := bitsOf cfg 15 0
      access := BitVec.ofNat 64 (leAt bs 8 8), first := leAt bs 16 8, stripes := leAt bs 24 8, tagId := leAt bs 40 2 }
    else none

/-! ### Tags (R117, R118, R120) -/

/-- A block's tag. -/
structure TagRec where
  crc : Nat
  lba : Nat
  vol : Nat
  gen : Nat
  deriving DecidableEq, Repr

/-- The 16 bytes of a tag. -/
def TagRec.bytes (t : TagRec) : Bytes := leBytes 8 t.crc ++ leBytes 4 t.lba ++ leBytes 2 t.vol ++ leBytes 2 t.gen

/-- The tag that 16 bytes spell. -/
def tagOf (bs : Bytes) : TagRec :=
  ⟨leNat (bs.take 8), leNat ((bs.drop 8).take 4), leNat ((bs.drop 12).take 2), leNat ((bs.drop 14).take 2)⟩

/-- A zero tag marks a zero block (R120). -/
def TagRec.isZero (t : TagRec) : Bool := t = ⟨0, 0, 0, 0⟩

/-- The tag of data block b in a tag block (R118). -/
def tagAt (tb : Block) (b : Nat) : TagRec := tagOf (padB 16 (tb.drop (16 * b)))

/-- A tag block (R118): the tags of the unit's data blocks, zeros, the stripe number, and the CRC-64 of what precedes. -/
def tagBlock (dpu t : Nat) (tags : List TagRec) : Block :=
  let body := padB 4080 ((List.range dpu).flatMap fun b => (tags.getD b ⟨0, 0, 0, 0⟩).bytes) ++ leBytes 8 t
  body ++ leBytes 8 (crc64 body)

/-- Whether a tag block's trailer is valid for stripe t (R121 step 1). -/
def trailerOk (tb : Block) (t : Nat) : Bool :=
  let bs := padB blockBytes tb
  leNat ((bs.drop 4080).take 8) = t && leNat ((bs.drop 4088).take 8) = crc64 (bs.take 4088)

/-- A verdict of R121 on one block. -/
inductive TagVerdict where
  | good
  | zero
  | lostTag
  | misdirected
  | stale
  | corrupt
  deriving DecidableEq, Repr

/-- Steps 2 to 5 of R121: `gens` are the generations accepted (the table's, and an open intent record's, R166). -/
def checkTag (tag : TagRec) (lba tagId : Nat) (gens : List Nat) (data : Block) : TagVerdict :=
  if tag.isZero then .zero
  else if tag.lba ≠ lba % 2 ^ 32 ∨ tag.vol ≠ tagId then .misdirected
  else if !gens.contains tag.gen then .stale
  else if tag.crc ≠ blockCrc data then .corrupt
  else .good

/-- The whole check of R121 for block b of a unit read with its tag block. -/
def checkBlock (tb : Block) (t b lba tagId : Nat) (gens : List Nat) (data : Block) : TagVerdict :=
  if trailerOk tb t then checkTag (tagAt tb b) lba tagId gens data else .lostTag

/-- Whether a verdict lets the block be used. -/
def TagVerdict.ok : TagVerdict → Bool
  | .good => true
  | .zero => true
  | _ => false

end Sys2Proof.Machine
end

