-- ==== Sys2Proof/Machine/Coding.lean ====
section
/-! DEFINITION. The coding arithmetic: GF(2^8), the coefficient matrix, encode, delta update, decode, syndromes and the
self-check (R134 to R141, R144), and the RS(80,64) DRAM code (R153, R154). -/

set_option Elab.async false

namespace Sys2Proof.Machine

/-! ### The field (R134) -/

/-- One doubling in the field. -/
def gfDouble (a : Byte) : Byte := if a.msb then (a <<< 1) ^^^ 0x1D#8 else a <<< 1

/-- n steps of the product loop of R134. -/
def gfMulLoop : Nat → Byte → Byte → Byte → Byte
  | 0, _, _, r => r
  | n + 1, a, b, r => gfMulLoop n (gfDouble a) (b >>> 1) (if b.getLsbD 0 then r ^^^ a else r)

/-- Multiplication in the field. -/
def gfMul (a b : Byte) : Byte := gfMulLoop 8 a b 0#8

/-- Powers of an element. -/
def gfPow (a : Byte) : Nat → Byte
  | 0 => 1#8
  | n + 1 => gfMul (gfPow a n) a

/-- The inverse a^254. -/
def gfInv (a : Byte) : Byte := gfPow a 254

/-! ### Coefficients (R135, R136) -/

/-- coef(j, i) = y_i / (x_j + y_i). -/
def coef (j i : Nat) : Byte :=
  let y := BitVec.ofNat 8 (4 + i)
  gfMul y (gfInv (BitVec.ofNat 8 j ^^^ y))

/-! ### Blocks as vectors over the field -/

/-- Bytewise sum of two byte strings, the shorter one filled with zeros. -/
def xorB : Bytes → Bytes → Bytes
  | [], ys => ys
  | xs, [] => xs
  | x :: xs, y :: ys => (x ^^^ y) :: xorB xs ys

/-- A byte string times a field element. -/
def scaleB (c : Byte) (xs : Bytes) : Bytes := if c = 1 then xs else xs.map (gfMul c)

/-- The sum of a list of byte strings. -/
def sumB (xs : List Bytes) : Bytes := xs.foldl xorB []

/-- Parity row j of data inputs given with their positions (R138). -/
def parityRow (j : Nat) (data : List (Nat × Block)) : Block :=
  trimB (sumB (data.map fun p => scaleB (coef j p.1) p.2))

/-- Encode: the m parity rows of k data inputs (R138). -/
def encode (m : Nat) (data : List Block) : List Block :=
  (List.range m).map fun j => parityRow j ((List.range data.length).zip data)

/-- Delta update of parity row `row`: old parity and, for each changed position, old and new content (R139). -/
def deltaRow (row : Nat) (oldP : Block) (changes : List (Nat × Block × Block)) : Block :=
  trimB (xorB oldP (sumB (changes.map fun c => scaleB (coef row c.1) (xorB c.2.1 c.2.2))))

/-! ### Decode (R140) -/

/-- A matrix over the field, by rows. -/
abbrev GfMat := List (List Byte)

/-- Row r of a matrix plus g times row c. -/
def addRow (g : Byte) (r c : List Byte) : List Byte := r.zipWith (fun x y => x ^^^ gfMul g y) c

/-- One column of Gauss-Jordan on a matrix joined with the identity: a pivot is found, scaled and cleared elsewhere. -/
def eliminate (a : GfMat) (c : Nat) : GfMat :=
  let pv := (((List.range a.length).filter fun r => decide (c ≤ r)).find? fun r => (a.getD r []).getD c 0 ≠ 0).getD c
  let a := (a.set c (a.getD pv [])).set pv (a.getD c [])
  let row := (a.getD c []).map (gfMul (gfInv ((a.getD c []).getD c 0)))
  (List.range a.length).map fun r => if r = c then row else addRow ((a.getD r []).getD c 0) (a.getD r []) row

/-- The inverse of an n × n matrix. -/
def invertMat (n : Nat) (a : GfMat) : GfMat :=
  let joined := (List.range n).map fun r => a.getD r [] ++ (List.range n).map fun c => if r = c then 1#8 else 0#8
  ((List.range n).foldl eliminate joined).map (List.drop n)

/-- Solve for lost data positions from the surviving data and the named parity rows (decode_data of R140). -/
def decodeData (lost rows : List Nat) (data parity : List (Nat × Block)) : List (Nat × Block) :=
  let v := invertMat lost.length (rows.map fun r => lost.map fun i => coef r i)
  let s := rows.map fun r =>
    sumB ((Tbl.getD parity r []) :: (data.filter fun p => !lost.contains p.1).map fun p => scaleB (coef r p.1) p.2)
  (List.range lost.length).map fun c =>
    (lost.getD c 0, trimB (sumB ((List.range lost.length).map fun r => scaleB ((v.getD c []).getD r 0) (s.getD r []))))

/-- Decode of one block row (R140): every lost unit from the surviving units, or none when too many are lost. Units are
given by stripe position; parity unit j stands at k + j. -/
def decodeRow (k m : Nat) (lost : List Nat) (units : List (Nat × Block)) : Option (List (Nat × Block)) :=
  let lostD := lost.filter (· < k)
  let data := units.filter fun p => decide (p.1 < k) && !lost.contains p.1
  let parity := (units.filter fun p => decide (k ≤ p.1) && !lost.contains p.1).map fun p => (p.1 - k, p.2)
  let rows := ((List.range m).filter fun j => (Tbl.get? parity j).isSome).take lostD.length
  if m < lost.length ∨ data.length + lostD.length < k ∨ rows.length < lostD.length then none
  else
    let got := decodeData lostD rows data parity
    let all := (List.range k).map fun i => (i, (Tbl.get? got i).getD (Tbl.getD data i []))
    some (got ++ (lost.filter (k ≤ ·)).map fun p => (p, parityRow (p - k) all))

/-! ### Syndromes (R141) -/

/-- Syndrome verdicts. -/
inductive Verdict where
  | consistent
  | parityError (j : Nat)
  | dataError (i : Nat)
  | unlocated
  deriving DecidableEq, Repr

/-- The verdict on one block row of k data and m parity blocks. -/
def syndrome (k m : Nat) (data parity : List Block) : Verdict :=
  let enc := encode m data
  let s := (List.range m).map fun j => trimB (xorB (parity.getD j []) (enc.getD j []))
  let bad := (List.range m).filter fun j => s.getD j [] ≠ []
  let s0 := s.getD 0 []
  if bad = [] then .consistent
  else if m < 2 then .unlocated
  else
    match bad with
    | [j] => .parityError j
    | _ =>
      match (List.range k).find? fun i => (List.range m).all fun j => s.getD j [] = trimB (scaleB (coef j i) s0) with
      | some i => if s0 = [] then .unlocated else .dataError i
      | none => .unlocated

/-! ### Self-check (R144) -/

/-- Check weight r_j. -/
def chkR (j : Nat) : Byte := BitVec.ofNat 8 (2 ^ j)

/-- Check weight w_i over the rows of a job. -/
def chkW (rows : List Nat) (i : Nat) : Byte := rows.foldl (fun acc j => acc ^^^ gfMul (chkR j) (coef j i)) 0#8

/-- The self-check of an encode row: Σ r_j P_j equals Σ w_i d_i. -/
def encodeCheck (m : Nat) (data parity : List Block) : Bool :=
  trimB (sumB ((List.range m).map fun j => scaleB (chkR j) (parity.getD j []))) =
  trimB (sumB ((List.range data.length).map fun i => scaleB (chkW (List.range m) i) (data.getD i [])))

/-- The self-check of a delta row over the parity rows of the job: Σ r_j (old P_j ⊕ new P_j) equals Σ w_i (old d_i ⊕ new d_i). -/
def deltaCheck (rows : List Nat) (parity : List (Nat × Block × Block)) (changes : List (Nat × Block × Block)) : Bool :=
  trimB (sumB (parity.map fun p => scaleB (chkR p.1) (xorB p.2.1 p.2.2))) =
  trimB (sumB (changes.map fun c => scaleB (chkW rows c.1) (xorB c.2.1 c.2.2)))

/-- The self-check of a syndrome row: Σ r_j s_j equals Σ r_j P_j ⊕ Σ w_i d_i. -/
def syndromeCheck (m : Nat) (data parity synd : List Block) : Bool :=
  trimB (sumB ((List.range m).map fun j => scaleB (chkR j) (synd.getD j []))) =
  trimB (xorB (sumB ((List.range m).map fun j => scaleB (chkR j) (parity.getD j [])))
    (sumB ((List.range data.length).map fun i => scaleB (chkW (List.range m) i) (data.getD i []))))

/-- The self-check of a decode row: the lowest surviving parity row that the solve did not use, re-encoded from the complete
data, equals the stored row; a row without one passes unchecked. -/
def decodeCheck (k m : Nat) (lost : List Nat) (units out : List (Nat × Block)) : Bool :=
  let spare := ((units.filter fun p => decide (k ≤ p.1) && decide (p.1 < k + m) && !lost.contains p.1).drop
    (lost.filter (· < k)).length).head?
  match spare with
  | none => true
  | some p => trimB p.2 = parityRow (p.1 - k) ((List.range k).map fun i => (i, (Tbl.get? out i).getD (Tbl.getD units i [])))

/-- Whether a decode row has a surviving parity row that the solve does not use (R144). -/
def decodeCheckable (k m : Nat) (lost : List Nat) (units : List (Nat × Block)) : Bool :=
  let rows := (units.filter fun p => decide (k ≤ p.1) && decide (p.1 < k + m) && !lost.contains p.1).length
  decide ((lost.filter (· < k)).length < rows)

/-! ### The known-answer test (R146) -/

/-- Byte x of input i of pass 1. -/
def katByte (i x : Nat) : Byte := if x % 32 = i then 1 else 0

/-- Input i of pass 1: what pass 2 must recover of the data positions 0, 9, 18 and 27. -/
def katData (i : Nat) : Bytes := (List.range blockBytes).map (katByte i)

/-- Output j of pass 1. -/
def katParity (j : Nat) : Bytes := (List.range blockBytes).map fun x => coef j (x % 32)

/-- The data positions that pass 2 takes as lost. -/
def katLost : List Nat := [0, 9, 18, 27]

/-- What the arithmetic of R138 and R140 gives in the two passes on the bytes x below n: the parity rows and the four inputs. -/
def katRun (n : Nat) : List Bytes × List (Nat × Bytes) :=
  let data := (List.range 32).map fun i => (i, (List.range n).map (katByte i))
  let parity := (List.range 4).map fun j => (j, parityRow j data)
  (parity.map Prod.snd, decodeData katLost (List.range 4) (data.filter fun p => !katLost.contains p.1) parity)

/-! ### The DRAM code (R153, R154) -/

/-- A polynomial over the field, highest power first, times (x − r). -/
def mulLinear (p : List Byte) (r : Byte) : List Byte := xorB (p ++ [0#8]) (0#8 :: p.map (gfMul r))

/-- The generator of RS(80,64): the product of x − α^i for i below 16, with α = 0x02. -/
def rsGenerator : List Byte := (List.range 16).foldl (fun p i => mulLinear p (gfPow 2#8 i)) [1#8]

/-- One step of the division by the generator: the remainder register takes one more message symbol. -/
def rsStep (rem : List Byte) (s : Byte) : List Byte :=
  let f := s ^^^ rem.getD 0 0
  xorB (rem.drop 1 ++ [0#8]) ((rsGenerator.drop 1).map (gfMul f))

/-- The codeword of a 64-byte line: its bytes and the 16 check symbols (R153). -/
def rsEncode (line : Bytes) : Bytes :=
  padB 64 line ++ (padB 64 line).foldl rsStep (List.replicate 16 0#8)

/-- The symbol and the bit of it that a line (0 to 31 DQ, 32 to 39 CB) carries at a beat (R154): symbol 8d + q of device d
and beat pair q, its low half at beat 2q, its high half at beat 2q + 1. -/
def symbolPlace (line beat : Nat) : Nat × Nat := (8 * (line / 4) + beat / 2, 4 * (beat % 2) + line % 4)

/-- Symbols of a codeword. -/
def rsSymbols : Nat := 80

/-- The symbols that a set of wrong bits, by line and beat, adds to a codeword; a bit named twice is right again. -/
def errWord (bits : List (Nat × Nat)) : Bytes :=
  bits.foldl (fun w b =>
    let p := symbolPlace b.1 b.2
    w.modify p.1 fun x => x ^^^ (1#8 <<< p.2)) (List.replicate rsSymbols 0#8)

/-- Wrong symbols of an error word. -/
def wrongSymbols (e : Bytes) : Nat := (e.filter (· ≠ 0)).length

/-- The element α^(79 − n) that locates symbol n. -/
def symbolAt (n : Nat) : Byte := gfPow 2#8 (79 - n)

/-- The 16 syndromes of a word: its values at α^0 to α^15, highest power first. -/
def rsSyndromes (e : Bytes) : List Byte := (List.range 16).map fun i => e.foldl (fun acc x => gfMul acc (gfPow 2#8 i) ^^^ x) 0#8

/-- The product of a matrix and a column over the field. -/
def mulColumn (a : GfMat) (x : List Byte) : List Byte := a.map fun row => (row.zipWith gfMul x).foldl (· ^^^ ·) 0#8

/-- The one pattern of v wrong symbols with given syndromes, if there is one: its locator polynomial, its places, its values,
checked against the syndromes. -/
def rsLocate (s : List Byte) (v : Nat) : Option Bytes :=
  let a : GfMat := (List.range v).map fun i => (List.range v).map fun j => s.getD (i + j) 0
  let low := mulColumn (invertMat v a) ((List.range v).map fun i => s.getD (i + v) 0)
  let places := (List.range rsSymbols).filter fun n =>
    (low ++ [1#8]).reverse.foldl (fun acc c => gfMul acc (symbolAt n) ^^^ c) 0#8 = 0
  if places.length = v then
    let vals := mulColumn (invertMat v ((List.range v).map fun i => places.map fun n => gfPow (symbolAt n) i))
      (s.take v)
    let e := (List.range rsSymbols).map fun n => match places.findIdx? (· = n) with
      | some i => vals.getD i 0
      | none => 0#8
    if rsSyndromes e = s ∧ wrongSymbols e = v then some e else none
  else none

/-- What the decoder makes of a codeword with an error word added (R153). -/
inductive Decoded where
  | clean
  | corrected
  | uncorrectable
  /-- within reach of another codeword, so many symbols away: what is then stored differs by this word -/
  | miscorrected (diff : Bytes) (symbols : Nat)
  deriving DecidableEq, Repr

/-- The decoder of RS(80,64) (R153): up to 8 wrong symbols are corrected; a word that lies within distance 8 of another
codeword becomes that one; every other word is uncorrectable. The code is linear, so the error word decides. -/
def rsDecode (e : Bytes) : Decoded :=
  if wrongSymbols e = 0 then .clean
  else if wrongSymbols e ≤ 8 then .corrected
  else match (List.range 9).findSome? fun v => if v = 0 then (if (rsSyndromes e).all (· = 0) then some [] else none)
      else rsLocate (rsSyndromes e) v with
    | some x => .miscorrected (xorB e x) (wrongSymbols x)
    | none => .uncorrectable

end Sys2Proof.Machine
end

