-- ==== Sys2Proof/Machine/Flags.lean ====
section
/-! DEFINITION. Completion status values (R96), the rule of each completion flag (R90), the malformed-entry conditions of
R81 and the states of Outcome Log records (R99). -/

set_option Elab.async false

namespace Sys2Proof.Machine

/-! ### Status values (R96) -/

/-- SUCCESS. -/
def ssSuccess : Nat := 0x0000
/-- SUCCESS_RECOVERED. -/
def ssRecovered : Nat := 0x0001
/-- INVALID_FIELD. -/
def ssInvalidField : Nat := 0x0101
/-- LBA_OUT_OF_RANGE. -/
def ssLbaRange : Nat := 0x0102
/-- VOLUME_NOT_ACCESSIBLE. -/
def ssNotAccessible : Nat := 0x0103
/-- TRANSFER_TOO_LARGE. -/
def ssTooLarge : Nat := 0x0104
/-- STREAM_INVALID. -/
def ssStreamInvalid : Nat := 0x0105
/-- LOST_WRITE. -/
def ssLostWrite : Nat := 0x0201
/-- UNRECOVERABLE_READ. -/
def ssUnrecoverable : Nat := 0x0202
/-- HOST_TAG_MISMATCH. -/
def ssTagMismatch : Nat := 0x0203
/-- HOST_READ_TIMEOUT. -/
def ssHostTimeout : Nat := 0x0301
/-- HOST_DATA_POISONED. -/
def ssPoisoned : Nat := 0x0302
/-- ABORTED_BME. -/
def ssAbortedBme : Nat := 0x0303
/-- ABORTED_FLR. -/
def ssAbortedFlr : Nat := 0x0304
/-- ABORTED_HALT. -/
def ssAbortedHalt : Nat := 0x0305
/-- ABORTED_POWER. -/
def ssAbortedPower : Nat := 0x0306
/-- VOLUME_WRITE_FENCED. -/
def ssWriteFenced : Nat := 0x0401
/-- VOLUME_OFFLINE. -/
def ssOffline : Nat := 0x0402

/-! ### Completion flags (R90) -/

/-- PF: a WRITE that ends with one of four statuses when some but not all blocks were admitted. -/
def flagPf (c : Cmd) (status : Nat) : Bool :=
  eOpcode c.entry == opWrite && [ssTagMismatch, ssHostTimeout, ssPoisoned, ssAbortedBme].contains status &&
  decide (1 ≤ c.inCache ∧ c.inCache < eCount c.entry)

/-- RC: a READ or VERIFY with a block rebuilt from parity. -/
def flagRc (c : Cmd) : Bool := (eOpcode c.entry == opRead || eOpcode c.entry == opVerify) && c.rc

/-- The volumes whose held Deferred Error Table entries set DE. -/
def deVolumes (d : Dev) (c : Cmd) : List Nat :=
  if eFlushAll c.entry then d.flushAllVols c.fn
  else if namesVolume (eOpcode c.entry) then [eVolume c.entry] else []

/-- DE at this moment. -/
def flagDe (d : Dev) (vols : List Nat) : Bool := vols.any fun v => decide (0 < d.detHeld v)

/-! ### Outcome Log states (R99) -/

/-- EMPTY. -/
def olEmpty : Nat := 0
/-- NOT_ADMITTED. -/
def olNotAdmitted : Nat := 1
/-- PREFIX. -/
def olPrefix : Nat := 2
/-- COMPLETE. -/
def olComplete : Nat := 3

/-- State of a write-class record with n of count blocks persistent (R99, R100). -/
def olStateOf (n count : Nat) : Nat := if n = 0 then olNotAdmitted else if n < count then olPrefix else olComplete

/-! ### Malformed entries (R81) -/

/-- Flags that an opcode uses, beside FENCE (R91): FUA, IND, STRM, TAGCHK (DEDUCED, log entry 11). -/
def usesFlags (op : Nat) : Bool × Bool × Bool × Bool :=
  ([opWrite, opDeallocate, opWriteZeroes].contains op, [opRead, opWrite, opIdentify, opGetLog].contains op,
   op == opWrite, op == opRead || op == opWrite)

/-- The dwords of dw9 to dw15 to which an opcode gives a meaning (R91) (DEDUCED, log entry 11). -/
def usesDword (e : List Dword) (i : Nat) : Bool :=
  let op := eOpcode e
  if op = opRead ∨ op = opWrite then eTagchk e && (i == 10 || i == 11)
  else if op = opFlush then i == 9
  else if op = opIdentify ∨ op = opDetAck then i == 9 || i == 10
  else if op = opGetLog ∨ op = opOutcomeRead ∨ op = opSetEventMask then i == 9 || i == 10 || i == 11
  else false

/-- Condition 0x02: a reserved field or flag is not 0 (R79, R91; DEDUCED, log entry 11). -/
def reservedSet (e : List Dword) : Bool :=
  let op := eOpcode e
  let u := usesFlags op
  decide (dwBits e 0 15 13 ≠ 0) || (eFua e && !u.1) || (eInd e && !u.2.1) || (eStrm e && !u.2.2.1) ||
  (eTagchk e && !u.2.2.2) || decide (dwBits e 1 31 24 ≠ 0) ||
  (decide (eHint e ≠ 0) && !(op == opRead || op == opWrite)) ||
  (decide (eStream e ≠ 0) && !(op == opWrite && eStrm e)) ||
  (decide (eVolume e ≠ 0) && !namesVolume op) ||
  (decide (dw e 2 ≠ 0 ∨ dw e 3 ≠ 0 ∨ dw e 4 ≠ 0) && !isDataOp op) ||
  decide (dwBits e 3 31 16 ≠ 0) || decide (dw e 5 ≠ 0) ||
  (decide (dw e 6 ≠ 0 ∨ dw e 7 ≠ 0 ∨ dw e 8 ≠ 0) && !transfersData op) ||
  (eInd e && decide (dwBits e 8 31 16 ≠ 0)) ||
  (op == opFlush && decide (dwBits e 9 31 1 ≠ 0)) ||
  ((List.range 7).any fun j => decide (dw e (9 + j) ≠ 0) && !usesDword e (9 + j))

/-- The lowest condition of R81 that an entry meets on its own; `admin` says which queue holds it, `reuse` whether its
cmd_tag is in use on the SQ. -/
def malformed (e : List Dword) (admin reuse : Bool) : Option Nat :=
  let op := eOpcode e
  if !(if admin then adminOpcodes else ioOpcodes).contains op then some 0x01
  else if reservedSet e then some 0x02
  else if isDataOp op && decide (eCount e = 0) then some 0x03
  else if eInd e && decide (eAddr e % 16 ≠ 0) then some 0x04
  else if eInd e && decide (eFrags e = 0 ∨ 4096 < eFrags e) then some 0x05
  else if transfersData op && !eInd e && (match wantedLength e with | some n => decide (eLength e ≠ n) | none => false)
  then some 0x07
  else if reuse then some 0x09
  else if transfersData op && !eInd e && decide (eAddr e % 4 ≠ 0) then some 0x0A
  else none

/-! ### Malformed fragment tables (R80, R81, R84) -/

/-- Index of the first element that meets a condition. -/
def firstIdx {α : Type} (p : α → Bool) : List α → Option Nat
  | [] => none
  | x :: xs => if p x then some 0 else (firstIdx p xs).map (· + 1)

/-- Where the running sum of fragment lengths first exceeds a bound. -/
def sumExceeds (bound : Nat) : Nat → List Frag → Option Nat
  | _, [] => none
  | acc, f :: fs => if bound < acc + f.len then some 0 else (sumExceeds bound (acc + f.len) fs).map (· + 1)

/-- The lowest condition a fragment table meets and the entry that R84 names for it. -/
def malformedTable (e : List Dword) (fs : List Frag) : Option (Nat × Nat) :=
  let last := fs.length - 1
  match firstIdx (fun f => decide (f.flags / 2 ≠ 0)) fs with
  | some i => some (0x02, i)
  | none =>
    match firstIdx (fun f => decide (f.len = 0 ∨ f.len % 4 ≠ 0)) fs with
    | some i => some (0x06, i)
    | none =>
      let want := wantedLength e
      let sum := (fs.map Frag.len).sum
      if want.isSome && decide (sum ≠ want.getD 0) then some (0x07, (sumExceeds (want.getD 0) 0 fs).getD last)
      else
        match firstIdx (fun f => decide (f.flags % 2 = 1)) (fs.take last) with
        | some i => some (0x08, i)
        | none =>
          if decide (((fs.getD last ⟨0, 0, 0⟩).flags) % 2 = 0) then some (0x08, last)
          else (firstIdx (fun f => decide (f.addr % 4 ≠ 0)) fs).map fun i => (0x0A, i)

end Sys2Proof.Machine
end

