-- ==== Sys2Proof/Machine/Queues.lean ====
section
/-! DEFINITION. Queues, arbitration, validation, admission, completion posting and the whole-device halt (R66 to R88, R89,
R99), with the meanings of the queue commands. -/

set_option Elab.async false

namespace Sys2Proof.Machine

/-! ### Completion queues (R68, R70, R71) -/

/-- Slots reserved in a device CQ (R71): by fetched entries, by commands that will post, by held completions. -/
def Dev.cqReserved (d : Dev) (q : Nat) : Nat :=
  (d.qmx.fetched.filter fun e => match d.sqOwner e.q with | some f => d.cqOfSq f e.q = q | none => false).length +
  (d.qmx.cmds.filter fun c => c.cq = q && !c.silent).length +
  (d.hif.fns.map fun p => (p.2.held.filter fun c => c.cq = q).length).sum

/-- Outcome Log of a function (R99). -/
def Dev.olog (d : Dev) (f : Nat) : OLog := Tbl.getD d.dram.ologs f {}

/-- Change a function's Outcome Log. -/
def Dev.updOlog (d : Dev) (f : Nat) (g : OLog → OLog) : Dev :=
  { d with dram := { d.dram with ologs := Tbl.putD d.dram.ologs f (g (d.olog f)) {} } }

/-- Change the record of an admitted command and stamp it (R99). -/
def Dev.updRec (d : Dev) (f adm : Nat) (g : OlRec → OlRec) : Dev :=
  d.updOlog f fun l => { l with recs := l.recs.map fun p => if p.2.adm = adm then (p.1, { g p.2 with ts := d.now }) else p }

/-- Records that a function may still open: at most 65,535 are not final, fetched entries counted (R99). -/
def Dev.recordsLeft (d : Dev) (f : Nat) : Nat :=
  65535 - ((d.olog f).recs.filter fun p => !p.2.final).length - (d.qmx.fetched.filter fun e => d.sqOwner e.q = some f).length

/-- Free slots of a device CQ (R71), none while its function has 65,535 records that are not final (R99). -/
def Dev.cqFree (d : Dev) (f q : Nat) : Nat :=
  min (d.recordsLeft f) (d.cqDepth q - 1 -
    (d.cqDepth q + d.rd (Reg.QD_CQ_PTR_tail.ix q) - d.rd (Reg.QD_CQ_PTR_head.ix q)) % d.cqDepth q - d.cqReserved q)

/-- Commands of a device SQ whose completion is not yet posted (R75): admitted or held. A command that the halt stops gets no
completion (R83) and counts no more, so that a DRAINING SQ without others becomes DISABLED (DESIGN CHOICE, log entry 71). -/
def Dev.inflight (d : Dev) (q : Nat) : Nat :=
  (d.qmx.cmds.filter fun c => c.q = q && !c.silent).length +
  (d.hif.fns.map fun p => (p.2.held.filter fun c => c.sq = q).length).sum

/-- A DRAINING SQ with nothing in flight and no fetch under way becomes DISABLED (R76). -/
def Dev.drainSq (d : Dev) (q : Nat) : Dev :=
  if d.sqState q = sqDraining && decide (d.inflight q = 0) && !(d.qmx.fetched.any fun e => e.q = q) then
    d.wr (Reg.QD_SQ_STAT_state.ix q) sqDisabled
  else d

/-- The 16 bytes of a completion entry (R89). -/
def Cpl.bytes (c : Cpl) (de phase : Bool) : Bytes :=
  leBytes 4 (b2n phase * 2 ^ 31 + c.sqId % 1024 * 2 ^ 16 + c.cmdTag % 2 ^ 16) ++ leBytes 4 c.asn ++
  leBytes 4 (b2n c.pf * 2 ^ 19 + b2n c.rc * 2 ^ 18 + b2n (c.woken ≠ []) * 2 ^ 17 + b2n de * 2 ^ 16 + c.status % 2 ^ 16) ++
  leBytes 4 c.dw3

/-- Write a completion at its CQ's tail (R70, R71, R89). -/
def Dev.putCpl (d : Dev) (c : Cpl) : Dev :=
  let tail := d.rd (Reg.QD_CQ_PTR_tail.ix c.cq)
  let phase := d.rdB (Reg.QD_CQ_STAT_phase.ix c.cq)
  let de := flagDe d c.vols
  let next := (tail + 1) % d.cqDepth c.cq
  let d := d.writeHost c.fn (d.rd (Reg.QD_CQ_BASE_base.ix c.cq) * 4096 + 16 * tail) (c.bytes de phase) false
  let d := d.wr (Reg.QD_CQ_PTR_tail.ix c.cq) next
  let d := if next = 0 then d.wrB (Reg.QD_CQ_STAT_phase.ix c.cq) !phase else d
  let d := d.updRec c.fn c.adm fun r => { r with posted := true, de := de }
  forEach c.woken (fun a d => d.incSat (Reg.AR_PWR_LP_count.ix a)) d

/-- The vector of a function's CQ, raised once after the entries of one posting pass (R71). -/
def Dev.raiseCq (d : Dev) (f q : Nat) : Dev :=
  if d.rdB (Reg.QD_CQ_CFG_irq_en.ix q) then d.raiseVec f (d.rd (Reg.QD_CQ_CFG_vector.ix q)) else d

/-- A posting pass of one completion. -/
def Dev.writeCpl (d : Dev) (c : Cpl) : Dev := (d.putCpl c).raiseCq c.fn c.cq

/-- Post a completion now, or hold it while a condition of R63 holds its function's entries
(DESIGN CHOICE, log entry 17). -/
def Dev.postCpl (d : Dev) (c : Cpl) : Dev :=
  if d.canPost c.fn && (d.fn c.fn).held = [] then d.drainSq c.sq |>.writeCpl c |>.drainSq c.sq
  else d.updFn c.fn fun x => { x with held := x.held ++ [c] }

/-- Post a function's held entries in order, one pass of each CQ and of the event ring, then pending messages (R56 step 7, R63,
R71). -/
def Dev.releaseHeld (d : Dev) (f : Nat) : Dev :=
  if d.canPost f then
    let cs := (d.fn f).held
    let d := d.updFn f fun x => { x with held := [], heldOvf := false }
    let d := forEach cs (fun c d => (d.putCpl c).drainSq c.sq) d
    let d := forEach (cs.map Cpl.cq).eraseDups (fun q d => d.raiseCq f q) d
    let d := d.drainRing f
    d.sendPending f
  else (d.drainHalt f).sendPending f

/-! ### The end of a command (R89 to R100) -/

/-- End a command: its record becomes final, and its completion is posted or held unless it ends in silence. A
write-class command all of whose blocks took effect ends SUCCESS, whatever stopped it, but for LOST_WRITE (R54, R100). -/
def Dev.endCmd (d : Dev) (adm status dw3 : Nat) : Dev :=
  match d.cmd? adm with
  | none => d
  | some c =>
    let e := c.entry
    let wc := isWriteClass (eOpcode e)
    let status := if wc && decide (eCount e ≤ c.persist) && decide (0 < eCount e) && status ≠ ssLostWrite
      then ssSuccess else status
    let pf := flagPf c status
    let four := [ssTagMismatch, ssHostTimeout, ssPoisoned, ssAbortedBme].contains status
    let dw3 := if pf then c.inCache else if four then 0 else if wc && status = ssOffline then c.persist else dw3
    let vols := deVolumes d c
    let d := d.updRec c.fn adm fun r => { r with
      state := if wc then olStateOf c.persist (eCount e) else olComplete
      persist := if wc then c.persist else 0
      status := status, final := true, pf := pf, rc := flagRc c, lp := decide (c.waited ≠ []), de := flagDe d vols }
    let d := d.dropReads (kindIsCmd adm)
    let d := { d with qmx := { d.qmx with cmds := d.qmx.cmds.filter fun x => x.adm ≠ adm } }
    if c.silent then d.drainSq c.q
    else
      d.postCpl ⟨c.fn, c.cq, c.q, c.slot, eCmdTag e, adm % 2 ^ 32, adm, pf, flagRc c, c.waited, vols, status, dw3⟩

/-- A command that cannot go on: no further block is admitted, and it ends once the blocks on their way into the cache
are flipped, and destaged where it completes by destage (R52, R54, R56, R83, R161). -/
def Dev.stopCmd (d : Dev) (adm status dw3 : Nat) : Dev :=
  match d.cmd? adm with
  | none => d
  | some c =>
    let d := d.dropReads (kindIsCmd adm)
    if c.flipped = c.inCache ∧ !(d.dram.cache.any fun b => b.adm = adm && (b.wt || b.fua) && b.st ≠ .clean) then
      match c.lostFirst with
      | some o => if isWriteClass (eOpcode c.entry) then d.endCmd adm ssLostWrite o else d.endCmd adm status dw3
      | none => d.endCmd adm status dw3
    else d.updCmd adm fun c => { c with ending := some (status, dw3) }

/-- Stop a command without a completion (R54, R83, R313). -/
def Dev.silenceCmd (d : Dev) (adm status : Nat) : Dev :=
  (d.updCmd adm fun c => { c with silent := true }).stopCmd adm status 0

/-! ### Packing registers -/

/-- The value of a register with these fields. -/
def Dev.pack (d : Dev) (fs : List Fld) : Nat := (fs.map fun f => d.rd f * 2 ^ f.lo).sum

/-- SYS_HALT_SRC as one dword (R84). -/
def Dev.haltSrc (d : Dev) : Nat :=
  d.pack [Reg.SYS_HALT_SRC_valid, Reg.SYS_HALT_SRC_kind, Reg.SYS_HALT_SRC_overrun, Reg.SYS_HALT_SRC_fn, Reg.SYS_HALT_SRC_sq]

/-- SYS_HALT_POS as one dword (R84). -/
def Dev.haltPos (d : Dev) : Nat := d.pack [Reg.SYS_HALT_POS_frag, Reg.SYS_HALT_POS_index]

/-! ### The whole-device halt (R83, R84) -/

/-- What the halt record says. -/
structure HaltInfo where
  kind : Nat
  fn : Nat
  sq : Nat
  frag : Nat
  index : Nat
  cond : Nat
  asn : Nat
  entry : List Dword
  fragImage : List Nat

/-- Write the halt record (R84). -/
def Dev.haltRecord (d : Dev) (h : HaltInfo) : Dev :=
  let d := d.wrB Reg.SYS_HALT_SRC_overrun (d.rdB Reg.SYS_HALT_SRC_valid)
  let d := d.wr Reg.SYS_HALT_SRC_valid 1 |>.wr Reg.SYS_HALT_SRC_kind h.kind |>.wr Reg.SYS_HALT_SRC_fn h.fn
    |>.wr Reg.SYS_HALT_SRC_sq h.sq |>.wr Reg.SYS_HALT_POS_frag h.frag |>.wr Reg.SYS_HALT_POS_index h.index
    |>.wr Reg.SYS_HALT_COND_cond h.cond |>.wr Reg.SYS_HALT_ASN_asn h.asn |>.wr Reg.SYS_HALT_TS_ts d.now
  let d := forEach (List.range 16) (fun i d => d.wr (Reg.SYS_HALT_ENTRY_image.ix i) (dw h.entry i)) d
  forEach (List.range 4) (fun i d => d.wr (Reg.SYS_HALT_FRAG_frag_image.ix i) (h.fragImage.getD i 0)) d

/-- Whether a read serves a submission entry, a fragment table or a command's data. -/
def kindIsHostWork : ReadKind → Bool
  | .bme _ _ => false
  | .droppedBme => false
  | _ => true

/-- The whole-device halt begins (R83). -/
def Dev.halt (d : Dev) (h : HaltInfo) : Dev :=
  let d := { d with qmx := { d.qmx with fetched := [] } }
  let d := d.dropReads kindIsHostWork
  let d := forEach (d.qmx.cmds.map Cmd.adm) (fun a d => d.silenceCmd a ssAbortedHalt) d
  let d := { d with qmx := { d.qmx with halted := true } }
  let d := ((d.setState .qmx stHalt).setState .sys stHalt).bmeErrAll spHost 6
  let d := (d.haltRecord h).causeBit .qmx 19
  let d := d.errUncorr .qmx h.cond
  d.post 0x70 4 d.haltSrc d.haltPos h.cond h.asn h.fn

/-! ### Doorbells (R69, R70, R73, R74) -/

/-- A doorbell write that is ignored (R74) (DESIGN CHOICE, log entry 15). -/
def Dev.badDoorbell (d : Dev) (kind reason f q : Nat) : Dev :=
  let d := d.incSat Reg.QMX_DB_ERR_count
  let d := d.wr Reg.QMX_DB_LAST_kind kind |>.wr Reg.QMX_DB_LAST_reason reason |>.wr Reg.QMX_DB_LAST_fn f
    |>.wr Reg.QMX_DB_LAST_queue q
  (d.causeBit .qmx 16).errCorr .qmx 0x10

/-- Whether an index lies on the way from a head to a tail round a ring (R74). -/
def onPath (head tail idx depth : Nat) : Bool :=
  decide ((depth + idx - head) % depth ≤ (depth + tail - head) % depth)

/-- SQ tail doorbell (R69, R74) (DESIGN CHOICE, log entry 15). -/
def Dev.sqTail (d : Dev) (f i : Nat) (v : Dword) (partialBytes : Bool) : Dev :=
  let q := d.sqBase f + i
  let idx := bitsOf v.toNat 15 0
  if partialBytes || decide (bitsOf v.toNat 31 16 ≠ 0) then d.badDoorbell 0 1 f q
  else if !(decide (i < d.sqCount f) && [sqActive, sqFetchTimeout, sqHalted].contains (d.sqShown q)) then
    d.badDoorbell 0 2 f q
  else if d.sqDepth q ≤ idx then d.badDoorbell 0 0 f q
  else d.wr (Reg.QD_SQ_PTR_tail.ix q) idx

/-- CQ head doorbell (R70, R74) (DESIGN CHOICE, log entry 15). -/
def Dev.cqHead (d : Dev) (f i : Nat) (v : Dword) (partialBytes : Bool) : Dev :=
  let q := d.cqBase f + i
  let idx := bitsOf v.toNat 15 0
  if partialBytes || decide (bitsOf v.toNat 31 16 ≠ 0) then d.badDoorbell 1 1 f q
  else if !(decide (i < d.cqCount f) && d.cqActive q) then d.badDoorbell 1 2 f q
  else if d.cqDepth q ≤ idx then d.badDoorbell 1 0 f q
  else if !onPath (d.rd (Reg.QD_CQ_PTR_head.ix q)) (d.rd (Reg.QD_CQ_PTR_tail.ix q)) idx (d.cqDepth q) then
    d.badDoorbell 1 3 f q
  else d.wr (Reg.QD_CQ_PTR_head.ix q) idx

/-- Event ring head doorbell (R72, R74): released entries let pending events be written (DESIGN CHOICE, log entry 15). -/
def Dev.eventHead (d : Dev) (f : Nat) (v : Dword) (partialBytes : Bool) : Dev :=
  let idx := bitsOf v.toNat 15 0
  if partialBytes || decide (bitsOf v.toNat 31 16 ≠ 0) then d.badDoorbell 2 1 f 0
  else if !d.rdB (Reg.EVR_CFG_en.ix f) then d.badDoorbell 2 2 f 0
  else if d.ringDepth f ≤ idx then d.badDoorbell 2 0 f 0
  else if !onPath (d.ring f).head (d.ring f).tail idx (d.ringDepth f) then d.badDoorbell 2 3 f 0
  else
    let d := d.updRing f fun r => { r with head := idx }
    d.drainRing f

/-! ### Queue descriptors (R75 to R77) -/

/-- Set an SQ's en (R76): refused when the depth is below 2 or cq names no ACTIVE CQ of the function, and while the SQ is
DRAINING, of which the rule says nothing (DESIGN CHOICE, log entry 71). -/
def Dev.sqEnable (d : Dev) (f i : Nat) : Dev :=
  let q := d.sqBase f + i
  if d.sqState q ≠ sqDisabled then (if d.rdB (Reg.QD_SQ_CFG_en.ix q) then d else d.refuse .qmx)
  else if decide (1 ≤ d.rd (Reg.QD_SQ_CFG_size_m1.ix q)) && decide (d.rd (Reg.QD_SQ_CFG_cq.ix q) < d.cqCount f) &&
      d.cqActive (d.cqOfSq f q) then
    let d := d.wr (Reg.QD_SQ_CFG_en.ix q) 1 |>.wr (Reg.QD_SQ_PTR_head.ix q) 0 |>.wr (Reg.QD_SQ_PTR_tail.ix q) 0
      |>.wr (Reg.QD_SQ_STAT_state.ix q) sqActive
    { d with qmx := { d.qmx with credit := Tbl.erase d.qmx.credit q } }
  else (d.wr (Reg.QD_SQ_CFG_en.ix q) 0).refuse .qmx

/-- Clear an SQ's en (R76): it drains. -/
def Dev.sqDisable (d : Dev) (f i : Nat) : Dev :=
  let q := d.sqBase f + i
  let d := d.wr (Reg.QD_SQ_CFG_en.ix q) 0
  if d.sqState q = sqActive || d.sqState q = sqFetchTimeout then
    (d.wr (Reg.QD_SQ_STAT_state.ix q) sqDraining).drainSq q
  else d

/-- restart (R76): acts in FETCH_TIMEOUT only; the SQ becomes ACTIVE, with its weight as credit (R78). -/
def Dev.sqRestart (d : Dev) (f i : Nat) : Dev :=
  let q := d.sqBase f + i
  if d.sqState q = sqFetchTimeout then
    let d := d.wr (Reg.QD_SQ_STAT_state.ix q) sqActive
    { d with qmx := { d.qmx with credit := Tbl.erase d.qmx.credit q } }
  else d

/-- Set a CQ's en (R76). -/
def Dev.cqEnable (d : Dev) (f i : Nat) : Dev :=
  let q := d.cqBase f + i
  if d.cqActive q then d
  else if decide (1 ≤ d.rd (Reg.QD_CQ_CFG_size_m1.ix q)) && decide (d.rd (Reg.QD_CQ_CFG_vector.ix q) < vectorsOf f) then
    d.wr (Reg.QD_CQ_CFG_en.ix q) 1 |>.wr (Reg.QD_CQ_PTR_head.ix q) 0 |>.wr (Reg.QD_CQ_PTR_tail.ix q) 0
      |>.wr (Reg.QD_CQ_STAT_phase.ix q) 1 |>.wr (Reg.QD_CQ_STAT_state.ix q) 1
  else (d.wr (Reg.QD_CQ_CFG_en.ix q) 0).refuse .qmx

/-- Clear a CQ's en (R76): refused while an SQ that names it is not DISABLED. -/
def Dev.cqDisable (d : Dev) (f i : Nat) : Dev :=
  let q := d.cqBase f + i
  if (List.range (d.sqCount f)).any fun j =>
      decide (d.sqState (d.sqBase f + j) ≠ sqDisabled) && decide (d.cqOfSq f (d.sqBase f + j) = q) then d.refuse .qmx
  else d.wr (Reg.QD_CQ_CFG_en.ix q) 0 |>.wr (Reg.QD_CQ_STAT_state.ix q) 0

/-- Set an event ring's en (R77): refused as for a CQ; waiting events are written. -/
def Dev.ringEnable (d : Dev) (f : Nat) : Dev :=
  if d.rdB (Reg.EVR_CFG_en.ix f) then d
  else if decide (1 ≤ d.rd (Reg.EVR_CFG_size_m1.ix f)) && decide (d.rd (Reg.EVR_CFG_vector.ix f) < vectorsOf f) then
    let d := (d.wr (Reg.EVR_CFG_en.ix f) 1).updRing f fun r => { r with head := 0, tail := 0, phase := true }
    d.drainRing f
  else d.refuse .qmx

/-- Clear an event ring's en (R77). -/
def Dev.ringDisable (d : Dev) (f : Nat) : Dev := d.wr (Reg.EVR_CFG_en.ix f) 0

/-- A write to QMX_FN_SQ or QMX_FN_CQ of a function (R66, R67). The count may not fall so far that the local index of a
queue that is not DISABLED lies outside it (DEDUCED, log entry 72). -/
def Dev.quotaWrite (d : Dev) (cq : Bool) (f base count : Nat) : Dev :=
  let baseF := if cq then Reg.QMX_FN_CQ_base else Reg.QMX_FN_SQ_base
  let countF := if cq then Reg.QMX_FN_CQ_count else Reg.QMX_FN_SQ_count
  let base := if f = 0 then 0 else base % 1024
  let count := count % 2048
  let busy (q : Nat) : Bool := if cq then d.cqActive q else decide (d.sqState q ≠ sqDisabled)
  let oldBase := d.rd (baseF.ix f)
  let oldCount := d.rd (countF.ix f)
  let clash := (List.range 65).any fun g =>
    decide (g ≠ f) && decide (0 < count) && decide (0 < d.rd (countF.ix g)) &&
    decide (base < d.rd (baseF.ix g) + d.rd (countF.ix g)) && decide (d.rd (baseF.ix g) < base + count)
  let anyBusy := (List.range oldCount).any fun i => busy (oldBase + i)
  let lostBusy := (List.range oldCount).any fun i => decide (count ≤ i) && busy (oldBase + i)
  if clash || decide (1024 < base + count) || (decide (f ≠ 0) && decide (256 < count)) ||
      (decide (base ≠ oldBase) && anyBusy) || lostBusy then d.refuse .qmx
  else d.wr (baseF.ix f) base |>.wr (countF.ix f) count

/-! ### Arbitration (R78) -/

/-- Whether commands may be fetched and admitted at all: phase READY, no halt, a DRAM group left (R83, R327, R407). -/
def Dev.intakeOpen (d : Dev) : Bool :=
  decide (d.rd (Reg.BLK_STAT_specific.ix Blk.sys.page) = 5) && !d.qmx.halted && !d.pwc.bothLost

/-- weight(q) (R75). -/
def Dev.weight (d : Dev) (q : Nat) : Nat := max 1 (d.rd (Reg.QD_SQ_ARB_weight.ix q))

/-- burst(q) (R75). -/
def Dev.burst (d : Dev) (q : Nat) : Nat := min 128 (max 1 (d.rd (Reg.QD_SQ_ARB_burst.ix q)))

/-- Whether an SQ is of class URGENT (R75). -/
def Dev.urgent (d : Dev) (q : Nat) : Bool := d.rdB (Reg.QD_SQ_CFG_class.ix q)

/-- Submitted entries of an SQ (R69). -/
def Dev.submitted (d : Dev) (q : Nat) : Nat :=
  (d.sqDepth q + d.rd (Reg.QD_SQ_PTR_tail.ix q) - d.rd (Reg.QD_SQ_PTR_head.ix q)) % d.sqDepth q

/-- NORMAL credit left in the round. -/
def Dev.credit (d : Dev) (q : Nat) : Nat := Tbl.getD d.qmx.credit q (d.weight q)

/-- Entries that one fetch of a queue may take now (take of R78). -/
def Dev.take (d : Dev) (q : Nat) : Nat :=
  if d.sqState q ≠ sqActive then 0
  else match d.sqOwner q with
  | none => 0
  | some f =>
    if !(d.fnExists f && d.canDma f && decide (d.tagsOf f < d.tagLimit f)) then 0
    else
      let n := min (min (d.submitted q) (d.burst q)) (d.cqFree f (d.cqOfSq f q))
      if q ≠ 0 ∧ !d.urgent q then min n (d.credit q) else n

/-- Fetch n entries of a queue: the head passes them, and reads go out (R69, R78). -/
def Dev.fetch (d : Dev) (q n : Nat) : Dev :=
  match d.sqOwner q with
  | none => d
  | some f =>
    let head := d.rd (Reg.QD_SQ_PTR_head.ix q)
    let depth := d.sqDepth q
    let base := d.rd (Reg.QD_SQ_BASE_base.ix q) * 4096
    let n1 := min n (depth - head)
    let d := d.wr (Reg.QD_SQ_PTR_head.ix q) ((head + n) % depth)
    let d := { d with qmx := { d.qmx with
      fetched := d.qmx.fetched ++ (List.range n).map fun i => (⟨q, (head + i) % depth, none⟩ : Fetched) } }
    let d := d.readHost f (base + 64 * head) (64 * n1) (fun off len => .entries q (head + off / 64) (len / 64))
    d.readHost f base (64 * (n - n1)) (fun off len => .entries q (off / 64) (len / 64))

/-- The first queue in order from `start` that a test admits. -/
def firstFrom (start : Nat) (p : Nat → Bool) : Option Nat :=
  ((List.range 1024).map fun i => (start + i) % 1024).find? p

/-- One decision of the arbiter (R78). -/
def Dev.arbitrate (d : Dev) : Dev :=
  if !d.intakeOpen then d
  else if 0 < d.take 0 then d.fetch 0 (d.take 0)
  else
    match firstFrom d.qmx.urgentNext fun q => decide (q ≠ 0) && d.urgent q && decide (0 < d.take q) with
    | some q =>
      let d := d.fetch q (d.take q)
      { d with qmx := { d.qmx with urgentNext := (q + 1) % 1024 } }
    | none =>
      let pick (d : Dev) := firstFrom d.qmx.normalNext fun q => decide (q ≠ 0) && !d.urgent q && decide (0 < d.take q)
      let serve (d : Dev) (q : Nat) : Dev :=
        let n := d.take q
        let left := d.credit q - n
        let d := d.fetch q n
        { d with qmx := { d.qmx with credit := Tbl.put d.qmx.credit q left, normalNext := (q + 1) % 1024 } }
      match pick d with
      | some q => serve d q
      | none =>
        let d := { d with qmx := { d.qmx with credit := [], normalNext := 1 } }
        match pick d with
        | some q => serve d q
        | none => d

/-! ### Validation and admission (R81) -/

/-- Whether a cmd_tag is in use on an SQ (R81 condition 0x09). -/
def Dev.tagInUse (d : Dev) (q tag : Nat) : Bool :=
  (d.qmx.cmds.any fun c => c.q = q && !c.silent && eCmdTag c.entry = tag) ||
  d.hif.fns.any fun p => p.2.held.any fun c => c.sq = q && c.cmdTag = tag

/-- The Outcome Log record of a command at admission (R99). -/
def newRec (d : Dev) (adm sq : Nat) (e : List Dword) : OlRec :=
  { asn := adm % 2 ^ 32, adm := adm, cmdTag := eCmdTag e, opcode := eOpcode e, state := olNotAdmitted, status := 0,
    final := false, posted := false, de := false, lp := false, rc := false, pf := false, sq := sq,
    volume := if namesVolume (eOpcode e) then eVolume e else 0, lba := eLba e, persist := 0,
    count := min 0xFFFF (eCount e), ts := d.now }

/-- The arrays of a command's volumes that are entering or in a lower power state (R90, R252). -/
def Dev.asleepArrays (d : Dev) (f : Nat) (e : List Dword) : List Nat :=
  let vols := if eFlushAll e then d.flushAllVols f else if namesVolume (eOpcode e) then [eVolume e] else []
  ((vols.filter d.volExists).map d.volArray).eraseDups.filter fun a => !d.arrAwake a

/-- Admit one valid entry (R11, R71, R81, R99). -/
def Dev.admitEntry (d : Dev) (f : Nat) (x : Fetched) (e : List Dword) : Dev :=
  let adm := d.qmx.adm
  let l := x.q - d.sqBase f
  let d := d.updOlog f fun o =>
    { admittedCount := o.admittedCount + 1, recs := Tbl.put o.recs (o.admittedCount % 65536) (newRec d adm l e) }
  let d := d.incWrap (Reg.QD_SQ_COUNT_admitted.ix x.q) |>.incWrap Reg.QMX_INTAKE_admitted
  let lower := d.qmx.cmds.any fun c => c.fn = f && !c.silent
  let c : Cmd := { adm := adm, fn := f, q := x.q, cq := d.cqOfSq f x.q, slot := l, entry := e,
                   stage := if eFence e && lower then .fenced else .ready, asleep := d.asleepArrays f e }
  { d with qmx := { d.qmx with adm := adm + 1, cmds := d.qmx.cmds ++ [c] } }

/-- Whether the record that a function's next command takes may be overwritten: it is final, or there is none (R99). -/
def Dev.recordFree (d : Dev) (f : Nat) : Bool :=
  match Tbl.get? (d.olog f).recs ((d.olog f).admittedCount % 65536) with
  | some r => r.final
  | none => true

/-- Validate the oldest fetched entry, once its read has completed (R81); nothing is admitted, and no halt begins, from the
start of Dusk on (R86). A valid entry whose record would overwrite one that is not final waits (R99; DEDUCED, log entry 76). -/
def Dev.entryAdmit (d : Dev) : Dev :=
  match d.qmx.fetched with
  | [] => d
  | x :: rest =>
    if !d.intakeOpen then d
    else match x.data, d.sqOwner x.q with
    | some e, some f =>
      let t := { d with qmx := { d.qmx with fetched := rest } }
      match malformed e (x.q == 0) (d.tagInUse x.q (eCmdTag e)) with
      | some cond => t.halt ⟨1, f, x.q, 0, x.slot, cond, 0, e, []⟩
      | none => if d.recordFree f then t.admitEntry f x e else d
    | _, _ => d

/-! ### Fetch timeouts (R52, R76) -/

/-- An entry fetch and its retry both timed out: the SQ stops with its head on the first entry of that fetch, and the
entries fetched from there on are dropped. -/
def Dev.fetchTimeout (d : Dev) (q slot : Nat) : Dev :=
  let depth := d.sqDepth q
  let behind (x : Fetched) : Bool :=
    x.q == q && decide ((depth + x.slot - slot) % depth < (depth + d.rd (Reg.QD_SQ_PTR_head.ix q) - slot) % depth ||
      d.rd (Reg.QD_SQ_PTR_head.ix q) = slot)
  let d := { d with qmx := { d.qmx with fetched := d.qmx.fetched.filter fun x => !behind x } }
  let d := d.dropReads (fun k => match k with
    | .entries q' s' _ => q' == q && decide ((depth + s' - slot) % depth < (depth + d.rd (Reg.QD_SQ_PTR_head.ix q) - slot) % depth)
    | _ => false)
  let d := d.wr (Reg.QD_SQ_PTR_head.ix q) slot
  let d := if d.sqState q = sqActive then d.wr (Reg.QD_SQ_STAT_state.ix q) sqFetchTimeout else d.drainSq q
  (d.causeBit .qmx 17).errCorr .qmx 0x11

/-! ### Meanings -/

/-- QUOTA_WRITE (R67). -/
def execQuotaWrite (cq : Bool) (fn base count : Nat) (s : State) : Out :=
  onPage .qmx (decide (fn ≤ 64)) s fun d => d.quotaWrite cq fn base count

/-- SQ_TAIL_DOORBELL (R69, R74): slots beyond the doorbell space of R73 are ignored. -/
def execSqTailDoorbell (fn i : Nat) (v : Dword) (partialBytes : Bool) (s : State) : Out :=
  ifUnit (decide (fn ≤ 64)) s fun d => d.atFn fn .qmx fun d =>
    if i < (if fn = 0 then 1024 else 256) then d.sqTail fn i v partialBytes else d

/-- CQ_HEAD_DOORBELL (R70, R74). -/
def execCqHeadDoorbell (fn i : Nat) (v : Dword) (partialBytes : Bool) (s : State) : Out :=
  ifUnit (decide (fn ≤ 64)) s fun d => d.atFn fn .qmx fun d =>
    if i < (if fn = 0 then 1024 else 256) then d.cqHead fn i v partialBytes else d

/-- EVENT_HEAD_DOORBELL (R72, R74). -/
def execEventHeadDoorbell (fn : Nat) (v : Dword) (partialBytes : Bool) (s : State) : Out :=
  ifUnit (decide (fn ≤ 64)) s fun d => d.atFn fn .qmx fun d => d.eventHead fn v partialBytes

/-- SQ_ENABLE (R76); a descriptor the writer does not own is not written (R75). -/
def execSqEnable (fn i : Nat) (s : State) : Out :=
  ifUnit (decide (fn ≤ 64)) s fun d => d.atFn fn .qmx fun d => if i < d.sqCount fn then d.sqEnable fn i else d

/-- SQ_DISABLE (R76). -/
def execSqDisable (fn i : Nat) (s : State) : Out :=
  ifUnit (decide (fn ≤ 64)) s fun d => d.atFn fn .qmx fun d => if i < d.sqCount fn then d.sqDisable fn i else d

/-- SQ_RESTART (R76). -/
def execSqRestart (fn i : Nat) (s : State) : Out :=
  ifUnit (decide (fn ≤ 64)) s fun d => d.atFn fn .qmx fun d => if i < d.sqCount fn then d.sqRestart fn i else d

/-- CQ_ENABLE (R76). -/
def execCqEnable (fn i : Nat) (s : State) : Out :=
  ifUnit (decide (fn ≤ 64)) s fun d => d.atFn fn .qmx fun d => if i < d.cqCount fn then d.cqEnable fn i else d

/-- CQ_DISABLE (R76). -/
def execCqDisable (fn i : Nat) (s : State) : Out :=
  ifUnit (decide (fn ≤ 64)) s fun d => d.atFn fn .qmx fun d => if i < d.cqCount fn then d.cqDisable fn i else d

/-- EVENT_RING_ENABLE (R77). -/
def execEventRingEnable (fn : Nat) (s : State) : Out :=
  ifUnit (decide (fn ≤ 64)) s fun d => d.atFn fn .qmx fun d => d.ringEnable fn

/-- EVENT_RING_DISABLE (R77). -/
def execEventRingDisable (fn : Nat) (s : State) : Out :=
  ifUnit (decide (fn ≤ 64)) s fun d => d.atFn fn .qmx fun d => d.ringDisable fn

/-- ARBITRATE (R78). -/
def execArbitrate (s : State) : Out := s.act Dev.arbitrate

/-- ENTRY_ADMIT (R81). -/
def execEntryAdmit (s : State) : Out := s.act Dev.entryAdmit

/-- The halt record is cleared: every field of it reads 0 (R84). -/
def Dev.clearHaltRecord (d : Dev) : Dev :=
  let d := d.haltRecord ⟨0, 0, 0, 0, 0, 0, 0, [], []⟩
  d.wr Reg.SYS_HALT_SRC_valid 0 |>.wr Reg.SYS_HALT_SRC_overrun 0 |>.wr Reg.SYS_HALT_TS_ts 0

/-- HALT_RECORD_CLEAR (R84). -/
def execHaltRecordClear (s : State) : Out := onPage .sys true s Dev.clearHaltRecord

end Sys2Proof.Machine
end

