-- ==== Sys2Proof/Machine/Arrays.lean ====
section
/-! DEFINITION. Arrays as the running device sees them: members and their states, geometry, failure slots, where a unit lies,
which units are unavailable, the loss bound, the array state, labels, stripe and unit records, volume placement
(R106 to R133, R203 to R215, R222 to R224). -/

set_option Elab.async false

namespace Sys2Proof.Machine

/-! ### Array records -/

/-- State of an array beside its registers. -/
def Dev.arr (d : Dev) (a : Nat) : ArrSt := Tbl.getD d.lay.arrs a {}

/-- Change the state of an array beside its registers. -/
def Dev.updArr (d : Dev) (a : Nat) (g : ArrSt → ArrSt) : Dev :=
  { d with lay := { d.lay with arrs := Tbl.putD d.lay.arrs a (g (d.arr a)) {} } }

/-- Whether an array is enabled. -/
def Dev.arrEn (d : Dev) (a : Nat) : Bool := d.rdB (Reg.AR_CFG_en.ix a)

/-- The enabled arrays. -/
def Dev.arrays (d : Dev) : List Nat := (List.range 16).filter d.arrEn

/-! ### Drives -/

/-- Drive port state beside its registers. -/
def Dev.port (d : Dev) (p : Nat) : PortSt := Tbl.getD d.dpx.ports p {}

/-- Change a drive port's state beside its registers. -/
def Dev.updPort (d : Dev) (p : Nat) (g : PortSt → PortSt) : Dev :=
  { d with dpx := { d.dpx with ports := Tbl.putD d.dpx.ports p (g (d.port p)) {} } }

/-- Drive sectors to a member block: 8 on a drive with 512-byte logical sectors (R116). -/
def Dev.sectors (d : Dev) (p : Nat) : Nat := if d.rd (Reg.PT_FMT_log_bytes.ix p) = 512 then 8 else 1

/-- Write member blocks from one on, in the drive's LBAs (R116). -/
def Dev.sendBlocks (d : Dev) (p block : Nat) (data : List Block) : Dev :=
  d.emit (.driveBlocks p (d.sectors p * block) (d.sectors p) data)

/-! ### Members (R107, R114) -/

/-- A member list held in two register arrays laid out as AR_MEMBER: the port of member i. -/
def Dev.listPort (d : Dev) (vHi pHi vLo pLo : Fld) (a i : Nat) : Option Nat :=
  if i % 2 = 0 then
    if d.rdB ((vLo.ix a).ix (i / 2)) then some (d.rd ((pLo.ix a).ix (i / 2))) else none
  else if d.rdB ((vHi.ix a).ix (i / 2)) then some (d.rd ((pHi.ix a).ix (i / 2))) else none

/-- The port of a member of the live configuration. -/
def Dev.livePort (d : Dev) (a i : Nat) : Option Nat :=
  d.listPort Reg.AR_MEMBER_valid_hi Reg.AR_MEMBER_port_hi Reg.AR_MEMBER_valid_lo Reg.AR_MEMBER_port_lo a i

/-- The ports of the target of a restripe that runs: the present members at their indexes, then the added ones (R222). -/
def Dev.rsTargetPorts (d : Dev) (a : Nat) : List Nat := ((d.arr a).restripe.map RestripeSt.ports).getD []

/-- The port of a member, those that a running restripe adds among them (R222, R224). -/
def Dev.memberPort (d : Dev) (a i : Nat) : Option Nat := (d.livePort a i).or ((d.rsTargetPorts a)[i]?)

/-- Put a member on a port. -/
def Dev.setMemberPort (d : Dev) (a i p : Nat) : Dev :=
  if i % 2 = 0 then d.wr ((Reg.AR_MEMBER_valid_lo.ix a).ix (i / 2)) 1 |>.wr ((Reg.AR_MEMBER_port_lo.ix a).ix (i / 2)) p
  else d.wr ((Reg.AR_MEMBER_valid_hi.ix a).ix (i / 2)) 1 |>.wr ((Reg.AR_MEMBER_port_hi.ix a).ix (i / 2)) p

/-- A member is on a port: its own one, or that of a member which a restripe adds (R114, R222). -/
def Dev.movePort (d : Dev) (a i p : Nat) : Dev :=
  if (d.livePort a i).isSome then d.setMemberPort a i p
  else d.updArr a fun r => { r with restripe := r.restripe.map fun x => { x with ports := x.ports.set i p } }

/-- G, the number of members of an array. -/
def Dev.memberCount (d : Dev) (a : Nat) : Nat :=
  ((List.range 256).takeWhile fun i => (d.livePort a i).isSome).length

/-- The member indexes in use: those of the live configuration, and those that a running restripe adds (R224). -/
def Dev.members (d : Dev) (a : Nat) : List Nat := List.range (max (d.memberCount a) (d.rsTargetPorts a).length)

/-- The ports of an array's members, in member order. -/
def Dev.ports (d : Dev) (a : Nat) : List Nat := (List.range (d.memberCount a)).filterMap (d.memberPort a)

/-- The array and member index on a port. -/
def Dev.memberOn (d : Dev) (p : Nat) : Option (Nat × Nat) :=
  d.arrays.findSome? fun a =>
    ((d.members a).find? fun i => d.memberPort a i = some p).map fun i => (a, i)

/-- The port of a member when the array was created, or when its labels were read: what rank[] is taken from (R109, R114)
(DEDUCED, log entry 26). -/
def Dev.recPort (d : Dev) (a i : Nat) : Nat :=
  (Tbl.get? (d.arr a).recPorts i).getD ((d.memberPort a i).getD 0)

/-- The port that the labels record of a member: the one of its last replacement, if any (R114, R365). -/
def Dev.labelPort (d : Dev) (a i : Nat) : Nat := (Tbl.get? (d.arr a).newPorts i).getD (d.recPort a i)

/-- NONE (R203). -/
def msNone : Nat := 0
/-- OK. -/
def msOk : Nat := 1
/-- MISSING. -/
def msMissing : Nat := 2
/-- FAILED. -/
def msFailed : Nat := 3
/-- CATCHUP. -/
def msCatchup : Nat := 4
/-- FW_UPDATE. -/
def msFwUpdate : Nat := 5
/-- REPLACING. -/
def msReplacing : Nat := 6

/-- State of a member (R203). -/
def Dev.mst (d : Dev) (a i : Nat) : Nat := d.rd ((Reg.AR_MSTATE_state.ix a).ix i)

/-! ### Geometry (R106 to R110) -/

/-- rank[] of R109 from ports: the rank of each port's cluster among the clusters used (DEDUCED, log entry 26). -/
def ranksOf (ports : List Nat) : List Nat :=
  let used := (List.range 8).filter fun c => (ports.map (· / 32)).contains c
  ports.map fun p => (used.filter (· < p / 32)).length

/-- Number of clusters that ports lie in. -/
def clustersOf (ports : List Nat) : Nat := ((List.range 8).filter fun c => (ports.map (· / 32)).contains c).length

/-- The geometry of an array in force (DEDUCED, log entry 26). -/
def Dev.geo (d : Dev) (a : Nat) : Geo :=
  let ports := (List.range (d.memberCount a)).map (d.recPort a)
  { k := d.rd (Reg.AR_CFG_k.ix a), m := d.rd (Reg.AR_CFG_m.ix a), spares := d.rd (Reg.AR_CFG_spares.ix a),
    unit := d.rd (Reg.AR_CFG_unit.ix a), seed := BitVec.ofNat 64 (d.rd (Reg.AR_SEED_seed.ix a)),
    g := ports.length, c := clustersOf ports, cycles := (d.arr a).cycles, rank := ranksOf ports }

/-- The target geometry of a restripe (R222). -/
def Dev.targetGeo (d : Dev) (a : Nat) : Geo :=
  match (d.arr a).restripe with
  | none => d.geo a
  | some r =>
    { k := r.k, m := r.m, spares := r.spares, unit := d.rd (Reg.AR_CFG_unit.ix a), seed := BitVec.ofNat 64 r.seed,
      g := r.ports.length, c := clustersOf r.ports, cycles := (d.arr a).cycles, rank := ranksOf r.ports }

/-- A stripe of the target layout of a restripe carries its number plus this base (DESIGN CHOICE, log entry 37). -/
def targetBase : Nat := 2 ^ 48

/-- The geometry that a stripe belongs to (DESIGN CHOICE, log entry 37). -/
def Dev.geoAt (d : Dev) (a t : Nat) : Geo := if targetBase ≤ t then d.targetGeo a else d.geo a

/-- The number of a stripe in its layout. -/
def stripeNo (t : Nat) : Nat := t % targetBase

/-! ### Stripe records, unit records, missed maps (R115, R119, R122, R205) -/

/-- What the metadata tables hold for a stripe (DESIGN CHOICE, log entry 29). -/
def Dev.stripe (d : Dev) (a t : Nat) : StripeRec := Tbl.getD (Tbl.getD d.dram.stripes a []) t {}

/-- Change a stripe's metadata. -/
def Dev.updStripe (d : Dev) (a t : Nat) (g : StripeRec → StripeRec) : Dev :=
  { d with dram := { d.dram with
      stripes := Tbl.put d.dram.stripes a (Tbl.putD (Tbl.getD d.dram.stripes a []) t (g (d.stripe a t)) {}) } }

/-- FRESH (R122). -/
def ssFresh : Nat := 0
/-- CLEAN. -/
def ssClean : Nat := 1
/-- REBUILT_TO_SPARE. -/
def ssSpare : Nat := 2
/-- SUSPECT. -/
def ssSuspect : Nat := 3

/-- Key of a unit record in the model's table. -/
def unitKey (member cycle : Nat) : Nat := member * 2 ^ 30 + cycle

/-- The unit record of a member in a cycle (R115), as LAY's table holds it (DESIGN CHOICE, log entry 29). -/
def Dev.unitRec (d : Dev) (a member cycle : Nat) : UnitRec :=
  Tbl.getD (Tbl.getD d.dram.unitRecs a []) (unitKey member cycle) {}

/-- Write a unit record. -/
def Dev.setUnitRec (d : Dev) (a member cycle : Nat) (r : UnitRec) : Dev :=
  { d with dram := { d.dram with
      unitRecs := Tbl.put d.dram.unitRecs a (Tbl.putD (Tbl.getD d.dram.unitRecs a []) (unitKey member cycle) r {}) } }

/-- The dword of a unit record (R115). -/
def UnitRec.word (r : UnitRec) : Nat :=
  r.gen % 2 ^ 16 * 2 ^ 16 + r.s % 2 ^ 7 * 2 ^ 9 + r.j % 2 ^ 5 * 2 ^ 4 + b2n r.holds * 4 + r.state % 4

/-- The unit record of a stripe's position as the tables have it (R115). -/
def Dev.recordOf (d : Dev) (a t j : Nat) : UnitRec :=
  let r := d.stripe a t
  ⟨r.gen, (d.geoAt a t).sOf (stripeNo t), j, true, r.state⟩

/-- A unit record goes to its place in a member's reserve (R113). -/
def Dev.sendRecord (d : Dev) (port cycle : Nat) (r : UnitRec) : Dev :=
  d.emit (.driveUnitRecord port (4096 + cycle / 1024) (4 * (cycle % 1024)) r.word)

/-- Marked regions of a member (R205). -/
def Dev.missed (d : Dev) (a i : Nat) : List Nat := Tbl.getD d.dram.missed (a * 256 + i) []

/-- Replace a member's missed map. -/
def Dev.setMissed (d : Dev) (a i : Nat) (l : List Nat) : Dev :=
  { d with dram := { d.dram with missed := Tbl.putD d.dram.missed (a * 256 + i) l [] } }

/-- Cycles of a region of the missed map. -/
def regionCycles : Nat := 1024

/-- Insert into a rising list. -/
def insertNat (x : Nat) : List Nat → List Nat
  | [] => [x]
  | y :: ys => if x < y then x :: y :: ys else if x = y then y :: ys else y :: insertNat x ys

/-- Mark a cycle's region as missed by a member. -/
def Dev.markMissed (d : Dev) (a i cycle : Nat) : Dev :=
  d.setMissed a i (insertNat (cycle / regionCycles) (d.missed a i))

/-! ### Failure slots (R212) -/

/-- EMPTY, ACTIVE, RETIRED. -/
def slEmpty : Nat := 0
/-- ACTIVE. -/
def slActive : Nat := 1
/-- RETIRED. -/
def slRetired : Nat := 2

/-- State of a failure slot. -/
def Dev.slotState (d : Dev) (a n : Nat) : Nat := d.rd ((Reg.AR_SLOT_state.ix a).ix n)
/-- Member of a failure slot. -/
def Dev.slotMember (d : Dev) (a n : Nat) : Nat := d.rd ((Reg.AR_SLOT_member.ix a).ix n)
/-- Write a failure slot. -/
def Dev.setSlot (d : Dev) (a n st i : Nat) : Dev :=
  d.wr ((Reg.AR_SLOT_state.ix a).ix n) st |>.wr ((Reg.AR_SLOT_member.ix a).ix n) i
/-- The slots of an array. -/
def Dev.slots (d : Dev) (a : Nat) : List Nat := List.range (d.rd (Reg.AR_CFG_spares.ix a))
/-- The ACTIVE slot that a member holds. -/
def Dev.activeSlotOf (d : Dev) (a i : Nat) : Option Nat :=
  (d.slots a).find? fun n => d.slotState a n = slActive && d.slotMember a n = i
/-- The slot shown of a member: its ACTIVE slot, or else the lowest RETIRED slot that names it (R212)
(DEDUCED, log entry 65). -/
def Dev.slotOf (d : Dev) (a i : Nat) : Option Nat :=
  match d.activeSlotOf a i with
  | some n => some n
  | none => (d.slots a).find? fun n => d.slotState a n ≠ slEmpty && d.slotMember a n = i
/-- Whether a member holds an ACTIVE slot. -/
def Dev.hasActiveSlot (d : Dev) (a i : Nat) : Bool :=
  (d.slots a).any fun n => d.slotState a n = slActive && d.slotMember a n = i
/-- Members of the slots that are not EMPTY, in slot order, among the first S slots of a layout (R213). -/
def Dev.slotMembers (d : Dev) (a spares : Nat) : List Nat :=
  ((List.range spares).filter fun n => d.slotState a n ≠ slEmpty).map (d.slotMember a)

/-- When no slot is ACTIVE, every slot returns to EMPTY (R212). -/
def Dev.tidySlots (d : Dev) (a : Nat) : Dev :=
  if (d.slots a).any fun n => d.slotState a n = slActive then d
  else forEach (d.slots a) (fun n d => d.setSlot a n slEmpty 0) d

/-! ### Where units lie (R203, R213, R214, R219) -/

/-- A stripe laid out: its cycle, its number in the cycle, the list, the layout member of each position, and for each
position the member whose spare entry R213 gives it. -/
structure Plan where
  c : Nat
  s : Nat
  w : Nat
  k : Nat
  layout : List Nat
  spare : List (Option Nat)

/-- The plan of a stripe. -/
def Dev.plan (d : Dev) (a t : Nat) : Plan :=
  let g := d.geoAt a t
  let n := stripeNo t
  let c := g.cycleOf n
  let s := g.sOf n
  let list := g.cycleList c
  let placed := placeSpares g list (d.slotMembers a g.spares)
  { c := c, s := s, w := g.w, k := g.k, layout := (List.range g.w).map (layoutMember g list s),
    spare := (List.range g.w).map fun j => (placed.find? fun x => x.2 = (s, j)).map fun x => list.getD x.1 0 }

/-- Whether a position's unit is on its spare entry (R214). -/
def Dev.onSpare (d : Dev) (a : Nat) (p : Plan) (j : Nat) : Bool :=
  match p.spare.getD j none with
  | none => false
  | some i =>
    let r := d.unitRec a i p.c
    r.holds && r.s = p.s && r.j = j

/-- The member that a position's unit lies on. -/
def Dev.unitMember (d : Dev) (a : Nat) (p : Plan) (j : Nat) : Nat :=
  if d.onSpare a p j then ((p.spare.getD j none).getD 0) else p.layout.getD j 0

/-- Whether a member is the replacement that copyback has filled up to a cycle (R219). -/
def Dev.copied (d : Dev) (a i c : Nat) : Bool :=
  d.mst a i = msReplacing && d.rd (Reg.AR_CPBK_member.ix a) = i && decide (c < d.rd (Reg.AR_CPBK_CUR_cycle.ix a))

/-- Whether units of a member can be read in a cycle (R203). -/
def Dev.canRead (d : Dev) (a i c : Nat) : Bool :=
  if d.mst a i = msOk then true
  else if d.mst a i = msCatchup then !(d.missed a i).contains (c / regionCycles)
  else d.copied a i c

/-- Whether units of a member are written in a cycle (R164, R205, R219). -/
def Dev.canWrite (d : Dev) (a i c : Nat) : Bool :=
  d.mst a i = msOk || d.mst a i = msCatchup || d.copied a i c

/-- Whether a position's unit is available. -/
def Dev.available (d : Dev) (a : Nat) (p : Plan) (j : Nat) : Bool := d.canRead a (d.unitMember a p j) p.c

/-- The unavailable positions of a stripe. -/
def Dev.unavailable (d : Dev) (a : Nat) (p : Plan) : List Nat :=
  (List.range p.w).filter fun j => !d.available a p j

/-! ### Loss (R206, R207, R215) -/

/-- Whether a member is lost. -/
def Dev.isLost (d : Dev) (a i : Nat) : Bool :=
  let st := d.mst a i
  st = msMissing || st = msFwUpdate || st = msCatchup || st = msReplacing ||
  (st = msFailed && !(d.hasActiveSlot a i && (d.arr a).placedAll.contains i))

/-- The lost members of an array. -/
def Dev.lostMembers (d : Dev) (a : Nat) : List Nat := (d.members a).filter (d.isLost a)

/-- The loss bound of a set of lost members (R206). -/
def Geo.lossBound (g : Geo) (lost : List Nat) : Nat :=
  min (g.m + 1) ((List.range g.c).map fun x => min (lost.filter fun i => g.rank.getD i 0 = x).length g.q).sum

/-- L_bound (R206); during a restripe the larger one of the two layouts (R224). -/
def Dev.lBound (d : Dev) (a : Nat) : Nat :=
  let lost := d.lostMembers a
  max ((d.geo a).lossBound (lost.filter (· < d.memberCount a))) ((d.targetGeo a).lossBound lost)

/-- L (R206, R215). -/
def Dev.loss (d : Dev) (a : Nat) : Nat :=
  match (d.arr a).walk with
  | some _ => min (d.arr a).wantL (d.lBound a)
  | none => d.lBound a

/-- DISABLED (R207). -/
def asDisabled : Nat := 0
/-- ASSEMBLING. -/
def asAssembling : Nat := 1
/-- OPTIMAL. -/
def asOptimal : Nat := 2
/-- DEGRADED. -/
def asDegraded : Nat := 3
/-- CRITICAL. -/
def asCritical : Nat := 4
/-- OFFLINE. -/
def asOffline : Nat := 5

/-- The state that R207 gives an array. -/
def Dev.judgeArr (d : Dev) (a : Nat) : Nat :=
  let m := d.rd (Reg.AR_CFG_m.ix a)
  if !d.arrEn a then asDisabled
  else if (d.arr a).assembling then asAssembling
  else if m < d.lBound a then asOffline
  else if d.loss a = 0 then asOptimal
  else if d.loss a < m then asDegraded
  else asCritical

/-- AR_STAT.state. -/
def Dev.arrState (d : Dev) (a : Nat) : Nat := d.rd (Reg.AR_STAT_state.ix a)

/-! ### Data in host memory (R80) -/

/-- The host ranges that bytes [off, off + len) of a transfer map to: address, length, offset from the first byte asked. -/
def mapRange : List Frag → Nat → Nat → Nat → List (Nat × Nat × Nat)
  | [], _, _, _ => []
  | f :: fs, off, len, done =>
    if len = 0 then []
    else if f.len ≤ off then mapRange fs (off - f.len) len done
    else
      let n := min len (f.len - off)
      (f.addr + off, n, done) :: mapRange fs 0 (len - n) (done + n)

/-- The fragments of a command's transfer: its table, or its one direct range. -/
def Cmd.ranges (c : Cmd) : List Frag :=
  if eInd c.entry then c.frags else [⟨eAddr c.entry, eLength c.entry, 1⟩]

/-- Write bytes of a command's transfer to host memory. -/
def Dev.writeXfer (d : Dev) (c : Cmd) (off : Nat) (data : Bytes) : Dev :=
  forEach (mapRange c.ranges off data.length 0)
    (fun x d => d.writeHost c.fn x.1 ((data.drop x.2.2).take x.2.1) true) d

/-- Write a READ's good blocks, and their CRCs with TAGCHK, to the host. -/
def Dev.returnData (d : Dev) (c : Cmd) : Dev :=
  forEach c.results (fun x d => match x.2 with
    | .good data crc =>
      let d := d.writeXfer c (4096 * x.1) (padB blockBytes data)
      if eTagchk c.entry then d.writeHost c.fn (eCrcAddr c.entry + 8 * x.1) (leBytes 8 crc) true else d
    | _ => d) d

/-- The first block offset that a command did not serve. -/
def firstUnserved (c : Cmd) : Nat :=
  if isWriteClass (eOpcode c.entry) then c.persist
  else ((List.range (eCount c.entry)).find? fun o =>
    match Tbl.get? c.results o with | some (.good _ _) => false | _ => true).getD 0

/-- Whether a command ends when its array goes OFFLINE: it runs, and does not merely wait for destages (R93, R96). -/
def endsOffline (c : Cmd) : Bool :=
  match c.stage with
  | .fenced => false
  | .ready => false
  | .assembling => false
  | .waiting => eOpcode c.entry = opFlush && !eFlushAll c.entry
  | _ => !eFlushAll c.entry

/-- Commands that run on an array that has become OFFLINE end (R96); a READ has its blocks so far written to the host, none
where its function may not write now. -/
def Dev.endOffline (d : Dev) (a : Nat) : Dev :=
  forEach (d.qmx.cmds.filter fun c => namesVolume (eOpcode c.entry) && d.volArray (eVolume c.entry) = a && endsOffline c)
    (fun c d =>
      let rd := eOpcode c.entry = opRead && !c.silent
      let d := if rd && d.canDma c.fn then d.returnData c else d
      d.stopCmd c.adm ssOffline
        (if eOpcode c.entry = opFlush || (rd && !d.canDma c.fn) then 0 else firstUnserved c)) d

/-- Recompute an array's loss and state; post ARRAY_DEGRADED while it is not OPTIMAL, ASSEMBLING included (R210), note OFFLINE (R233); `port` is the port of the member
whose change caused it. The event's dw5 carries the lost members cut to its 8 bits (DESIGN CHOICE, log entry 59). -/
def Dev.refreshArr (d : Dev) (a port : Nat) : Dev :=
  let was := d.arrState a
  let lost0 := d.rd (Reg.AR_REDUND_lost.ix a)
  let left0 := d.rd (Reg.AR_REDUND_left.ix a)
  let lost := (d.lostMembers a).length
  let l := d.loss a
  let left := d.rd (Reg.AR_CFG_m.ix a) - l
  let st := d.judgeArr a
  let d := d.wr (Reg.AR_STAT_state.ix a) st |>.wr (Reg.AR_REDUND_lost.ix a) lost |>.wr (Reg.AR_REDUND_l.ix a) l
    |>.wr (Reg.AR_REDUND_left.ix a) left
  let d := if ((lost ≠ lost0 ∨ left ≠ left0) ∨ was = asOptimal) ∧ st ≠ asOptimal ∧ st ≠ asDisabled then
      d.postVolume (d.arrayVfs a) 0x10 3 a (lost % 256 + left * 256) port 0
    else d
  if st = asOffline ∧ was ≠ asOffline then (d.errUncorr .mnt 4).endOffline a else d

/-! ### Labels (R114, R132, R204) -/

/-- Whether a member can take a label write: its drive is on its port. -/
def Dev.memberPresent (d : Dev) (a i : Nat) : Bool :=
  match d.memberPort a i with
  | some p => d.rd (Reg.PT_STAT_state.ix p) = 3 && d.mst a i ≠ msFailed && d.mst a i ≠ msMissing
  | none => false

/-- The label of a member as the live configuration has it. -/
def Dev.labelOf (d : Dev) (a i : Nat) : Label :=
  let g := d.geo a
  let r := d.arr a
  { version := 1, gen := r.labelGen, seed := g.seed, array := a, k := g.k, m := g.m, unit := g.unit,
    g := g.g, s := g.spares, c := g.c, index := i, cycles := r.cycles, created := BitVec.ofNat 64 r.created,
    arrayId := BitVec.ofNat 64 r.arrayId, ident := BitVec.ofNat 64 (Tbl.getD r.recIdents i 0),
    ports := (List.range g.g).map fun j => some (d.labelPort a j),
    idents := (List.range g.g).map fun j => BitVec.ofNat 64 (Tbl.getD r.recIdents j 0) }

/-- The volume table of an array (R113). -/
def Dev.volTable (d : Dev) (a : Nat) : List VolSlot :=
  (d.volumes.filter fun v => d.volArray v = a).map fun v =>
    { volume := v, pf0 := d.rdB (Reg.VD_CFG_pf0.ix v), streamEn := d.rdB (Reg.VD_CFG_stream_en.ix v),
      holdMs := d.rd (Reg.VD_CFG_hold_ms.ix v), access := BitVec.ofNat 64 (d.rd (Reg.VD_ACCESS_vfs.ix v)),
      first := d.rd (Reg.VD_FIRST_first.ix v), stripes := d.rd (Reg.VD_STRIPES_stripes.ix v),
      tagId := d.rd (Reg.VD_TAGID_tag_id.ix v) }

/-- The label copy of a drive that counts (R114): valid, and of two the one with the later generation; `true` for copy B. -/
def pickCopy (x : DriveInfo) : Option (Bool × Label) :=
  match labelIn x.labelA, labelIn x.labelB with
  | some a, some b => if serialBefore a.gen b.gen then some (true, b) else some (false, a)
  | some a, none => some (false, a)
  | none, b => b.map fun l => (true, l)

/-- The label of a drive (R114). -/
def pickLabel (x : DriveInfo) : Option Label := (pickCopy x).map Prod.snd

/-- Change what a drive on a port holds in its reserve. -/
def Dev.updDrive (d : Dev) (p : Nat) (g : DriveInfo → DriveInfo) : Dev :=
  d.updPort p fun s => { s with dev := s.dev.map g }

/-- A member's volume table and then its label are written, the label to the copy that the drive's newest one is not in; a
drive new to the array also gets the zeros of blocks 18 to 4095 (R113, R114). -/
def Dev.writeLabel (d : Dev) (a p : Nat) (l : Label) : Dev :=
  let held := (d.port p).dev.bind pickCopy
  let b := match held with | some (b, _) => !b | none => false
  let vols := volTableBlocks (d.volTable a) a (d.geo a).perStripe
  let block := trimB (labelBytes l)
  let d := if (held.map fun x => x.2.arrayId) = some l.arrayId then d else d.sendBlocks p 18 (List.replicate 4078 [])
  let d := (d.sendBlocks p 2 vols).sendBlocks p (b2n b) [block]
  d.updDrive p fun x => if b then { x with labelB := block, volumes := vols } else { x with labelA := block, volumes := vols }

/-- Both label blocks of a drive are overwritten with zeros (R132). -/
def Dev.eraseLabels (d : Dev) (p : Nat) : Dev :=
  (d.sendBlocks p 0 [[], []]).updDrive p fun x => { x with labelA := [], labelB := [] }

/-- Write the labels of every present member, under a label generation one higher (R114, R204). -/
def Dev.writeLabels (d : Dev) (a : Nat) : Dev :=
  let d := d.updArr a fun r => { r with labelGen := (r.labelGen + 1) % 2 ^ 32 }
  forEach ((List.range (d.memberCount a)).filter (d.memberPresent a))
    (fun i d => d.writeLabel a ((d.memberPort a i).getD 0) (d.labelOf a i)) d

/-- The labels of an array are owed: LABEL_WRITE_DONE writes them and sets labelled (R132). -/
def Dev.oweLabels (d : Dev) (a : Nat) : Dev :=
  let d := d.wr (Reg.AR_STAT_labelled.ix a) 0
  { d with lay := { d.lay with labelsOwed := insertNat a d.lay.labelsOwed } }

/-! ### Volumes and placement (R126, R224) -/

/-- Size of a volume in blocks (R126). -/
def Dev.volBlocks (d : Dev) (v : Nat) : Nat :=
  if d.volExists v then d.rd (Reg.VD_STRIPES_stripes.ix v) * (d.geo (d.volArray v)).perStripe else 0

/-- Whether an array block lies on the target side of a restripe's checkpoint. -/
def Dev.onTarget (d : Dev) (a n : Nat) : Bool :=
  match (d.arr a).restripe with
  | none => false
  | some r =>
    let tg := d.targetGeo a
    let c := n / (tg.spc * tg.perStripe)
    let cur := d.rd (Reg.AR_RS_CUR_cycle.ix a)
    if r.descending then decide (cur < c) else decide (c < cur)

/-- Where a block of a volume lies: stripe, data unit, block within the unit. -/
structure Place where
  t : Nat
  ju : Nat
  b : Nat
  deriving DecidableEq, Repr

/-- translate of R126, with the restripe's two layouts (R224). -/
def Dev.place (d : Dev) (v lba : Nat) : Place :=
  let a := d.volArray v
  let g := d.geo a
  let n := d.rd (Reg.VD_FIRST_first.ix v) * g.perStripe + lba
  let tgt := d.onTarget a n
  let g := if tgt then d.targetGeo a else g
  { t := n / g.perStripe + (if tgt then targetBase else 0), ju := n % g.perStripe / g.dpu, b := n % g.dpu }

/-- The volume and LBA of block b of data unit ju of a stripe; none where no volume holds the stripe. -/
def Dev.blockAt (d : Dev) (a t ju b : Nat) : Option (Nat × Nat) :=
  let g0 := d.geo a
  let g := d.geoAt a t
  let n := stripeNo t * g.perStripe + ju * g.dpu + b
  (d.volumes.find? fun v => d.volArray v = a && decide (d.rd (Reg.VD_FIRST_first.ix v) * g0.perStripe ≤ n) &&
      decide (n < (d.rd (Reg.VD_FIRST_first.ix v) + d.rd (Reg.VD_STRIPES_stripes.ix v)) * g0.perStripe)).map
    fun v => (v, n - d.rd (Reg.VD_FIRST_first.ix v) * g0.perStripe)

/-- The volume that holds a stripe. -/
def Dev.volOfStripe (d : Dev) (a t : Nat) : Option Nat := (d.blockAt a t 0 0).map Prod.fst

/-- The stripes of the old layout that hold a target cycle's array blocks. -/
def Dev.overlapped (d : Dev) (a c : Nat) : List Nat :=
  let g := d.geo a
  let tg := d.targetGeo a
  let lo := c * tg.spc * tg.perStripe
  let hi := (c + 1) * tg.spc * tg.perStripe
  if g.perStripe = 0 then []
  else (List.range (ceilDiv hi g.perStripe - lo / g.perStripe)).map (· + lo / g.perStripe)

/-- The unfinished step of an array's restripe (R223). -/
def Dev.rsStep (d : Dev) (a : Nat) : Option RsStep := (d.arr a).restripe.bind RestripeSt.step

/-- Whether a stripe overlaps the step that an array's restripe is at (R224). -/
def Dev.inStep (d : Dev) (a t : Nat) : Bool :=
  match d.rsStep a with
  | some st => (d.overlapped a st.cycle).contains t
  | none => false

/-- The content that the step buffer holds of a volume block (R224). -/
def Dev.stepBlock (d : Dev) (v lba : Nat) : Option Block :=
  let a := d.volArray v
  match d.rsStep a with
  | some st =>
    let tg := d.targetGeo a
    let n := d.rd (Reg.VD_FIRST_first.ix v) * (d.geo a).perStripe + lba
    let base := st.cycle * tg.spc * tg.perStripe
    if base ≤ n ∧ (d.stripe a (d.place v lba).t).state ≠ ssFresh then st.data[n - base]? else none
  | none => none

/-- The tag id of the volume that holds a stripe (R127). -/
def Dev.tagIdOf (d : Dev) (v : Nat) : Nat := d.rd (Reg.VD_TAGID_tag_id.ix v)

end Sys2Proof.Machine
end

