-- ==== Sys2Proof/Machine/Halo.lean ====
section
/-! DEFINITION. The arithmetic of Halo: interpolation of the profile's tables, the open-circuit voltage and its inverse, the
derating, E_low, the medians of impedance, the filter step (R264 to R277). Quantities are exact rationals; square root and
exponential are Config's. -/

set_option Elab.async false

namespace Sys2Proof

open Sys2Proof.Machine

/-- A rational division whose divisor may be zero (DESIGN CHOICE, log entry 47). -/
def divRat (a b : Rat) : Rat := if b = 0 then Config.zeroDivide (floorRat a) else a / b

/-- Linear interpolation over points with rising abscissas, clamped to the first and last. -/
def interp : List (Rat × Rat) → Rat → Rat
  | [], _ => 0
  | [(_, y)], _ => y
  | (x0, y0) :: (x1, y1) :: rest, x =>
    if x ≤ x0 then y0
    else if x ≤ x1 then y0 + (y1 - y0) * (x - x0) / (x1 - x0)
    else interp ((x1, y1) :: rest) x

/-- Whether the battery section is valid (R265), its checks of magic, version and CRC given by `crcOk`. -/
def BattProfile.ok (b : BattProfile) : Bool :=
  let nt := b.temps.length
  let nr := b.rates.length
  let volt (v : Nat) : Bool := decide (2000 ≤ v ∧ v ≤ 4350)
  b.crcOk && (b.chemistry == 1 || b.chemistry == 2) && decide (1 ≤ b.n ∧ b.n ≤ 4) &&
  decide (500 ≤ b.designMah ∧ b.designMah ≤ 20000) && volt b.vMin && volt b.vMax && volt b.vFull &&
  decide (2 ≤ nt ∧ nt ≤ 8) && decide (2 ≤ nr ∧ nr ≤ 4) && decide (1 ≤ b.tauS ∧ b.tauS ≤ 600) &&
  decide (50 ≤ b.pwmKhz ∧ b.pwmKhz ≤ 500) &&
  (List.range (nt - 1)).all (fun i => decide (b.temps.getD i 0 < b.temps.getD (i + 1) 0)) &&
  (List.range (nr - 1)).all (fun i => decide (b.rates.getD i 0 < b.rates.getD (i + 1) 0)) &&
  (List.range nt).all (fun t => (List.range 20).all fun i =>
    decide ((b.ocv.getD t []).getD i 0 ≤ (b.ocv.getD t []).getD (i + 1) 0)) &&
  (List.range nt).all (fun t => (b.derate.getD t []).all fun p => decide (p.1 ≤ 10000))

/-- OCV at one of the 21 points of SoC, at a temperature in 0.1 °C (clamped to the grid), in mV. -/
def BattProfile.ocvPoint (b : BattProfile) (i : Nat) (temp : Int) : Rat :=
  interp ((List.range b.temps.length).map fun t => ((b.temps.getD t 0 : Rat), ((b.ocv.getD t []).getD i 0 : Rat))) temp

/-- The OCV curve at a temperature: SoC and mV. -/
def BattProfile.curve (b : BattProfile) (temp : Int) : List (Rat × Rat) :=
  (List.range 21).map fun (i : Nat) => (((i : Nat) : Rat) / 20, b.ocvPoint i temp)

/-- OCV in mV per cell (R266). -/
def BattProfile.ocvAt (b : BattProfile) (s : Rat) (temp : Int) : Rat := interp (b.curve temp) s

/-- Slope of the OCV curve at a SoC, mV per unit SoC; at a point of the grid, that of the segment above it. -/
def BattProfile.ocvSlope (b : BattProfile) (s : Rat) (temp : Int) : Rat :=
  let i := min 19 (floorRat (s * 20)).toNat
  (b.ocvPoint (i + 1) temp - b.ocvPoint i temp) * 20

/-- The lowest SoC of a curve at a voltage; none where the voltage lies off the curve. -/
def invOnCurve : List (Rat × Rat) → Rat → Option Rat
  | [], _ => none
  | [(x, y)], v => if v = y then some x else none
  | (x0, y0) :: (x1, y1) :: rest, v =>
    if v = y0 then some x0
    else if y0 < v ∧ v < y1 then some (x0 + (x1 - x0) * (v - y0) / (y1 - y0))
    else invOnCurve ((x1, y1) :: rest) v

/-- OCV⁻¹ (R266): in a flat stretch the lowest SoC of the stretch; off the curve a free value
(DESIGN CHOICE, log entry 47). -/
def BattProfile.ocvInv (b : BattProfile) (v : Rat) (temp : Int) : Rat :=
  (invOnCurve (b.curve temp) v).getD (Config.ocvInvOutside v temp)

/-- u_a of R270: the greater of 1 % and the SoC change that ±5 mV make at that point. -/
def BattProfile.anchorU (b : BattProfile) (v : Rat) (temp : Int) : Rat :=
  let s := b.ocvInv v temp
  max (1 / 100) (max (b.ocvInv (v + 5) temp - s) (s - b.ocvInv (v - 5) temp))

/-- Usable fraction and V_mean (mV) at a temperature (0.1 °C) and a rate (C/100) (R266). -/
def BattProfile.derateAt (b : BattProfile) (temp : Int) (rate : Rat) : Rat × Rat :=
  let lo := b.temps.getD 0 0
  let hi := b.temps.getD (b.temps.length - 1) 0
  let top : Rat := b.rates.getD (b.rates.length - 1) 0
  let row (t : Nat) (sel : Nat × Nat → Nat) : Rat :=
    interp ((List.range b.rates.length).map fun q => ((b.rates.getD q 0 : Rat), (sel ((b.derate.getD t []).getD q (0, 0)) : Rat)))
      rate
  let at_ (sel : Nat × Nat → Nat) : Rat :=
    interp ((List.range b.temps.length).map fun t => ((b.temps.getD t 0 : Rat), row t sel)) temp
  if top < rate ∨ temp < lo ∨ hi < temp ∨ temp < b.dsgLow ∨ b.dsgHigh < temp then (0, at_ Prod.snd)
  else (at_ Prod.fst / 10000, at_ Prod.snd)

/-- E_low in J (R275): SoC, uncertainty, Q_L in mAh, u_Q, T_pack in 0.1 °C, P_dusk in W (DESIGN CHOICE, log entry 47). -/
def BattProfile.eLow (b : BattProfile) (s u : Rat) (qL : Nat) (uQ : Rat) (temp : Int) (pDusk : Nat) : Rat :=
  let rate := divRat (100 * (pDusk : Rat)) ((b.n : Rat) * ((b.vNom : Rat) / 1000) * ((qL : Rat) / 1000))
  let fv := b.derateAt temp rate
  let sLow := max 0 (s - u)
  max 0 (sLow - (1 - fv.1)) * (qL : Rat) * (1 - uQ) * (fv.2 / 1000) * (b.n : Rat) * (36 / 10)

/-- The median of a list of numbers, of an even count the mean of the middle two. -/
def median (xs : List Nat) : Rat :=
  let ys := xs.mergeSort (· ≤ ·)
  let n := ys.length
  if n = 0 then 0
  else if n % 2 = 1 then (ys.getD (n / 2) 0 : Rat)
  else ((ys.getD (n / 2 - 1) 0 : Rat) + (ys.getD (n / 2) 0 : Rat)) / 2

/-- Filtered R_dc (R274): the median, or the latest value held while it exceeds the median by more than 25 %. -/
def filteredRdc (rdcs : List Nat) (held : Option Nat) (fallback : Nat) : Nat × Option Nat :=
  match rdcs with
  | [] => (fallback, none)
  | latest :: _ =>
    let m := median rdcs
    if m * (125 / 100) < (latest : Rat) then (latest, some latest)
    else match held with
      | some h => if (h : Rat) < m then ((roundRat m).toNat, none) else (h, some h)
      | none => ((roundRat m).toNat, none)

/-- One step of the filter of R271: pack current in A, cell voltage in V, temperature in 0.1 °C; `r0` and `rdc` are the
filtered pack values divided by N, in Ω; `d` is the drift per hour as a fraction (DESIGN CHOICE, log entry 47). -/
def Machine.Filt.step (f : Machine.Filt) (b : BattProfile) (qL : Nat) (r0 rdc d : Rat) (both : Bool) (i v : Rat) (temp : Int) : Machine.Filt :=
  let a := Config.expNeg ((1 / 100) / (b.tauS : Rat))
  let qSoc := (d / (1645 / 1000)) * (d / (1645 / 1000)) * (1 / 100) / 3600
  let soc := f.soc + divRat (i * (1 / 100)) ((36 / 10) * (qL : Rat))
  let vrc := a * f.vrc + (1 - a) * (rdc - r0) * i
  let p00 := f.p00 + qSoc
  let p01 := a * f.p01
  let p11 := a * a * f.p11 + 1 / 100000000
  let g := b.ocvSlope soc temp / 1000
  let e := v - (b.ocvAt soc temp / 1000 + r0 * i + vrc)
  let rMeas : Rat := (if both then 1 else 4) * (2 / 1000) * (2 / 1000)
  let s := g * g * p00 + 2 * g * p01 + p11 + rMeas
  let k0 := (g * p00 + p01) / s
  let k1 := (g * p01 + p11) / s
  { soc := max 0 (min 1 (soc + k0 * e)), vrc := vrc + k1 * e,
    p00 := p00 - k0 * (g * p00 + p01), p01 := p01 - k0 * (g * p01 + p11), p11 := p11 - k1 * (g * p01 + p11) }

/-- u of the filter (R271): 1.645 × √p00 (DESIGN CHOICE, log entry 47). -/
def Machine.Filt.u (f : Machine.Filt) : Rat := (1645 / 1000) * Config.sqrtVal f.p00

/-- The filter state on entry: SoC and uncertainty (R271). -/
def filtEntry (soc u : Rat) : Machine.Filt :=
  { soc := soc, vrc := 0, p01 := 0, p11 := (1 / 100) * (1 / 100), p00 := (u / (1645 / 1000)) * (u / (1645 / 1000)) }

end Sys2Proof
end

