-- ==== Sys2Proof/Machine/Ceiling.lean ====
section
/-! DEFINITION. The DRAM groups' space and the Ceiling: regions, dirty amount, admission space wanted, the terms of R172,
the recompute, the admission mode (R150 to R152, R158 to R161, R170 to R174, R282). -/

set_option Elab.async false

namespace Sys2Proof.Machine

/-! ### Space (R125, R151, R152) -/

/-- Stripe metadata of an array in MiB per group (R125). -/
def Dev.metaMib (d : Dev) (a : Nat) : Nat := ceilDiv ((d.geo a).stripes * 9) (4 * 2 ^ 20)

/-- Stripe metadata of all enabled arrays, MiB. -/
def Dev.metaUsed (d : Dev) : Nat := (d.arrays.map d.metaMib).sum

/-- Cache pool of the smaller group in MiB, for a scratch size (R151). -/
def Dev.poolMib (d : Dev) (scratch : Nat) : Nat :=
  d.rd Reg.PWC_POOL_group_gib * 1024 - (d.metaUsed + 256 + 256 + 64 + 130 + 2 + scratch)

/-- Lines of the metadata region of a group, which begins its address space (R151, R180, R181). -/
def Dev.metaLines (d : Dev) : Nat := (d.metaUsed + 256) * 8192

/-- Group state: OK, RETRAIN, FAILED, REJOINING (R177). -/
def Dev.groupState (d : Dev) : Group → Nat
  | .a => d.rd Reg.PWC_STAT_grp_a
  | .b => d.rd Reg.PWC_STAT_grp_b

/-- Write a group's state. -/
def Dev.setGroup (d : Dev) (g : Group) (st : Nat) : Dev :=
  match g with
  | .a => d.wr Reg.PWC_STAT_grp_a st
  | .b => d.wr Reg.PWC_STAT_grp_b st

/-- FAILED (R177). -/
def grFailed : Nat := 2
/-- REJOINING (R177). -/
def grRejoining : Nat := 3

/-- Whether a group holds current copies. -/
def Dev.groupUp (d : Dev) (g : Group) : Bool := decide (d.groupState g < grFailed)

/-- Whether a group is FAILED or REJOINING. -/
def Dev.groupLost (d : Dev) : Bool := !(d.groupUp .a) || !(d.groupUp .b)

/-- Parity blocks and tag blocks in the destage buffer of an intent record. -/
def Dev.bufferExtra (d : Dev) (i : Intent) : Nat :=
  let g := d.geoAt i.array i.t
  (i.blocks.filter fun b => decide (g.k ≤ b.j) || decide (b.row = g.dpu)).length

/-- Blocks of admission space granted and not yet filled (R152). -/
def Dev.grantOpen (d : Dev) : Nat := (d.qmx.cmds.map fun c => c.granted - c.inCache).sum

/-- Blocks in the buffers of unfinished restripe steps (R223). -/
def Dev.stepBlocks (d : Dev) : Nat :=
  (d.lay.arrs.map fun x => match x.2.restripe.bind RestripeSt.step with | some s => s.data.length | none => 0).sum

/-- The dirty amount of the larger group, in bytes (R152, R223). -/
def Dev.dirtyBytes (d : Dev) : Nat :=
  4096 * ((d.dram.cache.filter fun b => b.st ≠ .clean).length + d.grantOpen + (d.dram.intents.map d.bufferExtra).sum +
    d.stepBlocks) + 64 * d.dram.intents.length

/-- Whether the space of a command's i-th block was granted while the Ceiling was 0 (R161). -/
def Cmd.wtSlot (c : Cmd) (i : Nat) : Bool := c.wtGrants.any fun g => decide (g.1 ≤ i) && decide (i < g.1 + g.2)

/-- Blocks of space granted while the Ceiling was 0 and not yet filled (R161). -/
def Dev.wtGrantOpen (d : Dev) : Nat :=
  (d.qmx.cmds.map fun c => ((List.range (c.granted - c.inCache)).filter fun i => c.wtSlot (c.inCache + i)).length).sum

/-- Write-through data: granted or admitted while the Ceiling is 0 and not yet destaged, in bytes (R161). -/
def Dev.wtBytes (d : Dev) : Nat :=
  4096 * ((d.dram.cache.filter fun b => b.wt && b.st ≠ .clean).length + d.wtGrantOpen)

/-! ### What a write-class command sends through the cache (R95, R158) -/

/-- Blocks of the stripe that holds a block of a volume. -/
def Dev.stripeLen (d : Dev) (v lba : Nat) : Nat := (d.geoAt (d.volArray v) (d.place v lba).t).perStripe

/-- A block's offset in its stripe. -/
def Dev.stripeOff (d : Dev) (v lba : Nat) : Nat :=
  let p := d.place v lba
  p.ju * (d.geoAt (d.volArray v) p.t).dpu + p.b

/-- Head and middle of a range: the blocks before the first wholly covered stripe, and those of wholly covered stripes. -/
def Dev.cover (d : Dev) (v lba count : Nat) : Nat × Nat :=
  let headOff := d.stripeOff v lba
  let head := if headOff = 0 then 0 else d.stripeLen v lba - headOff
  let lastOff := d.stripeOff v (lba + count - 1) + 1
  let tail := if lastOff = d.stripeLen v (lba + count - 1) then 0 else lastOff
  if head + tail < count then (head, count - head - tail) else (count, 0)

/-- Blocks that a write-class command passes through the cache before the wholly covered stripes, and the blocks of those
stripes: all of a WRITE, the partly covered stripes of a WRITE_ZEROES, none of a DEALLOCATE. -/
def Dev.segs (d : Dev) (c : Cmd) : Nat × Nat :=
  let e := c.entry
  if eOpcode e = opWrite then (eCount e, 0)
  else if eOpcode e = opWriteZeroes then d.cover (eVolume e) (eLba e) (eCount e)
  else (0, eCount e)

/-- Blocks of a command that need admission space. -/
def Dev.wanted (d : Dev) (c : Cmd) : Nat := eCount c.entry - (d.segs c).2

/-- The offset of the i-th block that a command passes through the cache. -/
def Dev.cacheOff (d : Dev) (c : Cmd) (i : Nat) : Nat := if i < (d.segs c).1 then i else i + (d.segs c).2

/-- The command whose space is granted next: the oldest that waits for space, with the size of its next grant (R158). -/
def Dev.grantNext (d : Dev) : Option (Cmd × Nat) :=
  (d.qmx.cmds.find? fun c => c.stage = .running && isWriteClass (eOpcode c.entry) && c.ending.isNone &&
      decide (c.granted < d.wanted c)).map
    fun c => (c, min 256 (d.wanted c - c.granted))

/-- Whether a grant of n blocks fits now (R158, R161). -/
def Dev.grantFits (d : Dev) (n : Nat) : Bool :=
  let ceil := d.rd Reg.PWC_CEIL_mib
  if ceil = 0 then decide (d.wtBytes + 4096 * n ≤ d.rd Reg.PWC_WT_CFG_window_mib * 2 ^ 20)
  else decide (d.dirtyBytes + 4096 * n ≤ ceil * 2 ^ 20)

/-! ### Admission mode (R160) -/

/-- WRITE_BACK. -/
def pmWriteBack : Nat := 0
/-- PRESSURE. -/
def pmPressure : Nat := 1
/-- STALLED. -/
def pmStalled : Nat := 2
/-- WRITE_THROUGH. -/
def pmWriteThrough : Nat := 3

/-- The mode that R160 gives. -/
def Dev.judgeMode (d : Dev) : Nat :=
  let ceil := d.rd Reg.PWC_CEIL_mib * 2 ^ 20
  let stuck := match d.grantNext with | some (_, n) => !d.grantFits n | none => false
  if ceil = 0 then pmWriteThrough
  else if stuck then pmStalled
  else if ceil * 9 ≤ d.dirtyBytes * 10 then pmPressure
  else if d.rd Reg.PWC_STAT_mode = pmPressure ∧ ceil * 8 ≤ d.dirtyBytes * 10 then pmPressure
  else pmWriteBack

/-- Show the mode; entering STALLED sets stall (R179). -/
def Dev.refreshMode (d : Dev) : Dev :=
  let was := d.rd Reg.PWC_STAT_mode
  let m := d.judgeMode
  let d := d.wr Reg.PWC_STAT_mode m
  if m = pmStalled ∧ was ≠ pmStalled then d.causeBit .pwc 17 else d

/-! ### The Ceiling (R170 to R174) -/

/-- Whether the Dusk section is valid (R321). -/
def duskOk (x : DuskProfile) : Bool :=
  x.crcOk && decide (30 ≤ x.pDusk ∧ x.pDusk ≤ 400) && decide (100 ≤ x.holdMs ∧ x.holdMs ≤ 60000) &&
  decide (1000 ≤ x.vaultMbps ∧ x.vaultMbps ≤ 16000) && [2, 4, 6, 8].contains x.diesPerChannel

/-- The valid Dusk section. -/
def Dev.duskProfile (d : Dev) : Option DuskProfile := d.bps.dusk.filter duskOk

/-- Ceiling_E in MiB (R170). -/
def Dev.ceilE (d : Dev) (x : DuskProfile) (eLow : Rat) : Rat :=
  let margin : Rat := (d.rd Reg.PWC_CEIL_CFG_margin_pct : Rat) / 100
  let perGib := divRat ((x.pDusk : Rat) * 2 ^ 30) ((d.rd Reg.VLT_RATE_mbps : Rat) * 1000000)
  max 0 (divRat (eLow * (1 - margin) - (x.eFixed : Rat)) perGib) * 1024

/-- P_avail in W (R171), from V_ocv and V_min in mV and R in 0.1 mΩ (DESIGN CHOICE, log entry 47). -/
def Dev.pAvail (d : Dev) (vOcv : Nat) : Rat :=
  let vMin := d.rd Reg.BPS_VOLT_v_min
  let r := d.rd Reg.BPS_R_r_dc
  if r = 0 then (Config.powerAtZeroR vOcv vMin : Rat)
  else (vMin : Rat) * ((vOcv : Rat) - (vMin : Rat)) / 1000000 / ((r : Rat) / 10000)

/-- The terms of R172 that hold now, in MiB, for a bound in J and V_ocv. ENERGY and POWER have no value while Halo gives no
bound or the profile lacks P_dusk. -/
def Dev.ceilTerms (d : Dev) (eLow : Rat) (vOcv : Nat) : List (Nat × Rat) :=
  let est := match d.duskProfile with
    | some x =>
      if d.rd Reg.BPS_HALO_STAT_mode = 0 then [(6, 0)]
      else (0, d.ceilE x eLow) :: (if d.pAvail vOcv < (x.pDusk : Rat) * 12 / 10 then [(1, 0)] else [])
    | none => [(6, 0)]
  est ++ [(2, (d.rd Reg.PWC_CEIL_CFG_max_gib : Rat) * 1024), (3, (d.rd Reg.VLT_FREE_bytes : Rat) / 2 / 2 ^ 20),
    (4, 128 * 1024)] ++ (if d.groupLost then [(5, 0)] else []) ++
  (if d.rdB Reg.VLT_STAT_can_seal then [] else [(7, 0)]) ++
  [(8, (d.poolMib (d.rd Reg.PWC_SCRATCH_mib) : Rat) - (d.rd Reg.PWC_WT_CFG_window_mib : Rat))]

/-- The least term, the lower code where two are equal (DEDUCED, log entry 56). -/
def leastTerm (ts : List (Nat × Rat)) : Nat × Rat :=
  match ts with
  | [] => (4, 0)
  | t :: r => r.foldl (fun b x => if x.2 < b.2 ∨ (x.2 = b.2 ∧ x.1 < b.1) then x else b) t

/-- The computed Ceiling: limiting term and whole MiB. -/
def Dev.ceilNow (d : Dev) (eLow : Rat) (vOcv : Nat) : Nat × Nat :=
  let t := leastTerm (d.ceilTerms eLow vOcv)
  (t.1, (floorRat (max 0 t.2)).toNat)

/-- Whether Halo has given an estimate since power-on (R173, R277). -/
def Dev.estimateSeen (d : Dev) : Bool := d.pwc.estimated || decide (d.rd Reg.BPS_HALO_STAT_mode ≠ 0)

/-- What a recompute computes: 0 with ESTIMATE_UNAVAILABLE from power-on until the first estimate (R173), else R172's value
from Halo's published bound (DEDUCED, log entry 56). -/
def Dev.ceilComputed (d : Dev) : Nat × Nat :=
  if d.estimateSeen then d.ceilNow (d.rd Reg.BPS_E_LOW_j) (d.rd Reg.BPS_VOLT_v_ocv) else (6, 0)

/-- Recompute the Ceiling (R170 to R174), show its inputs, post CEILING_CHANGED, and bring the mode up to date
(DEDUCED, log entry 56). -/
def Dev.recompute (d : Dev) : Dev :=
  let eLow : Rat := d.rd Reg.BPS_E_LOW_j
  let vOcv := d.rd Reg.BPS_VOLT_v_ocv
  let now := d.ceilComputed
  let seen := d.estimateSeen
  let ceilE := match d.duskProfile with | some x => (floorRat (d.ceilE x eLow)).toNat | none => 0
  let old := d.rd Reg.PWC_CEIL_mib
  let keep := d.pwc.prevCeil < now.2
  let new := if keep then d.pwc.prevCeil else now.2
  let term := if keep then d.pwc.prevTerm else now.1
  let d := d.wr Reg.PWC_CEIL_E_mib (min ceilE (2 ^ 32 - 1))
    |>.wr Reg.PWC_CEIL_IN_p_avail_w (min 0xFFFF (floorRat (max 0 (d.pAvail vOcv))).toNat)
    |>.wr Reg.PWC_CEIL_IN_p_dusk_w (match d.duskProfile with | some x => x.pDusk | none => 0)
    |>.wr Reg.PWC_CEIL_mib new |>.wr Reg.PWC_CEIL_limit term
  let d := { d with pwc := { d.pwc with prevCeil := now.2, prevTerm := now.1, estimated := seen } }
  let rep := d.pwc.reported
  let far := decide (rep < (max new rep - min new rep) * 10)
  let edge := decide (new ≠ old) && (decide (new = 0) || decide (old = 0))
  let first := !d.pwc.everReported && decide (0 < new)
  let d := if far || edge || first then
      let d := { d with pwc := { d.pwc with reported := new, everReported := true } }
      (d.causeBit .pwc 16).post 0x30 1 new rep term 0
    else d
  let d := if new = 0 ∧ old ≠ 0 then d.causeBit .pwc 18 else d
  d.refreshMode


/-- Whether the Ceiling predicted for the end of a learn cycle lies below the floor (R228, R282); with max_gib 0 it is 0, and
LEARN waits whatever the floor (R178). -/
def Dev.learnFloorMiss (d : Dev) (u uQ : Rat) (qL : Nat) (temp : Int) : Bool :=
  decide (d.rd Reg.PWC_CEIL_CFG_max_gib = 0) ||
  match d.bps.batt, d.duskProfile with
  | some b, some x =>
    let s : Rat := 3 / 10
    let e := b.eLow s u qL uQ temp x.pDusk
    let v := (floorRat ((b.n : Rat) * b.ocvAt (max 0 (s - u)) temp)).toNat
    decide ((d.ceilNow e v).2 < d.rd Reg.PWC_CEIL_CFG_floor_gib * 1024)
  | _, _ => decide (0 < d.rd Reg.PWC_CEIL_CFG_floor_gib)

end Sys2Proof.Machine
end

