-- ==== Sys2Proof/Machine/Charger.lean ====
section
/-! DEFINITION. The operations that battery commands share: profile and temperatures, charger inhibition, Halo's mode and
causes, the state of charge, alarms, and the disqualification of a learn cycle (R263 to R286). -/

set_option Elab.async false

namespace Sys2Proof.Machine

/-- Change BPS state beside its registers. -/
def Dev.updBps (d : Dev) (g : BpsState → BpsState) : Dev := { d with bps := g d.bps }

/-- The battery section, valid together with the calibration section (R265, R292). -/
def Dev.batt (d : Dev) : Option BattProfile :=
  match d.bps.bcal with
  | some c => if c.crcOk then d.bps.batt.filter BattProfile.ok else none
  | none => none

/-- N of the profile; 0 without one. -/
def Dev.cells (d : Dev) : Nat := match d.bps.batt with | some b => b.n | none => 0

/-- T_pack: the lower of the NTC readings not faulted (R262, R263). -/
def Dev.tPack (d : Dev) : Int :=
  let b := d.bps
  if b.ntc0Bad then b.sample.ntc1 else if b.ntc1Bad then b.sample.ntc0 else min b.sample.ntc0 b.sample.ntc1

/-- T_hot: the higher of them. -/
def Dev.tHot (d : Dev) : Int :=
  let b := d.bps
  if b.ntc0Bad then b.sample.ntc1 else if b.ntc1Bad then b.sample.ntc0 else max b.sample.ntc0 b.sample.ntc1

/-- The cell voltages of the profile's cells, in 0.1 mV. -/
def Dev.cellList (d : Dev) : List Int := d.bps.sample.cells.take d.cells
/-- Lowest cell, 0.1 mV. -/
def Dev.cellLow (d : Dev) : Int := (d.cellList.min?).getD 0
/-- Highest cell, 0.1 mV. -/
def Dev.cellHigh (d : Dev) : Int := (d.cellList.max?).getD 0

/-- Whether an ADC is trusted. -/
def Dev.adcOk (d : Dev) (n : Nat) : Bool := if n = 0 then d.rdB Reg.BPS_ADC_adc0_ok else d.rdB Reg.BPS_ADC_adc1_ok
/-- Whether any ADC is trusted. -/
def Dev.anyAdc (d : Dev) : Bool := d.adcOk 0 || d.adcOk 1
/-- Whether the pack is present. -/
def Dev.packHere (d : Dev) : Bool := d.rdB Reg.BPS_PACK_present

/-! ### Charger (R267, R268) -/

/-- Set the charger's PWM duty. -/
def Dev.setDuty (d : Dev) (v : Nat) : Dev :=
  if d.rd Reg.BPS_CHG_STAT_duty = v then d else (d.wr Reg.BPS_CHG_STAT_duty v).emit (.chargePwm v)

/-- Charger states of BPS_CHG_STAT. -/
def chCc : Nat := 1
/-- CV. -/
def chCv : Nat := 2
/-- DONE. -/
def chDone : Nat := 3
/-- FLOAT. -/
def chFloat : Nat := 4
/-- INHIBITED. -/
def chInhibited : Nat := 5

/-- I_chg of the profile. -/
def Dev.iChg (d : Dev) : Nat := match d.batt with | some b => b.iChg | none => 0

/-- Set or clear one inhibition cause (R268): while any holds the duty is 0 and e_prev and i_set are reset; when the last
clears, charging restarts in CC. -/
def Dev.setInhibit (d : Dev) (bit : Nat) (on : Bool) : Dev :=
  let old := d.rd Reg.BPS_CHG_STAT_inhibit
  let new := if on then old ||| 2 ^ bit else old - (if bitOf old bit then 2 ^ bit else 0)
  let d := d.wr Reg.BPS_CHG_STAT_inhibit new
  if new ≠ 0 then
    ((d.setDuty 0).wr Reg.BPS_CHG_STAT_state chInhibited).updBps fun b => { b with ePrev := 0, iSet := d.iChg }
  else if old ≠ 0 then d.wr Reg.BPS_CHG_STAT_state chCc
  else d

/-- The phase of the learn cycle (R279). -/
def Dev.learnPhaseNo (d : Dev) : Nat := d.rd Reg.BPS_LEARN_STAT_phase

/-- Bring the REST cause up to date: a rest window, or learn phases 2 to 4 (R268). -/
def Dev.refreshRest (d : Dev) : Dev :=
  d.setInhibit 2 (d.bps.restWindow || decide (2 ≤ d.learnPhaseNo ∧ d.learnPhaseNo ≤ 4))

/-- Bring the NO_ADC cause up to date (R268). -/
def Dev.refreshNoAdc (d : Dev) : Dev :=
  d.setInhibit 7 (!d.anyAdc || !d.packHere || (d.bps.ntc0Bad && d.bps.ntc1Bad))

/-- Drive BPS_DSG_EN. -/
def Dev.setDsg (d : Dev) (on : Bool) : Dev :=
  if d.sys.dsgEnPin = on then d else ({ d with sys := { d.sys with dsgEnPin := on } } : Dev).emit (.dischargePin on)

/-- Drive BPS_LOAD_STEP. -/
def Dev.setLoadPin (d : Dev) (on : Bool) : Dev :=
  if d.sys.loadStepPin = on then d else ({ d with sys := { d.sys with loadStepPin := on } } : Dev).emit (.loadStepPin on)

/-! ### State of charge (R269 to R271) -/

/-- Halo modes. -/
def hmNone : Nat := 0
/-- TABLE. -/
def hmTable : Nat := 1
/-- FILTER. -/
def hmFilter : Nat := 2

/-- Q_L in mAh. -/
def Dev.qL (d : Dev) : Nat := d.rd Reg.BPS_Q_learned

/-- Charge in mAh of a count in mA·ms. -/
def mahOf (q : Int) : Rat := (q : Rat) / 3600000

/-- s of R270 in TABLE mode. -/
def Dev.tableSoc (d : Dev) : Rat := max 0 (min 1 (d.bps.anchorS + divRat (mahOf d.bps.qc) (d.qL : Rat)))

/-- u of R270 in TABLE mode. -/
def Dev.tableU (d : Dev) : Rat :=
  let hours : Rat := ((d.ticks - d.bps.anchorTick : Nat) : Rat) / ((ticksPerSec : Rat) * 3600)
  d.bps.anchorU + (d.rd Reg.BPS_HALO_CFG_drift : Rat) / 100000 * hours + divRat (mahOf d.bps.qh / 100) (d.qL : Rat)

/-- Whether Halo runs its filter. -/
def Dev.inFilter (d : Dev) : Bool := d.rd Reg.BPS_HALO_STAT_causes ≠ 0

/-- The present SoC. -/
def Dev.socNow (d : Dev) : Rat := if d.inFilter then d.bps.filt.soc else d.tableSoc
/-- The present uncertainty. -/
def Dev.uncNow (d : Dev) : Rat := if d.inFilter then d.bps.filt.u else d.tableU

/-- The mode that R269 and R277 give. -/
def Dev.haloMode (d : Dev) : Nat :=
  if d.bps.firstSecond || d.batt.isNone || !d.packHere || !d.anyAdc || (d.bps.ntc0Bad && d.bps.ntc1Bad) then hmNone
  else if d.inFilter then hmFilter
  else hmTable

/-- Show Halo's mode; a change sets mode_change, and a change to NONE makes PWC recompute at once (R277, R289). -/
def Dev.refreshHalo (d : Dev) : Dev :=
  let was := d.rd Reg.BPS_HALO_STAT_mode
  let m := d.haloMode
  if m = was then d
  else
    let d := (d.wr Reg.BPS_HALO_STAT_mode m).causeBit .bps 18
    if m = hmNone then d.recompute else d

/-- The filter state on entry for a cause (R271): DAWN, GAUGE_RESET and PACK_REPLACED start from the lowest cell's OCV with
10 %; BROWNOUT and ADC_LOSS carry over with at least 10 %; the others carry over. -/
def Dev.filterEntry (d : Dev) (bit : Nat) : Filt :=
  if bit = 0 ∨ bit = 3 ∨ bit = 5 then
    filtEntry (match d.batt with | some b => b.ocvInv ((d.cellLow : Rat) / 10) d.tPack | none => 0) (1 / 10)
  else if bit = 2 ∨ bit = 4 then filtEntry d.socNow (max (1 / 10) d.uncNow)
  else filtEntry d.socNow d.uncNow

/-- Set a cause of R269; the filter starts, or restarts for the causes that begin from OCV. -/
def Dev.setHaloCause (d : Dev) (bit : Nat) : Dev :=
  let old := d.rd Reg.BPS_HALO_STAT_causes
  let f := d.filterEntry bit
  let start := decide (old = 0) || bit = 0 || bit = 3 || bit = 5
  let d := d.wr Reg.BPS_HALO_STAT_causes (old ||| 2 ^ bit)
  (if start then d.updBps fun b => { b with filt := f } else d).refreshHalo

/-- Clear the causes of a mask. -/
def Dev.clearHaloCauses (d : Dev) (mask : Nat) : Dev :=
  let old := d.rd Reg.BPS_HALO_STAT_causes
  (d.wr Reg.BPS_HALO_STAT_causes (old - (old &&& mask))).refreshHalo

/-! ### Alarms (R285) -/

/-- A temperature or other signed figure in an event dword. -/
def signed32 (i : Int) : Nat := codeOf 32 i

/-- Post BATTERY_ALARM for a reason whose condition has begun: not again until it has been absent for 60 s. -/
def Dev.alarm (d : Dev) (reason : Nat) : Dev :=
  if d.bps.alarmOn.contains reason then d
  else
    let recent := match Tbl.get? d.bps.alarms reason with
      | some t => decide (d.ticks < t + 60 * ticksPerSec)
      | none => false
    let d := d.updBps fun b => { b with alarmOn := insertNat reason b.alarmOn }
    if recent then d
    else (d.causeBit .bps 16).post 0x31 3 reason (floorRat (d.uncNow * 1000)).toNat (signed32 d.tPack) 0

/-- The condition of an alarm has ended. -/
def Dev.alarmEnd (d : Dev) (reason : Nat) : Dev :=
  if d.bps.alarmOn.contains reason then
    d.updBps fun b => { b with alarmOn := b.alarmOn.filter (· ≠ reason), alarms := Tbl.put b.alarms reason d.ticks }
  else d

/-- An alarm follows its condition. -/
def Dev.alarmIf (d : Dev) (reason : Nat) (on : Bool) : Dev := if on then d.alarm reason else d.alarmEnd reason

/-! ### The end of a learn cycle by disqualification (R280) -/

/-- Post LEARN_RESULT and record it (R281, R289). -/
def Dev.learnResult (d : Dev) (result mah reason : Nat) : Dev :=
  let d := d.wr Reg.BPS_LEARN_STAT_result result |>.wr Reg.BPS_LEARN_STAT_reason reason
  (d.causeBit .bps 17).post 0x32 1 result mah reason 0

/-- Disqualify a running cycle: DSG_EN is released, the cycle moves to RECHARGE and is requested again 24 h later. In
RECHARGE the result is already decided and nothing happens. -/
def Dev.learnStop (d : Dev) (reason : Nat) : Dev :=
  if 1 ≤ d.learnPhaseNo ∧ d.learnPhaseNo ≤ 4 then
    let d := d.setDsg false
    let d := d.wr Reg.BPS_LEARN_STAT_phase 5
    let t := d.ticks
    let d := d.updBps fun b => { b with learnTick := t + 24 * 3600 * ticksPerSec, phaseTick := t, dsgDuty := 0, dsgPrev := 0 }
    (d.learnResult 3 0 reason).refreshRest
  else d

end Sys2Proof.Machine
end

