-- ==== Sys2Proof/Machine/Walks.lean ====
section
/-! DEFINITION. The rebuild walk of an array: which units it sets out to place, its start and restart, the search for the next
stripe of a pass, what a pass's end leaves of L, and its end (R213 to R217). -/

set_option Elab.async false

namespace Sys2Proof.Machine

/-- A cycle as the walk sees it: geometry, list and the placement of R213. -/
structure CyclePlan where
  c : Nat
  list : List Nat
  placed : Tbl UnitAt

/-- The geometry of a cycle: that of the layout the cycle is in during a restripe (R224). -/
def Dev.cycleGeo (d : Dev) (a c : Nat) : Geo × Nat :=
  match (d.arr a).restripe with
  | none => (d.geo a, 0)
  | some r =>
    let cur := d.rd (Reg.AR_RS_CUR_cycle.ix a)
    if (if r.descending then decide (cur < c) else decide (c < cur)) then (d.targetGeo a, targetBase) else (d.geo a, 0)

/-- The plan of a cycle. -/
def Dev.cyclePlan (d : Dev) (a c : Nat) : CyclePlan :=
  let g := (d.cycleGeo a c).1
  let list := g.cycleList c
  { c := c, list := list, placed := placeSpares g list (d.slotMembers a g.spares) }

/-- Whether the unit (s, j) of a cycle is on the spare entry e (R214). -/
def Dev.entryHolds (d : Dev) (a : Nat) (p : CyclePlan) (e : Nat) (u : UnitAt) : Bool :=
  let r := d.unitRec a (p.list.getD e 0) p.c
  r.holds && r.s = u.1 && r.j = u.2

/-- Units of a cycle that members with ACTIVE slots displace, that R213 places and that are not yet placed. -/
def Dev.toPlace (d : Dev) (a c : Nat) : Nat :=
  let g := (d.cycleGeo a c).1
  let p := d.cyclePlan a c
  (p.placed.filter fun x => d.hasActiveSlot a (layoutMember g p.list x.2.1 x.2.2) && !d.entryHolds a p x.1 x.2).length

/-- Units of a member in a cycle that are not on a spare: 1 where its stripe unit is not placed. -/
def Dev.notPlaced (d : Dev) (a c i : Nat) : Nat :=
  let g := (d.cycleGeo a c).1
  let p := d.cyclePlan a c
  ((List.range (g.spc * g.w)).filter fun q => p.list.getD q 0 = i &&
    !(p.placed.any fun x => x.2 = (q / g.w, q % g.w) && d.entryHolds a p x.1 x.2)).length

/-- Whether R213 places a member's unit of a cycle, if it has one there. -/
def Dev.placeable (d : Dev) (a c i : Nat) : Bool :=
  let g := (d.cycleGeo a c).1
  let p := d.cyclePlan a c
  (List.range (g.spc * g.w)).all fun q =>
    !(p.list.getD q 0 = i : Bool) || p.placed.any fun x => x.2 = (q / g.w, q % g.w)

/-- The members with ACTIVE slots. -/
def Dev.activeMembers (d : Dev) (a : Nat) : List Nat :=
  ((d.slots a).filter fun n => d.slotState a n = slActive).map (d.slotMember a)

/-- Lost members whose units a walk cannot place: those without an ACTIVE slot, and those with a unit R213 does not place. -/
def Dev.beyondWalk (d : Dev) (a : Nat) : List Nat :=
  (d.lostMembers a).filter fun i =>
    !d.hasActiveSlot a i || (List.range (d.arr a).cycles).any fun c => !d.placeable a c i

/-- Start or restart a walk (R215, R217): its passes begin at L_bound, and the units it sets out to place are counted. -/
def Dev.walkStart (d : Dev) (a : Nat) : Dev :=
  let lb := d.lBound a
  let old := (d.arr a).walk
  let planned := ((List.range (d.arr a).cycles).map (d.toPlace a)).sum
  let w : Walk := { pass := lb, cycle := 0, s := 0, planned := planned, placed := 0,
                    recent := [], beganTicks := d.ticks, startTicks := (old.map Walk.startTicks).getD d.ticks, lastPost := 0,
                    stripes := (old.map Walk.stripes).getD 0 }
  let d := d.updArr a fun r => { r with walk := some w, wantL := lb }
  d.wr (Reg.AR_RBLD_running.ix a) 1 |>.wr (Reg.AR_RBLD_pass.ix a) w.pass |>.wr (Reg.AR_RBLD_permille.ix a) 0
    |>.wr (Reg.AR_RBLD_CUR_cycle.ix a) 0

/-- Whether a pass of a walk rebuilds a stripe: none with more than m unavailable units (R215). -/
def Dev.walkWants (d : Dev) (a p c s : Nat) : Bool :=
  let gb := d.cycleGeo a c
  let t := c * gb.1.spc + s + gb.2
  let pl := d.plan a t
  let un := d.unavailable a pl
  decide (un.length = p) && decide (p ≤ gb.1.m) && un.any fun j => match pl.spare.getD j none with
    | some i => d.mst a i = msOk
    | none => false

/-- The first stripe of a pass at or after cycle c, stripe s; `fuel` bounds the stripes visited. -/
def Dev.walkFind (d : Dev) (a p : Nat) : Nat → Nat → Nat → Option (Nat × Nat)
  | 0, _, _ => none
  | fuel + 1, c, s =>
    if (d.arr a).cycles ≤ c then none
    else if (d.cycleGeo a c).1.spc ≤ s then d.walkFind a p fuel (c + 1) 0
    else if d.walkWants a p c s then some (c, s)
    else d.walkFind a p fuel c (s + 1)

/-- Visits that a search over an array may take. -/
def Dev.walkFuel (d : Dev) (a : Nat) : Nat := (d.arr a).cycles * (max (d.geo a).spc (d.targetGeo a).spc + 1) + 1

/-- The port that ARRAY_DEGRADED names when the walk changes the redundancy: that of the member whose units it places, of
several the one with the lowest slot (R210) (DESIGN CHOICE, log entry 59). -/
def Dev.walkPort (d : Dev) (a : Nat) : Nat := ((d.activeMembers a).head?.bind (d.memberPort a)).getD 0

/-- A pass has finished: L falls as R215 says. -/
def Dev.passEnd (d : Dev) (a p : Nat) : Dev :=
  let l := max (p - 1) ((d.geo a).lossBound (d.beyondWalk a))
  (d.updArr a fun r => { r with wantL := l }).refreshArr a (d.walkPort a)

/-- Units of members with ACTIVE slots left unplaced. -/
def Dev.unplaced (d : Dev) (a : Nat) : Nat :=
  ((d.activeMembers a).map fun i => ((List.range (d.arr a).cycles).map fun c => d.notPlaced a c i).sum).sum

/-- The members with ACTIVE slots whose units are all placed. -/
def Dev.allPlaced (d : Dev) (a : Nat) : List Nat :=
  (d.activeMembers a).filter fun i => (List.range (d.arr a).cycles).all fun c => d.notPlaced a c i = 0

/-- A walk ends (R206, R217): REBUILD_DONE with the stripes rebuilt and the seconds elapsed. -/
def Dev.walkEnd (d : Dev) (a : Nat) : Dev :=
  match (d.arr a).walk with
  | none => d
  | some w =>
    let d := d.wr (Reg.AR_RBLD_UNPLACED_units.ix a) (d.unplaced a) |>.wr (Reg.AR_RBLD_running.ix a) 0
      |>.wr (Reg.AR_RBLD_pass.ix a) 0
    let done := d.allPlaced a
    let d := d.updArr a fun r => { r with walk := none, placedAll := done }
    let d := d.refreshArr a (d.walkPort a)
    (d.causeBit .mnt 17).postVolume (d.arrayVfs a) 0x12 1 a w.stripes ((d.ticks - w.startTicks) / ticksPerSec) 0

end Sys2Proof.Machine
end

