-- ==== Sys2Proof/Machine/Arbiter.lean ====
section
/-! DEFINITION. The maintenance arbiter: activity codes, the table of R227, the conditions of R228, and what a request, a
start, a pause, an abort and the end of an activity do (R226 to R229, R347, R408). -/

set_option Elab.async false

namespace Sys2Proof

/-- Activity codes (R226). -/
def Act.code : Act → Nat
  | .rebuild => 1 | .copyback => 2 | .scrub => 3 | .restripe => 4 | .learn => 5 | .calibrate => 6 | .dramRetrain => 7
  | .smcRekey => 8 | .fwActivate => 9 | .driveFw => 10

/-- Whether an activity acts on one array (R226); drive firmware acts on one or on the device. -/
def Act.ofArray : Act → Bool
  | .rebuild => true | .copyback => true | .scrub => true | .restripe => true | .driveFw => true
  | .learn => false | .calibrate => false | .dramRetrain => false | .smcRekey => false | .fwActivate => false

end Sys2Proof

namespace Sys2Proof.Machine

/-- The outcomes of R227: both run, deferred, the running one pauses, the running one aborts, merged, refused. -/
inductive Meet where
  | c | d | p | a | m | r
  deriving DecidableEq, Repr

/-- The table of R227, by requested activity, as a list over the running one in code order. -/
def meetRow : Act → List Meet
  | .rebuild => [.m, .c, .p, .p, .a, .c, .c, .c, .c, .p]
  | .copyback => [.c, .c, .p, .p, .c, .c, .c, .c, .c, .c]
  | .scrub => [.d, .d, .m, .d, .c, .c, .c, .c, .c, .d]
  | .restripe => [.d, .d, .p, .r, .a, .c, .c, .c, .c, .d]
  | .learn => [.d, .c, .c, .d, .m, .c, .c, .c, .c, .d]
  | .calibrate => [.c, .c, .c, .c, .c, .m, .c, .c, .c, .c]
  | .dramRetrain => [.c, .c, .c, .c, .c, .c, .m, .c, .d, .c]
  | .smcRekey => [.c, .c, .c, .c, .c, .c, .c, .m, .d, .c]
  | .fwActivate => [.c, .c, .c, .c, .c, .c, .d, .d, .r, .c]
  | .driveFw => [.d, .c, .p, .d, .d, .c, .c, .c, .c, .r]

/-- The table's entry for a requested and a running activity. -/
def meetTable (req run : Act) : Meet := (meetRow req).getD (run.code - 1) .c

/-- Array number of device-wide activities. -/
def wholeDevice : Nat := 0xFF

/-- What a request for an activity on an array meets in another activity: array activities on different arrays always run
together; the parts of one drive firmware download do not meet each other (DEDUCED, log entry 20). -/
def meets (req : Act) (array : Nat) (x : Activity) : Meet :=
  if req = x.act ∧ array = x.array then meetTable req x.act
  else if req = .driveFw ∧ x.act = .driveFw then .c
  else if array ≠ wholeDevice ∧ x.array ≠ wholeDevice ∧ array ≠ x.array then .c
  else meetTable req x.act

/-- The activities that run. -/
def Dev.running (d : Dev) : List Activity := d.mnt.acts.filter fun x => x.st = .running

/-- Whether an activity runs on an array. -/
def Dev.actRuns (d : Dev) (act : Act) (array : Nat) : Bool := d.running.any fun x => x.act = act && x.array = array

/-- An activity that was requested and has not ended. -/
def Dev.actOf (d : Dev) (act : Act) (array : Nat) : Option Activity :=
  d.mnt.acts.find? fun x => x.act = act && x.array = array

/-- Whether any part of an activity is requested or runs. -/
def Dev.anyAct (d : Dev) (act : Act) : Bool := d.mnt.acts.any fun x => x.act = act

/-- Record an activity's standing. -/
def Dev.setAct (d : Dev) (act : Act) (array : Nat) (st : ActSt) : Dev :=
  if (d.actOf act array).isSome then
    { d with mnt := { d.mnt with acts := d.mnt.acts.map fun x => if x.act = act ∧ x.array = array then { x with st := st } else x } }
  else { d with mnt := { d.mnt with acts := d.mnt.acts ++ [⟨act, array, st⟩] } }

/-- An activity ends. -/
def Dev.actEnd (d : Dev) (act : Act) (array : Nat) : Dev :=
  { d with mnt := { d.mnt with acts := d.mnt.acts.filter fun x => !(x.act = act && x.array = array) } }

/-- MAINT_STARTED (R104, R228). -/
def Dev.postStarted (d : Dev) (act : Act) (array : Nat) : Dev := d.post 0xB0 0 act.code array 0 0

/-- MAINT_DEFERRED with its cause (R104, R227). -/
def Dev.postDeferred (d : Dev) (act : Act) (array blocker : Nat) : Dev :=
  (d.causeBit .mnt 19).post 0xB1 1 act.code array blocker 0

/-- Whether MNT is enabled (R32, R408). -/
def Dev.mntOn (d : Dev) : Bool := d.rdB (Reg.BLK_CTRL_en.ix Blk.mnt.page)

/-! ### Conditions (R228, R347, R408) -/

/-- Whether every enabled array is OPTIMAL. -/
def Dev.allOptimal (d : Dev) : Bool := d.arrays.all fun a => d.arrState a = asOptimal

/-- Whether a condition beside the table keeps an activity from running. -/
def Dev.condHolds (d : Dev) (act : Act) : Bool :=
  decide (d.blkState .ccx = stFault) ||
  (match act with
   | .learn => !d.allOptimal || d.anyAct .restripe || d.pwc.predictedFloorMiss
   | .dramRetrain => d.groupLost || d.vlt.dusk.isSome || decide (d.rd (Reg.BLK_STAT_specific.ix Blk.sys.page) ≠ 5)
   | _ => false)

/-- The running activities that a request meets with a given outcome. -/
def Dev.meeting (d : Dev) (act : Act) (array : Nat) (o : Meet) : List Activity :=
  d.running.filter fun x => !(x.act = act && x.array = array) && meets act array x = o

/-- Whether the arbiter refuses a request (outcome R of R227). -/
def Dev.arbRefuses (d : Dev) (act : Act) (array : Nat) : Bool := d.running.any fun x => meets act array x = .r

/-- The lowest code among activities (DESIGN CHOICE, log entry 21). -/
def leastCode (xs : List Activity) : Option Nat := (xs.map fun x => x.act.code).min?

/-- What keeps an activity from running now: the blocker that MAINT_DEFERRED names. A condition is no activity, and the
spec names no blocker for it: a free value (DESIGN CHOICE, log entry 21). -/
def Dev.blocker (d : Dev) (act : Act) (array : Nat) : Option Nat :=
  if act.ofArray && !d.mntOn then some 0
  else match leastCode (d.meeting act array .d ++ d.meeting act array .r) with
    | some b => some b
    | none => if d.condHolds act then some d.free else none

/-! ### What starting does -/

/-- Entries of the eviction buffer (R189). -/
def evictSlots : Nat := 16

/-- Whether SMC's walker takes the lines with it: it does for an invalidate-all, but in DRAINING the lines stay until the
drain is over (R193, R197). -/
def Dev.walkTakes (d : Dev) : Bool := d.smc.invWalk && decide (d.blkState .smc ≠ stDraining)

/-- The walker goes on in ascending set order while the eviction buffer has room (R189, R193, R197): each dirty line of a set
goes to the buffer, then an invalidate-all invalidates the set's ways. A set it has not reached still hits. `fuel` bounds
the steps (DESIGN CHOICE, log entry 22). -/
def Dev.walkSteps : Nat → Dev → Dev
  | 0, d => d
  | fuel + 1, d =>
    let go (n : Option Nat) : Dev := { d with smc := { d.smc with walkSet := n } }
    match d.smc.walkSet with
    | none => d
    | some i =>
      let takes := d.walkTakes
      match d.smc.sets.find? fun p => decide (i ≤ p.1) && p.2.ways.any fun w => !w.reserved && (takes || w.dirty) with
      | none => go none
      | some (n, s) =>
        match s.ways.find? fun w => w.dirty && !w.reserved with
        | some w =>
          if evictSlots ≤ d.smc.evict.length then go (some n)
          else
            let ways := if takes then s.ways.erase w else s.ways.map fun x => if x = w then { x with dirty := false } else x
            Dev.walkSteps fuel { d with smc := { d.smc with
              evict := d.smc.evict ++ [⟨w.la, w.data⟩], walkSet := some n
              sets := Tbl.putD d.smc.sets n { s with ways := ways } {} } }
        | none =>
          Dev.walkSteps fuel { d with smc := { d.smc with
            walkSet := some (n + 1), sets := Tbl.putD d.smc.sets n { s with ways := s.ways.filter Way.reserved } {} } }

/-- The walker goes on as far as it can. -/
def Dev.smcWalk (d : Dev) : Dev :=
  Dev.walkSteps ((d.smc.sets.map fun p => p.2.ways.length + 1).sum + 1) d

/-- A walk over SMC's sets begins with the lowest one. -/
def Dev.smcWalkFrom0 (d : Dev) : Dev := ({ d with smc := { d.smc with walkSet := some 0 } } : Dev).smcWalk

/-- Invalidate-all is taken up, unless it runs (R193). -/
def Dev.smcInvStart (d : Dev) : Dev :=
  if d.smc.invWalk then d else ({ d with smc := { d.smc with invWalk := true } } : Dev).smcWalkFrom0

/-- A pass of scrub begins (R220). -/
def Dev.scrubBegin (d : Dev) (a : Nat) : Dev :=
  let suspect := ((Tbl.getD d.dram.stripes a []).filter fun p => p.2.state = ssSuspect).map Prod.fst
  (d.updArr a fun r => { r with scrub := some { suspectFirst := suspect } })
    |>.wr (Reg.AR_SCRUB_running.ix a) 1 |>.wr (Reg.AR_SCRUB_paused.ix a) 0 |>.wr (Reg.AR_SCRUB_permille.ix a) 0
    |>.wr (Reg.AR_SCRUB_CUR_stripe.ix a) 0

/-- The effect of an activity's start on the unit it acts on. -/
def Dev.actBegin (d : Dev) (act : Act) (a : Nat) : Dev :=
  match act with
  | .rebuild =>
    if (d.arr a).walkOwed then (d.updArr a fun r => { r with walkOwed := false }).walkStart a else d
  | .copyback => d.wr (Reg.AR_CPBK_running.ix a) 1
  | .scrub => if (d.arr a).scrub.isSome then d.wr (Reg.AR_SCRUB_paused.ix a) 0 else d.scrubBegin a
  | .restripe => d.wr (Reg.AR_RS_STAT_running.ix a) 1
  | .learn => (d.wr Reg.BPS_LEARN_STAT_phase 1).setHaloCause 1
  | .calibrate => d
  | .dramRetrain =>
    ({ d with pwc := { d.pwc with retrainNext := some 0 } } : Dev).wr Reg.PWC_RETRAIN_STAT_running 1
  | .smcRekey => ({ d with smc := { d.smc with rekeyPending := false, rekeyRunning := true } } : Dev).smcInvStart
  | .fwActivate =>
    (({ d with ccx := { d.ccx with fwOp := .activating } } : Dev).wr Reg.CCX_FW_STAT_busy 1).wr Reg.CCX_FW_STAT_op 2
  | .driveFw => d

/-- A running activity pauses for another (R227). -/
def Dev.actPause (d : Dev) (x : Activity) (blocker : Nat) : Dev :=
  let d := d.setAct x.act x.array (.paused blocker)
  let d := if x.act = .scrub then d.wr (Reg.AR_SCRUB_paused.ix x.array) 1 else d
  d.postDeferred x.act x.array blocker

/-- A running activity is aborted (R227, R228): only LEARN is. -/
def Dev.actAbort (d : Dev) (x : Activity) : Dev :=
  let d := d.actEnd x.act x.array
  if x.act = .learn then d.learnStop 8 else d

/-- An activity starts or resumes: those it pauses pause, those it aborts abort (R227, R228). -/
def Dev.actStart (d : Dev) (act : Act) (array : Nat) (deferred : Bool) : Dev :=
  let d := forEach (d.meeting act array .p) (fun x d => d.actPause x act.code) d
  let d := forEach (d.meeting act array .a) (fun x d => d.actAbort x) d
  let d := d.setAct act array .running
  let d := if act = .calibrate && !deferred then d else d.postStarted act array
  d.actBegin act array

/-- One request decided (R227, R228): refused, merged, deferred, or started. -/
def Dev.arbRequest (d : Dev) (act : Act) (array : Nat) : Dev :=
  if d.arbRefuses act array then d
  else if (d.actOf act array).isSome then d
  else match d.blocker act array with
    | some b =>
      let d := if d.condHolds act then d.nextFree else d
      (d.setAct act array (.deferred b)).postDeferred act array b
    | none => d.actStart act array false

/-- A deferred or paused activity starts or resumes when nothing blocks it any longer (R228). -/
def Dev.deferredStart (d : Dev) (act : Act) (array : Nat) : Dev :=
  match d.actOf act array with
  | none => d
  | some x =>
    if x.st = .running ∨ (d.blocker act array).isSome then d
    else if x.act = .learn ∧ d.bps.restWindow then d
    else d.actStart act array true

/-- A rebuild walk is asked for (R215): at once where REBUILD runs, else when it starts. -/
def Dev.askWalk (d : Dev) (a : Nat) : Dev :=
  if d.actRuns .rebuild a then d.walkStart a
  else (d.updArr a fun r => { r with walkOwed := true }).arbRequest .rebuild a

/-- A firmware operation ends with a result (R363). -/
def Dev.fwEnd (d : Dev) (result : Nat) : Dev :=
  let d : Dev := { d with ccx := { d.ccx with fwOp := .idle, fwPicked := none } }
  ((d.wr Reg.CCX_FW_STAT_busy 0).wr Reg.CCX_FW_STAT_result result).causeBit .ccx 20

/-- An activation under way is abandoned (R353, R362), or one that waits is forgotten. -/
def Dev.fwAbandon (d : Dev) : Dev :=
  if d.ccx.fwOp = .activating then ((d.fwEnd 12).errCorr .ccx 6).actEnd .fwActivate wholeDevice
  else { d with ccx := { d.ccx with fwPicked := none } }

/-- An array's members changed (R206, R210, R228): its loss and state are judged again; LEARN aborts while an array is not
OPTIMAL. -/
def Dev.arrChanged (d : Dev) (a port : Nat) : Dev :=
  let d := d.refreshArr a port
  if d.allOptimal then d
  else forEach (d.running.filter fun x => x.act = .learn) (fun x d => d.actAbort x) d

/-- MNT is disabled: every running array activity pauses (R408). -/
def Dev.mntPause (d : Dev) : Dev :=
  forEach (d.running.filter fun x => x.act.ofArray) (fun x d => d.actPause x 0) d

/-- MNT is enabled: the paused activities resume (R408). -/
def Dev.mntResume (d : Dev) : Dev :=
  forEach (d.mnt.acts.filter fun x => x.act.ofArray && x.st ≠ .running)
    (fun x d => d.deferredStart x.act x.array) d

/-- Whether the unit that an activity acts on has use for it. -/
def Dev.requestable (d : Dev) (act : Act) (a : Nat) : Bool :=
  match act with
  | .rebuild => d.arrEn a && (decide (d.activeMembers a ≠ []) || (d.lostMembers a).any fun i => d.mst a i = msCatchup)
  | .copyback => d.arrEn a && (d.lostMembers a).any fun i => d.mst a i = msReplacing
  | .scrub => d.arrEn a
  | .restripe => d.arrEn a && (d.arr a).restripe.isSome
  | .learn => a = wholeDevice && d.batt.isSome && !d.bps.restWindow
  | .calibrate => a = wholeDevice
  | .dramRetrain => a = wholeDevice
  | .smcRekey => a = wholeDevice
  | .fwActivate => a = wholeDevice && d.ccx.fwPicked.isSome
  | .driveFw => d.mnt.dfw.isSome && (a = wholeDevice || d.arrEn a)

/-- Requests of one decision in ascending activity code (R229). -/
def byCode (reqs : List (Act × Nat)) : List (Act × Nat) := reqs.mergeSort fun x y => decide (x.1.code ≤ y.1.code)

/-- The requests of one decision (R229). -/
def Dev.decideAll (d : Dev) (reqs : List (Act × Nat)) : Dev :=
  forEach (byCode reqs) (fun r d =>
    if !d.requestable r.1 r.2 then d
    else if r.1 = .rebuild ∧ d.activeMembers r.2 ≠ [] then d.askWalk r.2
    else d.arbRequest r.1 r.2) d

end Sys2Proof.Machine
end

