-- ==== Sys2Proof/Machine/Cache.lean ====
section
/-! DEFINITION. The cache pool: lookups, the flip of a block, superseded and deallocated blocks, streams and due stripes,
lost blocks and the Deferred Error Table, and the advance of commands that wait for destages (R13 to R16, R93 to R102,
R124, R155, R158 to R163). -/

set_option Elab.async false

namespace Sys2Proof.Machine

/-! ### Lookups (R15, R16) -/

/-- Change the cached blocks. -/
def Dev.updCache (d : Dev) (g : List CBlk → List CBlk) : Dev :=
  { d with dram := { d.dram with cache := g d.dram.cache } }

/-- Change a DRAM record. -/
def Dev.updDram (d : Dev) (g : Dram → Dram) : Dev := { d with dram := g d.dram }

/-- Change LAY state beside its registers. -/
def Dev.updLay (d : Dev) (g : LayState → LayState) : Dev := { d with lay := g d.lay }

/-- Change PWC state beside its registers. -/
def Dev.updPwc (d : Dev) (g : PwcState → PwcState) : Dev := { d with pwc := g d.pwc }

/-! ### Groups and channels (R150, R151, R156) -/

/-- The other group. -/
def otherGroup : Group → Group
  | .a => .b
  | .b => .a

/-- The group of a channel (R150). -/
def groupOf (channel : Nat) : Group := if channel < 6 then .a else .b

/-- First channel of a group. -/
def groupBase : Group → Nat
  | .a => 0
  | .b => 6

/-- A copy of a block in a group. -/
def CBlk.copy (b : CBlk) : Group → Copy
  | .a => b.copyA
  | .b => b.copyB

/-- Write a copy of a block. -/
def CBlk.setCopy (b : CBlk) (g : Group) (x : Copy) : CBlk :=
  match g with
  | .a => { b with copyA := x }
  | .b => { b with copyB := x }

/-- The channel that holds a block's copy in a group. -/
def CBlk.chan (b : CBlk) : Group → Nat
  | .a => b.chA
  | .b => b.chB

/-- The channel of a group that takes the placement with a number; one that is being retrained takes none (R156)
(DESIGN CHOICE, log entry 51). -/
def Dev.placeChannel (d : Dev) (n : Nat) (g : Group) : Nat :=
  let c := Config.poolChannel n (g = .b) % 6
  if d.pwc.retraining = some (groupBase g + c) then groupBase g + (c + 1) % 6 else groupBase g + c

/-- The group of a clean copy (R175): A for even stripes, B for odd ones. -/
def cleanGroup (t : Nat) : Group := if t % 2 = 0 then .a else .b

/-- Whether a block is a clean copy on the channel that is being retrained: it counts as absent (R156). -/
def Dev.hidden (d : Dev) (b : CBlk) : Bool := b.st = .clean && d.pwc.retraining = some (b.chan (cleanGroup b.t))

/-- The group that a read of a block takes (R155, R156): that of a clean copy; of a dirty block, A for even stripes and B for
odd ones, the other one where that copy is missing or its channel is being retrained (DESIGN CHOICE, log entry 51). -/
def Dev.readGroup (d : Dev) (b : CBlk) : Group :=
  let g := cleanGroup b.t
  if b.st ≠ .clean ∧ (b.copy g = .absent ∨ !d.groupUp g ∨ d.pwc.retraining = some (b.chan g)) then otherGroup g else g

/-! ### Copies of a volume block -/

/-- Whether a cached block is a copy of a volume block that reads may see. -/
def CBlk.isAt (b : CBlk) (v lba : Nat) : Bool := b.vol = v && b.lba = lba && !b.gone && b.st ≠ .writing

/-- The latest of some copies in the order of admission. -/
def newestOf (xs : List CBlk) : Option CBlk :=
  xs.foldl (fun o b => match o with | some x => if x.used < b.used then some b else some x | none => some b) none

/-- The copy that a read takes (R15, R16): the newest dirty one before one being destaged before a clean one. -/
def Dev.cached (d : Dev) (v lba : Nat) : Option CBlk :=
  let xs := d.dram.cache.filter fun b => b.isAt v lba && !d.hidden b
  (newestOf (xs.filter fun b => b.st = .dirty)).or
    ((newestOf (xs.filter fun b => b.st = .destaging)).or (xs.find? fun b => b.st = .clean))

/-- A destage is given up: the blocks of its stripe that it carried are dirty again, unless a newer copy (R15) or a
DEALLOCATE (R124) has taken their place. -/
def undestage (a t : Nat) (xs : List CBlk) : List CBlk :=
  let mine (b : CBlk) : Bool := b.array = a && b.t = t && b.st = .destaging
  (xs.filter fun b => !(mine b && (b.gone || xs.any fun x => x.isAt b.vol b.lba && x.st = .dirty))).map fun b =>
    if mine b then { b with st := .dirty } else b

/-- Blocks of a stripe that are dirty and not being destaged. -/
def Dev.dirtyOf (d : Dev) (a t : Nat) : List CBlk :=
  d.dram.cache.filter fun b => b.array = a && b.t = t && b.st = .dirty && !b.gone

/-- Blocks held that are not yet destaged. -/
def CBlk.isOpen (b : CBlk) : Bool := b.st = .dirty || b.st = .destaging

/-- Whether a block is marked lost (R101). -/
def Dev.lostAt (d : Dev) (v lba : Nat) : Bool :=
  (d.stripe (d.volArray v) (d.place v lba).t).lost.any fun m => m.volume = v && m.lba = lba

/-- A block has new content: its mark goes (R101). -/
def Dev.unmark (d : Dev) (v lba : Nat) : Dev :=
  if d.lostAt v lba then
    d.updStripe (d.volArray v) (d.place v lba).t fun r => { r with lost := r.lost.filter fun m => !(m.volume = v && m.lba = lba) }
  else d

/-! ### Advance of commands (R93, R94, R99, R159, R161) -/

/-- Whether the i-th block that a command passed through the cache still waits in it for its destage: the command's own copy,
or a later write's copy that superseded it and is destaged in its place (R13, R93; DEDUCED, log entry 85). -/
def Dev.blkOpen (d : Dev) (c : Cmd) (wtOnly : Bool) (i : Nat) : Bool :=
  d.dram.cache.any fun b => b.vol = eVolume c.entry && b.lba = eLba c.entry + d.cacheOff c i && decide (c.adm ≤ b.adm) &&
    b.isOpen && (b.wt || !wtOnly)

/-- Whether a write completes by destage: a FUA write, or one taken under write-through (R93, R161). -/
def byDestage (c : Cmd) : Bool := eFua c.entry || c.wt

/-- Whether what a command's completion waits for is done: its blocks destaged where it completes by destage, and with FUA
the stripe states written to the members' metadata (R93, R95, R161). -/
def Dev.destaged (d : Dev) (c : Cmd) : Bool :=
  (!byDestage c || !((List.range c.flipped).any (d.blkOpen c false))) &&
  !(d.lay.ops.any fun o => o.client = .unitRec c.adm)

/-- Leading blocks of those flipped that are persistent: in write-through, those destaged (R159, R161). -/
def Dev.persistIdx (d : Dev) (c : Cmd) : Nat := ((List.range c.flipped).takeWhile fun i => !d.blkOpen c true i).length

/-- The prefix in blocks from lba: wholly covered stripes count once every block before them is persistent (R95, R99)
(DESIGN CHOICE, log entry 24). -/
def Dev.prefixOf (d : Dev) (c : Cmd) : Nat :=
  let n := d.persistIdx c
  if (d.segs c).1 ≤ n then n + (d.segs c).2 else n

/-- Bring a command's prefix and its record up to date (R99, R159). -/
def Dev.recount (d : Dev) (adm : Nat) : Dev :=
  match d.cmd? adm with
  | none => d
  | some c =>
    let n := max c.persist (d.prefixOf c)
    if n = c.persist then d
    else
      let d := d.updCmd adm fun c => { c with persist := n }
      d.updRec c.fn adm fun r => { r with state := olStateOf n (eCount c.entry), persist := n }

/-- The volumes a FLUSH covers (R93). -/
def Dev.flushVols (d : Dev) (c : Cmd) : List Nat :=
  if eFlushAll c.entry then d.flushAllVols c.fn else [eVolume c.entry]

/-- Whether a FLUSH waits for a cached block (R93, R94): dirty, of a lower admission number (R11), and in the cache when
the FLUSH began; a block that enters later is not waited for (DESIGN CHOICE, log entry 75). -/
def Dev.flushCovers (d : Dev) (c : Cmd) (b : CBlk) : Bool :=
  b.isOpen && decide (b.adm < c.adm) && decide (b.used ≤ c.cover) && (d.flushVols c).contains b.vol

/-- End a command whose wait is over, or keep it waiting (R93, R94, R161). -/
def Dev.advance (d : Dev) (adm : Nat) : Dev :=
  let d := d.recount adm
  match d.cmd? adm with
  | none => d
  | some c =>
    let op := eOpcode c.entry
    if op = opFlush then
      if c.stage = .waiting ∧ !(d.dram.cache.any (d.flushCovers c)) then
        if c.lostFirst.isNone then d.endCmd adm ssSuccess 0 else d.endCmd adm ssLostWrite c.lostCount
      else d
    else if isWriteClass op ∧ (c.stage = .running ∨ c.stage = .waiting) then
      let n := d.persistIdx c
      let done := decide (n = c.flipped) && d.destaged c
      let fin (st dw3 : Nat) : Dev := match c.lostFirst with
        | some o => d.endCmd adm ssLostWrite o
        | none => d.endCmd adm st dw3
      match c.ending with
      | some (st, dw3) => if c.flipped = c.inCache ∧ done then fin st dw3 else d
      | none =>
        if c.flipped < d.wanted c then d
        else if done then
          fin ssSuccess (if op = opDeallocate then (d.cover (eVolume c.entry) (eLba c.entry) (eCount c.entry)).2 else 0)
        else d.updCmd adm fun c => { c with stage := .waiting }
    else d

/-- Every command that may wait for destages is looked at again. -/
def Dev.recheck (d : Dev) : Dev :=
  forEach ((d.qmx.cmds.filter fun c => c.stage = .running || c.stage = .waiting).map Cmd.adm) (fun a d => d.advance a) d

/-! ### Streams and due stripes (R162, R163) -/

/-- Mark a dirty stripe due. -/
def Dev.makeDue (d : Dev) (a t : Nat) : Dev :=
  d.updLay fun l => { l with due := l.due.map fun r => if r.array = a ∧ r.t = t then { r with due := true } else r }

/-- A block of a stream was admitted into a stripe: the stream's open partial stripe moves, and the one it leaves is due. -/
def Dev.streamTo (d : Dev) (id v a t : Nat) : Dev :=
  match d.lay.streams.find? fun s => s.id = id with
  | none => d.updLay fun l => { l with streams := l.streams ++ [⟨id, v, a, t⟩] }
  | some s =>
    if s.array = a ∧ s.t = t then d
    else (d.makeDue s.array s.t).updLay fun l =>
      { l with streams := l.streams.map fun x => if x.id = id then { x with array := a, t := t } else x }

/-- Whether a dirty stripe is due (R163): full, without stream blocks, of hold time 0, or marked
(DESIGN CHOICE, log entry 25). -/
def Dev.isDue (d : Dev) (r : DueRec) : Bool :=
  let xs := d.dirtyOf r.array r.t
  r.due || decide (xs.length = (d.geoAt r.array r.t).perStripe) || !(xs.any fun b => b.stream.isSome) ||
  xs.any fun b => b.wt || (b.stream.isSome && decide (d.rd (Reg.VD_CFG_hold_ms.ix b.vol) = 0))

/-- A stripe that some rule makes due stays due until its destage (R163). -/
def Dev.noteDue (d : Dev) (a t : Nat) : Dev :=
  d.updLay fun l => { l with due := l.due.map fun r => if r.array = a ∧ r.t = t ∧ d.isDue r then { r with due := true } else r }

/-- Drop the hold records of stripes without dirty blocks, and the streams whose partial stripe is destaged (R162); a WRITE
of the stream that runs keeps it open (DEDUCED, log entry 82). -/
def Dev.tidyDue (d : Dev) : Dev :=
  let held (a t : Nat) : Bool := d.dram.cache.any fun b => b.array = a && b.t = t && b.isOpen && !b.gone
  let due := d.lay.due.filter fun r => decide (d.dirtyOf r.array r.t ≠ [])
  let streams := d.lay.streams.filter fun s => held s.array s.t || d.qmx.cmds.any fun c =>
    eOpcode c.entry = opWrite && eStrm c.entry && eStream c.entry = s.id && eVolume c.entry = s.volume &&
    !([.fenced, .ready, .assembling] : List Stage).contains c.stage && c.ending.isNone && decide (c.flipped < eCount c.entry)
  d.updLay fun l => { l with due := due, streams := streams }

/-! ### Clean copies (R175) -/

/-- Blocks the pool can hold. -/
def Dev.poolBlocks (d : Dev) : Nat := d.poolMib (d.rd Reg.PWC_SCRATCH_mib) * 256

/-- The clean copy used longest ago. -/
def Dev.oldestClean (d : Dev) : Option CBlk :=
  (d.dram.cache.filter fun b => b.st = .clean).foldl
    (fun o b => match o with | some x => if b.used < x.used then some b else some x | none => some b) none

/-- Make room by dropping clean copies; `fuel` bounds them. -/
def Dev.dropClean : Nat → Dev → Dev
  | 0, d => d
  | fuel + 1, d =>
    if d.dram.cache.length < d.poolBlocks then d
    else match d.oldestClean with
      | none => d
      | some b => Dev.dropClean fuel (d.updCache fun xs => xs.erase b)

/-- The next number in the order of admission and use. -/
def Dev.tickUse (d : Dev) : Dev := { d with pwc := { d.pwc with clock := d.pwc.clock + 1 } }

/-- Keep a block read from a member as a clean copy, one read ahead marked so (DESIGN CHOICE, log entry 38). -/
def Dev.keepClean (d : Dev) (v lba : Nat) (data : Block) (crc : Nat) (readAhead : Bool) : Dev :=
  let p := d.place v lba
  let g := cleanGroup p.t
  if d.dram.cache.any (fun b => b.isAt v lba) || !d.groupUp g then d
  else
    let d := (Dev.dropClean 1 d).tickUse
    if d.dram.cache.length < d.poolBlocks then
      let b : CBlk :=
        { vol := v, lba := lba, array := d.volArray v, t := p.t, data := data, crc := crc, zero := false, adm := 0,
          copyA := if g = .a then .good else .absent, copyB := if g = .b then .good else .absent, st := .clean,
          persistent := false, wt := false, fua := false, stream := none, readAhead := readAhead, used := d.pwc.clock
          chA := d.placeChannel d.pwc.clock .a, chB := d.placeChannel d.pwc.clock .b }
      d.updCache fun xs => xs ++ [b]
    else d

/-- Drop every clean copy that a group holds (R157). -/
def Dev.dropCleanOf (d : Dev) (g : Group) : Dev :=
  d.updCache fun xs => xs.filter fun b => !(b.st = .clean && cleanGroup b.t = g)

/-! ### Lost blocks and the Deferred Error Table (R101, R102) -/

/-- MEMBERS_LOST. -/
def rsMembersLost : Nat := 1
/-- REMAP_EXHAUSTED. -/
def rsRemap : Nat := 2
/-- DRAM_BOTH_COPIES. -/
def rsDram : Nat := 3
/-- VAULT_UNREADABLE. -/
def rsVault : Nat := 4

/-- Post DEFERRED_ERROR for an entry to PF0 and the functions of its volume (R101, R104). -/
def Dev.postDet (d : Dev) (e : DetEntry) : Dev :=
  d.postVolume (d.rd (Reg.VD_ACCESS_vfs.ix e.volume)) 0x20 4 e.id (e.volume * 2 ^ 16 + e.lba / 2 ^ 32 % 2 ^ 16)
    (e.lba % 2 ^ 32) e.count

/-- Entries that the table holds at most (R102). -/
def detLimit : Nat := 65536

/-- Enter a run of lost blocks in the table, or count it as overflow (R101, R102). -/
def Dev.addDet (d : Dev) (e : DetEntry) : Dev :=
  if d.dram.det.length < detLimit then
    let e := { e with id := d.dram.detNext }
    (d.updDram fun m => { m with det := m.det ++ [e], detNext := (m.detNext + 1) % 2 ^ 32 }).postDet e
  else d.updDram fun m => { m with overflow := m.overflow ++ [e] }

/-- Contiguous runs of lost blocks of one volume, stripe and command (R101): first block and length. -/
def lostRuns : List CBlk → List (CBlk × Nat)
  | [] => []
  | b :: rest =>
    match lostRuns rest with
    | (x, n) :: more =>
      if x.vol = b.vol ∧ x.t = b.t ∧ x.adm = b.adm ∧ x.lba = b.lba + 1 then (b, n + 1) :: more
      else (b, 1) :: (x, n) :: more
    | [] => [(b, 1)]

/-- Whether a lost block lies in a run (R101). -/
def inRun (x : CBlk × Nat) (b : CBlk) : Bool :=
  b.vol = x.1.vol && b.adm = x.1.adm && decide (x.1.lba ≤ b.lba) && decide (b.lba < x.1.lba + x.2)

/-- What a command that waits for destages learns of lost blocks (R93, R94): a FLUSH, that covered blocks are lost and how
many entries the table takes for them; a write that completes by destage, its first lost block, its own or the one that
superseded it (DESIGN CHOICE, log entry 24). -/
def Dev.tellLoss (d : Dev) (bs : List CBlk) (c : Cmd) : Cmd :=
  if eOpcode c.entry = opFlush then
    let mine := bs.filter (d.flushCovers c)
    if c.stage = .waiting ∧ mine ≠ [] then
      let made := (lostRuns bs).take (detLimit - d.dram.det.length)
      { c with lostFirst := some 0, lostCount := c.lostCount + (made.filter fun x => mine.any (inRun x)).length }
    else c
  else
    let hit (i : Nat) : Bool := bs.any fun b => b.vol = eVolume c.entry && decide (c.adm ≤ b.adm) &&
      b.lba = eLba c.entry + d.cacheOff c i && (b.adm = c.adm && b.wt || byDestage c)
    match if isWriteClass (eOpcode c.entry) then (List.range c.flipped).find? hit else none with
    | some i =>
      let o := d.cacheOff c i
      { c with lostFirst := some (min o (c.lostFirst.getD o)) }
    | none => c

/-- Blocks are lost (R101): they leave the cache and are marked; entries and events follow; commands and FLUSHes that wait
for their destage learn of it. Their commands are looked at again by the caller's recheck. -/
def Dev.loseBlocks (d : Dev) (bs : List CBlk) (reason : Nat) : Dev :=
  let bs := bs.mergeSort fun x y => decide (x.vol < y.vol ∨ (x.vol = y.vol ∧ x.lba ≤ y.lba))
  let d := d.updCache fun xs => xs.filter fun b => !bs.contains b
  let d := forEach bs (fun b d => d.updStripe b.array b.t fun r =>
    { r with lost := r.lost.filter (fun m => !(m.volume = b.vol && m.lba = b.lba)) ++ [⟨b.vol, b.lba, b.adm % 2 ^ 32, b.wts⟩] }) d
  let d := { d with qmx := { d.qmx with cmds := d.qmx.cmds.map (d.tellLoss bs) } }
  forEach (lostRuns bs) (fun x d =>
    d.addDet ⟨0, x.1.vol, x.1.lba, reason, x.2, x.1.adm % 2 ^ 32, x.1.array, d.now⟩) d

/-- After blocks left the cache: hold records, waiting commands and the admission mode follow. -/
def Dev.afterDrain (d : Dev) : Dev := d.tidyDue.recheck.refreshMode

/-- The overflowed run that a freed entry takes: of the fenced volume with the lowest number, the lowest LBA (R102). -/
def Dev.nextOverflow (d : Dev) : Option DetEntry :=
  d.dram.overflow.foldl (fun o e => match o with
    | some x => if e.volume < x.volume ∨ (e.volume = x.volume ∧ e.lba < x.lba) then some e else some x
    | none => some e) none

/-- Refill freed entries (R102); `fuel` bounds them. -/
def Dev.refillDet : Nat → Dev → Dev
  | 0, d => d
  | fuel + 1, d =>
    if d.dram.det.length < detLimit then
      match d.nextOverflow with
      | none => d
      | some e => Dev.refillDet fuel ((d.updDram fun m => { m with overflow := m.overflow.erase e }).addDet e)
    else d

/-- How many unavailable units of a stripe lie on members that cannot come back (R208). -/
def Dev.lostForGood (d : Dev) (a : Nat) (p : Plan) : Nat :=
  ((d.unavailable a p).filter fun j =>
    let st := d.mst a (d.unitMember a p j)
    !(st = msMissing || st = msFwUpdate || st = msCatchup)).length

/-- Whether a stripe's dirty blocks are lost (R164, R208): more than m units unavailable for good. -/
def Dev.stripeDead (d : Dev) (a t : Nat) : Bool :=
  let p := d.plan a t
  decide ((d.geoAt a t).m < d.lostForGood a p)

/-- Dirty blocks of an array's stripes that have lost too many members are lost (R208). -/
def Dev.sweepDead (d : Dev) (a : Nat) : Dev :=
  let dead := (d.dram.cache.filter fun b => b.array = a && b.st = .dirty && !b.gone).filter fun b => d.stripeDead a b.t
  if dead = [] then d else (d.loseBlocks dead rsMembersLost).afterDrain

/-! ### The flip of a block (R159) -/

/-- Whether a stripe is being destaged: a destage is under way or an intent record is open. -/
def Dev.destaging (d : Dev) (a t : Nat) : Bool :=
  d.lay.destages.any (fun x => x.array = a && x.t = t) || d.dram.intents.any fun i => i.array = a && i.t = t

/-- Put the next block of a command into fresh slots of both groups (R159); the time is that of the write (R101)
(DEDUCED, log entry 66). -/
def Dev.putBlock (d : Dev) (c : Cmd) (data : Block) (zero : Bool) : Dev :=
  let v := eVolume c.entry
  let lba := eLba c.entry + d.cacheOff c c.inCache
  let p := d.place v lba
  let d := (Dev.dropClean 1 d).tickUse
  let up (g : Group) : Copy := if d.groupState g = grFailed then .absent else .good
  let b : CBlk :=
    { vol := v, lba := lba, array := d.volArray v, t := p.t, data := data
      crc := if zero then 0 else blockCrc data
      zero := zero, adm := c.adm, copyA := up .a, copyB := up .b, st := .writing
      persistent := false, wt := c.wtSlot c.inCache || decide (d.rd Reg.PWC_CEIL_mib = 0), fua := eFua c.entry
      stream := if eOpcode c.entry = opWrite && eStrm c.entry then some (eStream c.entry) else none
      readAhead := false, used := d.pwc.clock, wts := d.now
      chA := d.placeChannel d.pwc.clock .a, chB := d.placeChannel d.pwc.clock .b }
  (d.updCache fun xs => xs ++ [b]).updCmd c.adm fun c => { c with inCache := c.inCache + 1 }

/-- A stripe is returned to FRESH by a command (R95, R123, R124): its blocks admitted with a lower ASN are discarded unless
their destage has begun, its lost marks go, and a destage under way leaves it FRESH (DEDUCED, log entry 58). -/
def Dev.makeFresh (d : Dev) (adm a t : Nat) : Dev :=
  let busy := d.destaging a t
  let mine (b : CBlk) : Bool := b.array = a && b.t = t && (decide (b.adm < adm) || b.st = .clean)
  let d := d.updCache fun xs => (xs.filter fun b => !(mine b && (b.st = .dirty || b.st = .clean))).map fun b =>
    if mine b && b.st = .destaging then { b with gone := true } else b
  let d := d.updStripe a t fun r => { r with state := ssFresh, lost := [] }
  if busy then d.updLay fun l => { l with freshOwed := (a, t) :: l.freshOwed.filter (· ≠ (a, t)) } else d

/-- The stripes wholly covered by a command, one from each `len` blocks of its middle part; `fuel` bounds them. -/
def Dev.middleStripes (d : Dev) (v : Nat) : Nat → Nat → Nat → List Nat
  | 0, _, _ => []
  | fuel + 1, lba, left =>
    if left = 0 then []
    else
      let n := d.stripeLen v lba
      (d.place v lba).t :: d.middleStripes v fuel (lba + max n 1) (left - max n 1)

end Sys2Proof.Machine
end

