-- ==== Sys2Proof/Machine/Dram.lean ====
section
/-! DEFINITION. The DRAM groups: channel states, the end of a retraining, the loss of a channel, of a group and of both, and
what a DRAM read of a block finds (R155 to R157, R168, R300, R348, R349, R407). -/

set_option Elab.async false

namespace Sys2Proof.Machine

/-! ### Channels -/

/-- Channel states of PWC_CH: OK. -/
def chanOk : Nat := 0
/-- RETRAIN. -/
def chanRetrain : Nat := 1
/-- LOST. -/
def chanLost : Nat := 2
/-- ABSENT. -/
def chanAbsent : Nat := 3

/-- State of a channel. -/
def Dev.chanState (d : Dev) (c : Nat) : Nat := d.rd (Reg.PWC_CH_state.ix c)
/-- Write a channel's state. -/
def Dev.setChan (d : Dev) (c st : Nat) : Dev := d.wr (Reg.PWC_CH_state.ix c) st

/-- Change ECE state beside its registers. -/
def Dev.updEce (d : Dev) (g : EceState → EceState) : Dev := { d with ece := g d.ece }

/-! ### Retraining (R156, R300) -/

/-- The metadata writes held for a channel are applied. -/
def Dev.applyHeld (d : Dev) : Dev :=
  let put (g : Group) (m : Tbl Bytes) : Tbl Bytes :=
    d.pwc.retrainHeld.foldl (fun m x => if x.1 = g then Tbl.put m x.2.1 x.2.2 else m) m
  let d := d.updDram fun m => { m with metaA := put .a m.metaA, metaB := put .b m.metaB }
  d.updPwc fun p => { p with retrainHeld := [] }

/-- The channel under retraining returns to service, with its previous training where the run was cut short. -/
def Dev.retrainReturn (d : Dev) : Dev :=
  match d.pwc.retraining with
  | none => d
  | some c =>
    let d := if d.chanState c = chanRetrain then d.setChan c chanOk else d
    let d := if d.groupState (groupOf c) = 1 then d.setGroup (groupOf c) 0 else d
    (d.applyHeld).updPwc fun p => { p with retraining := none }

/-- A retraining run ends. -/
def Dev.retrainEnd (d : Dev) (count : Bool) : Dev :=
  if d.pwc.retrainNext.isNone then d
  else
    let d := (d.retrainReturn).updPwc fun p => { p with retrainNext := none }
    let d := d.wr Reg.PWC_RETRAIN_STAT_running 0
    let d := if count then d.incSat Reg.PWC_RETRAIN_STAT_runs else d
    d.actEnd .dramRetrain wholeDevice

/-! ### Loss of a group (R157, R349) and of both (R407) -/

/-- Everything that both groups held is lost, and every command ends without a completion (R407). -/
def Dev.loseBoth (d : Dev) : Dev :=
  let d := ((d.setGroup .a grFailed).setGroup .b grFailed).bmeErrAll spScratch 8
  let d := d.updPwc fun p => { p with bothLost := true, rejoining := none }
  let d := forEach (d.running.filter fun x => x.act = .learn) (fun x d => d.actAbort x) d
  let qs := d.qmx.cmds.map Cmd.q ++ d.qmx.fetched.map Fetched.q
  let d := d.dropReads kindIsHostWork
  let d := { d with qmx := { d.qmx with cmds := [], fetched := [] } }
  let d := forEach qs (fun q d => d.drainSq q) d
  let d := d.updDram fun _ => {}
  let d := d.updLay fun l =>
    { l with due := [], freshOwed := [], streams := [], destages := [], ops := [], gathers := [], repairs := [] }
  let d := d.updEce fun e => { e with jobs := [], outs := [] }
  let d := forEach (List.range 256) (fun p d => d.updPort p fun s => { s with queue := [], outst := [] }) d
  let d := forEach d.mnt.acts (fun x d => if x.act = .scrub then d.wr (Reg.AR_SCRUB_running.ix x.array) 0
    else if x.act = .rebuild then d.wr (Reg.AR_RBLD_running.ix x.array) 0
    else if x.act = .copyback then d.wr (Reg.AR_CPBK_running.ix x.array) 0 else d) d
  let d := forEach d.arrays (fun a d => d.updArr a fun r => { r with 
    walk := none, walkOwed := false, scrub := none, restripe := r.restripe.map fun x => { x with step := none } }) d
  let d := (d.wr Reg.MNT_DFW_STAT_running 0).retrainEnd false
  let d : Dev := { d with mnt := { d.mnt with acts := [], dfw := none } }
  let d := ((d.setState .pwc stFault).causeBit .pwc 19).squall .pwc 0x11 0xFFFFFFFF
  d.recompute

/-- A group fails while the other holds current copies (R157, R349): its copies and clean blocks go, blocks not yet flipped go
on as write-through blocks, a retraining ends, the Ceiling is recomputed at once. The stall is a free value within the bound of R341. -/
def Dev.groupFail (d : Dev) (g : Group) : Dev :=
  let d := d.retrainEnd false
  let d := d.setGroup g grFailed
  let d := d.updPwc fun p => { p with rejoining := none }
  let d := onlyIf (g = .a) (fun d => d.bmeErrAll spScratch 8) d
  let d := (d.updCache fun xs => xs.map fun b =>
    if b.st = .clean then b else { b.setCopy g .absent with wt := b.wt || b.st = .writing }).dropCleanOf g
  let d := ((d.causeBit .pwc 19).squall .pwc 0x10 (d.free % 25001)).nextFree
  d.recompute.afterDrain

/-- A channel is lost (R348), and its group with it. -/
def Dev.channelLost (d : Dev) (c : Nat) : Dev :=
  let g := groupOf c
  if d.pwc.bothLost || d.chanState c = chanLost then d
  else
    let d := (d.setChan c chanLost).errUncorr .pwc 6
    let d := if d.pwc.retraining = some c then d.updPwc fun p => { p with retraining := none } else d
    if d.groupState g = grFailed then d
    else if d.groupState g = grRejoining then
      ((d.setGroup g grFailed).updPwc fun p => { p with rejoining := none }).causeBit .pwc 19
    else if d.groupUp (otherGroup g) then d.groupFail g
    else d.loseBoth

/-! ### Bad copies (R155, R168) -/

/-- Errors counted on a channel within the last second make PWC fail it (R348). -/
def Dev.countUncorr (d : Dev) (c : Nat) : Dev :=
  let recent := (Tbl.getD d.pwc.uncorrTimes c []).filter fun t => decide (d.ticks < t + ticksPerSec)
  let times := d.ticks :: recent
  let d := (d.incSat (Reg.PWC_CH_HI_uncorr.ix c)).updPwc fun p => { p with uncorrTimes := Tbl.put p.uncorrTimes c times }
  if 64 ≤ times.length then d.channelLost c else d

/-- Both copies of what an open destage needs are bad (R168): its stripe is SUSPECT, the record is gone, and the blocks that
the destage carried are dirty again, but for those given, which are lost. -/
def Dev.destageBad (d : Dev) (a t : Nat) (lost : List CBlk) : Dev :=
  let d := d.errUncorr .pwc 4
  let d := d.updStripe a t fun r => { r with state := ssSuspect }
  let seqs := (d.dram.intents.filter fun i => i.array = a && i.t = t).map Intent.seq
  let ids := (d.lay.destages.filter fun x => x.array = a && x.t = t).map Destage.id
  let d := d.updLay fun l => { l with
    destages := l.destages.filter fun x => !(x.array = a && x.t = t)
    ops := l.ops.filter fun o => !(ids.any fun i => o.client = .destage i) && !(seqs.any fun i => o.client = .intentWrite i) }
  let d := d.updDram fun m => { m with intents := m.intents.filter fun i => !(i.array = a && i.t = t) }
  let d := d.updCache fun xs => lost ++ undestage a t (xs.filter fun b => !lost.contains b)
  (d.loseBlocks lost rsDram).afterDrain

/-- Both copies of a block are bad (R155, R168). -/
def Dev.bothBad (d : Dev) (b : CBlk) : Dev :=
  if b.st = .destaging then d.destageBad b.array b.t [b]
  else ((d.errUncorr .pwc 4).loseBlocks [b] rsDram).afterDrain

/-- A copy was repaired from the other group (R155): counted on the channel. -/
def Dev.countCorr (d : Dev) (c : Nat) : Dev := (d.incSat (Reg.PWC_CH_corr.ix c)).errCorr .pwc 1

/-- A DRAM read of a block's copy in a group failed: by a codeword (code 2) or by its CRC-64 (code 5) (R155, R179): a clean
copy is dropped, a dirty block is served and repaired from the other group, or lost. -/
def Dev.badCopy (d : Dev) (b : CBlk) (g : Group) (code : Nat) : Dev :=
  let c := b.chan g
  if b.st = .clean then ((d.updCache fun xs => xs.erase b).errUncorr .pwc (if code = 5 then 5 else 3)).countUncorr c
  else if b.copy (otherGroup g) = .good then
    (((d.updCache fun xs => xs.map fun x => if x = b then b.setCopy g .good else x).errUncorr .pwc code).countCorr c).countUncorr c
  else (d.bothBad b).countUncorr c

/-- The DRAM read of the cached copy of a volume block, for a host read or a destage: its codewords and its CRC-64 are
checked (R155). -/
def Dev.dramCheck (d : Dev) (v lba : Nat) : Dev :=
  match d.cached v lba with
  | none => d
  | some b =>
    let g := d.readGroup b
    match b.copy g with
    | .bad => d.badCopy b g 2
    | .wrong => d.badCopy b g 5
    | .good | .absent => d

end Sys2Proof.Machine
end

