-- ==== Sys2Proof/Machine/Io.lean ====
section
/-! DEFINITION. Member operations and their port queues, the tag check of a unit, ECE jobs, and repairs of single units
(R116, R121, R137, R165, R175, R241). -/

set_option Elab.async false

namespace Sys2Proof.Machine

/-! ### Ports -/

/-- Port states (R237): EMPTY. -/
def ptEmpty : Nat := 0
/-- LINKING. -/
def ptLinking : Nat := 1
/-- IDENTIFYING. -/
def ptIdentifying : Nat := 2
/-- READY. -/
def ptReady : Nat := 3
/-- UNSUPPORTED. -/
def ptUnsupported : Nat := 4
/-- FAILED. -/
def ptFailed : Nat := 5
/-- DISABLED. -/
def ptDisabled : Nat := 6
/-- RESETTING. -/
def ptResetting : Nat := 7
/-- LOOPBACK. -/
def ptLoopback : Nat := 8

/-- State of a port. -/
def Dev.ptState (d : Dev) (p : Nat) : Nat := d.rd (Reg.PT_STAT_state.ix p)

/-- Queue depth of a port (R241). -/
def Dev.portDepth (d : Dev) (p : Nat) : Nat :=
  let qd := d.rd (Reg.PT_CFG_qd.ix p)
  let most := match (d.port p).dev with
    | some x => if x.proto = .sas then 128 else if x.ncq then 32 else 1
    | none => 1
  if qd = 0 then most else min qd most

/-- Write a unit record in the table and on the member (R115). -/
def Dev.putRecord (d : Dev) (a member cycle : Nat) (r : UnitRec) : Dev :=
  (d.setUnitRec a member cycle r).sendRecord ((d.memberPort a member).getD 0) cycle r

/-! ### Member operations -/

/-- The operation with a number. -/
def Dev.op? (d : Dev) (id : Nat) : Option MemberOp := d.lay.ops.find? fun o => o.id = id

/-- Change an operation. -/
def Dev.updOp (d : Dev) (id : Nat) (g : MemberOp → MemberOp) : Dev :=
  d.updLay fun l => { l with ops := l.ops.map fun o => if o.id = id then g o else o }

/-- An operation is done with. -/
def Dev.dropOp (d : Dev) (id : Nat) : Dev := d.updLay fun l => { l with ops := l.ops.filter fun o => o.id ≠ id }

/-- Blocks of host reads on their way through the staging buffer (R175). -/
def Dev.stagedBlocks (d : Dev) : Nat :=
  ((d.lay.ops.filter fun o => o.st = .issued && !o.isWrite && !o.bypassed).map fun o => o.rows.length).sum

/-- Blocks the staging buffer holds (R175): 16 MiB. -/
def stagingBlocks : Nat := 4096

/-- Whether an operation touches a block that an outstanding one touches, one of them writing (R241). -/
def Dev.clashes (d : Dev) (o : MemberOp) : Bool :=
  d.lay.ops.any fun x => x.st = .issued && x.port = o.port && x.array = o.array && x.t = o.t && x.j = o.j &&
    (x.isWrite || o.isWrite) && x.rows.any o.rows.contains

/-- Whether a port can be given an operation now. -/
def Dev.canIssue (d : Dev) (p : Nat) (o : MemberOp) : Bool :=
  let s := d.port p
  decide (d.ptState p = ptReady) && s.recovery.isNone && !s.grace && decide (s.outst.length < d.portDepth p) &&
  d.arrAwake o.array && !d.clashes o &&
  (o.isWrite || decide (d.stagedBlocks + o.rows.length ≤ stagingBlocks) || decide (d.stagedBlocks = 0))

/-- First member block of a stripe's unit on its member (R112). -/
def Dev.unitBlock (d : Dev) (o : MemberOp) : Nat :=
  let g := d.geoAt o.array o.t
  g.unit0 (g.cycleOf (stripeNo o.t))

/-- The runs of block rows that one drive command can take: the tag block joins when all lies within 64 blocks (R121). -/
def rowSpans (rows : List Nat) : List (Nat × Nat) :=
  match rows with
  | [] => []
  | r :: rs =>
    let last := rs.getLast?.getD r
    if last + 1 - r ≤ 64 then [(r, last + 1 - r)]
    else
      let body := (r :: rs).dropLast
      let top := body.getLast?.getD r
      [(r, top + 1 - r), (last, 1)]

/-- What goes out to the drive for an operation, in the drive's LBAs (R116). -/
def Dev.sendOp (d : Dev) (o : MemberOp) : Dev :=
  let base := d.unitBlock o
  let n := d.sectors o.port
  match o.client with
  | .unitRec _ => d.sendRecord o.port ((d.geoAt o.array o.t).cycleOf (stripeNo o.t)) (d.recordOf o.array o.t o.j)
  | _ =>
    if o.isWrite then
      forEach (o.rows.zip o.data) (fun x d => d.emit (.driveWrite o.port o.id (n * (base + x.1)) n [x.2])) d
    else forEach (rowSpans o.rows) (fun x d => d.emit (.driveRead o.port o.id (n * (base + x.1)) (n * x.2))) d

/-- Issue the operations that wait on a port, in order (R241); `fuel` bounds them. -/
def Dev.pump : Nat → Nat → Dev → Dev
  | 0, _, d => d
  | fuel + 1, p, d =>
    match (d.port p).queue with
    | [] => d
    | id :: rest =>
      match d.op? id with
      | none => Dev.pump fuel p (d.updPort p fun s => { s with queue := rest })
      | some o =>
        if d.canIssue p o then
          let d := (d.updOp id fun o => { o with st := .issued }).updPort p fun s =>
            { s with
              queue := rest, outst := s.outst ++ [id], partialLink := false
              ledTick := if s.outst = [] then some d.ticks else s.ledTick }
          Dev.pump fuel p (d.sendOp o)
        else d

/-- Issue what a port can take. -/
def Dev.pumpPort (d : Dev) (p : Nat) : Dev := Dev.pump ((d.port p).queue.length + 1) p d

/-- Give a port a new operation on rows of a stripe's unit. -/
def Dev.addOp (d : Dev) (a t j member : Nat) (rows : List Nat) (isWrite : Bool) (data : List Block) (cl : Client) : Dev :=
  match d.memberPort a member with
  | none => d
  | some p =>
    let id := d.lay.nextId
    let o : MemberOp := ⟨id, p, a, member, t, j, rows, isWrite, data, cl, .queued, false, 0, false⟩
    let d := d.updLay fun l => { l with ops := l.ops ++ [o], nextId := id + 1 }
    (d.updPort p fun s => { s with queue := s.queue ++ [id] }).pumpPort p

/-- Read rows of a unit. -/
def Dev.readUnit (d : Dev) (a t j : Nat) (p : Plan) (rows : List Nat) (cl : Client) : Dev :=
  d.addOp a t j (d.unitMember a p j) rows false [] cl

/-- Rows in rising order without repeats. -/
def sortRows (rows : List Nat) : List Nat := rows.foldl (fun l r => insertNat r l) []

/-! ### The tag check of a unit read (R119 to R121, R166) -/

/-- Generations that a read of a stripe accepts: the table's, and an open intent record's (R166). -/
def Dev.gens (d : Dev) (a t : Nat) : List Nat :=
  (d.stripe a t).gen :: ((d.dram.intents.filter fun i => i.array = a && i.t = t).map Intent.gen)

/-- LAY's error code for a verdict (R128): a lost tag block counts as corrupt (R121). -/
def verdictCode : TagVerdict → Nat
  | .misdirected => 2
  | .stale => 3
  | _ => 1

/-- The verdict on block row b of data unit j, read with its tag block. -/
def Dev.judgeRow (d : Dev) (a t j b : Nat) (tb : Block) (data : Block) : TagVerdict :=
  match d.blockAt a t j b with
  | some (v, lba) => checkBlock tb (stripeNo t) b lba (d.tagIdOf v) (d.gens a t) data
  | none => if trailerOk tb (stripeNo t) then .good else .lostTag

/-- Whether a tag block marks a data block as zero (R120, R137). -/
def zeroTag (tb : Block) (t b : Nat) : Bool := trailerOk tb (stripeNo t) && (tagAt tb b).isZero

/-- The table takes an unknown generation from the first tag block with a valid trailer (R320, R352). -/
def Dev.learnGen (d : Dev) (a t : Nat) (tb : Block) : Dev :=
  if (d.stripe a t).genUnknown && trailerOk tb (stripeNo t) then
    match ((List.range (d.geoAt a t).dpu).map (tagAt tb)).find? fun x => !x.isZero with
    | some x => d.updStripe a t fun r => { r with gen := x.gen, genUnknown := false }
    | none => d
  else d

/-- A unit read back: the rows that pass with their content (a zero tag gives zeros), and the rows that fail with LAY's code.
Parity units carry no tags. -/
def Dev.checkUnit (d : Dev) (a t j : Nat) (rows : List Nat) (data : List Block) : List BufBlk × List (Nat × Nat) :=
  let g := d.geoAt a t
  let xs := rows.zip data
  if g.k ≤ j then (xs.map fun x => ⟨j, x.1, x.2⟩, [])
  else
    let tb := (xs.find? fun x => x.1 = g.dpu).map Prod.snd |>.getD []
    let step (st : List BufBlk × List (Nat × Nat)) (x : Nat × Block) : List BufBlk × List (Nat × Nat) :=
      if x.1 = g.dpu then
        if trailerOk tb (stripeNo t) then (st.1 ++ [⟨j, x.1, x.2⟩], st.2) else (st.1, st.2 ++ [(x.1, 1)])
      else match d.judgeRow a t j x.1 tb x.2 with
        | .good => (st.1 ++ [⟨j, x.1, x.2⟩], st.2)
        | .zero => (st.1 ++ [⟨j, x.1, []⟩], st.2)
        | v => (st.1, st.2 ++ [(x.1, verdictCode v)])
    xs.foldl step ([], [])

/-- A tag mismatch was seen (R128). -/
def Dev.tagError (d : Dev) (codes : List (Nat × Nat)) : Dev := if codes = [] then d else d.causeBit .lay 16

/-! ### ECE jobs (R142, R145) -/

/-- Lane states of ECE_LANE_STAT: 2 is FAILED, 3 RETEST. -/
def Dev.laneState (d : Dev) (lane : Nat) : Nat :=
  if lane = 0 then d.rd Reg.ECE_LANE_STAT_enc_state else d.rd Reg.ECE_LANE_STAT_dec_state

/-- Write a lane's state. -/
def Dev.setLane (d : Dev) (lane st : Nat) : Dev :=
  if lane = 0 then d.wr Reg.ECE_LANE_STAT_enc_state st else d.wr Reg.ECE_LANE_STAT_dec_state st

/-- Whether a lane carries jobs. -/
def Dev.laneUp (d : Dev) (lane : Nat) : Bool := decide (d.laneState lane < 2)

/-- Whether ECE is in FAULT: both lanes failed (R145). -/
def Dev.eceDown (d : Dev) : Bool := !d.laneUp 0 && !d.laneUp 1

/-- The lane of a job kind (R142). -/
def JobKind.lane : JobKind → Nat
  | .encode => 0
  | .delta => 0
  | .reencode => 0
  | .decode => 1
  | .syndrome => 1

/-- The lane that carries a kind of job: its own, or the surviving one (R142, R145) (DESIGN CHOICE, log entry 42). -/
def Dev.laneOf (d : Dev) (k : JobKind) : Nat := if d.laneUp k.lane then k.lane else 1 - k.lane

/-- Hand a job to ECE. -/
def Dev.addJob (d : Dev) (j : EceJob) : Dev :=
  (d.updEce fun e => { e with jobs := e.jobs ++ [{ j with id := d.lay.nextId, lane := d.laneOf j.kind }] }).updLay fun l =>
    { l with nextId := l.nextId + 1 }

/-- The contiguous runs of rising rows. -/
def rowRuns : List Nat → List (List Nat)
  | [] => []
  | r :: rs =>
    match rowRuns rs with
    | (x :: xs) :: more => if x = r + 1 then (r :: x :: xs) :: more else [r] :: (x :: xs) :: more
    | more => [r] :: more

/-- The part of a job that lies in some of its rows. -/
def EceJob.cut (j : EceJob) (rows : List Nat) : EceJob :=
  { j with
    rows := rows
    inputs := j.inputs.filter fun b => rows.contains b.row
    fresh := j.fresh.filter fun b => rows.contains b.row
    zeros := j.zeros.filter fun z => rows.contains z.2
    freshZeros := j.freshZeros.filter fun z => rows.contains z.2 }

/-- Hand work to ECE as jobs that cover contiguous block rows each (R142). -/
def Dev.addJobs (d : Dev) (j : EceJob) : Dev := forEach (rowRuns j.rows) (fun rows d => d.addJob (j.cut rows)) d

/-- The inputs that LAY marks as zero, by the tag blocks among them: data positions and rows (R120, R137). -/
def markZeros (k dpu t : Nat) (bs : List BufBlk) : List (Nat × Nat) :=
  let tagOf (j : Nat) : Block := ((bs.find? fun b => b.j = j && b.row = dpu).map BufBlk.data).getD []
  (bs.filter fun b => decide (b.j < k) && decide (b.row < dpu) && zeroTag (tagOf b.j) t b.row).map fun b => (b.j, b.row)

/-! ### Intent records (R165, R168) -/

/-- The lowest destage buffer that no intent record uses. -/
def Dev.freeBuffer (d : Dev) : Nat :=
  ((List.range (d.dram.intents.length + 1)).find? fun i => !(d.dram.intents.any fun x => x.buffer = i)).getD 0

/-- A map of stripe positions: bit j for position j. -/
def posMap (l : List Nat) : Nat := l.foldl (fun n j => n ||| 2 ^ j) 0

/-- What the CRC-32 of an intent record covers (R165). -/
def Intent.body (i : Intent) : Bytes :=
  leBytes 8 (stripeNo i.t) ++ leBytes 1 i.array ++ leBytes 1 i.kind ++ leBytes 2 i.gen ++ leBytes 4 (posMap i.writeMap) ++
  leBytes 4 (posMap i.doneMap) ++ leBytes 4 (posMap i.lostMap) ++ leBytes 4 i.asnLow ++ leBytes 4 i.asnHigh ++
  leBytes 4 i.buffer ++ leBytes 4 i.seq ++ leBytes 8 i.ts ++ leBytes 12 0

/-- The 64 bytes of an intent record (R165). -/
def Intent.bytes (i : Intent) : Bytes := i.body ++ leBytes 4 (crc32 i.body)

/-- Whether a stripe has an open intent record. -/
def Dev.intentOpen (d : Dev) (a t : Nat) : Bool := d.dram.intents.any fun i => i.array = a && i.t = t

/-- The member writes of an intent record at a set of positions, one operation a position, in rising rows (R166 step 4). -/
def Dev.intentWrites (d : Dev) (i : Intent) (at_ : List Nat) : Dev :=
  let p := d.plan i.array i.t
  forEach at_ (fun j d =>
    let bs := i.blocks.filter fun b => b.j = j
    let rows := sortRows (bs.map BufBlk.row)
    let data := rows.map fun r => ((bs.find? fun b => b.row = r).map BufBlk.data).getD []
    d.addOp i.array i.t j (d.unitMember i.array p j) rows true data (.intentWrite i.seq)) d

/-- Open an intent record and start its member writes (R165, R166 steps 3 and 4). -/
def Dev.openIntent (d : Dev) (i : Intent) : Dev :=
  let i := { i with seq := d.dram.intentSeq, buffer := d.freeBuffer, ts := d.now }
  (d.updDram fun m => { m with intents := m.intents ++ [i], intentSeq := (m.intentSeq + 1) % 2 ^ 32 }).intentWrites i i.writeMap |>.refreshMode

/-- Whether a stripe's unit can be written where it lies. -/
def Dev.unitWritable (d : Dev) (a : Nat) (p : Plan) (j : Nat) : Bool := d.canWrite a (d.unitMember a p j) p.c

/-- Carry out a repair under an intent record of kind REPAIR, when the stripe is free (R121, R165). -/
def Dev.doRepair (d : Dev) (r : Repair) : Dev :=
  if r.blocks = [] || !d.unitWritable r.array (d.plan r.array r.t) r.j then d
  else d.openIntent ⟨r.array, r.t, 5, (d.stripe r.array r.t).gen, [r.j], [], [], [], 0, 0, 0, 0, 0, r.blocks, [], false⟩

/-- A repair is wanted: now, or once the stripe's intent record is retired (DESIGN CHOICE, log entry 36). -/
def Dev.repair (d : Dev) (r : Repair) : Dev :=
  if d.destaging r.array r.t then d.updLay fun l => { l with repairs := l.repairs ++ [r] } else d.doRepair r

/-- After a record of a stripe retired: what it wrote needs no repair any more, and the next repair runs. -/
def Dev.nextRepair (d : Dev) (i : Intent) : Dev :=
  let d := d.updLay fun l => { l with repairs := l.repairs.map fun r =>
    if r.array = i.array ∧ r.t = i.t then
      { r with blocks := r.blocks.filter fun b => !(i.blocks.any fun x => x.j = b.j && x.row = b.row) }
    else r }
  match d.lay.repairs.find? fun r => r.array = i.array && r.t = i.t with
  | none => d
  | some r => (d.updLay fun l => { l with repairs := l.repairs.erase r }).repair r

end Sys2Proof.Machine
end

