-- ==== Sys2Proof/Machine/Reads.lean ====
section
/-! DEFINITION. READ and VERIFY: the source of each block, member reads, reconstruction of units from parity, repair of
mismatches, the read deadline, and the end of the command (R16, R91, R94, R121, R175, R176, R211, R351). -/

set_option Elab.async false

namespace Sys2Proof.Machine

/-! ### The end of a READ or VERIFY (R91, R94) -/

/-- Whether every block of a command has its result. -/
def Cmd.allResults (c : Cmd) : Bool := (List.range (eCount c.entry)).all fun o => (Tbl.get? c.results o).isSome

/-- Status of a block that was not served. -/
def BlkRes.status : BlkRes → Nat
  | .good _ _ => ssSuccess
  | .unrec => ssUnrecoverable
  | .lost => ssLostWrite
  | .offline => ssOffline

/-- The first block not served: its offset and the status it gives. -/
def Cmd.firstBad (c : Cmd) : Option (Nat × Nat) :=
  ((List.range (eCount c.entry)).find? fun o => match Tbl.get? c.results o with | some (.good _ _) => false | _ => true).map
    fun o => (o, ((Tbl.get? c.results o).map BlkRes.status).getD ssUnrecoverable)

/-- End a READ or VERIFY all of whose blocks have a result; a READ that may not write to the host now waits (R61). -/
def Dev.finishRead (d : Dev) (adm : Nat) : Dev :=
  match d.cmd? adm with
  | none => d
  | some c =>
    let rd := eOpcode c.entry = opRead
    if c.stage ≠ .running || !c.allResults || (rd && !c.silent && !d.canDma c.fn) then d
    else
      let d := if rd && !c.silent then d.returnData c else d
      match c.firstBad with
      | some (o, st) => d.endCmd adm st o
      | none =>
        if rd then d.endCmd adm (if c.recovered then ssRecovered else ssSuccess) c.recon
        else d.endCmd adm (if c.rewrites = 0 then ssSuccess else ssRecovered) c.rewrites

/-- Reads that waited for the host go on (R61). -/
def Dev.resumeReads (d : Dev) : Dev := forEach (d.qmx.cmds.map Cmd.adm) (fun a d => d.finishRead a) d

/-- Give one block of a READ or VERIFY its result. -/
def Dev.setResult (d : Dev) (adm o : Nat) (r : BlkRes) : Dev :=
  d.updCmd adm fun c => { c with results := Tbl.put c.results o r }

/-- The offset in a command of block row b of a stripe's data unit; none where the command does not cover it. -/
def Dev.offsetOf (d : Dev) (c : Cmd) (a t j b : Nat) : Option Nat :=
  match d.blockAt a t j b with
  | some (v, lba) => if v = eVolume c.entry ∧ eLba c.entry ≤ lba ∧ lba < eLba c.entry + eCount c.entry
      then some (lba - eLba c.entry) else none
  | none => none

/-- Whether a command's member data is kept as clean copies (R175). -/
def Dev.keeps (d : Dev) (c : Cmd) (a : Nat) : Bool :=
  eOpcode c.entry = opRead && d.rdB (Reg.AR_POLICY_cache_on_read.ix a) && decide (eHint c.entry ≠ 3)

/-- A block read ahead is kept as a clean copy, released after its first read (R175). -/
def Dev.keepAhead (d : Dev) (a t j b : Nat) (data : Block) : Dev :=
  match d.blockAt a t j b with
  | some (v, lba) => if d.lostAt v lba then d else d.keepClean v lba data (blockCrc data) true
  | none => d

/-- A block read from a member or rebuilt reaches its command. -/
def Dev.giveBlock (d : Dev) (adm a t j b : Nat) (data : Block) : Dev :=
  match d.cmd? adm with
  | none => d
  | some c =>
    match d.offsetOf c a t j b with
    | none => d
    | some o =>
      let crc := blockCrc data
      let d := d.setResult adm o (.good data crc)
      if d.keeps c a then d.keepClean (eVolume c.entry) (eLba c.entry + o) data crc false else d

/-- Blocks of a unit that cannot be served. -/
def Dev.failRows (d : Dev) (adm a t j : Nat) (rows : List Nat) (r : BlkRes) : Dev :=
  match d.cmd? adm with
  | none => d
  | some c => forEach (rows.filterMap (d.offsetOf c a t j)) (fun o d => d.setResult adm o r) d

/-! ### Reconstruction (R121, R140, R211) -/

/-- The available positions of a stripe in the order of R140, some left out. -/
def Dev.usable (d : Dev) (a : Nat) (p : Plan) (lost : List Nat) : List Nat :=
  (List.range p.w).filter fun j => !lost.contains j && d.available a p j

/-- A block that was read but failed could not be repaired (R121). -/
def Dev.unrepaired (d : Dev) (a n : Nat) : Dev :=
  forEach (List.replicate n ()) (fun _ d => (d.incSat (Reg.AR_TAG_UNREP_count.ix a)).errUncorr .lay 4) d

/-- Reads of a reconstruction: rows and the tag row of the given positions. -/
def Dev.gatherReads (d : Dev) (g : Gather) (at_ : List Nat) : Dev :=
  let p := d.plan g.array g.t
  let rows := sortRows (g.rows ++ [(d.geoAt g.array g.t).dpu])
  forEach at_ (fun j d => d.readUnit g.array g.t j p rows (.gather g.id)) d

/-- A reconstruction fails: its blocks cannot be reconstructed (R121, R128). -/
def Dev.gatherFail (d : Dev) (g : Gather) : Dev :=
  let d := (d.updLay fun l => { l with gathers := l.gathers.filter fun x => x.id ≠ g.id }).unrepaired g.array g.rows.length
  match g.client with
  | .hostRead adm | .verify adm => (d.failRows adm g.array g.t (g.lost.getD 0 0) g.rows .unrec).finishRead adm
  | _ => d

/-- The positions of a stripe whose member a read has bypassed (R176). -/
def Dev.slowAt (d : Dev) (a t : Nat) : List Nat :=
  ((d.lay.ops.filter fun x => x.array = a && x.t = t && x.bypassed).map MemberOp.j).eraseDups

/-- Start rebuilding rows of unit j for a command: k other units are read (R211). `codes` are the rows whose tags failed,
`tb` the unit's tag block where it was good. Fails where more than m units are out, or ECE is in FAULT (R351). -/
def Dev.startGather (d : Dev) (cl : Client) (a t j : Nat) (rows : List Nat) (codes : List (Nat × Nat)) (medium : Bool)
    (tb : Option Block) : Dev :=
  let geo := d.geoAt a t
  let p := d.plan a t
  let rows := rows.filter (· ≠ geo.dpu)
  let want := (d.usable a p (j :: d.slowAt a t)).take geo.k
  let g : Gather :=
    { id := d.lay.nextId, client := cl, array := a, t := t, rows := rows, lost := [j], want := want
      got := match tb with | some x => [⟨j, geo.dpu, x⟩] | none => []
      rewrite := medium || decide (codes ≠ []), medium := medium, codes := codes }
  let d := d.updLay fun l => { l with nextId := l.nextId + 1, gathers := l.gathers ++ [g] }
  if want.length < geo.k || d.eceDown then d.gatherFail g else d.gatherReads g want

/-- Once every unit wanted is there, ECE decodes (R140). -/
def Dev.gatherReady (d : Dev) (id : Nat) : Dev :=
  match d.lay.gathers.find? fun g => g.id = id with
  | none => d
  | some g =>
    let geo := d.geoAt g.array g.t
    if g.want.all fun j => g.got.any fun b => b.j = j then
      let inputs := g.got.filter fun b => g.want.contains b.j
      d.addJobs { id := 0, kind := .decode, lane := 1, array := g.array, t := g.t, k := geo.k, m := geo.m,
                  rows := sortRows (g.rows ++ [geo.dpu]), inputs := inputs, fresh := [],
                  lost := (List.range geo.w).filter fun j => !g.want.contains j && (decide (j < geo.k) || g.lost.contains j),
                  parityRows := [], client := .gather id, zeros := markZeros geo.k geo.dpu g.t inputs }
    else d

/-- A unit of a reconstruction was read, or could not be: then another one takes its place (R211). -/
def Dev.gatherGot (d : Dev) (id j : Nat) (good : List BufBlk) (bad : Bool) : Dev :=
  match d.lay.gathers.find? fun g => g.id = id with
  | none => d
  | some g =>
    if bad then
      let lost := g.lost ++ [j]
      let p := d.plan g.array g.t
      let next := (d.usable g.array p (lost ++ g.want ++ d.slowAt g.array g.t)).head?
      match next with
      | none => d.gatherFail g
      | some x =>
        let g' := { g with lost := lost, want := (g.want.filter (· ≠ j)) ++ [x] }
        (d.updLay fun l => { l with gathers := l.gathers.map fun y => if y.id = id then g' else y }).gatherReads g' [x]
    else
      (d.updLay fun l => { l with gathers := l.gathers.map fun y => if y.id = id then { y with got := y.got ++ good } else y })
        |>.gatherReady id

/-- Count one repaired mismatch (R121, R128). -/
def Dev.countRepair (d : Dev) (a code : Nat) : Dev :=
  let d := if code = 1 then d.incSat (Reg.AR_TAG_CRC_count.ix a)
    else if code = 2 then d.incSat (Reg.AR_TAG_MISDIR_count.ix a) else d.incSat (Reg.AR_TAG_STALE_count.ix a)
  d.errCorr .lay code

/-- A decoded unit comes back: each block that passes its tag is served to the command, and a mismatch or medium error is
repaired on the member; one that fails its tag is counted (R121, R211). -/
def Dev.gatherDone (d : Dev) (id : Nat) (out : List BufBlk) : Dev :=
  match d.lay.gathers.find? fun g => g.id = id with
  | none => d
  | some g =>
    let d := d.updLay fun l => { l with gathers := l.gathers.filter fun x => x.id ≠ id }
    let a := g.array
    let t := g.t
    let j := g.lost.getD 0 0
    let dpu := (d.geoAt a t).dpu
    let own := (g.got.find? fun b => b.j = j && b.row = dpu).map BufBlk.data
    let tb := own.getD (((out.find? fun b => b.j = j && b.row = dpu).map BufBlk.data).getD [])
    let p := d.plan a t
    let mine := g.rows.map fun r => (r, ((out.find? fun b => b.j = j && b.row = r).map BufBlk.data).getD [])
    let good (x : Nat × Block) : Bool := (d.judgeRow a t j x.1 tb x.2).ok
    let ok := mine.filter good
    let bad := (mine.filter fun x => !good x).map Prod.fst
    let zero (r : Nat) : Bool := d.judgeRow a t j r tb [] = .zero
    let fixed := g.rewrite && d.unitWritable a p j && d.available a p j
    let blocks := ok.map (fun x => (⟨j, x.1, x.2⟩ : BufBlk)) ++ (if own.isSome then [] else [⟨j, dpu, tb⟩])
    let d : Dev := match g.client with
      | .hostRead adm | .verify adm =>
        let d := forEach ok (fun x d => d.giveBlock adm a t j x.1 (if zero x.1 then [] else x.2)) d
        let d := d.failRows adm a t j bad .unrec
        d.updCmd adm fun c => { c with
          rc := c.rc || decide (ok ≠ []), recon := c.recon + ok.length
          recovered := c.recovered || (g.rewrite && decide (ok ≠ []))
          rewrites := c.rewrites + (if fixed then ok.length else 0) }
      | .readAhead => forEach ok (fun x d => d.keepAhead a t j x.1 (if zero x.1 then [] else x.2)) d
      | _ => d
    let d := if g.rewrite then forEach (ok.filterMap fun x => Tbl.get? g.codes x.1) (fun c d => d.countRepair a c) d else d
    let d := d.unrepaired a bad.length
    let d := if fixed && decide (ok ≠ []) then d.repair ⟨a, t, j, blocks⟩ else d
    match g.client with
    | .hostRead adm | .verify adm => d.finishRead adm
    | _ => d

/-- A source unit of a reconstruction failed its own check: it is rebuilt and rewritten too, once (R121). -/
def Dev.repairUnit (d : Dev) (a t j : Nat) (rows : List Nat) (codes : List (Nat × Nat)) (medium : Bool) (tb : Option Block) :
    Dev :=
  if d.lay.gathers.any (fun g => g.array = a && g.t = t && g.lost.head? = some j && g.rewrite) ||
      d.lay.repairs.any (fun r => r.array = a && r.t = t && r.j = j) || decide ((d.geoAt a t).k ≤ j) then d
  else d.startGather .repair a t j rows codes medium tb

/-! ### Starting a READ or VERIFY (R16, R91) -/

/-- Data units that hold blocks of a volume, with the rows wanted of each. -/
def Dev.unitsOf (d : Dev) (v : Nat) (lbas : List Nat) : List ((Nat × Nat) × List Nat) :=
  lbas.foldl (fun l x =>
    let p := d.place v x
    if l.any fun x => x.1 = (p.t, p.ju) then l.map fun x => if x.1 = (p.t, p.ju) then (x.1, x.2 ++ [p.b]) else x
    else l ++ [((p.t, p.ju), [p.b])]) []

/-- What R16 gives a block without reading a member; none where a member must be read. -/
def Dev.blockNow (d : Dev) (v lba : Nat) : Option BlkRes :=
  match d.cached v lba with
  | some b => some (.good b.data b.crc)
  | none =>
    if d.lostAt v lba then some .lost
    else if (d.stepBlock v lba).isSome then (d.stepBlock v lba).map fun x => .good (trimB x) (blockCrc x)
    else if (d.stripe (d.volArray v) (d.place v lba).t).state = ssFresh then some (.good [] 0)
    else none

/-- A clean copy that is read becomes the most recently used; a copy read ahead is released (R175)
(DESIGN CHOICE, log entry 38). -/
def Dev.touchClean (d : Dev) (v lba : Nat) : Dev :=
  let d := d.tickUse
  d.updCache fun xs => (xs.filter fun b => !(b.isAt v lba && b.st = .clean && b.readAhead)).map fun b =>
    if b.isAt v lba && b.st = .clean then { b with used := d.pwc.clock } else b

/-- A READ with hint SEQUENTIAL that reads its members also reads ahead the stripe after its last block: the blocks that no
copy, mark or FRESH stripe answers, from members that can be read (R91, R175) (DESIGN CHOICE, log entry 38). -/
def Dev.readAhead (d : Dev) (c : Cmd) : Dev :=
  let v := eVolume c.entry
  let a := d.volArray v
  let last := eLba c.entry + eCount c.entry - 1
  let first := last + d.stripeLen v last - d.stripeOff v last
  if eHint c.entry ≠ 1 || decide (d.volBlocks v ≤ first) then d
  else
    let far := ((List.range (d.stripeLen v first)).map (first + ·)).filter fun x => (d.blockNow v x).isNone
    forEach (d.unitsOf v far) (fun u d =>
      let t := u.1.1
      let p := d.plan a t
      if d.available a p u.1.2 then d.readUnit a t u.1.2 p (sortRows (u.2 ++ [(d.geoAt a t).dpu])) .readAhead else d) d

/-- Each block of a READ or VERIFY is served from PWC, as zeros, or from its member, or it is rebuilt (R16, R91, R94). -/
def Dev.serveRead (d : Dev) (adm : Nat) : Dev :=
  match d.cmd? adm with
  | none => d
  | some c =>
    let v := eVolume c.entry
    let a := d.volArray v
    let cl : Client := if eOpcode c.entry = opRead then .hostRead adm else .verify adm
    let d := d.updCmd adm fun c => { c with stage := .running }
    let offs := List.range (eCount c.entry)
    let far := offs.filter fun o => (d.blockNow v (eLba c.entry + o)).isNone
    let d := if far = [] then d else d.waitsFor adm a
    let d := forEach offs (fun o d => match d.blockNow v (eLba c.entry + o) with
      | some r => (d.setResult adm o r).touchClean v (eLba c.entry + o)
      | none => d) d
    let d := forEach (d.unitsOf v (far.map (eLba c.entry + ·))) (fun u d =>
      let t := u.1.1
      let j := u.1.2
      let p := d.plan a t
      if d.available a p j then d.readUnit a t j p (sortRows (u.2 ++ [(d.geoAt a t).dpu])) cl
      else d.startGather cl a t j u.2 [] false none) d
    let d := if eOpcode c.entry = opRead ∧ far ≠ [] then d.readAhead c else d
    d.finishRead adm

/-- READ or VERIFY starts: the copies that the cache holds are read and checked (R155), and the blocks are served; the
request wakes LAY and PWC (R37). -/
def Dev.startRead (d : Dev) (adm : Nat) : Dev :=
  match d.cmd? adm with
  | none => d
  | some c =>
    (forEach (List.range (eCount c.entry)) (fun o d => d.dramCheck (eVolume c.entry) (eLba c.entry + o))
      ((d.ungate .lay).ungate .pwc)).serveRead adm

/-- A member read of a READ or VERIFY has ended. -/
def Dev.hostReadDone (d : Dev) (o : MemberOp) (adm : Nat) : Dev :=
  let a := o.array
  let dpu := (d.geoAt a o.t).dpu
  if o.bypassed then d
  else if o.st = .done then
    let d := d.learnGen a o.t ((o.rows.zip o.data).find? (fun x => x.1 = dpu) |>.map Prod.snd |>.getD [])
    let x := d.checkUnit a o.t o.j o.rows o.data
    let d := d.tagError x.2
    let d := forEach (x.1.filter fun b => b.row ≠ dpu) (fun b d => d.giveBlock adm a o.t o.j b.row b.data) d
    let bad := x.2.filter fun y => y.1 ≠ dpu
    if bad = [] then d.finishRead adm
    else d.startGather o.client a o.t o.j (bad.map Prod.fst) bad false ((x.1.find? fun b => b.row = dpu).map BufBlk.data)
  else
    d.startGather o.client a o.t o.j o.rows [] (o.st = .failedMedium) none

/-- A read ahead has ended: what passes is kept as clean copies, a mismatch is repaired (R121, R175). -/
def Dev.aheadDone (d : Dev) (o : MemberOp) : Dev :=
  let dpu := (d.geoAt o.array o.t).dpu
  if o.st = .done then
    let d := d.learnGen o.array o.t ((o.rows.zip o.data).find? (fun x => x.1 = dpu) |>.map Prod.snd |>.getD [])
    let x := d.checkUnit o.array o.t o.j o.rows o.data
    let d := forEach (x.1.filter fun b => b.row ≠ dpu) (fun b d => d.keepAhead o.array o.t o.j b.row b.data) (d.tagError x.2)
    let bad := x.2.filter fun y => y.1 ≠ dpu
    if bad = [] then d
    else d.startGather .readAhead o.array o.t o.j (bad.map Prod.fst) bad false ((x.1.find? fun b => b.row = dpu).map BufBlk.data)
  else if o.st = .failedMedium then d.startGather .readAhead o.array o.t o.j o.rows [] true none
  else d

/-- A member read of a reconstruction has ended (R121, R176, R211). -/
def Dev.sourceDone (d : Dev) (o : MemberOp) (g : Nat) : Dev :=
  if o.bypassed then d
  else if o.st = .done then
    let dpu := (d.geoAt o.array o.t).dpu
    let d := d.learnGen o.array o.t ((o.rows.zip o.data).find? (fun x => x.1 = dpu) |>.map Prod.snd |>.getD [])
    let x := d.checkUnit o.array o.t o.j o.rows o.data
    if x.2 = [] then d.gatherGot g o.j x.1 false
    else
      let codes := x.2.filter fun y => y.1 ≠ dpu
      ((d.tagError x.2).gatherGot g o.j [] true).repairUnit o.array o.t o.j (codes.map Prod.fst) codes false
        ((x.1.find? fun b => b.row = dpu).map BufBlk.data)
  else
    let d := d.gatherGot g o.j [] true
    if o.st = .failedMedium then d.repairUnit o.array o.t o.j o.rows [] true none else d

/-- The read deadline of a member command passes, measured from its issue to DPX (R176): the member is bypassed, unless more
than m bypassed and unavailable members would meet in the stripe; the units that a host READ's reconstruction reads are
member commands of that READ too. -/
def Dev.readDeadline (d : Dev) (id : Nat) : Dev :=
  match d.op? id with
  | none => d
  | some o =>
    let a := o.array
    let p := d.plan a o.t
    let out := (o.j :: d.slowAt a o.t ++ d.unavailable a p).eraseDups
    let due := (o.st = .queued || o.st = .issued) && !o.bypassed && decide (d.rd (Reg.AR_DEADLINE_ms.ix a) ≠ 0) &&
      decide (out.length ≤ (d.geoAt a o.t).m)
    let bypass := (d.updOp id fun o => { o with bypassed := true }).incSat Reg.PWC_BYPASS_count
    if !due then d
    else match o.client with
    | .hostRead _ => bypass.startGather o.client a o.t o.j o.rows [] false none
    | .gather x =>
      match d.lay.gathers.find? fun g => g.id = x with
      | some g =>
        match g.client with
        | .hostRead _ =>
          if d.usable a p (g.lost ++ g.want ++ d.slowAt a o.t) = [] then d else bypass.gatherGot x o.j [] true
        | _ => d
      | none => d
    | _ => d

end Sys2Proof.Machine
end

