-- ==== Sys2Proof/Machine/Destage.lean ====
section
/-! DEFINITION. Destage: the choice of a stripe and of its method, what is read, the ECE jobs, the intent record and its
member writes, their end, and the replay at Dawn (R118, R119, R164 to R169, R208, R320). -/

set_option Elab.async false

namespace Sys2Proof.Machine

/-! ### The scheduler (R169) -/

/-- Class of a dirty stripe in the order of R169; none while nothing makes it due (DESIGN CHOICE, log entry 25). -/
def Dev.stripeClass (d : Dev) (r : DueRec) : Option Nat :=
  let xs := d.dirtyOf r.array r.t
  let mode := d.rd Reg.PWC_STAT_mode
  let flushed := d.qmx.cmds.any fun c => eOpcode c.entry = opFlush && c.stage = .waiting && xs.any (d.flushCovers c)
  if (xs.any fun b => b.fua || b.wt) || flushed || decide (mode = pmWriteThrough) then some 1
  else if mode = pmPressure ∨ mode = pmStalled then some 2
  else if xs.length = (d.geoAt r.array r.t).perStripe then some 3
  else if d.isDue r then some 4
  else none

/-- Intent records that a group holds (R151). -/
def intentLimit : Nat := 1048576

/-- Whether a free intent record and pool space for a destage buffer of a stripe are left, with the destages under way
(R151, R169). -/
def Dev.bufferRoom (d : Dev) (a t : Nat) : Bool :=
  let extra (a t : Nat) : Nat := let g := d.geoAt a t; g.m * g.ub + g.k
  let used := (d.dram.cache.filter fun b => b.st ≠ .clean).length + (d.dram.intents.map d.bufferExtra).sum +
    (d.lay.destages.map fun x => extra x.array x.t).sum
  decide (d.dram.intents.length + d.lay.destages.length < intentLimit) && decide (used + extra a t ≤ d.poolBlocks)

/-- Whether a stripe's destage may start: dirty, none of it under way, its array assembled, at most m units unavailable, a
record and buffer space left, and no restripe step under way over it. An open record whose buffer was lost does not hold it
up (R165, R169, R208, R209, R224, R320). -/
def Dev.destageFree (d : Dev) (r : DueRec) : Bool :=
  decide (d.dirtyOf r.array r.t ≠ []) && !(d.lay.destages.any fun x => x.array = r.array && x.t = r.t) &&
  !(d.dram.intents.any fun i => i.array = r.array && i.t = r.t && !i.blocked) && !(d.arr r.array).assembling &&
  decide ((d.unavailable r.array (d.plan r.array r.t)).length ≤ (d.geoAt r.array r.t).m) && d.bufferRoom r.array r.t &&
  !d.inStep r.array r.t

/-- The stripe to destage next: lowest class, oldest hold (R169). -/
def Dev.nextDue (d : Dev) : Option DueRec :=
  ((d.lay.due.filter d.destageFree).filterMap fun r => (d.stripeClass r).map fun c => (c, r)).foldl
    (fun o x => match o with
      | none => some x
      | some y => if x.1 < y.1 ∨ (x.1 = y.1 ∧ x.2.since < y.2.since) then some x else some y) none |>.map Prod.snd

/-! ### Content -/

/-- The dirty block that a destage carries at a position and row. -/
def Dev.carried (d : Dev) (x : Destage) (j row : Nat) : Option CBlk :=
  d.dram.cache.find? fun b => b.array = x.array && b.t = x.t && b.st = .destaging &&
    x.carries.contains (b.vol, b.lba, b.adm) && d.place b.vol b.lba = ⟨x.t, j, row⟩

/-- What a destage has read of a position and row. -/
def Destage.old (x : Destage) (j row : Nat) : Option Block :=
  (x.got.find? fun b => b.j = j && b.row = row).map BufBlk.data

/-- The positions and rows that a destage changes. -/
def Dev.changes (d : Dev) (x : Destage) : List (Nat × Nat) :=
  x.carries.map fun c => let p := d.place c.1 c.2.1; (p.ju, p.b)

/-- The new tag block of data unit j (R117 to R120): new tags for the blocks that change, the old tags of the others under
the new generation, zero tags where there is none. -/
def Dev.newTags (d : Dev) (x : Destage) (j : Nat) : Block :=
  let g := d.geoAt x.array x.t
  let old := x.old j g.dpu
  tagBlock g.dpu (stripeNo x.t) ((List.range g.dpu).map fun r =>
    match d.carried x j r with
    | some b => if b.zero then ⟨0, 0, 0, 0⟩ else ⟨b.crc, b.lba % 2 ^ 32, d.tagIdOf b.vol, x.gen⟩
    | none => match old with
      | some tb => let tag := tagAt tb r; if tag.isZero then tag else { tag with gen := x.gen }
      | none => ⟨0, 0, 0, 0⟩)

/-- The new content of data unit j at a row. -/
def Dev.newRow (d : Dev) (x : Destage) (j row : Nat) : Block :=
  if row = (d.geoAt x.array x.t).dpu then trimB (d.newTags x j)
  else match d.carried x j row with
    | some b => b.data
    | none => (x.old j row).getD []

/-! ### Method and reads (R164) -/

/-- The method of a destage, with the positions that cannot be read. An old parity unit that cannot be read on a member that is
written admits no delta: parity is encoded afresh (DESIGN CHOICE, log entry 25). -/
def Dev.chooseMethod (d : Dev) (a t : Nat) (changed : List (Nat × Nat)) (missing : List Nat) : Method :=
  let g := d.geoAt a t
  let st := (d.stripe a t).state
  let rows := sortRows (changed.map Prod.snd)
  if changed.length = g.perStripe then .full
  else if st = ssFresh then .freshPartial
  else if st = ssSuspect || changed.any (fun c => missing.contains c.1) || decide (g.k * rows.length ≤ 2 * changed.length) ||
      missing.any (fun j => decide (g.k ≤ j) && d.unitWritable a (d.plan a t) j)
    then .reconstruct
  else .delta

/-- Rows that a destage codes: all of them for a full, fresh or SUSPECT stripe, else those it touches and the tag row. -/
def Dev.rowsOf (d : Dev) (a t : Nat) (m : Method) (changed : List (Nat × Nat)) : List Nat :=
  let g := d.geoAt a t
  if m = .full || m = .freshPartial || decide ((d.stripe a t).state = ssSuspect) then List.range g.ub
  else sortRows (changed.map Prod.snd ++ [g.dpu])

/-- What a destage reads: positions and rows. Where a data unit cannot be read, the first k usable positions are read whole
in the affected rows, so that it can be decoded. -/
def Dev.needOf (d : Dev) (x : Destage) (use : List Nat) : List (Nat × Nat) :=
  let g := d.geoAt x.array x.t
  let ch := d.changes x
  let data := use.filter (· < g.k)
  match x.method with
  | .full => []
  | .freshPartial => []
  | .reconstruct =>
    if data.length < g.k then (use.take g.k).flatMap fun j => x.rows.map fun r => (j, r)
    else data.flatMap fun j => (x.rows.filter fun r => r = g.dpu || !ch.contains (j, r)).map fun r => (j, r)
  | .delta =>
    (ch ++ data.map fun j => (j, g.dpu)) ++ (use.filter (g.k ≤ ·)).flatMap fun j => x.rows.map fun r => (j, r)

/-- The destage with a number. -/
def Dev.destage? (d : Dev) (id : Nat) : Option Destage := d.lay.destages.find? fun x => x.id = id

/-- Change a destage. -/
def Dev.updDestage (d : Dev) (id : Nat) (g : Destage → Destage) : Dev :=
  d.updLay fun l => { l with destages := l.destages.map fun x => if x.id = id then g x else x }

/-- A destage is over. -/
def Dev.dropDestage (d : Dev) (id : Nat) : Dev :=
  d.updLay fun l => { l with
    destages := l.destages.filter fun x => x.id ≠ id
    ops := l.ops.filter fun o => o.client ≠ .destage id }

/-- The cached blocks that a list of carried blocks names. -/
def Dev.carriedBlocks (d : Dev) (cs : List (Nat × Nat × Nat)) : List CBlk :=
  d.dram.cache.filter fun b => b.st = .destaging && cs.contains (b.vol, b.lba, b.adm)

/-- A destage fails for want of members: its blocks are lost (R101, R164); those deallocated meanwhile just go. -/
def Dev.destageLost (d : Dev) (x : Destage) (reason : Nat) : Dev :=
  let bs := d.carriedBlocks x.carries
  let d := d.dropDestage x.id
  let d := d.updCache fun xs => xs.filter fun b => !(bs.contains b && b.gone)
  (d.loseBlocks (bs.filter fun b => !b.gone) reason).afterDrain

/-! ### ECE jobs of a destage -/

/-- Whether LAY marks the new content of data unit j at a row as zero: its new tag is zero (R120, R137). -/
def Dev.newZero (d : Dev) (x : Destage) (j row : Nat) : Bool :=
  let dpu := (d.geoAt x.array x.t).dpu
  decide (row < dpu) && match d.carried x j row with
    | some b => b.zero
    | none => match x.old j dpu with
      | some tb => (tagAt tb row).isZero
      | none => true

/-- Inputs that a job may have for a block row (R142). -/
def jobInputs : Nat := 32

/-- Cut a list into parts of at most n elements; `fuel` bounds the parts. -/
def partsOf {α : Type} (n : Nat) : Nat → List α → List (List α)
  | 0, _ => []
  | fuel + 1, xs => if xs = [] then [] else xs.take (max n 1) :: partsOf n fuel (xs.drop (max n 1))

/-- The delta jobs of one row: changed positions go, old and new, with the old parity, so many to a job that its inputs are
within the limit; a later job takes the parity that the one before returned (R139, R142, R143). -/
def Dev.deltaJobs (d : Dev) (x : Destage) (par : List Nat) (ch : List (Nat × Nat)) (row : Nat) : Dev :=
  let g := d.geoAt x.array x.t
  let js := sortRows ((ch.filter fun c => c.2 = row).map Prod.fst)
  let old := x.got.filter fun b => b.row = row
  let zeros := markZeros g.k g.dpu x.t x.got
  forEach (partsOf ((jobInputs - par.length) / 2) js.length js) (fun js d =>
    d.addJob { id := 0, kind := .delta, lane := 0, array := x.array, t := x.t, k := g.k, m := g.m, rows := [row],
               inputs := old.filter (fun b => js.contains b.j || par.contains b.j),
               fresh := js.map fun j => ⟨j, row, d.newRow x j row⟩, lost := [], parityRows := par.map (· - g.k),
               client := .destage x.id, zeros := zeros.filter fun z => z.2 = row
               freshZeros := (js.filter fun j => d.newZero x j row).map fun j => (j, row) }) d

/-- The last jobs of a destage: encode, or a parity delta of each row (R138, R139). -/
def Dev.finalJob (d : Dev) (x : Destage) : Dev :=
  let g := d.geoAt x.array x.t
  let p := d.plan x.array x.t
  if x.method = .delta then
    let par := ((List.range p.w).filter fun j => decide (g.k ≤ j) && (x.old j g.dpu).isSome)
    let ch := d.changes x ++ (List.range g.k).map fun j => (j, g.dpu)
    forEach x.rows (fun r d => d.deltaJobs x par ch r) d
  else
    let at_ := (List.range g.k).flatMap fun j => x.rows.map fun r => (j, r)
    d.addJobs { id := 0, kind := .encode, lane := 0, array := x.array, t := x.t, k := g.k, m := g.m, rows := x.rows,
                inputs := at_.map fun y => ⟨y.1, y.2, d.newRow x y.1 y.2⟩, fresh := [], lost := [],
                parityRows := List.range g.m, client := .destage x.id, zeros := at_.filter fun y => d.newZero x y.1 y.2 }

/-- Once everything was read: lost data units are decoded first, then comes the last job (R164). -/
def Dev.destageReady (d : Dev) (id : Nat) : Dev :=
  match d.destage? id with
  | none => d
  | some x =>
    if x.need.all fun n => (x.old n.1 n.2).isSome then
      let g := d.geoAt x.array x.t
      let gone := if x.method = .full || x.method = .freshPartial then []
        else (List.range g.k).filter fun j => (x.old j g.dpu).isNone
      if gone = [] then d.finalJob x
      else
        let rows := if x.method = .delta then [g.dpu] else x.rows
        d.addJobs { id := 0, kind := .decode, lane := 1, array := x.array, t := x.t, k := g.k, m := g.m, rows := rows,
                    inputs := x.got, fresh := [], lost := gone, parityRows := [], client := .destage id
                    zeros := markZeros g.k g.dpu x.t x.got }
    else d

/-- Whether a decoded block of a destage passes steps 2 to 5 of R121; a tag block, its trailer. -/
def Dev.decodedOk (d : Dev) (x : Destage) (b : BufBlk) : Bool :=
  let tb := (x.old b.j (d.geoAt x.array x.t).dpu).getD []
  if b.row = (d.geoAt x.array x.t).dpu then trailerOk b.data (stripeNo x.t)
  else (d.judgeRow x.array x.t b.j b.row tb b.data).ok

/-- Decoded units of a destage come back: what was mismatched and passes its tag counts as repaired, what fails it as not
repaired, and is not rewritten (R121, R128). -/
def Dev.destageDecoded (d : Dev) (id : Nat) (out : List BufBlk) : Dev :=
  let d := d.updDestage id fun x => { x with got := x.got ++ out }
  match d.destage? id with
  | none => d
  | some x =>
    let kept := out.filter fun b => !(d.changes x).contains (b.j, b.row)
    let bad := kept.filter fun b => !d.decodedOk x b
    let fixed := x.codes.filter fun c => kept.any fun b => b.j = c.1 && b.row = c.2.1 && d.decodedOk x b
    let d := forEach fixed (fun c d => d.countRepair x.array c.2.2) d
    let d := d.unrepaired x.array bad.length
    let x := { x with codes := [], fix := x.fix.filter fun f => !(bad.any fun b => b.j = f.1 && b.row = f.2) }
    (d.updDestage id fun _ => x).finalJob x

/-! ### Start (R166 step 1) -/

/-- Choose method and reads anew, with the positions that cannot be read, and issue the reads. Where more than m units are
out, the blocks are lost; while some of those units may come back, they are dirty again (R164, R208)
(DESIGN CHOICE, log entry 25). -/
def Dev.planReads (d : Dev) (id : Nat) : Dev :=
  match d.destage? id with
  | none => d
  | some x =>
    let a := x.array
    let t := x.t
    let g := d.geoAt a t
    let p := d.plan a t
    let use := d.usable a p x.missing
    let out := (List.range p.w).filter fun j => !use.contains j
    let ch := d.changes x
    let m := d.chooseMethod a t ch out
    let x := { x with method := m, rows := d.rowsOf a t m ch, got := [] }
    let x := { x with need := d.needOf x use }
    if use.length < g.k ∧ m ≠ .full ∧ m ≠ .freshPartial then
      if g.m < (x.missing.filter (d.available a p)).length + d.lostForGood a p then d.destageLost x rsMembersLost
      else ((d.dropDestage id).updCache (undestage a t)).afterDrain
    else
      let d := d.updDestage id fun _ => x
      let js := sortRows (x.need.map Prod.fst)
      let d := forEach js (fun j d =>
        d.readUnit a t j p (sortRows ((x.need.filter fun n => n.1 = j).map Prod.snd ++ (if j < g.k then [g.dpu] else [])))
          (.destage id)) d
      d.destageReady id

/-- Count a destage by its method (R177). -/
def Dev.countMethod (d : Dev) (m : Method) : Dev :=
  match m with
  | .full => d.incSat Reg.PWC_DSTG_FULL_stripes
  | .freshPartial => d.incSat Reg.PWC_DSTG_FRESH_stripes
  | .delta => d.incSat Reg.PWC_DSTG_DELTA_stripes
  | .reconstruct => d.incSat Reg.PWC_DSTG_RECON_stripes

/-- A destage of a stripe begins. -/
def Dev.beginDestage (d : Dev) (a t : Nat) : Dev :=
  let xs := d.dirtyOf a t
  let id := d.lay.nextId
  let x : Destage :=
    { id := id, array := a, t := t, method := .full, gen := ((d.stripe a t).gen + 1) % 2 ^ 16,
      carries := xs.map fun b => (b.vol, b.lba, b.adm), rows := [], need := [], got := [], missing := [], fix := [] }
  let d := d.updCache fun ys => ys.map fun b => if xs.contains b then { b with st := .destaging } else b
  let d := d.updLay fun l => { l with destages := l.destages ++ [x], nextId := id + 1 }
  (d.tidyDue).planReads id

/-- DESTAGE_START's effect: the next stripe in the order of R169; none starts while ECE is in FAULT (R351). Its dirty blocks
are read and checked; those that no group can give are lost (R155). -/
def Dev.destageStart (d : Dev) : Dev :=
  if d.eceDown then d
  else match d.nextDue with
    | none => d
    | some r =>
      let d := forEach (d.dirtyOf r.array r.t) (fun b d => d.dramCheck b.vol b.lba) d
      if d.destageFree r then d.beginDestage r.array r.t else d

/-- A member read of a destage has ended. What fails its tag or cannot be read is taken as lost, and the destage is planned
again; mismatched rows are rewritten with it (R121, R164). -/
def Dev.destageGot (d : Dev) (o : MemberOp) (id : Nat) : Dev :=
  let dpu := (d.geoAt o.array o.t).dpu
  let d := if o.st = .done then
    let d := d.learnGen o.array o.t ((o.rows.zip o.data).find? (fun x => x.1 = dpu) |>.map Prod.snd |>.getD [])
    d.updDestage id fun y => { y with gen := ((d.stripe o.array o.t).gen + 1) % 2 ^ 16 } else d
  let x := if o.st = .done then d.checkUnit o.array o.t o.j o.rows o.data else ([], [])
  if o.st = .done ∧ x.2 = [] then (d.updDestage id fun y => { y with got := y.got ++ x.1 }).destageReady id
  else
    let d := (d.tagError x.2).updLay fun l => { l with ops := l.ops.filter fun y => y.client ≠ .destage id }
    let medium := if o.st = .failedMedium then o.rows.map fun r => (o.j, r) else []
    (d.updDestage id fun y => { y with
      missing := y.missing ++ [o.j], fix := y.fix ++ x.2.map (fun c => (o.j, c.1)) ++ medium
      codes := y.codes ++ x.2.map fun c => (o.j, c.1, c.2) }).planReads id

/-! ### Writes (R165, R166 steps 3 to 7) -/

/-- Kind code of an intent record (R165). -/
def Method.kind : Method → Nat
  | .full => 1
  | .freshPartial => 2
  | .delta => 3
  | .reconstruct => 4

/-- The parity comes back: the intent record and the destage buffer are written, then the members. A position that cannot be
written is left out, and its member's missed map marked (R164, R166, R205). -/
def Dev.destageWrite (d : Dev) (id : Nat) (parity : List BufBlk) : Dev :=
  match d.destage? id with
  | none => d
  | some x =>
    let a := x.array
    let t := x.t
    let g := d.geoAt a t
    let p := d.plan a t
    let dataRows := (d.changes x).filterMap fun c => (d.carried x c.1 c.2).bind fun b =>
      if b.zero then none else some (⟨c.1, c.2, b.data⟩ : BufBlk)
    let fixed := (x.fix.filter fun f => decide (f.1 < g.k ∧ f.2 ≠ g.dpu) && !(d.changes x).contains f).map fun f =>
      (⟨f.1, f.2, (x.old f.1 f.2).getD []⟩ : BufBlk)
    let tags := (List.range g.k).map fun j => (⟨j, g.dpu, trimB (d.newTags x j)⟩ : BufBlk)
    let blocks := dataRows ++ fixed ++ tags ++ parity
    let out := (List.range p.w).filter fun j => !d.unitWritable a p j
    let map := (List.range p.w).filter fun j => d.unitWritable a p j && blocks.any fun b => b.j = j
    let d := forEach out (fun j d =>
      let i := d.unitMember a p j
      if d.mst a i = msMissing ∨ d.mst a i = msFwUpdate ∨ d.mst a i = msCatchup then d.markMissed a i p.c else d) d
    let d := d.updDram fun m => { m with intents := m.intents.filter fun i => !(i.array = a && i.t = t && i.blocked) }
    let adms := x.carries.map fun c => c.2.2
    let d := d.updLay fun l => { l with destages := l.destages.filter fun y => y.id ≠ id }
    (d.countMethod x.method).openIntent
      ⟨a, t, x.method.kind, x.gen, map, [], [], out, adms.min?.getD 0 % 2 ^ 32, adms.max?.getD 0 % 2 ^ 32, 0, 0, 0,
       blocks.filter fun b => map.contains b.j || decide (b.j < g.k ∧ b.row = g.dpu), x.carries, false⟩

/-- Change an intent record. -/
def Dev.updIntent (d : Dev) (seq : Nat) (g : Intent → Intent) : Dev :=
  d.updDram fun m => { m with intents := m.intents.map fun i => if i.seq = seq then g i else i }

/-- The stripe state that the remap table shows (R123). -/
def Dev.cleanState (d : Dev) (a t : Nat) : Nat :=
  let p := d.plan a t
  if (List.range p.w).any (d.onSpare a p) then ssSpare else ssClean

/-- A record is retired: generation and state are recorded, the blocks are destaged, the buffer is free, and the stripe's unit
records are written back (R115, R123, R124, R166 steps 5 to 7) (DESIGN CHOICE, log entry 84). -/
def Dev.retire (d : Dev) (i : Intent) : Dev :=
  let a := i.array
  let t := i.t
  let owed := d.lay.freshOwed.contains (a, t)
  let d := if i.kind = 5 then d else d.updStripe a t fun r =>
    { r with gen := i.gen, genUnknown := false, state := if owed then ssFresh else d.cleanState a t }
  let d := d.updLay fun l => { l with freshOwed := l.freshOwed.filter (· ≠ (a, t)) }
  let p := d.plan a t
  let d := forEach (if i.kind = 5 then [] else (List.range p.w).filter (d.unitWritable a p)) (fun j d =>
    d.putRecord a (d.unitMember a p j) p.c (d.recordOf a t j)) d
  let bs := d.carriedBlocks i.carries
  let d := d.updCache fun xs => xs.filter fun b => !bs.contains b
  let d := d.updDram fun m => { m with intents := m.intents.filter fun x => x.seq ≠ i.seq }
  (d.nextRepair i).afterDrain

/-- The reason of a loss at a destage (R101, R243): REMAP_EXHAUSTED when the failed members ran out of spare locations. -/
def Dev.lossReason (d : Dev) (i : Intent) : Nat :=
  let p := d.plan i.array i.t
  let out := (i.leftMap ++ i.lostMap).map fun j => (d.memberPort i.array (p.layout.getD j 0)).getD 0
  if out.all fun q => d.ptState q = ptFailed && d.rd (Reg.PT_STAT_reason.ix q) = 3 then rsRemap else rsMembersLost

/-- Retire a record whose positions are all done or lost; when too many are lost, its blocks are lost (R168). -/
def Dev.retireCheck (d : Dev) (seq : Nat) : Dev :=
  match d.dram.intents.find? fun i => i.seq = seq with
  | none => d
  | some i =>
    if (d.geoAt i.array i.t).m < (i.leftMap ++ i.lostMap).eraseDups.length ∧ i.lostMap ≠ [] then
      let bs := (d.carriedBlocks i.carries).filter fun b => !b.gone
      let reason := d.lossReason i
      let d := d.updLay fun l => { l with ops := l.ops.filter fun o => o.client ≠ .intentWrite seq }
      (d.loseBlocks bs reason).retire i
    else if i.writeMap.all fun j => i.doneMap.contains j || i.lostMap.contains j then d.retire i
    else d

/-- A member write of an intent record has ended (R166, R168, R246): done; or its drive has left, and the position counts as
left out; or the drive failed, and it joins the lost map. -/
def Dev.intentWriteDone (d : Dev) (o : MemberOp) (seq : Nat) : Dev :=
  let p := d.plan o.array o.t
  if o.st = .done then (d.updIntent seq fun i => { i with doneMap := insertNat o.j i.doneMap }).retireCheck seq
  else if d.mst o.array o.member = msMissing ∨ d.mst o.array o.member = msFwUpdate then
    ((d.markMissed o.array o.member p.c).updIntent seq fun i =>
      { i with doneMap := insertNat o.j i.doneMap, leftMap := insertNat o.j i.leftMap }).retireCheck seq
  else (d.updIntent seq fun i => { i with lostMap := insertNat o.j i.lostMap }).retireCheck seq

/-- Dawn replays the open records of an array (R167): every position of the write map not lost is written again; a position
whose member is missing joins the lost map. A record whose buffer was unreadable is not replayed (R320). -/
def Dev.replayIntents (d : Dev) (a : Nat) : Dev :=
  forEach (d.dram.intents.filter fun i => i.array = a && !i.blocked) (fun i d =>
    let p := d.plan a i.t
    let gone := i.writeMap.filter fun j => !i.lostMap.contains j && !d.unitWritable a p j
    let lost := sortRows (i.lostMap ++ gone)
    let i := { i with lostMap := lost, doneMap := [] }
    let d := d.updIntent i.seq fun _ => i
    (d.intentWrites i (i.writeMap.filter fun j => !lost.contains j)).retireCheck i.seq) d

/-! ### The end of member operations -/

/-- A member read has ended (R16, R121, R166, R211). -/
def Dev.memberReadDone (d : Dev) (id : Nat) : Dev :=
  match d.op? id with
  | none => d
  | some o =>
    if o.isWrite || o.st = .queued || o.st = .issued then d
    else
      let d := d.dropOp id
      match o.client with
      | .hostRead adm => d.hostReadDone o adm
      | .verify adm => d.hostReadDone o adm
      | .destage x => d.destageGot o x
      | .intentWrite _ => d
      | .gather g => d.sourceDone o g
      | .readAhead => d.aheadDone o
      | .unitRec _ | .repair => d

/-- A member write has ended (R166, R168). -/
def Dev.memberWriteDone (d : Dev) (id : Nat) : Dev :=
  match d.op? id with
  | none => d
  | some o =>
    if !o.isWrite || o.st = .queued || o.st = .issued then d
    else
      let d := d.dropOp id
      match o.client with
      | .intentWrite seq => d.intentWriteDone o seq
      | .unitRec adm => d.advance adm
      | _ => d

/-- DESTAGE_START (R166, R169). -/
def execDestageStart (s : State) : Out := s.act Dev.destageStart

/-- MEMBER_READ_DONE (R16, R121). -/
def execMemberReadDone (op : Nat) (s : State) : Out := s.act fun d => d.memberReadDone op

/-- MEMBER_WRITE_DONE (R166, R168). -/
def execMemberWriteDone (op : Nat) (s : State) : Out := s.act fun d => d.memberWriteDone op

/-- READ_DEADLINE (R176). -/
def execReadDeadline (op : Nat) (s : State) : Out := s.act fun d => d.readDeadline op

/-- STREAM_HOLD_EXPIRE (R163). -/
def execStreamHoldExpire (array stripe : Nat) (s : State) : Out :=
  onUnit (decide (array < 16)) s fun d => d.makeDue array stripe

end Sys2Proof.Machine
end

