-- ==== Sys2Proof/Machine/Contain.lean ====
section
/-! DEFINITION. Containment, completion timeouts, quarantined and unexpected completions (R51 to R53, R60 to R62, R65). -/

set_option Elab.async false

namespace Sys2Proof

/-- Containment causes (R60). -/
def ContainCause.code : ContainCause → Nat
  | .surpriseDown => 1 | .dlProtocol => 2 | .fcProtocol => 3 | .malformedTlp => 4 | .receiverOverflow => 5 | .ecrc => 6
  | .poisonedTlp => 7 | .internal => 8

/-- The AER bit of a containment cause (PRESUMED, log entry 9). -/
def ContainCause.aerBit : ContainCause → Nat
  | .surpriseDown => 5 | .dlProtocol => 4 | .fcProtocol => 13 | .malformedTlp => 18 | .receiverOverflow => 17 | .ecrc => 19
  | .poisonedTlp => 12 | .internal => 22

end Sys2Proof

namespace Sys2Proof.Machine

/-- Change HIF state beside its registers. -/
def Dev.updHif (d : Dev) (g : HifState → HifState) : Dev := { d with hif := g d.hif }

/-- The tag with a number. -/
def Dev.tag? (d : Dev) (id : Nat) : Option Tag := d.hif.tags.find? fun t => t.id = id

/-- Entries of an SQ that were fetched and have not arrived are given up: the head goes back to the first of them, from which
fetching resumes; a DRAINING SQ left with nothing in flight is DISABLED (R56, R61, R62, R76)
(DESIGN CHOICE, log entry 35). -/
def Dev.rewindSq (d : Dev) (q : Nat) : Dev :=
  match d.qmx.fetched.find? fun e => e.q = q && e.data.isNone with
  | none => d
  | some x =>
    let before := (d.qmx.fetched.filter fun e => e.q = q).takeWhile fun e => e.data.isSome
    let d := d.dropReads (kindIsSq q)
    (({ d with qmx := { d.qmx with fetched := d.qmx.fetched.filter fun e => e.q ≠ q || before.contains e } } : Dev).wr
      (Reg.QD_SQ_PTR_head.ix q) x.slot).drainSq q

/-- The fetches of a function's queues are given up. -/
def Dev.rewindFn (d : Dev) (f : Nat) : Dev :=
  forEach ((List.range (d.sqCount f)).map (d.sqBase f + ·)) (fun q d => d.rewindSq q) d

/-- The link changes state; HIF_LINK shows a link that is not up with its fields at 0 (R64). -/
def Dev.setLink (d : Dev) (l : Link) : Dev :=
  let d := d.updHif fun h => { h with link := l }
  let d := d.wrB Reg.HIF_LINK_up (l = .l0 || l = .l1)
  if l = .l0 || l = .l1 then d
  else d.wr Reg.HIF_LINK_speed 0 |>.wr Reg.HIF_LINK_width 0 |>.wr Reg.HIF_LINK_l0p_width 0 |>.wr Reg.HIF_LINK_flit 0

/-- A containment cause (R60, R61, R65): the freeze begins; during a freeze it is only counted. A surprise link-down (1)
leaves the link down (DESIGN CHOICE, log entry 35). -/
def Dev.contain (d : Dev) (cause fn : Nat) : Dev :=
  let d := d.incSat Reg.HIF_CONTAIN_count
  let d := onlyIf (cause = 1 && d.linkUp) (fun d => d.setLink .down) d
  if d.frozen then d
  else
    let d := d.wr Reg.HIF_CONTAIN_frozen 1
    let d := if d.rd Reg.HIF_CONTAIN_cause = 0 then
        d.wr Reg.HIF_CONTAIN_cause cause |>.wr Reg.HIF_CONTAIN_fn fn |>.wr Reg.HIF_CONTAIN_TS_ts d.now
      else d
    let d := forEach (List.range 65) (fun f d => d.rewindFn f) d
    let d := d.updHif fun h => { h with freezeOwed := some cause, tags := h.tags.map fun t => { t with doomed := true } }
    ((d.causeBit .hif 16).errUncorr .hif cause).bmeErrAll spHost 5

/-- The event of a freeze that has ended (R61). -/
def Dev.postFreeze (d : Dev) : Dev :=
  match d.hif.freezeOwed with
  | none => d
  | some c =>
    let d := d.updHif fun h => { h with freezeOwed := none }
    let fn := d.rd Reg.HIF_CONTAIN_fn
    d.post 0x51 3 c fn (d.rd Reg.HIF_CONTAIN_count) 0 fn

/-- A function may send again: held entries, pending messages, waiting reads, and reads to be returned (R56, R62). -/
def Dev.resumeFn (d : Dev) (f : Nat) : Dev := (d.releaseHeld f).resumeReads

/-- HIF_CONTAIN.release (R62): refused while the link is not up; the write itself brings a link in L1 to L0 (R59). -/
def Dev.containRelease (d : Dev) : Dev :=
  if !d.frozen then d
  else if !d.linkUp then d.refuse .hif
  else
    let d := d.exitL1.wr Reg.HIF_CONTAIN_frozen 0
    let d := forEach d.functions (fun f d => d.resumeFn f) d
    d.postFreeze

/-- HIF_CONTAIN.log_clr (R62, R64). -/
def Dev.containLogClr (d : Dev) : Dev :=
  d.wr Reg.HIF_CONTAIN_fn 0 |>.wr Reg.HIF_CONTAIN_count 0 |>.wr Reg.HIF_CONTAIN_cause 0 |>.wr Reg.HIF_CONTAIN_TS_ts 0

/-- An unexpected completion (R53, R65), AER bit 16: logged in the function whose tag is quarantined; of a completion for
no outstanding tag the spec names no function, and PF0's AER takes it (DESIGN CHOICE, log entry 68). -/
def Dev.lateCompletion (d : Dev) (tag : Nat) : Dev :=
  let f := ((d.tag? tag).map Tag.fn).getD 0
  let d := (d.incSat Reg.HIF_LATE_CNT_late).aerAdvisory f 16
  (((d.emit (.advisoryNonFatal f)).causeBit .hif 18).errCorr .hif 0x11).freeTag tag

/-- UNEXPECTED_COMPLETION's effect (R53): for a quarantined tag, or one not outstanding. -/
def Dev.unexpected (d : Dev) (tag : Nat) : Dev :=
  match d.tag? tag with
  | some t => if t.quar then d.lateCompletion tag else d
  | none => d.lateCompletion tag

/-- A completion timeout (R52, R65). -/
def Dev.complTimeout (d : Dev) (tag : Nat) : Dev :=
  match d.tag? tag with
  | none => d
  | some t =>
    if t.quar then d
    else
      let d := (d.incSat Reg.HIF_CTO_CNT_timeouts).aerUncorrError t.fn 14
      let d := (d.causeBit .hif 17).errCorr .hif 0x10
      let d := d.updHif fun h => { h with tags := h.tags.map fun x =>
        if x.id = tag then { x with quar := true, kind := .dropped } else x }
      match t.kind with
      | .data adm _ | .crcs adm _ | .frags adm _ => d.stopCmd adm ssHostTimeout 0
      | .entries q slot n =>
        if t.retried then d.fetchTimeout q slot
        else d.askRead ⟨t.fn, .entries q slot n, t.addr, t.len, true⟩
      | .bme c _ => d.bmeErr c 3
      | .dropped | .droppedBme => d

/-- A quarantined tag is free again after four timeout periods (R52). -/
def Dev.quarExpire (d : Dev) (tag : Nat) : Dev :=
  match d.tag? tag with
  | some t => if t.quar then d.freeTag tag else d
  | none => d

/-- A containment cause reaches the device: AER of the function it names, PF0's where it names none, and containment
(R60, R61, R62) (PRESUMED, log entry 9). -/
def Dev.containCause (d : Dev) (cause : ContainCause) (fn : Option Nat) : Dev :=
  (d.aerUncorrError (fn.getD 0) cause.aerBit).contain cause.code (fn.getD 0x7F)

/-- CONTAINMENT (R60, R61): function 0x7F where the cause is of the whole link. -/
def execContainment (cause : ContainCause) (fn : Option Nat) (s : State) : Out :=
  onUnit (match fn with | some f => decide (f ≤ 64) | none => true) s fun d => d.containCause cause fn

/-- CONTAIN_RELEASE (R62): the rule gives the write an effect while the link is not up too. -/
def execContainRelease (s : State) : Out :=
  s.act fun d => if d.linkUp then d.atPage .hif Dev.containRelease else d.containRelease

/-- CONTAIN_LOG_CLR (R62, R64). -/
def execContainLogClr (s : State) : Out := s.act fun d => d.atPage .hif Dev.containLogClr

/-- UNEXPECTED_COMPLETION (R53). -/
def execUnexpectedCompletion (tag : Nat) (s : State) : Out := s.act fun d => d.unexpected tag

/-- COMPLETION_TIMEOUT (R52). -/
def execCompletionTimeout (tag : Nat) (s : State) : Out := s.act fun d => d.complTimeout tag

/-- QUARANTINE_EXPIRE (R52). -/
def execQuarantineExpire (tag : Nat) (s : State) : Out := s.act fun d => d.quarExpire tag

end Sys2Proof.Machine
end

