-- ==== Sys2Proof/Machine/Commands.lean ====
section
/-! DEFINITION. I/O commands from the checks of R92 to their end, the fragment table, range locks, admission grants, host data,
the flip of blocks, and fences (R13, R14, R80, R91 to R98, R158, R159, R162). -/

set_option Elab.async false

namespace Sys2Proof.Machine

/-! ### Checks (R92) -/

/-- Access, size and stream coalescing of a command's volume in the configuration it was admitted under (R40)
(DESIGN CHOICE, log entry 39). -/
def Dev.volView (d : Dev) (c : Cmd) : Bool × Nat × Bool :=
  let v := eVolume c.entry
  c.seen.getD (d.volAccess c.fn v, d.volBlocks v, d.rdB (Reg.VD_CFG_stream_en.ix v))

/-- Check 5: a stream that a WRITE may not use. -/
def Dev.badStream (d : Dev) (c : Cmd) : Bool :=
  eOpcode c.entry = opWrite && eStrm c.entry &&
  (!(d.volView c).2.2 ||
   match d.lay.streams.find? fun s => s.id = eStream c.entry with
   | some s => decide (s.volume ≠ eVolume c.entry)
   | none => decide (4096 ≤ d.lay.streams.length))

/-- The checks of R92 on a command that names a volume: the first failing one gives status and dw3. -/
def Dev.checkVolume (d : Dev) (c : Cmd) : Option (Nat × Nat) :=
  let e := c.entry
  let v := eVolume e
  let op := eOpcode e
  if eFlushAll e then (if v ≠ 0 then some (ssInvalidField, 1) else none)
  else if !(d.volView c).1 then some (ssNotAccessible, 0)
  else if d.arrState (d.volArray v) = asOffline then some (ssOffline, 0)
  else if 16384 < eCount e then some (ssTooLarge, 0)
  else if isDataOp op && decide ((d.volView c).2.1 < eLba e + eCount e) then some (ssLbaRange, 0)
  else if d.badStream c then some (ssStreamInvalid, 0)
  else if eTagchk e && decide (eCrcAddr e % 8 ≠ 0) then some (ssInvalidField, 10)
  else if isWriteClass op && decide (d.overflowOf v ≠ 0) then some (ssWriteFenced, 0)
  else none

/-! ### After the checks -/

/-- Whether an overlapping command with a lower ASN holds a command's range (R14, R97). -/
def Dev.lockBlocked (d : Dev) (c : Cmd) : Bool :=
  d.qmx.cmds.any fun x => decide (x.adm < c.adm) && !x.lockDone && overlaps x c

/-- The unit records of a stripe go to its members for a command (R95, R115), each by a write of its own
(DEDUCED, log entry 58). -/
def Dev.putUnitRecords (d : Dev) (adm a t : Nat) : Dev :=
  let p := d.plan a t
  forEach ((List.range p.w).filter (d.unitWritable a p)) (fun j d =>
    let i := d.unitMember a p j
    (d.setUnitRec a i p.c (d.recordOf a t j)).addOp a t j i [] true [] (.unitRec adm)) d

/-- The wholly covered stripes of a DEALLOCATE or WRITE_ZEROES take effect; with FUA their states go to the members'
metadata, which the completion waits for (R95; DEDUCED, log entry 58). -/
def Dev.doMiddle (d : Dev) (c : Cmd) : Dev :=
  let v := eVolume c.entry
  let a := d.volArray v
  let e := c.entry
  let hm := if eOpcode e = opDeallocate then d.cover v (eLba e) (eCount e) else d.segs c
  (forEach (d.middleStripes v hm.2 (eLba e + hm.1) hm.2) (fun t d =>
    let d := d.makeFresh c.adm a t
    if eFua e then d.putUnitRecords c.adm a t else d) d).tidyDue

/-- The next block of a command is persistent in one step (R159): the index flips, older copies that are not being destaged
go, the stripe's hold begins, the prefix advances. -/
def Dev.flip (d : Dev) (c : Cmd) : Dev :=
  let lba := eLba c.entry + d.cacheOff c c.flipped
  match d.dram.cache.find? fun b => b.adm = c.adm && b.lba = lba && b.st = .writing with
  | none => d
  | some b =>
    let wt := b.wt || c.wt || decide (d.rd Reg.PWC_CEIL_mib = 0)
    let d := d.updCache fun xs => (xs.filter fun x => !(x.isAt b.vol lba && (x.st = .clean || x.st = .dirty))).map fun x =>
      if x = b then { b with st := .dirty, wt := wt, persistent := !wt } else x
    let d := if wt || b.fua then d.waitsFor c.adm b.array else d
    let d := d.unmark b.vol lba
    let d := if d.lay.due.any fun r => r.array = b.array && r.t = b.t then d
      else d.updLay fun l => { l with due := l.due ++ [⟨b.array, b.t, d.ticks, false⟩] }
    let d := d.noteDue b.array b.t
    let d : Dev := match b.stream with | some id => d.streamTo id b.vol b.array b.t | none => d
    let d := d.updCmd c.adm fun c => { c with flipped := c.flipped + 1, wt := wt || c.wt }
    let d := if c.flipped + 1 = (d.segs c).1 ∧ 0 < (d.segs c).2 then d.doMiddle c else d
    let d := if c.flipped + 1 = d.wanted c ∨ (c.ending.isSome ∧ c.flipped + 1 = c.inCache) then d.updCmd c.adm fun c => { c with lockDone := true } else d
    d.afterDrain

/-- The range lock is taken (R14): the command goes to its work. -/
def Dev.afterLock (d : Dev) (adm : Nat) : Dev :=
  match d.cmd? adm with
  | none => d
  | some c =>
    let e := c.entry
    let op := eOpcode e
    if op = opRead ∨ op = opVerify then d.startRead adm
    else if op = opWrite then
      if eTagchk e then
        (d.updCmd adm fun c => { c with stage := .crcs }).readHost c.fn (eCrcAddr e) (8 * eCount e) fun off _ => .crcs adm off
      else d.updCmd adm fun c => { c with stage := .running }
    else
      let d := d.updCmd adm fun c => { c with stage := .running }
      let hm := d.cover (eVolume e) (eLba e) (eCount e)
      let d := if op = opDeallocate ∨ (hm.1 = 0 ∧ 0 < hm.2) then d.doMiddle c else d
      let d := if d.wanted c = 0 then d.updCmd adm fun c => { c with lockDone := true } else d
      d.afterDrain

/-- A command asks for its range lock. -/
def Dev.takeLock (d : Dev) (adm : Nat) : Dev :=
  match d.cmd? adm with
  | none => d
  | some c => if d.lockBlocked c then d.updCmd adm fun c => { c with stage := .lockWait } else d.afterLock adm

/-- A stream is open from its first WRITE (R91). -/
def Dev.openStream (d : Dev) (c : Cmd) : Dev :=
  let e := c.entry
  if eOpcode e = opWrite && eStrm e && !(d.lay.streams.any fun s => s.id = eStream e) then
    d.updLay fun l => { l with streams := l.streams ++
      [⟨eStream e, eVolume e, d.volArray (eVolume e), (d.place (eVolume e) (eLba e)).t⟩] }
  else d

/-- Ask for a command's fragment table (R80). -/
def Dev.askTable (d : Dev) (c : Cmd) : Dev :=
  (d.updCmd c.adm fun c => { c with stage := .table }).readHost c.fn (eAddr c.entry) (16 * eFrags c.entry)
    fun off _ => .frags c.adm off

/-- A command that is ready and has the given opcode (DESIGN CHOICE, log entry 34). -/
def Dev.ready? (d : Dev) (op adm : Nat) : Option Cmd :=
  (d.cmd? adm).filter fun c => eOpcode c.entry = op && c.stage = .ready && c.ending.isNone

/-- A ready command on a volume is checked and goes on (R92, R209): held while its array assembles. -/
def Dev.startIo (d : Dev) (op adm : Nat) : Dev :=
  match d.ready? op adm with
  | none => d
  | some c =>
    let v := eVolume c.entry
    if !eFlushAll c.entry && d.volExists v && (d.arr (d.volArray v)).assembling then
      d.updCmd adm fun c => { c with stage := .assembling }
    else match d.checkVolume c with
      | some (st, dw3) => d.endCmd adm st dw3
      | none =>
        let d := d.openStream c
        if op = opFlush then
          let c := { c with cover := d.pwc.clock }
          let d := d.updCmd adm fun x => { x with stage := .waiting, cover := c.cover }
          let arrs := ((d.dram.cache.filter (d.flushCovers c)).map CBlk.array).eraseDups
          (forEach arrs (fun a d => d.waitsFor adm a) d).advance adm
        else if eInd c.entry then d.askTable c
        else d.takeLock adm

/-! ### Admission and host data (R13, R158, R159) -/

/-- The bytes received for block i of a WRITE, once all 4096 are there. -/
def Cmd.blockBytes? (c : Cmd) (i : Nat) : Option Bytes :=
  let bs := (c.recv.filter fun p => decide (4096 * i ≤ p.1 ∧ p.1 < 4096 * (i + 1))).flatMap Prod.snd
  if bs.length = 4096 then some bs else none

/-- Admit the blocks of a WRITE whose data and that of every lower block has arrived, up to the space granted; the first
block whose CRC differs from the host's list stops it (R91, R159). `fuel` bounds the blocks. -/
def Dev.takeBlocks : Nat → Nat → Dev → Dev
  | 0, _, d => d
  | fuel + 1, adm, d =>
    match d.cmd? adm with
    | none => d
    | some c =>
      if c.granted ≤ c.inCache || c.ending.isSome then d
      else match c.blockBytes? c.inCache with
        | none => d
        | some bs =>
          if eTagchk c.entry && decide (crc64 bs ≠ c.crcList.getD c.inCache 0) then d.stopCmd adm ssTagMismatch 0
          else
            let mine (p : Nat × Bytes) : Bool := decide (4096 * c.inCache ≤ p.1 ∧ p.1 < 4096 * (c.inCache + 1))
            let d := d.updCmd adm fun c => { c with recv := c.recv.filter fun p => !mine p }
            Dev.takeBlocks fuel adm (d.putBlock c (trimB bs) false)

/-- ADMISSION_GRANT's effect (R158): the oldest waiting command gets its next space if it fits; its host reads go out, or its
zero blocks go in. -/
def Dev.grant (d : Dev) : Dev :=
  if d.pwc.bothLost || d.vlt.dusk.isSome then d
  else match d.grantNext with
    | none => d.refreshMode
    | some (c, n) =>
      if !d.grantFits n then d.refreshMode
      else
        let first := c.granted
        let wt := decide (d.rd Reg.PWC_CEIL_mib = 0)
        let d := d.updCmd c.adm fun c => { c with
          granted := c.granted + n, wt := c.wt || (wt && decide (first = 0))
          wtGrants := if wt then c.wtGrants ++ [(first, n)] else c.wtGrants }
        let d := if eOpcode c.entry = opWrite then
            forEach ((List.range n).map (first + ·)) (fun i d =>
              forEach (mapRange c.ranges (4096 * i) 4096 0)
                (fun r d => d.readHost c.fn r.1 r.2.1 fun off _ => .data c.adm (4096 * i + r.2.2 + off)) d) d
          else
            forEach (List.range n) (fun _ d => match d.cmd? c.adm with
              | some c => d.putBlock c [] true
              | none => d) d
        d.refreshMode

/-- Dwords of a byte string. -/
def dwordsOf (n : Nat) (bs : Bytes) : List Dword := (List.range n).map fun i => BitVec.ofNat 32 (leNat ((bs.drop (4 * i)).take 4))

/-- The fragments that a table's bytes spell (R80). -/
def fragsOf (n : Nat) (bs : Bytes) : List Frag :=
  (List.range n).map fun i =>
    let e := bs.drop (16 * i)
    ⟨leNat (e.take 8), leNat ((e.drop 8).take 4), leNat ((e.drop 12).take 4)⟩

/-- Data of a host read arrives (R49, R52, R61, R78, R80, R91). -/
def Dev.hostData (d : Dev) (tag : Nat) (data : Bytes) (poisoned : Bool) : Dev :=
  match d.tag? tag with
  | none => d.lateCompletion tag
  | some t =>
    if t.quar then d.lateCompletion tag
    else
      let d := d.freeTag tag
      let d := if poisoned then d.contain 7 t.fn else d
      let data := padB t.len data
      match t.kind with
      | .data adm off =>
        if t.doomed || poisoned then d.stopCmd adm (if poisoned then ssPoisoned else ssHostTimeout) 0
        else
          let d := d.updCmd adm fun c => { c with recv := Tbl.put c.recv off data }
          Dev.takeBlocks 16384 adm d
      | .crcs adm off =>
        if t.doomed || poisoned then d.stopCmd adm (if poisoned then ssPoisoned else ssHostTimeout) 0
        else
          let d := d.updCmd adm fun c => { c with recv := Tbl.put c.recv off data }
          match d.cmd? adm with
          | none => d
          | some c =>
            let bs := c.recv.flatMap Prod.snd
            if bs.length = 8 * eCount c.entry then
              let crcs := (List.range (eCount c.entry)).map fun i => leNat ((bs.drop (8 * i)).take 8)
              d.updCmd adm fun c => { c with stage := .running, recv := [], crcList := crcs }
            else d
      | .frags adm off =>
        if t.doomed || poisoned then d.stopCmd adm (if poisoned then ssPoisoned else ssHostTimeout) 0
        else
          let d := d.updCmd adm fun c => { c with recv := Tbl.put c.recv off data }
          match d.cmd? adm with
          | none => d
          | some c =>
            let bs := c.recv.flatMap Prod.snd
            if bs.length = 16 * eFrags c.entry then
              d.updCmd adm fun c => { c with recv := [], frags := fragsOf (eFrags c.entry) bs }
            else d
      | .entries q slot n =>
        if t.doomed || poisoned then d
        else
          let fill (e : Fetched) : Fetched :=
            if e.q = q ∧ slot ≤ e.slot ∧ e.slot < slot + n ∧ e.data = none then
              { e with data := some (dwordsOf 16 (data.drop (64 * (e.slot - slot)))) }
            else e
          { d with qmx := { d.qmx with fetched := d.qmx.fetched.map fill } }
      | .bme c off =>
        if t.doomed || poisoned then d else d.updBmeCh c fun x => { x with recv := Tbl.put x.recv off data }
      | .dropped | .droppedBme => d

/-- FRAGMENT_TABLE_CHECK's effect (R80, R81, R83, R84): a malformed table halts the device; else the command goes on. -/
def Dev.tableCheck (d : Dev) (adm : Nat) : Dev :=
  match d.cmd? adm with
  | none => d
  | some c =>
    if c.stage ≠ .table || c.frags = [] || !d.intakeOpen then d
    else match malformedTable c.entry c.frags with
      | some (cond, i) =>
        let f := c.frags.getD i ⟨0, 0, 0⟩
        d.halt ⟨2, c.fn, c.q, i, c.slot, cond, adm % 2 ^ 32, c.entry,
          [f.addr % 2 ^ 32, f.addr / 2 ^ 32 % 2 ^ 32, f.len, f.flags]⟩
      | none =>
        if isDataOp (eOpcode c.entry) then d.takeLock adm else d.updCmd adm fun c => { c with stage := .running }

/-- RANGE_LOCK_GRANT's effect (R14). -/
def Dev.lockGrant (d : Dev) (adm : Nat) : Dev :=
  match d.cmd? adm with
  | some c => if c.stage = .lockWait ∧ !d.lockBlocked c then d.afterLock adm else d
  | none => d

/-- FENCE_RELEASE's effect (R98): every lower-ASN command of the function has ended. -/
def Dev.fenceRelease (d : Dev) (adm : Nat) : Dev :=
  match d.cmd? adm with
  | some c =>
    if c.stage = .fenced ∧ !(d.qmx.cmds.any fun x => x.fn = c.fn && decide (x.adm < adm)) then
      d.updCmd adm fun c => { c with stage := .ready }
    else d
  | none => d

/-- BLOCK_FLIP's effect (R159). -/
def Dev.blockFlip (d : Dev) (adm : Nat) : Dev :=
  match d.cmd? adm with
  | some c => d.flip c
  | none => d

/-! ### Meanings -/

/-- READ (R16, R91, R92). -/
def execRead (adm : Nat) (s : State) : Out := s.act fun d => d.startIo opRead adm

/-- WRITE (R13, R91, R92). -/
def execWrite (adm : Nat) (s : State) : Out := s.act fun d => d.startIo opWrite adm

/-- FLUSH (R93, R94). -/
def execFlush (adm : Nat) (s : State) : Out := s.act fun d => d.startIo opFlush adm

/-- VERIFY (R94). -/
def execVerify (adm : Nat) (s : State) : Out := s.act fun d => d.startIo opVerify adm

/-- DEALLOCATE (R95). -/
def execDeallocate (adm : Nat) (s : State) : Out := s.act fun d => d.startIo opDeallocate adm

/-- WRITE_ZEROES (R95). -/
def execWriteZeroes (adm : Nat) (s : State) : Out := s.act fun d => d.startIo opWriteZeroes adm

/-- NOP (R95). -/
def execNop (adm : Nat) (s : State) : Out := s.act fun d =>
  match d.ready? opNop adm with
  | some _ => d.endCmd adm ssSuccess 0
  | none => d

/-- FENCE_RELEASE (R98). -/
def execFenceRelease (adm : Nat) (s : State) : Out := s.act fun d => d.fenceRelease adm

/-- RANGE_LOCK_GRANT (R14). -/
def execRangeLockGrant (adm : Nat) (s : State) : Out := s.act fun d => d.lockGrant adm

/-- FRAGMENT_TABLE_CHECK (R80, R81). -/
def execFragmentTableCheck (adm : Nat) (s : State) : Out := s.act fun d => d.tableCheck adm

/-- ADMISSION_GRANT (R158). -/
def execAdmissionGrant (s : State) : Out := s.act Dev.grant

/-- BLOCK_FLIP (R159). -/
def execBlockFlip (adm : Nat) (s : State) : Out := s.act fun d => d.blockFlip adm

/-- HOST_READ_COMPLETION (R49, R61, R383). -/
def execHostReadCompletion (tag : Nat) (data : Bytes) (poisoned : Bool) (s : State) : Out :=
  .next ({ s with dev := (s.dev.hostData tag data poisoned).settle } : State).bmeStoreAll

end Sys2Proof.Machine
end

