-- ==== Sys2Proof/Machine/Members.lean ====
section
/-! DEFINITION. Members: their states, failure, return, assembly of arrays at start-up, labels, the actions of AR_MCTRL
(R132, R133, R203 to R210, R212, R215, R218, R245, R365). -/

set_option Elab.async false

namespace Sys2Proof.Machine

/-! ### State changes (R203, R204) -/

/-- Move a member to a state (R203); a change sets member_change (R233). -/
def Dev.setMember (d : Dev) (a i st : Nat) : Dev :=
  if d.mst a i = st then d else (d.wr ((Reg.AR_MSTATE_state.ix a).ix i) st).causeBit .mnt 16

/-- Operations of a port end as failed member commands (R245, R246); MEMBER_READ_DONE and MEMBER_WRITE_DONE take them up. -/
def Dev.failOps (d : Dev) (p : Nat) : Dev :=
  let d := d.updLay fun l => { l with ops := l.ops.map fun o =>
    if o.port = p ∧ (o.st = .queued ∨ o.st = .issued) then { o with st := .failed } else o }
  d.updPort p fun s => { s with queue := [], outst := [], recovery := none, grace := false }

/-- A rebuild walk that runs starts again (R215). -/
def Dev.restartWalk (d : Dev) (a : Nat) : Dev := if (d.arr a).walk.isSome then d.walkStart a else d

/-- REBUILD on an array ends when no walk runs and no member has regions to catch up. -/
def Dev.rebuildEnd (d : Dev) (a : Nat) : Dev :=
  let more := (d.arr a).walk.isSome || (d.arr a).walkOwed ||
    (d.members a).any fun i => d.mst a i = msCatchup
  if more then d else d.actEnd .rebuild a

/-- A failed member's slot (R212, R219): the ACTIVE one it holds, or the lowest EMPTY one
(DEDUCED, log entry 65). -/
def Dev.takeSlot (d : Dev) (a i : Nat) : Dev :=
  match d.activeSlotOf a i with
  | some _ => d
  | none => match (d.slots a).find? fun n => d.slotState a n = slEmpty with
    | some n => d.setSlot a n slActive i
    | none => d

/-- Copyback is done with a member: the next REPLACING one follows, else it ends (R218, R219). -/
def Dev.copybackFollow (d : Dev) (a : Nat) : Dev :=
  match (d.members a).find? fun x => d.mst a x = msReplacing with
  | some x => d.wr (Reg.AR_CPBK_member.ix a) x |>.wr (Reg.AR_CPBK_CUR_cycle.ix a) 0
  | none => (d.wr (Reg.AR_CPBK_running.ix a) 0).actEnd .copyback a

/-- A member becomes FAILED (R204, R208, R210, R212, R215, R347): slot, labels, loss, lost stripes, and a walk. -/
def Dev.memberFailed (d : Dev) (a i : Nat) : Dev :=
  if d.mst a i = msFailed ∨ d.mst a i = msNone then d
  else
    let was := d.mst a i
    let port := (d.memberPort a i).getD 0
    let d := d.setMember a i msFailed
    let d := (d.setMissed a i []).takeSlot a i
    let d := d.updArr a fun r => { r with placedAll := r.placedAll.filter (· ≠ i), catchCycle := Tbl.erase r.catchCycle i }
    let d := if was = msReplacing ∧ d.rd (Reg.AR_CPBK_member.ix a) = i then d.copybackFollow a else d
    let d := ((d.writeLabels a).arrChanged a port).sweepDead a
    let d := if d.hasActiveSlot a i ∧ d.rdB Reg.MNT_CFG_auto_rebuild ∧ d.blkState .ccx ≠ stFault then d.askWalk a
      else d.restartWalk a
    d.rebuildEnd a

/-- A member becomes MISSING (R204): its drive has left. A replacement that leaves during copyback is FAILED (DESIGN CHOICE, log entry 23). -/
def Dev.memberLeft (d : Dev) (a i : Nat) : Dev :=
  if d.mst a i = msReplacing then d.memberFailed a i
  else if d.mst a i = msOk ∨ d.mst a i = msCatchup then
    let port := (d.memberPort a i).getD 0
    let d := d.updArr a fun r => { r with
      leftGen := Tbl.put r.leftGen i r.labelGen, catchCycle := Tbl.erase r.catchCycle i }
    ((((d.setMember a i msMissing).writeLabels a).arrChanged a port).restartWalk a).rebuildEnd a
  else d

/-- Whether a drive's label lets a MISSING or FW_UPDATE member come back: its array id is the array's, and its generation is not
lower than the member's at its departure (R204). -/
def Dev.mayReturn (d : Dev) (a i : Nat) (l : Label) : Bool :=
  decide ((d.arr a).arrayId = l.arrayId.toNat) && l.index = i && !serialBefore l.gen (Tbl.getD (d.arr a).leftGen i l.gen)

/-- A member is back with its content (R204): OK when nothing of it is marked, else CATCHUP under REBUILD. -/
def Dev.memberBack (d : Dev) (a i p : Nat) : Dev :=
  let d := d.movePort a i p
  if d.missed a i = [] then ((d.setMember a i msOk).arrChanged a p).rebuildEnd a
  else ((d.setMember a i msCatchup).arrChanged a p).arbRequest .rebuild a

/-- A drive is failed (R245, R260): its port, its operations, the event, and its member. -/
def Dev.failDrive (d : Dev) (p reason : Nat) : Dev :=
  let m := d.memberOn p
  let was := d.ptState p
  let d := d.wr (Reg.PT_STAT_state.ix p) ptFailed |>.wr (Reg.PT_STAT_reason.ix p) reason
  let d := if was = ptFailed then d else d.causeBit .dpx 16
  let d := ((d.failOps p).causeBit .dpx 17).errUncorr .dpx 4
  let d := d.post 0x02 3 p reason (match m with | some x => x.1 | none => 0xFF) 0
  match m with
  | some x => d.memberFailed x.1 x.2
  | none => d

/-! ### Assembly (R114, R133, R204, R205, R209) -/

/-- An array assembles: its members are collected (R209). -/
def Dev.assembleStart (d : Dev) (a : Nat) : Dev :=
  (d.updArr a fun r => { r with assembling := true, foundMembers := [] }).wr (Reg.AR_STAT_state.ix a) asAssembling

/-- A label refused at assembly (R128, R133). -/
def Dev.assemblyRefused (d : Dev) : Dev := (d.causeBit .lay 18).errUncorr .lay 6

/-- One unit record as read from a member (R115). -/
def unitRecOf (w : Nat) : UnitRec := ⟨bitsOf w 31 16, bitsOf w 15 9, bitsOf w 8 4, bitOf w 2, bitsOf w 1 0⟩

/-- The unit records of a member fill the tables at a start without an image (R115, R133): the stripe's state and
generation, and the record itself where the member's entry of the cycle is a spare. -/
def Dev.readUnitRecords (d : Dev) (a i : Nat) (rs : List (Nat × Nat)) : Dev :=
  let g := d.geo a
  forEach rs (fun x d =>
    let r := unitRecOf x.2
    if !r.holds || decide (g.cycles ≤ x.1) then d
    else
      let spare := g.sparePos.any fun e => (g.cycleList x.1).getD e 0 = i
      let st := if d.lay.suspectAll ∧ r.state ≠ ssFresh then ssSuspect else r.state
      let d := d.updStripe a (x.1 * g.spc + r.s) fun s => { s with state := max s.state st, gen := r.gen }
      if spare then d.setUnitRec a i x.1 r else d) d

/-- The commands held for an array's assembly go on (R209). -/
def Dev.releaseAssembly (d : Dev) (a : Nat) : Dev :=
  let go (c : Cmd) : Cmd := if c.stage = .assembling ∧ d.volArray (eVolume c.entry) = a then { c with stage := .ready } else c
  { d with qmx := { d.qmx with cmds := d.qmx.cmds.map go } }

/-- An array leaves ASSEMBLING (R205, R209): members not found are MISSING, which restarts a walk (R215), a replacement under
copyback not found is FAILED (DESIGN CHOICE, log entry 23); at a start without an image those with an older label are FAILED;
open intent records are replayed, owed labels fall due, held commands go on. -/
def Dev.assembled (d : Dev) (a : Nat) : Dev :=
  let found := (d.arr a).foundMembers
  let top := (d.lay.found.filter fun x => x.2.1.array = a).map fun x => (x.2.1.index, x.2.1.gen)
  let stale (i : Nat) : Bool := match Tbl.get? top i with
    | some g => serialBefore g (d.arr a).labelGen
    | none => false
  let d := d.updArr a fun r => { r with assembling := false, foundMembers := [] }
  let all := d.members a
  let lost := all.filter fun i => !found.contains i && !([msMissing, msFailed] : List Nat).contains (d.mst a i)
  let gone := lost.filter fun i => d.mst a i ≠ msReplacing
  let d := forEach gone (fun i d => (d.updArr a fun r => { r with
    leftGen := Tbl.put r.leftGen i r.labelGen, catchCycle := Tbl.erase r.catchCycle i }).setMember a i msMissing) d
  let d := if gone = [] then d else (d.writeLabels a).restartWalk a
  let d := d.refreshArr a ((gone.head?.bind (d.memberPort a)).getD 0)
  let d := forEach (lost.filter fun i => !gone.contains i) (fun i d => d.memberFailed a i) d
  let d := forEach (found.filter stale) (fun i d => d.memberFailed a i) d
  let d := if d.allOptimal then d else forEach (d.running.filter fun x => x.act = .learn) (fun x d => d.actAbort x) d
  let d := (d.replayIntents a).sweepDead a
  let d := if d.rdB (Reg.AR_STAT_labelled.ix a) then d else d.oweLabels a
  let d := if all.any fun i => d.mst a i = msCatchup then d.arbRequest .rebuild a else d
  d.releaseAssembly a

/-- A member of an assembling array is found on a port by its label; one that was MISSING or in FW_UPDATE is taken back as R204
says. -/
def Dev.memberFound (d : Dev) (a i p : Nat) (l : Label) : Dev :=
  let away := decide (d.mst a i = msMissing ∨ d.mst a i = msFwUpdate)
  if away && !d.mayReturn a i l then d
  else
  let d := (d.movePort a i p).updArr a fun r => { r with foundMembers := insertNat i r.foundMembers }
  let d := if away then d.setMember a i (if d.missed a i = [] then msOk else msCatchup)
    else if d.mst a i = msNone then d.setMember a i msOk
    else d
  let d := if p ≠ d.labelPort a i then d.wr (Reg.AR_STAT_relocated.ix a) 1 else d
  if (d.members a).all fun j => (d.arr a).foundMembers.contains j || d.mst a j = msFailed then d.assembled a
  else d

/-- Write a volume's live descriptor from a slot of the volume table (R113, R133). -/
def Dev.volFromSlot (d : Dev) (a : Nat) (x : VolSlot) : Dev :=
  let v := x.volume
  let d := d.wr (Reg.VD_CFG_en.ix v) 1 |>.wr (Reg.VD_CFG_pf0.ix v) (b2n x.pf0)
    |>.wr (Reg.VD_CFG_stream_en.ix v) (b2n x.streamEn) |>.wr (Reg.VD_CFG_array.ix v) a
    |>.wr (Reg.VD_CFG_hold_ms.ix v) x.holdMs |>.wr (Reg.VD_ACCESS_vfs.ix v) x.access.toNat
    |>.wr (Reg.VD_FIRST_first.ix v) x.first |>.wr (Reg.VD_STRIPES_stripes.ix v) x.stripes
    |>.wr (Reg.VD_TAGID_tag_id.ix v) x.tagId
  d.updLay fun l => { l with incarnation := Tbl.put l.incarnation v (x.tagId / 1024 % 64) }

/-- An array is restored from its labels: the label with the highest generation governs, and the volumes are those of its
table alone (R133). -/
def Dev.arrayFromLabel (d : Dev) (l : Label) (vols : List VolSlot) : Dev :=
  let a := l.array
  let d := d.wr (Reg.AR_CFG_en.ix a) 1 |>.wr (Reg.AR_CFG_k.ix a) l.k |>.wr (Reg.AR_CFG_m.ix a) l.m
    |>.wr (Reg.AR_CFG_unit.ix a) l.unit |>.wr (Reg.AR_CFG_spares.ix a) l.s |>.wr (Reg.AR_SEED_seed.ix a) l.seed.toNat
    |>.wr (Reg.AR_STAT_labelled.ix a) 1
  let d := forEach (List.range l.g) (fun i d => d.setMemberPort a i ((l.ports.getD i none).getD 0)) d
  let ports := (List.range l.g).map fun i => (i, (l.ports.getD i none).getD 0)
  let idents := (List.range l.g).map fun i => (i, (l.idents.getD i 0).toNat)
  let d := d.updArr a fun r => { r with
    labelGen := l.gen, arrayId := l.arrayId.toNat, created := l.created.toNat, cycles := l.cycles
    recPorts := ports, recIdents := idents, newPorts := [] }
  let d := forEach (d.volumes.filter fun v => d.volArray v = a) (fun v d => d.wr (Reg.VD_CFG_en.ix v) 0) d
  forEach vols (fun x d => d.volFromSlot a x) d

/-- A start without an image takes a drive in by its label (R133). -/
def Dev.collect (d : Dev) (p : Nat) (l : Label) (x : DriveInfo) : Dev :=
  let a := l.array
  let d := d.updLay fun y => { y with found := y.found.filter (fun z => z.1 ≠ p) ++ [(p, l, volSlotsIn x.volumes)] }
  if 16 ≤ a || d.lay.refusedIds.contains l.arrayId.toNat then d.assemblyRefused
  else if d.lay.found.any fun z => z.2.1.array = a && z.2.1.arrayId ≠ l.arrayId then
    let ids := (d.lay.found.filter fun z => z.2.1.array = a).map fun z => z.2.1.arrayId.toNat
    let d := d.updLay fun y => { y with refusedIds := y.refusedIds ++ ids }
    let d := forEach (d.volumes.filter fun v => d.volArray v = a) (fun v d => d.wr (Reg.VD_CFG_en.ix v) 0) d
    ((d.updArr a fun _ => {}).wr (Reg.AR_CFG_en.ix a) 0 |>.wr (Reg.AR_STAT_state.ix a) asDisabled).assemblyRefused
  else
    let newest := !d.arrEn a || serialBefore (d.arr a).labelGen l.gen
    let fresh := !d.arrEn a
    let kept := (d.arr a).foundMembers
    let d := if newest then d.arrayFromLabel l (volSlotsIn x.volumes) else d
    let d := if fresh then d.assembleStart a else d
    let d := if newest then
        forEach (d.lay.found.filter fun z => z.2.1.array = a && kept.contains z.2.1.index)
          (fun z d => d.setMemberPort a z.2.1.index z.1) d
      else d
    if (d.arr a).assembling then (d.readUnitRecords a l.index x.unitRecords).memberFound a l.index p l else d

/-- A READY drive's label is handed to LAY (R133, R204, R238 step 6); before Dawn has chosen its start and restored, LAY
takes none (R209, R316). -/
def Dev.labelSeen (d : Dev) (p : Nat) (x : DriveInfo) : Dev :=
  match pickLabel x with
  | none => d
  | some l =>
    if d.vlt.dawn.isSome || d.vlt.foreignWait || decide (d.rd (Reg.BLK_STAT_specific.ix 0) < 4) then d
    else if d.lay.collecting then d.collect p l x
    else match d.arrays.find? fun a => (d.arr a).arrayId = l.arrayId.toNat with
      | none => d.assemblyRefused
      | some a =>
        let i := l.index
        if !(d.members a).contains i || d.mst a i = msFailed then d
        else if (d.arr a).assembling then d.memberFound a i p l
        else if (d.mst a i = msMissing || d.mst a i = msFwUpdate) && d.mayReturn a i l then d.memberBack a i p
        else d

/-! ### Labels (R132) -/

/-- LABEL_WRITE_DONE's effect: the owed labels of an array are written; members that fail the write are failed. -/
def Dev.labelsDone (d : Dev) (a : Nat) (bad : List Nat) : Dev :=
  if !d.lay.labelsOwed.contains a || d.blkState .ccx = stFault || (d.arr a).assembling then d
  else
    let d := (d.updLay fun l => { l with labelsOwed := l.labelsOwed.filter (· ≠ a) }).writeLabels a
    let d := d.wr (Reg.AR_STAT_labelled.ix a) 1
    forEach (bad.filter fun i => d.memberPresent a i) (fun i d =>
      ((d.causeBit .lay 17).errUncorr .lay 5).failDrive ((d.memberPort a i).getD 0) 8) d

/-! ### AR_MCTRL (R218, R232) -/

/-- AR_MCTRL_STAT of the last action. -/
def Dev.mctrlStat (d : Dev) (a i result : Nat) : Dev :=
  d.wr (Reg.AR_MCTRL_STAT_member.ix a) i |>.wr (Reg.AR_MCTRL_STAT_result.ix a) result

/-- FAIL (R204, R245): the drive is failed with reason HOST where its port holds it. -/
def Dev.actFail (d : Dev) (a i : Nat) : Dev :=
  if !d.arrEn a || decide (d.memberCount a ≤ i) then d.mctrlStat a i 1
  else if d.mst a i = msFailed then d.mctrlStat a i 2
  else
    let p := (d.memberPort a i).getD 0
    let d := d.mctrlStat a i 0
    if d.mst a i = msMissing then d.memberFailed a i else d.failDrive p 6

/-- Why REPLACE cannot be done, in result codes (R218, R232). -/
def Dev.replaceBad (d : Dev) (a i p : Nat) : Option Nat :=
  let g := d.geo a
  if !d.arrEn a || decide (d.memberCount a ≤ i) || decide (256 ≤ p) || decide (d.ptState p ≠ ptReady) then some 1
  else if !(d.mst a i = msFailed || d.mst a i = msMissing) then some 2
  else if d.rd (Reg.PT_BLOCKS_blocks.ix p) < rsv + g.cycles * g.ub then some 3
  else if (match d.memberOn p with | some m => decide (m ≠ (a, i)) | none => false) then some 4
  else none

/-- REPLACE (R218, R365). -/
def Dev.actReplace (d : Dev) (a i p : Nat) : Dev :=
  match d.replaceBad a i p with
  | some r => d.mctrlStat a i r
  | none =>
    let d := d.memberFailed a i
    let ident := d.rd (Reg.PT_ID_id.ix p)
    let moved := decide (p ≠ d.recPort a i)
    let d := (d.setMemberPort a i p).updArr a fun r => { r with
      recIdents := Tbl.put r.recIdents i ident
      newPorts := if moved then Tbl.put r.newPorts i p else Tbl.erase r.newPorts i }
    let ports := d.ports a
    let even := (List.range 8).all fun c =>
      let n := (ports.filter fun q => q / 32 = c).length
      n = 0 || n * clustersOf ports = ports.length
    let d := if moved && !even then d.wr (Reg.AR_STAT_relocated.ix a) 1 else d
    let d := d.setMember a i msReplacing
    let d := (d.writeLabel a p (d.labelOf a i)).oweLabels a
    let others := (d.members a).any fun x => x ≠ i && d.mst a x = msReplacing
    let d := if others then d
      else d.wr (Reg.AR_CPBK_member.ix a) i |>.wr (Reg.AR_CPBK_CUR_cycle.ix a) 0
    let d := (d.arrChanged a p).arbRequest .copyback a
    d.mctrlStat a i (if d.actRuns .copyback a then 0 else 5)

/-- REBUILD (R215): a walk starts; one that exists goes on as it is. -/
def Dev.actRebuild (d : Dev) (a i : Nat) : Dev :=
  if !d.arrEn a then d.mctrlStat a i 1
  else if d.activeMembers a = [] then d.mctrlStat a i 2
  else
    let d := if (d.arr a).walk.isSome then d else d.askWalk a
    d.mctrlStat a i (if d.actRuns .rebuild a then 0 else 5)

/-! ### Timers (R204, R209) -/

/-- MISSING_TIMEOUT's effect: not while an exemption holds: an OFFLINE array, a cluster FAILED as a whole or switched off
(R204, R247), or a timer of 0. -/
def Dev.missingTimeout (d : Dev) (a i : Nat) : Dev :=
  let p := (d.memberPort a i).getD 0
  if d.mst a i = msMissing && decide (d.rd Reg.MNT_CFG_missing_s ≠ 0) && decide (d.arrState a ≠ asOffline) &&
      !([0, 3] : List Nat).contains (d.rd (Reg.DPX_CL_state.ix (p / 32))) then d.memberFailed a i
  else d

/-- ASSEMBLE_TIMEOUT's effect; drives that come later are not taken in by their labels (R133). -/
def Dev.assembleTimeout (d : Dev) (a : Nat) : Dev :=
  let d := d.updLay fun l => { l with collecting := false }
  if (d.arr a).assembling then d.assembled a else d

/-! ### Meanings -/

/-- LABEL_WRITE_DONE (R132). -/
def execLabelWriteDone (array : Nat) (failedMembers : List Nat) (s : State) : Out :=
  onUnit (decide (array < 16)) s fun d => d.labelsDone array failedMembers

/-- ASSEMBLE_TIMEOUT (R209). -/
def execAssembleTimeout (array : Nat) (s : State) : Out := onUnit (decide (array < 16)) s fun d => d.assembleTimeout array

/-- MISSING_TIMEOUT (R204). -/
def execMissingTimeout (array member : Nat) (s : State) : Out :=
  onUnit (decide (array < 16)) s fun d => d.missingTimeout array member

/-- MEMBER_FAIL (R232). -/
def execMemberFail (array member : Nat) (s : State) : Out := onPage .lay (decide (array < 16)) s fun d => d.actFail array member

/-- MEMBER_REPLACE (R218). -/
def execMemberReplace (array member port : Nat) (s : State) : Out :=
  onPage .lay (decide (array < 16)) s fun d => d.actReplace array member port

/-- MEMBER_REBUILD (R215). -/
def execMemberRebuild (array member : Nat) (s : State) : Out :=
  onPage .lay (decide (array < 16)) s fun d => d.actRebuild array member

end Sys2Proof.Machine
end

