-- ==== Sys2Proof/Machine/Maintain.lean ====
section
/-! DEFINITION. The activities that restore, check and reshape arrays: the rebuild of a stripe, catch-up, copyback, scrub,
restripe, drive firmware download; requests to the arbiter, deferred starts, hot spots (R205, R214 to R230). -/

set_option Elab.async false

namespace Sys2Proof.Machine

/-! ### Reconstruction of units within a step (R121, R211, R216) -/

/-- What ECE reconstructed of a stripe, and the positions read whose rows failed their tags. -/
structure Recon where
  out : List BufBlk
  bad : List (Nat × List (Nat × Nat))

/-- The content of row r of a reconstructed unit. -/
def Recon.row (x : Recon) (j r : Nat) : Block := ((x.out.find? fun b => b.j = j && b.row = r).map BufBlk.data).getD []

/-- The rows of a unit as a read brought them. -/
def unitRows (units : Units) (j : Nat) : List Block := (units.getD j none).getD []

/-- The decode job that reconstructs units of a stripe from the available positions that answered, in the order of R140;
positions whose tags fail are used only where too few others remain. None where fewer than k units can be used
(DESIGN CHOICE, log entry 36). -/
def Dev.recon (d : Dev) (a t : Nat) (want : List Nat) (units : Units) (work : MntWork) : Option EceJob :=
  let g := d.geoAt a t
  let p := d.plan a t
  let rows := List.range g.ub
  let avail := (List.range p.w).filter fun j => d.available a p j && (units.getD j none).isSome
  let checked := avail.map fun j => (j, d.checkUnit a t j rows (rows.map fun r => (unitRows units j).getD r []))
  let bad := (checked.filter fun x => x.2.2 ≠ []).map fun x => (x.1, x.2.2)
  let good := avail.filter fun j => !(bad.any fun x => x.1 = j)
  let use := (if g.k ≤ good.length then good else avail).take g.k
  let content (j r : Nat) : Block :=
    match (checked.find? fun x => x.1 = j).bind fun x => x.2.1.find? fun b => b.row = r with
    | some b => b.data
    | none => (unitRows units j).getD r []
  let inputs := use.flatMap fun j => rows.map fun r => (⟨j, r, content j r⟩ : BufBlk)
  let lost := (List.range p.w).filter fun j =>
    !use.contains j && (decide (j < g.k) || want.contains j || bad.any fun x => x.1 = j)
  if use.length < g.k then none
  else some {
    id := 0, kind := .decode, lane := 1, array := a, t := t, k := g.k, m := g.m, rows := rows, inputs := inputs, fresh := []
    lost := lost, parityRows := [], client := .mnt work (bad.filter fun x => lost.contains x.1)
    zeros := markZeros g.k g.dpu t inputs }

/-- Whether ECE holds a job of an array for maintenance work of a kind. -/
def Dev.mntBusy (d : Dev) (a : Nat) (p : MntWork → Bool) : Bool :=
  d.ece.jobs.any fun j => j.array = a && match j.client with | .mnt w _ => p w | _ => false

/-- Rows of a reconstructed data unit that fail steps 2 to 5 of R121. -/
def Dev.failingRows (d : Dev) (a t j : Nat) (row : Nat → Block) : List Nat :=
  let g := d.geoAt a t
  if g.k ≤ j then []
  else (List.range g.dpu).filter fun r => match d.blockAt a t j r with
    | some (v, lba) => !(checkTag (tagAt (row g.dpu) r) lba (d.tagIdOf v) (d.gens a t) (row r)).ok
    | none => false

/-- Reconstructed blocks that fail their tags are written as they are, and counted (R216, R233). -/
def Dev.countRebuiltBad (d : Dev) (a n : Nat) : Dev :=
  forEach (List.replicate n ()) (fun _ d => (d.incSat (Reg.AR_TAG_UNREP_count.ix a)).errUncorr .mnt 3) d

/-- Units read with mismatches are repaired in place from the reconstruction (R121). -/
def Dev.repairRead (d : Dev) (a t : Nat) (x : Recon) : Dev :=
  forEach x.bad (fun b d =>
    let j := b.1
    let still := d.failingRows a t j (x.row j)
    let fix := b.2.filter fun c => !still.contains c.1
    let d := d.tagError b.2
    let d := forEach fix (fun c d => d.countRepair a c.2) d
    let d := d.unrepaired a (b.2.length - fix.length)
    d.repair ⟨a, t, j, fix.map fun c => ⟨j, c.1, x.row j c.1⟩⟩) d

/-- Write a whole reconstructed unit to a member under an intent record of kind REPAIR, opened and retired within the step. -/
def Dev.writeUnit (d : Dev) (a member cycle : Nat) (g : Geo) (rows : List Block) : Dev :=
  let d := d.updDram fun m => { m with intentSeq := (m.intentSeq + 1) % 2 ^ 32 }
  d.sendBlocks ((d.memberPort a member).getD 0) (g.unit0 cycle) rows

/-- Clear a spare's unit record. -/
def Dev.clearRecord (d : Dev) (a member cycle : Nat) : Dev := d.putRecord a member cycle {}

/-- Whether the maintenance of an array may work: its activity runs and ECE has a lane (R351)
(DESIGN CHOICE, log entry 42). -/
def Dev.canMaintain (d : Dev) (act : Act) (a : Nat) : Bool :=
  d.actRuns act a && !d.eceDown && !(d.arr a).assembling

/-! ### Rebuild (R214 to R217) -/

/-- The next stripe of a walk: passes that hold none end; `fuel` bounds the passes. -/
def Dev.walkNext : Nat → Nat → Dev → Dev
  | 0, _, d => d
  | fuel + 1, a, d =>
    match (d.arr a).walk with
    | none => d
    | some w =>
      if w.pass = 0 then (d.walkEnd a).rebuildEnd a
      else match d.walkFind a w.pass (d.walkFuel a) w.cycle w.s with
        | some (c, s) =>
          (d.updArr a fun r => { r with walk := some { w with cycle := c, s := s } }).wr (Reg.AR_RBLD_CUR_cycle.ix a) c
        | none =>
          let d := d.passEnd a w.pass
          let d := d.updArr a fun r => { r with walk := some { w with pass := w.pass - 1, cycle := 0, s := 0 } }
          Dev.walkNext fuel a (d.wr (Reg.AR_RBLD_pass.ix a) (w.pass - 1) |>.wr (Reg.AR_RBLD_CUR_cycle.ix a) 0)

/-- The seconds left at the rate of the last 60 s, or since the walk began where that is shorter, rounded up; all ones while
nothing was placed (R217) (DESIGN CHOICE, log entry 79). -/
def Walk.eta (w : Walk) (now : Nat) : Nat :=
  let n := (w.recent.map Prod.snd).sum
  let span := min (60 * ticksPerSec) (now - w.beganTicks)
  if n = 0 then 2 ^ 32 - 1 else min (2 ^ 32 - 1) (ceilDiv ((w.planned - w.placed) * span) (n * ticksPerSec))

/-- A walk's progress after it placed units (R217). -/
def Dev.walkProgress (d : Dev) (a n : Nat) : Dev :=
  match (d.arr a).walk with
  | none => d
  | some w =>
    let placed := w.placed + n
    let pm := if w.planned = 0 then 1000 else min 1000 (placed * 1000 / w.planned)
    let recent := w.recent.filter fun (x : Nat × Nat) => d.ticks < x.1 + 60 * ticksPerSec
    let w := { w with placed := placed, recent := recent ++ [(d.ticks, n)] }
    let eta := w.eta d.ticks
    let post := decide (w.lastPost / 10 < pm / 10)
    let d := d.updArr a fun r => { r with walk := some { w with
      s := w.s + 1, stripes := w.stripes + 1, lastPost := if post then pm else w.lastPost } }
    let d := d.wr (Reg.AR_RBLD_permille.ix a) pm |>.wr (Reg.AR_RBLD_ETA_s.ix a) eta
    if post then d.postVolume (d.arrayVfs a) 0x11 0 a pm eta 0 else d

/-- Positions of a stripe that the walk can write: unavailable, with a spare entry on an OK member (R214). -/
def Dev.placeableAt (d : Dev) (a : Nat) (p : Plan) : List (Nat × Nat) :=
  (d.unavailable a p).filterMap fun j => (p.spare.getD j none).bind fun i => if d.mst a i = msOk then some (j, i) else none

/-- The walk passes over its stripe: a read did not answer for enough units. -/
def Dev.walkSkip (d : Dev) (a : Nat) : Dev :=
  d.updArr a fun r => { r with walk := r.walk.map fun w => { w with s := w.s + 1 } }

/-- The stripe that a walk stands at. -/
def Dev.walkAt (d : Dev) (a : Nat) (w : Walk) : Nat :=
  let gb := d.cycleGeo a w.cycle
  w.cycle * gb.1.spc + w.s + gb.2

/-- Step 5 of R216: the unit records of the units placed, and the stripe's state. -/
def Dev.walkRecords (d : Dev) (a t : Nat) (dest : List (Nat × Nat)) : Dev :=
  let p := d.plan a t
  let x := d.stripe a t
  let st := if x.state = ssFresh then ssFresh else if x.state = ssSuspect then ssSuspect else ssSpare
  (forEach dest (fun y d => d.putRecord a y.2 p.c ⟨x.gen, p.s, y.1, true, st⟩) d).updStripe a t fun r => { r with state := st }

/-- The walk takes up the stripe it stands at: a FRESH one gets its records, of another one the lost units go to ECE as a
decode job (R216 steps 1 and 2). -/
def Dev.walkStripe (d : Dev) (a : Nat) (units : Units) : Dev :=
  match (d.arr a).walk with
  | none => d
  | some w =>
    let t := d.walkAt a w
    let dest := d.placeableAt a (d.plan a t)
    if d.destaging a t then d
    else if (d.stripe a t).state = ssFresh then (d.walkRecords a t dest).walkProgress a dest.length
    else match d.recon a t (dest.map Prod.fst) units .rebuild with
      | none => d.walkSkip a
      | some j => d.addJob j

/-- REBUILD_STRIPE's effect: the next stripe of the walk, and the ends of passes and of the walk that follow it. -/
def Dev.rebuildStripe (d : Dev) (a : Nat) (units : Units) : Dev :=
  if d.canMaintain .rebuild a && (d.arr a).walk.isSome && !d.mntBusy a (· = .rebuild) then
    let d := Dev.walkNext 8 a d
    Dev.walkNext 8 a (d.walkStripe a units)
  else d

/-- The units of the stripe that the walk stands at come back from ECE: they are checked, written to their spare entries and
recorded (R216 steps 3 to 5). What came too late for the walk is dropped, and its stripe taken up again. -/
def Dev.walkDecoded (d : Dev) (a t : Nat) (x : Recon) : Dev :=
  match (d.arr a).walk with
  | none => d
  | some w =>
    let dest := d.placeableAt a (d.plan a t)
    if d.canMaintain .rebuild a && decide (t = d.walkAt a w) && !d.destaging a t &&
        dest.all (fun y => x.out.any fun b => b.j = y.1) then
      let g := d.geoAt a t
      let bad := (dest.map fun y => (d.failingRows a t y.1 (x.row y.1)).length).sum
      let d := (d.countRebuiltBad a bad).repairRead a t x
      let d := forEach dest (fun y d => d.writeUnit a y.2 w.cycle g ((List.range g.ub).map (x.row y.1))) d
      Dev.walkNext 8 a ((d.walkRecords a t dest).walkProgress a dest.length)
    else d

/-! ### Catch-up (R205) -/

/-- The unit that a member holds in a cycle: stripe and position (R205): its own stripe unit, or that of its spare entry. -/
def Dev.unitHeld (d : Dev) (a i c : Nat) : Option (Nat × Nat) :=
  let gb := d.cycleGeo a c
  let list := gb.1.cycleList c
  match (List.range (gb.1.spc * gb.1.w)).find? fun q => list.getD q 0 = i with
  | some q =>
    let t := c * gb.1.spc + q / gb.1.w + gb.2
    if d.onSpare a (d.plan a t) (q % gb.1.w) then none else some (t, q % gb.1.w)
  | none =>
    let r := d.unitRec a i c
    if r.holds then some (c * gb.1.spc + r.s + gb.2, r.j) else none

/-- Catch-up is over a cycle: at the end of a region its bit goes, and without marked regions the member is OK. -/
def Dev.catchNext (d : Dev) (a i c : Nat) : Dev :=
  if (c + 1) % regionCycles ≠ 0 ∧ c + 1 < (d.arr a).cycles then
    d.updArr a fun r => { r with catchCycle := Tbl.put r.catchCycle i (c + 1) }
  else
    let d := d.setMissed a i ((d.missed a i).filter (· ≠ c / regionCycles))
    let d := d.updArr a fun r => { r with catchCycle := Tbl.erase r.catchCycle i }
    if d.missed a i = [] then ((d.setMember a i msOk).arrChanged a ((d.memberPort a i).getD 0)).rebuildEnd a else d

/-- The cycle that catch-up of a member stands at: the next one of its lowest marked region. -/
def Dev.catchAt (d : Dev) (a i : Nat) : Option Nat :=
  (d.missed a i).head?.map fun region => max (Tbl.getD (d.arr a).catchCycle i 0) (region * regionCycles)

/-- CATCHUP_CYCLE's effect on a member: a cycle without written content of it is passed; else its unit goes to ECE as a decode
job. -/
def Dev.catchupCycle (d : Dev) (a i : Nat) (units : Units) : Dev :=
  match d.catchAt a i with
  | none => d
  | some c =>
    if d.canMaintain .rebuild a && decide (d.mst a i = msCatchup) && !d.mntBusy a (· = .catchup i c) then
      match d.unitHeld a i c with
      | none => d.catchNext a i c
      | some (t, j) =>
        if (d.stripe a t).state = ssFresh then d.catchNext a i c
        else if d.destaging a t then d
        else match d.recon a t [j] units (.catchup i c) with
          | none => d
          | some j => d.addJob j
    else d

/-- A CATCHUP member's unit comes back from ECE: it is checked and written, and catch-up goes on. -/
def Dev.catchDecoded (d : Dev) (a t i c : Nat) (x : Recon) : Dev :=
  match d.unitHeld a i c with
  | some (t', j) =>
    if d.canMaintain .rebuild a && decide (d.mst a i = msCatchup) && d.catchAt a i = some c && decide (t' = t) &&
        !d.destaging a t then
      let g := d.geoAt a t
      let d := (d.countRebuiltBad a (d.failingRows a t j (x.row j)).length).repairRead a t x
      (d.writeUnit a i c g ((List.range g.ub).map (x.row j))).catchNext a i c
    else d
  | none => d

/-! ### Copyback (R219) -/

/-- Copyback is done with an array's member: it is OK, its slot RETIRED; the next REPLACING member follows. -/
def Dev.copybackEnd (d : Dev) (a i : Nat) : Dev :=
  let d := d.setMember a i msOk
  let d := match d.activeSlotOf a i with
    | some n => (d.setSlot a n slRetired i).tidySlots a
    | none => d
  (d.arrChanged a ((d.memberPort a i).getD 0)).copybackFollow a

/-- Copyback goes on to the next cycle. -/
def Dev.copybackNext (d : Dev) (a i c : Nat) : Dev :=
  let d := d.wr (Reg.AR_CPBK_CUR_cycle.ix a) (c + 1)
  if (d.arr a).cycles ≤ c + 1 then d.copybackEnd a i else d

/-- A stripe is CLEAN again when none of its units remains on a spare. -/
def Dev.tidySpare (d : Dev) (a t : Nat) : Dev :=
  if (d.stripe a t).state = ssSpare then d.updStripe a t fun r => { r with state := d.cleanState a t } else d

/-- The stripe unit that a member has in a cycle's list: stripe and position (R110). -/
def Dev.unitOf (d : Dev) (a i c : Nat) : Option (Nat × Nat) :=
  let gb := d.cycleGeo a c
  let list := gb.1.cycleList c
  ((List.range (gb.1.spc * gb.1.w)).find? fun q => list.getD q 0 = i).map fun q =>
    (c * gb.1.spc + q / gb.1.w + gb.2, q % gb.1.w)

/-- The spare entry of a unit that copyback is done with is free. -/
def Dev.freeSpare (d : Dev) (a t j : Nat) : Dev :=
  let p := d.plan a t
  if d.onSpare a p j then d.clearRecord a ((p.spare.getD j none).getD 0) p.c else d

/-- Copyback writes a unit to the replaced member, frees its spare entry and goes on. -/
def Dev.copybackWrite (d : Dev) (a i c t j : Nat) (row : Nat → Block) : Dev :=
  let g := d.geoAt a t
  let d := d.writeUnit a i c g ((List.range g.ub).map row)
  ((d.freeSpare a t j).tidySpare a t).copybackNext a i c

/-- COPYBACK_CYCLE's effect: the replaced member's unit of the cycle at the cursor is copied from its spare, or goes to ECE as
a decode job. -/
def Dev.copybackCycle (d : Dev) (a : Nat) (units : Units) : Dev :=
  let i := d.rd (Reg.AR_CPBK_member.ix a)
  let c := d.rd (Reg.AR_CPBK_CUR_cycle.ix a)
  if d.canMaintain .copyback a && decide (d.mst a i = msReplacing) && !d.mntBusy a (· = .copyback i c) then
    match d.unitOf a i c with
    | none => d.copybackNext a i c
    | some (t, j) =>
      let p := d.plan a t
      if d.destaging a t then d
      else if (d.stripe a t).state = ssFresh then (d.freeSpare a t j).copybackNext a i c
      else if d.onSpare a p j && d.available a p j && (units.getD j none).isSome then
        let row (r : Nat) : Block := (unitRows units j).getD r []
        (d.countRebuiltBad a (d.failingRows a t j row).length).copybackWrite a i c t j row
      else match d.recon a t [j] units (.copyback i c) with
        | some x => d.addJob x
        | none => d
  else d

/-- A replaced member's unit comes back from ECE: it is checked and written. -/
def Dev.copybackDecoded (d : Dev) (a t i c : Nat) (x : Recon) : Dev :=
  match d.unitOf a i c with
  | some (t', j) =>
    if d.canMaintain .copyback a && decide (d.mst a i = msReplacing) && decide (d.rd (Reg.AR_CPBK_member.ix a) = i) &&
        decide (d.rd (Reg.AR_CPBK_CUR_cycle.ix a) = c) && decide (t' = t) && !d.destaging a t then
      ((d.countRebuiltBad a (d.failingRows a t j (x.row j)).length).repairRead a t x).copybackWrite a i c t j (x.row j)
    else d
  | none => d

/-! ### Scrub (R220, R221) -/

/-- Whether scrub can check a stripe now. -/
def Dev.scrubbable (d : Dev) (a t : Nat) : Bool :=
  decide ((d.stripe a t).state ≠ ssFresh) && decide (d.unavailable a (d.plan a t) = []) && !d.destaging a t

/-- The stripes of an array that are not FRESH, ascending. -/
def Dev.written (d : Dev) (a : Nat) : List Nat :=
  ((Tbl.getD d.dram.stripes a []).filter fun p => p.2.state ≠ ssFresh).map Prod.fst

/-- The next stripe of a pass: SUSPECT stripes first, then at the cursor and above, then those skipped. -/
def Dev.scrubPick (d : Dev) (a : Nat) (x : ScrubSt) : Option Nat :=
  let can := (d.written a).filter fun t => d.scrubbable a t && !x.visited.contains t
  match can.find? x.suspectFirst.contains with
  | some t => some t
  | none =>
    if x.secondRound then can.head?
    else can.find? fun t => decide (d.rd (Reg.AR_SCRUB_CUR_stripe.ix a) ≤ t)

/-- A pass ends. -/
def Dev.scrubEnd (d : Dev) (a : Nat) : Dev :=
  ((d.updArr a fun r => { r with scrub := none }).wr (Reg.AR_SCRUB_running.ix a) 0
    |>.wr (Reg.AR_SCRUB_permille.ix a) 1000 |>.wr (Reg.AR_SCRUB_LAST_ts.ix a) d.now).actEnd .scrub a

/-- Change the pass of an array. -/
def Dev.updScrub (d : Dev) (a : Nat) (g : ScrubSt → ScrubSt) : Dev :=
  d.updArr a fun r => { r with scrub := r.scrub.map g }

/-- A stripe is checked or passed over for good. The SUSPECT stripes that a pass visits first leave its walk where it is
(R220). -/
def Dev.scrubVisited (d : Dev) (a t : Nat) : Dev :=
  let first := match (d.arr a).scrub with | some x => x.suspectFirst.contains t | none => false
  let d := d.updScrub a fun x => { x with
    visited := insertNat t x.visited, suspectFirst := x.suspectFirst.filter (· ≠ t), work := none }
  let cur := d.rd (Reg.AR_SCRUB_CUR_stripe.ix a)
  let all := (d.geo a).stripes
  if cur ≤ t ∧ !first then d.wr (Reg.AR_SCRUB_CUR_stripe.ix a) (t + 1)
      |>.wr (Reg.AR_SCRUB_permille.ix a) (if all = 0 then 1000 else min 1000 ((t + 1) * 1000 / all))
  else d

/-- Rows of a scrub that stayed unresolved (R221, R233). -/
def Dev.scrubBad (d : Dev) (a n : Nat) : Dev :=
  forEach (List.replicate n ()) (fun _ d =>
    ((d.incSat (Reg.AR_SCRUB_CNT_unrepaired.ix a)).causeBit .mnt 18).errUncorr .mnt 2) d

/-- Repairs that scrub writes (R221, R233). -/
def Dev.scrubFix (d : Dev) (a t : Nat) (bs : List BufBlk) : Dev :=
  let d := forEach bs (fun _ d => (d.incSat (Reg.AR_SCRUB_CNT_repaired.ix a)).errCorr .mnt 1) d
  forEach (sortRows (bs.map BufBlk.j)) (fun j d => d.repair ⟨a, t, j, bs.filter fun b => b.j = j⟩) d

/-- Hand one block row of the stripe under scrub to ECE (R220, R221); `zero` says which data positions LAY marks as zero. -/
def Dev.scrubRow (d : Dev) (a t r : Nat) (units : List BufBlk) (zero : Nat → Bool) : Dev :=
  let g := d.geoAt a t
  d.addJob { id := 0, kind := .syndrome, lane := 1, array := a, t := t, k := g.k, m := g.m, rows := [r],
             inputs := units.filter (fun b => b.row = r), fresh := [], lost := [], parityRows := [], client := .scrub
             zeros := ((List.range g.k).filter zero).map fun i => (i, r) }

/-- Scrub of a stripe begins: the syndrome job of its tag row goes to ECE, by whose outcome the other rows are checked. A unit
that did not answer is reconstructed and rewritten instead (R121, R220) (DESIGN CHOICE, log entry 36). -/
def Dev.scrubStart (d : Dev) (a t : Nat) (units : Units) : Dev :=
  let g := d.geoAt a t
  let p := d.plan a t
  let silent := (List.range p.w).filter fun j => (units.getD j none).isNone
  if silent = [] then
    let us := (List.range p.w).flatMap fun j => (List.range g.ub).map fun r => (⟨j, r, (unitRows units j).getD r []⟩ : BufBlk)
    (d.updScrub a fun x => { x with work := some { t := t, units := us } }).scrubRow a t g.dpu us fun _ => false
  else match d.recon a t silent units .scrub with
    | none => (d.scrubBad a 1).scrubVisited a t
    | some j => (d.updScrub a fun x => { x with work := some { t := t } }).addJob j

/-- Units that did not answer scrub come back from ECE and are rewritten. -/
def Dev.scrubDecoded (d : Dev) (a t : Nat) (lost : List Nat) (x : Recon) : Dev :=
  match (d.arr a).scrub.bind ScrubSt.work with
  | none => d
  | some w =>
    if w.t ≠ t then d
    else
      let js := lost.filter fun j => !(x.bad.any fun b => b.1 = j)
      let bs := js.flatMap fun j => (List.range (d.geoAt a t).ub).map fun r => (⟨j, r, x.row j r⟩ : BufBlk)
      ((d.repairRead a t x).scrubFix a t bs).scrubVisited a t

/-- SCRUB_STRIPE's effect: the next stripe of the pass; a pass without one goes back to what it skipped, then ends. -/
def Dev.scrubStripe (d : Dev) (a : Nat) (units : Units) : Dev :=
  match (d.arr a).scrub with
  | none => d
  | some x =>
    if !d.canMaintain .scrub a || x.work.isSome then d
    else match d.scrubPick a x with
      | some t => d.scrubStart a t units
      | none =>
        if x.secondRound then d.scrubEnd a
        else
          let d := d.updScrub a fun x => { x with secondRound := true }
          match d.scrubPick a { x with secondRound := true } with
          | some t => d.scrubStart a t units
          | none => d.scrubEnd a

/-- What scrub makes of one block row: the repairs, and whether the row is resolved. -/
structure RowVerdict where
  fixes : List BufBlk
  resolved : Bool
  doubted : Bool
  tagFails : List (Nat × Nat)

/-- One row of a syndrome job (R141, R221): `content` is the row's content by position, `ok j x` whether data position j
with content x passes its tag. -/
def judgeScrub (k m r : Nat) (content : Nat → Block) (ok : Nat → Block → Bool) : Verdict × RowVerdict :=
  let data := (List.range k).map content
  let parity := (List.range m).map fun j => content (k + j)
  let v := syndrome k m data parity
  let enc := encode m data
  let failing := (List.range k).filter fun i => !ok i (content i)
  let tags := failing.map fun i => (i, r)
  let doubt : RowVerdict :=
    if failing = [] then
      ⟨((List.range m).filter fun j => parity.getD j [] ≠ enc.getD j []).map fun j => ⟨k + j, r, enc.getD j []⟩, true, true, []⟩
    else if m < failing.length then ⟨[], false, true, tags⟩
    else
      let keep := (List.range (k + m)).filter fun j => !failing.contains j
      let got := (decodeRow k m failing (keep.map fun j => (j, content j))).getD []
      if failing.all fun i => ok i (Tbl.getD got i []) then ⟨got.map fun x => ⟨x.1, r, x.2⟩, true, true, tags⟩
      else ⟨[], false, true, tags⟩
  match v with
  | .consistent => (v, ⟨[], true, false, tags⟩)
  | .parityError j => (v, ⟨[⟨k + j, r, enc.getD j []⟩], true, false, tags⟩)
  | .dataError i =>
    let fixed := trimB (xorB (content i) (xorB (parity.getD 0 []) (enc.getD 0 [])))
    if ok i fixed then (v, ⟨[⟨i, r, fixed⟩], true, false, tags⟩) else (v, doubt)
  | .unlocated => (v, doubt)

/-- The verdict on the block row of a scrub job, with what scrub makes of it: the tag row by its trailers, another row by the
tag blocks as found or repaired (R121, R141, R221). -/
def Dev.scrubJudge (d : Dev) (j : EceJob) (content : Nat → Nat → Block) (tags : List Block) : Verdict × RowVerdict :=
  let r := j.rows.getD 0 0
  let dpu := (d.geoAt j.array j.t).dpu
  judgeScrub j.k j.m r (fun i => content i r) fun i x =>
    if r = dpu then trailerOk x (stripeNo j.t)
    else match d.blockAt j.array j.t i r with
      | some (v, lba) => (checkTag (tagAt (tags.getD i []) r) lba (d.tagIdOf v) (d.gens j.array j.t) x).ok
      | none => true

/-- The stripe under scrub is done: it stays or becomes SUSPECT, or leaves SUSPECT; its repairs are written (R123, R221). -/
def Dev.scrubDone (d : Dev) (a : Nat) (w : ScrubWork) : Dev :=
  let d := if w.unresolved ≠ 0 then d.updStripe a w.t fun r => { r with state := ssSuspect }
    else if (d.stripe a w.t).state = ssSuspect then d.updStripe a w.t fun r => { r with state := d.cleanState a w.t }
    else d
  (d.scrubFix a w.t w.fixes).scrubVisited a w.t

/-- A verdict is handled (R221): the tag row's one comes first, and the other rows are checked by tag blocks as repaired
(DESIGN CHOICE, log entry 36). -/
def Dev.scrubVerdict (d : Dev) (j : EceJob) (v : Verdict × RowVerdict) : Dev :=
  let a := j.array
  let g := d.geoAt a j.t
  let d := match v.1 with
    | .consistent => d.unrepaired a v.2.tagFails.length
    | .parityError _ | .dataError _ => d.incSat Reg.ECE_SYND_located
    | .unlocated => d.incSat Reg.ECE_SYND_unlocated
  let d := d.tagError v.2.tagFails
  match (d.arr a).scrub.bind ScrubSt.work with
  | none => d
  | some w =>
    let bad := if v.2.resolved then 0 else 1
    let w := { w with fixes := w.fixes ++ v.2.fixes, unresolved := w.unresolved + bad }
    let d := d.scrubBad a bad
    if j.rows = [g.dpu] ∧ w.tags = [] then
      let tags := (List.range g.k).map fun i =>
        (((v.2.fixes ++ w.units.filter fun b => b.row = g.dpu).find? fun b => b.j = i).map BufBlk.data).getD []
      let d := d.updScrub a fun x => { x with work := some { w with tags := tags } }
      forEach (List.range g.dpu) (fun r d => d.scrubRow a j.t r w.units fun i => (tagAt (tags.getD i []) r).isZero) d
    else if d.ece.jobs.any fun x => x.array = a && x.client = .scrub then d.updScrub a fun x => { x with work := some w }
    else d.scrubDone a w

/-! ### Restripe (R222 to R224) -/

/-- Whether an array block holds written content in the old layout: its stripe belongs to a volume and is not FRESH. -/
def Dev.oldWritten (d : Dev) (a n : Nat) : Bool :=
  decide ((d.stripe a (n / (d.geo a).perStripe)).state ≠ ssFresh)

/-- The volume block at array block n. -/
def Dev.volAt (d : Dev) (a n : Nat) : Option (Nat × Nat) :=
  let g := d.geo a
  d.blockAt a (n / g.perStripe) (n % g.perStripe / g.dpu) (n % g.dpu)

/-- A target stripe of a restripe step: its number, its first array block, and the blocks of it with written content. -/
structure RsStripe where
  s : Nat
  no : Nat
  first : Nat
  live : List Nat

/-- Target stripe s of a step. -/
def Dev.rsStripe (d : Dev) (a : Nat) (st : RsStep) (s : Nat) : RsStripe :=
  let tg := d.targetGeo a
  let no := st.cycle * tg.spc + s
  ⟨s, no, no * tg.perStripe, ((List.range tg.perStripe).map (· + no * tg.perStripe)).filter (d.oldWritten a)⟩

/-- The new tag of an array block of a step: zero where it holds nothing written (R120) (DESIGN CHOICE, log entry 37). -/
def Dev.rsTag (d : Dev) (a : Nat) (x : RsStripe) (gen n : Nat) (data : Block) : TagRec :=
  if !x.live.contains n then ⟨0, 0, 0, 0⟩
  else match d.volAt a n with
    | some (v, lba) => ⟨blockCrc data, lba % 2 ^ 32, d.tagIdOf v, gen⟩
    | none => ⟨0, 0, 0, 0⟩

/-- The data units of a target stripe, tag blocks included, from the step buffer (R223 step 2). -/
def Dev.rsUnits (d : Dev) (a : Nat) (st : RsStep) (x : RsStripe) : List BufBlk :=
  let tg := d.targetGeo a
  let base := st.cycle * tg.spc * tg.perStripe
  let content (n : Nat) : Block := if x.live.contains n then trimB (st.data.getD (n - base) []) else []
  (List.range tg.k).flatMap fun ju =>
    let ns := (List.range tg.dpu).map fun b => x.first + ju * tg.dpu + b
    ((List.range tg.dpu).zip ns).map (fun p => (⟨ju, p.1, content p.2⟩ : BufBlk)) ++
      [⟨ju, tg.dpu, trimB (tagBlock tg.dpu x.no (ns.map fun n => d.rsTag a x (st.gens.getD x.s 0) n (content n)))⟩]

/-- The target stripes of a step whose parity ECE has not returned; a stripe without written content needs none. -/
def Dev.rsWanted (d : Dev) (a : Nat) (st : RsStep) : List RsStripe :=
  ((List.range (d.targetGeo a).spc).map (d.rsStripe a st)).filter fun x =>
    decide (x.live ≠ []) && !(st.parity.any fun p => p.1 = x.s)

/-- A target stripe goes to ECE as a re-encode job (R142, R223 step 2). -/
def Dev.rsEncode (d : Dev) (a : Nat) (st : RsStep) (x : RsStripe) : Dev :=
  let tg := d.targetGeo a
  let units := d.rsUnits a st x
  d.addJob { id := 0, kind := .reencode, lane := 0, array := a, t := x.no + targetBase, k := tg.k, m := tg.m,
             rows := List.range tg.ub, inputs := units, fresh := [], lost := [], parityRows := List.range tg.m
             client := .restripe x.s, zeros := markZeros tg.k tg.dpu (x.no + targetBase) units }

/-- A target stripe is written with its unit records (R223 step 3); a stripe without written content gets its records only. -/
def Dev.rsWrite (d : Dev) (a : Nat) (st : RsStep) (s : Nat) : Dev :=
  let tg := d.targetGeo a
  let x := d.rsStripe a st s
  let gen := st.gens.getD s 0
  let fresh := decide (x.live = [])
  let marks := ((List.range tg.perStripe).map (· + x.first)).flatMap fun n => match d.volAt a n with
    | some (v, lba) => (d.stripe a (n / (d.geo a).perStripe)).lost.filter fun m => m.volume = v && m.lba = lba
    | none => []
  let units := d.rsUnits a st x ++ (st.parity.filter fun p => p.1 = s).map Prod.snd
  let list := tg.cycleList st.cycle
  let state := if fresh then ssFresh else ssClean
  let d := d.updStripe a (x.no + targetBase) fun _ => { state := state, gen := gen, genUnknown := false, lost := marks }
  forEach (List.range tg.w) (fun j d =>
    let port := (d.rsTargetPorts a).getD (layoutMember tg list s j) 0
    let d := if fresh then d else d.sendBlocks port (tg.unit0 st.cycle)
      ((List.range tg.ub).map fun r => ((units.find? fun b => b.j = j && b.row = r).map BufBlk.data).getD [])
    d.sendRecord port st.cycle ⟨gen, s, j, true, state⟩) d

/-- After the checkpoint moved, cached blocks, hold records and streams of an array follow the translation (R224). -/
def Dev.replace (d : Dev) (a : Nat) : Dev :=
  let moved := d.dram.cache.map fun b => if b.array = a then { b with t := (d.place b.vol b.lba).t } else b
  let old := d.dram.cache
  let due := d.lay.due.flatMap fun r =>
    if r.array ≠ a then [r]
    else
      let ts := ((old.zip moved).filter fun x => x.1.array = a && x.1.t = r.t && x.1.isOpen).map fun x => x.2.t
      (sortRows ts).map fun t => { r with t := t }
  let due := due.foldl (fun l r => if l.any fun x => x.array = r.array && x.t = r.t then l else l ++ [r]) []
  let streams := d.lay.streams.map fun s =>
    if s.array ≠ a then s
    else match (old.zip moved).find? fun x => x.1.stream = some s.id && x.1.array = a && x.1.t = s.t with
      | some x => { s with t := x.2.t }
      | none => s
  (d.updCache fun _ => moved).updLay fun l => { l with due := due, streams := streams }

/-- The restripe is done: the target becomes the live configuration, volumes are rescaled, labels are owed (R132, R224)
(DESIGN CHOICE, log entry 37). -/
def Dev.restripeEnd (d : Dev) (a : Nat) (x : RestripeSt) : Dev :=
  let oldK := d.rd (Reg.AR_CFG_k.ix a)
  let oldCount := d.memberCount a
  let vols := d.volumes.filter fun v => d.volArray v = a
  let stripes := ((Tbl.getD d.dram.stripes a []).filter fun p => decide (targetBase ≤ p.1)).map fun p => (stripeNo p.1, p.2)
  let d := d.updDram fun m => { m with stripes := Tbl.put m.stripes a stripes, unitRecs := Tbl.erase m.unitRecs a }
  let d := d.wr (Reg.AR_CFG_k.ix a) x.k |>.wr (Reg.AR_CFG_m.ix a) x.m |>.wr (Reg.AR_CFG_spares.ix a) x.spares
    |>.wr (Reg.AR_SEED_seed.ix a) x.seed |>.wr (Reg.AR_RS_CFG_go.ix a) 0 |>.wr (Reg.AR_RS_STAT_running.ix a) 0
  let d := forEach ((List.range x.ports.length).zip x.ports) (fun p d =>
    let d := d.setMemberPort a p.1 p.2
    if p.1 < oldCount then d
    else
      let id := d.rd (Reg.PT_ID_id.ix p.2)
      d.updArr a fun r => { r with recIdents := Tbl.put r.recIdents p.1 id }) d
  let d := forEach vols (fun v d =>
    d.wr (Reg.VD_FIRST_first.ix v) (d.rd (Reg.VD_FIRST_first.ix v) * oldK / max x.k 1)
      |>.wr (Reg.VD_STRIPES_stripes.ix v) (d.rd (Reg.VD_STRIPES_stripes.ix v) * oldK / max x.k 1)) d
  let d := d.updArr a fun r => { r with
    restripe := none, recPorts := (List.range x.ports.length).zip x.ports, newPorts := [] }
  let d := (d.replace a).oweLabels a
  (d.actEnd .restripe a).arrChanged a (x.ports.getD 0 0)

/-- Whether a restripe may take a step (R224). -/
def Dev.restripeReady (d : Dev) (a c : Nat) : Bool :=
  d.canMaintain .restripe a && decide (d.arrState a = asOptimal) &&
  (d.slots a).all (fun n => d.slotState a n = slEmpty) && !(d.overlapped a c).any (d.destaging a)

/-- Change the unfinished step of a restripe. -/
def Dev.setStep (d : Dev) (a : Nat) (st : Option RsStep) : Dev :=
  d.updArr a fun r => { r with restripe := r.restripe.map fun x => { x with step := st } }

/-- Once all parity of a step is there, the step ends: the target cycle and its unit records are written, the checkpoint
advances and the buffer is free (R223 steps 3 and 4). -/
def Dev.stepEnd (d : Dev) (a : Nat) : Dev :=
  match (d.arr a).restripe with
  | none => d
  | some x =>
    match x.step with
    | none => d
    | some st =>
      if d.restripeReady a st.cycle && (d.rsWanted a st).isEmpty then
        let n := (d.arr a).cycles
        let d := (forEach (List.range (d.targetGeo a).spc) (fun s d => d.rsWrite a st s) d).setStep a none
        let done := if x.descending then n - st.cycle else st.cycle + 1
        let d := d.wr (Reg.AR_RS_STAT_permille.ix a) (done * 1000 / max n 1)
        (if done = n then d.restripeEnd a x
        else (d.wr (Reg.AR_RS_CUR_cycle.ix a) (if x.descending then st.cycle - 1 else st.cycle + 1)).replace a).refreshMode
      else d

/-- A step's target stripes go to ECE; without any the step ends. -/
def Dev.stepEncode (d : Dev) (a : Nat) (st : RsStep) : Dev :=
  (forEach (d.rsWanted a st) (fun x d => d.rsEncode a st x) d).stepEnd a

/-- RESTRIPE_STEP's effect (R223): the array blocks of the next target cycle come into the step buffer once there is admission
space for it, and go to ECE; an unfinished step goes on from its buffer (DESIGN CHOICE, log entry 37). -/
def Dev.restripeStep (d : Dev) (a : Nat) (data : StepData) : Dev :=
  match (d.arr a).restripe with
  | none => d
  | some x =>
    let c := d.rd (Reg.AR_RS_CUR_cycle.ix a)
    let tg := d.targetGeo a
    if !d.restripeReady a c || decide ((d.arr a).cycles ≤ c) ||
        d.ece.jobs.any (fun j => j.array = a && j.kind = .reencode) then d
    else match x.step with
      | some st => d.stepEncode a st
      | none =>
        let size := tg.spc * tg.perStripe
        if d.grantFits size then
          let st : RsStep := { cycle := c, data := data.take size ++ List.replicate (size - data.length) []
                               gens := (List.range tg.spc).map fun i => Config.freeNat (d.freeCtr + i) % 2 ^ 16 }
          (({ d with freeCtr := d.freeCtr + tg.spc } : Dev).setStep a (some st)).refreshMode.stepEncode a st
        else d

/-- The parity of a target stripe comes back from ECE (R223). -/
def Dev.stepEncoded (d : Dev) (a s : Nat) (out : List BufBlk) : Dev :=
  match d.rsStep a with
  | none => d
  | some st => (d.setStep a (some { st with parity := st.parity ++ out.map fun b => (s, b) })).stepEnd a

/-! ### Drive firmware download (R225, R255) -/

/-- Change the download. -/
def Dev.updDfw (d : Dev) (g : Dfw → Dfw) : Dev := { d with mnt := { d.mnt with dfw := d.mnt.dfw.map g } }

/-- The array that a port's download belongs to; `wholeDevice` for ports in no array. -/
def Dev.dfwScope (d : Dev) (p : Nat) : Nat := match d.memberOn p with | some x => x.1 | none => wholeDevice

/-- MNT_DFW_STAT follows the download. -/
def Dev.dfwShow (d : Dev) : Dev :=
  match d.mnt.dfw with
  | some x => d.wr Reg.MNT_DFW_STAT_failed x.failed |>.wr Reg.MNT_DFW_STAT_done x.done
  | none => d

/-- A port of the download failed. -/
def Dev.dfwFail (d : Dev) : Dev :=
  (((d.updDfw fun x => { x with failed := x.failed + 1 }).causeBit .mnt 20).errUncorr .mnt 5).dfwShow

/-- The download to a port begins. -/
def Dev.dfwBegin (d : Dev) (p : Nat) : Dev :=
  let id := d.rd (Reg.PT_ID_id.ix p)
  let d := (d.updDfw fun x => { x with todo := x.todo.filter (· ≠ p), active := x.active ++ [p] }).updPort p fun s =>
    { s with identBefore := some id }
  let d := match d.memberOn p with
    | none => d
    | some (a, i) =>
      let d := d.updArr a fun r => { r with leftGen := Tbl.put r.leftGen i r.labelGen }
      ((((d.setMember a i msFwUpdate).writeLabels a).failOps p).arrChanged a p).restartWalk a
  d.emit (.driveFirmware p (d.rd Reg.MNT_DFW_SRC_offset) (d.rd Reg.MNT_DFW_LEN_bytes))

/-- Whether a port of the download may start now. -/
def Dev.dfwMay (d : Dev) (p : Nat) : Bool :=
  match d.memberOn p with
  | none => d.actRuns .driveFw wholeDevice
  | some (a, i) =>
    let g := d.geo a
    d.actRuns .driveFw a && decide (d.mst a i = msOk) && decide (d.ptState p = ptReady) &&
    !((d.members a).any fun x => d.mst a x = msFwUpdate) &&
    decide (g.lossBound (insertNat i (d.lostMembers a)) + 1 ≤ g.m)

/-- The scopes of a download whose ports are all done with leave the arbiter, and with the last port the download ends. -/
def Dev.dfwTidy (d : Dev) : Dev :=
  match d.mnt.dfw with
  | none => d
  | some x =>
    let left := (x.todo ++ x.active).map d.dfwScope
    let d := forEach (d.mnt.acts.filter fun y => y.act = .driveFw && !left.contains y.array)
      (fun y d => d.actEnd .driveFw y.array) d
    if left = [] then ({ d with mnt := { d.mnt with dfw := none } } : Dev).wr Reg.MNT_DFW_STAT_running 0 else d

/-- Ports that may start do. -/
def Dev.dfwPump (d : Dev) : Dev :=
  match d.mnt.dfw with
  | none => d
  | some x => (forEach x.todo (fun p d => if d.dfwMay p then d.dfwBegin p else d) d).dfwTidy

/-- MNT_DFW_CTRL.go (R225): refused while a download runs, and where the image is out of range (DESIGN CHOICE, log entry 27). -/
def Dev.dfwGo (d : Dev) : Dev :=
  let len := d.rd Reg.MNT_DFW_LEN_bytes
  let src := d.rd Reg.MNT_DFW_SRC_offset
  if d.mnt.dfw.isSome || decide (len < 4) || decide (64 * 2 ^ 20 < len) || decide (len % 4 ≠ 0) || decide (src % 4096 ≠ 0) ||
      decide (d.rd Reg.PWC_SCRATCH_mib * 2 ^ 20 < src + len) then d.refuse .mnt
  else
    let sel := (List.range 256).filter fun p => bitOf (d.rd (Reg.MNT_DFW_PORTS_ports.ix (p / 32))) (p % 32)
    let ok := sel.filter fun p => d.ptState p = ptReady
    let d : Dev := { d with mnt := { d.mnt with dfw := some ⟨ok, [], 0, 0⟩ } }
    let d := d.wr Reg.MNT_DFW_STAT_running 1 |>.wr Reg.MNT_DFW_STAT_failed 0 |>.wr Reg.MNT_DFW_STAT_done 0
    let d := forEach (sel.filter fun p => d.ptState p ≠ ptReady) (fun _ d => d.dfwFail) d
    let d := forEach (sortRows (ok.map d.dfwScope)) (fun a d => d.arbRequest .driveFw a) d
    d.dfwPump

/-- A port's download and activation end (R225, R245): a drive that names itself otherwise is failed. -/
def Dev.dfwPortDone (d : Dev) (p ident : Nat) (ok : Bool) : Dev :=
  match d.mnt.dfw with
  | none => d
  | some x =>
    if !x.active.contains p then d
    else
      let same := decide ((d.port p).identBefore = some ident)
      let d := (d.updDfw fun x => { x with active := x.active.filter (· ≠ p) }).updPort p fun s => { s with identBefore := none }
      let d := if same && ok then
          (((d.updDfw fun x => { x with done := x.done + 1 }).dfwShow).wr (Reg.PT_FWREV_rev.ix p) d.free).nextFree
        else d.dfwFail
      let d := if same then
          match d.memberOn p with
          | some (a, i) => 
            if decide (d.mst a i = msFwUpdate) && (match (d.port p).dev.bind pickLabel with
                | some l => d.mayReturn a i l
                | none => false) then d.memberBack a i p
            else d
          | none => d
        else d.failDrive p 5
      d.dfwPump

/-- A drive of the download does not return in time (R225, R245). -/
def Dev.dfwTimeout (d : Dev) (p : Nat) : Dev :=
  match d.mnt.dfw with
  | none => d
  | some x =>
    if !x.active.contains p then d
    else (((d.updDfw fun x => { x with active := x.active.filter (· ≠ p) }).dfwFail).failDrive p 7).dfwPump

/-! ### Hot spots (R230) -/

/-- What one more second of a ratio does to streak, quiet time and the posted mark: new streak, quiet, posted, and whether
HOTSPOT is posted now (DESIGN CHOICE, log entry 46). -/
def hotStep (above : Bool) (streak quiet : Nat) (posted : Bool) : Nat × Nat × Bool × Bool :=
  let streak := if above then min (streak + 1) 60 else 0
  let quiet := if above then 0 else min (quiet + 1) 60
  let posted := posted && decide (quiet < 60)
  if streak = 60 && !posted then (streak, quiet, true, true) else (streak, quiet, posted, false)

/-- One array's second: `busy` are the milliseconds that each member was busy in it (DESIGN CHOICE, log entry 46). -/
def Dev.hotSample (d : Dev) (a : Nat) (busy : List Nat) : Dev :=
  let sum := busy.sum
  let n := busy.length
  if !d.arrEn a || n = 0 || decide (sum < 100 * n) then d.updArr a fun r => { r with hotStreak := 0 }
  else
    let top := busy.foldl max 0
    let ratio := min 65535 (top * 100 * n / sum)
    let who := (busy.findIdx? (· = top)).getD 0
    let d := d.wr (Reg.AR_HOT_ratio.ix a) ratio |>.wr (Reg.AR_HOT_member.ix a) who
    let r := d.arr a
    let h := hotStep (decide (d.rd Reg.MNT_HOT_CFG_layout_ratio < ratio)) r.hotStreak r.hotQuiet r.hotPosted
    let d := d.updArr a fun r => { r with hotStreak := h.1, hotQuiet := h.2.1, hotPosted := h.2.2.1 }
    if h.2.2.2 then d.post 0x60 2 1 a ratio 0 else d

/-! ### Meanings -/

/-- REBUILD_STRIPE (R216). -/
def execRebuildStripe (array : Nat) (units : Units) (s : State) : Out :=
  onUnit (decide (array < 16)) s fun d => d.rebuildStripe array units

/-- CATCHUP_CYCLE (R205). -/
def execCatchupCycle (array member : Nat) (units : Units) (s : State) : Out :=
  onUnit (decide (array < 16 ∧ member < 256)) s fun d => d.catchupCycle array member units

/-- COPYBACK_CYCLE (R219). -/
def execCopybackCycle (array : Nat) (units : Units) (s : State) : Out :=
  onUnit (decide (array < 16)) s fun d => d.copybackCycle array units

/-- SCRUB_PERIOD (R220). -/
def execScrubPeriod (array : Nat) (s : State) : Out :=
  onUnit (decide (array < 16)) s fun d =>
    if d.rdB Reg.MNT_SCRUB_CFG_en && d.arrEn array then d.arbRequest .scrub array else d

/-- SCRUB_STRIPE (R220, R221). -/
def execScrubStripe (array : Nat) (units : Units) (s : State) : Out :=
  onUnit (decide (array < 16)) s fun d => d.scrubStripe array units

/-- RESTRIPE_STEP (R223). -/
def execRestripeStep (array : Nat) (data : StepData) (s : State) : Out :=
  onUnit (decide (array < 16)) s fun d => d.restripeStep array data

/-- DFW_GO (R225). -/
def execDfwGo (s : State) : Out := onPage .mnt true s Dev.dfwGo

/-- DFW_PORT_DONE (R225). -/
def execDfwPortDone (port : Nat) (ident : Qword) (ok : Bool) (s : State) : Out :=
  onUnit (decide (port < 256)) s fun d => d.dfwPortDone port ident.toNat ok

/-- DFW_TIMEOUT (R225). -/
def execDfwTimeout (port : Nat) (s : State) : Out := onUnit (decide (port < 256)) s fun d => d.dfwTimeout port

/-- ARBITER_REQUEST (R227, R229). -/
def execArbiterRequest (reqs : List (Act × Nat)) (s : State) : Out :=
  onUnit (reqs.all fun r => if r.1.ofArray && !(r.1 = .driveFw && r.2 = wholeDevice) then decide (r.2 < 16)
    else decide (r.2 = wholeDevice)) s fun d => (d.decideAll reqs).dfwPump

/-- DEFERRED_START (R228). -/
def execDeferredStart (act : Act) (array : Nat) (s : State) : Out := s.act fun d => (d.deferredStart act array).dfwPump

/-- HOTSPOT_SAMPLE (R230). -/
def execHotspotSample (busy : List (Nat × List Nat)) (s : State) : Out :=
  onUnit (busy.all fun x => decide (x.1 < 16)) s fun d => forEach busy (fun x d => d.hotSample x.1 x.2) d

end Sys2Proof.Machine
end

