-- ==== Sys2Proof/Machine/Dpx.lean ====
section
/-! DEFINITION. Drive ports: bring-up, drive errors and recovery, link loss and grace, port and cluster resets, array power
states, SGPIO and loopback (R234 to R255, R350). -/

set_option Elab.async false

namespace Sys2Proof

/-- The lowest reason of R239 for which a device is refused, its link running at a rate; none where it is accepted.
`twin`: another port holds a drive of the same SAS address. -/
def DriveInfo.refusal (x : DriveInfo) (rate : Nat) (twin : Bool) : Option Nat :=
  let sas := decide (x.proto = .sas)
  if x.expander then some 1
  else if sas && twin then some 2
  else if x.portMultiplier then some 3
  else if x.atapi || (sas && x.deviceType ≠ 0 && x.deviceType ≠ 0x14) then some 4
  else if x.hostManaged || (sas && decide (x.deviceType = 0x14)) then some 5
  else if x.logBytes ≠ 4096 ∧ ¬(x.logBytes = 512 ∧ x.physBytes = 4096) then some 6
  else if 2 ^ 34 < x.blocks then some 7
  else if sas && decide (rate < 3) then some 8
  else if sas && x.protection then some 9
  else none

/-- Whether a device shows at step 3 of R238, by its IDENTIFY frame, its signature or its rate, that it is refused. -/
def DriveInfo.refusedEarly (x : DriveInfo) (rate : Nat) (twin : Bool) : Bool :=
  x.expander || (x.proto = .sas && (twin || decide (rate < 3))) || x.portMultiplier || x.atapi

end Sys2Proof

namespace Sys2Proof.Machine

/-! ### Ports and clusters -/

/-- Give a port a state and a reason (R237); a change sets port_state (R260). -/
def Dev.setPt (d : Dev) (p st reason : Nat) : Dev :=
  let was := d.ptState p
  let d := d.wr (Reg.PT_STAT_state.ix p) st |>.wr (Reg.PT_STAT_reason.ix p) reason
  if was = st then d else d.causeBit .dpx 16

/-- What a port shows of its link goes when the link goes. -/
def Dev.unlink (d : Dev) (p : Nat) : Dev :=
  let d := d.wr (Reg.PT_STAT_rate.ix p) 0 |>.wr (Reg.PT_STAT_protocol.ix p) 0 |>.wr (Reg.PT_STAT_ncq.ix p) 0
    |>.wr (Reg.PT_STAT_pfa.ix p) 0
  d.updPort p fun s => { s with spinWait := false, spinning := false, partialLink := false, slumber := false }

/-- Cluster states (R256): OFF. -/
def clOff : Nat := 0
/-- UP. -/
def clUp : Nat := 1
/-- RESETTING. -/
def clResetting : Nat := 2
/-- FAILED. -/
def clFailed : Nat := 3

/-- State of a cluster. -/
def Dev.clState (d : Dev) (n : Nat) : Nat := d.rd (Reg.DPX_CL_state.ix n)

/-- Write a cluster's state. -/
def Dev.setCl (d : Dev) (n st : Nat) : Dev := d.wr (Reg.DPX_CL_state.ix n) st

/-- The ports of a cluster. -/
def clusterPorts (n : Nat) : List Nat := (List.range 32).map (· + 32 * n)

/-- Switch a DRV power domain (R20). -/
def Dev.setDrv (d : Dev) (n : Nat) (on : Bool) : Dev :=
  { d with sys := { d.sys with pdDrv := (List.range 8).map fun i => if i = n then on else d.sys.pdDrv.getD i false } }

/-- Whether another port holds a drive of the same SAS address (R239). -/
def Dev.twin (d : Dev) (p : Nat) (x : DriveInfo) : Bool :=
  (List.range 256).any fun q => q ≠ p && (d.ptState q = ptReady || d.ptState q = ptIdentifying) &&
    (match (d.port q).dev with | some y => y.proto = .sas && y.ident = x.ident | none => false)

/-! ### Array power states (R250 to R253) -/

/-- The members of an array whose drive is on its port and ready. -/
def Dev.presentMembers (d : Dev) (a : Nat) : List Nat := (d.members a).filter (d.memberPresent a)

/-- The array on which a port's member stands while its array leaves a power state. -/
def Dev.exitingOn (d : Dev) (p : Nat) : Option (Nat × Nat) :=
  match d.memberOn p with
  | some (a, i) => if d.rdB (Reg.AR_PWR_STAT_exiting.ix a) then some (a, i) else none
  | none => none

/-- An exit that recovery or a link loss interrupts is not measured (R253). -/
def Dev.spoilExit (d : Dev) (p : Nat) : Dev :=
  match d.exitingOn p with
  | some (a, _) => d.updArr a fun r => { r with exitSpoiled := true }
  | none => d

/-- The latency advertised for an exit whose longest measured time is `ms` (R253): 1.2 times it
(DESIGN CHOICE, log entry 45). -/
def exitLatency (ms : Nat) : Nat := ceilDiv (ms * 6) 5

/-- Array `a` is ACTIVE once every present member is ready (R252): the exit is measured, and its members' commands go out. -/
def Dev.exitCheck (d : Dev) (a : Nat) : Dev :=
  let r := d.arr a
  let wait := r.exitWait.filter (d.memberPresent a)
  if !d.rdB (Reg.AR_PWR_STAT_exiting.ix a) then d
  else if wait ≠ [] ∨ d.rdB (Reg.AR_PWR_STAT_entering.ix a) then d.updArr a fun r => { r with exitWait := wait }
  else
    let d := d.wr (Reg.AR_PWR_STAT_exiting.ix a) 0 |>.wr (Reg.AR_PWR_STAT_pstate.ix a) 0
    let ms := max (ceilDiv (d.ticks - r.exitTicks) ticksPerMs) (Tbl.getD r.longest r.exitFrom 0)
    let d := if r.exitSpoiled ∨ r.exitFrom = 0 then d
      else (d.updArr a fun x => { x with longest := Tbl.put x.longest r.exitFrom ms }).wr
        ((Reg.AR_PWR_LAT_ms.ix a).ix (r.exitFrom - 1)) (exitLatency ms)
    let d := d.updArr a fun x => { x with exitWait := [], exitFrom := 0, exitSpoiled := false }
    forEach (d.ports a) (fun p d => d.pumpPort p) d

/-- Spin-up places of a cluster are given out (R238, R252): `spinup_max` at a time, ports that admitted commands need first,
then in port order; members still entering a power state wait. `fuel` bounds the ports (DESIGN CHOICE, log entry 44). -/
def Dev.spinPump : Nat → Nat → Dev → Dev
  | 0, _, d => d
  | fuel + 1, n, d =>
    let held (p : Nat) : Bool := match d.memberOn p with
      | some (a, _) => d.rdB (Reg.AR_PWR_STAT_entering.ix a)
      | none => false
    let ready := (clusterPorts n).filter fun p => (d.port p).spinWait && !(held p && d.ptState p = ptReady)
    let busy := ((clusterPorts n).filter fun p => (d.port p).spinning).length
    let next := match ready.find? fun p => (d.port p).queue ≠ [] with
      | some p => some p
      | none => ready.head?
    match next with
    | none => d
    | some p =>
      if d.rd Reg.DPX_CFG_spinup_max ≤ busy then d
      else
        let d := d.updPort p fun s => { s with spinWait := false, spinning := true }
        let d := if d.ptState p = ptReady then d.emit (.drivePower p 0) else d.emit (.driveSpinup p)
        Dev.spinPump fuel n d

/-- Give out the spin-up places of a cluster. -/
def Dev.spinUp (d : Dev) (n : Nat) : Dev := Dev.spinPump 32 n d

/-- Wake the members of an array that leaves a state: from IDLE at once, from STANDBY and COLD by spin-up places. -/
def Dev.wakeMembers (d : Dev) (a : Nat) : Dev :=
  let ms := d.presentMembers a
  let d := d.updArr a fun r => { r with exitWait := ms }
  let ps := ms.filterMap (d.memberPort a)
  let d := forEach ps (fun p d => d.updPort p fun s => { s with slumber := false }) d
  if (d.arr a).exitFrom = 1 then (forEach ps (fun p d => d.emit (.drivePower p 0)) d).exitCheck a
  else
    let d := forEach ps (fun p d => d.updPort p fun s => { s with spinWait := true }) d
    (forEach (List.range 8) (fun n d => d.spinUp n) d).exitCheck a

/-- Start an array's power exit (R252): members that were sent an entry command complete it first
(DESIGN CHOICE, log entry 45). -/
def Dev.wakeArr (d : Dev) (a : Nat) : Dev :=
  let entering := d.rdB (Reg.AR_PWR_STAT_entering.ix a)
  let st := d.rd (Reg.AR_PWR_STAT_pstate.ix a)
  if d.rdB (Reg.AR_PWR_STAT_exiting.ix a) then d.exitCheck a
  else if !entering && decide (st = 0) then d
  else
    let t0 := d.ticks
    let d := (d.updArr a fun r => { r with
      exitFrom := if entering then r.pwrTarget else st, exitTicks := t0, exitSpoiled := false }).wr (Reg.AR_PWR_STAT_exiting.ix a) 1
    if entering then d else d.wakeMembers a

/-- The state that an array's timers lead to next; none where no further timer is set (R250)
(DESIGN CHOICE, log entry 45). -/
def Dev.nextPower (d : Dev) (a : Nat) : Option Nat :=
  let st := d.rd (Reg.AR_PWR_STAT_pstate.ix a)
  let timers := [(1, d.rd (Reg.AR_PWR_CFG_idle_s.ix a)), (2, d.rd (Reg.AR_PWR_CFG_standby_min.ix a)),
    (3, d.rd (Reg.AR_PWR_COLD_cold_min.ix a))]
  (timers.find? fun x => decide (st < x.1) && decide (x.2 ≠ 0)).map Prod.fst

/-- Whether an array may enter STANDBY or COLD but for its dirty stripes (R251). -/
def Dev.maySleep (d : Dev) (a : Nat) : Bool :=
  d.arrState a ≠ asAssembling && d.arrState a ≠ asOffline && !(d.mnt.acts.any fun x => x.array = a && x.st = .running)

/-- Every member has confirmed the entry (R251): the array is in the state; an exit that waits for it goes on. -/
def Dev.entryDone (d : Dev) (a : Nat) : Dev :=
  if !d.rdB (Reg.AR_PWR_STAT_entering.ix a) then d
  else
    let st := (d.arr a).pwrTarget
    let d := d.wr (Reg.AR_PWR_STAT_entering.ix a) 0 |>.wr (Reg.AR_PWR_STAT_pstate.ix a) st
    let d := if st = 3 then forEach (d.ports a) (fun p d => d.updPort p fun s => { s with slumber := true }) d else d
    if d.rdB (Reg.AR_PWR_STAT_exiting.ix a) then d.wakeMembers a else d

/-- ARRAY_POWER_TIMER's effect (R250, R251): with dirty stripes, they fall due and the timers start again; else the entry
commands go to all members. Nothing happens while a member command or a command on the array is open. -/
def Dev.powerTimer (d : Dev) (a : Nat) : Dev :=
  match d.nextPower a with
  | none => d
  | some st =>
    let dirty := d.lay.due.filter fun r => r.array = a
    let openRec := d.dram.intents.any fun i => i.array = a
    let busy := (d.lay.ops.any fun o => o.array = a) ||
      d.qmx.cmds.any fun c => namesVolume (eOpcode c.entry) && d.volArray (eVolume c.entry) = a && !eFlushAll c.entry
    if !d.arrEn a || d.rdB (Reg.AR_PWR_STAT_entering.ix a) || d.rdB (Reg.AR_PWR_STAT_exiting.ix a) || busy ||
        (d.mnt.acts.any fun x => x.act = .driveFw && x.array = a) then d
    else if 2 ≤ st ∧ !d.maySleep a then d
    else if 2 ≤ st ∧ (dirty ≠ [] ∨ openRec) then forEach dirty (fun r d => d.makeDue r.array r.t) d
    else
      let ms := d.presentMembers a
      let d := (d.updArr a fun r => { r with pwrTarget := st }).wr (Reg.AR_PWR_STAT_entering.ix a) 1
      let d := forEach (ms.filterMap (d.memberPort a)) (fun p d => d.emit (.drivePower p st)) d
      if ms = [] then d.entryDone a else d

/-- AR_PWR_CTRL.lat_clear (R253). -/
def Dev.latClear (d : Dev) (a : Nat) : Dev :=
  (d.updArr a fun r => { r with longest := [] }).wr ((Reg.AR_PWR_LAT_ms.ix a).ix 0) 600
    |>.wr ((Reg.AR_PWR_LAT_ms.ix a).ix 1) 60000 |>.wr ((Reg.AR_PWR_LAT_ms.ix a).ix 2) 72000

/-! ### Recovery (R243, R244) -/

/-- Commands at the drive and held ones are to be issued again, in their order (R246). -/
def Dev.requeue (d : Dev) (p : Nat) : Dev :=
  let ids := (d.port p).outst
  let d := forEach ids (fun id d => d.updOp id fun o => { o with st := .queued }) d
  d.updPort p fun s => { s with queue := s.outst ++ s.queue, outst := [] }

/-- Ten minutes in ticks. -/
def tenMinutes : Nat := 600 * ticksPerSec

/-- A drive is failed, and an exit of its array no longer waits for it. -/
def Dev.failPort (d : Dev) (p reason : Nat) : Dev :=
  let m := d.memberOn p
  let d := (d.failDrive p reason).updPort p fun s => { s with spinWait := false, spinning := false }
  let d := d.spinUp (p / 32)
  match m with
  | some (a, _) => d.exitCheck a
  | none => d

/-- Recovery starts on a port (R244): a third within ten minutes fails the drive instead; during a recovery nothing more
(DESIGN CHOICE, log entry 45). -/
def Dev.startRecovery (d : Dev) (p op : Nat) : Dev :=
  let s := d.port p
  let recent := s.recovTimes.filter fun t => d.ticks < t + tenMinutes
  if s.recovery.isSome then d
  else if 2 ≤ recent.length then d.failPort p 2
  else
    let t0 := d.ticks
    let d := d.updPort p fun s => { s with recovery := some ⟨1, op⟩, recovTimes := t0 :: recent }
    let d := ((d.spoilExit p).incSat (Reg.PT_RECOV_recoveries.ix p)).causeBit .dpx 20
    d.emit (.driveAbort p op 1)

/-- The commands that a recovery which ended at a step aborted: all at the drive, but for the failing one alone where ABORT
TASK was enough (R244). -/
def Dev.aborted (d : Dev) (p : Nat) (r : Recovery) : List Nat :=
  let s := d.port p
  let ncq : Bool := match s.dev with | some x => x.proto = .sata | none => false
  if r.step = 1 && !ncq then s.outst.filter (· = r.op) else s.outst

/-- A member of an exiting array is ready (R252). -/
def Dev.memberReady (d : Dev) (p : Nat) : Dev :=
  let d := d.updPort p fun s => { s with spinWait := false, spinning := false }
  let d := d.spinUp (p / 32)
  match d.exitingOn p with
  | some (a, i) =>
    if d.rdB (Reg.AR_PWR_STAT_entering.ix a) then d
    else (d.updArr a fun r => { r with exitWait := r.exitWait.filter (· ≠ i) }).exitCheck a
  | none => d

/-- RECOVERY_STEP's effect (R244) (DESIGN CHOICE, log entry 44). -/
def Dev.recoveryStep (d : Dev) (p : Nat) (answered : Bool) : Dev :=
  match (d.port p).recovery with
  | none => d
  | some r =>
    if answered then
      let again := d.aborted p r
      let d := (d.updPort p fun s => { s with recovery := none }).errCorr .dpx 2
      let d := forEach again (fun id d => match d.op? id with | some o => d.sendOp o | none => d) d
      (d.memberReady p).pumpPort p
    else if r.step = 1 then (d.updPort p fun s => { s with recovery := some ⟨2, r.op⟩ }).emit (.driveAbort p r.op 2)
    else if r.step = 2 then (d.updPort p fun s => { s with recovery := some ⟨3, r.op⟩ }).emit (.driveReset p)
    else d.failPort p 1

/-- A command of the port's drive stands at the drive (DESIGN CHOICE, log entry 34). -/
def Dev.atDrive (d : Dev) (p op : Nat) : Bool := decide (d.ptState p = ptReady) && (d.port p).outst.contains op

/-- A command is done with at the drive, with an outcome; what waits goes out. -/
def Dev.leaveDrive (d : Dev) (p op : Nat) (st : OpSt) : Dev :=
  let d := d.updOp op fun o => { o with st := st }
  let d := d.updPort p fun s => { s with outst := s.outst.filter (· ≠ op) }
  forEach (List.range 256) (fun q d => if (d.port q).queue = [] then d else d.pumpPort q) d

/-- DRIVE_COMMAND_COMPLETE's effect (R241, R243). -/
def Dev.driveDone (d : Dev) (p op : Nat) (data : List Block) : Dev :=
  match d.op? op with
  | none => d
  | some o =>
    if !d.atDrive p op then d
    else
      let d := if 0 < o.occurrences then d.errCorr .dpx 1 else d
      let d := if o.isWrite then d else d.updOp op fun o => { o with data := data }
      d.leaveDrive p op .done

/-- The last error of a drive (R257). -/
def Dev.sense (d : Dev) (p sense : Nat) : Dev :=
  let sata : Bool := match (d.port p).dev with | some x => x.proto = .sata | none => false
  d.wr (Reg.PT_SENSE_kind.ix p) (b2n sata) |>.wr (Reg.PT_SENSE_last.ix p) sense

/-- DRIVE_ERROR's effect (R243) (DESIGN CHOICE, log entry 45). -/
def Dev.driveError (d : Dev) (p op : Nat) (e : DriveErr) (sense : Nat) : Dev :=
  match d.op? op with
  | none => d
  | some o =>
    if !d.atDrive p op then d
    else
      let d := d.sense p sense
      match e with
      | .transport =>
        let d := (d.incSat (Reg.PT_ERR_transport.ix p)).updOp op fun o => { o with occurrences := o.occurrences + 1 }
        if 2 ≤ o.occurrences then d.startRecovery p op else d.sendOp o
      | .readMedium =>
        if o.isWrite then d.startRecovery p op
        else ((d.incSat (Reg.PT_ERR_medium.ix p)).errCorr .dpx 3).leaveDrive p op .failedMedium
      | .writeMedium noDefectSpare =>
        let d := d.incSat (Reg.PT_ERR_medium.ix p)
        let sata : Bool := match (d.port p).dev with | some x => x.proto = .sata | none => false
        if !o.writeFailed then (d.updOp op fun o => { o with writeFailed := true }).sendOp o
        else if noDefectSpare || sata then d.failPort p 3
        else d.startRecovery p op
      | .informational =>
        let d := d.wr (Reg.PT_STAT_pfa.ix p) 1
        if d.rdB (Reg.PT_CFG_fail_on_pfa.ix p) then d.failPort p 9 else d
      | .other => d.startRecovery p op

/-- DRIVE_COMMAND_TIMEOUT's effect (R242, R244): of a command at the drive, or of a power command of the port's array. -/
def Dev.driveTimeout (d : Dev) (p op : Nat) : Dev :=
  let power : Bool := match d.memberOn p with
    | some (a, _) => d.rdB (Reg.AR_PWR_STAT_entering.ix a) || d.rdB (Reg.AR_PWR_STAT_exiting.ix a)
    | none => false
  if d.atDrive p op || (power && decide (d.ptState p = ptReady)) then
    (d.incSat (Reg.PT_RECOV_timeouts.ix p)).startRecovery p op
  else d

/-! ### Bring-up (R238 to R240) -/

/-- A device is refused (R238, R239, R260). -/
def Dev.refuseDevice (d : Dev) (p reason : Nat) : Dev := (d.setPt p ptUnsupported reason).causeBit .dpx 18

/-- The rate that a port negotiates (R234). -/
def Dev.lineRate (d : Dev) (p : Nat) (x : DriveInfo) : Nat :=
  let most := d.rd (Reg.PT_CFG_max_rate.ix p)
  if most = 0 then x.rate else min x.rate most

/-- PORT_COMINIT's effect: steps 1 to 3 of R238, and the wait for a spin-up place. A port waits for a device when it is EMPTY,
LINKING or RESETTING and its cluster is not off or failed; the first device after a cluster reset ends that reset
(DESIGN CHOICE, log entry 44). -/
def Dev.cominit (d : Dev) (p : Nat) (x : DriveInfo) : Dev :=
  let n := p / 32
  let st := d.ptState p
  if !(st = ptEmpty || st = ptLinking || st = ptResetting) || !(d.sys.pdDrv.getD n false) || d.clState n = clOff ||
      d.clState n = clFailed then d
  else
    let d := if d.clState n = clResetting then d.setCl n clUp else d
    let rate := d.lineRate p x
    let d := (d.unlink p).updPort p fun s => { s with dev := some x }
    let d := d.wr (Reg.PT_STAT_rate.ix p) rate |>.wr (Reg.PT_STAT_protocol.ix p) (if x.proto = .sas then 1 else 2)
    if x.refusedEarly rate (d.twin p x) then d.refuseDevice p ((x.refusal rate (d.twin p x)).getD 1)
    else
      let d := d.setPt p ptIdentifying 0
      if x.proto = .sas then (d.updPort p fun s => { s with spinWait := true }).spinUp n else d

/-- The registers that identification fills in (R238 step 5, R257). -/
def Dev.fillIn (d : Dev) (p : Nat) (x : DriveInfo) : Dev :=
  d.wr (Reg.PT_ID_id.ix p) x.ident.toNat |>.wr (Reg.PT_BLOCKS_blocks.ix p) x.blocks
    |>.wr (Reg.PT_FMT_phys_bytes.ix p) x.physBytes |>.wr (Reg.PT_FMT_log_bytes.ix p) x.logBytes
    |>.wr (Reg.PT_FWREV_rev.ix p) x.fwrev.toNat
    |>.wr (Reg.PT_STAT_ncq.ix p) (b2n (x.ncq && decide (x.proto = .sata)))

/-- The drive of a port has left it (R204, R246): its commands end, and its member is MISSING. -/
def Dev.driveLeft (d : Dev) (p : Nat) : Dev :=
  let m := d.memberOn p
  let d := d.failOps p
  match m with
  | some (a, i) => (d.memberLeft a i).exitCheck a
  | none => d

/-- DRIVE_READY's effect: steps 4 to 6 of R238, or a member of an exiting array that is ready (R252). The same drive back
within the grace is seen by nobody (R246). -/
def Dev.driveReady (d : Dev) (p : Nat) : Dev :=
  if d.ptState p = ptReady then (d.memberReady p).pumpPort p
  else if d.ptState p ≠ ptIdentifying then d
  else match (d.port p).dev with
    | none => d
    | some x =>
      let same := decide (d.rd (Reg.PT_ID_id.ix p) = x.ident.toNat)
      let d := (d.updPort p fun s => { s with spinWait := false, spinning := false }).spinUp (p / 32)
      let d := d.fillIn p x
      match x.refusal (d.rd (Reg.PT_STAT_rate.ix p)) (d.twin p x) with
      | some r => d.refuseDevice p r
      | none =>
        if (d.port p).grace && same then
          let d := (d.setPt p ptReady 0).updPort p fun s => { s with grace := false }
          (d.requeue p).pumpPort p
        else
          let d := if (d.port p).grace then d.driveLeft p else d
          let d := d.setPt p ptReady 0
          let d := d.post 0x01 0 (p + (if x.proto = .sas then 1 else 2) * 4096) (x.blocks % 2 ^ 32) (x.blocks / 2 ^ 32) 0
          (d.labelSeen p x).pumpPort p

/-- READY_TIMEOUT's effect (R238); a member that does not become ready in a power exit goes through recovery (R252). -/
def Dev.readyTimeout (d : Dev) (p : Nat) : Dev :=
  if d.ptState p = ptIdentifying then d.failPort p 4
  else match d.exitingOn p with
    | some (a, i) => if (d.arr a).exitWait.contains i && decide (d.ptState p = ptReady) then d.startRecovery p 0 else d
    | none => d

/-! ### Link loss and resets (R246 to R249) -/

/-- A port's link goes: a READY port holds its commands for the grace, or reports its drive at once when there is none. -/
def Dev.dropLink (d : Dev) (p st : Nat) : Dev :=
  let ready := decide (d.ptState p = ptReady)
  let d := ((d.spoilExit p).unlink p).setPt p st 0
  let d := d.updPort p fun s => { s with recovery := none }
  if ready then
    if d.rd Reg.DPX_CFG_grace_ms = 0 then d.driveLeft p else d.updPort p fun s => { s with grace := true }
  else d

/-- LINK_LOSS's effect (R245, R246, R249) (DESIGN CHOICE, log entry 44). -/
def Dev.linkLoss (d : Dev) (p : Nat) : Dev :=
  let st := d.ptState p
  if st = ptEmpty ∨ st = ptDisabled ∨ st = ptLoopback then d
  else
    let d := (d.dropLink p ptEmpty).spinUp (p / 32)
    d.updPort p fun s => { s with dev := none }

/-- GRACE_EXPIRE's effect (R246). -/
def Dev.graceExpire (d : Dev) (p : Nat) : Dev := if (d.port p).grace then d.driveLeft p else d

/-- PT_CTRL.reset (R247, R249): merged with a recovery, which goes to its step 3. -/
def Dev.portReset (d : Dev) (p : Nat) : Dev :=
  let st := d.ptState p
  let s := d.port p
  if st = ptDisabled then d
  else match s.recovery with
    | some r =>
      if r.step = 3 then d else (d.updPort p fun s => { s with recovery := some ⟨3, r.op⟩ }).emit (.driveReset p)
    | none =>
      let d := if st = ptLoopback then (d.wr (Reg.PT_LOOP_running.ix p) 0).wr (Reg.PT_LOOP_pass.ix p) 0 else d
      let d := if st = ptEmpty then d else d.dropLink p ptResetting
      (d.spinUp (p / 32)).emit (.driveReset p)

/-- PT_CTRL.fail (R245, R257): of a port that holds a drive. -/
def Dev.portFail (d : Dev) (p : Nat) : Dev :=
  let st := d.ptState p
  if st = ptReady ∨ st = ptIdentifying ∨ st = ptLinking ∨ st = ptResetting ∨ (d.port p).grace then d.failPort p 6 else d

/-- A cluster's ports go with it (R247, R248): DISABLED, their members MISSING without grace. -/
def Dev.clusterDown (d : Dev) (n : Nat) : Dev :=
  forEach (clusterPorts n) (fun p d =>
    let had := decide (d.ptState p = ptReady) || (d.port p).grace
    let d := ((d.spoilExit p).unlink p).setPt p ptDisabled 0
    let d := if had then d.driveLeft p else d
    d.updPort p fun s => { s with dev := none, recovery := none }) (d.setDrv n false)

/-- Whether every array stays within its loss bound with a cluster's members out (R206, R247). -/
def Dev.clusterSpare (d : Dev) (n : Nat) : Bool :=
  d.arrays.all fun a =>
    let gone := (d.members a).filter fun i =>
      match d.memberPort a i with
      | some p => decide (p / 32 = n) && d.memberPresent a i
      | none => false
    decide ((d.geo a).lossBound (sortRows (d.lostMembers a ++ gone)) ≤ d.rd (Reg.AR_CFG_m.ix a))

/-- DPX_CL[n].en ← 0 (R247, R366): refused when an array would lose more than m; never for a FAILED cluster. -/
def Dev.clusterDisable (d : Dev) (n : Nat) : Dev :=
  let st := d.clState n
  if st = clOff then d
  else if st ≠ clFailed ∧ !d.clusterSpare n then d.refuse .dpx
  else
    let d := (d.setCl n clOff).wr (Reg.DPX_CL_en.ix n) 0
    if st = clFailed then d else d.clusterDown n

/-- DPX_CL[n].en ← 1 (R247): an OFF cluster powers up, and its enabled ports wait for their devices. -/
def Dev.clusterEnable (d : Dev) (n : Nat) : Dev :=
  if d.clState n ≠ clOff then d
  else
    let d := ((d.setCl n clUp).wr (Reg.DPX_CL_en.ix n) 1).setDrv n true
    forEach ((clusterPorts n).filter fun p => d.rdB (Reg.PT_CFG_en.ix p)) (fun p d => d.setPt p ptEmpty 0) d

/-- DPX_CL[n].reset (R247, R249): merged with a reset that runs (DESIGN CHOICE, log entry 44). -/
def Dev.clusterReset (d : Dev) (n : Nat) : Dev :=
  if d.clState n ≠ clUp then d
  else
    let held := (clusterPorts n).filter fun p => (d.port p).dev.isSome && d.ptState p ≠ ptDisabled
    let d := if held = [] then d else d.setCl n clResetting
    forEach held (fun p d =>
      let d := if d.ptState p = ptLoopback then (d.wr (Reg.PT_LOOP_running.ix p) 0).wr (Reg.PT_LOOP_pass.ix p) 0 else d
      (d.dropLink p ptResetting).emit (.driveReset p)) d

/-- A cluster fails (R248, R260, R350): the Squall first, then its members. -/
def Dev.clusterFail (d : Dev) (n : Nat) : Dev :=
  if d.clState n = clOff ∨ d.clState n = clFailed then d
  else
    let d := ((d.setCl n clFailed).causeBit .dpx 19).errUncorr .dpx 5
    (d.squall .dpx 0x40 0).clusterDown n

/-- PORT_PARTIAL's effect (R250). -/
def Dev.portPartial (d : Dev) (p : Nat) : Dev :=
  let s := d.port p
  if d.ptState p = ptReady && s.queue = [] && s.outst = [] && s.recovery.isNone && !s.partialLink then
    (d.updPort p fun s => { s with partialLink := true }).emit (.drivePartial p)
  else d

/-! ### SGPIO (R254) -/

/-- Whether an indicator that blinks `hz` times a second is on now. -/
def Dev.blink (d : Dev) (hz : Nat) : Bool := decide (d.ticks * 2 * hz / ticksPerSec % 2 = 0)

/-- The activity, locate and fail bits of a port. -/
def Dev.ledBits (d : Dev) (p : Nat) : Nat :=
  let s := d.port p
  let st := d.ptState p
  let (ms, target) : Nat × Bool := match d.memberOn p with
    | some (a, i) => (d.mst a i, d.rdB (Reg.AR_CPBK_running.ix a) && decide (d.rd (Reg.AR_CPBK_member.ix a) = i))
    | none => (msNone, false)
  let fail : Bool :=
    if d.rdB (Reg.PT_LED_fail.ix p) || st = ptFailed || st = ptUnsupported || ms = msFailed then true
    else if ms = msCatchup || ms = msReplacing || target then d.blink 1
    else if d.rdB (Reg.PT_STAT_pfa.ix p) then d.blink 4
    else false
  let recent : Bool := match s.ledTick with | some t => decide (d.ticks < t + 50 * ticksPerMs) | none => false
  let activity : Bool := decide (s.outst ≠ []) || recent
  let locate : Bool := d.rdB (Reg.PT_LED_locate.ix p) && d.blink 2
  b2n activity + 2 * b2n locate + 4 * b2n fail

/-- One SGPIO frame of a cluster: 3 bits for each mapped port at its bit position go out, and the first input bit of each
shows the drive's presence (DESIGN CHOICE, log entry 44). -/
def Dev.sgpioFrame (d : Dev) (n present : Nat) : Dev :=
  let mine := d.dpx.sgpioMap.filter fun x => decide (x.1 / 32 = n)
  let out := (mine.map fun x => d.ledBits x.1 * 2 ^ (3 * x.2)).sum
  let d := forEach mine (fun x d => d.wr (Reg.PT_STAT_present.ix x.1) (b2n (bitOf present x.2))) d
  if d.rdB Reg.DPX_SG_en then
    ({ d with dpx := { d.dpx with sgpio := Tbl.put d.dpx.sgpio n out } } : Dev).emit (.sgpio n out)
  else d

/-! ### Loopback (R255) -/

/-- PT_CTRL.loop_start. -/
def Dev.loopStart (d : Dev) (p : Nat) : Dev :=
  let st := d.ptState p
  if (d.memberOn p).isSome then d.refuse .dpx
  else if st = ptLoopback ∨ st = ptDisabled then d
  else
    let d := ((d.unlink p).setPt p ptLoopback 0).updPort p fun s => { s with recovery := none, grace := false }
    (d.wr (Reg.PT_LOOP_running.ix p) 1 |>.wr (Reg.PT_LOOP_errors.ix p) 0).emit (.loopback p true)

/-- A loopback ends, and bring-up runs (R255, R260). -/
def Dev.loopOver (d : Dev) (p : Nat) (pass : Bool) : Dev :=
  let d := d.wr (Reg.PT_LOOP_running.ix p) 0 |>.wr (Reg.PT_LOOP_pass.ix p) (b2n pass)
  let d := (d.causeBit .dpx 21).emit (.loopback p false)
  d.setPt p (if (d.port p).dev.isSome then ptLinking else ptEmpty) 0

/-- PT_CTRL.loop_stop. -/
def Dev.loopStop (d : Dev) (p : Nat) : Dev := if d.ptState p = ptLoopback then d.loopOver p false else d

/-- The second of a loopback is over (DESIGN CHOICE, log entry 44). -/
def Dev.loopEnd (d : Dev) (p errors : Nat) : Dev :=
  if d.ptState p ≠ ptLoopback then d
  else
    let d := d.wr (Reg.PT_LOOP_errors.ix p) (min errors 0xFFFF)
    let d := if errors = 0 then d else d.errUncorr .dpx 6
    d.loopOver p (decide (errors = 0))

/-! ### Meanings -/

/-- A drive port exists (R25). -/
def portOk (p : Nat) : Bool := decide (p < 256)
/-- A cluster exists. -/
def clusterOk (n : Nat) : Bool := decide (n < 8)
/-- An array exists. -/
def arrayOk (a : Nat) : Bool := decide (a < 16)

/-- PORT_COMINIT (R238). -/
def execPortCominit (port : Nat) (dev : DriveInfo) (s : State) : Out := onUnit (portOk port) s fun d => d.cominit port dev
/-- SPINUP_SLOT (R238). -/
def execSpinupSlot (cluster : Nat) (s : State) : Out := onUnit (clusterOk cluster) s fun d => d.spinUp cluster
/-- DRIVE_READY (R238). -/
def execDriveReady (port : Nat) (s : State) : Out := onUnit (portOk port) s fun d => d.driveReady port
/-- READY_TIMEOUT (R238). -/
def execReadyTimeout (port : Nat) (s : State) : Out := onUnit (portOk port) s fun d => d.readyTimeout port
/-- DRIVE_COMMAND_COMPLETE (R241). -/
def execDriveCommandComplete (port op : Nat) (data : List Block) (s : State) : Out :=
  onUnit (portOk port) s fun d => d.driveDone port op data
/-- DRIVE_ERROR (R243). -/
def execDriveError (port op : Nat) (e : DriveErr) (sense : Nat) (s : State) : Out :=
  onUnit (portOk port) s fun d => d.driveError port op e sense
/-- DRIVE_COMMAND_TIMEOUT (R242). -/
def execDriveCommandTimeout (port op : Nat) (s : State) : Out := onUnit (portOk port) s fun d => d.driveTimeout port op
/-- RECOVERY_STEP (R244). -/
def execRecoveryStep (port : Nat) (answered : Bool) (s : State) : Out :=
  onUnit (portOk port) s fun d => d.recoveryStep port answered
/-- LINK_LOSS (R246). -/
def execLinkLoss (port : Nat) (s : State) : Out := onUnit (portOk port) s fun d => d.linkLoss port
/-- GRACE_EXPIRE (R246). -/
def execGraceExpire (port : Nat) (s : State) : Out := onUnit (portOk port) s fun d => d.graceExpire port
/-- PORT_RESET (R247). -/
def execPortReset (port : Nat) (s : State) : Out := onPage .dpx (portOk port) s fun d => d.portReset port
/-- PORT_FAIL (R257). -/
def execPortFail (port : Nat) (s : State) : Out := onPage .dpx (portOk port) s fun d => d.portFail port
/-- CLUSTER_RESET (R247). -/
def execClusterReset (cluster : Nat) (s : State) : Out := onPage .dpx (clusterOk cluster) s fun d => d.clusterReset cluster
/-- CLUSTER_DISABLE (R247). -/
def execClusterDisable (cluster : Nat) (s : State) : Out := onPage .dpx (clusterOk cluster) s fun d => d.clusterDisable cluster
/-- CLUSTER_ENABLE (R247). -/
def execClusterEnable (cluster : Nat) (s : State) : Out := onPage .dpx (clusterOk cluster) s fun d => d.clusterEnable cluster
/-- CLUSTER_FAIL (R248). -/
def execClusterFail (cluster : Nat) (s : State) : Out := onUnit (clusterOk cluster) s fun d => d.clusterFail cluster
/-- PORT_PARTIAL (R250). -/
def execPortPartial (port : Nat) (s : State) : Out := onUnit (portOk port) s fun d => d.portPartial port
/-- ARRAY_POWER_TIMER (R250). -/
def execArrayPowerTimer (array : Nat) (s : State) : Out := onUnit (arrayOk array) s fun d => d.powerTimer array
/-- POWER_ENTRY_CONFIRM (R251). -/
def execPowerEntryConfirm (array : Nat) (s : State) : Out := onUnit (arrayOk array) s fun d => d.entryDone array
/-- ARRAY_WAKE (R252). -/
def execArrayWake (array : Nat) (s : State) : Out := ifUnit (arrayOk array) s fun d => d.wakeArr array
/-- PWR_LAT_CLEAR (R253). -/
def execPwrLatClear (array : Nat) (s : State) : Out := onPage .lay (arrayOk array) s fun d => d.latClear array
/-- SGPIO_FRAME (R254). -/
def execSgpioFrame (cluster : Nat) (present : Nat) (s : State) : Out :=
  onUnit (clusterOk cluster) s fun d => d.sgpioFrame cluster present
/-- LOOPBACK_START (R255). -/
def execLoopbackStart (port : Nat) (s : State) : Out := onPage .dpx (portOk port) s fun d => d.loopStart port
/-- LOOPBACK_STOP (R255). -/
def execLoopbackStop (port : Nat) (s : State) : Out := onPage .dpx (portOk port) s fun d => d.loopStop port
/-- LOOPBACK_END (R255). -/
def execLoopbackEnd (port errors : Nat) (s : State) : Out := onUnit (portOk port) s fun d => d.loopEnd port errors

end Sys2Proof.Machine
end

