-- ==== Sys2Proof/Machine/Battery.lean ====
section
/-! DEFINITION. The backup battery: samples and their conditions, the charger, rest points and windows, the Halo filter and
what it publishes, load steps, the learn cycle and its stored values (R261 to R287). -/

set_option Elab.async false

namespace Sys2Proof.Machine

/-- The Halo cause TEST (R269), as a mask. -/
def testCause : Nat := 2

/-- Disqualify a learn cycle for a reason that counts in phases 2 to 4 (R280) (DESIGN CHOICE, log entry 48). -/
def Dev.learnSpoil (d : Dev) (reason : Nat) : Dev := if 2 ≤ d.learnPhaseNo then d.learnStop reason else d

/-! ### Pack and NTCs (R263) -/

/-- PACK_ABSENT's effect (R263, R277, R286). -/
def Dev.packAbsent (d : Dev) : Dev :=
  let d := ((d.wr Reg.BPS_PACK_present 0).alarm 5).learnStop 10
  (d.updBps fun b => { b with restCand := none }).refreshNoAdc.refreshHalo

/-- PACK_PRESENT's effect (R263, R269). -/
def Dev.packPresent (d : Dev) : Dev :=
  if d.packHere then d
  else (((d.wr Reg.BPS_PACK_present 1).alarmEnd 5).setHaloCause 5).refreshNoAdc.refreshHalo

/-- An NTC is ignored, or heard again (R263) (DESIGN CHOICE, log entry 48). -/
def Dev.setNtc (d : Dev) (n : Nat) (bad : Bool) : Dev :=
  let was := if n = 0 then d.bps.ntc0Bad else d.bps.ntc1Bad
  let d := d.updBps fun b => if n = 0 then { b with ntc0Bad := bad } else { b with ntc1Bad := bad }
  let d := if bad then d.wr (if n = 0 then Reg.BPS_TEMP_ntc0 else Reg.BPS_TEMP_ntc1) 0x8000 else d
  let d := if bad && !was then d.errUncorr .bps 5 else d
  (d.alarmIf 10 (d.bps.ntc0Bad || d.bps.ntc1Bad)).refreshNoAdc.refreshHalo

/-! ### Charger (R267, R268) -/

/-- One step of a current loop of R267: kp, ki, largest duty, setpoint, measured current, duty, previous error. -/
def loopStep (kp ki maxDuty : Nat) (iSet iMeas duty ePrev : Int) : Int × Int :=
  let e := iSet - iMeas
  (clampInt 0 maxDuty (duty + ((kp : Int) * (e - ePrev) + (ki : Int) * e) / 256), e)

/-- Whether the charge loop runs: in CC, CV and FLOAT. -/
def Dev.charging (d : Dev) : Bool := [chCc, chCv, chFloat].contains (d.rd Reg.BPS_CHG_STAT_state)

/-- CHARGE_LOOP's effect. -/
def Dev.chargeLoop (d : Dev) : Dev :=
  match d.batt with
  | none => d
  | some b =>
    if !d.charging then d
    else
      let x := loopStep b.kp b.ki b.maxDuty d.bps.iSet d.bps.sample.current (d.rd Reg.BPS_CHG_STAT_duty) d.bps.ePrev
      (d.setDuty x.1.toNat).updBps fun s => { s with ePrev := x.2 }

/-- CHARGE_SETPOINT's effect. -/
def Dev.chargeSetpoint (d : Dev) : Dev :=
  match d.batt with
  | none => d
  | some b =>
    if !d.charging then d
    else
      let v := d.cellHigh / 10
      let i := d.bps.iSet
      let c : Int := b.iChg
      let i' : Int :=
        if (b.vFull : Int) < v then (if c / 64 < i then i - c / 64 else 0)
        else if v + 10 < (b.vFull : Int) ∧ i < c then min (i + c / 256) c
        else i
      let d := d.updBps fun s => { s with iSet := i' }
      if d.rd Reg.BPS_CHG_STAT_state = chFloat then d
      else d.wr Reg.BPS_CHG_STAT_state (if i' = c then chCc else chCv)

/-- CHARGE_DONE's effect. -/
def Dev.chargeDone (d : Dev) : Dev :=
  match d.batt with
  | none => d
  | some b =>
    let st := d.rd Reg.BPS_CHG_STAT_state
    if !(st = chCc || st = chCv) || decide ((b.iTerm : Int) < d.bps.iSet) then d
    else if b.floatMode then d.wr Reg.BPS_CHG_STAT_state chFloat
    else (d.setDuty 0).wr Reg.BPS_CHG_STAT_state chDone

/-- CHARGE_RESTART's effect. -/
def Dev.chargeRestart (d : Dev) : Dev :=
  match d.batt with
  | none => d
  | some b =>
    if d.rd Reg.BPS_CHG_STAT_state = chDone ∧ d.cellHigh < (b.vRestart : Int) * 10 then
      (d.wr Reg.BPS_CHG_STAT_state chCc).updBps fun s => { s with iSet := b.iChg, ePrev := 0 }
    else d

/-- BPS_CHG_CTRL.inhibit. -/
def Dev.chargerInhibit (d : Dev) (on : Bool) : Dev := (d.wrB Reg.BPS_CHG_CTRL_inhibit on).setInhibit 0 on

/-! ### Rest (R270, R278) -/

/-- |I| in mA. -/
def Dev.absCurrent (d : Dev) : Nat := d.bps.sample.current.natAbs

/-- C/100 in mA, times 100: compare with 100 × |I|. -/
def Dev.belowC100 (d : Dev) : Bool := decide (100 * d.absCurrent < d.qL)

/-- The rest candidate after a sample: it goes on, begins, or ends. -/
def Dev.restTrack (d : Dev) : Dev :=
  let t := d.tPack
  let now := d.ticks
  let ok := d.belowC100 && d.adcOk (d.rd Reg.BPS_ADC_primary) && d.bps.ramp.isNone && d.packHere
  let next : Option (Int × Int × Nat) :=
    if !ok then none
    else match d.bps.restCand with
      | none => some (t, t, now)
      | some (lo, hi, t0) =>
        let lo' := min lo t
        let hi' := max hi t
        if hi' - lo' < 20 then some (lo', hi', t0) else some (t, t, now)
  d.updBps fun b => { b with restCand := next }

/-- A rest window ends, for whatever reason: the charger resumes, and a LEARN request that waited goes to the arbiter. -/
def Dev.windowOver (d : Dev) : Dev :=
  if !d.bps.restWindow then d
  else
    let asked := d.bps.learnAsked
    let d := (d.updBps fun b => { b with restWindow := false, learnAsked := false }).refreshRest
    if asked then d.arbRequest .learn wholeDevice else d

/-- REST_POINT's effect (R270): the anchor, the causes it clears, IMBALANCE, and the end of a rest window. -/
def Dev.restPoint (d : Dev) : Dev :=
  match d.batt, d.bps.restCand with
  | some b, some _ =>
    let v : Rat := (d.cellLow : Rat) / 10
    let s := b.ocvInv v d.tPack
    let u := b.anchorU v d.tPack
    let t := d.ticks
    let d := d.updBps fun x => { x with
      anchorS := s, anchorU := u, anchorTick := t, qc := 0, qh := 0, restCand := none, restDone := true }
    let d := d.wr Reg.BPS_REST_TS_ts d.now
    let both := d.adcOk 0 && d.adcOk 1
    let d := d.clearHaloCauses (1 + 4 + 8 + 32 + 64 + (if both then 16 else 0))
    let d := d.alarmIf 11 (decide (1000 < d.cellHigh - d.cellLow))
    d.windowOver
  | _, _ => d

/-- REST_WINDOW_REQUEST's effect (R278): granted unless LEARN is running. -/
def Dev.windowRequest (d : Dev) : Dev :=
  if d.bps.restWindow || decide (d.learnPhaseNo ≠ 0) || d.actRuns .learn wholeDevice then d
  else (d.updBps fun b => { b with restWindow := true }).refreshRest

/-- REST_WINDOW_CHECK's effect: the pack carries load. -/
def Dev.windowCheck (d : Dev) : Dev := if d.bps.restWindow && !d.belowC100 then d.windowOver else d

/-! ### Halo (R271, R275 to R277) -/

/-- FILTER_STEP's effect. -/
def Dev.filterStep (d : Dev) : Dev :=
  match d.batt with
  | none => d
  | some b =>
    if d.haloMode ≠ hmFilter then d
    else
      let n : Rat := b.n
      let f := d.bps.filt.step b d.qL ((d.rd Reg.BPS_R_r0 : Rat) / 10000 / n) ((d.rd Reg.BPS_R_r_dc : Rat) / 10000 / n)
        ((d.rd Reg.BPS_HALO_CFG_drift : Rat) / 100000) (d.adcOk 0 && d.adcOk 1) ((d.bps.sample.current : Rat) / 1000)
        ((d.cellLow : Rat) / 10000) d.tPack
      d.updBps fun x => { x with filt := f }

/-- u_Q of R275: 0.03 at an accepted learn, 0.01 more for each full 30 days since, at most 0.20. -/
def Dev.uQ (d : Dev) : Rat :=
  if d.bps.learned then
    let days := (d.tmb.sec - d.rd Reg.BPS_LEARN_TS_ts / 2 ^ 30) / 86400
    min (20 / 100) (3 / 100 + ((days / 30 : Nat) : Rat) / 100)
  else 20 / 100

/-- A fraction in units of 0.01 %, rounded down (DESIGN CHOICE, log entry 47). -/
def hundredths (r : Rat) : Nat := (floorRat (r * 10000)).toNat

/-- HALO_PUBLISH's effect (R275, R276, R278, R285): with no bound E_low and V_ocv are 0 (DESIGN CHOICE, log entry 47). -/
def Dev.haloPublish (d : Dev) : Dev :=
  match d.batt with
  | none => d.wr Reg.BPS_E_LOW_j 0 |>.wr Reg.BPS_VOLT_v_ocv 0 |>.wr Reg.BPS_VOLT_v_min 0
  | some b =>
    let s := d.socNow
    let u := d.uncNow
    let uQ := d.uQ
    let d := d.wr Reg.BPS_HALO_STAT_soc (hundredths s) |>.wr Reg.BPS_HALO_U_u (min 0xFFFF (hundredths u))
      |>.wr Reg.BPS_HALO_U_u_q (hundredths uQ) |>.wr Reg.BPS_VOLT_v_min (b.n * b.vMin)
    if d.haloMode = hmNone then d.wr Reg.BPS_E_LOW_j 0 |>.wr Reg.BPS_VOLT_v_ocv 0
    else
      let sLow := max 0 (s - u)
      let e : Rat := match d.duskProfile with | some x => b.eLow s u d.qL uQ d.tPack x.pDusk | none => 0
      let v := (floorRat ((b.n : Rat) * b.ocvAt sLow d.tPack)).toNat
      let d := d.wr Reg.BPS_E_LOW_j (min (floorRat e).toNat (2 ^ 32 - 1)) |>.wr Reg.BPS_VOLT_v_ocv v
      let wide := decide ((15 : Rat) / 100 < u)
      let d := d.alarmIf 1 wide
      let d := if wide && !bitOf (d.rd Reg.BPS_HALO_STAT_causes) 6 then d.setHaloCause 6 else d
      match d.duskProfile with
      | some x => d.alarmIf 12 (decide (d.pAvail v < (x.pDusk : Rat) * 12 / 10))
      | none => d

/-- HALO_FIRST_BOUND's effect (R277). -/
def Dev.firstBound (d : Dev) : Dev := (d.updBps fun b => { b with firstSecond := false }).refreshHalo

/-- BPS_CTRL.gauge_reset (R269, R286). -/
def Dev.gaugeReset (d : Dev) : Dev := (d.learnStop 10).setHaloCause 3

/-! ### Impedance (R272 to R274) -/

/-- 1.5 times the profile's R_design, in 0.1 mΩ (R274). -/
def Dev.designR (d : Dev) : Nat := match d.bps.batt with | some b => b.rDesign * 3 / 2 | none => 0

/-- An accepted measurement joins the last five. -/
def Dev.takeStep (d : Dev) (r0 rdc : Nat) : Dev :=
  let r0s := (r0 :: d.bps.r0s).take 5
  let rdcs := (rdc :: d.bps.rdcs).take 5
  let f := filteredRdc rdcs d.bps.rdcHold d.designR
  let d := d.updBps fun b => { b with r0s := r0s, rdcs := rdcs, rdcHold := f.2 }
  (d.incSat Reg.BPS_STEP_accepted).wr Reg.BPS_STEP_last 1 |>.wr Reg.BPS_R_LAST_r0 r0 |>.wr Reg.BPS_R_LAST_r_dc rdc
    |>.wr Reg.BPS_R_r0 (roundRat (median r0s)).toNat |>.wr Reg.BPS_R_r_dc f.1

/-- A rejected measurement (R272, R289). -/
def Dev.rejectStep (d : Dev) : Dev :=
  (((d.incSat Reg.BPS_STEP_rejected).wr Reg.BPS_STEP_last 2).causeBit .bps 19).errCorr .bps 1

/-- A measurement judged by R272; `natural` reverses the sign of the differences (R273). -/
def Dev.judgeStep (d : Dev) (b : BattProfile) (m : StepMeas) (natural : Bool) : Dev :=
  let s : Int := if natural then -1 else 1
  let di := s * (m.ib - m.i200)
  let r (dv di : Int) : Int := roundRat (divRat ((dv * 10000 : Int) : Rat) (di : Rat))
  let r0 := r (m.vb - m.v1) (m.ib - m.i1)
  let rdc := r (m.vb - m.v200) (m.ib - m.i200)
  if 2 * di < (b.stepMa : Int) ∨ 3 * (b.stepMa : Int) < 2 * di ∨ m.varied ∨ rdc < r0 then d.rejectStep
  else
    let d := d.takeStep r0.toNat rdc.toNat
    match d.bps.bcal with
    | some c =>
      if natural then d
      else
        let amps := divRat ((m.v200 * 1000 : Int) : Rat) (c.rLs : Rat)
        let g := roundRat ((d.rd (Reg.BPS_CH_GAIN_gain.ix 4) : Rat) * divRat amps ((m.ib - m.i200 : Int) : Rat))
        d.updBps fun x => { x with gainEsts := (g :: x.gainEsts).take 5 }
    | none => d

/-- Whether a due load step is deferred (R272): learn phases 2 to 4, a rest window, a coefficient ramp, or a rest candidate of
less than 30 minutes. -/
def Dev.stepDeferred (d : Dev) : Bool :=
  decide (2 ≤ d.learnPhaseNo ∧ d.learnPhaseNo ≤ 4) || d.bps.restWindow || d.bps.ramp.isSome ||
  (match d.bps.restCand with
   | some (_, _, t0) => decide (d.ticks < t0 + 1800 * ticksPerSec)
   | none => false)

/-- LOAD_STEP's effect (R272): charger and pin go through the step; no result when it is abandoned. -/
def Dev.loadStep (d : Dev) (m : Option StepMeas) : Dev :=
  match d.batt with
  | none => d
  | some b =>
    if d.stepDeferred then d
    else
      let d := ((d.setInhibit 3 true).setLoadPin true).updBps fun x => { x with restCand := none }
      let d := match m with
        | some m => d.judgeStep b m false
        | none => d.wr Reg.BPS_STEP_last 3
      (d.setLoadPin false).setInhibit 3 false

/-- NATURAL_STEP's effect (R273). -/
def Dev.naturalStep (d : Dev) (m : StepMeas) : Dev :=
  match d.batt with
  | none => d
  | some b => d.judgeStep b m true

/-! ### Learn (R279 to R282) -/

/-- LEARN is requested (R278, R279): after a rest window that is under way, else of the arbiter. -/
def Dev.learnAsk (d : Dev) : Dev :=
  if d.batt.isNone || decide (d.learnPhaseNo ≠ 0) then d
  else if d.bps.restWindow then d.updBps fun b => { b with learnAsked := true }
  else d.arbRequest .learn wholeDevice

/-- A learn phase begins. -/
def Dev.toPhase (d : Dev) (n : Nat) : Dev :=
  let t := d.ticks
  ((d.wr Reg.BPS_LEARN_STAT_phase n).updBps fun b => { b with phaseTick := t, restDone := false }).refreshRest

/-- A day in ticks. -/
def dayTicks : Nat := 86400 * ticksPerSec

/-- LEARN_ABORT's effect (R280). -/
def Dev.learnAbort (d : Dev) : Dev := d.learnStop 8

/-- The result of a cycle that completed phase 4 (R281) (DESIGN CHOICE, log entry 48). -/
def Dev.learnJudge (d : Dev) : Dev :=
  let dq := mahOf d.bps.learnQ
  let ds := d.bps.sTop - d.bps.anchorS
  let q : Nat := (roundRat (max 0 (divRat (if dq < 0 then -dq else dq) ds))).toNat
  let design := d.rd Reg.BPS_Q_design
  let near (x : Nat) : Bool := decide (10 * (max q x - min q x) ≤ x)
  let pend := d.bps.qPend
  let t := d.ticks
  let now := d.now
  if ds < 40 / 100 ∨ 2 * q < design ∨ 11 * design < 10 * q then d.learnResult 2 q 11
  else if !d.bps.learned || near d.qL || (pend ≠ 0 && near pend) then
    let d := d.wr Reg.BPS_Q_learned q |>.wr Reg.BPS_LEARN_TS_ts now
    let due := t + d.rd Reg.BPS_LEARN_CFG_interval_days * dayTicks
    let d := d.updBps fun b => { b with
      learned := true, qPend := 0, pendTs := 0, learnCycles := b.learnCycles + 1, learnTick := due }
    d.learnResult 0 q 0
  else
    let d := d.updBps fun b => { b with
      qPend := q, pendTs := now, learnCycles := b.learnCycles + 1, learnTick := t + 7 * dayTicks }
    d.learnResult 1 q 12

/-- LEARN_PHASE's effect (R279): the phase ends when its end has come. -/
def Dev.learnPhase (d : Dev) : Dev :=
  match d.batt with
  | none => d
  | some b =>
    let full := [chDone, chFloat].contains (d.rd Reg.BPS_CHG_STAT_state)
    match d.learnPhaseNo with
    | 1 =>
      if !full then d
      else
        let t := d.tPack
        (d.toPhase 2).updBps fun x => { x with tTopLow := t, tTopHigh := t }
    | 2 =>
      if !d.bps.restDone then d
      else if d.bps.anchorS < 95 / 100 ∧ !d.bps.backToCharge then
        (d.toPhase 1).updBps fun x => { x with backToCharge := true }
      else
        (d.toPhase 3).updBps fun x => { x with
          sTop := x.anchorS, learnQ := 0, rateBad := 0, paused := 0, dsgDuty := 0, dsgPrev := 0 }
    | 3 =>
      if d.bps.sTop + divRat (mahOf d.bps.qc) (d.qL : Rat) ≤ 30 / 100 ∨ d.cellLow ≤ ((b.vMin : Int) + 100) * 10 then
        (d.setDsg false).toPhase 4
      else d
    | 4 => if d.bps.restDone then d.learnJudge.toPhase 5 else d
    | 5 =>
      if !full then d
      else
        let d := (d.toPhase 0).updBps fun x => { x with backToCharge := false }
        (d.clearHaloCauses testCause).actEnd .learn wholeDevice
    | _ => d

/-- The discharge loop of R279, one sample: the current is held at −rate × C / 100. -/
def Dev.discharge (d : Dev) (b : BattProfile) : Dev :=
  let target : Int := (d.rd Reg.BPS_LEARN_CFG_rate_c100 * d.qL / 100 : Nat)
  let i := -d.bps.sample.current
  let x := loopStep b.kp b.ki b.maxDuty target i d.bps.dsgDuty d.bps.dsgPrev
  let off := decide (5 * (max target i - min target i) > target)
  let d := d.updBps fun s => { s with
    dsgDuty := x.1, dsgPrev := x.2, rateBad := if off then s.rateBad + 1 else 0, paused := if i ≤ 0 then s.paused + 1 else 0 }
  let d := d.setDsg (decide (0 < x.1))
  if 60000 < d.bps.rateBad then d.learnStop 3
  else if 600000 < d.bps.paused then d.learnStop 7
  else d

/-- The conditions of R280 that a sample shows. -/
def Dev.learnWatch (d : Dev) (b : BattProfile) : Dev :=
  let ph := d.learnPhaseNo
  if ph < 2 ∨ 4 < ph then d
  else
    let t := d.tPack
    let d := d.updBps fun x => { x with tTopLow := min x.tTopLow t, tTopHigh := max x.tTopHigh t }
    if t < 100 ∨ 450 < t ∨ d.tHot < 100 ∨ 450 < d.tHot then d.learnStop 1
    else if 100 < d.bps.tTopHigh - d.bps.tTopLow then d.learnStop 2
    else if ph = 3 then d.discharge b
    else if d.bps.phaseTick + 7200 * ticksPerSec ≤ d.ticks ∧ !d.bps.restDone then d.learnStop 9
    else d

/-! ### Samples (R262) -/

/-- A pack voltage or cell voltage in 0.1 mV as whole mV of a 16-bit field. -/
def mvOf (v : Int) : Nat := min 0xFFFF (max 0 (v / 10)).toNat

/-- The voltage and temperature conditions of a sample (R267 to R269, R285). -/
def Dev.sampleWatch (d : Dev) (b : BattProfile) : Dev :=
  let hi := d.cellHigh
  let d := if (b.vMax : Int) * 10 < hi then (d.setInhibit 4 true).alarm 2
    else if hi < (b.vFull : Int) * 10 then (d.setInhibit 4 false).alarmEnd 2
    else d.alarmEnd 2
  let out (lo hi : Int) : Bool := decide (d.tPack < lo ∨ hi < d.tPack ∨ d.tHot < lo ∨ hi < d.tHot)
  let d := (d.setInhibit 1 (out b.chgLow b.chgHigh)).alarmIf 4 (out b.dsgLow b.dsgHigh)
  let d := d.alarmIf 3 (decide (d.cellLow < (b.vMin : Int) * 10))
  let low := decide (d.cellList.sum ≤ (b.n * b.vMin * 10 : Nat)) && decide (d.bps.sample.current < 0)
  if low && !bitOf (d.rd Reg.BPS_HALO_STAT_causes) 2 then d.setHaloCause 2 else d

/-- PACK_SAMPLE's effect (R262): the readings, the coulomb count, and what they drive. -/
def Dev.packSample (d : Dev) (p : PackSample) : Dev :=
  let range (t : Int) : Bool := decide (-400 ≤ t ∧ t ≤ 1250)
  let i := p.current
  let high := d.qL ≤ 20 * i.natAbs
  let d := d.updBps fun b => { b with
    sample := p, qc := b.qc + i, learnQ := b.learnQ + i, qh := if high then b.qh + i.natAbs else b.qh }
  let d := forEach (List.range d.cells) (fun n d => d.wr (Reg.BPS_CELL_mv.ix n) (mvOf (p.cells.getD n 0))) d
  let d := d.wr Reg.BPS_CUR_ma (signed32 i) |>.wr Reg.BPS_PACK_mv (mvOf d.cellList.sum)
    |>.wr Reg.BPS_TEMP_ntc0 (codeOf 16 p.ntc0) |>.wr Reg.BPS_TEMP_ntc1 (codeOf 16 p.ntc1)
  let d := (d.setNtc 0 (!range p.ntc0)).setNtc 1 (!range p.ntc1)
  match d.batt with
  | none => d
  | some b => ((d.sampleWatch b).learnWatch b).restTrack

/-! ### Stored values (R283, R284) -/

/-- The record that holds the present values. -/
def Dev.paramRecord (d : Dev) (seq : Nat) : HaloSlot :=
  { crcOk := true, seq := seq, qL := if d.bps.learned then d.qL else 0, qPend := d.bps.qPend
    acceptedTs := BitVec.ofNat 64 (d.rd Reg.BPS_LEARN_TS_ts), pendTs := BitVec.ofNat 64 d.bps.pendTs
    rDc := d.rd Reg.BPS_R_r_dc, r0 := d.rd Reg.BPS_R_r0, cycles := d.bps.learnCycles
    resultReason := d.rd Reg.BPS_LEARN_STAT_result + 256 * d.rd Reg.BPS_LEARN_STAT_reason
    designMah := d.rd Reg.BPS_Q_design
    chemistry := (d.bps.batt.map BattProfile.chemistry).getD 0
    n := d.cells }

/-- The sequence number of the slot in use. -/
def Dev.paramSeq (d : Dev) : Nat :=
  let s := if d.rdB Reg.BPS_PARAM_slot then d.bps.slotB else d.bps.slotA
  (s.map HaloSlot.seq).getD 0

/-- Put a record, or a bad one, into a parameter slot. -/
def Dev.setSlotRec (d : Dev) (slotB : Bool) (r : HaloSlot) : Dev :=
  let d := d.updBps fun b => if slotB then { b with slotB := some r } else { b with slotA := some r }
  d.wrB (if slotB then Reg.BPS_PARAM_b_ok else Reg.BPS_PARAM_a_ok) r.crcOk

/-- PARAM_WRITE's effect (R284): deferred while the supply is not good; to the unused slot, once more where the read-back is
bad, and then given up. -/
def Dev.paramWrite (d : Dev) (firstOk secondOk : Bool) : Dev :=
  if !d.sys.pwrFailN || !d.sys.pwrGood then d.wr Reg.BPS_PARAM_pending 1
  else
    let slot := !d.rdB Reg.BPS_PARAM_slot
    let r := d.paramRecord ((d.paramSeq + 1) % 2 ^ 32)
    let d := (d.wr Reg.BPS_PARAM_pending 0).emit (.paramSlot slot r)
    let d := if firstOk then d else d.emit (.paramSlot slot r)
    if firstOk || secondOk then
      (((d.setSlotRec slot r).wrB Reg.BPS_PARAM_slot slot).wr Reg.BPS_PARAM_seq r.seq).causeBit .bps 20
    else (d.setSlotRec slot { r with crcOk := false }).errCorr .bps 2

/-- BPS_CTRL.new_pack, or a stored record of another pack (R283, R284). -/
def Dev.newPack (d : Dev) : Dev :=
  let d := (d.learnStop 10).wr Reg.BPS_Q_learned (d.rd Reg.BPS_Q_design)
  let t := d.ticks
  let d := d.updBps fun b => { b with learned := false, qPend := 0, pendTs := 0, learnTick := t }
  (d.setHaloCause 5).learnAsk

/-! ### Meanings -/

/-- PACK_ABSENT (R263). -/
def execPackAbsent (s : State) : Out := s.act Dev.packAbsent
/-- PACK_PRESENT (R263). -/
def execPackPresent (s : State) : Out := s.act Dev.packPresent
/-- NTC_FAULT (R263). -/
def execNtcFault (ntc : Nat) (s : State) : Out := onUnit (decide (ntc < 2)) s fun d => d.setNtc ntc true
/-- CHARGE_LOOP (R267). -/
def execChargeLoop (s : State) : Out := s.act Dev.chargeLoop
/-- CHARGE_SETPOINT (R267). -/
def execChargeSetpoint (s : State) : Out := s.act Dev.chargeSetpoint
/-- CHARGE_DONE (R267). -/
def execChargeDone (s : State) : Out := s.act Dev.chargeDone
/-- CHARGE_RESTART (R267). -/
def execChargeRestart (s : State) : Out := s.act Dev.chargeRestart
/-- CHARGER_INHIBIT (R268). -/
def execChargerInhibit (on : Bool) (s : State) : Out := onPage .bps true s fun d => d.chargerInhibit on
/-- REST_POINT (R270). -/
def execRestPoint (s : State) : Out := s.act Dev.restPoint
/-- FILTER_STEP (R271). -/
def execFilterStep (s : State) : Out := s.act Dev.filterStep
/-- LOAD_STEP (R272). -/
def execLoadStep (m : Option StepMeas) (s : State) : Out := s.act fun d => d.loadStep m
/-- NATURAL_STEP (R273). -/
def execNaturalStep (m : StepMeas) (s : State) : Out := s.act fun d => d.naturalStep m
/-- HALO_PUBLISH (R275). -/
def execHaloPublish (s : State) : Out := s.act Dev.haloPublish
/-- HALO_FIRST_BOUND (R277). -/
def execHaloFirstBound (s : State) : Out := s.act Dev.firstBound
/-- REST_WINDOW_REQUEST (R278); the host's rest_req is granted as the scheduled request is. -/
def execRestWindowRequest (byHost : Bool) (s : State) : Out :=
  s.act fun d => if byHost then d.atPage .bps Dev.windowRequest else d.windowRequest
/-- REST_WINDOW_CHECK (R278). -/
def execRestWindowCheck (s : State) : Out := s.act Dev.windowCheck
/-- REST_WINDOW_END (R278). -/
def execRestWindowEnd (s : State) : Out := s.act Dev.windowOver
/-- LEARN_DUE (R279). -/
def execLearnDue (s : State) : Out := s.act Dev.learnAsk
/-- LEARN_GO (R279). -/
def execLearnGo (s : State) : Out := onPage .bps true s fun d => d.learnAsk
/-- LEARN_ABORT (R280). -/
def execLearnAbort (s : State) : Out := onPage .bps true s Dev.learnAbort
/-- LEARN_PHASE (R279). -/
def execLearnPhase (s : State) : Out := s.act Dev.learnPhase
/-- GAUGE_RESET (R269). -/
def execGaugeReset (s : State) : Out := onPage .bps true s Dev.gaugeReset
/-- NEW_PACK (R284). -/
def execNewPack (s : State) : Out := onPage .bps true s Dev.newPack
/-- PARAM_WRITE (R284). -/
def execParamWrite (firstOk secondOk : Bool) (s : State) : Out := s.act fun d => d.paramWrite firstOk secondOk
/-- PACK_SAMPLE (R262). -/
def execPackSample (p : PackSample) (s : State) : Out := s.act fun d => d.packSample p

end Sys2Proof.Machine
end

