-- ==== Sys2Proof/Machine/Calibrate.lean ====
section
/-! DEFINITION. Calibration of the measurement chain: ADC trust, attempts, cross-check, plausibility, rounds, ramps and
holds (R290 to R299). -/

set_option Elab.async false

namespace Sys2Proof.Machine

/-- Results of R299: ACCEPTED. -/
def crAccepted : Nat := 0
/-- REFUSED. -/
def crRefused : Nat := 1
/-- UNTRUSTED. -/
def crUntrusted : Nat := 2
/-- RESTORED. -/
def crRestored : Nat := 3

/-- Post CAL_RESULT (R299). -/
def Dev.calPost (d : Dev) (level result reason which : Nat) : Dev :=
  d.post 0x40 (if result = crAccepted ∨ result = crRestored then 0 else 2) level (result + 256 * reason) which 0

/-- Result and reason of the last round (R302). -/
def Dev.calShow (d : Dev) (result reason : Nat) : Dev :=
  d.wr Reg.BPS_CAL_STAT_result result |>.wr Reg.BPS_CAL_STAT_reason reason

/-- The primary ADC. -/
def Dev.primary (d : Dev) : Nat := d.rd Reg.BPS_ADC_primary

/-- The trust mark of an ADC. -/
def adcField (adc : Nat) : Fld := if adc = 0 then Reg.BPS_ADC_adc0_ok else Reg.BPS_ADC_adc1_ok

/-- The round, and a ramp of it, ends. -/
def Dev.roundOver (d : Dev) : Dev :=
  ((d.updBps fun b => { b with ramp := none }).wr Reg.BPS_ADC_ramp 0 |>.wr Reg.BPS_CAL_STAT_running 0).actEnd
    .calibrate wholeDevice

/-- An ADC becomes untrusted (R290, R298, R299, R280) (DESIGN CHOICE, log entry 48). -/
def Dev.adcUntrust (d : Dev) (adc reason : Nat) : Dev :=
  if !d.adcOk adc then d
  else
    let d := d.wr (adcField adc) 0
    let d := if d.primary = adc ∧ d.adcOk (1 - adc) then d.wr Reg.BPS_ADC_primary (1 - adc) else d
    let d := ((d.errUncorr .bps 4).alarm (if d.anyAdc then 6 else 7)).setHaloCause 4
    let d := (d.calShow crUntrusted reason).calPost 0 crUntrusted reason adc
    let d := d.updBps fun b => { b with
      calNote := true, calRefusals := 0, mustPass := none
      heldCand := b.heldCand.filter fun c => c.adc ≠ adc }
    (((d.wrB Reg.BPS_CAL_STAT_held d.bps.heldCand.isSome).roundOver.learnSpoil 10).refreshNoAdc).refreshHalo

/-- Whether an attempt's offset readings agree, and whether its gain corrections do (R291). -/
def attemptOk (a : AdcAttempt) : Bool × Bool :=
  (decide ((a.ofs1 - a.ofs2).natAbs ≤ 3), decide (10000 * (a.gain1 - a.gain2).natAbs ≤ (a.gain1 + a.gain2).natAbs))

/-- The first of up to four attempts that passes; else the reason of the last one (R291). -/
def adcCalibrate : Nat → List AdcAttempt → Nat → AdcAttempt ⊕ Nat
  | 0, _, why => .inr why
  | _ + 1, [], why => .inr why
  | n + 1, a :: rest, _ =>
    let ok := attemptOk a
    if ok.1 && ok.2 then .inl a else adcCalibrate n rest (if ok.1 then 2 else 1)

/-- Write an ADC's new corrections: the mean of each pair (R291). -/
def Dev.adcCorrect (d : Dev) (adc : Nat) (a : AdcAttempt) : Dev :=
  d.wr (Reg.BPS_ADC_OFS_lsb.ix adc) (codeOf 16 (roundRat (((a.ofs1 + a.ofs2 : Int) : Rat) / 2)))
    |>.wr (Reg.BPS_ADC_GAIN_gain.ix adc) (roundRat (((a.gain1 + a.gain2 : Int) : Rat) / 2)).toNat

/-- The offset in force of an ADC on a channel, µV. -/
def Dev.chOfs (d : Dev) (adc c : Nat) : Int :=
  signedOf 16 (d.rd ((if adc = 0 then Reg.BPS_CH_OFS_adc0 else Reg.BPS_CH_OFS_adc1).ix c))

/-- The shunt gain's candidate (R293): the median of five estimates, else the gain of the profile. -/
def Dev.shuntCand (d : Dev) (cal : CalProfile) : Int :=
  if d.bps.gainEsts.length < 5 then cal.gains.getD 4 0
  else (d.bps.gainEsts.mergeSort (· ≤ ·)).getD 2 0

/-- The candidates of a round (R293): for each channel the secondary's offset that makes its corrected mean reading equal the
primary's corrected one. -/
def Dev.candidates (d : Dev) (cal : CalProfile) (m : CalMeas) (sec : Nat) : Cand :=
  { offsets := (List.range 7).map fun c =>
      match m.channels[c]? with
      | some x => x.secondary - (x.primary - d.chOfs (1 - sec) c)
      | none => d.chOfs sec c
    shuntGain := d.shuntCand cal
    adc := sec }

/-- Why a round is implausible (R294): reason and channel, the lowest reason first (DESIGN CHOICE, log entry 48). -/
def Dev.implausible (d : Dev) (cal : CalProfile) (m : CalMeas) (c : Cand) : Option (Nat × Nat) :=
  let nom : Int := cal.gains.getD 4 0
  let used := (List.range 7).filter fun i => i < d.cells || 4 ≤ i
  let ofs := used.find? fun i => decide (200 < (c.offsets.getD i 0 - cal.offsets.getD i 0).natAbs)
  let dis := used.find? fun i => match m.channels[i]? with
    | some x =>
      let p := x.primary - d.chOfs (1 - c.adc) i
      let s := x.secondary - d.chOfs c.adc i
      decide (x.fullScale.natAbs * 5 < (p - s).natAbs * 10000)
    | none => false
  if nom.natAbs * 15 < (c.shuntGain - nom).natAbs * 1000 then some (4, 4)
  else match ofs, dis with
    | some i, _ => some (5, i)
    | none, some i => some (6, i)
    | none, none => none

/-- Whether R298 holds changes: LEARN in phases 1 to 5, or a rest candidate of less than 30 minutes. -/
def Dev.calHeld (d : Dev) : Bool :=
  decide (1 ≤ d.learnPhaseNo) || (match d.bps.restCand with
    | some (_, _, t0) => decide (d.ticks < t0 + 1800 * ticksPerSec)
    | none => false)

/-- Candidates are ramped in, or held (R296, R298); the roles swap with them while both ADCs are trusted (R297). -/
def Dev.rampIn (d : Dev) (c : Cand) : Dev :=
  if d.calHeld then
    ((d.updBps fun b => { b with heldCand := some c }).wr Reg.BPS_CAL_STAT_held 1).roundOver
  else
    let swap := d.adcOk 0 && d.adcOk 1
    (d.updBps fun b => { b with ramp := some (0, c, swap), heldCand := none, restCand := none })
      |>.wr Reg.BPS_ADC_ramp 1 |>.wr Reg.BPS_CAL_STAT_held 0

/-- The coefficients of a ramp are in force, and the roles swap (R296, R297). -/
def Dev.rampDone (d : Dev) (c : Cand) (swap : Bool) : Dev :=
  let f := if c.adc = 0 then Reg.BPS_CH_OFS_adc0 else Reg.BPS_CH_OFS_adc1
  let d := forEach (List.range 7) (fun i d => d.wr (f.ix i) (codeOf 16 (c.offsets.getD i 0))) d
  let d := d.wr (Reg.BPS_CH_GAIN_gain.ix 4) c.shuntGain.toNat
  (if swap then d.wr Reg.BPS_ADC_primary c.adc else d).roundOver

/-- RAMP_STEP's effect (R296): the 64th step ends the ramp. -/
def Dev.rampStep (d : Dev) : Dev :=
  match d.bps.ramp with
  | none => d
  | some (n, c, swap) =>
    if n + 1 < 64 then d.updBps fun b => { b with ramp := some (n + 1, c, swap) } else d.rampDone c swap

/-- CAL_HOLD_RELEASE's effect (R298). -/
def Dev.holdRelease (d : Dev) : Dev :=
  match d.bps.heldCand with
  | none => d
  | some c => if d.calHeld || d.bps.ramp.isSome then d else d.rampIn c

/-- The coefficients in force, as a candidate of an ADC. -/
def Dev.inForce (d : Dev) (adc : Nat) : Cand :=
  { offsets := (List.range 7).map (d.chOfs adc), shuntGain := (d.rd (Reg.BPS_CH_GAIN_gain.ix 4) : Nat), adc := adc }

/-- A round is refused (R294, R302); after three in a row for DISAGREE the roles swap with the coefficients in force. -/
def Dev.roundRefused (d : Dev) (sec reason channel : Nat) : Dev :=
  let n := if reason = 6 then d.bps.calRefusals + 1 else 0
  let d := ((d.calShow crRefused reason).incSat Reg.BPS_CAL_CNT_refused).causeBit .bps 21
  let d := (d.errCorr .bps 7).calPost 1 crRefused reason channel
  let d := d.updBps fun b => { b with calNote := true, calRefusals := n }
  if n = 3 then
    let demoted := 1 - sec
    (d.updBps fun b => { b with calRefusals := 0, mustPass := some demoted }).rampIn (d.inForce sec)
  else d.roundOver

/-- A round is accepted (R299). -/
def Dev.roundAccepted (d : Dev) (c : Cand) (byHost : Bool) : Dev :=
  let note := d.bps.calNote
  let d := (d.calShow crAccepted 0).incSat Reg.BPS_CAL_CNT_accepted
  let d := d.updBps fun b => { b with calNote := false, calRefusals := 0 }
  (if note || byHost then d.calPost 1 crAccepted 0 0 else d).rampIn c

/-- Steps 1 and 2 of a round (R291, R293 to R295, R297). -/
def Dev.roundRun (d : Dev) (cal : CalProfile) (m : CalMeas) : Dev :=
  let sec := 1 - d.primary
  let trusted := d.adcOk sec
  match adcCalibrate 4 m.attempts 1 with
  | .inr why =>
    if trusted then d.adcUntrust sec why
    else
      let d := d.calShow crUntrusted why
      (if m.byHost then d.calPost 0 crUntrusted why sec else d).roundOver
  | .inl a =>
    let d := d.adcCorrect sec a
    let d := d.updBps fun b => { b with mustPass := b.mustPass.filter (· ≠ sec) }
    let d := if trusted then d
      else
        let d := ((d.wr (adcField sec) 1).calPost 0 crRestored 0 sec).updBps fun b => { b with calNote := true }
        (((d.alarmEnd 7).alarmIf 6 (!(d.adcOk 0 && d.adcOk 1))).refreshNoAdc).refreshHalo
    if !d.adcOk (1 - sec) then ((d.wr Reg.BPS_ADC_primary sec).calShow crRestored 0).roundOver
    else
      let c := d.candidates cal m sec
      match d.implausible cal m c with
      | some (reason, ch) => d.roundRefused sec reason ch
      | none => d.roundAccepted c m.byHost

/-- CAL_ROUND's effect (R295): merged with a round that runs; nothing without a valid profile
(DESIGN CHOICE, log entry 48). -/
def Dev.calRound (d : Dev) (m : CalMeas) : Dev :=
  match d.bps.bcal, d.batt with
  | some cal, some _ =>
    if d.rdB Reg.BPS_CAL_STAT_running || d.bps.ramp.isSome then d
    else
      let d := d.arbRequest .calibrate wholeDevice
      if d.actRuns .calibrate wholeDevice then (d.wr Reg.BPS_CAL_STAT_running 1).roundRun cal m else d
  | _, _ => d

/-- ADC_UNTRUSTED (R290). -/
def execAdcUntrusted (adc : Nat) (s : State) : Out := onUnit (decide (adc < 2)) s fun d => d.adcUntrust adc 3
/-- CAL_ROUND (R295). -/
def execCalRound (m : CalMeas) (s : State) : Out := s.act fun d => d.calRound m
/-- RAMP_STEP (R296). -/
def execRampStep (s : State) : Out := s.act Dev.rampStep
/-- CAL_HOLD_RELEASE (R298). -/
def execCalHoldRelease (s : State) : Out := s.act Dev.holdRelease

end Sys2Proof.Machine
end

