-- ==== Sys2Proof/Machine/Ece.lean ====
section
/-! DEFINITION. The erasure-code engine: what each kind of job computes and to whom it returns, self-check retries and lane
failures, known-answer tests and retests (R137 to R149, R351). -/

set_option Elab.async false

namespace Sys2Proof.Machine

/-! ### Jobs (R138 to R143) -/

/-- The job with a number, if ECE may run it: it is the oldest job of its stripe, and a lane is up (R143, R145). Jobs of
different stripes complete in any order (R143): in that of the commands
(DESIGN CHOICE, log entry 34) (DESIGN CHOICE, log entry 42). -/
def Dev.running? (d : Dev) (id : Nat) : Option EceJob :=
  match d.ece.jobs.find? fun j => j.id = id with
  | none => none
  | some j =>
    let first := (d.ece.jobs.find? fun x => x.array = j.array && x.t = j.t).map EceJob.id
    if first = some id && !d.eceDown then some j else none

/-- The job that a command of a kind completes. -/
def Dev.jobReady (d : Dev) (id : Nat) (kind : JobKind) : Option EceJob := (d.running? id).filter fun j => j.kind = kind

/-- Input content of a job at a position and row; what LAY marks as zero enters as zeros, whatever was read (R137). -/
def EceJob.at (j : EceJob) (pos row : Nat) : Block :=
  if j.zeros.contains (pos, row) then []
  else ((j.inputs.find? fun b => b.j = pos && b.row = row).map BufBlk.data).getD []

/-- The new content of a delta job at a position and row, where it changes. -/
def EceJob.new? (j : EceJob) (pos row : Nat) : Option Block :=
  if j.freshZeros.contains (pos, row) then some []
  else (j.fresh.find? fun b => b.j = pos && b.row = row).map BufBlk.data

/-- Input bytes of a job (R142): inputs marked as zero are not read (R137). -/
def EceJob.bytes (j : EceJob) : Nat :=
  blockBytes * ((j.inputs.filter fun b => !j.zeros.contains (b.j, b.row)).length +
    (j.fresh.filter fun b => !j.freshZeros.contains (b.j, b.row)).length)

/-- A job is over: its bytes are counted on its kind's counter (R148). -/
def Dev.endJob (d : Dev) (j : EceJob) : Dev :=
  let d := d.updEce fun e => { e with jobs := e.jobs.filter fun x => x.id ≠ j.id }
  if j.kind.lane = 0 then d.incWrap Reg.ECE_ENC_BYTES_bytes j.bytes else d.incWrap Reg.ECE_DEC_BYTES_bytes j.bytes

/-- Outputs of a job that another job of its stripe takes as inputs: a later delta job of a row takes the parity that the
one before returned (R139, R143). -/
def EceJob.after (j : EceJob) (out : List BufBlk) (x : EceJob) : EceJob :=
  if x.kind = .delta && x.client = j.client then
    { x with inputs := x.inputs.map fun b => (out.find? fun o => o.j = b.j && o.row = b.row).getD b }
  else x

/-- A job's outputs are returned. A client gets what its jobs computed once the last of them has returned (R142, R143). -/
def Dev.returnJob (d : Dev) (j : EceJob) (out : List BufBlk) : Dev × Option (List BufBlk) :=
  let mine := ((d.ece.outs.filter fun x => x.1 = j.client).map Prod.snd).filter fun b =>
    !(out.any fun o => o.j = b.j && o.row = b.row)
  let all := mine ++ out
  let others := d.ece.outs.filter fun x => x.1 ≠ j.client
  if d.ece.jobs.any fun x => x.client = j.client then
    (d.updEce fun e => { e with
      jobs := e.jobs.map (j.after out), outs := others ++ all.map fun b => (j.client, b) }, none)
  else (d.updEce fun e => { e with outs := others }, some all)

/-- Outputs of an encode job: every parity row of every block row (R138). -/
def encodeOut (j : EceJob) : List BufBlk :=
  j.rows.flatMap fun r => (List.range j.m).map fun p =>
    ⟨j.k + p, r, parityRow p ((List.range j.k).map fun i => (i, j.at i r))⟩

/-- Outputs of a delta job: the updated parity rows (R139). -/
def deltaOut (j : EceJob) : List BufBlk :=
  j.rows.flatMap fun r => j.parityRows.map fun p =>
    let changes := (List.range j.k).filterMap fun i => (j.new? i r).map fun x => (i, j.at i r, x)
    ⟨j.k + p, r, deltaRow p (j.at (j.k + p) r) changes⟩

/-- The surviving inputs of one block row of a decode job. -/
def EceJob.survivors (j : EceJob) (r : Nat) : List (Nat × Block) :=
  (List.range (j.k + j.m)).filterMap fun p => (j.inputs.find? fun b => b.j = p && b.row = r).map fun _ => (p, j.at p r)

/-- Outputs of a decode job; none when it is refused with TOO_MANY (R140). -/
def decodeOut (j : EceJob) : Option (List BufBlk) :=
  let rows := j.rows.map fun r => (decodeRow j.k j.m j.lost (j.survivors r)).map fun xs =>
    xs.map fun x => (⟨x.1, r, x.2⟩ : BufBlk)
  if rows.all Option.isSome then some (rows.flatMap fun x => x.getD []) else none

/-- Block rows of a decode job that are returned unchecked (R144). -/
def uncheckedRows (j : EceJob) : Nat :=
  (j.rows.filter fun r => !decodeCheckable j.k j.m j.lost (j.survivors r)).length

/-- The parity that a job computed reaches its client: a destage's intent record opens, a restripe step goes on
(R166, R223). -/
def Dev.parityBack (d : Dev) (j : EceJob) (out : List BufBlk) : Dev :=
  match (d.endJob j).returnJob j out with
  | (d, none) => d
  | (d, some all) => match j.client with
    | .destage x => d.destageWrite x all
    | .restripe s => d.stepEncoded j.array s all
    | _ => d

/-- ENCODE's effect: a full encode, or a re-encode of a restripe (R138, R142). -/
def Dev.runEncode (d : Dev) (id : Nat) : Dev :=
  match (d.jobReady id .encode).or (d.jobReady id .reencode) with
  | none => d
  | some j => d.parityBack j (encodeOut j)

/-- DELTA_UPDATE's effect. -/
def Dev.runDelta (d : Dev) (id : Nat) : Dev :=
  match d.jobReady id .delta with
  | none => d
  | some j => d.parityBack j (deltaOut j)

/-- A refused decode job: its client takes the blocks as unrecoverable (R140); maintenance passes over its stripe. -/
def Dev.decodeRefused (d : Dev) (j : EceJob) : Dev :=
  let d := d.updEce fun e => { e with
    jobs := e.jobs.filter fun x => x.client ≠ j.client, outs := e.outs.filter fun x => x.1 ≠ j.client }
  match j.client with
  | .gather g => match d.lay.gathers.find? fun x => x.id = g with
    | some x => d.gatherFail x
    | none => d
  | .destage x => match d.destage? x with
    | some y => d.destageLost y rsMembersLost
    | none => d
  | .mnt .rebuild _ => d.walkSkip j.array
  | .mnt .scrub _ => (d.scrubBad j.array 1).scrubVisited j.array j.t
  | _ => d

/-- Decoded units reach the client of their job. -/
def Dev.decodedBack (d : Dev) (j : EceJob) (out : List BufBlk) : Dev :=
  match j.client with
  | .gather g => d.gatherDone g out
  | .destage x => d.destageDecoded x out
  | .mnt .rebuild bad => d.walkDecoded j.array j.t ⟨out, bad⟩
  | .mnt (.catchup i c) bad => d.catchDecoded j.array j.t i c ⟨out, bad⟩
  | .mnt (.copyback i c) bad => d.copybackDecoded j.array j.t i c ⟨out, bad⟩
  | .mnt .scrub bad => d.scrubDecoded j.array j.t j.lost ⟨out, bad⟩
  | _ => d

/-- The check unit's verdict on a decode job: a surviving parity row that the solve did not use, re-encoded from the recovered
data, equals the stored row (R144). -/
def decodePasses (j : EceJob) (out : List BufBlk) : Bool :=
  j.rows.all fun r => decodeCheck j.k j.m j.lost (j.survivors r) ((out.filter fun b => b.row = r).map fun b => (b.j, b.data))

/-- DECODE's effect. A job whose output fails its check returns nothing (R143, R144): it stands until ECE_ROW_RETRY takes it
up. -/
def Dev.runDecode (d : Dev) (id : Nat) : Dev :=
  match d.jobReady id .decode with
  | none => d
  | some j =>
    match decodeOut j with
    | none => (d.endJob j).decodeRefused j
    | some out =>
      if decodePasses j out then
        match ((d.endJob j).incSat Reg.ECE_UNCHECKED_rows (uncheckedRows j)).returnJob j out with
        | (d, none) => d
        | (d, some all) => d.decodedBack j all
      else d

/-- Code of a verdict (R141). -/
def Verdict.code : Verdict → Nat
  | .consistent => 0
  | .parityError _ => 1
  | .dataError _ => 2
  | .unlocated => 3

/-- The parity row j or data position i that a verdict reports (R141). -/
def Verdict.unit : Verdict → Nat
  | .parityError j => j
  | .dataError i => i
  | _ => 0

/-- SYNDROME_CHECK's effect: the verdict on a block row goes out, and scrub handles it (R141, R221). -/
def Dev.runSyndrome (d : Dev) (id : Nat) : Dev :=
  match d.jobReady id .syndrome with
  | none => d
  | some j =>
    let tags := (((d.arr j.array).scrub.bind ScrubSt.work).map ScrubWork.tags).getD []
    let v := d.scrubJudge j j.at tags
    ((d.endJob j).emit (.eceVerdict j.id v.1.code v.1.unit)).scrubVerdict j v

/-! ### Lanes (R145) -/

/-- ECE_LANE_STAT.carrier. -/
def Dev.showCarrier (d : Dev) : Dev :=
  d.wr Reg.ECE_LANE_STAT_carrier (match d.laneUp 0, d.laneUp 1 with
    | true, true => 0
    | true, false => 1
    | false, true => 2
    | false, false => 3)

/-- Every job goes to the lane that carries its kind (R142, R145) (DESIGN CHOICE, log entry 42). -/
def Dev.relane (d : Dev) : Dev :=
  d.updEce fun e => { e with jobs := e.jobs.map fun j => { j with lane := d.laneOf j.kind } }

/-- A lane becomes FAILED: its jobs move to the other one; with both FAILED, ECE is in FAULT (R145, R351). -/
def Dev.laneFail (d : Dev) (lane : Nat) : Dev :=
  let d := (((d.setLane lane 2).showCarrier).causeBit .ece 17).relane
  if d.eceDown then
    ((d.setState .ece stFault).errUncorr .ece 5).squall .ece 0x32 0xFFFFFFFF
  else d

/-- Error code of a self-check mismatch by the job's kind (R149): 1 encode, delta and re-encode, 2 decode and syndrome. -/
def JobKind.code (k : JobKind) : Nat := k.lane + 1

/-- ECE_ROW_RETRY's effect: a self-check mismatch of a row of the job that a lane runs, and the row's one retry (R145). The
stall is what the lane measures: a free value within the bound of R341. -/
def Dev.rowRetry (d : Dev) (id : Nat) (retryOk : Bool) : Dev :=
  match d.running? id with
  | none => d
  | some j =>
    let d := (d.causeBit .ece 16).incSat Reg.ECE_CHK_mismatch
    if retryOk then ((d.errCorr .ece j.kind.code).squall .ece 0x30 (d.free % 5001)).nextFree
    else
      let d := ((d.incSat Reg.ECE_CHK_retry_fail).errUncorr .ece 3).laneFail j.lane
      if d.eceDown then d else (d.squall .ece 0x31 (d.free % 15001)).nextFree

/-! ### Known-answer tests (R146, R147) -/

/-- Whether a test or a retest is under way (R148). -/
def Dev.katRunning (d : Dev) : Bool := d.ece.katOn.isSome || decide (d.ece.retesting ≠ [])

/-- ECE_KAT_STAT.running follows. -/
def Dev.katShowRun (d : Dev) : Dev := d.wrB Reg.ECE_KAT_STAT_running d.katRunning

/-- A run starts on the lane whose turn it is, a FAILED lane being passed over; merged with one in progress (R146)
(DESIGN CHOICE, log entry 77). -/
def Dev.katStart (d : Dev) : Dev :=
  if d.katRunning || d.eceDown then d
  else
    let lane := if d.laneUp d.ece.katLane then d.ece.katLane else 1 - d.ece.katLane
    (d.updEce fun e => { e with katLane := 1 - lane, katOn := some lane }).katShowRun

/-- Results of ECE_KAT_STAT (R148): PASS. -/
def katPass : Nat := 1
/-- PASS_ON_RETRY. -/
def katRetry : Nat := 2
/-- FAIL. -/
def katFail : Nat := 3

/-- A run's end on a lane shows in ECE_KAT_STAT and ECE_KAT_TS. -/
def Dev.katShow (d : Dev) (lane result runs : Nat) : Dev :=
  ((d.incSat Reg.ECE_KAT_STAT_runs runs).wr Reg.ECE_KAT_STAT_result result |>.wr Reg.ECE_KAT_STAT_lane lane
    |>.wr Reg.ECE_KAT_TS_ts d.now).katShowRun

/-- KAT_DONE's effect: the first attempt and, after a mismatch, its repeat; an attempt matches when both passes give
`katParity` and `katData` (R146, R149). -/
def Dev.katDone (d : Dev) (firstOk repeatOk : Bool) : Dev :=
  match d.ece.katOn with
  | none => d
  | some lane =>
    let d := d.updEce fun e => { e with katOn := none }
    if firstOk then d.katShow lane katPass 1
    else
      let d := d.causeBit .ece 18
      if repeatOk then (d.errCorr .ece 4).katShow lane katRetry 1
      else ((d.errUncorr .ece 4).katShow lane katFail 1).laneFail lane

/-- ECE_RETEST's effect: each FAILED lane is retested, one after the other; merged with a retest in progress, ignored without
a FAILED lane (R146, R147). -/
def Dev.retest (d : Dev) : Dev :=
  let failed := [0, 1].filter fun l => d.laneState l = 2
  if failed = [] || decide (d.ece.retesting ≠ []) then d
  else
    let d := d.updEce fun e => { e with retesting := failed }
    (forEach failed (fun l d => d.setLane l 3) d).katShowRun

/-- ECE_RETEST_DONE's effect on the lane whose retest runs: a retest waits for a run in progress, and for the retest of the
other lane (R146); by the number of runs that passed (R147). -/
def Dev.retestDone (d : Dev) (lane passed : Nat) : Dev :=
  if d.ece.katOn.isSome || d.ece.retesting.head? ≠ some lane then d
  else
    let down := d.eceDown
    let d := d.updEce fun e => { e with retesting := e.retesting.drop 1 }
    if 16 ≤ passed then
      let d := ((((d.setLane lane 0).showCarrier).relane).katShow lane katPass 16).causeBit .ece 19
      if down then d.setState .ece stActive else d
    else ((((d.setLane lane 2).showCarrier).causeBit .ece 18).errUncorr .ece 4).katShow lane katFail (passed + 1)

/-! ### Meanings -/

/-- KAT_INTERVAL (R146). -/
def execKatInterval (s : State) : Out :=
  s.act fun d => if d.rd Reg.ECE_KAT_CTRL_interval_s = 0 then d else d.katStart

/-- KAT_RUN (R146). -/
def execKatRun (s : State) : Out := onPage .ece true s Dev.katStart

/-- KAT_DONE (R146). -/
def execKatDone (firstOk repeatOk : Bool) (s : State) : Out := s.act fun d => d.katDone firstOk repeatOk

/-- ENCODE (R138). -/
def execEncode (job : Nat) (s : State) : Out := s.act fun d => d.runEncode job

/-- DELTA_UPDATE (R139). -/
def execDeltaUpdate (job : Nat) (s : State) : Out := s.act fun d => d.runDelta job

/-- DECODE (R140). -/
def execDecode (job : Nat) (s : State) : Out := s.act fun d => d.runDecode job

/-- SYNDROME_CHECK (R141). -/
def execSyndromeCheck (job : Nat) (s : State) : Out := s.act fun d => d.runSyndrome job

/-- ECE_ROW_RETRY (R145). -/
def execEceRowRetry (job : Nat) (retryOk : Bool) (s : State) : Out := s.act fun d => d.rowRetry job retryOk

/-- ECE_RETEST (R147). -/
def execEceRetest (s : State) : Out := onPage .ece true s Dev.retest

/-- ECE_RETEST_DONE (R147). -/
def execEceRetestDone (lane : Nat) (runsPassed : Nat) (s : State) : Out :=
  onUnit (decide (lane < 2)) s fun d => d.retestDone lane runsPassed

end Sys2Proof.Machine
end

