-- ==== Sys2Proof/Machine/Pwc.lean ====
section
/-! DEFINITION. The work of PWC on the DRAM groups: patrol reads, rejoin, retraining runs, and the recompute of the Ceiling
(R153 to R157, R168, R170, R228, R282, R300). -/

set_option Elab.async false

namespace Sys2Proof.Machine

/-! ### Patrol (R153, R155) -/

/-- A copy of a metadata line in a group. -/
def Dev.lineCopy (d : Dev) (g : Group) (la : Nat) : Bytes :=
  match g with
  | .a => Tbl.getD d.dram.metaA la []
  | .b => Tbl.getD d.dram.metaB la []

/-- Write a copy of a metadata line. -/
def Dev.setLineCopy (d : Dev) (g : Group) (la : Nat) (data : Bytes) : Dev :=
  d.updDram fun m => match g with
    | .a => { m with metaA := Tbl.put m.metaA la data }
    | .b => { m with metaB := Tbl.put m.metaB la data }

/-- Bytes in a metadata line (R180). -/
def lineBytes : Nat := 128

/-- Whether a group's copy of a line lies on the channel that is being retrained (R156) (DESIGN CHOICE, log entry 51). -/
def Dev.onRetrain (d : Dev) (g : Group) (la : Nat) : Bool :=
  d.pwc.retraining = some (groupBase g + Config.lineChannel la % 6)

/-- Whether a group's copy of a line can be read now. -/
def Dev.lineReadable (d : Dev) (g : Group) (la : Nat) : Bool := d.groupUp g && !d.onRetrain g la

/-- A metadata line cannot be read in a group (R155, R181): it is served and rewritten from the other group; where that has
none, no copy is left, and the spec states no content: free bytes (DESIGN CHOICE, log entry 51). -/
def Dev.badLine (d : Dev) (g : Group) (la : Nat) : Dev :=
  let c := groupBase g + Config.lineChannel la % 6
  if d.groupUp (otherGroup g) then
    (((d.setLineCopy g la (d.lineCopy (otherGroup g) la)).errUncorr .pwc 2).countCorr c).countUncorr c
  else
    ((((d.setLineCopy g la ((List.range lineBytes).map (Config.freeByte d.freeCtr))).nextFree).errUncorr .pwc 4).countUncorr c)

/-- An open destage loses a block of its buffer in both groups (R168): affected are the dirty blocks of that unit, or for
parity, of that row (DESIGN CHOICE, log entry 51). -/
def Dev.bufferBad (d : Dev) (a t j row : Nat) : Dev :=
  let k := (d.geoAt a t).k
  let hit (b : CBlk) : Bool := let p := d.place b.vol b.lba; if j < k then p.ju = j else p.b = row
  d.destageBad a t (d.dram.cache.filter fun b => b.array = a && b.t = t && b.st = .destaging && !b.gone && hit b)

/-- The channel of a group that holds an item; for what the model gives no place, a free value
(DESIGN CHOICE, log entry 51). -/
def Dev.itemChannel (d : Dev) (g : Group) (item : DramItem) : Nat :=
  match item with
  | .block v lba adm => match d.dram.cache.find? fun b => b.vol = v && b.lba = lba && b.adm = adm with
    | some b => b.chan g
    | none => groupBase g + d.free % 6
  | .metadata la => groupBase g + Config.lineChannel la % 6
  | _ => groupBase g + d.free % 6

/-- A codeword of an item cannot be corrected in a group (R155). What both groups hold is served and rewritten from the other
one while it is up; the scratch region and unused space have no other copy. -/
def Dev.badItem (d : Dev) (g : Group) (item : DramItem) : Dev :=
  let c := d.itemChannel g item
  let up := d.groupUp (otherGroup g)
  let mirrored := (((d.errUncorr .pwc 2).countCorr c).countUncorr c).nextFree
  let gone := d.nextFree.countUncorr c
  match item with
  | .block v lba adm => match d.dram.cache.find? fun b => b.vol = v && b.lba = lba && b.adm = adm with
    | some b => if b.copy g = .absent ∨ b.st = .writing then d else d.badCopy b g 2
    | none => gone
  | .buffer a t j row =>
    if !(d.dram.intents.any fun i => i.array = a && i.t = t && i.blocks.any fun b => b.j = j && b.row = row) then gone
    else if up then mirrored else (d.nextFree.bufferBad a t j row).countUncorr c
  | .intent seq => match d.dram.intents.find? fun i => i.seq = seq with
    | some i => if up then mirrored else (d.nextFree.destageBad i.array i.t
        ((d.dram.cache.filter fun b => b.st = .destaging && i.carries.contains (b.vol, b.lba, b.adm)).filter fun b => !b.gone)).countUncorr c
    | none => gone
  | .metadata la => d.badLine g la
  | .logs => if up then mirrored else (d.nextFree.errUncorr .pwc 4).countUncorr c
  | .scratch => gone

/-- A codeword was taken for another one, and that is what the group now holds (R153): a block's copy no longer matches its
CRC-64, a metadata line has other bytes (DESIGN CHOICE, log entry 51). -/
def Dev.wrongItem (d : Dev) (g : Group) (item : DramItem) (line : Nat) (diff : Bytes) : Dev :=
  if diff.take 64 = List.replicate 64 0#8 then d
  else match item with
  | .block v lba adm => d.updCache fun xs => xs.map fun b =>
      if b.vol = v && b.lba = lba && b.adm = adm && b.copy g ≠ .absent && b.st ≠ .writing then b.setCopy g .wrong else b
  | .metadata la =>
    let x := if line = 0 then diff.take 64 else List.replicate 64 0#8 ++ diff.take 64
    d.setLineCopy g la (padB lineBytes (xorB (padB lineBytes (d.lineCopy g la)) x))
  | _ => d

/-- PATROL_READ's effect: the codeword of a 64-byte line of an item in a group, with some bits wrong on its sub-channel's lines and beats
(R153 to R155). Nothing is read from a group that is not up or a channel that is being retrained (R156). -/
def Dev.patrolRead (d : Dev) (g : Group) (item : DramItem) (line : Nat) (bits : List (Nat × Nat)) : Dev :=
  let c := d.itemChannel g item
  if !d.groupUp g || d.pwc.retraining = some c then d
  else match rsDecode (errWord bits) with
    | .clean => d
    | .corrected => (d.nextFree).countCorr c
    | .uncorrectable => d.badItem g item
    | .miscorrected diff n => (if n = 0 then d.nextFree else d.nextFree.countCorr c).wrongItem g item line diff

/-! ### Rejoin (R157) -/

/-- PWC_GRP_CTRL.rejoin: refused unless exactly one group is FAILED, and in Dusk and Dawn; `trained` says whether every
channel of the group trains. -/
def Dev.groupRejoin (d : Dev) (trained : Bool) : Dev :=
  let failed (g : Group) : Bool := decide (d.groupState g = grFailed)
  if failed .a = failed .b || d.vlt.dusk.isSome || d.vlt.dawn.isSome ||
      decide (d.rd (Reg.BLK_STAT_specific.ix Blk.sys.page) ≠ 5) then d.refuse .pwc
  else
    let g : Group := if failed .a then .a else .b
    if trained then
      let d := forEach (List.range 6) (fun i d => d.setChan (groupBase g + i) chanOk) d
      (d.setGroup g grRejoining).updPwc fun p => { p with rejoining := some g }
    else d.errUncorr .pwc 7

/-- REJOIN_DONE's effect: the group holds every copy again. -/
def Dev.rejoinDone (d : Dev) : Dev :=
  match d.pwc.rejoining with
  | none => d
  | some g =>
    let d := (d.setGroup g 0).updPwc fun p => { p with rejoining := none }
    let d := d.updCache fun xs => xs.map fun b => if b.st = .clean then b else b.setCopy g (b.copy (otherGroup g))
    let d := d.updDram fun m => match g with
      | .a => { m with metaA := m.metaB }
      | .b => { m with metaB := m.metaA }
    d.causeBit .pwc 20

/-! ### The recompute (R170, R228, R282) -/

/-- The prediction of R282 with the present uncertainty, temperature and capacity; LEARN aborts while it misses the floor. -/
def Dev.judgeFloor (d : Dev) : Dev :=
  let uQ : Rat := (d.rd Reg.BPS_HALO_U_u_q : Rat) / 10000
  let miss := d.learnFloorMiss d.uncNow uQ d.qL d.tPack
  let d := d.updPwc fun p => { p with predictedFloorMiss := miss }
  if miss then forEach (d.running.filter fun x => x.act = .learn) (fun x d => d.actAbort x) d else d

/-- CEILING_RECOMPUTE's effect. -/
def Dev.ceilingRecompute (d : Dev) : Dev := d.recompute.judgeFloor

/-! ### Retraining runs (R300) -/

/-- A channel is taken out of service and retrained, or fails (R156, R300). -/
def Dev.retrainChannel (d : Dev) (ok : Bool) : Dev :=
  match d.pwc.retrainNext with
  | none => d
  | some c =>
    if d.pwc.retraining.isSome || decide (12 ≤ c) then d
    else
      let d := d.wr Reg.PWC_RETRAIN_STAT_channel c
      if ok then
        ((d.setChan c chanRetrain).setGroup (groupOf c) 1).updPwc fun p => { p with retraining := some c }
      else d.channelLost c

/-- The channel returns; after channel 11 the run ends. -/
def Dev.retrainBack (d : Dev) : Dev :=
  match d.pwc.retraining with
  | none => d
  | some c =>
    if 11 ≤ c then d.retrainEnd true
    else d.retrainReturn.updPwc fun p => { p with retrainNext := some (c + 1) }

/-! ### Meanings -/

/-- PATROL_READ (R155); a sub-channel has 40 lines and 16 beats (R154). -/
def execPatrolRead (g : Group) (item : DramItem) (line : Nat) (bits : List (Nat × Nat)) (s : State) : Out :=
  onUnit (bits.all fun b => decide (b.1 < 40 ∧ b.2 < 16)) s fun d => d.patrolRead g item line bits

/-- CEILING_RECOMPUTE (R170). -/
def execCeilingRecompute (s : State) : Out := s.act Dev.ceilingRecompute

/-- CHANNEL_LOST (R348). -/
def execChannelLost (channel : Nat) (s : State) : Out := onUnit (decide (channel < 12)) s fun d => d.channelLost channel

/-- GROUP_REJOIN (R157). -/
def execGroupRejoin (trained : Bool) (s : State) : Out := onPage .pwc true s fun d => d.groupRejoin trained

/-- REJOIN_DONE (R157). -/
def execRejoinDone (s : State) : Out := s.act Dev.rejoinDone

/-- DRAM_RETRAIN (R300). -/
def execDramRetrain (s : State) : Out := s.act fun d => d.arbRequest .dramRetrain wholeDevice

/-- RETRAIN_CHANNEL (R300). -/
def execRetrainChannel (ok : Bool) (s : State) : Out := s.act fun d => d.retrainChannel ok

/-- RETRAIN_CHANNEL_RETURN (R156). -/
def execRetrainChannelReturn (s : State) : Out := s.act Dev.retrainBack

end Sys2Proof.Machine
end

