-- ==== Sys2Proof/Machine/Bme.lean ====
section
/-! DEFINITION. The bulk move engine: shadow and active sets, their checks, ends and errors, stopping channels and the block
(R379 to R391). -/

set_option Elab.async false

namespace Sys2Proof.Machine

/-- Extent of a space beside HOST (R379). -/
def Dev.bmeExtent (d : Dev) (space : Nat) : Nat :=
  if space = spScratch then d.rd Reg.PWC_SCRATCH_mib * 2 ^ 20 else 256 * 1024

/-- What the check at load finds (R382): INVALID, WINDOW, or nothing. -/
def Dev.bmeCheck (d : Dev) (ss ds src dst len : Nat) : Option Nat :=
  let outside (sp a : Nat) : Bool := (sp = spScratch || sp = spMailbox) && decide (d.bmeExtent sp < a + len)
  let away (sp a : Nat) : Bool := sp = spHost && !d.inWindow a len
  if ss = 3 ∨ ds = 3 ∨ (ss = spHost ∧ ds = spHost) ∨ len = 0 ∨ src % 4 ≠ 0 ∨ dst % 4 ≠ 0 ∨ len % 4 ≠ 0 ∨
      (ss = ds ∧ src < dst + len ∧ dst < src + len) ∨ outside ss src ∨ outside ds dst ∨
      ((ss = spScratch ∨ ds = spScratch) ∧ !d.groupUp .a) then some 1
  else if away ss src || away ds dst then some 2
  else none

/-- Copy or clear the active set's registers. -/
def Dev.bmeSetActive (d : Dev) (c src dst len irq ds ss : Nat) : Dev :=
  d.wr (Reg.BME_ACT_SRC_addr.ix c) src |>.wr (Reg.BME_ACT_DST_addr.ix c) dst |>.wr (Reg.BME_ACT_LEN_bytes.ix c) len
    |>.wr (Reg.BME_ACT_CFG_irq.ix c) irq |>.wr (Reg.BME_ACT_CFG_dst_space.ix c) ds |>.wr (Reg.BME_ACT_CFG_src_space.ix c) ss

/-- The armed shadow set is loaded and checked; a HOST source is asked for at once (R381 to R383)
(DESIGN CHOICE, log entry 49). -/
def Dev.bmeLoad (d : Dev) (c : Nat) : Dev :=
  let src := d.rd (Reg.BME_SH_SRC_addr.ix c)
  let dst := d.rd (Reg.BME_SH_DST_addr.ix c)
  let len := d.rd (Reg.BME_SH_LEN_bytes.ix c)
  let ds := d.rd (Reg.BME_SH_CFG_dst_space.ix c)
  let ss := d.rd (Reg.BME_SH_CFG_src_space.ix c)
  let d := d.bmeSetActive c src dst len (d.rd (Reg.BME_SH_CFG_irq.ix c)) ds ss
  let d := (d.wr (Reg.BME_SH_CFG_armed.ix c) 0).wr (Reg.BME_CH_DONE_bytes.ix c) 0
  let d := (d.wr (Reg.BME_CH_STAT_error.ix c) 0).wr (Reg.BME_CH_STAT_state.ix c) 1
  let d := d.updBmeCh c fun _ => {}
  match d.bmeCheck ss ds src dst len with
  | some e => ((d.wr (Reg.BME_CH_STAT_state.ix c) 2).wr (Reg.BME_CH_STAT_error.ix c) e).causeBit .bme (24 + c)
      |>.errUncorr .bme e
  | none => if ss = spHost then d.readHost 0 src len fun off _ => .bme c off else d

/-- A channel with nothing loaded is IDLE, and loads an armed set (R381). -/
def Dev.bmeIdle (d : Dev) (c : Nat) : Dev :=
  let d := d.bmeSetActive c 0 0 0 0 0 0
  let d := (d.wr (Reg.BME_CH_STAT_error.ix c) 0).wr (Reg.BME_CH_STAT_state.ix c) 0
  if d.rdB (Reg.BME_SH_CFG_armed.ix c) then d.bmeLoad c else d

/-- BME_SH_CFG.arm (R381, R385): refused while the channel is OFF or the set is armed already
(DESIGN CHOICE, log entry 49). -/
def Dev.bmeArm (d : Dev) (c : Nat) : Dev :=
  if d.bmeState c = 3 || d.rdB (Reg.BME_SH_CFG_armed.ix c) then d.refuse .bme
  else
    let d := d.wr (Reg.BME_SH_CFG_armed.ix c) 1
    if d.bmeState c = 0 then d.bmeLoad c else d

/-- BME_CH_CTRL.resume (R381, R388) (DESIGN CHOICE, log entry 49). -/
def Dev.bmeResume (d : Dev) (c : Nat) : Dev := if d.bmeState c = 2 then d.bmeIdle c else d

/-- A channel is dropped (R385): nothing of its sets remains. done_bytes and the destinations of both sets are undefined
(DESIGN CHOICE, log entry 49). -/
def Dev.bmeDrop (d : Dev) (c : Nat) : Dev :=
  if d.bmeState c = 3 then d
  else
    let d := d.dropReads (kindIsBme c)
    let d := onlyIf (d.bmeState c ≠ 0) (fun d => d.bmeSpoilActive c 0) d
    let d := onlyIf (d.rdB (Reg.BME_SH_CFG_armed.ix c)) (fun d =>
      let a := d.rd (Reg.BME_SH_DST_addr.ix c)
      d.bmeSpoil (d.rd (Reg.BME_SH_CFG_dst_space.ix c)) a (a + d.rd (Reg.BME_SH_LEN_bytes.ix c))) d
    let d := d.bmeSetActive c 0 0 0 0 0 0
    let d := (d.wr (Reg.BME_CH_STAT_error.ix c) 0).wr (Reg.BME_CH_STAT_state.ix c) 3
    let d := (d.wr (Reg.BME_SH_CFG_armed.ix c) 0).wr (Reg.BME_CH_CTRL_en.ix c) 0
    ((d.wr (Reg.BME_CH_DONE_bytes.ix c) d.free).nextFree).updBmeCh c fun _ => {}

/-- A dropped channel becomes IDLE (R385), unless the whole block is off (R386). -/
def Dev.bmeEnable (d : Dev) (c : Nat) : Dev :=
  if d.bmeState c = 3 && (d.blkState .bme = stIdle || d.blkState .bme = stActive) then
    (d.wr (Reg.BME_CH_CTRL_en.ix c) 1).wr (Reg.BME_CH_STAT_state.ix c) 0
  else d

/-- Every channel is dropped (R313, R386). -/
def Dev.bmeDropAll (d : Dev) : Dev := forEach (List.range 8) (fun c d => d.bmeDrop c) d

/-- Every channel is IDLE again (R386). -/
def Dev.bmeEnableAll (d : Dev) : Dev :=
  forEach (List.range 8) (fun c d => (d.wr (Reg.BME_CH_CTRL_en.ix c) 1).wr (Reg.BME_CH_STAT_state.ix c) 0) d

/-- Whether a host read of BME is outstanding (R386). -/
def Dev.bmeOutstanding (d : Dev) : Bool :=
  d.hif.tags.any fun t => match t.kind with
    | .bme _ _ | .droppedBme => true
    | _ => false

/-- A set that ends meets what a set of another channel is still writing: the overlap is recorded for R383. -/
def Dev.bmeRace (d : Dev) (c lo hi : Nat) : Dev :=
  forEach (List.range 8) (fun o d =>
    let a := d.rd (Reg.BME_ACT_DST_addr.ix o)
    let b := a + d.rd (Reg.BME_ACT_LEN_bytes.ix o)
    let sp := d.rd (Reg.BME_ACT_CFG_dst_space.ix o)
    if o ≠ c ∧ d.bmeState o = 1 ∧ sp = d.rd (Reg.BME_ACT_CFG_dst_space.ix c) ∧ sp ≠ spHost ∧ max a lo < min b hi then
      d.updBmeCh o fun x => { x with raced := x.raced ++ [(max a lo, min b hi)] }
    else d) d

/-- A set ends with NONE (R383): sets and bytes count, the done bit follows irq, an armed set loads. -/
def Dev.bmeDone (d : Dev) (c : Nat) : Dev :=
  let len := d.rd (Reg.BME_ACT_LEN_bytes.ix c)
  let a := d.rd (Reg.BME_ACT_DST_addr.ix c)
  let d := d.bmeRace c a (a + len)
  let d := (d.wr (Reg.BME_CH_DONE_bytes.ix c) len).incSat (Reg.BME_CH_STAT_sets.ix c)
  let d := d.incWrap Reg.BME_BYTES_bytes len
  let d := onlyIf (d.rdB (Reg.BME_ACT_CFG_irq.ix c)) (fun d => d.causeBit .bme (16 + c)) d
  (d.updBmeCh c fun _ => {}).bmeIdle c

/-- Move bytes [lo, hi) of a channel's set from SCRATCH or MAILBOX to its destination (R383): host writes never set Relaxed
Ordering. -/
def State.bmeMove (s : State) (c lo hi : Nat) : State :=
  let d := s.dev
  let bs := s.spaceRead (d.rd (Reg.BME_ACT_CFG_src_space.ix c)) (d.rd (Reg.BME_ACT_SRC_addr.ix c) + lo) (hi - lo)
  let dst := d.rd (Reg.BME_ACT_DST_addr.ix c) + lo
  if d.rd (Reg.BME_ACT_CFG_dst_space.ix c) = spHost then { s with dev := d.writeHost 0 dst bs false }
  else s.racedWrite (d.rd (Reg.BME_ACT_CFG_dst_space.ix c)) dst bs (d.bmeCh c).raced

/-- How far a host destination stays inside the window (R380): the length of the prefix that may be written. -/
def Dev.bmeWindowPrefix (d : Dev) (c : Nat) : Nat :=
  let len := d.rd (Reg.BME_ACT_LEN_bytes.ix c)
  let dst := d.rd (Reg.BME_ACT_DST_addr.ix c)
  if d.rd (Reg.BME_ACT_CFG_dst_space.ix c) ≠ spHost ∨ d.inWindow dst len then len
  else (((pieces (len + 1) dst len (d.maxPayload 0)).takeWhile fun p => d.inWindow p.1 p.2).map Prod.snd).sum

/-- Whether a channel's transfer can finish now: all host data has arrived, or the host can be written. -/
def Dev.bmeReady (d : Dev) (c : Nat) : Bool :=
  d.bmeState c = 1 &&
  (if d.rd (Reg.BME_ACT_CFG_src_space.ix c) = spHost then
     d.rd (Reg.BME_CH_DONE_bytes.ix c) = d.rd (Reg.BME_ACT_LEN_bytes.ix c)
   else if d.rd (Reg.BME_ACT_CFG_dst_space.ix c) = spHost then d.canDma 0 && !d.qmx.halted
   else true)

/-- BME_SET_DONE's effect (R380, R383). -/
def State.bmeSetDone (s : State) (c : Nat) : State :=
  let d := s.dev
  if !d.bmeReady c then s
  else if d.rd (Reg.BME_ACT_CFG_src_space.ix c) = spHost then { s with dev := d.bmeDone c }
  else
    let n := d.bmeWindowPrefix c
    let s := s.bmeMove c 0 n
    let d := s.dev
    if n = d.rd (Reg.BME_ACT_LEN_bytes.ix c) then { s with dev := d.bmeDone c }
    else { s with dev := (d.wr (Reg.BME_CH_DONE_bytes.ix c) n).bmeErr c 2 }

/-- Whether R384 gives an error to a channel whose active set names these spaces. -/
def Dev.bmeErrFits (d : Dev) (c e : Nat) : Bool :=
  d.bmeState c = 1 &&
  (if 2 ≤ e ∧ e ≤ 6 then d.bmeNames c spHost
   else if e = 7 then d.rd (Reg.BME_ACT_CFG_src_space.ix c) = spScratch
   else if e = 8 then d.bmeNames c spScratch else false)

/-- BME_SET_ERROR's effect (R384): what a transfer from SCRATCH or MAILBOX had moved is written, within the window. -/
def State.bmeSetError (s : State) (c e doneBytes : Nat) : State :=
  let d := s.dev
  if !d.bmeErrFits c e then s
  else if d.rd (Reg.BME_ACT_CFG_src_space.ix c) = spHost then { s with dev := d.bmeErr c e }
  else
    let may := d.rd (Reg.BME_ACT_CFG_dst_space.ix c) ≠ spHost || (d.canDma 0 && !d.qmx.halted)
    let n := if may then min doneBytes (d.bmeWindowPrefix c) else 0
    let s := s.bmeMove c 0 n
    { s with dev := (s.dev.wr (Reg.BME_CH_DONE_bytes.ix c) n).bmeErr c e }

/-! ### Meanings -/

/-- BME_ARM (R381). -/
def execBmeArm (ch : Nat) (s : State) : Out := onPage .bme (decide (ch < 8)) s fun d => d.bmeArm ch

/-- BME_RESUME (R381). -/
def execBmeResume (ch : Nat) (s : State) : Out := onPage .bme (decide (ch < 8)) s fun d => d.bmeResume ch

/-- BME_CHANNEL_DISABLE (R385). -/
def execBmeChannelDisable (ch : Nat) (s : State) : Out := onPage .bme (decide (ch < 8)) s fun d => d.bmeDrop ch

/-- BME_CHANNEL_ENABLE (R385). -/
def execBmeChannelEnable (ch : Nat) (s : State) : Out := onPage .bme (decide (ch < 8)) s fun d => d.bmeEnable ch

/-- BME_SET_DONE (R383). -/
def execBmeSetDone (ch : Nat) (s : State) : Out :=
  if ch < 8 then (s.bmeSetDone ch).act id else .fault .noSuchUnit

/-- BME_SET_ERROR (R384). -/
def execBmeSetError (ch error doneBytes : Nat) (s : State) : Out :=
  if ch < 8 then (s.bmeSetError ch error doneBytes).act id else .fault .noSuchUnit

end Sys2Proof.Machine
end

