-- ==== Sys2Proof/Machine/Resets.lean ====
section
/-! DEFINITION. The host side's resets, Bus Master Enable and device power states (R54 to R58, R85, R386). -/

set_option Elab.async false

namespace Sys2Proof.Machine

/-! ### Fields by key -/

/-- Whether an address lies at one of the places that a list of strides and counts spans. -/
def spans : List (Nat × Nat) → Nat → Bool
  | [], a => a = 0
  | (st, n) :: ds, a => (List.range n).any fun i => decide (st * i ≤ a) && decide (a < st * (i + 1)) && spans ds (a - st * i)

/-- Whether a key of the register file is one of a field's. -/
def Fld.hasKey (f : Fld) (k : Nat) : Bool :=
  k % 64 = f.lo && decide (f.base ≤ k / 64) &&
  (match f.dims with
   | [] => decide (k / 64 = f.base)
   | [(st, n)] => decide ((k / 64 - f.base) % st = 0 ∧ (k / 64 - f.base) / st < n)
   | ds => spans ds (k / 64 - f.base))

/-- Whether a key is that of a field with an access code. -/
def keyHas (acc : Acc) (k : Nat) : Bool := Reg.all.any fun f => decide (f.acc = acc) && f.hasKey k

/-- Put the fields that a test names back to their reset values. -/
def Dev.resetKeys (d : Dev) (p : Nat → Bool) : Dev := { d with regs := d.regs.filter fun x => !p x.1 }

/-- Put a range of the register space back to reset values, and forget halves held for it. -/
def Dev.resetRange (d : Dev) (lo hi : Nat) : Dev :=
  let d := d.resetKeys fun k => decide (lo ≤ k / 64 ∧ k / 64 < hi)
  { d with heldLow := d.heldLow.filter fun p => !decide (lo ≤ p.1 ∧ p.1 < hi) }

/-- The pages whose RW fields a host reset reaches (R54): SYS, HIF, QMX, BME. -/
def hostPage (a : Nat) : Bool := a / 65536 = 0 || a / 65536 = 1 || a / 65536 = 2 || a / 65536 = 11

/-- The RWL fields (R9, R380, R338) with the block page that locks them, all by bit 0. -/
def rwlFields : List (Fld × Nat) :=
  [(Reg.SYS_THERM_CFG_trip_c, 0), (Reg.SYS_THERM_CFG_throttle_c, 0), (Reg.SYS_THERM_CFG_warn_c, 0),
   (Reg.SYS_THERM_CFG_hyst_c, 0), (Reg.BME_WIN_BASE_base, 11), (Reg.BME_WIN_LIMIT_limit, 11)]

/-- Whether the lock bit of an RWL field is set. -/
def Dev.locked (d : Dev) (page : Nat) : Bool := bitOf (d.rd (Reg.BLK_LOCK_lock.ix page)) 0

/-- What a host reset does to the register fields (R54): RW of the host pages and every BLK_INT_EN; the RWL fields that no
lock holds; the first-error records of the host pages (R35) (DEDUCED, log entry 14). -/
def Dev.hostFieldReset (d : Dev) : Dev :=
  let intEn (k : Nat) : Bool := k / 64 < 0xE0000 && (k / 64) % 65536 = 0x1C
  let d := forEach rwlFields (fun x d => if d.locked x.2 then d else d.wr x.1 x.1.reset) d
  let d := d.resetKeys fun k => intEn k || (hostPage (k / 64) && keyHas .rw k)
  let d := { d with heldLow := d.heldLow.filter fun p => !hostPage p.1 }
  forEach [Blk.sys, .hif, .qmx, .bme] (fun b d => d.updNote b fun n => { n with firstCode := 0, firstTs := 0 }) d

/-- What a host reset does to BME (R386): every channel is dropped, then every register but the window is reset, and every
channel is IDLE. -/
def Dev.bmeReset (d : Dev) : Dev :=
  let d := d.bmeDropAll
  let base := d.rd Reg.BME_WIN_BASE_base
  let limit := d.rd Reg.BME_WIN_LIMIT_limit
  let d := d.resetRange 0xB0050 0xC0000
  let d := (d.wr Reg.BME_WIN_BASE_base base).wr Reg.BME_WIN_LIMIT_limit limit
  if d.blkState .bme = stOff || d.blkState .bme = stDraining then d.setState .bme stIdle else d

/-! ### What a reset does to a function (R54) -/

/-- Queue descriptors, ring state and doorbells of a function are cleared. -/
def Dev.clearQueues (d : Dev) (f : Nat) : Dev :=
  let d := forEach ((List.range (d.sqCount f)).map (d.sqBase f + ·)) (fun q d =>
    let d := d.resetRange (0x100000 + 64 * q) (0x100000 + 64 * q + 32)
    { d with qmx := { d.qmx with credit := Tbl.erase d.qmx.credit q } }) d
  let d := forEach ((List.range (d.cqCount f)).map (d.cqBase f + ·)) (fun q d =>
    d.resetRange (0x100000 + 64 * q + 32) (0x100000 + 64 * q + 64)) d
  (d.resetRange (0x22000 + 32 * f) (0x22000 + 32 * f + 32)).updRing f fun _ => {}

/-- The rows of R54 that a Memory Space Enable clear shares with a reset: entries not admitted, commands, held entries,
outstanding tags, queues, epoch. -/
def Dev.resetWork (d : Dev) (f : Nat) : Dev :=
  let d := { d with qmx := { d.qmx with fetched := d.qmx.fetched.filter fun e => d.sqOwner e.q ≠ some f } }
  let d := forEach (d.qmx.cmds.filter fun c => c.fn = f && !c.silent) (fun c d => d.silenceCmd c.adm ssAbortedFlr) d
  let d := d.updHif fun h => { h with
    tags := h.tags.map fun t => if t.fn = f then { t with kind := .dropped, quar := true } else t
    waiting := h.waiting.filter fun w => w.fn ≠ f }
  let d := d.updFn f fun x => { x with held := [], heldOvf := false }
  (d.clearQueues f).incWrap (Reg.HIF_FN_STAT_epoch.ix f)

/-- A function's configuration space goes to its reset values; AER status and the PME bits are sticky (PRESUMED, log entry 9). -/
def Dev.resetConfig (d : Dev) (f : Nat) : Dev :=
  d.updFn f fun x => { aerUncorr := x.aerUncorr, aerCorr := x.aerCorr, devStatus := 0, pmeEn := x.pmeEn, pmeStatus := x.pmeStatus,
                       cfg := x.cfg.filter fun p => decide (0x104 ≤ p.1 ∧ p.1 < 0x148), readyAt := x.readyAt,
                       held := x.held, heldOvf := x.heldOvf }

/-- A function's MSI-X table is cleared. -/
def Dev.resetMsix (d : Dev) (f : Nat) : Dev :=
  d.updHif fun h => { h with msix := h.msix.filter fun p => p.1 / 2048 ≠ f }

/-- FLR of a VF, or one VF's share of a wider reset (R54). -/
def Dev.resetFn (d : Dev) (f : Nat) : Dev := ((d.resetWork f).resetConfig f).resetMsix f

/-- The whole-device halt ends (R85). -/
def Dev.endHalt (d : Dev) : Dev :=
  if d.qmx.halted then
    let d := { d with qmx := { d.qmx with halted := false } }
    (d.setState .qmx stIdle).setState .sys stIdle
  else d

/-- PF0's SR-IOV and tag settings go with its configuration space. -/
def Dev.dropVfs (d : Dev) : Dev :=
  d.updHif fun h => { h with vfEnable := false, numVfs := 0, tag10 := false, tag14 := false, aspmL1 := false, l0pEn := false }

/-- What PERST_N, hot reset and FLR of PF0 share (R54, R78, R85) (DEDUCED, log entry 18). -/
def Dev.hostReset (d : Dev) : Dev :=
  let d := d.bmeReset
  let d := forEach (List.range 65) (fun f d => d.resetFn f) d
  let d := d.dropVfs
  let d := d.resetRange 0x100000 0x110000
  let d := { d with qmx := { d.qmx with credit := [], urgentNext := 1, normalNext := 1 } }
  (d.hostFieldReset).endHalt

/-- PERST_N and hot reset release the containment freeze, and its event is raised once the reset has taken effect (R61). -/
def Dev.resetUnfreeze (d : Dev) : Dev := if d.frozen then (d.wr Reg.HIF_CONTAIN_frozen 0).postFreeze else d

/-- Configuration space gets ready within a bound (R55): when, is a free value. -/
def Dev.cfgNotReady (d : Dev) (bound : Nat) : Dev :=
  let at_ := d.ticks + d.free % (bound + 1)
  (forEach (List.range 65) (fun f d => d.updFn f fun x => { x with readyAt := at_ }) d).nextFree

/-- The link trains to L0 (R42): what rate, width and mode the partners agree on is free
(DESIGN CHOICE, log entry 19). -/
def Dev.linkTrain (d : Dev) : Dev :=
  let d := (d.emit .linkTrain).setLink .l0
  let w := [16, 8, 4, 1].getD (d.free % 4) 16
  let d := (d.wr Reg.HIF_LINK_width w |>.wr Reg.HIF_LINK_l0p_width w).nextFree
  let sp := d.free % 6 + 1
  let d := (d.wr Reg.HIF_LINK_speed sp).nextFree
  (d.wrB Reg.HIF_LINK_flit (sp = 6 || d.free % 2 = 1)).nextFree

/-- Whether the host link has power and its configuration space has come up (R20, R327). -/
def Dev.hifOn (d : Dev) : Bool :=
  d.sys.pdMain && d.sys.pdHphy && decide (d.hif.link ≠ .abandoned) && decide (2 ≤ d.rd (Reg.BLK_STAT_specific.ix 0) ∧ d.rd (Reg.BLK_STAT_specific.ix 0) < 9)

/-! ### PERST_N, hot reset, FLR -/

/-- PERST_N clears every lock and the RWL fields (R36, R54), also while Dusk has abandoned the link. -/
def Dev.clearLocks (d : Dev) : Dev :=
  let d := forEach rwlFields (fun x d => if d.locked x.2 then d.wr x.1 x.1.reset else d) d
  forEach allBlks (fun b d => d.wr (Reg.BLK_LOCK_lock.ix b.page) 0) d

/-- PE_PERST_N asserts (R54, R58, R333): locks are cleared; after PME_Turn_Off, PD_HPHY goes off. A function that was not in
D3hot at PME_Turn_Off asserts no PE_WAKE_N in D3cold: the spec does not say whether it can (DESIGN CHOICE, log entry 69). -/
def Dev.perstAssert (d : Dev) : Dev :=
  if !d.sys.perstN then d
  else
    let d : Dev := { d with sys := { d.sys with perstN := false } }
    if !d.sys.pdMain then d
    else if d.hif.link = .abandoned then d.clearLocks
    else
      let cold := d.hif.pmeTurnedOff
      let pme := (List.range 65).filter fun f => (d.fn f).d3
      let d := (d.clearLocks.setLink .down).hostReset
      let d := d.updHif fun h => { h with pmeTurnedOff := false, d3cold := cold }
      let d := if cold then
          let d := forEach pme (fun f d => d.updFn f fun x => { x with d3 := true }) d
          let d : Dev := { d with sys := { d.sys with pdHphy := false } }
          (d.setLink .off).wr (Reg.BLK_POWER_pstate.ix Blk.hif.page) 2
        else d
      d.resetUnfreeze

/-- PE_PERST_N deasserts (R55, R58): PD_HPHY is on, the link trains (DEDUCED, log entry 18). -/
def Dev.perstDeassert (d : Dev) : Dev :=
  if d.sys.perstN then d
  else
    let d : Dev := { d with sys := { d.sys with perstN := true } }
    if !d.sys.pdMain || d.hif.link = .abandoned then d
    else
      let d : Dev := { d with sys := { d.sys with pdHphy := true } }
      let d := d.wr (Reg.BLK_POWER_pstate.ix Blk.hif.page) 0
      let d := if d.hif.d3cold then
          let d := forEach (List.range 65) (fun f d => d.updFn f fun x => { x with d3 := false }) d
          d.updHif fun h => { h with d3cold := false }
        else d
      let d := if d.nt.wakeN then d else ({ d with nt := { d.nt with wakeN := true } } : Dev).emit (.wakePin false)
      if d.hifOn then (d.linkTrain).cfgNotReady ticksPerSec else d

/-- A hot reset, or a link that goes down and retrains (R54, R55). -/
def Dev.hotReset (d : Dev) : Dev :=
  if !d.sys.perstN || !d.hifOn then d
  else
    let d := (d.setLink .down).hostReset
    let d := d.updHif fun h => { h with pmeTurnedOff := false }
    ((d.linkTrain).cfgNotReady (100 * ticksPerMs)).resetUnfreeze

/-- FLR of PF0 (R54): the link, the freeze and the locks are kept. -/
def Dev.flrPf0 (d : Dev) : Dev :=
  if d.linkUp then (d.exitL1.hostReset).updFn 0 fun x => { x with flr := true } else d

/-- FLR of a VF (R54) (DEDUCED, log entry 18). -/
def Dev.flrVf (d : Dev) (f : Nat) : Dev :=
  if d.linkUp && decide (f ≠ 0) && d.fnExists f then (d.exitL1.resetFn f).updFn f fun x => { x with flr := true } else d

/-- Memory Space Enable of a function is cleared (R54). BME's reads are among PF0's outstanding tags: their sets end as after
a timeout (DEDUCED, log entry 30). -/
def Dev.memDisable (d : Dev) (f : Nat) : Dev :=
  if d.fnExists f && (d.fn f).mse then
    let d := d.updFn f fun x => { x with mse := false }
    let d := if f = 0 then
        forEach (List.range 8) (fun c d => if d.rd (Reg.BME_ACT_CFG_src_space.ix c) = spHost &&
          d.hif.tags.any (fun t => kindIsBme c t.kind) || d.hif.waiting.any (fun w => kindIsBme c w.kind)
          then d.bmeErr c 3 else d) d
      else d
    d.resetWork f
  else d

/-- VF Enable is set (R44): each VF answers configuration requests after 100 ms. Its sticky AER bits, which R54 keeps when
VF Enable is cleared, are kept here too (DEDUCED, log entry 67). -/
def Dev.vfEnableSet (d : Dev) : Dev :=
  if d.hif.vfEnable then d
  else
    let d := d.updHif fun h => { h with vfEnable := true }
    let at_ := d.ticks + 100 * ticksPerMs
    forEach ((List.range d.hif.numVfs).map (· + 1)) (fun f d => d.updFn f fun x => { x with readyAt := at_ }) d

/-- VF Enable is cleared (R44): an FLR of every enabled VF. -/
def Dev.vfEnableClear (d : Dev) : Dev :=
  if d.hif.vfEnable then
    let d := forEach ((List.range d.hif.numVfs).map (· + 1)) (fun f d => d.resetFn f) d
    d.updHif fun h => { h with vfEnable := false }
  else d

/-- NumVFs (R44). -/
def Dev.numVfsWrite (d : Dev) (n : Nat) : Dev :=
  if d.hif.vfEnable then d else d.updHif fun h => { h with numVfs := min n 64 }

/-! ### Bus Master Enable and D-states (R56 to R58) -/

/-- Whether a command cannot go on without host memory (R56): a WRITE lacks data, or it returns data or reads a table. -/
def Cmd.needsHost (c : Cmd) : Bool :=
  let op := eOpcode c.entry
  if op = opWrite then decide (c.inCache < eCount c.entry) else transfersData op

/-- A function issues no request any more (R56 steps 1 to 4) (DESIGN CHOICE, log entry 35). -/
def Dev.stopDma (d : Dev) (f : Nat) : Dev :=
  let d := d.rewindFn f
  let d := d.updHif fun h => { h with
    tags := h.tags.map fun t => if t.fn = f ∧ !t.quar then { t with kind := t.kind.drop } else t }
  let d := forEach (d.qmx.cmds.filter fun c => c.fn = f && !c.silent && c.ending.isNone && c.needsHost)
    (fun c d => d.stopCmd c.adm ssAbortedBme 0) d
  if f = 0 then d.bmeErrAll spHost 4 else d

/-- Bus Master Enable changes to 0 (R56). -/
def Dev.bmDisable (d : Dev) (f : Nat) : Dev :=
  if d.fnExists f && (d.fn f).bme then (d.updFn f fun x => { x with bme := false }).stopDma f else d

/-- Bus Master Enable changes to 1 (R56 step 7). -/
def Dev.bmEnable (d : Dev) (f : Nat) : Dev :=
  if d.fnExists f && !(d.fn f).bme then (d.updFn f fun x => { x with bme := true }).resumeFn f else d

/-- A function enters D3hot (R57). -/
def Dev.d3Enter (d : Dev) (f : Nat) : Dev :=
  if d.fnExists f && !(d.fn f).d3 then (d.updFn f fun x => { x with d3 := true }).stopDma f else d

/-- A function returns to D0 (R57). -/
def Dev.d0Enter (d : Dev) (f : Nat) : Dev :=
  if d.fnExists f && (d.fn f).d3 && d.linkUp then (d.updFn f fun x => { x with d3 := false }).resumeFn f else d

/-- PME_Turn_Off arrives (R58). -/
def Dev.pmeTurnOff (d : Dev) : Dev :=
  if d.linkUp then
    let d := forEach d.functions (fun f d => d.stopDma f) (d.updHif fun h => { h with pmeTurnedOff := true })
    (d.emit .pmeToAck).setLink .l23
  else d

/-! ### Meanings -/

/-- PERST_ASSERT (R54). -/
def execPerstAssert (s : State) : Out := s.act Dev.perstAssert
/-- PERST_DEASSERT (R55). -/
def execPerstDeassert (s : State) : Out := s.act Dev.perstDeassert
/-- HOT_RESET (R54). -/
def execHotReset (s : State) : Out := s.act Dev.hotReset
/-- FLR_PF0 (R54). -/
def execFlrPf0 (s : State) : Out := s.act Dev.flrPf0
/-- FLR_VF (R54). -/
def execFlrVf (fn : Nat) (s : State) : Out := ifUnit (decide (fn ≤ 64)) s fun d => d.flrVf fn
/-- FLR_COMPLETE (R55). -/
def execFlrComplete (fn : Nat) (s : State) : Out :=
  ifUnit (decide (fn ≤ 64)) s fun d => d.updFn fn fun x => { x with flr := false }
/-- MEMORY_SPACE_DISABLE (R54). -/
def execMemorySpaceDisable (fn : Nat) (s : State) : Out := ifUnit (decide (fn ≤ 64)) s fun d => d.memDisable fn
/-- NUM_VFS_WRITE (R44). -/
def execNumVfsWrite (n : BitVec 16) (s : State) : Out := s.act fun d => d.numVfsWrite n.toNat
/-- VF_ENABLE_SET (R44). -/
def execVfEnableSet (s : State) : Out := s.act Dev.vfEnableSet
/-- VF_ENABLE_CLEAR (R44). -/
def execVfEnableClear (s : State) : Out := s.act Dev.vfEnableClear
/-- BUS_MASTER_DISABLE (R56). -/
def execBusMasterDisable (fn : Nat) (s : State) : Out := ifUnit (decide (fn ≤ 64)) s fun d => d.bmDisable fn
/-- BUS_MASTER_ENABLE (R56). -/
def execBusMasterEnable (fn : Nat) (s : State) : Out := ifUnit (decide (fn ≤ 64)) s fun d => d.bmEnable fn
/-- D3HOT_ENTRY (R57). -/
def execD3hotEntry (fn : Nat) (s : State) : Out := ifUnit (decide (fn ≤ 64)) s fun d => d.d3Enter fn
/-- D0_ENTRY (R57). -/
def execD0Entry (fn : Nat) (s : State) : Out := ifUnit (decide (fn ≤ 64)) s fun d => d.d0Enter fn
/-- PME_TURN_OFF (R58). -/
def execPmeTurnOff (s : State) : Out := s.act Dev.pmeTurnOff

end Sys2Proof.Machine
end

