-- ==== Sys2Proof/Machine/Link.lean ====
section
/-! DEFINITION. Configuration space and link power (R42 to R47, R55, R59). The spec names the capabilities, their offsets and
some fields; the register layouts inside them are those of the PCI Express Base Specification (log entry 9). -/

set_option Elab.async false

namespace Sys2Proof.Machine

/-! ### Configuration space -/

/-- Subsystem vendor and device of R43. -/
def Dev.subsys (d : Dev) : Nat × Nat := d.hif.subsystem.getD (0xC0A7, 0)

/-- Next pointer, capability ID and version of an extended capability (R45) (PRESUMED, log entry 9). -/
def extCap (pf : Bool) (off : Nat) : Option Nat :=
  let row (id ver next : Nat) : Option Nat := some (next * 2 ^ 20 + ver * 2 ^ 16 + id)
  match off with
  | 0x100 => row 0x0001 2 (if pf then 0x148 else 0x158)
  | 0x148 => if pf then row 0x0003 1 0x158 else none
  | 0x158 => row 0x000E 1 (if pf then 0x160 else 0)
  | 0x160 => if pf then row 0x0010 1 0x1A0 else none
  | 0x1A0 => if pf then row 0x0019 1 0x1D0 else none
  | 0x1D0 => if pf then row 0x0025 1 0x1E0 else none
  | 0x1E0 => if pf then row 0x0026 1 0x210 else none
  | 0x210 => if pf then row 0x002A 1 0x240 else none
  | 0x240 => if pf then row 0x0031 1 0x260 else none
  | 0x260 => if pf then row 0x0027 1 0x2B0 else none
  | 0x2B0 => if pf then row 0x001E 1 0x2D0 else none
  | 0x2D0 => if pf then row 0x0018 1 0x2E0 else none
  | 0x2E0 => if pf then row 0x0032 1 0x300 else none
  | 0x300 => if pf then row 0x002F 1 0 else none
  | _ => none

/-- The bits of a dword that hold what was last written, without further effect (PRESUMED, log entry 9). -/
def cfgMask (pf : Bool) (off : Nat) : Nat :=
  match off with
  | 0x04 => 0x140
  | 0x0C => 0xFF
  | 0x3C => 0xFF
  | 0x10 => if pf then 0xFE000000 else 0
  | 0x14 => if pf then 0xFFFFFFFF else 0
  | 0x18 => if pf then 0xFFFC0000 else 0
  | 0x1C => if pf then 0xFFFFFFFF else 0
  | 0x20 => if pf then 0xFFFF0000 else 0
  | 0x24 => if pf then 0xFFFFFFFF else 0
  | 0x68 => 0x10F
  | 0x88 => 0x400
  | 0x108 => 0x07FFFFFF
  | 0x10C => 0x07FFFFFF
  | 0x114 => 0x0000F1C1
  | 0x118 => 0x140
  | 0x2B8 => if pf then 0xE3FF000F else 0
  | 0x2BC => if pf then 0xFB else 0
  | 0x168 => if pf then 0x10 else 0
  | 0x180 => if pf then 0xFFFFFFFF else 0
  | 0x184 => if pf then 0xFFFF0000 else 0
  | 0x188 => if pf then 0xFFFFFFFF else 0
  | 0x18C => if pf then 0xFFFFF000 else 0
  | 0x190 => if pf then 0xFFFFFFFF else 0
  | 0x2D4 => if pf then 0x1FFF1FFF else 0
  | _ => 0

/-- The bits of a dword that the spec or the PCI Express layout fixes, or that other state holds (R42 to R47, R51, R57, R59)
(PRESUMED, log entry 9). -/
def Dev.cfgBits (d : Dev) (f off : Nat) : Nat :=
  let pf := decide (f = 0)
  let x := d.fn f
  match off with
  | 0x00 => if pf then 0x2560C0A7 else 0xFFFFFFFF
  | 0x04 => 2 ^ 20 + b2n x.mse * 2 + b2n x.bme * 4
  | 0x08 => 0x010400B0
  | 0x10 => if pf then 4 else 0
  | 0x18 => if pf then 4 else 0
  | 0x20 => if pf then 4 else 0
  | 0x2C => d.subsys.2 * 2 ^ 16 + d.subsys.1
  | 0x34 => 0x40
  | 0x40 => 0xC0035001
  | 0x44 => 8 + (if x.d3 then 3 else 0) + b2n x.pmeEn * 2 ^ 8 + b2n x.pmeStatus * 2 ^ 15
  | 0x50 => b2n x.msixEn * 2 ^ 31 + b2n x.fmask * 2 ^ 30 + (vectorsOf f - 1) * 2 ^ 16 + 0x6011
  | 0x54 => if pf then 4 else 2
  | 0x58 => if pf then 0x8004 else 0x802
  | 0x60 => 0x00020010
  | 0x64 => 2 ^ 28 + 2 ^ 15 + 2 ^ 5 + 2
  | 0x68 => b2n x.relaxed * 2 ^ 4 + x.mps * 2 ^ 5 + x.mrrs * 2 ^ 12 +
      x.devStatus * 2 ^ 16 + (if d.hif.tags.any (fun t => t.fn = f && !t.quar) then 2 ^ 21 else 0)
  | 0x6C => 3 * 2 ^ 15 + 2 * 2 ^ 10 + 16 * 2 ^ 4 + 6
  | 0x70 => (if pf then b2n d.hif.aspmL1 * 2 else 0) + d.rd Reg.HIF_LINK_width * 2 ^ 20 + d.rd Reg.HIF_LINK_speed * 2 ^ 16
  | 0x84 => 2 ^ 17 + 2 ^ 16 + (if pf then 2 ^ 11 else 0) + 0xF
  | 0x88 => x.ctoValue + (if pf then b2n d.hif.tag10 * 2 ^ 12 else 0)
  | 0x8C => 0x7E
  | 0x104 => x.aerUncorr
  | 0x110 => x.aerCorr
  | 0x118 => 0xA0
  | 0x14C => if pf then Config.serial % 2 ^ 32 else 0
  | 0x150 => if pf then Config.serial / 2 ^ 32 % 2 ^ 32 else 0
  | 0x168 => if pf then b2n d.hif.vfEnable + (if (d.fn 1).mse then 8 else 0) else 0
  | 0x16C => if pf then 64 * 2 ^ 16 + 64 else 0
  | 0x170 => if pf then d.hif.numVfs else 0
  | 0x174 => if pf then 2 ^ 16 + 1 else 0
  | 0x178 => if pf then 0x25610000 else 0
  | 0x17C => if pf then 0x553 else 0
  | 0x184 => if pf then 4 else 0
  | 0x18C => if pf then 4 else 0
  | 0x2B4 => if pf then 5 * 2 ^ 19 + 2 ^ 16 + 30 * 2 ^ 8 + 0x1F else 0
  | 0x304 => if pf then 0xE else 0
  | 0x308 => if pf then b2n d.hif.tag14 * 4 + b2n d.hif.l0pEn * 8 else 0
  | _ => (extCap pf off).getD 0

/-- Value at reset of the writable bits of a dword (PRESUMED, log entry 9). -/
def cfgReset (off : Nat) : Nat :=
  if off = 0x108 then 0x00400000 else if off = 0x10C then 0x00462030 else if off = 0x114 then 0xE000 else 0

/-- A dword of a function's configuration space. -/
def Dev.cfgRead (d : Dev) (f off : Nat) : Nat := d.cfgBits f off ||| d.cfgWord f off (cfgReset off)

/-- A write to the Command register: Memory Space Enable and Bus Master Enable act (R54, R56)
(PRESUMED, log entry 62). -/
def Dev.cfgCommand (d : Dev) (f v : Nat) : Dev :=
  let d := if bitOf v 1 then d.updFn f fun x => { x with mse := true } else d.memDisable f
  if bitOf v 2 then d.bmEnable f else d.bmDisable f

/-- A write to a dword of configuration space (PRESUMED, log entry 9) (PRESUMED, log entry 62). -/
def Dev.cfgWrite (d : Dev) (f off v : Nat) : Dev :=
  let m := cfgMask (f = 0) off
  let d := if m = 0 then d else d.updFn f fun x => { x with cfg := Tbl.putD x.cfg off (v &&& m ^^^ cfgReset off) 0 }
  match off with
  | 0x04 => d.cfgCommand f v
  | 0x44 =>
    let d := d.updFn f fun x => { x with pmeEn := bitOf v 8, pmeStatus := x.pmeStatus && !bitOf v 15 }
    if v % 4 = 3 then d.d3Enter f else if v % 4 = 0 then d.d0Enter f else d
  | 0x50 =>
    let d := d.updFn f fun x => { x with msixEn := bitOf v 31, fmask := bitOf v 30 }
    d.sendPending f
  | 0x68 =>
    let d := d.updFn f fun x => { x with
      relaxed := bitOf v 4
      mps := if bitsOf v 7 5 ≤ 2 then bitsOf v 7 5 else x.mps
      mrrs := if bitsOf v 14 12 ≤ 5 then bitsOf v 14 12 else x.mrrs
      devStatus := x.devStatus &&& (15 - bitsOf v 19 16) }
    if bitOf v 15 then (if f = 0 then d.flrPf0 else d.flrVf f) else d
  | 0x70 => if f = 0 then d.updHif fun h => { h with aspmL1 := bitOf v 1 } else d
  | 0x88 =>
    let d := d.updFn f fun x => { x with ctoValue := v % 16 }
    if f = 0 then d.updHif fun h => { h with tag10 := bitOf v 12 } else d
  | 0x104 => d.updFn f fun x => { x with aerUncorr := x.aerUncorr &&& (2 ^ 32 - 1 - v % 2 ^ 32) }
  | 0x110 => d.updFn f fun x => { x with aerCorr := x.aerCorr &&& (2 ^ 32 - 1 - v % 2 ^ 32) }
  | 0x168 =>
    if f = 0 then
      let d := if bitOf v 0 then d.vfEnableSet else d.vfEnableClear
      forEach (d.functions.filter fun g => g ≠ 0)
        (fun g d => if bitOf v 3 then d.updFn g fun x => { x with mse := true } else d.memDisable g) d
    else d
  | 0x170 => if f = 0 then d.numVfsWrite (v % 65536) else d
  | 0x308 => if f = 0 then d.updHif fun h => { h with tag14 := bitOf v 2, l0pEn := bitOf v 3 } else d
  | _ => d

/-- A configuration request (R44, R45, R55): answered only over a link that is up. -/
def Dev.cfgRequest (d : Dev) (f off : Nat) (w : Option Dword) : Dev :=
  if !d.linkUp then d
  else if !d.fnExists f then d.exitL1.emit (.unsupported f)
  else if d.ticks < (d.fn f).readyAt then d.exitL1.emit (.retryStatus f)
  else
    let d := d.exitL1
    let off := off / 4 * 4
    match w with
    | none => d.emit (.cfgReply f (d.cfgRead f off))
    | some v => (d.emit (.cfgReply f 0)).cfgWrite f off v.toNat

/-- A request that R42 or R46 refuses: no part of it is performed. -/
def Dev.badRequest (d : Dev) : BadReq → Dev
  | .unsupportedOption f => if d.linkUp then d.exitL1.logUr f else d
  | .disabledFunction f => if d.linkUp && (!(d.fn f).mse || (d.fn f).d3) then d.exitL1.logUr f else d
  | .outsideBars f => if d.linkUp then d.exitL1.logUr f else d

/-! ### MSI-X and link power (R47, R59) -/

/-- A vector's mask is cleared; a pending message goes out when nothing else holds it (R47). -/
def Dev.msixUnmask (d : Dev) (f v : Nat) : Dev :=
  let d := d.setVec f v { d.vec f v with masked := false }
  if (d.vec f v).pend then d.raiseVec f v else d

/-- L1 is asked for and entered (R59). -/
def Dev.l1Enter (d : Dev) : Dev :=
  if d.hif.link = .l0 && d.hif.aspmL1 then (d.emit .l1Request).updHif fun h => { h with link := .l1 } else d

/-- The width one step of L0p narrower than the active one, where R59 allows it. -/
def Dev.narrower (d : Dev) : Option Nat :=
  let w := d.rd Reg.HIF_LINK_l0p_width
  let m := d.rd Reg.HIF_ASPM_l0p_min
  if 8 < w ∧ 1 ≤ m then some 8 else if w = 8 ∧ 2 ≤ m then some 4 else none

/-- L0p narrows the link (R59). -/
def Dev.l0pNarrow (d : Dev) : Dev :=
  if d.linkUp && d.hif.l0pEn then
    match d.narrower with
    | some w => (d.wr Reg.HIF_LINK_l0p_width w).emit (.lanes w)
    | none => d
  else d

/-- The link widens (R59): the spec does not say how far in one step, and the model goes to the negotiated width
(DESIGN CHOICE, log entry 70). -/
def Dev.l0pWiden (d : Dev) : Dev :=
  let w := d.rd Reg.HIF_LINK_width
  if d.linkUp && decide (d.rd Reg.HIF_LINK_l0p_width < w) then (d.wr Reg.HIF_LINK_l0p_width w).emit (.lanes w) else d

/-- UNSUPPORTED_REQUEST (R42, R46). -/
def execUnsupportedRequest (r : BadReq) (s : State) : Out := s.act fun d => d.badRequest r
/-- CONFIG_REQUEST (R55). -/
def execConfigRequest (fn off : Nat) (wr : Option Dword) (s : State) : Out := s.act fun d => d.cfgRequest fn off wr
/-- MSIX_UNMASK (R47). -/
def execMsixUnmask (fn vec : Nat) (s : State) : Out :=
  ifUnit (decide (fn ≤ 64) && decide (vec < vectorsOf fn)) s fun d => d.atFn fn .hif fun d => d.msixUnmask fn vec
/-- L1_ENTRY_REQUEST (R59). -/
def execL1EntryRequest (s : State) : Out := s.act Dev.l1Enter
/-- L0P_NARROW (R59). -/
def execL0pNarrow (s : State) : Out := s.act Dev.l0pNarrow
/-- L0P_WIDEN (R59). -/
def execL0pWiden (s : State) : Out := s.act Dev.l0pWiden

end Sys2Proof.Machine
end

