-- ==== Sys2Proof/Machine/Smc.lean ====
section
/-! DEFINITION. The stripe metadata cache: index hash, lookups, misses, fills, the journal, prefetch, the eviction buffer,
replay, rebuild of tables and FAULT, invalidate-all, re-key, self-test, hot sets (R180 to R202, R230, R352). A line's content is a string of 128 bytes
of the metadata region; the model's tables of R119, R122 and the like stand beside it (log entry 29). -/

set_option Elab.async false

namespace Sys2Proof.Machine

/-- Change SMC state beside its registers. -/
def Dev.updSmc (d : Dev) (g : SmcState → SmcState) : Dev := { d with smc := g d.smc }

/-! ### Sets (R182) -/

/-- The set index of a line address under a key (R182). -/
def setIndex (la key : Nat) : Nat :=
  (la % 2 ^ 14) ^^^ ((la / 2 ^ 14 % 2 ^ 14 + key) % 2 ^ 14) ^^^ (la / 2 ^ 28 % 2 ^ 14)

/-- The tag of a line address: la[41:14]. -/
def lineTag (la : Nat) : Nat := la / 2 ^ 14 % 2 ^ 28

/-- The line address that a tag in a set stands for (R182). -/
def lineOf (index tag key : Nat) : Nat :=
  tag * 2 ^ 14 + (index ^^^ ((tag % 2 ^ 14 + key) % 2 ^ 14) ^^^ (tag / 2 ^ 14 % 2 ^ 14))

/-- The set of a line. -/
def Dev.setOf (d : Dev) (la : Nat) : Nat := setIndex la (d.rd Reg.SMC_KEY_key)

/-- A set's content. -/
def Dev.smcSet (d : Dev) (i : Nat) : SmcSet := Tbl.getD d.smc.sets i {}

/-- Change a set. -/
def Dev.updSet (d : Dev) (i : Nat) (g : SmcSet → SmcSet) : Dev :=
  d.updSmc fun s => { s with sets := Tbl.putD s.sets i (g (d.smcSet i)) {} }

/-- The way that holds a line. -/
def Dev.lineWay (d : Dev) (la : Nat) : Option Way :=
  (d.smcSet (d.setOf la)).ways.find? fun w => w.la = la && !w.reserved

/-- Write a line's way. -/
def Dev.setLine (d : Dev) (la : Nat) (g : Way → Way) : Dev :=
  d.updSet (d.setOf la) fun s => { s with ways := s.ways.map fun w => if w.la = la && !w.reserved then g w else w }

/-! ### DRAM copies and the journal (R156, R181, R187) -/

/-- The group that a line is read from: A for even sets, B for odd ones, the other one where that is lost or the line lies on
the channel that is being retrained (R156, R181). -/
def Dev.lineGroup (d : Dev) (la : Nat) : Group :=
  let g : Group := if d.setOf la % 2 = 0 then .a else .b
  if d.lineReadable g la then g else otherGroup g

/-- The line's content in DRAM (R181) (DESIGN CHOICE, log entry 6) (DESIGN CHOICE, log entry 29). -/
def Dev.dramLine (d : Dev) (la : Nat) : Bytes := padB lineBytes (d.lineCopy (d.lineGroup la) la)

/-- Write a line to one group, or hold the write for a channel under retraining; a lost group is left out (R156, R181). -/
def Dev.writeGroupLine (d : Dev) (g : Group) (la : Nat) (data : Bytes) : Dev :=
  if d.groupState g = grFailed then d
  else if d.onRetrain g la then d.updPwc fun p => { p with retrainHeld := p.retrainHeld ++ [(g, la, data)] }
  else d.setLineCopy g la data

/-- Write a line to both groups (R181). -/
def Dev.writeLine (d : Dev) (la : Nat) (data : Bytes) : Dev := (d.writeGroupLine .a la data).writeGroupLine .b la data

/-- Bytes of a line with an update merged. -/
def mergeLine (line : Bytes) (off : Nat) (data : Bytes) : Bytes :=
  padB lineBytes (line.take off ++ data ++ line.drop (off + data.length))

/-- The acknowledged journal entries of a line retire (R187). -/
def Dev.retireLine (d : Dev) (la : Nat) : Dev :=
  d.updDram fun m => { m with journal := m.journal.filter fun e => !(e.la = la && e.acked) }

/-- Write-back of a dirty line where it stands, without eviction: for the limit of R187. -/
def Dev.cleanLine (d : Dev) (la : Nat) : Dev :=
  match d.lineWay la with
  | some w => ((d.writeLine la w.data).setLine la fun w => { w with dirty := false }).retireLine la
  | none => d

/-- Journal entries of a set (R187). -/
def Dev.setEntries (d : Dev) (i : Nat) : List JEntry := d.dram.journal.filter fun e => d.setOf e.la = i

/-- Entries the journal region holds: 256 MiB of at most 32 bytes each (R151, R187). -/
def journalEntries : Nat := 8388608

/-- What a journal entry's CRC-32 covers: line address, byte offset, length, data and sequence number; the spec gives the
fields and not their places (R187) (DESIGN CHOICE, log entry 29). -/
def JEntry.body (e : JEntry) : Bytes :=
  leBytes 6 e.la ++ leBytes 1 e.off ++ leBytes 1 e.data.length ++ padB 16 e.data ++ leBytes 4 e.seq

/-- The 32 bytes of a journal entry (R187). -/
def JEntry.bytes (e : JEntry) : Bytes := e.body ++ leBytes 4 (crc32 e.body)

/-- Entries that may belong to the lines of one set (R187). -/
def setEntryLimit : Nat := 64

/-- A write that would add a 65th entry to a set first forces a write-back of the set's dirty line that holds the oldest entry
(R187). -/
def Dev.journalRoom (d : Dev) (la : Nat) : Dev :=
  let xs := d.setEntries (d.setOf la)
  if setEntryLimit ≤ xs.length then
    match xs.find? fun e => match d.lineWay e.la with | some w => w.dirty | none => false with
    | some e => d.cleanLine e.la
    | none => d
  else d

/-- Whether a write of a line must wait for entries to retire: the region is full, or its set's share (R187). -/
def Dev.journalFull (d : Dev) (la : Nat) : Bool :=
  decide (journalEntries ≤ d.dram.journal.length) || decide (setEntryLimit ≤ (d.setEntries (d.setOf la)).length)

/-- A write's update goes to the journal in both groups (R187). -/
def Dev.journal (d : Dev) (q : SmcReq) (off : Nat) (data : Bytes) : Dev :=
  let seq := d.smc.journalSeq
  let d := d.updDram fun m => { m with journal := m.journal ++ [⟨q.la, off, data.take 16, seq, false⟩] }
  d.updSmc fun s => { s with journalSeq := (seq + 1) % 2 ^ 32, ackWait := s.ackWait ++ [(seq, q)] }

/-! ### Replacement (R183, R184, R189) -/

/-- Allocation mask of a requester. -/
def Dev.smcMask (d : Dev) (r : Nat) : Nat := d.rd (Reg.SMC_MASK_ways.ix r)

/-- Whether SMC's lines are used at all: not in OFF or FAULT, nor during reset invalidation. -/
def Dev.smcUsed (d : Dev) : Bool :=
  decide (d.blkState .smc = stIdle ∨ d.blkState .smc = stActive ∨ d.blkState .smc = stDraining) && !d.smc.resetInval

/-- Whether misses may allocate (R194, R196, R197, R199). -/
def Dev.smcAllocates (d : Dev) : Bool :=
  d.smcUsed && decide (d.blkState .smc ≠ stDraining) && !d.smc.rekeyRunning && d.vlt.dusk.isNone

/-- The victim way of R184 in a set for a mask; none when every way of the mask is reserved. -/
def victim (s : SmcSet) (mask : Nat) : Option Nat :=
  let order := ((List.range 16).map fun i => (s.ptr + i) % 16).filter fun w =>
    bitOf mask w && !(s.ways.any fun x => x.way = w && x.reserved)
  match order.find? fun w => !(s.ways.any fun x => x.way = w) with
  | some w => some w
  | none => order.head?

/-- What taking a way for a line needs: the way, and the dirty line it holds. -/
def Dev.victimFor (d : Dev) (r la : Nat) : Option (Nat × Option Way) :=
  let s := d.smcSet (d.setOf la)
  (victim s (d.smcMask r)).map fun w => (w, s.ways.find? fun x => x.way = w && x.dirty)

/-- Put a line into a way: its old content goes to the eviction buffer if dirty, and the pointer moves on. -/
def Dev.takeWay (d : Dev) (la : Nat) (w : Nat) (old : Option Way) (new : Way) : Dev :=
  let d : Dev := match old with
    | some x => d.updSmc fun s => { s with evict := s.evict ++ [(⟨x.la, x.data⟩ : EvEntry)] }
    | none => d
  d.updSet (d.setOf la) fun s => { s with ways := (s.ways.filter fun (x : Way) => x.way ≠ w) ++ [new], ptr := (w + 1) % 16 }

/-! ### Fills and prefetch (R186, R188) -/

/-- The miss register of a line. -/
def Dev.missOf (d : Dev) (la : Nat) : Option MissReg := d.smc.regs.find? fun m => m.la = la

/-- Start a fill into a way. -/
def Dev.startFill (d : Dev) (la w : Nat) (old : Option Way) (prefetch : Bool) (reqs : List SmcReq) : Dev :=
  let d := d.takeWay la w old ⟨w, la, false, true, []⟩
  let d := d.updSmc fun s => { s with regs := s.regs ++ [⟨la, some w, prefetch, reqs⟩] }
  d.emit (.dramFill (d.lineGroup la) la)

/-- Whether the mode in force is NONBLOCKING. -/
def Dev.nonblocking (d : Dev) : Bool := decide (d.smc.modeInForce ≠ 0)

/-- One prefetch (R188): dropped where the line is held or pending, or no way or register is free for it. -/
def Dev.prefetchLine (d : Dev) (r la : Nat) : Dev :=
  if !d.nonblocking || !d.smcAllocates || (d.lineWay la).isSome || (d.missOf la).isSome ||
      (d.smc.evict.any fun e => e.la = la) || decide (32 - d.smc.regs.length < 8) then d
  else match d.victimFor r la with
    | some (w, old) => if old.isSome && decide (evictSlots ≤ d.smc.evict.length) then d else d.startFill la w old true []
    | none => d

/-- Whether a demand access follows a detector: its stride, or a first stride of 1 to 64 lines. -/
def Detector.follows (x : Detector) (la : Nat) : Bool :=
  let s := (la : Int) - (x.last : Int)
  if x.run = 1 then decide (s ≠ 0 ∧ -64 ≤ s ∧ s ≤ 64) else decide (s = x.stride)

/-- Train the detectors of a requester on a demand access, and prefetch along an armed one (R188). -/
def Dev.train (d : Dev) (r la : Nat) (miss : Bool) : Dev :=
  let xs := Tbl.getD d.smc.detectors r []
  let now := d.smc.stepNo + 1
  let d := d.updSmc fun s => { s with stepNo := now }
  match xs.findIdx? fun x => x.follows la with
  | some i =>
    let x := xs.getD i ⟨0, 0, 0, 0⟩
    let x := { x with last := la, stride := (la : Int) - (x.last : Int), run := x.run + 1, used := now }
    let d := d.updSmc fun s => { s with detectors := Tbl.put s.detectors r (xs.set i x) }
    if 3 ≤ x.run ∧ d.rdB Reg.SMC_CFG_pf_en then
      forEach (List.range (min 8 (d.rd Reg.SMC_CFG_pf_depth))) (fun n d =>
        let t := (la : Int) + x.stride * ((n : Int) + 1)
        if 0 ≤ t ∧ t < d.metaLines then d.prefetchLine r t.toNat else d) d
    else d
  | none =>
    if !miss then d
    else
      let new : Detector := ⟨la, 0, 1, now⟩
      let xs := if xs.length < 4 then xs ++ [new]
        else
          let old := (xs.map Detector.used).min?.getD 0
          match xs.findIdx? fun x => x.used = old with
          | some i => xs.set i new
          | none => xs
      d.updSmc fun s => { s with detectors := Tbl.put s.detectors r xs }

/-! ### Requests (R185 to R189) -/

/-- A request waits. -/
def Dev.smcWait (d : Dev) (q : SmcReq) : Dev := d.updSmc fun s => { s with waiting := s.waiting ++ [q] }

/-- Count a hit or a miss of a request, once (R186, R196, R201). -/
def Dev.smcCount (d : Dev) (q : SmcReq) (hit : Bool) : Dev :=
  if q.seen then d
  else if hit then d.incWrap (Reg.SMC_REQ_HIT_hits.ix q.r)
  else
    let i := d.setOf q.la
    (d.incWrap (Reg.SMC_REQ_MISS_misses.ix q.r)).updSmc fun s => { s with misses := Tbl.put s.misses i (Tbl.getD s.misses i 0 + 1) }

/-- Train on a demand access, once for each request: hits, misses, merged and bypassed ones (R188). -/
def Dev.smcTrain (d : Dev) (q : SmcReq) (miss : Bool) : Dev := if q.seen then d else d.train q.r q.la miss

/-- Serve a request on a line's content: a read is answered; a write goes to the journal, or waits for room in it, and is
merged when both its writes are acknowledged (R187). -/
def Dev.serveLine (d : Dev) (q : SmcReq) (line : Bytes) : Dev :=
  match q.op with
  | .read => d.emit (.smcAnswer q.r q.la line)
  | .write off data =>
    let d := d.journalRoom q.la
    if d.journalFull q.la then d.smcWait { q with seen := true } else d.journal q off data

/-- The way whose line a bypassed request is checked against: in OFF the lines are not used (R186, R197). -/
def Dev.heldWay (d : Dev) (la : Nat) : Option Way := if d.blkState .smc = stOff then none else d.lineWay la

/-- A bypassed request (R186): a read is checked against the valid lines and the eviction buffer before DRAM. -/
def Dev.smcBypass (d : Dev) (q : SmcReq) : Dev :=
  let d := (d.smcCount q false).incSat Reg.SMC_BYPASS_count
  let line := match d.heldWay q.la, d.smc.evict.find? fun e => e.la = q.la with
    | some w, _ => w.data
    | none, some e => e.data
    | none, none => d.dramLine q.la
  d.serveLine q line

/-- Whether HIT_UNDER_ONE's lookup pipeline stands still: a second miss or a secondary miss waits while a fill is pending
(R186). -/
def Dev.pipeStopped (d : Dev) : Bool :=
  !d.nonblocking && decide (d.smc.regs ≠ []) && d.smc.waiting.any fun x =>
    (d.missOf x.la).isSome || ((d.lineWay x.la).isNone && !(d.smc.evict.any fun e => e.la = x.la))

/-- Whether a request must wait for earlier ones of its line, or for the stopped pipeline (R185, R186)
(DEDUCED, log entry 57). -/
def Dev.smcHeld (d : Dev) (q : SmcReq) : Bool :=
  (d.smc.waiting.any fun x => x.la = q.la) || (d.smc.ackWait.any fun x => x.2.la = q.la) || d.pipeStopped

/-- A write reclaims its line from the eviction buffer (R189). -/
def Dev.reclaim (d : Dev) (q : SmcReq) (e : EvEntry) (w : Nat) : Dev :=
  let old := (d.smcSet (d.setOf q.la)).ways.find? fun x => x.way = w && x.dirty
  let d := d.updSmc fun s => { s with evict := s.evict.erase e }
  (d.takeWay q.la w old ⟨w, q.la, true, false, e.data⟩).incSat Reg.SMC_EVB_reclaims

/-- A demand miss: a fill is started, or the request bypasses or waits (R184, R186, R189). -/
def Dev.demandMiss (d : Dev) (q : SmcReq) : Dev :=
  if !d.smcAllocates || d.smcMask q.r = 0 then (d.smcBypass q).smcTrain q true
  else if (if d.nonblocking then decide (32 ≤ d.smc.regs.length) else decide (d.smc.regs ≠ [])) then d.smcWait q
  else match d.victimFor q.r q.la with
    | none => (d.smcBypass q).smcTrain q true
    | some (w, old) =>
      if old.isSome && decide (evictSlots ≤ d.smc.evict.length) then d.smcWait q
      else ((d.smcCount q false).startFill q.la w old false [{ q with seen := true }]).smcTrain q true

/-- A request whose line has a fill pending: it is merged, or waits behind it (R185, R186). -/
def Dev.secondaryMiss (d : Dev) (q : SmcReq) (m : MissReg) : Dev :=
  let d' := d.smcCount q false
  if d.nonblocking && decide (m.reqs.length < (if m.prefetch then 8 else 9)) && !(d.smc.waiting.any fun x => x.la = q.la) then
    (d'.updSmc fun s =>
      { s with regs := s.regs.map fun x => if x.la = q.la then { x with reqs := x.reqs ++ [{ q with seen := true }] } else x })
      |>.smcTrain q true
  else if d.pipeStopped then d.smcWait q
  else (d'.smcWait { q with seen := true }).smcTrain q true

/-- One lookup. -/
def Dev.smcLookup (d : Dev) (q : SmcReq) : Dev :=
  if !d.smcUsed then (if d.smcHeld q then d.smcWait q else d.smcBypass q)
  else match d.missOf q.la with
    | some m => d.secondaryMiss q m
    | none =>
      if d.smcHeld q then d.smcWait q
      else match d.lineWay q.la with
        | some w => ((d.smcCount q true).serveLine q w.data).smcTrain q false
        | none =>
          match d.smc.evict.find? fun e => e.la = q.la with
          | none => d.demandMiss q
          | some e => match q.op with
            | .read => ((d.smcCount q true).serveLine q e.data).smcTrain q false
            | .write _ _ =>
              let issued := decide (d.smc.evict.head? = some e)
              match (if issued || !d.smcAllocates then none else d.victimFor q.r q.la) with
              | some (v, _) => (((d.reclaim q e v).smcCount q true).serveLine q e.data).smcTrain q false
              | none => d.smcWait q

/-- The requests that wait are looked up again, in arrival order. -/
def Dev.smcRetry (d : Dev) : Dev :=
  let ws := d.smc.waiting
  forEach ws (fun q d => d.smcLookup q) (d.updSmc fun s => { s with waiting := [] })

/-! ### Replay and FAULT (R190 to R192) -/

/-- SMC enters FAULT: it drains, and bypasses from then on (R192). -/
def Dev.smcFault (d : Dev) : Dev :=
  if d.blkState .smc = stFault then d
  else
    let d := ((d.setState .smc stFault).errUncorr .smc 5).causeBit .smc 19
    ((d.smcWalkFrom0).squall .smc 0x21 (d.free % 2001)).nextFree

/-- Stripes become SUSPECT, their generation to be learned from the first tag block read (R123, R192, R352). -/
def Dev.suspectLost (d : Dev) (a : Nat) (ts : List Nat) : Dev :=
  forEach (ts.filter fun t => decide (t < (d.geo a).stripes)) (fun t d =>
    d.updStripe a t fun r => { r with state := ssSuspect, genUnknown := true }) d

/-- The marks that the Deferred Error Table gives a stripe (R352). -/
def Dev.marksFromDet (d : Dev) (a t : Nat) : List LostMark :=
  (d.dram.det.filter fun e => e.array = a).flatMap fun e =>
    ((List.range e.count).filter fun i => (d.place e.volume (e.lba + i)).t = t).map fun i => ⟨e.volume, e.lba + i, e.asn, e.ts⟩

/-- Stripes that have an entry in one line at most: 9 bytes for each 4 (R125, R180). -/
def lineStripes : Nat := 60

/-- A table's line whose update is lost is rebuilt from its source (R352): the model's own tables stand beside the lines, so the
event says which table it is. Member states, the intent directory and the indices follow from what the model holds, and
unit records are on the members as they change: only those of members that cannot be read are missing
(DESIGN CHOICE, log entry 29). -/
def Dev.rebuildTable (d : Dev) : MetaTable → Dev
  | .stripes a first n => d.suspectLost a ((List.range (min n lineStripes)).map (first + ·))
  | .lostMarks a first n =>
    forEach ((List.range (min n lineStripes)).map (first + ·)) (fun t d =>
      let ms := d.marksFromDet a t
      if ms = [] then (d.suspectLost a [t]).updStripe a t fun r => { r with lost := [] }
      else d.updStripe a t fun r => { r with lost := ms }) d
  | .remap a =>
    d.updDram fun m => { m with
      unitRecs := Tbl.put m.unitRecs a ((Tbl.getD m.unitRecs a []).filter fun x => d.memberPresent a (x.1 / 2 ^ 30)) }
  | .unitRecs a i c n =>
    let cs := (List.range (min n lineStripes)).map (c + ·)
    let d := if d.memberPresent a i then d else forEach cs (fun c d => d.setUnitRec a i c {}) d
    d.suspectLost a (cs.flatMap fun c => (List.range (d.geo a).spc).map fun s => c * (d.geo a).spc + s)
  | .members _ | .intents | .indices => d

/-- Journal replay of a set (R191): `bad` is the way whose data or tag is not good; entries of the unreadable line are lost, and
its table is rebuilt (R192, R352). -/
def Dev.replay (d : Dev) (i code : Nat) (bad : Option Nat) (unreadable : Option (Nat × MetaTable)) : Dev :=
  let d := forEach ((d.smcSet i).ways.filter fun w => w.dirty && !w.reserved && bad ≠ some w.la)
    (fun w d => d.writeLine w.la w.data) d
  let d := d.updSet i fun s => { s with ways := s.ways.filter Way.reserved }
  let es := (d.setEntries i).filter fun e => e.acked
  let d := forEach es (fun e d =>
    if (unreadable.map Prod.fst) = some e.la then d else d.writeLine e.la (mergeLine (d.dramLine e.la) e.off e.data)) d
  let d := d.updDram fun m => { m with journal := m.journal.filter fun e => !es.contains e }
  let recent := d.ticks :: d.smc.replayTimes.filter fun t => decide (d.ticks < t + ticksPerSec)
  let d := d.updSmc fun s => { s with replayTimes := recent }
  let d := ((d.incSat Reg.SMC_REPLAY_count).causeBit .smc 16).errCorr .smc code
  let d := (d.squall .smc 0x20 (d.free % 2001)).nextFree
  let d := match unreadable with | some (_, t) => d.rebuildTable t | none => d
  (if unreadable.isSome || decide (16 ≤ recent.length) then d.smcFault else d).smcRetry

/-- What the SRAM check of a looked-up set found is handled before the lookup (R190 to R192). -/
def Dev.smcError (d : Dev) (la : Nat) (err : SmcErr) : Dev :=
  if !d.smcUsed then d
  else match err with
    | .none => d
    | .single => if (d.lineWay la).isSome then d.errCorr .smc 1 else d
    | .double => match d.lineWay la with
      | none => d
      | some w =>
        if w.dirty then d.replay (d.setOf la) 3 (some la) none
        else (d.updSet (d.setOf la) fun s => { s with ways := s.ways.erase w }).errCorr .smc 2
    | .tagParity => d.replay (d.setOf la) 4 none none
    | .replayUnreadable t => d.replay (d.setOf la) 4 (some la) (some (la, t))

/-- SMC_REQUEST's effect; it wakes a GATED SMC (R37) (DESIGN CHOICE, log entry 29). -/
def Dev.smcRequest (d : Dev) (q : SmcReq) (err : SmcErr) : Dev := ((d.ungate .smc).smcError q.la err).smcLookup q

/-! ### Completions -/

/-- SMC_FILL_DONE's effect: the line is there, and its requests are applied in arrival order, those of the register before
those that wait (R185, R186). `ok` is false where the group that was read gave an uncorrectable codeword: the other one
serves (R155, R181). During a re-key the walker visits the set again (R194). -/
def Dev.fillDone (d : Dev) (la : Nat) (ok : Bool) : Dev :=
  match d.missOf la with
  | none => d
  | some m =>
    let d := if ok then d else d.badLine (d.lineGroup la) la
    let line := d.dramLine la
    let d := d.updSmc fun s => { s with regs := s.regs.filter fun (x : MissReg) => x.la ≠ la, waiting := m.reqs ++ s.waiting }
    let d := d.updSet (d.setOf la) fun s => { s with ways := s.ways.map fun w =>
      if w.la = la && w.reserved then { w with reserved := false, data := line } else w }
    let d := d.smcRetry
    if d.smc.rekeyRunning then
      (d.updSmc fun s => { s with walkSet := some (min (d.setOf la) (s.walkSet.getD (d.setOf la))) }).smcWalk
    else d

/-- The update of an acknowledged write is merged (R186, R187, R197): into the line, which is then dirty; where SMC drains or
bypasses, into any copy it holds and through to DRAM as well. -/
def Dev.mergeWrite (d : Dev) (la off : Nat) (data : Bytes) : Dev :=
  let merged (x : EvEntry) : EvEntry := if x.la = la then { x with data := mergeLine x.data off data } else x
  let inBuffer := d.smc.evict.any fun x => x.la = la
  match d.heldWay la with
  | some w =>
    let line := mergeLine w.data off data
    if d.smcUsed && decide (d.blkState .smc ≠ stDraining) then d.setLine la fun w => { w with data := line, dirty := true }
    else
      let d := (d.setLine la fun w => { w with data := line }).updSmc fun s => { s with evict := s.evict.map merged }
      let d := d.writeLine la (mergeLine (d.dramLine la) off data)
      if w.dirty || inBuffer then d else d.retireLine la
  | none =>
    if inBuffer then d.updSmc fun s => { s with evict := s.evict.map merged }
    else (d.writeLine la (mergeLine (d.dramLine la) off data)).retireLine la

/-- SMC_JOURNAL_ACK's effect: the update is merged and persistent, and the requester is answered (R187). -/
def Dev.journalAck (d : Dev) (seq : Nat) : Dev :=
  match d.smc.ackWait.find? fun x => x.1 = seq with
  | none => d
  | some (_, q) =>
    let e := d.dram.journal.find? fun e => e.seq = seq && !e.acked
    let off := (e.map JEntry.off).getD 0
    let data := (e.map JEntry.data).getD []
    let d := d.updSmc fun s => { s with ackWait := s.ackWait.filter fun x => x.1 ≠ seq }
    let d := d.updDram fun m => { m with journal := m.journal.map fun e => if e.seq = seq then { e with acked := true } else e }
    ((d.mergeWrite q.la off data).emit (.smcAnswer q.r q.la [])).smcRetry

/-- SMC_WRITEBACK_DONE's effect: the oldest entry of the buffer is in both groups (R189); a walker goes on. Its journal entries
retire, but those of a line that is dirty again. -/
def Dev.writebackDone (d : Dev) (la : Nat) : Dev :=
  match d.smc.evict with
  | [] => d
  | e :: rest =>
    if e.la ≠ la then d
    else
      let d := (d.updSmc fun s => { s with evict := rest }).writeLine la e.data
      let again := match d.lineWay la with | some w => w.dirty | none => false
      (if again then d else d.retireLine la).smcWalk.smcRetry

/-! ### Invalidate-all, re-key, self-test, reset invalidation (R193 to R200) -/

/-- SMC_INV.go. -/
def Dev.smcInvalidate (d : Dev) : Dev :=
  let st := d.blkState .smc
  if st = stOff ∨ st = stFault then d.refuse .smc
  else if st = stDraining then d.updSmc fun s => { s with invWalk := true }
  else d.smcInvStart

/-- A re-key switches the key (R194). -/
def Dev.keySwitch (d : Dev) : Dev :=
  (((d.wr Reg.SMC_KEY_key (d.rd Reg.SMC_KEY_next)).updSmc fun s => { s with rekeyRunning := false }).causeBit .smc 18).actEnd
    .smcRekey wholeDevice

/-- Whether SMC holds a line or waits for one. -/
def Dev.smcHolds (d : Dev) : Bool := decide (d.smc.regs ≠ []) || d.smc.sets.any fun p => decide (p.2.ways ≠ [])

/-- SMC_INVALIDATE_DONE's effect, once the walk and the last write-back have finished. The key of a re-key is switched over an
empty cache only: lines that were filled or allocated behind the walker are walked once more (R194)
(DEDUCED, log entry 81). -/
def Dev.invalidateDone (d : Dev) : Dev :=
  if !d.smc.invWalk || d.smc.walkSet.isSome || decide (d.smc.evict ≠ []) || decide (d.blkState .smc = stDraining) then d
  else if d.smc.rekeyRunning && d.smcHolds then d.smcWalkFrom0
  else
    let d := (d.updSmc fun s => { s with invWalk := false }).causeBit .smc 17
    (if d.smc.rekeyRunning then d.keySwitch else d).smcRetry

/-- SMC_REKEY.go. -/
def Dev.smcRekeyGo (d : Dev) : Dev :=
  if d.smc.rekeyPending || d.smc.rekeyRunning then d
  else if d.blkState .smc = stOff then (d.wr Reg.SMC_KEY_key (d.rd Reg.SMC_KEY_next)).causeBit .smc 18
  else (d.updSmc fun s => { s with rekeyPending := true }).arbRequest .smcRekey wholeDevice

/-- SMC_BIST results (R201): PASS, FAIL, BUSY. -/
def bistPass : Nat := 1
/-- FAIL. -/
def bistFail : Nat := 2
/-- BUSY. -/
def bistBusy : Nat := 3

/-- SMC_BIST.go. -/
def Dev.smcBistGo (d : Dev) : Dev :=
  if d.smc.bistRunning then d
  else if d.blkState .smc ≠ stOff then (d.wr Reg.SMC_BIST_result bistBusy).refuse .smc
  else d.updSmc fun s => { s with bistRunning := true, sets := [] }

/-- SMC_BIST_DONE's effect. -/
def Dev.smcBistDone (d : Dev) (pass : Bool) : Dev :=
  if !d.smc.bistRunning then d
  else
    let d := (d.updSmc fun s => { s with bistRunning := false, sets := [] }).causeBit .smc 20
    if pass then d.wr Reg.SMC_BIST_result bistPass else (d.wr Reg.SMC_BIST_result bistFail).errUncorr .smc 6

/-- Reset invalidation begins (R198): every line, pointer and detector goes; requests bypass while it runs. -/
def Dev.smcResetStart (d : Dev) (powerOn : Bool) : Dev :=
  d.updSmc fun s => { s with
    sets := [], detectors := [], resetInval := true, newKey := s.newKey || powerOn
    modeInForce := d.rd Reg.SMC_CFG_miss_mode, invWalk := false, walkSet := none }

/-- The key of a power-on (R195): low 14 bits of the serial number XOR the TMB seconds. -/
def Dev.powerOnKey (d : Dev) : Nat := (Config.serial % 2 ^ 14) ^^^ (d.tmb.sec % 2 ^ 14)

/-- SMC_RESET_INVALIDATION's effect: reset invalidation ends (R195, R197). -/
def Dev.smcResetDone (d : Dev) : Dev :=
  if !d.smc.resetInval then d
  else
    let d := if d.smc.newKey then d.wr Reg.SMC_KEY_key d.powerOnKey else d
    let d := d.updSmc fun s => { s with resetInval := false, newKey := false }
    let up := d.rdB (Reg.BLK_CTRL_en.ix Blk.smc.page) && decide (d.blkState .smc = stOff)
    let d := d.updSmc fun s => { s with modeInForce := d.rd Reg.SMC_CFG_miss_mode }
    (if up then d.setState .smc stIdle else d).smcRetry

/-! ### Hot sets (R196, R230) -/

/-- SMC_HOT_SAMPLE's effect. With no miss in the second the ratio has no value: a free one is shown
(DEDUCED, log entry 57). -/
def Dev.smcHot (d : Dev) : Dev :=
  let total := (d.smc.misses.map Prod.snd).sum
  let top := d.smc.misses.foldl (fun (b : Nat × Nat) p => if b.2 < p.2 then p else b) (0, 0)
  let ratio := if total = 0 then d.free % 65536 else min 65535 (top.2 * 16384 * 100 / total)
  let hotSet := if total = 0 then (Config.freeNat (d.freeCtr + 1)) % 16384 else top.1
  let d := if total = 0 then d.nextFree.nextFree else d
  let d := d.wr Reg.SMC_HOT_ratio ratio |>.wr Reg.SMC_HOT_set hotSet
  let h := hotStep (decide (d.rd Reg.MNT_HOT_CFG_smc_ratio < ratio)) d.smc.hotStreak d.smc.hotQuiet
    (d.smc.hotPosted && d.smc.hotSet = hotSet)
  let d := d.updSmc fun s => { s with
    hotStreak := h.1, hotQuiet := h.2.1, hotPosted := h.2.2.1, hotSet := if h.2.2.2 then hotSet else s.hotSet
    misses := [] }
  if h.2.2.2 then d.post 0x60 2 0 hotSet ratio 0 else d

/-! ### Meanings -/

/-- SMC_REQUEST (R185); line addresses have 42 bits (R182). SMC caches the metadata region and nothing else (R180): a request
for a line outside it is none of SMC's, and changes nothing (DESIGN CHOICE, log entry 29). -/
def execSmcRequest (r la : Nat) (op : SmcOp) (err : SmcErr) (s : State) : Out :=
  onUnit (decide (r < 8 ∧ la < 2 ^ 42)) s fun d => if la < d.metaLines then d.smcRequest ⟨r, la, op, false⟩ err else d

/-- SMC_FILL_DONE (R186). -/
def execSmcFillDone (x : FillEnd) (s : State) : Out := s.act fun d => d.fillDone x.la x.ok

/-- SMC_JOURNAL_ACK (R187). -/
def execSmcJournalAck (seq : Nat) (s : State) : Out := s.act fun d => d.journalAck seq

/-- SMC_WRITEBACK_DONE (R189). -/
def execSmcWritebackDone (la : Nat) (s : State) : Out := s.act fun d => d.writebackDone la

/-- SMC_INVALIDATE (R193). -/
def execSmcInvalidate (s : State) : Out := onPage .smc true s Dev.smcInvalidate

/-- SMC_INVALIDATE_DONE (R193). -/
def execSmcInvalidateDone (s : State) : Out := s.act Dev.invalidateDone

/-- SMC_REKEY (R194). -/
def execSmcRekey (s : State) : Out := onPage .smc true s Dev.smcRekeyGo

/-- SMC_BIST (R200). -/
def execSmcBist (s : State) : Out := onPage .smc true s Dev.smcBistGo

/-- SMC_BIST_DONE (R200). -/
def execSmcBistDone (pass : Bool) (s : State) : Out := s.act fun d => d.smcBistDone pass

/-- SMC_RESET_INVALIDATION (R198). -/
def execSmcResetInvalidation (s : State) : Out := s.act Dev.smcResetDone

/-- SMC_HOT_SAMPLE (R196). -/
def execSmcHotSample (s : State) : Out := s.act Dev.smcHot

end Sys2Proof.Machine
end

