-- ==== Sys2Proof/Machine/Vault.lean ====
section
/-! DEFINITION. Dusk and Dawn: the vault's figures, the triggers, what is saved and sealed, sleep, the choice of a start, and
restore (R304 to R323, R330, R402, R404, R407, R409). -/

set_option Elab.async false

namespace Sys2Proof.Machine

/-- Change VLT state beside its registers. -/
def Dev.updVlt (d : Dev) (g : VltState → VltState) : Dev := { d with vlt := g d.vlt }

/-! ### The vault's figures (R304, R306, R307) -/

/-- An image area. -/
def Dev.area (d : Dev) (n : Nat) : VArea := if n = 0 then d.vlt.area0 else d.vlt.area1
/-- Change an image area. -/
def Dev.updArea (d : Dev) (n : Nat) (g : VArea → VArea) : Dev :=
  d.updVlt fun v => if n = 0 then { v with area0 := g v.area0 } else { v with area1 := g v.area1 }

/-- The fixed part in bytes (R151, R308): metadata tables, journal, intents, Outcome Logs, Deferred Error Table. -/
def Dev.fixedPart (d : Dev) : Nat := (d.metaUsed + 256 + 256 + 64 + 130 + 2) * 2 ^ 20

/-- Bytes that an area holds when it is all erased, after the cross-die overhead. -/
def Dev.areaBytes (d : Dev) : Nat := d.rd Reg.VLT_STAT_usable * d.vlt.groupBytes * 15 / 16

/-- R_vault in MB/s (R307). -/
def Dev.vaultRate (d : Dev) : Nat :=
  match d.duskProfile with
  | none => 0
  | some x =>
    let g := x.diesPerChannel / 2
    let r := min 16000 (x.vaultMbps * d.rd Reg.VLT_STAT_usable / g)
    if d.vlt.measured = 0 then r else min r d.vlt.measured

/-- Whether VLT can seal an image (R307). -/
def Dev.canSeal (d : Dev) (rate : Nat) : Bool :=
  match d.duskProfile with
  | none => false
  | some x =>
    decide (0 < d.rd Reg.VLT_STAT_usable) && decide (d.fixedPart ≤ 20 * 2 ^ 30) && decide (0 < rate) &&
    decide ((x.pDusk : Rat) * (5 / 1000 + (d.fixedPart : Rat) / ((rate : Rat) * 1000000)) ≤ (x.eFixed : Rat))

/-- Bring VLT_FIXED, VLT_RATE, VLT_FREE and can_seal up to date (R307, R322, R323). -/
def Dev.refreshVault (d : Dev) : Dev :=
  let rate := d.vaultRate
  let can := d.canSeal rate
  let was := d.rdB Reg.VLT_STAT_can_seal
  let d := d.wr Reg.VLT_FIXED_bytes d.fixedPart |>.wr Reg.VLT_RATE_mbps rate |>.wr Reg.VLT_RATE_measured_mbps d.vlt.measured
    |>.wr Reg.VLT_FREE_bytes ((d.area (d.rd Reg.VLT_STAT_area)).erased - d.fixedPart) |>.wrB Reg.VLT_STAT_can_seal can
  if was && !can then d.causeBit .vlt 16 else d

/-- The vault is prepared (R304, R321): dies probed, groups judged. `dies` holds for each channel the dies that answer. -/
def Dev.prepareVault (d : Dev) (dies : List Nat) (groupBytes : Nat) : Dev :=
  let n := match d.duskProfile with | some x => x.diesPerChannel | none => 0
  let d := forEach (List.range 8) (fun c d =>
    let up := dies.getD c 0 % 2 ^ n
    let d := d.wr (Reg.VLT_CH_present.ix c) up |>.wr (Reg.VLT_CH_retired.ix c) (2 ^ n - 1 - up)
    forEach ((List.range n).filter fun i => !bitOf up i) (fun _ d => (d.causeBit .vlt 17).errUncorr .vlt 3) d) d
  let ok (g : Nat) : Bool := (List.range 8).all fun c => bitOf (dies.getD c 0) (2 * g) && bitOf (dies.getD c 0) (2 * g + 1)
  let d := d.wr Reg.VLT_STAT_groups (n / 2) |>.wr Reg.VLT_STAT_usable ((List.range (n / 2)).filter ok).length
  let d := if d.duskProfile.isNone then d.errUncorr .vlt 6 else d
  d.updVlt fun v => { v with groupBytes := groupBytes }

/-- Number of the area with the newest valid open record, and that record (R316) (DESIGN CHOICE, log entry 50). -/
def Dev.newestArea (d : Dev) : Option (Nat × OpenRec) :=
  match d.vlt.area0.openRec, d.vlt.area1.openRec with
  | some a, some b => if a.seq < b.seq then some (1, b) else some (0, a)
  | some a, none => some (0, a)
  | none, some b => some (1, b)
  | none, none => none

/-- The area that the next Dusk writes (R306). -/
def Dev.nextArea (d : Dev) : Nat := match d.newestArea with | some (n, _) => 1 - n | none => 0

/-- A background erase of the area the next Dusk writes begins (R306) (DESIGN CHOICE, log entry 50). -/
def Dev.eraseStart (d : Dev) : Dev :=
  let a := d.nextArea
  let d := d.wr Reg.VLT_STAT_area a
  if (d.area a).openRec.isNone && decide (d.areaBytes ≤ (d.area a).erased) then d
  else ((d.updArea a fun _ => {}).wr Reg.VLT_STAT_erasing 1).refreshVault

/-- VAULT_ERASE's effect (R306, R307). -/
def Dev.vaultErase (d : Dev) (bytes : Nat) (done : Bool) : Dev :=
  if !d.rdB Reg.VLT_STAT_erasing then d
  else
    let most := d.areaBytes
    let d := d.updArea (d.rd Reg.VLT_STAT_area) fun a => { a with erased := min most (a.erased + bytes) }
    (if done then (d.wr Reg.VLT_STAT_erasing 0).causeBit .vlt 20 else d).refreshVault

/-! ### Triggers (R312, R319, R330, R402, R404) -/

/-- Bring the charger's POWER cause up to date (R268). -/
def Dev.refreshPower (d : Dev) : Dev :=
  d.setInhibit 5 (!d.sys.pwrFailN || !d.sys.pwrGood || d.vlt.dusk.isSome)

/-- Load steps and rest windows end, and a learn cycle is disqualified (R286). -/
def Dev.bpsStop (d : Dev) (reason : Nat) : Dev :=
  let d := ((d.learnStop reason).setLoadPin false).setDsg false
  ((d.updBps fun b => { b with restWindow := false, learnAsked := false }).refreshRest).refreshPower

/-- The main power domains go off, the link with them (R314) (DESIGN CHOICE, log entry 50). -/
def Dev.goSleep (d : Dev) (reason : Nat) : Dev :=
  let d := (d.setDuty 0).setDsg false |>.setLoadPin false
  let d := d.updVlt fun v => { v with dusk := none, duskStarted := false, writing := none, noSeal := false, dawn := none,
                                      foreignWait := false }
  let d : Dev := { d with tmb := { d.tmb with aonTrim := d.rd Reg.TMB_TRIM_trim } }
  let d : Dev := { d with sys := { d.sys with
    sleeping := true, sleepReason := reason, pdMain := false, pdHphy := false, pdDrv := [], pdMem := false } }
  (d.setLink .off).setPhase phReset

/-- The blocks with commit registers (R25). -/
def commitBlks : List Blk := [.bps, .pwc, .lay, .mnt, .dpx]

/-- A commit that has not reached its switch point ends with ABORTED (R39, R41) (DESIGN CHOICE, log entry 41). -/
def Dev.commitCut (d : Dev) (b : Blk) : Dev :=
  if d.rdB (Reg.COMMIT_STAT_busy.ix b.page) then
    (d.wr (Reg.COMMIT_STAT_busy.ix b.page) 0).wr (Reg.COMMIT_STAT_status.ix b.page) 8
  else d

/-- A Dusk trigger (R312): nothing during Dusk, sleep or without main power; before admission is open, straight to sleep
without an image; in NO_IMAGE, FAILED and HOLD nothing. -/
def Dev.duskTrigger (d : Dev) (reason : Nat) : Dev :=
  if !d.sys.pdMain then d
  else if d.phase ≤ phDawn then d.goSleep reason
  else if d.phase = phReady then
    let t := d.now
    let d := forEach commitBlks (fun b d => d.commitCut b) d
    ((d.updVlt fun v => { v with dusk := some (reason, t) }).setPhase phDusk).fwAbandon.refreshPower
  else if d.phase = phDusk then
    match d.vlt.dusk with
    | some (r, t) => if reason < r ∧ !d.vlt.duskStarted ∧ reason = 1 ∧ r = 2 then d.updVlt fun v => { v with dusk := some (1, t) } else d
    | none => d
  else d

/-- PWR_FAIL's effect: PWR_FAIL_N is low. -/
def Dev.pwrFail (d : Dev) : Dev :=
  let d : Dev := { d with sys := { d.sys with pwrFailN := false } }
  let d := if d.sys.pdMain then d.bpsStop 4 else d
  d.duskTrigger 1

/-- PWR_FAIL_GLITCH's effect (R312, R402). -/
def Dev.pwrFailGlitch (d : Dev) : Dev := d.incSat Reg.VLT_GLITCH_count

/-- BROWNOUT's effect. -/
def Dev.brownout (d : Dev) : Dev :=
  ({ d with sys := { d.sys with brownout := true } } : Dev).duskTrigger 2

/-- PWR_GOOD_FALL's effect (R269, R402): with PWR_FAIL_N high and no Dusk, BPS records it. -/
def Dev.pwrGoodFall (d : Dev) : Dev :=
  if !d.sys.pwrGood then d
  else
    let d : Dev := { d with sys := { d.sys with pwrGood := false } }
    if !d.sys.pdMain then d
    else
      let d := if d.sys.pwrFailN && d.vlt.dusk.isNone && decide (phTrain ≤ d.phase ∧ d.phase ≤ phReady) then
          (d.setHaloCause 2).refreshHalo
        else d
      d.refreshPower

/-! ### Records as bytes (R306, R308 to R310) -/

/-- The 64-byte header that begins a record (R309). -/
def recordHeader (kind seq index : Nat) (payload : Bytes) : Bytes :=
  let body := [0x5A#8, 0x56#8, 0x4C#8, 0x54#8] ++ leBytes 2 kind ++ leBytes 2 0 ++ leBytes 4 seq ++ leBytes 4 index ++
    leBytes 8 payload.length ++ leBytes 4 (crc32 payload) ++ leBytes 32 0
  body ++ leBytes 4 (crc32 body)

/-- The OPEN record (R308); the spec gives its fields and not their places (DESIGN CHOICE, log entry 50). -/
def OpenRec.bytes (o : OpenRec) : Bytes :=
  let payload := leBytes 4 o.seq ++ leBytes 2 o.reason ++ leBytes 2 0 ++ leBytes 8 o.ts ++ leBytes 8 o.serial
  recordHeader 1 o.seq 0 payload ++ payload

/-- The CONSUMED record, which Dawn writes (R308, R318) (DESIGN CHOICE, log entry 50). -/
def consumedBytes (seq ts : Nat) : Bytes :=
  let payload := leBytes 4 seq ++ leBytes 8 ts
  recordHeader 13 seq 12 payload ++ payload

/-- A directory entry (R309). -/
def dirEntry (kind index group area first count len crc : Nat) : Bytes :=
  leBytes 2 kind ++ leBytes 2 0 ++ leBytes 4 index ++ leBytes 1 group ++ leBytes 1 area ++ leBytes 2 0 ++ leBytes 4 first ++
  leBytes 4 count ++ leBytes 8 len ++ leBytes 4 crc

/-- A seal page (R310); where the directory lies, its entries and its CRC-32 follow from the placement of the records, which the
spec does not state: free values (DESIGN CHOICE, log entry 50). -/
def Image.sealBytes (x : Image) (dirFirst dirCount dirCrc : Nat) : Bytes :=
  let body := [0x5A#8, 0x4F#8, 0x54#8, 0x45#8, 0x41#8, 0x53#8, 0x45#8, 0x41#8] ++ leBytes 4 x.seq ++ leBytes 2 x.reason ++ leBytes 2 0 ++
    leBytes 8 x.serial ++ leBytes 8 x.ts ++ leBytes 4 x.duskUs ++ leBytes 4 dirFirst ++ leBytes 4 dirCount ++
    leBytes 4 dirCrc ++ leBytes 8 x.fixedBytes ++ leBytes 8 x.dirtyBytes ++ leBytes 4 x.adm ++ leBytes 4 x.diesFailed ++
    List.replicate 4020 0#8
  body ++ leBytes 4 (crc32 body)

/-! ### The image (R308, R309) -/

/-- Whether a register field belongs to the CONTROL record (R308): live configuration, the state that LAY and MNT show, queue
quotas, the halt record, commit status. -/
def controlKey (k : Nat) : Bool :=
  let a := k / 64
  keyHas .rws k ||
  (keyHas .ro k && ((decide (0x400000 ≤ a ∧ a < 0x410000)) || decide (0x500000 ≤ a ∧ a < 0x510000) ||
    decide (0x90080 ≤ a ∧ a < 0xA0000))) ||
  decide (0x21000 ≤ a ∧ a < 0x22000) || decide (0x100 ≤ a ∧ a < 0x200) ||
  ([4, 5, 8, 9, 13].contains (a / 65536) && decide (0x40 ≤ a % 65536 ∧ a % 65536 < 0x50))

/-- The group that VLT reads: the one that is not FAILED, of two the one with fewer uncorrectable counts (R309). -/
def Dev.healthier (d : Dev) : Group :=
  let n (g : Group) : Nat := ((List.range 6).map fun i => d.rd (Reg.PWC_CH_HI_uncorr.ix (groupBase g + i))).sum
  if !d.groupUp .a then .b else if !d.groupUp .b then .a else if n .b < n .a then .b else .a

/-- The content of DRAM that the image saves: persistent dirty blocks, those of destages without an intent record dirty
again, or gone if a command deallocated them; the metadata tables from the healthier group. -/
def Dev.savedDram (d : Dev) : Dram :=
  let m := d.dram
  let held (b : CBlk) : Bool := m.intents.any fun i => i.carries.contains (b.vol, b.lba, b.adm)
  let keep := m.cache.filter fun b => b.st ≠ .clean && b.st ≠ .writing && b.persistent && !(b.gone && !held b)
  let meta_ := if d.healthier = .a then m.metaA else m.metaB
  { m with
    cache := (keep.filter held) ++ ((keep.filter fun b => !held b).map fun b => (b.array, b.t)).eraseDups.foldl
      (fun xs u => undestage u.1 u.2 xs) (keep.filter fun b => !held b)
    metaA := meta_, metaB := meta_ }

/-- Bytes of the dirty part, S_d of R313. -/
def dirtyPart (m : Dram) : Nat :=
  4096 * ((m.cache.filter fun b => !b.zero).length + (m.intents.map fun i => i.blocks.length).sum)

/-- Activities that go on after Dawn from their cursors (R228). -/
def resumes : Act → Bool
  | .rebuild | .copyback | .scrub | .restripe | .driveFw => true
  | _ => false

/-- The image that a Dusk writes (DESIGN CHOICE, log entry 50). -/
def Dev.snapshot (d : Dev) (seq reason t0 : Nat) : Image :=
  let m := d.savedDram
  { seq := seq, reason := reason, ts := t0, serial := Config.serial
    live := d.regs.filter fun p => controlKey p.1
    dram := m, arrs := d.lay.arrs, incarnation := d.lay.incarnation, adm := d.qmx.adm
    epochs := (List.range 65).map fun f => d.rd (Reg.HIF_FN_STAT_epoch.ix f)
    acts := d.mnt.acts.filter fun x => resumes x.act
    dfw := d.mnt.dfw.map fun x => { x with todo := x.active ++ x.todo, active := [] }
    param := if d.rdB Reg.BPS_PARAM_pending then some (d.paramRecord ((d.paramSeq + 1) % 2 ^ 32)) else none
    lostList := (m.cache.filter fun b => b.copyA ≠ .good && b.copyB ≠ .good).map fun b => (b.vol, b.lba)
    fixedBytes := d.fixedPart, dirtyBytes := dirtyPart m + 4096 * d.stepBlocks, duskUs := 0, diesFailed := 0
    freshOwed := d.lay.freshOwed.filter fun x => d.intentOpen x.1 x.2 }

/-! ### Dusk (R311, R313) -/

/-- Step 1: nothing is fetched or granted; issued block writes finish and are flipped. -/
def Dev.duskFreeze (d : Dev) : Dev :=
  let d := { d with qmx := { d.qmx with fetched := [] } }
  let d := d.dropReads fun _ => true
  let n := (d.dram.cache.filter fun b => b.st = .writing).length
  forEach (d.qmx.cmds.map Cmd.adm) (fun a d =>
    forEach (List.range n) (fun _ d => match d.cmd? a with | some c => d.flip c | none => d) d) d

/-- R311: every admitted command gets its final record, and no completion. -/
def Dev.duskRecords (d : Dev) : Dev :=
  let d := forEach (d.qmx.cmds.map Cmd.adm)
    (fun a d => (d.updCmd a fun c => { c with silent := true }).endCmd a ssAbortedPower 0) d
  forEach (List.range 65) (fun f d =>
    (d.updFn f fun x => { x with held := [] }).updRing f fun r => { r with pend := [] }) d

/-- Every drive port is abandoned and its domains go off (R249). -/
def Dev.portsAbandon (d : Dev) : Dev :=
  let d := forEach (List.range 256) (fun p d =>
    let d := d.unlink p
    if d.ptState p = ptDisabled ∨ d.ptState p = ptFailed then d else d.wr (Reg.PT_STAT_state.ix p) ptEmpty) d
  let d := { d with dpx := { d.dpx with ports := [] } }
  let d := d.updLay fun l => { l with destages := [], ops := [], gathers := [], repairs := [], streams := [] }
  { d with sys := { d.sys with pdDrv := [] } }

/-- SMC writes back every dirty line, without invalidating it, and stops (R199); their journal entries retire. -/
def Dev.smcDusk (d : Dev) : Dev :=
  let dirty := d.smc.sets.flatMap fun p => (p.2.ways.filter Way.dirty).map fun w => (w.la, w.data)
  let d := forEach ((d.smc.evict.map fun e => (e.la, e.data)) ++ dirty) (fun x d => (d.writeLine x.1 x.2).retireLine x.1) d
  d.updSmc fun s => { s with
    sets := s.sets.map fun p => (p.1, { p.2 with ways := p.2.ways.map fun w => { w with dirty := false } })
    regs := [], waiting := [], evict := [], ackWait := [], invWalk := false, walkSet := none
    rekeyPending := false, rekeyRunning := false }

/-- Step 2's share of calibration (R298): a ramp completes, a round is abandoned. -/
def Dev.calDusk (d : Dev) : Dev :=
  let d : Dev := match d.bps.ramp with
    | some (_, c, swap) => d.rampDone c swap
    | none => d
  ((d.updBps fun b => { b with heldCand := none, ramp := none }).wr Reg.BPS_CAL_STAT_running 0).wr Reg.BPS_CAL_STAT_held 0

/-- DUSK_START's effect: steps 1 to 3 of R313 (DESIGN CHOICE, log entry 50). -/
def Dev.duskStart (d : Dev) : Dev :=
  match d.vlt.dusk with
  | none => d
  | some (reason, t0) =>
    if d.vlt.duskStarted then d
    else
      let d := d.duskFreeze.duskRecords
      let d := ((d.bpsStop 5).calDusk).retrainEnd false
      let d := d.bmeDropAll
      let d := (d.setLink .abandoned).portsAbandon
      let d : Dev := { d with sys := { d.sys with pdHphy := false } }
      let d := d.updEce fun e => { e with jobs := [], outs := [] }
      let d := forEach d.arrays (fun a d => d.updScrub a fun x => { x with work := none }) d
      let d := d.smcDusk
      let area := d.nextArea
      let seq := (match d.newestArea with | some (_, o) => o.seq | none => 0) + 1
      let image := d.snapshot seq reason t0
      let none_ := decide (d.rd Reg.VLT_STAT_usable = 0)
      let d : Dev := { d with mnt := { d.mnt with acts := [], dfw := none } }
      let d := d.wr Reg.VLT_LAST_reason reason |>.wr Reg.VLT_LAST_dies_failed 0 |>.wr Reg.VLT_LAST_TS_ts t0
        |>.wr Reg.VLT_STAT_erasing 0 |>.wr Reg.VLT_STAT_area area
      let d := if none_ then d
        else (d.updArea area fun x => { x with
          openRec := some ⟨seq, reason, t0, Config.serial⟩, sealA := false, sealB := false, consumed := false,
          image := none }).emit (.vaultWrite area 1 (OpenRec.bytes ⟨seq, reason, t0, Config.serial⟩))
      d.updVlt fun v => { v with
        duskStarted := true, writing := some image, noSeal := none_ || d.pwc.bothLost, failedDies := [] }

/-- VAULT_DIE_FAIL's effect (R305). -/
def Dev.vaultDieFail (d : Dev) (g die : Nat) : Dev :=
  if !d.vlt.duskStarted || d.rd Reg.VLT_STAT_groups ≤ g || 16 ≤ die || d.vlt.failedDies.contains (g, die) then d
  else
    let d := (d.updVlt fun v => { v with failedDies := (g, die) :: v.failedDies }).errCorr .vlt 2
    d.wr Reg.VLT_LAST_dies_failed d.vlt.failedDies.length

/-- Whether every sensor is below the trip level less the hysteresis (R314, R336). -/
def Dev.thermalOk (d : Dev) : Bool :=
  (List.range 8).all fun s => decide (signedOf 16 (d.rd (Reg.SYS_TEMP_temp.ix s)) <
    4 * ((d.rd Reg.SYS_THERM_CFG_trip_c : Int) - (d.rd Reg.SYS_THERM_CFG_hyst_c : Int)))

/-- Whether main power is good and nothing keeps the device asleep (R314, R315). -/
def Dev.mainGood (d : Dev) (reason : Nat) : Bool :=
  d.sys.pwrGood && d.sys.pwrFailN && !d.sys.brownout && (reason ≠ 3 || d.thermalOk)

/-! ### Dawn (R316 to R320) -/

/-- The drive clusters power up and their ports wait for devices (R238, R247, R327). -/
def Dev.dpxStart (d : Dev) : Dev :=
  let d : Dev := { d with sys := { d.sys with pdDrv := List.replicate 8 false } }
  forEach (List.range 8) (fun n d =>
    if d.rdB (Reg.DPX_CL_en.ix n) && decide (d.clState n ≠ clFailed) then
      let d := (d.setCl n clUp).setDrv n true
      forEach (clusterPorts n) (fun p d =>
        if d.ptState p = ptFailed then d
        else d.wr (Reg.PT_STAT_state.ix p) (if d.rdB (Reg.PT_CFG_en.ix p) then ptEmpty else ptDisabled)) d
    else d) d

/-- READY ports hand over their labels, once LAY takes them (R133, R209). -/
def Dev.labelsNow (d : Dev) : Dev :=
  forEach ((List.range 256).filter fun p => d.ptState p = ptReady) (fun p d => match (d.port p).dev with
    | some x => d.labelSeen p x
    | none => d) d

/-- Admission opens (R317 step 4): phase READY, the other area's erase begins (DESIGN CHOICE, log entry 31). -/
def Dev.admissionOpens (d : Dev) : Dev := (d.setPhase phReady).eraseStart

/-- A start from member labels (R133, R316). With nothing to restore, admission opens at once (DESIGN CHOICE, log entry 31). -/
def Dev.fromLabels (d : Dev) (suspect : Bool) : Dev :=
  let d := d.updLay fun l => { l with collecting := true, suspectAll := suspect, found := [], refusedIds := [] }
  let d := d.updVlt fun v => { v with dawn := none, foreignWait := false }
  d.admissionOpens.labelsNow

/-- The registers of the CONTROL record. -/
def Dev.restoreRegs (d : Dev) (x : Image) : Dev :=
  let d := d.resetKeys controlKey
  let d : Dev := { d with regs := x.live.foldl (fun (m : List (Nat × Nat)) (p : Nat × Nat) => Tbl.put m p.1 p.2) d.regs }
  { d with qmx := { d.qmx with adm := x.adm } }

/-- A restoring Dawn begins (R317). -/
def Dev.restoreBegin (d : Dev) (x : Image) : Dev :=
  ((d.restoreRegs x).updVlt fun v => { v with dawn := some x, foreignWait := false }).refreshVault

/-- The choice of R316, with VLT_LAST as the records found say. -/
def Dev.dawnChoose (d : Dev) : Dev :=
  let res (d : Dev) (r : Nat) : Dev := d.wr Reg.VLT_LAST_result r
  match d.newestArea with
  | none => (res d 0).fromLabels false
  | some (n, o) =>
    let a := d.area n
    let d := d.wr Reg.VLT_LAST_reason o.reason |>.wr Reg.VLT_LAST_TS_ts o.ts
    match (if a.sealA || a.sealB then a.image else none) with
    | none => ((res d 2).causeBit .vlt 18 |>.errUncorr .vlt 5).fromLabels true
    | some x =>
      let d := d.wr Reg.VLT_LAST_SEQ_seq x.seq |>.wr Reg.VLT_LAST_DUSK_us x.duskUs |>.wr Reg.VLT_LAST_dies_failed x.diesFailed
      if a.consumed then ((res d 3).causeBit .vlt 18 |>.errUncorr .vlt 5).fromLabels true
      else if o.serial ≠ Config.serial then ((res d 4).causeBit .vlt 19).updVlt fun v => { v with foreignWait := true }
      else (res d 1).restoreBegin x

/-- VLT_CTRL.accept (R316, R322) (DEDUCED, log entry 61). -/
def Dev.vaultAccept (d : Dev) : Dev :=
  match d.newestArea with
  | some (n, _) =>
    match (d.area n).image with
    | some x => if d.vlt.foreignWait then d.restoreBegin x else d.refuse .vlt
    | none => d.refuse .vlt
  | none => d.refuse .vlt

/-- VLT_CTRL.discard (R316, R322). -/
def Dev.vaultDiscard (d : Dev) : Dev := if d.vlt.foreignWait then d.fromLabels false else d.refuse .vlt

/-- Values of a stored parameter record go into force (R283). -/
def Dev.useRecord (d : Dev) (r : HaloSlot) : Dev :=
  let d := d.wr Reg.BPS_Q_learned (if r.qL = 0 then r.designMah else r.qL) |>.wr Reg.BPS_R_r_dc r.rDc |>.wr Reg.BPS_R_r0 r.r0
    |>.wr Reg.BPS_LEARN_TS_ts r.acceptedTs.toNat |>.wr Reg.BPS_LEARN_STAT_result (r.resultReason % 256)
    |>.wr Reg.BPS_LEARN_STAT_reason (r.resultReason / 256)
  d.updBps fun b => { b with
    qPend := r.qPend, pendTs := r.pendTs.toNat, learned := decide (r.qL ≠ 0), learnCycles := r.cycles }

/-- Every non-FRESH stripe becomes SUSPECT; with `gens`, its generation is to be learned from the members (R320). -/
def suspectStripes (gens : Bool) (m : Dram) : Dram :=
  { m with stripes := m.stripes.map fun x => (x.1, x.2.map fun y =>
      (y.1, if y.2.state = ssFresh then y.2 else { y.2 with state := ssSuspect, genUnknown := y.2.genUnknown || gens })) }

/-- One stripe becomes SUSPECT; with `gens`, its generation is to be learned. -/
def Dev.suspectOne (d : Dev) (a t : Nat) (gens : Bool) : Dev :=
  d.updStripe a t fun r => if r.state = ssFresh then r else { r with state := ssSuspect, genUnknown := r.genUnknown || gens }

/-- The lost marks of every stripe are taken from the Deferred Error Table (R320, R352). -/
def Dev.marksRebuilt (d : Dev) : Dev :=
  forEach d.arrays (fun a d => forEach ((Tbl.getD d.dram.stripes a []).map Prod.fst) (fun t d =>
    d.updStripe a t fun r => { r with lost := d.marksFromDet a t }) d) d

/-- What restore found unreadable is applied (R320): the records other than DIRTY. The unit records come back with the members
(DESIGN CHOICE, log entry 29). -/
def Dev.applyBad (d : Dev) (x : RestoreBad) : Dev :=
  let d := d.updDram fun m => if x.journal then suspectStripes true { m with journal := [] } else m
  let d := if x.journal then d.marksRebuilt else d
  let d := d.updDram fun m => if x.intents then suspectStripes false { m with intents := [] } else m
  let d := d.updLay fun l => { l with freshOwed := if x.intents then [] else l.freshOwed }
  let d := forEach x.metadata (fun p d => d.suspectOne p.1 p.2 true) d
  let d := forEach (d.dram.intents.filter fun i => x.buffers.contains i.seq) (fun i d =>
    let d := (d.updIntent i.seq fun i => { i with blocked := true }).suspectOne i.array i.t false
    let due (b : CBlk) : CBlk := if b.array = i.array ∧ b.t = i.t ∧ b.st = .destaging then { b with st := .dirty } else b
    (d.updCache fun xs => xs.map due).makeDue i.array i.t) d
  let d := d.updDram fun m => { m with
    ologs := m.ologs.map fun p => if x.outcomeFns.contains p.1 then (p.1, { p.2 with recs := [] }) else p
    det := if x.det then [] else m.det }
  let n := x.dirty.length + x.buffers.length + x.metadata.length + x.outcomeFns.length + b2n x.intents + b2n x.journal + b2n x.det
  forEach (List.range n) (fun _ d => d.errUncorr .vlt 4) d

/-- The image's content goes back into DRAM and LAY (R317 steps 2, 3 and 5). -/
def Dev.restoreContent (d : Dev) (x : Image) : Dev :=
  let up (g : Group) : Copy := if d.groupUp g then .good else .absent
  let m := { x.dram with cache := x.dram.cache.map fun b =>
    { b with copyA := up .a, copyB := up .b, chA := d.placeChannel b.used .a, chB := d.placeChannel b.used .b } }
  let stripes := (m.cache.map fun b => (b.array, b.t)).eraseDups
  let d := d.updDram fun _ => m
  let d := d.updPwc fun p => { p with clock := m.cache.foldl (fun n b => max n b.used) p.clock }
  let d := d.updSmc fun s => { s with journalSeq := match m.journal.getLast? with
    | some e => (e.seq + 1) % 2 ^ 32
    | none => s.journalSeq }
  let awake (r : ArrSt) : ArrSt :=
    { r with pwrTarget := 0, exitFrom := 0, exitTicks := 0, exitWait := [], exitSpoiled := false }
  let t := d.ticks
  let d := d.updLay fun l => { l with
    arrs := x.arrs.map fun p => (p.1, awake p.2), incarnation := x.incarnation, collecting := false, suspectAll := false
    due := stripes.map fun p => (⟨p.1, p.2, t, false⟩ : DueRec), freshOwed := x.freshOwed }
  let d : Dev := { d with mnt := { d.mnt with acts := x.acts, dfw := x.dfw } }
  let d := forEach d.arrays (fun a d =>
    let d := d.wr (Reg.AR_PWR_STAT_pstate.ix a) 0 |>.wr (Reg.AR_PWR_STAT_entering.ix a) 0 |>.wr (Reg.AR_PWR_STAT_exiting.ix a) 0
    d.assembleStart a) d
  match x.param with
  | some r => (d.useRecord r).wr Reg.BPS_PARAM_pending 1
  | none => d

/-- Blocks that the vault or both groups lost are marked (R309, R320), once admission is open. -/
def Dev.restoreLosses (d : Dev) (x : Image) (bad : RestoreBad) : Dev :=
  let at_ (l : List (Nat × Nat)) : List CBlk := d.dram.cache.filter fun b => l.contains (b.vol, b.lba)
  let both := at_ x.lostList
  let vault := (at_ bad.dirty).filter fun b => !both.contains b
  let d := (d.loseBlocks vault rsVault).loseBlocks both rsDram
  d.wr Reg.VLT_LOST_blocks (min 0xFFFF (vault.length + both.length))

/-- DAWN_RESTORE_DONE's effect (R317 steps 2 to 5, R318, R320). A warm Dawn finds nothing unreadable
(DESIGN CHOICE, log entry 50) (DEDUCED, log entry 61). -/
def Dev.restoreDone (d : Dev) (bad : RestoreBad) : Dev :=
  match d.vlt.dawn with
  | none => d
  | some x =>
    let bad := if d.vlt.dawnWarm then ⟨0, [], [], [], false, false, [], false, false⟩ else bad
    let d := forEach (List.range (min bad.rebuiltPages 0xFFFF)) (fun _ d => d.errCorr .vlt 1) d
    let d := d.wr Reg.VLT_LOST_rebuilt (min 0xFFFF bad.rebuiltPages) |>.wr Reg.VLT_LOST_blocks 0
    if bad.control then
      let d := d.resetKeys fun k => x.live.any fun p => p.1 = k
      (((d.wr Reg.VLT_LAST_result 2).causeBit .vlt 18).errUncorr .vlt 4 |>.errUncorr .vlt 5).fromLabels true
    else
      let d := (d.restoreContent x).applyBad bad
      let d := forEach (List.range 65) (fun f d => d.wr (Reg.HIF_FN_STAT_epoch.ix f) (x.epochs.getD f 0 + 1)) d
      let d := match d.newestArea with
        | some (n, o) => if o.seq = x.seq then 
          (d.updArea n fun a => { a with consumed := true }).emit (.vaultWrite n 13 (consumedBytes x.seq d.now)) else d
        | none => d
      let d := d.updVlt fun v => { v with dawn := none, dawnWarm := false }
      ((d.admissionOpens.restoreLosses x bad).labelsNow).refreshMode

/-- A warm Dawn begins (R315): the link retrains with a hot reset, the drives start again, SMC starts empty. -/
def Dev.warmDawn (d : Dev) (x : Image) : Dev :=
  let d : Dev := { d with sys := { d.sys with pdHphy := true } }
  let d := d.updVlt fun v => { v with
    dusk := none, duskStarted := false, writing := none, noSeal := false, dawn := some x, dawnWarm := true }
  let d := (d.setPhase phDawn).wr Reg.VLT_LAST_result 1
  let d := ((d.setLink .down).hostReset).resetUnfreeze
  let d := if d.sys.perstN then d.linkTrain.cfgNotReady (100 * ticksPerMs) else d
  (d.smcResetStart true).dpxStart.refreshPower

/-- DUSK_SEALED's effect: steps 4 to 7 of R313, R315, R407, R409; a trip step at the seal is a thermal condition (DESIGN CHOICE, log entry 50). -/
def Dev.duskSealed (d : Dev) (us : Nat) : Dev :=
  match d.vlt.dusk, d.vlt.writing with
  | some (reason, _), some x =>
    let x := { x with duskUs := us, diesFailed := d.vlt.failedDies.length }
    let d := d.wr Reg.VLT_LAST_DUSK_us us
    let d := if d.vlt.noSeal then d
      else
        let n := d.rd Reg.VLT_STAT_area
        let d := d.updArea n fun a => { a with sealA := true, sealB := true, image := some x, erased := 0 }
        let r := d.free % 16001
        let page := x.sealBytes (Config.freeNat (d.freeCtr + 1)) (Config.freeNat (d.freeCtr + 2)) (Config.freeNat (d.freeCtr + 3))
        let d := ((d.emit (.vaultWrite n 12 page)).emit (.vaultWrite n 12 page)).wr Reg.VLT_LAST_SEQ_seq x.seq
        (d.updVlt fun v => { v with measured := r }).nextFree.nextFree.nextFree.nextFree
    let hot := decide (d.rd Reg.SYS_THERM_STAT_step = 4)
    if d.mainGood (if hot then 3 else reason) && !d.pwc.bothLost then d.warmDawn x else d.goSleep reason
  | _, _ => d

/-! ### Meanings -/

/-- PWR_FAIL (R312). -/
def execPwrFail (s : State) : Out := s.act Dev.pwrFail
/-- PWR_FAIL_GLITCH (R402). -/
def execPwrFailGlitch (s : State) : Out := s.act Dev.pwrFailGlitch
/-- BROWNOUT (R312). -/
def execBrownout (s : State) : Out := s.act Dev.brownout
/-- PWR_GOOD_FALL (R402). -/
def execPwrGoodFall (s : State) : Out := s.act Dev.pwrGoodFall
/-- DUSK_START (R313). -/
def execDuskStart (s : State) : Out := s.act Dev.duskStart
/-- VAULT_DIE_FAIL (R305). -/
def execVaultDieFail (group die : Nat) (s : State) : Out := s.act fun d => d.vaultDieFail group die
/-- DUSK_SEALED (R313). -/
def execDuskSealed (durationUs : Nat) (s : State) : Out := s.act fun d => d.duskSealed durationUs
/-- VAULT_ACCEPT (R316). -/
def execVaultAccept (s : State) : Out := onPage .vlt true s Dev.vaultAccept
/-- VAULT_DISCARD (R316). -/
def execVaultDiscard (s : State) : Out := onPage .vlt true s Dev.vaultDiscard
/-- DAWN_RESTORE_DONE (R317). -/
def execDawnRestoreDone (bad : RestoreBad) (s : State) : Out := s.act fun d => d.restoreDone bad
/-- VAULT_ERASE (R306). -/
def execVaultErase (bytes : Nat) (done : Bool) (s : State) : Out := s.act fun d => d.vaultErase bytes done

end Sys2Proof.Machine
end

