-- ==== Sys2Proof/Machine/Startup.lean ====
section
/-! DEFINITION. Start-up: what a start keeps, the power-on test, the choice of a firmware image, the start of BPS, training,
and the events that begin or hold a start (R324 to R333, R264, R283, R292, R295, R314, R375, R404). -/

set_option Elab.async false

namespace Sys2Proof.Machine

/-! ### What a start keeps (R333, R356, R375) -/

/-- Nanoseconds that a 15-bit sub-second count of the AON domain stands for, rounded down to 4 ns (R375). -/
def aonNs (sub : Nat) : Nat := sub * 30517578125 / 1000000 / 4 * 4

/-- The device at the beginning of a start: the pins, the AON domain's time and trim, the vault, the fuse counter, VLT_GLITCH
and dp_ref_lost remain; the content of both RAMs is undefined. -/
def Dev.restart (d : Dev) : Dev :=
  let s := d.sys
  let v := d.vlt
  let t := d.tmb
  let glitch := d.rd Reg.VLT_GLITCH_count
  let lost := d.rd Reg.SYS_CLK_dp_ref_lost
  let fuse := d.rd Reg.SYS_SVN_fuse
  let cut := commitBlks.filter fun b => d.rdB (Reg.COMMIT_STAT_busy.ix b.page)
  let d : Dev :=
    { ticks := d.ticks, freeCtr := d.freeCtr, emitted := d.emitted
      sys := { vddAon := true, perstN := s.perstN, pwrGood := s.pwrGood, pwrFailN := s.pwrFailN, brownout := s.brownout,
               refclk := s.refclk, dpRefclk := true }
      vlt := { area0 := v.area0, area1 := v.area1, groupBytes := v.groupBytes, measured := v.measured }
      tmb := { sec := t.aonSec, ns := aonNs t.aonSub, aonSec := t.aonSec, aonSub := t.aonSub, aonFrac := t.aonFrac,
               aonTrim := t.aonTrim } }
  let d := d.wr Reg.VLT_GLITCH_count glitch |>.wr Reg.SYS_CLK_dp_ref_lost lost |>.wr Reg.SYS_SVN_fuse fuse
    |>.wrB Reg.SYS_CLK_ref_src (!s.refclk) |>.wr Reg.TMB_TRIM_trim t.aonTrim |>.wr Reg.TMB_STAT_state 1
  let d := forEach cut (fun b d => d.wr (Reg.COMMIT_STAT_status.ix b.page) 8) d
  (d.bmeSpoil spScratch 0 (2 ^ 30)).bmeSpoil spMailbox 0 (256 * 1024)

/-- VDD_AON_APPLIED's effect (R333, R356, R374): the AON logic is reset too, and seconds start at 0. -/
def Dev.aonApplied (d : Dev) : Dev :=
  let d : Dev := { d with tmb := {}, sys := { d.sys with pwrGood := false, brownout := false } }
  ((d.restart.wr Reg.VLT_GLITCH_count 0).wr Reg.SYS_CLK_dp_ref_lost 0).wr Reg.TMB_STAT_state 0

/-! ### Firmware images (R331) -/

/-- Results of SYS_BOOT: OK. -/
def imgOk : Nat := 1

/-- The result of trying an image against the fuse counter (SYS_BOOT's values) (DESIGN CHOICE, log entry 52). -/
def imageResult (fuse : Nat) (x : FwImage) : Nat :=
  if !x.readOk then 6
  else if !x.magicOk || decide (14 * 2 ^ 20 - 256 < x.length) || decide (63 < x.svn) then 2
  else if Config.keyHash x.pubKey ≠ Config.fuseKeyHash then 3
  else if !Config.signatureOk x.pubKey x.digest x.signature then 4
  else if x.svn < fuse then 5
  else imgOk

/-- Write the result of one image into SYS_BOOT. -/
def Dev.bootResult (d : Dev) (isB : Bool) (r : Nat) : Dev :=
  if isB then d.wr Reg.SYS_BOOT_b_result r else d.wr Reg.SYS_BOOT_a_result r

/-- The directory copy that counts: valid, with the later sequence number (R331) (DESIGN CHOICE, log entry 52). -/
def bootPreferB (b : BootInput) : Bool :=
  match b.dir0.crcOk, b.dir1.crcOk with
  | true, true => if serialBefore b.dir0.seq b.dir1.seq then b.dir1.preferB else b.dir0.preferB
  | true, false => b.dir0.preferB
  | false, true => b.dir1.preferB
  | false, false => false

/-! ### BPS leaves reset (R264, R265, R283, R292, R295) -/

/-- One ADC is calibrated (R291, R295). -/
def Dev.adcStart (d : Dev) (adc : Nat) (tries : List AdcAttempt) : Dev :=
  match adcCalibrate 4 tries 1 with
  | .inl a => d.adcCorrect adc a
  | .inr why => d.adcUntrust adc why

/-- A stored record goes into force, with the time its LEARN is due (R279, R283). -/
def Dev.slotUsed (d : Dev) (r : HaloSlot) (isB : Bool) : Dev :=
  let d := (d.useRecord r).wrB Reg.BPS_PARAM_slot isB |>.wr Reg.BPS_PARAM_seq r.seq
  let pending := decide (r.resultReason % 256 = 1)
  let from_ := (if pending then r.pendTs.toNat else r.acceptedTs.toNat) / 2 ^ 30
  let days := if pending then 7 else d.rd Reg.BPS_LEARN_CFG_interval_days
  let due := d.ticks + (from_ + days * 86400 - d.tmb.sec) * ticksPerSec
  d.updBps fun x => { x with learnTick := due }

/-- The parameter slots as read at start (R283, R289). -/
def Dev.slotsRead (d : Dev) (b : BootInput) : Dev :=
  let a? := if b.slotA.crcOk then some b.slotA else none
  let b? := if b.slotB.crcOk then some b.slotB else none
  let d := d.wrB Reg.BPS_PARAM_a_ok b.slotA.crcOk |>.wrB Reg.BPS_PARAM_b_ok b.slotB.crcOk
  let d := d.updBps fun x => { x with slotA := a?, slotB := b? }
  let t := d.ticks
  let dueNow (d : Dev) : Dev := d.updBps fun x => { x with learnTick := t }
  let use : Option (HaloSlot × Bool) := match a?, b? with
    | some x, some y => if serialBefore x.seq y.seq then some (y, true) else some (x, false)
    | some x, none => some (x, false)
    | none, some y => some (y, true)
    | none, none => none
  match use with
  | none => dueNow (((d.wr Reg.BPS_Q_learned (d.rd Reg.BPS_Q_design)).errUncorr .bps 3).alarm 8)
  | some (r, isB) =>
    let d := d.slotUsed r isB
    let d := if a?.isNone || b?.isNone then dueNow (d.errCorr .bps 2) else d
    let same := match b.batt with
      | some p => decide (p.designMah = r.designMah ∧ p.chemistry = r.chemistry ∧ p.n = r.n)
      | none => true
    if same then d else d.newPack

/-- BPS starts (R327 step 3): Halo in cause DAWN without a bound for its first second, the charger held until nothing inhibits
it, the profile checked, both ADCs calibrated. -/
def Dev.bpsStart (d : Dev) (b : BootInput) : Dev :=
  let d := d.updBps fun x => { x with batt := b.batt, bcal := b.bcal, dusk := b.dusk, firstSecond := true }
  let d := d.wr Reg.BPS_Q_design ((b.batt.map BattProfile.designMah).getD 0)
  let d := d.setInhibit 5 true
  let d := if d.batt.isNone then ((d.setInhibit 6 true).errUncorr .bps 6).alarm 9 else d
  let cal := b.bcal.filter CalProfile.crcOk
  let d := forEach (List.range 7) (fun c d => match cal with
    | some x => d.wr (Reg.BPS_CH_GAIN_gain.ix c) (x.gains.getD c 0)
        |>.wr (Reg.BPS_CH_OFS_adc0.ix c) (codeOf 16 (x.offsets.getD c 0))
        |>.wr (Reg.BPS_CH_OFS_adc1.ix c) (codeOf 16 (x.offsets.getD c 0))
    | none => d) d
  let d := (d.wr Reg.BPS_R_r_dc d.designR).slotsRead b
  let d := (d.adcStart 0 (b.adcCal.getD 0 [])).adcStart 1 (b.adcCal.getD 1 [])
  ((d.refreshNoAdc).refreshHalo).refreshPower

/-! ### The start-up sequence (R327) -/

/-- Core pairs that passed the power-on test. -/
def bootPairs (b : BootInput) : List Nat := (List.range 3).filter fun n => b.pairsOk.getD n true

/-- Blocks with a failure in the power-on test, as SYS_SELFTEST shows them. -/
def bootBad (b : BootInput) : Nat :=
  (if b.otherOk then 0 else b.failedBlocks % 2 ^ 16) |||
  (if (bootPairs b).length < 3 then 2 ^ Blk.ccx.page else 0) |||
  (if b.eceLanesOk.getD 0 true && b.eceLanesOk.getD 1 true then 0 else 2 ^ Blk.ece.page) |||
  (if b.smcOk then 0 else 2 ^ Blk.smc.page)

/-- CCX starts the firmware (R327, R329, R346): the pairs that passed run, a third one stands by. -/
def Dev.ccxStart (d : Dev) (b : BootInput) : Dev :=
  let up := (bootPairs b)
  let d := forEach (List.range 3) (fun n d =>
    d.wr (Reg.CCX_PAIR_state.ix n) (if !up.contains n then 3 else if up.length = 3 ∧ n = 2 then 1 else 0)) d
  { d with ccx := { d.ccx with role0 := up[0]?, role1 := up[1]? } }

/-- Step 5: CCX, SMC, ECE, the vault and the drive clusters start; DRAM trains. -/
def Dev.trainStart (d : Dev) (b : BootInput) : Dev :=
  let d : Dev := { d with sys := { d.sys with pdMem := true } }
  let d := (d.setPhase phTrain).ccxStart b
  let d := forEach (allBlks.filter fun x => x ≠ .smc) (fun x d => d.setState x stIdle) d
  let d := forEach (List.range 8) (fun c d => d.wr (Reg.BME_CH_STAT_state.ix c) 0) d
  let d := forEach ((List.range 2).filter fun i => !b.eceLanesOk.getD i true) (fun i d => d.laneFail i) d
  let d := if b.smcOk then d.smcResetStart true else
    (d.wr Reg.SMC_BIST_result bistFail).updSmc fun s => { s with newKey := true }
  (d.prepareVault b.vaultDies b.vaultGroupBytes).dpxStart

/-- Step 4: an image is chosen (R331). -/
def Dev.imageChoose (d : Dev) (b : BootInput) : Dev :=
  let fuse := d.rd Reg.SYS_SVN_fuse
  let pref := bootPreferB b
  let img (isB : Bool) : FwImage := if isB then b.imageB else b.imageA
  let r1 := imageResult fuse (img pref)
  let r2 := imageResult fuse (img (!pref))
  let run (d : Dev) (isB : Bool) : Dev :=
    (d.wrB Reg.SYS_BOOT_running isB |>.wr Reg.SYS_FW_VER_version (img isB).version |>.wr Reg.SYS_SVN_image (img isB).svn).trainStart b
  let d := (d.wrB Reg.SYS_BOOT_preferred pref).bootResult pref r1
  if r1 = imgOk then run d pref
  else
    let d := d.bootResult (!pref) r2
    if r2 = imgOk then run (d.errCorr .sys 2) (!pref)
    else (d.errUncorr .sys 3).setPhase phNoImage

/-- HIF's power and configuration space come up; the link trains where PERST_N is high (R20, R55, R327). -/
def Dev.hifStart (d : Dev) (b : BootInput) : Dev :=
  let d : Dev := { d with sys := { d.sys with pdHphy := d.sys.perstN } }
  let d := (d.updHif fun h => { h with subsystem := b.subsystem }).setState .hif stIdle
  if d.sys.perstN then d.linkTrain.cfgNotReady ticksPerSec else d

/-- Steps 2 and 3: the power-on test (R329), then the board's data are read (DESIGN CHOICE, log entry 52). -/
def Dev.testAndBoot (d : Dev) (b : BootInput) : Dev :=
  let bad := bootBad b
  let ok := b.otherOk && decide (2 ≤ (bootPairs b).length)
  let d := d.wr Reg.SYS_SELFTEST_blocks bad
    |>.wr Reg.SYS_SELFTEST_pairs_ok (((bootPairs b).map fun n => 2 ^ n).sum)
  let d := if bad = 0 && ok then d else d.causeBit .sys 19
  let d := d.setState .sys stIdle
  if !ok then ((d.errUncorr .sys 6).setPhase phFailed).hifStart b
  else
    let d := if bad = 0 then d else d.errCorr .sys 1
    let d := (((d.setPhase phBoot).hifStart b).setState .bps stIdle).bpsStart b
    let d : Dev := { d with dpx := { d.dpx with sgpioMap := b.sgpioPorts } }
    d.imageChoose b

/-- The straps are latched (R325). -/
def Dev.latchStraps (d : Dev) (b : BootInput) : Dev :=
  d.wr Reg.SYS_STRAP_boot_mode b.bootMode |>.wr Reg.SYS_STRAP_smb_addr b.smbAddr

/-- A start from the rising edge of PWR_GOOD (R327). -/
def Dev.startUp (d : Dev) (b : BootInput) : Dev :=
  let d := d.restart.latchStraps b
  let fuse := max (d.rd Reg.SYS_SVN_fuse) (Config.fuseSvn % 64)
  let d := d.wr Reg.SYS_SVN_fuse fuse
  let d : Dev := { d with sys := { d.sys with pdMain := true, bootInput := some b } }
  if d.rd Reg.SYS_STRAP_boot_mode = 3 then d.setPhase phHold else d.testAndBoot b

/-! ### The events -/

/-- PWR_GOOD_RISE's effect (R325, R327, R404) (DESIGN CHOICE, log entry 52). -/
def Dev.pwrGoodRise (d : Dev) (b : BootInput) : Dev :=
  if d.sys.pwrGood then d
  else
    let d : Dev := { d with sys := { d.sys with pwrGood := true, brownout := false, waitFail := false } }
    let d := d.latchStraps b
    if d.sys.sleeping then d
    else if d.sys.pdMain && decide (d.phase < phNoImage) then d.refreshPower
    else if d.sys.pwrFailN then d.startUp b
    else { d with sys := { d.sys with waitFail := true, bootInput := some b } }

/-- PWR_FAIL_RELEASE's effect (R404). -/
def Dev.pwrFailRelease (d : Dev) : Dev :=
  let d : Dev := { d with sys := { d.sys with pwrFailN := true } }
  if d.sys.waitFail && d.sys.pwrGood then
    match d.sys.bootInput with
    | some b => d.startUp b
    | none => d
  else if d.sys.pdMain then d.refreshPower else d

/-- SLEEP_EXIT's effect (R314): the supply has been good for 100 ms, so no brown-out is present. -/
def Dev.sleepExit (d : Dev) (b : BootInput) : Dev :=
  let d : Dev := if d.sys.sleeping then { d with sys := { d.sys with brownout := false } } else d
  if d.sys.sleeping && d.mainGood d.sys.sleepReason then d.startUp b else d

/-- HOLD_RELEASE's effect (R325). -/
def Dev.holdReleased (d : Dev) (b : BootInput) : Dev :=
  if d.sys.pdMain && decide (d.phase = phHold) then
    ({ d with sys := { d.sys with bootInput := some b } } : Dev).testAndBoot b
  else d

/-- DRAM_TRAINING_DONE's effect (R150, R327 step 6): a channel without a DIMM is ABSENT, one that does not train is LOST, and
either fails its group; with no group left there is no Dawn (R407) (DESIGN CHOICE, log entry 52). -/
def Dev.dramTrained (d : Dev) (trained : List Bool) (gib : List Nat) : Dev :=
  if d.phase ≠ phTrain then d
  else
    let here := (List.range 12).filter fun c => gib.getD c 0 ≠ 0
    let d := forEach (List.range 12) (fun c d =>
      if gib.getD c 0 = 0 then d.setChan c chanAbsent
      else if trained.getD c false then d.setChan c chanOk
      else (d.setChan c chanLost).errUncorr .pwc 7) d
    let good (g : Group) : Bool := (List.range 6).all fun i => decide (d.chanState (groupBase g + i) = chanOk)
    let d := d.wr Reg.PWC_POOL_group_gib (6 * ((here.map fun c => gib.getD c 0).min?).getD 0)
    let d := forEach [Group.a, Group.b] (fun g d => if good g then d else (d.setGroup g grFailed).causeBit .pwc 19) d
    if !good .a && !good .b then d.loseBoth
    else (((d.setPhase phDawn).recompute).refreshVault.dawnChoose).refreshMode

/-- IMAGE_BACKGROUND_CHECK's effect (R332). -/
def Dev.backgroundCheck (d : Dev) (x : FwImage) : Dev :=
  let runB := d.rdB Reg.SYS_BOOT_running
  let other := d.rd (if runB then Reg.SYS_BOOT_a_result else Reg.SYS_BOOT_b_result)
  if d.phase ≠ phReady || decide (other ≠ 0) || decide (d.rdB Reg.SYS_BOOT_preferred ≠ runB) then d
  else
    let r := imageResult (d.rd Reg.SYS_SVN_fuse) x
    let d := d.bootResult (!runB) r
    if r = imgOk then d.wr Reg.SYS_SVN_fuse (max (d.rd Reg.SYS_SVN_fuse) (min x.svn (d.rd Reg.SYS_SVN_image))) else d

/-! ### Meanings -/

/-- VDD_AON_APPLIED (R333). -/
def execVddAonApplied (s : State) : Out := s.act Dev.aonApplied
/-- PWR_GOOD_RISE (R327). -/
def execPwrGoodRise (b : BootInput) (s : State) : Out := s.act fun d => d.pwrGoodRise b
/-- PWR_FAIL_RELEASE (R404). -/
def execPwrFailRelease (s : State) : Out := s.act Dev.pwrFailRelease
/-- SLEEP_EXIT (R314). -/
def execSleepExit (b : BootInput) (s : State) : Out := s.act fun d => d.sleepExit b
/-- HOLD_RELEASE (R325). -/
def execHoldRelease (b : BootInput) (s : State) : Out := s.act fun d => d.holdReleased b
/-- DRAM_TRAINING_DONE (R327). -/
def execDramTrainingDone (trained : List Bool) (dimmGib : List Nat) (s : State) : Out :=
  s.act fun d => d.dramTrained trained dimmGib
/-- IMAGE_BACKGROUND_CHECK (R332). -/
def execImageBackgroundCheck (image : FwImage) (s : State) : Out := s.act fun d => d.backgroundCheck image

end Sys2Proof.Machine
end

