-- ==== Sys2Proof/Machine/Thermal.lean ====
section
/-! DEFINITION. Reference clocks, thermal sensors, throttle steps and SYS_THERM_CFG (R335 to R339). -/

set_option Elab.async false

namespace Sys2Proof.Machine

/-! ### Reference clocks (R335, R339) -/

/-- PE_REFCLK stops, or comes back: REF changes its source. -/
def Dev.refSwitch (d : Dev) (present : Bool) : Dev :=
  if d.sys.refclk = present then d
  else
    let d : Dev := { d with sys := { d.sys with refclk := present } }
    if !d.sys.pdMain then d
    else
      let d := (d.wrB Reg.SYS_CLK_ref_src (!present)).causeBit .sys 18
      if present then d else d.errCorr .sys 5

/-- DP_REFCLK_LOST's effect: the AON brown-out detector trips. -/
def Dev.dpRefLost (d : Dev) : Dev :=
  if !d.sys.pdMain || !d.sys.dpRefclk then d
  else
    let d : Dev := { d with sys := { d.sys with dpRefclk := false } }
    ((d.wr Reg.SYS_CLK_dp_ref_lost 1).errUncorr .sys 7).brownout

/-! ### Sensors (R336, R338) -/

/-- Reading of a sensor in 0.25 °C. -/
def Dev.sensor (d : Dev) (s : Nat) : Int := signedOf 16 (d.rd (Reg.SYS_TEMP_temp.ix s))

/-- T_max, in 0.25 °C. -/
def Dev.tMax (d : Dev) : Int := d.sensor (d.rd Reg.SYS_THERM_STAT_hottest)

/-- THERMAL_SAMPLE's effect (DESIGN CHOICE, log entry 53). -/
def Dev.thermalSample (d : Dev) (temps : List Int) : Dev :=
  let d := forEach (List.range 8) (fun s d => d.wr (Reg.SYS_TEMP_temp.ix s) (codeOf 16 (temps.getD s 0))) d
  let hot := (List.range 8).foldl (fun (h s : Nat) => if d.sensor h < d.sensor s then s else h) 0
  let d := d.wr Reg.SYS_THERM_STAT_hottest hot
  d.wr Reg.SYS_THERM_MAX_peak (codeOf 16 (max (signedOf 16 (d.rd Reg.SYS_THERM_MAX_peak)) d.tMax))

/-- Threshold of a throttle step in °C (R336). -/
def Dev.threshold (d : Dev) (step : Nat) : Int :=
  match step with
  | 1 => d.rd Reg.SYS_THERM_CFG_warn_c
  | 2 => d.rd Reg.SYS_THERM_CFG_throttle_c
  | 3 => d.rd Reg.SYS_THERM_CFG_throttle_c + 3
  | _ => d.rd Reg.SYS_THERM_CFG_trip_c

/-- Whether T_max allows a change of step: at or above the threshold of a higher step, or below the thresholds of the steps
left less the hysteresis. -/
def Dev.stepHolds (d : Dev) (new : Nat) : Bool :=
  let old := d.rd Reg.SYS_THERM_STAT_step
  if old < new then decide (new ≤ 4 ∧ 4 * d.threshold new ≤ d.tMax)
  else if new < old then decide (d.tMax < 4 * (d.threshold (new + 1) - d.rd Reg.SYS_THERM_CFG_hyst_c))
  else false

/-- THROTTLE_STEP's effect: THERMAL is posted; a trip starts Dusk (DESIGN CHOICE, log entry 53). -/
def Dev.throttleStep (d : Dev) (new : Nat) : Dev :=
  if !d.sys.pdMain || !d.stepHolds new then d
  else
    let d := (d.wr Reg.SYS_THERM_STAT_step new).causeBit .sys 17
    let d := d.post 0xA0 2 (d.rd Reg.SYS_THERM_STAT_hottest) (codeOf 32 (d.tMax * 10 / 4)) new 0
    if new = 4 then (d.errUncorr .sys 4).duskTrigger 3 else d

/-- A value held between two bounds. -/
def clampNat (lo hi v : Nat) : Nat := max lo (min hi v)

/-- THERM_CFG_WRITE's effect (R9, R338): nothing while SYS_LOCK bit 0 is set; each field takes the nearest limit of its range,
which for throttle_c and warn_c follows from the field above. -/
def Dev.thermCfg (d : Dev) (v : Nat) : Dev :=
  if d.locked 0 then d
  else
    let trip := clampNat 105 115 (bitsOf v 31 24)
    let throttle := clampNat 90 (trip - 5) (bitsOf v 23 16)
    let warn := clampNat 70 throttle (bitsOf v 15 8)
    d.wr Reg.SYS_THERM_CFG_trip_c trip |>.wr Reg.SYS_THERM_CFG_throttle_c throttle |>.wr Reg.SYS_THERM_CFG_warn_c warn
      |>.wr Reg.SYS_THERM_CFG_hyst_c (clampNat 2 10 (bitsOf v 7 0))

/-! ### Meanings -/

/-- PE_REFCLK_LOST (R335). -/
def execPeRefclkLost (s : State) : Out := s.act fun d => d.refSwitch false
/-- PE_REFCLK_RESTORED (R335). -/
def execPeRefclkRestored (s : State) : Out := s.act fun d => d.refSwitch true
/-- DP_REFCLK_LOST (R335). -/
def execDpRefclkLost (s : State) : Out := s.act Dev.dpRefLost
/-- THERMAL_SAMPLE (R336). -/
def execThermalSample (temps : List Int) (s : State) : Out := s.act fun d => d.thermalSample temps
/-- THROTTLE_STEP (R336). -/
def execThrottleStep (step : Nat) (s : State) : Out := s.act fun d => d.throttleStep step
/-- THERM_CFG_WRITE (R338). -/
def execThermCfgWrite (v : Dword) (s : State) : Out := onPage .sys true s fun d => d.thermCfg v.toNat

end Sys2Proof.Machine
end

