-- ==== Sys2Proof/Machine/Ccx.lean ====
section
/-! DEFINITION. The control core pairs and their roles, store rollbacks, pair tests, and the firmware slots (R343 to R347, R353,
R357 to R364). -/

set_option Elab.async false

namespace Sys2Proof.Machine

/-! ### Pairs and roles (R343 to R347, R357) -/

/-- Change CCX state beside its registers. -/
def Dev.updCcx (d : Dev) (g : CcxState → CcxState) : Dev := { d with ccx := g d.ccx }

/-- States of CCX_PAIR: ACTIVE. -/
def cpActive : Nat := 0
/-- STANDBY. -/
def cpStandby : Nat := 1
/-- TESTING. -/
def cpTesting : Nat := 2
/-- EXCLUDED. -/
def cpExcluded : Nat := 3

/-- State of a pair. -/
def Dev.pairState (d : Dev) (n : Nat) : Nat := d.rd (Reg.CCX_PAIR_state.ix n)
/-- Write a pair's state. -/
def Dev.setPair (d : Dev) (n st : Nat) : Dev := d.wr (Reg.CCX_PAIR_state.ix n) st
/-- The pairs in a state. -/
def Dev.pairsIn (d : Dev) (st : Nat) : List Nat := (List.range 3).filter fun n => d.pairState n = st

/-- The pair that holds a role. -/
def Dev.holder (d : Dev) (role : Nat) : Option Nat := if role = 0 then d.ccx.role0 else d.ccx.role1

/-- Every role of one pair moves to another (R345, R347). -/
def Dev.moveRoles (d : Dev) (p q : Nat) : Dev :=
  let mv (r : Option Nat) : Option Nat := if r = some p then some q else r
  d.updCcx fun c => { c with role0 := mv c.role0, role1 := mv c.role1 }

/-- Bound of a device-wide stall, in ns (R341). -/
def stallBound : Nat := 40000

/-- A mismatch is counted on a pair. -/
def Dev.countMismatch (d : Dev) (p : Nat) : Dev :=
  let t := d.ticks
  let d := (d.incSat (Reg.CCX_PAIR_mismatches.ix p)).wr (Reg.CCX_PAIR_HI_last_sec.ix p) d.tmb.sec
  d.updCcx fun c => { c with mismatchTimes := Tbl.put c.mismatchTimes p (t :: Tbl.getD c.mismatchTimes p []) }

/-- PAIR_MISMATCH's effect (R345, R347): the standby pair takes the failed pair's roles, else the other active pair, else CCX
is in FAULT. A standby pair holds no role and only goes to its test (DESIGN CHOICE, log entry 54). -/
def Dev.pairMismatch (d : Dev) (p stall : Nat) : Dev :=
  if d.pairState p = cpStandby then ((d.countMismatch p).errCorr .ccx 2).setPair p cpTesting
  else if d.pairState p ≠ cpActive then d
  else
    let d := (d.countMismatch p).fwAbandon.setPair p cpTesting
    let stall := min stall stallBound
    match d.pairsIn cpStandby, d.pairsIn cpActive with
    | q :: _, _ => ((((d.setPair q cpActive).moveRoles p q).errCorr .ccx 2).causeBit .ccx 16).squall .ccx 1 stall
    | [], q :: _ => (((d.moveRoles p q).errCorr .ccx 2).causeBit .ccx 16).squall .ccx 2 stall
    | [], [] =>
      let d := d.updCcx fun c => { c with role0 := none, role1 := none }
      (((d.setState .ccx stFault).causeBit .ccx 19).errUncorr .ccx 5).squall .ccx 4 0xFFFFFFFF

/-- STORE_UNCORRECTABLE's effect (R345): the role rolls back on its own pair (DESIGN CHOICE, log entry 54). -/
def Dev.storeBad (d : Dev) (role stall : Nat) : Dev :=
  if (d.holder role).isNone then d
  else
    let d := ((d.incSat Reg.CCX_STORE_uncorr).fwAbandon.errCorr .ccx 4).causeBit .ccx 16
    d.squall .ccx 3 (min stall stallBound)

/-- CHECKPOINT's effect (R344): the copies are written alternately. -/
def Dev.checkpointDone (d : Dev) (role : Nat) : Dev :=
  if (d.holder role).isNone then d
  else d.updCcx fun c => { c with checkpoints := Tbl.put c.checkpoints role (Tbl.getD c.checkpoints role 0 + 1) }

/-- PAIR_TEST_DONE's effect (R346) (DESIGN CHOICE, log entry 54). -/
def Dev.pairTestDone (d : Dev) (p : Nat) (pass : Bool) : Dev :=
  if d.pairState p ≠ cpTesting then d
  else
    let recent := (Tbl.getD d.ccx.mismatchTimes p []).filter fun t => decide (d.ticks < t + 86400 * ticksPerSec)
    let asked := d.ccx.retests.contains p
    let d := d.updCcx fun c => { c with
      mismatchTimes := Tbl.put c.mismatchTimes p recent, retests := c.retests.filter fun n => n ≠ p }
    if pass && (asked || decide (recent.length < 3)) then
      let d := d.causeBit .ccx 18
      if (d.pairsIn cpStandby ++ d.pairsIn cpActive).length ≤ 1 && decide (d.blkState .ccx ≠ stFault) then
        (d.setPair p cpActive).updCcx fun c => { c with role1 := some p }
      else d.setPair p cpStandby
    else ((d.setPair p cpExcluded).causeBit .ccx 17).errUncorr .ccx 3

/-- CCX_CTRL.retest (R357). -/
def Dev.pairRetest (d : Dev) (bits : Nat) : Dev :=
  forEach ((List.range 3).filter (bitOf bits)) (fun n d =>
    if d.pairState n = cpExcluded then
      (d.setPair n cpTesting).updCcx fun c => { c with retests := c.retests ++ [n] }
    else d) d

/-! ### Firmware (R360 to R364) -/

/-- The slot that is not running: B where A runs. -/
def Dev.otherSlotB (d : Dev) : Bool := !d.rdB Reg.SYS_BOOT_running

/-- A firmware request is refused with a result (R360, R361) (DESIGN CHOICE, log entry 54). -/
def Dev.fwRefuse (d : Dev) (result : Nat) : Dev := d.wr Reg.CCX_FW_STAT_result result

/-- CCX_FW_CTRL.write. -/
def Dev.fwWrite (d : Dev) : Dev :=
  let off := d.rd Reg.CCX_FW_SRC_offset
  let len := d.rd Reg.CCX_FW_LEN_bytes
  if d.ccx.fwOp ≠ .idle then (d.fwRefuse 8).refuse .ccx
  else if 14 * 2 ^ 20 < len ∨ off % 4096 ≠ 0 ∨ d.rd Reg.PWC_SCRATCH_mib * 2 ^ 20 < off + len then d.fwRefuse 7
  else
    let d := d.updCcx fun c => { c with fwOp := .writing }
    ((d.wr Reg.CCX_FW_STAT_busy 1).wr Reg.CCX_FW_STAT_op 1).emit (.spiImage d.otherSlotB off len)

/-- FW_WRITE_DONE's effect. -/
def Dev.fwWriteDone (d : Dev) (x : FwImage) (readBackOk : Bool) : Dev :=
  if d.ccx.fwOp ≠ .writing then d
  else
    let picked := d.ccx.fwPicked
    let d := d.fwEnd (if readBackOk then imageResult (d.rd Reg.SYS_SVN_fuse) x else 6)
    d.updCcx fun c => { c with fwPicked := picked }

/-- CCX_FW_CTRL.activate: refused, or requested from the arbiter (R361) (DESIGN CHOICE, log entry 54). -/
def Dev.fwActivate (d : Dev) (x : FwImage) : Dev :=
  let r := imageResult (d.rd Reg.SYS_SVN_fuse) x
  if d.ccx.fwOp ≠ .idle then (d.fwRefuse 8).refuse .ccx
  else if d.phase ≠ phReady then (d.fwRefuse 9).refuse .ccx
  else if d.blkState .ccx = stFault then (d.fwRefuse 10).refuse .ccx
  else if d.pairsIn cpStandby = [] then (d.fwRefuse 11).refuse .ccx
  else if r ≠ imgOk then d.fwRefuse r
  else (d.updCcx fun c => { c with fwPicked := some x }).arbRequest .fwActivate wholeDevice

/-- FW_ACTIVATION_DONE's effect. -/
def Dev.fwDone (d : Dev) (e : FwEnd) : Dev :=
  match d.ccx.fwOp, d.ccx.fwPicked with
  | .activating, some x =>
    match e with
    | .done us =>
      let isB := d.otherSlotB
      let seq := match d.sys.bootInput with
        | some b => (if serialBefore b.dir0.seq b.dir1.seq then b.dir1.seq else b.dir0.seq) + 1
        | none => 1
      let d := d.wrB Reg.SYS_BOOT_running isB |>.wrB Reg.SYS_BOOT_preferred isB |>.wr Reg.SYS_FW_VER_version x.version
        |>.wr Reg.SYS_SVN_image x.svn |>.wr Reg.CCX_FW_STAT_pause_us (min us 200)
      let d := (d.emit (.spiDirectory isB seq)).fwEnd imgOk
      let d := d.post 0x90 1 (b2n isB) x.version (min us 200) 0
      d.actEnd .fwActivate wholeDevice
    | .slotFails r => (d.fwEnd r).actEnd .fwActivate wholeDevice
    | .roleFailsStep2 => d.fwAbandon
    | .roleFailsStep3 us => (d.wr Reg.CCX_FW_STAT_pause_us (min us 200)).fwAbandon
  | _, _ => d

/-! ### Meanings -/

/-- PAIR_MISMATCH (R343). -/
def execPairMismatch (pair stallNs : Nat) (s : State) : Out := onUnit (decide (pair < 3)) s fun d => d.pairMismatch pair stallNs
/-- STORE_UNCORRECTABLE (R345). -/
def execStoreUncorrectable (role stallNs : Nat) (s : State) : Out :=
  onUnit (decide (role < 2)) s fun d => d.storeBad role stallNs
/-- CHECKPOINT (R344). -/
def execCheckpoint (role : Nat) (s : State) : Out := onUnit (decide (role < 2)) s fun d => d.checkpointDone role
/-- PAIR_TEST_DONE (R346). -/
def execPairTestDone (pair : Nat) (pass : Bool) (s : State) : Out :=
  onUnit (decide (pair < 3)) s fun d => d.pairTestDone pair pass
/-- PAIR_RETEST (R357). -/
def execPairRetest (bits : Nat) (s : State) : Out := onPage .ccx true s fun d => d.pairRetest bits
/-- FW_WRITE (R360). -/
def execFwWrite (s : State) : Out := onPage .ccx true s Dev.fwWrite
/-- FW_WRITE_DONE (R360). -/
def execFwWriteDone (image : FwImage) (readBackOk : Bool) (s : State) : Out := s.act fun d => d.fwWriteDone image readBackOk
/-- FW_ACTIVATE (R361). -/
def execFwActivate (image : FwImage) (s : State) : Out := onPage .ccx true s fun d => d.fwActivate image
/-- FW_ACTIVATION_DONE (R361). -/
def execFwActivationDone (e : FwEnd) (s : State) : Out := s.act fun d => d.fwDone e

end Sys2Proof.Machine
end

