-- ==== Sys2Proof/Machine/Timebase.lean ====
section
/-! DEFINITION. The timebase: the count, PPS capture and discipline, setting the seconds, and the passing of time (R369 to
R378). -/

set_option Elab.async false

namespace Sys2Proof.Machine

/-- Change TMB state beside its registers. -/
def Dev.updTmb (d : Dev) (g : TmbState → TmbState) : Dev := { d with tmb := g d.tmb }

/-- States of TMB_STAT: FREE. -/
def tmFree : Nat := 0
/-- ACQUIRE. -/
def tmAcquire : Nat := 1
/-- LOCKED. -/
def tmLocked : Nat := 2
/-- HOLDOVER. -/
def tmHoldover : Nat := 3

/-- TRIM_MAX (R372). -/
def trimMax : Int := 85899346

/-- The trim in force: values beyond trim_max act as the limit (R377). -/
def Dev.trim (d : Dev) : Int := clampInt (-trimMax) trimMax (signedOf 32 (d.rd Reg.TMB_TRIM_trim))

/-- TMB_CFG.delay_ns, a multiple of 4. -/
def Dev.ppsDelay (d : Dev) : Nat := d.rd Reg.TMB_CFG_delay_ns / 4 * 4

/-- Whether PPS is captured: main power, TMB not OFF, PPS enabled. -/
def Dev.ppsOn (d : Dev) : Bool :=
  d.sys.pdMain && decide (d.blkState .tmb ≠ stOff) && decide (d.rd Reg.TMB_STAT_state ≠ tmFree)

/-- Write TMB_STAT.state; entering LOCKED sets its cause. -/
def Dev.setTmb (d : Dev) (st : Nat) : Dev :=
  let d := if st = tmLocked ∧ d.rd Reg.TMB_STAT_state ≠ tmLocked then d.causeBit .tmb 17 else d
  d.wr Reg.TMB_STAT_state st

/-- Seconds and nanoseconds are written. -/
def Dev.setTime (d : Dev) (sec ns : Nat) : Dev := d.updTmb fun t => { t with sec := sec % 2 ^ 34, ns := ns, frac := 0 }

/-- A pending seconds value is applied (R374): 1 at an edge, 2 at a wrap (DESIGN CHOICE, log entry 55). -/
def Dev.setApplied (d : Dev) (how : Nat) : Dev :=
  let d := d.updTmb fun t => { t with setPending := none }
  ((d.wr Reg.TMB_SET_CTRL_pending 0).wr Reg.TMB_SET_CTRL_applied how).causeBit .tmb 19

/-! ### Edges (R371 to R374) -/

/-- The step of ACQUIRE: the edge reads a whole second, the nearest or the one that is pending
(DESIGN CHOICE, log entry 55). -/
def Dev.ppsStep (d : Dev) (cap : Int) : Dev :=
  let whole := ((cap + 500000000) / 1000000000 % (2 ^ 34 : Nat)).toNat
  let sec := d.tmb.setPending.getD whole
  let d := if d.tmb.setPending.isSome then d.setApplied 1 else d
  let d := ((d.setTime sec d.ppsDelay).incSat Reg.TMB_CNT_steps).causeBit .tmb 18
  let d := (d.wr Reg.TMB_PPS_TS_ts (sec % 2 ^ 34 * 2 ^ 30)).wr Reg.TMB_STAT_missed 0
  (d.updTmb fun t => { t with lastInSec := sec % 2 ^ 34, outEdge := none, slew := 0, slewLeft := 0 }).setTmb tmLocked

/-- The adjustment of R372: integer divisions truncate towards zero (DESIGN CHOICE, log entry 55). -/
def Dev.ppsLocked (d : Dev) (e : Int) : Dev :=
  let f := (e * 2 ^ 32).tdiv 250000000
  let trim := clampInt (-trimMax) trimMax (d.trim - f.tdiv 8)
  let atLimit := decide (trim.natAbs = trimMax.natAbs)
  let run := if atLimit then d.tmb.limitRun + 1 else 0
  let d := d.wr Reg.TMB_TRIM_trim (codeOf 32 trim)
  let d := d.updTmb fun t => { t with slew := -f, slewLeft := ticksPerSec, limitRun := run }
  if run = 10 then d.errUncorr .tmb 3 else d

/-- An in-window edge in LOCKED or HOLDOVER: the count is disciplined, and a pending value becomes the edge's second
(DESIGN CHOICE, log entry 55). -/
def Dev.ppsUse (d : Dev) (cap e : Int) : Dev :=
  let sec := (cap / 1000000000 % (2 ^ 34 : Nat)).toNat
  let ts := sec * 2 ^ 30 + (cap % 1000000000).toNat / 4 * 4
  let d := (d.ppsLocked e).wr Reg.TMB_STAT_missed 0 |>.wr Reg.TMB_PPS_TS_ts ts
  let d := (d.updTmb fun t => { t with lastInSec := sec, outEdge := none }).setTmb tmLocked
  match d.tmb.setPending with
  | some p =>
    let d := ((d.setApplied 1).setTime p d.ppsDelay).incSat Reg.TMB_CNT_steps
    d.updTmb fun t => { t with lastInSec := p, slew := 0, slewLeft := 0 }
  | none => d

/-- PPS_EDGE's effect. `jitter` is the capture uncertainty of R403 in ns (DESIGN CHOICE, log entry 55). -/
def Dev.ppsEdge (d : Dev) (falling : Bool) (jitter : Int) : Dev :=
  if !d.ppsOn || decide (d.rdB Reg.TMB_CFG_edge ≠ falling) then d
  else
    let cap : Int := d.tmb.sec * 1000000000 + d.tmb.ns + clampInt (-8) 8 jitter - d.ppsDelay
    let n := cap % 1000000000
    let e := if n < 500000000 then n else n - 1000000000
    let inside := decide (e.natAbs ≤ 2000000)
    let d := d.wr Reg.TMB_PPS_ERR_e_ns (codeOf 32 e)
    if d.rd Reg.TMB_STAT_state = tmAcquire then d.ppsStep cap
    else if inside then d.ppsUse cap e
    else
      let d := (d.incSat Reg.TMB_CNT_outliers).errCorr .tmb 1
      if d.rd Reg.TMB_STAT_state ≠ tmHoldover then d
      else match d.tmb.outEdge with
        | some c =>
          if (cap - c - 1000000000).natAbs ≤ 100000 then d.ppsStep cap
          else d.updTmb fun t => { t with outEdge := some cap }
        | none => d.updTmb fun t => { t with outEdge := some cap }

/-- PPS_MISS's effect. -/
def Dev.ppsMiss (d : Dev) : Dev :=
  if !d.ppsOn || decide (d.rd Reg.TMB_STAT_state ≠ tmLocked) then d
  else
    let d := d.incSat Reg.TMB_STAT_missed
    if d.rd Reg.TMB_STAT_missed < 3 then d
    else
      let d := (d.updTmb fun t => { t with slew := 0, slewLeft := 0, outEdge := none }).setTmb tmHoldover
      ((d.causeBit .tmb 16).errCorr .tmb 2).post 0x80 2 3 (d.tmb.lastInSec % 2 ^ 32) 0 0

/-- TMB goes to FREE: the trim is held, the slew stops. -/
def Dev.tmbFree (d : Dev) : Dev :=
  ((d.updTmb fun t => { t with slew := 0, slewLeft := 0, outEdge := none }).setTmb tmFree).wr Reg.TMB_STAT_missed 0

/-- TMB_CFG.pps_en. -/
def Dev.ppsEnable (d : Dev) (on : Bool) : Dev :=
  let d := d.wrB Reg.TMB_CFG_pps_en on
  if !on then d.tmbFree
  else if d.rd Reg.TMB_STAT_state = tmFree ∧ d.blkState .tmb ≠ stOff ∧ d.sys.pdMain then d.setTmb tmAcquire
  else d

/-- TMB_SET_CTRL.arm (R374). -/
def Dev.timeArm (d : Dev) : Dev :=
  let sec := d.rd Reg.TMB_SET_SEC_sec
  let due := d.ticks + 375000000
  (d.updTmb fun t => { t with setPending := some sec, armDue := due }).wr Reg.TMB_SET_CTRL_pending 1

/-! ### The passing of time (R369, R374, R375) -/

/-- What a tick adds to the accumulator without slew, in units of 2^-32 ns. -/
def Dev.tickUnits (d : Dev) : Int := 4 * 2 ^ 32 + d.trim

/-- The seconds wrap: a pending value that is due is applied, and the AON count is reloaded. -/
def Dev.wrapped (d : Dev) : Dev :=
  let d := match d.tmb.setPending with
    | some p =>
      if d.tmb.armDue ≤ d.ticks then ((d.setApplied 2).setTime p d.tmb.ns).incSat Reg.TMB_CNT_steps else d
    | none => d
  d.updTmb fun t => { t with aonSec := t.sec, aonSub := 0, aonFrac := 0 }

/-- The AON count runs on for n ticks: 32,768 counts in 250,000,000 ticks (DESIGN CHOICE, log entry 55). -/
def TmbState.aonRun (t : TmbState) (n : Nat) : TmbState :=
  let f := t.aonFrac + 256 * n
  let sub := t.aonSub + f / 1953125
  { t with aonFrac := f % 1953125, aonSub := sub % 32768, aonSec := (t.aonSec + sub / 32768) % 2 ^ 34 }

/-- Time counted as stall in PWC_STALL_US (R160, R177). -/
def Dev.stallRun (d : Dev) (n : Nat) : Dev :=
  if d.rd Reg.PWC_STAT_mode = pmStalled then
    let c := d.pwc.stallTicks + n
    (d.incWrap Reg.PWC_STALL_US_us (c / 250)).updPwc fun p => { p with stallTicks := c % 250 }
  else d

/-- n ticks of 4 ns pass. The TMB count runs while main power is up (DESIGN CHOICE, log entry 4). -/
def Dev.passTicks (d : Dev) (n : Nat) : Dev :=
  let d : Dev := { d with ticks := d.ticks + n, tmb := d.tmb.aonRun n }
  if !d.sys.pdMain then d
  else
    let t := d.tmb
    let acc := ((t.frac : Int) + n * d.tickUnits + (min n t.slewLeft : Nat) * t.slew).toNat
    let ns := t.ns + acc / 2 ^ 34 * 4
    let wraps := ns / 1000000000
    let d := d.updTmb fun t => { t with
      frac := acc % 2 ^ 34, ns := ns % 1000000000, sec := (t.sec + wraps) % 2 ^ 34, slewLeft := t.slewLeft - n }
    (if wraps = 0 then d else d.wrapped).stallRun n

/-- Ticks until the nanosecond field next reaches 1,000,000,000. -/
def Dev.ticksToWrap (d : Dev) : Nat :=
  let t := d.tmb
  let left : Nat := (1000000000 - t.ns + 3) / 4 * 2 ^ 34 - t.frac
  let fast := (d.tickUnits + t.slew).toNat
  let base := d.tickUnits.toNat
  if left ≤ t.slewLeft * fast then ceilDiv left fast else t.slewLeft + ceilDiv (left - t.slewLeft * fast) base

/-- One tick of the clock: what an empty queue leaves to happen (DESIGN CHOICE, log entry 4) (DESIGN CHOICE, log entry 2). -/
def Dev.tick (d : Dev) : Dev := d.passTicks 1

/-- SECOND_WRAP's effect: the time up to the next wrap has passed (DESIGN CHOICE, log entry 2)
(DESIGN CHOICE, log entry 4). -/
def Dev.secondWrap (d : Dev) : Dev := if d.sys.pdMain then d.passTicks d.ticksToWrap else d

/-! ### Meanings -/

/-- PPS_EDGE (R373). -/
def execPpsEdge (falling : Bool) (jitterNs : Int) (s : State) : Out := s.act fun d => d.ppsEdge falling jitterNs
/-- PPS_MISS (R373). -/
def execPpsMiss (s : State) : Out := s.act Dev.ppsMiss
/-- SECOND_WRAP (R369). -/
def execSecondWrap (s : State) : Out := s.act Dev.secondWrap
/-- TIME_SET_ARM (R374). -/
def execTimeSetArm (s : State) : Out := onPage .tmb true s Dev.timeArm
/-- PPS_ENABLE (R373). -/
def execPpsEnable (on : Bool) (s : State) : Out := onPage .tmb true s fun d => d.ppsEnable on

end Sys2Proof.Machine
end

