-- ==== Sys2Proof/Machine/View.lean ====
section
/-! DEFINITION. What a register read shows: fields found by address, the read-only fields that follow from other state, the
dword at an address of BAR0 and of a VF's BAR0 (R9, R25 to R28, R34, R75, R77, R129 to R131, R177, R334). -/

set_option Elab.async false

namespace Sys2Proof.Machine

/-! ### Fields by address -/

/-- The indexes at which an offset from a field's first register falls on a register of it. -/
def locate : List (Nat × Nat) → Nat → Option (List Nat)
  | [], r => if r = 0 then some [] else none
  | (st, n) :: ds, r => if r / st < n then (locate ds (r % st)).map fun is => r / st :: is else none

/-- A field with every index taken. -/
def Fld.at (f : Fld) (is : List Nat) : Fld := is.foldl Fld.ix f

/-- The pages with commit registers (R25). -/
def commitPages : List Nat := [4, 5, 8, 9, 13]

/-- Whether a field is one of the commit registers, which only those pages have (R40). -/
def isCommitField (f : Fld) : Bool := decide (0x40 ≤ f.base ∧ f.base < 0x50) && decide (f.dims = [(65536, 14)])

/-- The fields of the register at an address, with their indexes; a 64-bit register lies at the address of its low dword
(DESIGN CHOICE, log entry 12). -/
def fieldsAt (a : Nat) : List (Fld × List Nat) :=
  Reg.all.filterMap fun f =>
    if f.base ≤ a && (!isCommitField f || commitPages.contains (a / 65536)) then
      (locate f.dims (a - f.base)).map fun is => (f, is)
    else none

/-- Whether a 64-bit register begins at an address. -/
def wideAt (a : Nat) : Bool := (fieldsAt a).any fun p => p.1.wide

/-- The address of the register that a dword belongs to. -/
def regOf (a : Nat) : Nat := if 4 ≤ a && wideAt (a - 4) then a - 4 else a

/-! ### Read-only fields that follow from other state -/

/-- The block whose page header an index of the common header stands for. -/
def blkOf (i : Nat) : Blk := allBlks.getD i .sys

/-- BLK_STAT.specific of SMC (R201): bits 16 to 21 of BLK_STAT. -/
def Dev.smcSpecific (d : Dev) : Nat :=
  let deferred := match d.actOf .smcRekey wholeDevice with
    | some x => decide (x.st ≠ .running)
    | none => false
  b2n d.smc.invWalk + 2 * b2n (d.smc.rekeyPending || d.smc.rekeyRunning) + 4 * b2n deferred +
  8 * d.smc.modeInForce + 16 * b2n d.smc.bistRunning

/-- Whether PD_VLT is on (R20): while a vault access is pending, in the probe at start-up, in Dawn's reads, in a background erase,
and from the start of a Dusk's writes (DEDUCED, log entry 83). -/
def Dev.vaultPower (d : Dev) : Bool :=
  let phase := d.rd (Reg.BLK_STAT_specific.ix 0)
  d.sys.pdMain && (decide (phase = 3) || (decide (phase = 4) && !d.vlt.foreignWait) || d.vlt.dawn.isSome || d.vlt.duskStarted ||
    d.rdB Reg.VLT_STAT_erasing)

/-- BLK_POWER.pstate (R334): blocks whose power domain is off read SWITCHED_OFF. -/
def Dev.pstate (d : Dev) (b : Blk) : Nat :=
  let off := match b with
    | .hif => !d.sys.pdHphy
    | .dpx => !d.sys.pdDrv.any id
    | .vlt => !d.vaultPower
    | _ => false
  if off then 2 else d.rd (Reg.BLK_POWER_pstate.ix b.page)

/-- Fields of the common header (R30, R33 to R35). -/
def Dev.shownHeader (d : Dev) (i : Nat) : List (Fld × Nat) :=
  let b := blkOf i
  let n := d.note b
  [(Reg.BLK_STAT_busy, b2n (d.working b)),
   (Reg.BLK_STAT_specific, if b = .smc then d.smcSpecific else d.rd (Reg.BLK_STAT_specific.ix i)),
   (Reg.BLK_INT_RAW_specific, n.raw / 2 ^ 16), (Reg.BLK_INT_RAW_common, n.raw % 16),
   (Reg.BLK_INT_STAT_specific, d.intStat b / 2 ^ 16), (Reg.BLK_INT_STAT_common, d.intStat b % 16),
   (Reg.BLK_ERR_CNT_uncorr, n.uncorr), (Reg.BLK_ERR_CNT_corr, n.corr),
   (Reg.BLK_ERR_FIRST_ts_sec, n.firstTs), (Reg.BLK_ERR_FIRST_code, n.firstCode),
   (Reg.BLK_POWER_pstate, d.pstate b)]

/-- An entry of the Squall record (R356). -/
def Dev.sqlRec (d : Dev) (n : Nat) : SqlRec := Tbl.getD d.nt.sqlRecs n ⟨0, 0, 0, 0⟩

/-- Fields of SYS and TMB (R3, R34, R38, R356, R377): the grade is the fuse. -/
def Dev.shownSys (d : Dev) (i : Nat) : List (Fld × Nat) :=
  [(Reg.SYS_ID_grade, b2n Config.gradeFuse), (Reg.SYS_INT_SUM_sum, d.intSum), (Reg.SYS_SQL_CNT_count, d.nt.sqlCount), (Reg.SYS_SQL_NEXT_idx, d.nt.sqlNext),
   (Reg.SYS_SQL_REC_block, (d.sqlRec i).block), (Reg.SYS_SQL_REC_fault, (d.sqlRec i).fault),
   (Reg.SYS_SQL_STALL_stall_ns, (d.sqlRec i).stall), (Reg.SYS_SQL_TS_ts, (d.sqlRec i).ts), (Reg.TMB_NOW_ts, d.now)]

/-- Fields of HIF (R64) (DESIGN CHOICE, log entry 17) (DESIGN CHOICE, log entry 19). -/
def Dev.shownHif (d : Dev) (f : Nat) : List (Fld × Nat) :=
  let mine := d.hif.tags.filter fun t => t.fn = f
  let x := d.fn f
  [(Reg.HIF_TAG_STAT_quarantined, (d.hif.tags.filter Tag.quar).length), (Reg.HIF_TAG_STAT_in_use, d.hif.tags.length),
   (Reg.HIF_FN_TAG_in_use, mine.length), (Reg.HIF_FN_QUAR_quarantined, (mine.filter Tag.quar).length),
   (Reg.HIF_FN_STAT_held_ovf, b2n x.heldOvf), (Reg.HIF_FN_STAT_bme, b2n x.bme), (Reg.HIF_FN_STAT_mse, b2n x.mse),
   (Reg.HIF_FN_STAT_dstate, if x.d3 then 3 else 0),
   (Reg.HIF_FN_HELD_held, x.held.length + (if d.canPost f then 0 else (d.ring f).pend.length))]

/-- Fields of QMX and the queue descriptors (R75 to R77, R87). QMX_FN_STAT.inflight counts a command until it ends; one whose
completion is held has ended, though QD_SQ_STAT.inflight still counts it (R75, R76) (DESIGN CHOICE, log entry 71). -/
def Dev.shownQmx (d : Dev) (i : Nat) : List (Fld × Nat) :=
  let r := d.ring i
  [(Reg.QD_SQ_STAT_inflight, min 0xFFFF (d.inflight i)), (Reg.QD_SQ_STAT_state, d.sqShown i),
   (Reg.QD_CQ_STAT_reserved_slots, min 0xFFFF (d.cqReserved i)),
   (Reg.EVR_PTR_head, r.head), (Reg.EVR_PTR_tail, r.tail), (Reg.EVR_STAT_phase, b2n r.phase),
   (Reg.EVR_STAT_pending, min 64 r.pend.length), (Reg.EVR_STAT_lost, r.lost), (Reg.EVR_SEQ_next, r.seq),
   (Reg.QMX_ASN_NEXT_asn, d.qmx.adm),
   (Reg.QMX_FN_STAT_inflight, min 0xFFFF ((d.qmx.cmds.filter fun c => c.fn = i && !c.silent).length))]

/-- Stripes of an array that lie in no volume (R126). -/
def Dev.freeStripes (d : Dev) (a : Nat) : Nat :=
  (d.geo a).stripes - ((d.volumes.filter fun v => d.volArray v = a).map fun v => d.rd (Reg.VD_STRIPES_stripes.ix v)).sum

/-- Fields of arrays (R129, R232); j is the member. -/
def Dev.shownArr (d : Dev) (a j : Nat) : List (Fld × Nat) :=
  let g := d.geo a
  let on (v : Nat) : Nat := if d.arrEn a then v else 0
  let ports := (List.range (d.memberCount a)).map (d.recPort a)
  let mask := (((List.range 8).filter fun c => (ports.map (· / 32)).contains c).map fun c => 2 ^ c).sum
  let slot := d.slotOf a j
  let rs := d.actOf .restripe a
  [(Reg.AR_GROUP_cmask, on mask), (Reg.AR_GROUP_C, on g.c), (Reg.AR_GROUP_g, on (if g.c = 0 then 0 else g.g / g.c)),
   (Reg.AR_GROUP_G, on g.g), (Reg.AR_GEOM_dpu, on g.dpu), (Reg.AR_GEOM_unused, on ((g.g - g.spares) % g.w)),
   (Reg.AR_GEOM_spc, on g.spc), (Reg.AR_CYCLES_cycles, on g.cycles), (Reg.AR_STRIPES_stripes, on g.stripes),
   (Reg.AR_FREE_free, on (d.freeStripes a)), (Reg.AR_META_mib, on (d.metaMib a)),
   (Reg.AR_MSTATE_missed, min 0xFFFF (d.missed a j).length), (Reg.AR_MSTATE_slotted, b2n slot.isSome),
   (Reg.AR_MSTATE_slot, slot.getD 0),
   (Reg.AR_RS_STAT_paused, b2n (match rs with | some x => decide (x.st ≠ .running) || decide (d.arrState a ≠ asOptimal) | none => false)),
   (Reg.AR_RS_STAT_descending, match (d.arr a).restripe with | some r => b2n r.descending | none => 0)]

/-- Fields of volumes (R130). -/
def Dev.shownVol (d : Dev) (v : Nat) : List (Fld × Nat) :=
  [(Reg.VD_SIZE_blocks, d.volBlocks v), (Reg.VD_STAT_det_held, min 0xFFFF (d.detHeld v)),
   (Reg.VD_STAT_offline, b2n (d.volExists v && decide (d.arrState (d.volArray v) = asOffline))),
   (Reg.VD_STAT_fenced, b2n (decide (d.overflowOf v ≠ 0))), (Reg.VD_STAT_de, b2n (decide (d.detHeld v ≠ 0))),
   (Reg.VD_OVF_overflow, d.overflowOf v)]

/-- MNT_ARB_RUN and MNT_ARB_WAIT (R231). -/
def Dev.actBits (d : Dev) (p : Activity → Bool) : Nat :=
  ((((d.mnt.acts.filter p).map fun x => x.act.code).eraseDups).map fun c => 2 ^ (c - 1)).sum

/-- ECE_LOAD of a lane: 0 until ECE has had work since the start, else what the lanes measure, a free value (R148). -/
def Dev.eceLoad (d : Dev) (lane sec : Nat) : Nat :=
  if d.rd Reg.ECE_ENC_BYTES_bytes = 0 ∧ d.rd Reg.ECE_DEC_BYTES_bytes = 0 ∧ d.rd Reg.ECE_KAT_STAT_runs = 0 ∧ !d.working .ece then 0
  else min 100 (Config.eceLoad lane sec)

/-- Fields of PWC, SMC, ECE, LAY and MNT (R128, R148, R177, R201, R231, R303) (DESIGN CHOICE, log entry 43). -/
def Dev.shownCache (d : Dev) : List (Fld × Nat) :=
  let dirty := ((d.smc.sets.map fun p => (p.2.ways.filter Way.dirty).length).sum)
  let sec := d.ticks / ticksPerSec
  [(Reg.PWC_DIRTY_bytes, d.dirtyBytes), (Reg.PWC_POOL_pool_gib, d.poolMib (d.rd Reg.PWC_SCRATCH_mib) / 1024),
   (Reg.PWC_INTENTS_open, d.dram.intents.length), (Reg.PWC_STREAMS_open, d.lay.streams.length),
   (Reg.PWC_STAGE_used_kib, 4 * d.stagedBlocks),
   (Reg.PWC_RETRAIN_STAT_deferred, b2n (match d.actOf .dramRetrain wholeDevice with
      | some x => decide (x.st ≠ .running) | none => false)),
   (Reg.SMC_DIRTY_lines, dirty), (Reg.SMC_EVB_in_use, d.smc.evict.length),
   (Reg.SMC_JOURNAL_entries_k, d.dram.journal.length / 1024),
   (Reg.ECE_LOAD_enc_pct, d.eceLoad 0 sec), (Reg.ECE_LOAD_dec_pct, d.eceLoad 1 sec),
   (Reg.LAY_META_USED_mib, d.metaUsed),
   (Reg.MNT_ARB_RUN_run, d.actBits fun x => decide (x.st = .running)),
   (Reg.MNT_ARB_WAIT_wait, d.actBits fun x => decide (x.st ≠ .running))]

/-- Whether a port has a link. -/
def Dev.hasLink (d : Dev) (p : Nat) : Bool := (d.port p).dev.isSome && !(d.port p).grace

/-- DRV clock of a cluster in MHz, rounded down (R18); 0 while its domain is off. -/
def Dev.drvMhz (d : Dev) (n : Nat) : Nat :=
  if !d.sys.pdDrv.getD n false then 0
  else
    let r := (((clusterPorts n).filter d.hasLink).map fun p => d.rd (Reg.PT_STAT_rate.ix p)).foldl max 0
    if r = 5 then 703 else if r = 4 then 375 else 187

/-- Fields of DPX (R256, R257); i is the cluster or the port. -/
def Dev.shownDpx (d : Dev) (i : Nat) : List (Fld × Nat) :=
  [(Reg.DPX_CL_HI_mhz, d.drvMhz i), (Reg.DPX_CL_HI_linked, ((clusterPorts i).filter d.hasLink).length),
   (Reg.PT_STAT_member, b2n (d.memberOn i).isSome), (Reg.PT_STAT_outstanding, (d.port i).outst.length)]

/-- Fields of BPS (R287). -/
def Dev.shownBps (d : Dev) : List (Fld × Nat) :=
  let since := (d.ticks - d.bps.anchorTick) / (3600 * ticksPerSec)
  [(Reg.BPS_PACK_pwr_good, b2n d.sys.pwrGood), (Reg.BPS_PACK_pwr_fail, b2n !d.sys.pwrFailN),
   (Reg.BPS_REST_since_h, min 0xFFFF since),
   (Reg.BPS_REST_cand_min, match d.bps.restCand with
      | some (_, _, t0) => min 0xFF ((d.ticks - t0) / (60 * ticksPerSec)) | none => 0),
   (Reg.BPS_LEARN_STAT_due_days, min 0xFFFF (ceilDiv (d.bps.learnTick - d.ticks) dayTicks))]

/-- The read-only fields that follow from other state, for the first two indexes of a register
(DESIGN CHOICE, log entry 12). -/
def Dev.shown (d : Dev) (i j : Nat) (page : Nat) : List (Fld × Nat) :=
  d.shownHeader i ++
  (if page = 0 ∨ page = 3 then d.shownSys i
   else if page = 1 then d.shownHif i
   else if page = 2 ∨ page = 16 then d.shownQmx i
   else if page = 4 then d.shownBps
   else if 5 ≤ page ∧ page ≤ 9 then d.shownCache
   else if page = 13 ∨ (32 ≤ page ∧ page < 48) then d.shownDpx i
   else if page = 64 then d.shownArr i j
   else if page = 80 then d.shownVol i
   else [])

/-! ### Reads -/

/-- What a read of a field returns (R9): 0 for WO, the staged value for RWS (DESIGN CHOICE, log entry 12). -/
def Dev.fieldRead (d : Dev) (f : Fld) (is : List Nat) : Nat :=
  let g := f.at is
  match ((d.shown (is.getD 0 0) (is.getD 1 0) (g.base / 65536)).find? fun p => p.1 = f) with
  | some p => p.2 % 2 ^ f.width
  | none =>
    match f.acc with
    | .wo => 0
    | .rws => d.rdStaged g
    | _ => d.rd g

/-- The value of the register that begins at an address. -/
def Dev.regRead (d : Dev) (a : Nat) : Nat := ((fieldsAt a).map fun p => d.fieldRead p.1 p.2 * 2 ^ p.1.lo).sum

/-- The dword at an address of BAR0, without the latch of R28; 0 where no register is defined (R26). -/
def Dev.dwordRead (d : Dev) (a : Nat) : Nat :=
  if !d.answers a then 0
  else
    let r := regOf a
    d.regRead r / 2 ^ (8 * (a - r)) % 2 ^ 32

/-- The BAR0 address that an offset of a function's BAR0 shows (R75, R77): PF0's own, or a VF's window on its descriptors. -/
def Dev.windowAddr (d : Dev) (f a : Nat) : Option Nat :=
  if f = 0 then some a
  else if 0x2000 ≤ a ∧ a < 0x6000 then
    let i := (a - 0x2000) / 64
    let o := a % 64
    if o < 32 then (if i < d.sqCount f then some (0x100000 + 64 * (d.sqBase f + i) + o) else none)
    else if i < d.cqCount f then some (0x100000 + 64 * (d.cqBase f + i) + o)
    else none
  else if 0x6000 ≤ a ∧ a < 0x6020 then some (0x22000 + 32 * f + (a - 0x6000))
  else none

/-- A dword of a function's BAR0. -/
def Dev.barRead (d : Dev) (f a : Nat) : Nat :=
  if f ≠ 0 ∧ a = 0x7000 then d.cqCount f * 2 ^ 16 + d.sqCount f
  else match d.windowAddr f a with
    | some x => d.dwordRead x
    | none => 0

end Sys2Proof.Machine
end

