-- ==== Sys2Proof/Machine/Admin.lean ====
section
/-! DEFINITION. The admin commands: IDENTIFY, GET_LOG, DET_ACK, OUTCOME_READ and SET_EVENT_MASK (R91, R92, R95, R99, R101,
R102, R104). -/

set_option Elab.async false

namespace Sys2Proof.Machine

/-! ### From ready to done -/

/-- An admin command that can act: ready, or past its fragment table (R80, R92). -/
def Dev.admin? (d : Dev) (op adm : Nat) : Option Cmd :=
  (d.cmd? adm).filter fun c =>
    eOpcode c.entry = op && (c.stage = .ready || c.stage = .running) && c.ending.isNone

/-- A command that returns data ends: its field check, its fragment table, then the data and the completion. It waits while
PF0 may not write to host memory (R56, R61, R63, R92). -/
def Dev.adminData (d : Dev) (op adm : Nat) (check : Cmd → Option Nat) (data : Cmd → Bytes × Nat) : Dev :=
  match d.admin? op adm with
  | none => d
  | some c =>
    match check c with
    | some dword => d.endCmd adm ssInvalidField dword
    | none =>
      if eInd c.entry && c.stage = .ready then d.askTable c
      else if !d.canDma c.fn then d
      else
        let out := data c
        (d.writeXfer c 0 out.1).endCmd adm ssSuccess out.2

/-! ### IDENTIFY (R95) -/

/-- The page selected, dw9 bits 3..0. -/
def idCns (e : List Dword) : Nat := dwBits e 9 3 0

/-- Check 6 of R92 on IDENTIFY (DEDUCED, log entry 60). -/
def Dev.identifyBad (d : Dev) (c : Cmd) : Option Nat :=
  let e := c.entry
  let cns := idCns e
  if 3 < cns then some 9
  else if cns = 1 ∧ (64 < dwBits e 10 6 0 ∨ !d.fnExists (dwBits e 10 6 0)) then some 10
  else if cns = 2 ∧ !d.arrEn (dwBits e 10 3 0) then some 10
  else if cns = 3 ∧ !d.volExists (dwBits e 10 9 0) then some 10
  else none

/-- Dwords in their byte order. -/
def bytesOf (xs : List Nat) : Bytes := xs.flatMap (leBytes 4)

/-- The live value of a field, for RWS fields as for the others. -/
def Dev.liveField (d : Dev) (p : Fld × List Nat) : Nat :=
  if p.1.acc = .rws then d.rd (p.1.at p.2) else d.fieldRead p.1 p.2

/-- The live dword at an address of BAR0 (R95). -/
def Dev.liveDword (d : Dev) (a : Nat) : Nat :=
  let r := regOf a
  ((fieldsAt r).map fun p => d.liveField p * 2 ^ p.1.lo).sum / 2 ^ (8 * (a - r)) % 2 ^ 32

/-- The 1,024 access bits of a function, bit v for volume v. -/
def Dev.accessBits (d : Dev) (f : Nat) : Nat := ((d.volumes.filter (d.volAccess f)).map fun v => 2 ^ v).sum

/-- The page that IDENTIFY returns, before its zero fill (DEDUCED, log entry 60). -/
def Dev.identifyPage (d : Dev) (c : Cmd) : Bytes :=
  let e := c.entry
  match idCns e with
  | 0 =>
    bytesOf [d.dwordRead 0x40, d.dwordRead 0x8, d.dwordRead 0xC, d.dwordRead 0x10008, d.dwordRead 0x1000C,
      d.dwordRead 0x20008, d.dwordRead 0x2000C, 0] ++ leBytes 8 Config.serial ++
    bytesOf [d.rd Reg.SYS_FW_VER_version, d.rd Reg.SYS_BOOT_running, 16384, 65536, 65536, 4096]
  | 1 =>
    let f := dwBits e 10 6 0
    let r := d.ring f
    padB 0x80 (bytesOf [f, d.dwordRead (0x21000 + 16 * f), d.dwordRead (0x21004 + 16 * f), r.classMask,
      r.minSev, d.rd (Reg.HIF_FN_STAT_epoch.ix f)]) ++ leBytes 128 (d.accessBits f)
  | 2 =>
    let a := dwBits e 10 3 0
    bytesOf ((List.range 256).map fun i => d.liveDword (0x400000 + 0x1000 * a + 4 * i))
  | _ =>
    let v := dwBits e 10 9 0
    let a := d.volArray v
    let g := d.geo a
    bytesOf [v, a] ++ leBytes 8 (d.volBlocks v) ++
    bytesOf [g.k, g.dpu, d.rd (Reg.VD_CFG_hold_ms.ix v), d.detHeld v,
      b2n (decide (d.detHeld v ≠ 0)) + 2 * b2n (decide (d.overflowOf v ≠ 0)) + 4 * b2n (decide (d.arrState a = asOffline)),
      d.overflowOf v]

/-- IDENTIFY's effect (R95). -/
def Dev.identify (d : Dev) (adm : Nat) : Dev :=
  d.adminData opIdentify adm d.identifyBad fun c => (padB 4096 (d.identifyPage c), 0)

/-! ### GET_LOG (R95) -/

/-- A Deferred Error Table entry as R101 lays it out. -/
def DetEntry.bytes (e : DetEntry) : Bytes :=
  bytesOf [e.id, e.volume % 1024 * 2 ^ 16 + e.lba / 2 ^ 32 % 2 ^ 16, e.lba % 2 ^ 32, e.reason % 2 ^ 16 * 2 ^ 16 + e.count % 2 ^ 16,
    e.asn, e.array % 16] ++ leBytes 8 e.ts

/-- Entry i of the BLOCK_ERRORS log: for block code b = i, BLK_ERR_CNT and BLK_ERR_FIRST; none beyond the last block. -/
def Dev.blockErrors (d : Dev) (b : Nat) : Option Bytes :=
  if b = 0 ∨ allBlks.length < b then none
  else some (bytesOf [d.dwordRead ((b - 1) * 65536 + 0x24), d.dwordRead ((b - 1) * 65536 + 0x28)])

/-- Entry i of the HALT_RECORD log. -/
def Dev.haltLog (d : Dev) (i : Nat) : Option Bytes :=
  let entry (i : Nat) : Nat := d.rd (Reg.SYS_HALT_ENTRY_image.ix i)
  match i with
  | 0 => some (bytesOf [d.haltSrc, d.haltPos, d.rd Reg.SYS_HALT_COND_cond, d.rd Reg.SYS_HALT_ASN_asn] ++
      leBytes 8 (d.rd Reg.SYS_HALT_TS_ts))
  | 1 => some (bytesOf ((List.range 8).map entry))
  | 2 => some (bytesOf ((List.range 8).map fun j => entry (8 + j)))
  | 3 => some (bytesOf ((List.range 4).map fun j => d.rd (Reg.SYS_HALT_FRAG_frag_image.ix j)))
  | _ => none

/-- Entry i of a log. -/
def Dev.logEntry (d : Dev) (log i : Nat) : Option Bytes :=
  if log = 1 then (d.dram.det[i]?).map DetEntry.bytes
  else if log = 2 then d.blockErrors i
  else d.haltLog i

/-- The entries that GET_LOG returns, and how many of them are real. -/
def Dev.logData (d : Dev) (c : Cmd) : Bytes × Nat :=
  let e := c.entry
  let log := dwBits e 9 7 0
  let es := (List.range (dwBits e 11 15 0 + 1)).map fun i => d.logEntry log (dw e 10 + i)
  (es.flatMap fun x => padB (logEntrySize log) (x.getD []), (es.filter Option.isSome).length)

/-- GET_LOG's effect (R95). -/
def Dev.getLog (d : Dev) (adm : Nat) : Dev :=
  d.adminData opGetLog adm (fun c => if logEntrySize (dwBits c.entry 9 7 0) = 0 then some 9 else none) d.logData

/-! ### DET_ACK (R95, R102) -/

/-- The ids that DET_ACK removes: those that precede or equal dw10, of the volume named or of all. -/
def Dev.acked (d : Dev) (e : List Dword) : List Nat :=
  (d.dram.det.filter fun x => (bitOf (dw e 9) 31 || x.volume = dwBits e 9 9 0) && (x.id = dw e 10 || serialBefore x.id (dw e 10))).map
    DetEntry.id

/-- DET_ACK's effect: each entry removed leaves room that one overflowed run takes at once. -/
def Dev.detAck (d : Dev) (adm : Nat) : Dev :=
  match d.admin? opDetAck adm with
  | none => d
  | some c =>
    if bitOf (dw c.entry 9) 31 && decide (dwBits c.entry 9 9 0 ≠ 0) then d.endCmd adm ssInvalidField 9
    else
      let ids := d.acked c.entry
      let d := forEach ids (fun i d =>
        Dev.refillDet 1 (d.updDram fun m => { m with det := m.det.filter fun x => x.id ≠ i })) d
      d.endCmd adm ssSuccess ids.length

/-! ### OUTCOME_READ (R99) -/

/-- An Outcome Log record as R99 lays it out. -/
def OlRec.bytes (r : OlRec) : Bytes :=
  bytesOf [r.asn, r.cmdTag % 2 ^ 16 * 2 ^ 16 + r.opcode % 2 ^ 8 * 2 ^ 8 + r.state % 4,
    r.status % 2 ^ 16 * 2 ^ 16 + b2n r.final * 2 ^ 15 + b2n r.posted * 2 ^ 14 + b2n r.de * 2 ^ 13 + b2n r.lp * 2 ^ 12 +
      b2n r.rc * 2 ^ 11 + b2n r.pf * 2 ^ 10 + r.sq % 2 ^ 10,
    r.volume % 2 ^ 10 * 2 ^ 16 + r.lba / 2 ^ 32 % 2 ^ 16, r.lba % 2 ^ 32,
    (if r.state = olPrefix then r.persist % 2 ^ 16 else 0) * 2 ^ 16 + r.count % 2 ^ 16] ++ leBytes 8 r.ts

/-- The records a function's log holds, in admission order. -/
def Dev.recsOf (d : Dev) (f : Nat) : List OlRec :=
  ((d.olog f).recs.map Prod.snd).mergeSort fun x y => decide (x.adm ≤ y.adm)

/-- The records from the one that mode 0 starts with on: the newest of that ASN, else the oldest that follows it. -/
def recsFrom (asn : Nat) (rs : List OlRec) : List OlRec :=
  match (rs.filter fun r => r.asn = asn).getLast? with
  | some x => rs.dropWhile fun r => decide (r.adm < x.adm)
  | none => rs.dropWhile fun r => !serialBefore asn r.asn

/-- What OUTCOME_READ returns: records oldest first, then zeros; and their number. -/
def Dev.outcomeData (d : Dev) (c : Cmd) : Bytes × Nat :=
  let e := c.entry
  let n := dwBits e 11 15 0 + 1
  let rs := d.recsOf (dwBits e 9 6 0)
  let rs := if bitOf (dw e 9) 8 then rs.drop (rs.length - n) else (recsFrom (dw e 10) rs).take n
  (padB (32 * n) (rs.flatMap OlRec.bytes), rs.length)

/-- OUTCOME_READ's effect. -/
def Dev.outcomeRead (d : Dev) (adm : Nat) : Dev :=
  d.adminData opOutcomeRead adm
    (fun c => if 64 < dwBits c.entry 9 6 0 then some 9
      else if bitOf (dw c.entry 9) 8 && decide (dw c.entry 10 ≠ 0) then some 10 else none) d.outcomeData

/-! ### SET_EVENT_MASK (R104) -/

/-- SET_EVENT_MASK's effect. -/
def Dev.setEventMask (d : Dev) (adm : Nat) : Dev :=
  match d.admin? opSetEventMask adm with
  | none => d
  | some c =>
    let e := c.entry
    let f := dwBits e 9 6 0
    if 64 < f then d.endCmd adm ssInvalidField 9
    else
      (d.updRing f fun r => { r with classMask := dwBits e 10 15 0, minSev := dwBits e 11 3 0 }).endCmd adm ssSuccess 0

/-! ### Meanings -/

/-- IDENTIFY (R91, R95). -/
def execIdentify (adm : Nat) (s : State) : Out := s.act fun d => d.identify adm

/-- GET_LOG (R91, R95). -/
def execGetLog (adm : Nat) (s : State) : Out := s.act fun d => d.getLog adm

/-- DET_ACK (R102). -/
def execDetAck (adm : Nat) (s : State) : Out := s.act fun d => d.detAck adm

/-- OUTCOME_READ (R99). -/
def execOutcomeRead (adm : Nat) (s : State) : Out := s.act fun d => d.outcomeRead adm

/-- SET_EVENT_MASK (R104). -/
def execSetEventMask (adm : Nat) (s : State) : Out := s.act fun d => d.setEventMask adm

end Sys2Proof.Machine
end

