-- ==== Sys2Proof/Machine/Header.lean ====
section
/-! DEFINITION. The common page header: error clear, soft reset, block enable and draining, locks, clock gating (R30 to R37,
R197, R200, R334, R377, R386, R408). -/

set_option Elab.async false

namespace Sys2Proof.Machine

/-! ### Error clear and locks -/

/-- BLK_CTRL.err_clr (R35). -/
def Dev.errClr (d : Dev) (b : Blk) : Dev :=
  d.updNote b fun n => { n with corr := 0, uncorr := 0, firstCode := 0, firstTs := 0 }

/-- BLK_LOCK: bits written 1 are set (R36). -/
def Dev.lockSet (d : Dev) (b : Blk) (bits : Nat) : Dev :=
  d.wr (Reg.BLK_LOCK_lock.ix b.page) (d.rd (Reg.BLK_LOCK_lock.ix b.page) ||| bits)

/-- Whether a block's en is RW (R32) (DEDUCED, log entry 13). -/
def enableable (b : Blk) : Bool := b = .smc || b = .mnt || b = .bme || b = .tmb

/-- BLK_CTRL.en of a block. -/
def Dev.setEn (d : Dev) (b : Blk) (on : Bool) : Dev := d.wrB (Reg.BLK_CTRL_en.ix b.page) on

/-! ### Soft reset (R32, R41, R198, R333) -/

/-- The block through which a field at an address of BAR0 is committed (R25). -/
def commitOwner (a : Nat) : Option Blk :=
  if a / 65536 = 4 then some .bps
  else if a / 65536 = 5 then some .pwc
  else if a / 65536 = 8 ∨ a / 65536 = 0x40 ∨ a / 65536 = 0x50 then some .lay
  else if a / 65536 = 9 then some .mnt
  else if a / 65536 = 13 ∨ a / 2 ^ 20 = 2 then some .dpx
  else none

/-- Whether a key of the register file is committed through a block. -/
def keyOf (b : Blk) (k : Nat) : Bool := commitOwner (k / 64) = some b

/-- Whether a key lies in a block's page. -/
def keyIn (b : Blk) (k : Nat) : Bool := k / 64 / 65536 = b.page

/-- Staged values of a block's page become the live ones (R41). -/
def Dev.unstage (d : Dev) (p : Nat → Bool) : Dev := { d with staged := d.staged.filter fun x => !p x.1 }

/-- The RO fields that show what a block is doing or holds, which a soft reset does not reach: they are kept while its
counts and records go to their reset values (DEDUCED, log entry 13). -/
def statusFields : List Fld :=
  [Reg.BLK_STAT_specific, Reg.BLK_STAT_state, Reg.BLK_POWER_pstate, Reg.COMMIT_STAT_busy, Reg.COMMIT_STAT_token,
   Reg.COMMIT_STAT_status, Reg.SMC_KEY_key, Reg.MNT_DFW_STAT_running, Reg.MNT_DFW_STAT_failed, Reg.MNT_DFW_STAT_done,
   Reg.TMB_SET_CTRL_pending, Reg.TMB_STAT_state, Reg.BME_CH_STAT_state, Reg.ECE_LANE_STAT_carrier,
   Reg.ECE_LANE_STAT_dec_state, Reg.ECE_LANE_STAT_enc_state, Reg.ECE_KAT_STAT_running, Reg.ECE_KAT_STAT_lane,
   Reg.PWC_CEIL_limit, Reg.PWC_CEIL_mib, Reg.PWC_CEIL_E_mib, Reg.PWC_CEIL_IN_p_avail_w, Reg.PWC_CEIL_IN_p_dusk_w,
   Reg.PWC_STAT_grp_a, Reg.PWC_STAT_grp_b, Reg.PWC_STAT_mode, Reg.PWC_POOL_group_gib, Reg.PWC_CH_state,
   Reg.PWC_RETRAIN_STAT_running, Reg.PWC_RETRAIN_STAT_channel, Reg.CCX_PAIR_state, Reg.CCX_FW_STAT_busy, Reg.CCX_FW_STAT_op]

/-- Whether a soft reset of a block puts the field of a key back to its reset value (R32): its RW fields but en, its counts
and records, and the RWL fields that no lock holds (DEDUCED, log entry 13). -/
def Dev.softKey (d : Dev) (b : Blk) (k : Nat) : Bool :=
  keyIn b k &&
    ((keyHas .rw k && decide (k ≠ (Reg.BLK_CTRL_en.ix b.page).key)) ||
     (keyHas .ro k && !statusFields.any fun f => f.hasKey k) ||
     (keyHas .rwl k && !d.locked b.page))

/-- BLK_CTRL.soft_reset (R32): the block's registers go to their reset values, but for BLK_LOCK, locked RWL fields and what
shows the block's state; the header's causes and counts are cleared; staged values committed through the block are
dropped (R41); en reads 0 where it is RW, and SMC becomes OFF with reset invalidation (DEDUCED, log entry 13). -/
def Dev.softReset (d : Dev) (b : Blk) : Dev :=
  let st := d.blkState b
  if st ≠ stOff ∧ st ≠ stFault then d.refuse b
  else
    let d := (d.resetKeys (d.softKey b)).unstage (keyOf b)
    let d := { d with heldLow := d.heldLow.filter fun p => p.1 / 65536 ≠ b.page }
    let d := if d.rdB (Reg.COMMIT_STAT_busy.ix b.page) then d.commitCut b
      else if commitBlks.contains b then d.wr (Reg.COMMIT_STAT_status.ix b.page) 9
      else d
    let d := d.updNote b fun _ => {}
    let d := if enableable b then d.setEn b false else d
    if b = .smc then (d.setState .smc stOff).smcResetStart false else d

/-! ### Enable and draining (R32, R197, R377, R386, R408) -/

/-- TMB is OFF at once: PPS capture stops, and a pending arm is applied at the next wrap (R376, R377). -/
def Dev.tmbOff (d : Dev) : Dev :=
  let d := ((d.setState .tmb stDraining).setState .tmb stOff).tmbFree
  let t := d.ticks
  d.updTmb fun x => { x with armDue := t }

/-- BLK_CTRL.en ← 0 (DEDUCED, log entry 13). -/
def Dev.blockDisable (d : Dev) (b : Blk) : Dev :=
  if !enableable b then d
  else
    let on := decide (d.blkState b = stIdle ∨ d.blkState b = stActive)
    let d := d.setEn b false
    if !on then d
    else match b with
      | .tmb => d.tmbOff
      | .mnt => d.mntPause.setState .mnt stDraining
      | .bme => d.bmeDropAll.setState .bme stDraining
      | .smc => (d.setState .smc stDraining).smcWalkFrom0
      | _ => d.setState b stDraining

/-- en ← 1 while SMC drains stops the walk (R197); an invalidate-all that was merged with the drain goes on as one of its own
(R193) (DESIGN CHOICE, log entry 22). -/
def Dev.smcDrainStop (d : Dev) : Dev :=
  if d.smc.invWalk then d.smcWalkFrom0 else d.updSmc fun s => { s with walkSet := none }

/-- BLK_CTRL.en ← 1; refused while the last self-test of SMC failed, and while one runs (R200) (DEDUCED, log entry 13)
(DESIGN CHOICE, log entry 80). -/
def Dev.blockEnable (d : Dev) (b : Blk) : Dev :=
  if !enableable b then d
  else
    let st := d.blkState b
    if b = .smc ∧ st = stOff ∧ (d.rd Reg.SMC_BIST_result = bistFail ∨ d.smc.bistRunning) then d.refuse .smc
    else
      let d := d.setEn b true
      if st = stDraining ∧ (b = .smc ∨ b = .mnt) then
        let d := d.setState b stActive
        if b = .mnt then d.mntResume else d.smcDrainStop
      else if st = stOff ∨ st = stDraining then
        match b with
        | .smc => if d.smc.resetInval then d else d.smcResetStart false
        | .mnt => (d.setState .mnt stIdle).mntResume
        | .bme => (d.setState .bme stIdle).bmeEnableAll
        | .tmb => (d.setState .tmb stIdle).ppsEnable (d.rdB Reg.TMB_CFG_pps_en)
        | _ => d
      else d

/-- A draining SMC is OFF (R197): its lines are clean and not used; an invalidate-all merged with the drain takes them
(R193). -/
def Dev.smcDrained (d : Dev) : Dev :=
  let d := if d.smc.invWalk then
      let d := (d.updSmc fun s => { s with invWalk := false, sets := [] }).causeBit .smc 17
      if d.smc.rekeyRunning then d.keySwitch else d
    else d
  (d.setState .smc stOff).smcRetry

/-- BLOCK_DRAIN_DONE's effect: OFF, once what the block's chapter names has ended (DEDUCED, log entry 13). -/
def Dev.drainDone (d : Dev) (b : Blk) : Dev :=
  if d.blkState b ≠ stDraining then d
  else match b with
    | .smc => if d.smc.evict = [] ∧ d.smc.regs = [] ∧ d.smc.walkSet = none then d.smcDrained else d
    | .bme => if d.bmeOutstanding then d else d.setState .bme stOff
    | _ => d.setState b stOff

/-- CLOCK_GATE's effect (R334): idle_us has passed with busy and clk_hold at 0 (DEDUCED, log entry 13). -/
def Dev.clockGate (d : Dev) (b : Blk) : Dev :=
  if d.working b || d.rdB (Reg.BLK_CTRL_clk_hold.ix b.page) || decide (d.rd (Reg.BLK_POWER_idle_us.ix b.page) = 0) ||
      decide (d.pstate b = 2) then d
  else d.wr (Reg.BLK_POWER_pstate.ix b.page) 1

/-! ### Meanings -/

/-- ERR_CLR (R35). -/
def execErrClr (b : Blk) (s : State) : Out := s.act fun d => d.atPage b fun d => d.errClr b

/-- SOFT_RESET (R32). -/
def execSoftReset (b : Blk) (s : State) : Out := s.act fun d => d.atPage b fun d => d.softReset b

/-- BLOCK_DISABLE (R32). -/
def execBlockDisable (b : Blk) (s : State) : Out := s.act fun d => d.atPage b fun d => d.blockDisable b

/-- BLOCK_ENABLE (R32). -/
def execBlockEnable (b : Blk) (s : State) : Out := s.act fun d => d.atPage b fun d => d.blockEnable b

/-- BLOCK_DRAIN_DONE (R33). -/
def execBlockDrainDone (b : Blk) (s : State) : Out := s.act fun d => d.drainDone b

/-- LOCK_SET (R36). -/
def execLockSet (b : Blk) (bits : Dword) (s : State) : Out := s.act fun d => d.atPage b fun d => d.lockSet b bits.toNat

/-- CLOCK_GATE (R334). -/
def execClockGate (b : Blk) (s : State) : Out := s.act fun d => d.clockGate b

end Sys2Proof.Machine
end

