-- ==== Sys2Proof/Machine/Commit.lean ====
section
/-! DEFINITION. Staged configuration and the commit: the checks of each block, the switch point and its effects (R39 to R41,
R106, R107, R112, R125 to R127, R131, R132, R178, R222, R233, R255, R258, R259, R288, R302, R347). -/

set_option Elab.async false

namespace Sys2Proof.Machine

/-! ### Staged fields (R25, R40) -/

/-- The staged values of a block that differ from the live ones. -/
def Dev.stagedOf (d : Dev) (b : Blk) : List (Nat × Nat) := d.staged.filter fun x => keyOf b x.1

/-- The device with every staged value of a block live, and nothing staged for it. A staged value that is the field's
reset value leaves the list of live values. -/
def Dev.withStaged (d : Dev) (b : Blk) : Dev :=
  let dflt (k : Nat) : Nat := ((Reg.all.find? fun f => f.acc = .rws && f.hasKey k).map Fld.reset).getD 0
  let regs := (d.stagedOf b).foldl (fun (r : List (Nat × Nat)) x => Tbl.putD r x.1 x.2 (dflt x.1)) d.regs
  { d with regs := regs, staged := d.staged.filter fun x => !keyOf b x.1 }

/-- What a check found: the status of R39 and the offset of the staged register. -/
abbrev Finding := Nat × Nat

/-- FIELD_INVALID. -/
def cmField : Nat := 2
/-- OVER_CAPABILITY. -/
def cmCapability : Nat := 3
/-- CONSTRAINT. -/
def cmConstraint : Nat := 4
/-- IN_USE. -/
def cmInUse : Nat := 5
/-- MAINT_CONFLICT. -/
def cmMaint : Nat := 6

/-- A finding where a condition holds. -/
def findIf (c : Bool) (st off : Nat) : List Finding := if c then [(st, off)] else []

/-- The finding that a commit reports (R40): the first status of R39's order, and the lowest offset that has it
(DESIGN CHOICE, log entry 40). -/
def firstFinding (fs : List Finding) : Option Finding :=
  fs.foldl (fun o f => match o with
    | none => some f
    | some x => if f.1 < x.1 ∨ (f.1 = x.1 ∧ f.2 < x.2) then some f else some x) none

/-! ### BPS, PWC, MNT, DPX (R178, R233, R259, R288, R302) -/

/-- What the BPS commit finds; `n` is the device with the staged values live. -/
def Dev.bpsFindings (d n : Dev) : List Finding :=
  let days := n.rd Reg.BPS_LEARN_CFG_interval_days
  let rate := n.rd Reg.BPS_LEARN_CFG_rate_c100
  let drift := n.rd Reg.BPS_HALO_CFG_drift
  let dt := n.rd Reg.BPS_CAL_CFG_dtemp_c
  let mins := n.rd Reg.BPS_CAL_CFG_interval_min
  findIf (decide (days < 7 ∨ 730 < days ∨ rate < 5 ∨ 100 < rate)) cmField 0x400A8 ++
  findIf (decide (drift < 10 ∨ 5000 < drift)) cmField 0x400B0 ++
  findIf (decide (dt < 1 ∨ 20 < dt ∨ mins < 1 ∨ 240 < mins)) cmField 0x400D0 ++
  findIf (decide (rate ≠ d.rd Reg.BPS_LEARN_CFG_rate_c100) && d.actRuns .learn wholeDevice) cmMaint 0x400A8

/-- Whether a set of a BME channel names a byte of the scratch region at or above a bound (R178, R388). -/
def Dev.bmeUses (d : Dev) (bound : Nat) : Bool :=
  let beyond (sp a len : Nat) : Bool := sp = spScratch && decide (bound < a + len)
  (List.range 8).any fun c =>
    let act := decide (d.rd (Reg.BME_ACT_LEN_bytes.ix c) ≠ 0) &&
      (beyond (d.rd (Reg.BME_ACT_CFG_src_space.ix c)) (d.rd (Reg.BME_ACT_SRC_addr.ix c)) (d.rd (Reg.BME_ACT_LEN_bytes.ix c)) ||
       beyond (d.rd (Reg.BME_ACT_CFG_dst_space.ix c)) (d.rd (Reg.BME_ACT_DST_addr.ix c)) (d.rd (Reg.BME_ACT_LEN_bytes.ix c)))
    let sh := decide (d.rd (Reg.BME_SH_LEN_bytes.ix c) ≠ 0) &&
      (beyond (d.rd (Reg.BME_SH_CFG_src_space.ix c)) (d.rd (Reg.BME_SH_SRC_addr.ix c)) (d.rd (Reg.BME_SH_LEN_bytes.ix c)) ||
       beyond (d.rd (Reg.BME_SH_CFG_dst_space.ix c)) (d.rd (Reg.BME_SH_DST_addr.ix c)) (d.rd (Reg.BME_SH_LEN_bytes.ix c)))
    act || sh

/-- What the PWC commit finds (R178) (DESIGN CHOICE, log entry 40). -/
def Dev.pwcFindings (d n : Dev) : List Finding :=
  let margin := n.rd Reg.PWC_CEIL_CFG_margin_pct
  let top := n.rd Reg.PWC_CEIL_CFG_max_gib
  let window := n.rd Reg.PWC_WT_CFG_window_mib
  let scratch := n.rd Reg.PWC_SCRATCH_mib
  findIf (decide (margin < 5 ∨ 50 < margin ∨ 128 < top)) cmField 0x50060 ++
  findIf (decide (window < 64 ∨ 8192 < window)) cmField 0x50064 ++
  findIf (decide (1024 < scratch)) cmField 0x50068 ++
  findIf (decide (top ≠ 0 ∧ top < n.rd Reg.PWC_CEIL_CFG_floor_gib)) cmConstraint 0x50060 ++
  findIf (decide (n.poolMib scratch < window + 1024)) cmConstraint 0x50064 ++
  findIf (decide (scratch < d.rd Reg.PWC_SCRATCH_mib) && d.bmeUses (scratch * 2 ^ 20)) cmInUse 0x50068

/-- What the MNT commit finds (R231, R233). -/
def Dev.mntFindings (d n : Dev) : List Finding :=
  let weights := [Reg.MNT_SHARE_dpx_maint_crit, Reg.MNT_SHARE_dpx_host_crit, Reg.MNT_SHARE_dpx_maint, Reg.MNT_SHARE_dpx_host,
    Reg.MNT_SHARE_ece_restripe, Reg.MNT_SHARE_ece_rebuild]
  let days := n.rd Reg.MNT_SCRUB_CFG_period_days
  findIf (weights.any fun f => decide (n.rd f = 0)) cmField 0x90060 ++
  findIf (decide (600 < n.rd Reg.MNT_CFG_assemble_s)) cmField 0x90064 ++
  findIf (decide (days < 1 ∨ 365 < days)) cmField 0x90068 ++
  findIf (decide (n.rd Reg.MNT_HOT_CFG_smc_ratio < 110 ∨ n.rd Reg.MNT_HOT_CFG_layout_ratio < 110)) cmField 0x9006C ++
  findIf (decide (n.rd Reg.MNT_RBLD_RATE_max_mbps ≠ d.rd Reg.MNT_RBLD_RATE_max_mbps) &&
    d.running.any fun x => decide (x.act = .driveFw)) cmMaint 0x90070

/-- What the DPX commit finds (R256, R259). -/
def Dev.dpxFindings (d n : Dev) : List Finding :=
  let spin := n.rd Reg.DPX_CFG_spinup_max
  let ready := n.rd Reg.DPX_CFG_ready_s
  let io := n.rd Reg.DPX_TMO_io_ms
  let long := n.rd Reg.DPX_TMO_long_s
  findIf (decide (spin < 1 ∨ 32 < spin ∨ ready < 10 ∨ 10000 < n.rd Reg.DPX_CFG_grace_ms)) cmField 0xD0050 ++
  findIf (decide (io < 1000 ∨ 60000 < io ∨ long < 10 ∨ 3600 < long)) cmField 0xD0054 ++
  (List.range 256).flatMap fun p =>
    let off := 0x200000 + 4096 * p
    findIf (decide (128 < n.rd (Reg.PT_CFG_qd.ix p) ∨ 6 ≤ n.rd (Reg.PT_CFG_max_rate.ix p))) cmField off ++
    findIf (d.rdB (Reg.PT_CFG_en.ix p) && !n.rdB (Reg.PT_CFG_en.ix p) && (d.memberOn p).isSome) cmInUse off ++
    findIf (d.staged.any (fun x => decide (x.1 / 64 = off)) && (match d.mnt.dfw with
      | some w => w.active.contains p
      | none => false)) cmMaint off

/-! ### LAY: arrays (R106, R107, R112, R125, R131, R222, R258) -/

/-- BAR0 offset of an array page. -/
def arrPage (a : Nat) : Nat := 0x400000 + 4096 * a
/-- BAR0 offset of a volume descriptor. -/
def volPage (v : Nat) : Nat := 0x500000 + 64 * v

/-- The first gap of a member list: the register where a valid member follows an absent one. -/
def listGap (xs : List Bool) : Option Nat :=
  let n := (xs.takeWhile id).length
  ((List.range xs.length).find? fun i => decide (n < i) && xs.getD i false).map fun _ => n / 2

/-- Validity of each member of a list laid out as AR_MEMBER. -/
def Dev.listValid (d : Dev) (vHi pHi vLo pLo : Fld) (a : Nat) : List Bool :=
  (List.range 256).map fun i => (d.listPort vHi pHi vLo pLo a i).isSome

/-- AR_MEMBER's validity. -/
def Dev.memberValid (d : Dev) (a : Nat) : List Bool :=
  d.listValid Reg.AR_MEMBER_valid_hi Reg.AR_MEMBER_port_hi Reg.AR_MEMBER_valid_lo Reg.AR_MEMBER_port_lo a

/-- AR_RS_MEMBER's validity. -/
def Dev.rsValid (d : Dev) (a : Nat) : List Bool :=
  d.listValid Reg.AR_RS_MEMBER_valid_hi Reg.AR_RS_MEMBER_port_hi Reg.AR_RS_MEMBER_valid_lo Reg.AR_RS_MEMBER_port_lo a

/-- The ports of a restripe's target list. -/
def Dev.rsPorts (d : Dev) (a : Nat) : List Nat :=
  ((List.range 256).map fun i => d.listPort Reg.AR_RS_MEMBER_valid_hi Reg.AR_RS_MEMBER_port_hi Reg.AR_RS_MEMBER_valid_lo
    Reg.AR_RS_MEMBER_port_lo a i).takeWhile Option.isSome |>.filterMap id

/-- Whether a code and a drive group break R106 or R22. -/
def shapeBad (k m spares : Nat) (ports : List Nat) : Bool :=
  let w := k + m
  let g := ports.length
  let c := clustersOf ports
  let inCluster (x : Nat) : Nat := (ports.filter fun p => decide (p / 32 = x)).length
  decide (k < 2 ∨ 28 < k ∨ m < 1 ∨ 4 < m ∨ 16 < spares ∨ 8 * m < w ∨ g < w + spares ∨ 256 < g ∨ c < 2 ∨ 8 < c ∨ m * c < w) ||
  ports.any fun p => decide (inCluster (p / 32) * c ≠ g)

/-- Whether a port cannot enter an array (R107): listed twice, in another array of the new configuration or among the members
that a running restripe adds to one, or without a usable drive. A port in LOOPBACK is left to R255. -/
def Dev.portBad (n : Dev) (a p : Nat) (ports : List Nat) : Bool :=
  decide (1 < (ports.filter (· = p)).length) ||
  (n.arrays.any fun b => decide (b ≠ a) && ((n.ports b).contains p ||
    (match (n.arr b).restripe with
     | some r => r.ports.contains p
     | none => false))) ||
  !(n.ptState p = ptReady || n.ptState p = ptLoopback)

/-- The cycle count of a new array (R112). -/
def Dev.newCycles (n : Dev) (a : Nat) : Nat :=
  let caps := (n.ports a).map fun p => n.rd (Reg.PT_BLOCKS_blocks.ix p)
  cyclesFor (unitBlocks (n.rd (Reg.AR_CFG_unit.ix a))) (caps.min?.getD 0)

/-- The new configuration with the cycle counts of the arrays that the commit creates. -/
def Dev.withCycles (d n : Dev) : Dev :=
  forEach (n.arrays.filter fun a => !d.arrEn a)
    (fun a n => n.updArr a fun _ => { cycles := n.newCycles a }) n

/-- Whether the non-zero power timers rise strictly (R258). -/
def Dev.timersRise (n : Dev) (a : Nat) : Bool :=
  let ts := [n.rd (Reg.AR_PWR_CFG_idle_s.ix a), 60 * n.rd (Reg.AR_PWR_CFG_standby_min.ix a), 60 * n.rd (Reg.AR_PWR_COLD_cold_min.ix a)]
  let ts := ts.filter (· ≠ 0)
  (ts.zip ts.tail).all fun x => decide (x.1 < x.2)

/-- The staged fields of an array page that hold values outside their encodings; an array with en 0 may hold the code 0 of
its reset (R40, R106, R129) (DESIGN CHOICE, log entry 40). -/
def Dev.arrEncodings (n : Dev) (a : Nat) : List Finding :=
  let k := n.rd (Reg.AR_CFG_k.ix a)
  let m := n.rd (Reg.AR_CFG_m.ix a)
  let ms := n.rd (Reg.AR_DEADLINE_ms.ix a)
  let unset := !n.arrEn a
  findIf (decide ((k < 2 ∧ ¬(unset = true ∧ k = 0)) ∨ 28 < k ∨ (m < 1 ∧ ¬(unset = true ∧ m = 0)) ∨ 4 < m ∨
      4 < n.rd (Reg.AR_CFG_unit.ix a) ∨ 16 < n.rd (Reg.AR_CFG_spares.ix a)))
    cmField (arrPage a) ++
  findIf (decide ((1 ≤ ms ∧ ms ≤ 19) ∨ 2000 < ms)) cmField (arrPage a + 0x10) ++
  (match listGap (n.memberValid a) with
   | some i => [(cmField, arrPage a + 0x200 + 4 * i)]
   | none => [])

/-- What the fields of an array of the new configuration break on their own. -/
def Dev.arrFieldFindings (n : Dev) (a : Nat) : List Finding :=
  let m := n.rd (Reg.AR_CFG_m.ix a)
  n.arrEncodings a ++
  findIf (decide (n.rd Reg.SYS_CAP0_max_parity < m)) cmCapability (arrPage a) ++
  ((List.range (n.memberCount a)).flatMap fun i =>
    findIf (decide (n.rd Reg.SYS_CAP0_ports ≤ (n.memberPort a i).getD 0)) cmCapability (arrPage a + 0x200 + 4 * (i / 2))) ++
  findIf (!n.timersRise a) cmConstraint (arrPage a + 0x80)

/-- What the creation of an array breaks (R106, R107, R112, R255). -/
def Dev.createFindings (n : Dev) (a : Nat) : List Finding :=
  let ports := n.ports a
  findIf (shapeBad (n.rd (Reg.AR_CFG_k.ix a)) (n.rd (Reg.AR_CFG_m.ix a)) (n.rd (Reg.AR_CFG_spares.ix a)) ports) cmConstraint
    (arrPage a) ++
  findIf (decide (n.newCycles a = 0)) cmConstraint (arrPage a) ++
  (List.range ports.length).flatMap fun i =>
    let p := ports.getD i 0
    findIf (n.portBad a p ports) cmConstraint (arrPage a + 0x200 + 4 * (i / 2)) ++
    findIf (decide (n.ptState p = ptLoopback)) cmInUse (arrPage a + 0x200 + 4 * (i / 2))

/-- What a change to an enabled array breaks: the offsets of the registers that R131 fixes and the commit changes. -/
def Dev.changeFindings (d n : Dev) (a : Nat) : List Finding :=
  let differ (f : Fld) : Bool := decide (d.rd (f.ix a) ≠ n.rd (f.ix a))
  findIf ([Reg.AR_CFG_k, Reg.AR_CFG_m, Reg.AR_CFG_unit, Reg.AR_CFG_spares].any differ) cmConstraint (arrPage a) ++
  findIf (differ Reg.AR_SEED_seed) cmConstraint (arrPage a + 8) ++
  (List.range 128).flatMap fun i =>
    let differAt (f : Fld) : Bool := decide (d.rd ((f.ix a).ix i) ≠ n.rd ((f.ix a).ix i))
    findIf ([Reg.AR_MEMBER_valid_hi, Reg.AR_MEMBER_port_hi, Reg.AR_MEMBER_valid_lo, Reg.AR_MEMBER_port_lo].any differAt)
      cmConstraint (arrPage a + 0x200 + 4 * i)

/-- Whether a maintenance activity runs on an array. -/
def Dev.maintained (d : Dev) (a : Nat) : Bool := d.running.any fun x => decide (x.array = a)

/-- What one array page breaks (DESIGN CHOICE, log entry 40). -/
def Dev.arrFindings (d n : Dev) (a : Nat) : List Finding :=
  if n.arrEn a then
    n.arrFieldFindings a ++ (if d.arrEn a then d.changeFindings n a else n.createFindings a)
  else if d.arrEn a then
    n.arrEncodings a ++
    findIf (n.volumes.any fun v => decide (n.volArray v = a)) cmInUse (arrPage a) ++
    findIf (d.maintained a) cmMaint (arrPage a)
  else n.arrEncodings a

/-! ### LAY: restripe (R222) -/

/-- Whether a commit asks an array for a restripe: go is set, or a target register changes under a go that stands. -/
def Dev.wantsRestripe (d n : Dev) (a : Nat) : Bool :=
  n.rdB (Reg.AR_RS_CFG_go.ix a) && n.arrEn a &&
  (!d.rdB (Reg.AR_RS_CFG_go.ix a) || d.staged.any fun x => decide (arrPage a + 0x8D0 ≤ x.1 / 64 ∧ x.1 / 64 < arrPage a + 0xB00))

/-- The target geometry that a commit stages. -/
def Dev.stagedTarget (n : Dev) (a : Nat) : Geo :=
  let ports := n.rsPorts a
  { k := n.rd (Reg.AR_RS_CFG_k.ix a), m := n.rd (Reg.AR_RS_CFG_m.ix a), spares := n.rd (Reg.AR_RS_CFG_spares.ix a),
    unit := n.rd (Reg.AR_CFG_unit.ix a), seed := BitVec.ofNat 64 (n.rd (Reg.AR_RS_SEED_seed.ix a)),
    g := ports.length, c := clustersOf ports, cycles := (n.arr a).cycles, rank := ranksOf ports }

/-- What a restripe's target breaks (R222) (DESIGN CHOICE, log entry 40). -/
def Dev.restripeFindings (d n : Dev) (a : Nat) : List Finding :=
  if !d.wantsRestripe n a then []
  else
    let cfg := arrPage a + 0x8D0
    let old := d.geo a
    let tg := n.stagedTarget a
    let ports := n.rsPorts a
    let present := n.ports a
    let listAt (i : Nat) : Nat := arrPage a + 0x900 + 4 * (i / 2)
    let vols := n.volumes.filter fun v => decide (n.volArray v = a)
    let first (v : Nat) : Nat := n.rd (Reg.VD_FIRST_first.ix v) * old.perStripe
    let size (v : Nat) : Nat := n.rd (Reg.VD_STRIPES_stripes.ix v) * old.perStripe
    (match listGap (n.rsValid a) with
     | some i => [(cmField, arrPage a + 0x900 + 4 * i)]
     | none => []) ++
    findIf (shapeBad tg.k tg.m tg.spares ports) cmConstraint cfg ++
    ((List.range (max ports.length present.length)).flatMap fun i =>
      let p := ports.getD i 0
      if i < present.length then findIf (decide (ports[i]? ≠ present[i]?)) cmConstraint (listAt i)
      else
        findIf (decide (256 ≤ p)) cmCapability (listAt i) ++
        findIf (n.portBad a p ports || decide (n.ptState p ≠ ptReady) ||
          decide (n.rd (Reg.PT_BLOCKS_blocks.ix p) < rsv + old.cycles * old.ub)) cmConstraint (listAt i)) ++
    findIf (vols.any fun v => decide (first v % max tg.perStripe 1 ≠ 0 ∨ size v % max tg.perStripe 1 ≠ 0 ∨
      tg.stripes * tg.perStripe < first v + size v)) cmConstraint cfg ++
    findIf (decide (d.arrState a ≠ asOptimal) || ((d.slots a).any fun s => decide (d.slotState a s ≠ slEmpty)) ||
      d.arbRefuses .restripe a) cmMaint cfg

/-! ### LAY: metadata budget and volumes (R125, R126, R131) -/

/-- MiB of stripe metadata that an array takes in the new configuration, its restripe target included. -/
def Dev.newMetaMib (d n : Dev) (a : Nat) : Nat :=
  let mib (g : Geo) : Nat := ceilDiv (g.stripes * 9) (4 * 2 ^ 20)
  max (mib (n.geo a)) (if d.wantsRestripe n a then mib (n.stagedTarget a) else 0)

/-- The array at which the budget is exceeded (R125). -/
def Dev.budgetFindings (d n : Dev) : List Finding :=
  let sums := n.arrays.map fun a => (a, ((n.arrays.filter (· ≤ a)).map (d.newMetaMib n)).sum)
  ((sums.filter fun x => decide (n.rd Reg.LAY_CAP1_meta_mib < x.2)).take 1).map fun x => (cmCapability, arrPage x.1)

/-- Whether the stripes of a live volume from one on are in use (R131): dirty blocks, commands in flight, held entries. -/
def Dev.volBusy (d : Dev) (v keep : Nat) : Bool :=
  let edge := keep * (d.geo (d.volArray v)).perStripe
  (d.dram.cache.any fun b => decide (b.vol = v) && decide (edge ≤ b.lba) && decide (b.st ≠ .clean)) ||
  (d.qmx.cmds.any fun c => namesVolume (eOpcode c.entry) && !eFlushAll c.entry && decide (eVolume c.entry = v)) ||
  (d.dram.det.any fun e => decide (e.volume = v) && decide (edge < e.lba + e.count))

/-- What one volume descriptor breaks (DESIGN CHOICE, log entry 40). -/
def Dev.volFindings (d n : Dev) (v : Nat) : List Finding :=
  let off := volPage v
  let a := n.volArray v
  let stripes := n.rd (Reg.VD_STRIPES_stripes.ix v)
  let first := n.rd (Reg.VD_FIRST_first.ix v)
  let old := d.rd (Reg.VD_STRIPES_stripes.ix v)
  findIf (decide (5000 < n.rd (Reg.VD_CFG_hold_ms.ix v))) cmField off ++
  if n.volExists v then
    let meets (u : Nat) : Bool := decide (u ≠ v) && decide (n.volArray u = a) &&
      decide (first < n.rd (Reg.VD_FIRST_first.ix u) + n.rd (Reg.VD_STRIPES_stripes.ix u)) &&
      decide (n.rd (Reg.VD_FIRST_first.ix u) < first + stripes)
    findIf (decide (stripes = 0)) cmField (off + 0x18) ++
    findIf (!n.arrEn a) cmConstraint off ++
    findIf (n.arrEn a && decide ((n.geo a).stripes < first + stripes)) cmConstraint (off + 0x10) ++
    findIf (n.arrEn a && decide (2 ^ 48 < stripes * (n.geo a).perStripe)) cmConstraint (off + 0x18) ++
    findIf (n.volumes.any meets) cmConstraint off ++
    (if d.volExists v then
      findIf (decide (d.volArray v ≠ a)) cmConstraint off ++
      findIf (decide (d.rd (Reg.VD_FIRST_first.ix v) ≠ first)) cmConstraint (off + 0x10) ++
      findIf (decide (stripes < old) && d.volBusy v stripes) cmInUse (off + 0x18) ++
      findIf (decide (stripes < old) && d.maintained (d.volArray v)) cmMaint (off + 0x18)
     else [])
  else if d.volExists v then findIf (d.volBusy v 0) cmInUse off
  else []

/-- What the LAY commit finds (DESIGN CHOICE, log entry 40). -/
def Dev.layFindings (d n : Dev) : List Finding :=
  let n := d.withCycles n
  (List.range 16).flatMap (d.arrFindings n) ++ (List.range 16).flatMap (d.restripeFindings n) ++ d.budgetFindings n ++
  (List.range 1024).flatMap (d.volFindings n)

/-- What the commit of a block finds. -/
def Dev.findings (d : Dev) (b : Blk) : Option Finding :=
  let n := d.withStaged b
  firstFinding (match b with
    | .bps => d.bpsFindings n
    | .pwc => d.pwcFindings n
    | .lay => d.layFindings n
    | .mnt => d.mntFindings n
    | .dpx => d.dpxFindings n
    | _ => [])

/-! ### The LAY switch point (R127, R129, R132, R222) -/

/-- The RO fields of an array page go to their reset values (R129). -/
def Dev.clearArrPage (d : Dev) (a : Nat) : Dev :=
  d.resetKeys fun k => decide (arrPage a ≤ k / 64 ∧ k / 64 < arrPage a + 4096) && keyHas .ro k

/-- The metadata tables of an array number are empty (R119, R122, R205). -/
def Dev.clearTables (d : Dev) (a : Nat) : Dev :=
  d.updDram fun m => { m with
    stripes := Tbl.erase m.stripes a, unitRecs := Tbl.erase m.unitRecs a
    missed := m.missed.filter fun p => decide (p.1 / 256 ≠ a) }

/-- An array is removed (R132): members released, labels overwritten. `ports` are its members' ports
(DESIGN CHOICE, log entry 41). -/
def Dev.arrRemoved (d : Dev) (a : Nat) (ports : List Nat) : Dev :=
  let d := forEach (ports.filter fun p => decide (d.ptState p = ptReady)) (fun p d => d.eraseLabels p) d
  let d := ((d.clearArrPage a).clearTables a).updArr a fun _ => {}
  let d := d.updCache fun xs => xs.filter fun b => decide (b.array ≠ a)
  let d := d.updLay fun l => { l with labelsOwed := l.labelsOwed.filter (· ≠ a) }
  { d with mnt := { d.mnt with acts := d.mnt.acts.filter fun x => decide (x.array ≠ a) } }

/-- An array is created (R112, R114, R129, R132, R203) (DESIGN CHOICE, log entry 41). -/
def Dev.arrCreated (d : Dev) (a : Nat) : Dev :=
  let ports := d.ports a
  let cycles := d.newCycles a
  let now := d.now
  let ids := (List.range ports.length).map fun i => (i, d.rd (Reg.PT_ID_id.ix (ports.getD i 0)))
  let d := (d.clearArrPage a).clearTables a
  let d := d.updArr a fun _ =>
    { cycles := cycles, created := now, arrayId := Config.serial ^^^ now,
      recPorts := (List.range ports.length).zip ports, recIdents := ids }
  let d := forEach (List.range ports.length) (fun i d => d.wr ((Reg.AR_MSTATE_state.ix a).ix i) msOk) d
  d.refreshArr a (ports.getD 0 0)

/-- A restripe begins (R222, R223). -/
def Dev.restripeBegin (d : Dev) (a : Nat) : Dev :=
  let old := d.geo a
  let tg := d.stagedTarget a
  let down := decide (tg.spc * tg.perStripe < old.spc * old.perStripe)
  let x : RestripeSt := { k := tg.k, m := tg.m, spares := tg.spares, seed := d.rd (Reg.AR_RS_SEED_seed.ix a), ports := d.rsPorts a,
                          descending := down }
  let d := forEach (List.range x.ports.length) (fun i d => if d.memberCount a ≤ i then d.setMember a i msOk else d) d
  let d := d.updArr a fun r => { r with restripe := some x }
  let d := d.wr (Reg.AR_RS_CUR_cycle.ix a) (if down then old.cycles - 1 else 0) |>.wr (Reg.AR_RS_STAT_permille.ix a) 0
  d.arbRequest .restripe a

/-- Stripes that enter a volume become FRESH, without lost marks; their generation is kept (R132). [lo, hi) is the range of
array blocks that enters. -/
def Dev.stripesEnter (d : Dev) (a lo hi : Nat) : Dev :=
  let ts := ((Tbl.getD d.dram.stripes a []).map Prod.fst).filter fun t =>
    let n := (d.geoAt a t).perStripe
    decide (stripeNo t * n < hi ∧ lo < (stripeNo t + 1) * n)
  forEach ts (fun t d => d.updStripe a t fun r => { r with state := ssFresh, lost := [] }) d

/-- One volume at the switch point (R127, R132); `o` is the device before it. -/
def Dev.volSwitch (d o : Dev) (v : Nat) : Dev :=
  let a := d.volArray v
  let n := (d.geo a).perStripe
  let first := d.rd (Reg.VD_FIRST_first.ix v)
  let top := first + d.rd (Reg.VD_STRIPES_stripes.ix v)
  if d.volExists v && !o.volExists v then
    let inc := (Tbl.getD d.lay.incarnation v 0 + 1) % 64
    let d := d.updLay fun l => { l with incarnation := Tbl.put l.incarnation v inc }
    (d.wr (Reg.VD_TAGID_tag_id.ix v) (inc * 1024 + v)).stripesEnter a (first * n) (top * n)
  else if d.volExists v then
    let was := o.rd (Reg.VD_FIRST_first.ix v) + o.rd (Reg.VD_STRIPES_stripes.ix v)
    let d := d.updCache fun xs => xs.filter fun b => decide (b.vol ≠ v) || decide (b.lba < (top - first) * n)
    if was < top then d.stripesEnter a (was * n) (top * n) else d
  else if o.volExists v then
    (d.updCache fun xs => xs.filter fun b => decide (b.vol ≠ v)).updLay fun l => { l with
      streams := l.streams.filter fun x => decide (x.volume ≠ v) }
  else d

/-- The arrays of the new configuration that a commit changes, whose labels and volume tables are to be written (R132). -/
def Dev.changedArrays (d o : Dev) : List Nat :=
  d.arrays.filter fun a =>
    (o.stagedOf .lay).any fun x =>
      let off := x.1 / 64
      decide (arrPage a ≤ off ∧ off < arrPage a + 4096) ||
      (decide (0x500000 ≤ off) &&
        (let v := (off - 0x500000) / 64
         (d.volExists v && decide (d.volArray v = a)) || (o.volExists v && decide (o.volArray v = a))))

/-- Commands admitted before the switch keep the view of their volume (R40) (DESIGN CHOICE, log entry 39). -/
def Dev.keepViews (o d : Dev) : Dev :=
  let keep (c : Cmd) : Cmd :=
    if namesVolume (eOpcode c.entry) && !eFlushAll c.entry then { c with seen := some (o.volView c) } else c
  { d with qmx := { d.qmx with cmds := d.qmx.cmds.map keep } }

/-- What follows the switch of a LAY commit; `o` is the device before it. -/
def Dev.laySwitch (d o : Dev) : Dev :=
  let d := o.keepViews d
  let d := forEach ((List.range 16).filter fun a => o.arrEn a && !d.arrEn a) (fun a d => d.arrRemoved a (o.ports a)) d
  let d := forEach ((List.range 16).filter fun a => d.arrEn a && !o.arrEn a) (fun a d => d.arrCreated a) d
  let d := forEach (List.range 1024) (fun v d => d.volSwitch o v) d
  let d := forEach (d.changedArrays o) (fun a d => d.oweLabels a) d
  let d := forEach ((List.range 16).filter fun a => o.wantsRestripe d a) (fun a d => d.restripeBegin a) d
  d.refreshVault.afterDrain

/-! ### The other switch points -/

/-- The scratch region changes its size (R178): a range that it gains is undefined, and clean copies make room
(DESIGN CHOICE, log entry 41). -/
def Dev.pwcSwitch (d o : Dev) : Dev :=
  let old := o.rd Reg.PWC_SCRATCH_mib
  let new := d.rd Reg.PWC_SCRATCH_mib
  let d := if old < new then d.bmeSpoil spScratch (old * 2 ^ 20) (new * 2 ^ 20) else d
  (Dev.dropClean (d.dram.cache.length - d.poolBlocks) d).refreshMode

/-- Ports are disabled and enabled (R237, R257). -/
def Dev.dpxSwitch (d o : Dev) : Dev :=
  forEach (List.range 256) (fun p d =>
    let old := o.rdB (Reg.PT_CFG_en.ix p)
    let new := d.rdB (Reg.PT_CFG_en.ix p)
    if old && !new then
      let d := ((d.spoilExit p).unlink p).setPt p ptDisabled 0
      d.updPort p fun s => { s with dev := none, recovery := none, grace := false }
    else if !old && new && decide (d.ptState p = ptDisabled) && decide (d.clState (p / 32) = clUp) then d.setPt p ptEmpty 0
    else d) d

/-- What follows the switch of a block's commit. -/
def Dev.switched (d o : Dev) (b : Blk) : Dev :=
  match b with
  | .lay => d.laySwitch o
  | .pwc => d.pwcSwitch o
  | .dpx => d.dpxSwitch o
  | _ => d

/-! ### The commit registers (R39 to R41, R347) -/

/-- Write PREFIX_COMMIT_STAT and PREFIX_COMMIT_WHERE. -/
def Dev.commitStat (d : Dev) (b : Blk) (busy status off : Nat) : Dev :=
  d.wr (Reg.COMMIT_STAT_busy.ix b.page) busy |>.wr (Reg.COMMIT_STAT_status.ix b.page) status
    |>.wr (Reg.COMMIT_WHERE_offset.ix b.page) off

/-- Whether a write to a block's PREFIX_COMMIT is refused (R40, R347). -/
def Dev.commitRefused (d : Dev) (b : Blk) : Bool :=
  d.rdB (Reg.COMMIT_STAT_busy.ix b.page) || decide (d.blkState .ccx = stFault)

/-- PREFIX_COMMIT.go, with discard in the same write or without it (DESIGN CHOICE, log entry 41). -/
def Dev.commitGo (d : Dev) (b : Blk) (token : Nat) (alsoDiscard : Bool) : Dev :=
  if !commitBlks.contains b then d
  else if d.commitRefused b || alsoDiscard then d.refuse b
  else
    let d := d.wr (Reg.COMMIT_STAT_token.ix b.page) token
    if d.blkState .sys = stHalt then d.commitStat b 0 7 0 else d.commitStat b 1 1 0

/-- PREFIX_COMMIT.discard. -/
def Dev.commitDiscard (d : Dev) (b : Blk) : Dev :=
  if !commitBlks.contains b then d
  else if d.commitRefused b then d.refuse b
  else d.unstage (keyOf b)

/-- COMMIT_COMPLETE's effect: the check, and the switch point if it passes. It waits until admission is open (R317), and
while CCX is in FAULT (R347) (DESIGN CHOICE, log entry 41). -/
def Dev.commitComplete (d : Dev) (b : Blk) : Dev :=
  if !d.rdB (Reg.COMMIT_STAT_busy.ix b.page) || decide (d.phase ≠ phReady) || decide (d.blkState .ccx = stFault) then d
  else match d.findings b with
    | some (st, off) => d.commitStat b 0 st off
    | none =>
      let n := (d.withStaged b).switched d b
      (n.commitStat b 0 0 0).wr (Reg.COMMIT_ASN_asn.ix b.page) (d.qmx.adm % 2 ^ 32)

/-! ### Meanings -/

/-- COMMIT_GO (R40). -/
def execCommitGo (b : Blk) (token : BitVec 16) (alsoDiscard : Bool) (s : State) : Out :=
  s.act fun d => d.atPage b fun d => d.commitGo b token.toNat alsoDiscard

/-- COMMIT_DISCARD (R40). -/
def execCommitDiscard (b : Blk) (s : State) : Out := s.act fun d => d.atPage b fun d => d.commitDiscard b

/-- COMMIT_COMPLETE (R40). -/
def execCommitComplete (b : Blk) (s : State) : Out := s.act fun d => d.commitComplete b

end Sys2Proof.Machine
end

