-- ==== Sys2Proof/Machine/Access.lean ====
section
/-! DEFINITION. Host register accesses and the sideband: access codes, locks, byte enables, the two halves of a 64-bit
register, what each register's write does, the VF windows and the MSI-X tables (R9, R26 to R28, R36, R40, R46, R47, R73, R75
to R77, R406). -/

set_option Elab.async false

namespace Sys2Proof.Machine

/-! ### One field (R9) -/

/-- The page whose lock bit 0 governs an RWL field. -/
def lockPage (g : Fld) : Nat := ((rwlFields.find? fun x => x.1 = g).map Prod.snd).getD 0

/-- A write of x to a field, by its access code. -/
def Dev.fieldWrite (d : Dev) (g : Fld) (x : Nat) : Dev :=
  match g.acc with
  | .ro => d
  | .wo => d
  | .rw => d.wr g x
  | .w1c => d.wr g (d.rd g ^^^ (d.rd g &&& x))
  | .w1s => d.wr g (d.rd g ||| x)
  | .rwl => if d.locked (lockPage g) then d else d.wr g x
  | .rws =>
    match commitOwner g.base with
    | some b => if d.rdB (Reg.COMMIT_STAT_busy.ix b.page) then d.refuse b else d.wrStaged g x
    | none => d

/-- The bits of a register value that belong to a field. -/
def Fld.of (f : Fld) (v : Nat) : Nat := bitsOf v f.hi f.lo

/-- Every field of a register takes its part of the value. -/
def Dev.plainWrite (d : Dev) (r v : Nat) : Dev := forEach (fieldsAt r) (fun p d => d.fieldWrite (p.1.at p.2) (p.1.of v)) d

/-! ### Registers with a meaning of their own -/

/-- BLK_CTRL (R32, R35): soft_reset is judged first, then clk_hold and en take their values. -/
def Dev.ctrlWrite (d : Dev) (b : Blk) (v : Nat) : Dev :=
  let d := onlyIf (bitOf v 3) (fun d => d.errClr b) d
  let d := onlyIf (bitOf v 1) (fun d => d.softReset b) d
  let d := d.wrB (Reg.BLK_CTRL_clk_hold.ix b.page) (bitOf v 2)
  if bitOf v 0 = d.rdB (Reg.BLK_CTRL_en.ix b.page) then d
  else if bitOf v 0 then d.blockEnable b else d.blockDisable b

/-- BLK_INT_RAW (R9, R34). -/
def Dev.rawClear (d : Dev) (b : Blk) (v : Nat) : Dev := d.updNote b fun n => { n with raw := n.raw ^^^ (n.raw &&& v) }

/-- PREFIX_COMMIT (R40). -/
def Dev.commitWrite (d : Dev) (b : Blk) (v : Nat) : Dev :=
  if bitOf v 0 then d.commitGo b (bitsOf v 31 16) (bitOf v 1)
  else if bitOf v 1 then d.commitDiscard b
  else if d.commitRefused b then d.refuse b
  else d

/-- AR_MCTRL (R232). -/
def Dev.mctrlWrite (d : Dev) (a v : Nat) : Dev :=
  let i := bitsOf v 7 0
  match bitsOf v 31 30 with
  | 1 => d.actFail a i
  | 2 => d.actReplace a i (bitsOf v 24 16)
  | 3 => d.actRebuild a i
  | _ => d

/-- VLT_CTRL (R321): both bits at once act as discard. -/
def Dev.vltWrite (d : Dev) (v : Nat) : Dev :=
  if bitOf v 1 then d.vaultDiscard else if bitOf v 0 then d.vaultAccept else d

/-- TMB_CFG (R373, R377). -/
def Dev.tmbCfgWrite (d : Dev) (v : Nat) : Dev :=
  let d := (d.wr Reg.TMB_CFG_edge (bitsOf v 30 30)).wr Reg.TMB_CFG_delay_ns (bitsOf v 15 0)
  if bitOf v 31 = d.rdB Reg.TMB_CFG_pps_en then d else d.ppsEnable (bitOf v 31)

/-- DPX_CL (R247, R256): en, then reset. -/
def Dev.clusterWrite (d : Dev) (n v : Nat) : Dev :=
  let d := if bitOf v 31 = d.rdB (Reg.DPX_CL_en.ix n) then d
    else if bitOf v 31 then d.clusterEnable n else d.clusterDisable n
  if bitOf v 30 then d.clusterReset n else d

/-- BME_CH_CTRL (R381, R385). -/
def Dev.bmeCtrlWrite (d : Dev) (c v : Nat) : Dev :=
  let d := if bitOf v 31 = d.rdB (Reg.BME_CH_CTRL_en.ix c) then d
    else if bitOf v 31 then d.bmeEnable c else d.bmeDrop c
  if bitOf v 0 then d.bmeResume c else d

/-- A shadow register of a BME channel (R381): refused while the set is armed; arm comes after the other fields. -/
def Dev.bmeShadowWrite (d : Dev) (c r v : Nat) : Dev :=
  if d.rdB (Reg.BME_SH_CFG_armed.ix c) then d.refuse .bme
  else
    let d := d.plainWrite r v
    if r = (Reg.BME_SH_CFG_arm.ix c).base ∧ bitOf v 31 then d.bmeArm c else d

/-! ### Queue and event ring descriptors (R75 to R77) -/

/-- The RW fields, other than en, of a ring's register: they change only while it is off; a write to them at any other time
is refused. In the register that holds en, which may be written at any time, the other fields count as written where
the value would change them (DEDUCED, log entry 33). -/
def Dev.ringFields (d : Dev) (off : Bool) (en : Fld) (r v : Nat) : Dev :=
  let here := fieldsAt r
  let fs := here.filter fun p => decide (p.1.acc = .rw) && decide (p.1 ≠ en)
  if off then forEach fs (fun p d => d.wr (p.1.at p.2) (p.1.of v)) d
  else if fs ≠ [] ∧ (here.all (fun p => decide (p.1 ≠ en)) = true ∨ fs.any (fun p => decide (d.rd (p.1.at p.2) ≠ p.1.of v)) = true)
  then d.refuse .qmx
  else d

/-- A register of the SQ half of a descriptor. -/
def Dev.sqWrite (d : Dev) (f i r v : Nat) : Dev :=
  let q := d.sqBase f + i
  let d := d.ringFields (decide (d.sqState q = sqDisabled)) Reg.QD_SQ_CFG_en r v
  if r ≠ (Reg.QD_SQ_CFG_en.ix q).base then d
  else
    let d := onlyIf (bitOf v 30) (fun d => d.sqRestart f i) d
    if bitOf v 31 = d.rdB (Reg.QD_SQ_CFG_en.ix q) then d
    else if bitOf v 31 then d.sqEnable f i else d.sqDisable f i

/-- A register of the CQ half of a descriptor. -/
def Dev.cqWrite (d : Dev) (f i r v : Nat) : Dev :=
  let q := d.cqBase f + i
  let d := d.ringFields (!d.cqActive q) Reg.QD_CQ_CFG_en r v
  if r ≠ (Reg.QD_CQ_CFG_en.ix q).base then d
  else if bitOf v 31 = d.cqActive q then d
  else if bitOf v 31 then d.cqEnable f i else d.cqDisable f i

/-- A write to a queue descriptor: one that the writer does not own is ignored. -/
def Dev.descWrite (d : Dev) (f q o r v : Nat) : Dev :=
  if o < 32 then
    if d.sqBase f ≤ q ∧ q < d.sqBase f + d.sqCount f then d.sqWrite f (q - d.sqBase f) r v else d
  else if d.cqBase f ≤ q ∧ q < d.cqBase f + d.cqCount f then d.cqWrite f (q - d.cqBase f) r v
  else d

/-- A write to an event ring descriptor: a function writes its own. -/
def Dev.evrWrite (d : Dev) (f g r v : Nat) : Dev :=
  if f ≠ g then d
  else
    let d := d.ringFields (!d.rdB (Reg.EVR_CFG_en.ix g)) Reg.EVR_CFG_en r v
    if r ≠ (Reg.EVR_CFG_en.ix g).base then d
    else if bitOf v 31 = d.rdB (Reg.EVR_CFG_en.ix g) then d
    else if bitOf v 31 then d.ringEnable g else d.ringDisable g

/-! ### Actions of WO fields (R9) -/

/-- What writing 1 to a WO field does; i is the first index of its register. Fields whose effect needs a report from outside
the block (a training result, a measurement, the image in a slot) act through the row that carries the report (DESIGN CHOICE, log entry
32). -/
def woEffect (f : Fld) (i : Nat) (d : Dev) : Dev :=
  if f = Reg.HIF_CONTAIN_release then d.containRelease
  else if f = Reg.HIF_CONTAIN_log_clr then d.containLogClr
  else if f = Reg.ECE_LANE_CTRL_retest then d.retest
  else if f = Reg.ECE_KAT_CTRL_run then d.katStart
  else if f = Reg.SMC_REKEY_go then d.smcRekeyGo
  else if f = Reg.SMC_INV_go then d.smcInvalidate
  else if f = Reg.SMC_BIST_go then d.smcBistGo
  else if f = Reg.MNT_DFW_CTRL_go then d.dfwGo
  else if f = Reg.PWC_RETRAIN_CTRL_go then d.arbRequest .dramRetrain wholeDevice
  else if f = Reg.PT_CTRL_reset then d.portReset i
  else if f = Reg.PT_CTRL_fail then d.portFail i
  else if f = Reg.PT_CTRL_loop_start then d.loopStart i
  else if f = Reg.PT_CTRL_loop_stop then d.loopStop i
  else if f = Reg.AR_PWR_CTRL_wake then d.wakeArr i
  else if f = Reg.AR_PWR_CTRL_lat_clear then d.latClear i
  else if f = Reg.BPS_LEARN_CTRL_go then d.learnAsk
  else if f = Reg.BPS_LEARN_CTRL_abort then d.learnAbort
  else if f = Reg.BPS_CTRL_rest_req then d.windowRequest
  else if f = Reg.BPS_CTRL_gauge_reset then d.gaugeReset
  else if f = Reg.BPS_CTRL_new_pack then d.newPack
  else if f = Reg.CCX_FW_CTRL_write then d.fwWrite
  else if f = Reg.TMB_SET_CTRL_arm then d.timeArm
  else d

/-- The WO fields of a register that are written 1 act, lowest bit first, after its other fields have taken their values
(DESIGN CHOICE, log entry 32). -/
def Dev.woWrite (d : Dev) (r v : Nat) : Dev :=
  forEach ((fieldsAt r).reverse.filter fun p => decide (p.1.acc = .wo) && bitOf v p.1.lo)
    (fun p d => woEffect p.1 (p.2.getD 0 0) d) d

/-! ### One register (R25) -/

/-- Registers of a block page that do more than their access codes say. -/
def Dev.pageWrite (d : Dev) (b : Blk) (r v : Nat) : Dev :=
  let o := r % 65536
  if o = 0x10 then d.ctrlWrite b v
  else if o = 0x18 then d.rawClear b v
  else if o = 0x2C then d.lockSet b v
  else if o = 0x40 ∧ commitPages.contains b.page then d.commitWrite b v
  else if r = Reg.SYS_THERM_CFG_trip_c.base then d.thermCfg v
  else if r = Reg.SYS_HALT_SRC_valid.base then onlyIf (bitOf v 31) Dev.clearHaltRecord d
  else if r = Reg.TMB_CFG_pps_en.base then d.tmbCfgWrite v
  else if r = Reg.BPS_CHG_CTRL_inhibit.base then d.chargerInhibit (bitOf v 0)
  else if r = Reg.VLT_CTRL_accept.base then d.vltWrite v
  else if r = Reg.CCX_CTRL_retest.base then d.pairRetest (bitsOf v 2 0)
  else if 0x21000 ≤ r ∧ r < 0x21000 + 16 * 65 ∧ r % 16 < 8 then
    d.quotaWrite (r % 16 = 4) ((r - 0x21000) / 16) (bitsOf v 9 0) (bitsOf v 26 16)
  else if 0x22000 ≤ r ∧ r < 0x22000 + 32 * 65 then d.evrWrite 0 ((r - 0x22000) / 32) r v
  else if 0xB0100 ≤ r ∧ r < 0xB0500 ∧ (r - 0xB0100) % 128 = 0 then d.bmeCtrlWrite ((r - 0xB0100) / 128) v
  else if 0xB0100 ≤ r ∧ r < 0xB0500 ∧ 0x30 ≤ (r - 0xB0100) % 128 ∧ (r - 0xB0100) % 128 < 0x48 then
    d.bmeShadowWrite ((r - 0xB0100) / 128) r v
  else if 0xD0100 ≤ r ∧ r < 0xD0140 ∧ r % 8 = 0 then d.clusterWrite ((r - 0xD0100) / 8) v
  else (d.plainWrite r v).woWrite r v

/-- The complete value v is written to the register at an address, by a function. -/
def Dev.regWrite (d : Dev) (f r v : Nat) : Dev :=
  if r < 0xE0000 then
    if 0x22000 ≤ r ∧ r < 0x22000 + 32 * 65 then d.evrWrite f ((r - 0x22000) / 32) r v
    else d.pageWrite (blkOf (r / 65536)) r v
  else if r / 65536 = 16 then d.descWrite f ((r - 0x100000) / 64) (r % 64) r v
  else if r / 65536 = 64 ∧ r % 4096 = 0x800 then d.mctrlWrite ((r - 0x400000) / 4096) v
  else (d.plainWrite r v).woWrite r v

/-! ### Halves of a 64-bit register (R28) -/

/-- What a high half is paired with when no low half is held. -/
def Dev.lowPair (d : Dev) (r : Nat) : Nat :=
  ((fieldsAt r).map fun p =>
    let g := p.1.at p.2
    (match g.acc with
     | .rw => d.rd g
     | .rwl => d.rd g
     | .rws => d.rdStaged g
     | _ => 0) * 2 ^ p.1.lo).sum % 2 ^ 32

/-- A dword write: the low half of a 64-bit register is held, and its high half completes it (DEDUCED, log entry 33). -/
def Dev.dwordWrite (d : Dev) (f a v : Nat) : Dev :=
  if wideAt a then { d with heldLow := Tbl.put d.heldLow a v }
  else if regOf a = a then d.regWrite f a v
  else
    let r := regOf a
    let low := match Tbl.get? d.heldLow r with
      | some x => x
      | none => d.lowPair r
    ({ d with heldLow := Tbl.erase d.heldLow r } : Dev).regWrite f r (v * 2 ^ 32 + low)

/-- A 64-bit write takes effect as one value; over two registers it is two writes, low dword first
(DEDUCED, log entry 33). -/
def Dev.qwordWrite (d : Dev) (f a v : Nat) : Dev :=
  if wideAt a then ({ d with heldLow := Tbl.erase d.heldLow a } : Dev).regWrite f a v
  else (d.dwordWrite f a (v % 2 ^ 32)).dwordWrite f (a + 4) (v / 2 ^ 32)

/-- The block that owns the page of a BAR0 address (R25). -/
def pageOwner (a : Nat) : Blk :=
  if a < 0xE0000 then blkOf (a / 65536)
  else if a / 65536 = 16 then .qmx
  else (commitOwner a).getD .lay

/-- A write to the BAR0 register space at an address: a page that does not answer ignores it; a GATED block wakes. -/
def Dev.spaceWrite (d : Dev) (f a : Nat) (wide : Bool) (v : Nat) : Dev :=
  if !d.answers a then d
  else
    let d := d.ungate (pageOwner a)
    if wide then d.qwordWrite f a v else d.dwordWrite f a (v % 2 ^ 32)

/-! ### Requests (R27, R46, R47, R73) -/

/-- SYS_INT_RAW.bad_access (R27). -/
def Dev.badAccess (d : Dev) : Dev := d.causeBit .sys 16

/-- Where a function's event ring doorbell lies, above its queue slots (R73). -/
def eventBell (f : Nat) : Nat := if f = 0 then 0x4000 else 0x1000

/-- A doorbell dword: PF0's in BAR2, a VF's in its BAR0 (R73); offsets that the table does not list ignore writes. -/
def Dev.doorbell (d : Dev) (f a : Nat) (v : Dword) (part : Bool) : Dev :=
  if a = eventBell f then d.eventHead f v part
  else if eventBell f ≤ a then d
  else if a % 16 = 0 then d.sqTail f (a / 16) v part
  else if a % 16 = 8 then d.cqHead f (a / 16) v part
  else d

/-- A write to a doorbell space. The host must use one aligned 32-bit write (R74); of other writes the spec says nothing
more: a misaligned one is ignored without a report, and a 64-bit one acts by its low dword
(DESIGN CHOICE, log entry 73). -/
def Dev.bellWrite (d : Dev) (w : BusWrite) : Dev :=
  if w.addr % 4 = 0 then (d.ungate .qmx).doorbell w.fn w.addr (BitVec.ofNat 32 w.value.toNat) (!w.allBytes) else d

/-- A dword of an MSI-X table (R47); the PBA is read-only (DEDUCED, log entry 18). -/
def Dev.msixWrite (d : Dev) (f a v : Nat) : Dev :=
  let e := a / 16
  if vectorsOf f ≤ e then d
  else
    let m := d.vec f e
    if a % 16 = 0 then d.setVec f e { m with addr := m.addr / 2 ^ 32 * 2 ^ 32 + v / 4 * 4 }
    else if a % 16 = 4 then d.setVec f e { m with addr := v * 2 ^ 32 + m.addr % 2 ^ 32 }
    else if a % 16 = 8 then d.setVec f e { m with data := v }
    else if bitOf v 0 then d.setVec f e { m with masked := true }
    else d.msixUnmask f e

/-- Size of the memory BAR that a request names, 0 if the function has none (R46). -/
def barSize (f : Nat) (sp : Space) : Nat :=
  match sp with
  | .bar0 => if f = 0 then 2 ^ 25 else 0
  | .doorbell => if f = 0 then 2 ^ 18 else 0
  | .vf => if f = 0 then 0 else 65536
  | .msix => if f = 0 then 65536 else 4096

/-- Where an aligned, complete write of a request goes. -/
def Dev.routeWrite (d : Dev) (w : BusWrite) (v : Nat) : Dev :=
  match w.space with
  | .bar0 => d.spaceWrite 0 w.addr w.wide v
  | .msix =>
    let d := d.msixWrite w.fn w.addr (v % 2 ^ 32)
    if w.wide then d.msixWrite w.fn (w.addr + 4) (v / 2 ^ 32) else d
  | .doorbell => d
  | .vf =>
    match d.windowAddr w.fn w.addr with
    | some a => d.spaceWrite w.fn a w.wide v
    | none => d

/-- Whether a write goes to a doorbell space (R73). -/
def toBell (w : BusWrite) : Bool := w.space = .doorbell || (w.space = .vf && decide (w.addr < 0x2000))

/-- A host memory write (R27, R46, R73, R74) (DEDUCED, log entry 33) (DESIGN CHOICE, log entry 73). -/
def Dev.busWrite (d : Dev) (w : BusWrite) : Dev :=
  if !d.linkUp then d
  else if !d.reaches w.fn then d.exitL1.logUr w.fn
  else if barSize w.fn w.space ≤ w.addr then d.exitL1.logUr w.fn
  else
    let d := d.exitL1.ungate .hif
    if toBell w then d.bellWrite w
    else if !w.allBytes ∨ w.addr % (if w.wide then 8 else 4) ≠ 0 then d.badAccess
    else d.routeWrite w w.value.toNat

/-- A dword of a function's MSI-X BAR (R47): the table's entries, then, at 0x8000 for PF0 and 0x800 for a VF, the pending
bits; other offsets read 0. -/
def Dev.msixRead (d : Dev) (f a : Nat) : Nat :=
  let pba := if f = 0 then 0x8000 else 0x800
  let e := a / 16
  if e < vectorsOf f then
    let m := d.vec f e
    if a % 16 = 0 then m.addr % 2 ^ 32
    else if a % 16 = 4 then m.addr / 2 ^ 32
    else if a % 16 = 8 then m.data
    else b2n m.masked
  else if pba ≤ a ∧ a < pba + vectorsOf f / 8 then
    ((List.range 32).map fun i => if (d.vec f (8 * (a - pba) + i)).pend then 2 ^ i else 0).sum
  else 0

/-- A dword of a register space, and the latch of R28: reading a low half latches the high half, and the next read of the high
half returns what was latched (DEDUCED, log entry 33). -/
def Dev.latchRead (d : Dev) (f a : Nat) : Dev × Nat :=
  match d.windowAddr f a with
  | none => (d, d.barRead f a)
  | some x =>
    let d := d.ungate (pageOwner x)
    if wideAt x then ({ d with hiLatch := Tbl.put d.hiLatch (x + 4) (d.dwordRead (x + 4)) }, d.dwordRead x)
    else match Tbl.get? d.hiLatch x with
      | some v => ({ d with hiLatch := Tbl.erase d.hiLatch x }, v)
      | none => (d, d.dwordRead x)

/-- A dword without the latch: half of a 64-bit read, which is consistent in itself (R28). -/
def Dev.plainRead (d : Dev) (f a : Nat) : Nat :=
  match d.windowAddr f a with
  | none => d.barRead f a
  | some x => d.dwordRead x

/-- The enabled bytes of a value; a byte that is not enabled carries nothing, shown as 0 (R27)
(DESIGN CHOICE, log entry 74). -/
def enabledBytes (enables v : Nat) : Nat :=
  ((List.range 8).map fun i => if bitOf enables i then bitsOf v (8 * i + 7) (8 * i) * 2 ^ (8 * i) else 0).sum

/-- What a read of a space returns, from its aligned dword on. A 64-bit read takes both dwords as they stand and leaves the
latch (DESIGN CHOICE, log entry 74). -/
def Dev.spaceRead (d : Dev) (f : Nat) (r : BusRead) : Dev × Nat :=
  let a := r.addr / 4 * 4
  match r.space with
  | .doorbell => (d, 0)
  | .msix => (d, d.msixRead f a + (if r.wide then d.msixRead f (a + 4) * 2 ^ 32 else 0))
  | .bar0 | .vf => if r.wide then (d, d.plainRead f a + d.plainRead f (a + 4) * 2 ^ 32) else d.latchRead f a

/-- A host memory read (R27, R28, R46, R47, R73). -/
def Dev.busRead (d : Dev) (f : Nat) (r : BusRead) : Dev :=
  if !d.linkUp then d
  else if !d.reaches f then d.exitL1.logUr f
  else if barSize f r.space ≤ r.addr then d.exitL1.logUr f
  else
    let x := (d.exitL1.ungate .hif).spaceRead f r
    x.1.emit (.reply (enabledBytes r.enables x.2))

/-- Whether the sideband shows an address: the SYS page and every common header (R406). -/
def sidebandShows (a : Nat) : Bool := decide (a < 0x10000) || (decide (a < 0xE0000) && decide (a % 65536 < 0x40))

/-- What the sideband answers. -/
def Dev.sidebandData (d : Dev) (a : Nat) : Nat := if sidebandShows (a / 4 * 4) then d.dwordRead (a / 4 * 4) else 0

/-! ### Meanings -/

/-- REGISTER_WRITE (R9, R27, R28). -/
def execRegisterWrite (w : BusWrite) (s : State) : Out := s.act fun d => d.busWrite w

/-- LOW_DWORD_READ (R27, R28): every read of a memory space of the host, the low dword of a 64-bit register among them. -/
def execLowDwordRead (fn : Nat) (r : BusRead) (s : State) : Out := s.act fun d => d.busRead fn r

/-- SIDEBAND_READ (R406). -/
def execSidebandRead (addr : Nat) (s : State) : Out := s.act fun d => d.emit (.smbusReply (d.sidebandData addr))

/-- SIDEBAND_WRITE (R406). -/
def execSidebandWrite (_addr : Nat) (_v : Dword) (s : State) : Out := s.act fun d => d.emit .smbusNack

end Sys2Proof.Machine
end

