-- ==== Sys2Proof/Machine/Dispatch.lean ====
section
/-! DEFINITION. The dispatch of a command to its meaning: one arm per constructor of Instr. -/

namespace Sys2Proof.Machine

/-- The effect of a command on everything but the queue. -/
def exec (i : Instr) (s : State) : Host.Outcome State Fault Refusal :=
  match i with
  | .registerWrite w => Sys2Proof.Machine.execRegisterWrite w s
  | .lowDwordRead fn r => Sys2Proof.Machine.execLowDwordRead fn r s
  | .errClr b => Sys2Proof.Machine.execErrClr b s
  | .softReset b => Sys2Proof.Machine.execSoftReset b s
  | .blockDisable b => Sys2Proof.Machine.execBlockDisable b s
  | .blockEnable b => Sys2Proof.Machine.execBlockEnable b s
  | .blockDrainDone b => Sys2Proof.Machine.execBlockDrainDone b s
  | .lockSet b bits => Sys2Proof.Machine.execLockSet b bits s
  | .clockGate b => Sys2Proof.Machine.execClockGate b s
  | .commitGo b token alsoDiscard => Sys2Proof.Machine.execCommitGo b token alsoDiscard s
  | .commitDiscard b => Sys2Proof.Machine.execCommitDiscard b s
  | .commitComplete b => Sys2Proof.Machine.execCommitComplete b s
  | .sidebandRead addr => Sys2Proof.Machine.execSidebandRead addr s
  | .sidebandWrite addr v => Sys2Proof.Machine.execSidebandWrite addr v s
  | .unsupportedRequest r => Sys2Proof.Machine.execUnsupportedRequest r s
  | .configRequest fn off wr => Sys2Proof.Machine.execConfigRequest fn off wr s
  | .numVfsWrite n => Sys2Proof.Machine.execNumVfsWrite n s
  | .vfEnableSet => Sys2Proof.Machine.execVfEnableSet s
  | .vfEnableClear => Sys2Proof.Machine.execVfEnableClear s
  | .msixUnmask fn vec => Sys2Proof.Machine.execMsixUnmask fn vec s
  | .tagGrant => Sys2Proof.Machine.execTagGrant s
  | .hostReadCompletion tag data poisoned => Sys2Proof.Machine.execHostReadCompletion tag data poisoned s
  | .completionTimeout tag => Sys2Proof.Machine.execCompletionTimeout tag s
  | .quarantineExpire tag => Sys2Proof.Machine.execQuarantineExpire tag s
  | .unexpectedCompletion tag => Sys2Proof.Machine.execUnexpectedCompletion tag s
  | .perstAssert => Sys2Proof.Machine.execPerstAssert s
  | .perstDeassert => Sys2Proof.Machine.execPerstDeassert s
  | .hotReset => Sys2Proof.Machine.execHotReset s
  | .flrPf0 => Sys2Proof.Machine.execFlrPf0 s
  | .flrVf fn => Sys2Proof.Machine.execFlrVf fn s
  | .flrComplete fn => Sys2Proof.Machine.execFlrComplete fn s
  | .memorySpaceDisable fn => Sys2Proof.Machine.execMemorySpaceDisable fn s
  | .busMasterDisable fn => Sys2Proof.Machine.execBusMasterDisable fn s
  | .busMasterEnable fn => Sys2Proof.Machine.execBusMasterEnable fn s
  | .d3hotEntry fn => Sys2Proof.Machine.execD3hotEntry fn s
  | .d0Entry fn => Sys2Proof.Machine.execD0Entry fn s
  | .pmeTurnOff => Sys2Proof.Machine.execPmeTurnOff s
  | .l1EntryRequest => Sys2Proof.Machine.execL1EntryRequest s
  | .l0pNarrow => Sys2Proof.Machine.execL0pNarrow s
  | .l0pWiden => Sys2Proof.Machine.execL0pWiden s
  | .containment cause fn => Sys2Proof.Machine.execContainment cause fn s
  | .containRelease => Sys2Proof.Machine.execContainRelease s
  | .containLogClr => Sys2Proof.Machine.execContainLogClr s
  | .quotaWrite cq fn base count => Sys2Proof.Machine.execQuotaWrite cq fn base count s
  | .sqTailDoorbell fn idx v partialBytes => Sys2Proof.Machine.execSqTailDoorbell fn idx v partialBytes s
  | .cqHeadDoorbell fn idx v partialBytes => Sys2Proof.Machine.execCqHeadDoorbell fn idx v partialBytes s
  | .eventHeadDoorbell fn v partialBytes => Sys2Proof.Machine.execEventHeadDoorbell fn v partialBytes s
  | .sqEnable fn idx => Sys2Proof.Machine.execSqEnable fn idx s
  | .sqDisable fn idx => Sys2Proof.Machine.execSqDisable fn idx s
  | .sqRestart fn idx => Sys2Proof.Machine.execSqRestart fn idx s
  | .cqEnable fn idx => Sys2Proof.Machine.execCqEnable fn idx s
  | .cqDisable fn idx => Sys2Proof.Machine.execCqDisable fn idx s
  | .eventRingEnable fn => Sys2Proof.Machine.execEventRingEnable fn s
  | .eventRingDisable fn => Sys2Proof.Machine.execEventRingDisable fn s
  | .arbitrate => Sys2Proof.Machine.execArbitrate s
  | .entryAdmit => Sys2Proof.Machine.execEntryAdmit s
  | .fragmentTableCheck adm => Sys2Proof.Machine.execFragmentTableCheck adm s
  | .haltRecordClear => Sys2Proof.Machine.execHaltRecordClear s
  | .read adm => Sys2Proof.Machine.execRead adm s
  | .write adm => Sys2Proof.Machine.execWrite adm s
  | .flush adm => Sys2Proof.Machine.execFlush adm s
  | .verify adm => Sys2Proof.Machine.execVerify adm s
  | .deallocate adm => Sys2Proof.Machine.execDeallocate adm s
  | .writeZeroes adm => Sys2Proof.Machine.execWriteZeroes adm s
  | .nop adm => Sys2Proof.Machine.execNop adm s
  | .identify adm => Sys2Proof.Machine.execIdentify adm s
  | .getLog adm => Sys2Proof.Machine.execGetLog adm s
  | .detAck adm => Sys2Proof.Machine.execDetAck adm s
  | .outcomeRead adm => Sys2Proof.Machine.execOutcomeRead adm s
  | .setEventMask adm => Sys2Proof.Machine.execSetEventMask adm s
  | .fenceRelease adm => Sys2Proof.Machine.execFenceRelease adm s
  | .rangeLockGrant adm => Sys2Proof.Machine.execRangeLockGrant adm s
  | .admissionGrant => Sys2Proof.Machine.execAdmissionGrant s
  | .blockFlip adm => Sys2Proof.Machine.execBlockFlip adm s
  | .streamHoldExpire array stripe => Sys2Proof.Machine.execStreamHoldExpire array stripe s
  | .destageStart => Sys2Proof.Machine.execDestageStart s
  | .memberReadDone op => Sys2Proof.Machine.execMemberReadDone op s
  | .memberWriteDone op => Sys2Proof.Machine.execMemberWriteDone op s
  | .readDeadline op => Sys2Proof.Machine.execReadDeadline op s
  | .patrolRead g item line bits => Sys2Proof.Machine.execPatrolRead g item line bits s
  | .ceilingRecompute => Sys2Proof.Machine.execCeilingRecompute s
  | .channelLost channel => Sys2Proof.Machine.execChannelLost channel s
  | .groupRejoin trained => Sys2Proof.Machine.execGroupRejoin trained s
  | .rejoinDone => Sys2Proof.Machine.execRejoinDone s
  | .smcRequest r la op err => Sys2Proof.Machine.execSmcRequest r la op err s
  | .smcFillDone x => Sys2Proof.Machine.execSmcFillDone x s
  | .smcJournalAck seq => Sys2Proof.Machine.execSmcJournalAck seq s
  | .smcWritebackDone la => Sys2Proof.Machine.execSmcWritebackDone la s
  | .smcInvalidate => Sys2Proof.Machine.execSmcInvalidate s
  | .smcInvalidateDone => Sys2Proof.Machine.execSmcInvalidateDone s
  | .smcRekey => Sys2Proof.Machine.execSmcRekey s
  | .smcBist => Sys2Proof.Machine.execSmcBist s
  | .smcBistDone pass => Sys2Proof.Machine.execSmcBistDone pass s
  | .smcResetInvalidation => Sys2Proof.Machine.execSmcResetInvalidation s
  | .smcHotSample => Sys2Proof.Machine.execSmcHotSample s
  | .katInterval => Sys2Proof.Machine.execKatInterval s
  | .katRun => Sys2Proof.Machine.execKatRun s
  | .katDone firstOk repeatOk => Sys2Proof.Machine.execKatDone firstOk repeatOk s
  | .encode job => Sys2Proof.Machine.execEncode job s
  | .deltaUpdate job => Sys2Proof.Machine.execDeltaUpdate job s
  | .decode job => Sys2Proof.Machine.execDecode job s
  | .syndromeCheck job => Sys2Proof.Machine.execSyndromeCheck job s
  | .eceRowRetry job retryOk => Sys2Proof.Machine.execEceRowRetry job retryOk s
  | .eceRetest => Sys2Proof.Machine.execEceRetest s
  | .eceRetestDone lane runsPassed => Sys2Proof.Machine.execEceRetestDone lane runsPassed s
  | .labelWriteDone array failedMembers => Sys2Proof.Machine.execLabelWriteDone array failedMembers s
  | .assembleTimeout array => Sys2Proof.Machine.execAssembleTimeout array s
  | .missingTimeout array member => Sys2Proof.Machine.execMissingTimeout array member s
  | .memberFail array member => Sys2Proof.Machine.execMemberFail array member s
  | .memberReplace array member port => Sys2Proof.Machine.execMemberReplace array member port s
  | .memberRebuild array member => Sys2Proof.Machine.execMemberRebuild array member s
  | .rebuildStripe array units => Sys2Proof.Machine.execRebuildStripe array units s
  | .catchupCycle array member units => Sys2Proof.Machine.execCatchupCycle array member units s
  | .copybackCycle array units => Sys2Proof.Machine.execCopybackCycle array units s
  | .scrubPeriod array => Sys2Proof.Machine.execScrubPeriod array s
  | .scrubStripe array units => Sys2Proof.Machine.execScrubStripe array units s
  | .restripeStep array data => Sys2Proof.Machine.execRestripeStep array data s
  | .dfwGo => Sys2Proof.Machine.execDfwGo s
  | .dfwPortDone port ident ok => Sys2Proof.Machine.execDfwPortDone port ident ok s
  | .dfwTimeout port => Sys2Proof.Machine.execDfwTimeout port s
  | .arbiterRequest reqs => Sys2Proof.Machine.execArbiterRequest reqs s
  | .deferredStart act array => Sys2Proof.Machine.execDeferredStart act array s
  | .hotspotSample busy => Sys2Proof.Machine.execHotspotSample busy s
  | .portCominit port dev => Sys2Proof.Machine.execPortCominit port dev s
  | .spinupSlot cluster => Sys2Proof.Machine.execSpinupSlot cluster s
  | .driveReady port => Sys2Proof.Machine.execDriveReady port s
  | .readyTimeout port => Sys2Proof.Machine.execReadyTimeout port s
  | .driveCommandComplete port op data => Sys2Proof.Machine.execDriveCommandComplete port op data s
  | .driveError port op e sense => Sys2Proof.Machine.execDriveError port op e sense s
  | .driveCommandTimeout port op => Sys2Proof.Machine.execDriveCommandTimeout port op s
  | .recoveryStep port answered => Sys2Proof.Machine.execRecoveryStep port answered s
  | .linkLoss port => Sys2Proof.Machine.execLinkLoss port s
  | .graceExpire port => Sys2Proof.Machine.execGraceExpire port s
  | .portReset port => Sys2Proof.Machine.execPortReset port s
  | .portFail port => Sys2Proof.Machine.execPortFail port s
  | .clusterReset cluster => Sys2Proof.Machine.execClusterReset cluster s
  | .clusterDisable cluster => Sys2Proof.Machine.execClusterDisable cluster s
  | .clusterEnable cluster => Sys2Proof.Machine.execClusterEnable cluster s
  | .clusterFail cluster => Sys2Proof.Machine.execClusterFail cluster s
  | .portPartial port => Sys2Proof.Machine.execPortPartial port s
  | .arrayPowerTimer array => Sys2Proof.Machine.execArrayPowerTimer array s
  | .powerEntryConfirm array => Sys2Proof.Machine.execPowerEntryConfirm array s
  | .arrayWake array => Sys2Proof.Machine.execArrayWake array s
  | .pwrLatClear array => Sys2Proof.Machine.execPwrLatClear array s
  | .sgpioFrame cluster present => Sys2Proof.Machine.execSgpioFrame cluster present s
  | .loopbackStart port => Sys2Proof.Machine.execLoopbackStart port s
  | .loopbackStop port => Sys2Proof.Machine.execLoopbackStop port s
  | .loopbackEnd port errors => Sys2Proof.Machine.execLoopbackEnd port errors s
  | .packAbsent => Sys2Proof.Machine.execPackAbsent s
  | .packPresent => Sys2Proof.Machine.execPackPresent s
  | .ntcFault ntc => Sys2Proof.Machine.execNtcFault ntc s
  | .chargeLoop => Sys2Proof.Machine.execChargeLoop s
  | .chargeSetpoint => Sys2Proof.Machine.execChargeSetpoint s
  | .chargeDone => Sys2Proof.Machine.execChargeDone s
  | .chargeRestart => Sys2Proof.Machine.execChargeRestart s
  | .chargerInhibit on => Sys2Proof.Machine.execChargerInhibit on s
  | .restPoint => Sys2Proof.Machine.execRestPoint s
  | .filterStep => Sys2Proof.Machine.execFilterStep s
  | .loadStep m => Sys2Proof.Machine.execLoadStep m s
  | .naturalStep m => Sys2Proof.Machine.execNaturalStep m s
  | .haloPublish => Sys2Proof.Machine.execHaloPublish s
  | .haloFirstBound => Sys2Proof.Machine.execHaloFirstBound s
  | .restWindowRequest byHost => Sys2Proof.Machine.execRestWindowRequest byHost s
  | .restWindowCheck => Sys2Proof.Machine.execRestWindowCheck s
  | .restWindowEnd => Sys2Proof.Machine.execRestWindowEnd s
  | .learnDue => Sys2Proof.Machine.execLearnDue s
  | .learnGo => Sys2Proof.Machine.execLearnGo s
  | .learnAbort => Sys2Proof.Machine.execLearnAbort s
  | .learnPhase => Sys2Proof.Machine.execLearnPhase s
  | .gaugeReset => Sys2Proof.Machine.execGaugeReset s
  | .newPack => Sys2Proof.Machine.execNewPack s
  | .paramWrite firstOk secondOk => Sys2Proof.Machine.execParamWrite firstOk secondOk s
  | .adcUntrusted adc => Sys2Proof.Machine.execAdcUntrusted adc s
  | .calRound m => Sys2Proof.Machine.execCalRound m s
  | .rampStep => Sys2Proof.Machine.execRampStep s
  | .calHoldRelease => Sys2Proof.Machine.execCalHoldRelease s
  | .dramRetrain => Sys2Proof.Machine.execDramRetrain s
  | .retrainChannel ok => Sys2Proof.Machine.execRetrainChannel ok s
  | .pwrFail => Sys2Proof.Machine.execPwrFail s
  | .pwrFailGlitch => Sys2Proof.Machine.execPwrFailGlitch s
  | .brownout => Sys2Proof.Machine.execBrownout s
  | .pwrGoodFall => Sys2Proof.Machine.execPwrGoodFall s
  | .duskStart => Sys2Proof.Machine.execDuskStart s
  | .vaultDieFail group die => Sys2Proof.Machine.execVaultDieFail group die s
  | .duskSealed durationUs => Sys2Proof.Machine.execDuskSealed durationUs s
  | .sleepExit b => Sys2Proof.Machine.execSleepExit b s
  | .pwrGoodRise b => Sys2Proof.Machine.execPwrGoodRise b s
  | .holdRelease b => Sys2Proof.Machine.execHoldRelease b s
  | .dramTrainingDone trained dimmGib => Sys2Proof.Machine.execDramTrainingDone trained dimmGib s
  | .vaultAccept => Sys2Proof.Machine.execVaultAccept s
  | .vaultDiscard => Sys2Proof.Machine.execVaultDiscard s
  | .dawnRestoreDone bad => Sys2Proof.Machine.execDawnRestoreDone bad s
  | .vaultErase bytes done => Sys2Proof.Machine.execVaultErase bytes done s
  | .imageBackgroundCheck image => Sys2Proof.Machine.execImageBackgroundCheck image s
  | .peRefclkLost => Sys2Proof.Machine.execPeRefclkLost s
  | .peRefclkRestored => Sys2Proof.Machine.execPeRefclkRestored s
  | .dpRefclkLost => Sys2Proof.Machine.execDpRefclkLost s
  | .thermalSample temps => Sys2Proof.Machine.execThermalSample temps s
  | .throttleStep step => Sys2Proof.Machine.execThrottleStep step s
  | .thermCfgWrite v => Sys2Proof.Machine.execThermCfgWrite v s
  | .pairMismatch pair stallNs => Sys2Proof.Machine.execPairMismatch pair stallNs s
  | .storeUncorrectable role stallNs => Sys2Proof.Machine.execStoreUncorrectable role stallNs s
  | .checkpoint role => Sys2Proof.Machine.execCheckpoint role s
  | .pairTestDone pair pass => Sys2Proof.Machine.execPairTestDone pair pass s
  | .pairRetest bits => Sys2Proof.Machine.execPairRetest bits s
  | .fwWrite => Sys2Proof.Machine.execFwWrite s
  | .fwWriteDone image readBackOk => Sys2Proof.Machine.execFwWriteDone image readBackOk s
  | .fwActivate image => Sys2Proof.Machine.execFwActivate image s
  | .fwActivationDone e => Sys2Proof.Machine.execFwActivationDone e s
  | .ppsEdge falling jitterNs => Sys2Proof.Machine.execPpsEdge falling jitterNs s
  | .ppsMiss => Sys2Proof.Machine.execPpsMiss s
  | .secondWrap => Sys2Proof.Machine.execSecondWrap s
  | .timeSetArm => Sys2Proof.Machine.execTimeSetArm s
  | .ppsEnable on => Sys2Proof.Machine.execPpsEnable on s
  | .bmeArm ch => Sys2Proof.Machine.execBmeArm ch s
  | .bmeResume ch => Sys2Proof.Machine.execBmeResume ch s
  | .bmeChannelDisable ch => Sys2Proof.Machine.execBmeChannelDisable ch s
  | .bmeChannelEnable ch => Sys2Proof.Machine.execBmeChannelEnable ch s
  | .bmeSetDone ch => Sys2Proof.Machine.execBmeSetDone ch s
  | .bmeSetError ch error doneBytes => Sys2Proof.Machine.execBmeSetError ch error doneBytes s
  | .packSample p => Sys2Proof.Machine.execPackSample p s
  | .retrainChannelReturn => Sys2Proof.Machine.execRetrainChannelReturn s
  | .vddAonApplied => Sys2Proof.Machine.execVddAonApplied s
  | .pwrFailRelease => Sys2Proof.Machine.execPwrFailRelease s

end Sys2Proof.Machine
end

