-- ==== Sys2Proof/Machine/Step.lean ====
section
/-! DEFINITION. One step: the command at the front of the queue runs on the state with the queue's rest; on an empty queue
one 4 ns tick of the timebase passes (R369; log entry 4). -/

set_option Elab.async false

namespace Sys2Proof.Machine

/-- One step of the block (DESIGN CHOICE, log entry 1) (DESIGN CHOICE, log entry 4) (DESIGN CHOICE, log entry 63). -/
def step (s : State) : Host.Outcome State Fault Refusal :=
  match s.pending with
  | [] => s.act Dev.tick
  | c :: rest => exec c { s with pending := rest }

/-- The command a word spells, put at the front of the queue; no word spells one, since the table gives no bits
(DESIGN CHOICE, log entry 1). -/
def State.withFetchWord (s : State) (nbits w : Nat) : State :=
  match Sys2Proof.decodeTableWord nbits w with
  | some c => { s with pending := c :: s.pending }
  | none => s

end Sys2Proof.Machine
end

