-- ==== Sys2Proof/WellFormed.lean ====
section
/-! DEFINITION. Well-formed commands: every unit that a command names is one the device has (R12, R38, R44, R47, R177, R378).
Host requests about other units are ignored (R26), and events on other units do not occur. -/

set_option Elab.async false

namespace Sys2Proof

/-- A request of the maintenance arbiter (R226): an array activity names an array, a device-wide one names 0xFF, and drive
firmware may name either. -/
def wfRequest (r : Act × Nat) : Bool :=
  match r.1 with
  | .rebuild => decide (r.2 < 16)
  | .copyback => decide (r.2 < 16)
  | .scrub => decide (r.2 < 16)
  | .restripe => decide (r.2 < 16)
  | .driveFw => decide (r.2 < 16) || decide (r.2 = 0xFF)
  | .learn => decide (r.2 = 0xFF)
  | .calibrate => decide (r.2 = 0xFF)
  | .dramRetrain => decide (r.2 = 0xFF)
  | .smcRekey => decide (r.2 = 0xFF)
  | .fwActivate => decide (r.2 = 0xFF)

/-- Whether every unit that a command names exists. -/
def Instr.wf : Instr → Bool
  | .registerWrite w => decide (w.fn ≤ 64)
  | .lowDwordRead fn _ => decide (fn ≤ 64)
  | .errClr _ => true
  | .softReset _ => true
  | .blockDisable _ => true
  | .blockEnable _ => true
  | .blockDrainDone _ => true
  | .lockSet _ _ => true
  | .clockGate _ => true
  | .commitGo _ _ _ => true
  | .commitDiscard _ => true
  | .commitComplete _ => true
  | .sidebandRead _ => true
  | .sidebandWrite _ _ => true
  | .unsupportedRequest _ => true
  | .configRequest _ _ _ => true
  | .numVfsWrite _ => true
  | .vfEnableSet => true
  | .vfEnableClear => true
  | .msixUnmask fn vec => decide (fn ≤ 64) && decide (vec < (if fn = 0 then 2048 else 64))
  | .tagGrant => true
  | .hostReadCompletion _ _ _ => true
  | .completionTimeout _ => true
  | .quarantineExpire _ => true
  | .unexpectedCompletion _ => true
  | .perstAssert => true
  | .perstDeassert => true
  | .hotReset => true
  | .flrPf0 => true
  | .flrVf fn => decide (fn ≤ 64)
  | .flrComplete fn => decide (fn ≤ 64)
  | .memorySpaceDisable fn => decide (fn ≤ 64)
  | .busMasterDisable fn => decide (fn ≤ 64)
  | .busMasterEnable fn => decide (fn ≤ 64)
  | .d3hotEntry fn => decide (fn ≤ 64)
  | .d0Entry fn => decide (fn ≤ 64)
  | .pmeTurnOff => true
  | .l1EntryRequest => true
  | .l0pNarrow => true
  | .l0pWiden => true
  | .containment _ fn => match fn with | some f => decide (f ≤ 64) | none => true
  | .containRelease => true
  | .containLogClr => true
  | .quotaWrite _ fn _ _ => decide (fn ≤ 64)
  | .sqTailDoorbell fn _ _ _ => decide (fn ≤ 64)
  | .cqHeadDoorbell fn _ _ _ => decide (fn ≤ 64)
  | .eventHeadDoorbell fn _ _ => decide (fn ≤ 64)
  | .sqEnable fn _ => decide (fn ≤ 64)
  | .sqDisable fn _ => decide (fn ≤ 64)
  | .sqRestart fn _ => decide (fn ≤ 64)
  | .cqEnable fn _ => decide (fn ≤ 64)
  | .cqDisable fn _ => decide (fn ≤ 64)
  | .eventRingEnable fn => decide (fn ≤ 64)
  | .eventRingDisable fn => decide (fn ≤ 64)
  | .arbitrate => true
  | .entryAdmit => true
  | .fragmentTableCheck _ => true
  | .haltRecordClear => true
  | .read _ => true
  | .write _ => true
  | .flush _ => true
  | .verify _ => true
  | .deallocate _ => true
  | .writeZeroes _ => true
  | .nop _ => true
  | .identify _ => true
  | .getLog _ => true
  | .detAck _ => true
  | .outcomeRead _ => true
  | .setEventMask _ => true
  | .fenceRelease _ => true
  | .rangeLockGrant _ => true
  | .admissionGrant => true
  | .blockFlip _ => true
  | .streamHoldExpire array _ => decide (array < 16)
  | .destageStart => true
  | .memberReadDone _ => true
  | .memberWriteDone _ => true
  | .readDeadline _ => true
  | .patrolRead _ _ _ bits => bits.all fun b => decide (b.1 < 40 ∧ b.2 < 16)
  | .ceilingRecompute => true
  | .channelLost channel => decide (channel < 12)
  | .groupRejoin _ => true
  | .rejoinDone => true
  | .smcRequest r la _ _ => decide (r < 8 ∧ la < 2 ^ 42)
  | .smcFillDone _ => true
  | .smcJournalAck _ => true
  | .smcWritebackDone _ => true
  | .smcInvalidate => true
  | .smcInvalidateDone => true
  | .smcRekey => true
  | .smcBist => true
  | .smcBistDone _ => true
  | .smcResetInvalidation => true
  | .smcHotSample => true
  | .katInterval => true
  | .katRun => true
  | .katDone _ _ => true
  | .encode _ => true
  | .deltaUpdate _ => true
  | .decode _ => true
  | .syndromeCheck _ => true
  | .eceRowRetry _ _ => true
  | .eceRetest => true
  | .eceRetestDone lane _ => decide (lane < 2)
  | .labelWriteDone array _ => decide (array < 16)
  | .assembleTimeout array => decide (array < 16)
  | .missingTimeout array _ => decide (array < 16)
  | .memberFail array _ => decide (array < 16)
  | .memberReplace array _ _ => decide (array < 16)
  | .memberRebuild array _ => decide (array < 16)
  | .rebuildStripe array _ => decide (array < 16)
  | .catchupCycle array member _ => decide (array < 16 ∧ member < 256)
  | .copybackCycle array _ => decide (array < 16)
  | .scrubPeriod array => decide (array < 16)
  | .scrubStripe array _ => decide (array < 16)
  | .restripeStep array _ => decide (array < 16)
  | .dfwGo => true
  | .dfwPortDone port _ _ => decide (port < 256)
  | .dfwTimeout port => decide (port < 256)
  | .arbiterRequest reqs => reqs.all wfRequest
  | .deferredStart _ _ => true
  | .hotspotSample busy => busy.all fun x => decide (x.1 < 16)
  | .portCominit port _ => decide (port < 256)
  | .spinupSlot cluster => decide (cluster < 8)
  | .driveReady port => decide (port < 256)
  | .readyTimeout port => decide (port < 256)
  | .driveCommandComplete port _ _ => decide (port < 256)
  | .driveError port _ _ _ => decide (port < 256)
  | .driveCommandTimeout port _ => decide (port < 256)
  | .recoveryStep port _ => decide (port < 256)
  | .linkLoss port => decide (port < 256)
  | .graceExpire port => decide (port < 256)
  | .portReset port => decide (port < 256)
  | .portFail port => decide (port < 256)
  | .clusterReset cluster => decide (cluster < 8)
  | .clusterDisable cluster => decide (cluster < 8)
  | .clusterEnable cluster => decide (cluster < 8)
  | .clusterFail cluster => decide (cluster < 8)
  | .portPartial port => decide (port < 256)
  | .arrayPowerTimer array => decide (array < 16)
  | .powerEntryConfirm array => decide (array < 16)
  | .arrayWake array => decide (array < 16)
  | .pwrLatClear array => decide (array < 16)
  | .sgpioFrame cluster _ => decide (cluster < 8)
  | .loopbackStart port => decide (port < 256)
  | .loopbackStop port => decide (port < 256)
  | .loopbackEnd port _ => decide (port < 256)
  | .packAbsent => true
  | .packPresent => true
  | .ntcFault ntc => decide (ntc < 2)
  | .chargeLoop => true
  | .chargeSetpoint => true
  | .chargeDone => true
  | .chargeRestart => true
  | .chargerInhibit _ => true
  | .restPoint => true
  | .filterStep => true
  | .loadStep _ => true
  | .naturalStep _ => true
  | .haloPublish => true
  | .haloFirstBound => true
  | .restWindowRequest _ => true
  | .restWindowCheck => true
  | .restWindowEnd => true
  | .learnDue => true
  | .learnGo => true
  | .learnAbort => true
  | .learnPhase => true
  | .gaugeReset => true
  | .newPack => true
  | .paramWrite _ _ => true
  | .adcUntrusted adc => decide (adc < 2)
  | .calRound _ => true
  | .rampStep => true
  | .calHoldRelease => true
  | .dramRetrain => true
  | .retrainChannel _ => true
  | .pwrFail => true
  | .pwrFailGlitch => true
  | .brownout => true
  | .pwrGoodFall => true
  | .duskStart => true
  | .vaultDieFail _ _ => true
  | .duskSealed _ => true
  | .sleepExit _ => true
  | .pwrGoodRise _ => true
  | .holdRelease _ => true
  | .dramTrainingDone _ _ => true
  | .vaultAccept => true
  | .vaultDiscard => true
  | .dawnRestoreDone _ => true
  | .vaultErase _ _ => true
  | .imageBackgroundCheck _ => true
  | .peRefclkLost => true
  | .peRefclkRestored => true
  | .dpRefclkLost => true
  | .thermalSample _ => true
  | .throttleStep _ => true
  | .thermCfgWrite _ => true
  | .pairMismatch pair _ => decide (pair < 3)
  | .storeUncorrectable role _ => decide (role < 2)
  | .checkpoint role => decide (role < 2)
  | .pairTestDone pair _ => decide (pair < 3)
  | .pairRetest _ => true
  | .fwWrite => true
  | .fwWriteDone _ _ => true
  | .fwActivate _ => true
  | .fwActivationDone _ => true
  | .ppsEdge _ _ => true
  | .ppsMiss => true
  | .secondWrap => true
  | .timeSetArm => true
  | .ppsEnable _ => true
  | .bmeArm ch => decide (ch < 8)
  | .bmeResume ch => decide (ch < 8)
  | .bmeChannelDisable ch => decide (ch < 8)
  | .bmeChannelEnable ch => decide (ch < 8)
  | .bmeSetDone ch => decide (ch < 8)
  | .bmeSetError ch _ _ => decide (ch < 8)
  | .packSample _ => true
  | .retrainChannelReturn => true
  | .vddAonApplied => true
  | .pwrFailRelease => true

end Sys2Proof
end

