-- ==== Sys2Proof/Safety.lean ====
section
/-! DEFINITION. What the claims mean by a good state, by a command that completes with an effect, and by a frame: the RAMs in
canonical form, the report state as R34 keeps it, the register fields that a command may change. -/

set_option Elab.async false

namespace Sys2Proof

open Sys2Proof.Machine

/-! ### Good states -/

/-- Both addressed RAMs are in canonical form. -/
def RamsCanonical (s : State) : Prop := Memory.wf s.scratch = true ∧ Memory.wf s.mailbox = true

/-- The record of R34's edge agrees with SYS_INT_SUM: the next change from zero to non-zero is seen. -/
def SumSeen (s : State) : Prop := s.dev.nt.sumLive = decide (s.dev.intSum ≠ 0)

/-- The invariant that every command keeps. -/
def Inv (s : State) : Prop := RamsCanonical s ∧ SumSeen s

/-! ### Effects and frames -/

/-- A command answers a next state; the queue and both RAMs are as before, and P holds of the device. -/
def Gives (c : Instr) (s : State) (P : Dev → Prop) : Prop :=
  ∃ t, exec c s = .next t ∧ t.pending = s.pending ∧ t.scratch = s.scratch ∧ t.mailbox = s.mailbox ∧ P t.dev

/-- A memory request of the host to function f gets through to the page of block b: the link is up, the function answers
memory requests, the page is on (R26, R46, R328). -/
abbrev HostReaches (d : Dev) (f : Nat) (b : Blk) : Prop :=
  d.linkUp = true ∧ d.reaches f = true ∧ d.answers (b.page * 65536) = true

/-- What a host write that gets through to block b's page by way of function f gives. -/
def HostGives (f : Nat) (b : Blk) (c : Instr) (s : State) (P : Dev → Prop) : Prop := HostReaches s.dev f b → Gives c s P

/-- A command answers a next state of which P holds. -/
def Ends (c : Instr) (s : State) (P : State → Prop) : Prop := ∃ t, exec c s = .next t ∧ P t

/-- Whether a key of the register file is that of a BLK_STAT.state or a BLK_POWER.pstate: fields that any command may bring
up to date, since they show whether a block holds work (R33, R37). -/
def stateKey (k : Nat) : Bool :=
  decide (k / 64 < 0xE0000) && decide (k % 64 = 0) &&
    (decide (k / 64 % 65536 = 0x14) || decide (k / 64 % 65536 = 0x30))

/-- Every register field but those listed (and the fields of stateKey) reads as before. -/
def OnlyFields (d e : Dev) (fs : List Fld) : Prop :=
  ∀ f : Fld, (∀ g ∈ fs, f.key ≠ g.key) → stateKey f.key = false → e.rd f = d.rd f

/-- The parts of the device beside the register file and the reports. -/
inductive Part where
  | staged | halves | sys | host | qmx | lay | dram | pwc | smc | ece | dpx | mnt | vlt | bps | tmb | ccx | bme
  deriving DecidableEq, Repr

/-- A part of the device is as before. `host` is HIF without what a report changes: the functions, the MSI-X table, the
link's low-power state. -/
def Part.same (d e : Dev) : Part → Prop
  | .staged => e.staged = d.staged
  | .halves => e.hiLatch = d.hiLatch ∧ e.heldLow = d.heldLow
  | .sys => e.sys = d.sys
  | .host => e.hif.tags = d.hif.tags ∧ e.hif.waiting = d.hif.waiting ∧ e.hif.grantNext = d.hif.grantNext ∧
      e.hif.vfEnable = d.hif.vfEnable ∧ e.hif.numVfs = d.hif.numVfs ∧ e.hif.pmeTurnedOff = d.hif.pmeTurnedOff
  | .qmx => e.qmx = d.qmx
  | .lay => e.lay = d.lay
  | .dram => e.dram = d.dram
  | .pwc => e.pwc = d.pwc
  | .smc => e.smc = d.smc
  | .ece => e.ece = d.ece
  | .dpx => e.dpx = d.dpx
  | .mnt => e.mnt = d.mnt
  | .vlt => e.vlt = d.vlt
  | .bps => e.bps = d.bps
  | .tmb => e.tmb = d.tmb ∧ e.ticks = d.ticks
  | .ccx => e.ccx = d.ccx
  | .bme => e.bme = d.bme

/-- A command changes the listed register fields and the listed parts at most, and reports. -/
def Frame (d e : Dev) (fs : List Fld) (ps : List Part) : Prop :=
  OnlyFields d e fs ∧ ∀ p : Part, p ∉ ps → p.same d e

/-- An admitted command has ended with a status and a dw3 (R89, R99): it is gone, its record is final with that status, and,
unless it ends in silence, its completion is posted at the tail of its CQ, or held where its function may not post. -/
def Ended (d e : Dev) (c : Cmd) (status dw3 : Nat) : Prop :=
  e.cmd? c.adm = none ∧
  (∀ k r, Tbl.get? (e.olog c.fn).recs k = some r → r.adm = c.adm → r.final = true ∧ r.status = status) ∧
  (c.silent = false → d.canPost c.fn = true → (d.fn c.fn).held = [] →
    e.rd (Reg.QD_CQ_PTR_tail.ix c.cq) = (d.rd (Reg.QD_CQ_PTR_tail.ix c.cq) + 1) % d.cqDepth c.cq % 2 ^ 16) ∧
  (c.silent = false → d.canPost c.fn = false → ∃ x, (e.fn c.fn).held = (d.fn c.fn).held ++ [x] ∧ x.adm = c.adm ∧
    x.cmdTag = eCmdTag c.entry ∧ x.status = status ∧ x.dw3 = dw3)

/-- The fields that the end of a command may change: its CQ's tail and phase, its SQ's state, and the low-power counts of
the arrays whose power exit it waited for. -/
def endFields (c : Cmd) : List Fld :=
  [Reg.QD_CQ_PTR_tail.ix c.cq, Reg.QD_CQ_STAT_phase.ix c.cq, Reg.QD_SQ_STAT_state.ix c.q] ++
    c.waited.map Reg.AR_PWR_LP_count.ix

/-- A block shows a cause in BLK_INT_RAW (R30, R34). -/
def Raised (d : Dev) (b : Blk) (i : Nat) : Prop := bitOf (d.note b).raw i = true

end Sys2Proof
end

