-- ==== Sys2Proof/Certificates/Slice0/Obligations.lean ====
section
/-! DEFINITION. The statements for the provers: what each command of the table does to the block, what it leaves as it was,
and what holds of every command. -/

set_option Elab.async false

open Sys2Proof Sys2Proof.Machine

/-- O1. With command c at the front of the queue, step of s is exec of c on s with the queue's rest: neither more nor
less. -/
def Obligations.StepRunsFrontCommand : Prop :=
  ∀ (c : Instr) (rest : List Instr) (s : State), s.pending = c :: rest → step s = exec c { s with pending := rest }

/-- O2. On an empty queue a step answers a next state one 4 ns tick later: with main power up, no trim, no slew and no
pending seconds value, the TMB count advances by 4 ns with its carry into seconds; the RAMs, the DRAM contents and
the commands are as before. That an empty queue lets a tick pass is the model's choice (log entry 4); what a tick
does is R369. -/
def Obligations.StepOnEmptyQueueTicks : Prop :=
  ∀ s : State, s.pending = [] → s.dev.sys.pdMain = true → s.dev.rd Reg.TMB_TRIM_trim = 0 → s.dev.tmb.slewLeft = 0 →
    s.dev.tmb.frac = 0 → s.dev.tmb.setPending = none → s.dev.tmb.ns < 1000000000 → s.dev.tmb.sec < 2 ^ 34 - 1 →
    ∃ t, step s = .next t ∧ t.pending = [] ∧ t.scratch = s.scratch ∧ t.mailbox = s.mailbox ∧
      t.dev.ticks = s.dev.ticks + 1 ∧
      t.dev.tmb.sec * 1000000000 + t.dev.tmb.ns = s.dev.tmb.sec * 1000000000 + s.dev.tmb.ns + 4 ∧
      t.dev.tmb.ns < 1000000000 ∧ t.dev.dram = s.dev.dram ∧ t.dev.qmx = s.dev.qmx ∧ t.dev.staged = s.dev.staged

/-- O3. From every state that meets Inv (both RAMs in canonical form, and the record of R34's edge equal to SYS_INT_SUM
≠ 0), whatever command runs, a next state meets Inv again; so does a next state of step. -/
def Obligations.EveryCommandKeepsInv : Prop :=
  (∀ (c : Instr) (s t : State), Inv s → exec c s = .next t → Inv t) ∧
  (∀ s t : State, Inv s → step s = .next t → Inv t)

/-- O4. State.reset meets Inv. -/
def Obligations.InvHoldsAtReset : Prop :=
  Inv State.reset

/-- O5. Every command whose units exist answers a next state, from every state; no command is refused; a command that
faults names a unit that the device does not have (log entry 10 names the model's stop). -/
def Obligations.WellFormedCommandsComplete : Prop :=
  (∀ (c : Instr) (s : State), c.wf = true → ∃ t, exec c s = .next t) ∧
  (∀ (c : Instr) (s : State) (r : Refusal), exec c s ≠ .refused r) ∧
  (∀ (c : Instr) (s : State) (r : Fault), exec c s = .fault r → c.wf = false)

/-- O6. Whatever command runs, the next state's queue is the one it ran on: commands enter from outside only. Every
command but BME_SET_DONE, BME_SET_ERROR and HOST_READ_COMPLETION leaves every byte of SCRATCH and of the mailbox. -/
def Obligations.QueueAndRamsKept : Prop :=
  ∀ (c : Instr) (s t : State), exec c s = .next t → t.pending = s.pending ∧
    ((∀ ch, c ≠ .bmeSetDone ch) → (∀ ch e n, c ≠ .bmeSetError ch e n) →
      (∀ tag data poisoned, c ≠ .hostReadCompletion tag data poisoned) →
      ∀ a : Nat, Memory.get t.scratch a = Memory.get s.scratch a ∧ Memory.get t.mailbox a = Memory.get s.mailbox a)

/-- O7. A host write that finds no link changes nothing, and one that finds PF0 without Memory Space Enable or in D3hot
is answered Unsupported Request and changes nothing else. On a page it reaches: err_clr sets the block's
BLK_ERR_CNT and BLK_ERR_FIRST to 0; a BLK_LOCK write sets exactly the bits written 1 and clears none. Every other
register field, the staged values and the DRAM contents are as before. -/
def Obligations.ErrorClearAndLocks : Prop :=
  ∀ (b : Blk) (bits : Dword) (s : State), (s.dev.linkUp = false → ∀ c ∈ [Instr.errClr b, .lockSet b bits, .softReset b],
      Gives c s (fun e => Frame s.dev e [] [])) ∧
    (s.dev.linkUp = true → s.dev.reaches 0 = false → ∀ c ∈ [Instr.errClr b, .lockSet b bits, .softReset b],
      Gives c s (fun e => .unsupported 0 ∈ e.emitted ∧ Frame s.dev e [] [])) ∧
    (HostReaches s.dev 0 b →
    Gives (.errClr b) s (fun e => (e.note b).corr = 0 ∧ (e.note b).uncorr = 0 ∧ (e.note b).firstCode = 0 ∧
      (e.note b).firstTs = 0 ∧ OnlyFields s.dev e [] ∧ e.staged = s.dev.staged ∧ e.dram = s.dev.dram) ∧
    Gives (.lockSet b bits) s (fun e =>
      (∀ i, i < 32 → bitOf (e.rd (Reg.BLK_LOCK_lock.ix b.page)) i =
        (bitOf (s.dev.rd (Reg.BLK_LOCK_lock.ix b.page)) i || bits.getLsbD i)) ∧
      OnlyFields s.dev e [Reg.BLK_LOCK_lock.ix b.page] ∧ e.staged = s.dev.staged ∧ e.dram = s.dev.dram))

/-- O8. A sideband read of the SYS page or of a common header answers what a BAR0 read returns, any other offset
answers 0; no latch, register field or staged value changes. A sideband write is refused and changes nothing. -/
def Obligations.SidebandView : Prop :=
  ∀ (a : Nat) (v : Dword) (s : State),
    Gives (.sidebandRead a) s (fun e =>
      (.smbusReply (if a / 4 * 4 < 0x10000 ∨ (a / 4 * 4 < 0xE0000 ∧ a / 4 * 4 % 65536 < 0x40)
        then s.dev.dwordRead (a / 4 * 4) else 0) :: s.dev.emitted) <:+ e.emitted ∧
      e.hiLatch = s.dev.hiLatch ∧ OnlyFields s.dev e [] ∧ e.staged = s.dev.staged) ∧
    Gives (.sidebandWrite a v) s (fun e =>
      (.smbusNack :: s.dev.emitted) <:+ e.emitted ∧ e.hiLatch = s.dev.hiLatch ∧ e.heldLow = s.dev.heldLow ∧
      OnlyFields s.dev e [] ∧ e.staged = s.dev.staged ∧ e.dram = s.dev.dram)

/-- O9. A complete aligned dword write of PF0 that reaches the device: an RW field (SYS_INT_VEC) takes the value; W1C
causes (BLK_INT_RAW of every block) are cleared where a 1 is written, but for state_change, which the end of the
command may set; an RO register (SYS_ID) does not change; an RWS field (PWC_CEIL_CFG.floor_gib) changes its staged
value only, unless the block's commit is busy: then the write is ignored and refused is raised. A write with
partial byte enables changes nothing and raises bad_access. -/
def Obligations.RegisterWriteByAccessCode : Prop :=
  ∀ (v : Qword) (b : Blk) (s : State), s.dev.linkUp = true → s.dev.reaches 0 = true → s.dev.answers 0x50000 = true →
    s.dev.answers (b.page * 65536) = true →
    Gives (.registerWrite ⟨0, .bar0, 0x48, false, true, v⟩) s (fun e =>
      e.rd Reg.SYS_INT_VEC_vec = v.toNat % 2 ^ 11 ∧ OnlyFields s.dev e [Reg.SYS_INT_VEC_vec] ∧ e.staged = s.dev.staged) ∧
    Gives (.registerWrite ⟨0, .bar0, b.page * 65536 + 0x18, false, true, v⟩) s (fun e =>
      (∀ i, i < 32 → i ≠ 2 → bitOf (e.note b).raw i = (bitOf (s.dev.note b).raw i && !v.getLsbD i)) ∧
      OnlyFields s.dev e [] ∧ e.staged = s.dev.staged) ∧
    Gives (.registerWrite ⟨0, .bar0, 0x40, false, true, v⟩) s (fun e =>
      OnlyFields s.dev e [] ∧ e.staged = s.dev.staged) ∧
    (s.dev.rdB (Reg.COMMIT_STAT_busy.ix 5) = false →
      Gives (.registerWrite ⟨0, .bar0, Reg.PWC_CEIL_CFG_floor_gib.base, false, true, v⟩) s (fun e =>
        e.rdStaged Reg.PWC_CEIL_CFG_floor_gib = Reg.PWC_CEIL_CFG_floor_gib.of v.toNat ∧ OnlyFields s.dev e [])) ∧
    (s.dev.rdB (Reg.COMMIT_STAT_busy.ix 5) = true →
      Gives (.registerWrite ⟨0, .bar0, Reg.PWC_CEIL_CFG_floor_gib.base, false, true, v⟩) s (fun e =>
        Raised e .pwc 3 ∧ OnlyFields s.dev e [] ∧ e.staged = s.dev.staged)) ∧
    (∀ (a : Nat) (wide : Bool), a < 2 ^ 25 → Gives (.registerWrite ⟨0, .bar0, a, wide, false, v⟩) s (fun e =>
      Raised e .sys 16 ∧ OnlyFields s.dev e [] ∧ e.staged = s.dev.staged ∧ e.heldLow = s.dev.heldLow ∧ e.dram = s.dev.dram))

/-- O10. For BME_WIN_BASE: a low dword write is held and changes no field; the high dword write completes the value
with the held low half, or with the live one where none is held; a 64-bit write takes effect as one value. Once
BME_LOCK bit 0 is set, the completed value is ignored. -/
def Obligations.WideRegisterHalves : Prop :=
  ∀ (v low : Qword) (s : State), s.dev.linkUp = true → s.dev.reaches 0 = true → s.dev.answers 0xB0040 = true →
    Gives (.registerWrite ⟨0, .bar0, 0xB0040, false, true, v⟩) s (fun e =>
      OnlyFields s.dev e [] ∧ Tbl.get? e.heldLow 0xB0040 = some (v.toNat % 2 ^ 32)) ∧
    (s.dev.locked 11 = false → Tbl.get? s.dev.heldLow 0xB0040 = some (low.toNat % 2 ^ 32) →
      Gives (.registerWrite ⟨0, .bar0, 0xB0044, false, true, v⟩) s (fun e =>
        e.rd Reg.BME_WIN_BASE_base = (v.toNat % 2 ^ 32 * 2 ^ 32 + low.toNat % 2 ^ 32) / 4096 ∧
        Tbl.get? e.heldLow 0xB0040 = none ∧ OnlyFields s.dev e [Reg.BME_WIN_BASE_base])) ∧
    (s.dev.locked 11 = false → Tbl.get? s.dev.heldLow 0xB0040 = none →
      Gives (.registerWrite ⟨0, .bar0, 0xB0044, false, true, v⟩) s (fun e =>
        e.rd Reg.BME_WIN_BASE_base =
          (v.toNat % 2 ^ 32 * 2 ^ 32 + s.dev.rd Reg.BME_WIN_BASE_base * 4096 % 2 ^ 32) / 4096 ∧
        OnlyFields s.dev e [Reg.BME_WIN_BASE_base])) ∧
    (s.dev.locked 11 = false →
      Gives (.registerWrite ⟨0, .bar0, 0xB0040, true, true, v⟩) s (fun e =>
        e.rd Reg.BME_WIN_BASE_base = v.toNat / 4096 ∧ OnlyFields s.dev e [Reg.BME_WIN_BASE_base])) ∧
    (s.dev.locked 11 = true →
      Gives (.registerWrite ⟨0, .bar0, 0xB0040, true, true, v⟩) s (fun e => OnlyFields s.dev e []))

/-- O11. A read of PF0 that reaches the device: the low dword of a 64-bit register is answered and the high dword
latched; a read of a dword with a latched value answers that value and takes the latch away; any other dword is
answered as it stands, and of a dword only the enabled bytes. A 64-bit read answers both halves at once and leaves
the latch (log entry 74). The MSI-X table reads back its entries. No register field and no staged value changes. -/
def Obligations.LowDwordReadLatches : Prop :=
  ∀ (a : Nat) (s : State), s.dev.linkUp = true → s.dev.reaches 0 = true → a < 2 ^ 25 → a % 4 = 0 →
    let d := (s.dev.exitL1.ungate .hif).ungate (pageOwner a)
    let low (x : Nat) : Nat := enabledBytes 15 x
    (wideAt a = true → Gives (.lowDwordRead 0 ⟨.bar0, a, false, 15⟩) s (fun e =>
      (.reply (low (d.dwordRead a)) :: s.dev.emitted) <:+ e.emitted ∧
      Tbl.get? e.hiLatch (a + 4) = some (d.dwordRead (a + 4)) ∧
      OnlyFields s.dev e [] ∧ e.staged = s.dev.staged)) ∧
    (∀ x, wideAt a = false → Tbl.get? s.dev.hiLatch a = some x → Gives (.lowDwordRead 0 ⟨.bar0, a, false, 15⟩) s (fun e =>
      (.reply (low x) :: s.dev.emitted) <:+ e.emitted ∧ Tbl.get? e.hiLatch a = none ∧
      OnlyFields s.dev e [] ∧ e.staged = s.dev.staged)) ∧
    (wideAt a = false → Tbl.get? s.dev.hiLatch a = none → Gives (.lowDwordRead 0 ⟨.bar0, a, false, 15⟩) s (fun e =>
      (.reply (low (d.dwordRead a)) :: s.dev.emitted) <:+ e.emitted ∧ e.hiLatch = s.dev.hiLatch ∧
      OnlyFields s.dev e [] ∧ e.staged = s.dev.staged)) ∧
    (∀ n, a % 8 = 0 → Gives (.lowDwordRead 0 ⟨.bar0, a, true, n⟩) s (fun e =>
      let d := s.dev.exitL1.ungate .hif
      (.reply (enabledBytes n (d.dwordRead a + d.dwordRead (a + 4) * 2 ^ 32)) :: s.dev.emitted) <:+ e.emitted ∧
      e.hiLatch = s.dev.hiLatch ∧ OnlyFields s.dev e [] ∧ e.staged = s.dev.staged)) ∧
    (s.dev.fnExists 0 = true → ∀ v n, v < vectorsOf 0 → Gives (.lowDwordRead 0 ⟨.msix, 16 * v + 12, false, n⟩) s (fun e =>
      (.reply (enabledBytes n (b2n (s.dev.vec 0 v).masked)) :: s.dev.emitted) <:+ e.emitted ∧
      OnlyFields s.dev e [] ∧ e.staged = s.dev.staged))

/-- O12. While the lock is clear, a write gives trip_c, throttle_c, warn_c and hyst_c the nearest values of their
ranges, with throttle_c at least 5 below trip_c and warn_c at most throttle_c; once it is set, nothing changes. -/
def Obligations.ThermalLimitsClamped : Prop :=
  ∀ (v : Dword) (s : State), HostReaches s.dev 0 .sys →
    (bitOf (s.dev.rd (Reg.BLK_LOCK_lock.ix 0)) 0 = false → Gives (.thermCfgWrite v) s (fun e =>
      e.rd Reg.SYS_THERM_CFG_trip_c = max 105 (min 115 (v.toNat / 2 ^ 24)) ∧
      e.rd Reg.SYS_THERM_CFG_throttle_c = max 90 (min (e.rd Reg.SYS_THERM_CFG_trip_c - 5) (v.toNat / 2 ^ 16 % 256)) ∧
      e.rd Reg.SYS_THERM_CFG_warn_c = max 70 (min (e.rd Reg.SYS_THERM_CFG_throttle_c) (v.toNat / 2 ^ 8 % 256)) ∧
      e.rd Reg.SYS_THERM_CFG_hyst_c = max 2 (min 10 (v.toNat % 256)) ∧
      OnlyFields s.dev e [Reg.SYS_THERM_CFG_trip_c, Reg.SYS_THERM_CFG_throttle_c, Reg.SYS_THERM_CFG_warn_c,
        Reg.SYS_THERM_CFG_hyst_c])) ∧
    (bitOf (s.dev.rd (Reg.BLK_LOCK_lock.ix 0)) 0 = true → Gives (.thermCfgWrite v) s (fun e => OnlyFields s.dev e []))

/-- O13. On a page that answers, in OFF or FAULT: the block's counters, first error and interrupt enables read 0, no
value is staged in its page, BLK_LOCK is kept, and en reads 0 in the blocks where it is RW. In any other state
refused is raised and no field, staged value or lock changes. -/
def Obligations.SoftReset : Prop :=
  ∀ (b : Blk) (s : State), HostReaches s.dev 0 b →
    (s.dev.blkState b = stOff ∨ s.dev.blkState b = stFault → Gives (.softReset b) s (fun e =>
      (e.note b).corr = 0 ∧ (e.note b).uncorr = 0 ∧ (e.note b).firstCode = 0 ∧
      e.rd (Reg.BLK_INT_EN_common.ix b.page) = 0 ∧ e.rd (Reg.BLK_INT_EN_specific.ix b.page) = 0 ∧
      (∀ p ∈ e.staged, p.1 / 64 / 65536 ≠ b.page) ∧
      e.rd (Reg.BLK_LOCK_lock.ix b.page) = s.dev.rd (Reg.BLK_LOCK_lock.ix b.page) ∧
      (b = .smc ∨ b = .mnt ∨ b = .bme ∨ b = .tmb → e.rd (Reg.BLK_CTRL_en.ix b.page) = 0))) ∧
    (s.dev.blkState b ≠ stOff → s.dev.blkState b ≠ stFault → Gives (.softReset b) s (fun e =>
      Raised e b 3 ∧ OnlyFields s.dev e [] ∧ e.staged = s.dev.staged))

/-- O14. On a page that answers: en ← 0 in IDLE or ACTIVE leaves SMC, MNT and BME in DRAINING and TMB in OFF with en 0,
and is ignored in every other block; en ← 1 takes MNT, BME and TMB from OFF, and SMC and MNT from DRAINING, to IDLE
or ACTIVE with en 1; a draining MNT, BME without outstanding host reads, and SMC without fills, evictions, waiting
requests and lines to walk over, reach OFF when draining ends. A block without work, with clk_hold 0 and a non-zero
idle_us, whose domain is on, becomes GATED after its idle time. -/
def Obligations.BlockEnableAndDrain : Prop :=
  ∀ (b : Blk) (s : State),
    (HostReaches s.dev 0 b → (b = .smc ∨ b = .mnt ∨ b = .bme) → (s.dev.blkState b = stIdle ∨ s.dev.blkState b = stActive) →
      Gives (.blockDisable b) s (fun e => e.blkState b = stDraining ∧ e.rd (Reg.BLK_CTRL_en.ix b.page) = 0)) ∧
    ((s.dev.blkState .tmb = stIdle ∨ s.dev.blkState .tmb = stActive) → HostReaches s.dev 0 .tmb →
      Gives (.blockDisable .tmb) s (fun e => e.blkState .tmb = stOff ∧ e.rd (Reg.BLK_CTRL_en.ix 3) = 0)) ∧
    (HostReaches s.dev 0 b → b ≠ .smc → b ≠ .mnt → b ≠ .bme → b ≠ .tmb → Gives (.blockDisable b) s (fun e =>
      OnlyFields s.dev e [] ∧ e.staged = s.dev.staged)) ∧
    (HostReaches s.dev 0 b → (((b = .mnt ∨ b = .bme ∨ b = .tmb) ∧ s.dev.blkState b = stOff) ∨
        ((b = .smc ∨ b = .mnt) ∧ s.dev.blkState b = stDraining)) →
      Gives (.blockEnable b) s (fun e =>
        (e.blkState b = stIdle ∨ e.blkState b = stActive) ∧ e.rd (Reg.BLK_CTRL_en.ix b.page) = 1)) ∧
    (s.dev.blkState b = stDraining →
      (b = .mnt ∨ (b = .bme ∧ s.dev.bmeOutstanding = false) ∨
        (b = .smc ∧ s.dev.smc.evict = [] ∧ s.dev.smc.regs = [] ∧ s.dev.smc.waiting = [] ∧ s.dev.smc.walkSet = none)) →
      Gives (.blockDrainDone b) s (fun e => e.blkState b = stOff)) ∧
    (s.dev.working b = false → s.dev.rd (Reg.BLK_CTRL_clk_hold.ix b.page) = 0 →
      s.dev.rd (Reg.BLK_POWER_idle_us.ix b.page) ≠ 0 → s.dev.pstate b ≠ 2 →
      Gives (.clockGate b) s (fun e => e.rd (Reg.BLK_POWER_pstate.ix b.page) = 1 ∧ OnlyFields s.dev e []))

/-- O15. In the five blocks with commit registers, with no commit busy and CCX not in FAULT: go alone shows PENDING
with busy and the token, or HALTED at once in the whole-device halt; go with discard is refused and changes
nothing; discard makes every staged value of the block read its live value. -/
def Obligations.CommitGoAndDiscard : Prop :=
  ∀ (b : Blk) (token : BitVec 16) (s : State), HostReaches s.dev 0 b → b ∈ commitBlks →
    s.dev.rd (Reg.COMMIT_STAT_busy.ix b.page) = 0 → s.dev.blkState .ccx ≠ stFault →
    (s.dev.blkState .sys ≠ stHalt → Gives (.commitGo b token false) s (fun e =>
      e.rd (Reg.COMMIT_STAT_busy.ix b.page) = 1 ∧ e.rd (Reg.COMMIT_STAT_status.ix b.page) = 1 ∧
      e.rd (Reg.COMMIT_STAT_token.ix b.page) = token.toNat ∧ e.staged = s.dev.staged ∧
      OnlyFields s.dev e [Reg.COMMIT_STAT_busy.ix b.page, Reg.COMMIT_STAT_status.ix b.page,
        Reg.COMMIT_STAT_token.ix b.page, Reg.COMMIT_WHERE_offset.ix b.page])) ∧
    (s.dev.blkState .sys = stHalt → Gives (.commitGo b token false) s (fun e =>
      e.rd (Reg.COMMIT_STAT_busy.ix b.page) = 0 ∧ e.rd (Reg.COMMIT_STAT_status.ix b.page) = 7 ∧
      e.staged = s.dev.staged)) ∧
    Gives (.commitGo b token true) s (fun e => Raised e b 3 ∧ OnlyFields s.dev e [] ∧ e.staged = s.dev.staged) ∧
    Gives (.commitDiscard b) s (fun e =>
      (∀ f : Fld, commitOwner f.base = some b → f.lo < 64 → e.rdStaged f = e.rd f) ∧ OnlyFields s.dev e [])

/-- O16. A busy commit completes in phase READY with CCX not in FAULT: where the check finds something, status and
PREFIX_COMMIT_WHERE name it, busy is 0, and no live and no staged value changes; where it finds nothing (shown for
BPS and MNT, whose switch has no further effect), status is OK, PREFIX_COMMIT_ASN is the next admission number, and
every field staged through the block reads the value that was staged. -/
def Obligations.CommitIsAllOrNothing : Prop :=
  ∀ (b : Blk) (s : State), s.dev.rdB (Reg.COMMIT_STAT_busy.ix b.page) = true → s.dev.phase = phReady →
    s.dev.blkState .ccx ≠ stFault →
    (∀ st off, s.dev.findings b = some (st, off) → Gives (.commitComplete b) s (fun e =>
      e.rd (Reg.COMMIT_STAT_busy.ix b.page) = 0 ∧ e.rd (Reg.COMMIT_STAT_status.ix b.page) = st % 256 ∧
      e.rd (Reg.COMMIT_WHERE_offset.ix b.page) = off % 2 ^ 25 ∧ e.staged = s.dev.staged ∧ e.dram = s.dev.dram ∧
      OnlyFields s.dev e [Reg.COMMIT_STAT_busy.ix b.page, Reg.COMMIT_STAT_status.ix b.page,
        Reg.COMMIT_WHERE_offset.ix b.page])) ∧
    (s.dev.findings b = none → (b = .bps ∨ b = .mnt) → Gives (.commitComplete b) s (fun e =>
      e.rd (Reg.COMMIT_STAT_busy.ix b.page) = 0 ∧ e.rd (Reg.COMMIT_STAT_status.ix b.page) = 0 ∧
      e.rd (Reg.COMMIT_ASN_asn.ix b.page) = s.dev.qmx.adm % 2 ^ 32 ∧
      (∀ p ∈ e.staged, commitOwner (p.1 / 64) ≠ some b) ∧
      (∀ f ∈ Reg.all, f.acc = .rws → f.dims = [] → commitOwner f.base = some b →
        let staged := s.dev.staged.filter fun x => x.1 = f.key
        (∀ v, staged = [(f.key, v)] → e.rd f = v) ∧ (staged = [] → e.rd f = s.dev.rd f))))

/-- O17. Over a link that is up, a configuration read of a function that exists and is ready answers the dword it
holds, and changes nothing else; a request to a function whose Memory Space Enable is 0 or that is in D3hot is
answered with Unsupported Request and logged in AER. NumVFs above 64 is taken as 64 and ignored while VF Enable is
1; setting VF Enable makes the VFs, not ready for 100 ms; clearing it leaves none, each with its held completions
discarded and its epoch one higher. -/
def Obligations.ConfigurationAccess : Prop :=
  ∀ (f off : Nat) (n : BitVec 16) (s : State),
    (s.dev.linkUp = true → s.dev.fnExists f = true → (s.dev.fn f).readyAt ≤ s.dev.ticks →
      Gives (.configRequest f off none) s (fun e =>
        (.cfgReply f (s.dev.exitL1.cfgRead f (off / 4 * 4)) :: s.dev.emitted) <:+ e.emitted ∧
        OnlyFields s.dev e [] ∧ e.staged = s.dev.staged ∧ ∀ g, e.fn g = s.dev.fn g)) ∧
    (s.dev.linkUp = true → s.dev.fnExists f = true → ((s.dev.fn f).mse = false ∨ (s.dev.fn f).d3 = true) →
      Gives (.unsupportedRequest (.disabledFunction f)) s (fun e =>
        (.unsupported f :: s.dev.emitted) <:+ e.emitted ∧
        (e.fn f).aerUncorr = (s.dev.fn f).aerUncorr ||| 2 ^ 20 ∧ OnlyFields s.dev e [] ∧ e.staged = s.dev.staged)) ∧
    Gives (.numVfsWrite n) s (fun e =>
      e.hif.numVfs = (if s.dev.hif.vfEnable then s.dev.hif.numVfs else min n.toNat 64) ∧ OnlyFields s.dev e []) ∧
    (s.dev.hif.vfEnable = false → Gives .vfEnableSet s (fun e =>
      e.hif.vfEnable = true ∧ OnlyFields s.dev e [] ∧
      ∀ g, 1 ≤ g → g ≤ s.dev.hif.numVfs → e.fnExists g = true ∧ (e.fn g).mse = false ∧ (e.fn g).bme = false ∧
        (e.fn g).readyAt = s.dev.ticks + 25000000)) ∧
    (s.dev.hif.vfEnable = true → s.dev.hif.numVfs ≤ 64 → Gives .vfEnableClear s (fun e =>
      e.hif.vfEnable = false ∧ e.lay = s.dev.lay ∧ e.dram.cache = s.dev.dram.cache ∧
      ∀ g, 1 ≤ g → g ≤ s.dev.hif.numVfs → e.fnExists g = false ∧ (e.fn g).held = [] ∧
        e.rd (Reg.HIF_FN_STAT_epoch.ix g) = (s.dev.rd (Reg.HIF_FN_STAT_epoch.ix g) + 1) % 2 ^ 16))

/-- O18. FLR of an existing VF over a link that is up clears its Memory Space Enable, Bus Master Enable and D-state,
discards its held completions and its event ring, counts its epoch, and leaves arrays, drives, the cache, the locks
and the containment freeze as they are; its MSI-X table and the other functions' enables follow R54. FLR_COMPLETE
ends it. Clearing Memory Space Enable does the same to the function's work and keeps its Bus Master Enable. -/
def Obligations.FunctionLevelResets : Prop :=
  ∀ (f : Nat) (s : State), f ≤ 64 →
    (s.dev.linkUp = true → f ≠ 0 → s.dev.fnExists f = true → Gives (.flrVf f) s (fun e =>
      (e.fn f).mse = false ∧ (e.fn f).bme = false ∧ (e.fn f).d3 = false ∧ (e.fn f).flr = true ∧ (e.fn f).held = [] ∧
      e.ring f = {} ∧ e.rd (Reg.HIF_FN_STAT_epoch.ix f) = (s.dev.rd (Reg.HIF_FN_STAT_epoch.ix f) + 1) % 2 ^ 16 ∧
      e.dram.cache = s.dev.dram.cache ∧ e.lay = s.dev.lay ∧ e.dpx = s.dev.dpx ∧ e.staged = s.dev.staged ∧
      e.qmx.halted = s.dev.qmx.halted ∧ e.frozen = s.dev.frozen ∧
      ∀ g, g ≠ f → (e.fn g).mse = (s.dev.fn g).mse ∧ (e.fn g).bme = (s.dev.fn g).bme)) ∧
    Gives (.flrComplete f) s (fun e => (e.fn f).flr = false ∧ OnlyFields s.dev e [] ∧ e.qmx = s.dev.qmx) ∧
    (s.dev.fnExists f = true → (s.dev.fn f).mse = true → Gives (.memorySpaceDisable f) s (fun e =>
      (e.fn f).mse = false ∧ (e.fn f).bme = (s.dev.fn f).bme ∧ (e.fn f).held = [] ∧ e.ring f = {} ∧
      e.rd (Reg.HIF_FN_STAT_epoch.ix f) = (s.dev.rd (Reg.HIF_FN_STAT_epoch.ix f) + 1) % 2 ^ 16 ∧
      e.dram.cache = s.dev.dram.cache ∧ e.lay = s.dev.lay))

/-- O19. Each of the three ends the whole-device halt, takes away the VFs, clears every function's enables, held
completions and event ring, counts every epoch, and leaves staged values, arrays, drives, maintenance, backup
energy and the cache as they are. PERST_N clears every lock; hot reset and FLR of PF0 keep them. PERST_N and hot
reset release the containment freeze, FLR of PF0 keeps it. A hot reset retrains the link, with configuration space
ready within 100 ms; PERST_N deasserted trains it, ready within 1 s. -/
def Obligations.HostResets : Prop :=
  ∀ s : State,
    let common (e : Dev) : Prop :=
      e.qmx.halted = false ∧ e.hif.vfEnable = false ∧ e.staged = s.dev.staged ∧ e.lay = s.dev.lay ∧
      e.dpx = s.dev.dpx ∧ e.mnt = s.dev.mnt ∧ e.bps = s.dev.bps ∧ e.dram.cache = s.dev.dram.cache ∧
      e.dram.stripes = s.dev.dram.stripes ∧ e.dram.intents = s.dev.dram.intents ∧
      ∀ f, f ≤ 64 → (e.fn f).mse = false ∧ (e.fn f).bme = false ∧ (e.fn f).held = [] ∧
        e.rd (Reg.HIF_FN_STAT_epoch.ix f) = (s.dev.rd (Reg.HIF_FN_STAT_epoch.ix f) + 1) % 2 ^ 16
    (s.dev.sys.perstN = true → s.dev.sys.pdMain = true → s.dev.hif.link ≠ .abandoned →
      Gives .perstAssert s (fun e => common e ∧ e.sys.perstN = false ∧ e.frozen = false ∧
        ∀ b : Blk, e.rd (Reg.BLK_LOCK_lock.ix b.page) = 0)) ∧
    (s.dev.sys.perstN = true → s.dev.hifOn = true →
      Gives .hotReset s (fun e => common e ∧ e.frozen = false ∧ e.rd Reg.HIF_LINK_up = 1 ∧
        (∀ b : Blk, e.rd (Reg.BLK_LOCK_lock.ix b.page) = s.dev.rd (Reg.BLK_LOCK_lock.ix b.page)) ∧
        ∀ f, f ≤ 64 → (e.fn f).readyAt ≤ s.dev.ticks + 25000000)) ∧
    (s.dev.linkUp = true →
      Gives .flrPf0 s (fun e => common e ∧ e.frozen = s.dev.frozen ∧ (e.fn 0).flr = true ∧
        ∀ b : Blk, e.rd (Reg.BLK_LOCK_lock.ix b.page) = s.dev.rd (Reg.BLK_LOCK_lock.ix b.page))) ∧
    (s.dev.sys.perstN = false → s.dev.sys.pdMain = true → s.dev.hif.link ≠ .abandoned → 2 ≤ s.dev.phase →
      s.dev.phase < 9 → Gives .perstDeassert s (fun e =>
        e.sys.perstN = true ∧ e.sys.pdHphy = true ∧ e.rd Reg.HIF_LINK_up = 1 ∧ e.nt.wakeN = true ∧
        (∀ f, f ≤ 64 → (e.fn f).readyAt ≤ s.dev.ticks + 250000000) ∧ e.qmx = s.dev.qmx ∧ e.lay = s.dev.lay))

/-- O20. Each change sets the function's own bit and no other function's enables: Bus Master Enable 0 and 1, D3hot and
D0 (over a link that is up). While it is 0, or in D3hot, the function issues no request. PME_Turn_Off stops every
function, is answered, and takes the link down to L2/L3 Ready. Blocks admitted to the cache stay. -/
def Obligations.BusMasterAndPowerStates : Prop :=
  ∀ (f : Nat) (s : State), f ≤ 64 → s.dev.fnExists f = true →
    ((s.dev.fn f).bme = true → Gives (.busMasterDisable f) s (fun e =>
      (e.fn f).bme = false ∧ e.canDma f = false ∧ e.dram.cache = s.dev.dram.cache ∧
      ∀ g, g ≠ f → (e.fn g).bme = (s.dev.fn g).bme)) ∧
    ((s.dev.fn f).bme = false → Gives (.busMasterEnable f) s (fun e =>
      (e.fn f).bme = true ∧ ∀ g, g ≠ f → (e.fn g).bme = (s.dev.fn g).bme)) ∧
    ((s.dev.fn f).d3 = false → Gives (.d3hotEntry f) s (fun e =>
      (e.fn f).d3 = true ∧ e.canDma f = false ∧ e.dram.cache = s.dev.dram.cache ∧
      ∀ g, g ≠ f → (e.fn g).d3 = (s.dev.fn g).d3)) ∧
    ((s.dev.fn f).d3 = true → s.dev.linkUp = true → Gives (.d0Entry f) s (fun e =>
      (e.fn f).d3 = false ∧ ∀ g, g ≠ f → (e.fn g).d3 = (s.dev.fn g).d3)) ∧
    (s.dev.linkUp = true → Gives .pmeTurnOff s (fun e =>
      e.hif.pmeTurnedOff = true ∧ .pmeToAck ∈ e.emitted ∧ e.rd Reg.HIF_LINK_up = 0 ∧ ∀ g, e.canDma g = false))

/-- O21. With ASPM L1 enabled in L0, an idle link asks for L1. L0p narrows a wide link to x8 and a narrowed one widens
again, if enabled. Clearing a vector's mask sends its pending message when MSI-X is enabled and nothing else holds
it. -/
def Obligations.LinkPowerAndMessages : Prop :=
  ∀ (f v : Nat) (s : State),
    (s.dev.hif.link = .l0 → s.dev.hif.aspmL1 = true → Gives .l1EntryRequest s (fun e =>
      (.l1Request :: s.dev.emitted) <:+ e.emitted ∧ OnlyFields s.dev e [])) ∧
    (s.dev.linkUp = true → s.dev.hif.l0pEn = true → 8 < s.dev.rd Reg.HIF_LINK_l0p_width →
      1 ≤ s.dev.rd Reg.HIF_ASPM_l0p_min → Gives .l0pNarrow s (fun e =>
        e.rd Reg.HIF_LINK_l0p_width = 8 ∧ (.lanes 8 :: s.dev.emitted) <:+ e.emitted ∧
        OnlyFields s.dev e [Reg.HIF_LINK_l0p_width])) ∧
    (s.dev.linkUp = true → s.dev.rd Reg.HIF_LINK_l0p_width < s.dev.rd Reg.HIF_LINK_width →
      s.dev.rd Reg.HIF_LINK_width < 32 → Gives .l0pWiden s (fun e =>
        e.rd Reg.HIF_LINK_l0p_width = s.dev.rd Reg.HIF_LINK_width ∧ OnlyFields s.dev e [Reg.HIF_LINK_l0p_width])) ∧
    (f ≤ 64 → v < vectorsOf f → HostReaches s.dev f .hif → Gives (.msixUnmask f v) s (fun e =>
      (e.vec f v).masked = false ∧ OnlyFields s.dev e [])) ∧
    (f ≤ 64 → v < vectorsOf f → HostReaches s.dev f .hif → (s.dev.vec f v).pend = true → (s.dev.fn f).msixEn = true → (s.dev.fn f).fmask = false →
      s.dev.canPost f = true → Gives (.msixUnmask f v) s (fun e => (.msix f v :: s.dev.emitted) <:+ e.emitted))

/-- O22. A freed tag goes to the function whose turn it is, whose oldest waiting read goes out under it. A good
completion of an entry fetch frees its tag and fills the fetched entries of its range. A timeout of an outstanding
tag quarantines it, counts in HIF_CTO_CNT, and sets the function's AER bit. A completion for a quarantined or
unknown tag counts in HIF_LATE_CNT; it and the end of the quarantine free the tag. -/
def Obligations.HostReadTags : Prop :=
  ∀ (s : State) (tag : Nat) (t : Tag),
    (∀ r w id, s.dev.hif.waiting = r :: w → r.fn = s.dev.hif.grantNext → r.fn < 65 → s.dev.mayTakeTag r.fn = true →
      s.dev.freeTagId = some id → s.dev.bmeReadOk r = none → Gives .tagGrant s (fun e =>
        e.hif.waiting = w ∧ e.hif.tags = s.dev.hif.tags ++ [⟨id, r.fn, r.kind, r.addr, r.len, r.retried, false, false⟩] ∧
        (.memRead r.fn id r.addr r.len :: s.dev.emitted) <:+ e.emitted ∧ OnlyFields s.dev e [])) ∧
    (∀ q slot n data, s.dev.tag? tag = some t → t.quar = false → t.doomed = false → t.kind = .entries q slot n →
      Ends (.hostReadCompletion tag data false) s (fun u =>
        (∀ x ∈ u.dev.hif.tags, x.id ≠ tag) ∧ u.pending = s.pending ∧
        u.dev.qmx.cmds = s.dev.qmx.cmds ∧
        ∀ x ∈ s.dev.qmx.fetched, x.q = q → slot ≤ x.slot → x.slot < slot + n → x.data = none →
          ∃ y ∈ u.dev.qmx.fetched, y.q = q ∧ y.slot = x.slot ∧
            y.data = some (dwordsOf 16 ((padB t.len data).drop (64 * (x.slot - slot)))))) ∧
    (s.dev.tag? tag = some t → t.quar = false → Gives (.completionTimeout tag) s (fun e =>
      e.rd Reg.HIF_CTO_CNT_timeouts = min (s.dev.rd Reg.HIF_CTO_CNT_timeouts + 1) (2 ^ 32 - 1) ∧
      (∃ x ∈ e.hif.tags, x.id = tag ∧ x.quar = true) ∧ (e.fn t.fn).aerUncorr = (s.dev.fn t.fn).aerUncorr ||| 2 ^ 14)) ∧
    (s.dev.tag? tag = some t → t.quar = true → Gives (.quarantineExpire tag) s (fun e =>
      e.hif.tags = s.dev.hif.tags.filter (fun x => x.id ≠ tag) ∧ OnlyFields s.dev e [] ∧ e.qmx = s.dev.qmx)) ∧
    ((s.dev.tag? tag = none ∨ (s.dev.tag? tag = some t ∧ t.quar = true)) → Gives (.unexpectedCompletion tag) s (fun e =>
      e.rd Reg.HIF_LATE_CNT_late = min (s.dev.rd Reg.HIF_LATE_CNT_late + 1) (2 ^ 32 - 1) ∧
      (∀ x ∈ e.hif.tags, x.id ≠ tag) ∧ OnlyFields s.dev e [Reg.HIF_LATE_CNT_late]))

/-- O23. A cause outside a freeze freezes the host side, is recorded with the function and the time when no cause is
recorded yet, counts, and dooms every outstanding read; a cause inside one is only counted. Release over a link
that is up ends the freeze, and is refused while the link is not up; without a freeze it changes nothing; log_clr
clears what is recorded and keeps the freeze. -/
def Obligations.ContainmentFreeze : Prop :=
  ∀ (cause : ContainCause) (fn : Option Nat) (s : State), (∀ f, fn = some f → f ≤ 64) →
    let counted (e : Dev) : Prop :=
      e.rd Reg.HIF_CONTAIN_count = min (s.dev.rd Reg.HIF_CONTAIN_count + 1) (2 ^ Reg.HIF_CONTAIN_count.width - 1)
    (s.dev.frozen = false → Gives (.containment cause fn) s (fun e =>
      e.frozen = true ∧ counted e ∧
      (s.dev.rd Reg.HIF_CONTAIN_cause = 0 → e.rd Reg.HIF_CONTAIN_cause = cause.code ∧
        e.rd Reg.HIF_CONTAIN_fn = fn.getD 0x7F ∧ e.rd Reg.HIF_CONTAIN_TS_ts = s.dev.now % 2 ^ 64) ∧
      (s.dev.rd Reg.HIF_CONTAIN_cause ≠ 0 → e.rd Reg.HIF_CONTAIN_cause = s.dev.rd Reg.HIF_CONTAIN_cause) ∧
      (∀ x ∈ e.hif.tags, x.doomed = true) ∧ (∀ f, e.canDma f = false) ∧ e.dram.cache = s.dev.dram.cache)) ∧
    (s.dev.frozen = true → Gives (.containment cause fn) s (fun e => e.frozen = true ∧ counted e ∧
      OnlyFields s.dev e [Reg.HIF_CONTAIN_count, Reg.HIF_LINK_up, Reg.HIF_LINK_speed, Reg.HIF_LINK_width,
        Reg.HIF_LINK_l0p_width, Reg.HIF_LINK_flit] ∧ e.dram = s.dev.dram ∧ e.qmx = s.dev.qmx)) ∧
    (s.dev.frozen = true → HostReaches s.dev 0 .hif → Gives .containRelease s (fun e =>
      e.frozen = false ∧ e.staged = s.dev.staged ∧
      ∀ f, e.canDma f = ((s.dev.fn f).bme && !(s.dev.fn f).d3 && !s.dev.hif.pmeTurnedOff))) ∧
    (s.dev.frozen = true → s.dev.linkUp = false → Gives .containRelease s (fun e =>
      e.frozen = true ∧ Raised e .hif 3 ∧ Frame s.dev e [] [])) ∧
    (s.dev.frozen = false → HostReaches s.dev 0 .hif → Gives .containRelease s (fun e => Frame s.dev e [] [])) ∧
    HostGives 0 .hif .containLogClr s (fun e =>
      e.frozen = s.dev.frozen ∧
      e.rd Reg.HIF_CONTAIN_fn = 0 ∧ e.rd Reg.HIF_CONTAIN_count = 0 ∧ e.rd Reg.HIF_CONTAIN_cause = 0 ∧
      e.rd Reg.HIF_CONTAIN_TS_ts = 0 ∧ OnlyFields s.dev e [Reg.HIF_CONTAIN_fn, Reg.HIF_CONTAIN_count,
        Reg.HIF_CONTAIN_cause, Reg.HIF_CONTAIN_TS_ts])

/-- O24. A write of base and count for a function, with base 0 for PF0, is taken when its range overlaps no other
function's, ends within the 1,024 queues, counts at most 256 for a VF, moves no base while a queue of the old range
is not DISABLED, and cuts off no such queue. Otherwise refused is raised and nothing changes. -/
def Obligations.QueueQuotas : Prop :=
  ∀ (cq : Bool) (f base count : Nat) (s : State), HostReaches s.dev 0 .qmx → f ≤ 64 → base < 1024 → count ≤ 1024 → (f = 0 → base = 0) →
    let baseF : Nat → Fld := fun g => if cq then Reg.QMX_FN_CQ_base.ix g else Reg.QMX_FN_SQ_base.ix g
    let countF : Nat → Fld := fun g => if cq then Reg.QMX_FN_CQ_count.ix g else Reg.QMX_FN_SQ_count.ix g
    let busy : Nat → Prop := fun q => if cq then s.dev.cqActive q = true else s.dev.sqState q ≠ sqDisabled
    let taken : Prop :=
      (∀ g, g ≤ 64 → g ≠ f → 0 < count → 0 < s.dev.rd (countF g) →
        s.dev.rd (baseF g) + s.dev.rd (countF g) ≤ base ∨ base + count ≤ s.dev.rd (baseF g)) ∧
      base + count ≤ 1024 ∧ (f ≠ 0 → count ≤ 256) ∧
      (∀ i, i < s.dev.rd (countF f) → busy (s.dev.rd (baseF f) + i) → base = s.dev.rd (baseF f) ∧ i < count)
    (taken → Gives (.quotaWrite cq f base count) s (fun e =>
      e.rd (baseF f) = base ∧ e.rd (countF f) = count ∧ Frame s.dev e [baseF f, countF f] [])) ∧
    (¬ taken → Gives (.quotaWrite cq f base count) s (fun e => Raised e .qmx 3 ∧ Frame s.dev e [] []))

/-- O25. A whole write of an index below the depth to a tail doorbell of an ACTIVE, FETCH_TIMEOUT or HALTED SQ sets its
tail; to a head doorbell of an ACTIVE CQ, an index between head and tail sets its head; to the head doorbell of an
enabled event ring likewise. Nothing else changes, but that events that wait for the ring may be written. -/
def Obligations.GoodDoorbells : Prop :=
  ∀ (f i idx : Nat) (s : State), HostReaches s.dev f .qmx → f ≤ 64 → idx < 2 ^ 16 →
    let q := s.dev.sqBase f + i
    let p := s.dev.cqBase f + i
    (i < s.dev.sqCount f → i < (if f = 0 then 1024 else 256) → s.dev.sqShown q ∈ [sqActive, sqFetchTimeout, sqHalted] →
      idx < s.dev.sqDepth q → Gives (.sqTailDoorbell f i (BitVec.ofNat 32 idx) false) s (fun e =>
        e.rd (Reg.QD_SQ_PTR_tail.ix q) = idx ∧ Frame s.dev e [Reg.QD_SQ_PTR_tail.ix q] [])) ∧
    (i < s.dev.cqCount f → i < (if f = 0 then 1024 else 256) → s.dev.cqActive p = true → idx < s.dev.cqDepth p →
      onPath (s.dev.rd (Reg.QD_CQ_PTR_head.ix p)) (s.dev.rd (Reg.QD_CQ_PTR_tail.ix p)) idx (s.dev.cqDepth p) = true →
      Gives (.cqHeadDoorbell f i (BitVec.ofNat 32 idx) false) s (fun e =>
        e.rd (Reg.QD_CQ_PTR_head.ix p) = idx ∧ Frame s.dev e [Reg.QD_CQ_PTR_head.ix p] [])) ∧
    (s.dev.rdB (Reg.EVR_CFG_en.ix f) = true → idx < s.dev.ringDepth f →
      onPath (s.dev.ring f).head (s.dev.ring f).tail idx (s.dev.ringDepth f) = true →
      Gives (.eventHeadDoorbell f (BitVec.ofNat 32 idx) false) s (fun e =>
        (e.ring f).head = idx ∧ Frame s.dev e [] [] ∧
        ((s.dev.ring f).pend = [] → (e.ring f).tail = (s.dev.ring f).tail)))

/-- O26. A partial write or a nonzero upper half (reason 1), a queue that is not in a fitting state (2), an index not
below the depth (0), and, for heads, an index not between head and tail (3) move no index: QMX_DB_ERR counts,
QMX_DB_LAST tells kind, reason, function and queue, bad_doorbell is raised and an error counted. -/
def Obligations.BadDoorbells : Prop :=
  ∀ (f i : Nat) (v : Dword) (whole : Bool) (s : State), HostReaches s.dev f .qmx → f ≤ 64 → i < (if f = 0 then 1024 else 256) →
    let q := s.dev.sqBase f + i
    let p := s.dev.cqBase f + i
    let idx := v.toNat % 2 ^ 16
    let malformed : Prop := whole = false ∨ 2 ^ 16 ≤ v.toNat
    let bad (kind reason qn : Nat) (e : Dev) : Prop :=
      e.rd Reg.QMX_DB_ERR_count = min (s.dev.rd Reg.QMX_DB_ERR_count + 1) (2 ^ 32 - 1) ∧
      e.rd Reg.QMX_DB_LAST_kind = kind ∧ e.rd Reg.QMX_DB_LAST_reason = reason ∧ e.rd Reg.QMX_DB_LAST_fn = f ∧
      e.rd Reg.QMX_DB_LAST_queue = qn % 1024 ∧ Raised e .qmx 16 ∧
      (e.note .qmx).corr = min ((s.dev.note .qmx).corr + 1) 0xFFFF ∧
      Frame s.dev e [Reg.QMX_DB_ERR_count, Reg.QMX_DB_LAST_kind, Reg.QMX_DB_LAST_reason, Reg.QMX_DB_LAST_fn,
        Reg.QMX_DB_LAST_queue] []
    (malformed → Gives (.sqTailDoorbell f i v (!whole)) s (bad 0 1 q) ∧
      Gives (.cqHeadDoorbell f i v (!whole)) s (bad 1 1 p) ∧ Gives (.eventHeadDoorbell f v (!whole)) s (bad 2 1 0)) ∧
    (¬ malformed → (¬ i < s.dev.sqCount f ∨ s.dev.sqShown q ∉ [sqActive, sqFetchTimeout, sqHalted]) →
      Gives (.sqTailDoorbell f i v (!whole)) s (bad 0 2 q)) ∧
    (¬ malformed → i < s.dev.sqCount f → s.dev.sqShown q ∈ [sqActive, sqFetchTimeout, sqHalted] → s.dev.sqDepth q ≤ idx →
      Gives (.sqTailDoorbell f i v (!whole)) s (bad 0 0 q)) ∧
    (¬ malformed → (¬ i < s.dev.cqCount f ∨ s.dev.cqActive p = false) →
      Gives (.cqHeadDoorbell f i v (!whole)) s (bad 1 2 p)) ∧
    (¬ malformed → i < s.dev.cqCount f → s.dev.cqActive p = true → s.dev.cqDepth p ≤ idx →
      Gives (.cqHeadDoorbell f i v (!whole)) s (bad 1 0 p)) ∧
    (¬ malformed → i < s.dev.cqCount f → s.dev.cqActive p = true → idx < s.dev.cqDepth p →
      onPath (s.dev.rd (Reg.QD_CQ_PTR_head.ix p)) (s.dev.rd (Reg.QD_CQ_PTR_tail.ix p)) idx (s.dev.cqDepth p) = false →
      Gives (.cqHeadDoorbell f i v (!whole)) s (bad 1 3 p)) ∧
    (¬ malformed → s.dev.rdB (Reg.EVR_CFG_en.ix f) = false → Gives (.eventHeadDoorbell f v (!whole)) s (bad 2 2 0)) ∧
    (¬ malformed → s.dev.rdB (Reg.EVR_CFG_en.ix f) = true → s.dev.ringDepth f ≤ idx →
      Gives (.eventHeadDoorbell f v (!whole)) s (bad 2 0 0)) ∧
    (¬ malformed → s.dev.rdB (Reg.EVR_CFG_en.ix f) = true → idx < s.dev.ringDepth f →
      onPath (s.dev.ring f).head (s.dev.ring f).tail idx (s.dev.ringDepth f) = false →
      Gives (.eventHeadDoorbell f v (!whole)) s (bad 2 3 0))

/-- O27. A DISABLED SQ of depth 2 or more that names an ACTIVE CQ of its function becomes ACTIVE with head and tail 0;
else enabling it is refused. Disabling an ACTIVE or FETCH_TIMEOUT SQ drains it, to DISABLED at once when nothing is
in flight or fetched. restart takes FETCH_TIMEOUT to ACTIVE. A CQ is enabled with head and tail 0 and phase 1,
refused with depth 1 or a vector the function lacks; it is disabled unless an SQ that is not DISABLED names it. An
event ring likewise. -/
def Obligations.QueueDescriptors : Prop :=
  ∀ (f i : Nat) (s : State), HostReaches s.dev f .qmx → f ≤ 64 →
    let q := s.dev.sqBase f + i
    let p := s.dev.cqBase f + i
    let sqGood : Prop := 1 ≤ s.dev.rd (Reg.QD_SQ_CFG_size_m1.ix q) ∧ s.dev.rd (Reg.QD_SQ_CFG_cq.ix q) < s.dev.cqCount f ∧
      s.dev.cqActive (s.dev.cqOfSq f q) = true
    let cqGood : Prop := 1 ≤ s.dev.rd (Reg.QD_CQ_CFG_size_m1.ix p) ∧ s.dev.rd (Reg.QD_CQ_CFG_vector.ix p) < vectorsOf f
    let named : Prop := ∃ j, j < s.dev.sqCount f ∧ s.dev.sqState (s.dev.sqBase f + j) ≠ sqDisabled ∧
      s.dev.cqOfSq f (s.dev.sqBase f + j) = p
    let idle : Prop := s.dev.inflight q = 0 ∧ ∀ x ∈ s.dev.qmx.fetched, x.q ≠ q
    let ringGood : Prop := 1 ≤ s.dev.rd (Reg.EVR_CFG_size_m1.ix f) ∧ s.dev.rd (Reg.EVR_CFG_vector.ix f) < vectorsOf f
    (i < s.dev.sqCount f →
      (s.dev.sqState q = sqDisabled → sqGood → Gives (.sqEnable f i) s (fun e =>
        e.rd (Reg.QD_SQ_CFG_en.ix q) = 1 ∧ e.rd (Reg.QD_SQ_PTR_head.ix q) = 0 ∧ e.rd (Reg.QD_SQ_PTR_tail.ix q) = 0 ∧
        e.sqState q = sqActive ∧ Frame s.dev e [Reg.QD_SQ_CFG_en.ix q, Reg.QD_SQ_PTR_head.ix q, Reg.QD_SQ_PTR_tail.ix q,
          Reg.QD_SQ_STAT_state.ix q] [.qmx] ∧ e.qmx.cmds = s.dev.qmx.cmds)) ∧
      (s.dev.sqState q = sqDisabled → ¬ sqGood → Gives (.sqEnable f i) s (fun e =>
        e.rd (Reg.QD_SQ_CFG_en.ix q) = 0 ∧ Raised e .qmx 3 ∧ Frame s.dev e [Reg.QD_SQ_CFG_en.ix q] [])) ∧
      (s.dev.sqState q = sqActive ∨ s.dev.sqState q = sqFetchTimeout → Gives (.sqDisable f i) s (fun e =>
        e.rd (Reg.QD_SQ_CFG_en.ix q) = 0 ∧ (idle → e.sqState q = sqDisabled) ∧ (¬ idle → e.sqState q = sqDraining) ∧
        Frame s.dev e [Reg.QD_SQ_CFG_en.ix q, Reg.QD_SQ_STAT_state.ix q] [])) ∧
      (s.dev.sqState q = sqFetchTimeout → Gives (.sqRestart f i) s (fun e =>
        e.sqState q = sqActive ∧ e.credit q = e.weight q ∧ Frame s.dev e [Reg.QD_SQ_STAT_state.ix q] [.qmx]))) ∧
    (i < s.dev.cqCount f →
      (s.dev.cqActive p = false → cqGood → Gives (.cqEnable f i) s (fun e =>
        e.rd (Reg.QD_CQ_CFG_en.ix p) = 1 ∧ e.rd (Reg.QD_CQ_PTR_head.ix p) = 0 ∧ e.rd (Reg.QD_CQ_PTR_tail.ix p) = 0 ∧
        e.rd (Reg.QD_CQ_STAT_phase.ix p) = 1 ∧ e.cqActive p = true ∧
        Frame s.dev e [Reg.QD_CQ_CFG_en.ix p, Reg.QD_CQ_PTR_head.ix p, Reg.QD_CQ_PTR_tail.ix p, Reg.QD_CQ_STAT_phase.ix p,
          Reg.QD_CQ_STAT_state.ix p] [])) ∧
      (s.dev.cqActive p = false → ¬ cqGood → Gives (.cqEnable f i) s (fun e =>
        e.rd (Reg.QD_CQ_CFG_en.ix p) = 0 ∧ Raised e .qmx 3 ∧ Frame s.dev e [Reg.QD_CQ_CFG_en.ix p] [])) ∧
      (¬ named → Gives (.cqDisable f i) s (fun e => e.rd (Reg.QD_CQ_CFG_en.ix p) = 0 ∧ e.cqActive p = false ∧
        Frame s.dev e [Reg.QD_CQ_CFG_en.ix p, Reg.QD_CQ_STAT_state.ix p] [])) ∧
      (named → Gives (.cqDisable f i) s (fun e => Raised e .qmx 3 ∧ Frame s.dev e [] []))) ∧
    (s.dev.rdB (Reg.EVR_CFG_en.ix f) = false → ringGood → Gives (.eventRingEnable f) s (fun e =>
      e.rd (Reg.EVR_CFG_en.ix f) = 1 ∧ Frame s.dev e [Reg.EVR_CFG_en.ix f] [] ∧
      ((s.dev.ring f).pend = [] → (e.ring f).head = 0 ∧ (e.ring f).tail = 0 ∧ (e.ring f).phase = true))) ∧
    (s.dev.rdB (Reg.EVR_CFG_en.ix f) = false → ¬ ringGood → Gives (.eventRingEnable f) s (fun e =>
      Raised e .qmx 3 ∧ Frame s.dev e [] [])) ∧
    Gives (.eventRingDisable f) s (fun e => e.rd (Reg.EVR_CFG_en.ix f) = 0 ∧ Frame s.dev e [Reg.EVR_CFG_en.ix f] [])

/-- O28. While intake is open: the admin SQ goes first; then the first URGENT SQ from the URGENT pointer; then the
first NORMAL SQ with credit from the NORMAL pointer, whose credit falls by what is taken. The SQ's head passes the
entries taken, which wait to be validated in their order. While intake is closed nothing changes. -/
def Obligations.ArbiterOrder : Prop :=
  ∀ (q f : Nat) (s : State),
    let d := s.dev
    let n := d.take q
    let fetched (e : Dev) : Prop :=
      e.rd (Reg.QD_SQ_PTR_head.ix q) = (d.rd (Reg.QD_SQ_PTR_head.ix q) + n) % d.sqDepth q % 2 ^ 16 ∧
      e.qmx.fetched = d.qmx.fetched ++
        (List.range n).map (fun i => (⟨q, (d.rd (Reg.QD_SQ_PTR_head.ix q) + i) % d.sqDepth q, none⟩ : Fetched)) ∧
      e.qmx.cmds = d.qmx.cmds ∧ e.qmx.adm = d.qmx.adm ∧ Frame d e [Reg.QD_SQ_PTR_head.ix q] [.qmx, .host]
    (d.intakeOpen = false → Gives .arbitrate s (fun e => Frame d e [] [])) ∧
    (d.intakeOpen = true → q = 0 → 0 < n → Gives .arbitrate s fetched) ∧
    (d.intakeOpen = true → d.take 0 = 0 → d.sqOwner q = some f →
      firstFrom d.qmx.urgentNext (fun x => decide (x ≠ 0) && d.urgent x && decide (0 < d.take x)) = some q →
      Gives .arbitrate s (fun e => fetched e ∧ e.qmx.urgentNext = (q + 1) % 1024 ∧ e.qmx.credit = d.qmx.credit)) ∧
    (d.intakeOpen = true → d.take 0 = 0 → d.sqOwner q = some f →
      firstFrom d.qmx.urgentNext (fun x => decide (x ≠ 0) && d.urgent x && decide (0 < d.take x)) = none →
      firstFrom d.qmx.normalNext (fun x => decide (x ≠ 0) && !d.urgent x && decide (0 < d.take x)) = some q →
      Gives .arbitrate s (fun e => fetched e ∧ e.qmx.normalNext = (q + 1) % 1024 ∧
        Tbl.getD e.qmx.credit q 0 = d.credit q - n))

/-- O29. While intake is open, an entry whose read is complete is admitted when it meets no condition of R81 and its
Outcome Log record overwrites none that is not final (log entry 76): it gets the next admission number, a record
NOT_ADMITTED, and both counters count it. An entry that meets one halts the device: nothing more is fetched, QMX
and SYS enter HALT, the halt record tells condition, function, SQ, slot and entry, and the halt cause is raised.
Clearing the record zeroes it and leaves the halt. -/
def Obligations.EntryValidation : Prop :=
  ∀ (x : Fetched) (rest : List Fetched) (e : List Dword) (f cond : Nat) (s : State),
    let d := s.dev
    let l := x.q - d.sqBase f
    let haltFields : List Fld := [Reg.SYS_HALT_SRC_valid, Reg.SYS_HALT_SRC_kind, Reg.SYS_HALT_SRC_overrun,
      Reg.SYS_HALT_SRC_fn, Reg.SYS_HALT_SRC_sq, Reg.SYS_HALT_POS_frag, Reg.SYS_HALT_POS_index, Reg.SYS_HALT_COND_cond,
      Reg.SYS_HALT_ASN_asn, Reg.SYS_HALT_TS_ts] ++ (List.range 16).map Reg.SYS_HALT_ENTRY_image.ix ++
      (List.range 4).map Reg.SYS_HALT_FRAG_frag_image.ix
    (d.intakeOpen = false → Gives .entryAdmit s (fun t => Frame d t [] [])) ∧
    (d.intakeOpen = true → d.qmx.fetched = x :: rest → x.data = some e → d.sqOwner x.q = some f →
      (malformed e (x.q == 0) (d.tagInUse x.q (eCmdTag e)) = none →
        (∃ r, Tbl.get? (d.olog f).recs ((d.olog f).admittedCount % 65536) = some r ∧ r.final = false) →
        Gives .entryAdmit s (fun t => Frame d t [] [])) ∧
      (malformed e (x.q == 0) (d.tagInUse x.q (eCmdTag e)) = none →
        (∀ r, Tbl.get? (d.olog f).recs ((d.olog f).admittedCount % 65536) = some r → r.final = true) →
        Gives .entryAdmit s (fun t =>
          (∃ c, t.qmx.cmds = d.qmx.cmds ++ [c] ∧ c.adm = d.qmx.adm ∧ c.fn = f ∧ c.q = x.q ∧ c.cq = d.cqOfSq f x.q ∧
            c.entry = e ∧ (eFence e = false → c.stage = .ready)) ∧
          t.qmx.adm = d.qmx.adm + 1 ∧ t.qmx.fetched = rest ∧
          (t.olog f).admittedCount = (d.olog f).admittedCount + 1 ∧
          Tbl.get? (t.olog f).recs ((d.olog f).admittedCount % 65536) = some (newRec d d.qmx.adm l e) ∧
          t.rd (Reg.QD_SQ_COUNT_admitted.ix x.q) = (d.rd (Reg.QD_SQ_COUNT_admitted.ix x.q) + 1) % 2 ^ 32 ∧
          t.rd Reg.QMX_INTAKE_admitted = (d.rd Reg.QMX_INTAKE_admitted + 1) % 2 ^ 64 ∧
          Frame d t [Reg.QD_SQ_COUNT_admitted.ix x.q, Reg.QMX_INTAKE_admitted] [.qmx, .dram])) ∧
      (malformed e (x.q == 0) (d.tagInUse x.q (eCmdTag e)) = some cond →
        Gives .entryAdmit s (fun t =>
          t.qmx.halted = true ∧ t.qmx.fetched = [] ∧ (∀ g, t.canPost g = false) ∧
          t.blkState .qmx = stHalt ∧ t.blkState .sys = stHalt ∧ Raised t .qmx 19 ∧
          t.rd Reg.SYS_HALT_SRC_valid = 1 ∧ t.rd Reg.SYS_HALT_SRC_kind = 1 ∧ t.rd Reg.SYS_HALT_SRC_fn = f ∧
          t.rd Reg.SYS_HALT_SRC_sq = x.q % 1024 ∧ t.rd Reg.SYS_HALT_POS_index = x.slot % 2 ^ 16 ∧
          t.rd Reg.SYS_HALT_COND_cond = cond ∧ t.rd Reg.SYS_HALT_ASN_asn = 0 ∧
          (d.rd Reg.SYS_HALT_SRC_valid = 0 → t.rd Reg.SYS_HALT_SRC_overrun = 0) ∧
          (d.rd Reg.SYS_HALT_SRC_valid ≠ 0 → t.rd Reg.SYS_HALT_SRC_overrun = 1) ∧
          (∀ i, i < 16 → t.rd (Reg.SYS_HALT_ENTRY_image.ix i) = dw e i)))) ∧
    (HostReaches d 0 .sys → Gives .haltRecordClear s (fun t => (∀ g ∈ haltFields, t.rd g = 0) ∧ Frame d t haltFields []))

/-- O30. A ready command on a volume for which a check of R92 fails ends with the first failing check's status and dw3,
having admitted nothing; one whose array assembles is held instead. -/
def Obligations.VolumeCommandChecks : Prop :=
  ∀ (adm op st dw3 : Nat) (i : Instr) (c : Cmd) (s : State),
    (op, i) ∈ [(opRead, Instr.read adm), (opWrite, .write adm), (opFlush, .flush adm), (opVerify, .verify adm),
      (opDeallocate, .deallocate adm), (opWriteZeroes, .writeZeroes adm)] →
    s.dev.ready? op adm = some c →
    let held : Bool := !eFlushAll c.entry && s.dev.volExists (eVolume c.entry) &&
      (s.dev.arr (s.dev.volArray (eVolume c.entry))).assembling
    (held = true → Gives i s (fun e =>
      (∃ x, e.cmd? adm = some x ∧ x.stage = .assembling ∧ x.entry = c.entry) ∧ Frame s.dev e [] [.qmx])) ∧
    (held = false → c.persist = 0 → s.dev.checkVolume c = some (st, dw3) → Gives i s (fun e =>
      Ended s.dev e c st dw3 ∧ e.dram.cache = s.dev.dram.cache ∧ Frame s.dev e (endFields c) [.qmx, .dram, .host]))

/-- O31. A ready NOP ends SUCCESS. A FLUSH that passes its checks ends SUCCESS when no block it covers is open, else
waits. A direct WRITE that holds no range waits for its space, with TAGCHK for its CRC list first. A direct data
command whose range a lower admission number holds waits for its lock; an indirect READ or WRITE asks for its
fragment table. -/
def Obligations.CommandsStart : Prop :=
  ∀ (adm op : Nat) (i : Instr) (c : Cmd) (s : State),
    let d := s.dev
    let stands (e : Dev) (g : Stage) : Prop := ∃ x, e.cmd? adm = some x ∧ x.stage = g ∧ x.entry = c.entry
    let free : Prop := d.checkVolume c = none ∧ (!eFlushAll c.entry && d.volExists (eVolume c.entry) &&
      (d.arr (d.volArray (eVolume c.entry))).assembling) = false
    (d.ready? opNop adm = some c → Gives (.nop adm) s (fun e =>
      Ended d e c ssSuccess 0 ∧ Frame d e (endFields c) [.qmx, .dram, .host])) ∧
    (d.ready? opFlush adm = some c → free →
      ((∀ b ∈ d.dram.cache, d.flushCovers { c with cover := d.pwc.clock } b = false) → c.lostFirst = none →
        Gives (.flush adm) s (fun e =>
          Ended d e c ssSuccess 0 ∧ e.dram.cache = d.dram.cache ∧ Frame d e (endFields c) [.qmx, .dram, .host])) ∧
      ((∃ b ∈ d.dram.cache, d.flushCovers { c with cover := d.pwc.clock } b = true) → Gives (.flush adm) s (fun e =>
        stands e .waiting ∧ e.dram.cache = d.dram.cache ∧ Frame d e [] [.qmx, .dram]))) ∧
    (d.ready? opWrite adm = some c → free → eInd c.entry = false → d.lockBlocked c = false →
      Gives (.write adm) s (fun e => stands e (if eTagchk c.entry then .crcs else .running) ∧
        (eStrm c.entry = true → ∃ x ∈ e.lay.streams, x.id = eStream c.entry) ∧ Frame d e [] [.qmx, .lay, .host])) ∧
    ((op, i) ∈ [(opRead, Instr.read adm), (opWrite, .write adm), (opVerify, .verify adm), (opDeallocate, .deallocate adm),
        (opWriteZeroes, .writeZeroes adm)] → d.ready? op adm = some c → free →
      (eInd c.entry = false → d.lockBlocked c = true → Gives i s (fun e =>
        stands e .lockWait ∧ Frame d e [] [.qmx, .lay])) ∧
      (eInd c.entry = true → Gives i s (fun e => stands e .table ∧ Frame d e [] [.qmx, .lay, .host])))

/-- O32. A direct READ or VERIFY that passes its checks, holds its range, finds no bad copy in DRAM, and each of whose
blocks is cached or lies in a FRESH stripe, ends: SUCCESS (SUCCESS_RECOVERED where a block was recovered). READ
returns the blocks in one transfer: every byte of every block goes to its place in host memory. -/
def Obligations.ReadsFromTheCache : Prop :=
  ∀ (adm : Nat) (c : Cmd) (s : State),
    let d := s.dev
    let v := eVolume c.entry
    let free : Prop := d.checkVolume c = none ∧ (d.volExists v && (d.arr (d.volArray v)).assembling) = false ∧
      eInd c.entry = false ∧ d.lockBlocked c = false ∧
      (∀ b ∈ d.dram.cache, b.copy (d.readGroup b) ≠ .bad ∧ b.copy (d.readGroup b) ≠ .wrong) ∧
      ∀ o, o < eCount c.entry → ∃ x k, d.blockNow v (eLba c.entry + o) = some (.good x k)
    (d.ready? opVerify adm = some c → free → Gives (.verify adm) s (fun e =>
      Ended d e c (if c.rewrites = 0 then ssSuccess else ssRecovered) c.rewrites ∧
      Frame d e (endFields c) [.qmx, .dram, .host, .pwc])) ∧
    (d.ready? opRead adm = some c → free → d.canDma c.fn = true → c.silent = false → Gives (.read adm) s (fun e =>
      Ended d e c (if c.recovered then ssRecovered else ssSuccess) c.recon ∧
      (eLength c.entry = 4096 * eCount c.entry → ∀ o x k, o < eCount c.entry →
        d.blockNow v (eLba c.entry + o) = some (.good x k) → ∀ j, j < 4096 →
        ∃ a bs r, .memWrite c.fn a bs r ∈ e.emitted ∧ a ≤ eAddr c.entry + 4096 * o + j ∧
          bs[eAddr c.entry + 4096 * o + j - a]? = some (x.getD j 0)) ∧
      Frame d e (endFields c) [.qmx, .dram, .host, .pwc]))

/-- O33. A direct DEALLOCATE, or a WRITE_ZEROES of whole stripes only, that passes its checks and holds its range,
takes effect at once: every stripe it wholly covers is FRESH with no lost block, and without FUA the command ends
SUCCESS. -/
def Obligations.DeallocatedStripes : Prop :=
  ∀ (adm : Nat) (c : Cmd) (s : State),
    let d := s.dev
    let v := eVolume c.entry
    let hm := d.cover v (eLba c.entry) (eCount c.entry)
    let free : Prop := d.checkVolume c = none ∧ (d.volExists v && (d.arr (d.volArray v)).assembling) = false ∧
      eInd c.entry = false ∧ d.lockBlocked c = false ∧ c.flipped = 0 ∧ c.lostFirst = none
    let done (e : Dev) : Prop :=
      (∀ t ∈ d.middleStripes v hm.2 (eLba c.entry + hm.1) hm.2,
        (e.stripe (d.volArray v) t).state = ssFresh ∧ (e.stripe (d.volArray v) t).lost = []) ∧ e.staged = d.staged ∧
      (eFua c.entry = false → e.cmd? adm = none ∧
        (∀ k r, Tbl.get? (e.olog c.fn).recs k = some r → r.adm = adm → r.final = true ∧ r.status = ssSuccess) ∧
        e.bps = d.bps ∧ e.mnt = d.mnt ∧ e.dpx = d.dpx)
    (d.ready? opDeallocate adm = some c → free → Gives (.deallocate adm) s done) ∧
    (d.ready? opWriteZeroes adm = some c → free → hm.1 = 0 → hm.2 = eCount c.entry → 0 < hm.2 →
      Gives (.writeZeroes adm) s done)

/-- O34. A fenced command is ready once no command of its function with a lower admission number is left. A WRITE
without TAGCHK that waits for a lock that nothing holds any more goes on. A complete, well-formed table lets an
admin command go on and a data command ask for its lock; a malformed one halts the device and names the condition
and the fragment. -/
def Obligations.FencesLocksAndTables : Prop :=
  ∀ (adm cond k : Nat) (c : Cmd) (s : State), s.dev.cmd? adm = some c →
    let d := s.dev
    let stands (e : Dev) (g : Stage) : Prop := ∃ x, e.cmd? adm = some x ∧ x.stage = g ∧ x.entry = c.entry
    let table : Prop := c.stage = .table ∧ c.frags ≠ [] ∧ d.intakeOpen = true
    (c.stage = .fenced → (∀ x ∈ d.qmx.cmds, x.fn = c.fn → adm ≤ x.adm) → Gives (.fenceRelease adm) s (fun e =>
      stands e .ready ∧ Frame d e [] [.qmx])) ∧
    (c.stage = .fenced → (∃ x ∈ d.qmx.cmds, x.fn = c.fn ∧ x.adm < adm) → Gives (.fenceRelease adm) s (fun e =>
      Frame d e [] [])) ∧
    (c.stage = .lockWait → d.lockBlocked c = false → eOpcode c.entry = opWrite → eTagchk c.entry = false →
      Gives (.rangeLockGrant adm) s (fun e => stands e .running ∧ Frame d e [] [.qmx])) ∧
    (d.lockBlocked c = true → Gives (.rangeLockGrant adm) s (fun e => Frame d e [] [])) ∧
    (table → malformedTable c.entry c.frags = none →
      (isDataOp (eOpcode c.entry) = false → Gives (.fragmentTableCheck adm) s (fun e =>
        stands e .running ∧ Frame d e [] [.qmx])) ∧
      (isDataOp (eOpcode c.entry) = true → d.lockBlocked c = true → Gives (.fragmentTableCheck adm) s (fun e =>
        stands e .lockWait ∧ Frame d e [] [.qmx])) ∧
      (eOpcode c.entry = opWrite → eTagchk c.entry = false → d.lockBlocked c = false →
        Gives (.fragmentTableCheck adm) s (fun e => stands e .running ∧ Frame d e [] [.qmx]))) ∧
    (table → malformedTable c.entry c.frags = some (cond, k) → Gives (.fragmentTableCheck adm) s (fun e =>
      e.qmx.halted = true ∧ e.blkState .qmx = stHalt ∧ e.blkState .sys = stHalt ∧ Raised e .qmx 19 ∧
      e.rd Reg.SYS_HALT_SRC_kind = 2 ∧ e.rd Reg.SYS_HALT_COND_cond = cond ∧ e.rd Reg.SYS_HALT_POS_frag = k % 2 ^ 12 ∧
      e.rd Reg.SYS_HALT_SRC_fn = c.fn % 2 ^ 7 ∧ e.rd Reg.SYS_HALT_SRC_sq = c.q % 2 ^ 10 ∧
      e.rd Reg.SYS_HALT_ASN_asn = adm % 2 ^ 32))

/-- O35. When the oldest waiting command's next space fits, with a DRAM group left and no Dusk, it is granted that
space; when it does not fit nothing is granted. A flip makes the command's next admitted block dirty in the cache
(persistent at once unless admission is write-through) and takes away the clean and dirty copies that it
supersedes. -/
def Obligations.AdmissionAndFlip : Prop :=
  ∀ (n : Nat) (c : Cmd) (b : CBlk) (s : State), s.dev.cmd? c.adm = some c →
    let d := s.dev
    let lba := eLba c.entry + d.cacheOff c c.flipped
    let wt : Bool := b.wt || c.wt || decide (d.rd Reg.PWC_CEIL_mib = 0)
    (d.pwc.bothLost = false → d.vlt.dusk = none → d.grantNext = some (c, n) →
      (d.grantFits n = true → Gives .admissionGrant s (fun e =>
        (∃ x, e.cmd? c.adm = some x ∧ x.granted = c.granted + n ∧ x.entry = c.entry) ∧ e.lay = d.lay ∧ e.mnt = d.mnt ∧
        e.staged = d.staged ∧ OnlyFields d e [Reg.PWC_STAT_mode])) ∧
      (d.grantFits n = false → Gives .admissionGrant s (fun e =>
        e.qmx = d.qmx ∧ e.dram = d.dram ∧ Frame d e [Reg.PWC_STAT_mode] []))) ∧
    (d.dram.cache.find? (fun x => x.adm = c.adm && x.lba = lba && x.st = .writing) = some b →
      Gives (.blockFlip c.adm) s (fun e =>
        (∃ x ∈ e.dram.cache, x.vol = b.vol ∧ x.lba = lba ∧ x.adm = c.adm ∧ x.data = b.data ∧ x.st = .dirty ∧ x.wt = wt ∧
          x.persistent = !wt) ∧
        (∀ x ∈ e.dram.cache, x.isAt b.vol lba = true → x.st = .destaging ∨ (x.adm = c.adm ∧ x.data = b.data)) ∧
        e.staged = d.staged ∧ e.bps = d.bps ∧ e.mnt = d.mnt ∧ e.dpx = d.dpx))

/-- O36. An admin command with a bad field ends INVALID_FIELD with dw3 naming the dword. Else, direct or past its table
and while PF0 may write to host memory, IDENTIFY, GET_LOG and OUTCOME_READ write their data and end SUCCESS, with
the number of real entries in dw3; DET_ACK removes the entries named and ends with their number; SET_EVENT_MASK
sets the function's mask and ends. -/
def Obligations.AdminCommands : Prop :=
  ∀ (adm w : Nat) (c : Cmd) (s : State),
    let d := s.dev
    let go : Prop := (eInd c.entry = false ∨ c.stage ≠ .ready) ∧ d.canDma c.fn = true
    let frame (e : Dev) : Prop := Frame d e (endFields c) [.qmx, .dram, .host]
    let bad (e : Dev) : Prop := Ended d e c ssInvalidField w ∧ frame e
    let gives (x : Bytes × Nat) (e : Dev) : Prop :=
      Ended d e c ssSuccess x.2 ∧ (d.writeXfer c 0 x.1).emitted <:+ e.emitted ∧ frame e
    let badOutcome : Prop := 64 < dwBits c.entry 9 6 0 ∨ (bitOf (dw c.entry 9) 8 = true ∧ dw c.entry 10 ≠ 0)
    (d.admin? opIdentify adm = some c →
      (d.identifyBad c = some w → Gives (.identify adm) s bad) ∧
      (d.identifyBad c = none → go → Gives (.identify adm) s (gives (padB 4096 (d.identifyPage c), 0)))) ∧
    (d.admin? opGetLog adm = some c →
      (logEntrySize (dwBits c.entry 9 7 0) = 0 → w = 9 → Gives (.getLog adm) s bad) ∧
      (logEntrySize (dwBits c.entry 9 7 0) ≠ 0 → go → Gives (.getLog adm) s (gives (d.logData c)))) ∧
    (d.admin? opOutcomeRead adm = some c →
      (badOutcome → w = (if 64 < dwBits c.entry 9 6 0 then 9 else 10) → Gives (.outcomeRead adm) s bad) ∧
      (¬ badOutcome → go → Gives (.outcomeRead adm) s (gives (d.outcomeData c)))) ∧
    (d.admin? opDetAck adm = some c →
      (bitOf (dw c.entry 9) 31 = true → dwBits c.entry 9 9 0 ≠ 0 → w = 9 → Gives (.detAck adm) s bad) ∧
      ((bitOf (dw c.entry 9) 31 = false ∨ dwBits c.entry 9 9 0 = 0) → d.dram.overflow = [] → Gives (.detAck adm) s (fun e =>
        Ended d e c ssSuccess (d.acked c.entry).length ∧
        e.dram.det = d.dram.det.filter (fun x => !(d.acked c.entry).contains x.id) ∧ frame e))) ∧
    (d.admin? opSetEventMask adm = some c →
      (64 < dwBits c.entry 9 6 0 → w = 9 → Gives (.setEventMask adm) s bad) ∧
      (dwBits c.entry 9 6 0 ≤ 64 → Gives (.setEventMask adm) s (fun e =>
        Ended d e c ssSuccess 0 ∧ (e.ring (dwBits c.entry 9 6 0)).classMask = dwBits c.entry 10 15 0 ∧
        (e.ring (dwBits c.entry 9 6 0)).minSev = dwBits c.entry 11 3 0 ∧ frame e)))

/-- O37. A hold that expires makes its stripe due. The stripe next in R169's order starts its destage while ECE works:
a full stripe whose blocks DRAM gives without a bad copy goes to ECE as one encode job without a read. A parity
unit read for a destage is kept for it. A member write done marks its position in the intent record; the last one
retires the record, records generation and state, and frees the carried blocks. A read deadline that passes
bypasses the member and counts, unless the deadline is 0. -/
def Obligations.DestageSteps : Prop :=
  ∀ (a t id : Nat) (s : State),
    let d := s.dev
    (a < 16 → Gives (.streamHoldExpire a t) s (fun e =>
      e.lay.due = d.lay.due.map (fun r => if r.array = a ∧ r.t = t then { r with due := true } else r) ∧
      Frame d e [] [.lay])) ∧
    (∀ r, d.eceDown = false → d.nextDue = some r → (d.dirtyOf r.array r.t).length = (d.geoAt r.array r.t).perStripe →
      d.destage? d.lay.nextId = none →
      (∀ b ∈ d.dram.cache, b.copy (d.readGroup b) ≠ .bad ∧ b.copy (d.readGroup b) ≠ .wrong) → Gives .destageStart s (fun e =>
        (∃ j, e.ece.jobs = d.ece.jobs ++ [j] ∧ j.kind = .encode ∧ j.array = r.array ∧ j.t = r.t ∧
          j.client = .destage d.lay.nextId) ∧
        (∀ b ∈ d.dirtyOf r.array r.t, { b with st := .destaging } ∈ e.dram.cache) ∧
        (∃ x, e.destage? d.lay.nextId = some x ∧ x.method = .full ∧
          x.gen = ((d.stripe r.array r.t).gen + 1) % 2 ^ 16) ∧
        Frame d e [] [.dram, .lay, .ece])) ∧
    (∀ o x y, d.op? id = some o → o.isWrite = false → o.st = .done → o.client = .destage x → d.destage? x = some y →
      (d.geoAt o.array o.t).k ≤ o.j → (d.stripe o.array o.t).genUnknown = false →
      (∃ n ∈ y.need, n.1 ≠ o.j ∧ y.old n.1 n.2 = none) → Gives (.memberReadDone id) s (fun e =>
        (∃ z, e.destage? x = some z ∧
          z.got = y.got ++ (o.rows.zip o.data).map (fun p => (⟨o.j, p.1, p.2⟩ : BufBlk))) ∧
        e.op? id = none ∧ Frame d e [] [.lay])) ∧
    (∀ o i, d.op? id = some o → o.isWrite = true → o.st = .done → o.client = .intentWrite i.seq →
      d.dram.intents.find? (fun x => x.seq = i.seq) = some i → i.lostMap = [] →
      ((∃ p ∈ i.writeMap, p ≠ o.j ∧ p ∉ i.doneMap) → Gives (.memberWriteDone id) s (fun e =>
        (∃ x ∈ e.dram.intents, x.seq = i.seq ∧ o.j ∈ x.doneMap) ∧ e.op? id = none ∧ Frame d e [] [.lay, .dram])) ∧
      ((∀ p ∈ i.writeMap, p = o.j ∨ p ∈ i.doneMap) → i.kind ≠ 5 → (i.array, i.t) ∉ d.lay.freshOwed →
        (∀ r ∈ d.lay.repairs, ¬ (r.array = i.array ∧ r.t = i.t)) → Gives (.memberWriteDone id) s (fun e =>
        (∀ x ∈ e.dram.intents, x.seq ≠ i.seq) ∧ (e.stripe i.array i.t).gen = i.gen ∧
        (e.stripe i.array i.t).state = d.cleanState i.array i.t ∧
        (∀ b ∈ d.carriedBlocks i.carries, b ∉ e.dram.cache)))) ∧
    (∀ o adm, d.op? id = some o → o.client = .hostRead adm →
      (o.st = .queued ∨ o.st = .issued → o.bypassed = false → d.rd (Reg.AR_DEADLINE_ms.ix o.array) ≠ 0 →
        (o.j :: d.slowAt o.array o.t ++ d.unavailable o.array (d.plan o.array o.t)).eraseDups.length ≤ (d.geoAt o.array o.t).m →
        Gives (.readDeadline id) s (fun e => (∃ x, e.op? id = some x ∧ x.bypassed = true) ∧
          e.rd Reg.PWC_BYPASS_count = min (d.rd Reg.PWC_BYPASS_count + 1) (2 ^ 32 - 1))) ∧
      (d.rd (Reg.AR_DEADLINE_ms.ix o.array) = 0 → Gives (.readDeadline id) s (fun e => Frame d e [] [])))

/-- O38. A recompute shows the lesser of the value just computed and the value computed at the previous recompute, each
with its term: a decrease at once, an increase only as far as the recompute before it allows. From power-on, and
for as long as no recompute has met an estimate of Halo, the Ceiling is 0 with term ESTIMATE_UNAVAILABLE. -/
def Obligations.CeilingApplied : Prop :=
  (∀ s : State,
    let now := s.dev.ceilComputed
    let before := (s.dev.pwc.prevTerm, s.dev.pwc.prevCeil)
    Gives .ceilingRecompute s (fun e =>
      e.rd Reg.PWC_CEIL_mib = min before.2 now.2 % 2 ^ 18 ∧
      e.rd Reg.PWC_CEIL_limit = (if before.2 < now.2 then before.1 else now.1) % 2 ^ 4 ∧
      e.pwc.prevCeil = now.2 ∧ e.pwc.prevTerm = now.1 ∧ e.pwc.estimated = s.dev.estimateSeen ∧
      (s.dev.estimateSeen = false → e.rd Reg.PWC_CEIL_mib = 0 ∧ e.rd Reg.PWC_CEIL_limit = 6) ∧
      e.dram = s.dev.dram ∧ e.qmx = s.dev.qmx ∧ e.staged = s.dev.staged ∧ e.lay = s.dev.lay)) ∧
  State.reset.dev.rd Reg.PWC_CEIL_mib = 0 ∧ State.reset.dev.rd Reg.PWC_CEIL_limit = 6 ∧
  State.reset.dev.estimateSeen = false

/-- O39. Halo publishes V_min as the minimum cell voltage times the number of cells and V_ocv at the low bound of the
state of charge. A recompute takes P_avail = V_min x (V_ocv - V_min) / R with the filtered R_dc, shows it in watts,
and gives the Ceiling 0 where it is below 1.2 times P_dusk. -/
def Obligations.PowerCheck : Prop :=
  ∀ (b : BattProfile) (x : DuskProfile) (s : State),
    let d := s.dev
    let vMin : Rat := (d.rd Reg.BPS_VOLT_v_min : Rat) / 1000
    let vOcv : Rat := (d.rd Reg.BPS_VOLT_v_ocv : Rat) / 1000
    let r : Rat := (d.rd Reg.BPS_R_r_dc : Rat) / 10000
    let pAvail : Rat := vMin * (vOcv - vMin) / r
    (d.batt = some b → d.haloMode ≠ hmNone → Gives .haloPublish s (fun e =>
      e.rd Reg.BPS_VOLT_v_min = b.n * b.vMin % 2 ^ 16 ∧ e.rd Reg.BPS_R_r_dc = d.rd Reg.BPS_R_r_dc ∧
      e.rd Reg.BPS_VOLT_v_ocv =
        (floorRat ((b.n : Rat) * b.ocvAt (max 0 (d.socNow - d.uncNow)) d.tPack)).toNat % 2 ^ 16)) ∧
    (d.rd Reg.BPS_R_r_dc ≠ 0 → d.duskProfile = some x → Gives .ceilingRecompute s (fun e =>
      e.rd Reg.PWC_CEIL_IN_p_avail_w = min 0xFFFF (floorRat (max 0 pAvail)).toNat ∧
      e.rd Reg.PWC_CEIL_IN_p_dusk_w = x.pDusk % 2 ^ 16 ∧
      (pAvail < (12 : Rat) / 10 * (x.pDusk : Rat) → e.rd Reg.PWC_CEIL_mib = 0)))

/-- O40. A patrol read counts 1 to 8 wrong symbols as corrected on the channel of what it reads; a dirty block or a
metadata line that cannot be corrected is repaired from the other group. A lost channel is LOST and takes its group
to FAILED while the other one is up, with the group's copies and clean blocks gone; with no group left everything
they held and every command is lost, and PWC is in FAULT. A rejoin in READY trains the FAILED group's channels, and
ends with every dirty copy good again; it is refused unless exactly one group is FAILED. Retraining takes the
channels one by one; a channel that fails is lost. -/
def Obligations.DramGroups : Prop :=
  ∀ (g : Group) (c : Nat) (item : DramItem) (line : Nat) (bits : List (Nat × Nat)) (s : State),
    let d := s.dev
    let k := d.itemChannel g item
    let reads : Prop := (∀ x ∈ bits, x.1 < 40 ∧ x.2 < 16) ∧ d.groupUp g = true ∧ d.pwc.retraining ≠ some k
    let corrected (e : Dev) : Prop := e.rd (Reg.PWC_CH_corr.ix k) = min (d.rd (Reg.PWC_CH_corr.ix k) + 1) 0xFFFF ∧
      (e.note .pwc).corr = min ((d.note .pwc).corr + 1) 0xFFFF
    let bad : Prop := rsDecode (errWord bits) = .uncorrectable ∧ d.groupUp (otherGroup g) = true ∧
      ((Tbl.getD d.pwc.uncorrTimes k []).filter fun t => decide (d.ticks < t + 250000000)).length < 63
    let lost (e : Dev) (c : Nat) : Prop := e.chanState c = chanLost ∧ e.groupState (groupOf c) = grFailed ∧
      Raised e .pwc 19 ∧ e.pwc.rejoining = none ∧
      (∀ b ∈ e.dram.cache, b.st ≠ .clean → b.copy (groupOf c) = .absent) ∧
      (∀ b ∈ e.dram.cache, b.st = .clean → cleanGroup b.t ≠ groupOf c)
    let failable (c : Nat) : Prop := c < 12 ∧ d.pwc.bothLost = false ∧ d.chanState c ≠ chanLost ∧
      d.groupUp (groupOf c) = true
    let canRejoin : Prop := d.groupState g = grFailed ∧ d.groupState (otherGroup g) ≠ grFailed ∧ d.vlt.dusk = none ∧
      d.vlt.dawn = none ∧ d.rd (Reg.BLK_STAT_specific.ix 0) = 5
    ((∀ x ∈ bits, x.1 < 40 ∧ x.2 < 16) → wrongSymbols (errWord bits) = 0 → Gives (.patrolRead g item line bits) s (fun e =>
      Frame d e [] [])) ∧
    (reads → 1 ≤ wrongSymbols (errWord bits) → wrongSymbols (errWord bits) ≤ 8 → Gives (.patrolRead g item line bits) s (fun e =>
      corrected e ∧ ((∀ v l a, item ≠ .block v l a) → groupBase g ≤ k ∧ k < groupBase g + 6) ∧
      Frame d e [Reg.PWC_CH_corr.ix k] [])) ∧
    (∀ v lba adm b, reads → bad → item = .block v lba adm →
      d.dram.cache.find? (fun x => x.vol = v && x.lba = lba && x.adm = adm) = some b → b.st = .dirty ∨ b.st = .destaging →
      b.copy g ≠ .absent → b.copy (otherGroup g) = .good → Gives (.patrolRead g item line bits) s (fun e => corrected e ∧
        e.dram.cache = d.dram.cache.map (fun x => if x = b then b.setCopy g .good else x) ∧
        e.rd (Reg.PWC_CH_HI_uncorr.ix k) = min (d.rd (Reg.PWC_CH_HI_uncorr.ix k) + 1) 0xFFFF ∧
        Frame d e [Reg.PWC_CH_corr.ix k, Reg.PWC_CH_HI_uncorr.ix k] [.dram, .pwc])) ∧
    (∀ la, reads → bad → item = .metadata la → Gives (.patrolRead g item line bits) s (fun e => corrected e ∧
      e.lineCopy g la = d.lineCopy (otherGroup g) la ∧ e.lineCopy (otherGroup g) la = d.lineCopy (otherGroup g) la ∧
      Frame d e [Reg.PWC_CH_corr.ix k, Reg.PWC_CH_HI_uncorr.ix k] [.dram, .pwc])) ∧
    (failable c → d.groupUp (otherGroup (groupOf c)) = true → Gives (.channelLost c) s (lost · c)) ∧
    (failable c → d.groupUp (otherGroup (groupOf c)) = false → Gives (.channelLost c) s (fun e =>
      e.chanState c = chanLost ∧ e.groupState .a = grFailed ∧ e.groupState .b = grFailed ∧ e.pwc.bothLost = true ∧
      e.qmx.cmds = [] ∧ e.qmx.fetched = [] ∧ e.dram.cache = [] ∧ e.dram.stripes = [] ∧ e.blkState .pwc = stFault ∧
      Raised e .pwc 19)) ∧
    (canRejoin → HostGives 0 .pwc (.groupRejoin true) s (fun e =>
      e.groupState g = grRejoining ∧ e.pwc.rejoining = some g ∧ (∀ i, i < 6 → e.chanState (groupBase g + i) = chanOk) ∧
      e.dram = d.dram ∧ e.qmx = d.qmx)) ∧
    (canRejoin → HostGives 0 .pwc (.groupRejoin false) s (fun e =>
      (e.note .pwc).uncorr = min ((d.note .pwc).uncorr + 1) 0xFFFF ∧ Frame d e [] [])) ∧
    (∀ trained, (d.groupState .a = grFailed ↔ d.groupState .b = grFailed) →
      HostGives 0 .pwc (.groupRejoin trained) s (fun e => Raised e .pwc 3 ∧ Frame d e [] [])) ∧
    (d.pwc.rejoining = some g → Gives .rejoinDone s (fun e =>
      e.groupState g = 0 ∧ e.pwc.rejoining = none ∧ Raised e .pwc 20 ∧
      ((∀ b ∈ d.dram.cache, b.st ≠ .clean → b.copy (otherGroup g) = .good) →
        ∀ b ∈ e.dram.cache, b.st ≠ .clean → b.copy g = .good) ∧
      (∀ la, e.lineCopy g la = d.lineCopy (otherGroup g) la) ∧ e.dram.journal = d.dram.journal ∧ e.qmx = d.qmx)) ∧
    (d.pwc.retrainNext = some c → d.pwc.retraining = none → c < 12 → Gives (.retrainChannel true) s (fun e =>
      e.chanState c = chanRetrain ∧ e.groupState (groupOf c) = 1 ∧ e.pwc.retraining = some c ∧
      e.rd Reg.PWC_RETRAIN_STAT_channel = c ∧ e.dram = d.dram ∧ e.qmx = d.qmx)) ∧
    (d.pwc.retrainNext = some c → d.pwc.retraining = none → failable c → d.groupUp (otherGroup (groupOf c)) = true →
      Gives (.retrainChannel false) s (lost · c)) ∧
    (d.pwc.retraining = some c → d.chanState c = chanRetrain → d.groupState (groupOf c) = 1 →
      (c < 11 → Gives .retrainChannelReturn s (fun e => e.chanState c = chanOk ∧ e.groupState (groupOf c) = 0 ∧
        e.pwc.retraining = none ∧ e.pwc.retrainNext = some (c + 1) ∧ e.qmx = d.qmx)) ∧
      (c = 11 → d.pwc.retrainNext ≠ none → Gives .retrainChannelReturn s (fun e => e.chanState c = chanOk ∧
        e.pwc.retraining = none ∧ e.pwc.retrainNext = none ∧ e.rd Reg.PWC_RETRAIN_STAT_running = 0 ∧
        e.rd Reg.PWC_RETRAIN_STAT_runs = min (d.rd Reg.PWC_RETRAIN_STAT_runs + 1) 0xFFFF ∧
        (∀ x ∈ e.mnt.acts, ¬ (x.act = .dramRetrain ∧ x.array = 0xFF)))))

/-- O41. The set index of a line address is f0 ^ ((f1 + key) mod 2^14) ^ f2 with the key of SMC_KEY; the tag is
la[41:14]; la[13:0] is recovered from index, tag and key, so that tag and set give the line address back. Lines
that share f1 and f2 fill every set once: two of them in one set are the same line. The example lines A and B share
set 1298 under key 0x2A5B and part under 0x2A5C. -/
def Obligations.SetIndexIsInvertible : Prop :=
  (∀ (la lb key : Nat) (d : Dev), la < 2 ^ 42 → lb < 2 ^ 42 → key < 2 ^ 14 →
    let f0 := la % 2 ^ 14
    let f1 := la / 2 ^ 14 % 2 ^ 14
    let f2 := la / 2 ^ 28
    let index := setIndex la key
    let tag := lineTag la
    index = f0 ^^^ ((f1 + key) % 2 ^ 14) ^^^ f2 ∧ index < 2 ^ 14 ∧ d.setOf la = setIndex la (d.rd Reg.SMC_KEY_key) ∧
    tag = la / 2 ^ 14 ∧ tag < 2 ^ 28 ∧
    f0 = index ^^^ ((tag % 2 ^ 14 + key) % 2 ^ 14) ^^^ (tag / 2 ^ 14) ∧ lineOf index tag key = la ∧
    (la / 2 ^ 14 = lb / 2 ^ 14 → setIndex lb key = index → lb = la)) ∧
  setIndex 0x474B93F 0x2A5B = 1298 ∧ setIndex 0x474F93C 0x2A5B = 1298 ∧
  setIndex 0x474B93F 0x2A5C = 0x511 ∧ setIndex 0x474F93C 0x2A5C = 0x513

/-- O42. A read of a line that SMC holds is answered with its content and counted as a hit. While SMC is OFF, a read is
answered from DRAM and counted as a miss and a bypass. A fill that nobody waits for puts the DRAM line into its
reserved way; one that is uncorrectable in its group is served and rewritten from the other. A journal
acknowledgement answers its write and marks the entry. A finished write-back leaves the buffer with the line in
both groups. -/
def Obligations.MetadataCacheRequests : Prop :=
  ∀ (r la seq : Nat) (s : State), r < 8 → la < 2 ^ 42 → la < s.dev.metaLines →
    let d := s.dev
    let q : SmcReq := ⟨r, la, .read, false⟩
    (∀ w, d.smcUsed = true → d.missOf la = none → d.smcHeld q = false → d.lineWay la = some w →
      Gives (.smcRequest r la .read .none) s (fun e =>
        .smcAnswer r la w.data ∈ e.emitted ∧ e.rd (Reg.SMC_REQ_HIT_hits.ix r) = (d.rd (Reg.SMC_REQ_HIT_hits.ix r) + 1) % 2 ^ 64 ∧
        Frame d e [Reg.SMC_REQ_HIT_hits.ix r] [.smc])) ∧
    (d.blkState .smc = stOff ∨ d.smcUsed = false ∧ d.lineWay la = none → d.smcHeld q = false → (∀ x ∈ d.smc.evict, x.la ≠ la) →
      Gives (.smcRequest r la .read .none) s (fun e =>
        .smcAnswer r la (d.dramLine la) ∈ e.emitted ∧
        e.rd (Reg.SMC_REQ_MISS_misses.ix r) = (d.rd (Reg.SMC_REQ_MISS_misses.ix r) + 1) % 2 ^ 64 ∧
        e.rd Reg.SMC_BYPASS_count = min (d.rd Reg.SMC_BYPASS_count + 1) (2 ^ 32 - 1) ∧
        Frame d e [Reg.SMC_REQ_MISS_misses.ix r, Reg.SMC_BYPASS_count] [.smc])) ∧
    (∀ m, d.missOf la = some m → m.reqs = [] → d.smc.waiting = [] → d.smc.rekeyRunning = false → Gives (.smcFillDone ⟨la, true⟩) s (fun e =>
      (∀ x ∈ e.smc.regs, x.la ≠ la) ∧
      (∀ w ∈ (d.smcSet (d.setOf la)).ways, w.la = la → w.reserved = true →
        { w with reserved := false, data := d.dramLine la } ∈ (e.smcSet (d.setOf la)).ways) ∧ Frame d e [] [.smc])) ∧
    (∀ p, d.smc.ackWait.find? (fun x => x.1 = seq) = some p → d.smc.waiting = [] → Gives (.smcJournalAck seq) s (fun e =>
      .smcAnswer p.2.r p.2.la [] ∈ e.emitted ∧ (∀ x ∈ e.smc.ackWait, x.1 ≠ seq) ∧
      (∀ x ∈ e.dram.journal, x.seq = seq → x.acked = true) ∧ Frame d e [] [.smc, .dram, .pwc])) ∧
    (∀ m, d.missOf la = some m → m.reqs = [] → d.smc.waiting = [] → d.smc.rekeyRunning = false →
      d.groupUp (otherGroup (d.lineGroup la)) = true → Gives (.smcFillDone ⟨la, false⟩) s (fun e =>
        (∀ x ∈ e.smc.regs, x.la ≠ la) ∧ e.lineCopy (d.lineGroup la) la = d.lineCopy (otherGroup (d.lineGroup la)) la)) ∧
    (∀ x rest, d.smc.evict = x :: rest → x.la = la → d.smc.waiting = [] → d.smc.walkSet = none →
      (∀ w, d.lineWay la = some w → w.dirty = false) → d.groupState .a ≠ grFailed →
      d.groupState .b ≠ grFailed → d.pwc.retraining = none → Gives (.smcWritebackDone la) s (fun e =>
        e.smc.evict = rest ∧ Tbl.get? e.dram.metaA la = some x.data ∧ Tbl.get? e.dram.metaB la = some x.data ∧
        (∀ y ∈ e.dram.journal, ¬ (y.la = la ∧ y.acked = true)) ∧ Frame d e [] [.smc, .dram]))

/-- O43. Invalidate-all is refused in OFF and FAULT; in DRAINING it is noted; else, set by set, every line but those
being filled goes, dirty ones through the eviction buffer, while that holds at most 16: a dirty line is in the
buffer or still in its set. It ends once the walk is over and the buffer empty, for a re-key only over an empty
cache. A re-key in OFF takes the next key at once, else it is asked of the arbiter. The self-test runs in OFF only
and its result is shown. Reset invalidation ends with SMC IDLE or ACTIVE when it is enabled. The hot sample clears
the second's miss counts and shows the ratio of the set with most misses. -/
def Obligations.MetadataCacheControl : Prop :=
  ∀ (pass : Bool) (s : State),
    let d := s.dev
    let total := (d.smc.misses.map Prod.snd).sum
    let most := d.smc.misses.foldl (fun (m : Nat) p => max m p.2) 0
    (d.blkState .smc = stOff ∨ d.blkState .smc = stFault → HostGives 0 .smc .smcInvalidate s (fun e =>
      Raised e .smc 3 ∧ Frame d e [] [])) ∧
    (d.blkState .smc = stDraining → HostGives 0 .smc .smcInvalidate s (fun e => e.smc.invWalk = true ∧ Frame d e [] [.smc])) ∧
    (d.blkState .smc = stIdle ∨ d.blkState .smc = stActive → d.smc.invWalk = false → HostGives 0 .smc .smcInvalidate s (fun e =>
      e.smc.invWalk = true ∧ d.smc.evict <+: e.smc.evict ∧ e.smc.evict.length ≤ max 16 d.smc.evict.length ∧
      (d.smc.sets.Pairwise (fun x y => x.1 < y.1) → ∀ i,
        (∀ w ∈ (e.smcSet i).ways, w.reserved = true ∨ (∃ n, e.smc.walkSet = some n ∧ n ≤ i ∧ 16 ≤ e.smc.evict.length)) ∧
        ∀ w ∈ (d.smcSet i).ways, w.dirty = true → w.reserved = false →
          (⟨w.la, w.data⟩ : EvEntry) ∈ e.smc.evict ∨ w ∈ (e.smcSet i).ways) ∧
      Frame d e [] [.smc])) ∧
    (d.smc.invWalk = true → d.smc.walkSet = none → d.smc.evict = [] → d.blkState .smc ≠ stDraining →
      d.smc.rekeyRunning = false → d.smc.waiting = [] → Gives .smcInvalidateDone s (fun e =>
        e.smc.invWalk = false ∧ Raised e .smc 17 ∧ Frame d e [] [.smc])) ∧
    (d.smc.invWalk = true → d.smc.walkSet = none → d.smc.evict = [] → d.blkState .smc ≠ stDraining →
      d.smc.rekeyRunning = true →
      (d.smcHolds = false → Gives .smcInvalidateDone s (fun e =>
        e.rd Reg.SMC_KEY_key = d.rd Reg.SMC_KEY_next % 2 ^ 14 ∧ Raised e .smc 17 ∧ Raised e .smc 18)) ∧
      (d.smcHolds = true → Gives .smcInvalidateDone s (fun e =>
        e.smc.invWalk = true ∧ e.smc.rekeyRunning = true ∧ Frame d e [] [.smc]))) ∧
    (d.smc.rekeyPending = false → d.smc.rekeyRunning = false →
      (d.blkState .smc = stOff → HostGives 0 .smc .smcRekey s (fun e =>
        e.rd Reg.SMC_KEY_key = d.rd Reg.SMC_KEY_next % 2 ^ 14 ∧ Raised e .smc 18 ∧ Frame d e [Reg.SMC_KEY_key] [])) ∧
      (d.blkState .smc ≠ stOff → d.mnt.acts = [] → d.blkState .ccx ≠ stFault → HostGives 0 .smc .smcRekey s (fun e =>
        e.smc.rekeyRunning = true ∧ e.smc.rekeyPending = false ∧ e.smc.invWalk = true ∧
        (⟨.smcRekey, 0xFF, .running⟩ : Activity) ∈ e.mnt.acts ∧ Frame d e [] [.smc, .mnt]))) ∧
    (d.smc.bistRunning = false →
      (d.blkState .smc = stOff → HostGives 0 .smc .smcBist s (fun e =>
        e.smc.bistRunning = true ∧ e.smc.sets = [] ∧ Frame d e [] [.smc])) ∧
      (d.blkState .smc ≠ stOff → HostGives 0 .smc .smcBist s (fun e =>
        e.rd Reg.SMC_BIST_result = bistBusy ∧ Raised e .smc 3 ∧ Frame d e [Reg.SMC_BIST_result] []))) ∧
    (d.smc.bistRunning = true → Gives (.smcBistDone pass) s (fun e =>
      e.rd Reg.SMC_BIST_result = (if pass then bistPass else bistFail) ∧ e.smc.bistRunning = false ∧ Raised e .smc 20 ∧
      Frame d e [Reg.SMC_BIST_result] [.smc])) ∧
    (d.smc.resetInval = true → d.smc.waiting = [] → Gives .smcResetInvalidation s (fun e =>
      e.smc.resetInval = false ∧ (d.smc.newKey = true → e.rd Reg.SMC_KEY_key = d.powerOnKey) ∧
      (d.rd (Reg.BLK_CTRL_en.ix Blk.smc.page) ≠ 0 → d.blkState .smc = stOff →
        e.blkState .smc = stIdle ∨ e.blkState .smc = stActive) ∧ Frame d e [Reg.SMC_KEY_key] [.smc])) ∧
    (0 < total → Gives .smcHotSample s (fun e =>
      e.rd Reg.SMC_HOT_ratio = min 65535 (most * 16384 * 100 / total) ∧ e.smc.misses = [] ∧
      Frame d e [Reg.SMC_HOT_ratio, Reg.SMC_HOT_set] [.smc]))

/-- O44. The oldest job of its stripe, while a lane is up, runs and leaves ECE, with its bytes counted. The last encode
or delta job of a destage gives it the parity, and its intent record opens with it. The last decode job of a
destage gives it the units, but nothing where its output fails the check; a syndrome check answers the verdict on
its row. -/
def Obligations.CodingJobs : Prop :=
  ∀ (id x : Nat) (j : EceJob) (s : State),
    let d := s.dev
    let gone (e : Dev) : Prop := ∀ y ∈ e.ece.jobs, y.id ≠ id
    let last : Prop := (∀ y ∈ d.ece.jobs, y.client = j.client → y.id = id) ∧ ∀ o ∈ d.ece.outs, o.1 ≠ j.client
    let opened (y : Destage) (out : List BufBlk) (e : Dev) : Prop :=
      gone e ∧ e.rd Reg.ECE_ENC_BYTES_bytes = (d.rd Reg.ECE_ENC_BYTES_bytes + j.bytes) % 2 ^ 64 ∧
      ∃ i ∈ e.dram.intents, i.array = y.array ∧ i.t = y.t ∧ i.kind = y.method.kind ∧ i.gen = y.gen ∧
        i.carries = y.carries ∧ ∀ b ∈ out, b.j ∈ i.writeMap → b ∈ i.blocks
    (∀ y, d.jobReady id .encode = some j → last → j.client = .destage x → d.destage? x = some y →
      Gives (.encode id) s (opened y (encodeOut j))) ∧
    (∀ y, d.jobReady id .delta = some j → last → j.client = .destage x → d.destage? x = some y →
      Gives (.deltaUpdate id) s (opened y (deltaOut j))) ∧
    (∀ out, d.jobReady id .decode = some j → decodeOut j = some out → decodePasses j out = false →
      Gives (.decode id) s (fun e => Frame d e [] [])) ∧
    (∀ y out, d.jobReady id .decode = some j → last → j.client = .destage x → d.destage? x = some y → decodeOut j = some out →
      decodePasses j out = true → id < d.lay.nextId → Gives (.decode id) s (fun e => gone e ∧
        (∃ z, e.destage? x = some z ∧ z.got = y.got ++ out) ∧
        e.rd Reg.ECE_DEC_BYTES_bytes = (d.rd Reg.ECE_DEC_BYTES_bytes + j.bytes) % 2 ^ 64 ∧
        e.rd Reg.ECE_UNCHECKED_rows = min (d.rd Reg.ECE_UNCHECKED_rows + uncheckedRows j) (2 ^ 32 - 1) ∧
        Frame d e [Reg.ECE_DEC_BYTES_bytes, Reg.ECE_UNCHECKED_rows, Reg.AR_TAG_CRC_count.ix y.array,
          Reg.AR_TAG_MISDIR_count.ix y.array, Reg.AR_TAG_STALE_count.ix y.array, Reg.AR_TAG_UNREP_count.ix y.array]
          [.ece, .lay])) ∧
    (∀ r, d.jobReady id .syndrome = some j → j.rows = [r] → Gives (.syndromeCheck id) s (fun e =>
      let v := syndrome j.k j.m ((List.range j.k).map fun i => j.at i r) ((List.range j.m).map fun p => j.at (j.k + p) r)
      .eceVerdict id v.code v.unit ∈ e.emitted ∧
      e.rd Reg.ECE_DEC_BYTES_bytes = (d.rd Reg.ECE_DEC_BYTES_bytes + j.bytes) % 2 ^ 64 ∧ e.staged = d.staged))

/-- O45. A self-check mismatch counts; a good retry counts a corrected error, a bad one takes its lane out, and with
both lanes out ECE is in FAULT. A known-answer run starts at its interval (unless 0) or on request while none runs;
its end shows PASS, PASS_ON_RETRY, or FAIL with the lane out. A retest takes the FAILED lanes, and sixteen passes
bring one back. -/
def Obligations.CodingLanes : Prop :=
  ∀ (id lane passed : Nat) (ok again : Bool) (j : EceJob) (s : State),
    let d := s.dev
    let lane1 := if d.laneUp d.ece.katLane then d.ece.katLane else 1 - d.ece.katLane
    let started (e : Dev) : Prop := e.rd Reg.ECE_KAT_STAT_running = 1 ∧ e.ece.katOn = some lane1 ∧
      Frame d e [Reg.ECE_KAT_STAT_running] [.ece]
    (d.running? id = some j →
      Gives (.eceRowRetry id true) s (fun e =>
        e.rd Reg.ECE_CHK_mismatch = min (d.rd Reg.ECE_CHK_mismatch + 1) 0xFFFF ∧ Raised e .ece 16 ∧
        (e.note .ece).corr = min ((d.note .ece).corr + 1) 0xFFFF ∧ Frame d e [Reg.ECE_CHK_mismatch] []) ∧
      Gives (.eceRowRetry id false) s (fun e =>
        e.rd Reg.ECE_CHK_mismatch = min (d.rd Reg.ECE_CHK_mismatch + 1) 0xFFFF ∧
        e.rd Reg.ECE_CHK_retry_fail = min (d.rd Reg.ECE_CHK_retry_fail + 1) 0xFFFF ∧
        e.laneState j.lane = 2 ∧ Raised e .ece 17 ∧ (e.eceDown = true → e.blkState .ece = stFault) ∧
        Frame d e [Reg.ECE_CHK_mismatch, Reg.ECE_CHK_retry_fail, Reg.ECE_LANE_STAT_enc_state, Reg.ECE_LANE_STAT_dec_state,
          Reg.ECE_LANE_STAT_carrier] [.ece])) ∧
    (d.katRunning = false → d.eceDown = false → HostGives 0 .ece .katRun s started ∧
      (d.rd Reg.ECE_KAT_CTRL_interval_s ≠ 0 → Gives .katInterval s started)) ∧
    (d.rd Reg.ECE_KAT_CTRL_interval_s = 0 ∨ d.katRunning = true → Gives .katInterval s (fun e => Frame d e [] [])) ∧
    (∀ kl, d.ece.katOn = some kl → Gives (.katDone ok again) s (fun e =>
      e.ece.katOn = none ∧ (d.ece.retesting = [] → e.rd Reg.ECE_KAT_STAT_running = 0) ∧
      e.rd Reg.ECE_KAT_STAT_lane = kl % 2 ∧ e.rd Reg.ECE_KAT_TS_ts = d.now % 2 ^ 64 ∧
      e.rd Reg.ECE_KAT_STAT_runs = min (d.rd Reg.ECE_KAT_STAT_runs + 1) 0xFFFF ∧
      e.rd Reg.ECE_KAT_STAT_result = (if ok then katPass else if again then katRetry else katFail) ∧
      (ok = false → Raised e .ece 18) ∧ (ok = false → again = false → e.laneState kl = 2) ∧
      Frame d e [Reg.ECE_KAT_STAT_running, Reg.ECE_KAT_STAT_lane, Reg.ECE_KAT_TS_ts, Reg.ECE_KAT_STAT_runs, Reg.ECE_KAT_STAT_result,
        Reg.ECE_LANE_STAT_enc_state, Reg.ECE_LANE_STAT_dec_state, Reg.ECE_LANE_STAT_carrier] [.ece])) ∧
    (lane < 2 → d.laneState lane = 2 → d.ece.retesting = [] → HostGives 0 .ece .eceRetest s (fun e =>
      e.laneState lane = 3 ∧ lane ∈ e.ece.retesting ∧ e.rd Reg.ECE_KAT_STAT_running = 1)) ∧
    (lane < 2 → d.ece.katOn.isSome ∨ d.ece.retesting.head? ≠ some lane → Gives (.eceRetestDone lane passed) s (fun e =>
      Frame d e [] [])) ∧
    (lane < 2 → d.ece.katOn = none → d.ece.retesting.head? = some lane → Gives (.eceRetestDone lane passed) s (fun e =>
      e.ece.retesting = d.ece.retesting.drop 1 ∧ e.laneState lane = (if 16 ≤ passed then 0 else 2) ∧
      e.rd Reg.ECE_KAT_STAT_result = (if 16 ≤ passed then katPass else katFail) ∧ e.rd Reg.ECE_KAT_TS_ts = d.now % 2 ^ 64 ∧
      (16 ≤ passed → Raised e .ece 19)))

/-- O46. FAIL makes a MISSING member FAILED, or fails its drive with reason HOST and the member with it; REPLACE puts
an acceptable port in place of a lost member, which is REPLACING, with COPYBACK asked for; REBUILD starts a walk.
AR_MCTRL_STAT tells member and result; a bad operand changes nothing else. Owed labels that are written are
labelled. An array whose assembly time passes leaves ASSEMBLING. A MISSING member whose time passes is FAILED,
unless an exemption holds. -/
def Obligations.MemberActions : Prop :=
  ∀ (a i p r : Nat) (s : State), a < 16 → i < 256 →
    let d := s.dev
    let port := (d.memberPort a i).getD 0
    let stat (e : Dev) (r : Nat) : Prop :=
      e.rd (Reg.AR_MCTRL_STAT_member.ix a) = i ∧ e.rd (Reg.AR_MCTRL_STAT_result.ix a) = r
    let onlyStat (r : Nat) (e : Dev) : Prop :=
      stat e r ∧ Frame d e [Reg.AR_MCTRL_STAT_member.ix a, Reg.AR_MCTRL_STAT_result.ix a] []
    let known : Prop := d.arrEn a = true ∧ i < d.memberCount a
    (¬ known → HostGives 0 .lay (.memberFail a i) s (onlyStat 1)) ∧
    (known → d.mst a i = msFailed → HostGives 0 .lay (.memberFail a i) s (onlyStat 2)) ∧
    (known → d.mst a i = msMissing → HostGives 0 .lay (.memberFail a i) s (fun e => stat e 0 ∧ e.mst a i = msFailed)) ∧
    (known → d.mst a i = msOk → d.memberOn port = some (a, i) → HostGives 0 .lay (.memberFail a i) s (fun e =>
      stat e 0 ∧ e.mst a i = msFailed ∧ e.ptState port = ptFailed ∧ e.rd (Reg.PT_STAT_reason.ix port) = 6 ∧
      Raised e .dpx 17)) ∧
    (d.replaceBad a i p = some r → r < 8 → HostGives 0 .lay (.memberReplace a i p) s (onlyStat r)) ∧
    (d.replaceBad a i p = none → HostGives 0 .lay (.memberReplace a i p) s (fun e =>
      stat e (if e.actRuns .copyback a then 0 else 5) ∧ e.mst a i = msReplacing ∧ e.memberPort a i = some p ∧
      a ∈ e.lay.labelsOwed)) ∧
    (d.arrEn a = false → HostGives 0 .lay (.memberRebuild a i) s (onlyStat 1)) ∧
    (d.arrEn a = true → d.activeMembers a = [] → HostGives 0 .lay (.memberRebuild a i) s (onlyStat 2)) ∧
    (d.arrEn a = true → d.activeMembers a ≠ [] → d.mnt.acts = [] → d.mntOn = true → d.blkState .ccx ≠ stFault →
      HostGives 0 .lay (.memberRebuild a i) s (fun e => stat e 0 ∧ e.actRuns .rebuild a = true ∧
        e.rd (Reg.AR_RBLD_running.ix a) = 1 ∧ e.dram = d.dram ∧ e.qmx = d.qmx)) ∧
    (a ∈ d.lay.labelsOwed → d.blkState .ccx ≠ stFault → (d.arr a).assembling = false →
      Gives (.labelWriteDone a []) s (fun e => a ∉ e.lay.labelsOwed ∧ e.rd (Reg.AR_STAT_labelled.ix a) = 1 ∧
        Frame d e [Reg.AR_STAT_labelled.ix a] [.lay])) ∧
    Gives (.assembleTimeout a) s (fun e => (e.arr a).assembling = false ∧ e.lay.collecting = false) ∧
    (d.mst a i = msMissing → d.rd Reg.MNT_CFG_missing_s ≠ 0 → d.arrState a ≠ asOffline →
      d.rd (Reg.DPX_CL_state.ix (port / 32)) ≠ 0 → d.rd (Reg.DPX_CL_state.ix (port / 32)) ≠ 3 →
      Gives (.missingTimeout a i) s (fun e => e.mst a i = msFailed)) ∧
    (d.mst a i ≠ msMissing ∨ d.rd Reg.MNT_CFG_missing_s = 0 ∨ d.arrState a = asOffline ∨
      d.rd (Reg.DPX_CL_state.ix (port / 32)) = 0 ∨ d.rd (Reg.DPX_CL_state.ix (port / 32)) = 3 →
      Gives (.missingTimeout a i) s (fun e => Frame d e [] []))

/-- O47. While the activity runs and ECE has a lane: rebuild writes the unit record of every unavailable unit of a
FRESH stripe that has a spare on an OK member; of another stripe it hands the units to ECE as one decode job, whose
end writes units and records. Catch-up of a member's unit of the cycle and copyback of the unit at the cursor pass
over a FRESH stripe; else a decode job reconstructs the unit (copyback copies one that its spare gives), and its
end writes it and goes on to the next cycle. -/
def Obligations.RestoringUnits : Prop :=
  ∀ (a i c n t j id region : Nat) (units : Units) (s : State), a < 16 → i < 256 →
    let d := s.dev
    let gb := d.cycleGeo a c
    let p := d.plan a t
    let g := d.geoAt a t
    let dest := d.placeableAt a p
    let idle (w : MntWork) : Prop := d.mntBusy a (fun x => decide (x = w)) = false
    let asked (y : EceJob) (e : Dev) : Prop :=
      e.ece.jobs = d.ece.jobs ++ [{ y with id := d.lay.nextId, lane := d.laneOf .decode }]
    let back (w : MntWork) (out : List BufBlk) : Prop := ∃ y, d.jobReady id .decode = some y ∧ y.client = .mnt w [] ∧
      y.array = a ∧ y.t = t ∧ (∀ z ∈ d.ece.jobs, z.client = y.client → z.id = id) ∧ (∀ o ∈ d.ece.outs, o.1 ≠ y.client) ∧
      decodeOut y = some out ∧ decodePasses y out = true
    let written (e : Dev) (member cycle : Nat) (row : Nat → Block) : Prop :=
      let port := (d.memberPort a member).getD 0
      .driveBlocks port (d.sectors port * g.unit0 cycle) (d.sectors port) ((List.range g.ub).map row) ∈ e.emitted
    let row (out : List BufBlk) (j r : Nat) : Block := ((out.find? fun b => b.j = j && b.row = r).map BufBlk.data).getD []
    let recorded (e : Dev) (st : Nat) : Prop := ∀ x ∈ dest, (∀ y ∈ dest, y.2 = x.2 → y.1 = x.1) →
      e.unitRec a x.2 p.c = ⟨(d.stripe a t).gen, p.s, x.1, true, st⟩
    (∀ w, d.canMaintain .rebuild a = true → idle .rebuild → (d.arr a).walk = some w → w.pass ≠ 0 →
      d.walkFind a w.pass (d.walkFuel a) w.cycle w.s = some (c, n) → t = c * gb.1.spc + n + gb.2 → d.destaging a t = false →
      ((d.stripe a t).state = ssFresh → Gives (.rebuildStripe a units) s (fun e =>
        recorded e ssFresh ∧ e.dram.cache = d.dram.cache)) ∧
      (∀ y, (d.stripe a t).state ≠ ssFresh → d.recon a t (dest.map Prod.fst) units .rebuild = some y →
        Gives (.rebuildStripe a units) s (fun e => asked y e ∧ Frame d e [Reg.AR_RBLD_CUR_cycle.ix a] [.ece, .lay]))) ∧
    (∀ w out, d.canMaintain .rebuild a = true → back .rebuild out → (d.arr a).walk = some w → t = d.walkAt a w →
      d.destaging a t = false → (d.stripe a t).state = ssClean → (∀ x ∈ dest, ∃ b ∈ out, b.j = x.1) →
      Gives (.decode id) s (fun e => recorded e ssSpare ∧ ∀ x ∈ dest, written e x.2 w.cycle (row out x.1))) ∧
    (∀ rest, d.missed a i = region :: rest → d.canMaintain .rebuild a = true → d.mst a i = msCatchup →
      c = max (Tbl.getD (d.arr a).catchCycle i 0) (region * 1024) → d.unitHeld a i c = some (t, j) →
      (c + 1) % 1024 ≠ 0 → c + 1 < (d.arr a).cycles → d.destaging a t = false →
      (idle (.catchup i c) → (d.stripe a t).state = ssFresh → Gives (.catchupCycle a i units) s (fun e =>
        Tbl.get? (e.arr a).catchCycle i = some (c + 1) ∧ Frame d e [] [.lay])) ∧
      (∀ y, idle (.catchup i c) → (d.stripe a t).state ≠ ssFresh → d.recon a t [j] units (.catchup i c) = some y →
        Gives (.catchupCycle a i units) s (fun e => asked y e ∧ Frame d e [] [.ece, .lay])) ∧
      (∀ out, back (.catchup i c) out → Gives (.decode id) s (fun e =>
        Tbl.get? (e.arr a).catchCycle i = some (c + 1) ∧ written e i c (row out j)))) ∧
    (d.canMaintain .copyback a = true → i = d.rd (Reg.AR_CPBK_member.ix a) → d.mst a i = msReplacing →
      c = d.rd (Reg.AR_CPBK_CUR_cycle.ix a) → c + 1 < 2 ^ 64 → c + 1 < (d.arr a).cycles → d.unitOf a i c = some (t, j) →
      d.destaging a t = false →
      (idle (.copyback i c) → (d.stripe a t).state = ssFresh → d.onSpare a p j = false →
        Gives (.copybackCycle a units) s (fun e =>
          e.rd (Reg.AR_CPBK_CUR_cycle.ix a) = c + 1 ∧ Frame d e [Reg.AR_CPBK_CUR_cycle.ix a] [])) ∧
      (∀ y, idle (.copyback i c) → (d.stripe a t).state ≠ ssFresh → d.onSpare a p j = false →
        d.recon a t [j] units (.copyback i c) = some y →
        Gives (.copybackCycle a units) s (fun e => asked y e ∧ Frame d e [] [.ece, .lay])) ∧
      (∀ rows, idle (.copyback i c) → (d.stripe a t).state ≠ ssFresh → d.onSpare a p j = true → d.available a p j = true →
        units.getD j none = some rows → Gives (.copybackCycle a units) s (fun e =>
          e.rd (Reg.AR_CPBK_CUR_cycle.ix a) = c + 1 ∧ written e i c (rows.getD · []))) ∧
      (∀ out, back (.copyback i c) out → Gives (.decode id) s (fun e =>
        e.rd (Reg.AR_CPBK_CUR_cycle.ix a) = c + 1 ∧ written e i c (row out j))))

/-- O48. At its period an enabled array's scrub pass starts, if scrub is enabled and nothing runs. A stripe all of
whose units answered is taken up with the syndrome job of its tag row; a pass with nothing left ends and leaves its
time. A restripe step waits for admission space, hands the target stripes with written content to ECE, and ends
with the last of them, or at once without any: then the checkpoint goes on by one, and after the last cycle the
target is live. -/
def Obligations.ScrubAndRestripe : Prop :=
  ∀ (a id no : Nat) (units : Units) (data : StepData) (s : State), a < 16 →
    let d := s.dev
    let tg := d.targetGeo a
    let fits := d.grantFits (tg.spc * tg.perStripe) = true
    (d.rd Reg.MNT_SCRUB_CFG_en ≠ 0 → d.arrEn a = true → d.mnt.acts = [] → d.mntOn = true → d.blkState .ccx ≠ stFault →
      (d.arr a).scrub = none → Gives (.scrubPeriod a) s (fun e =>
        e.mnt.acts = [⟨.scrub, a, .running⟩] ∧ e.rd (Reg.AR_SCRUB_running.ix a) = 1 ∧
        e.rd (Reg.AR_SCRUB_permille.ix a) = 0 ∧ e.rd (Reg.AR_SCRUB_CUR_stripe.ix a) = 0 ∧
        Frame d e [Reg.AR_SCRUB_running.ix a, Reg.AR_SCRUB_paused.ix a, Reg.AR_SCRUB_permille.ix a,
          Reg.AR_SCRUB_CUR_stripe.ix a] [.mnt, .lay])) ∧
    (d.rd Reg.MNT_SCRUB_CFG_en = 0 → Gives (.scrubPeriod a) s (fun e => Frame d e [] [])) ∧
    (∀ x t, (d.arr a).scrub = some x → d.canMaintain .scrub a = true → x.work = none → d.scrubPick a x = some t →
      (∀ j, j < (d.plan a t).w → units.getD j none ≠ none) → Gives (.scrubStripe a units) s (fun e =>
        (∃ y, e.ece.jobs = d.ece.jobs ++ [y] ∧ y.kind = .syndrome ∧ y.array = a ∧ y.t = t ∧ y.client = .scrub ∧
          y.rows = [(d.geoAt a t).dpu] ∧ y.id = d.lay.nextId) ∧
        (∃ w, (e.arr a).scrub = some { x with work := some w } ∧ w.t = t ∧ w.tags = [] ∧ w.fixes = [] ∧ w.unresolved = 0) ∧
        Frame d e [] [.ece, .lay])) ∧
    (∀ x, (d.arr a).scrub = some x → d.canMaintain .scrub a = true → x.work = none → x.secondRound = true →
      d.scrubPick a x = none → Gives (.scrubStripe a units) s (fun e =>
        (e.arr a).scrub = none ∧ e.rd (Reg.AR_SCRUB_running.ix a) = 0 ∧ e.rd (Reg.AR_SCRUB_permille.ix a) = 1000 ∧
        e.rd (Reg.AR_SCRUB_LAST_ts.ix a) = d.now % 2 ^ 64 ∧ e.actRuns .scrub a = false ∧
        Frame d e [Reg.AR_SCRUB_running.ix a, Reg.AR_SCRUB_permille.ix a, Reg.AR_SCRUB_LAST_ts.ix a] [.mnt, .lay])) ∧
    (∀ x c, (d.arr a).restripe = some x → c = d.rd (Reg.AR_RS_CUR_cycle.ix a) → c < (d.arr a).cycles → c < 2 ^ 64 - 1 →
      d.restripeReady a c = true → x.ports.length ≤ 256 → x.step = none →
      (∀ y ∈ d.ece.jobs, ¬ (y.array = a ∧ y.kind = .reencode)) →
      let wanted := d.rsWanted a ⟨c, [], [], []⟩
      (¬ fits → Gives (.restripeStep a data) s (fun e => Frame d e [] [])) ∧
      (fits → wanted ≠ [] → Gives (.restripeStep a data) s (fun e =>
        (∃ st, (e.arr a).restripe = some { x with step := some st } ∧ st.cycle = c ∧ st.parity = []) ∧
        e.rd (Reg.AR_RS_CUR_cycle.ix a) = c ∧
        ∀ z ∈ wanted, ∃ y ∈ e.ece.jobs, y.kind = .reencode ∧ y.array = a ∧ y.client = .restripe z.s)) ∧
      (fits → wanted = [] → x.descending = true → c ≠ 0 → Gives (.restripeStep a data) s (fun e =>
        e.rd (Reg.AR_RS_CUR_cycle.ix a) = c - 1 ∧ (e.arr a).restripe = some x)) ∧
      (fits → wanted = [] → x.descending = false → c + 1 ≠ (d.arr a).cycles → Gives (.restripeStep a data) s (fun e =>
        e.rd (Reg.AR_RS_CUR_cycle.ix a) = c + 1 ∧ (e.arr a).restripe = some x)) ∧
      (fits → wanted = [] → x.descending = false → c + 1 = (d.arr a).cycles → Gives (.restripeStep a data) s (fun e =>
        (e.arr a).restripe = none ∧ e.rd (Reg.AR_CFG_k.ix a) = x.k % 2 ^ 5 ∧ e.rd (Reg.AR_CFG_m.ix a) = x.m % 2 ^ 3 ∧
        e.rd (Reg.AR_RS_STAT_running.ix a) = 0 ∧ a ∈ e.lay.labelsOwed))) ∧
    (∀ x st y, (d.arr a).restripe = some x → x.step = some st → d.jobReady id .reencode = some y → y.array = a →
      y.client = .restripe no → (∀ z ∈ d.ece.jobs, z.client = y.client → z.id = id) → (∀ o ∈ d.ece.outs, o.1 ≠ y.client) →
      d.restripeReady a st.cycle = true → st.cycle < 2 ^ 64 - 1 → st.cycle + 1 < (d.arr a).cycles → x.descending = false →
      d.rsWanted a { st with parity := st.parity ++ (encodeOut y).map fun b => (no, b) } = [] → Gives (.encode id) s (fun e =>
        e.rd (Reg.AR_RS_CUR_cycle.ix a) = st.cycle + 1 ∧ (e.arr a).restripe = some { x with step := none }))

/-- O49. A request that R227 refuses changes nothing; one that something blocks waits as deferred, with its event's
cause; one that nothing blocks runs. A deferred or paused activity starts when nothing blocks it, else keeps
waiting. A retraining run is asked for in the same way. -/
def Obligations.ArbiterDecisions : Prop :=
  ∀ (act : Act) (a b : Nat) (s : State), s.dev.mnt.dfw = none →
    (act ∈ [Act.scrub, .copyback, .restripe] ∧ a < 16 ∨ act ∈ [Act.calibrate, .dramRetrain, .smcRekey] ∧ a = 0xFF) →
    let d := s.dev
    let req := d.requestable act a = true
    let new := d.actOf act a = none
    (req → d.arbRefuses act a = true → Gives (.arbiterRequest [(act, a)]) s (fun e => Frame d e [] [])) ∧
    (req → d.arbRefuses act a = false → new → d.blocker act a = some b → Gives (.arbiterRequest [(act, a)]) s (fun e =>
      e.mnt.acts = d.mnt.acts ++ [⟨act, a, .deferred b⟩] ∧ Raised e .mnt 19 ∧ Frame d e [] [.mnt])) ∧
    (req → d.arbRefuses act a = false → new → d.blocker act a = none → Gives (.arbiterRequest [(act, a)]) s (fun e =>
      e.actRuns act a = true)) ∧
    (∀ x, d.actOf act a = some x → x.st ≠ .running →
      (d.blocker act a = none → Gives (.deferredStart act a) s (fun e => e.actRuns act a = true)) ∧
      (d.blocker act a = some b → Gives (.deferredStart act a) s (fun e => Frame d e [] []))) ∧
    (act = .dramRetrain → d.mnt.acts = [] → d.condHolds .dramRetrain = false → Gives .dramRetrain s (fun e =>
      e.mnt.acts = [⟨.dramRetrain, 0xFF, .running⟩] ∧ e.pwc.retrainNext = some 0 ∧
      e.rd Reg.PWC_RETRAIN_STAT_running = 1 ∧ Frame d e [Reg.PWC_RETRAIN_STAT_running] [.mnt, .pwc]))

/-- O50. go with a bad length or source, or during a download, is refused. A download to one READY port in no array
begins at once; its good end counts it done and, as the last port, ends the download; a drive that names itself
otherwise, or does not return, is FAILED. The hot sample of a busy array shows its ratio and busiest member. -/
def Obligations.DriveFirmwareAndHotSpots : Prop :=
  ∀ (a p : Nat) (ident : Qword) (busy : List Nat) (s : State), p < 256 →
    let d := s.dev
    let len := d.rd Reg.MNT_DFW_LEN_bytes
    let src := d.rd Reg.MNT_DFW_SRC_offset
    let image : Prop := 4 ≤ len ∧ len ≤ 64 * 2 ^ 20 ∧ len % 4 = 0 ∧ src % 4096 = 0 ∧ src + len ≤ d.rd Reg.PWC_SCRATCH_mib * 2 ^ 20
    let last (x : Dfw) : Prop := d.mnt.dfw = some x ∧ x.active = [p] ∧ x.todo = []
    (d.mnt.dfw ≠ none ∨ ¬ image → HostGives 0 .mnt .dfwGo s (fun e => Raised e .mnt 3 ∧ Frame d e [] [])) ∧
    (d.mnt.dfw = none → image → (∀ q, q < 256 → (bitOf (d.rd (Reg.MNT_DFW_PORTS_ports.ix (q / 32))) (q % 32) = true ↔ q = p)) →
      d.ptState p = ptReady → d.memberOn p = none → d.mnt.acts = [] → d.mntOn = true → d.blkState .ccx ≠ stFault →
      HostGives 0 .mnt .dfwGo s (fun e => e.mnt.dfw = some ⟨[], [p], 0, 0⟩ ∧ .driveFirmware p src len ∈ e.emitted ∧
        e.rd Reg.MNT_DFW_STAT_running = 1 ∧ e.actRuns .driveFw 0xFF = true ∧ e.dram = d.dram)) ∧
    (∀ x, last x → (d.port p).identBefore = some ident.toNat → d.memberOn p = none → Gives (.dfwPortDone p ident true) s (fun e =>
      e.mnt.dfw = none ∧ e.rd Reg.MNT_DFW_STAT_done = (x.done + 1) % 2 ^ 9 ∧ e.rd Reg.MNT_DFW_STAT_running = 0 ∧
      e.ptState p = d.ptState p)) ∧
    (∀ x ok, last x → (d.port p).identBefore ≠ some ident.toNat → Gives (.dfwPortDone p ident ok) s (fun e =>
      e.mnt.dfw = none ∧ e.ptState p = ptFailed ∧ e.rd (Reg.PT_STAT_reason.ix p) = 5 ∧ Raised e .mnt 20 ∧ Raised e .dpx 17)) ∧
    (∀ x, last x → Gives (.dfwTimeout p) s (fun e =>
      e.mnt.dfw = none ∧ e.ptState p = ptFailed ∧ e.rd (Reg.PT_STAT_reason.ix p) = 7 ∧ Raised e .mnt 20 ∧
      e.rd Reg.MNT_DFW_STAT_failed = (x.failed + 1) % 2 ^ 9)) ∧
    (a < 16 → d.arrEn a = true → busy ≠ [] → 100 * busy.length ≤ busy.sum → Gives (.hotspotSample [(a, busy)]) s (fun e =>
      e.rd (Reg.AR_HOT_ratio.ix a) = min 65535 (busy.foldl max 0 * 100 * busy.length / busy.sum) ∧
      e.rd (Reg.AR_HOT_member.ix a) = (busy.findIdx? (fun x => x = busy.foldl max 0)).getD 0 % 2 ^ 8 ∧
      Frame d e [Reg.AR_HOT_ratio.ix a, Reg.AR_HOT_member.ix a] [.lay])) ∧
    (a < 16 → busy.sum < 100 * busy.length → Gives (.hotspotSample [(a, busy)]) s (fun e =>
      (e.arr a).hotStreak = 0 ∧ Frame d e [] [.lay]))

/-- O51. A device on a waiting port of an UP cluster is UNSUPPORTED with the reason of its refusal, with that cause,
where its first frames show it, else IDENTIFYING; a spin-up place goes to the one port that waits. An unlabelled
drive that is ready is refused or READY with its identity shown; the same drive within the grace is READY again.
Time out in IDENTIFYING fails the port with reason 4, and a member that does not leave its power state goes to
recovery. An idle port goes to partial. An SGPIO frame sends the bits of the mapped ports and shows presence.
Loopback is refused for a member, else runs, and ends with pass or with its error count. -/
def Obligations.DrivePortsComeUp : Prop :=
  ∀ (p n present errors : Nat) (x : DriveInfo) (s : State), p < 256 → n < 8 →
    let d := s.dev
    let link := [Reg.PT_STAT_state.ix p, Reg.PT_STAT_reason.ix p, Reg.PT_STAT_rate.ix p, Reg.PT_STAT_protocol.ix p,
      Reg.PT_STAT_ncq.ix p, Reg.PT_STAT_pfa.ix p]
    let named := [Reg.PT_STAT_state.ix p, Reg.PT_STAT_reason.ix p, Reg.PT_STAT_ncq.ix p, Reg.PT_ID_id.ix p,
      Reg.PT_BLOCKS_blocks.ix p, Reg.PT_FMT_phys_bytes.ix p, Reg.PT_FMT_log_bytes.ix p, Reg.PT_FWREV_rev.ix p]
    let waits := (d.ptState p = ptEmpty ∨ d.ptState p = ptLinking ∨ d.ptState p = ptResetting) ∧
      d.sys.pdDrv.getD (p / 32) false = true ∧ d.clState (p / 32) = clUp
    let early := x.refusedEarly (d.lineRate p x) (d.twin p x)
    let mine := d.dpx.sgpioMap.filter fun y => decide (y.1 / 32 = n)
    (waits → early = true → Gives (.portCominit p x) s (fun e =>
      e.ptState p = ptUnsupported ∧
      e.rd (Reg.PT_STAT_reason.ix p) = (x.refusal (d.lineRate p x) (d.twin p x)).getD 1 ∧ Raised e .dpx 18 ∧
      Frame d e link [.dpx])) ∧
    (waits → early = false → Gives (.portCominit p x) s (fun e =>
      e.ptState p = ptIdentifying ∧ e.rd (Reg.PT_STAT_reason.ix p) = 0 ∧ (e.port p).dev = some x ∧
      e.rd (Reg.PT_STAT_rate.ix p) = d.lineRate p x % 2 ^ 3 ∧
      e.rd (Reg.PT_STAT_protocol.ix p) = (if x.proto = .sas then 1 else 2) ∧ Frame d e link [.dpx])) ∧
    (p / 32 = n → (d.port p).spinWait = true → d.ptState p = ptIdentifying →
      (∀ q, q / 32 = n → q ≠ p → (d.port q).spinWait = false) →
      ((clusterPorts n).filter fun q => (d.port q).spinning).length < d.rd Reg.DPX_CFG_spinup_max →
      Gives (.spinupSlot n) s (fun e => (e.port p).spinning = true ∧ (e.port p).spinWait = false ∧
        .driveSpinup p ∈ e.emitted ∧ Frame d e [] [.dpx])) ∧
    (d.ptState p = ptIdentifying → (d.port p).dev = some x →
      (∀ r, x.refusal (d.rd (Reg.PT_STAT_rate.ix p)) (d.twin p x) = some r → Gives (.driveReady p) s (fun e =>
        e.ptState p = ptUnsupported ∧ e.rd (Reg.PT_STAT_reason.ix p) = r ∧ Raised e .dpx 18 ∧ Frame d e named [.dpx])) ∧
      (x.refusal (d.rd (Reg.PT_STAT_rate.ix p)) (d.twin p x) = none → (d.port p).grace = false → pickLabel x = none →
        Gives (.driveReady p) s (fun e =>
          e.ptState p = ptReady ∧ Raised e .dpx 16 ∧ e.rd (Reg.PT_ID_id.ix p) = x.ident.toNat ∧
          e.rd (Reg.PT_BLOCKS_blocks.ix p) = x.blocks % 2 ^ 64 ∧ Frame d e named [.dpx, .lay])) ∧
      (x.refusal (d.rd (Reg.PT_STAT_rate.ix p)) (d.twin p x) = none → (d.port p).grace = true →
        d.rd (Reg.PT_ID_id.ix p) = x.ident.toNat → Gives (.driveReady p) s (fun e =>
          e.ptState p = ptReady ∧ (e.port p).grace = false ∧ Frame d e named [.dpx, .lay]))) ∧
    (d.ptState p = ptIdentifying → Gives (.readyTimeout p) s (fun e =>
      e.ptState p = ptFailed ∧ e.rd (Reg.PT_STAT_reason.ix p) = 4 ∧ Raised e .dpx 17)) ∧
    (∀ a i, d.exitingOn p = some (a, i) → i ∈ (d.arr a).exitWait → d.ptState p = ptReady → (d.port p).recovery = none →
      (d.port p).recovTimes = [] → Gives (.readyTimeout p) s (fun e =>
        (e.port p).recovery = some ⟨1, 0⟩ ∧ .driveAbort p 0 1 ∈ e.emitted ∧ Raised e .dpx 20 ∧
        Frame d e [Reg.PT_RECOV_recoveries.ix p] [.dpx, .lay])) ∧
    (d.ptState p = ptReady → (d.port p).queue = [] → (d.port p).outst = [] → (d.port p).recovery = none →
      (d.port p).partialLink = false → Gives (.portPartial p) s (fun e =>
        (e.port p).partialLink = true ∧ .drivePartial p ∈ e.emitted ∧ Frame d e [] [.dpx])) ∧
    Gives (.sgpioFrame n present) s (fun e =>
      (d.rd Reg.DPX_SG_en ≠ 0 → .sgpio n (mine.map fun y => d.ledBits y.1 * 2 ^ (3 * y.2)).sum ∈ e.emitted) ∧
      (∀ b, mine.filter (fun y => y.1 = p) = [(p, b)] → e.rd (Reg.PT_STAT_present.ix p) = b2n (bitOf present b)) ∧
      Frame d e (mine.map fun y => Reg.PT_STAT_present.ix y.1) [.dpx]) ∧
    (d.memberOn p ≠ none → HostGives 0 .dpx (.loopbackStart p) s (fun e => Raised e .dpx 3 ∧ Frame d e [] [])) ∧
    (d.memberOn p = none → d.ptState p ≠ ptLoopback → d.ptState p ≠ ptDisabled → HostGives 0 .dpx (.loopbackStart p) s (fun e =>
      e.ptState p = ptLoopback ∧ e.rd (Reg.PT_LOOP_running.ix p) = 1 ∧ e.rd (Reg.PT_LOOP_errors.ix p) = 0 ∧
      .loopback p true ∈ e.emitted ∧ Frame d e (link ++ [Reg.PT_LOOP_running.ix p, Reg.PT_LOOP_errors.ix p]) [.dpx])) ∧
    (d.ptState p = ptLoopback →
      HostGives 0 .dpx (.loopbackStop p) s (fun e =>
        e.ptState p = (if (d.port p).dev.isSome then ptLinking else ptEmpty) ∧ e.rd (Reg.PT_LOOP_running.ix p) = 0 ∧
        e.rd (Reg.PT_LOOP_pass.ix p) = 0 ∧ Raised e .dpx 21 ∧ .loopback p false ∈ e.emitted ∧
        Frame d e [Reg.PT_STAT_state.ix p, Reg.PT_STAT_reason.ix p, Reg.PT_LOOP_running.ix p, Reg.PT_LOOP_pass.ix p] []) ∧
      Gives (.loopbackEnd p errors) s (fun e =>
        e.ptState p = (if (d.port p).dev.isSome then ptLinking else ptEmpty) ∧
        e.rd (Reg.PT_LOOP_pass.ix p) = b2n (decide (errors = 0)) ∧
        e.rd (Reg.PT_LOOP_errors.ix p) = min errors 0xFFFF ∧ Raised e .dpx 21 ∧ (e.rd (Reg.PT_LOOP_running.ix p) = 0) ∧
        Frame d e [Reg.PT_STAT_state.ix p, Reg.PT_STAT_reason.ix p, Reg.PT_LOOP_running.ix p, Reg.PT_LOOP_pass.ix p,
          Reg.PT_LOOP_errors.ix p] []))

/-- O52. A command at the drive that completes is done with its data. A transport error is retried twice, a medium
error of a read fails the command, the first of a write is retried and the second without a spare sector fails the
drive with reason 3; an informational sense shows pfa; any other error, and a timeout, starts recovery, or fails
the drive with reason 2 where two recoveries began within ten minutes. A recovery step that is answered ends it;
the others lead to the next step and last to reason 1. A lost link empties a READY port and holds its commands for
the grace; with its end they are dropped. Reset and fail do as they say. -/
def Obligations.DriveErrorsAndRecovery : Prop :=
  ∀ (p op sense : Nat) (o : MemberOp) (data : List Block) (err : DriveErr) (s : State), p < 256 →
    let d := s.dev
    let x := d.port p
    let at_ := d.op? op = some o ∧ d.atDrive p op = true ∧ ∀ q, op ∉ (d.port q).queue
    let recent := x.recovTimes.filter fun t => d.ticks < t + tenMinutes
    let sensed := [Reg.PT_SENSE_kind.ix p, Reg.PT_SENSE_last.ix p]
    let failed (e : Dev) (reason : Nat) : Prop :=
      e.ptState p = ptFailed ∧ e.rd (Reg.PT_STAT_reason.ix p) = reason ∧ Raised e .dpx 17
    let begun (e : Dev) (id : Nat) : Prop := (e.port p).recovery = some ⟨1, id⟩ ∧ .driveAbort p id 1 ∈ e.emitted ∧
      Raised e .dpx 20 ∧ e.rd (Reg.PT_RECOV_recoveries.ix p) = min (d.rd (Reg.PT_RECOV_recoveries.ix p) + 1) 0xFFFF
    (at_ → Gives (.driveCommandComplete p op data) s (fun e =>
      e.op? op = some { o with st := .done, data := if o.isWrite then o.data else data } ∧ op ∉ (e.port p).outst ∧
      Frame d e [] [.lay, .dpx])) ∧
    (d.atDrive p op = false → Gives (.driveCommandComplete p op data) s (fun e => Frame d e [] []) ∧
      Gives (.driveError p op err sense) s (fun e => Frame d e [] [])) ∧
    (at_ → o.occurrences < 2 → Gives (.driveError p op .transport sense) s (fun e =>
      e.op? op = some { o with occurrences := o.occurrences + 1 } ∧
      e.rd (Reg.PT_ERR_transport.ix p) = min (d.rd (Reg.PT_ERR_transport.ix p) + 1) 0xFFFF ∧
      e.rd (Reg.PT_SENSE_last.ix p) = sense % 2 ^ 24 ∧
      Frame d e (Reg.PT_ERR_transport.ix p :: sensed) [.lay])) ∧
    (at_ → o.isWrite = false → Gives (.driveError p op .readMedium sense) s (fun e =>
      e.op? op = some { o with st := .failedMedium } ∧ op ∉ (e.port p).outst ∧
      e.rd (Reg.PT_ERR_medium.ix p) = min (d.rd (Reg.PT_ERR_medium.ix p) + 1) 0xFFFF ∧
      Frame d e (Reg.PT_ERR_medium.ix p :: sensed) [.lay, .dpx])) ∧
    (at_ → o.writeFailed = false → Gives (.driveError p op (.writeMedium true) sense) s (fun e =>
      e.op? op = some { o with writeFailed := true } ∧ Frame d e (Reg.PT_ERR_medium.ix p :: sensed) [.lay])) ∧
    (at_ → o.writeFailed = true → Gives (.driveError p op (.writeMedium true) sense) s (fun e => failed e 3)) ∧
    (at_ → d.rd (Reg.PT_CFG_fail_on_pfa.ix p) ≠ 0 → Gives (.driveError p op .informational sense) s (fun e => failed e 9)) ∧
    (at_ → d.rd (Reg.PT_CFG_fail_on_pfa.ix p) = 0 → Gives (.driveError p op .informational sense) s (fun e =>
      e.rd (Reg.PT_STAT_pfa.ix p) = 1 ∧ e.op? op = some o ∧ Frame d e (Reg.PT_STAT_pfa.ix p :: sensed) [])) ∧
    (at_ → x.recovery = none → recent.length < 2 →
      Gives (.driveError p op .other sense) s (fun e => begun e op ∧
        Frame d e (Reg.PT_RECOV_recoveries.ix p :: sensed) [.lay, .dpx]) ∧
      Gives (.driveCommandTimeout p op) s (fun e => begun e op ∧
        e.rd (Reg.PT_RECOV_timeouts.ix p) = min (d.rd (Reg.PT_RECOV_timeouts.ix p) + 1) 0xFFFF ∧
        Frame d e [Reg.PT_RECOV_recoveries.ix p, Reg.PT_RECOV_timeouts.ix p] [.lay, .dpx])) ∧
    (at_ → x.recovery = none → 2 ≤ recent.length →
      Gives (.driveError p op .other sense) s (fun e => failed e 2) ∧
      Gives (.driveCommandTimeout p op) s (fun e => failed e 2)) ∧
    (∀ r, x.recovery = some r →
      Gives (.recoveryStep p true) s (fun e => (e.port p).recovery = none ∧ e.ptState p = d.ptState p) ∧
      (r.step = 1 → Gives (.recoveryStep p false) s (fun e =>
        (e.port p).recovery = some ⟨2, r.op⟩ ∧ .driveAbort p r.op 2 ∈ e.emitted ∧ Frame d e [] [.dpx])) ∧
      (r.step = 2 → Gives (.recoveryStep p false) s (fun e =>
        (e.port p).recovery = some ⟨3, r.op⟩ ∧ .driveReset p ∈ e.emitted ∧ Frame d e [] [.dpx])) ∧
      (r.step = 3 → Gives (.recoveryStep p false) s (fun e => failed e 1))) ∧
    (d.ptState p = ptReady → d.rd Reg.DPX_CFG_grace_ms ≠ 0 → Gives (.linkLoss p) s (fun e =>
      e.ptState p = ptEmpty ∧ (e.port p).grace = true ∧ (e.port p).dev = none ∧ Raised e .dpx 16 ∧
      Frame d e [Reg.PT_STAT_state.ix p, Reg.PT_STAT_reason.ix p, Reg.PT_STAT_rate.ix p, Reg.PT_STAT_protocol.ix p,
        Reg.PT_STAT_ncq.ix p, Reg.PT_STAT_pfa.ix p] [.dpx, .lay])) ∧
    (x.grace = false → Gives (.graceExpire p) s (fun e => Frame d e [] [])) ∧
    (x.grace = true → Gives (.graceExpire p) s (fun e => (e.port p).grace = false ∧
      (d.memberOn p = none → (∀ y ∈ e.lay.ops, y.port = p → y.st ≠ .queued ∧ y.st ≠ .issued) ∧ Frame d e [] [.dpx, .lay]) ∧
      (∀ a i, d.memberOn p = some (a, i) → d.mst a i = msOk → e.mst a i = msMissing ∧ Raised e .mnt 16))) ∧
    (d.ptState p = ptDisabled → HostGives 0 .dpx (.portReset p) s (fun e => Frame d e [] [])) ∧
    (d.ptState p ≠ ptDisabled → d.ptState p ≠ ptEmpty → x.recovery = none → HostGives 0 .dpx (.portReset p) s (fun e =>
      e.ptState p = ptResetting ∧ .driveReset p ∈ e.emitted)) ∧
    (d.ptState p = ptReady ∨ d.ptState p = ptIdentifying → HostGives 0 .dpx (.portFail p) s (fun e => failed e 6)) ∧
    (d.ptState p = ptEmpty → x.grace = false → HostGives 0 .dpx (.portFail p) s (fun e => Frame d e [] []))

/-- O53. A reset of an UP cluster puts every port with a device into RESETTING. Disabling is refused where an array
would lose more than m, else the cluster is OFF, its power domain off and its ports DISABLED; enabling powers it up
and empties its enabled ports; a failure raises its cause and disables its ports. An array power timer sends the
entry commands and the confirmations make the state; a wake begins the exit of every present member; lat_clear
gives the three latencies their reset values. -/
def Obligations.ClustersAndArrayPower : Prop :=
  ∀ (n a st : Nat) (s : State), n < 8 → a < 16 →
    let d := s.dev
    let own (p : Nat) : Prop := p / 32 = n
    let down (e : Dev) : Prop := e.sys.pdDrv.getD n false = false ∧
      ∀ p, own p → e.ptState p = ptDisabled ∧ (e.port p).dev = none
    let off : Prop := d.rd (Reg.AR_PWR_STAT_entering.ix a) = 0 ∧ d.rd (Reg.AR_PWR_STAT_exiting.ix a) = 0
    let idle : Prop := d.lay.ops = [] ∧ d.qmx.cmds = [] ∧ d.mnt.acts = [] ∧ d.lay.due = [] ∧ d.dram.intents = []
    (d.clState n = clUp → HostGives 0 .dpx (.clusterReset n) s (fun e =>
      ∀ p, own p → (d.port p).dev ≠ none → d.ptState p ≠ ptDisabled →
        e.ptState p = ptResetting ∧ .driveReset p ∈ e.emitted ∧ e.clState n = clResetting)) ∧
    (d.clState n ≠ clUp → HostGives 0 .dpx (.clusterReset n) s (fun e => Frame d e [] [])) ∧
    (d.clState n = clOff → HostGives 0 .dpx (.clusterDisable n) s (fun e => Frame d e [] [])) ∧
    (d.clState n = clUp ∨ d.clState n = clResetting →
      (d.clusterSpare n = false → HostGives 0 .dpx (.clusterDisable n) s (fun e => Raised e .dpx 3 ∧ Frame d e [] [])) ∧
      (d.clusterSpare n = true → HostGives 0 .dpx (.clusterDisable n) s (fun e =>
        e.clState n = clOff ∧ e.rd (Reg.DPX_CL_en.ix n) = 0 ∧ down e)) ∧
      Gives (.clusterFail n) s (fun e => e.clState n = clFailed ∧ Raised e .dpx 19 ∧ down e)) ∧
    (d.clState n = clFailed →
      HostGives 0 .dpx (.clusterDisable n) s (fun e => e.clState n = clOff ∧ e.rd (Reg.DPX_CL_en.ix n) = 0 ∧
        Frame d e [Reg.DPX_CL_state.ix n, Reg.DPX_CL_en.ix n] []) ∧
      Gives (.clusterFail n) s (fun e => Frame d e [] [])) ∧
    (d.clState n = clOff → HostGives 0 .dpx (.clusterEnable n) s (fun e =>
      e.clState n = clUp ∧ e.rd (Reg.DPX_CL_en.ix n) = 1 ∧ e.sys.pdDrv.getD n false = true ∧
      (∀ p, own p → d.rd (Reg.PT_CFG_en.ix p) ≠ 0 → e.ptState p = ptEmpty) ∧
      Frame d e (Reg.DPX_CL_state.ix n :: Reg.DPX_CL_en.ix n ::
        (clusterPorts n).flatMap fun p => [Reg.PT_STAT_state.ix p, Reg.PT_STAT_reason.ix p]) [.sys])) ∧
    (d.clState n ≠ clOff → HostGives 0 .dpx (.clusterEnable n) s (fun e => Frame d e [] [])) ∧
    (d.nextPower a = none → Gives (.arrayPowerTimer a) s (fun e => Frame d e [] [])) ∧
    (d.nextPower a = some st → d.arrEn a = true → off → idle → (2 ≤ st → d.maySleep a = true) → d.presentMembers a ≠ [] →
      Gives (.arrayPowerTimer a) s (fun e =>
        e.rd (Reg.AR_PWR_STAT_entering.ix a) = 1 ∧ (e.arr a).pwrTarget = st ∧
        (∀ i ∈ d.presentMembers a, ∀ p, d.memberPort a i = some p → .drivePower p st ∈ e.emitted) ∧
        Frame d e [Reg.AR_PWR_STAT_entering.ix a] [.lay])) ∧
    (d.rd (Reg.AR_PWR_STAT_entering.ix a) ≠ 0 → d.rd (Reg.AR_PWR_STAT_exiting.ix a) = 0 →
      Gives (.powerEntryConfirm a) s (fun e =>
        e.rd (Reg.AR_PWR_STAT_entering.ix a) = 0 ∧ e.rd (Reg.AR_PWR_STAT_pstate.ix a) = (d.arr a).pwrTarget % 4 ∧
        Frame d e [Reg.AR_PWR_STAT_entering.ix a, Reg.AR_PWR_STAT_pstate.ix a] [.lay, .dpx])) ∧
    (off → d.rd (Reg.AR_PWR_STAT_pstate.ix a) = 0 → Gives (.arrayWake a) s (fun e => Frame d e [] [])) ∧
    (off → d.rd (Reg.AR_PWR_STAT_pstate.ix a) ≠ 0 → d.presentMembers a ≠ [] → Gives (.arrayWake a) s (fun e =>
      e.rd (Reg.AR_PWR_STAT_exiting.ix a) = 1 ∧ (e.arr a).exitFrom = d.rd (Reg.AR_PWR_STAT_pstate.ix a) ∧
      (e.arr a).exitWait = d.presentMembers a ∧
      (d.rd (Reg.AR_PWR_STAT_pstate.ix a) = 1 → ∀ i ∈ d.presentMembers a, ∀ p, d.memberPort a i = some p →
        .drivePower p 0 ∈ e.emitted) ∧ Frame d e [Reg.AR_PWR_STAT_exiting.ix a] [.lay, .dpx])) ∧
    HostGives 0 .lay (.pwrLatClear a) s (fun e =>
      e.rd ((Reg.AR_PWR_LAT_ms.ix a).ix 0) = 600 ∧ e.rd ((Reg.AR_PWR_LAT_ms.ix a).ix 1) = 60000 ∧
      e.rd ((Reg.AR_PWR_LAT_ms.ix a).ix 2) = 72000 ∧ (e.arr a).longest = [] ∧
      Frame d e [(Reg.AR_PWR_LAT_ms.ix a).ix 0, (Reg.AR_PWR_LAT_ms.ix a).ix 1, (Reg.AR_PWR_LAT_ms.ix a).ix 2] [.lay])

/-- O54. Each command of the pack, the charger, the rest window and the gauge completes with its effect: the readings
and the coulomb count of a sample, an overvoltage inhibit, the current loop and the setpoint, DONE or FLOAT, the
restart in CC; an absent pack, NTC faults and the inhibit stop the charger; a rest point takes the anchor and
clears its causes; a window inhibits the charger until it ends; the filter step, the published bound and the mode
follow their formulas. Each changes only the fields named. -/
def Obligations.BatterySamplesAndHalo : Prop :=
  ∀ (p : PackSample) (n : Nat) (on byHost : Bool) (b : BattProfile) (s : State), n < 2 → s.dev.cells ≤ 4 →
    let d := s.dev
    let x := d.bps
    let chg := [Reg.BPS_CHG_STAT_inhibit, Reg.BPS_CHG_STAT_duty, Reg.BPS_CHG_STAT_state]
    let halo := [Reg.BPS_HALO_STAT_mode, Reg.BPS_HALO_STAT_causes, Reg.PWC_CEIL_E_mib, Reg.PWC_CEIL_IN_p_avail_w,
      Reg.PWC_CEIL_IN_p_dusk_w, Reg.PWC_CEIL_mib, Reg.PWC_CEIL_limit, Reg.PWC_STAT_mode]
    let learn := [Reg.BPS_LEARN_STAT_phase, Reg.BPS_LEARN_STAT_result, Reg.BPS_LEARN_STAT_reason]
    let temp (i : Nat) : Fld := if i = 0 then Reg.BPS_TEMP_ntc0 else Reg.BPS_TEMP_ntc1
    let bad (e : Dev) (i : Nat) : Bool := if i = 0 then e.bps.ntc0Bad else e.bps.ntc1Bad
    let inhibits (e : Dev) (i : Nat) : Bool := bitOf (e.rd Reg.BPS_CHG_STAT_inhibit) i
    let cause (e : Dev) (i : Nat) : Bool := bitOf (e.rd Reg.BPS_HALO_STAT_causes) i
    let state := d.rd Reg.BPS_CHG_STAT_state
    let spoilt (e : Dev) : Prop := 1 ≤ d.learnPhaseNo ∧ d.learnPhaseNo ≤ 4 → e.learnPhaseNo = 5 ∧
      e.rd Reg.BPS_LEARN_STAT_result = 3 ∧ e.rd Reg.BPS_LEARN_STAT_reason = 10 ∧ Raised e .bps 17
    Gives .packAbsent s (fun e =>
      e.rd Reg.BPS_PACK_present = 0 ∧ inhibits e 7 = true ∧ e.rd Reg.BPS_CHG_STAT_duty = 0 ∧
      e.rd Reg.BPS_HALO_STAT_mode = hmNone ∧ spoilt e ∧
      Frame d e (Reg.BPS_PACK_present :: chg ++ halo ++ learn) [.bps, .pwc, .sys]) ∧
    (d.packHere = false → Gives .packPresent s (fun e =>
      e.rd Reg.BPS_PACK_present = 1 ∧ cause e 5 = true ∧ e.bps.filt = d.filterEntry 5 ∧
      Frame d e (Reg.BPS_PACK_present :: chg ++ halo) [.bps, .pwc])) ∧
    (d.packHere = true → Gives .packPresent s (fun e => Frame d e [] [])) ∧
    Gives (.ntcFault n) s (fun e =>
      e.rd (temp n) = 0x8000 ∧ bad e n = true ∧
      (bad d (1 - n) = true → inhibits e 7 = true ∧ e.rd Reg.BPS_HALO_STAT_mode = hmNone) ∧
      Frame d e (temp n :: chg ++ halo) [.bps, .pwc]) ∧
    Gives (.packSample p) s (fun e =>
      e.bps.sample = p ∧ e.bps.qc = x.qc + p.current ∧ e.rd Reg.BPS_CUR_ma = codeOf 32 p.current ∧
      (∀ i, i < d.cells → e.rd (Reg.BPS_CELL_mv.ix i) = mvOf (p.cells.getD i 0)) ∧
      (-400 ≤ p.ntc0 ∧ p.ntc0 ≤ 1250 → e.rd Reg.BPS_TEMP_ntc0 = codeOf 16 p.ntc0 ∧ e.bps.ntc0Bad = false) ∧
      (p.ntc1 < -400 ∨ 1250 < p.ntc1 → e.rd Reg.BPS_TEMP_ntc1 = 0x8000 ∧ e.bps.ntc1Bad = true) ∧
      (d.batt = some b → (b.vMax : Int) * 10 < ((p.cells.take d.cells).max?).getD 0 → inhibits e 4 = true) ∧
      Frame d e ([Reg.BPS_CUR_ma, Reg.BPS_PACK_mv, Reg.BPS_TEMP_ntc0, Reg.BPS_TEMP_ntc1] ++
        (List.range d.cells).map Reg.BPS_CELL_mv.ix ++ chg ++ halo ++ learn) [.bps, .pwc, .sys]) ∧
    (d.charging = false → Gives .chargeLoop s (fun e => Frame d e [] []) ∧
      Gives .chargeSetpoint s (fun e => Frame d e [] [])) ∧
    (d.batt = some b → d.charging = true →
      (b.maxDuty < 2 ^ 16 → Gives .chargeLoop s (fun e =>
        let o := loopStep b.kp b.ki b.maxDuty x.iSet x.sample.current (d.rd Reg.BPS_CHG_STAT_duty) x.ePrev
        e.rd Reg.BPS_CHG_STAT_duty = o.1.toNat ∧ e.bps = { x with ePrev := o.2 } ∧
        Frame d e [Reg.BPS_CHG_STAT_duty] [.bps])) ∧
      Gives .chargeSetpoint s (fun e =>
        ((b.vFull : Int) < d.cellHigh / 10 → (b.iChg : Int) / 64 < x.iSet → e.bps.iSet = x.iSet - (b.iChg : Int) / 64) ∧
        (d.cellHigh / 10 + 10 < (b.vFull : Int) → x.iSet < b.iChg →
          e.bps.iSet = min (x.iSet + (b.iChg : Int) / 256) b.iChg) ∧
        (state ≠ chFloat → e.rd Reg.BPS_CHG_STAT_state = if e.bps.iSet = b.iChg then chCc else chCv) ∧
        Frame d e [Reg.BPS_CHG_STAT_state] [.bps])) ∧
    (d.batt = some b → state = chCc ∨ state = chCv → x.iSet ≤ b.iTerm → Gives .chargeDone s (fun e =>
      (b.floatMode = true → e.rd Reg.BPS_CHG_STAT_state = chFloat) ∧
      (b.floatMode = false → e.rd Reg.BPS_CHG_STAT_state = chDone ∧ e.rd Reg.BPS_CHG_STAT_duty = 0) ∧
      Frame d e [Reg.BPS_CHG_STAT_state, Reg.BPS_CHG_STAT_duty] [])) ∧
    (d.batt = some b → state = chDone → d.cellHigh < (b.vRestart : Int) * 10 → Gives .chargeRestart s (fun e =>
      e.rd Reg.BPS_CHG_STAT_state = chCc ∧ e.bps = { x with iSet := b.iChg, ePrev := 0 } ∧
      Frame d e [Reg.BPS_CHG_STAT_state] [.bps])) ∧
    (state ≠ chDone → Gives .chargeRestart s (fun e => Frame d e [] [])) ∧
    HostGives 0 .bps (.chargerInhibit on) s (fun e =>
      e.rd Reg.BPS_CHG_CTRL_inhibit = b2n on ∧ inhibits e 0 = on ∧ (on = true → e.rd Reg.BPS_CHG_STAT_duty = 0) ∧
      (on = false → d.rd Reg.BPS_CHG_STAT_inhibit = 1 → e.rd Reg.BPS_CHG_STAT_state = chCc) ∧
      Frame d e (Reg.BPS_CHG_CTRL_inhibit :: chg) [.bps]) ∧
    (x.restCand = none → Gives .restPoint s (fun e => Frame d e [] [])) ∧
    (d.batt = some b → x.restCand ≠ none → x.learnAsked = false → Gives .restPoint s (fun e =>
      e.bps.anchorS = b.ocvInv ((d.cellLow : Rat) / 10) d.tPack ∧
      e.bps.anchorU = b.anchorU ((d.cellLow : Rat) / 10) d.tPack ∧ e.bps.qc = 0 ∧ e.bps.qh = 0 ∧ e.bps.restCand = none ∧
      e.bps.restWindow = false ∧ e.rd Reg.BPS_REST_TS_ts = d.now % 2 ^ 64 ∧ (∀ i ∈ [0, 2, 3, 5, 6], cause e i = false) ∧
      Frame d e (Reg.BPS_REST_TS_ts :: chg ++ halo) [.bps, .pwc])) ∧
    (x.restWindow = false → d.learnPhaseNo = 0 → d.actRuns .learn 0xFF = false →
      (if byHost then HostGives 0 .bps else Gives) (.restWindowRequest byHost) s (fun e =>
        e.bps.restWindow = true ∧ inhibits e 2 = true ∧ e.rd Reg.BPS_CHG_STAT_duty = 0 ∧ Frame d e chg [.bps]) ∧
      Gives .restWindowCheck s (fun e => Frame d e [] []) ∧ Gives .restWindowEnd s (fun e => Frame d e [] [])) ∧
    (x.restWindow = true → (if byHost then HostGives 0 .bps else Gives) (.restWindowRequest byHost) s (fun e => Frame d e [] []) ∧
      (x.learnAsked = false → Gives .restWindowEnd s (fun e =>
        e.bps.restWindow = false ∧ inhibits e 2 = decide (2 ≤ d.learnPhaseNo ∧ d.learnPhaseNo ≤ 4) ∧
        Frame d e chg [.bps])) ∧
      (x.learnAsked = false → d.belowC100 = false → Gives .restWindowCheck s (fun e =>
        e.bps.restWindow = false ∧ Frame d e chg [.bps]))) ∧
    (d.haloMode ≠ hmFilter → Gives .filterStep s (fun e => Frame d e [] [])) ∧
    (d.batt = some b → d.haloMode = hmFilter → Gives .filterStep s (fun e =>
      0 ≤ e.bps.filt.soc ∧ e.bps.filt.soc ≤ 1 ∧ e.bps = { x with filt := e.bps.filt } ∧ Frame d e [] [.bps])) ∧
    (d.batt = some b → Gives .haloPublish s (fun e =>
      e.rd Reg.BPS_HALO_STAT_soc = hundredths d.socNow % 2 ^ 16 ∧
      e.rd Reg.BPS_HALO_U_u = min 0xFFFF (hundredths d.uncNow) ∧
      e.rd Reg.BPS_VOLT_v_min = b.n * b.vMin % 2 ^ 16 ∧
      (d.haloMode = hmNone → e.rd Reg.BPS_E_LOW_j = 0 ∧ e.rd Reg.BPS_VOLT_v_ocv = 0) ∧
      (∀ y, d.haloMode ≠ hmNone → d.duskProfile = some y → e.rd Reg.BPS_E_LOW_j =
        min (floorRat (b.eLow d.socNow d.uncNow d.qL d.uQ d.tPack y.pDusk)).toNat (2 ^ 32 - 1)) ∧
      (d.haloMode ≠ hmNone → (15 : Rat) / 100 < d.uncNow → cause e 6 = true) ∧
      Frame d e ([Reg.BPS_HALO_STAT_soc, Reg.BPS_HALO_U_u, Reg.BPS_HALO_U_u_q, Reg.BPS_VOLT_v_min, Reg.BPS_VOLT_v_ocv,
        Reg.BPS_E_LOW_j] ++ halo) [.bps, .pwc])) ∧
    Gives .haloFirstBound s (fun e =>
      e.bps.firstSecond = false ∧
      (d.batt = some b → d.packHere = true → d.anyAdc = true → x.ntc0Bad = false →
        e.rd Reg.BPS_HALO_STAT_mode = if d.inFilter then hmFilter else hmTable) ∧ Frame d e halo [.bps, .pwc]) ∧
    HostGives 0 .bps .gaugeReset s (fun e =>
      cause e 3 = true ∧ e.bps.filt = d.filterEntry 3 ∧ spoilt e ∧ Frame d e (chg ++ halo ++ learn) [.bps, .pwc, .sys])

/-- O55. A load step that nothing defers is judged: abandoned, rejected and counted, or accepted with its resistances;
a natural step likewise. LEARN waits for a rest window, is decided by the arbiter, and goes through its phases by
their ends; an abort disqualifies it with reason 8. A new pack takes the design capacity. A parameter record goes
to the unused slot, or is given up, or waits for good power. An ADC is untrusted; a round of two good ADCs is
accepted and ramped in, or untrusts the secondary; the 64th ramp step makes the coefficients live; held candidates
are released. -/
def Obligations.StepsLearnAndCalibration : Prop :=
  ∀ (m : StepMeas) (n k : Nat) (first second : Bool) (r : CalMeas) (b : BattProfile) (c : Cand) (s : State), n < 2 →
    let d := s.dev
    let x := d.bps
    let chg := [Reg.BPS_CHG_STAT_inhibit, Reg.BPS_CHG_STAT_duty, Reg.BPS_CHG_STAT_state]
    let halo := [Reg.BPS_HALO_STAT_mode, Reg.BPS_HALO_STAT_causes, Reg.PWC_CEIL_E_mib, Reg.PWC_CEIL_IN_p_avail_w,
      Reg.PWC_CEIL_IN_p_dusk_w, Reg.PWC_CEIL_mib, Reg.PWC_CEIL_limit, Reg.PWC_STAT_mode]
    let learn := [Reg.BPS_LEARN_STAT_phase, Reg.BPS_LEARN_STAT_result, Reg.BPS_LEARN_STAT_reason]
    let steps := [Reg.BPS_STEP_accepted, Reg.BPS_STEP_rejected, Reg.BPS_STEP_last, Reg.BPS_R_LAST_r0, Reg.BPS_R_LAST_r_dc,
      Reg.BPS_R_r0, Reg.BPS_R_r_dc]
    let cause (e : Dev) (i : Nat) : Bool := bitOf (e.rd Reg.BPS_HALO_STAT_causes) i
    let res (dv di : Int) : Int := roundRat (divRat ((dv * 10000 : Int) : Rat) (di : Rat))
    let r0 := res (m.vb - m.v1) (m.ib - m.i1)
    let rdc := res (m.vb - m.v200) (m.ib - m.i200)
    let good (di : Int) : Prop := (b.stepMa : Int) ≤ 2 * di ∧ 2 * di ≤ 3 * (b.stepMa : Int) ∧ m.varied = false ∧ r0 ≤ rdc
    let taken (e : Dev) : Prop := e.rd Reg.BPS_STEP_last = 1 ∧ e.rd Reg.BPS_R_LAST_r0 = r0.toNat % 2 ^ 16 ∧
      e.rd Reg.BPS_R_LAST_r_dc = rdc.toNat % 2 ^ 16 ∧ e.bps.r0s = (r0.toNat :: x.r0s).take 5 ∧
      e.rd Reg.BPS_STEP_accepted = min (d.rd Reg.BPS_STEP_accepted + 1) 0xFFFF
    let turned (e : Dev) : Prop := e.rd Reg.BPS_STEP_last = 2 ∧ Raised e .bps 19 ∧ e.bps.r0s = x.r0s ∧
      e.rd Reg.BPS_STEP_rejected = min (d.rd Reg.BPS_STEP_rejected + 1) 0xFF
    let state := d.rd Reg.BPS_CHG_STAT_state
    let full := state = chDone ∨ state = chFloat
    let held := d.calHeld = false ∧ x.ramp = none
    (d.batt = some b →
      (d.stepDeferred = true → Gives (.loadStep (some m)) s (fun e => Frame d e [] [])) ∧
      (d.stepDeferred = false →
        (d.sys.loadStepPin = false → Gives (.loadStep none) s (fun e =>
          e.rd Reg.BPS_STEP_last = 3 ∧ .loadStepPin true ∈ e.emitted ∧ .loadStepPin false ∈ e.emitted ∧
          e.bps.restCand = none ∧ Frame d e (Reg.BPS_STEP_last :: chg) [.bps, .sys])) ∧
        (good (m.ib - m.i200) → Gives (.loadStep (some m)) s (fun e => taken e ∧ Frame d e (steps ++ chg) [.bps, .sys])) ∧
        (¬ good (m.ib - m.i200) → Gives (.loadStep (some m)) s (fun e => turned e ∧ Frame d e (steps ++ chg) [.bps, .sys]))) ∧
      (good (m.i200 - m.ib) → Gives (.naturalStep m) s (fun e => taken e ∧ Frame d e steps [.bps])) ∧
      (¬ good (m.i200 - m.ib) → Gives (.naturalStep m) s (fun e => turned e ∧ Frame d e steps [])) ∧
      (d.learnPhaseNo = 0 → ∀ com ∈ [Instr.learnDue, .learnGo], (com = .learnGo → HostReaches d 0 .bps) →
        (x.restWindow = true → Gives com s (fun e => e.bps = { x with learnAsked := true } ∧ Frame d e [] [.bps])) ∧
        (x.restWindow = false → d.mnt.acts = [] → d.blocker .learn 0xFF = none → Gives com s (fun e =>
          e.learnPhaseNo = 1 ∧ cause e 1 = true ∧ e.mnt.acts = [⟨.learn, 0xFF, .running⟩] ∧
          Frame d e (Reg.BPS_LEARN_STAT_phase :: halo) [.bps, .mnt, .pwc])) ∧
        (∀ j, x.restWindow = false → d.mnt.acts = [] → d.blocker .learn 0xFF = some j → Gives com s (fun e =>
          e.mnt.acts = [⟨.learn, 0xFF, .deferred j⟩] ∧ Raised e .mnt 19 ∧ Frame d e [] [.mnt]))) ∧
      (d.learnPhaseNo = 1 → full → Gives .learnPhase s (fun e =>
        e.learnPhaseNo = 2 ∧ e.bps.tTopLow = d.tPack ∧ bitOf (e.rd Reg.BPS_CHG_STAT_inhibit) 2 = true ∧
        Frame d e (Reg.BPS_LEARN_STAT_phase :: chg) [.bps])) ∧
      (d.learnPhaseNo = 1 → ¬ full → Gives .learnPhase s (fun e => Frame d e [] [])) ∧
      (d.learnPhaseNo = 2 → x.restDone = true → Gives .learnPhase s (fun e =>
        (95 / 100 ≤ x.anchorS ∨ x.backToCharge = true →
          e.learnPhaseNo = 3 ∧ e.bps.sTop = x.anchorS ∧ e.bps.learnQ = 0) ∧
        (x.anchorS < 95 / 100 → x.backToCharge = false → e.learnPhaseNo = 1 ∧ e.bps.backToCharge = true) ∧
        Frame d e (Reg.BPS_LEARN_STAT_phase :: chg) [.bps])) ∧
      (d.learnPhaseNo = 3 → d.cellLow ≤ ((b.vMin : Int) + 100) * 10 → Gives .learnPhase s (fun e =>
        e.learnPhaseNo = 4 ∧ e.sys.dsgEnPin = false ∧ Frame d e (Reg.BPS_LEARN_STAT_phase :: chg) [.bps, .sys])) ∧
      (d.learnPhaseNo = 4 → x.restDone = true → Gives .learnPhase s (fun e =>
        e.learnPhaseNo = 5 ∧ Raised e .bps 17 ∧ (x.sTop - x.anchorS < 40 / 100 →
          e.rd Reg.BPS_LEARN_STAT_result = 2 ∧ e.rd Reg.BPS_LEARN_STAT_reason = 11 ∧ e.qL = d.qL) ∧
        Frame d e (Reg.BPS_Q_learned :: Reg.BPS_LEARN_TS_ts :: chg ++ learn) [.bps])) ∧
      (d.learnPhaseNo = 5 → full → Gives .learnPhase s (fun e =>
        e.learnPhaseNo = 0 ∧ cause e 1 = false ∧ e.actRuns .learn 0xFF = false ∧
        Frame d e (Reg.BPS_LEARN_STAT_phase :: chg ++ halo) [.bps, .mnt, .pwc]))) ∧
    (1 ≤ d.learnPhaseNo ∧ d.learnPhaseNo ≤ 4 → HostGives 0 .bps .learnAbort s (fun e =>
      e.learnPhaseNo = 5 ∧ e.rd Reg.BPS_LEARN_STAT_result = 3 ∧ e.rd Reg.BPS_LEARN_STAT_reason = 8 ∧
      e.sys.dsgEnPin = false ∧ Raised e .bps 17 ∧ Frame d e (chg ++ learn) [.bps, .sys])) ∧
    (d.learnPhaseNo = 0 ∨ d.learnPhaseNo = 5 → HostGives 0 .bps .learnAbort s (fun e => Frame d e [] [])) ∧
    HostGives 0 .bps .newPack s (fun e =>
      e.qL = d.rd Reg.BPS_Q_design % 2 ^ 16 ∧ e.bps.learned = false ∧ e.bps.qPend = 0 ∧ cause e 5 = true ∧
      (d.batt = none → Frame d e (Reg.BPS_Q_learned :: chg ++ halo ++ learn) [.bps, .pwc, .sys])) ∧
    (d.sys.pwrFailN = false ∨ d.sys.pwrGood = false → Gives (.paramWrite first second) s (fun e =>
      e.rd Reg.BPS_PARAM_pending = 1 ∧ Frame d e [Reg.BPS_PARAM_pending] [])) ∧
    (d.sys.pwrFailN = true → d.sys.pwrGood = true → Gives (.paramWrite first second) s (fun e =>
      let new := d.paramRecord ((d.paramSeq + 1) % 2 ^ 32)
      (first = true ∨ second = true → e.rdB Reg.BPS_PARAM_slot = !d.rdB Reg.BPS_PARAM_slot ∧ Raised e .bps 20 ∧
        (if d.rdB Reg.BPS_PARAM_slot then e.bps.slotA else e.bps.slotB) = some new) ∧
      (first = false → second = false → e.rd Reg.BPS_PARAM_slot = d.rd Reg.BPS_PARAM_slot ∧
        (if d.rdB Reg.BPS_PARAM_slot then e.bps.slotA else e.bps.slotB) = some { new with crcOk := false }) ∧
      e.rd Reg.BPS_PARAM_pending = 0 ∧ Frame d e [Reg.BPS_PARAM_pending, Reg.BPS_PARAM_slot, Reg.BPS_PARAM_seq,
        if d.rdB Reg.BPS_PARAM_slot then Reg.BPS_PARAM_a_ok else Reg.BPS_PARAM_b_ok] [.bps])) ∧
    (d.adcOk n = false → Gives (.adcUntrusted n) s (fun e => Frame d e [] [])) ∧
    (d.adcOk n = true → Gives (.adcUntrusted n) s (fun e =>
      e.adcOk n = false ∧ (d.primary = n → d.adcOk (1 - n) = true → e.primary = 1 - n) ∧
      e.rd Reg.BPS_CAL_STAT_result = 2 ∧ e.rd Reg.BPS_CAL_STAT_reason = 3 ∧ e.rd Reg.BPS_CAL_STAT_running = 0 ∧
      cause e 4 = true ∧ (d.adcOk (1 - n) = false → e.rd Reg.BPS_HALO_STAT_mode = hmNone) ∧
      Frame d e ([adcField n, Reg.BPS_ADC_primary, Reg.BPS_ADC_ramp, Reg.BPS_CAL_STAT_running, Reg.BPS_CAL_STAT_result,
        Reg.BPS_CAL_STAT_reason, Reg.BPS_CAL_STAT_held] ++ chg ++ halo ++ learn) [.bps, .pwc, .mnt, .sys])) ∧
    (∀ cal, x.bcal = some cal → d.batt = some b → d.rd Reg.BPS_CAL_STAT_running = 0 → held → d.mnt.acts = [] →
      d.blocker .calibrate 0xFF = none → d.adcOk 0 = true → d.adcOk 1 = true →
      let sec := 1 - d.primary
      (∀ a, adcCalibrate 4 r.attempts 1 = .inl a → d.implausible cal r (d.candidates cal r sec) = none →
        Gives (.calRound r) s (fun e =>
          e.bps.ramp = some (0, d.candidates cal r sec, true) ∧ e.rd Reg.BPS_CAL_STAT_result = 0 ∧
          e.rd Reg.BPS_ADC_ramp = 1 ∧ e.rd Reg.BPS_CAL_CNT_accepted = min (d.rd Reg.BPS_CAL_CNT_accepted + 1) 0xFFFF ∧
          Frame d e [Reg.BPS_CAL_STAT_result, Reg.BPS_CAL_STAT_reason, Reg.BPS_CAL_STAT_running, Reg.BPS_CAL_STAT_held,
            Reg.BPS_CAL_CNT_accepted, Reg.BPS_ADC_ramp, Reg.BPS_ADC_OFS_lsb.ix sec, Reg.BPS_ADC_GAIN_gain.ix sec]
            [.bps, .mnt])) ∧
      (∀ why, adcCalibrate 4 r.attempts 1 = .inr why → Gives (.calRound r) s (fun e =>
        e.adcOk sec = false ∧ e.rd Reg.BPS_CAL_STAT_result = 2 ∧ e.rd Reg.BPS_CAL_STAT_reason = why ∧
        e.rd Reg.BPS_CAL_STAT_running = 0))) ∧
    (∀ swap, x.ramp = some (k, c, swap) →
      (k + 1 < 64 → Gives .rampStep s (fun e => e.bps = { x with ramp := some (k + 1, c, swap) } ∧ Frame d e [] [.bps])) ∧
      (k + 1 = 64 → Gives .rampStep s (fun e =>
        let f := if c.adc = 0 then Reg.BPS_CH_OFS_adc0 else Reg.BPS_CH_OFS_adc1
        e.bps = { x with ramp := none } ∧ (∀ i, i < 7 → e.rd (f.ix i) = codeOf 16 (c.offsets.getD i 0)) ∧
        e.rd (Reg.BPS_CH_GAIN_gain.ix 4) = c.shuntGain.toNat % 2 ^ 32 ∧
        e.primary = (if swap then c.adc % 2 else d.primary) ∧ e.rd Reg.BPS_ADC_ramp = 0 ∧
        Frame d e ([Reg.BPS_CH_GAIN_gain.ix 4, Reg.BPS_ADC_primary, Reg.BPS_ADC_ramp, Reg.BPS_CAL_STAT_running] ++
          (List.range 7).map f.ix) [.bps, .mnt]))) ∧
    (x.ramp = none → Gives .rampStep s (fun e => Frame d e [] [])) ∧
    (x.heldCand = some c → held → Gives .calHoldRelease s (fun e =>
      e.bps.ramp = some (0, c, d.adcOk 0 && d.adcOk 1) ∧ e.bps.heldCand = none ∧ e.rd Reg.BPS_ADC_ramp = 1 ∧
      e.rd Reg.BPS_CAL_STAT_held = 0 ∧ Frame d e [Reg.BPS_ADC_ramp, Reg.BPS_CAL_STAT_held] [.bps])) ∧
    (x.heldCand = none ∨ ¬ held → Gives .calHoldRelease s (fun e => Frame d e [] []))

/-- O56. A power failure or brown-out in READY begins Dusk with its time and aborts busy commits; before admission it
leads to sleep with its reason; without main power it is recorded only. A start of Dusk ends every command and
activity and shows reason and time. A sealed Dusk stores the image and sleeps, or begins a warm Dawn where main
power is good and, after a thermal trip, every sensor has cooled. A die failure is counted, erasing adds to the
area, accept and discard act on a foreign image only, and the end of restore opens admission with every epoch
advanced. -/
def Obligations.DuskAndDawn : Prop :=
  ∀ (g die us bytes : Nat) (bad : RestoreBad) (x : Image) (s : State),
    let d := s.dev
    let chg := [Reg.BPS_CHG_STAT_inhibit, Reg.BPS_CHG_STAT_duty, Reg.BPS_CHG_STAT_state]
    let learn := [Reg.BPS_LEARN_STAT_phase, Reg.BPS_LEARN_STAT_result, Reg.BPS_LEARN_STAT_reason]
    let phase := Reg.BLK_STAT_specific.ix 0
    let halo := [Reg.BPS_HALO_STAT_mode, Reg.BPS_HALO_STAT_causes, Reg.PWC_CEIL_E_mib, Reg.PWC_CEIL_IN_p_avail_w,
      Reg.PWC_CEIL_IN_p_dusk_w, Reg.PWC_CEIL_mib, Reg.PWC_CEIL_limit, Reg.PWC_STAT_mode]
    let figures := [Reg.VLT_FIXED_bytes, Reg.VLT_RATE_mbps, Reg.VLT_RATE_measured_mbps, Reg.VLT_FREE_bytes, Reg.VLT_STAT_can_seal]
    let begun (e : Dev) (r : Nat) : Prop := e.phase = phDusk ∧ e.vlt.dusk = some (r, d.now) ∧
      (∀ b ∈ commitBlks, e.rd (Reg.COMMIT_STAT_busy.ix b.page) = 0 ∧ (d.rd (Reg.COMMIT_STAT_busy.ix b.page) ≠ 0 →
        e.rd (Reg.COMMIT_STAT_status.ix b.page) = 8)) ∧
      Frame d e (chg ++ learn ++ [phase, Reg.CCX_FW_STAT_busy, Reg.CCX_FW_STAT_result] ++
        commitBlks.flatMap fun b => [Reg.COMMIT_STAT_busy.ix b.page, Reg.COMMIT_STAT_status.ix b.page])
        [.sys, .bps, .vlt, .ccx, .mnt]
    let asleep (e : Dev) (r : Nat) : Prop := e.sys.sleeping = true ∧ e.sys.sleepReason = r ∧ e.sys.pdMain = false ∧
      e.phase = phReset ∧ e.vlt.dusk = none ∧ e.hif.link = .off
    let area := d.rd Reg.VLT_STAT_area
    (d.sys.pdMain = true → d.phase = phReady →
      Gives .pwrFail s (fun e => begun e 1 ∧ e.sys.pwrFailN = false ∧ bitOf (e.rd Reg.BPS_CHG_STAT_inhibit) 5 = true) ∧
      Gives .brownout s (fun e => begun e 2 ∧ e.sys.brownout = true)) ∧
    (d.sys.pdMain = true → d.phase ≤ phDawn →
      Gives .pwrFail s (fun e => asleep e 1 ∧ e.sys.pwrFailN = false) ∧
      Gives .brownout s (fun e => asleep e 2 ∧ e.sys.brownout = true)) ∧
    (d.sys.pdMain = false →
      Gives .pwrFail s (fun e => e.sys = { d.sys with pwrFailN := false } ∧ Frame d e [] [.sys]) ∧
      Gives .brownout s (fun e => e.sys = { d.sys with brownout := true } ∧ Frame d e [] [.sys])) ∧
    Gives .pwrFailGlitch s (fun e =>
      e.rd Reg.VLT_GLITCH_count = min (d.rd Reg.VLT_GLITCH_count + 1) (2 ^ 32 - 1) ∧ Frame d e [Reg.VLT_GLITCH_count] []) ∧
    (d.sys.waitFail = false → d.sys.pdMain = true → Gives .pwrFailRelease s (fun e =>
      e.sys.pwrFailN = true ∧ bitOf (e.rd Reg.BPS_CHG_STAT_inhibit) 5 = (!d.sys.pwrGood || d.vlt.dusk.isSome) ∧
      Frame d e chg [.sys, .bps])) ∧
    (d.sys.pwrGood = false → Gives .pwrGoodFall s (fun e => Frame d e [] [])) ∧
    (d.sys.pwrGood = true → d.sys.pdMain = true → Gives .pwrGoodFall s (fun e =>
      e.sys.pwrGood = false ∧ bitOf (e.rd Reg.BPS_CHG_STAT_inhibit) 5 = true ∧
      (d.sys.pwrFailN = true → d.vlt.dusk = none → d.phase = phReady →
        bitOf (e.rd Reg.BPS_HALO_STAT_causes) 2 = true) ∧ Frame d e (chg ++ halo) [.sys, .bps, .pwc])) ∧
    (d.vlt.dusk = none → Gives .duskStart s (fun e => Frame d e [] []) ∧ Gives (.duskSealed us) s (fun e => Frame d e [] [])) ∧
    (∀ r t, d.vlt.dusk = some (r, t) → d.vlt.duskStarted = false → Gives .duskStart s (fun e =>
      e.vlt.duskStarted = true ∧ e.vlt.writing ≠ none ∧ e.qmx.cmds = [] ∧ e.mnt.acts = [] ∧ e.smc.sets = [] ∧
      e.ece.jobs = [] ∧ e.hif.link = .abandoned ∧ e.rd Reg.VLT_LAST_reason = r % 2 ^ 4 ∧
      e.rd Reg.VLT_LAST_TS_ts = t % 2 ^ 64 ∧ e.vlt.noSeal = (decide (d.rd Reg.VLT_STAT_usable = 0) || d.pwc.bothLost))) ∧
    (d.vlt.duskStarted = true → g < d.rd Reg.VLT_STAT_groups → die < 16 → (g, die) ∉ d.vlt.failedDies →
      Gives (.vaultDieFail g die) s (fun e =>
        e.vlt = { d.vlt with failedDies := (g, die) :: d.vlt.failedDies } ∧
        e.rd Reg.VLT_LAST_dies_failed = (d.vlt.failedDies.length + 1) % 2 ^ 8 ∧
        Frame d e [Reg.VLT_LAST_dies_failed] [.vlt])) ∧
    (∀ r t, d.vlt.dusk = some (r, t) → d.vlt.writing = some x →
      let wake := if d.rd Reg.SYS_THERM_STAT_step = 4 then 3 else r
      let done : Image := { x with duskUs := us, diesFailed := d.vlt.failedDies.length }
      (d.mainGood wake = false ∨ d.pwc.bothLost = true → Gives (.duskSealed us) s (fun e => asleep e r ∧
        e.rd Reg.VLT_LAST_DUSK_us = us % 2 ^ 32 ∧ (d.vlt.noSeal = true → e.vlt.area0 = d.vlt.area0 ∧ e.vlt.area1 = d.vlt.area1) ∧
        (d.vlt.noSeal = false → (e.area area).sealA = true ∧ (e.area area).sealB = true ∧
          (e.area area).image = some done))) ∧
      (d.mainGood wake = true → d.pwc.bothLost = false → Gives (.duskSealed us) s (fun e =>
        e.phase = phDawn ∧ e.vlt.dawn = some done ∧ e.vlt.dawnWarm = true ∧ e.vlt.dusk = none ∧
        e.rd Reg.VLT_LAST_result = 1))) ∧
    (d.vlt.foreignWait = false → HostGives 0 .vlt .vaultAccept s (fun e => Raised e .vlt 3 ∧ Frame d e [] []) ∧
      HostGives 0 .vlt .vaultDiscard s (fun e => Raised e .vlt 3 ∧ Frame d e [] [])) ∧
    (d.vlt.foreignWait = true → HostGives 0 .vlt .vaultDiscard s (fun e =>
      e.vlt.foreignWait = false ∧ e.vlt.dawn = none ∧ e.phase = phReady) ∧
      (∀ n o, d.newestArea = some (n, o) → (d.area n).image = some x → HostGives 0 .vlt .vaultAccept s (fun e =>
        e.vlt = { d.vlt with dawn := some x, foreignWait := false } ∧ e.qmx.adm = x.adm))) ∧
    (d.vlt.dawn = none → Gives (.dawnRestoreDone bad) s (fun e => Frame d e [] [])) ∧
    (d.vlt.dawn = some x →
      (d.vlt.dawnWarm = false → bad.control = true → Gives (.dawnRestoreDone bad) s (fun e =>
        e.phase = phReady ∧ e.vlt.dawn = none ∧ e.rd Reg.VLT_LAST_result = 2 ∧ Raised e .vlt 18)) ∧
      (d.vlt.dawnWarm = true ∨ bad.control = false → Gives (.dawnRestoreDone bad) s (fun e =>
        e.phase = phReady ∧ e.vlt.dawn = none ∧ e.vlt.dawnWarm = false ∧
        ∀ f, f < 65 → e.rd (Reg.HIF_FN_STAT_epoch.ix f) = (x.epochs.getD f 0 + 1) % 2 ^ Reg.HIF_FN_STAT_epoch.width))) ∧
    (d.rd Reg.VLT_STAT_erasing = 0 → Gives (.vaultErase bytes true) s (fun e => Frame d e [] [])) ∧
    (∀ done, d.rd Reg.VLT_STAT_erasing ≠ 0 → Gives (.vaultErase bytes done) s (fun e =>
      (e.area area).erased = min d.areaBytes ((d.area area).erased + bytes) ∧
      (done = true → e.rd Reg.VLT_STAT_erasing = 0 ∧ Raised e .vlt 20) ∧
      Frame d e (Reg.VLT_STAT_erasing :: figures) [.vlt]))

/-- O57. VDD_AON gives every field its reset value but those kept. A start from PWR_GOOD, from the end of a power
failure, from sleep or from HOLD ends in HOLD, FAILED, TRAIN with the preferred or the other image, or NO_IMAGE.
Trained DRAM without an image opens admission; with both groups lost there is no Dawn. The background check records
the other image's result and advances the fuses. A lost PE_REFCLK changes the source, a lost DP_REFCLK is a brown-
out. A thermal sample keeps the hottest sensor and the peak; a throttle step whose threshold holds takes effect,
and step 4 begins Dusk. -/
def Obligations.StartUpClocksAndThermal : Prop :=
  ∀ (b : BootInput) (img : FwImage) (trained : List Bool) (gib : List Nat) (temps : List Int) (step : Nat) (s : State),
    let d := s.dev
    let straps := [Reg.SYS_STRAP_boot_mode, Reg.SYS_STRAP_smb_addr]
    let kept := [Reg.VLT_GLITCH_count, Reg.SYS_CLK_dp_ref_lost, Reg.SYS_SVN_fuse, Reg.SYS_CLK_ref_src, Reg.TMB_TRIM_trim,
      Reg.TMB_STAT_state] ++ commitBlks.map fun k => Reg.COMMIT_STAT_status.ix k.page
    let pref := bootPreferB b
    let image (isB : Bool) : FwImage := if isB then b.imageB else b.imageA
    let result (fuse : Nat) (isB : Bool) : Nat := imageResult fuse (image isB)
    let tested := b.otherOk = true ∧ 2 ≤ (bootPairs b).length
    let ran (e : Dev) (isB : Bool) : Prop := e.phase = phTrain ∧ e.rdB Reg.SYS_BOOT_running = isB ∧
      e.rd Reg.SYS_FW_VER_version = (image isB).version % 2 ^ 32
    let ends (e : Dev) (fuse : Nat) : Prop := (¬ tested → e.phase = phFailed) ∧
      (tested → result fuse pref = imgOk → ran e pref) ∧
      (tested → result fuse pref ≠ imgOk → result fuse (!pref) = imgOk → ran e (!pref)) ∧
      (tested → result fuse pref ≠ imgOk → result fuse (!pref) ≠ imgOk → e.phase = phNoImage)
    let started (e : Dev) : Prop := e.sys.pdMain = true ∧ (b.bootMode % 4 = 3 → e.phase = phHold) ∧
      (b.bootMode % 4 ≠ 3 → ends e (max (d.rd Reg.SYS_SVN_fuse % 2 ^ 6) (Config.fuseSvn % 64)))
    let here (c : Nat) : Prop := gib.getD c 0 ≠ 0
    Gives .vddAonApplied s (fun e =>
      (∀ f : Fld, (∀ k ∈ kept, f.key ≠ k.key) → stateKey f.key = false → e.rd f = f.reset) ∧ e.sys.pwrGood = false ∧
      e.sys.pdMain = false ∧ e.tmb.aonSec = 0 ∧ e.vlt.area0 = d.vlt.area0 ∧ e.vlt.area1 = d.vlt.area1 ∧ e.qmx = {} ∧
      e.dram = {} ∧ e.rd Reg.VLT_GLITCH_count = 0 ∧ e.rd Reg.SYS_SVN_fuse = d.rd Reg.SYS_SVN_fuse % 2 ^ 6) ∧
    (d.sys.pwrGood = true → Gives (.pwrGoodRise b) s (fun e => Frame d e [] [])) ∧
    (d.sys.pwrGood = false → d.sys.sleeping = true → Gives (.pwrGoodRise b) s (fun e =>
      e.sys.pwrGood = true ∧ e.rd Reg.SYS_STRAP_boot_mode = b.bootMode % 4 ∧ Frame d e straps [.sys])) ∧
    (d.sys.pwrGood = false → d.sys.sleeping = false → d.sys.pdMain = false →
      (d.sys.pwrFailN = true → Gives (.pwrGoodRise b) s started) ∧
      (d.sys.pwrFailN = false → Gives (.pwrGoodRise b) s (fun e =>
        e.sys.waitFail = true ∧ e.sys.bootInput = some b ∧ Frame d e straps [.sys]))) ∧
    (d.sys.waitFail = true → d.sys.pwrGood = true → d.sys.bootInput = some b → Gives .pwrFailRelease s started) ∧
    (d.sys.sleeping = true → d.sys.pwrGood = true → d.sys.pwrFailN = true → d.sys.sleepReason ≠ 3 ∨ d.thermalOk = true →
      Gives (.sleepExit b) s started) ∧
    (d.sys.sleeping = false → Gives (.sleepExit b) s (fun e => Frame d e [] [])) ∧
    (d.sys.pdMain = true → d.phase = phHold → Gives (.holdRelease b) s (fun e => ends e (d.rd Reg.SYS_SVN_fuse))) ∧
    (d.phase ≠ phHold → Gives (.holdRelease b) s (fun e => Frame d e [] [])) ∧
    (d.phase ≠ phTrain → Gives (.dramTrainingDone trained gib) s (fun e => Frame d e [] [])) ∧
    (d.phase = phTrain →
      ((∀ c, c < 12 → here c ∧ trained.getD c false = true) → d.newestArea = none →
        Gives (.dramTrainingDone trained gib) s (fun e => e.phase = phReady ∧ e.rd Reg.VLT_LAST_result = 0 ∧
          ∀ c, c < 12 → e.chanState c = chanOk)) ∧
      ((∀ c, c < 12 → here c ∧ trained.getD c false = false) → Gives (.dramTrainingDone trained gib) s (fun e =>
        e.phase = phTrain ∧ e.pwc.bothLost = true ∧ ∀ c, c < 12 → e.chanState c = chanLost))) ∧
    (let other := if d.rdB Reg.SYS_BOOT_running then Reg.SYS_BOOT_a_result else Reg.SYS_BOOT_b_result
     let r := imageResult (d.rd Reg.SYS_SVN_fuse) img
     d.phase = phReady → d.rd other = 0 → d.rdB Reg.SYS_BOOT_preferred = d.rdB Reg.SYS_BOOT_running →
      Gives (.imageBackgroundCheck img) s (fun e => e.rd other = r ∧
        (r = imgOk → e.rd Reg.SYS_SVN_fuse =
          max (d.rd Reg.SYS_SVN_fuse) (min img.svn (d.rd Reg.SYS_SVN_image)) % 2 ^ 6) ∧
        (r ≠ imgOk → e.rd Reg.SYS_SVN_fuse = d.rd Reg.SYS_SVN_fuse) ∧ Frame d e [other, Reg.SYS_SVN_fuse] [])) ∧
    (d.phase ≠ phReady → Gives (.imageBackgroundCheck img) s (fun e => Frame d e [] [])) ∧
    (∀ lost com, (lost, com) ∈ [(true, Instr.peRefclkLost), (false, Instr.peRefclkRestored)] →
      (d.sys.refclk = !lost → Gives com s (fun e => Frame d e [] [])) ∧
      (d.sys.refclk = lost → d.sys.pdMain = true → Gives com s (fun e =>
        e.sys = { d.sys with refclk := !lost } ∧ e.rd Reg.SYS_CLK_ref_src = b2n lost ∧ Raised e .sys 18 ∧
        Frame d e [Reg.SYS_CLK_ref_src] [.sys]))) ∧
    (d.sys.pdMain = true → d.sys.dpRefclk = true → d.phase = phReady → Gives .dpRefclkLost s (fun e =>
      e.rd Reg.SYS_CLK_dp_ref_lost = 1 ∧ e.sys.dpRefclk = false ∧ e.sys.brownout = true ∧ e.phase = phDusk ∧
      e.vlt.dusk = some (2, d.now))) ∧
    (d.sys.pdMain = false ∨ d.sys.dpRefclk = false → Gives .dpRefclkLost s (fun e => Frame d e [] [])) ∧
    Gives (.thermalSample temps) s (fun e =>
      (∀ i, i < 8 → e.rd (Reg.SYS_TEMP_temp.ix i) = codeOf 16 (temps.getD i 0) ∧ e.sensor i ≤ e.tMax) ∧
      signedOf 16 (e.rd Reg.SYS_THERM_MAX_peak) = max (signedOf 16 (d.rd Reg.SYS_THERM_MAX_peak)) e.tMax ∧
      Frame d e (Reg.SYS_THERM_STAT_hottest :: Reg.SYS_THERM_MAX_peak :: (List.range 8).map Reg.SYS_TEMP_temp.ix) []) ∧
    (d.sys.pdMain = false ∨ d.stepHolds step = false → Gives (.throttleStep step) s (fun e => Frame d e [] [])) ∧
    (d.sys.pdMain = true → d.stepHolds step = true →
      (step < 4 → Gives (.throttleStep step) s (fun e =>
        e.rd Reg.SYS_THERM_STAT_step = step ∧ Raised e .sys 17 ∧ Frame d e [Reg.SYS_THERM_STAT_step] [])) ∧
      (step = 4 → d.phase = phReady → Gives (.throttleStep step) s (fun e =>
        e.rd Reg.SYS_THERM_STAT_step = 4 ∧ Raised e .sys 17 ∧ e.phase = phDusk ∧ e.vlt.dusk = some (3, d.now))))

/-- O58. A mismatch of the standby pair sends it to its test; one of an active pair moves its roles to the standby
pair, else to the other active pair, else CCX is in FAULT. A store loss is counted and rolls the role back; a
checkpoint alternates. A test that fails excludes the pair, one that passes makes it standby, or active where none
else is. A retest sends an EXCLUDED pair to its test. A firmware write and an activation are refused with their
results, or run and end with theirs. -/
def Obligations.ControlCores : Prop :=
  ∀ (p q stall role bits us : Nat) (img : FwImage) (s : State), p < 3 → role < 2 →
    let d := s.dev
    let c := d.ccx
    let pairs := (List.range 3).map Reg.CCX_PAIR_state.ix
    let counted := [Reg.CCX_PAIR_mismatches.ix p, Reg.CCX_PAIR_HI_last_sec.ix p]
    let fw := [Reg.CCX_FW_STAT_busy, Reg.CCX_FW_STAT_result]
    let more (e : Dev) : Prop := e.rd (Reg.CCX_PAIR_mismatches.ix p) = min (d.rd (Reg.CCX_PAIR_mismatches.ix p) + 1) 0xFFFF
    let mv (to_ : Nat) (r : Option Nat) : Option Nat := if r = some p then some to_ else r
    let moved (e : Dev) : Prop := e.ccx.role0 = mv q c.role0 ∧ e.ccx.role1 = mv q c.role1 ∧ Raised e .ccx 16 ∧
      e.pairState p = cpTesting ∧ e.pairState q = cpActive ∧ more e ∧ Frame d e (pairs ++ counted ++ fw) [.ccx, .mnt]
    let wait : Prop := c.fwOp = .idle ∧ d.phase = phReady ∧ d.blkState .ccx ≠ stFault
    let r := imageResult (d.rd Reg.SYS_SVN_fuse) img
    let off := d.rd Reg.CCX_FW_SRC_offset
    let len := d.rd Reg.CCX_FW_LEN_bytes
    let fits := len ≤ 14 * 2 ^ 20 ∧ off % 4096 = 0 ∧ off + len ≤ d.rd Reg.PWC_SCRATCH_mib * 2 ^ 20
    let fwSays (com : Instr) (x : Nat) (loud : Bool) : Prop := HostGives 0 .ccx com s (fun e => e.rd Reg.CCX_FW_STAT_result = x ∧
      (loud = true → Raised e .ccx 3) ∧ Frame d e [Reg.CCX_FW_STAT_result] [])
    (d.pairState p = cpStandby → Gives (.pairMismatch p stall) s (fun e =>
      e.pairState p = cpTesting ∧ more e ∧ Frame d e (Reg.CCX_PAIR_state.ix p :: counted) [.ccx])) ∧
    (d.pairState p = cpTesting ∨ d.pairState p = cpExcluded → Gives (.pairMismatch p stall) s (fun e => Frame d e [] [])) ∧
    (d.pairState p = cpActive →
      (d.pairsIn cpStandby = [q] → Gives (.pairMismatch p stall) s moved) ∧
      (d.pairsIn cpStandby = [] → q ≠ p → d.pairState q = cpActive → q < 3 → (∀ n, n < 3 → n ≠ p → n ≠ q → d.pairState n ≠ cpActive) →
        Gives (.pairMismatch p stall) s moved) ∧
      (d.pairsIn cpStandby = [] → d.pairsIn cpActive = [p] → Gives (.pairMismatch p stall) s (fun e =>
        e.blkState .ccx = stFault ∧ e.ccx.role0 = none ∧ e.ccx.role1 = none ∧ Raised e .ccx 19))) ∧
    (d.holder role = none → Gives (.storeUncorrectable role stall) s (fun e => Frame d e [] []) ∧
      Gives (.checkpoint role) s (fun e => Frame d e [] [])) ∧
    (d.holder role ≠ none →
      Gives (.storeUncorrectable role stall) s (fun e =>
        e.rd Reg.CCX_STORE_uncorr = min (d.rd Reg.CCX_STORE_uncorr + 1) 0xFFFF ∧ Raised e .ccx 16 ∧
        Frame d e (Reg.CCX_STORE_uncorr :: fw) [.ccx, .mnt]) ∧
      Gives (.checkpoint role) s (fun e =>
        e.ccx = { c with checkpoints := Tbl.put c.checkpoints role (Tbl.getD c.checkpoints role 0 + 1) } ∧
        Frame d e [] [.ccx])) ∧
    (d.pairState p ≠ cpTesting → ∀ ok, Gives (.pairTestDone p ok) s (fun e => Frame d e [] [])) ∧
    (d.pairState p = cpTesting →
      Gives (.pairTestDone p false) s (fun e => e.pairState p = cpExcluded ∧ Raised e .ccx 17 ∧
        Frame d e [Reg.CCX_PAIR_state.ix p] [.ccx]) ∧
      (Tbl.getD c.mismatchTimes p [] = [] → Gives (.pairTestDone p true) s (fun e => Raised e .ccx 18 ∧
        (2 ≤ (d.pairsIn cpStandby ++ d.pairsIn cpActive).length → e.pairState p = cpStandby ∧ e.ccx.role1 = c.role1) ∧
        ((d.pairsIn cpStandby ++ d.pairsIn cpActive).length ≤ 1 → d.blkState .ccx ≠ stFault →
          e.pairState p = cpActive ∧ e.ccx.role1 = some p) ∧ Frame d e [Reg.CCX_PAIR_state.ix p] [.ccx]))) ∧
    HostGives 0 .ccx (.pairRetest bits) s (fun e =>
      (∀ n, n < 3 → e.pairState n = if bitOf bits n && decide (d.pairState n = cpExcluded) then cpTesting else d.pairState n) ∧
      Frame d e pairs [.ccx]) ∧
    (c.fwOp ≠ .idle → fwSays .fwWrite 8 true) ∧
    (c.fwOp = .idle → ¬ fits → fwSays .fwWrite 7 false) ∧
    (c.fwOp = .idle → fits → HostGives 0 .ccx .fwWrite s (fun e =>
      e.ccx = { c with fwOp := .writing } ∧ e.rd Reg.CCX_FW_STAT_busy = 1 ∧ e.rd Reg.CCX_FW_STAT_op = 1 ∧
      .spiImage d.otherSlotB off len ∈ e.emitted ∧ Frame d e [Reg.CCX_FW_STAT_busy, Reg.CCX_FW_STAT_op] [.ccx])) ∧
    (∀ ok, c.fwOp ≠ .writing → Gives (.fwWriteDone img ok) s (fun e => Frame d e [] [])) ∧
    (∀ ok, c.fwOp = .writing → Gives (.fwWriteDone img ok) s (fun e =>
      e.ccx = { c with fwOp := .idle } ∧ e.rd Reg.CCX_FW_STAT_result = (if ok then r else 6) ∧
      e.rd Reg.CCX_FW_STAT_busy = 0 ∧ Raised e .ccx 20 ∧ Frame d e fw [.ccx])) ∧
    (c.fwOp ≠ .idle → fwSays (.fwActivate img) 8 true) ∧
    (c.fwOp = .idle → d.phase ≠ phReady → fwSays (.fwActivate img) 9 true) ∧
    (c.fwOp = .idle → d.phase = phReady → d.blkState .ccx = stFault → fwSays (.fwActivate img) 10 true) ∧
    (wait → d.pairsIn cpStandby = [] → fwSays (.fwActivate img) 11 true) ∧
    (wait → d.pairsIn cpStandby ≠ [] → r ≠ imgOk → fwSays (.fwActivate img) r false) ∧
    (wait → d.pairsIn cpStandby ≠ [] → r = imgOk → d.mnt.acts = [] → d.blocker .fwActivate 0xFF = none →
      HostGives 0 .ccx (.fwActivate img) s (fun e =>
        e.ccx = { c with fwOp := .activating, fwPicked := some img } ∧ e.rd Reg.CCX_FW_STAT_busy = 1 ∧
        e.rd Reg.CCX_FW_STAT_op = 2 ∧ e.actRuns .fwActivate 0xFF = true ∧
        Frame d e [Reg.CCX_FW_STAT_busy, Reg.CCX_FW_STAT_op] [.ccx, .mnt])) ∧
    (c.fwOp ≠ .activating → Gives (.fwActivationDone (.done us)) s (fun e => Frame d e [] [])) ∧
    (c.fwOp = .activating → c.fwPicked = some img →
      Gives (.fwActivationDone (.done us)) s (fun e =>
        e.rdB Reg.SYS_BOOT_running = d.otherSlotB ∧ e.rdB Reg.SYS_BOOT_preferred = d.otherSlotB ∧
        e.rd Reg.SYS_FW_VER_version = img.version % 2 ^ 32 ∧ e.rd Reg.CCX_FW_STAT_pause_us = min us 200 ∧
        e.rd Reg.CCX_FW_STAT_result = 1 ∧ e.ccx = { c with fwOp := .idle, fwPicked := none } ∧
        e.actRuns .fwActivate 0xFF = false ∧ Frame d e ([Reg.SYS_BOOT_running, Reg.SYS_BOOT_preferred,
          Reg.SYS_FW_VER_version, Reg.SYS_SVN_image, Reg.CCX_FW_STAT_pause_us] ++ fw) [.ccx, .mnt]) ∧
      Gives (.fwActivationDone (.slotFails bits)) s (fun e => e.rd Reg.CCX_FW_STAT_result = bits % 2 ^ 4 ∧
        e.ccx = { c with fwOp := .idle, fwPicked := none } ∧ Frame d e fw [.ccx, .mnt]) ∧
      Gives (.fwActivationDone .roleFailsStep2) s (fun e => e.rd Reg.CCX_FW_STAT_result = 12 ∧
        e.ccx = { c with fwOp := .idle, fwPicked := none } ∧ Frame d e fw [.ccx, .mnt]) ∧
      Gives (.fwActivationDone (.roleFailsStep3 us)) s (fun e => e.rd Reg.CCX_FW_STAT_result = 12 ∧
        e.rd Reg.CCX_FW_STAT_pause_us = min us 200 ∧ Frame d e (Reg.CCX_FW_STAT_pause_us :: fw) [.ccx, .mnt]))

/-- O59. An edge that is not captured changes nothing. In ACQUIRE an edge steps the count to a whole second, or to the
pending one, and locks. In LOCKED an edge within 2 ms disciplines the trim and sets the slew; another is only
counted. A third missed pulse leads to HOLDOVER. A wrap without a pending value adds one second and reloads the AON
count. arm holds the seconds value; pps_en leads to FREE and to ACQUIRE. -/
def Obligations.TimebaseEdges : Prop :=
  ∀ (jitter : Int) (falling on : Bool) (s : State),
    let d := s.dev
    let t := d.tmb
    let st := d.rd Reg.TMB_STAT_state
    let used := d.ppsOn = true ∧ d.rdB Reg.TMB_CFG_edge = falling
    let cap : Int := t.sec * 1000000000 + t.ns + clampInt (-8) 8 jitter - d.ppsDelay
    let n := cap % 1000000000
    let err := if n < 500000000 then n else n - 1000000000
    let f := (err * 2 ^ 32).tdiv 250000000
    let trim := clampInt (-trimMax) trimMax (d.trim - f.tdiv 8)
    let whole := ((cap + 500000000) / 1000000000 % (2 ^ 34 : Nat)).toNat
    (d.ppsOn = false ∨ d.rdB Reg.TMB_CFG_edge ≠ falling → Gives (.ppsEdge falling jitter) s (fun e => Frame d e [] [])) ∧
    (used → st = tmAcquire → Gives (.ppsEdge falling jitter) s (fun e =>
      e.tmb.sec = t.setPending.getD whole % 2 ^ 34 ∧ e.tmb.ns = d.ppsDelay ∧ e.rd Reg.TMB_STAT_state = tmLocked ∧
      e.rd Reg.TMB_STAT_missed = 0 ∧ e.tmb.setPending = none ∧ e.tmb.slewLeft = 0 ∧ Raised e .tmb 17 ∧ Raised e .tmb 18 ∧
      (t.setPending ≠ none → e.rd Reg.TMB_SET_CTRL_applied = 1 ∧ Raised e .tmb 19) ∧
      e.rd Reg.TMB_CNT_steps = min (d.rd Reg.TMB_CNT_steps + 1) 0xFFFF ∧ e.rd Reg.TMB_PPS_ERR_e_ns = codeOf 32 err ∧
      Frame d e [Reg.TMB_STAT_state, Reg.TMB_STAT_missed, Reg.TMB_PPS_ERR_e_ns, Reg.TMB_PPS_TS_ts, Reg.TMB_CNT_steps,
        Reg.TMB_SET_CTRL_pending, Reg.TMB_SET_CTRL_applied] [.tmb])) ∧
    (used → st = tmLocked → err.natAbs ≤ 2000000 → t.setPending = none → Gives (.ppsEdge falling jitter) s (fun e =>
      e.rd Reg.TMB_TRIM_trim = codeOf 32 trim ∧ e.tmb.slew = -f ∧ e.tmb.slewLeft = ticksPerSec ∧
      e.tmb.sec = t.sec ∧ e.tmb.ns = t.ns ∧ e.rd Reg.TMB_STAT_state = tmLocked ∧ e.rd Reg.TMB_STAT_missed = 0 ∧
      Frame d e [Reg.TMB_STAT_state, Reg.TMB_STAT_missed, Reg.TMB_PPS_ERR_e_ns, Reg.TMB_PPS_TS_ts, Reg.TMB_TRIM_trim]
        [.tmb])) ∧
    (used → st = tmLocked → 2000000 < err.natAbs → Gives (.ppsEdge falling jitter) s (fun e =>
      e.rd Reg.TMB_CNT_outliers = min (d.rd Reg.TMB_CNT_outliers + 1) 0xFFFF ∧
      Frame d e [Reg.TMB_PPS_ERR_e_ns, Reg.TMB_CNT_outliers] [])) ∧
    (d.ppsOn = false ∨ st ≠ tmLocked → Gives .ppsMiss s (fun e => Frame d e [] [])) ∧
    (d.ppsOn = true → st = tmLocked →
      (d.rd Reg.TMB_STAT_missed < 2 → Gives .ppsMiss s (fun e =>
        e.rd Reg.TMB_STAT_missed = d.rd Reg.TMB_STAT_missed + 1 ∧ e.rd Reg.TMB_STAT_state = tmLocked ∧
        Frame d e [Reg.TMB_STAT_missed] [])) ∧
      (2 ≤ d.rd Reg.TMB_STAT_missed → Gives .ppsMiss s (fun e =>
        e.rd Reg.TMB_STAT_state = tmHoldover ∧ e.tmb.slewLeft = 0 ∧ Raised e .tmb 16 ∧
        Frame d e [Reg.TMB_STAT_missed, Reg.TMB_STAT_state] [.tmb]))) ∧
    (d.sys.pdMain = false → Gives .secondWrap s (fun e => Frame d e [] [])) ∧
    (d.sys.pdMain = true → t.ns < 1000000000 → t.frac < 2 ^ 34 → t.slewLeft = 0 → t.setPending = none → t.sec < 2 ^ 34 →
      Gives .secondWrap s (fun e =>
        e.tmb.sec = (t.sec + 1) % 2 ^ 34 ∧ e.tmb.ns < 1000000000 ∧ e.tmb.aonSec = e.tmb.sec ∧ e.tmb.aonSub = 0 ∧
        e.ticks = d.ticks + d.ticksToWrap ∧ Frame d e [Reg.PWC_STALL_US_us] [.tmb, .pwc])) ∧
    HostGives 0 .tmb .timeSetArm s (fun e =>
      e.tmb = { t with setPending := some (d.rd Reg.TMB_SET_SEC_sec), armDue := d.ticks + 375000000 } ∧
      e.rd Reg.TMB_SET_CTRL_pending = 1 ∧ Frame d e [Reg.TMB_SET_CTRL_pending] [.tmb]) ∧
    HostGives 0 .tmb (.ppsEnable on) s (fun e =>
      e.rd Reg.TMB_CFG_pps_en = b2n on ∧ (on = false → e.rd Reg.TMB_STAT_state = tmFree ∧ e.rd Reg.TMB_STAT_missed = 0) ∧
      (on = true → st = tmFree → d.blkState .tmb ≠ stOff → d.sys.pdMain = true → e.rd Reg.TMB_STAT_state = tmAcquire) ∧
      (on = true → st ≠ tmFree → e.rd Reg.TMB_STAT_state = st) ∧
      Frame d e [Reg.TMB_CFG_pps_en, Reg.TMB_STAT_state, Reg.TMB_STAT_missed] [.tmb])

/-- O60. Arming is refused while the channel is OFF or its set armed; a running channel keeps the set armed; an idle
one loads it, with an error where the check finds one. resume clears an error; disable drops the channel and enable
brings it back. A finished set between SCRATCH and MAILBOX leaves at its destination the bytes of its source, every
other byte as before, and counts; an early end leaves the bytes moved. An end that is not due changes nothing. -/
def Obligations.BulkMoves : Prop :=
  ∀ (c err moved : Nat) (s : State), c < 8 →
    let d := s.dev
    let act := [Reg.BME_ACT_SRC_addr.ix c, Reg.BME_ACT_DST_addr.ix c, Reg.BME_ACT_LEN_bytes.ix c, Reg.BME_ACT_CFG_irq.ix c,
      Reg.BME_ACT_CFG_dst_space.ix c, Reg.BME_ACT_CFG_src_space.ix c]
    let chan := act ++ [Reg.BME_SH_CFG_armed.ix c, Reg.BME_CH_DONE_bytes.ix c, Reg.BME_CH_STAT_error.ix c,
      Reg.BME_CH_STAT_state.ix c]
    let armed := d.rd (Reg.BME_SH_CFG_armed.ix c)
    let check := d.bmeCheck (d.rd (Reg.BME_SH_CFG_src_space.ix c)) (d.rd (Reg.BME_SH_CFG_dst_space.ix c))
      (d.rd (Reg.BME_SH_SRC_addr.ix c)) (d.rd (Reg.BME_SH_DST_addr.ix c)) (d.rd (Reg.BME_SH_LEN_bytes.ix c))
    let loaded (e : Dev) : Prop := e.rd (Reg.BME_SH_CFG_armed.ix c) = 0 ∧
      e.rd (Reg.BME_ACT_DST_addr.ix c) = d.rd (Reg.BME_SH_DST_addr.ix c) % 2 ^ 64 ∧
      e.rd (Reg.BME_ACT_LEN_bytes.ix c) = d.rd (Reg.BME_SH_LEN_bytes.ix c) % 2 ^ 32
    let ss := d.rd (Reg.BME_ACT_CFG_src_space.ix c)
    let ds := d.rd (Reg.BME_ACT_CFG_dst_space.ix c)
    let src := d.rd (Reg.BME_ACT_SRC_addr.ix c)
    let dst := d.rd (Reg.BME_ACT_DST_addr.ix c)
    let len := d.rd (Reg.BME_ACT_LEN_bytes.ix c)
    let ram (x : Nat) : Prop := x = spScratch ∨ x = spMailbox
    let stored (t : State) (n : Nat) : Prop := t.pending = s.pending ∧
      (∀ i, i < n → t.spaceByte ds (dst + i) = s.spaceByte ss (src + i)) ∧
      (∀ a, a < dst ∨ dst + len ≤ a → t.spaceByte ds a = s.spaceByte ds a) ∧
      (∀ sp a, ram sp → sp ≠ ds → t.spaceByte sp a = s.spaceByte sp a)
    (d.bmeState c = 3 ∨ armed ≠ 0 → HostGives 0 .bme (.bmeArm c) s (fun e => Raised e .bme 3 ∧ Frame d e [] [])) ∧
    (d.bmeState c = 1 ∨ d.bmeState c = 2 → armed = 0 → HostGives 0 .bme (.bmeArm c) s (fun e =>
      e.rd (Reg.BME_SH_CFG_armed.ix c) = 1 ∧ Frame d e [Reg.BME_SH_CFG_armed.ix c] [])) ∧
    (d.bmeState c = 0 → armed = 0 →
      (∀ x, check = some x → HostGives 0 .bme (.bmeArm c) s (fun e => loaded e ∧ e.bmeState c = 2 ∧
        e.rd (Reg.BME_CH_STAT_error.ix c) = x ∧ Raised e .bme (24 + c) ∧ Frame d e chan [.bme])) ∧
      (check = none → d.rd (Reg.BME_SH_CFG_src_space.ix c) ≠ spHost → HostGives 0 .bme (.bmeArm c) s (fun e => loaded e ∧
        e.bmeState c = 1 ∧ e.rd (Reg.BME_CH_DONE_bytes.ix c) = 0 ∧ Frame d e chan [.bme])) ∧
      HostGives 0 .bme (.bmeArm c) s loaded) ∧
    (d.bmeState c ≠ 2 → HostGives 0 .bme (.bmeResume c) s (fun e => Frame d e [] [])) ∧
    (d.bmeState c = 2 → armed = 0 → HostGives 0 .bme (.bmeResume c) s (fun e =>
      e.bmeState c = 0 ∧ e.rd (Reg.BME_CH_STAT_error.ix c) = 0 ∧ (∀ f ∈ act, e.rd f = 0) ∧ Frame d e chan [])) ∧
    (d.bmeState c = 3 → HostGives 0 .bme (.bmeChannelDisable c) s (fun e => Frame d e [] [])) ∧
    (d.bmeState c ≠ 3 → HostGives 0 .bme (.bmeChannelDisable c) s (fun e =>
      e.bmeState c = 3 ∧ e.rd (Reg.BME_CH_CTRL_en.ix c) = 0 ∧ e.rd (Reg.BME_SH_CFG_armed.ix c) = 0 ∧
      (∀ f ∈ act, e.rd f = 0) ∧ Frame d e (Reg.BME_CH_CTRL_en.ix c :: chan) [.bme, .host])) ∧
    (d.bmeState c = 3 → d.blkState .bme = stIdle ∨ d.blkState .bme = stActive → HostGives 0 .bme (.bmeChannelEnable c) s (fun e =>
      e.bmeState c = 0 ∧ e.rd (Reg.BME_CH_CTRL_en.ix c) = 1 ∧
      Frame d e [Reg.BME_CH_CTRL_en.ix c, Reg.BME_CH_STAT_state.ix c] [])) ∧
    (d.bmeState c ≠ 3 → HostGives 0 .bme (.bmeChannelEnable c) s (fun e => Frame d e [] [])) ∧
    (d.bmeReady c = false → Gives (.bmeSetDone c) s (fun e => Frame d e [] [])) ∧
    (d.bmeState c = 1 → ram ss → ram ds → (d.bmeCh c).raced = [] → armed = 0 → len < 2 ^ 32 →
      Ends (.bmeSetDone c) s (fun t => stored t len ∧
        t.dev.bmeState c = 0 ∧ t.dev.rd (Reg.BME_CH_DONE_bytes.ix c) = len ∧
        t.dev.rd Reg.BME_BYTES_bytes = (d.rd Reg.BME_BYTES_bytes + len) % 2 ^ 64 ∧
        t.dev.rd (Reg.BME_CH_STAT_sets.ix c) = min (d.rd (Reg.BME_CH_STAT_sets.ix c) + 1) 0xFFFF ∧
        (d.rd (Reg.BME_ACT_CFG_irq.ix c) ≠ 0 → Raised t.dev .bme (16 + c)) ∧
        Frame d t.dev (Reg.BME_BYTES_bytes :: Reg.BME_CH_STAT_sets.ix c :: chan) [.bme]) ∧
      (d.bmeErrFits c err = true → Ends (.bmeSetError c err moved) s (fun t => stored t (min moved len) ∧
        t.dev.bmeState c = 2 ∧ t.dev.rd (Reg.BME_CH_STAT_error.ix c) = err ∧
        t.dev.rd (Reg.BME_CH_DONE_bytes.ix c) = min moved len ∧ Raised t.dev .bme (24 + c) ∧
        Frame d t.dev chan [.bme, .host]))) ∧
    (d.bmeErrFits c err = false → Gives (.bmeSetError c err moved) s (fun e => Frame d e [] []))
end

