-- ==== Sys2Proof/Laws/State.lean ====
section
/-! SUPPORT. What each update of State and Dev leaves unchanged, all true by definition, so that no proof unfolds a record
update; the laws of tables and of the register file (R9): a field reads what was written to it, cut to its width, and a
write of one field leaves every other field. -/

set_option Elab.async false

namespace Sys2Proof.Machine

/-! ### Updates of the device -/

@[simp] theorem Dev.wr_keeps (d : Dev) (f : Fld) (v : Nat) :
    (d.wr f v).staged = d.staged ∧ (d.wr f v).hiLatch = d.hiLatch ∧ (d.wr f v).heldLow = d.heldLow ∧
    (d.wr f v).ticks = d.ticks ∧ (d.wr f v).freeCtr = d.freeCtr ∧ (d.wr f v).emitted = d.emitted ∧
    (d.wr f v).nt = d.nt ∧ (d.wr f v).sys = d.sys ∧ (d.wr f v).hif = d.hif ∧ (d.wr f v).qmx = d.qmx ∧
    (d.wr f v).lay = d.lay ∧ (d.wr f v).dram = d.dram ∧ (d.wr f v).pwc = d.pwc ∧ (d.wr f v).smc = d.smc ∧
    (d.wr f v).ece = d.ece ∧ (d.wr f v).dpx = d.dpx ∧ (d.wr f v).mnt = d.mnt ∧ (d.wr f v).vlt = d.vlt ∧
    (d.wr f v).bps = d.bps ∧ (d.wr f v).tmb = d.tmb ∧ (d.wr f v).ccx = d.ccx ∧ (d.wr f v).bme = d.bme :=
  ⟨rfl, rfl, rfl, rfl, rfl, rfl, rfl, rfl, rfl, rfl, rfl, rfl, rfl, rfl, rfl, rfl, rfl, rfl, rfl, rfl, rfl, rfl⟩

@[simp] theorem Dev.wrB_keeps (d : Dev) (f : Fld) (b : Bool) :
    (d.wrB f b).staged = d.staged ∧ (d.wrB f b).hiLatch = d.hiLatch ∧ (d.wrB f b).heldLow = d.heldLow ∧
    (d.wrB f b).ticks = d.ticks ∧ (d.wrB f b).freeCtr = d.freeCtr ∧ (d.wrB f b).emitted = d.emitted ∧
    (d.wrB f b).nt = d.nt ∧ (d.wrB f b).sys = d.sys ∧ (d.wrB f b).hif = d.hif ∧ (d.wrB f b).qmx = d.qmx ∧
    (d.wrB f b).lay = d.lay ∧ (d.wrB f b).dram = d.dram ∧ (d.wrB f b).pwc = d.pwc ∧ (d.wrB f b).smc = d.smc ∧
    (d.wrB f b).ece = d.ece ∧ (d.wrB f b).dpx = d.dpx ∧ (d.wrB f b).mnt = d.mnt ∧ (d.wrB f b).vlt = d.vlt ∧
    (d.wrB f b).bps = d.bps ∧ (d.wrB f b).tmb = d.tmb ∧ (d.wrB f b).ccx = d.ccx ∧ (d.wrB f b).bme = d.bme :=
  ⟨rfl, rfl, rfl, rfl, rfl, rfl, rfl, rfl, rfl, rfl, rfl, rfl, rfl, rfl, rfl, rfl, rfl, rfl, rfl, rfl, rfl, rfl⟩

@[simp] theorem Dev.incSat_keeps (d : Dev) (f : Fld) (n : Nat) :
    (d.incSat f n).staged = d.staged ∧ (d.incSat f n).hiLatch = d.hiLatch ∧ (d.incSat f n).heldLow = d.heldLow ∧
    (d.incSat f n).ticks = d.ticks ∧ (d.incSat f n).freeCtr = d.freeCtr ∧ (d.incSat f n).emitted = d.emitted ∧
    (d.incSat f n).nt = d.nt ∧ (d.incSat f n).sys = d.sys ∧ (d.incSat f n).hif = d.hif ∧ (d.incSat f n).qmx = d.qmx ∧
    (d.incSat f n).lay = d.lay ∧ (d.incSat f n).dram = d.dram ∧ (d.incSat f n).pwc = d.pwc ∧
    (d.incSat f n).smc = d.smc ∧ (d.incSat f n).ece = d.ece ∧ (d.incSat f n).dpx = d.dpx ∧
    (d.incSat f n).mnt = d.mnt ∧ (d.incSat f n).vlt = d.vlt ∧ (d.incSat f n).bps = d.bps ∧
    (d.incSat f n).tmb = d.tmb ∧ (d.incSat f n).ccx = d.ccx ∧ (d.incSat f n).bme = d.bme :=
  ⟨rfl, rfl, rfl, rfl, rfl, rfl, rfl, rfl, rfl, rfl, rfl, rfl, rfl, rfl, rfl, rfl, rfl, rfl, rfl, rfl, rfl, rfl⟩

@[simp] theorem Dev.incWrap_keeps (d : Dev) (f : Fld) (n : Nat) :
    (d.incWrap f n).staged = d.staged ∧ (d.incWrap f n).hiLatch = d.hiLatch ∧ (d.incWrap f n).heldLow = d.heldLow ∧
    (d.incWrap f n).ticks = d.ticks ∧ (d.incWrap f n).freeCtr = d.freeCtr ∧ (d.incWrap f n).emitted = d.emitted ∧
    (d.incWrap f n).nt = d.nt ∧ (d.incWrap f n).sys = d.sys ∧ (d.incWrap f n).hif = d.hif ∧
    (d.incWrap f n).qmx = d.qmx ∧ (d.incWrap f n).lay = d.lay ∧ (d.incWrap f n).dram = d.dram ∧
    (d.incWrap f n).pwc = d.pwc ∧ (d.incWrap f n).smc = d.smc ∧ (d.incWrap f n).ece = d.ece ∧
    (d.incWrap f n).dpx = d.dpx ∧ (d.incWrap f n).mnt = d.mnt ∧ (d.incWrap f n).vlt = d.vlt ∧
    (d.incWrap f n).bps = d.bps ∧ (d.incWrap f n).tmb = d.tmb ∧ (d.incWrap f n).ccx = d.ccx ∧
    (d.incWrap f n).bme = d.bme :=
  ⟨rfl, rfl, rfl, rfl, rfl, rfl, rfl, rfl, rfl, rfl, rfl, rfl, rfl, rfl, rfl, rfl, rfl, rfl, rfl, rfl, rfl, rfl⟩

@[simp] theorem Dev.wrStaged_keeps (d : Dev) (f : Fld) (v : Nat) :
    (d.wrStaged f v).regs = d.regs ∧ (d.wrStaged f v).hiLatch = d.hiLatch ∧ (d.wrStaged f v).heldLow = d.heldLow ∧
    (d.wrStaged f v).ticks = d.ticks ∧ (d.wrStaged f v).freeCtr = d.freeCtr ∧ (d.wrStaged f v).emitted = d.emitted ∧
    (d.wrStaged f v).nt = d.nt ∧ (d.wrStaged f v).sys = d.sys ∧ (d.wrStaged f v).hif = d.hif ∧
    (d.wrStaged f v).qmx = d.qmx ∧ (d.wrStaged f v).lay = d.lay ∧ (d.wrStaged f v).dram = d.dram ∧
    (d.wrStaged f v).pwc = d.pwc ∧ (d.wrStaged f v).smc = d.smc ∧ (d.wrStaged f v).ece = d.ece ∧
    (d.wrStaged f v).dpx = d.dpx ∧ (d.wrStaged f v).mnt = d.mnt ∧ (d.wrStaged f v).vlt = d.vlt ∧
    (d.wrStaged f v).bps = d.bps ∧ (d.wrStaged f v).tmb = d.tmb ∧ (d.wrStaged f v).ccx = d.ccx ∧
    (d.wrStaged f v).bme = d.bme :=
  ⟨rfl, rfl, rfl, rfl, rfl, rfl, rfl, rfl, rfl, rfl, rfl, rfl, rfl, rfl, rfl, rfl, rfl, rfl, rfl, rfl, rfl, rfl⟩

@[simp] theorem Dev.wrStaged_rd (d : Dev) (f : Fld) (v : Nat) (x : Fld) : (d.wrStaged f v).rd x = d.rd x := rfl

@[simp] theorem Dev.nextFree_keeps (d : Dev) :
    (d.nextFree).regs = d.regs ∧ (d.nextFree).staged = d.staged ∧ (d.nextFree).hiLatch = d.hiLatch ∧
    (d.nextFree).heldLow = d.heldLow ∧ (d.nextFree).ticks = d.ticks ∧ (d.nextFree).emitted = d.emitted ∧
    (d.nextFree).nt = d.nt ∧ (d.nextFree).sys = d.sys ∧ (d.nextFree).hif = d.hif ∧ (d.nextFree).qmx = d.qmx ∧
    (d.nextFree).lay = d.lay ∧ (d.nextFree).dram = d.dram ∧ (d.nextFree).pwc = d.pwc ∧ (d.nextFree).smc = d.smc ∧
    (d.nextFree).ece = d.ece ∧ (d.nextFree).dpx = d.dpx ∧ (d.nextFree).mnt = d.mnt ∧ (d.nextFree).vlt = d.vlt ∧
    (d.nextFree).bps = d.bps ∧ (d.nextFree).tmb = d.tmb ∧ (d.nextFree).ccx = d.ccx ∧ (d.nextFree).bme = d.bme :=
  ⟨rfl, rfl, rfl, rfl, rfl, rfl, rfl, rfl, rfl, rfl, rfl, rfl, rfl, rfl, rfl, rfl, rfl, rfl, rfl, rfl, rfl, rfl⟩

@[simp] theorem Dev.nextFree_rd (d : Dev) (x : Fld) : (d.nextFree).rd x = d.rd x := rfl

@[simp] theorem Dev.emit_keeps (d : Dev) (e : Emit) :
    (d.emit e).regs = d.regs ∧ (d.emit e).staged = d.staged ∧ (d.emit e).hiLatch = d.hiLatch ∧
    (d.emit e).heldLow = d.heldLow ∧ (d.emit e).ticks = d.ticks ∧ (d.emit e).freeCtr = d.freeCtr ∧
    (d.emit e).nt = d.nt ∧ (d.emit e).sys = d.sys ∧ (d.emit e).hif = d.hif ∧ (d.emit e).qmx = d.qmx ∧
    (d.emit e).lay = d.lay ∧ (d.emit e).dram = d.dram ∧ (d.emit e).pwc = d.pwc ∧ (d.emit e).smc = d.smc ∧
    (d.emit e).ece = d.ece ∧ (d.emit e).dpx = d.dpx ∧ (d.emit e).mnt = d.mnt ∧ (d.emit e).vlt = d.vlt ∧
    (d.emit e).bps = d.bps ∧ (d.emit e).tmb = d.tmb ∧ (d.emit e).ccx = d.ccx ∧ (d.emit e).bme = d.bme :=
  ⟨rfl, rfl, rfl, rfl, rfl, rfl, rfl, rfl, rfl, rfl, rfl, rfl, rfl, rfl, rfl, rfl, rfl, rfl, rfl, rfl, rfl, rfl⟩

@[simp] theorem Dev.emit_rd (d : Dev) (e : Emit) (x : Fld) : (d.emit e).rd x = d.rd x := rfl

@[simp] theorem Dev.updFn_keeps (d : Dev) (f : Nat) (g : FnState → FnState) :
    (d.updFn f g).regs = d.regs ∧ (d.updFn f g).staged = d.staged ∧ (d.updFn f g).hiLatch = d.hiLatch ∧
    (d.updFn f g).heldLow = d.heldLow ∧ (d.updFn f g).ticks = d.ticks ∧ (d.updFn f g).freeCtr = d.freeCtr ∧
    (d.updFn f g).emitted = d.emitted ∧ (d.updFn f g).nt = d.nt ∧ (d.updFn f g).sys = d.sys ∧
    (d.updFn f g).qmx = d.qmx ∧ (d.updFn f g).lay = d.lay ∧ (d.updFn f g).dram = d.dram ∧ (d.updFn f g).pwc = d.pwc ∧
    (d.updFn f g).smc = d.smc ∧ (d.updFn f g).ece = d.ece ∧ (d.updFn f g).dpx = d.dpx ∧ (d.updFn f g).mnt = d.mnt ∧
    (d.updFn f g).vlt = d.vlt ∧ (d.updFn f g).bps = d.bps ∧ (d.updFn f g).tmb = d.tmb ∧ (d.updFn f g).ccx = d.ccx ∧
    (d.updFn f g).bme = d.bme :=
  ⟨rfl, rfl, rfl, rfl, rfl, rfl, rfl, rfl, rfl, rfl, rfl, rfl, rfl, rfl, rfl, rfl, rfl, rfl, rfl, rfl, rfl, rfl⟩

@[simp] theorem Dev.updFn_rd (d : Dev) (f : Nat) (g : FnState → FnState) (x : Fld) : (d.updFn f g).rd x = d.rd x := rfl

@[simp] theorem Dev.setVec_keeps (d : Dev) (f v : Nat) (m : MsixVec) :
    (d.setVec f v m).regs = d.regs ∧ (d.setVec f v m).staged = d.staged ∧ (d.setVec f v m).hiLatch = d.hiLatch ∧
    (d.setVec f v m).heldLow = d.heldLow ∧ (d.setVec f v m).ticks = d.ticks ∧ (d.setVec f v m).freeCtr = d.freeCtr ∧
    (d.setVec f v m).emitted = d.emitted ∧ (d.setVec f v m).nt = d.nt ∧ (d.setVec f v m).sys = d.sys ∧
    (d.setVec f v m).qmx = d.qmx ∧ (d.setVec f v m).lay = d.lay ∧ (d.setVec f v m).dram = d.dram ∧
    (d.setVec f v m).pwc = d.pwc ∧ (d.setVec f v m).smc = d.smc ∧ (d.setVec f v m).ece = d.ece ∧
    (d.setVec f v m).dpx = d.dpx ∧ (d.setVec f v m).mnt = d.mnt ∧ (d.setVec f v m).vlt = d.vlt ∧
    (d.setVec f v m).bps = d.bps ∧ (d.setVec f v m).tmb = d.tmb ∧ (d.setVec f v m).ccx = d.ccx ∧
    (d.setVec f v m).bme = d.bme :=
  ⟨rfl, rfl, rfl, rfl, rfl, rfl, rfl, rfl, rfl, rfl, rfl, rfl, rfl, rfl, rfl, rfl, rfl, rfl, rfl, rfl, rfl, rfl⟩

@[simp] theorem Dev.setVec_rd (d : Dev) (f v : Nat) (m : MsixVec) (x : Fld) : (d.setVec f v m).rd x = d.rd x := rfl

@[simp] theorem Dev.updNote_keeps (d : Dev) (b : Blk) (g : BlkNote → BlkNote) :
    (d.updNote b g).regs = d.regs ∧ (d.updNote b g).staged = d.staged ∧ (d.updNote b g).hiLatch = d.hiLatch ∧
    (d.updNote b g).heldLow = d.heldLow ∧ (d.updNote b g).ticks = d.ticks ∧ (d.updNote b g).freeCtr = d.freeCtr ∧
    (d.updNote b g).emitted = d.emitted ∧ (d.updNote b g).sys = d.sys ∧ (d.updNote b g).hif = d.hif ∧
    (d.updNote b g).qmx = d.qmx ∧ (d.updNote b g).lay = d.lay ∧ (d.updNote b g).dram = d.dram ∧
    (d.updNote b g).pwc = d.pwc ∧ (d.updNote b g).smc = d.smc ∧ (d.updNote b g).ece = d.ece ∧
    (d.updNote b g).dpx = d.dpx ∧ (d.updNote b g).mnt = d.mnt ∧ (d.updNote b g).vlt = d.vlt ∧
    (d.updNote b g).bps = d.bps ∧ (d.updNote b g).tmb = d.tmb ∧ (d.updNote b g).ccx = d.ccx ∧
    (d.updNote b g).bme = d.bme :=
  ⟨rfl, rfl, rfl, rfl, rfl, rfl, rfl, rfl, rfl, rfl, rfl, rfl, rfl, rfl, rfl, rfl, rfl, rfl, rfl, rfl, rfl, rfl⟩

@[simp] theorem Dev.updNote_rd (d : Dev) (b : Blk) (g : BlkNote → BlkNote) (x : Fld) : (d.updNote b g).rd x = d.rd x := rfl

@[simp] theorem Dev.updRing_keeps (d : Dev) (f : Nat) (g : EvRing → EvRing) :
    (d.updRing f g).regs = d.regs ∧ (d.updRing f g).staged = d.staged ∧ (d.updRing f g).hiLatch = d.hiLatch ∧
    (d.updRing f g).heldLow = d.heldLow ∧ (d.updRing f g).ticks = d.ticks ∧ (d.updRing f g).freeCtr = d.freeCtr ∧
    (d.updRing f g).emitted = d.emitted ∧ (d.updRing f g).sys = d.sys ∧ (d.updRing f g).hif = d.hif ∧
    (d.updRing f g).qmx = d.qmx ∧ (d.updRing f g).lay = d.lay ∧ (d.updRing f g).dram = d.dram ∧
    (d.updRing f g).pwc = d.pwc ∧ (d.updRing f g).smc = d.smc ∧ (d.updRing f g).ece = d.ece ∧
    (d.updRing f g).dpx = d.dpx ∧ (d.updRing f g).mnt = d.mnt ∧ (d.updRing f g).vlt = d.vlt ∧
    (d.updRing f g).bps = d.bps ∧ (d.updRing f g).tmb = d.tmb ∧ (d.updRing f g).ccx = d.ccx ∧
    (d.updRing f g).bme = d.bme :=
  ⟨rfl, rfl, rfl, rfl, rfl, rfl, rfl, rfl, rfl, rfl, rfl, rfl, rfl, rfl, rfl, rfl, rfl, rfl, rfl, rfl, rfl, rfl⟩

@[simp] theorem Dev.updRing_rd (d : Dev) (f : Nat) (g : EvRing → EvRing) (x : Fld) : (d.updRing f g).rd x = d.rd x := rfl

@[simp] theorem Dev.updHif_keeps (d : Dev) (g : HifState → HifState) :
    (d.updHif g).regs = d.regs ∧ (d.updHif g).staged = d.staged ∧ (d.updHif g).hiLatch = d.hiLatch ∧
    (d.updHif g).heldLow = d.heldLow ∧ (d.updHif g).ticks = d.ticks ∧ (d.updHif g).freeCtr = d.freeCtr ∧
    (d.updHif g).emitted = d.emitted ∧ (d.updHif g).nt = d.nt ∧ (d.updHif g).sys = d.sys ∧ (d.updHif g).qmx = d.qmx ∧
    (d.updHif g).lay = d.lay ∧ (d.updHif g).dram = d.dram ∧ (d.updHif g).pwc = d.pwc ∧ (d.updHif g).smc = d.smc ∧
    (d.updHif g).ece = d.ece ∧ (d.updHif g).dpx = d.dpx ∧ (d.updHif g).mnt = d.mnt ∧ (d.updHif g).vlt = d.vlt ∧
    (d.updHif g).bps = d.bps ∧ (d.updHif g).tmb = d.tmb ∧ (d.updHif g).ccx = d.ccx ∧ (d.updHif g).bme = d.bme :=
  ⟨rfl, rfl, rfl, rfl, rfl, rfl, rfl, rfl, rfl, rfl, rfl, rfl, rfl, rfl, rfl, rfl, rfl, rfl, rfl, rfl, rfl, rfl⟩

@[simp] theorem Dev.updHif_rd (d : Dev) (g : HifState → HifState) (x : Fld) : (d.updHif g).rd x = d.rd x := rfl

@[simp] theorem Dev.updCmd_keeps (d : Dev) (adm : Nat) (g : Cmd → Cmd) :
    (d.updCmd adm g).regs = d.regs ∧ (d.updCmd adm g).staged = d.staged ∧ (d.updCmd adm g).hiLatch = d.hiLatch ∧
    (d.updCmd adm g).heldLow = d.heldLow ∧ (d.updCmd adm g).ticks = d.ticks ∧ (d.updCmd adm g).freeCtr = d.freeCtr ∧
    (d.updCmd adm g).emitted = d.emitted ∧ (d.updCmd adm g).nt = d.nt ∧ (d.updCmd adm g).sys = d.sys ∧
    (d.updCmd adm g).hif = d.hif ∧ (d.updCmd adm g).lay = d.lay ∧ (d.updCmd adm g).dram = d.dram ∧
    (d.updCmd adm g).pwc = d.pwc ∧ (d.updCmd adm g).smc = d.smc ∧ (d.updCmd adm g).ece = d.ece ∧
    (d.updCmd adm g).dpx = d.dpx ∧ (d.updCmd adm g).mnt = d.mnt ∧ (d.updCmd adm g).vlt = d.vlt ∧
    (d.updCmd adm g).bps = d.bps ∧ (d.updCmd adm g).tmb = d.tmb ∧ (d.updCmd adm g).ccx = d.ccx ∧
    (d.updCmd adm g).bme = d.bme :=
  ⟨rfl, rfl, rfl, rfl, rfl, rfl, rfl, rfl, rfl, rfl, rfl, rfl, rfl, rfl, rfl, rfl, rfl, rfl, rfl, rfl, rfl, rfl⟩

@[simp] theorem Dev.updCmd_rd (d : Dev) (adm : Nat) (g : Cmd → Cmd) (x : Fld) : (d.updCmd adm g).rd x = d.rd x := rfl

@[simp] theorem Dev.updArr_keeps (d : Dev) (a : Nat) (g : ArrSt → ArrSt) :
    (d.updArr a g).regs = d.regs ∧ (d.updArr a g).staged = d.staged ∧ (d.updArr a g).hiLatch = d.hiLatch ∧
    (d.updArr a g).heldLow = d.heldLow ∧ (d.updArr a g).ticks = d.ticks ∧ (d.updArr a g).freeCtr = d.freeCtr ∧
    (d.updArr a g).emitted = d.emitted ∧ (d.updArr a g).nt = d.nt ∧ (d.updArr a g).sys = d.sys ∧
    (d.updArr a g).hif = d.hif ∧ (d.updArr a g).qmx = d.qmx ∧ (d.updArr a g).dram = d.dram ∧
    (d.updArr a g).pwc = d.pwc ∧ (d.updArr a g).smc = d.smc ∧ (d.updArr a g).ece = d.ece ∧
    (d.updArr a g).dpx = d.dpx ∧ (d.updArr a g).mnt = d.mnt ∧ (d.updArr a g).vlt = d.vlt ∧
    (d.updArr a g).bps = d.bps ∧ (d.updArr a g).tmb = d.tmb ∧ (d.updArr a g).ccx = d.ccx ∧
    (d.updArr a g).bme = d.bme :=
  ⟨rfl, rfl, rfl, rfl, rfl, rfl, rfl, rfl, rfl, rfl, rfl, rfl, rfl, rfl, rfl, rfl, rfl, rfl, rfl, rfl, rfl, rfl⟩

@[simp] theorem Dev.updArr_rd (d : Dev) (a : Nat) (g : ArrSt → ArrSt) (x : Fld) : (d.updArr a g).rd x = d.rd x := rfl

@[simp] theorem Dev.updLay_keeps (d : Dev) (g : LayState → LayState) :
    (d.updLay g).regs = d.regs ∧ (d.updLay g).staged = d.staged ∧ (d.updLay g).hiLatch = d.hiLatch ∧
    (d.updLay g).heldLow = d.heldLow ∧ (d.updLay g).ticks = d.ticks ∧ (d.updLay g).freeCtr = d.freeCtr ∧
    (d.updLay g).emitted = d.emitted ∧ (d.updLay g).nt = d.nt ∧ (d.updLay g).sys = d.sys ∧ (d.updLay g).hif = d.hif ∧
    (d.updLay g).qmx = d.qmx ∧ (d.updLay g).dram = d.dram ∧ (d.updLay g).pwc = d.pwc ∧ (d.updLay g).smc = d.smc ∧
    (d.updLay g).ece = d.ece ∧ (d.updLay g).dpx = d.dpx ∧ (d.updLay g).mnt = d.mnt ∧ (d.updLay g).vlt = d.vlt ∧
    (d.updLay g).bps = d.bps ∧ (d.updLay g).tmb = d.tmb ∧ (d.updLay g).ccx = d.ccx ∧ (d.updLay g).bme = d.bme :=
  ⟨rfl, rfl, rfl, rfl, rfl, rfl, rfl, rfl, rfl, rfl, rfl, rfl, rfl, rfl, rfl, rfl, rfl, rfl, rfl, rfl, rfl, rfl⟩

@[simp] theorem Dev.updLay_rd (d : Dev) (g : LayState → LayState) (x : Fld) : (d.updLay g).rd x = d.rd x := rfl

@[simp] theorem Dev.updDram_keeps (d : Dev) (g : Dram → Dram) :
    (d.updDram g).regs = d.regs ∧ (d.updDram g).staged = d.staged ∧ (d.updDram g).hiLatch = d.hiLatch ∧
    (d.updDram g).heldLow = d.heldLow ∧ (d.updDram g).ticks = d.ticks ∧ (d.updDram g).freeCtr = d.freeCtr ∧
    (d.updDram g).emitted = d.emitted ∧ (d.updDram g).nt = d.nt ∧ (d.updDram g).sys = d.sys ∧
    (d.updDram g).hif = d.hif ∧ (d.updDram g).qmx = d.qmx ∧ (d.updDram g).lay = d.lay ∧ (d.updDram g).pwc = d.pwc ∧
    (d.updDram g).smc = d.smc ∧ (d.updDram g).ece = d.ece ∧ (d.updDram g).dpx = d.dpx ∧ (d.updDram g).mnt = d.mnt ∧
    (d.updDram g).vlt = d.vlt ∧ (d.updDram g).bps = d.bps ∧ (d.updDram g).tmb = d.tmb ∧ (d.updDram g).ccx = d.ccx ∧
    (d.updDram g).bme = d.bme :=
  ⟨rfl, rfl, rfl, rfl, rfl, rfl, rfl, rfl, rfl, rfl, rfl, rfl, rfl, rfl, rfl, rfl, rfl, rfl, rfl, rfl, rfl, rfl⟩

@[simp] theorem Dev.updDram_rd (d : Dev) (g : Dram → Dram) (x : Fld) : (d.updDram g).rd x = d.rd x := rfl

@[simp] theorem Dev.updPort_keeps (d : Dev) (p : Nat) (g : PortSt → PortSt) :
    (d.updPort p g).regs = d.regs ∧ (d.updPort p g).staged = d.staged ∧ (d.updPort p g).hiLatch = d.hiLatch ∧
    (d.updPort p g).heldLow = d.heldLow ∧ (d.updPort p g).ticks = d.ticks ∧ (d.updPort p g).freeCtr = d.freeCtr ∧
    (d.updPort p g).emitted = d.emitted ∧ (d.updPort p g).nt = d.nt ∧ (d.updPort p g).sys = d.sys ∧
    (d.updPort p g).hif = d.hif ∧ (d.updPort p g).qmx = d.qmx ∧ (d.updPort p g).lay = d.lay ∧
    (d.updPort p g).dram = d.dram ∧ (d.updPort p g).pwc = d.pwc ∧ (d.updPort p g).smc = d.smc ∧
    (d.updPort p g).ece = d.ece ∧ (d.updPort p g).mnt = d.mnt ∧ (d.updPort p g).vlt = d.vlt ∧
    (d.updPort p g).bps = d.bps ∧ (d.updPort p g).tmb = d.tmb ∧ (d.updPort p g).ccx = d.ccx ∧
    (d.updPort p g).bme = d.bme :=
  ⟨rfl, rfl, rfl, rfl, rfl, rfl, rfl, rfl, rfl, rfl, rfl, rfl, rfl, rfl, rfl, rfl, rfl, rfl, rfl, rfl, rfl, rfl⟩

@[simp] theorem Dev.updPort_rd (d : Dev) (p : Nat) (g : PortSt → PortSt) (x : Fld) : (d.updPort p g).rd x = d.rd x := rfl

@[simp] theorem Dev.updEce_keeps (d : Dev) (g : EceState → EceState) :
    (d.updEce g).regs = d.regs ∧ (d.updEce g).staged = d.staged ∧ (d.updEce g).hiLatch = d.hiLatch ∧
    (d.updEce g).heldLow = d.heldLow ∧ (d.updEce g).ticks = d.ticks ∧ (d.updEce g).freeCtr = d.freeCtr ∧
    (d.updEce g).emitted = d.emitted ∧ (d.updEce g).nt = d.nt ∧ (d.updEce g).sys = d.sys ∧ (d.updEce g).hif = d.hif ∧
    (d.updEce g).qmx = d.qmx ∧ (d.updEce g).lay = d.lay ∧ (d.updEce g).dram = d.dram ∧ (d.updEce g).pwc = d.pwc ∧
    (d.updEce g).smc = d.smc ∧ (d.updEce g).dpx = d.dpx ∧ (d.updEce g).mnt = d.mnt ∧ (d.updEce g).vlt = d.vlt ∧
    (d.updEce g).bps = d.bps ∧ (d.updEce g).tmb = d.tmb ∧ (d.updEce g).ccx = d.ccx ∧ (d.updEce g).bme = d.bme :=
  ⟨rfl, rfl, rfl, rfl, rfl, rfl, rfl, rfl, rfl, rfl, rfl, rfl, rfl, rfl, rfl, rfl, rfl, rfl, rfl, rfl, rfl, rfl⟩

@[simp] theorem Dev.updEce_rd (d : Dev) (g : EceState → EceState) (x : Fld) : (d.updEce g).rd x = d.rd x := rfl

@[simp] theorem Dev.updPwc_keeps (d : Dev) (g : PwcState → PwcState) :
    (d.updPwc g).regs = d.regs ∧ (d.updPwc g).staged = d.staged ∧ (d.updPwc g).hiLatch = d.hiLatch ∧
    (d.updPwc g).heldLow = d.heldLow ∧ (d.updPwc g).ticks = d.ticks ∧ (d.updPwc g).freeCtr = d.freeCtr ∧
    (d.updPwc g).emitted = d.emitted ∧ (d.updPwc g).nt = d.nt ∧ (d.updPwc g).sys = d.sys ∧ (d.updPwc g).hif = d.hif ∧
    (d.updPwc g).qmx = d.qmx ∧ (d.updPwc g).lay = d.lay ∧ (d.updPwc g).dram = d.dram ∧ (d.updPwc g).smc = d.smc ∧
    (d.updPwc g).ece = d.ece ∧ (d.updPwc g).dpx = d.dpx ∧ (d.updPwc g).mnt = d.mnt ∧ (d.updPwc g).vlt = d.vlt ∧
    (d.updPwc g).bps = d.bps ∧ (d.updPwc g).tmb = d.tmb ∧ (d.updPwc g).ccx = d.ccx ∧ (d.updPwc g).bme = d.bme :=
  ⟨rfl, rfl, rfl, rfl, rfl, rfl, rfl, rfl, rfl, rfl, rfl, rfl, rfl, rfl, rfl, rfl, rfl, rfl, rfl, rfl, rfl, rfl⟩

@[simp] theorem Dev.updPwc_rd (d : Dev) (g : PwcState → PwcState) (x : Fld) : (d.updPwc g).rd x = d.rd x := rfl

@[simp] theorem Dev.updSmc_keeps (d : Dev) (g : SmcState → SmcState) :
    (d.updSmc g).regs = d.regs ∧ (d.updSmc g).staged = d.staged ∧ (d.updSmc g).hiLatch = d.hiLatch ∧
    (d.updSmc g).heldLow = d.heldLow ∧ (d.updSmc g).ticks = d.ticks ∧ (d.updSmc g).freeCtr = d.freeCtr ∧
    (d.updSmc g).emitted = d.emitted ∧ (d.updSmc g).nt = d.nt ∧ (d.updSmc g).sys = d.sys ∧ (d.updSmc g).hif = d.hif ∧
    (d.updSmc g).qmx = d.qmx ∧ (d.updSmc g).lay = d.lay ∧ (d.updSmc g).dram = d.dram ∧ (d.updSmc g).pwc = d.pwc ∧
    (d.updSmc g).ece = d.ece ∧ (d.updSmc g).dpx = d.dpx ∧ (d.updSmc g).mnt = d.mnt ∧ (d.updSmc g).vlt = d.vlt ∧
    (d.updSmc g).bps = d.bps ∧ (d.updSmc g).tmb = d.tmb ∧ (d.updSmc g).ccx = d.ccx ∧ (d.updSmc g).bme = d.bme :=
  ⟨rfl, rfl, rfl, rfl, rfl, rfl, rfl, rfl, rfl, rfl, rfl, rfl, rfl, rfl, rfl, rfl, rfl, rfl, rfl, rfl, rfl, rfl⟩

@[simp] theorem Dev.updSmc_rd (d : Dev) (g : SmcState → SmcState) (x : Fld) : (d.updSmc g).rd x = d.rd x := rfl

@[simp] theorem Dev.updVlt_keeps (d : Dev) (g : VltState → VltState) :
    (d.updVlt g).regs = d.regs ∧ (d.updVlt g).staged = d.staged ∧ (d.updVlt g).hiLatch = d.hiLatch ∧
    (d.updVlt g).heldLow = d.heldLow ∧ (d.updVlt g).ticks = d.ticks ∧ (d.updVlt g).freeCtr = d.freeCtr ∧
    (d.updVlt g).emitted = d.emitted ∧ (d.updVlt g).nt = d.nt ∧ (d.updVlt g).sys = d.sys ∧ (d.updVlt g).hif = d.hif ∧
    (d.updVlt g).qmx = d.qmx ∧ (d.updVlt g).lay = d.lay ∧ (d.updVlt g).dram = d.dram ∧ (d.updVlt g).pwc = d.pwc ∧
    (d.updVlt g).smc = d.smc ∧ (d.updVlt g).ece = d.ece ∧ (d.updVlt g).dpx = d.dpx ∧ (d.updVlt g).mnt = d.mnt ∧
    (d.updVlt g).bps = d.bps ∧ (d.updVlt g).tmb = d.tmb ∧ (d.updVlt g).ccx = d.ccx ∧ (d.updVlt g).bme = d.bme :=
  ⟨rfl, rfl, rfl, rfl, rfl, rfl, rfl, rfl, rfl, rfl, rfl, rfl, rfl, rfl, rfl, rfl, rfl, rfl, rfl, rfl, rfl, rfl⟩

@[simp] theorem Dev.updVlt_rd (d : Dev) (g : VltState → VltState) (x : Fld) : (d.updVlt g).rd x = d.rd x := rfl

@[simp] theorem Dev.updBps_keeps (d : Dev) (g : BpsState → BpsState) :
    (d.updBps g).regs = d.regs ∧ (d.updBps g).staged = d.staged ∧ (d.updBps g).hiLatch = d.hiLatch ∧
    (d.updBps g).heldLow = d.heldLow ∧ (d.updBps g).ticks = d.ticks ∧ (d.updBps g).freeCtr = d.freeCtr ∧
    (d.updBps g).emitted = d.emitted ∧ (d.updBps g).nt = d.nt ∧ (d.updBps g).sys = d.sys ∧ (d.updBps g).hif = d.hif ∧
    (d.updBps g).qmx = d.qmx ∧ (d.updBps g).lay = d.lay ∧ (d.updBps g).dram = d.dram ∧ (d.updBps g).pwc = d.pwc ∧
    (d.updBps g).smc = d.smc ∧ (d.updBps g).ece = d.ece ∧ (d.updBps g).dpx = d.dpx ∧ (d.updBps g).mnt = d.mnt ∧
    (d.updBps g).vlt = d.vlt ∧ (d.updBps g).tmb = d.tmb ∧ (d.updBps g).ccx = d.ccx ∧ (d.updBps g).bme = d.bme :=
  ⟨rfl, rfl, rfl, rfl, rfl, rfl, rfl, rfl, rfl, rfl, rfl, rfl, rfl, rfl, rfl, rfl, rfl, rfl, rfl, rfl, rfl, rfl⟩

@[simp] theorem Dev.updBps_rd (d : Dev) (g : BpsState → BpsState) (x : Fld) : (d.updBps g).rd x = d.rd x := rfl

@[simp] theorem Dev.updTmb_keeps (d : Dev) (g : TmbState → TmbState) :
    (d.updTmb g).regs = d.regs ∧ (d.updTmb g).staged = d.staged ∧ (d.updTmb g).hiLatch = d.hiLatch ∧
    (d.updTmb g).heldLow = d.heldLow ∧ (d.updTmb g).ticks = d.ticks ∧ (d.updTmb g).freeCtr = d.freeCtr ∧
    (d.updTmb g).emitted = d.emitted ∧ (d.updTmb g).nt = d.nt ∧ (d.updTmb g).sys = d.sys ∧ (d.updTmb g).hif = d.hif ∧
    (d.updTmb g).qmx = d.qmx ∧ (d.updTmb g).lay = d.lay ∧ (d.updTmb g).dram = d.dram ∧ (d.updTmb g).pwc = d.pwc ∧
    (d.updTmb g).smc = d.smc ∧ (d.updTmb g).ece = d.ece ∧ (d.updTmb g).dpx = d.dpx ∧ (d.updTmb g).mnt = d.mnt ∧
    (d.updTmb g).vlt = d.vlt ∧ (d.updTmb g).bps = d.bps ∧ (d.updTmb g).ccx = d.ccx ∧ (d.updTmb g).bme = d.bme :=
  ⟨rfl, rfl, rfl, rfl, rfl, rfl, rfl, rfl, rfl, rfl, rfl, rfl, rfl, rfl, rfl, rfl, rfl, rfl, rfl, rfl, rfl, rfl⟩

@[simp] theorem Dev.updTmb_rd (d : Dev) (g : TmbState → TmbState) (x : Fld) : (d.updTmb g).rd x = d.rd x := rfl

@[simp] theorem Dev.updCcx_keeps (d : Dev) (g : CcxState → CcxState) :
    (d.updCcx g).regs = d.regs ∧ (d.updCcx g).staged = d.staged ∧ (d.updCcx g).hiLatch = d.hiLatch ∧
    (d.updCcx g).heldLow = d.heldLow ∧ (d.updCcx g).ticks = d.ticks ∧ (d.updCcx g).freeCtr = d.freeCtr ∧
    (d.updCcx g).emitted = d.emitted ∧ (d.updCcx g).nt = d.nt ∧ (d.updCcx g).sys = d.sys ∧ (d.updCcx g).hif = d.hif ∧
    (d.updCcx g).qmx = d.qmx ∧ (d.updCcx g).lay = d.lay ∧ (d.updCcx g).dram = d.dram ∧ (d.updCcx g).pwc = d.pwc ∧
    (d.updCcx g).smc = d.smc ∧ (d.updCcx g).ece = d.ece ∧ (d.updCcx g).dpx = d.dpx ∧ (d.updCcx g).mnt = d.mnt ∧
    (d.updCcx g).vlt = d.vlt ∧ (d.updCcx g).bps = d.bps ∧ (d.updCcx g).tmb = d.tmb ∧ (d.updCcx g).bme = d.bme :=
  ⟨rfl, rfl, rfl, rfl, rfl, rfl, rfl, rfl, rfl, rfl, rfl, rfl, rfl, rfl, rfl, rfl, rfl, rfl, rfl, rfl, rfl, rfl⟩

@[simp] theorem Dev.updCcx_rd (d : Dev) (g : CcxState → CcxState) (x : Fld) : (d.updCcx g).rd x = d.rd x := rfl

@[simp] theorem Dev.updBmeCh_keeps (d : Dev) (c : Nat) (g : BmeCh → BmeCh) :
    (d.updBmeCh c g).regs = d.regs ∧ (d.updBmeCh c g).staged = d.staged ∧ (d.updBmeCh c g).hiLatch = d.hiLatch ∧
    (d.updBmeCh c g).heldLow = d.heldLow ∧ (d.updBmeCh c g).ticks = d.ticks ∧ (d.updBmeCh c g).freeCtr = d.freeCtr ∧
    (d.updBmeCh c g).emitted = d.emitted ∧ (d.updBmeCh c g).nt = d.nt ∧ (d.updBmeCh c g).sys = d.sys ∧
    (d.updBmeCh c g).hif = d.hif ∧ (d.updBmeCh c g).qmx = d.qmx ∧ (d.updBmeCh c g).lay = d.lay ∧
    (d.updBmeCh c g).dram = d.dram ∧ (d.updBmeCh c g).pwc = d.pwc ∧ (d.updBmeCh c g).smc = d.smc ∧
    (d.updBmeCh c g).ece = d.ece ∧ (d.updBmeCh c g).dpx = d.dpx ∧ (d.updBmeCh c g).mnt = d.mnt ∧
    (d.updBmeCh c g).vlt = d.vlt ∧ (d.updBmeCh c g).bps = d.bps ∧ (d.updBmeCh c g).tmb = d.tmb ∧
    (d.updBmeCh c g).ccx = d.ccx :=
  ⟨rfl, rfl, rfl, rfl, rfl, rfl, rfl, rfl, rfl, rfl, rfl, rfl, rfl, rfl, rfl, rfl, rfl, rfl, rfl, rfl, rfl, rfl⟩

@[simp] theorem Dev.updBmeCh_rd (d : Dev) (c : Nat) (g : BmeCh → BmeCh) (x : Fld) : (d.updBmeCh c g).rd x = d.rd x := rfl

/-! ### Updates of State -/

@[simp] theorem State.dev_keeps_pending (s : State) (d : Dev) : ({ s with dev := d } : State).pending = s.pending := rfl
@[simp] theorem State.dev_keeps_scratch (s : State) (d : Dev) : ({ s with dev := d } : State).scratch = s.scratch := rfl
@[simp] theorem State.dev_keeps_mailbox (s : State) (d : Dev) : ({ s with dev := d } : State).mailbox = s.mailbox := rfl
@[simp] theorem State.dev_reads (s : State) (d : Dev) : ({ s with dev := d } : State).dev = d := rfl
@[simp] theorem State.pending_keeps_dev (s : State) (q : List Instr) : ({ s with pending := q } : State).dev = s.dev := rfl
@[simp] theorem State.pending_keeps_scratch (s : State) (q : List Instr) :
    ({ s with pending := q } : State).scratch = s.scratch := rfl
@[simp] theorem State.pending_keeps_mailbox (s : State) (q : List Instr) :
    ({ s with pending := q } : State).mailbox = s.mailbox := rfl
@[simp] theorem State.pending_reads (s : State) (q : List Instr) : ({ s with pending := q } : State).pending = q := rfl

/-! ### Tables -/

variable {α : Type}

theorem Tbl.get?_put_same (m : Tbl α) (k : Nat) (v : α) : Tbl.get? (Tbl.put m k v) k = some v := by
  induction m with
  | nil => simp [Tbl.put, Tbl.get?]
  | cons p r ih =>
    obtain ⟨k', v'⟩ := p
    simp only [Tbl.put]
    split
    · simp [Tbl.get?]
    · split
      · simp [Tbl.get?]
      · simp [Tbl.get?, *]

theorem Tbl.get?_put_other (m : Tbl α) (k j : Nat) (v : α) (h : j ≠ k) :
    Tbl.get? (Tbl.put m k v) j = Tbl.get? m j := by
  induction m with
  | nil => simp [Tbl.put, Tbl.get?, h]
  | cons p r ih =>
    obtain ⟨k', v'⟩ := p
    simp only [Tbl.put]
    split
    · simp [Tbl.get?, h]
    · split
      · rename_i e; subst e; simp [Tbl.get?, h]
      · simp only [Tbl.get?, ih]

theorem Tbl.get?_erase_same (m : Tbl α) (k : Nat) : Tbl.get? (Tbl.erase m k) k = none := by
  induction m with
  | nil => rfl
  | cons p r ih =>
    obtain ⟨k', v'⟩ := p
    simp only [Tbl.erase, List.filter_cons] at ih ⊢
    split
    · rename_i e
      simp only [decide_eq_true_eq] at e
      simp only [Tbl.get?, Ne.symm e, if_false]
      exact ih
    · exact ih

theorem Tbl.get?_erase_other (m : Tbl α) (k j : Nat) (h : j ≠ k) : Tbl.get? (Tbl.erase m k) j = Tbl.get? m j := by
  induction m with
  | nil => rfl
  | cons p r ih =>
    obtain ⟨k', v'⟩ := p
    simp only [Tbl.erase, List.filter_cons] at ih ⊢
    split
    · simp only [Tbl.get?, ih]
    · rename_i e
      simp only [decide_eq_true_eq, ne_eq, Decidable.not_not] at e
      rw [show Tbl.get? ((k', v') :: r) j = Tbl.get? r j by simp [Tbl.get?, e, h]]
      exact ih

/-- A table reads what was written: the value, whether it is listed or the default that is left out. -/
@[simp] theorem Tbl.getD_putD_same [DecidableEq α] (m : Tbl α) (k : Nat) (v dflt : α) :
    Tbl.getD (Tbl.putD m k v dflt) k dflt = v := by
  simp only [Tbl.getD, Tbl.putD]
  split
  · simp [Tbl.get?_erase_same, *]
  · simp [Tbl.get?_put_same]

/-- A write of one key leaves every other key. -/
theorem Tbl.getD_putD_other [DecidableEq α] (m : Tbl α) (k j : Nat) (v dflt e : α) (h : j ≠ k) :
    Tbl.getD (Tbl.putD m k v dflt) j e = Tbl.getD m j e := by
  simp only [Tbl.getD, Tbl.putD]
  split
  · rw [Tbl.get?_erase_other m k j h]
  · rw [Tbl.get?_put_other m k j v h]

/-! ### The register file (R9) -/

/-- A field reads what was written to it, cut to its width. -/
@[simp] theorem Dev.rd_wr_same (d : Dev) (f : Fld) (v : Nat) : (d.wr f v).rd f = v % 2 ^ f.width := by
  simp [Dev.rd, Dev.wr]

/-- A write of one field leaves every other field. -/
theorem Dev.rd_wr_other (d : Dev) (f g : Fld) (v : Nat) (h : g.key ≠ f.key) : (d.wr f v).rd g = d.rd g := by
  simp [Dev.rd, Dev.wr, Tbl.getD_putD_other _ _ _ _ _ _ h]

/-- A staged write shows in the staged value (R9). -/
@[simp] theorem Dev.rdStaged_wrStaged_same (d : Dev) (f : Fld) (v : Nat) :
    (d.wrStaged f v).rdStaged f = v % 2 ^ f.width := by
  simp [Dev.rdStaged, Dev.wrStaged, Dev.rd]

/-! ### State of a function, a port, an array, a block header, an event ring -/

@[simp] theorem Dev.fn_updFn (d : Dev) (f : Nat) (g : FnState → FnState) : (d.updFn f g).fn f = g (d.fn f) := by
  simp [Dev.fn, Dev.updFn]

@[simp] theorem Dev.port_updPort (d : Dev) (p : Nat) (g : PortSt → PortSt) : (d.updPort p g).port p = g (d.port p) := by
  simp [Dev.port, Dev.updPort]

@[simp] theorem Dev.arr_updArr (d : Dev) (a : Nat) (g : ArrSt → ArrSt) : (d.updArr a g).arr a = g (d.arr a) := by
  simp [Dev.arr, Dev.updArr]

@[simp] theorem Dev.note_updNote (d : Dev) (b : Blk) (g : BlkNote → BlkNote) : (d.updNote b g).note b = g (d.note b) := by
  simp [Dev.note, Dev.updNote]

@[simp] theorem Dev.ring_updRing (d : Dev) (f : Nat) (g : EvRing → EvRing) : (d.updRing f g).ring f = g (d.ring f) := by
  simp [Dev.ring, Dev.updRing]

@[simp] theorem Dev.vec_setVec (d : Dev) (f v : Nat) (m : MsixVec) : (d.setVec f v m).vec f v = m := by
  simp [Dev.vec, Dev.setVec]

end Sys2Proof.Machine
end

