-- ==== Sys2Proof/Laws/Memory.lean ====
section
/-! SUPPORT. The two addressed RAMs: every write keeps the canonical form, a byte reads what was written to it, and a write
leaves every other byte. -/

set_option Elab.async false

namespace Sys2Proof.Machine

theorem Memory.wfFrom_mono {lo lo' : Nat} (h : lo' ≤ lo) :
    ∀ {m : List Host.Cell}, Memory.wfFrom lo m = true → Memory.wfFrom lo' m = true
  | [], _ => rfl
  | (a, v) :: r, w => by
    simp only [Memory.wfFrom, Bool.and_eq_true, decide_eq_true_eq] at w ⊢
    exact ⟨⟨h.trans w.1.1, w.1.2⟩, w.2⟩

theorem Memory.wfFrom_put {k : Nat} {v : Byte} (hv : v ≠ 0) :
    ∀ {m : List Host.Cell} {lo : Nat}, lo ≤ k → Memory.wfFrom lo m = true → Memory.wfFrom lo (Tbl.put m k v) = true
  | [], lo, hk, _ => by
    simp only [Tbl.put, Memory.wfFrom, Bool.and_eq_true, decide_eq_true_eq]
    exact ⟨⟨hk, hv⟩, trivial⟩
  | (a, u) :: r, lo, hk, w => by
    simp only [Memory.wfFrom, Bool.and_eq_true, decide_eq_true_eq] at w
    simp only [Tbl.put]
    split
    · rename_i lt
      simp only [Memory.wfFrom, Bool.and_eq_true, decide_eq_true_eq]
      exact ⟨⟨hk, hv⟩, ⟨lt, w.1.2⟩, w.2⟩
    · rename_i ge
      split
      · rename_i e
        subst e
        simp only [Memory.wfFrom, Bool.and_eq_true, decide_eq_true_eq]
        exact ⟨⟨hk, hv⟩, w.2⟩
      · rename_i ne
        simp only [Memory.wfFrom, Bool.and_eq_true, decide_eq_true_eq]
        exact ⟨w.1, Memory.wfFrom_put hv (by omega) w.2⟩

theorem Memory.wfFrom_erase {k : Nat} :
    ∀ {m : List Host.Cell} {lo : Nat}, Memory.wfFrom lo m = true → Memory.wfFrom lo (Tbl.erase m k) = true
  | [], _, _ => rfl
  | (a, u) :: r, lo, w => by
    simp only [Memory.wfFrom, Bool.and_eq_true, decide_eq_true_eq] at w
    have ih := Memory.wfFrom_erase (k := k) w.2
    simp only [Tbl.erase, List.filter_cons] at ih ⊢
    split
    · simp only [Memory.wfFrom, Bool.and_eq_true, decide_eq_true_eq]
      exact ⟨w.1, ih⟩
    · exact Memory.wfFrom_mono (by omega) ih

/-- A write of one byte keeps the canonical form. -/
theorem Memory.wf_put (m : List Host.Cell) (a : Nat) (v : Byte) (h : Memory.wf m = true) :
    Memory.wf (Memory.put m a v) = true := by
  unfold Memory.put Tbl.putD
  split
  · exact Memory.wfFrom_erase h
  · rename_i hv
    exact Memory.wfFrom_put hv (Nat.zero_le a) h

/-- A write of a byte string keeps the canonical form. -/
theorem Memory.wf_putAll (vs : Bytes) : ∀ (m : List Host.Cell) (a : Nat), Memory.wf m = true →
    Memory.wf (Memory.putAll m a vs) = true := by
  induction vs with
  | nil => exact fun _ _ h => h
  | cons v r ih => exact fun m a h => ih _ _ (Memory.wf_put m a v h)

/-- A byte reads what was written to it. -/
@[simp] theorem Memory.get_put_same (m : List Host.Cell) (a : Nat) (v : Byte) : Memory.get (Memory.put m a v) a = v := by
  simp [Memory.get, Memory.put]

/-- A write leaves every other byte. -/
theorem Memory.get_put_other (m : List Host.Cell) (a b : Nat) (v : Byte) (h : b ≠ a) :
    Memory.get (Memory.put m a v) b = Memory.get m b := by
  simp [Memory.get, Memory.put, Tbl.getD_putD_other _ _ _ _ _ _ h]

/-- A write of a byte string leaves every byte outside it. -/
theorem Memory.get_putAll_outside (vs : Bytes) : ∀ (m : List Host.Cell) (a b : Nat), (b < a ∨ a + vs.length ≤ b) →
    Memory.get (Memory.putAll m a vs) b = Memory.get m b := by
  induction vs with
  | nil => intros; rfl
  | cons v r ih =>
    intro m a b h
    simp only [List.length_cons] at h
    rw [Memory.putAll, ih _ _ _ (by omega), Memory.get_put_other _ _ _ _ (by omega)]

end Sys2Proof.Machine
end

