-- ==== Sys2Proof/Laws/PerInstr.lean ====
section
/-! SUPPORT. A law of every command as syntax: a well-formed command names only units below their counts (R12, R38, R47, R177).
One lemma for each constructor. -/

set_option Elab.async false

namespace Sys2Proof

/-- The numbers of the units that a command names, each with the number of such units in the device. -/
def Instr.units : Instr → List (Nat × Nat)
  | .lowDwordRead fn _ => [(fn, 65)]
  | .msixUnmask fn _ => [(fn, 65)]
  | .flrVf fn => [(fn, 65)]
  | .flrComplete fn => [(fn, 65)]
  | .memorySpaceDisable fn => [(fn, 65)]
  | .busMasterDisable fn => [(fn, 65)]
  | .busMasterEnable fn => [(fn, 65)]
  | .d3hotEntry fn => [(fn, 65)]
  | .d0Entry fn => [(fn, 65)]
  | .quotaWrite _ fn _ _ => [(fn, 65)]
  | .sqTailDoorbell fn _ _ _ => [(fn, 65)]
  | .cqHeadDoorbell fn _ _ _ => [(fn, 65)]
  | .eventHeadDoorbell fn _ _ => [(fn, 65)]
  | .sqEnable fn _ => [(fn, 65)]
  | .sqDisable fn _ => [(fn, 65)]
  | .sqRestart fn _ => [(fn, 65)]
  | .cqEnable fn _ => [(fn, 65)]
  | .cqDisable fn _ => [(fn, 65)]
  | .eventRingEnable fn => [(fn, 65)]
  | .eventRingDisable fn => [(fn, 65)]
  | .streamHoldExpire array _ => [(array, 16)]
  | .channelLost channel => [(channel, 12)]
  | .eceRetestDone lane _ => [(lane, 2)]
  | .labelWriteDone array _ => [(array, 16)]
  | .assembleTimeout array => [(array, 16)]
  | .missingTimeout array _ => [(array, 16)]
  | .memberFail array _ => [(array, 16)]
  | .memberReplace array _ _ => [(array, 16)]
  | .memberRebuild array _ => [(array, 16)]
  | .rebuildStripe array _ => [(array, 16)]
  | .catchupCycle array _ _ => [(array, 16)]
  | .copybackCycle array _ => [(array, 16)]
  | .scrubPeriod array => [(array, 16)]
  | .scrubStripe array _ => [(array, 16)]
  | .restripeStep array _ => [(array, 16)]
  | .dfwPortDone port _ _ => [(port, 256)]
  | .dfwTimeout port => [(port, 256)]
  | .portCominit port _ => [(port, 256)]
  | .spinupSlot cluster => [(cluster, 8)]
  | .driveReady port => [(port, 256)]
  | .readyTimeout port => [(port, 256)]
  | .driveCommandComplete port _ _ => [(port, 256)]
  | .driveError port _ _ _ => [(port, 256)]
  | .driveCommandTimeout port _ => [(port, 256)]
  | .recoveryStep port _ => [(port, 256)]
  | .linkLoss port => [(port, 256)]
  | .graceExpire port => [(port, 256)]
  | .portReset port => [(port, 256)]
  | .portFail port => [(port, 256)]
  | .clusterReset cluster => [(cluster, 8)]
  | .clusterDisable cluster => [(cluster, 8)]
  | .clusterEnable cluster => [(cluster, 8)]
  | .clusterFail cluster => [(cluster, 8)]
  | .portPartial port => [(port, 256)]
  | .arrayPowerTimer array => [(array, 16)]
  | .powerEntryConfirm array => [(array, 16)]
  | .arrayWake array => [(array, 16)]
  | .pwrLatClear array => [(array, 16)]
  | .sgpioFrame cluster _ => [(cluster, 8)]
  | .loopbackStart port => [(port, 256)]
  | .loopbackStop port => [(port, 256)]
  | .loopbackEnd port _ => [(port, 256)]
  | .ntcFault ntc => [(ntc, 2)]
  | .adcUntrusted adc => [(adc, 2)]
  | .pairMismatch pair _ => [(pair, 3)]
  | .storeUncorrectable role _ => [(role, 2)]
  | .checkpoint role => [(role, 2)]
  | .pairTestDone pair _ => [(pair, 3)]
  | .bmeArm ch => [(ch, 8)]
  | .bmeResume ch => [(ch, 8)]
  | .bmeChannelDisable ch => [(ch, 8)]
  | .bmeChannelEnable ch => [(ch, 8)]
  | .bmeSetDone ch => [(ch, 8)]
  | .bmeSetError ch _ _ => [(ch, 8)]
  | _ => []

namespace Laws.Units

/-- A well-formed command names only units that the device has. -/
def Statement (i : Instr) : Prop := i.wf = true → ∀ p ∈ i.units, p.1 < p.2

theorem below {x b : Nat} (h : decide (x < b) = true) : ∀ p ∈ [(x, b)], p.1 < p.2 := by simpa using h
theorem fnBelow {x : Nat} (h : decide (x ≤ 64) = true) : ∀ p ∈ [(x, 65)], p.1 < p.2 := by
  simpa using Nat.lt_succ_of_le (of_decide_eq_true h)
theorem both {p q : Prop} [Decidable p] [Decidable (p ∧ q)] (h : decide (p ∧ q) = true) : decide p = true :=
  decide_eq_true (of_decide_eq_true h).1
theorem nothing {c : Prop} : c → ∀ p ∈ ([] : List (Nat × Nat)), p.1 < p.2 := by simp

theorem registerWrite : ∀ w, Statement (.registerWrite w) := fun _ => nothing
theorem lowDwordRead : ∀ fn r, Statement (.lowDwordRead fn r) := fun _ _ h => fnBelow h
theorem errClr : ∀ b, Statement (.errClr b) := fun _ => nothing
theorem softReset : ∀ b, Statement (.softReset b) := fun _ => nothing
theorem blockDisable : ∀ b, Statement (.blockDisable b) := fun _ => nothing
theorem blockEnable : ∀ b, Statement (.blockEnable b) := fun _ => nothing
theorem blockDrainDone : ∀ b, Statement (.blockDrainDone b) := fun _ => nothing
theorem lockSet : ∀ b bits, Statement (.lockSet b bits) := fun _ _ => nothing
theorem clockGate : ∀ b, Statement (.clockGate b) := fun _ => nothing
theorem commitGo : ∀ b token alsoDiscard, Statement (.commitGo b token alsoDiscard) := fun _ _ _ => nothing
theorem commitDiscard : ∀ b, Statement (.commitDiscard b) := fun _ => nothing
theorem commitComplete : ∀ b, Statement (.commitComplete b) := fun _ => nothing
theorem sidebandRead : ∀ addr, Statement (.sidebandRead addr) := fun _ => nothing
theorem sidebandWrite : ∀ addr v, Statement (.sidebandWrite addr v) := fun _ _ => nothing
theorem unsupportedRequest : ∀ r, Statement (.unsupportedRequest r) := fun _ => nothing
theorem configRequest : ∀ fn off wr, Statement (.configRequest fn off wr) := fun _ _ _ => nothing
theorem numVfsWrite : ∀ n, Statement (.numVfsWrite n) := fun _ => nothing
theorem vfEnableSet : Statement .vfEnableSet := nothing
theorem vfEnableClear : Statement .vfEnableClear := nothing
theorem msixUnmask : ∀ fn vec, Statement (.msixUnmask fn vec) := fun _ _ h => fnBelow (Bool.and_eq_true_iff.mp h).1
theorem tagGrant : Statement .tagGrant := nothing
theorem hostReadCompletion : ∀ tag data poisoned, Statement (.hostReadCompletion tag data poisoned) :=
  fun _ _ _ => nothing
theorem completionTimeout : ∀ tag, Statement (.completionTimeout tag) := fun _ => nothing
theorem quarantineExpire : ∀ tag, Statement (.quarantineExpire tag) := fun _ => nothing
theorem unexpectedCompletion : ∀ tag, Statement (.unexpectedCompletion tag) := fun _ => nothing
theorem perstAssert : Statement .perstAssert := nothing
theorem perstDeassert : Statement .perstDeassert := nothing
theorem hotReset : Statement .hotReset := nothing
theorem flrPf0 : Statement .flrPf0 := nothing
theorem flrVf : ∀ fn, Statement (.flrVf fn) := fun _ h => fnBelow h
theorem flrComplete : ∀ fn, Statement (.flrComplete fn) := fun _ h => fnBelow h
theorem memorySpaceDisable : ∀ fn, Statement (.memorySpaceDisable fn) := fun _ h => fnBelow h
theorem busMasterDisable : ∀ fn, Statement (.busMasterDisable fn) := fun _ h => fnBelow h
theorem busMasterEnable : ∀ fn, Statement (.busMasterEnable fn) := fun _ h => fnBelow h
theorem d3hotEntry : ∀ fn, Statement (.d3hotEntry fn) := fun _ h => fnBelow h
theorem d0Entry : ∀ fn, Statement (.d0Entry fn) := fun _ h => fnBelow h
theorem pmeTurnOff : Statement .pmeTurnOff := nothing
theorem l1EntryRequest : Statement .l1EntryRequest := nothing
theorem l0pNarrow : Statement .l0pNarrow := nothing
theorem l0pWiden : Statement .l0pWiden := nothing
theorem containment : ∀ cause fn, Statement (.containment cause fn) := fun _ _ => nothing
theorem containRelease : Statement .containRelease := nothing
theorem containLogClr : Statement .containLogClr := nothing
theorem quotaWrite : ∀ cq fn base count, Statement (.quotaWrite cq fn base count) := fun _ _ _ _ h => fnBelow h
theorem sqTailDoorbell : ∀ fn i v partialBytes, Statement (.sqTailDoorbell fn i v partialBytes) :=
  fun _ _ _ _ h => fnBelow h
theorem cqHeadDoorbell : ∀ fn i v partialBytes, Statement (.cqHeadDoorbell fn i v partialBytes) :=
  fun _ _ _ _ h => fnBelow h
theorem eventHeadDoorbell : ∀ fn v partialBytes, Statement (.eventHeadDoorbell fn v partialBytes) :=
  fun _ _ _ h => fnBelow h
theorem sqEnable : ∀ fn i, Statement (.sqEnable fn i) := fun _ _ h => fnBelow h
theorem sqDisable : ∀ fn i, Statement (.sqDisable fn i) := fun _ _ h => fnBelow h
theorem sqRestart : ∀ fn i, Statement (.sqRestart fn i) := fun _ _ h => fnBelow h
theorem cqEnable : ∀ fn i, Statement (.cqEnable fn i) := fun _ _ h => fnBelow h
theorem cqDisable : ∀ fn i, Statement (.cqDisable fn i) := fun _ _ h => fnBelow h
theorem eventRingEnable : ∀ fn, Statement (.eventRingEnable fn) := fun _ h => fnBelow h
theorem eventRingDisable : ∀ fn, Statement (.eventRingDisable fn) := fun _ h => fnBelow h
theorem arbitrate : Statement .arbitrate := nothing
theorem entryAdmit : Statement .entryAdmit := nothing
theorem fragmentTableCheck : ∀ adm, Statement (.fragmentTableCheck adm) := fun _ => nothing
theorem haltRecordClear : Statement .haltRecordClear := nothing
theorem read : ∀ adm, Statement (.read adm) := fun _ => nothing
theorem write : ∀ adm, Statement (.write adm) := fun _ => nothing
theorem flush : ∀ adm, Statement (.flush adm) := fun _ => nothing
theorem verify : ∀ adm, Statement (.verify adm) := fun _ => nothing
theorem deallocate : ∀ adm, Statement (.deallocate adm) := fun _ => nothing
theorem writeZeroes : ∀ adm, Statement (.writeZeroes adm) := fun _ => nothing
theorem nop : ∀ adm, Statement (.nop adm) := fun _ => nothing
theorem identify : ∀ adm, Statement (.identify adm) := fun _ => nothing
theorem getLog : ∀ adm, Statement (.getLog adm) := fun _ => nothing
theorem detAck : ∀ adm, Statement (.detAck adm) := fun _ => nothing
theorem outcomeRead : ∀ adm, Statement (.outcomeRead adm) := fun _ => nothing
theorem setEventMask : ∀ adm, Statement (.setEventMask adm) := fun _ => nothing
theorem fenceRelease : ∀ adm, Statement (.fenceRelease adm) := fun _ => nothing
theorem rangeLockGrant : ∀ adm, Statement (.rangeLockGrant adm) := fun _ => nothing
theorem admissionGrant : Statement .admissionGrant := nothing
theorem blockFlip : ∀ adm, Statement (.blockFlip adm) := fun _ => nothing
theorem streamHoldExpire : ∀ array stripe, Statement (.streamHoldExpire array stripe) := fun _ _ h => below h
theorem destageStart : Statement .destageStart := nothing
theorem memberReadDone : ∀ op, Statement (.memberReadDone op) := fun _ => nothing
theorem memberWriteDone : ∀ op, Statement (.memberWriteDone op) := fun _ => nothing
theorem readDeadline : ∀ op, Statement (.readDeadline op) := fun _ => nothing
theorem patrolRead : ∀ g item line bits, Statement (.patrolRead g item line bits) := fun _ _ _ _ => nothing
theorem ceilingRecompute : Statement .ceilingRecompute := nothing
theorem channelLost : ∀ channel, Statement (.channelLost channel) := fun _ h => below h
theorem groupRejoin : ∀ trained, Statement (.groupRejoin trained) := fun _ => nothing
theorem rejoinDone : Statement .rejoinDone := nothing
theorem smcRequest : ∀ r la op err, Statement (.smcRequest r la op err) := fun _ _ _ _ => nothing
theorem smcFillDone : ∀ x, Statement (.smcFillDone x) := fun _ => nothing
theorem smcJournalAck : ∀ seq, Statement (.smcJournalAck seq) := fun _ => nothing
theorem smcWritebackDone : ∀ la, Statement (.smcWritebackDone la) := fun _ => nothing
theorem smcInvalidate : Statement .smcInvalidate := nothing
theorem smcInvalidateDone : Statement .smcInvalidateDone := nothing
theorem smcRekey : Statement .smcRekey := nothing
theorem smcBist : Statement .smcBist := nothing
theorem smcBistDone : ∀ pass, Statement (.smcBistDone pass) := fun _ => nothing
theorem smcResetInvalidation : Statement .smcResetInvalidation := nothing
theorem smcHotSample : Statement .smcHotSample := nothing
theorem katInterval : Statement .katInterval := nothing
theorem katRun : Statement .katRun := nothing
theorem katDone : ∀ firstOk repeatOk, Statement (.katDone firstOk repeatOk) := fun _ _ => nothing
theorem encode : ∀ job, Statement (.encode job) := fun _ => nothing
theorem deltaUpdate : ∀ job, Statement (.deltaUpdate job) := fun _ => nothing
theorem decode : ∀ job, Statement (.decode job) := fun _ => nothing
theorem syndromeCheck : ∀ job, Statement (.syndromeCheck job) := fun _ => nothing
theorem eceRowRetry : ∀ job retryOk, Statement (.eceRowRetry job retryOk) := fun _ _ => nothing
theorem eceRetest : Statement .eceRetest := nothing
theorem eceRetestDone : ∀ lane runsPassed, Statement (.eceRetestDone lane runsPassed) := fun _ _ h => below h
theorem labelWriteDone : ∀ array failedMembers, Statement (.labelWriteDone array failedMembers) :=
  fun _ _ h => below h
theorem assembleTimeout : ∀ array, Statement (.assembleTimeout array) := fun _ h => below h
theorem missingTimeout : ∀ array member, Statement (.missingTimeout array member) := fun _ _ h => below h
theorem memberFail : ∀ array member, Statement (.memberFail array member) := fun _ _ h => below h
theorem memberReplace : ∀ array member port, Statement (.memberReplace array member port) := fun _ _ _ h => below h
theorem memberRebuild : ∀ array member, Statement (.memberRebuild array member) := fun _ _ h => below h
theorem rebuildStripe : ∀ array units, Statement (.rebuildStripe array units) := fun _ _ h => below h
theorem catchupCycle : ∀ array member units, Statement (.catchupCycle array member units) :=
  fun _ _ _ h => below (both h)
theorem copybackCycle : ∀ array units, Statement (.copybackCycle array units) := fun _ _ h => below h
theorem scrubPeriod : ∀ array, Statement (.scrubPeriod array) := fun _ h => below h
theorem scrubStripe : ∀ array units, Statement (.scrubStripe array units) := fun _ _ h => below h
theorem restripeStep : ∀ array data, Statement (.restripeStep array data) := fun _ _ h => below h
theorem dfwGo : Statement .dfwGo := nothing
theorem dfwPortDone : ∀ port ident ok, Statement (.dfwPortDone port ident ok) := fun _ _ _ h => below h
theorem dfwTimeout : ∀ port, Statement (.dfwTimeout port) := fun _ h => below h
theorem arbiterRequest : ∀ reqs, Statement (.arbiterRequest reqs) := fun _ => nothing
theorem deferredStart : ∀ act array, Statement (.deferredStart act array) := fun _ _ => nothing
theorem hotspotSample : ∀ busy, Statement (.hotspotSample busy) := fun _ => nothing
theorem portCominit : ∀ port dev, Statement (.portCominit port dev) := fun _ _ h => below h
theorem spinupSlot : ∀ cluster, Statement (.spinupSlot cluster) := fun _ h => below h
theorem driveReady : ∀ port, Statement (.driveReady port) := fun _ h => below h
theorem readyTimeout : ∀ port, Statement (.readyTimeout port) := fun _ h => below h
theorem driveCommandComplete : ∀ port op data, Statement (.driveCommandComplete port op data) :=
  fun _ _ _ h => below h
theorem driveError : ∀ port op e sense, Statement (.driveError port op e sense) := fun _ _ _ _ h => below h
theorem driveCommandTimeout : ∀ port op, Statement (.driveCommandTimeout port op) := fun _ _ h => below h
theorem recoveryStep : ∀ port answered, Statement (.recoveryStep port answered) := fun _ _ h => below h
theorem linkLoss : ∀ port, Statement (.linkLoss port) := fun _ h => below h
theorem graceExpire : ∀ port, Statement (.graceExpire port) := fun _ h => below h
theorem portReset : ∀ port, Statement (.portReset port) := fun _ h => below h
theorem portFail : ∀ port, Statement (.portFail port) := fun _ h => below h
theorem clusterReset : ∀ cluster, Statement (.clusterReset cluster) := fun _ h => below h
theorem clusterDisable : ∀ cluster, Statement (.clusterDisable cluster) := fun _ h => below h
theorem clusterEnable : ∀ cluster, Statement (.clusterEnable cluster) := fun _ h => below h
theorem clusterFail : ∀ cluster, Statement (.clusterFail cluster) := fun _ h => below h
theorem portPartial : ∀ port, Statement (.portPartial port) := fun _ h => below h
theorem arrayPowerTimer : ∀ array, Statement (.arrayPowerTimer array) := fun _ h => below h
theorem powerEntryConfirm : ∀ array, Statement (.powerEntryConfirm array) := fun _ h => below h
theorem arrayWake : ∀ array, Statement (.arrayWake array) := fun _ h => below h
theorem pwrLatClear : ∀ array, Statement (.pwrLatClear array) := fun _ h => below h
theorem sgpioFrame : ∀ cluster present, Statement (.sgpioFrame cluster present) := fun _ _ h => below h
theorem loopbackStart : ∀ port, Statement (.loopbackStart port) := fun _ h => below h
theorem loopbackStop : ∀ port, Statement (.loopbackStop port) := fun _ h => below h
theorem loopbackEnd : ∀ port errors, Statement (.loopbackEnd port errors) := fun _ _ h => below h
theorem packAbsent : Statement .packAbsent := nothing
theorem packPresent : Statement .packPresent := nothing
theorem ntcFault : ∀ ntc, Statement (.ntcFault ntc) := fun _ h => below h
theorem chargeLoop : Statement .chargeLoop := nothing
theorem chargeSetpoint : Statement .chargeSetpoint := nothing
theorem chargeDone : Statement .chargeDone := nothing
theorem chargeRestart : Statement .chargeRestart := nothing
theorem chargerInhibit : ∀ on, Statement (.chargerInhibit on) := fun _ => nothing
theorem restPoint : Statement .restPoint := nothing
theorem filterStep : Statement .filterStep := nothing
theorem loadStep : ∀ m, Statement (.loadStep m) := fun _ => nothing
theorem naturalStep : ∀ m, Statement (.naturalStep m) := fun _ => nothing
theorem haloPublish : Statement .haloPublish := nothing
theorem haloFirstBound : Statement .haloFirstBound := nothing
theorem restWindowRequest : ∀ byHost, Statement (.restWindowRequest byHost) := fun _ => nothing
theorem restWindowCheck : Statement .restWindowCheck := nothing
theorem restWindowEnd : Statement .restWindowEnd := nothing
theorem learnDue : Statement .learnDue := nothing
theorem learnGo : Statement .learnGo := nothing
theorem learnAbort : Statement .learnAbort := nothing
theorem learnPhase : Statement .learnPhase := nothing
theorem gaugeReset : Statement .gaugeReset := nothing
theorem newPack : Statement .newPack := nothing
theorem paramWrite : ∀ firstOk secondOk, Statement (.paramWrite firstOk secondOk) := fun _ _ => nothing
theorem adcUntrusted : ∀ adc, Statement (.adcUntrusted adc) := fun _ h => below h
theorem calRound : ∀ m, Statement (.calRound m) := fun _ => nothing
theorem rampStep : Statement .rampStep := nothing
theorem calHoldRelease : Statement .calHoldRelease := nothing
theorem dramRetrain : Statement .dramRetrain := nothing
theorem retrainChannel : ∀ ok, Statement (.retrainChannel ok) := fun _ => nothing
theorem pwrFail : Statement .pwrFail := nothing
theorem pwrFailGlitch : Statement .pwrFailGlitch := nothing
theorem brownout : Statement .brownout := nothing
theorem pwrGoodFall : Statement .pwrGoodFall := nothing
theorem duskStart : Statement .duskStart := nothing
theorem vaultDieFail : ∀ group die, Statement (.vaultDieFail group die) := fun _ _ => nothing
theorem duskSealed : ∀ durationUs, Statement (.duskSealed durationUs) := fun _ => nothing
theorem sleepExit : ∀ b, Statement (.sleepExit b) := fun _ => nothing
theorem pwrGoodRise : ∀ b, Statement (.pwrGoodRise b) := fun _ => nothing
theorem holdRelease : ∀ b, Statement (.holdRelease b) := fun _ => nothing
theorem dramTrainingDone : ∀ trained dimmGib, Statement (.dramTrainingDone trained dimmGib) := fun _ _ => nothing
theorem vaultAccept : Statement .vaultAccept := nothing
theorem vaultDiscard : Statement .vaultDiscard := nothing
theorem dawnRestoreDone : ∀ bad, Statement (.dawnRestoreDone bad) := fun _ => nothing
theorem vaultErase : ∀ bytes done, Statement (.vaultErase bytes done) := fun _ _ => nothing
theorem imageBackgroundCheck : ∀ image, Statement (.imageBackgroundCheck image) := fun _ => nothing
theorem peRefclkLost : Statement .peRefclkLost := nothing
theorem peRefclkRestored : Statement .peRefclkRestored := nothing
theorem dpRefclkLost : Statement .dpRefclkLost := nothing
theorem thermalSample : ∀ temps, Statement (.thermalSample temps) := fun _ => nothing
theorem throttleStep : ∀ step, Statement (.throttleStep step) := fun _ => nothing
theorem thermCfgWrite : ∀ v, Statement (.thermCfgWrite v) := fun _ => nothing
theorem pairMismatch : ∀ pair stallNs, Statement (.pairMismatch pair stallNs) := fun _ _ h => below h
theorem storeUncorrectable : ∀ role stallNs, Statement (.storeUncorrectable role stallNs) := fun _ _ h => below h
theorem checkpoint : ∀ role, Statement (.checkpoint role) := fun _ h => below h
theorem pairTestDone : ∀ pair pass, Statement (.pairTestDone pair pass) := fun _ _ h => below h
theorem pairRetest : ∀ bits, Statement (.pairRetest bits) := fun _ => nothing
theorem fwWrite : Statement .fwWrite := nothing
theorem fwWriteDone : ∀ image readBackOk, Statement (.fwWriteDone image readBackOk) := fun _ _ => nothing
theorem fwActivate : ∀ image, Statement (.fwActivate image) := fun _ => nothing
theorem fwActivationDone : ∀ e, Statement (.fwActivationDone e) := fun _ => nothing
theorem ppsEdge : ∀ falling jitterNs, Statement (.ppsEdge falling jitterNs) := fun _ _ => nothing
theorem ppsMiss : Statement .ppsMiss := nothing
theorem secondWrap : Statement .secondWrap := nothing
theorem timeSetArm : Statement .timeSetArm := nothing
theorem ppsEnable : ∀ on, Statement (.ppsEnable on) := fun _ => nothing
theorem bmeArm : ∀ ch, Statement (.bmeArm ch) := fun _ h => below h
theorem bmeResume : ∀ ch, Statement (.bmeResume ch) := fun _ h => below h
theorem bmeChannelDisable : ∀ ch, Statement (.bmeChannelDisable ch) := fun _ h => below h
theorem bmeChannelEnable : ∀ ch, Statement (.bmeChannelEnable ch) := fun _ h => below h
theorem bmeSetDone : ∀ ch, Statement (.bmeSetDone ch) := fun _ h => below h
theorem bmeSetError : ∀ ch error doneBytes, Statement (.bmeSetError ch error doneBytes) := fun _ _ _ h => below h
theorem packSample : ∀ p, Statement (.packSample p) := fun _ => nothing
theorem retrainChannelReturn : Statement .retrainChannelReturn := nothing
theorem vddAonApplied : Statement .vddAonApplied := nothing
theorem pwrFailRelease : Statement .pwrFailRelease := nothing

end Laws.Units

end Sys2Proof
end

