-- ==== Sys2Proof/Laws/Settle.lean ====
section
/-! SUPPORT. What reports can do (interrupt causes, counters, events, Squalls, MSI-X, messages): they change the report
state, the MSI-X table, the functions' PME and overflow bits, the link's low-power state and what is sent, nothing else;
what the end of a command can do beside that: BLK_STAT.state and BLK_POWER.pstate. -/

set_option Elab.async false

namespace Sys2Proof.Machine

/-! ### Reports -/

/-- e is d after reports: everything else is as in d, and nothing sent is unsent. -/
structure Dev.Reports (d e : Dev) : Prop where
  same : e = { d with nt := e.nt, emitted := e.emitted, hif := { d.hif with
    fns := e.hif.fns, msix := e.hif.msix, link := e.hif.link, ltrBusy := e.hif.ltrBusy } }
  sent : d.emitted <:+ e.emitted

theorem Dev.Reports.refl (d : Dev) : Dev.Reports d d := ⟨rfl, List.suffix_rfl⟩

theorem Dev.Reports.trans {a b c : Dev} (h : Dev.Reports a b) (k : Dev.Reports b c) : Dev.Reports a c := by
  refine ⟨?_, h.sent.trans k.sent⟩
  obtain ⟨hs, -⟩ := h
  obtain ⟨ks, -⟩ := k
  rw [hs] at ks
  exact ks

/-- A choice between reports. -/
theorem Dev.Reports.ite {c : Prop} [Decidable c] {d a b : Dev} (h : Dev.Reports d a) (k : Dev.Reports d b) :
    Dev.Reports d (if c then a else b) := by split <;> assumption

/-- Reports for each element of a list. -/
theorem Dev.Reports.forEach {α : Type} (f : α → Dev → Dev) (h : ∀ x d, Dev.Reports d (f x d)) (xs : List α) :
    ∀ d, Dev.Reports d (forEach xs f d) := by
  induction xs with
  | nil => exact fun d => .refl d
  | cons x r ih => exact fun d => (h x d).trans (ih (f x d))

theorem Dev.emit_reports (d : Dev) (e : Emit) : Dev.Reports d (d.emit e) := ⟨rfl, List.suffix_cons _ _⟩
theorem Dev.exitL1_reports (d : Dev) : Dev.Reports d d.exitL1 := by unfold Dev.exitL1; exact .ite ⟨rfl, List.suffix_rfl⟩ (.refl d)
theorem Dev.setVec_reports (d : Dev) (f v : Nat) (m : MsixVec) : Dev.Reports d (d.setVec f v m) := ⟨rfl, List.suffix_rfl⟩
theorem Dev.updFn_reports (d : Dev) (f : Nat) (g : FnState → FnState) : Dev.Reports d (d.updFn f g) := ⟨rfl, List.suffix_rfl⟩
theorem Dev.updNote_reports (d : Dev) (b : Blk) (g : BlkNote → BlkNote) : Dev.Reports d (d.updNote b g) :=
  ⟨rfl, List.suffix_rfl⟩
theorem Dev.updRing_reports (d : Dev) (f : Nat) (g : EvRing → EvRing) : Dev.Reports d (d.updRing f g) :=
  ⟨rfl, List.suffix_rfl⟩
theorem Dev.nt_reports (d : Dev) (n : NoteState) : Dev.Reports d { d with nt := n } := ⟨rfl, List.suffix_rfl⟩

theorem Dev.raiseVec_reports (d : Dev) (f v : Nat) : Dev.Reports d (d.raiseVec f v) := by
  unfold Dev.raiseVec
  exact .ite (.refl d) (.ite (((d.setVec_reports f v _).trans (Dev.exitL1_reports _)).trans (Dev.emit_reports _ _))
    (d.setVec_reports f v _))

theorem Dev.cause_reports (d : Dev) (b : Blk) (m : Nat) : Dev.Reports d (d.cause b m) := d.updNote_reports b _
theorem Dev.refuse_reports (d : Dev) (b : Blk) : Dev.Reports d (d.refuse b) := d.cause_reports b _
theorem Dev.causeBit_reports (d : Dev) (b : Blk) (i : Nat) : Dev.Reports d (d.causeBit b i) := d.cause_reports b _
theorem Dev.errCorr_reports (d : Dev) (b : Blk) (c : Nat) : Dev.Reports d (d.errCorr b c) := d.updNote_reports b _
theorem Dev.errUncorr_reports (d : Dev) (b : Blk) (c : Nat) : Dev.Reports d (d.errUncorr b c) := d.updNote_reports b _

theorem Dev.writeHost_reports (d : Dev) (f a : Nat) (bs : Bytes) (r : Bool) : Dev.Reports d (d.writeHost f a bs r) := by
  unfold Dev.writeHost
  exact .forEach _ (fun _ d => d.exitL1_reports.trans (Dev.emit_reports _ _)) _ d

theorem Dev.putEvent_reports (d : Dev) (f : Nat) (e : Event) : Dev.Reports d (d.putEvent f e) := by
  unfold Dev.putEvent
  exact (d.writeHost_reports f _ _ false).trans (Dev.updRing_reports _ f _)

theorem Dev.raiseRing_reports (d : Dev) (f : Nat) : Dev.Reports d (d.raiseRing f) := by
  unfold Dev.raiseRing
  exact .ite (d.raiseVec_reports _ _) (.refl d)

theorem Dev.writeEvent_reports (d : Dev) (f : Nat) (e : Event) : Dev.Reports d (d.writeEvent f e) :=
  (d.putEvent_reports f e).trans (Dev.raiseRing_reports _ f)

theorem Dev.pmeEvent_reports (d : Dev) (f : Nat) : Dev.Reports d (d.pmeEvent f) := by
  unfold Dev.pmeEvent
  have h := d.updFn_reports f fun x => { x with pmeStatus := true }
  refine .ite (.ite (.ite (.ite ((h.trans (Dev.nt_reports _ _)).trans (Dev.emit_reports _ _)) h) (.ite ?_ h)) h) (.refl d)
  exact (h.trans (Dev.exitL1_reports _)).trans (Dev.emit_reports _ _)

theorem Dev.deliver_reports (d : Dev) (f : Nat) (e : Event) : Dev.Reports d (d.deliver f e) := by
  unfold Dev.deliver
  have h := (d.updRing_reports f fun r => { r with seq := (r.seq + 1) % 2 ^ 32 }).trans (Dev.pmeEvent_reports _ f)
  have k := (h.trans (Dev.updRing_reports _ f fun r => { r with lost := min (r.lost + 1) 0xFFFF })).trans
    (Dev.causeBit_reports _ .qmx 18)
  refine .ite (.refl d) (.ite (h.trans (Dev.writeEvent_reports _ _ _)) (.ite (h.trans (Dev.updRing_reports _ _ _))
    (.ite k ((k.trans (Dev.updFn_reports _ _ _)).trans (Dev.causeBit_reports _ _ _)))))

theorem Dev.post_reports (d : Dev) (a b c e f g h : Nat) : Dev.Reports d (d.post a b c e f g h) := d.deliver_reports _ _

theorem Dev.postVolume_reports (d : Dev) (m a b c e f g : Nat) : Dev.Reports d (d.postVolume m a b c e f g) := by
  unfold Dev.postVolume
  exact .forEach _ (fun _ d => d.deliver_reports _ _) _ d

theorem Dev.drainEvents_reports (n : Nat) (f : Nat) : ∀ d : Dev, Dev.Reports d (Dev.drainEvents n f d) := by
  induction n with
  | zero => exact fun d => .refl d
  | succ n ih =>
    intro d
    unfold Dev.drainEvents
    split
    · exact .refl d
    · exact .ite (((d.updRing_reports f _).trans (Dev.putEvent_reports _ _ _)).trans (ih _)) (.refl d)

theorem Dev.drainHalt_reports (d : Dev) (f : Nat) : Dev.Reports d (d.drainHalt f) := by
  unfold Dev.drainHalt
  split
  · exact .ite ((d.updRing_reports f _).trans (Dev.writeEvent_reports _ _ _)) (.refl d)
  · exact .refl d

theorem Dev.drainPass_reports (d : Dev) (f : Nat) : Dev.Reports d (d.drainPass f) := by
  unfold Dev.drainPass
  exact .ite ((Dev.drainEvents_reports _ f d).trans (Dev.raiseRing_reports _ f)) (Dev.drainEvents_reports _ f d)

theorem Dev.drainRing_reports (d : Dev) (f : Nat) : Dev.Reports d (d.drainRing f) :=
  .ite (d.drainHalt_reports f) (d.drainPass_reports f)

theorem Dev.squall_reports (d : Dev) (b : Blk) (fault stall : Nat) : Dev.Reports d (d.squall b fault stall) := by
  unfold Dev.squall
  exact .ite (((Dev.nt_reports d _).trans (Dev.causeBit_reports _ _ _)).trans (Dev.post_reports _ _ _ _ _ _ _ _))
    ((Dev.nt_reports d _).trans (Dev.causeBit_reports _ _ _))

/-! ### The end of a command -/

/-- e is d after what ends a command: header states and causes, the LTR message, the SYS_INT_SUM message. -/
structure Dev.Settles (d e : Dev) : Prop where
  same : e = { d with
    regs := e.regs
    nt := { d.nt with blks := e.nt.blks, sumLive := e.nt.sumLive }
    emitted := e.emitted
    hif := { d.hif with msix := e.hif.msix, link := e.hif.link, ltrBusy := e.hif.ltrBusy } }
  sent : d.emitted <:+ e.emitted
  fields : ∀ f : Fld, stateKey f.key = false → e.rd f = d.rd f

theorem Dev.Settles.refl (d : Dev) : Dev.Settles d d := ⟨rfl, List.suffix_rfl, fun _ _ => rfl⟩

theorem Dev.Settles.trans {a b c : Dev} (h : Dev.Settles a b) (k : Dev.Settles b c) : Dev.Settles a c := by
  refine ⟨?_, h.sent.trans k.sent, fun f hf => (k.fields f hf).trans (h.fields f hf)⟩
  obtain ⟨hs, -, -⟩ := h
  obtain ⟨ks, -, -⟩ := k
  rw [hs] at ks
  exact ks

theorem Dev.Settles.ite {c : Prop} [Decidable c] {d a b : Dev} (h : Dev.Settles d a) (k : Dev.Settles d b) :
    Dev.Settles d (if c then a else b) := by split <;> assumption

theorem Dev.wr_settles (d : Dev) (f : Fld) (v : Nat) (h : stateKey f.key = true) : Dev.Settles d (d.wr f v) := by
  refine ⟨rfl, List.suffix_rfl, fun g hg => Dev.rd_wr_other d f g v ?_⟩
  intro e
  rw [e, h] at hg
  exact absurd hg (by decide)

theorem stateKey_state (b : Blk) : stateKey (Reg.BLK_STAT_state.ix b.page).key = true := by cases b <;> decide
theorem stateKey_pstate (b : Blk) : stateKey (Reg.BLK_POWER_pstate.ix b.page).key = true := by cases b <;> decide

theorem Dev.cause_settles (d : Dev) (b : Blk) (m : Nat) : Dev.Settles d (d.cause b m) :=
  ⟨rfl, List.suffix_rfl, fun _ _ => rfl⟩

theorem Dev.emit_settles (d : Dev) (e : Emit) : Dev.Settles d (d.emit e) :=
  ⟨rfl, List.suffix_cons _ _, fun _ _ => rfl⟩

theorem Dev.exitL1_settles (d : Dev) : Dev.Settles d d.exitL1 := by
  unfold Dev.exitL1
  exact .ite ⟨rfl, List.suffix_rfl, fun _ _ => rfl⟩ (.refl d)

theorem Dev.raiseVec_settles (d : Dev) (f v : Nat) : Dev.Settles d (d.raiseVec f v) := by
  have s (m : MsixVec) : Dev.Settles d (d.setVec f v m) := ⟨rfl, List.suffix_rfl, fun _ _ => rfl⟩
  unfold Dev.raiseVec
  exact .ite (.refl d) (.ite (((s _).trans (Dev.exitL1_settles _)).trans (Dev.emit_settles _ _)) (s _))

theorem Dev.setState_settles (d : Dev) (b : Blk) (st : Nat) : Dev.Settles d (d.setState b st) := by
  unfold Dev.setState
  exact .ite (.refl d) ((d.wr_settles _ _ (stateKey_state b)).trans (Dev.cause_settles _ _ _))

theorem Dev.ungate_settles (d : Dev) (b : Blk) : Dev.Settles d (d.ungate b) := by
  unfold Dev.ungate
  exact .ite (.refl d) (d.wr_settles _ _ (stateKey_pstate b))

theorem Dev.showState_settles (d : Dev) (b : Blk) : Dev.Settles d (d.showState b) := by
  have h : Dev.Settles d (if d.working b then d.ungate b else d) := .ite (d.ungate_settles b) (.refl d)
  unfold Dev.showState
  exact .ite (h.trans (Dev.setState_settles _ _ _)) h

theorem Dev.showLtr_settles (d : Dev) : Dev.Settles d d.showLtr := by
  unfold Dev.showLtr
  have h (b : Bool) : Dev.Settles d { d with hif := { d.hif with ltrBusy := b } } := ⟨rfl, List.suffix_rfl, fun _ _ => rfl⟩
  exact .ite (((h _).trans (Dev.exitL1_settles _)).trans (Dev.emit_settles _ _)) (.refl d)

theorem Dev.showSum_settles (d : Dev) : Dev.Settles d d.showSum := by
  have k (e : Dev) (b : Bool) : Dev.Settles e { e with nt := { e.nt with sumLive := b } } :=
    ⟨rfl, List.suffix_rfl, fun _ _ => rfl⟩
  unfold Dev.showSum
  exact .trans (.ite (Dev.raiseVec_settles d _ _) (.refl d)) (k _ _)

theorem Dev.settle_settles (d : Dev) : Dev.Settles d d.settle := by
  have h : ∀ (bs : List Blk) (d : Dev), Dev.Settles d (bs.foldl Dev.showState d) := by
    intro bs
    induction bs with
    | nil => exact fun d => .refl d
    | cons b r ih => exact fun d => (d.showState_settles b).trans (ih _)
  exact ((h allBlks d).trans (Dev.showLtr_settles _)).trans (Dev.showSum_settles _)

/-- What the end of a command leaves unchanged. -/
@[simp] theorem Dev.settle_keeps (d : Dev) :
    (d.settle).staged = d.staged ∧ (d.settle).hiLatch = d.hiLatch ∧ (d.settle).heldLow = d.heldLow ∧
    (d.settle).ticks = d.ticks ∧ (d.settle).freeCtr = d.freeCtr ∧ (d.settle).sys = d.sys ∧ (d.settle).qmx = d.qmx ∧
    (d.settle).lay = d.lay ∧ (d.settle).dram = d.dram ∧ (d.settle).pwc = d.pwc ∧ (d.settle).smc = d.smc ∧
    (d.settle).ece = d.ece ∧ (d.settle).dpx = d.dpx ∧ (d.settle).mnt = d.mnt ∧ (d.settle).vlt = d.vlt ∧
    (d.settle).bps = d.bps ∧ (d.settle).tmb = d.tmb ∧ (d.settle).ccx = d.ccx ∧ (d.settle).bme = d.bme :=
  by
  have h := d.settle_settles.same
  rw [h]
  exact ⟨rfl, rfl, rfl, rfl, rfl, rfl, rfl, rfl, rfl, rfl, rfl, rfl, rfl, rfl, rfl, rfl, rfl, rfl, rfl⟩

/-- Host-side and report state that the end of a command leaves unchanged. -/
@[simp] theorem Dev.settle_keeps_hif (d : Dev) :
    d.settle.hif.tags = d.hif.tags ∧ d.settle.hif.waiting = d.hif.waiting ∧ d.settle.hif.vfEnable = d.hif.vfEnable ∧
    d.settle.hif.numVfs = d.hif.numVfs ∧ d.settle.hif.freezeOwed = d.hif.freezeOwed ∧
    d.settle.hif.pmeTurnedOff = d.hif.pmeTurnedOff ∧ d.settle.hif.fns = d.hif.fns ∧
    d.settle.nt.rings = d.nt.rings ∧ d.settle.nt.sqlCount = d.nt.sqlCount := by
  have h := d.settle_settles.same
  rw [h]
  exact ⟨rfl, rfl, rfl, rfl, rfl, rfl, rfl, rfl, rfl⟩

/-- The end of a command changes no function's host-side state. -/
@[simp] theorem Dev.settle_fn (d : Dev) (f : Nat) : d.settle.fn f = d.fn f := by simp [Dev.fn]

/-- The end of a command changes no event ring. -/
@[simp] theorem Dev.settle_ring (d : Dev) (f : Nat) : d.settle.ring f = d.ring f := by simp [Dev.ring]

/-- Every register field but BLK_STAT.state and BLK_POWER.pstate reads the same after the end of a command. -/
theorem Dev.settle_rd (d : Dev) (f : Fld) (h : stateKey f.key = false) : d.settle.rd f = d.rd f :=
  d.settle_settles.fields f h

/-- Nothing sent is unsent at the end of a command. -/
theorem Dev.settle_sent (d : Dev) : d.emitted <:+ d.settle.emitted := d.settle_settles.sent

/-! ### Header counters, causes and states at the end of a command -/

theorem bitOf_eq_testBit (v i : Nat) : bitOf v i = v.testBit i := by
  simp [bitOf, Nat.testBit_eq_decide_div_mod_eq]

theorem Blk.page_inj {a b : Blk} (h : a.page = b.page) : a = b := by
  cases a <;> cases b <;> first | rfl | exact absurd h (by decide)

theorem Dev.note_updNote_other (d : Dev) (a b : Blk) (g : BlkNote → BlkNote) (h : b ≠ a) :
    (d.updNote a g).note b = d.note b := by
  simp [Dev.note, Dev.updNote, Tbl.getD_putD_other _ _ _ _ _ _ (fun e => h (Blk.page_inj e))]

/-- The counters of every header stay, and no cause is taken back. -/
def Dev.NotesGrow (d e : Dev) : Prop := ∀ b : Blk,
  (e.note b).corr = (d.note b).corr ∧ (e.note b).uncorr = (d.note b).uncorr ∧
  (e.note b).firstCode = (d.note b).firstCode ∧ (e.note b).firstTs = (d.note b).firstTs ∧
  ∀ i, bitOf (d.note b).raw i = true → bitOf (e.note b).raw i = true

theorem Dev.NotesGrow.same {d e : Dev} (h : e.nt.blks = d.nt.blks) : Dev.NotesGrow d e := by
  intro b
  simp [Dev.note, h]

theorem Dev.NotesGrow.trans {a b c : Dev} (h : Dev.NotesGrow a b) (k : Dev.NotesGrow b c) : Dev.NotesGrow a c := by
  intro x
  obtain ⟨h1, h2, h3, h4, h5⟩ := h x
  obtain ⟨k1, k2, k3, k4, k5⟩ := k x
  exact ⟨k1.trans h1, k2.trans h2, k3.trans h3, k4.trans h4, fun i hi => k5 i (h5 i hi)⟩

theorem Dev.cause_notesGrow (d : Dev) (a : Blk) (m : Nat) : Dev.NotesGrow d (d.cause a m) := by
  intro b
  by_cases h : b = a
  · subst h
    simp only [Dev.cause, Dev.note_updNote, true_and]
    intro i hi
    rw [bitOf_eq_testBit] at hi ⊢
    simp [Nat.testBit_or, hi]
  · simp [Dev.cause, Dev.note_updNote_other _ _ _ _ h]

theorem Dev.raiseVec_blks (d : Dev) (f v : Nat) : (d.raiseVec f v).nt.blks = d.nt.blks := by
  unfold Dev.raiseVec
  split
  · rfl
  · split
    · unfold Dev.exitL1; split <;> rfl
    · rfl

theorem Dev.setState_notesGrow (d : Dev) (b : Blk) (st : Nat) : Dev.NotesGrow d (d.setState b st) := by
  unfold Dev.setState
  split
  · exact .same rfl
  · exact (Dev.NotesGrow.same (d := d) (e := d.wr (Reg.BLK_STAT_state.ix b.page) st) rfl).trans (Dev.cause_notesGrow _ _ _)

theorem Dev.ungate_blks (d : Dev) (b : Blk) : (d.ungate b).nt.blks = d.nt.blks := by
  unfold Dev.ungate; split <;> rfl

theorem Dev.setState_if_notesGrow {d e : Dev} (b : Blk) (st : Nat) (c : Prop) [Decidable c] (h : e.nt.blks = d.nt.blks) :
    Dev.NotesGrow d (if c then e.setState b st else e) := by
  split
  · exact (Dev.NotesGrow.same h).trans (Dev.setState_notesGrow _ _ _)
  · exact .same h

theorem Dev.showState_notesGrow (d : Dev) (b : Blk) : Dev.NotesGrow d (d.showState b) := by
  have h : (if d.working b then d.ungate b else d).nt.blks = d.nt.blks := by split; exact d.ungate_blks b; rfl
  unfold Dev.showState
  exact Dev.setState_if_notesGrow b _ _ h

theorem Dev.showLtr_blks (d : Dev) : d.showLtr.nt.blks = d.nt.blks := by
  unfold Dev.showLtr
  simp only
  split
  · unfold Dev.exitL1; split <;> rfl
  · rfl

theorem Dev.showSum_blks (d : Dev) : d.showSum.nt.blks = d.nt.blks := by
  unfold Dev.showSum
  simp only
  split
  · exact Dev.raiseVec_blks _ _ _
  · rfl

/-- What the end of a command does to block headers: counters stay, causes stay or are added. -/
theorem Dev.settle_notesGrow (d : Dev) : Dev.NotesGrow d d.settle := by
  have h : ∀ (bs : List Blk) (d : Dev), Dev.NotesGrow d (bs.foldl Dev.showState d) := by
    intro bs
    induction bs with
    | nil => exact fun d => .same rfl
    | cons b r ih => exact fun d => (d.showState_notesGrow b).trans (ih _)
  exact ((h allBlks d).trans (.same (Dev.showLtr_blks _))).trans (.same (Dev.showSum_blks _))

theorem Dev.settle_raised (d : Dev) (b : Blk) (i : Nat) (h : Raised d b i) : Raised d.settle b i :=
  (d.settle_notesGrow b).2.2.2.2 i h

/-! ### Fields after reports -/

/-- What reports leave unchanged. -/
theorem Dev.Reports.keeps {d e : Dev} (h : Dev.Reports d e) :
    e.regs = d.regs ∧ e.staged = d.staged ∧ e.hiLatch = d.hiLatch ∧ e.heldLow = d.heldLow ∧
    e.ticks = d.ticks ∧ e.freeCtr = d.freeCtr ∧ e.sys = d.sys ∧ e.qmx = d.qmx ∧ e.lay = d.lay ∧
    e.dram = d.dram ∧ e.pwc = d.pwc ∧ e.smc = d.smc ∧ e.ece = d.ece ∧ e.dpx = d.dpx ∧ e.mnt = d.mnt ∧
    e.vlt = d.vlt ∧ e.bps = d.bps ∧ e.tmb = d.tmb ∧ e.ccx = d.ccx ∧ e.bme = d.bme :=
  by
  rw [h.same]
  exact ⟨rfl, rfl, rfl, rfl, rfl, rfl, rfl, rfl, rfl, rfl, rfl, rfl, rfl, rfl, rfl, rfl, rfl, rfl, rfl, rfl⟩

theorem Dev.Reports.rd {d e : Dev} (h : Dev.Reports d e) (x : Fld) : e.rd x = d.rd x := by rw [h.same]; rfl

@[simp] theorem Dev.exitL1_keeps (d : Dev) :
    (d.exitL1).regs = d.regs ∧ (d.exitL1).staged = d.staged ∧ (d.exitL1).hiLatch = d.hiLatch ∧
    (d.exitL1).heldLow = d.heldLow ∧ (d.exitL1).ticks = d.ticks ∧ (d.exitL1).freeCtr = d.freeCtr ∧
    (d.exitL1).sys = d.sys ∧ (d.exitL1).qmx = d.qmx ∧ (d.exitL1).lay = d.lay ∧ (d.exitL1).dram = d.dram ∧
    (d.exitL1).pwc = d.pwc ∧ (d.exitL1).smc = d.smc ∧ (d.exitL1).ece = d.ece ∧ (d.exitL1).dpx = d.dpx ∧
    (d.exitL1).mnt = d.mnt ∧ (d.exitL1).vlt = d.vlt ∧ (d.exitL1).bps = d.bps ∧ (d.exitL1).tmb = d.tmb ∧
    (d.exitL1).ccx = d.ccx ∧ (d.exitL1).bme = d.bme :=
  (d.exitL1_reports).keeps

@[simp] theorem Dev.exitL1_rd (d : Dev) (x : Fld) : (d.exitL1).rd x = d.rd x := (d.exitL1_reports).rd x

@[simp] theorem Dev.raiseVec_keeps (d : Dev) (f v : Nat) :
    (d.raiseVec f v).regs = d.regs ∧ (d.raiseVec f v).staged = d.staged ∧
    (d.raiseVec f v).hiLatch = d.hiLatch ∧ (d.raiseVec f v).heldLow = d.heldLow ∧
    (d.raiseVec f v).ticks = d.ticks ∧ (d.raiseVec f v).freeCtr = d.freeCtr ∧ (d.raiseVec f v).sys = d.sys ∧
    (d.raiseVec f v).qmx = d.qmx ∧ (d.raiseVec f v).lay = d.lay ∧ (d.raiseVec f v).dram = d.dram ∧
    (d.raiseVec f v).pwc = d.pwc ∧ (d.raiseVec f v).smc = d.smc ∧ (d.raiseVec f v).ece = d.ece ∧
    (d.raiseVec f v).dpx = d.dpx ∧ (d.raiseVec f v).mnt = d.mnt ∧ (d.raiseVec f v).vlt = d.vlt ∧
    (d.raiseVec f v).bps = d.bps ∧ (d.raiseVec f v).tmb = d.tmb ∧ (d.raiseVec f v).ccx = d.ccx ∧
    (d.raiseVec f v).bme = d.bme :=
  (d.raiseVec_reports f v).keeps

@[simp] theorem Dev.raiseVec_rd (d : Dev) (f v : Nat) (x : Fld) : (d.raiseVec f v).rd x = d.rd x := (d.raiseVec_reports f v).rd x

@[simp] theorem Dev.cause_keeps (d : Dev) (b : Blk) (m : Nat) :
    (d.cause b m).regs = d.regs ∧ (d.cause b m).staged = d.staged ∧ (d.cause b m).hiLatch = d.hiLatch ∧
    (d.cause b m).heldLow = d.heldLow ∧ (d.cause b m).ticks = d.ticks ∧ (d.cause b m).freeCtr = d.freeCtr ∧
    (d.cause b m).sys = d.sys ∧ (d.cause b m).qmx = d.qmx ∧ (d.cause b m).lay = d.lay ∧ (d.cause b m).dram = d.dram ∧
    (d.cause b m).pwc = d.pwc ∧ (d.cause b m).smc = d.smc ∧ (d.cause b m).ece = d.ece ∧ (d.cause b m).dpx = d.dpx ∧
    (d.cause b m).mnt = d.mnt ∧ (d.cause b m).vlt = d.vlt ∧ (d.cause b m).bps = d.bps ∧ (d.cause b m).tmb = d.tmb ∧
    (d.cause b m).ccx = d.ccx ∧ (d.cause b m).bme = d.bme :=
  (d.cause_reports b m).keeps

@[simp] theorem Dev.cause_rd (d : Dev) (b : Blk) (m : Nat) (x : Fld) : (d.cause b m).rd x = d.rd x := (d.cause_reports b m).rd x

@[simp] theorem Dev.refuse_keeps (d : Dev) (b : Blk) :
    (d.refuse b).regs = d.regs ∧ (d.refuse b).staged = d.staged ∧ (d.refuse b).hiLatch = d.hiLatch ∧
    (d.refuse b).heldLow = d.heldLow ∧ (d.refuse b).ticks = d.ticks ∧ (d.refuse b).freeCtr = d.freeCtr ∧
    (d.refuse b).sys = d.sys ∧ (d.refuse b).qmx = d.qmx ∧ (d.refuse b).lay = d.lay ∧ (d.refuse b).dram = d.dram ∧
    (d.refuse b).pwc = d.pwc ∧ (d.refuse b).smc = d.smc ∧ (d.refuse b).ece = d.ece ∧ (d.refuse b).dpx = d.dpx ∧
    (d.refuse b).mnt = d.mnt ∧ (d.refuse b).vlt = d.vlt ∧ (d.refuse b).bps = d.bps ∧ (d.refuse b).tmb = d.tmb ∧
    (d.refuse b).ccx = d.ccx ∧ (d.refuse b).bme = d.bme :=
  (d.refuse_reports b).keeps

@[simp] theorem Dev.refuse_rd (d : Dev) (b : Blk) (x : Fld) : (d.refuse b).rd x = d.rd x := (d.refuse_reports b).rd x

@[simp] theorem Dev.causeBit_keeps (d : Dev) (b : Blk) (i : Nat) :
    (d.causeBit b i).regs = d.regs ∧ (d.causeBit b i).staged = d.staged ∧ (d.causeBit b i).hiLatch = d.hiLatch ∧
    (d.causeBit b i).heldLow = d.heldLow ∧ (d.causeBit b i).ticks = d.ticks ∧ (d.causeBit b i).freeCtr = d.freeCtr ∧
    (d.causeBit b i).sys = d.sys ∧ (d.causeBit b i).qmx = d.qmx ∧ (d.causeBit b i).lay = d.lay ∧
    (d.causeBit b i).dram = d.dram ∧ (d.causeBit b i).pwc = d.pwc ∧ (d.causeBit b i).smc = d.smc ∧
    (d.causeBit b i).ece = d.ece ∧ (d.causeBit b i).dpx = d.dpx ∧ (d.causeBit b i).mnt = d.mnt ∧
    (d.causeBit b i).vlt = d.vlt ∧ (d.causeBit b i).bps = d.bps ∧ (d.causeBit b i).tmb = d.tmb ∧
    (d.causeBit b i).ccx = d.ccx ∧ (d.causeBit b i).bme = d.bme :=
  (d.causeBit_reports b i).keeps

@[simp] theorem Dev.causeBit_rd (d : Dev) (b : Blk) (i : Nat) (x : Fld) : (d.causeBit b i).rd x = d.rd x := (d.causeBit_reports b i).rd x

@[simp] theorem Dev.errCorr_keeps (d : Dev) (b : Blk) (c : Nat) :
    (d.errCorr b c).regs = d.regs ∧ (d.errCorr b c).staged = d.staged ∧ (d.errCorr b c).hiLatch = d.hiLatch ∧
    (d.errCorr b c).heldLow = d.heldLow ∧ (d.errCorr b c).ticks = d.ticks ∧ (d.errCorr b c).freeCtr = d.freeCtr ∧
    (d.errCorr b c).sys = d.sys ∧ (d.errCorr b c).qmx = d.qmx ∧ (d.errCorr b c).lay = d.lay ∧
    (d.errCorr b c).dram = d.dram ∧ (d.errCorr b c).pwc = d.pwc ∧ (d.errCorr b c).smc = d.smc ∧
    (d.errCorr b c).ece = d.ece ∧ (d.errCorr b c).dpx = d.dpx ∧ (d.errCorr b c).mnt = d.mnt ∧
    (d.errCorr b c).vlt = d.vlt ∧ (d.errCorr b c).bps = d.bps ∧ (d.errCorr b c).tmb = d.tmb ∧
    (d.errCorr b c).ccx = d.ccx ∧ (d.errCorr b c).bme = d.bme :=
  (d.errCorr_reports b c).keeps

@[simp] theorem Dev.errCorr_rd (d : Dev) (b : Blk) (c : Nat) (x : Fld) : (d.errCorr b c).rd x = d.rd x := (d.errCorr_reports b c).rd x

@[simp] theorem Dev.errUncorr_keeps (d : Dev) (b : Blk) (c : Nat) :
    (d.errUncorr b c).regs = d.regs ∧ (d.errUncorr b c).staged = d.staged ∧ (d.errUncorr b c).hiLatch = d.hiLatch ∧
    (d.errUncorr b c).heldLow = d.heldLow ∧ (d.errUncorr b c).ticks = d.ticks ∧
    (d.errUncorr b c).freeCtr = d.freeCtr ∧ (d.errUncorr b c).sys = d.sys ∧ (d.errUncorr b c).qmx = d.qmx ∧
    (d.errUncorr b c).lay = d.lay ∧ (d.errUncorr b c).dram = d.dram ∧ (d.errUncorr b c).pwc = d.pwc ∧
    (d.errUncorr b c).smc = d.smc ∧ (d.errUncorr b c).ece = d.ece ∧ (d.errUncorr b c).dpx = d.dpx ∧
    (d.errUncorr b c).mnt = d.mnt ∧ (d.errUncorr b c).vlt = d.vlt ∧ (d.errUncorr b c).bps = d.bps ∧
    (d.errUncorr b c).tmb = d.tmb ∧ (d.errUncorr b c).ccx = d.ccx ∧ (d.errUncorr b c).bme = d.bme :=
  (d.errUncorr_reports b c).keeps

@[simp] theorem Dev.errUncorr_rd (d : Dev) (b : Blk) (c : Nat) (x : Fld) : (d.errUncorr b c).rd x = d.rd x := (d.errUncorr_reports b c).rd x

@[simp] theorem Dev.writeHost_keeps (d : Dev) (f a : Nat) (bs : Bytes) (r : Bool) :
    (d.writeHost f a bs r).regs = d.regs ∧ (d.writeHost f a bs r).staged = d.staged ∧
    (d.writeHost f a bs r).hiLatch = d.hiLatch ∧ (d.writeHost f a bs r).heldLow = d.heldLow ∧
    (d.writeHost f a bs r).ticks = d.ticks ∧ (d.writeHost f a bs r).freeCtr = d.freeCtr ∧
    (d.writeHost f a bs r).sys = d.sys ∧ (d.writeHost f a bs r).qmx = d.qmx ∧ (d.writeHost f a bs r).lay = d.lay ∧
    (d.writeHost f a bs r).dram = d.dram ∧ (d.writeHost f a bs r).pwc = d.pwc ∧ (d.writeHost f a bs r).smc = d.smc ∧
    (d.writeHost f a bs r).ece = d.ece ∧ (d.writeHost f a bs r).dpx = d.dpx ∧ (d.writeHost f a bs r).mnt = d.mnt ∧
    (d.writeHost f a bs r).vlt = d.vlt ∧ (d.writeHost f a bs r).bps = d.bps ∧ (d.writeHost f a bs r).tmb = d.tmb ∧
    (d.writeHost f a bs r).ccx = d.ccx ∧ (d.writeHost f a bs r).bme = d.bme :=
  (d.writeHost_reports f a bs r).keeps

@[simp] theorem Dev.writeHost_rd (d : Dev) (f a : Nat) (bs : Bytes) (r : Bool) (x : Fld) : (d.writeHost f a bs r).rd x = d.rd x := (d.writeHost_reports f a bs r).rd x

@[simp] theorem Dev.deliver_keeps (d : Dev) (f : Nat) (e : Event) :
    (d.deliver f e).regs = d.regs ∧ (d.deliver f e).staged = d.staged ∧ (d.deliver f e).hiLatch = d.hiLatch ∧
    (d.deliver f e).heldLow = d.heldLow ∧ (d.deliver f e).ticks = d.ticks ∧ (d.deliver f e).freeCtr = d.freeCtr ∧
    (d.deliver f e).sys = d.sys ∧ (d.deliver f e).qmx = d.qmx ∧ (d.deliver f e).lay = d.lay ∧
    (d.deliver f e).dram = d.dram ∧ (d.deliver f e).pwc = d.pwc ∧ (d.deliver f e).smc = d.smc ∧
    (d.deliver f e).ece = d.ece ∧ (d.deliver f e).dpx = d.dpx ∧ (d.deliver f e).mnt = d.mnt ∧
    (d.deliver f e).vlt = d.vlt ∧ (d.deliver f e).bps = d.bps ∧ (d.deliver f e).tmb = d.tmb ∧
    (d.deliver f e).ccx = d.ccx ∧ (d.deliver f e).bme = d.bme :=
  (d.deliver_reports f e).keeps

@[simp] theorem Dev.deliver_rd (d : Dev) (f : Nat) (e : Event) (x : Fld) : (d.deliver f e).rd x = d.rd x := (d.deliver_reports f e).rd x

@[simp] theorem Dev.post_keeps (d : Dev) (a b c e f g h : Nat) :
    (d.post a b c e f g h).regs = d.regs ∧ (d.post a b c e f g h).staged = d.staged ∧
    (d.post a b c e f g h).hiLatch = d.hiLatch ∧ (d.post a b c e f g h).heldLow = d.heldLow ∧
    (d.post a b c e f g h).ticks = d.ticks ∧ (d.post a b c e f g h).freeCtr = d.freeCtr ∧
    (d.post a b c e f g h).sys = d.sys ∧ (d.post a b c e f g h).qmx = d.qmx ∧ (d.post a b c e f g h).lay = d.lay ∧
    (d.post a b c e f g h).dram = d.dram ∧ (d.post a b c e f g h).pwc = d.pwc ∧ (d.post a b c e f g h).smc = d.smc ∧
    (d.post a b c e f g h).ece = d.ece ∧ (d.post a b c e f g h).dpx = d.dpx ∧ (d.post a b c e f g h).mnt = d.mnt ∧
    (d.post a b c e f g h).vlt = d.vlt ∧ (d.post a b c e f g h).bps = d.bps ∧ (d.post a b c e f g h).tmb = d.tmb ∧
    (d.post a b c e f g h).ccx = d.ccx ∧ (d.post a b c e f g h).bme = d.bme :=
  (d.post_reports a b c e f g h).keeps

@[simp] theorem Dev.post_rd (d : Dev) (a b c e f g h : Nat) (x : Fld) : (d.post a b c e f g h).rd x = d.rd x := (d.post_reports a b c e f g h).rd x

@[simp] theorem Dev.postVolume_keeps (d : Dev) (m a b c e f g : Nat) :
    (d.postVolume m a b c e f g).regs = d.regs ∧ (d.postVolume m a b c e f g).staged = d.staged ∧
    (d.postVolume m a b c e f g).hiLatch = d.hiLatch ∧ (d.postVolume m a b c e f g).heldLow = d.heldLow ∧
    (d.postVolume m a b c e f g).ticks = d.ticks ∧ (d.postVolume m a b c e f g).freeCtr = d.freeCtr ∧
    (d.postVolume m a b c e f g).sys = d.sys ∧ (d.postVolume m a b c e f g).qmx = d.qmx ∧
    (d.postVolume m a b c e f g).lay = d.lay ∧ (d.postVolume m a b c e f g).dram = d.dram ∧
    (d.postVolume m a b c e f g).pwc = d.pwc ∧ (d.postVolume m a b c e f g).smc = d.smc ∧
    (d.postVolume m a b c e f g).ece = d.ece ∧ (d.postVolume m a b c e f g).dpx = d.dpx ∧
    (d.postVolume m a b c e f g).mnt = d.mnt ∧ (d.postVolume m a b c e f g).vlt = d.vlt ∧
    (d.postVolume m a b c e f g).bps = d.bps ∧ (d.postVolume m a b c e f g).tmb = d.tmb ∧
    (d.postVolume m a b c e f g).ccx = d.ccx ∧ (d.postVolume m a b c e f g).bme = d.bme :=
  (d.postVolume_reports m a b c e f g).keeps

@[simp] theorem Dev.postVolume_rd (d : Dev) (m a b c e f g : Nat) (x : Fld) : (d.postVolume m a b c e f g).rd x = d.rd x := (d.postVolume_reports m a b c e f g).rd x

@[simp] theorem Dev.squall_keeps (d : Dev) (b : Blk) (c n : Nat) :
    (d.squall b c n).regs = d.regs ∧ (d.squall b c n).staged = d.staged ∧ (d.squall b c n).hiLatch = d.hiLatch ∧
    (d.squall b c n).heldLow = d.heldLow ∧ (d.squall b c n).ticks = d.ticks ∧ (d.squall b c n).freeCtr = d.freeCtr ∧
    (d.squall b c n).sys = d.sys ∧ (d.squall b c n).qmx = d.qmx ∧ (d.squall b c n).lay = d.lay ∧
    (d.squall b c n).dram = d.dram ∧ (d.squall b c n).pwc = d.pwc ∧ (d.squall b c n).smc = d.smc ∧
    (d.squall b c n).ece = d.ece ∧ (d.squall b c n).dpx = d.dpx ∧ (d.squall b c n).mnt = d.mnt ∧
    (d.squall b c n).vlt = d.vlt ∧ (d.squall b c n).bps = d.bps ∧ (d.squall b c n).tmb = d.tmb ∧
    (d.squall b c n).ccx = d.ccx ∧ (d.squall b c n).bme = d.bme :=
  (d.squall_reports b c n).keeps

@[simp] theorem Dev.squall_rd (d : Dev) (b : Blk) (c n : Nat) (x : Fld) : (d.squall b c n).rd x = d.rd x := (d.squall_reports b c n).rd x

end Sys2Proof.Machine
end

