-- ==== Sys2Proof/Laws/Shape.lean ====
section
/-! SUPPORT. Everything a command can do, said once: but for the three that move bytes of SCRATCH and the mailbox, a command
is one change of the device, followed by what every command ends with, or it stops because a unit does not exist. -/

set_option Elab.async false

namespace Sys2Proof.Machine

/-- Whether a command is one of the three that can write SCRATCH and the mailbox. -/
def Instr.movesBytes : Instr → Bool
  | .hostReadCompletion _ _ _ => true
  | .bmeSetDone _ => true
  | .bmeSetError _ _ _ => true
  | _ => false

/-- A command that moves no bytes is `onUnit` of one change of the device. -/
theorem exec_shape (i : Instr) (h : Instr.movesBytes i = false) :
    ∃ (ok : Bool) (f : Dev → Dev), ∀ s, exec i s = onUnit ok s f := by
  cases i <;> first
    | exact absurd (show true = false from h) (by decide)
    | exact ⟨true, _, fun _ => rfl⟩
    | exact ⟨_, _, fun _ => rfl⟩

end Sys2Proof.Machine
end

