-- ==== Sys2Proof/Tests/Slice0.lean ====
section
/-! SUPPORT. Tests: the WellFormed smoke, small steps with outcomes worked out from the spec, and for every obligation with
hypotheses a state and operands that meet them, clause by clause. -/

set_option Elab.async false

namespace Sys2Proof.Tests

open Sys2Proof.Machine

/-! ### Helpers -/

/-- Whether a command answers a next state. -/
def isNext : Out → Bool
  | .next _ => true
  | _ => false

/-- Whether a command stops because the device lacks a unit that it names. -/
def lacksUnit : Out → Bool
  | .fault .noSuchUnit => true
  | _ => false

/-- The device after a command, where it answers a next state. -/
def after (c : Instr) (s : State) : Dev :=
  match exec c s with
  | .next t => t.dev
  | _ => {}

/-- A state with nothing pending, of a device. -/
def only (d : Dev) : State := ⟨[], [], [], d⟩

/-- A device with some register fields set. -/
def Dev.withFields (d : Dev) (fs : List (Fld × Nat)) : Dev := fs.foldl (fun d p => d.wr p.1 p.2) d

/-- A device in phase READY, with its domains on, the link in L0 and PF0 enabled. -/
def ready : Dev :=
  Dev.withFields
    { sys := { perstN := true, pwrGood := true, pdMain := true, pdHphy := true, pdMem := true }
      hif := { link := .l0, fns := [(0, { mse := true, bme := true, msixEn := true })] } }
    [(Reg.BLK_STAT_specific.ix 0, 5), (Reg.HIF_LINK_up, 1)]

/-- `ready` with further fields set. -/
def readyWith (fs : List (Fld × Nat)) : Dev := Dev.withFields ready fs

/-! ### The WellFormed smoke: one ill-formed command for each check -/

theorem test_wf_refuses_functions :
    (Instr.registerWrite ⟨65, .bar0, 0, false, true, 0⟩).wf = false ∧ (Instr.lowDwordRead 65 ⟨.bar0, 0, false, 15⟩).wf = false ∧
    (Instr.flrVf 65).wf = false ∧ (Instr.flrComplete 65).wf = false ∧ (Instr.memorySpaceDisable 65).wf = false ∧
    (Instr.busMasterDisable 65).wf = false ∧ (Instr.busMasterEnable 65).wf = false ∧ (Instr.d3hotEntry 65).wf = false ∧
    (Instr.d0Entry 65).wf = false ∧ (Instr.containment .ecrc (some 65)).wf = false := by decide
theorem test_wf_refuses_queue_owners :
    (Instr.quotaWrite true 65 0 1).wf = false ∧ (Instr.sqTailDoorbell 65 0 0 false).wf = false ∧
    (Instr.cqHeadDoorbell 65 0 0 false).wf = false ∧ (Instr.eventHeadDoorbell 65 0 false).wf = false ∧
    (Instr.sqEnable 65 0).wf = false ∧ (Instr.sqDisable 65 0).wf = false ∧ (Instr.sqRestart 65 0).wf = false ∧
    (Instr.cqEnable 65 0).wf = false ∧ (Instr.cqDisable 65 0).wf = false ∧ (Instr.eventRingEnable 65).wf = false ∧
    (Instr.eventRingDisable 65).wf = false := by decide
theorem test_wf_refuses_vectors :
    (Instr.msixUnmask 65 0).wf = false ∧ (Instr.msixUnmask 0 2048).wf = false ∧ (Instr.msixUnmask 1 64).wf = false ∧
    (Instr.msixUnmask 0 2047).wf = true ∧ (Instr.msixUnmask 64 63).wf = true := by decide
theorem test_wf_refuses_arrays :
    (Instr.streamHoldExpire 16 0).wf = false ∧ (Instr.labelWriteDone 16 []).wf = false ∧
    (Instr.assembleTimeout 16).wf = false ∧ (Instr.missingTimeout 16 0).wf = false ∧ (Instr.memberFail 16 0).wf = false ∧
    (Instr.memberReplace 16 0 0).wf = false ∧ (Instr.memberRebuild 16 0).wf = false ∧ (Instr.rebuildStripe 16 []).wf = false ∧
    (Instr.catchupCycle 16 0 []).wf = false ∧ (Instr.catchupCycle 0 256 []).wf = false ∧
    (Instr.copybackCycle 16 []).wf = false ∧ (Instr.scrubPeriod 16).wf = false ∧ (Instr.scrubStripe 16 []).wf = false ∧
    (Instr.restripeStep 16 []).wf = false ∧ (Instr.hotspotSample [(15, []), (16, [])]).wf = false ∧
    (Instr.arrayPowerTimer 16).wf = false ∧ (Instr.powerEntryConfirm 16).wf = false ∧ (Instr.arrayWake 16).wf = false ∧
    (Instr.pwrLatClear 16).wf = false := by decide
theorem test_wf_refuses_ports_and_clusters :
    (Instr.dfwPortDone 256 0 true).wf = false ∧ (Instr.dfwTimeout 256).wf = false ∧ (Instr.driveReady 256).wf = false ∧
    (Instr.readyTimeout 256).wf = false ∧ (Instr.driveCommandComplete 256 0 []).wf = false ∧
    (Instr.driveError 256 0 .other 0).wf = false ∧ (Instr.driveCommandTimeout 256 0).wf = false ∧
    (Instr.recoveryStep 256 true).wf = false ∧ (Instr.linkLoss 256).wf = false ∧ (Instr.graceExpire 256).wf = false ∧
    (Instr.portReset 256).wf = false ∧ (Instr.portFail 256).wf = false ∧ (Instr.portPartial 256).wf = false ∧
    (Instr.loopbackStart 256).wf = false ∧ (Instr.loopbackStop 256).wf = false ∧ (Instr.loopbackEnd 256 0).wf = false ∧
    (Instr.portCominit 256 default).wf = false ∧ (Instr.spinupSlot 8).wf = false ∧ (Instr.clusterReset 8).wf = false ∧
    (Instr.clusterDisable 8).wf = false ∧ (Instr.clusterEnable 8).wf = false ∧ (Instr.clusterFail 8).wf = false ∧
    (Instr.sgpioFrame 8 0).wf = false := by decide
theorem test_wf_refuses_other_units :
    (Instr.channelLost 12).wf = false ∧ (Instr.smcRequest 8 0 .read .none).wf = false ∧
    (Instr.smcRequest 7 (2 ^ 42) .read .none).wf = false ∧ (Instr.eceRetestDone 2 16).wf = false ∧
    (Instr.arbiterRequest [(.scrub, 16)]).wf = false ∧ (Instr.arbiterRequest [(.learn, 0)]).wf = false ∧
    (Instr.arbiterRequest [(.driveFw, 0xFF), (.rebuild, 15)]).wf = true ∧ (Instr.ntcFault 2).wf = false ∧
    (Instr.adcUntrusted 2).wf = false ∧ (Instr.pairMismatch 3 0).wf = false ∧ (Instr.storeUncorrectable 2 0).wf = false ∧
    (Instr.checkpoint 2).wf = false ∧ (Instr.pairTestDone 3 true).wf = false ∧ (Instr.bmeArm 8).wf = false ∧
    (Instr.bmeSetDone 8).wf = false ∧ (Instr.bmeSetError 8 1 0).wf = false ∧ (Instr.bmeResume 8).wf = false ∧
    (Instr.bmeChannelDisable 8).wf = false ∧ (Instr.bmeChannelEnable 8).wf = false ∧
    (Instr.patrolRead .a .scratch 0 [(40, 0)]).wf = false ∧ (Instr.patrolRead .a .scratch 0 [(0, 16)]).wf = false := by decide
theorem test_unknown_unit_faults : lacksUnit (exec (.linkLoss 256) State.reset) = true := by decide +kernel

/-! ### The queue, the invariant, the frames over all commands -/

theorem witness_StepRunsFrontCommand :
    ({ State.reset with pending := [.ppsMiss, .nop 0] } : State).pending = .ppsMiss :: [.nop 0] := by decide
theorem witness_StepOnEmptyQueueTicks :
    let s := only ready
    s.pending = [] ∧ s.dev.sys.pdMain = true ∧ s.dev.rd Reg.TMB_TRIM_trim = 0 ∧ s.dev.tmb.slewLeft = 0 ∧ s.dev.tmb.frac = 0 ∧
    s.dev.tmb.setPending = none ∧ s.dev.tmb.ns < 1000000000 ∧ s.dev.tmb.sec < 2 ^ 34 - 1 := by decide +kernel
theorem witness_EveryCommandKeepsInv :
    (RamsCanonical State.reset ∧ SumSeen State.reset) ∧ isNext (exec .katRun State.reset) = true ∧
    isNext (step State.reset) = true := by
  refine ⟨⟨by unfold RamsCanonical; decide +kernel, by unfold SumSeen; decide +kernel⟩, by decide +kernel, by decide +kernel⟩
theorem witness_WellFormedCommandsComplete :
    (Instr.bmeArm 7).wf = true ∧ lacksUnit (exec (.bmeSetDone 8) State.reset) = true := by decide +kernel
theorem witness_QueueAndRamsKept :
    isNext (exec .dramRetrain (only ready)) = true ∧ (∀ ch, Instr.dramRetrain ≠ .bmeSetDone ch) ∧
    (∀ ch e n, Instr.dramRetrain ≠ .bmeSetError ch e n) ∧
    (∀ tag data poisoned, Instr.dramRetrain ≠ .hostReadCompletion tag data poisoned) :=
  ⟨by decide +kernel, fun _ => nofun, fun _ _ _ => nofun, fun _ _ _ => nofun⟩

/-! ### Registers -/

/-- `ready` with the link down, and with PF0 answering no memory request. -/
def noLink : Dev := { ready with hif := { ready.hif with link := .down } }
def noSpace : Dev := { ready with hif := { ready.hif with fns := [(0, { mse := true, d3 := true })] } }

theorem witness_ErrorClearAndLocks :
    (∀ b : Blk, HostReaches ready 0 b) ∧ noLink.linkUp = false ∧ noSpace.linkUp = true ∧ noSpace.reaches 0 = false :=
  ⟨fun b => by cases b <;> decide +kernel, by decide +kernel, by decide +kernel, by decide +kernel⟩
theorem witness_RegisterWriteByAccessCode :
    (ready.linkUp = true ∧ ready.reaches 0 = true ∧ ready.answers 0x50000 = true ∧ ready.answers (Blk.dpx.page * 65536) = true) ∧
    ready.rdB (Reg.COMMIT_STAT_busy.ix 5) = false ∧
    (readyWith [(Reg.COMMIT_STAT_busy.ix 5, 1)]).rdB (Reg.COMMIT_STAT_busy.ix 5) = true ∧ 2 ^ 25 - 4 < 2 ^ 25 := by decide +kernel
theorem witness_WideRegisterHalves :
    let d : Dev := { ready with heldLow := [(0xB0040, 5)] }
    let l := readyWith [(Reg.BLK_LOCK_lock.ix 11, 1)]
    (ready.linkUp = true ∧ ready.reaches 0 = true ∧ ready.answers 0xB0040 = true ∧ ready.locked 11 = false ∧
      Tbl.get? ready.heldLow 0xB0040 = none) ∧
    (d.locked 11 = false ∧ Tbl.get? d.heldLow 0xB0040 = some ((5 : Qword).toNat % 2 ^ 32) ∧ d.reaches 0 = true) ∧
    (l.locked 11 = true ∧ l.reaches 0 = true ∧ l.linkUp = true ∧ l.answers 0xB0040 = true) := by decide +kernel
theorem witness_LowDwordReadLatches :
    let d : Dev := { ready with hiLatch := [(0xB0044, 7)] }
    (ready.linkUp = true ∧ ready.reaches 0 = true ∧ wideAt 0xB0040 = true ∧ 0xB0040 % 8 = 0 ∧ 0xB0040 < 2 ^ 25) ∧
    (d.linkUp = true ∧ d.reaches 0 = true ∧ wideAt 0xB0044 = false ∧ Tbl.get? d.hiLatch 0xB0044 = some 7) ∧
    (wideAt (2 ^ 25 - 4) = false ∧ Tbl.get? ready.hiLatch (2 ^ 25 - 4) = none) ∧
    (ready.fnExists 0 = true ∧ vectorsOf 0 - 1 < vectorsOf 0) := by decide +kernel
theorem witness_ThermalLimitsClamped :
    let l := readyWith [(Reg.BLK_LOCK_lock.ix 0, 1)]
    (HostReaches ready 0 .sys ∧ bitOf (ready.rd (Reg.BLK_LOCK_lock.ix 0)) 0 = false) ∧
    (HostReaches l 0 .sys ∧ bitOf (l.rd (Reg.BLK_LOCK_lock.ix 0)) 0 = true) := by decide +kernel
/-- `ready` with a block in a state. -/
def atState (b : Blk) (st : Nat) : Dev := readyWith [(Reg.BLK_STAT_state.ix b.page, st)]

theorem witness_SoftReset :
    (HostReaches (atState .bme stOff) 0 .bme ∧ (atState .bme stOff).blkState .bme = stOff) ∧
    (HostReaches (atState .pwc stFault) 0 .pwc ∧ (atState .pwc stFault).blkState .pwc = stFault) ∧
    (HostReaches (atState .pwc stIdle) 0 .pwc ∧ (atState .pwc stIdle).blkState .pwc ≠ stOff ∧
      (atState .pwc stIdle).blkState .pwc ≠ stFault) := by decide +kernel
theorem witness_BlockEnableAndDrain :
    let g : Dev := { readyWith [(Reg.BLK_POWER_idle_us.ix 9, 1)] with sys := { ready.sys with pdDrv := [true] } }
    (∀ b ∈ [Blk.smc, .mnt, .bme, .tmb], ∀ st ∈ [stActive, stIdle], (atState b st).blkState b = st ∧
      HostReaches (atState b st) 0 b) ∧
    (HostReaches ready 0 .lay ∧ Blk.lay ≠ .smc ∧ Blk.lay ≠ .mnt ∧ Blk.lay ≠ .bme ∧ Blk.lay ≠ .tmb) ∧
    (∀ b ∈ [Blk.mnt, .bme, .tmb], (atState b stOff).blkState b = stOff ∧ HostReaches (atState b stOff) 0 b) ∧
    (∀ b ∈ [Blk.smc, .mnt], (atState b stDraining).blkState b = stDraining ∧ HostReaches (atState b stDraining) 0 b) ∧
    ((atState .bme stDraining).blkState .bme = stDraining ∧ (atState .bme stDraining).bmeOutstanding = false) ∧
    ((atState .smc stDraining).smc.evict = [] ∧ (atState .smc stDraining).smc.regs = [] ∧
      (atState .smc stDraining).smc.waiting = [] ∧ (atState .smc stDraining).smc.walkSet = none) ∧
    (g.working .mnt = false ∧ g.rd (Reg.BLK_CTRL_clk_hold.ix 9) = 0 ∧ g.rd (Reg.BLK_POWER_idle_us.ix 9) ≠ 0 ∧
      g.pstate .mnt ≠ 2) := by decide +kernel
theorem witness_CommitGoAndDiscard :
    let h := readyWith [(Reg.BLK_STAT_state.ix 0, stHalt)]
    (HostReaches ready 0 .lay ∧ Blk.lay ∈ commitBlks ∧ ready.rd (Reg.COMMIT_STAT_busy.ix Blk.lay.page) = 0 ∧
      ready.blkState .ccx ≠ stFault ∧ ready.blkState .sys ≠ stHalt) ∧
    (HostReaches h 0 .lay ∧ h.rd (Reg.COMMIT_STAT_busy.ix Blk.lay.page) = 0 ∧ h.blkState .ccx ≠ stFault ∧
      h.blkState .sys = stHalt) := by decide +kernel
theorem witness_CommitIsAllOrNothing :
    let busy (b : Blk) : Dev := readyWith [(Reg.COMMIT_STAT_busy.ix b.page, 1)]
    ((busy .pwc).rdB (Reg.COMMIT_STAT_busy.ix Blk.pwc.page) = true ∧ (busy .pwc).phase = phReady ∧
      (busy .pwc).blkState .ccx ≠ stFault ∧ (busy .pwc).findings .pwc = some (4, 0x50064)) ∧
    (∀ b ∈ [Blk.bps, .mnt], (busy b).rdB (Reg.COMMIT_STAT_busy.ix b.page) = true ∧ (busy b).phase = phReady ∧
      (busy b).blkState .ccx ≠ stFault ∧ (busy b).findings b = none) := by decide +kernel

/-! ### The host link -/

/-- `ready` with 64 VFs, of which VF 1 and VF 64 are set up. -/
def vfs : Dev :=
  { ready with
    hif := { ready.hif with
      vfEnable := true, numVfs := 64
      fns := [(0, { mse := true, bme := true, msixEn := true }), (1, { mse := true }),
        (64, { mse := true, bme := true, d3 := true })] } }

theorem witness_ConfigurationAccess :
    (vfs.linkUp = true ∧ vfs.fnExists 64 = true ∧ (vfs.fn 64).readyAt ≤ vfs.ticks) ∧
    (vfs.fnExists 2 = true ∧ (vfs.fn 2).mse = false) ∧ (vfs.fn 64).d3 = true ∧ ready.hif.vfEnable = false ∧
    (vfs.hif.vfEnable = true ∧ vfs.hif.numVfs ≤ 64) := by decide +kernel
theorem witness_FunctionLevelResets :
    64 ≤ 64 ∧ (vfs.linkUp = true ∧ 64 ≠ 0 ∧ vfs.fnExists 64 = true) ∧
    (vfs.fnExists 1 = true ∧ (vfs.fn 1).mse = true) := by decide +kernel
theorem witness_HostResets :
    let low : Dev := { ready with sys := { ready.sys with perstN := false }, hif := { ready.hif with link := .down } }
    (ready.sys.perstN = true ∧ ready.sys.pdMain = true ∧ ready.hif.link ≠ .abandoned) ∧ ready.hifOn = true ∧
    ready.linkUp = true ∧
    (low.sys.perstN = false ∧ low.sys.pdMain = true ∧ low.hif.link ≠ .abandoned ∧ 2 ≤ low.phase ∧ low.phase < 9) := by
  decide +kernel
theorem witness_BusMasterAndPowerStates :
    (vfs.fnExists 64 = true ∧ (vfs.fn 64).bme = true ∧ (vfs.fn 64).d3 = true ∧ vfs.linkUp = true) ∧
    (vfs.fnExists 1 = true ∧ (vfs.fn 1).bme = false ∧ (vfs.fn 1).d3 = false) := by decide +kernel
theorem witness_LinkPowerAndMessages :
    let d : Dev := { readyWith [(Reg.HIF_LINK_l0p_width, 16), (Reg.HIF_LINK_width, 16), (Reg.HIF_ASPM_l0p_min, 1)] with
      hif := { ready.hif with aspmL1 := true, l0pEn := true, msix := [(vecKey 0 2047, { pend := true })] } }
    (d.hif.link = .l0 ∧ d.hif.aspmL1 = true) ∧
    (d.linkUp = true ∧ d.hif.l0pEn = true ∧ 8 < d.rd Reg.HIF_LINK_l0p_width ∧ 1 ≤ d.rd Reg.HIF_ASPM_l0p_min) ∧
    ((d.wr Reg.HIF_LINK_l0p_width 8).rd Reg.HIF_LINK_l0p_width < d.rd Reg.HIF_LINK_width ∧ d.rd Reg.HIF_LINK_width < 32) ∧
    (2047 < vectorsOf 0 ∧ HostReaches d 0 .hif) ∧
    ((d.vec 0 2047).pend = true ∧ (d.fn 0).msixEn = true ∧ (d.fn 0).fmask = false ∧ d.canPost 0 = true) := by decide +kernel

/-! ### Queues -/

/-- `ready` with SQs 0, 1 (NORMAL) and 2 (URGENT) of depth 16 on CQ 0, and PF0's event ring. -/
def queues : Dev :=
  let on (q : Nat) : List (Fld × Nat) := [(Reg.QD_SQ_CFG_size_m1.ix q, 15), (Reg.QD_SQ_STAT_state.ix q, sqActive),
    (Reg.QD_SQ_CFG_en.ix q, 1)]
  readyWith ((on 0 ++ on 1 ++ on 2) ++ [(Reg.QD_SQ_CFG_class.ix 2, 1), (Reg.QD_CQ_CFG_size_m1.ix 0, 15),
    (Reg.QD_CQ_STAT_state.ix 0, 1), (Reg.QD_CQ_CFG_en.ix 0, 1), (Reg.EVR_CFG_en.ix 0, 1), (Reg.EVR_CFG_size_m1.ix 0, 15)])

/-- `queues` with further fields set. -/
def queuesWith (fs : List (Fld × Nat)) : Dev := Dev.withFields queues fs

/-- `queues` with entries fetched and commands admitted. -/
def queuesHold (fetched : List Fetched) (cmds : List Cmd) : Dev :=
  { queues with qmx := { queues.qmx with fetched := fetched, cmds := cmds } }

/-- A read tag of PF0. -/
def tagOf (id : Nat) (kind : ReadKind) (quar : Bool) : Tag := ⟨id, 0, kind, 0x1000, 64, false, quar, false⟩

/-- `queues` with read tags in use and reads waiting. -/
def queuesRead (tags : List Tag) (waiting : List ReadReq) : Dev :=
  { queues with hif := { queues.hif with tags := tags, waiting := waiting } }

theorem witness_HostReadTags :
    let w := queuesRead [] [⟨0, .entries 1 0 1, 0x1000, 64, false⟩]
    let t := tagOf 3 (.entries 1 0 1) false
    let q := tagOf 3 .dropped true
    (w.hif.waiting.length = 1 ∧ w.hif.grantNext = 0 ∧ w.mayTakeTag 0 = true ∧ w.freeTagId = some 0 ∧
      w.bmeReadOk ⟨0, .entries 1 0 1, 0x1000, 64, false⟩ = none) ∧
    ((queuesRead [t] []).tag? 3 = some t ∧ t.quar = false ∧ t.doomed = false) ∧
    ((queuesRead [q] []).tag? 3 = some q ∧ q.quar = true) ∧ (queuesRead [q] []).tag? 4 = none := by decide +kernel
/-- `ready` in a containment freeze whose first cause is recorded. -/
def frozenOn : Dev := readyWith [(Reg.HIF_CONTAIN_frozen, 1), (Reg.HIF_CONTAIN_cause, 3)]

theorem witness_ContainmentFreeze :
    (ready.frozen = false ∧ ready.rd Reg.HIF_CONTAIN_cause = 0 ∧ HostReaches ready 0 .hif) ∧
    (ready.wr Reg.HIF_CONTAIN_cause 3).frozen = false ∧ (ready.wr Reg.HIF_CONTAIN_cause 3).rd Reg.HIF_CONTAIN_cause ≠ 0 ∧
    (frozenOn.frozen = true ∧ HostReaches frozenOn 0 .hif) ∧
    (({ frozenOn with hif := { frozenOn.hif with link := .down } } : Dev).frozen = true ∧
      ({ frozenOn with hif := { frozenOn.hif with link := .down } } : Dev).linkUp = false) := by decide +kernel
theorem test_contain_release_unfreezes :
    (after .containRelease (only frozenOn)).frozen = false ∧ (after .containRelease (only frozenOn)).canDma 0 = true ∧
    (after .containLogClr (only frozenOn)).rd Reg.HIF_CONTAIN_cause = 0 ∧ (after .containLogClr (only frozenOn)).frozen = true := by
  decide +kernel
theorem witness_QueueQuotas :
    HostReaches queues 0 .qmx ∧
    (∀ g, g ≤ 64 → g ≠ 0 → queues.rd (Reg.QMX_FN_SQ_count.ix g) = 0) ∧ queues.rd (Reg.QMX_FN_SQ_count.ix 0) = 1024 ∧
    0 + 3 ≤ 1024 ∧ (∀ i, i < 1024 → queues.sqState i ≠ sqDisabled → 0 = queues.rd (Reg.QMX_FN_SQ_base.ix 0) ∧ i < 3) ∧
    ¬ (∀ i, i < 1024 → queues.sqState i ≠ sqDisabled → i < 2) ∧ 64 ≤ 64 ∧ ¬ (1023 + 2 ≤ 1024) := by decide +kernel
theorem witness_GoodDoorbells :
    let d := queuesWith [(Reg.QD_CQ_PTR_tail.ix 0, 15)]
    let r : Dev := { queues with nt := { queues.nt with rings := [(0, { tail := 15 })] } }
    (HostReaches d 0 .qmx ∧ HostReaches r 0 .qmx) ∧ (1 < d.sqCount 0 ∧ d.sqShown (d.sqBase 0 + 1) ∈ [sqActive, sqFetchTimeout, sqHalted] ∧ 15 < d.sqDepth (d.sqBase 0 + 1)) ∧
    (0 < d.cqCount 0 ∧ d.cqActive (d.cqBase 0 + 0) = true ∧ 15 < d.cqDepth (d.cqBase 0 + 0) ∧
      onPath (d.rd (Reg.QD_CQ_PTR_head.ix 0)) (d.rd (Reg.QD_CQ_PTR_tail.ix 0)) 15 (d.cqDepth (d.cqBase 0 + 0)) = true) ∧
    (r.rdB (Reg.EVR_CFG_en.ix 0) = true ∧ 15 < r.ringDepth 0 ∧
      onPath (r.ring 0).head (r.ring 0).tail 15 (r.ringDepth 0) = true) := by decide +kernel
theorem witness_BadDoorbells :
    let two : Dev := { queues with hif := { vfs.hif with fns := [(0, { mse := true }), (64, { mse := true })] } }
    (HostReaches queues 0 .qmx ∧ HostReaches two 64 .qmx ∧ two.rdB (Reg.EVR_CFG_en.ix 64) = false) ∧
    (2 ^ 16 ≤ (0x10000 : Dword).toNat ∧ ¬ 2 ^ 16 ≤ (16 : Dword).toNat) ∧
    (queues.sqShown (queues.sqBase 0 + 1023) ∉ [sqActive, sqFetchTimeout, sqHalted] ∧ ¬ 0 < two.sqCount 64) ∧
    (queues.sqShown (queues.sqBase 0 + 1) ∈ [sqActive, sqFetchTimeout, sqHalted] ∧
      queues.sqDepth (queues.sqBase 0 + 1) ≤ (16 : Dword).toNat % 2 ^ 16) ∧
    (queues.cqActive (queues.cqBase 0 + 1023) = false ∧ ¬ 0 < two.cqCount 64) ∧
    (queues.cqActive (queues.cqBase 0 + 0) = true ∧ queues.cqDepth (queues.cqBase 0 + 0) ≤ (16 : Dword).toNat % 2 ^ 16) ∧
    ((1 : Dword).toNat % 2 ^ 16 < queues.cqDepth 0 ∧
      onPath (queues.rd (Reg.QD_CQ_PTR_head.ix 0)) (queues.rd (Reg.QD_CQ_PTR_tail.ix 0)) 1 (queues.cqDepth 0) = false) ∧
    (queues.rdB (Reg.EVR_CFG_en.ix 0) = true ∧ queues.ringDepth 0 ≤ 16 ∧ 1 < queues.ringDepth 0 ∧
      onPath (queues.ring 0).head (queues.ring 0).tail 1 (queues.ringDepth 0) = false) := by decide +kernel
theorem witness_QueueDescriptors :
    let d := queuesWith [(Reg.QD_SQ_CFG_size_m1.ix 3, 1), (Reg.QD_SQ_STAT_state.ix 1, sqFetchTimeout),
      (Reg.QD_CQ_CFG_size_m1.ix 3, 1), (Reg.QD_CQ_CFG_vector.ix 3, 2047), (Reg.EVR_CFG_en.ix 0, 0),
      (Reg.QD_SQ_CFG_cq.ix 4, 1)]
    (d.sqState 3 = sqDisabled ∧ 1 ≤ d.rd (Reg.QD_SQ_CFG_size_m1.ix 3) ∧ d.rd (Reg.QD_SQ_CFG_cq.ix 3) < d.cqCount 0 ∧
      d.cqActive (d.cqOfSq 0 3) = true) ∧
    (d.sqState 4 = sqDisabled ∧ ¬ 1 ≤ d.rd (Reg.QD_SQ_CFG_size_m1.ix 4)) ∧ d.sqState 2 = sqActive ∧
    d.sqState 1 = sqFetchTimeout ∧ (d.inflight 2 = 0 ∧ ∀ x ∈ d.qmx.fetched, x.q ≠ 2) ∧
    (queuesHold [⟨2, 0, none⟩] []).qmx.fetched.any (fun x => x.q = 2) = true ∧
    (d.cqActive 3 = false ∧ 1 ≤ d.rd (Reg.QD_CQ_CFG_size_m1.ix 3) ∧ d.rd (Reg.QD_CQ_CFG_vector.ix 3) < vectorsOf 0) ∧
    (d.cqActive 4 = false ∧ ¬ 1 ≤ d.rd (Reg.QD_CQ_CFG_size_m1.ix 4)) ∧
    (∀ j, j < 1024 → d.sqState (d.sqBase 0 + j) ≠ sqDisabled → d.cqOfSq 0 (d.sqBase 0 + j) ≠ 3) ∧
    (2 < d.sqCount 0 ∧ d.sqState (d.sqBase 0 + 2) ≠ sqDisabled ∧ d.cqOfSq 0 (d.sqBase 0 + 2) = d.cqBase 0 + 0) ∧
    (d.rdB (Reg.EVR_CFG_en.ix 0) = false ∧ 1 ≤ d.rd (Reg.EVR_CFG_size_m1.ix 0) ∧ d.rd (Reg.EVR_CFG_vector.ix 0) < vectorsOf 0) ∧
    (HostReaches d 0 .qmx ∧ (d.wr (Reg.EVR_CFG_size_m1.ix 0) 0).rdB (Reg.EVR_CFG_en.ix 0) = false ∧
      ¬ 1 ≤ (d.wr (Reg.EVR_CFG_size_m1.ix 0) 0).rd (Reg.EVR_CFG_size_m1.ix 0)) := by decide +kernel
theorem witness_ArbiterOrder :
    let admin := queuesWith [(Reg.QD_SQ_PTR_tail.ix 0, 2)]
    let both := queuesWith [(Reg.QD_SQ_PTR_tail.ix 1, 2), (Reg.QD_SQ_PTR_tail.ix 2, 3)]
    let normal := queuesWith [(Reg.QD_SQ_PTR_tail.ix 1, 2)]
    State.reset.dev.intakeOpen = false ∧ (admin.intakeOpen = true ∧ 0 < admin.take 0) ∧
    (both.take 0 = 0 ∧ both.sqOwner 2 = some 0 ∧
      firstFrom both.qmx.urgentNext (fun x => decide (x ≠ 0) && both.urgent x && decide (0 < both.take x)) = some 2) ∧
    (normal.take 0 = 0 ∧ normal.sqOwner 1 = some 0 ∧
      firstFrom normal.qmx.urgentNext (fun x => decide (x ≠ 0) && normal.urgent x && decide (0 < normal.take x)) = none ∧
      firstFrom normal.qmx.normalNext (fun x => decide (x ≠ 0) && !normal.urgent x && decide (0 < normal.take x)) = some 1) := by
  decide +kernel

/-- An entry of 16 dwords of which the first five are given. -/
def entry (dw0 dw1 dw2 dw3 dw4 : Nat) (rest : List Nat := []) : List Dword :=
  ((([dw0, dw1, dw2, dw3, dw4] ++ rest) ++ List.replicate 16 0).take 16).map (BitVec.ofNat 32)

/-- An admitted command of PF0's SQ 1 on CQ 0. -/
def cmd (adm : Nat) (e : List Dword) (stage : Stage) : Cmd := { adm := adm, fn := 0, q := 1, cq := 0, slot := 0, entry := e, stage := stage }

theorem witness_EntryValidation :
    let good := entry 0x00050010 0 0 0 0
    let bad := entry 0x000500EE 0 0 0 0
    let x (e : List Dword) : Fetched := ⟨1, 15, some e⟩
    let d := queuesHold [x good] []
    let full : Dev := { d with dram := { d.dram with ologs := [(0, { recs := [(0, newRec d 0 1 good)] })] } }
    State.reset.dev.intakeOpen = false ∧
    (d.intakeOpen = true ∧ d.qmx.fetched = [x good] ∧ d.sqOwner 1 = some 0 ∧
      malformed good (1 == 0) (d.tagInUse 1 (eCmdTag good)) = none ∧
      Tbl.get? (d.olog 0).recs ((d.olog 0).admittedCount % 65536) = none) ∧
    (full.intakeOpen = true ∧ full.sqOwner 1 = some 0 ∧ malformed good (1 == 0) (full.tagInUse 1 (eCmdTag good)) = none ∧
      Tbl.get? (full.olog 0).recs ((full.olog 0).admittedCount % 65536) = some (newRec d 0 1 good) ∧
      (newRec d 0 1 good).final = false) ∧
    ((queuesHold [x bad] []).intakeOpen = true ∧
      malformed bad (1 == 0) ((queuesHold [x bad] []).tagInUse 1 (eCmdTag bad)) = some 1) ∧
    eFence good = false ∧ HostReaches queues 0 .sys ∧ queues.rd Reg.SYS_HALT_SRC_valid = 0 ∧
    ((queuesWith [(Reg.SYS_HALT_SRC_valid, 1)]).rd Reg.SYS_HALT_SRC_valid ≠ 0) := by decide +kernel
theorem witness_VolumeCommandChecks :
    let c := cmd 7 (entry opRead 0 0 0 1) .ready
    let d := queuesHold [] [c]
    let h := { (d.wr (Reg.VD_CFG_en.ix 0) 1) with lay := { d.lay with arrs := [(0, { assembling := true })] } }
    (d.ready? opRead 7 = some c ∧ d.volExists (eVolume c.entry) = false ∧ c.persist = 0 ∧
      d.checkVolume c = some (ssNotAccessible, 0)) ∧
    (h.ready? opRead 7 = some c ∧ eFlushAll c.entry = false ∧ h.volExists (eVolume c.entry) = true ∧
      (h.arr (h.volArray (eVolume c.entry))).assembling = true) := by decide +kernel

/-! ### Commands, reads and destages -/

/-- Fields of array 0: 2+1 with one spare on ports 0, 32, 64 and 96, all READY, and of volume 0 over its four stripes. -/
def arrayFields : List (Fld × Nat) :=
  [(Reg.AR_CFG_en.ix 0, 1), (Reg.AR_CFG_k.ix 0, 2), (Reg.AR_CFG_m.ix 0, 1), (Reg.AR_CFG_spares.ix 0, 1),
    ((Reg.AR_MEMBER_valid_lo.ix 0).ix 0, 1), ((Reg.AR_MEMBER_port_lo.ix 0).ix 0, 0),
    ((Reg.AR_MEMBER_valid_hi.ix 0).ix 0, 1), ((Reg.AR_MEMBER_port_hi.ix 0).ix 0, 32),
    ((Reg.AR_MEMBER_valid_lo.ix 0).ix 1, 1), ((Reg.AR_MEMBER_port_lo.ix 0).ix 1, 64),
    ((Reg.AR_MEMBER_valid_hi.ix 0).ix 1, 1), ((Reg.AR_MEMBER_port_hi.ix 0).ix 1, 96),
    ((Reg.AR_MSTATE_state.ix 0).ix 0, msOk), ((Reg.AR_MSTATE_state.ix 0).ix 1, msOk),
    ((Reg.AR_MSTATE_state.ix 0).ix 2, msOk), ((Reg.AR_MSTATE_state.ix 0).ix 3, msOk),
    (Reg.PT_STAT_state.ix 0, ptReady), (Reg.PT_STAT_state.ix 32, ptReady), (Reg.PT_STAT_state.ix 64, ptReady),
    (Reg.PT_STAT_state.ix 96, ptReady), (Reg.AR_STAT_state.ix 0, asOptimal),
    (Reg.VD_CFG_en.ix 0, 1), (Reg.VD_CFG_pf0.ix 0, 1), (Reg.VD_STRIPES_stripes.ix 0, 4), (Reg.VD_SIZE_blocks.ix 0, 120)]

/-- `queues` with array 0 and volume 0. -/
def arrays : Dev :=
  { queuesWith arrayFields with
    lay := { arrs := [(0, { cycles := 4, recPorts := [(0, 0), (1, 32), (2, 64), (3, 96)] })] }
    sys := { ready.sys with pdDrv := [true, true, true, true, true, true, true, true] } }

/-- `arrays` with commands admitted and blocks cached. -/
def busyWith (cmds : List Cmd) (cache : List CBlk) (fs : List (Fld × Nat) := []) : Dev :=
  Dev.withFields { arrays with qmx := { arrays.qmx with cmds := cmds }, dram := { arrays.dram with cache := cache } } fs

/-- A cached block of volume 0. -/
def blk (lba adm : Nat) (st : CSt) : CBlk :=
  { vol := 0, lba := lba, array := 0, t := lba / 30, data := [], crc := 0, zero := false, adm := adm, copyA := .good,
    copyB := .good, st := st, persistent := true, wt := false, fua := false, stream := none, readAhead := false, used := 0 }

/-- A command of volume 0's first blocks, by its first dword: direct, to or from host address 0x1000. -/
def io (adm dw0 count : Nat) (stage : Stage := .ready) : Cmd :=
  cmd adm (entry dw0 0 0 0 count [0, 0x1000, 0, 4096 * count]) stage

theorem witness_CommandsStart :
    let flush := io 7 opFlush 0
    let write := io 7 (opWrite + 0x800) 1
    let s := busyWith [write] [] [(Reg.VD_CFG_stream_en.ix 0, 1)]
    let two (c : Cmd) := busyWith [io 6 opRead 1 .running, c] []
    let ind (op : Nat) := io 7 (op + 0x400) 1
    (busyWith [io 7 opNop 0] []).ready? opNop 7 = some (io 7 opNop 0) ∧
    ((busyWith [flush] []).ready? opFlush 7 = some flush ∧ (busyWith [flush] []).checkVolume flush = none ∧
      (arrays.arr (arrays.volArray 0)).assembling = false ∧ flush.lostFirst = none ∧
      (∀ b ∈ (busyWith [flush] []).dram.cache, (busyWith [flush] []).flushCovers { flush with cover := 0 } b = false)) ∧
    (busyWith [flush] [blk 0 3 .dirty]).flushCovers { flush with cover := 0 } (blk 0 3 .dirty) = true ∧
    (s.ready? opWrite 7 = some write ∧ s.checkVolume write = none ∧ eInd write.entry = false ∧ eStrm write.entry = true ∧
      s.lockBlocked write = false) ∧
    (∀ op ∈ [opRead, opWrite, opVerify, opDeallocate, opWriteZeroes],
      (two (io 7 op 1)).ready? op 7 = some (io 7 op 1) ∧ (two (io 7 op 1)).checkVolume (io 7 op 1) = none ∧
      (two (io 7 op 1)).lockBlocked (io 7 op 1) = true) ∧
    (∀ op ∈ [opRead, opWrite], (busyWith [ind op] []).ready? op 7 = some (ind op) ∧
      (busyWith [ind op] []).checkVolume (ind op) = none ∧ eInd (ind op).entry = true) := by decide +kernel
theorem witness_ReadsFromTheCache :
    let d (op : Nat) := busyWith [io 7 op 2] [blk 0 3 .dirty]
    (∀ op ∈ [opVerify, opRead], (d op).ready? op 7 = some (io 7 op 2) ∧ (d op).checkVolume (io 7 op 2) = none ∧
      ((d op).volExists 0 && ((d op).arr ((d op).volArray 0)).assembling) = false ∧ eInd (io 7 op 2).entry = false ∧
      (d op).lockBlocked (io 7 op 2) = false ∧ (d op).blockNow 0 0 = some (.good [] 0) ∧
      (d op).blockNow 0 1 = some (.good [] 0) ∧ eCount (io 7 op 2).entry = 2 ∧
      ∀ b ∈ (d op).dram.cache, b.copy ((d op).readGroup b) ≠ .bad ∧ b.copy ((d op).readGroup b) ≠ .wrong) ∧
    (d opRead).canDma 0 = true ∧ (io 7 opRead 2).silent = false ∧ eLength (io 7 opRead 2).entry = 4096 * 2 := by
  decide +kernel
theorem witness_DeallocatedStripes :
    (∀ op ∈ [opDeallocate, opWriteZeroes],
      let c := io 7 op 30
      let d := busyWith [c] [blk 0 3 .dirty]
      d.ready? op 7 = some c ∧ d.checkVolume c = none ∧ (d.volExists 0 && (d.arr (d.volArray 0)).assembling) = false ∧
      eInd c.entry = false ∧ d.lockBlocked c = false ∧ c.flipped = 0 ∧ c.lostFirst = none ∧ d.cover 0 0 30 = (0, 30) ∧
      eCount c.entry = 30) := by decide +kernel
theorem witness_FencesLocksAndTables :
    let fenced := io 7 (opRead + 0x100) 1 .fenced
    let wait := io 7 opWrite 1 .lockWait
    let table (op len : Nat) : Cmd := { io 7 (op + 0x400) 1 .table with frags := [⟨0x1000, len, 1⟩] }
    let adm : Cmd := { cmd 7 (entry (opIdentify + 0x400) 0 0 0 0 [0, 0x1000, 0, 1]) .table with frags := [⟨0x1000, 4096, 1⟩] }
    ((busyWith [fenced] []).cmd? 7 = some fenced ∧ ∀ x ∈ [fenced], x.fn = fenced.fn → 7 ≤ x.adm) ∧
    (∃ x ∈ [io 6 opRead 1, fenced], x.fn = fenced.fn ∧ x.adm < 7) ∧
    ((busyWith [wait] []).lockBlocked wait = false ∧ eOpcode wait.entry = opWrite ∧ eTagchk wait.entry = false) ∧
    (busyWith [io 6 opRead 1, wait] []).lockBlocked wait = true ∧
    ((busyWith [adm] []).intakeOpen = true ∧ malformedTable adm.entry adm.frags = none ∧ isDataOp (eOpcode adm.entry) = false ∧ adm.frags ≠ []) ∧
    (malformedTable (table opWrite 4096).entry (table opWrite 4096).frags = none ∧
      (busyWith [table opWrite 4096] []).lockBlocked (table opWrite 4096) = false ∧
      (busyWith [io 6 opRead 1, table opWrite 4096] []).lockBlocked (table opWrite 4096) = true) ∧
    malformedTable (table opRead 8192).entry (table opRead 8192).frags = some (7, 0) := by decide +kernel
theorem witness_AdmissionAndFlip :
    let c := io 7 opWrite 1 .running
    let fits := busyWith [c] [] [(Reg.PWC_CEIL_mib, 100)]
    let full := busyWith [c] [] [(Reg.PWC_WT_CFG_window_mib, 0)]
    let flip := busyWith [c] [blk 0 3 .dirty, { blk 0 7 .writing with persistent := false }]
    (fits.cmd? 7 = some c ∧ fits.pwc.bothLost = false ∧ fits.vlt.dusk = none ∧ fits.grantNext = some (c, 1) ∧
      fits.grantFits 1 = true) ∧
    (full.grantNext = some (c, 1) ∧ full.grantFits 1 = false) ∧
    (flip.cmd? 7 = some c ∧ flip.dram.cache.find? (fun x => x.adm = 7 && x.lba = 0 && x.st = .writing) =
      some { blk 0 7 .writing with persistent := false }) := by decide +kernel
theorem witness_AdminCommands :
    let a (dw0 : Nat) (w : List Nat) : Cmd := cmd 7 (entry dw0 0 0 0 0 ([0, 0x1000, 0, 4096] ++ w)) .ready
    let d (c : Cmd) := busyWith [c] []
    ((d (a opIdentify [4])).admin? opIdentify 7 = some (a opIdentify [4]) ∧ (d (a opIdentify [4])).identifyBad (a opIdentify [4]) = some 9) ∧
    ((d (a opIdentify [3])).identifyBad (a opIdentify [3]) = none ∧ eInd (a opIdentify [3]).entry = false ∧ arrays.canDma 0 = true) ∧
    ((d (a opGetLog [0])).admin? opGetLog 7 = some (a opGetLog [0]) ∧ logEntrySize (dwBits (a opGetLog [0]).entry 9 7 0) = 0 ∧
      logEntrySize (dwBits (a opGetLog [3]).entry 9 7 0) ≠ 0) ∧
    ((d (a opOutcomeRead [65])).admin? opOutcomeRead 7 = some (a opOutcomeRead [65]) ∧ 64 < dwBits (a opOutcomeRead [65]).entry 9 6 0 ∧
      ¬ 64 < dwBits (a opOutcomeRead [64]).entry 9 6 0 ∧ bitOf (dw (a opOutcomeRead [64]).entry 9) 8 = false) ∧
    ((d (a opDetAck [0x80000001])).admin? opDetAck 7 = some (a opDetAck [0x80000001]) ∧
      bitOf (dw (a opDetAck [0x80000001]).entry 9) 31 = true ∧ dwBits (a opDetAck [0x80000001]).entry 9 9 0 ≠ 0 ∧
      bitOf (dw (a opDetAck [1023]).entry 9) 31 = false ∧ arrays.dram.overflow = []) ∧
    ((d (a opSetEventMask [65])).admin? opSetEventMask 7 = some (a opSetEventMask [65]) ∧
      64 < dwBits (a opSetEventMask [65]).entry 9 6 0 ∧ dwBits (a opSetEventMask [64]).entry 9 6 0 ≤ 64) := by decide +kernel

/-- A member operation of array 0's stripe 0 on member 0. -/
def memberOp (j : Nat) (isWrite : Bool) (client : Client) (st : OpSt) : MemberOp :=
  { id := 1, port := 0, array := 0, member := 0, t := 0, j := j, rows := [0], isWrite := isWrite, data := [[]],
    client := client, st := st, bypassed := false, occurrences := 0 }

/-- `arrays` with one member operation, destages and intent records. -/
def layWith (op : MemberOp) (ds : List Destage) (is : List Intent) (fs : List (Fld × Nat) := []) : Dev :=
  Dev.withFields { arrays with lay := { arrays.lay with ops := [op], destages := ds },
                               dram := { arrays.dram with intents := is } } fs

/-- A destage of stripe 0 that still needs two units. -/
def destage5 : Destage :=
  { id := 5, array := 0, t := 0, method := .delta, gen := 1, carries := [], rows := [0], need := [(0, 0), (2, 0)], got := [],
    missing := [], fix := [] }

/-- The intent record 4 of stripe 0 that writes units 0 and 2. -/
def intent4 (doneMap : List Nat) : Intent :=
  { array := 0, t := 0, kind := 3, gen := 1, writeMap := [0, 2], doneMap := doneMap, lostMap := [], leftMap := [], asnLow := 0,
    asnHigh := 0, buffer := 0, seq := 4, ts := 0, blocks := [], carries := [] }

theorem witness_DestageSteps :
    let full : Dev :=
      { arrays.wr Reg.PWC_POOL_group_gib 16 with
                    dram := { arrays.dram with cache := (List.range 30).map fun i => blk i 3 .dirty },
                    lay := { arrays.lay with due := [⟨0, 0, 0, true⟩] } }
    let read := memberOp 2 false (.destage 5) .done
    let write := memberOp 0 true (.intentWrite 4) .done
    let late := memberOp 0 false (.hostRead 7) .issued
    let slow := layWith late [] [] [(Reg.AR_DEADLINE_ms.ix 0, 5)]
    15 < 16 ∧
    (full.eceDown = false ∧ full.nextDue = some ⟨0, 0, 0, true⟩ ∧
      (full.dirtyOf 0 0).length = (full.geoAt 0 0).perStripe ∧ full.destage? full.lay.nextId = none ∧
      ∀ b ∈ full.dram.cache, b.copy (full.readGroup b) ≠ .bad ∧ b.copy (full.readGroup b) ≠ .wrong) ∧
    ((layWith read [destage5] []).op? 1 = some read ∧ (layWith read [destage5] []).destage? 5 = some destage5 ∧
      (arrays.geoAt 0 0).k ≤ 2 ∧ (arrays.stripe 0 0).genUnknown = false ∧ ∃ n ∈ destage5.need, n.1 ≠ 2 ∧ destage5.old n.1 n.2 = none) ∧
    ((layWith write [] [intent4 []]).dram.intents.find? (fun x => x.seq = 4) = some (intent4 []) ∧
      (intent4 []).lostMap = [] ∧ ∃ p ∈ (intent4 []).writeMap, p ≠ write.j ∧ p ∉ (intent4 []).doneMap) ∧
    ((∀ p ∈ (intent4 [2]).writeMap, p = write.j ∨ p ∈ (intent4 [2]).doneMap) ∧ (intent4 [2]).kind ≠ 5 ∧
      (0, 0) ∉ arrays.lay.freshOwed ∧ arrays.lay.repairs = []) ∧
    (slow.op? 1 = some late ∧ slow.rd (Reg.AR_DEADLINE_ms.ix 0) ≠ 0 ∧
      late.bypassed = false ∧
      (late.j :: slow.slowAt 0 0 ++ slow.unavailable 0 (slow.plan 0 0)).eraseDups.length ≤ (slow.geoAt 0 0).m) ∧
    (layWith late [] [] [(Reg.AR_DEADLINE_ms.ix 0, 0)]).rd (Reg.AR_DEADLINE_ms.ix 0) = 0 := by decide +kernel

/-! ### The Ceiling, the DRAM groups, the metadata cache, coding -/

/-- A battery profile: two cells, OCV 3000 to 4000 mV. -/
def pack : BattProfile :=
  { crcOk := true, chemistry := 1, n := 2, designMah := 4000, vMin := 2800, vMax := 4300, vFull := 4200, vNom := 3700,
    vRestart := 4000, iChg := 2000, iTerm := 200, floatMode := false, chgLow := 0, chgHigh := 450, dsgLow := -100,
    dsgHigh := 600, stepMa := 1000, tauS := 30, rDesign := 100, kp := 10, ki := 10, pwmKhz := 200, maxDuty := 9000,
    temps := [0, 400], rates := [1, 10],
    ocv := [(List.range 21).map fun i => 3000 + 50 * i, (List.range 21).map fun i => 3000 + 50 * i],
    derate := [[(1, 10000), (10, 9000)], [(1, 10000), (10, 9500)]] }

/-- `arrays` with the pack present, both ADCs trusted and the profiles valid. -/
def packed : Dev :=
  Dev.withFields
    { arrays with bps := { batt := some pack, bcal := some ⟨true, 1000, [], []⟩, dusk := some ⟨true, 60, 500, 1000, 2000, 4⟩,
                           sample := ⟨[37000, 37000], 0, 250, 250⟩ } }
    [(Reg.BPS_PACK_present, 1), (Reg.BPS_ADC_adc0_ok, 1), (Reg.BPS_ADC_adc1_ok, 1), (Reg.BPS_R_r_dc, 800),
     (Reg.BPS_VOLT_v_min, 5600), (Reg.BPS_VOLT_v_ocv, 7000), (Reg.BPS_Q_learned, 4000)]

/-- `packed` with further fields set. -/
def packedWith (fs : List (Fld × Nat)) : Dev := Dev.withFields packed fs

theorem witness_CeilingApplied :
    State.reset.dev.estimateSeen = false ∧ (packedWith [(Reg.BPS_HALO_STAT_mode, 1)]).estimateSeen = true := by decide +kernel
theorem witness_PowerCheck :
    packed.batt = some pack ∧ packed.haloMode ≠ hmNone ∧ packed.rd Reg.BPS_R_r_dc ≠ 0 ∧
    packed.duskProfile = some ⟨true, 60, 500, 1000, 2000, 4⟩ ∧
    (let weak := packedWith [(Reg.BPS_VOLT_v_ocv, 5601)]
     ((weak.rd Reg.BPS_VOLT_v_min : Rat) / 1000) *
       ((weak.rd Reg.BPS_VOLT_v_ocv : Rat) / 1000 - (weak.rd Reg.BPS_VOLT_v_min : Rat) / 1000) /
       ((weak.rd Reg.BPS_R_r_dc : Rat) / 10000) < (12 : Rat) / 10 * 60) := by decide +kernel

/-- `arrays` with PWC changed. -/
def pwcWith (g : PwcState → PwcState) (fs : List (Fld × Nat) := []) : Dev :=
  Dev.withFields { arrays with pwc := g arrays.pwc } fs

/-- Wrong bits of eight symbols of one device, and of nine symbols. -/
def bits8 : List (Nat × Nat) := (List.range 8).map fun q => (3, 2 * q)
def bits9 : List (Nat × Nat) := bits8 ++ [(4, 0)]

theorem test_device_failure_is_corrected : wrongSymbols (errWord bits8) = 8 ∧ rsDecode (errWord bits8) = .corrected := by
  decide +kernel
theorem test_nine_symbols_are_not : rsDecode (errWord bits9) = .uncorrectable := by decide +kernel
theorem witness_DramGroups :
    let failedB := pwcWith id [(Reg.PWC_STAT_grp_b, grFailed)]
    let next (c : Nat) := pwcWith (fun p => { p with retrainNext := some c })
    let run (c : Nat) := pwcWith (fun p => { p with retrainNext := some c, retraining := some c })
      [(Reg.PWC_CH_state.ix c, chanRetrain), (if c < 6 then Reg.PWC_STAT_grp_a else Reg.PWC_STAT_grp_b, 1)]
    let held := busyWith [] [blk 0 3 .dirty]
    let rejoin := pwcWith (fun p => { p with rejoining := some .b }) [(Reg.PWC_STAT_grp_b, grRejoining)]
    (wrongSymbols (errWord []) = 0 ∧ (∀ x ∈ bits9, x.1 < 40 ∧ x.2 < 16) ∧ wrongSymbols (errWord [(39, 15)]) = 1 ∧
      ∀ g ∈ [Group.a, .b], arrays.groupUp g = true ∧ arrays.groupUp (otherGroup g) = true) ∧ arrays.pwc.retraining = none ∧
    ((Tbl.getD arrays.pwc.uncorrTimes 0 []).filter fun t => decide (arrays.ticks < t + 250000000)).length < 63 ∧
    (held.dram.cache.find? (fun x => x.vol = 0 && x.lba = 0 && x.adm = 3) = some (blk 0 3 .dirty) ∧
      (blk 0 3 .dirty).copy .a ≠ .absent ∧ (blk 0 3 .dirty).copy (otherGroup .a) = .good) ∧
    (∀ c ∈ [0, 5, 6, 11], c < 12 ∧ arrays.pwc.bothLost = false ∧ arrays.chanState c ≠ chanLost ∧
      arrays.groupUp (groupOf c) = true ∧ arrays.groupUp (otherGroup (groupOf c)) = true) ∧
    (failedB.chanState 5 ≠ chanLost ∧ failedB.groupUp (groupOf 5) = true ∧
      failedB.groupUp (otherGroup (groupOf 5)) = false) ∧
    (HostReaches failedB 0 .pwc ∧ failedB.groupState .b = grFailed ∧ failedB.groupState (otherGroup .b) ≠ grFailed ∧
      failedB.vlt.dusk = none ∧ failedB.vlt.dawn = none ∧ failedB.rd (Reg.BLK_STAT_specific.ix 0) = 5) ∧
    (HostReaches arrays 0 .pwc ∧ (arrays.groupState .a = grFailed ↔ arrays.groupState .b = grFailed)) ∧
    (rejoin.pwc.rejoining = some .b ∧ ∀ b ∈ rejoin.dram.cache, b.st ≠ .clean → b.copy .a = .good) ∧
    (∀ c ∈ [0, 11], (next c).pwc.retrainNext = some c ∧ (next c).pwc.retraining = none ∧ (next c).pwc.bothLost = false ∧
      (next c).chanState c ≠ chanLost ∧ (next c).groupUp (groupOf c) = true ∧
      (next c).groupUp (otherGroup (groupOf c)) = true) ∧
    (∀ c ∈ [0, 10, 11], (run c).pwc.retraining = some c ∧ (run c).chanState c = chanRetrain ∧
      (run c).groupState (groupOf c) = 1 ∧ (run c).pwc.retrainNext ≠ none) := by decide +kernel
theorem witness_SetIndexIsInvertible :
    2 ^ 42 - 1 < 2 ^ 42 ∧ 2 ^ 14 - 1 < 2 ^ 14 ∧ 0x474B93F / 2 ^ 14 = 0x474B940 / 2 ^ 14 ∧
    setIndex (2 ^ 42 - 1) 0 = setIndex (2 ^ 42 - 1) 0 := by decide +kernel

/-- `ready` with SMC in a state, with its data changed. -/
def smcAt (st : Nat) (g : SmcState → SmcState) (fs : List (Fld × Nat) := []) : Dev :=
  Dev.withFields { arrays with smc := g arrays.smc } ((Reg.BLK_STAT_state.ix Blk.smc.page, st) :: fs)

/-- A way that holds line 0. -/
def way0 (dirty reserved : Bool) : Way := ⟨3, 0, dirty, reserved, [7]⟩

/-- The set of line 0 at reset, with one way of it. -/
def set0 (dirty reserved : Bool) : Tbl SmcSet := [(arrays.setOf 0, { ways := [way0 dirty reserved] })]

theorem witness_MetadataCacheRequests :
    let hit := smcAt stIdle (fun s => { s with sets := set0 false false })
    let off := smcAt stOff id
    let fill := smcAt stActive (fun s => { s with sets := set0 false true, regs := [⟨0, some 3, true, []⟩] })
    let ack : Dev :=
      { smcAt stActive (fun s => { s with ackWait := [(9, ⟨7, 0, .write 0 [1], false⟩)] }) with
        dram := { arrays.dram with journal := [⟨0, 0, [1], 9, false⟩] } }
    let wb := smcAt stActive (fun s => { s with evict := [⟨0, [5]⟩, ⟨1, []⟩] })
    let top := arrays.metaLines - 1
    (7 < 8 ∧ top < 2 ^ 42 ∧ top < arrays.metaLines ∧ 0 < arrays.metaLines) ∧
    (hit.smcUsed = true ∧ hit.missOf 0 = none ∧ hit.smcHeld ⟨7, 0, .read, false⟩ = false ∧
      hit.lineWay 0 = some (way0 false false)) ∧
    (off.blkState .smc = stOff ∧ off.smcUsed = false ∧ off.smcHeld ⟨7, top, .read, false⟩ = false ∧
      off.lineWay top = none ∧ off.smc.evict = []) ∧
    (fill.missOf 0 = some ⟨0, some 3, true, []⟩ ∧ fill.smc.waiting = [] ∧ fill.smc.rekeyRunning = false ∧
      way0 false true ∈ (fill.smcSet (fill.setOf 0)).ways ∧ fill.groupUp (otherGroup (fill.lineGroup 0)) = true) ∧
    (ack.smc.ackWait.find? (fun x => x.1 = 9) = some (9, ⟨7, 0, .write 0 [1], false⟩) ∧ ack.smc.waiting = []) ∧
    (wb.smc.evict = ⟨0, [5]⟩ :: [⟨1, []⟩] ∧ wb.smc.waiting = [] ∧ wb.smc.walkSet = none ∧ wb.lineWay 0 = none ∧
      wb.groupState .a ≠ grFailed ∧ wb.groupState .b ≠ grFailed ∧ wb.pwc.retraining = none) := by decide +kernel
theorem witness_MetadataCacheControl :
    let walk (rekey : Bool) (sets : Tbl SmcSet) :=
      smcAt stActive (fun s => { s with invWalk := true, rekeyRunning := rekey, sets := sets })
    (∀ st ∈ [stOff, stFault, stDraining, stIdle, stActive], (smcAt st id).blkState .smc = st ∧ HostReaches (smcAt st id) 0 .smc) ∧
    (let d := smcAt stIdle fun s => { s with sets := set0 true false }
     d.smc.invWalk = false ∧ d.smc.sets.Pairwise (fun x y => x.1 < y.1) ∧ way0 true false ∈ (d.smcSet (d.setOf 0)).ways) ∧
    (∀ rekey, (walk rekey []).smc.invWalk = true ∧ (walk rekey []).smc.walkSet = none ∧ (walk rekey []).smc.evict = [] ∧
      (walk rekey []).blkState .smc ≠ stDraining ∧ (walk rekey []).smc.rekeyRunning = rekey ∧
      (walk rekey []).smc.waiting = []) ∧
    ((walk true []).smcHolds = false ∧ (walk true (set0 false false)).smcHolds = true ∧
      (walk true (set0 false false)).smc.evict = []) ∧
    (arrays.smc.rekeyPending = false ∧ arrays.smc.rekeyRunning = false ∧ (smcAt stOff id).blkState .smc = stOff ∧
      (smcAt stIdle id).blkState .smc ≠ stOff ∧ arrays.mnt.acts = [] ∧ (smcAt stIdle id).blkState .ccx ≠ stFault) ∧
    (arrays.smc.bistRunning = false ∧ (smcAt stOff fun s => { s with bistRunning := true }).smc.bistRunning = true) ∧
    (let d := smcAt stOff (fun s => { s with resetInval := true, newKey := true }) [(Reg.BLK_CTRL_en.ix Blk.smc.page, 1)]
     d.smc.resetInval = true ∧ d.smc.waiting = [] ∧ d.smc.newKey = true ∧
       d.rd (Reg.BLK_CTRL_en.ix Blk.smc.page) ≠ 0 ∧ d.blkState .smc = stOff) ∧
    0 < ((smcAt stActive fun s => { s with misses := [(5, 3)] }).smc.misses.map Prod.snd).sum := by decide +kernel

/-- An ECE job 8 of array 0's stripe 0 with zero inputs. -/
def job (kind : JobKind) (client : JobClient) (lost : List Nat) : EceJob :=
  { id := 8, kind := kind, lane := 0, array := 0, t := 0, k := 2, m := 1, rows := [0],
    inputs := [⟨0, 0, []⟩, ⟨1, 0, []⟩, ⟨2, 0, []⟩].filter (fun b => b.j ∉ lost), fresh := [⟨0, 0, []⟩], lost := lost,
    parityRows := [0], client := client }

/-- `arrays` with an ECE job and the destage 5. -/
def eceWith (j : EceJob) (fs : List (Fld × Nat) := []) : Dev :=
  Dev.withFields { arrays with ece := { arrays.ece with jobs := [j] }, lay := { arrays.lay with destages := [destage5] } } fs

theorem witness_CodingJobs :
    let bad : EceJob := { job .decode (.destage 5) [1] with inputs := [⟨0, 0, []⟩, ⟨2, 0, []⟩, ⟨3, 0, [1]⟩], m := 2 }
    let later : Dev := { eceWith (job .decode (.destage 5) [1]) with
      lay := { (eceWith (job .decode (.destage 5) [1])).lay with nextId := 9 } }
    (∀ k ∈ [JobKind.encode, .delta, .decode, .syndrome],
      (eceWith (job k (.destage 5) [])).jobReady 8 k = some (job k (.destage 5) [])) ∧
    ((∀ y ∈ (eceWith (job .encode (.destage 5) [])).ece.jobs, y.client = .destage 5 → y.id = 8) ∧
      ∀ o ∈ (eceWith (job .encode (.destage 5) [])).ece.outs, o.1 ≠ .destage 5) ∧
    (eceWith (job .encode (.destage 5) [])).destage? 5 = some destage5 ∧
    (decodeOut (job .decode (.destage 5) [1]) = some [⟨1, 0, []⟩] ∧
      decodePasses (job .decode (.destage 5) [1]) [⟨1, 0, []⟩] = true ∧ 8 < later.lay.nextId ∧
      later.jobReady 8 .decode = some (job .decode (.destage 5) [1])) ∧
    ((eceWith bad).jobReady 8 .decode = some bad ∧ ∃ out, decodeOut bad = some out ∧ decodePasses bad out = false) ∧
    (job .syndrome (.destage 5) []).rows = [0] := by
  refine ⟨by decide +kernel, by decide +kernel, by decide +kernel, by decide +kernel, ⟨by decide +kernel, ?_⟩, by decide +kernel⟩
  exact ⟨[⟨1, 0, []⟩], by decide +kernel, by decide +kernel⟩
theorem witness_CodingLanes :
    let j := job .encode (.destage 5) []
    let d := eceWith j [(Reg.ECE_KAT_CTRL_interval_s, 60)]
    let on : Dev := { d with ece := { d.ece with katOn := some 1 } }
    let failed := eceWith j [(Reg.ECE_LANE_STAT_dec_state, 2)]
    let retest : Dev := { failed with ece := { failed.ece with retesting := [1] } }
    let both : Dev := { retest with ece := { retest.ece with katOn := some 0 } }
    (d.running? 8 = some j ∧ d.eceDown = false) ∧
    (d.katRunning = false ∧ d.rd Reg.ECE_KAT_CTRL_interval_s ≠ 0 ∧ HostReaches d 0 .ece) ∧
    ((eceWith j [(Reg.ECE_KAT_CTRL_interval_s, 0)]).rd Reg.ECE_KAT_CTRL_interval_s = 0 ∧ on.katRunning = true) ∧
    (on.ece.katOn = some 1 ∧ on.ece.retesting = []) ∧
    (1 < 2 ∧ failed.laneState 1 = 2 ∧ failed.ece.retesting = [] ∧ HostReaches failed 0 .ece) ∧
    (both.ece.katOn.isSome = true ∧ retest.ece.retesting.head? ≠ some 0) ∧
    (retest.ece.katOn = none ∧ retest.ece.retesting.head? = some 1 ∧ 16 ≤ 16 ∧ ¬ 16 ≤ 15) := by decide +kernel

/-! ### Maintenance -/

/-- `arrays` with maintenance activities, MNT enabled, stripe 0 CLEAN and the others FRESH. -/
def maint (acts : List Activity) (fs : List (Fld × Nat) := []) : Dev :=
  Dev.withFields
    { arrays with mnt := { acts := acts }, dram := { arrays.dram with stripes := [(0, [(0, { state := 1, gen := 3 })])] } }
    ((Reg.BLK_CTRL_en.ix 9, 1) :: fs)

/-- `maint` with array 0 changed. -/
def maintArr (acts : List Activity) (g : ArrSt → ArrSt) (fs : List (Fld × Nat) := []) : Dev :=
  (maint acts fs).updArr 0 g

/-- Array 0 with member 1 lost: its slot is ACTIVE. -/
def lost1 (st : Nat) : List (Fld × Nat) :=
  [((Reg.AR_MSTATE_state.ix 0).ix 1, st), ((Reg.AR_SLOT_state.ix 0).ix 0, slActive),
    ((Reg.AR_SLOT_member.ix 0).ix 0, 1), (Reg.AR_STAT_state.ix 0, 1)]

theorem witness_MemberActions :
    let miss := maint [] (lost1 msMissing ++ [(Reg.MNT_CFG_missing_s, 60), (Reg.DPX_CL_state.ix 1, 1)])
    let fail := maint [] (lost1 msFailed)
    let spare := maint [] (lost1 msFailed ++ [(Reg.PT_STAT_state.ix 33, ptReady), (Reg.PT_BLOCKS_blocks.ix 33, 2 ^ 32)])
    let owed : Dev := { arrays with lay := { arrays.lay with labelsOwed := [0] } }
    (HostReaches arrays 0 .lay ∧ HostReaches fail 0 .lay ∧ HostReaches miss 0 .lay ∧ HostReaches spare 0 .lay) ∧
    (15 < 16 ∧ 255 < 256 ∧ ¬ 255 < arrays.memberCount 0 ∧ arrays.arrEn 15 = false) ∧
    (arrays.arrEn 0 = true ∧ 1 < arrays.memberCount 0 ∧ fail.memberCount 0 = 4 ∧ miss.memberCount 0 = 4) ∧
    (fail.mst 0 1 = msFailed ∧ miss.mst 0 1 = msMissing) ∧
    (arrays.mst 0 1 = msOk ∧ arrays.memberOn ((arrays.memberPort 0 1).getD 0) = some (0, 1)) ∧
    (fail.replaceBad 0 1 256 = some 1 ∧ arrays.replaceBad 0 1 33 = some 1 ∧ arrays.replaceBad 0 1 0 = some 2 ∧
      fail.replaceBad 0 1 0 = some 3 ∧
      (maint [] (lost1 msFailed ++ [(Reg.PT_BLOCKS_blocks.ix 0, 2 ^ 32)])).replaceBad 0 1 0 = some 4) ∧
    spare.replaceBad 0 1 33 = none ∧
    (arrays.activeMembers 0 = [] ∧ fail.activeMembers 0 ≠ [] ∧ fail.mnt.acts = [] ∧ fail.mntOn = true ∧
      fail.blkState .ccx ≠ stFault) ∧
    (0 ∈ owed.lay.labelsOwed ∧ owed.blkState .ccx ≠ stFault ∧ (owed.arr 0).assembling = false) ∧
    (miss.rd Reg.MNT_CFG_missing_s ≠ 0 ∧ miss.arrState 0 ≠ asOffline ∧
      miss.rd (Reg.DPX_CL_state.ix (((miss.memberPort 0 1).getD 0) / 32)) = 1) ∧
    ((maint [] (lost1 msMissing)).rd Reg.MNT_CFG_missing_s = 0 ∨ arrays.mst 0 1 ≠ msMissing) := by decide +kernel

/-- A walk of array 0 in its only pass. -/
def walk0 (cycle : Nat) : Walk :=
  { pass := 1, cycle := cycle, s := 0, planned := 2, placed := 0, startTicks := 0, lastPost := 0, stripes := 0 }

/-- A reconstruction is there when k available units answered. -/
theorem recon_isSome (d : Dev) (a t : Nat) (want : List Nat) (units : Units) (work : MntWork)
    (h : (d.geoAt a t).k ≤ ((List.range (d.plan a t).w).filter fun j =>
      d.available a (d.plan a t) j && (units.getD j none).isSome).length) : (d.recon a t want units work).isSome = true := by
  unfold Dev.recon
  dsimp only
  rw [if_neg]
  · rfl
  · intro hlt
    rw [List.length_take] at hlt
    split at hlt <;> omega

/-- The positions of stripe 0 that a reconstruction of position 1 can use. -/
def usable (d : Dev) (units : Units) : List Nat :=
  (List.range (d.plan 0 0).w).filter fun j => d.available 0 (d.plan 0 0) j && (units.getD j none).isSome

/-- Units 0 and 2 as read: zero blocks. -/
def units02 : Units := [some [], none, some []]

/-- A rebuild of array 0 at a cycle. -/
def rebuildAt (c : Nat) : Dev :=
  maintArr [⟨.rebuild, 0, .running⟩] (fun x => { x with walk := some (walk0 c) }) (lost1 msFailed)

/-- A catch-up of member 1 at a cycle. -/
def catchupAt (c : Nat) : Dev :=
  let d := maintArr [⟨.rebuild, 0, .running⟩] (fun x => { x with catchCycle := [(1, c)] }) (lost1 msCatchup)
  { d with dram := { d.dram with missed := [(1, [0])] } }

/-- A copyback of member 1 at a cycle. -/
def copybackAt (c : Nat) : Dev :=
  maint [⟨.copyback, 0, .running⟩] (lost1 msReplacing ++ [(Reg.AR_CPBK_member.ix 0, 1), (Reg.AR_CPBK_CUR_cycle.ix 0, c)])

/-- A maintenance state whose ECE holds the last decode job of stripe 0's unit 1 for a work. -/
def decoding (d : Dev) (w : MntWork) : Dev := { d with ece := { d.ece with jobs := [job .decode (.mnt w []) [1]] } }

/-- `copybackAt 0` with stripe 0's unit 1 on its spare entry. -/
def copybackSpare : Dev :=
  let d := copybackAt 0
  d.setUnitRec 0 (((d.plan 0 0).spare.getD 1 none).getD 0) 0 ⟨3, 0, 1, true, 1⟩

theorem witness_RestoringUnits_recon :
    ((rebuildAt 0).recon 0 0 (((rebuildAt 0).placeableAt 0 ((rebuildAt 0).plan 0 0)).map Prod.fst) units02 .rebuild).isSome = true ∧
    ((catchupAt 0).recon 0 0 [1] units02 (.catchup 1 0)).isSome = true ∧
    ((copybackAt 0).recon 0 0 [1] units02 (.copyback 1 0)).isSome = true :=
  ⟨recon_isSome _ _ _ _ _ _ (show 2 ≤ (usable (rebuildAt 0) units02).length by decide +kernel),
   recon_isSome _ _ _ _ _ _ (show 2 ≤ (usable (catchupAt 0) units02).length by decide +kernel),
   recon_isSome _ _ _ _ _ _ (show 2 ≤ (usable (copybackAt 0) units02).length by decide +kernel)⟩
theorem witness_RestoringUnits_back :
    (∀ p ∈ [(rebuildAt 0, MntWork.rebuild, Act.rebuild), (catchupAt 0, .catchup 1 0, .rebuild), (copybackAt 0, .copyback 1 0, .copyback)],
      let d := decoding p.1 p.2.1
      let y := job .decode (.mnt p.2.1 []) [1]
      d.canMaintain p.2.2 0 = true ∧ d.jobReady 8 .decode = some y ∧ y.array = 0 ∧ y.t = 0 ∧
      (∀ z ∈ d.ece.jobs, z.client = y.client → z.id = 8) ∧ d.ece.outs = [] ∧ decodeOut y = some [⟨1, 0, []⟩] ∧
      decodePasses y [⟨1, 0, []⟩] = true) ∧
    ((decoding (rebuildAt 0) .rebuild).walkAt 0 (walk0 0) = 0 ∧
      ((decoding (rebuildAt 0) .rebuild).placeableAt 0 ((rebuildAt 0).plan 0 0)).map Prod.fst = [1]) := by decide +kernel
theorem witness_RestoringUnits :
    let r := rebuildAt
    let cu := catchupAt
    let cb := copybackAt
    let sp := copybackSpare
    (∀ c ∈ [0, 2], (r c).canMaintain .rebuild 0 = true ∧ ((r c).arr 0).walk = some (walk0 c) ∧
      (r c).walkFind 0 1 ((r c).walkFuel 0) c 0 = some (c, 0) ∧ (r c).destaging 0 c = false ∧
      ((r c).cycleGeo 0 c).1.spc = 1 ∧ ((r c).cycleGeo 0 c).2 = 0 ∧ (r c).ece.jobs = []) ∧
    (((r 2).stripe 0 2).state = ssFresh ∧ ((r 0).stripe 0 0).state = ssClean) ∧
    (∀ c ∈ [0, 2], (cu c).missed 0 1 = 0 :: [] ∧ (cu c).canMaintain .rebuild 0 = true ∧ (cu c).mst 0 1 = msCatchup ∧
      c = max (Tbl.getD ((cu c).arr 0).catchCycle 1 0) (0 * 1024) ∧ ((cu c).unitHeld 0 1 c).isSome = true ∧
      (c + 1) % 1024 ≠ 0 ∧ c + 1 < ((cu c).arr 0).cycles ∧ (cu c).destaging 0 0 = false ∧ (cu c).ece.jobs = []) ∧
    ((cu 0).unitHeld 0 1 0 = some (0, 1) ∧ (cu 2).unitHeld 0 1 2 = some (2, 2) ∧ ((cu 2).stripe 0 2).state = ssFresh ∧
      ((cu 0).stripe 0 0).state ≠ ssFresh) ∧
    (∀ c ∈ [0, 2], (cb c).canMaintain .copyback 0 = true ∧ 1 = (cb c).rd (Reg.AR_CPBK_member.ix 0) ∧
      (cb c).mst 0 1 = msReplacing ∧ c = (cb c).rd (Reg.AR_CPBK_CUR_cycle.ix 0) ∧ c + 1 < 2 ^ 64 ∧
      c + 1 < ((cb c).arr 0).cycles ∧ (cb c).unitOf 0 1 c = some (c, if c = 0 then 1 else 2) ∧
      (cb c).onSpare 0 ((cb c).plan 0 c) (if c = 0 then 1 else 2) = false ∧ (cb c).destaging 0 c = false ∧
      (cb c).ece.jobs = []) ∧
    (((cb 2).stripe 0 2).state = ssFresh ∧ ((cb 0).stripe 0 0).state ≠ ssFresh) ∧
    (sp.canMaintain .copyback 0 = true ∧ sp.unitOf 0 1 0 = some (0, 1) ∧ sp.onSpare 0 (sp.plan 0 0) 1 = true ∧
      sp.available 0 (sp.plan 0 0) 1 = true ∧ (sp.stripe 0 0).state ≠ ssFresh ∧ sp.mst 0 1 = msReplacing ∧
      sp.ece.jobs = []) := by decide +kernel

/-- A restripe of array 0 to one parity unit more. -/
def restripe0 (descending : Bool) : RestripeSt :=
  { k := 1, m := 2, spares := 1, seed := 5, ports := [0, 32, 64, 96], descending := descending }

theorem witness_ScrubAndRestripe :
    let idle := maint [] [(Reg.MNT_SCRUB_CFG_en, 1)]
    let off := maint [] [(Reg.MNT_SCRUB_CFG_en, 0)]
    let pass (x : ScrubSt) := maintArr [⟨.scrub, 0, .running⟩] (fun r => { r with scrub := some x })
    let step (desc : Bool) (c w : Nat) := maintArr [⟨.restripe, 0, .running⟩]
      (fun r => { r with restripe := some (restripe0 desc) }) [(Reg.AR_RS_CUR_cycle.ix 0, c), (Reg.PWC_WT_CFG_window_mib, w)]
    let fits (d : Dev) : Bool := d.grantFits ((d.targetGeo 0).spc * (d.targetGeo 0).perStripe)
    (15 < 16 ∧ idle.rd Reg.MNT_SCRUB_CFG_en ≠ 0 ∧ idle.arrEn 0 = true ∧ idle.mnt.acts = [] ∧ idle.mntOn = true ∧
      idle.blkState .ccx ≠ stFault ∧ (idle.arr 0).scrub = none) ∧
    off.rd Reg.MNT_SCRUB_CFG_en = 0 ∧
    ((pass {}).arr 0).scrub = some {} ∧ (pass {}).canMaintain .scrub 0 = true ∧ (pass {}).scrubPick 0 {} = some 0 ∧
    (∀ j, j < ((pass {}).plan 0 0).w → ([some [], some [], some []] : Units).getD j none ≠ none) ∧
    (let x : ScrubSt := { visited := [0], secondRound := true }
     ((pass x).arr 0).scrub = some x ∧ (pass x).canMaintain .scrub 0 = true ∧ (pass x).scrubPick 0 x = none) ∧
    (∀ p ∈ [(true, 3, 16), (true, 1, 16), (false, 0, 16), (false, 2, 16), (false, 3, 16), (false, 3, 0)],
      let d := step p.1 p.2.1 p.2.2
      (d.arr 0).restripe = some (restripe0 p.1) ∧ p.2.1 = d.rd (Reg.AR_RS_CUR_cycle.ix 0) ∧ p.2.1 < (d.arr 0).cycles ∧
      d.restripeReady 0 p.2.1 = true ∧ (restripe0 p.1).ports.length ≤ 256 ∧ d.ece.jobs = [] ∧
      fits d = decide (p.2.2 ≠ 0) ∧
      (d.rsWanted 0 ⟨p.2.1, [], [], []⟩).isEmpty = decide (2 ≤ p.2.1)) ∧
    (3 ≠ 0 ∧ 2 + 1 ≠ ((step false 2 16).arr 0).cycles ∧ 3 + 1 = ((step false 3 16).arr 0).cycles) := by decide +kernel
theorem witness_ScrubAndRestripe_last :
    let st : RsStep := ⟨0, [], [], []⟩
    let x : RestripeSt := { restripe0 false with step := some st }
    let y := job .reencode (.restripe 0) []
    let d0 := maintArr [⟨.restripe, 0, .running⟩] (fun r => { r with restripe := some x }) [(Reg.PWC_WT_CFG_window_mib, 16)]
    let d : Dev := { d0 with ece := { d0.ece with jobs := [y] } }
    (d.arr 0).restripe = some x ∧ d.jobReady 8 .reencode = some y ∧ y.array = 0 ∧ y.client = .restripe 0 ∧
    (∀ z ∈ d.ece.jobs, z.client = y.client → z.id = 8) ∧ d.ece.outs = [] ∧ d.restripeReady 0 0 = true ∧
    st.cycle + 1 < (d.arr 0).cycles ∧ x.descending = false ∧
    d.rsWanted 0 { st with parity := st.parity ++ (encodeOut y).map fun b => (0, b) } = [] := by
  refine ⟨by decide +kernel, by decide +kernel, rfl, rfl, by decide +kernel, by decide +kernel, by decide +kernel,
    by decide +kernel, rfl, ?_⟩
  exact List.isEmpty_iff.mp (by decide +kernel)
theorem witness_ArbiterDecisions :
    let m := maint []
    let off := maint [] [(Reg.BLK_CTRL_en.ix 9, 0)]
    let twice := maint [⟨.restripe, 0, .running⟩]
    let wait := maint [⟨.scrub, 0, .deferred 4⟩]
    m.mnt.dfw = none ∧
    (twice.requestable .scrub 0 = true ∧ twice.arbRefuses .scrub 0 = false ∧ twice.actOf .scrub 0 = none ∧
      twice.blocker .scrub 0 = some 4) ∧
    (let d := twice.updArr 0 fun r => { r with restripe := some (restripe0 false) }
     d.requestable .restripe 0 = true ∧ d.arbRefuses .restripe 0 = true) ∧
    (off.requestable .scrub 0 = true ∧ off.arbRefuses .scrub 0 = false ∧ off.actOf .scrub 0 = none ∧
      off.blocker .scrub 0 = some 0) ∧
    (m.requestable .calibrate 0xFF = true ∧ m.arbRefuses .calibrate 0xFF = false ∧ m.actOf .calibrate 0xFF = none ∧
      m.blocker .calibrate 0xFF = none) ∧
    (m.requestable .scrub 0 = true ∧ m.arbRefuses .scrub 0 = false ∧ m.actOf .scrub 0 = none ∧ m.blocker .scrub 0 = none) ∧
    (wait.actOf .scrub 0 = some ⟨.scrub, 0, .deferred 4⟩ ∧ wait.blocker .scrub 0 = none) ∧
    (let d := maint [⟨.scrub, 0, .deferred 4⟩, ⟨.restripe, 0, .running⟩]
     d.actOf .scrub 0 = some ⟨.scrub, 0, .deferred 4⟩ ∧ d.blocker .scrub 0 = some 4) ∧
    (m.mnt.acts = [] ∧ m.condHolds .dramRetrain = false) := by decide +kernel
theorem witness_DriveFirmwareAndHotSpots :
    let fs : List (Fld × Nat) := [(Reg.MNT_DFW_LEN_bytes, 4), (Reg.PWC_SCRATCH_mib, 1), (Reg.MNT_DFW_PORTS_ports.ix 7, 2 ^ 31),
      (Reg.PT_STAT_state.ix 255, ptReady)]
    let go := maint [] fs
    let x : Dfw := ⟨[], [255], 0, 0⟩
    let run : Dev :=
      { maint [⟨.driveFw, 0xFF, .running⟩] fs with
        mnt := { acts := [⟨.driveFw, 0xFF, .running⟩], dfw := some x }
        dpx := { go.dpx with ports := [(255, { identBefore := some 9 })] } }
    (HostReaches run 0 .mnt ∧ HostReaches go 0 .mnt ∧ HostReaches (maint []) 0 .mnt) ∧
    (255 < 256 ∧ run.mnt.dfw ≠ none ∧ go.mnt.dfw = none ∧ ¬ 4 ≤ (maint []).rd Reg.MNT_DFW_LEN_bytes) ∧
    (4 ≤ go.rd Reg.MNT_DFW_LEN_bytes ∧ go.rd Reg.MNT_DFW_LEN_bytes ≤ 64 * 2 ^ 20 ∧ go.rd Reg.MNT_DFW_LEN_bytes % 4 = 0 ∧
      go.rd Reg.MNT_DFW_SRC_offset % 4096 = 0 ∧
      go.rd Reg.MNT_DFW_SRC_offset + go.rd Reg.MNT_DFW_LEN_bytes ≤ go.rd Reg.PWC_SCRATCH_mib * 2 ^ 20 ∧
      (∀ q, q < 256 → (bitOf (go.rd (Reg.MNT_DFW_PORTS_ports.ix (q / 32))) (q % 32) = true ↔ q = 255)) ∧
      go.ptState 255 = ptReady ∧ go.memberOn 255 = none ∧ go.mnt.acts = [] ∧ go.mntOn = true ∧ go.blkState .ccx ≠ stFault) ∧
    (run.mnt.dfw = some x ∧ x.active = [255] ∧ x.todo = [] ∧ (run.port 255).identBefore = some (9 : Qword).toNat ∧
      (run.port 255).identBefore ≠ some (8 : Qword).toNat ∧ run.memberOn 255 = none) ∧
    (15 < 16 ∧ arrays.arrEn 0 = true ∧ [300, 100] ≠ [] ∧ 100 * [300, 100].length ≤ [300, 100].sum ∧
      100 * [100, 100].length ≤ [100, 100].sum ∧ [100, 99].sum < 100 * [100, 99].length) := by decide +kernel

/-! ### Drive ports -/

/-- A drive that R239 accepts. -/
def drive (proto : Proto) : DriveInfo :=
  { proto := proto, rate := 4, ident := 77, blocks := 1000, logBytes := 4096, physBytes := 4096, fwrev := 3, ncq := true,
    expander := false, portMultiplier := false, deviceType := 0, atapi := false, hostManaged := false, protection := false,
    labelA := [], labelB := [], volumes := [], unitRecords := [] }

/-- `arrays` with every cluster UP, with port states and fields. -/
def portsWith (ps : Tbl PortSt) (fs : List (Fld × Nat)) : Dev :=
  Dev.withFields { arrays with dpx := { arrays.dpx with ports := ps } }
    ((List.range 8).map (fun n => (Reg.DPX_CL_state.ix n, clUp)) ++ fs)

theorem witness_DrivePortsComeUp :
    let at_ (st : Nat) (x : PortSt) := portsWith [(255, x)] [(Reg.PT_STAT_state.ix 255, st), (Reg.PT_STAT_rate.ix 255, 4)]
    let bad : DriveInfo := { drive .sas with expander := true }
    let big : DriveInfo := { drive .sas with logBytes := 520 }
    (255 < 256 ∧ 7 < 8 ∧ 255 / 32 = 7) ∧
    (∀ st ∈ [ptEmpty, ptLinking, ptResetting], (at_ st {}).ptState 255 = st ∧ (at_ st {}).sys.pdDrv.getD 7 false = true ∧
      (at_ st {}).clState 7 = clUp) ∧
    (bad.refusedEarly ((at_ ptEmpty {}).lineRate 255 bad) ((at_ ptEmpty {}).twin 255 bad) = true ∧
      (drive .sas).refusedEarly ((at_ ptEmpty {}).lineRate 255 (drive .sas)) ((at_ ptEmpty {}).twin 255 (drive .sas)) = false) ∧
    (let d := (at_ ptIdentifying { spinWait := true }).wr Reg.DPX_CFG_spinup_max 1
     (d.port 255).spinWait = true ∧ d.ptState 255 = ptIdentifying ∧
       (∀ q, q < 256 → q / 32 = 7 → q ≠ 255 → (d.port q).spinWait = false) ∧
       ((clusterPorts 7).filter fun q => (d.port q).spinning).length < d.rd Reg.DPX_CFG_spinup_max) ∧
    (let r := at_ ptIdentifying { dev := some big }
     (r.port 255).dev = some big ∧ big.refusal (r.rd (Reg.PT_STAT_rate.ix 255)) (r.twin 255 big) = some 6) ∧
    (∀ grace, let d := (at_ ptIdentifying { dev := some (drive .sas), grace := grace }).wr (Reg.PT_ID_id.ix 255) 77
     (d.port 255).dev = some (drive .sas) ∧ (drive .sas).refusal (d.rd (Reg.PT_STAT_rate.ix 255)) (d.twin 255 (drive .sas)) = none ∧
       (d.port 255).grace = grace ∧ d.rd (Reg.PT_ID_id.ix 255) = (drive .sas).ident.toNat) ∧
    pickLabel (drive .sas) = none ∧
    (let d := (portsWith [] [(Reg.AR_PWR_STAT_exiting.ix 0, 1)]).updArr 0 fun r => { r with exitWait := [3] }
     d.exitingOn 96 = some (0, 3) ∧ 3 ∈ (d.arr 0).exitWait ∧ d.ptState 96 = ptReady ∧ (d.port 96).recovery = none ∧
       (d.port 96).recovTimes = [] ∧ (d.port 96).queue = [] ∧ (d.port 96).outst = [] ∧ (d.port 96).partialLink = false ∧
       d.memberOn 96 ≠ none) ∧
    (let d : Dev := { (at_ ptReady {}).wr Reg.DPX_SG_en 1 with dpx := { (at_ ptReady {}).dpx with sgpioMap := [(255, 11)] } }
     d.rd Reg.DPX_SG_en ≠ 0 ∧
       (d.dpx.sgpioMap.filter fun y => decide (y.1 / 32 = 7)).filter (fun y => y.1 = 255) = [(255, 11)]) ∧
    (HostReaches (at_ ptReady {}) 0 .dpx ∧ HostReaches (at_ ptLoopback {}) 0 .dpx ∧ (at_ ptReady {}).memberOn 0 ≠ none) ∧
    ((at_ ptReady {}).memberOn 255 = none ∧ (at_ ptReady {}).ptState 255 ≠ ptLoopback ∧ (at_ ptReady {}).ptState 255 ≠ ptDisabled) ∧
    (at_ ptLoopback {}).ptState 255 = ptLoopback := by decide +kernel

/-- Port 96 (member 3 of array 0) in a state, with the member operation 1 at its drive. -/
def port96 (st : Nat) (o : MemberOp) (g : PortSt → PortSt) (fs : List (Fld × Nat) := []) : Dev :=
  let d := portsWith [(96, g { dev := some (drive .sas), outst := [1] })] ((Reg.PT_STAT_state.ix 96, st) :: fs)
  { d with lay := { d.lay with ops := [o] } }

theorem witness_DriveErrorsAndRecovery :
    let op (w : Bool) : MemberOp := { memberOp 0 w (.hostRead 9) .issued with port := 96, member := 3 }
    let two (w : Bool) : MemberOp := { op w with occurrences := 1 }
    let failed : MemberOp := { op true with writeFailed := true }
    let d (o : MemberOp) := port96 ptReady o id
    let twice := port96 ptReady (op false) (fun s => { s with recovTimes := [0, 0] })
    let step (k : Nat) := port96 ptReady (op false) (fun s => { s with recovery := some ⟨k, 1⟩ })
    let gone := port96 ptEmpty (op false) (fun s => { s with dev := none, grace := true })
    (255 < 256) ∧
    (∀ o ∈ [op false, op true, two false, two true, failed], (d o).op? 1 = some o ∧ (d o).atDrive 96 1 = true ∧
      (∀ q, q < 256 → 1 ∉ ((d o).port q).queue) ∧ o.occurrences < 2) ∧
    (arrays.atDrive 96 1 = false) ∧ ((op false).isWrite = false ∧ (op true).writeFailed = false ∧ failed.writeFailed = true) ∧
    ((port96 ptReady (op false) id [(Reg.PT_CFG_fail_on_pfa.ix 96, 1)]).rd (Reg.PT_CFG_fail_on_pfa.ix 96) ≠ 0 ∧
      (d (op false)).rd (Reg.PT_CFG_fail_on_pfa.ix 96) = 0) ∧
    (((d (op false)).port 96).recovery = none ∧
      (((d (op false)).port 96).recovTimes.filter fun t => (d (op false)).ticks < t + tenMinutes).length < 2) ∧
    ((twice.port 96).recovery = none ∧ 2 ≤ ((twice.port 96).recovTimes.filter fun t => twice.ticks < t + tenMinutes).length ∧
      twice.op? 1 = some (op false) ∧ twice.atDrive 96 1 = true) ∧
    (∀ k ∈ [1, 2, 3], ((step k).port 96).recovery = some ⟨k, 1⟩) ∧
    ((d (op false)).ptState 96 = ptReady ∧ (d (op false)).rd Reg.DPX_CFG_grace_ms ≠ 0) ∧
    (((d (op false)).port 96).grace = false ∧ (gone.port 96).grace = true ∧ gone.memberOn 96 = some (0, 3) ∧
      gone.mst 0 3 = msOk ∧ (portsWith [(255, { grace := true })] []).memberOn 255 = none) ∧
    (HostReaches (port96 ptDisabled (op false) id) 0 .dpx ∧ HostReaches (d (op false)) 0 .dpx ∧ HostReaches (portsWith [] []) 0 .dpx) ∧
    ((port96 ptDisabled (op false) id).ptState 96 = ptDisabled ∧ (d (op false)).ptState 96 ≠ ptEmpty) ∧
    ((port96 ptIdentifying (op false) id).ptState 96 = ptIdentifying) ∧
    ((portsWith [] []).ptState 255 = ptEmpty ∧ ((portsWith [] []).port 255).grace = false) := by decide +kernel
theorem witness_ClustersAndArrayPower :
    let up := portsWith [(255, { dev := some (drive .sas) })] [(Reg.PT_STAT_state.ix 255, ptReady)]
    let cl (st : Nat) := portsWith [] [(Reg.DPX_CL_state.ix 7, st)]
    let risky := portsWith [] (lost1 msFailed)
    let timer := portsWith [] [(Reg.AR_PWR_CFG_idle_s.ix 0, 1)]
    let deep := portsWith [] [(Reg.AR_PWR_STAT_pstate.ix 0, 1), (Reg.AR_PWR_COLD_cold_min.ix 0, 1)]
    let entering := portsWith [] [(Reg.AR_PWR_STAT_entering.ix 0, 1)]
    let asleep (st : Nat) := portsWith [] [(Reg.AR_PWR_STAT_pstate.ix 0, st)]
    (7 < 8 ∧ 15 < 16) ∧
    (up.clState 7 = clUp ∧ 255 / 32 = 7 ∧ (up.port 255).dev ≠ none ∧ up.ptState 255 ≠ ptDisabled) ∧
    (∀ st ∈ [clOff, clResetting, clFailed], (cl st).clState 7 = st ∧ HostReaches (cl st) 0 .dpx) ∧
    (HostReaches up 0 .dpx ∧ HostReaches risky 0 .dpx ∧ HostReaches up 0 .lay) ∧
    (up.clusterSpare 7 = true ∧ risky.clState 0 = clUp ∧ risky.clusterSpare 0 = false) ∧
    (cl clOff).rd (Reg.PT_CFG_en.ix 255) ≠ 0 ∧
    (up.nextPower 0 = none ∧ timer.nextPower 0 = some 1 ∧ deep.nextPower 0 = some 3 ∧ deep.maySleep 0 = true) ∧
    (∀ d ∈ [timer, deep], d.arrEn 0 = true ∧ d.rd (Reg.AR_PWR_STAT_entering.ix 0) = 0 ∧
      d.rd (Reg.AR_PWR_STAT_exiting.ix 0) = 0 ∧ d.lay.ops = [] ∧ d.qmx.cmds = [] ∧ d.mnt.acts = [] ∧ d.lay.due = [] ∧
      d.dram.intents = [] ∧ d.presentMembers 0 ≠ []) ∧
    (entering.rd (Reg.AR_PWR_STAT_entering.ix 0) ≠ 0 ∧ entering.rd (Reg.AR_PWR_STAT_exiting.ix 0) = 0) ∧
    (up.rd (Reg.AR_PWR_STAT_pstate.ix 0) = 0 ∧ ∀ st ∈ [1, 2, 3], (asleep st).rd (Reg.AR_PWR_STAT_pstate.ix 0) = st ∧
      (asleep st).presentMembers 0 ≠ [] ∧ (asleep st).rd (Reg.AR_PWR_STAT_entering.ix 0) = 0 ∧
      (asleep st).rd (Reg.AR_PWR_STAT_exiting.ix 0) = 0) := by decide +kernel

/-- Setting register fields leaves the ports as they are. -/
theorem withFields_dpx (d : Dev) (fs : List (Fld × Nat)) : (Dev.withFields d fs).dpx = d.dpx := by
  unfold Dev.withFields
  induction fs generalizing d with
  | nil => rfl
  | cons p r ih => exact ih (d.wr p.1 p.2)
theorem witness_DriveErrorsAndRecovery_queues (o : MemberOp) (q : Nat) : 1 ∉ ((port96 ptReady o id).port q).queue := by
  have h : (port96 ptReady o id).dpx.ports = [(96, { dev := some (drive .sas), outst := [1] })] := by
    simp only [port96, portsWith, withFields_dpx, id]
  unfold Dev.port Tbl.getD
  rw [h]
  unfold Tbl.get? Tbl.get?
  split <;> simp

/-! ### The battery -/

/-- `packed` with BPS state changed and further fields set. -/
def bpsWith (g : BpsState → BpsState) (fs : List (Fld × Nat) := []) : Dev :=
  Dev.withFields { packed with bps := g packed.bps } fs

/-- A sample of `pack`: two cells, current, temperature. -/
def sampleOf (cells : List Int) (current ntc : Int) : PackSample := ⟨cells, current, ntc, ntc⟩

theorem witness_BatterySamplesAndHalo :
    let st (n : Nat) := bpsWith id [(Reg.BPS_CHG_STAT_state, n)]
    let absent := packedWith [(Reg.BPS_PACK_present, 0)]
    let oneBad := bpsWith fun b => { b with ntc0Bad := true }
    let low := bpsWith (fun b => { b with iSet := 100 }) [(Reg.BPS_CHG_STAT_state, chCv)]
    let high := bpsWith (fun b => { b with iSet := 2000, sample := sampleOf [42100, 42100] 0 250 })
      [(Reg.BPS_CHG_STAT_state, chCc)]
    let rest := bpsWith fun b => { b with restCand := some (250, 250, 0) }
    let window := bpsWith fun b => { b with restWindow := true, sample := sampleOf [37000, 37000] 500 250 }
    let filt := packedWith [(Reg.BPS_HALO_STAT_causes, 1), (Reg.BPS_HALO_STAT_mode, 2)]
    (HostReaches packed 0 .bps ∧ HostReaches window 0 .bps) ∧ (1 < 2 ∧ packed.cells ≤ 4 ∧ packed.batt = some pack ∧ (st chDone).batt = some pack) ∧
    (absent.packHere = false ∧ packed.packHere = true ∧ oneBad.bps.ntc0Bad = true) ∧
    (-400 ≤ (sampleOf [] 0 1250).ntc0 ∧ (sampleOf [] 0 1250).ntc0 ≤ 1250 ∧ 1250 < (sampleOf [] 0 1251).ntc1 ∧
      (pack.vMax : Int) * 10 < (((sampleOf [43001, 0] 0 0).cells.take packed.cells).max?).getD 0) ∧
    (packed.charging = false ∧ (st chFloat).charging = true ∧ pack.maxDuty < 2 ^ 16) ∧
    ((pack.vFull : Int) < high.cellHigh / 10 ∧ (pack.iChg : Int) / 64 < high.bps.iSet ∧ high.charging = true ∧
      low.cellHigh / 10 + 10 < (pack.vFull : Int) ∧ low.bps.iSet < pack.iChg ∧ low.charging = true) ∧
    (low.rd Reg.BPS_CHG_STAT_state = chCv ∧ low.bps.iSet ≤ pack.iTerm) ∧
    ((st chDone).rd Reg.BPS_CHG_STAT_state = chDone ∧ (st chDone).cellHigh < (pack.vRestart : Int) * 10) ∧
    (packedWith [(Reg.BPS_CHG_STAT_inhibit, 1)]).rd Reg.BPS_CHG_STAT_inhibit = 1 ∧
    (packed.bps.restCand = none ∧ rest.bps.restCand ≠ none ∧ rest.bps.learnAsked = false) ∧
    (packed.bps.restWindow = false ∧ packed.learnPhaseNo = 0 ∧ packed.actRuns .learn 0xFF = false ∧
      window.bps.restWindow = true ∧ window.bps.learnAsked = false ∧ window.belowC100 = false) ∧
    ((packedWith [(Reg.BPS_HALO_STAT_causes, 0)]).haloMode ≠ hmFilter ∧ filt.haloMode = hmFilter ∧ absent.haloMode = hmNone) ∧
    (packed.duskProfile = some ⟨true, 60, 500, 1000, 2000, 4⟩ ∧ packed.haloMode ≠ hmNone ∧
      (15 : Rat) / 100 < (bpsWith (fun b => { b with anchorU := 1 }) [(Reg.BPS_HALO_STAT_causes, 0)]).uncNow) ∧
    (packed.anyAdc = true ∧ packed.bps.ntc0Bad = false) := by decide +kernel

/-- `packed` in a learn phase. -/
def learnAt (n : Nat) (g : BpsState → BpsState) (fs : List (Fld × Nat) := []) : Dev :=
  bpsWith g ((Reg.BPS_LEARN_STAT_phase, n) :: fs)

/-- A measurement of a load step, and of a natural one. -/
def meas (natural : Bool) : StepMeas :=
  if natural then ⟨7380, -1000, 7390, 0, 7400, 0, false⟩ else ⟨7400, 0, 7390, -1000, 7380, -1000, false⟩

/-- Candidates in the calibration of ADC 1. -/
def cand1 : Cand := ⟨[1, 2, 3, 4, 5, 6, 7], 9, 1⟩

theorem witness_StepsLearnAndCalibration :
    let good (m : StepMeas) (di : Int) : Bool := decide ((pack.stepMa : Int) ≤ 2 * di ∧ 2 * di ≤ 3 * (pack.stepMa : Int) ∧
      m.varied = false ∧ roundRat (divRat (((m.vb - m.v1) * 10000 : Int) : Rat) ((m.ib - m.i1 : Int) : Rat)) ≤
        roundRat (divRat (((m.vb - m.v200) * 10000 : Int) : Rat) ((m.ib - m.i200 : Int) : Rat)))
    let window := bpsWith fun b => { b with restWindow := true }
    let worried : Dev := { packed with pwc := { packed.pwc with predictedFloorMiss := true } }
    let full (n : Nat) := learnAt n id [(Reg.BPS_CHG_STAT_state, chDone)]
    let rested (n : Nat) (s : Rat) (back : Bool) := learnAt n fun b =>
      { b with restDone := true, anchorS := s, backToCharge := back, sTop := 5 / 10 }
    let empty := learnAt 3 fun b => { b with sample := sampleOf [29000, 29000] (-1000) 250 }
    (HostReaches window 0 .bps ∧ HostReaches worried 0 .bps ∧ HostReaches (full 1) 0 .bps) ∧
    (1 < 2 ∧ packed.batt = some pack ∧ window.stepDeferred = true ∧ packed.stepDeferred = false ∧
      packed.sys.loadStepPin = false) ∧
    (good (meas false) ((meas false).ib - (meas false).i200) ∧ ¬ good (meas true) ((meas true).ib - (meas true).i200) ∧
      good (meas true) ((meas true).i200 - (meas true).ib) ∧ ¬ good (meas false) ((meas false).i200 - (meas false).ib)) ∧
    (packed.learnPhaseNo = 0 ∧ window.bps.restWindow = true ∧ packed.bps.restWindow = false ∧ packed.mnt.acts = [] ∧
      packed.blocker .learn 0xFF = none ∧ (worried.blocker .learn 0xFF).isSome = true) ∧
    ((full 1).learnPhaseNo = 1 ∧ (full 1).rd Reg.BPS_CHG_STAT_state = chDone ∧
      (learnAt 1 id).rd Reg.BPS_CHG_STAT_state ≠ chDone ∧ (learnAt 1 id).rd Reg.BPS_CHG_STAT_state ≠ chFloat) ∧
    ((rested 2 (95 / 100) false).learnPhaseNo = 2 ∧ (rested 2 (95 / 100) false).bps.restDone = true ∧
      95 / 100 ≤ (rested 2 (95 / 100) false).bps.anchorS ∧ (rested 2 (94 / 100) false).bps.anchorS < 95 / 100 ∧
      (rested 2 (94 / 100) true).bps.backToCharge = true) ∧
    (empty.learnPhaseNo = 3 ∧ empty.batt = some pack ∧ empty.cellLow ≤ ((pack.vMin : Int) + 100) * 10) ∧
    ((rested 4 (2 / 10) false).learnPhaseNo = 4 ∧ (rested 4 (2 / 10) false).bps.restDone = true ∧
      (rested 4 (2 / 10) false).bps.sTop - (rested 4 (2 / 10) false).bps.anchorS < 40 / 100) ∧
    ((full 5).learnPhaseNo = 5 ∧ (full 4).learnPhaseNo = 4) := by decide +kernel
theorem witness_StepsLearnAndCalibration_stored :
    let powered (fail good : Bool) : Dev := { packed with sys := { packed.sys with pwrFailN := fail, pwrGood := good } }
    let ramp (k : Nat) := bpsWith fun b => { b with ramp := some (k, cand1, true) }
    let held := bpsWith fun b => { b with heldCand := some cand1 }
    let a : AdcAttempt := ⟨0, 3, 10000, 10001⟩
    let r : CalMeas := ⟨[⟨0, 4, 1, 1⟩, a], (List.range 7).map fun _ => ⟨0, 0, 5000000⟩, true⟩

    ((powered false true).sys.pwrFailN = false ∧ (powered true true).sys.pwrFailN = true ∧
      (powered true true).sys.pwrGood = true ∧ (powered true false).sys.pwrGood = false) ∧
    (packed.adcOk 1 = true ∧ packed.primary = 0 ∧ (packedWith [(Reg.BPS_ADC_adc1_ok, 0)]).adcOk 1 = false) ∧
    (packed.bps.bcal = some ⟨true, 1000, [], []⟩ ∧ packed.rd Reg.BPS_CAL_STAT_running = 0 ∧ packed.calHeld = false ∧
      packed.bps.ramp = none ∧ packed.blocker .calibrate 0xFF = none ∧ packed.adcOk 0 = true ∧
      adcCalibrate 4 r.attempts 1 = .inl a ∧
      packed.implausible ⟨true, 1000, [], []⟩ r (packed.candidates ⟨true, 1000, [], []⟩ r (1 - packed.primary)) = none ∧
      adcCalibrate 4 [] 1 = .inr 1) ∧
    ((ramp 0).bps.ramp = some (0, cand1, true) ∧ 62 + 1 < 64 ∧ (ramp 63).bps.ramp = some (63, cand1, true) ∧ 63 + 1 = 64) ∧
    (held.bps.heldCand = some cand1 ∧ held.calHeld = false ∧ held.bps.ramp = none) := by decide +kernel

/-! ### Power, start-up, cores, timebase, bulk moves -/

/-- `packed` with SYS and VLT state changed, and fields set. -/
def sysWith (g : SysState → SysState) (v : VltState → VltState) (fs : List (Fld × Nat) := []) : Dev :=
  Dev.withFields { packed with sys := g packed.sys, vlt := v packed.vlt } fs

/-- A saved image with nothing in it. -/
def image0 : Image :=
  { seq := 1, reason := 1, ts := 0, serial := 0, live := [], dram := {}, arrs := [], incarnation := [], adm := 0, epochs := [],
    acts := [], dfw := none, param := none, lostList := [], fixedBytes := 0, dirtyBytes := 0, duskUs := 0, diesFailed := 0 }

/-- Items lost in a restore: none, or the image's control state. -/
def bad0 (control : Bool) : RestoreBad := ⟨0, [], [], [], false, false, [], false, control⟩

theorem witness_DuskAndDawn :
    let at_ (ph : Nat) := sysWith id id [(Reg.BLK_STAT_specific.ix 0, ph)]
    let dusk (st : Bool) (w : Option Image) (noSeal : Bool) := sysWith id (fun v => { v with
      dusk := some (1, 7), duskStarted := st, writing := w, noSeal := noSeal }) [(Reg.VLT_STAT_groups, 2)]
    let failing (noSeal : Bool) := sysWith (fun s => { s with pwrFailN := false }) (fun v => { v with
      dusk := some (1, 7), duskStarted := true, writing := some image0, noSeal := noSeal })
    let foreign := sysWith id (fun v => { v with foreignWait := true, area1 := { v.area1 with
      openRec := some ⟨1, 1, 0, 0⟩, image := some image0 } })
    let dawn (warm : Bool) := sysWith id (fun v => { v with dawn := some image0, dawnWarm := warm })
    let erasing := sysWith id id [(Reg.VLT_STAT_erasing, 1)]
    (∀ ph ∈ [phReset, phBoot, phTrain, phDawn, phReady], (at_ ph).sys.pdMain = true ∧ (at_ ph).phase = ph) ∧
    (HostReaches packed 0 .vlt ∧ HostReaches foreign 0 .vlt) ∧ phDawn ≤ phDawn ∧ State.reset.dev.sys.pdMain = false ∧
    (packed.sys.waitFail = false ∧ State.reset.dev.sys.pwrGood = false ∧ packed.sys.pwrGood = true ∧
      packed.sys.pwrFailN = true ∧ packed.vlt.dusk = none ∧ packed.phase = phReady) ∧
    ((dusk false none false).vlt.dusk = some (1, 7) ∧ (dusk false none false).vlt.duskStarted = false) ∧
    ((dusk true none false).vlt.duskStarted = true ∧ 1 < (dusk true none false).rd Reg.VLT_STAT_groups ∧ 15 < 16 ∧
      (1, 15) ∉ (dusk true none false).vlt.failedDies) ∧
    (∀ n, (failing n).vlt.dusk = some (1, 7) ∧ (failing n).vlt.writing = some image0 ∧ (failing n).rd Reg.SYS_THERM_STAT_step = 0 ∧ (failing n).mainGood 1 = false ∧
      (failing n).vlt.noSeal = n) ∧
    ((dusk true (some image0) false).rd Reg.SYS_THERM_STAT_step = 0 ∧ (dusk true (some image0) false).mainGood 1 = true ∧ (dusk true (some image0) false).pwc.bothLost = false) ∧
    (packed.vlt.foreignWait = false ∧ foreign.vlt.foreignWait = true ∧ foreign.newestArea = some (1, ⟨1, 1, 0, 0⟩) ∧
      (foreign.area 1).image = some image0) ∧
    (packed.vlt.dawn = none ∧ ∀ w, (dawn w).vlt.dawn = some image0 ∧ (dawn w).vlt.dawnWarm = w) ∧
    ((bad0 true).control = true ∧ (bad0 false).control = false) ∧
    (packed.rd Reg.VLT_STAT_erasing = 0 ∧ erasing.rd Reg.VLT_STAT_erasing ≠ 0) := by decide +kernel

/-- A firmware image with a key, a digest and a signature. -/
def fw (key digest sig : Nat) (readOk : Bool) : FwImage := ⟨true, 5, 3, 1000, key, digest, sig, readOk⟩

/-- What start-up finds: two pairs, images A and B. -/
def boot0 (mode : Nat) (pairs : List Bool) (a b : FwImage) : BootInput :=
  { bootMode := mode, smbAddr := 0, pairsOk := pairs, eceLanesOk := [true, true], smcOk := true, otherOk := true,
    failedBlocks := 0, dir0 := ⟨true, 1, false⟩, dir1 := ⟨false, 0, false⟩, imageA := a, imageB := b, batt := none, bcal := none,
    dusk := none, subsystem := none, sgpioPorts := [], slotA := default, slotB := default, adcCal := [], vaultDies := [],
    vaultGroupBytes := 0 }

/-- An image whose key is the fused one and whose signature verifies is OK, whatever the fused counter up to its own. -/
theorem witness_imageOk (key digest sig fuse : Nat) (hk : Config.keyHash key = Config.fuseKeyHash)
    (hs : Config.signatureOk key digest sig = true) (hf : fuse ≤ 3) : imageResult fuse (fw key digest sig true) = imgOk := by
  have h : ¬ 3 < fuse := by omega
  simp [imageResult, fw, hk, hs, h]

theorem witness_StartUpClocksAndThermal :
    let unreadable := fw 0 0 0 false
    let b := boot0 3 [true, true, false] unreadable unreadable
    let off (g : SysState → SysState) : Dev := { State.reset.dev with sys := g State.reset.dev.sys }
    let slept (g : SysState → SysState) := off fun s => g { s with sleeping := true, pwrGood := true, sleepReason := 1 }
    let at_ (ph : Nat) := sysWith id id [(Reg.BLK_STAT_specific.ix 0, ph)]
    let hot (step : Nat) := sysWith id id [(Reg.SYS_TEMP_temp.ix 2, 4 * 120), (Reg.SYS_THERM_STAT_hottest, 2),
      (Reg.SYS_THERM_STAT_step, step)]
    (b.otherOk = true ∧ 2 ≤ (bootPairs b).length ∧ ¬ 2 ≤ (bootPairs (boot0 0 [true, false, false] unreadable unreadable)).length ∧
      imageResult 0 unreadable ≠ imgOk ∧ b.bootMode % 4 = 3 ∧ (boot0 0 [] unreadable unreadable).bootMode % 4 ≠ 3) ∧
    (packed.sys.pwrGood = true ∧ (off id).sys.pwrGood = false ∧ (off fun s => { s with sleeping := true }).sys.sleeping = true) ∧
    ((off id).sys.sleeping = false ∧ (off id).sys.pdMain = false ∧ (off id).sys.pwrFailN = true ∧
      (off fun s => { s with pwrFailN := false }).sys.pwrFailN = false) ∧
    (let w := off fun s => { s with waitFail := true, pwrGood := true, bootInput := some b }
     w.sys.waitFail = true ∧ w.sys.pwrGood = true ∧ w.sys.bootInput = some b) ∧
    ((slept id).sys.sleeping = true ∧ (slept id).sys.pwrGood = true ∧ (slept id).sys.pwrFailN = true ∧
      (slept id).sys.sleepReason ≠ 3 ∧ (slept fun s => { s with sleepReason := 3 }).thermalOk = true) ∧
    ((at_ phHold).sys.pdMain = true ∧ (at_ phHold).phase = phHold ∧ (at_ phReady).phase ≠ phHold) ∧
    ((at_ phTrain).phase = phTrain ∧ (at_ phReady).phase ≠ phTrain ∧ (at_ phTrain).newestArea = none ∧
      (∀ c, c < 12 → (List.replicate 12 16).getD c 0 ≠ 0 ∧ (List.replicate 12 true).getD c false = true) ∧
      (∀ c, c < 12 → (List.replicate 12 16).getD c 0 ≠ 0 ∧ ([] : List Bool).getD c false = false)) ∧
    (packed.phase = phReady ∧ packed.rd Reg.SYS_BOOT_b_result = 0 ∧ packed.rdB Reg.SYS_BOOT_running = false ∧
      packed.rdB Reg.SYS_BOOT_preferred = packed.rdB Reg.SYS_BOOT_running) ∧
    (packed.sys.refclk = true ∧ (sysWith (fun s => { s with refclk := false }) id).sys.refclk = false ∧
      packed.sys.pdMain = true ∧ packed.sys.dpRefclk = true ∧
      (sysWith (fun s => { s with dpRefclk := false }) id).sys.dpRefclk = false) ∧
    (packed.stepHolds 0 = false ∧ (hot 0).stepHolds 1 = true ∧ (hot 0).stepHolds 3 = true ∧ (hot 0).stepHolds 4 = true ∧
      (sysWith id id [(Reg.SYS_THERM_STAT_step, 1)]).stepHolds 0 = true) := by decide +kernel

/-- `packed` with CCX state changed and pair states set. -/
def ccxWith (g : CcxState → CcxState) (p0 p1 p2 : Nat) (fs : List (Fld × Nat) := []) : Dev :=
  Dev.withFields { packed with ccx := g packed.ccx }
    ([(Reg.CCX_PAIR_state.ix 0, p0), (Reg.CCX_PAIR_state.ix 1, p1), (Reg.CCX_PAIR_state.ix 2, p2),
      (Reg.CCX_FW_LEN_bytes, 4096), (Reg.PWC_SCRATCH_mib, 1)] ++ fs)

theorem witness_ControlCores :
    let std := ccxWith id cpActive cpActive cpStandby
    let noStandby := ccxWith id cpActive cpActive cpTesting
    let single := ccxWith id cpActive cpTesting cpExcluded
    let doing (o : FwOp) := ccxWith (fun c => { c with fwOp := o, fwPicked := some (fw 0 0 0 false) }) cpActive cpActive cpStandby
    (2 < 3 ∧ 1 < 2) ∧
    (std.pairState 2 = cpStandby ∧ noStandby.pairState 2 = cpTesting ∧ single.pairState 2 = cpExcluded) ∧
    (std.pairState 0 = cpActive ∧ std.pairsIn cpStandby = [2]) ∧
    (noStandby.pairsIn cpStandby = [] ∧ 1 ≠ 0 ∧ noStandby.pairState 1 = cpActive ∧
      ∀ n, n < 3 → n ≠ 0 → n ≠ 1 → noStandby.pairState n ≠ cpActive) ∧
    (single.pairsIn cpStandby = [] ∧ single.pairsIn cpActive = [0]) ∧
    ((ccxWith (fun c => { c with role1 := none }) 0 0 1).holder 1 = none ∧ std.holder 0 ≠ none ∧ std.holder 1 ≠ none) ∧
    (single.pairState 1 = cpTesting ∧ Tbl.getD single.ccx.mismatchTimes 1 [] = [] ∧
      (single.pairsIn cpStandby ++ single.pairsIn cpActive).length ≤ 1 ∧ single.blkState .ccx ≠ stFault ∧
      2 ≤ (noStandby.pairsIn cpStandby ++ noStandby.pairsIn cpActive).length ∧
      Tbl.getD noStandby.ccx.mismatchTimes 2 [] = []) ∧
    ((doing .writing).ccx.fwOp ≠ .idle ∧ (doing .writing).ccx.fwOp = .writing ∧ std.ccx.fwOp = .idle) ∧
    (std.rd Reg.CCX_FW_LEN_bytes ≤ 14 * 2 ^ 20 ∧ std.rd Reg.CCX_FW_SRC_offset % 4096 = 0 ∧
      std.rd Reg.CCX_FW_SRC_offset + std.rd Reg.CCX_FW_LEN_bytes ≤ std.rd Reg.PWC_SCRATCH_mib * 2 ^ 20 ∧
      ¬ (ccxWith id 0 0 1 [(Reg.CCX_FW_LEN_bytes, 14 * 2 ^ 20 + 4)]).rd Reg.CCX_FW_LEN_bytes ≤ 14 * 2 ^ 20) ∧
    ((ccxWith id 0 0 1 [(Reg.BLK_STAT_specific.ix 0, 4)]).phase ≠ phReady ∧ std.phase = phReady ∧
      (ccxWith id 0 0 1 [(Reg.BLK_STAT_state.ix 12, stFault)]).blkState .ccx = stFault ∧ std.blkState .ccx ≠ stFault) ∧
    (std.pairsIn cpStandby ≠ [] ∧ imageResult 0 (fw 0 0 0 false) ≠ imgOk ∧ std.mnt.acts = [] ∧
      std.blocker .fwActivate 0xFF = none ∧ std.rd Reg.SYS_SVN_fuse ≤ 3) ∧
    ((doing .activating).ccx.fwOp = .activating ∧ (doing .activating).ccx.fwPicked = some (fw 0 0 0 false)) := by decide +kernel

theorem witness_ControlCores_reach :
    (∀ d ∈ [ccxWith id cpActive cpActive cpStandby, ccxWith id cpActive cpActive cpTesting,
      ccxWith (fun c => { c with fwOp := .writing }) cpActive cpActive cpStandby,
      ccxWith id 0 0 1 [(Reg.BLK_STAT_specific.ix 0, 4)], ccxWith id 0 0 1 [(Reg.BLK_STAT_state.ix 12, stFault)]],
      HostReaches d 0 .ccx) := by decide +kernel

/-- `packed` with PPS in a state at a count. -/
def tmbAt (st ns : Nat) (g : TmbState → TmbState) (fs : List (Fld × Nat) := []) : Dev :=
  Dev.withFields { packed with tmb := g { packed.tmb with sec := 9, ns := ns } }
    ([(Reg.TMB_STAT_state, st), (Reg.BLK_STAT_state.ix 3, stActive)] ++ fs)

theorem witness_TimebaseEdges :
    let err (d : Dev) (j : Int) : Int :=
      let n := ((d.tmb.sec * 1000000000 + d.tmb.ns : Nat) + clampInt (-8) 8 j - (d.ppsDelay : Int)) % 1000000000
      if n < 500000000 then n else n - 1000000000
    (∀ st ∈ [tmAcquire, tmLocked, tmHoldover], (tmbAt st 0 id).ppsOn = true ∧
      (tmbAt st 0 id).rdB Reg.TMB_CFG_edge = false ∧ (tmbAt st 0 id).rd Reg.TMB_STAT_state = st) ∧
    ((tmbAt tmFree 0 id).ppsOn = false ∧ (tmbAt tmAcquire 0 id).rdB Reg.TMB_CFG_edge ≠ true) ∧
    (tmbAt tmAcquire 0 fun t => { t with setPending := some 3 }).tmb.setPending ≠ none ∧
    ((err (tmbAt tmLocked 2000000 id) 0).natAbs ≤ 2000000 ∧ (err (tmbAt tmLocked 998000000 id) 0).natAbs ≤ 2000000 ∧
      2000000 < (err (tmbAt tmLocked 2000004 id) 0).natAbs ∧ (tmbAt tmLocked 2000000 id).tmb.setPending = none) ∧
    ((tmbAt tmLocked 0 id [(Reg.TMB_STAT_missed, 1)]).rd Reg.TMB_STAT_missed < 2 ∧
      2 ≤ (tmbAt tmLocked 0 id [(Reg.TMB_STAT_missed, 2)]).rd Reg.TMB_STAT_missed) ∧
    State.reset.dev.sys.pdMain = false ∧
    (let d := tmbAt tmFree 999999996 fun t => { t with frac := 2 ^ 34 - 1 }
     d.sys.pdMain = true ∧ d.tmb.ns < 1000000000 ∧ d.tmb.frac < 2 ^ 34 ∧ d.tmb.slewLeft = 0 ∧ d.tmb.setPending = none ∧
       d.tmb.sec < 2 ^ 34) ∧
    (HostReaches (tmbAt tmFree 0 id) 0 .tmb ∧ (tmbAt tmFree 0 id).rd Reg.TMB_STAT_state = tmFree ∧ (tmbAt tmFree 0 id).blkState .tmb ≠ stOff) := by decide +kernel

/-- `packed` with channel 7 of BME in a state, its shadow and active sets from SCRATCH to MAILBOX. -/
def bmeAt (st len dst armed : Nat) (fs : List (Fld × Nat) := []) : Dev :=
  packedWith ([(Reg.BME_CH_STAT_state.ix 7, st), (Reg.BLK_STAT_state.ix 11, stActive), (Reg.PWC_SCRATCH_mib, 1),
    (Reg.BME_SH_CFG_armed.ix 7, armed),
    (Reg.BME_SH_CFG_src_space.ix 7, spScratch), (Reg.BME_SH_CFG_dst_space.ix 7, spMailbox), (Reg.BME_SH_LEN_bytes.ix 7, len),
    (Reg.BME_SH_DST_addr.ix 7, dst),
    (Reg.BME_ACT_CFG_src_space.ix 7, spScratch), (Reg.BME_ACT_CFG_dst_space.ix 7, spMailbox),
    (Reg.BME_ACT_LEN_bytes.ix 7, len), (Reg.BME_ACT_DST_addr.ix 7, dst)] ++ fs)

theorem witness_BulkMoves :
    let check (d : Dev) := d.bmeCheck (d.rd (Reg.BME_SH_CFG_src_space.ix 7)) (d.rd (Reg.BME_SH_CFG_dst_space.ix 7))
      (d.rd (Reg.BME_SH_SRC_addr.ix 7)) (d.rd (Reg.BME_SH_DST_addr.ix 7)) (d.rd (Reg.BME_SH_LEN_bytes.ix 7))
    7 < 8 ∧ (∀ st ∈ [0, 1, 2, 3], HostReaches (bmeAt st 8 0 0) 0 .bme ∧ (bmeAt st 8 0 0).bmeState 7 = st ∧ (bmeAt st 8 0 0).rd (Reg.BME_SH_CFG_armed.ix 7) = 0) ∧
    (bmeAt 1 8 0 1).rd (Reg.BME_SH_CFG_armed.ix 7) ≠ 0 ∧
    (check (bmeAt 0 8 (256 * 1024 - 8) 0) = none ∧ (bmeAt 0 8 0 0).rd (Reg.BME_SH_CFG_src_space.ix 7) ≠ spHost ∧
      check (bmeAt 0 8 (256 * 1024 - 4) 0) = some 1 ∧ check (bmeAt 0 0 0 0) = some 1 ∧
      check (bmeAt 0 8 0 0 [(Reg.BME_SH_CFG_dst_space.ix 7, spHost)]) = some 2) ∧
    (bmeAt 3 8 0 0).blkState .bme = stActive ∧ ((bmeAt 0 8 0 0).bmeReady 7 = false) ∧
    ((bmeAt 1 8 0 0).rd (Reg.BME_ACT_CFG_src_space.ix 7) = spScratch ∧
      (bmeAt 1 8 0 0).rd (Reg.BME_ACT_CFG_dst_space.ix 7) = spMailbox ∧ ((bmeAt 1 8 0 0).bmeCh 7).raced = [] ∧
      (bmeAt 1 8 0 0).rd (Reg.BME_ACT_LEN_bytes.ix 7) < 2 ^ 32) ∧
    ((bmeAt 1 8 0 0).bmeErrFits 7 7 = true ∧ (bmeAt 1 8 0 0).bmeErrFits 7 8 = true ∧ (bmeAt 1 8 0 0).bmeErrFits 7 3 = false) := by
  decide +kernel

/-! ### The spec's worked examples -/

/-- Array 3 of the example after R127: 16+4, 256 KiB units, 256 drives, 32 in each of 8 clusters. -/
def geo3 : Geo :=
  { k := 16, m := 4, spares := 16, unit := 2, seed := 0x3C1F08A2D4E67B95#64, g := 256, c := 8, cycles := 83886080,
    rank := (List.range 256).map (· / 32) }

/-- The capacity table after R127. -/
theorem test_capacity_example :
    geo3.dpu = 63 ∧ geo3.perStripe = 1008 ∧ geo3.spc = 12 ∧ geo3.q = 3 ∧ cyclesFor geo3.ub 5369757696 = 83886080 ∧
    geo3.stripes = 1006632960 := by decide +kernel

/-- LBA 40,000,000 of volume 5 in the example after R127. -/
theorem test_translate_example :
    let t := 1000000 + 40000000 / geo3.perStripe
    t = 1039682 ∧ 40000000 % geo3.perStripe / geo3.dpu = 8 ∧ 40000000 % geo3.perStripe % geo3.dpu = 40 ∧
    geo3.cycleOf t = 86640 ∧ geo3.sOf t = 2 ∧ geo3.unit0 86640 + 40 = 6593576 := by decide +kernel

/-- The positions of that example: list position 48 is index 6 of the first cluster in order, under the states it gives. -/
theorem test_position_example :
    let ord := shuffle (List.range 8) 0x3C1F08A2D5B40B9D#64
    let first := shuffle (List.range 32) 0x3C1F08A2D5B40B95#64
    layoutMember geo3 (geo3.cycleList 86640) 2 8 / 32 = ord.getD 0 0 ∧
    (ord.getD 0 0 = 0 → layoutMember geo3 (geo3.cycleList 86640) 2 8 = first.getD 6 0) := by decide +kernel

/-- The 8+3 array on 48 drives of the example after R111: four stripes per cycle, entries 46 and 47 spare. -/
theorem test_small_layout_example :
    let a : Geo := { geo3 with k := 8, m := 3, spares := 2, g := 48, c := 4, rank := (List.range 48).map (· / 12) }
    a.spc = 4 ∧ a.sparePos = [46, 47] ∧
    ∀ r, r < 4 → (((List.range 11).map (layoutMember a (a.cycleList 5) 2)).filter fun i => i / 12 = r).length ≤ 3 := by
  decide +kernel

/-- The 3+2 stripe of the example after R140, and the syndrome example after R141. -/
theorem test_coding_example :
    encode 2 [[0x5A#8], [0x3C#8], [0xC1#8]] = [[0xA7#8], [0xFE#8]] ∧
    (List.range 3).map (coef 1) = [0xA6#8, 0x46#8, 0xBB#8] ∧ gfInv 0x1D#8 = 0x83#8 ∧
    deltaRow 0 [0xA7#8] [(1, [0x3C#8], [0x3D#8])] = [0xA6#8] ∧ deltaRow 1 [0xFE#8] [(1, [0x3C#8], [0x3D#8])] = [0xB8#8] ∧
    decodeRow 3 2 [0, 2] [(1, [0x3C#8]), (3, [0xA7#8]), (4, [0xFE#8])] = some [(0, [0x5A#8]), (2, [0xC1#8])] ∧
    syndrome 3 2 [[0x5A#8], [0x3D#8], [0xC1#8]] [[0xA7#8], [0xFE#8]] = .dataError 1 := by decide +kernel

/-- The two lines of the example after R182, and the re-key. -/
theorem test_set_index_example :
    setIndex 0x474B93F 0x2A5B = 1298 ∧ lineTag 0x474B93F = 0x11D2 ∧ setIndex 0x474F93C 0x2A5B = 1298 ∧
    setIndex 0x474B93F 0x2A5C = 0x511 ∧ setIndex 0x474F93C 0x2A5C = 0x513 ∧
    lineOf 1298 0x11D2 0x2A5B = 0x474B93F := by decide +kernel

/-- The loss bounds of the example after R217: cluster 5 gone, then also the member on port 17. -/
theorem test_loss_bound_example :
    let gone := (List.range 32).map (· + 160)
    geo3.lossBound gone = 3 ∧ geo3.lossBound (17 :: gone) = 4 := by decide +kernel

/-- The board of the example after R174, at 25 °C and then at 0 °C with each of the two resistances. -/
def example174 (eLow rdc : Nat) : Dev :=
  Dev.withFields { ready with bps := { dusk := some ⟨true, 80, 300, 0, 0, 4⟩ } }
    [(Reg.BPS_HALO_STAT_mode, 1), (Reg.BPS_R_r_dc, rdc), (Reg.BPS_VOLT_v_min, 10000), (Reg.BPS_VOLT_v_ocv, 13200),
     (Reg.BPS_E_LOW_j, eLow), (Reg.VLT_FREE_bytes, 320 * 2 ^ 30), (Reg.VLT_RATE_mbps, 16000), (Reg.VLT_STAT_can_seal, 1)]

/-- The board of the example after R174: Ceiling_E in MiB. -/
theorem test_ceiling_example :
    let x : DuskProfile := ⟨true, 80, 300, 0, 0, 4⟩
    floorRat ((example174 1000 600).ceilE x 1000) = 95367 ∧ floorRat ((example174 700 3200).ceilE x 700) = 49591 := by
  have h (d : Dev) (y : Rat) (hm : d.rd Reg.PWC_CEIL_CFG_margin_pct = 20) (hv : d.rd Reg.VLT_RATE_mbps = 16000)
      (hy : 375 ≤ y) : d.ceilE ⟨true, 80, 300, 0, 0, 4⟩ y = (y * 4 / 5 - 300) * 15625000 / 81920 := by
    simp only [Dev.ceilE, hm, hv, divRat]
    norm_num
    rw [max_eq_right (by linarith)]
    ring
  exact ⟨by rw [h _ _ (by decide +kernel) (by decide +kernel) (by norm_num)]; decide +kernel,
    by rw [h _ _ (by decide +kernel) (by decide +kernel) (by norm_num)]; decide +kernel⟩

/-- The same board: P_avail passes the check at 0.060 and 0.32 Ω against 96 W and fails it at 0.34 Ω (R171). -/
theorem test_power_example :
    96 < (example174 1000 600).pAvail 13200 ∧ (example174 700 3200).pAvail 13200 = 100 ∧
    (example174 700 3400).pAvail 13200 < 96 := by decide +kernel

/-- The pack of the example after R277: usable fraction and V_mean at 5 °C under the discharge rate 3.290 C. -/
theorem test_derating_example :
    let grid := [[(8000, 2950), (6200, 2780)], [(9000, 3080), (7800, 3024)]]
    let b : BattProfile := { pack with n := 4, vNom := 3200, temps := [0, 100], rates := [200, 500], derate := grid }
    let x := b.derateAt 50 (8000 / (4 * (32 / 10) * (19 / 10)))
    roundRat (x.1 * 10000) = 7855 ∧ roundRat (x.2 * 10) = 29664 := by decide +kernel

/-- The edge of the example after R372: +1000 ns. -/
theorem test_pps_example :
    let d := after (.ppsEdge false 0) (only (tmbAt tmLocked 1000 fun t => t))
    let e := after (.ppsEdge false 0) (only (Dev.withFields (tmbAt tmLocked 1000 fun t => t) [(Reg.TMB_TRIM_trim, 5000)]))
    d.tmb.slew = -17179 ∧ e.trim = 5000 - 2147 := by decide +kernel

/-- The arbiter of the example after R78: fetch 1 takes four entries of SQ 10. -/
def example78 : Dev :=
  let on (q w b : Nat) (urg : Nat) : List (Fld × Nat) := [(Reg.QD_SQ_CFG_size_m1.ix q, 255), (Reg.QD_SQ_STAT_state.ix q, sqActive),
    (Reg.QD_SQ_CFG_en.ix q, 1), (Reg.QD_SQ_ARB_weight.ix q, w), (Reg.QD_SQ_ARB_burst.ix q, b), (Reg.QD_SQ_CFG_class.ix q, urg),
    (Reg.QD_SQ_CFG_cq.ix q, q), (Reg.QD_CQ_CFG_size_m1.ix q, 255), (Reg.QD_CQ_STAT_state.ix q, 1), (Reg.QD_CQ_CFG_en.ix q, 1),
    (Reg.QD_SQ_PTR_tail.ix q, if urg = 1 then 0 else 100)]
  readyWith (on 10 6 4 0 ++ on 11 3 4 0 ++ on 40 1 8 0 ++ on 5 1 4 1 ++ [(Reg.QMX_ASN_NEXT_asn, 0x1000)])

/-- Fetch 1 of that example. -/
theorem test_arbiter_example :
    let d := after .arbitrate (only example78)
    d.rd (Reg.QD_SQ_PTR_head.ix 10) = 4 ∧ d.credit 10 = 2 ∧ d.rd (Reg.QD_SQ_PTR_head.ix 11) = 0 ∧
    d.qmx.fetched.length = 4 := by decide +kernel

/-- The sizes of the records that the vault keeps (R165, R187): 64 bytes and 32 bytes. -/
theorem test_record_sizes :
    (intent4 []).bytes.length = 64 ∧ (⟨0, 0, [1], 9, false⟩ : JEntry).bytes.length = 32 := by decide +kernel

end Sys2Proof.Tests
end

section
/-! The sideband (R406): a command that only sends a message and then ends changes nothing that a register, a latch or a
staged value shows; the two sideband commands are of that kind, and what the read sends is the BAR0 dword in view. -/

set_option Elab.async false

namespace Sys2Proof

open Sys2Proof.Machine

/-! ### Commands that act on the device -/

/-- A command whose meaning is a function of the device gives what that function gives once the command has ended. -/
theorem gives_of_exec_eq_act {c : Instr} {s : State} {f : Dev → Dev} {P : Dev → Prop} (hexec : exec c s = s.act f)
    (h : P (f s.dev).settle) : Gives c s P :=
  ⟨_, hexec, rfl, rfl, rfl, h⟩

theorem Gives.mono {c : Instr} {s : State} {P Q : Dev → Prop} (h : Gives c s P) (hPQ : ∀ e, P e → Q e) : Gives c s Q := by
  obtain ⟨t, hexec, hpending, hscratch, hmailbox, hdev⟩ := h
  exact ⟨t, hexec, hpending, hscratch, hmailbox, hPQ _ hdev⟩

/-- Reports and the end of a command change no register field. -/
theorem onlyFields_settle_of_reports {d e : Dev} (h : Dev.Reports d e) : OnlyFields d e.settle [] :=
  fun f _ hf => (e.settle_rd f hf).trans (h.rd f)

/-- A command that only sends: its message is sent first, and no latch, held half, register field, staged value or DRAM
content changes. -/
theorem gives_of_exec_eq_emit {c : Instr} {s : State} {x : Dev → Emit} (hexec : exec c s = s.act fun d => d.emit (x d)) :
    Gives c s fun e => (x s.dev :: s.dev.emitted) <:+ e.emitted ∧ e.hiLatch = s.dev.hiLatch ∧
      e.heldLow = s.dev.heldLow ∧ OnlyFields s.dev e [] ∧ e.staged = s.dev.staged ∧ e.dram = s.dev.dram := by
  have hsent : (x s.dev :: s.dev.emitted) <:+ (s.dev.emit (x s.dev)).settle.emitted := (s.dev.emit _).settle_sent
  have hfields : OnlyFields s.dev (s.dev.emit (x s.dev)).settle [] := onlyFields_settle_of_reports (s.dev.emit_reports _)
  exact gives_of_exec_eq_act hexec ⟨hsent, by simp, by simp, hfields, by simp, by simp⟩

/-! ### The sideband -/

theorem exec_sidebandRead (a : Nat) (s : State) :
    exec (.sidebandRead a) s = s.act fun d => d.emit (.smbusReply (d.sidebandData a)) := rfl

theorem exec_sidebandWrite (a : Nat) (v : Dword) (s : State) :
    exec (.sidebandWrite a v) s = s.act fun d => d.emit .smbusNack := rfl

/-- The sideband shows the SYS page and every common header, and nothing else. -/
theorem sidebandShows_iff (a : Nat) : sidebandShows a = true ↔ a < 0x10000 ∨ (a < 0xE0000 ∧ a % 65536 < 0x40) := by
  simp [sidebandShows]

theorem Machine.Dev.sidebandData_eq (d : Dev) (a : Nat) :
    d.sidebandData a = if a / 4 * 4 < 0x10000 ∨ (a / 4 * 4 < 0xE0000 ∧ a / 4 * 4 % 65536 < 0x40)
      then d.dwordRead (a / 4 * 4) else 0 := by
  simp only [Dev.sidebandData, sidebandShows_iff]

/-- Settles O8: both commands only send, the read the dword in view and the write a NACK. -/
theorem sidebandView : Obligations.SidebandView := by
  intro a v s
  have hread := gives_of_exec_eq_emit (exec_sidebandRead a s)
  rw [s.dev.sidebandData_eq] at hread
  exact ⟨hread.mono fun _ ⟨hsent, hlatch, _, hfields, hstaged, _⟩ => ⟨hsent, hlatch, hfields, hstaged⟩,
    gives_of_exec_eq_emit (exec_sidebandWrite a v s)⟩

end Sys2Proof
end

section
/-! Frames: what a sequence of operations leaves as it was, composed from the frame of each operation. -/

set_option Elab.async false

namespace Sys2Proof

open Sys2Proof.Machine

/-! ### Rules of frames -/

theorem Machine.Part.same_refl (d : Dev) : ∀ p : Part, p.same d d := by
  intro p
  cases p <;> simp [Part.same]

theorem Machine.Part.same_trans {a b c : Dev} : ∀ p : Part, p.same a b → p.same b c → p.same a c := by
  intro p h k
  cases p <;> simp_all [Part.same]

variable {a b c d e : Dev} {fs gs : List Fld} {ps qs : List Part}

theorem Frame.refl (d : Dev) (fs : List Fld) (ps : List Part) : Frame d d fs ps :=
  ⟨fun _ _ _ => rfl, fun p _ => Part.same_refl d p⟩

/-- A frame goes on with an operation whose fields and parts are among those that may change. -/
theorem Frame.trans (h : Frame a b fs ps) (k : Frame b c gs qs) (hfs : gs ⊆ fs := by decide) (hps : qs ⊆ ps := by decide) :
    Frame a c fs ps := by
  obtain ⟨hfields, hparts⟩ := h
  obtain ⟨kfields, kparts⟩ := k
  exact ⟨fun f hf hkey => (kfields f (fun g hg => hf g (hfs hg)) hkey).trans (hfields f hf hkey),
    fun p hp => Part.same_trans p (hparts p hp) (kparts p fun hq => hp (hps hq))⟩

theorem Frame.ite {x : Prop} [Decidable x] (h : Frame a b fs ps) (k : Frame a c fs ps) :
    Frame a (if x then b else c) fs ps := by split <;> assumption

theorem Frame.forEach {α : Type} {f : α → Dev → Dev} (h : ∀ x d, Frame d (f x d) fs ps) (xs : List α) :
    ∀ d, Frame d (forEach xs f d) fs ps := by
  induction xs with
  | nil => exact fun d => .refl d fs ps
  | cons x xs ih => exact fun d => (h x d).trans (ih (f x d)) (List.Subset.refl _) (List.Subset.refl _)

/-- An operation that leaves the register file and every part but one. -/
theorem Frame.setPart (p : Part) (h : Frame a d fs ps) (hrd : ∀ f, e.rd f = d.rd f) (hsame : ∀ q, q ≠ p → q.same d e)
    (hp : p ∈ ps) : Frame a e fs ps := by
  have k : Frame d e [] [p] := ⟨fun f _ _ => hrd f, fun q hq => hsame q (by simpa using hq)⟩
  exact h.trans k (List.nil_subset _) (by simpa using hp)

theorem Frame.setPwc (h : Frame a d fs ps) (x : PwcState) (hp : Part.pwc ∈ ps := by decide) :
    Frame a { d with pwc := x } fs ps :=
  h.setPart .pwc (fun _ => rfl) (fun q hq => by cases q <;> simp_all [Part.same]) hp

theorem Frame.setBps (h : Frame a d fs ps) (x : BpsState) (hp : Part.bps ∈ ps := by decide) :
    Frame a { d with bps := x } fs ps :=
  h.setPart .bps (fun _ => rfl) (fun q hq => by cases q <;> simp_all [Part.same]) hp

theorem Frame.setSys (h : Frame a d fs ps) (x : SysState) (hp : Part.sys ∈ ps := by decide) :
    Frame a { d with sys := x } fs ps :=
  h.setPart .sys (fun _ => rfl) (fun q hq => by cases q <;> simp_all [Part.same]) hp

theorem Frame.setMnt (h : Frame a d fs ps) (x : MntState) (hp : Part.mnt ∈ ps := by decide) :
    Frame a { d with mnt := x } fs ps :=
  h.setPart .mnt (fun _ => rfl) (fun q hq => by cases q <;> simp_all [Part.same]) hp

theorem Frame.wr (h : Frame a d fs ps) (f : Fld) (v : Nat) (hf : f ∈ fs := by decide) : Frame a (d.wr f v) fs ps := by
  have k : Frame d (d.wr f v) [f] [] :=
    ⟨fun g hg _ => Dev.rd_wr_other d f g v (hg f (List.mem_singleton_self f)), fun p _ => by cases p <;> simp [Part.same]⟩
  exact h.trans k (by simpa using hf) (List.nil_subset _)

theorem Frame.reports (h : Frame a d fs ps) (k : Dev.Reports d e) : Frame a e fs ps := by
  have j : Frame d e [] [] := by
    refine ⟨fun f _ _ => k.rd f, fun p _ => ?_⟩
    have hsame := k.same
    cases p <;> rw [hsame] <;> simp [Part.same]
  exact h.trans j (List.nil_subset _) (List.nil_subset _)

theorem Frame.settle (h : Frame a d fs ps) : Frame a d.settle fs ps := by
  have j : Frame d d.settle [] [] := by
    refine ⟨fun f _ hf => d.settle_rd f hf, fun p _ => ?_⟩
    have hsame := d.settle_settles.same
    generalize d.settle = e at hsame
    cases p <;> rw [hsame] <;> simp [Part.same]
  exact h.trans j (List.nil_subset _) (List.nil_subset _)

/-- A field outside a frame reads as before. -/
theorem Frame.rd (h : Frame a d fs ps) (f : Fld) (hf : ∀ g ∈ fs, f.key ≠ g.key := by decide)
    (hkey : stateKey f.key = false := by decide) : d.rd f = a.rd f := h.1 f hf hkey

/-- A part outside a frame is as before. -/
theorem Frame.part (h : Frame a d fs ps) (p : Part) (hp : p ∉ ps := by decide) : p.same a d := h.2 p hp

end Sys2Proof
end

section
/-! The recompute of the Ceiling and what Halo publishes for it (R170 to R174, R275 to R277). A recompute is cut into the
registers of the Ceiling, which are shown first, and what follows from them: events, the mode, the abort of LEARN. -/

set_option Elab.async false

namespace Sys2Proof.Machine

/-! ### The end of a learn cycle (R268, R280) -/

/-- What ending a learn cycle writes: its standing and result, and the charger, whose REST inhibition follows it. -/
def learnFields : List Fld :=
  [Reg.BPS_LEARN_STAT_phase, Reg.BPS_LEARN_STAT_result, Reg.BPS_LEARN_STAT_reason, Reg.BPS_CHG_STAT_inhibit,
   Reg.BPS_CHG_STAT_duty, Reg.BPS_CHG_STAT_state]

theorem Dev.setDsg_frame (d : Dev) (on : Bool) : Frame d (d.setDsg on) [] [.sys] :=
  .ite (.refl d _ _) (((Frame.refl d _ _).setSys _).reports (Dev.emit_reports _ _))

theorem Dev.setDuty_frame (d : Dev) (v : Nat) : Frame d (d.setDuty v) [Reg.BPS_CHG_STAT_duty] [] :=
  .ite (.refl d _ _) (((Frame.refl d _ _).wr _ _).reports (Dev.emit_reports _ _))

theorem Dev.setInhibit_frame (d : Dev) (bit : Nat) (on : Bool) : Frame d (d.setInhibit bit on) learnFields [.bps] := by
  have inhibited (v : Nat) : Frame d (d.wr Reg.BPS_CHG_STAT_inhibit v) learnFields [.bps] := (Frame.refl d _ _).wr _ _
  unfold Dev.setInhibit
  exact .ite ((((inhibited _).trans (Dev.setDuty_frame _ _)).wr _ _).setBps _) (.ite ((inhibited _).wr _ _) (inhibited _))

theorem Dev.learnResult_frame (d : Dev) (result mah reason : Nat) :
    Frame d (d.learnResult result mah reason) learnFields [] :=
  ((((Frame.refl d _ _).wr _ _).wr _ _).reports (Dev.causeBit_reports _ _ _)).reports (Dev.post_reports _ _ _ _ _ _ _ _)

theorem Dev.learnStop_frame (d : Dev) (reason : Nat) : Frame d (d.learnStop reason) learnFields [.sys, .bps] := by
  have released : Frame d (d.setDsg false) learnFields [.sys, .bps] := (Frame.refl d _ _).trans (d.setDsg_frame false)
  unfold Dev.learnStop
  exact .ite ((((released.wr _ _).setBps _).trans (Dev.learnResult_frame _ _ _ _)).trans (Dev.setInhibit_frame _ _ _))
    (.refl d _ _)

theorem Dev.actAbort_frame (d : Dev) (x : Activity) : Frame d (d.actAbort x) learnFields [.mnt, .sys, .bps] := by
  have ended : Frame d (d.actEnd x.act x.array) learnFields [.mnt, .sys, .bps] := (Frame.refl d _ _).setMnt _
  unfold Dev.actAbort
  exact .ite (ended.trans (Dev.learnStop_frame _ _)) ended

/-- The prediction of R282 is noted, and LEARN aborted where it misses the floor. -/
theorem Dev.judgeFloor_frame (d : Dev) : ∃ miss, Frame { d with pwc := { d.pwc with predictedFloorMiss := miss } } d.judgeFloor
    learnFields [.mnt, .sys, .bps] :=
  ⟨d.learnFloorMiss d.uncNow ((d.rd Reg.BPS_HALO_U_u_q : Rat) / 10000) d.qL d.tPack,
    .ite (.forEach (fun x d => d.actAbort_frame x) _ _) (.refl _ _ _)⟩

/-! ### The recompute of the Ceiling (R170 to R174) -/

/-- The Ceiling that a recompute shows: an increase waits for the next recompute (R173). -/
def Dev.shownCeil (d : Dev) : Nat := if d.pwc.prevCeil < d.ceilComputed.2 then d.pwc.prevCeil else d.ceilComputed.2

/-- The term that a recompute shows, that of the value shown. -/
def Dev.shownTerm (d : Dev) : Nat := if d.pwc.prevCeil < d.ceilComputed.2 then d.pwc.prevTerm else d.ceilComputed.1

/-- The first part of a recompute: the registers of the Ceiling and what the next recompute needs of this one. -/
def Dev.showCeiling (d : Dev) : Dev :=
  let ceilE := match d.duskProfile with | some x => (floorRat (d.ceilE x (d.rd Reg.BPS_E_LOW_j))).toNat | none => 0
  let e := d.wr Reg.PWC_CEIL_E_mib (min ceilE (2 ^ 32 - 1))
    |>.wr Reg.PWC_CEIL_IN_p_avail_w (min 0xFFFF (floorRat (max 0 (d.pAvail (d.rd Reg.BPS_VOLT_v_ocv)))).toNat)
    |>.wr Reg.PWC_CEIL_IN_p_dusk_w (match d.duskProfile with | some x => x.pDusk | none => 0)
    |>.wr Reg.PWC_CEIL_mib d.shownCeil |>.wr Reg.PWC_CEIL_limit d.shownTerm
  { e with pwc := { e.pwc with prevCeil := d.ceilComputed.2, prevTerm := d.ceilComputed.1, estimated := d.estimateSeen } }

/-- The second part of a recompute: CEILING_CHANGED where R174 asks for it, and the cause of a Ceiling that falls to 0. -/
def Dev.announceCeiling (d : Dev) (old new term : Nat) : Dev :=
  let rep := d.pwc.reported
  let far := decide (rep < (max new rep - min new rep) * 10)
  let edge := decide (new ≠ old) && (decide (new = 0) || decide (old = 0))
  let first := !d.pwc.everReported && decide (0 < new)
  let e := if far || edge || first then
      let e := { d with pwc := { d.pwc with reported := new, everReported := true } }
      (e.causeBit .pwc 16).post 0x30 1 new rep term 0
    else d
  if new = 0 ∧ old ≠ 0 then e.causeBit .pwc 18 else e

theorem Dev.recompute_eq (d : Dev) : d.recompute =
    (d.showCeiling.announceCeiling (d.rd Reg.PWC_CEIL_mib) d.shownCeil d.shownTerm).refreshMode := rfl

/-- What a recompute writes of the Ceiling. -/
def ceilFields : List Fld :=
  [Reg.PWC_CEIL_E_mib, Reg.PWC_CEIL_IN_p_avail_w, Reg.PWC_CEIL_IN_p_dusk_w, Reg.PWC_CEIL_mib, Reg.PWC_CEIL_limit]

theorem Dev.showCeiling_frame (d : Dev) : Frame d d.showCeiling ceilFields [.pwc] :=
  ((((((Frame.refl d _ _).wr _ _).wr _ _).wr _ _).wr _ _).wr _ _).setPwc _

theorem Dev.announceCeiling_frame (d : Dev) (old new term : Nat) :
    Frame d (d.announceCeiling old new term) [] [.pwc] := by
  have announced (x : PwcState) (rep : Nat) : Frame d
      ((({ d with pwc := x } : Dev).causeBit .pwc 16).post 0x30 1 new rep term 0) [] [.pwc] :=
    (((Frame.refl d _ _).setPwc _).reports (Dev.causeBit_reports _ _ _)).reports (Dev.post_reports _ _ _ _ _ _ _ _)
  exact .ite (.reports (.ite (announced _ _) (.refl d _ _)) (Dev.causeBit_reports _ _ _)) (.ite (announced _ _) (.refl d _ _))

/-- What the next recompute needs of this one does not depend on whether CEILING_CHANGED is posted. -/
theorem Dev.announceCeiling_pwc (d : Dev) (old new term : Nat) :
    (d.announceCeiling old new term).pwc.prevCeil = d.pwc.prevCeil ∧
    (d.announceCeiling old new term).pwc.prevTerm = d.pwc.prevTerm ∧
    (d.announceCeiling old new term).pwc.estimated = d.pwc.estimated := by
  simp only [Dev.announceCeiling]
  split <;> split <;> simp

theorem Dev.refreshMode_frame (d : Dev) : Frame d d.refreshMode [Reg.PWC_STAT_mode] [] := by
  have shown (v : Nat) : Frame d (d.wr Reg.PWC_STAT_mode v) [Reg.PWC_STAT_mode] [] := (Frame.refl d _ _).wr _ _
  exact .ite ((shown _).reports (Dev.causeBit_reports _ _ _)) (shown _)

theorem Dev.recompute_frame (d : Dev) : Frame d d.recompute (Reg.PWC_STAT_mode :: ceilFields) [.pwc] := by
  rw [d.recompute_eq]
  exact (((Frame.refl d _ _).trans d.showCeiling_frame).trans (Dev.announceCeiling_frame _ _ _ _)).trans
    (Dev.refreshMode_frame _)

/-! ### CEILING_RECOMPUTE -/

/-- After the Ceiling is shown, the command changes the mode and what an abort of LEARN changes. -/
theorem Dev.ceilingRecompute_frame (d : Dev) : Frame d.showCeiling d.ceilingRecompute.settle
    (Reg.PWC_STAT_mode :: learnFields) [.pwc, .mnt, .sys, .bps] := by
  obtain ⟨miss, hjudged⟩ := d.recompute.judgeFloor_frame
  have hrecompute : Frame d.showCeiling d.recompute (Reg.PWC_STAT_mode :: learnFields) [.pwc, .mnt, .sys, .bps] := by
    rw [d.recompute_eq]
    exact ((Frame.refl _ _ _).trans (Dev.announceCeiling_frame _ _ _ _)).trans (Dev.refreshMode_frame _)
  exact ((hrecompute.setPwc _).trans hjudged).settle

theorem Dev.ceilingRecompute_pwc (d : Dev) :
    d.ceilingRecompute.settle.pwc.prevCeil = d.ceilComputed.2 ∧
    d.ceilingRecompute.settle.pwc.prevTerm = d.ceilComputed.1 ∧
    d.ceilingRecompute.settle.pwc.estimated = d.estimateSeen := by
  obtain ⟨miss, hjudged⟩ := d.recompute.judgeFloor_frame
  have hpwc : d.ceilingRecompute.settle.pwc = { d.recompute.pwc with predictedFloorMiss := miss } := hjudged.settle.part .pwc
  have hmode : d.recompute.pwc = (d.showCeiling.announceCeiling _ d.shownCeil d.shownTerm).pwc :=
    (Dev.refreshMode_frame _).part .pwc
  rw [hpwc, hmode]
  exact d.showCeiling.announceCeiling_pwc _ _ _

theorem Dev.shownCeil_eq_min (d : Dev) : d.shownCeil = min d.pwc.prevCeil d.ceilComputed.2 := by
  unfold Dev.shownCeil
  split <;> omega

theorem Dev.showCeiling_rd (d : Dev) :
    d.showCeiling.rd Reg.PWC_CEIL_mib = d.shownCeil % 2 ^ 18 ∧ d.showCeiling.rd Reg.PWC_CEIL_limit = d.shownTerm % 2 ^ 4 ∧
    d.showCeiling.rd Reg.PWC_CEIL_IN_p_avail_w =
      min 0xFFFF (floorRat (max 0 (d.pAvail (d.rd Reg.BPS_VOLT_v_ocv)))).toNat ∧
    ∀ x, d.duskProfile = some x → d.showCeiling.rd Reg.PWC_CEIL_IN_p_dusk_w = x.pDusk % 2 ^ 16 := by
  have hother (e : Dev) (f g : Fld) (v : Nat) (h : g.key ≠ f.key := by decide) : (e.wr f v).rd g = e.rd g :=
    e.rd_wr_other f g v h
  refine ⟨?_, ?_, ?_, fun x hx => ?_⟩
  · exact (hother _ _ _ _).trans (Dev.rd_wr_same _ _ _)
  · exact Dev.rd_wr_same _ _ _
  · refine ((hother _ _ _ _).trans ((hother _ _ _ _).trans ((hother _ _ _ _).trans (Dev.rd_wr_same _ _ _)))).trans ?_
    exact Nat.mod_eq_of_lt (Nat.lt_succ_of_le (Nat.min_le_left _ _))
  · exact (hother _ _ _ _).trans ((hother _ _ _ _).trans ((Dev.rd_wr_same _ _ _).trans (by rw [hx]; rfl)))

/-- No estimate of Halo has been met: the value shown is 0 (R173). -/
theorem Dev.shown_of_estimateSeen_eq_false {d : Dev} (h : d.estimateSeen = false) : d.shownCeil = 0 ∧ d.shownTerm = 6 := by
  simp [Dev.shownCeil, Dev.shownTerm, Dev.ceilComputed, h]

/-- What CEILING_RECOMPUTE shows: the Ceiling, its term and the inputs of the power check. -/
theorem Dev.ceilingRecompute_rd (d : Dev) :
    d.ceilingRecompute.settle.rd Reg.PWC_CEIL_mib = min d.pwc.prevCeil d.ceilComputed.2 % 2 ^ 18 ∧
    d.ceilingRecompute.settle.rd Reg.PWC_CEIL_limit = d.shownTerm % 2 ^ 4 ∧
    d.ceilingRecompute.settle.rd Reg.PWC_CEIL_IN_p_avail_w =
      min 0xFFFF (floorRat (max 0 (d.pAvail (d.rd Reg.BPS_VOLT_v_ocv)))).toNat ∧
    ∀ x, d.duskProfile = some x → d.ceilingRecompute.settle.rd Reg.PWC_CEIL_IN_p_dusk_w = x.pDusk % 2 ^ 16 := by
  obtain ⟨hmib, hlimit, havail, hdusk⟩ := d.showCeiling_rd
  rw [d.shownCeil_eq_min] at hmib
  have h := d.ceilingRecompute_frame
  exact ⟨(h.rd _).trans hmib, (h.rd _).trans hlimit, (h.rd _).trans havail, fun x hx => (h.rd _).trans (hdusk x hx)⟩

/-! ### The power check (R171, R172) -/

/-- The least term is at most each of the terms. -/
theorem leastTerm_le {t : Nat × Rat} {ts : List (Nat × Rat)} (h : t ∈ ts) : (leastTerm ts).2 ≤ t.2 := by
  cases ts with
  | nil => simp at h
  | cons u us =>
    induction us generalizing u t with
    | nil => simp_all [leastTerm]
    | cons v us ih =>
      have hstep : ∃ w, leastTerm (u :: v :: us) = leastTerm (w :: us) ∧ w.2 ≤ u.2 ∧ w.2 ≤ v.2 := by
        refine ⟨_, rfl, ?_⟩
        dsimp only
        split
        · grind
        · grind
      obtain ⟨w, heq, hu, hv⟩ := hstep
      rw [heq]
      rcases List.mem_cons.mp h with rfl | h
      · exact (ih w List.mem_cons_self).trans hu
      · rcases List.mem_cons.mp h with rfl | h
        · exact (ih w List.mem_cons_self).trans hv
        · exact ih w (List.mem_cons_of_mem _ h)

/-- A term of 0 makes the computed Ceiling 0. -/
theorem Dev.ceilNow_eq_zero {d : Dev} {eLow : Rat} {v : Nat} {t : Nat × Rat} (ht : t ∈ d.ceilTerms eLow v) (h0 : t.2 = 0) :
    (d.ceilNow eLow v).2 = 0 := by
  have hle : (leastTerm (d.ceilTerms eLow v)).2 ≤ 0 := h0 ▸ leastTerm_le ht
  simp only [Dev.ceilNow, max_eq_left hle]
  rfl

/-- Where P_avail fails its check, the Ceiling is bounded by the term POWER, or by ESTIMATE_UNAVAILABLE. -/
theorem Dev.zero_mem_ceilTerms {d : Dev} {x : DuskProfile} {v : Nat} (eLow : Rat) (hx : d.duskProfile = some x)
    (hp : d.pAvail v < (x.pDusk : Rat) * 12 / 10) : ∃ t ∈ d.ceilTerms eLow v, t.2 = 0 := by
  simp only [Dev.ceilTerms, hx, hp, if_true]
  by_cases hmode : d.rd Reg.BPS_HALO_STAT_mode = 0
  · exact ⟨(6, 0), by simp [hmode], rfl⟩
  · exact ⟨(1, 0), by simp [hmode], rfl⟩

theorem Dev.ceilComputed_eq_zero {d : Dev} {x : DuskProfile} (hx : d.duskProfile = some x)
    (hp : d.pAvail (d.rd Reg.BPS_VOLT_v_ocv) < (x.pDusk : Rat) * 12 / 10) : d.ceilComputed.2 = 0 := by
  obtain ⟨t, ht, h0⟩ := Dev.zero_mem_ceilTerms (d.rd Reg.BPS_E_LOW_j) hx hp
  unfold Dev.ceilComputed
  split
  · exact Dev.ceilNow_eq_zero ht h0
  · rfl

/-- P_avail in V and Ω (R171), where a resistance is known. -/
theorem Dev.pAvail_eq (d : Dev) (v : Nat) (h : d.rd Reg.BPS_R_r_dc ≠ 0) : d.pAvail v =
    (d.rd Reg.BPS_VOLT_v_min : Rat) / 1000 * ((v : Rat) / 1000 - (d.rd Reg.BPS_VOLT_v_min : Rat) / 1000) /
      ((d.rd Reg.BPS_R_r_dc : Rat) / 10000) := by
  simp only [Dev.pAvail, h, if_false]
  ring

/-! ### Alarms and causes of Halo (R269, R277, R285) -/

/-- What a change of Halo's causes writes: causes and mode, and the recompute that a change to NONE starts. -/
def haloFields : List Fld :=
  Reg.BPS_HALO_STAT_causes :: Reg.BPS_HALO_STAT_mode :: Reg.PWC_STAT_mode :: ceilFields

theorem Dev.alarm_frame (d : Dev) (reason : Nat) : Frame d (d.alarm reason) [] [.bps] := by
  have noted (x : BpsState) : Frame d { d with bps := x } [] [.bps] := (Frame.refl d _ _).setBps x
  unfold Dev.alarm
  exact .ite (.refl d _ _) (.ite (noted _)
    (((noted _).reports (Dev.causeBit_reports _ _ _)).reports (Dev.post_reports _ _ _ _ _ _ _ _)))

theorem Dev.alarmIf_frame (d : Dev) (reason : Nat) (on : Bool) : Frame d (d.alarmIf reason on) [] [.bps] :=
  .ite (d.alarm_frame reason) (.ite ((Frame.refl d _ _).setBps _) (.refl d _ _))

theorem Dev.refreshHalo_frame (d : Dev) : Frame d d.refreshHalo haloFields [.bps, .pwc] := by
  have shown (m : Nat) : Frame d ((d.wr Reg.BPS_HALO_STAT_mode m).causeBit .bps 18) haloFields [.bps, .pwc] :=
    ((Frame.refl d _ _).wr _ _).reports (Dev.causeBit_reports _ _ _)
  exact .ite (.refl d _ _) (.ite ((shown _).trans (Dev.recompute_frame _)) (shown _))

theorem Dev.setHaloCause_frame (d : Dev) (bit : Nat) : Frame d (d.setHaloCause bit) haloFields [.bps, .pwc] := by
  have caused (m : Nat) : Frame d (d.wr Reg.BPS_HALO_STAT_causes m) haloFields [.bps, .pwc] := (Frame.refl d _ _).wr _ _
  unfold Dev.setHaloCause
  exact .trans (.ite ((caused _).setBps _) (caused _)) (Dev.refreshHalo_frame _)

/-! ### HALO_PUBLISH (R275 to R277, R285) -/

/-- V_ocv in mV at the low bound of the state of charge. -/
def Dev.boundOcv (d : Dev) (b : BattProfile) : Nat :=
  (floorRat ((b.n : Rat) * b.ocvAt (max 0 (d.socNow - d.uncNow)) d.tPack)).toNat

/-- What HALO_PUBLISH writes with or without a bound: the gauge and V_min. -/
def Dev.publishGauge (d : Dev) (b : BattProfile) : Dev :=
  d.wr Reg.BPS_HALO_STAT_soc (hundredths d.socNow) |>.wr Reg.BPS_HALO_U_u (min 0xFFFF (hundredths d.uncNow))
    |>.wr Reg.BPS_HALO_U_u_q (hundredths d.uQ) |>.wr Reg.BPS_VOLT_v_min (b.n * b.vMin)

/-- What HALO_PUBLISH does after a bound of energy `eLow` and voltage `v` is known: the bound is shown, the alarms follow their
conditions, and an uncertainty above 15 % starts the filter. -/
def Dev.publishBound (d : Dev) (u eLow : Rat) (v : Nat) : Dev :=
  let d := d.wr Reg.BPS_E_LOW_j (min (floorRat eLow).toNat (2 ^ 32 - 1)) |>.wr Reg.BPS_VOLT_v_ocv v
  let wide := decide ((15 : Rat) / 100 < u)
  let d := d.alarmIf 1 wide
  let d := if wide && !bitOf (d.rd Reg.BPS_HALO_STAT_causes) 6 then d.setHaloCause 6 else d
  match d.duskProfile with
  | some x => d.alarmIf 12 (decide (d.pAvail v < (x.pDusk : Rat) * 12 / 10))
  | none => d

theorem Dev.publishGauge_frame (d : Dev) (b : BattProfile) : Frame d (d.publishGauge b)
    [Reg.BPS_HALO_STAT_soc, Reg.BPS_HALO_U_u, Reg.BPS_HALO_U_u_q, Reg.BPS_VOLT_v_min] [] :=
  ((((Frame.refl d _ _).wr _ _).wr _ _).wr _ _).wr _ _

theorem Dev.publishGauge_haloMode (d : Dev) (b : BattProfile) : (d.publishGauge b).haloMode = d.haloMode := by
  have h := d.publishGauge_frame b
  have hbps : (d.publishGauge b).bps = d.bps := h.part .bps
  unfold Dev.haloMode Dev.batt Dev.packHere Dev.anyAdc Dev.adcOk Dev.inFilter Dev.rdB
  rw [h.rd Reg.BPS_PACK_present, h.rd Reg.BPS_ADC_adc0_ok, h.rd Reg.BPS_ADC_adc1_ok, h.rd Reg.BPS_HALO_STAT_causes, hbps]

/-- With a valid profile and a mode other than NONE, HALO_PUBLISH publishes a bound. -/
theorem Dev.haloPublish_eq {d : Dev} {b : BattProfile} (hb : d.batt = some b) (hm : d.haloMode ≠ hmNone) :
    ∃ eLow, d.haloPublish = (d.publishGauge b).publishBound d.uncNow eLow (d.boundOcv b) := by
  rw [← d.publishGauge_haloMode b] at hm
  unfold Dev.haloPublish
  simp only [hb]
  exact ⟨_, if_neg hm⟩

/-- After the bound is shown, HALO_PUBLISH changes Halo's causes and mode, and what a recompute changes. -/
theorem Dev.publishBound_frame (d : Dev) (u eLow : Rat) (v : Nat) :
    Frame (d.wr Reg.BPS_E_LOW_j (min (floorRat eLow).toNat (2 ^ 32 - 1)) |>.wr Reg.BPS_VOLT_v_ocv v)
      (d.publishBound u eLow v) haloFields [.bps, .pwc] := by
  unfold Dev.publishBound
  dsimp only
  have alarmed (x : Dev) (on : Bool) : Frame x (x.alarmIf 1 on) haloFields [.bps, .pwc] :=
    (Frame.refl x _ _).trans (Dev.alarmIf_frame _ _ _)
  split
  · refine .trans ?_ (Dev.alarmIf_frame _ _ _)
    exact .ite ((alarmed _ _).trans (Dev.setHaloCause_frame _ _)) (alarmed _ _)
  · exact .ite ((alarmed _ _).trans (Dev.setHaloCause_frame _ _)) (alarmed _ _)

/-- What HALO_PUBLISH publishes for the power check (R171): V_min, V_ocv, and R_dc as it was. -/
theorem Dev.haloPublish_rd {d : Dev} {b : BattProfile} (hb : d.batt = some b) (hm : d.haloMode ≠ hmNone) :
    d.haloPublish.settle.rd Reg.BPS_VOLT_v_min = b.n * b.vMin % 2 ^ 16 ∧
    d.haloPublish.settle.rd Reg.BPS_R_r_dc = d.rd Reg.BPS_R_r_dc ∧
    d.haloPublish.settle.rd Reg.BPS_VOLT_v_ocv = d.boundOcv b % 2 ^ 16 := by
  obtain ⟨eLow, hpublish⟩ := Dev.haloPublish_eq hb hm
  rw [hpublish]
  have htail := ((d.publishGauge b).publishBound_frame d.uncNow eLow (d.boundOcv b)).settle
  have hbound (v w : Nat) : Frame (d.publishGauge b) (((d.publishGauge b).wr Reg.BPS_E_LOW_j v).wr Reg.BPS_VOLT_v_ocv w)
      [Reg.BPS_E_LOW_j, Reg.BPS_VOLT_v_ocv] [] := ((Frame.refl _ _ _).wr _ _).wr _ _
  refine ⟨?_, ?_, ?_⟩
  · exact (htail.rd _).trans (((hbound _ _).rd _).trans (Dev.rd_wr_same _ _ _))
  · exact (htail.rd _).trans (((hbound _ _).rd _).trans ((d.publishGauge_frame b).rd _))
  · exact (htail.rd _).trans (Dev.rd_wr_same _ _ _)

end Sys2Proof.Machine

namespace Sys2Proof

open Sys2Proof.Machine

theorem exec_ceilingRecompute (s : State) : exec .ceilingRecompute s = s.act Dev.ceilingRecompute := rfl

theorem exec_haloPublish (s : State) : exec .haloPublish s = s.act Dev.haloPublish := rfl

/-- Settles O38: the command shows the lesser of the two values with its term (log entry 56), and what follows leaves both
registers and what the next recompute needs. -/
theorem ceilingApplied : Obligations.CeilingApplied := by
  refine ⟨fun s => gives_of_exec_eq_act (exec_ceilingRecompute s) ?_, by decide, by decide, by decide⟩
  obtain ⟨hmib, hlimit, -, -⟩ := s.dev.ceilingRecompute_rd
  obtain ⟨hprev, hterm, hseen⟩ := s.dev.ceilingRecompute_pwc
  have hframe : Frame s.dev s.dev.ceilingRecompute.settle (Reg.PWC_STAT_mode :: ceilFields ++ learnFields)
      [.pwc, .mnt, .sys, .bps] :=
    ((Frame.refl _ _ _).trans s.dev.showCeiling_frame).trans s.dev.ceilingRecompute_frame
  refine ⟨hmib, hlimit, hprev, hterm, hseen, fun h => ?_, hframe.part .dram, hframe.part .qmx, hframe.part .staged,
    hframe.part .lay⟩
  obtain ⟨hzero, hsix⟩ := Dev.shown_of_estimateSeen_eq_false h
  rw [hmib, hlimit, ← Dev.shownCeil_eq_min, hzero, hsix]
  decide

/-- Settles O39: V_min and V_ocv are published before anything that depends on them; a failed power check puts a term of 0
among those whose least is the Ceiling. -/
theorem powerCheck : Obligations.PowerCheck := by
  intro b x s
  refine ⟨fun hb hm => ?_, fun hr hx => ?_⟩
  · exact gives_of_exec_eq_act (exec_haloPublish s) (Dev.haloPublish_rd hb hm)
  · obtain ⟨hmib, -, havail, hdusk⟩ := s.dev.ceilingRecompute_rd
    rw [s.dev.pAvail_eq _ hr] at havail
    refine gives_of_exec_eq_act (exec_ceilingRecompute s) ⟨havail, hdusk x hx, fun hlow => ?_⟩
    rw [← s.dev.pAvail_eq _ hr] at hlow
    rw [hmib, Dev.ceilComputed_eq_zero hx (by linarith), Nat.min_zero, Nat.zero_mod]

end Sys2Proof
end

section
/-! The set index of the metadata cache (R182): a line's low 14 bits under xor with a hash of its tag and the key, so that
the same hash gives the low bits back. -/

set_option Elab.async false

namespace Sys2Proof.Machine

/-- What a tag adds to a line's low bits to choose its set: (tag[13:0] + key) mod 2^14 ^ tag[27:14] of R182. -/
def tagHash (tag key : Nat) : Nat := ((tag % 2 ^ 14 + key) % 2 ^ 14) ^^^ (tag / 2 ^ 14 % 2 ^ 14)

theorem tagHash_lt (tag key : Nat) : tagHash tag key < 2 ^ 14 :=
  Nat.xor_lt_two_pow (Nat.mod_lt _ (by decide)) (Nat.mod_lt _ (by decide))

theorem lineTag_lt (la : Nat) : lineTag la < 2 ^ 28 := Nat.mod_lt _ (by decide)

theorem lineTag_eq_div {la : Nat} (hla : la < 2 ^ 42) : lineTag la = la / 2 ^ 14 :=
  Nat.mod_eq_of_lt (by omega)

/-- The tag holds both fields of the line that the index uses beside its low bits. -/
theorem tagHash_lineTag (la key : Nat) :
    tagHash (lineTag la) key = ((la / 2 ^ 14 % 2 ^ 14 + key) % 2 ^ 14) ^^^ (la / 2 ^ 28 % 2 ^ 14) := by
  have hlow : lineTag la % 2 ^ 14 = la / 2 ^ 14 % 2 ^ 14 := by unfold lineTag; omega
  have hhigh : lineTag la / 2 ^ 14 % 2 ^ 14 = la / 2 ^ 28 % 2 ^ 14 := by unfold lineTag; omega
  rw [tagHash, hlow, hhigh]

theorem setIndex_eq_xor_tagHash (la key : Nat) : setIndex la key = la % 2 ^ 14 ^^^ tagHash (lineTag la) key := by
  rw [tagHash_lineTag, setIndex, Nat.xor_assoc]

theorem lineOf_eq_add_xor_tagHash (index tag key : Nat) :
    lineOf index tag key = tag * 2 ^ 14 + (index ^^^ tagHash tag key) := by
  rw [lineOf, tagHash, Nat.xor_assoc]

theorem setIndex_lt (la key : Nat) : setIndex la key < 2 ^ 14 := by
  rw [setIndex_eq_xor_tagHash]
  exact Nat.xor_lt_two_pow (Nat.mod_lt _ (by decide)) (tagHash_lt _ _)

/-- The way back: the tag's part of the index cancels itself. -/
theorem setIndex_xor_tagHash (la key : Nat) : setIndex la key ^^^ tagHash (lineTag la) key = la % 2 ^ 14 := by
  rw [setIndex_eq_xor_tagHash, Nat.xor_xor_cancel_right]

theorem lineOf_setIndex {la : Nat} (hla : la < 2 ^ 42) (key : Nat) : lineOf (setIndex la key) (lineTag la) key = la := by
  rw [lineOf_eq_add_xor_tagHash, setIndex_xor_tagHash, lineTag_eq_div hla, Nat.div_add_mod']

/-- Set and tag together name one line. -/
theorem eq_of_setIndex_eq_of_lineTag_eq {la lb key : Nat} (hla : la < 2 ^ 42) (hlb : lb < 2 ^ 42)
    (hset : setIndex la key = setIndex lb key) (htag : lineTag la = lineTag lb) : la = lb := by
  rw [← lineOf_setIndex hla key, hset, htag, lineOf_setIndex hlb]

end Sys2Proof.Machine

namespace Sys2Proof

open Sys2Proof.Machine

/-- Settles O41: the tag's part of the index is its own inverse under xor, so a line's low bits come back from its set, and
the line from set and tag. -/
theorem setIndexIsInvertible : Obligations.SetIndexIsInvertible := by
  refine ⟨fun la lb key d hla hlb _ => ?_, by decide, by decide, by decide, by decide⟩
  have hf2 : la / 2 ^ 28 % 2 ^ 14 = la / 2 ^ 28 := Nat.mod_eq_of_lt (by omega)
  have htag : lineTag la / 2 ^ 14 % 2 ^ 14 = lineTag la / 2 ^ 14 :=
    Nat.mod_eq_of_lt (by have := lineTag_lt la; omega)
  refine ⟨?index, setIndex_lt la key, rfl, lineTag_eq_div hla, lineTag_lt la, ?lowBits, lineOf_setIndex hla key, ?sameLine⟩
  case index => rw [setIndex, hf2]
  case lowBits => rw [← setIndex_xor_tagHash la key, tagHash, htag, Nat.xor_assoc]
  case sameLine =>
    intro hdiv hset
    refine eq_of_setIndex_eq_of_lineTag_eq hlb hla hset ?_
    rw [lineTag_eq_div hla, lineTag_eq_div hlb, hdiv]

end Sys2Proof
end

section
/-! Every command (O1 to O6): what a step runs, which commands complete, and what every command keeps. -/

set_option Elab.async false

namespace Sys2Proof

open Sys2Proof.Machine

/-! ### Completion (log entry 10) -/

/-- The check of a maintenance request in the command is that of a well-formed request. -/
theorem wfRequest_eq (r : Act × Nat) : wfRequest r =
    if r.1.ofArray && !(r.1 = .driveFw && r.2 = wholeDevice) then decide (r.2 < 16) else decide (r.2 = wholeDevice) := by
  obtain ⟨act, a⟩ := r
  by_cases ha : a = 0xFF <;> cases act <;> simp [wfRequest, Act.ofArray, wholeDevice, ha]

/-- A command that moves no bytes acts on the device when the unit it names exists, and it does where it is well-formed. -/
theorem Machine.exec_onUnit_of_wf (c : Instr) (h : Instr.movesBytes c = false) :
    ∃ (ok : Bool) (f : Dev → Dev), (c.wf = true → ok = true) ∧ ∀ s, exec c s = onUnit ok s f := by
  cases c with
  | arbiterRequest reqs =>
    refine ⟨_, _, fun hwf => ?_, fun _ => rfl⟩
    simpa only [Instr.wf, funext wfRequest_eq] using hwf
  | _ => first
    | exact absurd (show true = false from h) (by decide)
    | exact ⟨true, _, fun _ => rfl, fun _ => rfl⟩
    | exact ⟨_, _, fun hwf => hwf, fun _ => rfl⟩

theorem Machine.onUnit_eq_next {ok : Bool} {s t : State} {f : Dev → Dev} (h : onUnit ok s f = .next t) :
    t = { s with dev := (f s.dev).settle } := by
  cases ok
  · cases h
  · exact (Host.Outcome.next.inj h).symm

theorem Machine.onUnit_ne_refused (ok : Bool) (s : State) (f : Dev → Dev) (r : Refusal) : onUnit ok s f ≠ .refused r := by
  cases ok <;> simp [onUnit, State.act]

/-- The three commands that move bytes answer a next state where their channel exists. -/
theorem Machine.exec_of_movesBytes {c : Instr} (h : Instr.movesBytes c = true) (s : State) :
    (∃ t, exec c s = .next t) ∨ (c.wf = false ∧ exec c s = .fault .noSuchUnit) := by
  cases c with
  | hostReadCompletion tag data poisoned => exact .inl ⟨_, rfl⟩
  | bmeSetDone ch =>
    by_cases hch : ch < 8
    · exact .inl ⟨_, if_pos hch⟩
    · exact .inr ⟨decide_eq_false hch, if_neg hch⟩
  | bmeSetError ch e n =>
    by_cases hch : ch < 8
    · exact .inl ⟨_, if_pos hch⟩
    · exact .inr ⟨decide_eq_false hch, if_neg hch⟩
  | _ => exact absurd (show false = true from h) (by decide)

/-- Every command answers a next state, or is ill-formed and stops for a unit that the device lacks. -/
theorem Machine.exec_next_or_noSuchUnit (c : Instr) (s : State) :
    (∃ t, exec c s = .next t) ∨ (c.wf = false ∧ exec c s = .fault .noSuchUnit) := by
  cases hm : Instr.movesBytes c
  · obtain ⟨ok, f, hwf, hexec⟩ := exec_onUnit_of_wf c hm
    rw [hexec]
    cases ok
    · exact .inr ⟨Bool.eq_false_iff.mpr fun h => absurd (hwf h) (by decide), rfl⟩
    · exact .inl ⟨_, rfl⟩
  · exact exec_of_movesBytes hm s

/-- Settles O5: a command is `onUnit` of a check that a well-formed command passes, or one of the three that move bytes. -/
theorem wellFormedCommandsComplete : Obligations.WellFormedCommandsComplete := by
  refine ⟨fun c s hwf => ?_, fun c s r hr => ?_, fun c s r hr => ?_⟩
  all_goals rcases exec_next_or_noSuchUnit c s with ⟨t, ht⟩ | ⟨hill, hf⟩
  · exact ⟨t, ht⟩
  · exact absurd (hill.symm.trans hwf) (by decide)
  · cases ht.symm.trans hr
  · cases hf.symm.trans hr
  · cases ht.symm.trans hr
  · exact hill

/-! ### Steps -/

/-- Settles O1. -/
theorem stepRunsFrontCommand : Obligations.StepRunsFrontCommand := by
  intro c rest s hpending
  simp only [step, hpending]

/-- Settles O4: at power-on both RAMs are empty and no cause is set. -/
theorem invHoldsAtReset : Obligations.InvHoldsAtReset :=
  ⟨⟨rfl, rfl⟩, by unfold SumSeen; decide⟩

/-- The AON count runs beside the TMB count. -/
theorem Machine.TmbState.aonRun_keeps (t : TmbState) (n : Nat) : (t.aonRun n).sec = t.sec ∧ (t.aonRun n).ns = t.ns ∧
    (t.aonRun n).frac = t.frac ∧ (t.aonRun n).slewLeft = t.slewLeft ∧ (t.aonRun n).slew = t.slew ∧
    (t.aonRun n).setPending = t.setPending := ⟨rfl, rfl, rfl, rfl, rfl, rfl⟩

theorem Machine.Dev.stallRun_keeps (d : Dev) (n : Nat) : (d.stallRun n).tmb = d.tmb ∧ (d.stallRun n).ticks = d.ticks ∧
    (d.stallRun n).dram = d.dram ∧ (d.stallRun n).qmx = d.qmx ∧ (d.stallRun n).staged = d.staged := by
  unfold Dev.stallRun
  split <;> exact ⟨rfl, rfl, rfl, rfl, rfl⟩

/-- Without a pending value, the wrap of the seconds reloads the AON count only. -/
theorem Machine.Dev.wrapped_of_setPending_eq_none {d : Dev} (h : d.tmb.setPending = none) :
    d.wrapped = d.updTmb fun t => { t with aonSec := t.sec, aonSub := 0, aonFrac := 0 } := by
  simp only [Dev.wrapped, h]

/-- With main power up, no trim, no slew and no pending value, a tick adds 4 ns to the count (R369). -/
theorem Machine.Dev.tick_count {d : Dev} (hmain : d.sys.pdMain = true) (htrim : d.rd Reg.TMB_TRIM_trim = 0)
    (hslew : d.tmb.slewLeft = 0) (hfrac : d.tmb.frac = 0) (hset : d.tmb.setPending = none) :
    ∃ e : Dev, d.tick = e.stallRun 1 ∧ e.ticks = d.ticks + 1 ∧ e.dram = d.dram ∧ e.qmx = d.qmx ∧ e.staged = d.staged ∧
      e.tmb.ns = (d.tmb.ns + 4) % 1000000000 ∧ e.tmb.sec = (d.tmb.sec + (d.tmb.ns + 4) / 1000000000) % 2 ^ 34 := by
  have htrim' : ({ d with ticks := d.ticks + 1, tmb := d.tmb.aonRun 1 } : Dev).trim = 0 := by
    have hrd : ({ d with ticks := d.ticks + 1, tmb := d.tmb.aonRun 1 } : Dev).rd Reg.TMB_TRIM_trim = 0 := htrim
    simp only [Dev.trim, hrd]
    decide
  have hacc : (((0 : Nat) : Int) + ((1 : Nat) : Int) * (4 * 2 ^ 32 + 0) + ((min 1 0 : Nat) : Int) * d.tmb.slew).toNat / 2 ^ 34 * 4 = 4 := by
    simp only [Nat.min_zero, Nat.cast_zero, Nat.cast_one, zero_mul, one_mul, add_zero, zero_add]
    decide
  simp only [Dev.tick, Dev.passTicks, hmain, Dev.tickUnits, htrim', TmbState.aonRun_keeps, hfrac, hslew, hacc]
  simp only [Bool.not_true, Bool.false_eq_true, if_false]
  by_cases hwrap : (d.tmb.ns + 4) / 1000000000 = 0
  · rw [if_pos hwrap]
    exact ⟨_, rfl, rfl, rfl, rfl, rfl, rfl, rfl⟩
  · rw [if_neg hwrap, Dev.wrapped_of_setPending_eq_none (by exact hset)]
    exact ⟨_, rfl, rfl, rfl, rfl, rfl, rfl, rfl⟩

/-- Settles O2: with nothing pending a step is one tick. -/
theorem stepOnEmptyQueueTicks : Obligations.StepOnEmptyQueueTicks := by
  intro s hpending hmain htrim hslew hfrac hset hns hsec
  obtain ⟨e, htick, hticks, hdram, hqmx, hstaged, hens, hesec⟩ := Dev.tick_count hmain htrim hslew hfrac hset
  obtain ⟨ktmb, kticks, kdram, kqmx, kstaged⟩ := e.stallRun_keeps 1
  have hstep : step s = s.act Dev.tick := by simp only [step, hpending]
  refine ⟨{ s with dev := s.dev.tick.settle }, hstep, hpending, rfl, rfl, ?_⟩
  simp only [Dev.settle_keeps, htick, ktmb, kticks, kdram, kqmx, kstaged, hticks, hdram, hqmx, hstaged, hens, hesec,
    true_and, and_true]
  omega

/-! ### The record of R34's edge -/

/-- SYS_INT_SUM depends on the causes and on BLK_INT_EN alone. -/
theorem Machine.Dev.intSum_congr {d e : Dev} (hblks : e.nt.blks = d.nt.blks)
    (hspecific : ∀ b : Blk, e.rd (Reg.BLK_INT_EN_specific.ix b.page) = d.rd (Reg.BLK_INT_EN_specific.ix b.page))
    (hcommon : ∀ b : Blk, e.rd (Reg.BLK_INT_EN_common.ix b.page) = d.rd (Reg.BLK_INT_EN_common.ix b.page)) :
    e.intSum = d.intSum := by
  have hstat (b : Blk) : e.intStat b = d.intStat b := by
    simp only [Dev.intStat, Dev.intEn, Dev.note, hblks, hspecific, hcommon]
  simp only [Dev.intSum, hstat]

/-- Bringing the record up to date raises a vector at most, which changes no cause. -/
theorem Machine.Dev.showSum_sumLive (d : Dev) : d.showSum.nt.sumLive = decide (d.showSum.intSum ≠ 0) := by
  have hsum : d.showSum.intSum = d.intSum := by
    refine Dev.intSum_congr d.showSum_blks (fun b => ?_) (fun b => ?_)
    all_goals exact d.showSum_settles.fields _ (by cases b <;> decide)
  rw [hsum]
  simp only [Dev.showSum]

/-- Every command's end sees the change of SYS_INT_SUM. -/
theorem Machine.State.sumSeen_settle (s : State) (d : Dev) : SumSeen { s with dev := d.settle } := by
  have h := (allBlks.foldl Dev.showState d).showLtr.showSum_sumLive
  rwa [← Dev.settle] at h

/-! ### What the movers of bytes keep -/

/-- The RAMs do not depend on the device. -/
theorem Machine.State.ramsCanonical_dev {s : State} (d : Dev) (h : RamsCanonical s) : RamsCanonical { s with dev := d } := by
  obtain ⟨hscratch, hmailbox⟩ := h
  exact ⟨hscratch, hmailbox⟩

/-- The queue and the reports are as before, the RAMs stay canonical, BLK_INT_EN reads as before. -/
structure Machine.State.MovesBytes (s t : State) : Prop where
  pending : t.pending = s.pending
  canonical : RamsCanonical s → RamsCanonical t
  nt : t.dev.nt = s.dev.nt
  specific : ∀ b : Blk, t.dev.rd (Reg.BLK_INT_EN_specific.ix b.page) = s.dev.rd (Reg.BLK_INT_EN_specific.ix b.page)
  common : ∀ b : Blk, t.dev.rd (Reg.BLK_INT_EN_common.ix b.page) = s.dev.rd (Reg.BLK_INT_EN_common.ix b.page)

namespace Machine

theorem State.MovesBytes.refl (s : State) : State.MovesBytes s s := ⟨rfl, id, rfl, fun _ => rfl, fun _ => rfl⟩

theorem State.MovesBytes.trans {s t u : State} (h : State.MovesBytes s t) (k : State.MovesBytes t u) : State.MovesBytes s u :=
  ⟨k.pending.trans h.pending, fun hs => k.canonical (h.canonical hs), k.nt.trans h.nt,
    fun b => (k.specific b).trans (h.specific b), fun b => (k.common b).trans (h.common b)⟩

theorem State.MovesBytes.forEach {α : Type} {f : α → State → State} (h : ∀ x s, State.MovesBytes s (f x s)) (xs : List α) :
    ∀ s, State.MovesBytes s (forEach xs f s) := by
  induction xs with
  | nil => exact fun s => .refl s
  | cons x xs ih => exact fun s => (h x s).trans (ih (f x s))

/-- The record of R34's edge stays right where no cause and no enable changes. -/
theorem State.MovesBytes.sumSeen {s t : State} (h : State.MovesBytes s t) (hs : SumSeen s) : SumSeen t := by
  unfold SumSeen
  rw [h.nt, Dev.intSum_congr (congrArg _ h.nt) h.specific h.common]
  exact hs

/-- A change of the device that leaves register file and reports. -/
theorem State.movesBytes_of_regs {s : State} {d : Dev} (hnt : d.nt = s.dev.nt) (hregs : d.regs = s.dev.regs) :
    State.MovesBytes s { s with dev := d } :=
  ⟨rfl, id, hnt, fun b => by simp only [Dev.rd, hregs], fun b => by simp only [Dev.rd, hregs]⟩

theorem State.spaceWrite_movesBytes (s : State) (space a : Nat) (bs : Bytes) : State.MovesBytes s (s.spaceWrite space a bs) := by
  unfold State.spaceWrite
  dsimp only
  split
  · exact ⟨rfl, fun ⟨h, k⟩ => ⟨Memory.wf_putAll _ _ _ h, k⟩, rfl, fun _ => rfl, fun _ => rfl⟩
  · exact ⟨rfl, fun ⟨h, k⟩ => ⟨h, Memory.wf_putAll _ _ _ k⟩, rfl, fun _ => rfl, fun _ => rfl⟩

theorem State.racedWrite_movesBytes (s : State) (space a : Nat) (bs : Bytes) (raced : List (Nat × Nat)) :
    State.MovesBytes s (s.racedWrite space a bs raced) := by
  unfold State.racedWrite
  dsimp only
  split
  · exact s.spaceWrite_movesBytes space a bs
  · exact (s.spaceWrite_movesBytes space a _).trans (State.movesBytes_of_regs rfl rfl)

/-- The count of a channel's stored bytes is no field of a block header. -/
theorem State.wrDone_movesBytes (s : State) (c v : Nat) :
    State.MovesBytes s { s with dev := s.dev.wr (Reg.BME_CH_DONE_bytes.ix c) v } := by
  have hkey (b : Blk) : ∀ f ∈ [Reg.BLK_INT_EN_specific.ix b.page, Reg.BLK_INT_EN_common.ix b.page],
      f.key ≠ (Reg.BME_CH_DONE_bytes.ix c).key := by
    intro f hf
    cases b <;> simp [Fld.ix, Fld.key, Reg.BLK_INT_EN_specific, Reg.BLK_INT_EN_common, Reg.BME_CH_DONE_bytes, Blk.page] at hf ⊢ <;>
      rcases hf with rfl | rfl <;> dsimp only <;> omega
  exact ⟨rfl, id, rfl, fun b => Dev.rd_wr_other _ _ _ _ (hkey b _ (by simp)), fun b => Dev.rd_wr_other _ _ _ _ (hkey b _ (by simp))⟩

theorem State.bmeStore_movesBytes (fuel c : Nat) : ∀ s : State, State.MovesBytes s (State.bmeStore fuel c s) := by
  induction fuel with
  | zero => exact fun s => .refl s
  | succ n ih =>
    intro s
    unfold State.bmeStore
    dsimp only
    split
    · exact .refl s
    · next bs _ =>
      have hwritten := s.racedWrite_movesBytes (s.dev.rd (Reg.BME_ACT_CFG_dst_space.ix c))
        (s.dev.rd (Reg.BME_ACT_DST_addr.ix c) + s.dev.rd (Reg.BME_CH_DONE_bytes.ix c)) bs (s.dev.bmeCh c).raced
      have htaken (t : State) (g : BmeCh → BmeCh) : State.MovesBytes t { t with dev := t.dev.updBmeCh c g } :=
        State.movesBytes_of_regs rfl rfl
      exact ((hwritten.trans (htaken _ _)).trans (State.wrDone_movesBytes _ c _)).trans (ih _)

theorem State.bmeStoreAll_movesBytes (s : State) : State.MovesBytes s s.bmeStoreAll :=
  .forEach (fun c s => State.bmeStore_movesBytes _ c s) _ s

/-- What a set moves keeps the queue and the canonical form. -/
theorem State.bmeMove_keeps (s : State) (c lo hi : Nat) :
    (s.bmeMove c lo hi).pending = s.pending ∧ (RamsCanonical s → RamsCanonical (s.bmeMove c lo hi)) := by
  unfold State.bmeMove
  dsimp only
  split
  · exact ⟨rfl, State.ramsCanonical_dev _⟩
  · exact ⟨(s.racedWrite_movesBytes _ _ _ _).pending, (s.racedWrite_movesBytes _ _ _ _).canonical⟩

theorem State.bmeSetDone_keeps (s : State) (c : Nat) :
    (s.bmeSetDone c).pending = s.pending ∧ (RamsCanonical s → RamsCanonical (s.bmeSetDone c)) := by
  unfold State.bmeSetDone
  dsimp only
  have h := s.bmeMove_keeps c 0 (s.dev.bmeWindowPrefix c)
  split
  · exact ⟨rfl, State.ramsCanonical_dev _⟩
  · split
    · exact ⟨rfl, State.ramsCanonical_dev _⟩
    · split <;> exact ⟨h.1, fun hs => State.ramsCanonical_dev _ (h.2 hs)⟩

theorem State.bmeSetError_keeps (s : State) (c e n : Nat) :
    (s.bmeSetError c e n).pending = s.pending ∧ (RamsCanonical s → RamsCanonical (s.bmeSetError c e n)) := by
  unfold State.bmeSetError
  dsimp only
  split
  · exact ⟨rfl, State.ramsCanonical_dev _⟩
  · split
    · exact ⟨rfl, State.ramsCanonical_dev _⟩
    · exact ⟨(s.bmeMove_keeps c 0 _).1, fun hs => State.ramsCanonical_dev _ ((s.bmeMove_keeps c 0 _).2 hs)⟩

theorem exec_bmeSetDone (ch : Nat) (s : State) :
    exec (.bmeSetDone ch) s = if ch < 8 then (s.bmeSetDone ch).act id else .fault .noSuchUnit := rfl

theorem exec_bmeSetError (ch e n : Nat) (s : State) :
    exec (.bmeSetError ch e n) s = if ch < 8 then (s.bmeSetError ch e n).act id else .fault .noSuchUnit := rfl

theorem exec_hostReadCompletion (tag : Nat) (data : Bytes) (poisoned : Bool) (s : State) :
    exec (.hostReadCompletion tag data poisoned) s =
      .next ({ s with dev := (s.dev.hostData tag data poisoned).settle } : State).bmeStoreAll := rfl

/-- Every command keeps the queue and the canonical form, and leaves the record of R34's edge right. -/
theorem exec_keeps {c : Instr} {s t : State} (h : exec c s = .next t) :
    t.pending = s.pending ∧ (RamsCanonical s → RamsCanonical t) ∧ SumSeen t := by
  by_cases hm : Instr.movesBytes c = false
  · obtain ⟨ok, f, -, hexec⟩ := exec_onUnit_of_wf c hm
    rw [hexec] at h
    rw [onUnit_eq_next h]
    exact ⟨rfl, State.ramsCanonical_dev _, s.sumSeen_settle _⟩
  cases c with
  | hostReadCompletion tag data poisoned =>
    have k := State.bmeStoreAll_movesBytes { s with dev := (s.dev.hostData tag data poisoned).settle }
    rw [exec_hostReadCompletion] at h
    injection h with h
    rw [← h]
    exact ⟨k.pending, fun hs => k.canonical (State.ramsCanonical_dev _ hs), k.sumSeen (s.sumSeen_settle _)⟩
  | bmeSetDone ch =>
    rw [exec_bmeSetDone] at h
    split at h
    · injection h with h
      rw [← h]
      exact ⟨(s.bmeSetDone_keeps ch).1, fun hs => State.ramsCanonical_dev _ ((s.bmeSetDone_keeps ch).2 hs), State.sumSeen_settle _ _⟩
    · cases h
  | bmeSetError ch e n =>
    rw [exec_bmeSetError] at h
    split at h
    · injection h with h
      rw [← h]
      exact ⟨(s.bmeSetError_keeps ch e n).1, fun hs => State.ramsCanonical_dev _ ((s.bmeSetError_keeps ch e n).2 hs), State.sumSeen_settle _ _⟩
    · cases h
  | _ => exact absurd rfl hm

end Machine

/-- Settles O3: the RAMs are written byte by byte in canonical form, and every command ends with, or leaves alone, what keeps
the record of R34's edge. -/
theorem everyCommandKeepsInv : Obligations.EveryCommandKeepsInv := by
  have hexec (c : Instr) (s t : State) (hs : Inv s) (h : exec c s = .next t) : Inv t := by
    obtain ⟨-, hrams, hsum⟩ := exec_keeps h
    exact ⟨hrams hs.1, hsum⟩
  refine ⟨hexec, fun s t hs h => ?_⟩
  cases hq : s.pending with
  | nil =>
    simp only [step, hq] at h
    injection h with h
    rw [← h]
    exact ⟨State.ramsCanonical_dev _ hs.1, s.sumSeen_settle _⟩
  | cons c rest =>
    rw [stepRunsFrontCommand c rest s hq] at h
    exact hexec c { s with pending := rest } t hs h

/-- Settles O6: a command that moves no bytes changes the device only. -/
theorem queueAndRamsKept : Obligations.QueueAndRamsKept := by
  intro c s t h
  refine ⟨(exec_keeps h).1, fun hdone herror hcompletion a => ?_⟩
  have hm : Instr.movesBytes c = false := by
    cases c with
    | hostReadCompletion tag data poisoned => exact absurd rfl (hcompletion tag data poisoned)
    | bmeSetDone ch => exact absurd rfl (hdone ch)
    | bmeSetError ch e n => exact absurd rfl (herror ch e n)
    | _ => rfl
  obtain ⟨ok, f, -, hexec⟩ := exec_onUnit_of_wf c hm
  rw [hexec] at h
  rw [onUnit_eq_next h]
  exact ⟨rfl, rfl⟩

end Sys2Proof
end

section
/-! A host request on its way to a block: L1 ends and gated blocks wake (R37, R59); what it finds there, and what a request
that finds no link, or no function, leaves. -/

set_option Elab.async false

namespace Sys2Proof

open Sys2Proof.Machine

namespace Machine

/-! ### What a request wakes -/

/-- Whether a key of the register file is that of a BLK_POWER.pstate. -/
def pstateKey (k : Nat) : Bool := decide (k / 64 < 0xE0000) && decide (k % 64 = 0) && decide (k / 64 % 65536 = 0x30)

theorem pstateKey_pstate (b : Blk) : pstateKey (Reg.BLK_POWER_pstate.ix b.page).key = true := by cases b <;> decide

theorem stateKey_of_pstateKey {k : Nat} (h : pstateKey k = true) : stateKey k = true := by
  simp only [pstateKey, Bool.and_eq_true, decide_eq_true_eq] at h
  simp [stateKey, h]

/-- e is d after a host request has ended L1 and woken gated blocks: only the link's low-power state and BLK_POWER.pstate
differ. -/
structure Dev.Woken (d e : Dev) : Prop where
  same : e = { d with regs := e.regs, hif := { d.hif with link := e.hif.link } }
  up : e.linkUp = d.linkUp
  fields : ∀ f : Fld, pstateKey f.key = false → e.rd f = d.rd f

theorem Dev.Woken.refl (d : Dev) : Dev.Woken d d := ⟨rfl, rfl, fun _ _ => rfl⟩

theorem Dev.Woken.trans {a b c : Dev} (h : Dev.Woken a b) (k : Dev.Woken b c) : Dev.Woken a c := by
  refine ⟨?_, k.up.trans h.up, fun f hf => (k.fields f hf).trans (h.fields f hf)⟩
  have hs := h.same
  have ks := k.same
  rw [hs] at ks
  exact ks

theorem Dev.exitL1_woken (d : Dev) : Dev.Woken d d.exitL1 := by
  unfold Dev.exitL1
  split
  · next h => exact ⟨rfl, by simp [Dev.linkUp, h], fun _ _ => rfl⟩
  · exact .refl d

theorem Dev.ungate_woken (d : Dev) (b : Blk) : Dev.Woken d (d.ungate b) := by
  unfold Dev.ungate
  split
  · exact .refl d
  · refine ⟨rfl, rfl, fun f hf => Dev.rd_wr_other _ _ _ _ fun hkey => ?_⟩
    rw [hkey, pstateKey_pstate b] at hf
    exact absurd hf (by decide)

namespace Dev.Woken

variable {d e : Dev} (h : Dev.Woken d e)
include h

/-- A field that lies outside BLK_POWER reads as before. -/
theorem rd (f : Fld) (hf : pstateKey f.key = false := by decide) : e.rd f = d.rd f :=
  h.fields f hf

theorem keeps : e.staged = d.staged ∧ e.hiLatch = d.hiLatch ∧ e.heldLow = d.heldLow ∧ e.ticks = d.ticks ∧
    e.freeCtr = d.freeCtr ∧ e.emitted = d.emitted ∧ e.nt = d.nt ∧ e.sys = d.sys ∧ e.qmx = d.qmx ∧ e.lay = d.lay ∧
    e.dram = d.dram ∧ e.pwc = d.pwc ∧ e.smc = d.smc ∧ e.ece = d.ece ∧ e.dpx = d.dpx ∧ e.mnt = d.mnt ∧ e.vlt = d.vlt ∧
    e.bps = d.bps ∧ e.tmb = d.tmb ∧ e.ccx = d.ccx ∧ e.bme = d.bme := by
  rw [h.same]
  exact ⟨rfl, rfl, rfl, rfl, rfl, rfl, rfl, rfl, rfl, rfl, rfl, rfl, rfl, rfl, rfl, rfl, rfl, rfl, rfl, rfl, rfl⟩

theorem staged : e.staged = d.staged := h.keeps.1
theorem hiLatch : e.hiLatch = d.hiLatch := h.keeps.2.1
theorem heldLow : e.heldLow = d.heldLow := h.keeps.2.2.1
theorem emitted : e.emitted = d.emitted := by rw [h.same]
theorem nt : e.nt = d.nt := by rw [h.same]
theorem qmx : e.qmx = d.qmx := by rw [h.same]
theorem note (b : Blk) : e.note b = d.note b := by rw [h.same]; rfl
theorem ring (f : Nat) : e.ring f = d.ring f := by rw [h.same]; rfl
theorem fn (f : Nat) : e.fn f = d.fn f := by rw [h.same]; rfl
theorem vec (f v : Nat) : e.vec f v = d.vec f v := by rw [h.same]; rfl
theorem fnExists (f : Nat) : e.fnExists f = d.fnExists f := by rw [h.same]; rfl
theorem phase : e.phase = d.phase := h.rd _
theorem blkState (b : Blk) : e.blkState b = d.blkState b := h.fields _ (by cases b <;> decide)
theorem answers (a : Nat) : e.answers a = d.answers a := by simp only [Dev.answers, h.phase]
theorem locked (p : Blk) : e.locked p.page = d.locked p.page := by
  simp only [Dev.locked, h.fields (Reg.BLK_LOCK_lock.ix p.page) (by cases p <;> decide)]

end Dev.Woken

theorem Dev.arrival_woken (d : Dev) (b : Blk) : Dev.Woken d ((d.exitL1.ungate .hif).ungate b) :=
  (d.exitL1_woken.trans (Dev.ungate_woken _ _)).trans (Dev.ungate_woken _ _)

/-! ### Requests that a block gets, and others -/

theorem Dev.atFn_of_linkUp_eq_false {d : Dev} (h : d.linkUp = false) (f : Nat) (b : Blk) (g : Dev → Dev) : d.atFn f b g = d := by
  simp [Dev.atFn, h]

theorem Dev.atFn_of_reaches_eq_false {d : Dev} {f : Nat} (hup : d.linkUp = true) (h : d.reaches f = false) (b : Blk)
    (g : Dev → Dev) : d.atFn f b g = d.exitL1.logUr f := by
  simp [Dev.atFn, hup, h]

theorem Dev.atFn_of_hostReaches {d : Dev} {f : Nat} {b : Blk} (h : HostReaches d f b) (g : Dev → Dev) :
    d.atFn f b g = g ((d.exitL1.ungate .hif).ungate b) := by
  obtain ⟨hup, hreaches, hanswers⟩ := h
  simp [Dev.atFn, hup, hreaches, hanswers]

theorem Dev.errMessage_reports (d : Dev) (f kind : Nat) : Dev.Reports d (d.errMessage f kind) := by
  unfold Dev.errMessage
  exact .ite (d.exitL1_reports.trans (Dev.emit_reports _ _)) (.refl d)

theorem Dev.aerUncorrError_reports (d : Dev) (f bit : Nat) : Dev.Reports d (d.aerUncorrError f bit) := by
  unfold Dev.aerUncorrError
  exact .ite (Dev.updFn_reports _ _ _) ((Dev.updFn_reports _ _ _).trans (Dev.errMessage_reports _ _ _))

/-- An Unsupported Request is answered first, and logged in reports. -/
theorem Dev.logUr_reports (d : Dev) (f : Nat) : Dev.Reports (d.emit (.unsupported f)) (d.logUr f) := by
  unfold Dev.logUr
  exact .ite ((Dev.updFn_reports _ _ _).trans (Dev.aerUncorrError_reports _ _ _)) (.refl _)

end Machine

/-! ### Frames of requests -/

theorem Frame.of_woken {d e : Dev} (h : Dev.Woken d e) (fs : List Fld) (ps : List Part) : Frame d e fs ps := by
  refine ⟨fun f _ hf => h.fields f (Bool.eq_false_iff.mpr fun hp => ?_), fun p _ => ?_⟩
  · rw [stateKey_of_pstateKey hp] at hf
    exact absurd hf (by decide)
  · have hsame := h.same
    cases p <;> rw [hsame] <;> simp [Part.same]

/-- A change of staged values. -/
theorem Frame.setStaged {a d : Dev} {fs : List Fld} {ps : List Part} (h : Frame a d fs ps) (x : List (Nat × Nat))
    (hp : Part.staged ∈ ps := by decide) : Frame a { d with staged := x } fs ps :=
  h.setPart .staged (fun _ => rfl) (fun q hq => by cases q <;> simp_all [Part.same]) hp

/-- A change of the halves that are latched or held. -/
theorem Frame.setHalves {a d : Dev} {fs : List Fld} {ps : List Part} (h : Frame a d fs ps) (x y : Tbl Nat)
    (hp : Part.halves ∈ ps := by decide) : Frame a { d with hiLatch := x, heldLow := y } fs ps :=
  h.setPart .halves (fun _ => rfl) (fun q hq => by cases q <;> simp_all [Part.same]) hp

/-- A command at a block: what holds after its effect on the block as the request finds it. -/
theorem gives_of_exec_eq_atFn {c : Instr} {s : State} {f : Nat} {b : Blk} {g : Dev → Dev} {P : Dev → Prop}
    (hexec : exec c s = s.act fun d => d.atFn f b g) (h : HostReaches s.dev f b)
    (hP : ∀ d, Dev.Woken s.dev d → P (g d).settle) : Gives c s P := by
  refine gives_of_exec_eq_act hexec ?_
  rw [Dev.atFn_of_hostReaches h]
  exact hP _ (s.dev.arrival_woken b)

/-- A request that finds no link changes nothing (log entry 33). -/
theorem gives_frame_of_linkUp_eq_false {c : Instr} {s : State} {f : Nat} {b : Blk} {g : Dev → Dev}
    (hexec : exec c s = s.act fun d => d.atFn f b g) (h : s.dev.linkUp = false) : Gives c s fun e => Frame s.dev e [] [] := by
  refine gives_of_exec_eq_act hexec ?_
  rw [Dev.atFn_of_linkUp_eq_false h]
  exact (Frame.refl _ _ _).settle

/-- A request to a function that answers no memory request is answered Unsupported Request. -/
theorem gives_unsupported {c : Instr} {s : State} {f : Nat} {b : Blk} {g : Dev → Dev}
    (hexec : exec c s = s.act fun d => d.atFn f b g) (hup : s.dev.linkUp = true) (h : s.dev.reaches f = false) :
    Gives c s fun e => .unsupported f ∈ e.emitted ∧ Frame s.dev e [] [] := by
  refine gives_of_exec_eq_act hexec ?_
  rw [Dev.atFn_of_reaches_eq_false hup h]
  have hlog := s.dev.exitL1.logUr_reports f
  have hsent : (s.dev.exitL1.emit (.unsupported f)).emitted <:+ (s.dev.exitL1.logUr f).settle.emitted :=
    hlog.sent.trans (Dev.settle_sent _)
  have hframe : Frame s.dev s.dev.exitL1 [] [] := .of_woken s.dev.exitL1_woken _ _
  exact ⟨hsent.subset List.mem_cons_self, ((hframe.reports (Dev.emit_reports _ _)).reports hlog).settle⟩

end Sys2Proof
end

section
/-! Block headers (R30 to R37): error clear and locks. -/

set_option Elab.async false

namespace Sys2Proof

open Sys2Proof.Machine

theorem exec_errClr (b : Blk) (s : State) : exec (.errClr b) s = s.act fun d => d.atFn 0 b fun d => d.errClr b := rfl

theorem exec_lockSet (b : Blk) (bits : Dword) (s : State) :
    exec (.lockSet b bits) s = s.act fun d => d.atFn 0 b fun d => d.lockSet b bits.toNat := rfl

theorem exec_softReset (b : Blk) (s : State) :
    exec (.softReset b) s = s.act fun d => d.atFn 0 b fun d => d.softReset b := rfl

/-- The commands of O7 that a request brings to a block's page of PF0. -/
theorem exec_eq_atFn_of_mem {b : Blk} {bits : Dword} {c : Instr} (s : State)
    (h : c ∈ [Instr.errClr b, .lockSet b bits, .softReset b]) : ∃ g, exec c s = s.act fun d => d.atFn 0 b g := by
  simp only [List.mem_cons, List.not_mem_nil, or_false] at h
  rcases h with rfl | rfl | rfl
  · exact ⟨_, exec_errClr b s⟩
  · exact ⟨_, exec_lockSet b bits s⟩
  · exact ⟨_, exec_softReset b s⟩

/-- Setting a field's bits keeps the bits that are set. -/
theorem bitOf_or_mod (v w i n : Nat) (hi : i < n) : bitOf ((v ||| w) % 2 ^ n) i = (bitOf v i || w.testBit i) := by
  rw [bitOf_eq_testBit, bitOf_eq_testBit, Nat.testBit_mod_two_pow, Nat.testBit_or]
  simp [hi]

/-- Settles O7: both writes act on the page as the request finds it; without a link nothing happens (log entry 33). -/
theorem errorClearAndLocks : Obligations.ErrorClearAndLocks := by
  intro b bits s
  refine ⟨fun hdown c hc => ?_, fun hup hreaches c hc => ?_, fun h => ⟨?_, ?_⟩⟩
  · obtain ⟨g, hexec⟩ := exec_eq_atFn_of_mem s hc
    exact gives_frame_of_linkUp_eq_false hexec hdown
  · obtain ⟨g, hexec⟩ := exec_eq_atFn_of_mem s hc
    exact gives_unsupported hexec hup hreaches
  · refine gives_of_exec_eq_atFn (exec_errClr b s) h fun d hd => ?_
    have hframe : Frame s.dev (d.errClr b).settle [] [] :=
      ((Frame.of_woken hd _ _).reports (Dev.updNote_reports _ _ _)).settle
    obtain ⟨hcorr, huncorr, hcode, hts, -⟩ := (d.errClr b).settle_notesGrow b
    simp only [Dev.errClr, Dev.note_updNote] at hcorr huncorr hcode hts
    exact ⟨hcorr, huncorr, hcode, hts, hframe.1, hframe.part .staged, hframe.part .dram⟩
  · refine gives_of_exec_eq_atFn (exec_lockSet b bits s) h fun d hd => ?_
    have hframe : Frame s.dev (d.lockSet b bits.toNat).settle [Reg.BLK_LOCK_lock.ix b.page] [] :=
      ((Frame.of_woken hd _ _).wr _ _ (List.mem_singleton_self _)).settle
    refine ⟨fun i hi => ?_, hframe.1, hframe.part .staged, hframe.part .dram⟩
    have hlock : d.rd (Reg.BLK_LOCK_lock.ix b.page) = s.dev.rd (Reg.BLK_LOCK_lock.ix b.page) :=
      hd.fields _ (by cases b <;> decide)
    rw [Dev.settle_rd _ _ (by cases b <;> decide), Dev.lockSet, Dev.rd_wr_same, hlock]
    exact bitOf_or_mod _ _ _ _ hi

end Sys2Proof
end

section
/-! Register accesses of the host (R9, R26 to R28, R36): a write that is complete and aligned reaches the register at its
address, and what a read answers. -/

set_option Elab.async false

namespace Sys2Proof

open Sys2Proof.Machine

namespace Machine

/-! ### Writes that reach a register -/

theorem exec_registerWrite (w : BusWrite) (s : State) : exec (.registerWrite w) s = s.act fun d => d.busWrite w := rfl

theorem Dev.busWrite_bar0 {d : Dev} (hup : d.linkUp = true) (hreaches : d.reaches 0 = true) {a : Nat} {wide : Bool} (ha : a < 2 ^ 25)
    (haligned : a % (if wide then 8 else 4) = 0) (v : Qword) :
    d.busWrite ⟨0, .bar0, a, wide, true, v⟩ = (d.exitL1.ungate .hif).spaceWrite 0 a wide v.toNat := by
  have hsize : ¬ barSize 0 .bar0 ≤ a := not_le.mpr ha
  simp [Dev.busWrite, hup, hreaches, hsize, toBell, haligned, Dev.routeWrite]

/-- A write with partial byte enables is a bad access. -/
theorem Dev.busWrite_partial {d : Dev} (hup : d.linkUp = true) (hreaches : d.reaches 0 = true) {a : Nat} {wide : Bool}
    (ha : a < 2 ^ 25) (v : Qword) : d.busWrite ⟨0, .bar0, a, wide, false, v⟩ = (d.exitL1.ungate .hif).badAccess := by
  have hsize : ¬ barSize 0 .bar0 ≤ a := not_le.mpr ha
  simp [Dev.busWrite, hup, hreaches, hsize, toBell]

/-- The value that a write of one or two dwords gives to the registers at an address. -/
def Dev.writeAt (d : Dev) (a : Nat) (wide : Bool) (v : Nat) : Dev :=
  if wide then d.qwordWrite 0 a v else d.dwordWrite 0 a (v % 2 ^ 32)

theorem Dev.dwordWrite_of_regOf {d : Dev} {a : Nat} (hwide : wideAt a = false) (hreg : regOf a = a) (f v : Nat) :
    d.dwordWrite f a v = d.regWrite f a v := by
  simp [Dev.dwordWrite, hwide, hreg]

end Machine

/-- What holds after a complete, aligned write of PF0 to an address that answers, if it holds after the write acts on the
device as the request finds it. -/
theorem gives_registerWrite {s : State} {a : Nat} {wide : Bool} {v : Qword} {P : Dev → Prop} (hup : s.dev.linkUp = true)
    (hreaches : s.dev.reaches 0 = true) (hanswers : s.dev.answers a = true) (ha : a < 2 ^ 25)
    (haligned : a % (if wide then 8 else 4) = 0) (hP : ∀ d, Dev.Woken s.dev d → P (d.writeAt a wide v.toNat).settle) :
    Gives (.registerWrite ⟨0, .bar0, a, wide, true, v⟩) s P := by
  refine gives_of_exec_eq_act (exec_registerWrite _ s) ?_
  have hwoken := s.dev.exitL1_woken.trans (Dev.ungate_woken _ .hif)
  have hthere : (s.dev.exitL1.ungate .hif).answers a = true := (hwoken.answers a).trans hanswers
  rw [Dev.busWrite_bar0 hup hreaches ha haligned]
  simp only [Dev.spaceWrite, hthere, Bool.not_true, Bool.false_eq_true, if_false]
  exact hP _ (hwoken.trans (Dev.ungate_woken _ _))

end Sys2Proof
end

section
/-! The thermal limits (R338). -/

set_option Elab.async false

namespace Sys2Proof

open Sys2Proof.Machine

theorem exec_thermCfgWrite (v : Dword) (s : State) :
    exec (.thermCfgWrite v) s = s.act fun d => d.atFn 0 .sys fun d => d.thermCfg v.toNat := rfl

/-- The fields of SYS_THERM_CFG. -/
def thermFields : List Fld := [Reg.SYS_THERM_CFG_trip_c, Reg.SYS_THERM_CFG_throttle_c, Reg.SYS_THERM_CFG_warn_c,
  Reg.SYS_THERM_CFG_hyst_c]

theorem Machine.Dev.thermCfg_frame {a d : Dev} (h : Frame a d thermFields []) (v : Nat) :
    Frame a (d.thermCfg v) thermFields [] :=
  .ite h ((((h.wr _ _).wr _ _).wr _ _).wr _ _)

/-- A value held within a range below 2^8 is not cut by its field. -/
theorem Machine.clampNat_mod {lo hi v : Nat} (hlo : lo < 2 ^ 8) (hhi : hi < 2 ^ 8) : clampNat lo hi v % 2 ^ 8 = clampNat lo hi v :=
  Nat.mod_eq_of_lt (by unfold clampNat; omega)

/-- While the lock is clear every field takes its nearest value. -/
theorem Machine.Dev.thermCfg_rd {d : Dev} (h : d.locked 0 = false) (v : Nat) :
    (d.thermCfg v).rd Reg.SYS_THERM_CFG_trip_c = clampNat 105 115 (bitsOf v 31 24) ∧
    (d.thermCfg v).rd Reg.SYS_THERM_CFG_throttle_c = clampNat 90 (clampNat 105 115 (bitsOf v 31 24) - 5) (bitsOf v 23 16) ∧
    (d.thermCfg v).rd Reg.SYS_THERM_CFG_warn_c =
      clampNat 70 (clampNat 90 (clampNat 105 115 (bitsOf v 31 24) - 5) (bitsOf v 23 16)) (bitsOf v 15 8) ∧
    (d.thermCfg v).rd Reg.SYS_THERM_CFG_hyst_c = clampNat 2 10 (bitsOf v 7 0) := by
  have hother (e : Dev) (f g : Fld) (x : Nat) (h : g.key ≠ f.key := by decide) : (e.wr f x).rd g = e.rd g :=
    e.rd_wr_other f g x h
  have htrip (x : Nat) : clampNat 105 115 x - 5 < 2 ^ 8 := by unfold clampNat; omega
  have hthrottle (x y : Nat) : clampNat 90 (clampNat 105 115 x - 5) y < 2 ^ 8 := by unfold clampNat; omega
  simp only [Dev.thermCfg, h, Bool.false_eq_true, if_false]
  refine ⟨?_, ?_, ?_, ?_⟩
  · exact (hother _ _ _ _).trans ((hother _ _ _ _).trans ((hother _ _ _ _).trans ((Dev.rd_wr_same _ _ _).trans
      (clampNat_mod (by decide) (by decide)))))
  · exact (hother _ _ _ _).trans ((hother _ _ _ _).trans ((Dev.rd_wr_same _ _ _).trans
      (clampNat_mod (by decide) (htrip _))))
  · exact (hother _ _ _ _).trans ((Dev.rd_wr_same _ _ _).trans (clampNat_mod (by decide) (hthrottle _ _)))
  · exact (Dev.rd_wr_same _ _ _).trans (clampNat_mod (by decide) (by decide))

/-- Settles O12: the limits follow from one another in the order of the fields. -/
theorem thermalLimitsClamped : Obligations.ThermalLimitsClamped := by
  intro v s h
  refine ⟨fun hopen => ?_, fun hlocked => ?_⟩
  · refine gives_of_exec_eq_atFn (exec_thermCfgWrite v s) h fun d hd => ?_
    obtain ⟨htrip, hthrottle, hwarn, hhyst⟩ := Dev.thermCfg_rd ((hd.locked .sys).trans hopen) v.toNat
    have hframe := (Dev.thermCfg_frame (.of_woken hd _ _) v.toNat).settle
    have hsettle (f : Fld) (hf : stateKey f.key = false := by decide) :
        (d.thermCfg v.toNat).settle.rd f = (d.thermCfg v.toNat).rd f := Dev.settle_rd _ f hf
    have hv : v.toNat < 2 ^ 32 := v.isLt
    rw [hsettle Reg.SYS_THERM_CFG_trip_c, hsettle Reg.SYS_THERM_CFG_throttle_c, hsettle Reg.SYS_THERM_CFG_warn_c,
      hsettle Reg.SYS_THERM_CFG_hyst_c, htrip, hthrottle, hwarn, hhyst]
    simp only [clampNat, bitsOf]
    refine ⟨by omega, by omega, by omega, by omega, hframe.1⟩
  · refine gives_of_exec_eq_atFn (exec_thermCfgWrite v s) h fun d hd => ?_
    have hd' : d.thermCfg v.toNat = d := if_pos ((hd.locked .sys).trans hlocked)
    rw [hd']
    exact (Frame.of_woken hd [] []).settle.1

end Sys2Proof
end

section
/-! What a write of one register does (R9, R28, R36): the registers of O9 and O10. -/

set_option Elab.async false

namespace Sys2Proof

open Sys2Proof.Machine

/-! ### The registers at the addresses -/

theorem Machine.fieldsAt_intVec : fieldsAt 0x48 = [(Reg.SYS_INT_VEC_vec, [])] := by decide +kernel
theorem Machine.fieldsAt_sysId : fieldsAt 0x40 =
    [(Reg.SYS_ID_stepping, []), (Reg.SYS_ID_member, []), (Reg.SYS_ID_grade, [])] := by decide +kernel
theorem Machine.fieldsAt_ceilCfg : fieldsAt 0x50060 =
    [(Reg.PWC_CEIL_CFG_margin_pct, []), (Reg.PWC_CEIL_CFG_floor_gib, []), (Reg.PWC_CEIL_CFG_max_gib, [])] := by decide +kernel
theorem Machine.fieldsAt_winBase : fieldsAt 0xB0040 = [(Reg.BME_WIN_BASE_base, [])] := by decide +kernel

/-- No 64-bit register begins at the registers of O9, nor before them. -/
theorem Machine.narrow : (∀ a ∈ [0x48, 0x40, 0x50060], wideAt a = false ∧ regOf a = a) ∧
    ∀ b : Blk, wideAt (b.page * 65536 + 0x18) = false ∧ regOf (b.page * 65536 + 0x18) = b.page * 65536 + 0x18 := by
  refine ⟨by decide +kernel, fun b => ?_⟩
  cases b <;> decide +kernel

theorem Machine.winBase_wide : wideAt 0xB0040 = true ∧ wideAt 0xB0044 = false ∧ regOf 0xB0044 = 0xB0040 := by decide +kernel

/-- Such a register is written by one dword. -/
theorem Machine.Dev.writeAt_narrow {a : Nat} (h : wideAt a = false ∧ regOf a = a) (d : Dev) (v : Nat) :
    d.writeAt a false v = d.regWrite 0 a (v % 2 ^ 32) := by
  simp only [Dev.writeAt, Bool.false_eq_true, if_false, Dev.dwordWrite_of_regOf h.1 h.2]

/-! ### The effect of each write (R9) -/

theorem Machine.Dev.regWrite_intVec (d : Dev) (v : Nat) :
    d.regWrite 0 0x48 v = d.wr Reg.SYS_INT_VEC_vec (Reg.SYS_INT_VEC_vec.of v) := by
  have h : d.regWrite 0 0x48 v = (d.plainWrite 0x48 v).woWrite 0x48 v := rfl
  rw [h, Dev.woWrite, Dev.plainWrite, fieldsAt_intVec]
  rfl

theorem Machine.Dev.regWrite_sysId (d : Dev) (v : Nat) : d.regWrite 0 0x40 v = d := by
  have h : d.regWrite 0 0x40 v = (d.plainWrite 0x40 v).woWrite 0x40 v := rfl
  rw [h, Dev.woWrite, Dev.plainWrite, fieldsAt_sysId]
  rfl

theorem Machine.Dev.regWrite_raw (d : Dev) (b : Blk) (v : Nat) :
    d.regWrite 0 (b.page * 65536 + 0x18) v = d.rawClear b v := by cases b <;> rfl

/-- A write of the Ceiling's configuration is one of its three RWS fields. -/
theorem Machine.Dev.regWrite_ceilCfg (d : Dev) (v : Nat) : d.regWrite 0 0x50060 v =
    ((d.fieldWrite Reg.PWC_CEIL_CFG_margin_pct (Reg.PWC_CEIL_CFG_margin_pct.of v)).fieldWrite
      Reg.PWC_CEIL_CFG_floor_gib (Reg.PWC_CEIL_CFG_floor_gib.of v)).fieldWrite
      Reg.PWC_CEIL_CFG_max_gib (Reg.PWC_CEIL_CFG_max_gib.of v) := by
  have h : d.regWrite 0 0x50060 v = (d.plainWrite 0x50060 v).woWrite 0x50060 v := rfl
  rw [h, Dev.woWrite, Dev.plainWrite, fieldsAt_ceilCfg]
  rfl

/-- An RWS field of PWC stages the value, or the write is refused while the commit is busy. -/
theorem Machine.Dev.fieldWrite_rws (d : Dev) (f : Fld) (x : Nat) (hacc : f.acc = .rws := by decide)
    (howner : commitOwner f.base = some .pwc := by decide) :
    d.fieldWrite f x = if d.rdB (Reg.COMMIT_STAT_busy.ix 5) then d.refuse .pwc else d.wrStaged f x := by
  simp only [Dev.fieldWrite, hacc, howner]
  rfl

/-- A staged write of one field leaves the staged value of every other. -/
theorem Machine.Dev.rdStaged_wrStaged_other (d : Dev) (f g : Fld) (v : Nat) (h : g.key ≠ f.key) :
    (d.wrStaged f v).rdStaged g = d.rdStaged g := by
  simp only [Dev.rdStaged, Dev.wrStaged_rd]
  exact Tbl.getD_putD_other _ _ _ _ _ _ h

theorem Machine.Dev.regWrite_winBase (d : Dev) (v : Nat) : d.regWrite 0 0xB0040 v =
    if d.locked 11 then d else d.wr Reg.BME_WIN_BASE_base (Reg.BME_WIN_BASE_base.of v) := by
  have h : d.regWrite 0 0xB0040 v = (d.plainWrite 0xB0040 v).woWrite 0xB0040 v := rfl
  have hpage : lockPage Reg.BME_WIN_BASE_base = 11 := by decide
  rw [h, Dev.woWrite, Dev.plainWrite, fieldsAt_winBase]
  show d.fieldWrite Reg.BME_WIN_BASE_base _ = _
  simp only [Dev.fieldWrite, show Reg.BME_WIN_BASE_base.acc = .rwl from rfl, hpage]

/-! ### The causes that the end of a command may set -/

/-- Whether two numbers agree in every bit but that of state_change. -/
def Machine.Dev.CausesButState (d e : Dev) : Prop :=
  ∀ (b : Blk) (i : Nat), i ≠ 2 → bitOf (e.note b).raw i = bitOf (d.note b).raw i

theorem Machine.Dev.CausesButState.trans {a b c : Dev} (h : Dev.CausesButState a b) (k : Dev.CausesButState b c) :
    Dev.CausesButState a c := fun x i hi => (k x i hi).trans (h x i hi)

theorem Machine.Dev.CausesButState.same {d e : Dev} (h : e.nt.blks = d.nt.blks) : Dev.CausesButState d e :=
  fun b i _ => by simp only [Dev.note, h]

theorem Machine.Dev.setState_causes (d : Dev) (a : Blk) (st : Nat) : Dev.CausesButState d (d.setState a st) := by
  unfold Dev.setState
  split
  · exact .same rfl
  · intro b i hi
    by_cases hb : b = a
    · subst hb
      have hfour : Nat.testBit 4 i = false := by
        rw [show 4 = 2 ^ 2 from rfl, Nat.testBit_two_pow]
        exact decide_eq_false (Ne.symm hi)
      simp only [Dev.cause, Dev.note_updNote, bitOf_eq_testBit, Nat.testBit_or, hfour, Bool.or_false]
      rfl
    · rw [Dev.cause, Dev.note_updNote_other _ _ _ _ hb]
      rfl

theorem Machine.Dev.setState_if_causes {d e : Dev} (b : Blk) (st : Nat) (c : Prop) [Decidable c] (h : e.nt.blks = d.nt.blks) :
    Dev.CausesButState d (if c then e.setState b st else e) := by
  split
  · exact .trans (.same h) (Dev.setState_causes _ _ _)
  · exact .same h

theorem Machine.Dev.showState_causes (d : Dev) (b : Blk) : Dev.CausesButState d (d.showState b) := by
  have h : (if d.working b then d.ungate b else d).nt.blks = d.nt.blks := by split; exact d.ungate_blks b; rfl
  unfold Dev.showState
  exact Dev.setState_if_causes b _ _ h

/-- The end of a command may set state_change and no other cause. -/
theorem Machine.Dev.settle_causes (d : Dev) : Dev.CausesButState d d.settle := by
  have h : ∀ (bs : List Blk) (d : Dev), Dev.CausesButState d (bs.foldl Dev.showState d) := by
    intro bs
    induction bs with
    | nil => exact fun d => .same rfl
    | cons b r ih => exact fun d => (d.showState_causes b).trans (ih _)
  exact ((h allBlks d).trans (.same (Dev.showLtr_blks _))).trans (.same (Dev.showSum_blks _))

/-- Clearing causes clears those that are written 1. -/
theorem Machine.bitOf_clear (v w i : Nat) : bitOf (v ^^^ (v &&& w)) i = (bitOf v i && !w.testBit i) := by
  simp only [bitOf_eq_testBit, Nat.testBit_xor, Nat.testBit_and]
  cases v.testBit i <;> simp

/-- refused is raised where a block refuses. -/
theorem Machine.Dev.refuse_raised (d : Dev) (b : Blk) : Raised (d.refuse b) b 3 := by
  unfold Raised Dev.refuse Dev.cause
  rw [Dev.note_updNote, bitOf_eq_testBit, Nat.testBit_or, show (8 : Nat) = 2 ^ 3 from rfl, Nat.testBit_two_pow_self,
    Bool.or_true]

theorem Machine.Dev.causeBit_raised (d : Dev) (b : Blk) (i : Nat) : Raised (d.causeBit b i) b i := by
  unfold Raised Dev.causeBit Dev.cause
  rw [Dev.note_updNote, bitOf_eq_testBit, Nat.testBit_or, Nat.testBit_two_pow_self, Bool.or_true]

/-! ### O9 -/

/-- What a write of PWC_CEIL_CFG does to staged values, or to causes while the commit is busy. -/
theorem Machine.Dev.regWrite_ceilCfg_staged {d : Dev} (h : d.rdB (Reg.COMMIT_STAT_busy.ix 5) = false) (v : Nat) :
    (d.regWrite 0 0x50060 v).rdStaged Reg.PWC_CEIL_CFG_floor_gib = Reg.PWC_CEIL_CFG_floor_gib.of v ∧
    (d.regWrite 0 0x50060 v).regs = d.regs ∧ Frame d (d.regWrite 0 0x50060 v) [] [.staged] := by
  have hfree (e : Dev) (f : Fld) (x : Nat) (he : e.rdB (Reg.COMMIT_STAT_busy.ix 5) = false) (hacc : f.acc = .rws := by decide)
      (howner : commitOwner f.base = some .pwc := by decide) : e.fieldWrite f x = e.wrStaged f x := by
    rw [e.fieldWrite_rws f x hacc howner, he]
    rfl
  have hlt : Reg.PWC_CEIL_CFG_floor_gib.of v < 2 ^ 8 := Nat.mod_lt _ (by decide)
  rw [d.regWrite_ceilCfg, hfree d _ _ h, hfree (d.wrStaged _ _) _ _ h, hfree ((d.wrStaged _ _).wrStaged _ _) _ _ h]
  refine ⟨?_, rfl, ?_⟩
  · rw [Dev.rdStaged_wrStaged_other _ _ _ _ (by decide), Dev.rdStaged_wrStaged_same]
    exact Nat.mod_eq_of_lt hlt
  · exact (((Frame.refl d _ _).setStaged _).setStaged _).setStaged _

theorem Machine.Dev.regWrite_ceilCfg_busy {d : Dev} (h : d.rdB (Reg.COMMIT_STAT_busy.ix 5) = true) (v : Nat) :
    d.regWrite 0 0x50060 v = ((d.refuse .pwc).refuse .pwc).refuse .pwc := by
  have hbusy (e : Dev) (f : Fld) (x : Nat) (he : e.rdB (Reg.COMMIT_STAT_busy.ix 5) = true) (hacc : f.acc = .rws := by decide)
      (howner : commitOwner f.base = some .pwc := by decide) : e.fieldWrite f x = e.refuse .pwc := by
    rw [e.fieldWrite_rws f x hacc howner, he]
    rfl
  rw [d.regWrite_ceilCfg, hbusy d _ _ h, hbusy (d.refuse .pwc) _ _ h, hbusy ((d.refuse .pwc).refuse .pwc) _ _ h]

/-- Settles O9: each register's write is its fields' writes by access code; a partial write is only a bad access. -/
theorem registerWriteByAccessCode : Obligations.RegisterWriteByAccessCode := by
  intro v b s hup hreaches hpwc hb
  have hlow (a : Nat) (ha : a < 0x20000) : s.dev.answers a = true := by simp [Dev.answers, ha]
  have hpage : b.page < 14 := by cases b <;> decide
  refine ⟨?intVec, ?raw, ?sysId, fun hfree => ?staged, fun hbusy => ?busy, fun a wide ha => ?badAccess⟩
  case intVec =>
    refine gives_registerWrite hup hreaches (hlow _ (by decide)) (by decide) (by decide) fun d hd => ?_
    rw [Dev.writeAt_narrow (narrow.1 _ (by decide)), Dev.regWrite_intVec]
    have hframe : Frame s.dev (d.wr Reg.SYS_INT_VEC_vec (Reg.SYS_INT_VEC_vec.of (v.toNat % 2 ^ 32))).settle
        [Reg.SYS_INT_VEC_vec] [] := ((Frame.of_woken hd _ _).wr _ _).settle
    refine ⟨?_, hframe.1, hframe.part .staged⟩
    rw [Dev.settle_rd _ _ (by decide), Dev.rd_wr_same]
    show v.toNat % 2 ^ 32 / 2 ^ 0 % 2 ^ 11 % 2 ^ 11 = _
    omega
  case raw =>
    have hanswers : s.dev.answers (b.page * 65536 + 0x18) = true := by
      cases b
      case sys => exact hlow _ (by decide)
      case hif => exact hlow _ (by decide)
      all_goals exact hb
    refine gives_registerWrite hup hreaches hanswers (by omega) (by simp; omega) fun d hd => ?_
    rw [Dev.writeAt_narrow (narrow.2 b), Dev.regWrite_raw]
    have hframe : Frame s.dev (d.rawClear b (v.toNat % 2 ^ 32)).settle [] [] :=
      ((Frame.of_woken hd _ _).reports (Dev.updNote_reports _ _ _)).settle
    refine ⟨fun i hi hchange => ?_, hframe.1, hframe.part .staged⟩
    rw [Dev.settle_causes _ b i hchange, Dev.rawClear, Dev.note_updNote, bitOf_clear, hd.note, Nat.testBit_mod_two_pow]
    simp [hi, BitVec.getLsbD]
  case sysId =>
    refine gives_registerWrite hup hreaches (hlow _ (by decide)) (by decide) (by decide) fun d hd => ?_
    rw [Dev.writeAt_narrow (narrow.1 _ (by decide)), Dev.regWrite_sysId]
    have hframe : Frame s.dev d.settle [] [] := (Frame.of_woken hd _ _).settle
    exact ⟨hframe.1, hframe.part .staged⟩
  case staged =>
    refine gives_registerWrite hup hreaches hpwc (by decide) (by decide) fun d hd => ?_
    have hbusy : d.rdB (Reg.COMMIT_STAT_busy.ix 5) = false := by rw [Dev.rdB, hd.rd (Reg.COMMIT_STAT_busy.ix 5)]; exact hfree
    obtain ⟨hfloor, hregs, hframe⟩ := Dev.regWrite_ceilCfg_staged hbusy (v.toNat % 2 ^ 32)
    have hframe' := ((Frame.of_woken hd [] [.staged]).trans hframe).settle
    show _ ∧ _
    rw [Dev.writeAt_narrow (a := Reg.PWC_CEIL_CFG_floor_gib.base) (narrow.1 _ (by decide))]
    refine ⟨?_, hframe'.1⟩
    have hsettle : (d.regWrite 0 0x50060 (v.toNat % 2 ^ 32)).settle.rdStaged Reg.PWC_CEIL_CFG_floor_gib =
        (d.regWrite 0 0x50060 (v.toNat % 2 ^ 32)).rdStaged Reg.PWC_CEIL_CFG_floor_gib := by
      simp only [Dev.rdStaged, Dev.settle_keeps, Dev.settle_rd _ Reg.PWC_CEIL_CFG_floor_gib (by decide)]
    refine hsettle.trans (hfloor.trans ?_)
    show v.toNat % 2 ^ 32 / 2 ^ 16 % 2 ^ 8 = v.toNat / 2 ^ 16 % 2 ^ 8
    omega
  case busy =>
    refine gives_registerWrite hup hreaches hpwc (by decide) (by decide) fun d hd => ?_
    have hbusy' : d.rdB (Reg.COMMIT_STAT_busy.ix 5) = true := by rw [Dev.rdB, hd.rd (Reg.COMMIT_STAT_busy.ix 5)]; exact hbusy
    rw [Dev.writeAt_narrow (a := Reg.PWC_CEIL_CFG_floor_gib.base) (narrow.1 _ (by decide))]
    have hwrite := Dev.regWrite_ceilCfg_busy hbusy' (v.toNat % 2 ^ 32)
    rw [show Reg.PWC_CEIL_CFG_floor_gib.base = 0x50060 from rfl, hwrite]
    have hframe : Frame s.dev (((d.refuse .pwc).refuse .pwc).refuse .pwc).settle [] [] :=
      ((((Frame.of_woken hd _ _).reports (Dev.refuse_reports _ _)).reports (Dev.refuse_reports _ _)).reports
        (Dev.refuse_reports _ _)).settle
    exact ⟨Dev.settle_raised _ _ _ (Dev.refuse_raised _ _), hframe.1, hframe.part .staged⟩
  case badAccess =>
    refine gives_of_exec_eq_act (exec_registerWrite _ s) ?_
    rw [Dev.busWrite_partial hup hreaches ha]
    have hframe : Frame s.dev (s.dev.exitL1.ungate .hif).badAccess.settle [] [] :=
      ((Frame.of_woken (s.dev.exitL1_woken.trans (Dev.ungate_woken _ _)) _ _).reports (Dev.causeBit_reports _ _ _)).settle
    exact ⟨Dev.settle_raised _ _ _ (Dev.causeBit_raised _ _ _), hframe.1, hframe.part .staged, (hframe.part .halves).2,
      hframe.part .dram⟩

end Sys2Proof
end

section
/-! The two halves of a 64-bit register (R28), of BME_WIN_BASE for writes and of any register for reads. -/

set_option Elab.async false

namespace Sys2Proof

open Sys2Proof.Machine

/-! ### BME_WIN_BASE -/

theorem Machine.Dev.rd_winBase_wr (d : Dev) (v : Nat) (hv : v < 2 ^ 64) :
    (d.wr Reg.BME_WIN_BASE_base (Reg.BME_WIN_BASE_base.of v)).settle.rd Reg.BME_WIN_BASE_base = v / 4096 := by
  rw [Dev.settle_rd _ _ (by decide), Dev.rd_wr_same]
  show v / 2 ^ 12 % 2 ^ 52 % 2 ^ 52 = _
  omega

/-- The completed value takes effect while the lock is clear; the held half may be used up with it. -/
theorem Machine.Dev.regWrite_winBase_open {s d : Dev} {lows : Tbl Nat} (hd : Dev.Woken s d) (hopen : s.locked 11 = false) {v : Nat}
    (hv : v < 2 ^ 64) :
    let e := (({ d with heldLow := lows } : Dev).regWrite 0 0xB0040 v).settle
    e.rd Reg.BME_WIN_BASE_base = v / 4096 ∧ e.heldLow = lows ∧ OnlyFields s e [Reg.BME_WIN_BASE_base] := by
  have hopen' : ({ d with heldLow := lows } : Dev).locked 11 = false := (hd.locked .bme).trans hopen
  have hframe : Frame s (({ d with heldLow := lows } : Dev).wr Reg.BME_WIN_BASE_base (Reg.BME_WIN_BASE_base.of v)).settle
      [Reg.BME_WIN_BASE_base] [.halves] :=
    (((Frame.of_woken hd _ _).setHalves d.hiLatch lows).wr _ _).settle
  simp only [Dev.regWrite_winBase, hopen', Bool.false_eq_true, if_false]
  exact ⟨Dev.rd_winBase_wr _ _ hv, by simp, hframe.1⟩

theorem Machine.Dev.writeAt_winLow (d : Dev) (v : Nat) :
    d.writeAt 0xB0040 false v = { d with heldLow := Tbl.put d.heldLow 0xB0040 (v % 2 ^ 32) } := by
  simp only [Dev.writeAt, Bool.false_eq_true, if_false, Dev.dwordWrite, winBase_wide.1, if_true]

theorem Machine.Dev.writeAt_winWide (d : Dev) (v : Nat) :
    d.writeAt 0xB0040 true v = ({ d with heldLow := Tbl.erase d.heldLow 0xB0040 } : Dev).regWrite 0 0xB0040 v := by
  simp only [Dev.writeAt, if_true, Dev.qwordWrite, winBase_wide.1]

theorem Machine.Dev.writeAt_winHigh (d : Dev) (v : Nat) :
    d.writeAt 0xB0044 false v = ({ d with heldLow := Tbl.erase d.heldLow 0xB0040 } : Dev).regWrite 0 0xB0040
      (v % 2 ^ 32 * 2 ^ 32 + (Tbl.get? d.heldLow 0xB0040).getD (d.lowPair 0xB0040)) := by
  obtain ⟨-, hhigh, hreg⟩ := winBase_wide
  have hne : ¬ (0xB0040 : Nat) = 0xB0044 := by decide
  simp only [Dev.writeAt, Bool.false_eq_true, if_false, Dev.dwordWrite, hhigh, hreg, hne]
  cases Tbl.get? d.heldLow 0xB0040 <;> rfl

/-- Where no half is held, the high half is paired with the live value's low half. -/
theorem Machine.Dev.lowPair_winBase (d : Dev) : d.lowPair 0xB0040 = d.rd Reg.BME_WIN_BASE_base * 4096 % 2 ^ 32 := by
  rw [Dev.lowPair, fieldsAt_winBase]
  show (d.rd Reg.BME_WIN_BASE_base * 2 ^ 12 + 0) % 2 ^ 32 = _
  omega

/-- Settles O10: the high half, or a 64-bit write, completes the value, which the lock may hold off. -/
theorem wideRegisterHalves : Obligations.WideRegisterHalves := by
  intro v low s hup hreaches hanswers
  have hhalf (x : Nat) : x % 2 ^ 32 < 2 ^ 32 := Nat.mod_lt _ (by decide)
  have hwrite {a : Nat} {wide : Bool} {P : Dev → Prop} (ha : a = 0xB0040 ∨ a = 0xB0044 ∧ wide = false)
      (hP : ∀ d, Dev.Woken s.dev d → P (d.writeAt a wide v.toNat).settle) :
      Gives (.registerWrite ⟨0, .bar0, a, wide, true, v⟩) s P := by
    have hthere : s.dev.answers a = true := by rcases ha with rfl | ⟨rfl, -⟩ <;> exact hanswers
    refine gives_registerWrite hup hreaches hthere ?_ ?_ hP
    · omega
    · rcases ha with rfl | ⟨rfl, rfl⟩
      · cases wide <;> decide
      · decide
  refine ⟨?low, fun hopen hheld => ?paired, fun hopen hheld => ?alone, fun hopen => ?wide, fun hlocked => ?locked⟩
  case low =>
    refine hwrite (.inl rfl) fun d hd => ?_
    rw [d.writeAt_winLow]
    have hframe := ((Frame.of_woken hd [] [.halves]).setHalves d.hiLatch
      (Tbl.put d.heldLow 0xB0040 (v.toNat % 2 ^ 32))).settle
    exact ⟨hframe.1, by simp [Tbl.get?_put_same]⟩
  case paired =>
    refine hwrite (.inr ⟨rfl, rfl⟩) fun d hd => ?_
    rw [d.writeAt_winHigh, hd.heldLow, hheld]
    obtain ⟨hrd, hlow, hfields⟩ := Dev.regWrite_winBase_open (lows := Tbl.erase s.dev.heldLow 0xB0040) hd hopen
      (v := v.toNat % 2 ^ 32 * 2 ^ 32 + low.toNat % 2 ^ 32) (by have := hhalf v.toNat; have := hhalf low.toNat; omega)
    exact ⟨hrd, by rw [Option.getD_some, hlow]; exact Tbl.get?_erase_same _ _, hfields⟩
  case alone =>
    refine hwrite (.inr ⟨rfl, rfl⟩) fun d hd => ?_
    rw [d.writeAt_winHigh, hd.heldLow, hheld, Option.getD_none, d.lowPair_winBase, hd.rd Reg.BME_WIN_BASE_base]
    obtain ⟨hrd, -, hfields⟩ := Dev.regWrite_winBase_open (lows := Tbl.erase s.dev.heldLow 0xB0040) hd hopen
      (v := v.toNat % 2 ^ 32 * 2 ^ 32 + s.dev.rd Reg.BME_WIN_BASE_base * 4096 % 2 ^ 32)
      (by have := hhalf v.toNat; have := hhalf (s.dev.rd Reg.BME_WIN_BASE_base * 4096); omega)
    exact ⟨hrd, hfields⟩
  case wide =>
    refine hwrite (.inl rfl) fun d hd => ?_
    rw [d.writeAt_winWide]
    obtain ⟨hrd, -, hfields⟩ := Dev.regWrite_winBase_open (lows := Tbl.erase d.heldLow 0xB0040) hd hopen v.isLt
    exact ⟨hrd, hfields⟩
  case locked =>
    refine hwrite (.inl rfl) fun d hd => ?_
    have hlocked' : ({ d with heldLow := Tbl.erase d.heldLow 0xB0040 } : Dev).locked 11 = true :=
      (hd.locked .bme).trans hlocked
    rw [d.writeAt_winWide, Dev.regWrite_winBase, hlocked', if_pos rfl]
    exact ((Frame.of_woken hd [] [.halves]).setHalves d.hiLatch (Tbl.erase d.heldLow 0xB0040)).settle.1

/-! ### Reads -/

theorem exec_lowDwordRead (f : Nat) (r : BusRead) (s : State) :
    exec (.lowDwordRead f r) s = s.act fun d => d.busRead f r := rfl

/-- A read that reaches a BAR answers what the space holds as the request finds it. -/
theorem Machine.Dev.busRead_of_reaches {d : Dev} {f : Nat} {r : BusRead} (hup : d.linkUp = true) (hreaches : d.reaches f = true)
    (h : r.addr < barSize f r.space) : d.busRead f r =
      ((d.exitL1.ungate .hif).spaceRead f r).1.emit
        (.reply (enabledBytes r.enables ((d.exitL1.ungate .hif).spaceRead f r).2)) := by
  have hsize : ¬ barSize f r.space ≤ r.addr := not_le.mpr h
  simp [Dev.busRead, hup, hreaches, hsize]

/-- What a read answers and leaves: e is the device after it, x the data. -/
theorem gives_read {s : State} {f : Nat} {r : BusRead} {e : Dev} {x : Nat} (hup : s.dev.linkUp = true) (hreaches : s.dev.reaches f = true)
    (h : r.addr < barSize f r.space) (hread : (s.dev.exitL1.ungate .hif).spaceRead f r = (e, x))
    (hframe : Frame s.dev e [] [.halves]) (hsent : e.emitted = s.dev.emitted) :
    Gives (.lowDwordRead f r) s fun t => (.reply (enabledBytes r.enables x) :: s.dev.emitted) <:+ t.emitted ∧
      t.hiLatch = e.hiLatch ∧ OnlyFields s.dev t [] ∧ t.staged = s.dev.staged := by
  refine gives_of_exec_eq_act (exec_lowDwordRead f r s) ?_
  rw [Dev.busRead_of_reaches hup hreaches h, hread]
  have hend : Frame s.dev (e.emit (.reply (enabledBytes r.enables x))).settle [] [.halves] :=
    (hframe.reports (Dev.emit_reports _ _)).settle
  refine ⟨?_, by simp, hend.1, hend.part .staged⟩
  rw [← hsent]
  exact (e.emit _).settle_sent

/-- A dword read of PF0's BAR0 looks at the latch of R28. -/
theorem Machine.Dev.spaceRead_bar0 (d : Dev) (a n : Nat) (ha : a % 4 = 0) :
    d.spaceRead 0 ⟨.bar0, a, false, n⟩ = (let d := d.ungate (pageOwner a)
      if wideAt a then ({ d with hiLatch := Tbl.put d.hiLatch (a + 4) (d.dwordRead (a + 4)) }, d.dwordRead a)
      else match Tbl.get? d.hiLatch a with
        | some v => ({ d with hiLatch := Tbl.erase d.hiLatch a }, v)
        | none => (d, d.dwordRead a)) := by
  have hdiv : a / 4 * 4 = a := Nat.div_mul_cancel (Nat.dvd_of_mod_eq_zero ha)
  simp only [Dev.spaceRead, hdiv]
  rfl

theorem Machine.Dev.spaceRead_bar0_wide (d : Dev) (a n : Nat) (ha : a % 8 = 0) :
    d.spaceRead 0 ⟨.bar0, a, true, n⟩ = (d, d.dwordRead a + d.dwordRead (a + 4) * 2 ^ 32) := by
  have hdiv : a / 4 * 4 = a := by omega
  simp only [Dev.spaceRead, hdiv]
  rfl

/-- The last dword of an MSI-X entry holds its mask. -/
theorem Machine.Dev.spaceRead_msix_mask (d : Dev) (v n : Nat) (hv : v < vectorsOf 0) :
    d.spaceRead 0 ⟨.msix, 16 * v + 12, false, n⟩ = (d, b2n (d.vec 0 v).masked) := by
  have hdiv : (16 * v + 12) / 4 * 4 = 16 * v + 12 := by omega
  have hentry : (16 * v + 12) / 16 = v := by omega
  have hplace : (16 * v + 12) % 16 = 12 := by omega
  simp [Dev.spaceRead, hdiv, Dev.msixRead, hentry, hplace, hv]

/-- Settles O11: the low dword of a 64-bit register sets the latch, a latched dword uses it up, every other read leaves it
(log entry 74). -/
theorem lowDwordReadLatches : Obligations.LowDwordReadLatches := by
  intro a s hup hreaches ha halign
  have hhif := s.dev.exitL1_woken.trans (Dev.ungate_woken _ .hif)
  have hd : Dev.Woken s.dev ((s.dev.exitL1.ungate .hif).ungate (pageOwner a)) := hhif.trans (Dev.ungate_woken _ _)
  have hread := (s.dev.exitL1.ungate .hif).spaceRead_bar0 a 15 halign
  have hlatch := hd.hiLatch
  have hsent := hd.emitted
  have hframe (x : Tbl Nat) := (Frame.of_woken hd [] [.halves]).setHalves x
    ((s.dev.exitL1.ungate .hif).ungate (pageOwner a)).heldLow
  refine ⟨fun hwide => ?wide, fun x hwide hx => ?latched, fun hwide hx => ?plain, fun n h8 => ?qword, fun _ v n hv => ?msix⟩
  case wide =>
    simp only [hwide, if_true] at hread
    refine (gives_read hup hreaches ha hread (hframe _) hsent).mono fun e ⟨hreply, hlatched, hfields, hstaged⟩ => ?_
    exact ⟨hreply, by rw [hlatched]; exact Tbl.get?_put_same _ _ _, hfields, hstaged⟩
  case latched =>
    simp only [hwide, Bool.false_eq_true, if_false, hlatch, hx] at hread
    refine (gives_read hup hreaches ha hread (hframe _) hsent).mono fun e ⟨hreply, hlatched, hfields, hstaged⟩ => ?_
    exact ⟨hreply, by rw [hlatched]; exact Tbl.get?_erase_same _ _, hfields, hstaged⟩
  case plain =>
    simp only [hwide, Bool.false_eq_true, if_false, hlatch, hx] at hread
    refine (gives_read hup hreaches ha hread (.of_woken hd _ _) hsent).mono fun e ⟨hreply, hlatched, hfields, hstaged⟩ => ?_
    exact ⟨hreply, hlatched.trans hlatch, hfields, hstaged⟩
  case qword =>
    refine (gives_read hup hreaches ha (Dev.spaceRead_bar0_wide _ a n h8) (.of_woken hhif _ _)
      hhif.emitted).mono fun e ⟨hreply, hlatched, hfields, hstaged⟩ => ?_
    exact ⟨hreply, hlatched.trans hhif.hiLatch, hfields, hstaged⟩
  case msix =>
    have hsize : 16 * v + 12 < barSize 0 .msix := by
      have : v < 2048 := hv
      show 16 * v + 12 < 65536
      omega
    have hentry := Dev.spaceRead_msix_mask (s.dev.exitL1.ungate .hif) v n hv
    rw [hhif.vec] at hentry
    exact (gives_read hup hreaches hsize hentry (.of_woken hhif _ _) hhif.emitted).mono
      fun e ⟨hreply, _, hfields, hstaged⟩ => ⟨hreply, hfields, hstaged⟩

end Sys2Proof
end

section
/-! Staged configuration (R39 to R41): the writes of PREFIX_COMMIT, and the commit that finds something or nothing. -/

set_option Elab.async false

namespace Sys2Proof

open Sys2Proof.Machine

namespace Machine

theorem exec_commitGo (b : Blk) (token : BitVec 16) (also : Bool) (s : State) :
    exec (.commitGo b token also) s = s.act fun d => d.atFn 0 b fun d => d.commitGo b token.toNat also := rfl

theorem exec_commitDiscard (b : Blk) (s : State) :
    exec (.commitDiscard b) s = s.act fun d => d.atFn 0 b fun d => d.commitDiscard b := rfl

theorem exec_commitComplete (b : Blk) (s : State) :
    exec (.commitComplete b) s = s.act fun d => d.commitComplete b := rfl

/-! ### The commit registers -/

/-- PREFIX_COMMIT_STAT, PREFIX_COMMIT_WHERE and PREFIX_COMMIT_ASN of a block, each with a key of its own, none that of a
block's state. -/
theorem commitKeys (b : Blk) :
    [Reg.COMMIT_STAT_busy.ix b.page, Reg.COMMIT_STAT_status.ix b.page, Reg.COMMIT_STAT_token.ix b.page,
      Reg.COMMIT_WHERE_offset.ix b.page, Reg.COMMIT_ASN_asn.ix b.page].Pairwise (fun f g => f.key ≠ g.key ∧ g.key ≠ f.key) ∧
    ∀ f ∈ [Reg.COMMIT_STAT_busy.ix b.page, Reg.COMMIT_STAT_status.ix b.page, Reg.COMMIT_STAT_token.ix b.page,
      Reg.COMMIT_WHERE_offset.ix b.page, Reg.COMMIT_ASN_asn.ix b.page], stateKey f.key = false ∧ pstateKey f.key = false := by
  cases b <;> decide

theorem Dev.commitStat_rd (d : Dev) (b : Blk) (busy status off : Nat) :
    (d.commitStat b busy status off).rd (Reg.COMMIT_STAT_busy.ix b.page) = busy % 2 ∧
    (d.commitStat b busy status off).rd (Reg.COMMIT_STAT_status.ix b.page) = status % 256 ∧
    (d.commitStat b busy status off).rd (Reg.COMMIT_WHERE_offset.ix b.page) = off % 2 ^ 25 ∧
    (d.commitStat b busy status off).rd (Reg.COMMIT_STAT_token.ix b.page) = d.rd (Reg.COMMIT_STAT_token.ix b.page) := by
  have hkeys := (commitKeys b).1
  simp only [List.pairwise_cons, List.forall_mem_cons] at hkeys
  obtain ⟨⟨hbs, hbt, hbw, -⟩, ⟨hst, hsw, -⟩, ⟨htw, -⟩, -⟩ := hkeys
  unfold Dev.commitStat
  refine ⟨?_, ?_, Dev.rd_wr_same _ _ _, ?_⟩
  · rw [Dev.rd_wr_other _ _ _ _ hbw.1, Dev.rd_wr_other _ _ _ _ hbs.1]
    exact Dev.rd_wr_same _ _ _
  · rw [Dev.rd_wr_other _ _ _ _ hsw.1]
    exact Dev.rd_wr_same _ _ _
  · rw [Dev.rd_wr_other _ _ _ _ htw.1, Dev.rd_wr_other _ _ _ _ hst.2, Dev.rd_wr_other _ _ _ _ hbt.2]

/-- The fields that the outcome of a commit writes. -/
def statFields (b : Blk) : List Fld :=
  [Reg.COMMIT_STAT_busy.ix b.page, Reg.COMMIT_STAT_status.ix b.page, Reg.COMMIT_WHERE_offset.ix b.page]

theorem Dev.commitStat_frame (d : Dev) (b : Blk) (busy status off : Nat) :
    Frame d (d.commitStat b busy status off) (statFields b) [] :=
  (((Frame.refl d _ _).wr _ _ (by simp [statFields])).wr _ _ (by simp [statFields])).wr _ _ (by simp [statFields])

/-- A commit register reads the same at the end of the command. -/
theorem Dev.settle_commit (d : Dev) (b : Blk) {f : Fld}
    (hf : f ∈ [Reg.COMMIT_STAT_busy.ix b.page, Reg.COMMIT_STAT_status.ix b.page, Reg.COMMIT_STAT_token.ix b.page,
      Reg.COMMIT_WHERE_offset.ix b.page, Reg.COMMIT_ASN_asn.ix b.page]) : d.settle.rd f = d.rd f :=
  Dev.settle_rd _ _ ((commitKeys b).2 f hf).1

/-! ### Staged values -/

/-- A field of a block, by its key. -/
theorem Fld.key_div (f : Fld) (h : f.lo < 64) : f.key / 64 = f.base := by unfold Fld.key; omega

theorem Tbl.get?_filter_none {α : Type} (m : Tbl α) (p : Nat → Bool) (k : Nat) (h : p k = false) :
    Tbl.get? (m.filter fun x => p x.1) k = none := by
  induction m with
  | nil => rfl
  | cons x r ih =>
    obtain ⟨k', v⟩ := x
    simp only [List.filter_cons]
    split
    · next hp =>
      have hne : k ≠ k' := by rintro rfl; rw [h] at hp; cases hp
      simp only [Tbl.get?, if_neg hne, ih]
    · exact ih

/-- Where a block's values are unstaged, its fields' staged values read live. -/
theorem Dev.rdStaged_of_staged_eq {d e : Dev} (b : Blk) (hstaged : e.staged = (d.unstage (keyOf b)).staged) (f : Fld)
    (hlo : f.lo < 64) (h : commitOwner f.base = some b) : e.rdStaged f = e.rd f := by
  have hkey : keyOf b f.key = true := by simp [keyOf, Fld.key_div f hlo, h]
  have hnone : Tbl.get? e.staged f.key = none := by
    rw [hstaged]
    exact Tbl.get?_filter_none d.staged (fun k => !keyOf b k) f.key (by simp [hkey])
  simp only [Dev.rdStaged, Tbl.getD, hnone]
  rfl

/-- Writing a list of entries into a table with defaults leaves a key that none of them has. -/
theorem Tbl.getD_foldl_putD_other (dflt : Nat → Nat) (k e : Nat) (xs : List (Nat × Nat)) (h : xs.filter (fun x => x.1 = k) = []) :
    ∀ m : Tbl Nat, Tbl.getD (xs.foldl (fun (r : Tbl Nat) x => Tbl.putD r x.1 x.2 (dflt x.1)) m) k e = Tbl.getD m k e := by
  induction xs with
  | nil => exact fun _ => rfl
  | cons x xs ih =>
    intro m
    have hx : ¬ x.1 = k := by
      intro hx
      simp [hx] at h
    simp only [List.filter_cons, hx, decide_false, Bool.false_eq_true, if_false] at h
    rw [List.foldl_cons, ih h, Tbl.getD_putD_other _ _ _ _ _ _ (Ne.symm hx)]

/-- The one entry of a key gives the key its value. -/
theorem Tbl.getD_foldl_putD_same (dflt : Nat → Nat) (k v : Nat) (xs : List (Nat × Nat))
    (h : xs.filter (fun x => x.1 = k) = [(k, v)]) : ∀ m : Tbl Nat,
    Tbl.getD (xs.foldl (fun (r : Tbl Nat) x => Tbl.putD r x.1 x.2 (dflt x.1)) m) k (dflt k) = v := by
  induction xs with
  | nil => simp at h
  | cons x xs ih =>
    intro m
    rw [List.foldl_cons]
    by_cases hx : x.1 = k
    · simp only [List.filter_cons, hx, decide_true, if_true, List.cons.injEq] at h
      obtain ⟨hx, hrest⟩ := h
      rw [Tbl.getD_foldl_putD_other dflt k _ xs hrest, hx, Tbl.getD_putD_same]
    · simp only [List.filter_cons, hx, decide_false, Bool.false_eq_true, if_false] at h
      exact ih h _

/-- Every staged field without indexes that is committed through BPS or MNT: its key names it alone among the staged fields,
and is none of the commit's own registers or of a block's state. -/
theorem stagedFields_alone : ∀ f ∈ Reg.all, f.acc = .rws → f.dims = [] →
    (commitOwner f.base = some .bps ∨ commitOwner f.base = some .mnt) →
    ((Reg.all.find? fun g => g.acc = .rws && g.hasKey f.key).map Fld.reset).getD 0 = f.reset ∧ f.lo < 64 ∧
    stateKey f.key = false ∧
    ∀ b ∈ [Blk.bps, Blk.mnt], f.key ≠ (Reg.COMMIT_ASN_asn.ix b.page).key ∧ ∀ g ∈ statFields b, f.key ≠ g.key := by
  decide +kernel

/-- After the switch a field reads its staged value, or where none is staged its live one. -/
theorem Dev.withStaged_rd (d : Dev) {b : Blk} (hb : b = .bps ∨ b = .mnt) {f : Fld} (hf : f ∈ Reg.all) (hacc : f.acc = .rws)
    (hdims : f.dims = []) (howner : commitOwner f.base = some b) :
    (∀ v, d.staged.filter (fun x => x.1 = f.key) = [(f.key, v)] → (d.withStaged b).rd f = v) ∧
    (d.staged.filter (fun x => x.1 = f.key) = [] → (d.withStaged b).rd f = d.rd f) := by
  have howner' : commitOwner f.base = some .bps ∨ commitOwner f.base = some .mnt := by rcases hb with rfl | rfl <;> simp [howner]
  obtain ⟨hreset, hlo, -, -⟩ := stagedFields_alone f hf hacc hdims howner'
  have hmine : (d.stagedOf b).filter (fun x => x.1 = f.key) = d.staged.filter fun x => x.1 = f.key := by
    rw [Dev.stagedOf, List.filter_filter]
    refine List.filter_congr fun x _ => ?_
    by_cases hx : x.1 = f.key
    · simp [hx, keyOf, Fld.key_div f hlo, howner]
    · simp [hx]
  rw [← hmine]
  refine ⟨fun v hv => ?_, fun hnone => ?_⟩
  · have h := Tbl.getD_foldl_putD_same (fun k => ((Reg.all.find? fun g => g.acc = .rws && g.hasKey k).map Fld.reset).getD 0)
      f.key v _ hv d.regs
    rw [hreset] at h
    exact h
  · exact Tbl.getD_foldl_putD_other (fun k => ((Reg.all.find? fun g => g.acc = .rws && g.hasKey k).map Fld.reset).getD 0)
      f.key f.reset _ hnone d.regs

end Machine

/-! ### O15 -/

/-- Settles O15: the write is judged on the page as the request finds it (R40, log entry 41). -/
theorem commitGoAndDiscard : Obligations.CommitGoAndDiscard := by
  intro b token s h hb hbusy hccx
  have hmem : commitBlks.contains b = true := List.contains_iff_mem.mpr hb
  have hfree {d : Dev} (hd : Dev.Woken s.dev d) : d.commitRefused b = false := by
    have hrd : d.rd (Reg.COMMIT_STAT_busy.ix b.page) = 0 :=
      (hd.fields _ ((commitKeys b).2 _ List.mem_cons_self).2).trans hbusy
    have hstate : d.blkState .ccx ≠ stFault := by rw [hd.blkState]; exact hccx
    simp [Dev.commitRefused, Dev.rdB, hrd, hstate]
  have htoken (d : Dev) : (d.wr (Reg.COMMIT_STAT_token.ix b.page) token.toNat).rd (Reg.COMMIT_STAT_token.ix b.page) = token.toNat :=
    (Dev.rd_wr_same _ _ _).trans (Nat.mod_eq_of_lt token.isLt)
  have hsys {d : Dev} (hd : Dev.Woken s.dev d) :
      (d.wr (Reg.COMMIT_STAT_token.ix b.page) token.toNat).blkState .sys = s.dev.blkState .sys :=
    (Dev.rd_wr_other _ _ _ _ (by cases b <;> decide)).trans (hd.blkState .sys)
  refine ⟨fun hrun => ?go, fun hhalt => ?halted, ?both, ?discard⟩
  case go =>
    refine gives_of_exec_eq_atFn (exec_commitGo b token false s) h fun d hd => ?_
    have hgo : d.commitGo b token.toNat false = (d.wr (Reg.COMMIT_STAT_token.ix b.page) token.toNat).commitStat b 1 1 0 := by
      simp only [Dev.commitGo, hmem, hfree hd, hsys hd, hrun, Bool.not_true, Bool.false_eq_true, if_false, Bool.or_false]
    rw [hgo]
    obtain ⟨hbusy', hstatus, -, htok⟩ := (d.wr (Reg.COMMIT_STAT_token.ix b.page) token.toNat).commitStat_rd b 1 1 0
    have hframe := ((((Frame.of_woken hd [Reg.COMMIT_STAT_busy.ix b.page, Reg.COMMIT_STAT_status.ix b.page,
      Reg.COMMIT_STAT_token.ix b.page, Reg.COMMIT_WHERE_offset.ix b.page] []).wr (Reg.COMMIT_STAT_token.ix b.page) token.toNat
        (by simp)).trans (Dev.commitStat_frame _ b 1 1 0) (by simp [statFields]) (by simp))).settle
    refine ⟨?_, ?_, ?_, hframe.part .staged, hframe.1⟩
    · exact (Dev.settle_commit _ b (by simp)).trans hbusy'
    · exact (Dev.settle_commit _ b (by simp)).trans hstatus
    · exact (Dev.settle_commit _ b (by simp)).trans (htok.trans (htoken d))
  case halted =>
    refine gives_of_exec_eq_atFn (exec_commitGo b token false s) h fun d hd => ?_
    have hgo : d.commitGo b token.toNat false = (d.wr (Reg.COMMIT_STAT_token.ix b.page) token.toNat).commitStat b 0 7 0 := by
      simp only [Dev.commitGo, hmem, hfree hd, hsys hd, hhalt, Bool.not_true, Bool.false_eq_true, if_false, Bool.or_false,
        if_true]
    rw [hgo]
    obtain ⟨hbusy', hstatus, -, -⟩ := (d.wr (Reg.COMMIT_STAT_token.ix b.page) token.toNat).commitStat_rd b 0 7 0
    refine ⟨?_, ?_, ?_⟩
    · exact (Dev.settle_commit _ b (by simp)).trans hbusy'
    · exact (Dev.settle_commit _ b (by simp)).trans hstatus
    · rw [(Dev.settle_keeps _).1]
      exact hd.staged
  case both =>
    refine gives_of_exec_eq_atFn (exec_commitGo b token true s) h fun d hd => ?_
    have hgo : d.commitGo b token.toNat true = d.refuse b := by simp only [Dev.commitGo, hmem]; simp
    rw [hgo]
    have hframe := ((Frame.of_woken hd [] []).reports (Dev.refuse_reports _ b)).settle
    exact ⟨Dev.settle_raised _ _ _ (Dev.refuse_raised _ _), hframe.1, hframe.part .staged⟩
  case discard =>
    refine gives_of_exec_eq_atFn (exec_commitDiscard b s) h fun d hd => ?_
    have hdiscard : d.commitDiscard b = d.unstage (keyOf b) := by
      simp only [Dev.commitDiscard, hmem, hfree hd, Bool.not_true, Bool.false_eq_true, if_false]
    rw [hdiscard]
    refine ⟨fun f howner hlo => ?_, ((Frame.of_woken hd [] [.staged]).setStaged _).settle.1⟩
    exact Dev.rdStaged_of_staged_eq (d := d) b (Dev.settle_keeps _).1 f hlo howner

/-! ### O16 -/

section

variable {d : Dev} {b : Blk} (hbusy : d.rdB (Reg.COMMIT_STAT_busy.ix b.page) = true) (hphase : d.phase = phReady)
  (hccx : d.blkState .ccx ≠ stFault)
include hbusy hphase hccx

/-- A busy commit with the admission open and CCX working shows what the check finds. -/
theorem Machine.Dev.commitComplete_of_finding {st off : Nat} (h : d.findings b = some (st, off)) :
    d.commitComplete b = d.commitStat b 0 st off := by
  simp only [Dev.commitComplete, hbusy, hphase, hccx, h, Bool.not_true, ne_eq, not_true_eq_false, decide_false,
    Bool.or_self, Bool.false_eq_true, if_false]

/-- Where the check finds nothing the staged values become live. -/
theorem Machine.Dev.commitComplete_of_no_finding (h : d.findings b = none) : d.commitComplete b =
    (((d.withStaged b).switched d b).commitStat b 0 0 0).wr (Reg.COMMIT_ASN_asn.ix b.page) (d.qmx.adm % 2 ^ 32) := by
  simp only [Dev.commitComplete, hbusy, hphase, hccx, h, Bool.not_true, ne_eq, not_true_eq_false, decide_false,
    Bool.or_self, Bool.false_eq_true, if_false]

end

/-- Settles O16: a finding is shown and nothing else happens; without one the staged values are live before anything else. -/
theorem commitIsAllOrNothing : Obligations.CommitIsAllOrNothing := by
  intro b s hbusy hphase hccx
  refine ⟨fun st off hfound => ?_, fun hnone hb => ?_⟩
  · refine gives_of_exec_eq_act (exec_commitComplete b s) ?_
    rw [Dev.commitComplete_of_finding hbusy hphase hccx hfound]
    obtain ⟨hb', hstatus, hwhere, -⟩ := s.dev.commitStat_rd b 0 st off
    have hframe := (s.dev.commitStat_frame b 0 st off).settle
    refine ⟨?_, ?_, ?_, hframe.part .staged, hframe.part .dram, ?_⟩
    · exact (Dev.settle_commit _ b (by simp)).trans hb'
    · exact (Dev.settle_commit _ b (by simp)).trans hstatus
    · exact (Dev.settle_commit _ b (by simp)).trans hwhere
    · exact hframe.1
  · refine gives_of_exec_eq_act (exec_commitComplete b s) ?_
    have hswitch : (s.dev.withStaged b).switched s.dev b = s.dev.withStaged b := by rcases hb with rfl | rfl <;> rfl
    have hmem : b ∈ [Blk.bps, Blk.mnt] := by rcases hb with rfl | rfl <;> simp
    rw [Dev.commitComplete_of_no_finding hbusy hphase hccx hnone]
    simp only [hswitch]
    obtain ⟨hb', hstatus, -, -⟩ := (s.dev.withStaged b).commitStat_rd b 0 0 0
    have hkeys := (commitKeys b).1
    simp only [List.pairwise_cons, List.forall_mem_cons] at hkeys
    obtain ⟨⟨-, -, -, hba, -⟩, ⟨-, -, hsa, -⟩, -⟩ := hkeys
    refine ⟨?_, ?_, ?_, fun p hp => ?_, fun f hf hacc hdims howner => ?_⟩
    · rw [Dev.settle_commit _ b (by simp), Dev.rd_wr_other _ _ _ _ hba.1]
      exact hb'
    · rw [Dev.settle_commit _ b (by simp), Dev.rd_wr_other _ _ _ _ hsa.1]
      exact hstatus
    · rw [Dev.settle_commit _ b (by simp), Dev.rd_wr_same]
      exact Nat.mod_mod _ _
    · rw [(Dev.settle_keeps _).1] at hp
      have hp' : !keyOf b p.1 := (List.mem_filter.mp hp).2
      simpa [keyOf] using hp'
    · have howner' : commitOwner f.base = some .bps ∨ commitOwner f.base = some .mnt := by
        rcases hb with rfl | rfl <;> simp [howner]
      obtain ⟨-, -, hstate, hcommit⟩ := stagedFields_alone f hf hacc hdims howner'
      obtain ⟨hasn, hstat⟩ := hcommit b hmem
      have hrd : (((s.dev.withStaged b).commitStat b 0 0 0).wr (Reg.COMMIT_ASN_asn.ix b.page) (s.dev.qmx.adm % 2 ^ 32)).settle.rd f =
          (s.dev.withStaged b).rd f := by
        have hframe := Dev.commitStat_frame (s.dev.withStaged b) b 0 0 0
        rw [Dev.settle_rd _ _ hstate, Dev.rd_wr_other _ _ _ _ hasn]
        exact hframe.1 f hstat hstate
      obtain ⟨hone, hzero⟩ := s.dev.withStaged_rd hb hf hacc hdims howner
      exact ⟨fun v hv => hrd.trans (hone v hv), fun h0 => hrd.trans (hzero h0)⟩

end Sys2Proof
end

section
/-! Refutations by a concrete state (the tools), and the soft reset of a block without a commit register (R32). -/

set_option Elab.async false

namespace Sys2Proof

open Sys2Proof.Machine

/-- The device after a command; where there is no next state, the device before it. -/
def devAfter (c : Instr) (s : State) : Dev :=
  match exec c s with
  | .next t => t.dev
  | _ => s.dev

theorem devAfter_of_exec_eq {c : Instr} {s t : State} (h : exec c s = .next t) : devAfter c s = t.dev := by
  simp only [devAfter, h]

/-- What a command gives holds of the device after it. -/
theorem Gives.devAfter {c : Instr} {s : State} {P : Dev → Prop} (h : Gives c s P) : P (devAfter c s) := by
  obtain ⟨t, hexec, -, -, -, hP⟩ := h
  rw [devAfter_of_exec_eq hexec]
  exact hP

/-- A device behind a link that is up, whose PF0 answers memory requests. -/
def linkedDev : Dev :=
  { State.reset.dev with hif := { State.reset.dev.hif with link := .l0 } }.updFn 0 fun x => { x with mse := true, bme := true }

/-- SYS in OFF with a value staged under a key of its page, which no commit register owns. -/
def sysStagedState : State := { State.reset with dev := { linkedDev with staged := [(0, 5)] } }

theorem sysStagedState_reached : HostReaches sysStagedState.dev 0 .sys ∧ sysStagedState.dev.blkState .sys = stOff := by
  decide +kernel

/-- The soft reset unstages by the commit register that owns a value, not by the page that the value lies in. -/
theorem softReset_keeps_sysStaged : (devAfter (.softReset .sys) sysStagedState).staged = [(0, 5)] := by
  decide +kernel

/-- Refutes O13: in a page without a commit register (SYS) a staged value outlives the soft reset. -/
theorem not_softReset : ¬ Obligations.SoftReset := by
  intro h
  obtain ⟨hreached, hoff⟩ := sysStagedState_reached
  obtain ⟨-, -, -, -, -, hstaged, -⟩ := ((h .sys sysStagedState hreached).1 (.inl hoff)).devAfter
  rw [softReset_keeps_sysStaged] at hstaged
  exact absurd (hstaged (0, 5) List.mem_cons_self) (by decide)

end Sys2Proof
end

section
/-! Causes stay set through what a command does (R30), and frames of the parts: laws that the statements of several blocks
share. -/

set_option Elab.async false

namespace Sys2Proof

open Sys2Proof.Machine

namespace Machine

/-- What each step of a repetition keeps, the repetition keeps. -/
theorem forEach_induct {α σ : Type} {P : σ → Prop} {f : α → σ → σ} (h : ∀ x s, P s → P (f x s)) (xs : List α) :
    ∀ s, P s → P (forEach xs f s) := by
  induction xs with
  | nil => exact fun _ hs => hs
  | cons x xs ih => exact fun s hs => ih _ (h x s hs)

/-! ### Fields with an index -/

@[simp] theorem Fld.ix_width (f : Fld) (i : Nat) : (f.ix i).width = f.width := by
  unfold Fld.ix
  split <;> rfl

/-- Whether two fields with an index of one stride have different keys, whatever the index. -/
def Fld.apart (f g : Fld) : Bool :=
  decide (f.dims.head?.map Prod.fst = g.dims.head?.map Prod.fst) && decide (f.key ≠ g.key)

theorem Fld.ix_key (f : Fld) (i : Nat) : (f.ix i).key = f.key + (f.dims.head?.map Prod.fst).getD 0 * i * 64 := by
  unfold Fld.ix
  split
  · next h => simp [Fld.key, h]
  · next h =>
    simp only [Fld.key, h, List.head?_cons, Option.map_some, Option.getD_some]
    ring

theorem Fld.ix_key_ne {f g : Fld} (h : f.apart g = true) (i : Nat) : (f.ix i).key ≠ (g.ix i).key := by
  simp only [Fld.apart, Bool.and_eq_true, decide_eq_true_eq] at h
  obtain ⟨hdims, hkey⟩ := h
  rw [Fld.ix_key, Fld.ix_key, hdims]
  omega

/-- A write of one field of a unit leaves its other fields. -/
theorem Dev.rd_wr_ix (d : Dev) (f g : Fld) (i v : Nat) (h : g.apart f = true) : (d.wr (f.ix i) v).rd (g.ix i) = d.rd (g.ix i) :=
  Dev.rd_wr_other _ _ _ _ (Fld.ix_key_ne h i)

/-! ### Counting fields (R9) -/

theorem Dev.rd_incSat_same (d : Dev) (f : Fld) (n : Nat) : (d.incSat f n).rd f = min (d.rd f + n) (2 ^ f.width - 1) := by
  rw [Dev.incSat, Dev.rd_wr_same]
  exact Nat.mod_eq_of_lt (lt_of_le_of_lt (Nat.min_le_right _ _) (Nat.sub_lt (Nat.two_pow_pos _) Nat.one_pos))

theorem Dev.rd_incSat_other (d : Dev) (f g : Fld) (n : Nat) (h : g.key ≠ f.key) : (d.incSat f n).rd g = d.rd g :=
  Dev.rd_wr_other _ _ _ _ h

theorem Dev.rd_incWrap_same (d : Dev) (f : Fld) (n : Nat) : (d.incWrap f n).rd f = (d.rd f + n) % 2 ^ f.width :=
  Dev.rd_wr_same _ _ _

theorem Dev.rd_incWrap_other (d : Dev) (f g : Fld) (n : Nat) (h : g.key ≠ f.key) : (d.incWrap f n).rd g = d.rd g :=
  Dev.rd_wr_other _ _ _ _ h

/-- The timebase's state after a change of it. -/
theorem Dev.updTmb_reads (d : Dev) (g : TmbState → TmbState) : (d.updTmb g).tmb = g d.tmb := rfl

theorem Dev.wr_tmb (d : Dev) (f : Fld) (v : Nat) : (d.wr f v).tmb = d.tmb := rfl

theorem Dev.settle_bme (d : Dev) : d.settle.bme = d.bme := by simp only [Dev.settle_keeps]

theorem Dev.settle_tmb (d : Dev) : d.settle.tmb = d.tmb := by simp only [Dev.settle_keeps]

/-! ### Causes that stay set -/

/-- No cause is taken back from d to e. -/
structure Dev.CausesGrow (d e : Dev) : Prop where
  grow : ∀ b i, Raised d b i → Raised e b i

theorem Dev.CausesGrow.refl (d : Dev) : Dev.CausesGrow d d := ⟨fun _ _ h => h⟩

theorem Dev.CausesGrow.trans {a b c : Dev} (h : Dev.CausesGrow a b) (k : Dev.CausesGrow b c) : Dev.CausesGrow a c :=
  ⟨fun x i hx => k.grow x i (h.grow x i hx)⟩

theorem Dev.CausesGrow.of_blks {d e : Dev} (h : e.nt.blks = d.nt.blks) : Dev.CausesGrow d e := by
  refine ⟨fun b i hb => ?_⟩
  simpa [Raised, Dev.note, h] using hb

theorem Dev.CausesGrow.ite {c : Prop} [Decidable c] {d a b : Dev} (h : Dev.CausesGrow d a) (k : Dev.CausesGrow d b) :
    Dev.CausesGrow d (if c then a else b) := by split <;> assumption

theorem Dev.CausesGrow.forEach {α : Type} (f : α → Dev → Dev) (h : ∀ x d, Dev.CausesGrow d (f x d)) (xs : List α) :
    ∀ d, Dev.CausesGrow d (forEach xs f d) := by
  induction xs with
  | nil => exact .refl
  | cons x xs ih => exact fun d => (h x d).trans (ih _)

/-- A change of a header that keeps its causes. -/
theorem Dev.CausesGrow.updNote (d : Dev) (b : Blk) (g : BlkNote → BlkNote)
    (h : ∀ n i, bitOf n.raw i = true → bitOf (g n).raw i = true) : Dev.CausesGrow d (d.updNote b g) := by
  refine ⟨fun a i ha => ?_⟩
  by_cases hab : a = b
  · subst hab
    unfold Raised at ha ⊢
    rw [Dev.note_updNote]
    exact h _ _ ha
  · unfold Raised at ha ⊢
    rwa [Dev.note_updNote_other _ _ _ _ hab]

theorem bitOf_or_of_bitOf {v m i : Nat} (h : bitOf v i = true) : bitOf (v ||| m) i = true := by
  rw [bitOf_eq_testBit] at h ⊢
  rw [Nat.testBit_or, h, Bool.true_or]

theorem Dev.cause_grow (d : Dev) (b : Blk) (m : Nat) : Dev.CausesGrow d (d.cause b m) :=
  .updNote d b _ fun _ _ h => bitOf_or_of_bitOf h

theorem Dev.causeBit_grow (d : Dev) (b : Blk) (i : Nat) : Dev.CausesGrow d (d.causeBit b i) := d.cause_grow b _

theorem Dev.refuse_grow (d : Dev) (b : Blk) : Dev.CausesGrow d (d.refuse b) := d.cause_grow b _

theorem firstErr_raw (d : Dev) (code : Nat) (n : BlkNote) : (firstErr d code n).raw = n.raw := by
  unfold firstErr
  split <;> rfl

theorem Dev.errCorr_grow (d : Dev) (b : Blk) (code : Nat) : Dev.CausesGrow d (d.errCorr b code) :=
  .updNote d b _ fun _ _ h => by rw [firstErr_raw]; exact bitOf_or_of_bitOf h

theorem Dev.errUncorr_grow (d : Dev) (b : Blk) (code : Nat) : Dev.CausesGrow d (d.errUncorr b code) :=
  .updNote d b _ fun _ _ h => by rw [firstErr_raw]; exact bitOf_or_of_bitOf h

theorem Dev.exitL1_blks (d : Dev) : d.exitL1.nt.blks = d.nt.blks := by
  unfold Dev.exitL1
  split <;> rfl

theorem Dev.raiseVec_grow (d : Dev) (f v : Nat) : Dev.CausesGrow d (d.raiseVec f v) := .of_blks (d.raiseVec_blks f v)

theorem Dev.emit_grow (d : Dev) (x : Emit) : Dev.CausesGrow d (d.emit x) := .of_blks rfl
theorem Dev.updRing_grow (d : Dev) (f : Nat) (g : EvRing → EvRing) : Dev.CausesGrow d (d.updRing f g) := .of_blks rfl
theorem Dev.updFn_grow (d : Dev) (f : Nat) (g : FnState → FnState) : Dev.CausesGrow d (d.updFn f g) := .of_blks rfl
theorem Dev.updTmb_grow (d : Dev) (g : TmbState → TmbState) : Dev.CausesGrow d (d.updTmb g) := .of_blks rfl
theorem Dev.updPwc_grow (d : Dev) (g : PwcState → PwcState) : Dev.CausesGrow d (d.updPwc g) := .of_blks rfl
theorem Dev.updCcx_grow (d : Dev) (g : CcxState → CcxState) : Dev.CausesGrow d (d.updCcx g) := .of_blks rfl
theorem Dev.updEce_grow (d : Dev) (g : EceState → EceState) : Dev.CausesGrow d (d.updEce g) := .of_blks rfl
theorem Dev.updSmc_grow (d : Dev) (g : SmcState → SmcState) : Dev.CausesGrow d (d.updSmc g) := .of_blks rfl
theorem Dev.updPort_grow (d : Dev) (p : Nat) (g : PortSt → PortSt) : Dev.CausesGrow d (d.updPort p g) := .of_blks rfl
theorem Dev.updArr_grow (d : Dev) (a : Nat) (g : ArrSt → ArrSt) : Dev.CausesGrow d (d.updArr a g) := .of_blks rfl
theorem Dev.updBmeCh_grow (d : Dev) (c : Nat) (g : BmeCh → BmeCh) : Dev.CausesGrow d (d.updBmeCh c g) := .of_blks rfl
theorem Dev.wr_grow (d : Dev) (f : Fld) (v : Nat) : Dev.CausesGrow d (d.wr f v) := .of_blks rfl
theorem Dev.nt_grow (d : Dev) (n : NoteState) (h : n.blks = d.nt.blks) : Dev.CausesGrow d { d with nt := n } := .of_blks h
theorem Dev.exitL1_grow (d : Dev) : Dev.CausesGrow d d.exitL1 := .of_blks d.exitL1_blks
theorem Dev.exitL1_emit_grow (d : Dev) (x : Emit) : Dev.CausesGrow d (d.exitL1.emit x) := d.exitL1_grow.trans (Dev.emit_grow _ _)

theorem Dev.writeHost_grow (d : Dev) (f a : Nat) (bs : Bytes) (r : Bool) : Dev.CausesGrow d (d.writeHost f a bs r) := by
  unfold Dev.writeHost
  exact .forEach _ (fun _ d => d.exitL1_emit_grow _) _ d

theorem Dev.putEvent_grow (d : Dev) (f : Nat) (x : Event) : Dev.CausesGrow d (d.putEvent f x) := by
  unfold Dev.putEvent
  exact (d.writeHost_grow f _ _ false).trans (Dev.updRing_grow _ _ _)

theorem Dev.raiseRing_grow (d : Dev) (f : Nat) : Dev.CausesGrow d (d.raiseRing f) := by
  unfold Dev.raiseRing
  exact .ite (d.raiseVec_grow _ _) (.refl d)

theorem Dev.writeEvent_grow (d : Dev) (f : Nat) (x : Event) : Dev.CausesGrow d (d.writeEvent f x) :=
  (d.putEvent_grow f x).trans (Dev.raiseRing_grow _ f)

theorem Dev.pmeEvent_grow (d : Dev) (f : Nat) : Dev.CausesGrow d (d.pmeEvent f) := by
  unfold Dev.pmeEvent
  have h := d.updFn_grow f fun x => { x with pmeStatus := true }
  refine .ite (.ite (.ite (.ite ((h.trans (Dev.nt_grow _ _ (by rfl))).trans (Dev.emit_grow _ _)) h) (.ite ?_ h)) h) (.refl d)
  exact h.trans (Dev.exitL1_emit_grow _ _)

theorem Dev.deliver_grow (d : Dev) (f : Nat) (x : Event) : Dev.CausesGrow d (d.deliver f x) := by
  unfold Dev.deliver
  have h := (d.updRing_grow f fun r => { r with seq := (r.seq + 1) % 2 ^ 32 }).trans (Dev.pmeEvent_grow _ f)
  have k := (h.trans (Dev.updRing_grow _ f fun r => { r with lost := min (r.lost + 1) 0xFFFF })).trans
    (Dev.causeBit_grow _ .qmx 18)
  exact .ite (.refl d) (.ite (h.trans (Dev.writeEvent_grow _ _ _)) (.ite (h.trans (Dev.updRing_grow _ _ _))
    (.ite k ((k.trans (Dev.updFn_grow _ _ _)).trans (Dev.causeBit_grow _ _ _)))))

theorem Dev.post_grow (d : Dev) (a b c e f g h : Nat) : Dev.CausesGrow d (d.post a b c e f g h) := d.deliver_grow _ _

theorem Dev.squall_grow (d : Dev) (b : Blk) (fault stall : Nat) : Dev.CausesGrow d (d.squall b fault stall) := by
  unfold Dev.squall
  exact .ite (((Dev.nt_grow d _ (by rfl)).trans (Dev.causeBit_grow _ _ _)).trans (Dev.post_grow _ _ _ _ _ _ _ _))
    ((Dev.nt_grow d _ (by rfl)).trans (Dev.causeBit_grow _ _ _))

theorem Dev.settle_grow (d : Dev) : Dev.CausesGrow d d.settle := ⟨fun b i h => d.settle_raised b i h⟩

end Machine

/-! ### Frames of one part -/

section

variable {a d : Dev} {fs : List Fld} {ps : List Part}

/-- A frame stays one when it lists more. -/
theorem Frame.mono {gs : List Fld} {qs : List Part} (h : Frame a d fs ps) (hfs : fs ⊆ gs := by decide)
    (hps : ps ⊆ qs := by decide) : Frame a d gs qs := (Frame.refl a gs qs).trans h hfs hps

theorem Frame.onlyIf {c : Bool} {f : Dev → Dev} (h : Frame a d fs ps) (k : Frame a (f d) fs ps) :
    Frame a (onlyIf c f d) fs ps := by
  unfold Machine.onlyIf
  split <;> assumption

theorem Frame.setTmbState (h : Frame a d fs ps) (x : TmbState) (hp : Part.tmb ∈ ps := by decide) :
    Frame a { d with tmb := x } fs ps :=
  h.setPart .tmb (fun _ => rfl) (fun q hq => by cases q <;> simp_all [Part.same]) hp

theorem Frame.setClock (h : Frame a d fs ps) (n : Nat) (x : TmbState) (hp : Part.tmb ∈ ps := by decide) :
    Frame a { d with ticks := n, tmb := x } fs ps :=
  h.setPart .tmb (fun _ => rfl) (fun q hq => by cases q <;> simp_all [Part.same]) hp

theorem Frame.setBme (h : Frame a d fs ps) (x : BmeState) (hp : Part.bme ∈ ps := by decide) :
    Frame a { d with bme := x } fs ps :=
  h.setPart .bme (fun _ => rfl) (fun q hq => by cases q <;> simp_all [Part.same]) hp

theorem Frame.setQmx (h : Frame a d fs ps) (x : QmxState) (hp : Part.qmx ∈ ps := by decide) :
    Frame a { d with qmx := x } fs ps :=
  h.setPart .qmx (fun _ => rfl) (fun q hq => by cases q <;> simp_all [Part.same]) hp

theorem Frame.setLay (h : Frame a d fs ps) (x : LayState) (hp : Part.lay ∈ ps := by decide) :
    Frame a { d with lay := x } fs ps :=
  h.setPart .lay (fun _ => rfl) (fun q hq => by cases q <;> simp_all [Part.same]) hp

theorem Frame.setDram (h : Frame a d fs ps) (x : Dram) (hp : Part.dram ∈ ps := by decide) :
    Frame a { d with dram := x } fs ps :=
  h.setPart .dram (fun _ => rfl) (fun q hq => by cases q <;> simp_all [Part.same]) hp

theorem Frame.setSmc (h : Frame a d fs ps) (x : SmcState) (hp : Part.smc ∈ ps := by decide) :
    Frame a { d with smc := x } fs ps :=
  h.setPart .smc (fun _ => rfl) (fun q hq => by cases q <;> simp_all [Part.same]) hp

theorem Frame.setEce (h : Frame a d fs ps) (x : EceState) (hp : Part.ece ∈ ps := by decide) :
    Frame a { d with ece := x } fs ps :=
  h.setPart .ece (fun _ => rfl) (fun q hq => by cases q <;> simp_all [Part.same]) hp

theorem Frame.setDpx (h : Frame a d fs ps) (x : DpxState) (hp : Part.dpx ∈ ps := by decide) :
    Frame a { d with dpx := x } fs ps :=
  h.setPart .dpx (fun _ => rfl) (fun q hq => by cases q <;> simp_all [Part.same]) hp

theorem Frame.setVlt (h : Frame a d fs ps) (x : VltState) (hp : Part.vlt ∈ ps := by decide) :
    Frame a { d with vlt := x } fs ps :=
  h.setPart .vlt (fun _ => rfl) (fun q hq => by cases q <;> simp_all [Part.same]) hp

theorem Frame.setCcx (h : Frame a d fs ps) (x : CcxState) (hp : Part.ccx ∈ ps := by decide) :
    Frame a { d with ccx := x } fs ps :=
  h.setPart .ccx (fun _ => rfl) (fun q hq => by cases q <;> simp_all [Part.same]) hp

/-- A change of HIF that touches the read tags, the waiting reads or the functions at most. -/
theorem Frame.setHif (h : Frame a d fs ps) (x : HifState) (hp : Part.host ∈ ps := by decide) :
    Frame a { d with hif := x } fs ps :=
  h.setPart .host (fun _ => rfl) (fun q hq => by cases q <;> simp_all [Part.same]) hp

theorem Frame.nextFree (h : Frame a d fs ps) : Frame a d.nextFree fs ps := by
  have k : Frame d d.nextFree [] [] := ⟨fun _ _ _ => rfl, fun p _ => by cases p <;> simp [Part.same]⟩
  exact h.trans k (List.nil_subset _) (List.nil_subset _)

theorem Frame.incSat (h : Frame a d fs ps) (f : Fld) (n : Nat) (hf : f ∈ fs := by decide) : Frame a (d.incSat f n) fs ps :=
  h.wr f _ hf

theorem Frame.incWrap (h : Frame a d fs ps) (f : Fld) (n : Nat) (hf : f ∈ fs := by decide) : Frame a (d.incWrap f n) fs ps :=
  h.wr f _ hf

end

end Sys2Proof
end

section
/-! The timebase (R369 to R377): edges, missed pulses, wraps, the seconds value, PPS enable. -/

set_option Elab.async false

namespace Sys2Proof

open Sys2Proof.Machine

theorem exec_ppsEdge (falling : Bool) (jitter : Int) (s : State) :
    exec (.ppsEdge falling jitter) s = s.act fun d => d.ppsEdge falling jitter := rfl
theorem exec_ppsMiss (s : State) : exec .ppsMiss s = s.act Dev.ppsMiss := rfl
theorem exec_secondWrap (s : State) : exec .secondWrap s = s.act Dev.secondWrap := rfl
theorem exec_timeSetArm (s : State) : exec .timeSetArm s = s.act fun d => d.atFn 0 .tmb fun d => d.timeArm := rfl
theorem exec_ppsEnable (on : Bool) (s : State) :
    exec (.ppsEnable on) s = s.act fun d => d.atFn 0 .tmb fun d => d.ppsEnable on := rfl

/-! ### Frames and causes of the timebase's parts -/

theorem Frame.setTmb {a d : Dev} {fs : List Fld} {ps : List Part} (h : Frame a d fs ps) (st : Nat)
    (hf : Reg.TMB_STAT_state ∈ fs := by decide) : Frame a (d.setTmb st) fs ps :=
  (Frame.ite (h.reports (d.causeBit_reports .tmb 17)) h).wr _ st hf

theorem Frame.setApplied {a d : Dev} {fs : List Fld} {ps : List Part} (h : Frame a d fs ps) (how : Nat)
    (hpending : Reg.TMB_SET_CTRL_pending ∈ fs := by decide) (happlied : Reg.TMB_SET_CTRL_applied ∈ fs := by decide)
    (hp : Part.tmb ∈ ps := by decide) : Frame a (d.setApplied how) fs ps :=
  (((h.setTmbState _ hp).wr _ 0 hpending).wr _ how happlied).reports (Dev.causeBit_reports _ _ _)

namespace Machine

theorem Dev.setTmb_grow (d : Dev) (st : Nat) : Dev.CausesGrow d (d.setTmb st) :=
  (Dev.CausesGrow.ite (d.causeBit_grow .tmb 17) (.refl d)).trans (Dev.wr_grow _ _ _)

theorem Dev.setTmb_raised {d : Dev} (h : d.rd Reg.TMB_STAT_state ≠ tmLocked) : Raised (d.setTmb tmLocked) .tmb 17 := by
  simp only [Dev.setTmb, ne_eq, h, not_false_eq_true, and_self, if_true]
  exact (Dev.wr_grow _ _ _).grow _ _ (d.causeBit_raised .tmb 17)

theorem Dev.setTmb_rd_other (d : Dev) (st : Nat) (g : Fld) (h : g.key ≠ Reg.TMB_STAT_state.key := by decide) :
    (d.setTmb st).rd g = d.rd g := by
  rw [Dev.setTmb, Dev.rd_wr_other _ _ _ _ h]
  split <;> simp

theorem Dev.setTmb_rd_state (d : Dev) {st : Nat} (h : st < 4) : (d.setTmb st).rd Reg.TMB_STAT_state = st :=
  (Dev.rd_wr_same _ _ _).trans (Nat.mod_eq_of_lt h)

theorem Dev.setTmb_tmb (d : Dev) (st : Nat) : (d.setTmb st).tmb = d.tmb := by
  unfold Dev.setTmb
  dsimp only
  split <;> simp

/-! ### An edge in ACQUIRE -/

/-- The fields that a step at an edge writes. -/
def stepFields : List Fld := [Reg.TMB_STAT_state, Reg.TMB_STAT_missed, Reg.TMB_PPS_ERR_e_ns, Reg.TMB_PPS_TS_ts,
  Reg.TMB_CNT_steps, Reg.TMB_SET_CTRL_pending, Reg.TMB_SET_CTRL_applied]

/-- What applies a pending value at an edge, if there is one. -/
def Dev.edgeApplied (d : Dev) : Dev := if d.tmb.setPending.isSome then d.setApplied 1 else d

theorem Dev.edgeApplied_tmb (d : Dev) : d.edgeApplied.tmb = { d.tmb with setPending := none } := by
  unfold Dev.edgeApplied
  split
  · simp [Dev.setApplied, Dev.updTmb]
  · next h =>
    have hnone : d.tmb.setPending = none := by simpa using h
    rw [← hnone]

theorem Dev.edgeApplied_frame {a d : Dev} (h : Frame a d stepFields [.tmb]) : Frame a d.edgeApplied stepFields [.tmb] :=
  .ite (h.setApplied 1) h

theorem Dev.edgeApplied_rd (d : Dev) (g : Fld) (h : g.key ≠ Reg.TMB_SET_CTRL_pending.key := by decide)
    (k : g.key ≠ Reg.TMB_SET_CTRL_applied.key := by decide) : d.edgeApplied.rd g = d.rd g := by
  unfold Dev.edgeApplied
  split
  · simp [Dev.setApplied, Dev.rd_wr_other _ _ _ _ h, Dev.rd_wr_other _ _ _ _ k]
  · rfl

/-- The counts after a step at an edge, before the step leads to LOCKED. -/
def Dev.stepped (d : Dev) (sec : Nat) : Dev :=
  let e := ((d.edgeApplied.setTime sec d.edgeApplied.ppsDelay).incSat Reg.TMB_CNT_steps).causeBit .tmb 18
  ((e.wr Reg.TMB_PPS_TS_ts (sec % 2 ^ 34 * 2 ^ 30)).wr Reg.TMB_STAT_missed 0).updTmb
    fun t => { t with lastInSec := sec % 2 ^ 34, outEdge := none, slew := 0, slewLeft := 0 }

theorem Dev.ppsStep_eq (d : Dev) (cap : Int) : d.ppsStep cap =
    (d.stepped (d.tmb.setPending.getD ((cap + 500000000) / 1000000000 % (2 ^ 34 : Nat)).toNat)).setTmb tmLocked := rfl

theorem Dev.stepped_frame {a d : Dev} (h : Frame a d stepFields [.tmb]) (sec : Nat) :
    Frame a (d.stepped sec) stepFields [.tmb] :=
  ((((((Dev.edgeApplied_frame h).setTmbState _).incSat _ _).reports (Dev.causeBit_reports _ _ _)).wr _ _).wr _ _).setTmbState _

theorem Dev.stepped_tmb (d : Dev) (sec : Nat) : (d.stepped sec).tmb = { d.tmb with
    sec := sec % 2 ^ 34, ns := d.ppsDelay, frac := 0, setPending := none, lastInSec := sec % 2 ^ 34, outEdge := none,
    slew := 0, slewLeft := 0 } := by
  have hdelay : d.edgeApplied.ppsDelay = d.ppsDelay := by unfold Dev.ppsDelay; rw [d.edgeApplied_rd Reg.TMB_CFG_delay_ns]
  simp [Dev.stepped, Dev.updTmb, Dev.setTime, hdelay, Dev.edgeApplied_tmb]

theorem Dev.stepped_rd (d : Dev) (sec : Nat) :
    (d.stepped sec).rd Reg.TMB_STAT_missed = 0 ∧
    (d.stepped sec).rd Reg.TMB_STAT_state = d.rd Reg.TMB_STAT_state ∧
    (d.stepped sec).rd Reg.TMB_CNT_steps = min (d.rd Reg.TMB_CNT_steps + 1) 0xFFFF ∧
    (d.stepped sec).rd Reg.TMB_PPS_ERR_e_ns = d.rd Reg.TMB_PPS_ERR_e_ns ∧
    (d.stepped sec).rd Reg.TMB_SET_CTRL_applied = d.edgeApplied.rd Reg.TMB_SET_CTRL_applied := by
  have hsteps : 2 ^ Reg.TMB_CNT_steps.width - 1 = 0xFFFF := rfl
  simp (disch := decide) [Dev.stepped, Dev.setTime, Dev.rd_incSat_same, Dev.rd_incSat_other, Dev.rd_wr_other,
    Dev.edgeApplied_rd, hsteps]

theorem Dev.stepped_raised (d : Dev) (sec : Nat) : Raised (d.stepped sec) .tmb 18 :=
  (((Dev.wr_grow _ _ _).trans (Dev.wr_grow _ _ _)).trans (Dev.updTmb_grow _ _)).grow _ _ (Dev.causeBit_raised _ .tmb 18)

/-- Where a value was pending, applying it is shown and raised. -/
theorem Dev.edgeApplied_raised (d : Dev) (h : d.tmb.setPending ≠ none) :
    d.edgeApplied.rd Reg.TMB_SET_CTRL_applied = 1 ∧ Raised d.edgeApplied .tmb 19 := by
  have happly : d.edgeApplied = d.setApplied 1 := if_pos (Option.isSome_iff_ne_none.mpr h)
  rw [happly]
  refine ⟨?_, Dev.causeBit_raised _ _ _⟩
  rw [Dev.setApplied, Dev.causeBit_rd, Dev.rd_wr_same]
  rfl

theorem Dev.stepped_grow (d : Dev) (sec : Nat) : Dev.CausesGrow d.edgeApplied (d.stepped sec) := by
  unfold Dev.stepped Dev.setTime Dev.incSat
  exact (((((Dev.updTmb_grow _ _).trans (Dev.wr_grow _ _ _)).trans (Dev.causeBit_grow _ _ _)).trans (Dev.wr_grow _ _ _)).trans
    (Dev.wr_grow _ _ _)).trans (Dev.updTmb_grow _ _)

/-! ### The edge that is captured -/

/-- The count at the edge, less the delay. -/
def Dev.edgeAt (d : Dev) (jitter : Int) : Int :=
  d.tmb.sec * 1000000000 + d.tmb.ns + clampInt (-8) 8 jitter - d.ppsDelay

/-- How far an edge lies from the nearest whole second. -/
def edgeError (cap : Int) : Int :=
  let n := cap % 1000000000
  if n < 500000000 then n else n - 1000000000

/-- The device once an edge's error is shown. -/
def Dev.edgeShown (d : Dev) (jitter : Int) : Dev := d.wr Reg.TMB_PPS_ERR_e_ns (codeOf 32 (edgeError (d.edgeAt jitter)))

section

variable {d : Dev} {falling : Bool} {jitter : Int}

theorem Dev.ppsEdge_of_not_used (h : d.ppsOn = false ∨ d.rdB Reg.TMB_CFG_edge ≠ falling) : d.ppsEdge falling jitter = d := by
  unfold Dev.ppsEdge
  exact if_pos (by rcases h with h | h <;> simp [h])

variable (hon : d.ppsOn = true) (hedge : d.rdB Reg.TMB_CFG_edge = falling)
include hon hedge

theorem Dev.ppsEdge_of_acquire (hst : d.rd Reg.TMB_STAT_state = tmAcquire) :
    d.ppsEdge falling jitter = (d.edgeShown jitter).ppsStep (d.edgeAt jitter) := by
  unfold Dev.ppsEdge
  rw [if_neg (by simp [hon, hedge])]
  exact if_pos ((Dev.rd_wr_other _ _ _ _ (by decide)).trans hst)

theorem Dev.ppsEdge_of_locked_inside (hst : d.rd Reg.TMB_STAT_state = tmLocked)
    (hin : (edgeError (d.edgeAt jitter)).natAbs ≤ 2000000) :
    d.ppsEdge falling jitter = (d.edgeShown jitter).ppsUse (d.edgeAt jitter) (edgeError (d.edgeAt jitter)) := by
  have hshown : (d.edgeShown jitter).rd Reg.TMB_STAT_state = tmLocked := (Dev.rd_wr_other _ _ _ _ (by decide)).trans hst
  unfold Dev.ppsEdge
  rw [if_neg (by simp [hon, hedge])]
  exact (if_neg fun h => absurd (hshown.symm.trans h) (by decide)).trans (if_pos (decide_eq_true hin))

theorem Dev.ppsEdge_of_locked_outside (hst : d.rd Reg.TMB_STAT_state = tmLocked)
    (hout : 2000000 < (edgeError (d.edgeAt jitter)).natAbs) :
    d.ppsEdge falling jitter = ((d.edgeShown jitter).incSat Reg.TMB_CNT_outliers).errCorr .tmb 1 := by
  have hshown : (d.edgeShown jitter).rd Reg.TMB_STAT_state = tmLocked := (Dev.rd_wr_other _ _ _ _ (by decide)).trans hst
  have hcount : (((d.edgeShown jitter).incSat Reg.TMB_CNT_outliers).errCorr .tmb 1).rd Reg.TMB_STAT_state ≠ tmHoldover := by
    rw [Dev.errCorr_rd, Dev.rd_incSat_other _ _ _ _ (by decide), hshown]
    decide
  unfold Dev.ppsEdge
  rw [if_neg (by simp [hon, hedge])]
  exact (if_neg fun h => absurd (hshown.symm.trans h) (by decide)).trans ((if_neg fun h => absurd (of_decide_eq_true h) (Nat.not_le.mpr hout)).trans (if_pos hcount))

end

theorem Dev.edgeShown_rd_error (d : Dev) (jitter : Int) :
    (d.edgeShown jitter).rd Reg.TMB_PPS_ERR_e_ns = codeOf 32 (edgeError (d.edgeAt jitter)) := by
  have hlt : codeOf 32 (edgeError (d.edgeAt jitter)) < 2 ^ 32 := by unfold codeOf; omega
  exact (Dev.rd_wr_same _ _ _).trans (Nat.mod_eq_of_lt hlt)

/-! ### An edge in LOCKED -/

/-- The fields that an edge in LOCKED writes. -/
def lockedFields : List Fld :=
  [Reg.TMB_STAT_state, Reg.TMB_STAT_missed, Reg.TMB_PPS_ERR_e_ns, Reg.TMB_PPS_TS_ts, Reg.TMB_TRIM_trim]

/-- The slew that corrects an error within a second, in units of 2^-32 ns for each tick (R372). -/
def slewOf (err : Int) : Int := (err * 2 ^ 32).tdiv 250000000

/-- The trim after an error (R372). -/
def Dev.trimAfter (d : Dev) (err : Int) : Int := clampInt (-trimMax) trimMax (d.trim - (slewOf err).tdiv 8)

/-- The edges in a row that have left the trim at its limit (R372). -/
def Dev.limitRunAfter (d : Dev) (err : Int) : Nat :=
  if decide ((d.trimAfter err).natAbs = trimMax.natAbs) then d.tmb.limitRun + 1 else 0

/-- Discipline as the writes it makes: the trim, the slew, and an error report where the trim stays at its limit. -/
def Dev.disciplined (d : Dev) (err : Int) (run : Nat) : Dev :=
  (d.wr Reg.TMB_TRIM_trim (codeOf 32 (d.trimAfter err))).updTmb
    fun t => { t with slew := -slewOf err, slewLeft := ticksPerSec, limitRun := run }

theorem Dev.ppsLocked_eq (d : Dev) (err : Int) :
    ∃ run, d.ppsLocked err = d.disciplined err run ∨ d.ppsLocked err = (d.disciplined err run).errUncorr .tmb 3 := by
  refine ⟨d.limitRunAfter err, ?_⟩
  by_cases h : d.limitRunAfter err = 10
  · exact .inr (if_pos h)
  · exact .inl (if_neg h)

theorem Dev.ppsLocked_rd_trim (d : Dev) (err : Int) :
    (d.ppsLocked err).rd Reg.TMB_TRIM_trim = codeOf 32 (d.trimAfter err) := by
  have hlt : codeOf 32 (d.trimAfter err) < 2 ^ 32 := by unfold codeOf; omega
  have hwr (run : Nat) : (d.disciplined err run).rd Reg.TMB_TRIM_trim = codeOf 32 (d.trimAfter err) :=
    (Dev.rd_wr_same _ _ _).trans (Nat.mod_eq_of_lt hlt)
  obtain ⟨run, h | h⟩ := d.ppsLocked_eq err
  · rw [h, hwr]
  · rw [h, Dev.errUncorr_rd, hwr]

theorem Dev.ppsLocked_tmb (d : Dev) (err : Int) :
    ∃ run, (d.ppsLocked err).tmb = { d.tmb with slew := -slewOf err, slewLeft := ticksPerSec, limitRun := run } := by
  obtain ⟨run, h | h⟩ := d.ppsLocked_eq err
  · exact ⟨run, by rw [h]; rfl⟩
  · exact ⟨run, by rw [h]; rfl⟩

end Machine

theorem Frame.ppsLocked {a d : Dev} (h : Frame a d lockedFields [.tmb]) (err : Int) :
    Frame a (d.ppsLocked err) lockedFields [.tmb] := by
  have hdisc (run : Nat) : Frame a (d.disciplined err run) lockedFields [.tmb] := (h.wr _ _).setTmbState _
  obtain ⟨run, hrun | hrun⟩ := d.ppsLocked_eq err
  · rw [hrun]; exact hdisc run
  · rw [hrun]; exact (hdisc run).reports (Dev.errUncorr_reports _ _ _)

namespace Machine

/-- The second that an edge begins. -/
def edgeSecond (cap : Int) : Nat := (cap / 1000000000 % (2 ^ 34 : Nat)).toNat

/-- An edge's timestamp, to the resolution of the count. -/
def edgeStamp (cap : Int) : Nat := edgeSecond cap * 2 ^ 30 + (cap % 1000000000).toNat / 4 * 4

/-- The device after the discipline of an edge, before LOCKED is shown again. -/
def Dev.usedEdge (d : Dev) (cap err : Int) : Dev :=
  ((((d.ppsLocked err).wr Reg.TMB_STAT_missed 0).wr Reg.TMB_PPS_TS_ts (edgeStamp cap)).updTmb
    fun t => { t with lastInSec := edgeSecond cap, outEdge := none })

theorem Dev.usedEdge_tmb (d : Dev) (cap err : Int) : ∃ run, (d.usedEdge cap err).tmb = { d.tmb with
    slew := -slewOf err, slewLeft := ticksPerSec, limitRun := run, lastInSec := edgeSecond cap, outEdge := none } := by
  obtain ⟨run, h⟩ := d.ppsLocked_tmb err
  refine ⟨run, ?_⟩
  rw [Dev.usedEdge, Dev.updTmb_reads, Dev.wr_tmb, Dev.wr_tmb, h]

theorem Dev.usedEdge_rd (d : Dev) (cap err : Int) :
    (d.usedEdge cap err).rd Reg.TMB_TRIM_trim = codeOf 32 (d.trimAfter err) ∧
    (d.usedEdge cap err).rd Reg.TMB_STAT_missed = 0 := by
  constructor
  · rw [Dev.usedEdge, Dev.updTmb_rd, Dev.rd_wr_other _ _ _ _ (by decide), Dev.rd_wr_other _ _ _ _ (by decide),
      Dev.ppsLocked_rd_trim]
  · rw [Dev.usedEdge, Dev.updTmb_rd, Dev.rd_wr_other _ _ _ _ (by decide), Dev.rd_wr_same]
    rfl

/-- What `Dev.ppsUse` does without a pending value, said of a function: the proof unfolds it as one, since the kernel
would evaluate the state that its `match` looks at wherever it met it applied. -/
def UsesEdge (use : Dev → Int → Int → Dev) : Prop :=
  ∀ (d : Dev) (cap err : Int), ((d.usedEdge cap err).setTmb tmLocked).tmb.setPending = none →
    use d cap err = (d.usedEdge cap err).setTmb tmLocked

theorem usesEdge_ppsUse : UsesEdge Dev.ppsUse := by
  delta Dev.ppsUse
  refine id ?_
  intro d cap err h
  beta_reduce
  refine id ?_
  extract_lets sec ts d1 d2
  have hnone : d2.tmb.setPending = none := h
  rw [hnone]
  rfl

theorem Dev.ppsUse_of_no_pending {d : Dev} (h : d.tmb.setPending = none) (cap err : Int) :
    d.ppsUse cap err = (d.usedEdge cap err).setTmb tmLocked := by
  obtain ⟨run, htmb⟩ := d.usedEdge_tmb cap err
  exact usesEdge_ppsUse d cap err (by rw [Dev.setTmb_tmb, htmb, h])

end Machine

theorem Frame.usedEdge {a d : Dev} (h : Frame a d lockedFields [.tmb]) (cap err : Int) :
    Frame a (d.usedEdge cap err) lockedFields [.tmb] :=
  (((h.ppsLocked err).wr _ _).wr _ _).setTmbState _

namespace Machine

/-! ### Missed pulses -/

theorem Dev.ppsMiss_of_not_locked {d : Dev} (h : d.ppsOn = false ∨ d.rd Reg.TMB_STAT_state ≠ tmLocked) : d.ppsMiss = d := by
  unfold Dev.ppsMiss
  exact if_pos (by rcases h with h | h <;> simp [h])

section

variable {d : Dev} (hon : d.ppsOn = true) (hst : d.rd Reg.TMB_STAT_state = tmLocked)
include hon hst

theorem Dev.ppsMiss_of_few (hfew : d.rd Reg.TMB_STAT_missed < 2) : d.ppsMiss = d.incSat Reg.TMB_STAT_missed := by
  have hcount : (d.incSat Reg.TMB_STAT_missed).rd Reg.TMB_STAT_missed < 3 := by
    rw [Dev.rd_incSat_same]
    omega
  unfold Dev.ppsMiss
  rw [if_neg (by simp [hon, hst])]
  exact if_pos hcount

/-- A third missed pulse: what leads to HOLDOVER, and the reports after it. -/
theorem Dev.ppsMiss_of_many (hmany : 2 ≤ d.rd Reg.TMB_STAT_missed) :
    ∃ a b c : Nat, d.ppsMiss = (((((d.incSat Reg.TMB_STAT_missed).updTmb fun t =>
      { t with slew := 0, slewLeft := 0, outEdge := none }).setTmb tmHoldover).causeBit .tmb 16).errCorr .tmb 2).post
        0x80 2 3 a b c := by
  have hwidth : 2 ^ Reg.TMB_STAT_missed.width - 1 = 255 := rfl
  have hcount : ¬ (d.incSat Reg.TMB_STAT_missed).rd Reg.TMB_STAT_missed < 3 := by
    rw [Dev.rd_incSat_same, hwidth]
    omega
  unfold Dev.ppsMiss
  rw [if_neg (by simp [hon, hst])]
  exact ⟨_, _, _, if_neg hcount⟩

end

/-! ### The wrap of the seconds -/

theorem clampInt_bounds {lo hi : Int} (h : lo ≤ hi) (v : Int) : lo ≤ clampInt lo hi v ∧ clampInt lo hi v ≤ hi := by
  unfold clampInt
  omega

/-- Rounding up to a multiple overshoots by less than the divisor. -/
theorem ceilDiv_mul_bounds {a b : Nat} (hb : 0 < b) : a ≤ ceilDiv a b * b ∧ ceilDiv a b * b < a + b := by
  have hdiv : ceilDiv a b = (a + b - 1) / b := if_neg (by omega)
  rw [hdiv]
  have hle := Nat.div_mul_le_self (a + b - 1) b
  have hlt := Nat.lt_div_mul_add hb (a := a + b - 1)
  omega

/-- The ticks until the nanosecond field reaches a second make it pass one second, not two. -/
theorem ticks_to_wrap_wrap_once {ns frac u : Nat} (hns : ns < 1000000000) (hfrac : frac < 2 ^ 34)
    (hlo : 17000000000 ≤ u) (hhi : u ≤ 18000000000) :
    (ns + (frac + ceilDiv ((1000000000 - ns + 3) / 4 * 2 ^ 34 - frac) u * u) / 2 ^ 34 * 4) / 1000000000 = 1 := by
  obtain ⟨hge, hlt⟩ := ceilDiv_mul_bounds (a := (1000000000 - ns + 3) / 4 * 2 ^ 34 - frac) (b := u) (by omega)
  generalize ceilDiv ((1000000000 - ns + 3) / 4 * 2 ^ 34 - frac) u * u = run at hge hlt ⊢
  omega

/-- What a tick adds without slew lies near 4 ns (R372, R377). -/
theorem Dev.tickUnits_bounds (d : Dev) : ∃ u : Nat, d.tickUnits = u ∧ 17000000000 ≤ u ∧ u ≤ 18000000000 := by
  obtain ⟨hlo, hhi⟩ := clampInt_bounds (lo := -trimMax) (hi := trimMax) (by decide) (signedOf 32 (d.rd Reg.TMB_TRIM_trim))
  have htrim : d.tickUnits = 4 * 2 ^ 32 + clampInt (-trimMax) trimMax (signedOf 32 (d.rd Reg.TMB_TRIM_trim)) := rfl
  rw [trimMax] at hlo hhi htrim
  refine ⟨d.tickUnits.toNat, ?_, ?_, ?_⟩ <;> omega

/-- Ticks that pass one second: the count is one second on, and the AON count is reloaded. -/
theorem Dev.passTicks_of_wrap {d : Dev} {n acc : Nat} (hmain : d.sys.pdMain = true) (hset : d.tmb.setPending = none)
    (hacc : ((d.tmb.frac : Int) + n * d.tickUnits + ((min n d.tmb.slewLeft : Nat) : Int) * d.tmb.slew).toNat = acc)
    (honce : (d.tmb.ns + acc / 2 ^ 34 * 4) / 1000000000 = 1) :
    ∃ x : TmbState, d.passTicks n = ({ d with ticks := d.ticks + n, tmb := x } : Dev).stallRun n ∧
      x.sec = (d.tmb.sec + 1) % 2 ^ 34 ∧ x.ns < 1000000000 ∧ x.aonSec = x.sec ∧ x.aonSub = 0 := by
  have hunits : ({ d with ticks := d.ticks + n, tmb := d.tmb.aonRun n } : Dev).tickUnits = d.tickUnits := rfl
  simp only [Dev.passTicks, hmain, Bool.not_true, Bool.false_eq_true, if_false, hunits, TmbState.aonRun_keeps, hacc, honce,
    Nat.one_ne_zero]
  rw [Dev.wrapped_of_setPending_eq_none (by exact hset)]
  exact ⟨_, rfl, rfl, Nat.mod_lt _ (by decide), rfl, rfl⟩

section

variable {d : Dev} (hns : d.tmb.ns < 1000000000) (hfrac : d.tmb.frac < 2 ^ 34) (hslew : d.tmb.slewLeft = 0)
include hns hfrac hslew

theorem Dev.ticksToWrap_eq {u : Nat} (hu : d.tickUnits = u) :
    d.ticksToWrap = ceilDiv ((1000000000 - d.tmb.ns + 3) / 4 * 2 ^ 34 - d.tmb.frac) u := by
  have hleft : ¬ (1000000000 - d.tmb.ns + 3) / 4 * 2 ^ 34 - d.tmb.frac ≤ 0 * (u + d.tmb.slew).toNat := by omega
  rw [Nat.zero_mul] at hleft
  simp only [Dev.ticksToWrap, hu, hslew, Int.toNat_natCast, Nat.zero_mul, Nat.sub_zero, Nat.zero_add, if_neg hleft]

theorem Dev.secondWrap_eq (hmain : d.sys.pdMain = true) (hset : d.tmb.setPending = none) :
    ∃ x : TmbState, d.secondWrap = ({ d with ticks := d.ticks + d.ticksToWrap, tmb := x } : Dev).stallRun d.ticksToWrap ∧
      x.sec = (d.tmb.sec + 1) % 2 ^ 34 ∧ x.ns < 1000000000 ∧ x.aonSec = x.sec ∧ x.aonSub = 0 := by
  obtain ⟨u, hu, hlo, hhi⟩ := d.tickUnits_bounds
  have honce := ticks_to_wrap_wrap_once hns hfrac hlo hhi
  rw [← Dev.ticksToWrap_eq hns hfrac hslew hu] at honce
  have hacc : ((d.tmb.frac : Int) + d.ticksToWrap * d.tickUnits + ((min d.ticksToWrap d.tmb.slewLeft : Nat) : Int) * d.tmb.slew).toNat =
      d.tmb.frac + d.ticksToWrap * u := by
    rw [hslew, Nat.min_zero, Nat.cast_zero, zero_mul, add_zero, hu]
    exact Int.toNat_natCast (d.tmb.frac + d.ticksToWrap * u)
  have hsecond : d.secondWrap = d.passTicks d.ticksToWrap := if_pos hmain
  obtain ⟨x, hpass, hsec, hx, hrest⟩ := Dev.passTicks_of_wrap hmain hset hacc honce
  exact ⟨x, hsecond.trans hpass, hsec, hx, hrest⟩

end

end Machine


theorem Frame.stallRun {a d : Dev} {fs : List Fld} {ps : List Part} (h : Frame a d fs ps) (n : Nat)
    (hf : Reg.PWC_STALL_US_us ∈ fs := by decide) (hp : Part.pwc ∈ ps := by decide) : Frame a (d.stallRun n) fs ps :=
  .ite ((h.incWrap _ _ hf).setPwc _ hp) h

/-! ### O59 -/

/-- An edge in ACQUIRE steps the count and locks. -/
theorem gives_ppsEdge_acquire {falling : Bool} {jitter : Int} {s : State} (hon : s.dev.ppsOn = true)
    (hedge : s.dev.rdB Reg.TMB_CFG_edge = falling) (hst : s.dev.rd Reg.TMB_STAT_state = tmAcquire) :
    let d := s.dev
    let whole := ((d.edgeAt jitter + 500000000) / 1000000000 % (2 ^ 34 : Nat)).toNat
    Gives (.ppsEdge falling jitter) s (fun e =>
      e.tmb.sec = d.tmb.setPending.getD whole % 2 ^ 34 ∧ e.tmb.ns = d.ppsDelay ∧ e.rd Reg.TMB_STAT_state = tmLocked ∧
      e.rd Reg.TMB_STAT_missed = 0 ∧ e.tmb.setPending = none ∧ e.tmb.slewLeft = 0 ∧ Raised e .tmb 17 ∧ Raised e .tmb 18 ∧
      (d.tmb.setPending ≠ none → e.rd Reg.TMB_SET_CTRL_applied = 1 ∧ Raised e .tmb 19) ∧
      e.rd Reg.TMB_CNT_steps = min (d.rd Reg.TMB_CNT_steps + 1) 0xFFFF ∧
      e.rd Reg.TMB_PPS_ERR_e_ns = codeOf 32 (edgeError (d.edgeAt jitter)) ∧ Frame d e stepFields [.tmb]) := by
  intro d whole
  refine gives_of_exec_eq_act (exec_ppsEdge falling jitter s) ?_
  rw [Dev.ppsEdge_of_acquire hon hedge hst, Dev.ppsStep_eq]
  have hshown : (d.edgeShown jitter).tmb = d.tmb := Dev.wr_tmb _ _ _
  have hdelay : (d.edgeShown jitter).ppsDelay = d.ppsDelay := by
    unfold Dev.ppsDelay
    rw [Dev.edgeShown, Dev.rd_wr_other _ _ _ _ (by decide)]
  have hstate : (d.edgeShown jitter).rd Reg.TMB_STAT_state = tmAcquire := (Dev.rd_wr_other _ _ _ _ (by decide)).trans hst
  have hsteps : (d.edgeShown jitter).rd Reg.TMB_CNT_steps = d.rd Reg.TMB_CNT_steps := Dev.rd_wr_other _ _ _ _ (by decide)
  have happlied := (d.edgeShown jitter).edgeApplied_raised
  have herror := d.edgeShown_rd_error jitter
  have hframe : Frame d (d.edgeShown jitter) stepFields [.tmb] := (Frame.refl _ _ _).wr _ _
  rw [hshown] at happlied ⊢
  generalize d.edgeShown jitter = d' at *
  have hrd := d'.stepped_rd (d.tmb.setPending.getD whole)
  have htmb := d'.stepped_tmb (d.tmb.setPending.getD whole)
  have hraised := d'.stepped_raised (d.tmb.setPending.getD whole)
  have hgrow := d'.stepped_grow (d.tmb.setPending.getD whole)
  have hframe' := (((Dev.stepped_frame hframe (d.tmb.setPending.getD whole))).setTmb tmLocked).settle
  generalize d'.stepped (d.tmb.setPending.getD whole) = e at *
  obtain ⟨hmissed, hst', hsteps', herr', happ'⟩ := hrd
  have hlocked : Raised (e.setTmb tmLocked).settle .tmb 17 :=
    (Dev.settle_grow _).grow _ _ (Dev.setTmb_raised (by rw [hst', hstate]; decide))
  have hall := (e.setTmb_grow tmLocked).trans (Dev.settle_grow _)
  have hread (f : Fld) (hf : stateKey f.key = false := by decide) (hkey : f.key ≠ Reg.TMB_STAT_state.key := by decide) :
      (e.setTmb tmLocked).settle.rd f = e.rd f := (Dev.settle_rd _ f hf).trans (Dev.setTmb_rd_other _ _ _ hkey)
  rw [Dev.settle_tmb, Dev.setTmb_tmb, htmb, hdelay, hread Reg.TMB_STAT_missed, hread Reg.TMB_SET_CTRL_applied,
    hread Reg.TMB_CNT_steps, hread Reg.TMB_PPS_ERR_e_ns, Dev.settle_rd _ _ (by decide), Dev.setTmb_rd_state _ (by decide),
    hmissed, hsteps', hsteps, herr', herror, happ']
  refine ⟨rfl, rfl, rfl, rfl, rfl, rfl, hlocked, hall.grow _ _ hraised, fun hpending => ?_, rfl, rfl, hframe'⟩
  obtain ⟨hone, hset⟩ := happlied hpending
  exact ⟨hone, (hgrow.trans hall).grow _ _ hset⟩

/-- An edge in LOCKED within 2 ms disciplines the trim and sets the slew. -/
theorem gives_ppsEdge_locked {falling : Bool} {jitter : Int} {s : State} (hon : s.dev.ppsOn = true)
    (hedge : s.dev.rdB Reg.TMB_CFG_edge = falling) (hst : s.dev.rd Reg.TMB_STAT_state = tmLocked)
    (hin : (edgeError (s.dev.edgeAt jitter)).natAbs ≤ 2000000) (hset : s.dev.tmb.setPending = none) :
    let d := s.dev
    let err := edgeError (d.edgeAt jitter)
    Gives (.ppsEdge falling jitter) s (fun e =>
      e.rd Reg.TMB_TRIM_trim = codeOf 32 (d.trimAfter err) ∧ e.tmb.slew = -slewOf err ∧ e.tmb.slewLeft = ticksPerSec ∧
      e.tmb.sec = d.tmb.sec ∧ e.tmb.ns = d.tmb.ns ∧ e.rd Reg.TMB_STAT_state = tmLocked ∧ e.rd Reg.TMB_STAT_missed = 0 ∧
      Frame d e lockedFields [.tmb]) := by
  intro d err
  refine gives_of_exec_eq_act (exec_ppsEdge falling jitter s) ?_
  have hshown : (d.edgeShown jitter).tmb = d.tmb := Dev.wr_tmb _ _ _
  have htrim : (d.edgeShown jitter).trimAfter err = d.trimAfter err := by
    rw [Dev.trimAfter, Dev.trim, Dev.edgeShown, Dev.rd_wr_other _ _ _ _ (by decide)]
    rfl
  have hframe : Frame d (d.edgeShown jitter) lockedFields [.tmb] := (Frame.refl _ _ _).wr _ _
  rw [Dev.ppsEdge_of_locked_inside hon hedge hst hin,
    Dev.ppsUse_of_no_pending (d := d.edgeShown jitter) (by rw [hshown]; exact hset)]
  generalize d.edgeShown jitter = d' at *
  obtain ⟨run, htmb⟩ := d'.usedEdge_tmb (d.edgeAt jitter) err
  obtain ⟨hrd, hmissed⟩ := d'.usedEdge_rd (d.edgeAt jitter) err
  have hframe' := ((hframe.usedEdge (d.edgeAt jitter) err).setTmb tmLocked).settle
  generalize hused : d'.usedEdge (d.edgeAt jitter) err = e at *
  have hread (f : Fld) (hf : stateKey f.key = false := by decide) (hkey : f.key ≠ Reg.TMB_STAT_state.key := by decide) :
      (e.setTmb tmLocked).settle.rd f = e.rd f := (Dev.settle_rd _ f hf).trans (Dev.setTmb_rd_other _ _ _ hkey)
  rw [Dev.settle_tmb, Dev.setTmb_tmb, htmb, hread Reg.TMB_TRIM_trim, hread Reg.TMB_STAT_missed,
    Dev.settle_rd _ _ (by decide), Dev.setTmb_rd_state _ (by decide), hrd, hmissed, htrim, hshown]
  exact ⟨rfl, rfl, rfl, rfl, rfl, rfl, rfl, hframe'⟩

/-- A later edge in LOCKED is only counted. -/
theorem gives_ppsEdge_outlier {falling : Bool} {jitter : Int} {s : State} (hon : s.dev.ppsOn = true)
    (hedge : s.dev.rdB Reg.TMB_CFG_edge = falling) (hst : s.dev.rd Reg.TMB_STAT_state = tmLocked)
    (hout : 2000000 < (edgeError (s.dev.edgeAt jitter)).natAbs) :
    Gives (.ppsEdge falling jitter) s (fun e =>
      e.rd Reg.TMB_CNT_outliers = min (s.dev.rd Reg.TMB_CNT_outliers + 1) 0xFFFF ∧
      Frame s.dev e [Reg.TMB_PPS_ERR_e_ns, Reg.TMB_CNT_outliers] []) := by
  refine gives_of_exec_eq_act (exec_ppsEdge falling jitter s) ?_
  rw [Dev.ppsEdge_of_locked_outside hon hedge hst hout]
  refine ⟨?_, ((((Frame.refl _ _ _).wr _ _).incSat _ _).reports (Dev.errCorr_reports _ _ _)).settle⟩
  rw [Dev.settle_rd _ _ (by decide), Dev.errCorr_rd, Dev.rd_incSat_same, Dev.edgeShown, Dev.rd_wr_other _ _ _ _ (by decide)]
  rfl

/-- A third missed pulse leads to HOLDOVER. -/
theorem gives_ppsMiss_holdover {s : State} (hon : s.dev.ppsOn = true) (hst : s.dev.rd Reg.TMB_STAT_state = tmLocked)
    (hmany : 2 ≤ s.dev.rd Reg.TMB_STAT_missed) : Gives .ppsMiss s (fun e =>
      e.rd Reg.TMB_STAT_state = tmHoldover ∧ e.tmb.slewLeft = 0 ∧ Raised e .tmb 16 ∧
      Frame s.dev e [Reg.TMB_STAT_missed, Reg.TMB_STAT_state] [.tmb]) := by
  obtain ⟨a, b, c, hmiss⟩ := Dev.ppsMiss_of_many hon hst hmany
  refine gives_of_exec_eq_act (exec_ppsMiss s) ?_
  rw [hmiss]
  have hraised (d : Dev) : Raised (((d.causeBit .tmb 16).errCorr .tmb 2).post 0x80 2 3 a b c).settle .tmb 16 :=
    (((Dev.errCorr_grow _ _ _).trans (Dev.post_grow _ _ _ _ _ _ _ _)).trans (Dev.settle_grow _)).grow _ _
      (Dev.causeBit_raised _ _ _)
  refine ⟨?_, ?_, hraised _, ?_⟩
  · rw [Dev.settle_rd _ _ (by decide), Dev.post_rd, Dev.errCorr_rd, Dev.causeBit_rd, Dev.setTmb_rd_state _ (by decide)]
  · simp only [Dev.settle_keeps, Dev.post_keeps, Dev.errCorr_keeps, Dev.causeBit_keeps, Dev.setTmb_tmb, Dev.updTmb_reads]
  · exact ((((((Frame.refl _ _ _).incSat _ _).setTmbState _).setTmb _).reports (Dev.causeBit_reports _ _ _)).reports
      (Dev.errCorr_reports _ _ _)).reports (Dev.post_reports _ _ _ _ _ _ _ _) |>.settle

/-- A wrap without a pending value adds a second. -/
theorem gives_secondWrap {s : State} (hmain : s.dev.sys.pdMain = true) (hns : s.dev.tmb.ns < 1000000000)
    (hfrac : s.dev.tmb.frac < 2 ^ 34) (hslew : s.dev.tmb.slewLeft = 0) (hset : s.dev.tmb.setPending = none) :
    Gives .secondWrap s (fun e =>
      e.tmb.sec = (s.dev.tmb.sec + 1) % 2 ^ 34 ∧ e.tmb.ns < 1000000000 ∧ e.tmb.aonSec = e.tmb.sec ∧ e.tmb.aonSub = 0 ∧
      e.ticks = s.dev.ticks + s.dev.ticksToWrap ∧ Frame s.dev e [Reg.PWC_STALL_US_us] [.tmb, .pwc]) := by
  obtain ⟨x, hwrap, hsec, hx, haon, hsub⟩ := Dev.secondWrap_eq hns hfrac hslew hmain hset
  generalize s.dev.ticksToWrap = n at hwrap ⊢
  refine gives_of_exec_eq_act (exec_secondWrap s) ?_
  rw [hwrap]
  have hframe : Frame s.dev { s.dev with ticks := s.dev.ticks + n, tmb := x } [Reg.PWC_STALL_US_us] [.tmb, .pwc] :=
    (Frame.refl s.dev _ _).setClock _ _
  obtain ⟨ktmb, kticks, -⟩ := ({ s.dev with ticks := s.dev.ticks + n, tmb := x } : Dev).stallRun_keeps n
  simp only [Dev.settle_keeps, ktmb, kticks]
  exact ⟨hsec, hx, haon, hsub, trivial, (hframe.stallRun n).settle⟩

/-- arm holds the seconds value. -/
theorem gives_timeSetArm {s : State} (h : HostReaches s.dev 0 .tmb) : Gives .timeSetArm s (fun e =>
    e.tmb = { s.dev.tmb with setPending := some (s.dev.rd Reg.TMB_SET_SEC_sec), armDue := s.dev.ticks + 375000000 } ∧
    e.rd Reg.TMB_SET_CTRL_pending = 1 ∧ Frame s.dev e [Reg.TMB_SET_CTRL_pending] [.tmb]) := by
  refine gives_of_exec_eq_atFn (exec_timeSetArm s) h fun d hd => ?_
  obtain ⟨htmb, hticks⟩ := (Frame.of_woken hd [] []).part .tmb
  refine ⟨?_, ?_, (((Frame.of_woken hd _ _).setTmbState _).wr _ _).settle⟩
  · rw [Dev.settle_tmb, Dev.timeArm, Dev.wr_tmb, Dev.updTmb_reads, htmb, hticks, hd.rd Reg.TMB_SET_SEC_sec]
  · rw [Dev.settle_rd _ _ (by decide)]
    exact Dev.rd_wr_same _ _ _

/-- pps_en leads to FREE, and from FREE to ACQUIRE. -/
theorem gives_ppsEnable {on : Bool} {s : State} (h : HostReaches s.dev 0 .tmb) : Gives (.ppsEnable on) s (fun e =>
    e.rd Reg.TMB_CFG_pps_en = b2n on ∧ (on = false → e.rd Reg.TMB_STAT_state = tmFree ∧ e.rd Reg.TMB_STAT_missed = 0) ∧
    (on = true → s.dev.rd Reg.TMB_STAT_state = tmFree → s.dev.blkState .tmb ≠ stOff → s.dev.sys.pdMain = true →
      e.rd Reg.TMB_STAT_state = tmAcquire) ∧
    (on = true → s.dev.rd Reg.TMB_STAT_state ≠ tmFree → e.rd Reg.TMB_STAT_state = s.dev.rd Reg.TMB_STAT_state) ∧
    Frame s.dev e [Reg.TMB_CFG_pps_en, Reg.TMB_STAT_state, Reg.TMB_STAT_missed] [.tmb]) := by
  refine gives_of_exec_eq_atFn (exec_ppsEnable on s) h fun d hd => ?_
  have hen : (d.wrB Reg.TMB_CFG_pps_en on).rd Reg.TMB_CFG_pps_en = b2n on :=
    (Dev.rd_wr_same _ _ _).trans (by cases on <;> rfl)
  have hstate : (d.wrB Reg.TMB_CFG_pps_en on).rd Reg.TMB_STAT_state = s.dev.rd Reg.TMB_STAT_state :=
    (Dev.rd_wr_other _ _ _ _ (by decide)).trans (hd.rd _)
  have hoff : (d.wrB Reg.TMB_CFG_pps_en on).blkState .tmb = s.dev.blkState .tmb :=
    (Dev.rd_wr_other _ _ _ _ (by decide)).trans (hd.blkState .tmb)
  have hmain : (d.wrB Reg.TMB_CFG_pps_en on).sys.pdMain = s.dev.sys.pdMain := congrArg SysState.pdMain hd.keeps.2.2.2.2.2.2.2.1
  have hframe : Frame s.dev (d.wrB Reg.TMB_CFG_pps_en on) [Reg.TMB_CFG_pps_en, Reg.TMB_STAT_state, Reg.TMB_STAT_missed] [.tmb] :=
    (Frame.of_woken hd _ _).wr _ _
  unfold Dev.ppsEnable
  generalize d.wrB Reg.TMB_CFG_pps_en on = e at *
  cases on with
  | false =>
    refine ⟨?_, fun _ => ⟨?_, ?_⟩, nofun, nofun, (((hframe.setTmbState _).setTmb _).wr _ _).settle⟩
    · rw [Dev.settle_rd _ _ (by decide), Bool.not_false, if_pos rfl, Dev.tmbFree, Dev.rd_wr_other _ _ _ _ (by decide),
        Dev.setTmb_rd_other _ _ _ (by decide), Dev.updTmb_rd, hen]
    · rw [Dev.settle_rd _ _ (by decide), Bool.not_false, if_pos rfl, Dev.tmbFree, Dev.rd_wr_other _ _ _ _ (by decide),
        Dev.setTmb_rd_state _ (by decide)]
    · rw [Dev.settle_rd _ _ (by decide), Bool.not_false, if_pos rfl, Dev.tmbFree, Dev.rd_wr_same]
      rfl
  | true =>
    refine ⟨?_, nofun, fun _ hfree hst hpd => ?_, fun _ hbusy => ?_, (Frame.ite (hframe.setTmb _) hframe).settle⟩
    · rw [Dev.settle_rd _ _ (by decide), Bool.not_true, if_neg (by decide)]
      split
      · rw [Dev.setTmb_rd_other _ _ _ (by decide), hen]
      · exact hen
    · rw [Dev.settle_rd _ _ (by decide), Bool.not_true, if_neg (by decide),
        if_pos ⟨hstate.trans hfree, by rw [hoff]; exact hst, hmain.trans hpd⟩, Dev.setTmb_rd_state _ (by decide)]
    · rw [Dev.settle_rd _ _ (by decide), Bool.not_true, if_neg (by decide), if_neg (fun h => hbusy (hstate.symm.trans h.1)), hstate]

/-- Settles O59: an edge as `Dev.edgeAt` and `edgeError` measure it, case by case of the state. -/
theorem timebaseEdges : Obligations.TimebaseEdges := by
  intro jitter falling on s
  refine ⟨fun hunused => ?_, fun ⟨hon, hedge⟩ hst => gives_ppsEdge_acquire hon hedge hst, fun ⟨hon, hedge⟩ hst hin hset => ?_,
    fun ⟨hon, hedge⟩ hst hout => ?_, fun hunused => ?_, fun hon hst => ⟨fun hfew => ?_, fun hmany => ?_⟩, fun hmain => ?_,
    fun hmain hns hfrac hslew hset _ => ?_, fun h => ?_, fun h => ?_⟩
  · refine gives_of_exec_eq_act (exec_ppsEdge falling jitter s) ?_
    rw [Dev.ppsEdge_of_not_used hunused]
    exact (Frame.refl _ _ _).settle
  · exact gives_ppsEdge_locked hon hedge hst hin hset
  · exact gives_ppsEdge_outlier hon hedge hst hout
  · refine gives_of_exec_eq_act (exec_ppsMiss s) ?_
    rw [Dev.ppsMiss_of_not_locked hunused]
    exact (Frame.refl _ _ _).settle
  · refine gives_of_exec_eq_act (exec_ppsMiss s) ?_
    rw [Dev.ppsMiss_of_few hon hst hfew]
    have hwidth : 2 ^ Reg.TMB_STAT_missed.width - 1 = 255 := rfl
    refine ⟨?_, ?_, ((Frame.refl _ _ _).incSat _ _).settle⟩
    · rw [Dev.settle_rd _ _ (by decide), Dev.rd_incSat_same, hwidth]
      omega
    · rw [Dev.settle_rd _ _ (by decide), Dev.rd_incSat_other _ _ _ _ (by decide), hst]
  · exact gives_ppsMiss_holdover hon hst hmany
  · refine gives_of_exec_eq_act (exec_secondWrap s) ?_
    have hsame : s.dev.secondWrap = s.dev := if_neg (by simp [hmain])
    rw [hsame]
    exact (Frame.refl _ _ _).settle
  · exact gives_secondWrap hmain hns hfrac hslew hset
  · exact gives_timeSetArm h
  · exact gives_ppsEnable h

end Sys2Proof
end

section
/-! The bulk move engine (R379 to R391): arming, loading, resuming, stopping, and what a set leaves in the RAMs. -/

set_option Elab.async false

namespace Sys2Proof

open Sys2Proof.Machine

section

variable {c : Nat} (hc : c < 8) (s : State)
include hc

theorem exec_bmeArm : exec (.bmeArm c) s = s.act fun d => d.atFn 0 .bme fun d => d.bmeArm c := by
  simp only [exec, execBmeArm, onPage, hc, decide_true, if_true, Dev.atPage]

theorem exec_bmeResume : exec (.bmeResume c) s = s.act fun d => d.atFn 0 .bme fun d => d.bmeResume c := by
  simp only [exec, execBmeResume, onPage, hc, decide_true, if_true, Dev.atPage]

theorem exec_bmeChannelDisable : exec (.bmeChannelDisable c) s = s.act fun d => d.atFn 0 .bme fun d => d.bmeDrop c := by
  simp only [exec, execBmeChannelDisable, onPage, hc, decide_true, if_true, Dev.atPage]

theorem exec_bmeChannelEnable : exec (.bmeChannelEnable c) s = s.act fun d => d.atFn 0 .bme fun d => d.bmeEnable c := by
  simp only [exec, execBmeChannelEnable, onPage, hc, decide_true, if_true, Dev.atPage]

theorem exec_bmeSetDone_eq : exec (.bmeSetDone c) s = (s.bmeSetDone c).act id := by
  simp only [exec, execBmeSetDone, hc, if_true]

theorem exec_bmeSetError_eq (e n : Nat) : exec (.bmeSetError c e n) s = (s.bmeSetError c e n).act id := by
  simp only [exec, execBmeSetError, hc, if_true]

end

namespace Machine

/-! ### The registers of a channel -/

/-- The fields of a channel, by their index. -/
def chanFields : List Fld := [Reg.BME_ACT_SRC_addr, Reg.BME_ACT_DST_addr, Reg.BME_ACT_LEN_bytes, Reg.BME_ACT_CFG_irq,
  Reg.BME_ACT_CFG_dst_space, Reg.BME_ACT_CFG_src_space, Reg.BME_SH_CFG_armed, Reg.BME_CH_DONE_bytes, Reg.BME_CH_STAT_error,
  Reg.BME_CH_STAT_state, Reg.BME_CH_STAT_sets, Reg.BME_CH_CTRL_en]

/-- The fields of a channel are no block's state, and none is the count of all bytes. -/
theorem chanFields_apart : ∀ c < 8, ∀ f ∈ chanFields, stateKey (f.ix c).key = false ∧
    (f.ix c).key ≠ Reg.BME_BYTES_bytes.key ∧ Reg.BME_BYTES_bytes.key ≠ (f.ix c).key ∧ pstateKey (f.ix c).key = false := by
  decide +kernel

/-- A channel's field reads the same at the end of the command. -/
theorem Dev.settle_chan (d : Dev) {c : Nat} (hc : c < 8) (f : Fld) (hf : f ∈ chanFields := by decide) :
    d.settle.rd (f.ix c) = d.rd (f.ix c) := Dev.settle_rd _ _ (chanFields_apart c hc f hf).1

/-- The fields of an active set. -/
def actFields (c : Nat) : List Fld := [Reg.BME_ACT_SRC_addr.ix c, Reg.BME_ACT_DST_addr.ix c, Reg.BME_ACT_LEN_bytes.ix c,
  Reg.BME_ACT_CFG_irq.ix c, Reg.BME_ACT_CFG_dst_space.ix c, Reg.BME_ACT_CFG_src_space.ix c]

/-- The fields of an active set, by their index. -/
def actBase : List Fld := [Reg.BME_ACT_SRC_addr, Reg.BME_ACT_DST_addr, Reg.BME_ACT_LEN_bytes, Reg.BME_ACT_CFG_irq,
  Reg.BME_ACT_CFG_dst_space, Reg.BME_ACT_CFG_src_space]

theorem actFields_eq (c : Nat) : actFields c = actBase.map fun f => f.ix c := rfl

/-- The fields of an active set are fields of the channel, and no others that a set's end writes. -/
theorem actBase_apart : ∀ f ∈ actBase, f ∈ chanFields ∧ ∀ g ∈ [Reg.BME_SH_CFG_armed, Reg.BME_CH_DONE_bytes,
    Reg.BME_CH_STAT_error, Reg.BME_CH_STAT_state, Reg.BME_CH_CTRL_en], f.apart g = true := by decide

/-- The fields that the load, the end or the drop of a set writes. -/
def setFields (c : Nat) : List Fld := actFields c ++ [Reg.BME_SH_CFG_armed.ix c, Reg.BME_CH_DONE_bytes.ix c,
  Reg.BME_CH_STAT_error.ix c, Reg.BME_CH_STAT_state.ix c]

theorem Dev.bmeSetActive_rd (d : Dev) (c src dst len irq ds ss : Nat) :
    (d.bmeSetActive c src dst len irq ds ss).rd (Reg.BME_ACT_DST_addr.ix c) = dst % 2 ^ 64 ∧
    (d.bmeSetActive c src dst len irq ds ss).rd (Reg.BME_ACT_LEN_bytes.ix c) = len % 2 ^ 32 := by
  simp (disch := decide) only [Dev.bmeSetActive, Dev.rd_wr_ix, Dev.rd_wr_same, Fld.ix_width]
  exact ⟨rfl, rfl⟩

theorem Dev.bmeSetActive_zero (d : Dev) (c : Nat) : ∀ f ∈ actFields c, (d.bmeSetActive c 0 0 0 0 0 0).rd f = 0 := by
  simp only [actFields, List.forall_mem_cons, List.not_mem_nil, false_imp_iff, implies_true, and_true]
  simp (disch := decide) only [Dev.bmeSetActive, Dev.rd_wr_ix, Dev.rd_wr_same, Nat.zero_mod, and_self]

theorem Dev.bmeSetActive_rd_other (d : Dev) (c src dst len irq ds ss : Nat) (g : Fld)
    (hg : ∀ f ∈ [Reg.BME_ACT_SRC_addr, Reg.BME_ACT_DST_addr, Reg.BME_ACT_LEN_bytes, Reg.BME_ACT_CFG_irq,
      Reg.BME_ACT_CFG_dst_space, Reg.BME_ACT_CFG_src_space], g.apart f = true := by decide) :
    (d.bmeSetActive c src dst len irq ds ss).rd (g.ix c) = d.rd (g.ix c) := by
  simp only [List.forall_mem_cons] at hg
  obtain ⟨h1, h2, h3, h4, h5, h6, -⟩ := hg
  rw [Dev.bmeSetActive, Dev.rd_wr_ix _ _ _ _ _ h6, Dev.rd_wr_ix _ _ _ _ _ h5, Dev.rd_wr_ix _ _ _ _ _ h4,
    Dev.rd_wr_ix _ _ _ _ _ h3, Dev.rd_wr_ix _ _ _ _ _ h2, Dev.rd_wr_ix _ _ _ _ _ h1]

end Machine

/-! ### Frames of a channel -/

section

variable {a d : Dev} {ps : List Part} {c : Nat}

theorem Frame.bmeSetActive {fs : List Fld} (h : Frame a d fs ps) (src dst len irq ds ss : Nat) (hfs : actFields c ⊆ fs) :
    Frame a (d.bmeSetActive c src dst len irq ds ss) fs ps := by
  simp only [actFields, List.cons_subset] at hfs
  obtain ⟨h1, h2, h3, h4, h5, h6, -⟩ := hfs
  exact (((((h.wr _ _ h1).wr _ _ h2).wr _ _ h3).wr _ _ h4).wr _ _ h5).wr _ _ h6

theorem actFields_subset (c : Nat) : actFields c ⊆ setFields c := List.subset_append_left _ _

theorem Frame.sendRead {fs : List Fld} (h : Frame a d fs ps) (r : ReadReq) (id : Nat) (hp : Part.host ∈ ps := by decide) :
    Frame a (d.sendRead r id) fs ps :=
  (h.setHif _ hp).reports ((Dev.exitL1_reports _).trans (Dev.emit_reports _ _))

theorem Frame.askRead {fs : List Fld} (h : Frame a d fs ps) (r : ReadReq) (hp : Part.host ∈ ps := by decide) :
    Frame a (d.askRead r) fs ps := by
  unfold Dev.askRead
  split
  · exact .ite (h.sendRead r _ hp) (h.setHif _ hp)
  · exact h.setHif _ hp

theorem Frame.readHost {fs : List Fld} (h : Frame a d fs ps) (f addr len : Nat) (kind : Nat → Nat → ReadKind)
    (hp : Part.host ∈ ps := by decide) : Frame a (d.readHost f addr len kind) fs ps :=
  h.trans (Frame.forEach (fun _ _ => (Frame.refl _ _ _).askRead _ hp) _ d) (List.Subset.refl _) (List.Subset.refl _)

theorem Frame.bmeSpoil {fs : List Fld} (h : Frame a d fs ps) (space lo hi : Nat) (hp : Part.bme ∈ ps := by decide) :
    Frame a (d.bmeSpoil space lo hi) fs ps :=
  .ite (h.setBme _ hp).nextFree h

theorem Frame.dropReads {fs : List Fld} (h : Frame a d fs ps) (mine : ReadKind → Bool) (hp : Part.host ∈ ps := by decide) :
    Frame a (d.dropReads mine) fs ps := h.setHif _ hp

end

namespace Machine

/-! ### Loading a set -/

/-- What the check at load finds depends on the window, the size of SCRATCH and the state of group A alone. -/
theorem Dev.bmeCheck_congr {d e : Dev} (h : ∀ f ∈ [Reg.PWC_SCRATCH_mib, Reg.BME_WIN_BASE_base, Reg.BME_WIN_LIMIT_limit,
    Reg.PWC_STAT_grp_a], e.rd f = d.rd f) (ss ds src dst len : Nat) :
    e.bmeCheck ss ds src dst len = d.bmeCheck ss ds src dst len := by
  simp only [List.forall_mem_cons] at h
  obtain ⟨hmib, hbase, hlimit, hgrp, -⟩ := h
  have hup : e.groupUp .a = d.groupUp .a := by
    change decide (e.rd Reg.PWC_STAT_grp_a < grFailed) = decide (d.rd Reg.PWC_STAT_grp_a < grFailed)
    rw [hgrp]
  unfold Dev.bmeCheck Dev.bmeExtent Dev.inWindow
  rw [hmib, hbase, hlimit, hup]

/-- The check at load finds INVALID, WINDOW or nothing. -/
theorem Dev.bmeCheck_lt {d : Dev} {ss ds src dst len x : Nat} (h : d.bmeCheck ss ds src dst len = some x) : x < 3 := by
  unfold Dev.bmeCheck at h
  dsimp only at h
  split at h
  · cases h; decide
  · split at h
    · cases h; decide
    · cases h

/-- The device once an armed set has become the active one. -/
def Dev.bmeLoaded (d : Dev) (c : Nat) : Dev :=
  ((((((d.bmeSetActive c (d.rd (Reg.BME_SH_SRC_addr.ix c)) (d.rd (Reg.BME_SH_DST_addr.ix c)) (d.rd (Reg.BME_SH_LEN_bytes.ix c))
    (d.rd (Reg.BME_SH_CFG_irq.ix c)) (d.rd (Reg.BME_SH_CFG_dst_space.ix c)) (d.rd (Reg.BME_SH_CFG_src_space.ix c))).wr
    (Reg.BME_SH_CFG_armed.ix c) 0).wr (Reg.BME_CH_DONE_bytes.ix c) 0).wr (Reg.BME_CH_STAT_error.ix c) 0).wr
    (Reg.BME_CH_STAT_state.ix c) 1).updBmeCh c fun _ => {})

/-- What the check at load finds in the armed set. -/
def Dev.bmeFinds (d : Dev) (c : Nat) : Option Nat :=
  d.bmeCheck (d.rd (Reg.BME_SH_CFG_src_space.ix c)) (d.rd (Reg.BME_SH_CFG_dst_space.ix c))
    (d.rd (Reg.BME_SH_SRC_addr.ix c)) (d.rd (Reg.BME_SH_DST_addr.ix c)) (d.rd (Reg.BME_SH_LEN_bytes.ix c))

end Machine

theorem Frame.bmeLoaded {a d : Dev} {ps : List Part} {c : Nat} (h : Frame a d (setFields c) ps)
    (hp : Part.bme ∈ ps := by decide) : Frame a (d.bmeLoaded c) (setFields c) ps :=
  (((((h.bmeSetActive _ _ _ _ _ _ (actFields_subset c)).wr _ _ (by simp [setFields])).wr _ _ (by simp [setFields])).wr _ _
    (by simp [setFields])).wr _ _ (by simp [setFields])).setBme _ hp

namespace Machine

/-- The fields that the check at load reads are none that a set's load writes. -/
theorem setFields_apart : ∀ c < 8, ∀ g ∈ [Reg.PWC_SCRATCH_mib, Reg.BME_WIN_BASE_base, Reg.BME_WIN_LIMIT_limit,
    Reg.PWC_STAT_grp_a], stateKey g.key = false ∧ ∀ f ∈ setFields c, g.key ≠ f.key := by decide +kernel

section

variable {d : Dev} {c : Nat}

theorem Dev.bmeLoaded_check (hc : c < 8) (ss ds src dst len : Nat) :
    (d.bmeLoaded c).bmeCheck ss ds src dst len = d.bmeCheck ss ds src dst len := by
  refine Dev.bmeCheck_congr (fun g hg => ?_) _ _ _ _ _
  obtain ⟨hstate, hkeys⟩ := setFields_apart c hc g hg
  exact (Frame.bmeLoaded (Frame.refl d _ [.bme])).1 g hkeys hstate

theorem Dev.bmeLoad_of_finds (hc : c < 8) {x : Nat} (h : d.bmeFinds c = some x) : d.bmeLoad c =
    ((((d.bmeLoaded c).wr (Reg.BME_CH_STAT_state.ix c) 2).wr (Reg.BME_CH_STAT_error.ix c) x).causeBit .bme (24 + c)).errUncorr
      .bme x := by
  have hcheck := (Dev.bmeLoaded_check hc _ _ _ _ _).trans h
  rw [Dev.bmeLoaded] at hcheck ⊢
  simp only [Dev.bmeLoad, hcheck]

theorem Dev.bmeLoad_of_finds_nothing (hc : c < 8) (h : d.bmeFinds c = none) : d.bmeLoad c =
    if d.rd (Reg.BME_SH_CFG_src_space.ix c) = spHost then
      (d.bmeLoaded c).readHost 0 (d.rd (Reg.BME_SH_SRC_addr.ix c)) (d.rd (Reg.BME_SH_LEN_bytes.ix c)) fun off _ => .bme c off
    else d.bmeLoaded c := by
  have hcheck := (Dev.bmeLoaded_check hc _ _ _ _ _).trans h
  rw [Dev.bmeLoaded] at hcheck ⊢
  simp only [Dev.bmeLoad, hcheck]

theorem Dev.bmeLoaded_rd : (d.bmeLoaded c).rd (Reg.BME_SH_CFG_armed.ix c) = 0 ∧
    (d.bmeLoaded c).rd (Reg.BME_ACT_DST_addr.ix c) = d.rd (Reg.BME_SH_DST_addr.ix c) % 2 ^ 64 ∧
    (d.bmeLoaded c).rd (Reg.BME_ACT_LEN_bytes.ix c) = d.rd (Reg.BME_SH_LEN_bytes.ix c) % 2 ^ 32 ∧
    (d.bmeLoaded c).bmeState c = 1 ∧ (d.bmeLoaded c).rd (Reg.BME_CH_DONE_bytes.ix c) = 0 := by
  obtain ⟨hdst, hlen⟩ := d.bmeSetActive_rd c (d.rd (Reg.BME_SH_SRC_addr.ix c)) (d.rd (Reg.BME_SH_DST_addr.ix c))
    (d.rd (Reg.BME_SH_LEN_bytes.ix c)) (d.rd (Reg.BME_SH_CFG_irq.ix c)) (d.rd (Reg.BME_SH_CFG_dst_space.ix c))
    (d.rd (Reg.BME_SH_CFG_src_space.ix c))
  simp (disch := decide) only [Dev.bmeLoaded, Dev.bmeState, Dev.updBmeCh_rd, Dev.rd_wr_ix, Dev.rd_wr_same, hdst, hlen,
    Nat.zero_mod, true_and, and_true, Fld.ix_width]
  rfl

end

/-- The fields of the shadow set that a load reads. -/
def shadowFields : List Fld := [Reg.BME_SH_SRC_addr, Reg.BME_SH_DST_addr, Reg.BME_SH_LEN_bytes, Reg.BME_SH_CFG_irq,
  Reg.BME_SH_CFG_dst_space, Reg.BME_SH_CFG_src_space]

theorem shadowFields_apart : ∀ c < 8, ∀ f ∈ shadowFields, stateKey (f.ix c).key = false ∧
    (f.ix c).key ≠ (Reg.BME_SH_CFG_armed.ix c).key := by decide +kernel

theorem armed_apart : ∀ c < 8, ∀ g ∈ [Reg.PWC_SCRATCH_mib, Reg.BME_WIN_BASE_base, Reg.BME_WIN_LIMIT_limit,
    Reg.PWC_STAT_grp_a], g.key ≠ (Reg.BME_SH_CFG_armed.ix c).key := by decide +kernel

end Machine

/-- Arming changes nothing that a load reads. -/
theorem Frame.bmeFinds {a d : Dev} {ps : List Part} {c : Nat} (hc : c < 8) (h : Frame a d [Reg.BME_SH_CFG_armed.ix c] ps) :
    (∀ f ∈ shadowFields, d.rd (f.ix c) = a.rd (f.ix c)) ∧ d.bmeFinds c = a.bmeFinds c := by
  have hshadow : ∀ f ∈ shadowFields, d.rd (f.ix c) = a.rd (f.ix c) := fun f hf =>
    h.1 _ (by simpa using (shadowFields_apart c hc f hf).2) (shadowFields_apart c hc f hf).1
  refine ⟨hshadow, ?_⟩
  simp only [shadowFields, List.forall_mem_cons] at hshadow
  obtain ⟨hsrc, hdst, hlen, -, hds, hss, -⟩ := hshadow
  rw [Dev.bmeFinds, hsrc, hdst, hlen, hds, hss]
  exact Dev.bmeCheck_congr (fun g hg => h.1 g (by simpa using armed_apart c hc g hg) (setFields_apart c hc g hg).1) _ _ _ _ _

/-! ### What the host asks of a channel -/

section

variable {c : Nat} (hc : c < 8) {s : State} (h : HostReaches s.dev 0 .bme)
include hc

theorem Machine.Dev.Woken.chan {d e : Dev} (h : Dev.Woken d e) (f : Fld) (hf : f ∈ chanFields := by decide) :
    e.rd (f.ix c) = d.rd (f.ix c) := h.fields _ (chanFields_apart c hc f hf).2.2.2

include h

/-- Arming is refused while the channel is OFF or its set armed. -/
theorem gives_bmeArm_refused (hoff : s.dev.bmeState c = 3 ∨ s.dev.rd (Reg.BME_SH_CFG_armed.ix c) ≠ 0) :
    Gives (.bmeArm c) s (fun e => Raised e .bme 3 ∧ Frame s.dev e [] []) := by
  refine gives_of_exec_eq_atFn (exec_bmeArm hc s) h fun d hd => ?_
  have hrefuse : d.bmeArm c = d.refuse .bme := by
    refine if_pos ?_
    simp only [Dev.bmeState, Dev.rdB, hd.chan hc Reg.BME_CH_STAT_state, hd.chan hc Reg.BME_SH_CFG_armed, Bool.or_eq_true,
      decide_eq_true_eq]
    exact hoff
  rw [hrefuse]
  exact ⟨Dev.settle_raised _ _ _ (Dev.refuse_raised _ _), ((Frame.of_woken hd _ _).reports (Dev.refuse_reports _ _)).settle⟩

omit h in
/-- A channel that is not OFF is armed. -/
theorem Machine.Dev.bmeArm_of_open {d : Dev} (hd : Dev.Woken s.dev d) (hoff : s.dev.bmeState c ≠ 3)
    (harmed : s.dev.rd (Reg.BME_SH_CFG_armed.ix c) = 0) : d.bmeArm c =
      if s.dev.bmeState c = 0 then (d.wr (Reg.BME_SH_CFG_armed.ix c) 1).bmeLoad c else d.wr (Reg.BME_SH_CFG_armed.ix c) 1 := by
  have hstate : d.bmeState c = s.dev.bmeState c := hd.chan hc Reg.BME_CH_STAT_state
  have hfree : d.rdB (Reg.BME_SH_CFG_armed.ix c) = false := by
    rw [Dev.rdB, hd.chan hc Reg.BME_SH_CFG_armed, harmed]
    rfl
  have hstate' : (d.wr (Reg.BME_SH_CFG_armed.ix c) 1).bmeState c = s.dev.bmeState c :=
    (Dev.rd_wr_ix _ _ _ _ _ (by decide)).trans hstate
  rw [Dev.bmeArm, hstate, hfree, if_neg (by simpa using hoff)]
  dsimp only
  rw [hstate']

/-- A channel with an active set keeps the set armed. -/
theorem gives_bmeArm_held (hstate : s.dev.bmeState c = 1 ∨ s.dev.bmeState c = 2)
    (harmed : s.dev.rd (Reg.BME_SH_CFG_armed.ix c) = 0) : Gives (.bmeArm c) s (fun e =>
      e.rd (Reg.BME_SH_CFG_armed.ix c) = 1 ∧ Frame s.dev e [Reg.BME_SH_CFG_armed.ix c] []) := by
  refine gives_of_exec_eq_atFn (exec_bmeArm hc s) h fun d hd => ?_
  rw [Dev.bmeArm_of_open hc hd (by omega) harmed, if_neg (by omega)]
  refine ⟨?_, ((Frame.of_woken hd _ _).wr _ _ (List.mem_singleton_self _)).settle⟩
  rw [Dev.settle_chan _ hc Reg.BME_SH_CFG_armed, Dev.rd_wr_same]
  rfl

/-- What an IDLE channel has once it has loaded the set, whatever the check finds. -/
def Machine.Dev.ShadowLoaded (d e : Dev) (c : Nat) : Prop :=
  e.rd (Reg.BME_SH_CFG_armed.ix c) = 0 ∧ e.rd (Reg.BME_ACT_DST_addr.ix c) = d.rd (Reg.BME_SH_DST_addr.ix c) % 2 ^ 64 ∧
    e.rd (Reg.BME_ACT_LEN_bytes.ix c) = d.rd (Reg.BME_SH_LEN_bytes.ix c) % 2 ^ 32

omit hc h in
/-- The armed device that an IDLE channel loads from. -/
theorem Machine.Dev.Woken.armed {d : Dev} (hd : Dev.Woken s.dev d) :
    Frame s.dev (d.wr (Reg.BME_SH_CFG_armed.ix c) 1) [Reg.BME_SH_CFG_armed.ix c] [] :=
  (Frame.of_woken hd _ _).wr _ _ (List.mem_singleton_self _)

omit hc h in
theorem Machine.Dev.ShadowLoaded.mono {d e e' : Dev} (hload : Dev.ShadowLoaded d e c)
    (hrd : ∀ f ∈ [Reg.BME_SH_CFG_armed, Reg.BME_ACT_DST_addr, Reg.BME_ACT_LEN_bytes], e'.rd (f.ix c) = e.rd (f.ix c)) :
    Dev.ShadowLoaded d e' c := by
  simp only [List.forall_mem_cons] at hrd
  obtain ⟨harmed, hdst, hlen, -⟩ := hrd
  rw [Dev.ShadowLoaded, harmed, hdst, hlen]
  exact hload

omit h in
theorem Machine.Dev.ShadowLoaded.settle {d e : Dev} (hload : Dev.ShadowLoaded d e c) : Dev.ShadowLoaded d e.settle c :=
  hload.mono fun f hf => e.settle_chan hc f (by simp only [List.mem_cons, List.not_mem_nil, or_false] at hf; rcases hf with rfl | rfl | rfl <;> decide)

omit h in
theorem Machine.Dev.bmeLoaded_shadow {d : Dev} (harm : Frame s.dev d [Reg.BME_SH_CFG_armed.ix c] []) :
    Dev.ShadowLoaded s.dev (d.bmeLoaded c) c := by
  obtain ⟨harmed, hdst, hlen, -⟩ := d.bmeLoaded_rd (c := c)
  obtain ⟨hshadow, -⟩ := harm.bmeFinds hc
  rw [Dev.ShadowLoaded, harmed, hdst, hlen, hshadow Reg.BME_SH_DST_addr (by decide), hshadow Reg.BME_SH_LEN_bytes (by decide)]
  exact ⟨rfl, rfl, rfl⟩

variable (hstate : s.dev.bmeState c = 0) (harmed : s.dev.rd (Reg.BME_SH_CFG_armed.ix c) = 0)
include hstate harmed

/-- An armed set that the check refuses ends in ERROR. -/
theorem gives_bmeArm_error {x : Nat} (hfinds : s.dev.bmeFinds c = some x) : Gives (.bmeArm c) s (fun e =>
    Dev.ShadowLoaded s.dev e c ∧ e.bmeState c = 2 ∧ e.rd (Reg.BME_CH_STAT_error.ix c) = x ∧ Raised e .bme (24 + c) ∧
    Frame s.dev e (setFields c) [.bme]) := by
  refine gives_of_exec_eq_atFn (exec_bmeArm hc s) h fun d hd => ?_
  have harm := hd.armed (c := c)
  have hframe := Frame.bmeLoaded (c := c) (ps := [.bme]) (harm.mono (by simp [setFields]) (List.nil_subset _))
  have hload := Dev.bmeLoaded_shadow hc harm
  have hx : x < 2 ^ 4 := by have := Dev.bmeCheck_lt hfinds; omega
  rw [Dev.bmeArm_of_open hc hd (by omega) harmed, if_pos hstate, Dev.bmeLoad_of_finds hc ((harm.bmeFinds hc).2.trans hfinds)]
  generalize (d.wr (Reg.BME_SH_CFG_armed.ix c) 1).bmeLoaded c = e at *
  refine ⟨Dev.ShadowLoaded.settle hc (hload.mono fun f hf => ?_), ?_, ?_, ?_, ?_⟩
  · simp only [List.mem_cons, List.not_mem_nil, or_false] at hf
    rw [Dev.errUncorr_rd, Dev.causeBit_rd]
    rcases hf with rfl | rfl | rfl <;> simp (disch := decide) only [Dev.rd_wr_ix]
  · rw [Dev.bmeState, Dev.settle_chan _ hc Reg.BME_CH_STAT_state, Dev.errUncorr_rd, Dev.causeBit_rd,
      Dev.rd_wr_ix _ _ _ _ _ (by decide), Dev.rd_wr_same]
    rfl
  · rw [Dev.settle_chan _ hc Reg.BME_CH_STAT_error, Dev.errUncorr_rd, Dev.causeBit_rd, Dev.rd_wr_same]
    exact Nat.mod_eq_of_lt hx
  · exact ((Dev.errUncorr_grow _ _ _).trans (Dev.settle_grow _)).grow _ _ (Dev.causeBit_raised _ _ _)
  · exact ((((hframe.wr _ _ (by simp [setFields])).wr _ _ (by simp [setFields])).reports (Dev.causeBit_reports _ _ _)).reports
      (Dev.errUncorr_reports _ _ _)).settle

/-- An armed set that passes the check and does not read the host runs. -/
theorem gives_bmeArm_runs (hfinds : s.dev.bmeFinds c = none) (hss : s.dev.rd (Reg.BME_SH_CFG_src_space.ix c) ≠ spHost) :
    Gives (.bmeArm c) s (fun e => Dev.ShadowLoaded s.dev e c ∧ e.bmeState c = 1 ∧ e.rd (Reg.BME_CH_DONE_bytes.ix c) = 0 ∧
      Frame s.dev e (setFields c) [.bme]) := by
  refine gives_of_exec_eq_atFn (exec_bmeArm hc s) h fun d hd => ?_
  have harm := hd.armed (c := c)
  obtain ⟨hshadow, hsame⟩ := harm.bmeFinds hc
  have hframe := Frame.bmeLoaded (c := c) (ps := [.bme]) (harm.mono (by simp [setFields]) (List.nil_subset _))
  have hload := Dev.bmeLoaded_shadow hc harm
  obtain ⟨-, -, -, hrun, hdone⟩ := (d.wr (Reg.BME_SH_CFG_armed.ix c) 1).bmeLoaded_rd (c := c)
  rw [Dev.bmeArm_of_open hc hd (by omega) harmed, if_pos hstate, Dev.bmeLoad_of_finds_nothing hc (hsame.trans hfinds),
    hshadow Reg.BME_SH_CFG_src_space (by decide), if_neg hss]
  refine ⟨hload.settle hc, ?_, ?_, hframe.settle⟩
  · rw [Dev.bmeState, Dev.settle_chan _ hc Reg.BME_CH_STAT_state]
    exact hrun
  · rw [Dev.settle_chan _ hc Reg.BME_CH_DONE_bytes, hdone]

/-- Whatever the check finds, the armed set becomes the active one. -/
theorem gives_bmeArm_loaded : Gives (.bmeArm c) s (fun e => Dev.ShadowLoaded s.dev e c) := by
  by_cases hfinds : s.dev.bmeFinds c = none
  · by_cases hss : s.dev.rd (Reg.BME_SH_CFG_src_space.ix c) = spHost
    · refine gives_of_exec_eq_atFn (exec_bmeArm hc s) h fun d hd => ?_
      have harm := hd.armed (c := c)
      obtain ⟨hshadow, hsame⟩ := harm.bmeFinds hc
      rw [Dev.bmeArm_of_open hc hd (by omega) harmed, if_pos hstate, Dev.bmeLoad_of_finds_nothing hc (hsame.trans hfinds),
        hshadow Reg.BME_SH_CFG_src_space (by decide), if_pos hss]
      refine Dev.ShadowLoaded.settle hc ((Dev.bmeLoaded_shadow hc harm).mono fun f hf => ?_)
      have hmem : f ∈ chanFields := by
        simp only [List.mem_cons, List.not_mem_nil, or_false] at hf
        rcases hf with rfl | rfl | rfl <;> decide
      exact ((Frame.refl _ [] [.host]).readHost _ _ _ _).1 _ (by simp) (chanFields_apart c hc f hmem).1
    · exact (gives_bmeArm_runs hc h hstate harmed hfinds hss).mono fun e he => he.1
  · obtain ⟨x, hx⟩ := Option.ne_none_iff_exists'.mp hfinds
    exact (gives_bmeArm_error hc h hstate harmed hx).mono fun e he => he.1

end

end Sys2Proof
end

section
/-! The content of SCRATCH and MAILBOX after a write, undefined ranges included (R379, R383). -/

set_option Elab.async false

namespace Sys2Proof

open Sys2Proof.Machine

namespace Machine

/-! ### Undefined ranges -/

/-- Whether a byte of a space lies in an undefined range. -/
def UndefRange.covers (space x : Nat) (r : UndefRange) : Bool := r.space = space && decide (r.lo ≤ x ∧ x < r.hi)

/-- The stamp of the first undefined range that a byte lies in. -/
def stampAt (us : List UndefRange) (space x : Nat) : Option Nat := (us.find? (UndefRange.covers space x)).map UndefRange.stamp

theorem stampAt_cons (r : UndefRange) (us : List UndefRange) (space x : Nat) :
    stampAt (r :: us) space x = if r.covers space x then some r.stamp else stampAt us space x := by
  unfold stampAt
  rw [List.find?_cons]
  split <;> simp [*]

theorem stampAt_append (us vs : List UndefRange) (space x : Nat) :
    stampAt (us ++ vs) space x = (stampAt us space x).or (stampAt vs space x) := by
  unfold stampAt
  rw [List.find?_append, Option.map_or]

/-- A range that is listed where it is not empty. -/
theorem stampAt_singleton (r : UndefRange) (space x : Nat) :
    stampAt [r] space x = if r.space = space ∧ r.lo ≤ x ∧ x < r.hi then some r.stamp else none := by
  rw [stampAt_cons]
  simp only [UndefRange.covers, Bool.and_eq_true, decide_eq_true_eq]
  rfl

theorem stampAt_ite (r : UndefRange) (space x : Nat) :
    stampAt (if r.lo < r.hi then [r] else []) space x = stampAt [r] space x := by
  split
  · rfl
  · rw [stampAt_singleton, if_neg (by omega)]
    rfl

/-- What is left of a range covers the same bytes outside what was written. -/
theorem stampAt_cut_outside (r : UndefRange) {space lo hi other x : Nat}
    (h : other ≠ space ∨ x < lo ∨ hi ≤ x) : stampAt (r.cut space lo hi) other x = stampAt [r] other x := by
  unfold UndefRange.cut
  split
  · rfl
  · next hspace =>
    simp only [ne_eq, Decidable.not_not] at hspace
    rw [stampAt_append, stampAt_ite { r with hi := min r.hi lo }, stampAt_ite { r with lo := max r.lo hi }]
    simp only [stampAt_singleton]
    by_cases hr : r.space = other ∧ r.lo ≤ x ∧ x < r.hi
    · rw [if_pos hr]
      by_cases hx : x < lo
      · rw [if_pos (by omega), Option.some_or]
      · rw [if_neg (by omega), if_pos (by omega), Option.none_or]
    · rw [if_neg hr, if_neg (by omega), if_neg (by omega), Option.none_or]

/-- Nothing is left of a range where it was written. -/
theorem stampAt_cut_inside (r : UndefRange) {space lo hi x : Nat} (hlo : lo ≤ x) (hhi : x < hi) :
    stampAt (r.cut space lo hi) space x = none := by
  unfold UndefRange.cut
  split
  · next hspace => rw [stampAt_singleton, if_neg fun h => hspace h.1]
  · rw [stampAt_append, stampAt_ite { r with hi := min r.hi lo }, stampAt_ite { r with lo := max r.lo hi }]
    simp only [stampAt_singleton]
    rw [if_neg (by omega), if_neg (by omega), Option.none_or]

theorem stampAt_cutAll_outside (us : List UndefRange) {space lo hi other x : Nat}
    (h : other ≠ space ∨ x < lo ∨ hi ≤ x) :
    stampAt (us.flatMap fun r => r.cut space lo hi) other x = stampAt us other x := by
  induction us with
  | nil => rfl
  | cons r us ih =>
    rw [List.flatMap_cons, stampAt_append, stampAt_cut_outside r h, ih, ← stampAt_append]
    rfl

theorem stampAt_cutAll_inside (us : List UndefRange) {space lo hi x : Nat} (hlo : lo ≤ x) (hhi : x < hi) :
    stampAt (us.flatMap fun r => r.cut space lo hi) space x = none := by
  induction us with
  | nil => rfl
  | cons r us ih => rw [List.flatMap_cons, stampAt_append, stampAt_cut_inside r hlo hhi, ih, Option.none_or]

/-! ### Bytes of a space -/

/-- The RAM that a space names. -/
def State.ramOf (s : State) (space : Nat) : List Host.Cell := if space = spScratch then s.scratch else s.mailbox

theorem State.spaceByte_eq (s : State) (space a : Nat) : s.spaceByte space a =
    (stampAt s.dev.bme.undef space a).elim (Memory.get (s.ramOf space) a) fun stamp => Config.freeByte stamp a := by
  unfold State.spaceByte stampAt State.ramOf
  change _ = ((s.dev.bme.undef.find? fun r => r.space = space && decide (r.lo ≤ a ∧ a < r.hi)).map UndefRange.stamp).elim _ _
  cases s.dev.bme.undef.find? fun r => r.space = space && decide (r.lo ≤ a ∧ a < r.hi) <;> rfl

/-- A space's bytes are the same where the undefined ranges say the same of them. -/
theorem State.spaceByte_dev (s : State) {d : Dev} {space a : Nat}
    (h : stampAt d.bme.undef space a = stampAt s.dev.bme.undef space a) :
    ({ s with dev := d } : State).spaceByte space a = s.spaceByte space a := by
  rw [State.spaceByte_eq, State.spaceByte_eq, State.dev_reads, h]
  rfl

theorem Memory.get_putAll_inside (vs : Bytes) : ∀ (m : List Host.Cell) (a i : Nat) (hi : i < vs.length),
    Memory.get (Memory.putAll m a vs) (a + i) = vs[i] := by
  induction vs with
  | nil => intro _ _ i hi; cases hi
  | cons v vs ih =>
    intro m a i hi
    rw [Memory.putAll]
    cases i with
    | zero => rw [Memory.get_putAll_outside _ _ _ _ (by omega), Nat.add_zero, Memory.get_put_same, List.getElem_cons_zero]
    | succ i =>
      rw [show a + (i + 1) = a + 1 + i by omega, ih _ _ _ (by simpa using hi), List.getElem_cons_succ]

theorem State.spaceWrite_undef (s : State) (space a : Nat) (bs : Bytes) :
    (s.spaceWrite space a bs).dev.bme.undef = s.dev.bme.undef.flatMap fun r => r.cut space a (a + bs.length) := by
  unfold State.spaceWrite
  dsimp only
  split <;> rfl

theorem State.spaceWrite_ramOf_same (s : State) (space a : Nat) (bs : Bytes) :
    (s.spaceWrite space a bs).ramOf space = Memory.putAll (s.ramOf space) a bs := by
  unfold State.spaceWrite State.ramOf
  split <;> rfl

theorem State.spaceWrite_ramOf_other (s : State) {space other : Nat} (a : Nat) (bs : Bytes)
    (hram : space = spScratch ∨ space = spMailbox) (hother : other = spScratch ∨ other = spMailbox) (hne : other ≠ space) :
    (s.spaceWrite space a bs).ramOf other = s.ramOf other := by
  rcases hram with rfl | rfl <;> rcases hother with rfl | rfl
  · exact absurd rfl hne
  · rfl
  · rfl
  · exact absurd rfl hne

/-- A byte that is written reads what was written. -/
theorem State.spaceByte_spaceWrite_inside (s : State) (space a : Nat) (bs : Bytes) (i : Nat) (hi : i < bs.length) :
    (s.spaceWrite space a bs).spaceByte space (a + i) = bs[i] := by
  rw [State.spaceByte_eq, State.spaceWrite_undef, stampAt_cutAll_inside _ (by omega) (by omega), State.spaceWrite_ramOf_same]
  exact Memory.get_putAll_inside bs _ a i hi

/-- Every other byte of the space is as before. -/
theorem State.spaceByte_spaceWrite_outside (s : State) (space a : Nat) (bs : Bytes) (x : Nat) (hx : x < a ∨ a + bs.length ≤ x) :
    (s.spaceWrite space a bs).spaceByte space x = s.spaceByte space x := by
  rw [State.spaceByte_eq, State.spaceByte_eq, State.spaceWrite_undef, stampAt_cutAll_outside _ (.inr hx),
    State.spaceWrite_ramOf_same, Memory.get_putAll_outside _ _ _ _ hx]

/-- Every byte of the other RAM is as before. -/
theorem State.spaceByte_spaceWrite_other (s : State) {space other : Nat} (a : Nat) (bs : Bytes) (x : Nat)
    (hram : space = spScratch ∨ space = spMailbox) (hother : other = spScratch ∨ other = spMailbox) (hne : other ≠ space) :
    (s.spaceWrite space a bs).spaceByte other x = s.spaceByte other x := by
  rw [State.spaceByte_eq, State.spaceByte_eq, State.spaceWrite_undef, stampAt_cutAll_outside _ (.inl hne),
    State.spaceWrite_ramOf_other s a bs hram hother hne]

end Machine

section

variable {c : Nat} (hc : c < 8) {s : State}
include hc

/-! ### Resuming, stopping and starting a channel -/

section

variable (h : HostReaches s.dev 0 .bme)
include h

theorem gives_bmeResume_idle (hstate : s.dev.bmeState c ≠ 2) : Gives (.bmeResume c) s (fun e => Frame s.dev e [] []) := by
  refine gives_of_exec_eq_atFn (exec_bmeResume hc s) h fun d hd => ?_
  have hresume : d.bmeResume c = d := if_neg (by rw [Dev.bmeState, hd.chan hc Reg.BME_CH_STAT_state]; exact hstate)
  rw [hresume]
  exact (Frame.of_woken hd _ _).settle

omit hc h in
/-- The device with nothing loaded in a channel. -/
def Machine.Dev.bmeCleared (d : Dev) (c : Nat) : Dev :=
  ((d.bmeSetActive c 0 0 0 0 0 0).wr (Reg.BME_CH_STAT_error.ix c) 0).wr (Reg.BME_CH_STAT_state.ix c) 0

omit hc h in
/-- A channel without an armed set is IDLE with nothing loaded. -/
theorem Machine.Dev.bmeIdle_of_unarmed {d : Dev} (harmed : d.rd (Reg.BME_SH_CFG_armed.ix c) = 0) :
    d.bmeIdle c = d.bmeCleared c := by
  have hfree : (d.bmeCleared c).rdB (Reg.BME_SH_CFG_armed.ix c) = false := by
    rw [Dev.rdB, Dev.bmeCleared, Dev.rd_wr_ix _ _ _ _ _ (by decide), Dev.rd_wr_ix _ _ _ _ _ (by decide),
      Dev.bmeSetActive_rd_other _ _ _ _ _ _ _ _ Reg.BME_SH_CFG_armed, harmed]
    rfl
  exact if_neg fun h => absurd (hfree.symm.trans h) (by decide)

omit h in
theorem Machine.Dev.bmeCleared_rd (d : Dev) : (d.bmeCleared c).settle.bmeState c = 0 ∧
    (d.bmeCleared c).settle.rd (Reg.BME_CH_STAT_error.ix c) = 0 ∧ ∀ f ∈ actFields c, (d.bmeCleared c).settle.rd f = 0 := by
  refine ⟨?_, ?_, fun f hf => ?_⟩
  · rw [Dev.bmeState, Dev.settle_chan _ hc Reg.BME_CH_STAT_state, Dev.bmeCleared, Dev.rd_wr_same]
    exact Nat.zero_mod _
  · rw [Dev.settle_chan _ hc Reg.BME_CH_STAT_error, Dev.bmeCleared, Dev.rd_wr_ix _ _ _ _ _ (by decide), Dev.rd_wr_same]
    exact Nat.zero_mod _
  · have hzero := d.bmeSetActive_zero c f hf
    rw [actFields_eq, List.mem_map] at hf
    obtain ⟨g, hg, rfl⟩ := hf
    obtain ⟨hmem, hapart⟩ := actBase_apart g hg
    rw [Dev.settle_chan _ hc g hmem, Dev.bmeCleared, Dev.rd_wr_ix _ _ _ _ _ (hapart _ (by simp)),
      Dev.rd_wr_ix _ _ _ _ _ (hapart _ (by simp)), hzero]

omit hc h in
theorem Frame.bmeCleared {a d : Dev} {ps : List Part} (h : Frame a d (setFields c) ps) :
    Frame a (d.bmeCleared c) (setFields c) ps :=
  ((h.bmeSetActive _ _ _ _ _ _ (actFields_subset c)).wr _ _ (by simp [setFields])).wr _ _ (by simp [setFields])

/-- resume clears an error. -/
theorem gives_bmeResume (hstate : s.dev.bmeState c = 2) (harmed : s.dev.rd (Reg.BME_SH_CFG_armed.ix c) = 0) :
    Gives (.bmeResume c) s (fun e => e.bmeState c = 0 ∧ e.rd (Reg.BME_CH_STAT_error.ix c) = 0 ∧
      (∀ f ∈ actFields c, e.rd f = 0) ∧ Frame s.dev e (setFields c) []) := by
  refine gives_of_exec_eq_atFn (exec_bmeResume hc s) h fun d hd => ?_
  have hresume : d.bmeResume c = d.bmeIdle c := if_pos (by rw [Dev.bmeState, hd.chan hc Reg.BME_CH_STAT_state]; exact hstate)
  rw [hresume, Dev.bmeIdle_of_unarmed ((hd.chan hc Reg.BME_SH_CFG_armed).trans harmed)]
  obtain ⟨hidle, herror, hact⟩ := d.bmeCleared_rd hc
  exact ⟨hidle, herror, hact, ((Frame.of_woken hd _ _).bmeCleared).settle⟩

theorem gives_bmeChannelDisable_off (hstate : s.dev.bmeState c = 3) :
    Gives (.bmeChannelDisable c) s (fun e => Frame s.dev e [] []) := by
  refine gives_of_exec_eq_atFn (exec_bmeChannelDisable hc s) h fun d hd => ?_
  have hsame : d.bmeDrop c = d := if_pos (by rw [Dev.bmeState, hd.chan hc Reg.BME_CH_STAT_state]; exact hstate)
  rw [hsame]
  exact (Frame.of_woken hd _ _).settle

omit hc h in
/-- A drop of a channel's sets spoils destinations and drops reads, then clears the channel. -/
theorem Machine.Dev.bmeDrop_eq {a d : Dev} (hoff : d.bmeState c ≠ 3) (ha : Frame a d [] []) :
    ∃ e n, Frame a e [] [.bme, .host] ∧ d.bmeDrop c = (((((((e.bmeSetActive c 0 0 0 0 0 0).wr (Reg.BME_CH_STAT_error.ix c) 0).wr
      (Reg.BME_CH_STAT_state.ix c) 3).wr (Reg.BME_SH_CFG_armed.ix c) 0).wr (Reg.BME_CH_CTRL_en.ix c) 0).wr
      (Reg.BME_CH_DONE_bytes.ix c) n).nextFree).updBmeCh c fun _ => {} := by
  refine ⟨_, _, ?_, if_neg hoff⟩
  have hreads : Frame a (d.dropReads (kindIsBme c)) [] [.bme, .host] := (ha.mono (by simp) (by simp)).dropReads _
  have hactive : Frame a (onlyIf (decide ((d.dropReads (kindIsBme c)).bmeState c ≠ 0)) (fun d => d.bmeSpoilActive c 0)
      (d.dropReads (kindIsBme c))) [] [.bme, .host] := hreads.onlyIf (hreads.bmeSpoil _ _ _)
  exact hactive.onlyIf (hactive.bmeSpoil _ _ _)

/-- disable drops the channel. -/
theorem gives_bmeChannelDisable (hstate : s.dev.bmeState c ≠ 3) : Gives (.bmeChannelDisable c) s (fun e =>
    e.bmeState c = 3 ∧ e.rd (Reg.BME_CH_CTRL_en.ix c) = 0 ∧ e.rd (Reg.BME_SH_CFG_armed.ix c) = 0 ∧
    (∀ f ∈ actFields c, e.rd f = 0) ∧ Frame s.dev e (Reg.BME_CH_CTRL_en.ix c :: setFields c) [.bme, .host]) := by
  refine gives_of_exec_eq_atFn (exec_bmeChannelDisable hc s) h fun d hd => ?_
  obtain ⟨e, n, hframe, hdrop⟩ := Dev.bmeDrop_eq (c := c) (a := s.dev) (d := d)
    (by rw [Dev.bmeState, hd.chan hc Reg.BME_CH_STAT_state]; exact hstate) (Frame.of_woken hd _ _)
  rw [hdrop]
  refine ⟨?_, ?_, ?_, fun f hf => ?_, ?_⟩
  · rw [Dev.bmeState, Dev.settle_chan _ hc Reg.BME_CH_STAT_state]
    simp (disch := decide) only [Dev.updBmeCh_rd, Dev.nextFree_rd, Dev.rd_wr_ix, Dev.rd_wr_same]
    rfl
  · rw [Dev.settle_chan _ hc Reg.BME_CH_CTRL_en]
    simp (disch := decide) only [Dev.updBmeCh_rd, Dev.nextFree_rd, Dev.rd_wr_ix, Dev.rd_wr_same, Nat.zero_mod]
  · rw [Dev.settle_chan _ hc Reg.BME_SH_CFG_armed]
    simp (disch := decide) only [Dev.updBmeCh_rd, Dev.nextFree_rd, Dev.rd_wr_ix, Dev.rd_wr_same, Nat.zero_mod]
  · have hzero := e.bmeSetActive_zero c f hf
    rw [actFields_eq, List.mem_map] at hf
    obtain ⟨g, hg, rfl⟩ := hf
    obtain ⟨hmem, hapart⟩ := actBase_apart g hg
    simp only [List.forall_mem_cons] at hapart
    obtain ⟨harmed, hdone, herror, hst, hen, -⟩ := hapart
    rw [Dev.settle_chan _ hc g hmem, Dev.updBmeCh_rd, Dev.nextFree_rd, Dev.rd_wr_ix _ _ _ _ _ hdone,
      Dev.rd_wr_ix _ _ _ _ _ hen, Dev.rd_wr_ix _ _ _ _ _ harmed, Dev.rd_wr_ix _ _ _ _ _ hst, Dev.rd_wr_ix _ _ _ _ _ herror,
      hzero]
  · have hact := (hframe.mono (gs := Reg.BME_CH_CTRL_en.ix c :: setFields c) (List.nil_subset _) (List.Subset.refl _)).bmeSetActive
      (c := c) 0 0 0 0 0 0 (List.Subset.trans (actFields_subset c) (List.subset_cons_self _ _))
    exact (((((((hact.wr _ _ (by simp [setFields])).wr _ _ (by simp [setFields])).wr _ _ (by simp [setFields])).wr _ _
      (by simp [setFields])).wr _ _ (by simp [setFields])).nextFree).setBme _).settle

/-- enable brings a dropped channel back. -/
theorem gives_bmeChannelEnable (hstate : s.dev.bmeState c = 3)
    (hon : s.dev.blkState .bme = stIdle ∨ s.dev.blkState .bme = stActive) : Gives (.bmeChannelEnable c) s (fun e =>
      e.bmeState c = 0 ∧ e.rd (Reg.BME_CH_CTRL_en.ix c) = 1 ∧
      Frame s.dev e [Reg.BME_CH_CTRL_en.ix c, Reg.BME_CH_STAT_state.ix c] []) := by
  refine gives_of_exec_eq_atFn (exec_bmeChannelEnable hc s) h fun d hd => ?_
  have henable : d.bmeEnable c = (d.wr (Reg.BME_CH_CTRL_en.ix c) 1).wr (Reg.BME_CH_STAT_state.ix c) 0 := by
    refine if_pos ?_
    simp only [Dev.bmeState, hd.chan hc Reg.BME_CH_STAT_state, hd.blkState, Bool.and_eq_true, Bool.or_eq_true, decide_eq_true_eq]
    exact ⟨hstate, hon⟩
  rw [henable]
  refine ⟨?_, ?_, (((Frame.of_woken hd _ _).wr _ _ (by simp)).wr _ _ (by simp)).settle⟩
  · rw [Dev.bmeState, Dev.settle_chan _ hc Reg.BME_CH_STAT_state, Dev.rd_wr_same]
    exact Nat.zero_mod _
  · rw [Dev.settle_chan _ hc Reg.BME_CH_CTRL_en, Dev.rd_wr_ix _ _ _ _ _ (by decide), Dev.rd_wr_same]
    rfl

theorem gives_bmeChannelEnable_on (hstate : s.dev.bmeState c ≠ 3) :
    Gives (.bmeChannelEnable c) s (fun e => Frame s.dev e [] []) := by
  refine gives_of_exec_eq_atFn (exec_bmeChannelEnable hc s) h fun d hd => ?_
  have hsame : d.bmeEnable c = d := by
    refine if_neg ?_
    simp only [Dev.bmeState, hd.chan hc Reg.BME_CH_STAT_state, Bool.and_eq_true, decide_eq_true_eq]
    exact fun hboth => hstate hboth.1
  rw [hsame]
  exact (Frame.of_woken hd _ _).settle

end

end

end Sys2Proof
end

section
/-! The end of a bulk move's set (R383, R384), and O60. -/

set_option Elab.async false

namespace Sys2Proof

open Sys2Proof.Machine

namespace Machine

/-! ### The bytes that a set leaves -/

/-- SCRATCH or MAILBOX. -/
def isRam (space : Nat) : Prop := space = spScratch ∨ space = spMailbox

/-- A write keeps the registers, the causes and everything beside BME. -/
theorem State.spaceWrite_dev (s : State) (space a : Nat) (bs : Bytes) :
    ∃ u, (s.spaceWrite space a bs).dev = { s.dev with bme := { s.dev.bme with undef := u } } := by
  refine ⟨s.dev.bme.undef.flatMap fun r => r.cut space a (a + bs.length), ?_⟩
  unfold State.spaceWrite
  dsimp only
  split <;> rfl

/-- The state once the first n bytes of a channel's set are at their destination. -/
def State.bmeWritten (s : State) (c n : Nat) : State :=
  s.spaceWrite (s.dev.rd (Reg.BME_ACT_CFG_dst_space.ix c)) (s.dev.rd (Reg.BME_ACT_DST_addr.ix c))
    (s.spaceRead (s.dev.rd (Reg.BME_ACT_CFG_src_space.ix c)) (s.dev.rd (Reg.BME_ACT_SRC_addr.ix c)) n)

theorem State.bmeWritten_rd (s : State) (c n : Nat) (f : Fld) : (s.bmeWritten c n).dev.rd f = s.dev.rd f := by
  obtain ⟨u, hu⟩ := s.spaceWrite_dev (s.dev.rd (Reg.BME_ACT_CFG_dst_space.ix c)) (s.dev.rd (Reg.BME_ACT_DST_addr.ix c))
    (s.spaceRead (s.dev.rd (Reg.BME_ACT_CFG_src_space.ix c)) (s.dev.rd (Reg.BME_ACT_SRC_addr.ix c)) n)
  rw [State.bmeWritten, hu]
  rfl

theorem State.bmeWritten_frame (s : State) (c n : Nat) : Frame s.dev (s.bmeWritten c n).dev [] [.bme] := by
  obtain ⟨u, hu⟩ := s.spaceWrite_dev (s.dev.rd (Reg.BME_ACT_CFG_dst_space.ix c)) (s.dev.rd (Reg.BME_ACT_DST_addr.ix c))
    (s.spaceRead (s.dev.rd (Reg.BME_ACT_CFG_src_space.ix c)) (s.dev.rd (Reg.BME_ACT_SRC_addr.ix c)) n)
  rw [State.bmeWritten, hu]
  exact (Frame.refl _ _ _).setBme _

theorem State.bmeWritten_pending (s : State) (c n : Nat) : (s.bmeWritten c n).pending = s.pending := by
  unfold State.bmeWritten State.spaceWrite
  dsimp only
  split <;> rfl

/-- What a set between the RAMs leaves there: the bytes moved, and every other byte as before (R383). -/
def State.Stored (s t : State) (c n : Nat) : Prop :=
  (∀ i, i < n → t.spaceByte (s.dev.rd (Reg.BME_ACT_CFG_dst_space.ix c)) (s.dev.rd (Reg.BME_ACT_DST_addr.ix c) + i) =
    s.spaceByte (s.dev.rd (Reg.BME_ACT_CFG_src_space.ix c)) (s.dev.rd (Reg.BME_ACT_SRC_addr.ix c) + i)) ∧
  (∀ a, a < s.dev.rd (Reg.BME_ACT_DST_addr.ix c) ∨
      s.dev.rd (Reg.BME_ACT_DST_addr.ix c) + s.dev.rd (Reg.BME_ACT_LEN_bytes.ix c) ≤ a →
    t.spaceByte (s.dev.rd (Reg.BME_ACT_CFG_dst_space.ix c)) a = s.spaceByte (s.dev.rd (Reg.BME_ACT_CFG_dst_space.ix c)) a) ∧
  (∀ sp a, isRam sp → sp ≠ s.dev.rd (Reg.BME_ACT_CFG_dst_space.ix c) → t.spaceByte sp a = s.spaceByte sp a)

theorem State.spaceRead_length (s : State) (space a n : Nat) : (s.spaceRead space a n).length = n := by
  simp [State.spaceRead]

theorem State.bmeWritten_stored (s : State) (c : Nat) {n : Nat} (hn : n ≤ s.dev.rd (Reg.BME_ACT_LEN_bytes.ix c))
    (hds : isRam (s.dev.rd (Reg.BME_ACT_CFG_dst_space.ix c))) : State.Stored s (s.bmeWritten c n) c n := by
  refine ⟨fun i hi => ?_, fun a ha => ?_, fun sp a hsp hne => ?_⟩
  · rw [State.bmeWritten, State.spaceByte_spaceWrite_inside _ _ _ _ i (by rw [State.spaceRead_length]; exact hi)]
    simp [State.spaceRead]
  · exact State.spaceByte_spaceWrite_outside _ _ _ _ _ (by rw [State.spaceRead_length]; omega)
  · exact State.spaceByte_spaceWrite_other _ _ _ _ hds hsp hne

/-- The bytes that a set leaves, where the rest of its destination is undefined. -/
theorem State.Stored.congr {s t u : State} {c n : Nat} (h : State.Stored s t c n)
    (hbytes : ∀ sp a, (sp ≠ s.dev.rd (Reg.BME_ACT_CFG_dst_space.ix c) ∨ a < s.dev.rd (Reg.BME_ACT_DST_addr.ix c) + n ∨
      s.dev.rd (Reg.BME_ACT_DST_addr.ix c) + s.dev.rd (Reg.BME_ACT_LEN_bytes.ix c) ≤ a) →
      u.spaceByte sp a = t.spaceByte sp a) : State.Stored s u c n := by
  obtain ⟨hin, hout, hother⟩ := h
  refine ⟨fun i hi => ?_, fun a ha => ?_, fun sp a hsp hne => ?_⟩
  · rw [hbytes _ _ (.inr (.inl (by omega))), hin i hi]
  · rw [hbytes _ _ (by omega), hout a ha]
  · rw [hbytes _ _ (.inl hne), hother sp a hsp hne]

/-- A move between the RAMs that no other set raced writes the bytes. -/
theorem State.bmeMove_of_ram (s : State) (c n : Nat) (hds : isRam (s.dev.rd (Reg.BME_ACT_CFG_dst_space.ix c)))
    (hraced : (s.dev.bmeCh c).raced = []) : s.bmeMove c 0 n = s.bmeWritten c n := by
  have hhost : s.dev.rd (Reg.BME_ACT_CFG_dst_space.ix c) ≠ spHost := by rcases hds with h | h <;> rw [h] <;> decide
  simp only [State.bmeMove, if_neg hhost, State.racedWrite, hraced, if_true, Nat.add_zero, Nat.sub_zero, State.bmeWritten]

/-! ### The end of a set -/

theorem Dev.bmeRace_keeps (d : Dev) (c lo hi : Nat) : (d.bmeRace c lo hi).bme.undef = d.bme.undef ∧
    (∀ f, (d.bmeRace c lo hi).rd f = d.rd f) ∧ Frame d (d.bmeRace c lo hi) [] [.bme] := by
  refine forEach_induct (P := fun e => e.bme.undef = d.bme.undef ∧ (∀ f, e.rd f = d.rd f) ∧ Frame d e [] [.bme])
    (fun o e he => ?_) _ d ⟨rfl, fun _ => rfl, Frame.refl _ _ _⟩
  obtain ⟨hundef, hrd, hframe⟩ := he
  dsimp only
  split
  · exact ⟨hundef, hrd, hframe.setBme _⟩
  · exact ⟨hundef, hrd, hframe⟩

/-- The device of a set's end, before the channel is cleared. -/
def Dev.bmeCounted (d : Dev) (c : Nat) : Dev :=
  let len := d.rd (Reg.BME_ACT_LEN_bytes.ix c)
  let a := d.rd (Reg.BME_ACT_DST_addr.ix c)
  let e := (((d.bmeRace c a (a + len)).wr (Reg.BME_CH_DONE_bytes.ix c) len).incSat (Reg.BME_CH_STAT_sets.ix c)).incWrap
    Reg.BME_BYTES_bytes len
  (onlyIf (e.rdB (Reg.BME_ACT_CFG_irq.ix c)) (fun d => d.causeBit .bme (16 + c)) e).updBmeCh c fun _ => {}

theorem Dev.bmeDone_eq (d : Dev) (c : Nat) : d.bmeDone c = (d.bmeCounted c).bmeIdle c := rfl

theorem Dev.bmeCounted_undef (d : Dev) (c : Nat) : (d.bmeCounted c).bme.undef = d.bme.undef := by
  obtain ⟨hundef, -, -⟩ := d.bmeRace_keeps c (d.rd (Reg.BME_ACT_DST_addr.ix c))
    (d.rd (Reg.BME_ACT_DST_addr.ix c) + d.rd (Reg.BME_ACT_LEN_bytes.ix c))
  rw [← hundef]
  unfold Dev.bmeCounted onlyIf
  dsimp only
  split <;> rfl

/-- A channel's count of sets, and the count of all bytes, are fields of their own. -/
theorem bytes_apart : ∀ c < 8, ∀ f ∈ [Reg.BME_CH_DONE_bytes.ix c, Reg.BME_CH_STAT_sets.ix c, Reg.BME_SH_CFG_armed.ix c,
    Reg.BME_ACT_CFG_irq.ix c, Reg.BME_CH_STAT_error.ix c, Reg.BME_CH_STAT_state.ix c] ++ actFields c,
    f.key ≠ Reg.BME_BYTES_bytes.key ∧ Reg.BME_BYTES_bytes.key ≠ f.key := by decide +kernel

end Machine

section

variable {c : Nat} (hc : c < 8) (d : Dev)
include hc

theorem Machine.Dev.bmeCounted_rd (hlen : d.rd (Reg.BME_ACT_LEN_bytes.ix c) < 2 ^ 32) :
    (d.bmeCounted c).rd (Reg.BME_CH_DONE_bytes.ix c) = d.rd (Reg.BME_ACT_LEN_bytes.ix c) ∧
    (d.bmeCounted c).rd (Reg.BME_CH_STAT_sets.ix c) = min (d.rd (Reg.BME_CH_STAT_sets.ix c) + 1) 0xFFFF ∧
    (d.bmeCounted c).rd Reg.BME_BYTES_bytes = (d.rd Reg.BME_BYTES_bytes + d.rd (Reg.BME_ACT_LEN_bytes.ix c)) % 2 ^ 64 ∧
    (d.bmeCounted c).rd (Reg.BME_SH_CFG_armed.ix c) = d.rd (Reg.BME_SH_CFG_armed.ix c) := by
  have hbytes := bytes_apart c hc
  simp only [List.cons_append, List.forall_mem_cons] at hbytes
  obtain ⟨⟨hdone, hdone'⟩, ⟨hsets, hsets'⟩, ⟨harmed, -⟩, -⟩ := hbytes
  obtain ⟨-, hrd, -⟩ := d.bmeRace_keeps c (d.rd (Reg.BME_ACT_DST_addr.ix c))
    (d.rd (Reg.BME_ACT_DST_addr.ix c) + d.rd (Reg.BME_ACT_LEN_bytes.ix c))
  have honly (e : Dev) (b : Bool) (f : Fld) :
      ((onlyIf b (fun d => d.causeBit .bme (16 + c)) e).updBmeCh c fun _ => {}).rd f = e.rd f := by
    unfold onlyIf
    split <;> simp only [Dev.updBmeCh_rd, Dev.causeBit_rd]
  refine ⟨?_, ?_, ?_, ?_⟩
  · rw [Dev.bmeCounted, honly, Dev.rd_incWrap_other _ _ _ _ hdone, Dev.rd_incSat_other _ _ _ _ (Fld.ix_key_ne (by decide) _),
      Dev.rd_wr_same]
    exact Nat.mod_eq_of_lt hlen
  · rw [Dev.bmeCounted, honly, Dev.rd_incWrap_other _ _ _ _ hsets, Dev.rd_incSat_same, Dev.rd_wr_ix _ _ _ _ _ (by decide), hrd,
      Fld.ix_width]
    rfl
  · rw [Dev.bmeCounted, honly, Dev.rd_incWrap_same, Dev.rd_incSat_other _ _ _ _ hsets', Dev.rd_wr_other _ _ _ _ hdone', hrd]
    rfl
  · rw [Dev.bmeCounted, honly, Dev.rd_incWrap_other _ _ _ _ harmed, Dev.rd_incSat_other _ _ _ _ (Fld.ix_key_ne (by decide) _),
      Dev.rd_wr_ix _ _ _ _ _ (by decide), hrd]

omit hc in
theorem Machine.Dev.bmeCounted_raised (hirq : d.rd (Reg.BME_ACT_CFG_irq.ix c) ≠ 0) (hc : c < 8) :
    Raised (d.bmeCounted c) .bme (16 + c) := by
  have hbytes := bytes_apart c hc
  simp only [List.cons_append, List.forall_mem_cons] at hbytes
  obtain ⟨-, -, -, ⟨hkey, -⟩, -⟩ := hbytes
  obtain ⟨-, hrd, -⟩ := d.bmeRace_keeps c (d.rd (Reg.BME_ACT_DST_addr.ix c))
    (d.rd (Reg.BME_ACT_DST_addr.ix c) + d.rd (Reg.BME_ACT_LEN_bytes.ix c))
  rw [Dev.bmeCounted, Dev.rdB, Dev.rd_incWrap_other _ _ _ _ hkey, Dev.rd_incSat_other _ _ _ _ (Fld.ix_key_ne (by decide) _),
    Dev.rd_wr_ix _ _ _ _ _ (by decide), hrd, decide_eq_true hirq, onlyIf, if_pos rfl]
  exact (Dev.updBmeCh_grow _ _ _).grow _ _ (Dev.causeBit_raised _ _ _)

omit hc in
theorem Frame.bmeCounted {a d : Dev} (h : Frame a d [] [.bme]) :
    Frame a (d.bmeCounted c) (Reg.BME_BYTES_bytes :: Reg.BME_CH_STAT_sets.ix c :: setFields c) [.bme] := by
  obtain ⟨-, -, hrace⟩ := d.bmeRace_keeps c (d.rd (Reg.BME_ACT_DST_addr.ix c))
    (d.rd (Reg.BME_ACT_DST_addr.ix c) + d.rd (Reg.BME_ACT_LEN_bytes.ix c))
  have hcount := ((((h.trans hrace).mono (List.nil_subset (Reg.BME_BYTES_bytes :: Reg.BME_CH_STAT_sets.ix c :: setFields c))
    (List.Subset.refl _)).wr (Reg.BME_CH_DONE_bytes.ix c) (d.rd (Reg.BME_ACT_LEN_bytes.ix c)) (by simp [setFields])).incSat
    (Reg.BME_CH_STAT_sets.ix c) 1 (by simp)).incWrap Reg.BME_BYTES_bytes (d.rd (Reg.BME_ACT_LEN_bytes.ix c)) (by simp)
  exact (hcount.onlyIf (hcount.reports (Dev.causeBit_reports _ _ _))).setBme _

/-- Clearing a channel keeps its counts, and raises and spoils nothing. -/
theorem Machine.Dev.bmeCleared_keeps : (d.bmeCleared c).bme = d.bme ∧ (d.bmeCleared c).nt = d.nt ∧
    (d.bmeCleared c).rd (Reg.BME_CH_DONE_bytes.ix c) = d.rd (Reg.BME_CH_DONE_bytes.ix c) ∧
    (d.bmeCleared c).rd (Reg.BME_CH_STAT_sets.ix c) = d.rd (Reg.BME_CH_STAT_sets.ix c) ∧
    (d.bmeCleared c).rd Reg.BME_BYTES_bytes = d.rd Reg.BME_BYTES_bytes := by
  have hbytes := bytes_apart c hc
  simp only [actFields, List.cons_append, List.nil_append, List.forall_mem_cons] at hbytes
  obtain ⟨-, -, -, -, ⟨-, herror⟩, ⟨-, hstate⟩, ⟨-, h1⟩, ⟨-, h2⟩, ⟨-, h3⟩, ⟨-, h4⟩, ⟨-, h5⟩, ⟨-, h6⟩, -⟩ := hbytes
  refine ⟨rfl, rfl, ?_, ?_, ?_⟩
  · rw [Dev.bmeCleared, Dev.rd_wr_ix _ _ _ _ _ (by decide), Dev.rd_wr_ix _ _ _ _ _ (by decide),
      Dev.bmeSetActive_rd_other _ _ _ _ _ _ _ _ Reg.BME_CH_DONE_bytes]
  · rw [Dev.bmeCleared, Dev.rd_wr_ix _ _ _ _ _ (by decide), Dev.rd_wr_ix _ _ _ _ _ (by decide),
      Dev.bmeSetActive_rd_other _ _ _ _ _ _ _ _ Reg.BME_CH_STAT_sets]
  · rw [Dev.bmeCleared, Dev.rd_wr_other _ _ _ _ hstate, Dev.rd_wr_other _ _ _ _ herror, Dev.bmeSetActive,
      Dev.rd_wr_other _ _ _ _ h6, Dev.rd_wr_other _ _ _ _ h5, Dev.rd_wr_other _ _ _ _ h4, Dev.rd_wr_other _ _ _ _ h3,
      Dev.rd_wr_other _ _ _ _ h2, Dev.rd_wr_other _ _ _ _ h1]

end

/-- A running set that ends early: the rest of its destination is spoiled and its reads are dropped, then its error is
reported. -/
theorem Machine.Dev.bmeErr_of_running {d : Dev} {c x : Nat} (h : d.bmeState c = 1) :
    ∃ e, Frame ((d.wr (Reg.BME_CH_STAT_state.ix c) 2).wr (Reg.BME_CH_STAT_error.ix c) x) e [] [.bme, .host] ∧
      (∀ f, e.rd f = ((d.wr (Reg.BME_CH_STAT_state.ix c) 2).wr (Reg.BME_CH_STAT_error.ix c) x).rd f) ∧
      (∀ sp a, sp ≠ d.rd (Reg.BME_ACT_CFG_dst_space.ix c) ∨
        a < d.rd (Reg.BME_ACT_DST_addr.ix c) + d.rd (Reg.BME_CH_DONE_bytes.ix c) ∨
        d.rd (Reg.BME_ACT_DST_addr.ix c) + d.rd (Reg.BME_ACT_LEN_bytes.ix c) ≤ a →
        stampAt e.bme.undef sp a = stampAt d.bme.undef sp a) ∧
      d.bmeErr c x = ((e.updBmeCh c fun _ => {}).causeBit .bme (24 + c)).errUncorr .bme x := by
  refine ⟨_, ?_, ?_, ?_, if_pos h⟩
  · exact (((Frame.refl _ _ _).dropReads _).bmeSpoil _ _ _)
  · intro f
    rw [Dev.bmeSpoilActive, Dev.bmeSpoil]
    split <;> rfl
  · intro sp a hout
    rw [Dev.bmeSpoilActive, Dev.bmeSpoil]
    split
    · refine (stampAt_cons _ _ _ _).trans (if_neg ?_)
      have hrd (g : Fld) (h : g.apart Reg.BME_CH_STAT_state = true) (k : g.apart Reg.BME_CH_STAT_error = true) :
          ((((d.wr (Reg.BME_CH_STAT_state.ix c) 2).wr (Reg.BME_CH_STAT_error.ix c) x).dropReads (kindIsBme c)).rd (g.ix c)) =
            d.rd (g.ix c) := (Dev.rd_wr_ix _ _ _ _ _ k).trans (Dev.rd_wr_ix _ _ _ _ _ h)
      have hdone : ((d.wr (Reg.BME_CH_STAT_state.ix c) 2).wr (Reg.BME_CH_STAT_error.ix c) x).rd (Reg.BME_CH_DONE_bytes.ix c) =
          d.rd (Reg.BME_CH_DONE_bytes.ix c) := hrd Reg.BME_CH_DONE_bytes (by decide) (by decide)
      simp (disch := decide) only [UndefRange.covers, hrd, hdone, Bool.and_eq_true, decide_eq_true_eq]
      omega
    · rfl

theorem Frame.updBmeCh {a d : Dev} {fs : List Fld} {ps : List Part} (h : Frame a d fs ps) (k : Nat) (g : BmeCh → BmeCh)
    (hp : Part.bme ∈ ps := by decide) : Frame a (d.updBmeCh k g) fs ps :=
  h.setBme _ hp

/-- What a running set's early end leaves: the channel's state and error, its other registers, the event, and no byte
touched that the set had not still to write. -/
theorem Machine.Dev.bmeErr_leaves {d : Dev} {c x : Nat} (hc : c < 8) (h : d.bmeState c = 1) (hx : x < 2 ^ 4) :
    (d.bmeErr c x).settle.bmeState c = 2 ∧ (d.bmeErr c x).settle.rd (Reg.BME_CH_STAT_error.ix c) = x ∧
    (d.bmeErr c x).settle.rd (Reg.BME_CH_DONE_bytes.ix c) = d.rd (Reg.BME_CH_DONE_bytes.ix c) ∧
    Raised (d.bmeErr c x).settle .bme (24 + c) ∧
    (∀ sp a, sp ≠ d.rd (Reg.BME_ACT_CFG_dst_space.ix c) ∨
      a < d.rd (Reg.BME_ACT_DST_addr.ix c) + d.rd (Reg.BME_CH_DONE_bytes.ix c) ∨
      d.rd (Reg.BME_ACT_DST_addr.ix c) + d.rd (Reg.BME_ACT_LEN_bytes.ix c) ≤ a →
      stampAt (d.bmeErr c x).settle.bme.undef sp a = stampAt d.bme.undef sp a) := by
  obtain ⟨e, -, heq, hundef, hend⟩ := Dev.bmeErr_of_running (x := x) h
  have hread (f : Fld) : (d.bmeErr c x).rd f = e.rd f := by
    rw [hend, Dev.errUncorr_rd, Dev.causeBit_rd, Dev.updBmeCh_rd]
  refine ⟨?_, ?_, ?_, ?_, fun sp a hout => ?_⟩
  · rw [Dev.bmeState, Dev.settle_chan _ hc Reg.BME_CH_STAT_state, hread, heq, Dev.rd_wr_ix _ _ _ _ _ (by decide), Dev.rd_wr_same]
    rfl
  · rw [Dev.settle_chan _ hc Reg.BME_CH_STAT_error, hread, heq, Dev.rd_wr_same]
    exact Nat.mod_eq_of_lt hx
  · rw [Dev.settle_chan _ hc Reg.BME_CH_DONE_bytes, hread, heq, Dev.rd_wr_ix _ _ _ _ _ (by decide),
      Dev.rd_wr_ix _ _ _ _ _ (by decide)]
  · rw [hend]
    exact (Dev.settle_grow _).grow _ _ ((Dev.errUncorr_grow _ _ _).grow _ _ (Dev.causeBit_raised _ _ _))
  · rw [Dev.settle_bme, hend]
    exact hundef sp a hout

theorem Frame.bmeErr {a d : Dev} {c x : Nat} {fs : List Fld} {ps : List Part} (h : Frame a d fs ps) (hrun : d.bmeState c = 1)
    (hstate : Reg.BME_CH_STAT_state.ix c ∈ fs) (herror : Reg.BME_CH_STAT_error.ix c ∈ fs)
    (hbme : Part.bme ∈ ps) (hhost : Part.host ∈ ps) : Frame a (d.bmeErr c x) fs ps := by
  obtain ⟨e, hspoil, -, -, hend⟩ := Dev.bmeErr_of_running (x := x) hrun
  have he : Frame a e fs ps :=
    ((h.wr _ _ hstate).wr _ _ herror).trans hspoil (List.nil_subset _) (by simp [hbme, hhost])
  rw [hend]
  exact ((he.updBmeCh _ _ hbme).reports (Dev.causeBit_reports _ _ _)).reports (Dev.errUncorr_reports _ _ _)

/-! ### O60 -/

section

variable {c : Nat} (hc : c < 8) {s : State}
include hc

/-- An end that is not due changes nothing. -/
theorem gives_bmeSetDone_not_ready (hready : s.dev.bmeReady c = false) :
    Gives (.bmeSetDone c) s (fun e => Frame s.dev e [] []) := by
  have hsame : s.bmeSetDone c = s := if_pos (by rw [hready]; rfl)
  refine gives_of_exec_eq_act (f := id) ((exec_bmeSetDone_eq hc s).trans (by rw [hsame])) ?_
  exact (Frame.refl _ _ _).settle

theorem gives_bmeSetError_unfit {err moved : Nat} (hfits : s.dev.bmeErrFits c err = false) :
    Gives (.bmeSetError c err moved) s (fun e => Frame s.dev e [] []) := by
  have hsame : s.bmeSetError c err moved = s := if_pos (by rw [hfits]; rfl)
  refine gives_of_exec_eq_act (f := id) ((exec_bmeSetError_eq hc s err moved).trans (by rw [hsame])) ?_
  exact (Frame.refl _ _ _).settle

variable (hrun : s.dev.bmeState c = 1) (hss : isRam (s.dev.rd (Reg.BME_ACT_CFG_src_space.ix c)))
  (hds : isRam (s.dev.rd (Reg.BME_ACT_CFG_dst_space.ix c))) (hraced : (s.dev.bmeCh c).raced = [])
  (hlen : s.dev.rd (Reg.BME_ACT_LEN_bytes.ix c) < 2 ^ 32)

omit hc in
theorem not_host_of_isRam {space : Nat} (h : isRam space) : space ≠ spHost := by
  rcases h with h | h <;> rw [h] <;> decide

include hrun hss hds hraced

omit hc in
/-- A set between the RAMs that is done has its bytes at the destination, and ends. -/
theorem Machine.State.bmeSetDone_of_ram : s.bmeSetDone c =
    { s.bmeWritten c (s.dev.rd (Reg.BME_ACT_LEN_bytes.ix c)) with
      dev := (s.bmeWritten c (s.dev.rd (Reg.BME_ACT_LEN_bytes.ix c))).dev.bmeDone c } := by
  have hready : s.dev.bmeReady c = true := by
    simp [Dev.bmeReady, hrun, not_host_of_isRam hss, not_host_of_isRam hds]
  have hwindow : s.dev.bmeWindowPrefix c = s.dev.rd (Reg.BME_ACT_LEN_bytes.ix c) :=
    if_pos (.inl (not_host_of_isRam hds))
  simp only [State.bmeSetDone, hready, Bool.not_true, Bool.false_eq_true, if_false, if_neg (not_host_of_isRam hss), hwindow,
    State.bmeMove_of_ram s c _ hds hraced, State.bmeWritten_rd, if_true]

include hlen

/-- A finished set between the RAMs leaves its bytes, and counts. -/
theorem ends_bmeSetDone (harmed : s.dev.rd (Reg.BME_SH_CFG_armed.ix c) = 0) :
    Ends (.bmeSetDone c) s (fun t => t.pending = s.pending ∧
      State.Stored s t c (s.dev.rd (Reg.BME_ACT_LEN_bytes.ix c)) ∧ t.dev.bmeState c = 0 ∧
      t.dev.rd (Reg.BME_CH_DONE_bytes.ix c) = s.dev.rd (Reg.BME_ACT_LEN_bytes.ix c) ∧
      t.dev.rd Reg.BME_BYTES_bytes = (s.dev.rd Reg.BME_BYTES_bytes + s.dev.rd (Reg.BME_ACT_LEN_bytes.ix c)) % 2 ^ 64 ∧
      t.dev.rd (Reg.BME_CH_STAT_sets.ix c) = min (s.dev.rd (Reg.BME_CH_STAT_sets.ix c) + 1) 0xFFFF ∧
      (s.dev.rd (Reg.BME_ACT_CFG_irq.ix c) ≠ 0 → Raised t.dev .bme (16 + c)) ∧
      Frame s.dev t.dev (Reg.BME_BYTES_bytes :: Reg.BME_CH_STAT_sets.ix c :: setFields c) [.bme]) := by
  have hcounted := Dev.bmeCounted_rd hc (s.bmeWritten c (s.dev.rd (Reg.BME_ACT_LEN_bytes.ix c))).dev
  have hraised := Dev.bmeCounted_raised (c := c) (s.bmeWritten c (s.dev.rd (Reg.BME_ACT_LEN_bytes.ix c))).dev
  have hframe := Frame.bmeCounted (c := c) (s.bmeWritten_frame c (s.dev.rd (Reg.BME_ACT_LEN_bytes.ix c)))
  have hundef := (s.bmeWritten c (s.dev.rd (Reg.BME_ACT_LEN_bytes.ix c))).dev.bmeCounted_undef c
  have hdone := (s.bmeWritten c (s.dev.rd (Reg.BME_ACT_LEN_bytes.ix c))).dev.bmeDone_eq c
  have hset := State.bmeSetDone_of_ram hrun hss hds hraced
  have hstored := s.bmeWritten_stored c le_rfl hds
  have hpending := s.bmeWritten_pending c (s.dev.rd (Reg.BME_ACT_LEN_bytes.ix c))
  simp only [State.bmeWritten_rd] at hcounted hraised
  generalize s.bmeWritten c (s.dev.rd (Reg.BME_ACT_LEN_bytes.ix c)) = w at *
  obtain ⟨hd, hsets, hbytes, harm⟩ := hcounted hlen
  rw [hdone, Dev.bmeIdle_of_unarmed (harm.trans harmed)] at hset
  obtain ⟨kbme, knt, kdone, ksets, kbytes⟩ := Dev.bmeCleared_keeps hc (w.dev.bmeCounted c)
  obtain ⟨hidle, -, -⟩ := Dev.bmeCleared_rd hc (w.dev.bmeCounted c)
  have hleft : ((w.dev.bmeCounted c).bmeCleared c).settle.bme.undef = w.dev.bme.undef := by rw [Dev.settle_bme, kbme, hundef]
  have hgrow : Dev.CausesGrow (w.dev.bmeCounted c) ((w.dev.bmeCounted c).bmeCleared c).settle :=
    Dev.CausesGrow.trans (.of_blks (congrArg NoteState.blks knt)) (Dev.settle_grow _)
  have hact := hframe.bmeSetActive (c := c) 0 0 0 0 0 0 (fun f hf => by simp [setFields, hf])
  have hcleared : Frame s.dev ((w.dev.bmeCounted c).bmeCleared c)
      (Reg.BME_BYTES_bytes :: Reg.BME_CH_STAT_sets.ix c :: setFields c) [.bme] :=
    (hact.wr _ _ (by simp [setFields])).wr _ _ (by simp [setFields])
  refine ⟨{ w with dev := ((w.dev.bmeCounted c).bmeCleared c).settle }, ?_, hpending, hstored.congr fun sp a _ => ?_, hidle,
    ?_, ?_, ?_, fun hirq => ?_, ?_⟩
  · rw [exec_bmeSetDone_eq hc, hset]
    rfl
  · exact w.spaceByte_dev (by rw [hleft])
  · exact (Dev.settle_chan _ hc Reg.BME_CH_DONE_bytes).trans (kdone.trans hd)
  · exact (Dev.settle_rd _ _ (by decide)).trans (kbytes.trans hbytes)
  · exact (Dev.settle_chan _ hc Reg.BME_CH_STAT_sets).trans (ksets.trans hsets)
  · exact hgrow.grow _ _ (hraised hirq hc)
  · exact hcleared.settle

/-- A set between the RAMs that ends early leaves the bytes moved, and tells its error. -/
theorem ends_bmeSetError {err moved : Nat} (hfits : s.dev.bmeErrFits c err = true) :
    Ends (.bmeSetError c err moved) s (fun t => t.pending = s.pending ∧
      State.Stored s t c (min moved (s.dev.rd (Reg.BME_ACT_LEN_bytes.ix c))) ∧
      t.dev.bmeState c = 2 ∧ t.dev.rd (Reg.BME_CH_STAT_error.ix c) = err ∧
      t.dev.rd (Reg.BME_CH_DONE_bytes.ix c) = min moved (s.dev.rd (Reg.BME_ACT_LEN_bytes.ix c)) ∧
      Raised t.dev .bme (24 + c) ∧ Frame s.dev t.dev (setFields c) [.bme, .host]) := by
  have hwindow : s.dev.bmeWindowPrefix c = s.dev.rd (Reg.BME_ACT_LEN_bytes.ix c) :=
    if_pos (.inl (not_host_of_isRam hds))
  have herr : err < 2 ^ 4 := by
    by_contra hbig
    have hno : s.dev.bmeErrFits c err = false := by
      simp only [Dev.bmeErrFits, if_neg (show ¬ (2 ≤ err ∧ err ≤ 6) by omega), if_neg (show ¬ err = 7 by omega),
        if_neg (show ¬ err = 8 by omega), Bool.and_false]
    rw [hno] at hfits
    cases hfits
  have hset : s.bmeSetError c err moved = { s.bmeWritten c (min moved (s.dev.rd (Reg.BME_ACT_LEN_bytes.ix c))) with
      dev := ((s.bmeWritten c (min moved (s.dev.rd (Reg.BME_ACT_LEN_bytes.ix c)))).dev.wr (Reg.BME_CH_DONE_bytes.ix c)
        (min moved (s.dev.rd (Reg.BME_ACT_LEN_bytes.ix c)))).bmeErr c err } := by
    have hmay : decide (s.dev.rd (Reg.BME_ACT_CFG_dst_space.ix c) ≠ spHost) = true := decide_eq_true (not_host_of_isRam hds)
    simp only [State.bmeSetError, hfits, Bool.not_true, Bool.false_eq_true, if_false, if_neg (not_host_of_isRam hss), hmay,
      Bool.true_or, if_true, hwindow, State.bmeMove_of_ram s c _ hds hraced]
  have hstored := s.bmeWritten_stored c (n := min moved (s.dev.rd (Reg.BME_ACT_LEN_bytes.ix c))) (by omega) hds
  have hpending := s.bmeWritten_pending c (min moved (s.dev.rd (Reg.BME_ACT_LEN_bytes.ix c)))
  have hrd := s.bmeWritten_rd c (min moved (s.dev.rd (Reg.BME_ACT_LEN_bytes.ix c)))
  have hframe := s.bmeWritten_frame c (min moved (s.dev.rd (Reg.BME_ACT_LEN_bytes.ix c)))
  have hn : min moved (s.dev.rd (Reg.BME_ACT_LEN_bytes.ix c)) < 2 ^ 32 := by omega
  generalize s.bmeWritten c (min moved (s.dev.rd (Reg.BME_ACT_LEN_bytes.ix c))) = w at *
  generalize min moved (s.dev.rd (Reg.BME_ACT_LEN_bytes.ix c)) = n at *
  have hstate : (w.dev.wr (Reg.BME_CH_DONE_bytes.ix c) n).bmeState c = 1 :=
    (Dev.rd_wr_ix _ _ _ _ _ (by decide)).trans ((hrd _).trans hrun)
  have hkept (g : Fld) (hg : g.apart Reg.BME_CH_DONE_bytes = true) :
      (w.dev.wr (Reg.BME_CH_DONE_bytes.ix c) n).rd (g.ix c) = s.dev.rd (g.ix c) :=
    (Dev.rd_wr_ix _ _ _ _ _ hg).trans (hrd _)
  have hmoved : (w.dev.wr (Reg.BME_CH_DONE_bytes.ix c) n).rd (Reg.BME_CH_DONE_bytes.ix c) = n := by
    rw [Dev.rd_wr_same]
    exact Nat.mod_eq_of_lt hn
  obtain ⟨hst, her, hdone, hraised, hundef⟩ := Dev.bmeErr_leaves (x := err) hc hstate herr
  have hend : Frame s.dev ((w.dev.wr (Reg.BME_CH_DONE_bytes.ix c) n).bmeErr c err) (setFields c) [.bme, .host] :=
    ((hframe.mono (List.nil_subset _) (by simp)).wr _ _ (by simp [setFields])).bmeErr hstate (by simp [setFields])
      (by simp [setFields]) (by simp) (by simp)
  refine ⟨{ w with dev := ((w.dev.wr (Reg.BME_CH_DONE_bytes.ix c) n).bmeErr c err).settle }, ?_, hpending,
    hstored.congr fun sp a hsp => ?_, hst, her, hdone.trans hmoved, hraised, hend.settle⟩
  · rw [exec_bmeSetError_eq hc, hset]
    rfl
  · refine w.spaceByte_dev (hundef sp a ?_)
    rw [hkept Reg.BME_ACT_CFG_dst_space (by decide), hkept Reg.BME_ACT_DST_addr (by decide),
      hkept Reg.BME_ACT_LEN_bytes (by decide), hmoved]
    exact hsp

end

/-- Settles O60: each request and each end of a channel by what it leaves in the channel's registers and in the RAMs. -/
theorem bulkMoves : Obligations.BulkMoves := by
  intro c err moved s hc
  refine ⟨fun hoff h => gives_bmeArm_refused hc h hoff, fun hst harmed h => gives_bmeArm_held hc h hst harmed,
    fun hst harmed => ⟨fun x hx h => gives_bmeArm_error hc h hst harmed hx,
      fun hnone hss h => gives_bmeArm_runs hc h hst harmed hnone hss, fun h => gives_bmeArm_loaded hc h hst harmed⟩,
    fun hst h => gives_bmeResume_idle hc h hst, fun hst harmed h => gives_bmeResume hc h hst harmed,
    fun hst h => gives_bmeChannelDisable_off hc h hst, fun hst h => gives_bmeChannelDisable hc h hst,
    fun hst hon h => gives_bmeChannelEnable hc h hst hon, fun hst h => gives_bmeChannelEnable_on hc h hst,
    fun hready => gives_bmeSetDone_not_ready hc hready, fun hrun hss hds hraced harmed hlen => ⟨?_, fun hfits => ?_⟩,
    fun hfits => gives_bmeSetError_unfit hc hfits⟩
  · obtain ⟨t, hexec, hpending, ⟨hin, hout, hother⟩, hrest⟩ := ends_bmeSetDone hc hrun hss hds hraced hlen harmed
    exact ⟨t, hexec, ⟨hpending, hin, hout, hother⟩, hrest⟩
  · obtain ⟨t, hexec, hpending, ⟨hin, hout, hother⟩, hrest⟩ := ends_bmeSetError hc hrun hss hds hraced hlen hfits
    exact ⟨t, hexec, ⟨hpending, hin, hout, hother⟩, hrest⟩

end Sys2Proof
end

section
/-! Queue quotas, doorbells and descriptors (R66 to R77). -/

set_option Elab.async false

namespace Sys2Proof

open Sys2Proof.Machine

/-! ### Keys of the queues' registers -/

/-- A field of a stride that begins above the block pages shows no block's state. -/
theorem Machine.Fld.stateKey_ix_of_high (f : Fld) (h : 0xE0000 ≤ f.base) (i : Nat) : stateKey (f.ix i).key = false := by
  have hkey := f.ix_key i
  have hlow : 0xE0000 ≤ (f.ix i).key / 64 := by
    rw [hkey, Nat.le_div_iff_mul_le (by decide), Fld.key]
    omega
  simp [stateKey, not_lt.mpr hlow]

/-- The fields of QMX's page that have an index of a function. -/
def fnFields : List Fld := [Reg.QMX_FN_SQ_base, Reg.QMX_FN_SQ_count, Reg.QMX_FN_CQ_base, Reg.QMX_FN_CQ_count,
  Reg.EVR_CFG_en, Reg.EVR_CFG_size_m1, Reg.EVR_CFG_vector]

theorem fnFields_stateKey : ∀ f < 65, ∀ g ∈ fnFields, stateKey (g.ix f).key = false := by decide +kernel

section

variable {d e : Dev} (h : Dev.Woken d e)
include h

/-- A field that shows no block's state reads as before. -/
theorem Machine.Dev.Woken.rdOf {f : Fld} (hf : stateKey f.key = false) : e.rd f = d.rd f :=
  h.fields f (Bool.eq_false_iff.mpr fun hp => by rw [stateKey_of_pstateKey hp] at hf; exact absurd hf (by decide))

theorem Machine.Dev.Woken.high (f : Fld) (i : Nat) (hf : 0xE0000 ≤ f.base := by decide) : e.rd (f.ix i) = d.rd (f.ix i) :=
  h.rdOf (f.stateKey_ix_of_high hf i)

theorem Machine.Dev.Woken.fnField {f : Nat} (hf : f ≤ 64) (g : Fld) (hg : g ∈ fnFields := by decide) :
    e.rd (g.ix f) = d.rd (g.ix f) := h.rdOf (fnFields_stateKey f (by omega) g hg)

theorem Machine.Dev.Woken.sqState (q : Nat) : e.sqState q = d.sqState q := h.high _ q
theorem Machine.Dev.Woken.sqDepth (q : Nat) : e.sqDepth q = d.sqDepth q := congrArg (· + 1) (h.high Reg.QD_SQ_CFG_size_m1 q)
theorem Machine.Dev.Woken.cqDepth (q : Nat) : e.cqDepth q = d.cqDepth q := congrArg (· + 1) (h.high Reg.QD_CQ_CFG_size_m1 q)

theorem Machine.Dev.Woken.cqActive (q : Nat) : e.cqActive q = d.cqActive q := by
  simp only [Dev.cqActive, Dev.rdB, h.high Reg.QD_CQ_STAT_state q]

theorem Machine.Dev.Woken.sqShown (q : Nat) : e.sqShown q = d.sqShown q := by
  simp only [Dev.sqShown, h.sqState, h.qmx]

theorem Machine.Dev.Woken.ringEn {f : Nat} (hf : f ≤ 64) : e.rdB (Reg.EVR_CFG_en.ix f) = d.rdB (Reg.EVR_CFG_en.ix f) := by
  simp only [Dev.rdB, h.fnField hf Reg.EVR_CFG_en]

theorem Machine.Dev.Woken.ringDepth {f : Nat} (hf : f ≤ 64) : e.ringDepth f = d.ringDepth f :=
  congrArg (· + 1) (h.fnField hf Reg.EVR_CFG_size_m1)

section

variable {f : Nat} (hf : f ≤ 64)
include hf

theorem Machine.Dev.Woken.sqBase : e.sqBase f = d.sqBase f := h.fnField hf _
theorem Machine.Dev.Woken.sqCount : e.sqCount f = d.sqCount f := h.fnField hf _
theorem Machine.Dev.Woken.cqBase : e.cqBase f = d.cqBase f := h.fnField hf _
theorem Machine.Dev.Woken.cqCount : e.cqCount f = d.cqCount f := h.fnField hf _

theorem Machine.Dev.Woken.cqOfSq (q : Nat) : e.cqOfSq f q = d.cqOfSq f q := by
  simp only [Dev.cqOfSq, h.cqBase hf, h.high Reg.QD_SQ_CFG_cq q]

end

end

/-- A field above the block pages reads at the end of a command what the command left in it. -/
theorem Machine.Dev.settle_high (d : Dev) (f : Fld) (i : Nat) (hf : 0xE0000 ≤ f.base := by decide) :
    d.settle.rd (f.ix i) = d.rd (f.ix i) := Dev.settle_rd _ _ (f.stateKey_ix_of_high hf i)

theorem Machine.Dev.settle_fnField (d : Dev) {f : Nat} (hf : f ≤ 64) (g : Fld) (hg : g ∈ fnFields := by decide) :
    d.settle.rd (g.ix f) = d.rd (g.ix f) := Dev.settle_rd _ _ (fnFields_stateKey f (by omega) g hg)

/-! ### The commands of the queues -/

theorem exec_sqTailDoorbell {f i : Nat} (hf : f ≤ 64) (hi : i < if f = 0 then 1024 else 256) (v : Dword) (p : Bool) (s : State) :
    exec (.sqTailDoorbell f i v p) s = s.act fun d => d.atFn f .qmx fun d => d.sqTail f i v p := by
  simp only [exec, execSqTailDoorbell, ifUnit, hf, hi, decide_true, if_true]

theorem exec_cqHeadDoorbell {f i : Nat} (hf : f ≤ 64) (hi : i < if f = 0 then 1024 else 256) (v : Dword) (p : Bool) (s : State) :
    exec (.cqHeadDoorbell f i v p) s = s.act fun d => d.atFn f .qmx fun d => d.cqHead f i v p := by
  simp only [exec, execCqHeadDoorbell, ifUnit, hf, hi, decide_true, if_true]

theorem exec_eventHeadDoorbell {f : Nat} (hf : f ≤ 64) (v : Dword) (p : Bool) (s : State) :
    exec (.eventHeadDoorbell f v p) s = s.act fun d => d.atFn f .qmx fun d => d.eventHead f v p := by
  simp only [exec, execEventHeadDoorbell, ifUnit, hf, decide_true, if_true]

theorem exec_quotaWrite {f : Nat} (hf : f ≤ 64) (cq : Bool) (base count : Nat) (s : State) :
    exec (.quotaWrite cq f base count) s = s.act fun d => d.atFn 0 .qmx fun d => d.quotaWrite cq f base count := by
  simp only [exec, execQuotaWrite, onPage, hf, decide_true, if_true, Dev.atPage]

/-! ### Quotas (R67) -/

/-- The register of a function's first queue. -/
def quotaBase (cq : Bool) (g : Nat) : Fld := if cq then Reg.QMX_FN_CQ_base.ix g else Reg.QMX_FN_SQ_base.ix g

/-- The register of a function's number of queues. -/
def quotaCount (cq : Bool) (g : Nat) : Fld := if cq then Reg.QMX_FN_CQ_count.ix g else Reg.QMX_FN_SQ_count.ix g

/-- Whether a queue is not DISABLED. -/
def Machine.Dev.queueBusy (d : Dev) (cq : Bool) (q : Nat) : Bool :=
  if cq then d.cqActive q else decide (d.sqState q ≠ sqDisabled)

/-- The rules of R67 for a write of a function's range. -/
def Machine.Dev.QuotaFits (d : Dev) (cq : Bool) (f base count : Nat) : Prop :=
  (∀ g, g ≤ 64 → g ≠ f → 0 < count → 0 < d.rd (quotaCount cq g) →
    d.rd (quotaBase cq g) + d.rd (quotaCount cq g) ≤ base ∨ base + count ≤ d.rd (quotaBase cq g)) ∧
  base + count ≤ 1024 ∧ (f ≠ 0 → count ≤ 256) ∧
  (∀ i, i < d.rd (quotaCount cq f) → d.queueBusy cq (d.rd (quotaBase cq f) + i) = true →
    base = d.rd (quotaBase cq f) ∧ i < count)

/-- What forbids a write: the tests of quotaWrite. -/
def Machine.Dev.quotaBad (d : Dev) (cq : Bool) (f base count : Nat) : Bool :=
  ((List.range 65).any fun g => decide (g ≠ f) && decide (0 < count) && decide (0 < d.rd (quotaCount cq g)) &&
    decide (base < d.rd (quotaBase cq g) + d.rd (quotaCount cq g)) && decide (d.rd (quotaBase cq g) < base + count)) ||
  decide (1024 < base + count) || (decide (f ≠ 0) && decide (256 < count)) ||
  (decide (base ≠ d.rd (quotaBase cq f)) &&
    (List.range (d.rd (quotaCount cq f))).any fun i => d.queueBusy cq (d.rd (quotaBase cq f) + i)) ||
  (List.range (d.rd (quotaCount cq f))).any fun i => decide (count ≤ i) && d.queueBusy cq (d.rd (quotaBase cq f) + i)

theorem Machine.Dev.quotaWrite_eq (d : Dev) (cq : Bool) {f base count : Nat} (hbase : base < 1024) (hcount : count ≤ 1024)
    (hzero : f = 0 → base = 0) : d.quotaWrite cq f base count = if d.quotaBad cq f base count then d.refuse .qmx
      else (d.wr (quotaBase cq f) base).wr (quotaCount cq f) count := by
  have hb : (if f = 0 then 0 else base % 1024) = base := by
    split
    · next h => exact (hzero h).symm
    · exact Nat.mod_eq_of_lt hbase
  have hc : count % 2048 = count := Nat.mod_eq_of_lt (by omega)
  simp only [Dev.quotaWrite, hb, hc]
  cases cq <;> rfl

theorem Machine.Dev.quotaBad_eq_false_iff (d : Dev) (cq : Bool) (f base count : Nat) :
    d.quotaBad cq f base count = false ↔ d.QuotaFits cq f base count := by
  simp only [Dev.quotaBad, Bool.or_eq_false_iff, List.any_eq_false, List.mem_range, Bool.and_eq_true, decide_eq_true_eq,
    Bool.and_eq_false_iff, decide_eq_false_iff_not, Dev.QuotaFits, not_and, not_lt]
  constructor
  · rintro ⟨⟨⟨⟨hclash, hend⟩, hvf⟩, hmove⟩, hcut⟩
    refine ⟨fun g hg hne hpos hcount => ?_, hend, fun hf => hvf.resolve_left (not_not.mpr hf), fun i hi hbusy => ⟨?_, ?_⟩⟩
    · by_contra hout
      exact absurd (hclash g (by omega) ⟨⟨⟨hne, hpos⟩, hcount⟩, by omega⟩) (by omega)
    · exact not_not.mp (hmove.resolve_right fun h => h i hi hbusy)
    · by_contra hout
      exact hcut i hi (not_lt.mp hout) hbusy
  · rintro ⟨hclash, hend, hvf, hkept⟩
    refine ⟨⟨⟨⟨fun g hg ⟨⟨⟨hne, hpos⟩, hcount⟩, hlow⟩ => ?_, hend⟩, ?_⟩, ?_⟩, fun i hi hout hbusy => ?_⟩
    · exact (hclash g (by omega) hne hpos hcount).resolve_left (not_le.mpr hlow)
    · exact or_iff_not_imp_left.mpr fun hf => hvf (not_not.mp hf)
    · exact or_iff_not_imp_left.mpr fun hb i hi hbusy => hb (not_not.mpr (hkept i hi hbusy).1)
    · exact absurd (hkept i hi hbusy).2 (not_lt.mpr hout)

theorem quotaBase_stateKey (cq : Bool) {f : Nat} (hf : f ≤ 64) :
    stateKey (quotaBase cq f).key = false ∧ stateKey (quotaCount cq f).key = false := by
  have hlt : f < 65 := by omega
  cases cq
  · exact ⟨fnFields_stateKey f hlt Reg.QMX_FN_SQ_base (by decide), fnFields_stateKey f hlt Reg.QMX_FN_SQ_count (by decide)⟩
  · exact ⟨fnFields_stateKey f hlt Reg.QMX_FN_CQ_base (by decide), fnFields_stateKey f hlt Reg.QMX_FN_CQ_count (by decide)⟩

theorem Machine.Dev.Woken.queueBusy {d e : Dev} (h : Dev.Woken d e) (cq : Bool) (q : Nat) : e.queueBusy cq q = d.queueBusy cq q := by
  simp only [Dev.queueBusy, h.cqActive, h.sqState]

theorem Machine.Dev.Woken.quotaFits {d e : Dev} (h : Dev.Woken d e) (cq : Bool) {f base count : Nat} (hf : f ≤ 64) :
    e.QuotaFits cq f base count ↔ d.QuotaFits cq f base count := by
  have hrd (g : Nat) (hg : g ≤ 64) : e.rd (quotaBase cq g) = d.rd (quotaBase cq g) ∧ e.rd (quotaCount cq g) = d.rd (quotaCount cq g) :=
    ⟨h.rdOf (quotaBase_stateKey cq hg).1, h.rdOf (quotaBase_stateKey cq hg).2⟩
  simp only [Dev.QuotaFits, h.queueBusy, hrd f hf]
  refine and_congr_left fun _ => forall_congr' fun g => forall_congr' fun hg => ?_
  rw [(hrd g hg).1, (hrd g hg).2]

/-- Settles O24: quotaWrite's tests are the rules of R67. -/
theorem queueQuotas : Obligations.QueueQuotas := by
  intro cq f base count s h hf hbase hcount hzero baseF countF busy taken
  have htaken : taken ↔ s.dev.QuotaFits cq f base count := by
    have hb : baseF = quotaBase cq := rfl
    have hc : countF = quotaCount cq := rfl
    have hbusy (q : Nat) : busy q ↔ s.dev.queueBusy cq q = true := by
      cases cq
      · exact (decide_eq_true_iff (p := s.dev.sqState q ≠ sqDisabled)).symm
      · exact Iff.rfl
    simp only [taken, hb, hc, hbusy, Dev.QuotaFits]
  refine ⟨fun ht => gives_of_exec_eq_atFn (exec_quotaWrite hf cq base count s) h fun d hd => ?_,
    fun ht => gives_of_exec_eq_atFn (exec_quotaWrite hf cq base count s) h fun d hd => ?_⟩
  · rw [d.quotaWrite_eq cq hbase hcount hzero,
      (d.quotaBad_eq_false_iff cq f base count).mpr ((hd.quotaFits cq hf).mpr (htaken.mp ht)), if_neg Bool.false_ne_true]
    obtain ⟨hkb, hkc⟩ := quotaBase_stateKey cq hf
    have hne : (quotaBase cq f).key ≠ (quotaCount cq f).key := by
      cases cq
      · exact Fld.ix_key_ne (f := Reg.QMX_FN_SQ_base) (g := Reg.QMX_FN_SQ_count) (by decide) f
      · exact Fld.ix_key_ne (f := Reg.QMX_FN_CQ_base) (g := Reg.QMX_FN_CQ_count) (by decide) f
    have hwb : (quotaBase cq f).width = 10 := by
      cases cq
      · exact Reg.QMX_FN_SQ_base.ix_width f
      · exact Reg.QMX_FN_CQ_base.ix_width f
    have hwc : (quotaCount cq f).width = 11 := by
      cases cq
      · exact Reg.QMX_FN_SQ_count.ix_width f
      · exact Reg.QMX_FN_CQ_count.ix_width f
    have hnewBase : ((d.wr (quotaBase cq f) base).wr (quotaCount cq f) count).settle.rd (quotaBase cq f) = base := by
      rw [Dev.settle_rd _ _ hkb, Dev.rd_wr_other _ _ _ _ hne, Dev.rd_wr_same, hwb]
      exact Nat.mod_eq_of_lt hbase
    have hnewCount : ((d.wr (quotaBase cq f) base).wr (quotaCount cq f) count).settle.rd (quotaCount cq f) = count := by
      rw [Dev.settle_rd _ _ hkc, Dev.rd_wr_same, hwc]
      exact Nat.mod_eq_of_lt (by omega)
    exact ⟨hnewBase, hnewCount,
      (((Frame.of_woken hd _ _).wr _ _ List.mem_cons_self).wr _ _ (List.mem_cons_of_mem _ List.mem_cons_self)).settle⟩
  · have hbad : d.quotaBad cq f base count = true := by
      rw [← Bool.not_eq_false, d.quotaBad_eq_false_iff, hd.quotaFits cq hf]
      exact fun hfits => ht (htaken.mpr hfits)
    rw [d.quotaWrite_eq cq hbase hcount hzero, hbad, if_pos rfl]
    exact ⟨Dev.settle_raised _ _ _ (d.refuse_raised .qmx), ((Frame.of_woken hd _ _).reports (Dev.cause_reports _ _ _)).settle⟩

end Sys2Proof
end

section
/-! Doorbells (R69, R70, R72 to R74). -/

set_option Elab.async false

namespace Sys2Proof

open Sys2Proof.Machine

/-! ### What an event ring keeps while its waiting events are written -/

namespace Machine

theorem Dev.Settles.ring {d e : Dev} (h : Dev.Settles d e) (f : Nat) : e.ring f = d.ring f := by
  rw [h.same]
  rfl

theorem Dev.writeHost_settles (d : Dev) (f a : Nat) (bs : Bytes) (r : Bool) : Dev.Settles d (d.writeHost f a bs r) := by
  unfold Dev.writeHost
  exact forEach_induct (P := Dev.Settles d)
    (fun _ e he => he.trans ((Dev.exitL1_settles e).trans (Dev.emit_settles _ _))) _ d (.refl d)

theorem Dev.putEvent_head (d : Dev) (f : Nat) (x : Event) : ((d.putEvent f x).ring f).head = (d.ring f).head := by
  rw [Dev.putEvent, Dev.ring_updRing, (d.writeHost_settles f _ _ _).ring]

theorem Dev.raiseRing_ring (d : Dev) (f g : Nat) : (d.raiseRing f).ring g = d.ring g := by
  unfold Dev.raiseRing
  split
  · exact (d.raiseVec_settles _ _).ring g
  · rfl

theorem Dev.drainEvents_head (n f : Nat) : ∀ d : Dev, ((Dev.drainEvents n f d).ring f).head = (d.ring f).head := by
  induction n with
  | zero => exact fun _ => rfl
  | succ n ih =>
    intro d
    rw [Dev.drainEvents]
    split
    · rfl
    · split
      · rw [ih, Dev.putEvent_head, Dev.ring_updRing]
      · rfl

/-- Writing what waits for a ring moves its tail only. -/
theorem Dev.drainRing_head (d : Dev) (f : Nat) : ((d.drainRing f).ring f).head = (d.ring f).head := by
  unfold Dev.drainRing
  split
  · unfold Dev.drainHalt
    split
    · split
      · rw [Dev.writeEvent, Dev.raiseRing_ring, Dev.putEvent_head, Dev.ring_updRing]
      · rfl
    · rfl
  · dsimp only [Dev.drainPass]
    split
    · rw [Dev.raiseRing_ring, Dev.drainEvents_head]
    · exact Dev.drainEvents_head _ _ _

/-- Where nothing waits nothing is written. -/
theorem Dev.drainRing_of_pend_eq_nil {d : Dev} {f : Nat} (h : (d.ring f).pend = []) : d.drainRing f = d := by
  simp only [Dev.drainRing, Dev.drainHalt, Dev.drainPass, h, List.find?_nil, List.length_nil, Dev.drainEvents,
    Nat.lt_irrefl, if_false, ite_self]

/-! ### Which doorbells are taken -/

/-- A doorbell's index: bits 15:0 of the data. -/
theorem bitsOf_low (v : Nat) : bitsOf v 15 0 = v % 2 ^ 16 := by simp [bitsOf]

theorem bitsOf_high_eq_zero_iff {v : Nat} (hv : v < 2 ^ 32) : bitsOf v 31 16 = 0 ↔ v < 2 ^ 16 := by
  simp only [bitsOf]
  omega

/-- Whether a doorbell's data are not a whole write of an index. -/
def bellMalformed (v : Dword) (partialBytes : Bool) : Bool := partialBytes || decide (bitsOf v.toNat 31 16 ≠ 0)

theorem bellMalformed_eq_true_iff (v : Dword) (whole : Bool) :
    bellMalformed v (!whole) = true ↔ whole = false ∨ 2 ^ 16 ≤ v.toNat := by
  have h := bitsOf_high_eq_zero_iff v.isLt
  simp only [bellMalformed, Bool.or_eq_true, Bool.not_eq_true', decide_eq_true_eq, Ne, h, not_lt]

section

variable (d : Dev) (f i : Nat) (v : Dword) (p : Bool)

theorem Dev.sqTail_eq : d.sqTail f i v p =
    if bellMalformed v p then d.badDoorbell 0 1 f (d.sqBase f + i)
    else if ¬ (i < d.sqCount f ∧ d.sqShown (d.sqBase f + i) ∈ [sqActive, sqFetchTimeout, sqHalted]) then
      d.badDoorbell 0 2 f (d.sqBase f + i)
    else if d.sqDepth (d.sqBase f + i) ≤ v.toNat % 2 ^ 16 then d.badDoorbell 0 0 f (d.sqBase f + i)
    else d.wr (Reg.QD_SQ_PTR_tail.ix (d.sqBase f + i)) (v.toNat % 2 ^ 16) := by
  have htest : (!(decide (i < d.sqCount f) && [sqActive, sqFetchTimeout, sqHalted].contains (d.sqShown (d.sqBase f + i)))) = true ↔
      ¬ (i < d.sqCount f ∧ d.sqShown (d.sqBase f + i) ∈ [sqActive, sqFetchTimeout, sqHalted]) := by
    rw [Bool.not_eq_true', ← Bool.not_eq_true, Bool.and_eq_true, decide_eq_true_eq, List.contains_iff_mem]
  simp only [Dev.sqTail, htest, bitsOf_low, bellMalformed] <;> rfl

theorem Dev.cqHead_eq : d.cqHead f i v p =
    if bellMalformed v p then d.badDoorbell 1 1 f (d.cqBase f + i)
    else if ¬ (i < d.cqCount f ∧ d.cqActive (d.cqBase f + i) = true) then d.badDoorbell 1 2 f (d.cqBase f + i)
    else if d.cqDepth (d.cqBase f + i) ≤ v.toNat % 2 ^ 16 then d.badDoorbell 1 0 f (d.cqBase f + i)
    else if onPath (d.rd (Reg.QD_CQ_PTR_head.ix (d.cqBase f + i))) (d.rd (Reg.QD_CQ_PTR_tail.ix (d.cqBase f + i)))
      (v.toNat % 2 ^ 16) (d.cqDepth (d.cqBase f + i)) = false then d.badDoorbell 1 3 f (d.cqBase f + i)
    else d.wr (Reg.QD_CQ_PTR_head.ix (d.cqBase f + i)) (v.toNat % 2 ^ 16) := by
  have htest : (!(decide (i < d.cqCount f) && d.cqActive (d.cqBase f + i))) = true ↔
      ¬ (i < d.cqCount f ∧ d.cqActive (d.cqBase f + i) = true) := by
    rw [Bool.not_eq_true', ← Bool.not_eq_true, Bool.and_eq_true, decide_eq_true_eq]
  simp only [Dev.cqHead, htest, bitsOf_low, bellMalformed, Bool.not_eq_true'] <;> rfl

theorem Dev.eventHead_eq : d.eventHead f v p =
    if bellMalformed v p then d.badDoorbell 2 1 f 0
    else if d.rdB (Reg.EVR_CFG_en.ix f) = false then d.badDoorbell 2 2 f 0
    else if d.ringDepth f ≤ v.toNat % 2 ^ 16 then d.badDoorbell 2 0 f 0
    else if onPath (d.ring f).head (d.ring f).tail (v.toNat % 2 ^ 16) (d.ringDepth f) = false then d.badDoorbell 2 3 f 0
    else (d.updRing f fun r => { r with head := v.toNat % 2 ^ 16 }).drainRing f := by
  simp only [Dev.eventHead, bitsOf_low, bellMalformed, Bool.not_eq_true'] <;> rfl

end

/-! ### What an ignored doorbell leaves -/

/-- The fields that an ignored doorbell changes. -/
def bellFields : List Fld := [Reg.QMX_DB_ERR_count, Reg.QMX_DB_LAST_kind, Reg.QMX_DB_LAST_reason, Reg.QMX_DB_LAST_fn,
  Reg.QMX_DB_LAST_queue]

/-- An ignored doorbell is counted, told and reported. -/
theorem Dev.badDoorbell_leaves {s d : Dev} (hd : Dev.Woken s d) {kind reason f : Nat} (q : Nat) (hkind : kind < 4)
    (hreason : reason < 4) (hf : f ≤ 64) : (d.badDoorbell kind reason f q).settle.rd Reg.QMX_DB_ERR_count =
        min (s.rd Reg.QMX_DB_ERR_count + 1) (2 ^ 32 - 1) ∧
      (d.badDoorbell kind reason f q).settle.rd Reg.QMX_DB_LAST_kind = kind ∧
      (d.badDoorbell kind reason f q).settle.rd Reg.QMX_DB_LAST_reason = reason ∧
      (d.badDoorbell kind reason f q).settle.rd Reg.QMX_DB_LAST_fn = f ∧
      (d.badDoorbell kind reason f q).settle.rd Reg.QMX_DB_LAST_queue = q % 1024 ∧
      Raised (d.badDoorbell kind reason f q).settle .qmx 16 ∧
      ((d.badDoorbell kind reason f q).settle.note .qmx).corr = min ((s.note .qmx).corr + 1) 0xFFFF ∧
      Frame s (d.badDoorbell kind reason f q).settle bellFields [] := by
  have hframe : Frame s (d.badDoorbell kind reason f q) bellFields [] :=
    (((((((Frame.of_woken hd _ _).incSat _ _).wr _ _).wr _ _).wr _ _).wr _ _).reports (Dev.causeBit_reports _ _ _)).reports
      (Dev.errCorr_reports _ _ _)
  have hrd (g : Fld) : (d.badDoorbell kind reason f q).rd g = (((((d.incSat Reg.QMX_DB_ERR_count).wr Reg.QMX_DB_LAST_kind kind).wr
      Reg.QMX_DB_LAST_reason reason).wr Reg.QMX_DB_LAST_fn f).wr Reg.QMX_DB_LAST_queue q).rd g := rfl
  have hraised : Raised (d.badDoorbell kind reason f q) .qmx 16 :=
    (Dev.errCorr_grow _ _ _).grow _ _ (Dev.causeBit_raised _ _ _)
  have hother (e : Dev) (f g : Fld) (x : Nat) (h : g.key ≠ f.key := by decide) : (e.wr f x).rd g = e.rd g :=
    e.rd_wr_other f g x h
  refine ⟨?_, ?_, ?_, ?_, ?_, Dev.settle_raised _ _ _ hraised, ?_, hframe.settle⟩
  · rw [Dev.settle_rd _ _ (by decide), hrd, hother _ _ _ _, hother _ _ _ _, hother _ _ _ _, hother _ _ _ _,
      Dev.rd_incSat_same, hd.rd Reg.QMX_DB_ERR_count]
    rfl
  · rw [Dev.settle_rd _ _ (by decide), hrd, hother _ _ _ _, hother _ _ _ _, hother _ _ _ _, Dev.rd_wr_same]
    exact Nat.mod_eq_of_lt hkind
  · rw [Dev.settle_rd _ _ (by decide), hrd, hother _ _ _ _, hother _ _ _ _, Dev.rd_wr_same]
    exact Nat.mod_eq_of_lt hreason
  · rw [Dev.settle_rd _ _ (by decide), hrd, hother _ _ _ _, Dev.rd_wr_same]
    exact Nat.mod_eq_of_lt (lt_of_le_of_lt hf (by decide))
  · rw [Dev.settle_rd _ _ (by decide), hrd, Dev.rd_wr_same]
    rfl
  · obtain ⟨hcorr, -, -, -, -⟩ := (d.badDoorbell kind reason f q).settle_notesGrow .qmx
    rw [hcorr, Dev.badDoorbell, Dev.errCorr, Dev.note_updNote, Dev.causeBit, Dev.cause, Dev.note_updNote, ← hd.note]
    simp only [firstErr]
    split <;> rfl

end Machine

/-! ### O25 and O26 -/

/-- Settles O25: the tests of R74 all pass, and the index moves. -/
theorem goodDoorbells : Obligations.GoodDoorbells := by
  intro f i idx s h hf hidx q p
  have hv : (BitVec.ofNat 32 idx).toNat = idx := by
    rw [BitVec.toNat_ofNat]
    exact Nat.mod_eq_of_lt (by omega)
  have hmod : idx % 2 ^ 16 = idx := Nat.mod_eq_of_lt hidx
  have hgood : bellMalformed (BitVec.ofNat 32 idx) false = false := by
    have hiff := bellMalformed_eq_true_iff (BitVec.ofNat 32 idx) true
    rw [hv] at hiff
    rw [← Bool.not_eq_true]
    exact fun hbad => absurd (hiff.mp hbad) (by simp only [Bool.true_eq_false, false_or, not_le]; exact hidx)
  refine ⟨fun hi hspace hst hlt => ?sq, fun hi hspace hact hlt hpath => ?cq, fun hen hlt hpath => ?ring⟩
  case sq =>
    refine gives_of_exec_eq_atFn (exec_sqTailDoorbell hf hspace _ false s) h fun d hd => ?_
    rw [d.sqTail_eq, hgood, hd.sqBase hf, hd.sqCount hf, hd.sqShown, hd.sqDepth, hv, hmod, if_neg Bool.false_ne_true,
      if_neg (not_not.mpr ⟨hi, hst⟩), if_neg (not_le.mpr hlt)]
    refine ⟨?_, ((Frame.of_woken hd _ _).wr _ _ (List.mem_singleton_self _)).settle⟩
    rw [Dev.settle_high _ Reg.QD_SQ_PTR_tail, Dev.rd_wr_same]
    exact (congrArg (idx % 2 ^ ·) (Reg.QD_SQ_PTR_tail.ix_width q)).trans hmod
  case cq =>
    refine gives_of_exec_eq_atFn (exec_cqHeadDoorbell hf hspace _ false s) h fun d hd => ?_
    rw [d.cqHead_eq, hgood, hd.cqBase hf, hd.cqCount hf, hd.cqActive, hd.cqDepth, hd.high Reg.QD_CQ_PTR_head,
      hd.high Reg.QD_CQ_PTR_tail, hv, hmod, if_neg Bool.false_ne_true, if_neg (not_not.mpr ⟨hi, hact⟩),
      if_neg (not_le.mpr hlt), if_neg (by rw [hpath]; exact Bool.false_ne_true.symm)]
    refine ⟨?_, ((Frame.of_woken hd _ _).wr _ _ (List.mem_singleton_self _)).settle⟩
    rw [Dev.settle_high _ Reg.QD_CQ_PTR_head, Dev.rd_wr_same]
    exact (congrArg (idx % 2 ^ ·) (Reg.QD_CQ_PTR_head.ix_width p)).trans hmod
  case ring =>
    refine gives_of_exec_eq_atFn (exec_eventHeadDoorbell hf _ false s) h fun d hd => ?_
    rw [d.eventHead_eq, hgood, hd.ringEn hf, hd.ringDepth hf, hd.ring, hv, hmod, if_neg Bool.false_ne_true, hen,
      if_neg Bool.false_ne_true.symm, if_neg (not_le.mpr hlt), if_neg (by rw [hpath]; exact Bool.false_ne_true.symm)]
    have hring := d.ring_updRing f fun r => { r with head := idx }
    have hdrained := (d.updRing f fun r => { r with head := idx }).drainRing_head f
    refine ⟨?_, (((Frame.of_woken hd _ _).reports (d.updRing_reports f _)).reports (Dev.drainRing_reports _ f)).settle,
      fun hpend => ?_⟩
    · rw [Dev.settle_ring, hdrained, hring]
    · have hnone : ((d.updRing f fun r => { r with head := idx }).ring f).pend = [] := by rw [hring, hd.ring]; exact hpend
      rw [Dev.settle_ring, Dev.drainRing_of_pend_eq_nil hnone, hring, hd.ring]

/-- Settles O26: each test of R74 that fails first names its reason. -/
theorem badDoorbells : Obligations.BadDoorbells := by
  intro f i v whole s h hf hi q p idx malformed bad
  have hbell : bellMalformed v (!whole) = true ↔ malformed := bellMalformed_eq_true_iff v whole
  have hgood (hm : ¬ malformed) : ¬ bellMalformed v (!whole) = true := fun hbad => hm (hbell.mp hbad)
  have hsq {P : Dev → Prop} (hP : ∀ d, Dev.Woken s.dev d → P (d.sqTail f i v (!whole)).settle) :
      Gives (.sqTailDoorbell f i v (!whole)) s P := gives_of_exec_eq_atFn (exec_sqTailDoorbell hf hi v _ s) h hP
  have hcq {P : Dev → Prop} (hP : ∀ d, Dev.Woken s.dev d → P (d.cqHead f i v (!whole)).settle) :
      Gives (.cqHeadDoorbell f i v (!whole)) s P := gives_of_exec_eq_atFn (exec_cqHeadDoorbell hf hi v _ s) h hP
  have hev {P : Dev → Prop} (hP : ∀ d, Dev.Woken s.dev d → P (d.eventHead f v (!whole)).settle) :
      Gives (.eventHeadDoorbell f v (!whole)) s P := gives_of_exec_eq_atFn (exec_eventHeadDoorbell hf v _ s) h hP
  have hleaves {d : Dev} (hd : Dev.Woken s.dev d) (kind reason n : Nat) (hk : kind < 4 := by decide) (hr : reason < 4 := by decide) :
      bad kind reason n (d.badDoorbell kind reason f n).settle := Dev.badDoorbell_leaves hd n hk hr hf
  refine ⟨fun hm => ⟨hsq fun d hd => ?_, hcq fun d hd => ?_, hev fun d hd => ?_⟩, fun hm hno => hsq fun d hd => ?_,
    fun hm hcount hst hlong => hsq fun d hd => ?_, fun hm hno => hcq fun d hd => ?_,
    fun hm hcount hact hlong => hcq fun d hd => ?_, fun hm hcount hact hlt hpath => hcq fun d hd => ?_,
    fun hm hoff => hev fun d hd => ?_, fun hm hen hlong => hev fun d hd => ?_, fun hm hen hlt hpath => hev fun d hd => ?_⟩
  · rw [d.sqTail_eq, if_pos (hbell.mpr hm), hd.sqBase hf]
    exact hleaves hd 0 1 q
  · rw [d.cqHead_eq, if_pos (hbell.mpr hm), hd.cqBase hf]
    exact hleaves hd 1 1 p
  · rw [d.eventHead_eq, if_pos (hbell.mpr hm)]
    exact hleaves hd 2 1 0
  · rw [d.sqTail_eq, if_neg (hgood hm), hd.sqBase hf, hd.sqCount hf, hd.sqShown,
      if_pos fun ⟨hcount, hst⟩ => hno.elim (· hcount) (· hst)]
    exact hleaves hd 0 2 q
  · rw [d.sqTail_eq, if_neg (hgood hm), hd.sqBase hf, hd.sqCount hf, hd.sqShown, hd.sqDepth,
      if_neg (not_not.mpr ⟨hcount, hst⟩), if_pos hlong]
    exact hleaves hd 0 0 q
  · rw [d.cqHead_eq, if_neg (hgood hm), hd.cqBase hf, hd.cqCount hf, hd.cqActive,
      if_pos fun ⟨hcount, hact⟩ => hno.elim (· hcount) fun hoff => absurd (hact.symm.trans hoff) Bool.false_ne_true.symm]
    exact hleaves hd 1 2 p
  · rw [d.cqHead_eq, if_neg (hgood hm), hd.cqBase hf, hd.cqCount hf, hd.cqActive, hd.cqDepth,
      if_neg (not_not.mpr ⟨hcount, hact⟩), if_pos hlong]
    exact hleaves hd 1 0 p
  · rw [d.cqHead_eq, if_neg (hgood hm), hd.cqBase hf, hd.cqCount hf, hd.cqActive, hd.cqDepth, hd.high Reg.QD_CQ_PTR_head,
      hd.high Reg.QD_CQ_PTR_tail, if_neg (not_not.mpr ⟨hcount, hact⟩), if_neg (not_le.mpr hlt), if_pos hpath]
    exact hleaves hd 1 3 p
  · rw [d.eventHead_eq, if_neg (hgood hm), hd.ringEn hf, if_pos hoff]
    exact hleaves hd 2 2 0
  · rw [d.eventHead_eq, if_neg (hgood hm), hd.ringEn hf, hd.ringDepth hf, hen, if_neg Bool.false_ne_true.symm, if_pos hlong]
    exact hleaves hd 2 0 0
  · rw [d.eventHead_eq, if_neg (hgood hm), hd.ringEn hf, hd.ringDepth hf, hd.ring, hen, if_neg Bool.false_ne_true.symm,
      if_neg (not_le.mpr hlt), if_pos hpath]
    exact hleaves hd 2 3 0

end Sys2Proof
end

section
/-! Queue and event ring descriptors (R75 to R77). -/

set_option Elab.async false

namespace Sys2Proof

open Sys2Proof.Machine

section

variable {f : Nat} (hf : f ≤ 64) (i : Nat) (s : State)
include hf

theorem exec_sqEnable : exec (.sqEnable f i) s =
    s.act fun d => d.atFn f .qmx fun d => if i < d.sqCount f then d.sqEnable f i else d := by
  simp only [exec, execSqEnable, ifUnit, hf, decide_true, if_true]

theorem exec_sqDisable : exec (.sqDisable f i) s =
    s.act fun d => d.atFn f .qmx fun d => if i < d.sqCount f then d.sqDisable f i else d := by
  simp only [exec, execSqDisable, ifUnit, hf, decide_true, if_true]

theorem exec_sqRestart : exec (.sqRestart f i) s =
    s.act fun d => d.atFn f .qmx fun d => if i < d.sqCount f then d.sqRestart f i else d := by
  simp only [exec, execSqRestart, ifUnit, hf, decide_true, if_true]

theorem exec_cqEnable : exec (.cqEnable f i) s =
    s.act fun d => d.atFn f .qmx fun d => if i < d.cqCount f then d.cqEnable f i else d := by
  simp only [exec, execCqEnable, ifUnit, hf, decide_true, if_true]

theorem exec_cqDisable : exec (.cqDisable f i) s =
    s.act fun d => d.atFn f .qmx fun d => if i < d.cqCount f then d.cqDisable f i else d := by
  simp only [exec, execCqDisable, ifUnit, hf, decide_true, if_true]

theorem exec_eventRingEnable : exec (.eventRingEnable f) s = s.act fun d => d.atFn f .qmx fun d => d.ringEnable f := by
  simp only [exec, execEventRingEnable, ifUnit, hf, decide_true, if_true]

theorem exec_eventRingDisable : exec (.eventRingDisable f) s = s.act fun d => d.atFn f .qmx fun d => d.ringDisable f := by
  simp only [exec, execEventRingDisable, ifUnit, hf, decide_true, if_true]

end

/-- A command about an SQ that its function has. -/
theorem gives_of_sqCommand {c : Instr} {s : State} {f i : Nat} {g : Dev → Dev} {P : Dev → Prop}
    (hexec : exec c s = s.act fun d => d.atFn f .qmx fun d => if i < d.sqCount f then g d else d)
    (h : HostReaches s.dev f .qmx) (hf : f ≤ 64) (hi : i < s.dev.sqCount f)
    (hP : ∀ d, Dev.Woken s.dev d → P (g d).settle) : Gives c s P := by
  refine gives_of_exec_eq_atFn hexec h fun d hd => ?_
  rw [if_pos ((hd.sqCount hf).symm ▸ hi)]
  exact hP d hd

/-- A command about a CQ that its function has. -/
theorem gives_of_cqCommand {c : Instr} {s : State} {f i : Nat} {g : Dev → Dev} {P : Dev → Prop}
    (hexec : exec c s = s.act fun d => d.atFn f .qmx fun d => if i < d.cqCount f then g d else d)
    (h : HostReaches s.dev f .qmx) (hf : f ≤ 64) (hi : i < s.dev.cqCount f)
    (hP : ∀ d, Dev.Woken s.dev d → P (g d).settle) : Gives c s P := by
  refine gives_of_exec_eq_atFn hexec h fun d hd => ?_
  rw [if_pos ((hd.cqCount hf).symm ▸ hi)]
  exact hP d hd

/-! ### The rules for a descriptor (R76, R77) -/

/-- What enabling an SQ wants: depth 2 or more, and an ACTIVE CQ of its function. -/
def Machine.Dev.SqGood (d : Dev) (f q : Nat) : Prop :=
  1 ≤ d.rd (Reg.QD_SQ_CFG_size_m1.ix q) ∧ d.rd (Reg.QD_SQ_CFG_cq.ix q) < d.cqCount f ∧ d.cqActive (d.cqOfSq f q) = true

/-- What enabling a CQ wants. -/
def Machine.Dev.CqGood (d : Dev) (f p : Nat) : Prop :=
  1 ≤ d.rd (Reg.QD_CQ_CFG_size_m1.ix p) ∧ d.rd (Reg.QD_CQ_CFG_vector.ix p) < vectorsOf f

/-- An SQ that is not DISABLED names the CQ. -/
def Machine.Dev.CqNamed (d : Dev) (f p : Nat) : Prop :=
  ∃ j, j < d.sqCount f ∧ d.sqState (d.sqBase f + j) ≠ sqDisabled ∧ d.cqOfSq f (d.sqBase f + j) = p

/-- What enabling an event ring wants. -/
def Machine.Dev.RingGood (d : Dev) (f : Nat) : Prop :=
  1 ≤ d.rd (Reg.EVR_CFG_size_m1.ix f) ∧ d.rd (Reg.EVR_CFG_vector.ix f) < vectorsOf f

/-- An SQ with no command that will post and no entry fetched. -/
def Machine.Dev.SqIdle (d : Dev) (q : Nat) : Prop := d.inflight q = 0 ∧ ∀ x ∈ d.qmx.fetched, x.q ≠ q

section

variable {d e : Dev} (h : Dev.Woken d e) {f : Nat} (hf : f ≤ 64)
include h

theorem Machine.Dev.Woken.fns : e.hif.fns = d.hif.fns := by rw [h.same]

theorem Machine.Dev.Woken.sqIdle (q : Nat) : e.SqIdle q ↔ d.SqIdle q := by
  simp only [Dev.SqIdle, Dev.inflight, h.qmx, h.fns]

theorem Machine.Dev.Woken.cqGood (p : Nat) : e.CqGood f p ↔ d.CqGood f p := by
  simp only [Dev.CqGood, h.high Reg.QD_CQ_CFG_size_m1 p, h.high Reg.QD_CQ_CFG_vector p]

include hf

theorem Machine.Dev.Woken.sqGood (q : Nat) : e.SqGood f q ↔ d.SqGood f q := by
  simp only [Dev.SqGood, h.high Reg.QD_SQ_CFG_size_m1 q, h.high Reg.QD_SQ_CFG_cq q, h.cqCount hf, h.cqOfSq hf, h.cqActive]

theorem Machine.Dev.Woken.cqNamed (p : Nat) : e.CqNamed f p ↔ d.CqNamed f p := by
  simp only [Dev.CqNamed, h.sqCount hf, h.sqBase hf, h.sqState, h.cqOfSq hf]

theorem Machine.Dev.Woken.ringGood : e.RingGood f ↔ d.RingGood f := by
  simp only [Dev.RingGood, h.fnField hf Reg.EVR_CFG_size_m1, h.fnField hf Reg.EVR_CFG_vector]

end

namespace Machine

/-! ### Submission queues -/

section

variable (d : Dev) (f i : Nat)

/-- The fields that enabling an SQ sets. -/
def Dev.sqOpened (d : Dev) (q : Nat) : Dev :=
  ((((d.wr (Reg.QD_SQ_CFG_en.ix q) 1).wr (Reg.QD_SQ_PTR_head.ix q) 0).wr (Reg.QD_SQ_PTR_tail.ix q) 0).wr
    (Reg.QD_SQ_STAT_state.ix q) sqActive)

theorem Dev.sqEnable_of_disabled {d : Dev} {f i : Nat} (h : d.sqState (d.sqBase f + i) = sqDisabled) :
    (d.SqGood f (d.sqBase f + i) → d.sqEnable f i = { d.sqOpened (d.sqBase f + i) with qmx :=
      { (d.sqOpened (d.sqBase f + i)).qmx with credit := Tbl.erase (d.sqOpened (d.sqBase f + i)).qmx.credit (d.sqBase f + i) } }) ∧
    (¬ d.SqGood f (d.sqBase f + i) → d.sqEnable f i = (d.wr (Reg.QD_SQ_CFG_en.ix (d.sqBase f + i)) 0).refuse .qmx) := by
  have htest : (decide (1 ≤ d.rd (Reg.QD_SQ_CFG_size_m1.ix (d.sqBase f + i))) &&
      decide (d.rd (Reg.QD_SQ_CFG_cq.ix (d.sqBase f + i)) < d.cqCount f) &&
      d.cqActive (d.cqOfSq f (d.sqBase f + i))) = true ↔ d.SqGood f (d.sqBase f + i) := by
    simp only [Bool.and_eq_true, decide_eq_true_eq, Dev.SqGood, and_assoc]
  refine ⟨fun hgood => ?_, fun hbad => ?_⟩
  · exact (if_neg (not_not.mpr h)).trans (if_pos (htest.mpr hgood))
  · exact (if_neg (not_not.mpr h)).trans (if_neg fun ht => hbad (htest.mp ht))

theorem Dev.drainSq_of_draining {d : Dev} {q : Nat} (h : d.sqState q = sqDraining) :
    (d.SqIdle q → d.drainSq q = d.wr (Reg.QD_SQ_STAT_state.ix q) sqDisabled) ∧ (¬ d.SqIdle q → d.drainSq q = d) := by
  have htest : (d.sqState q = sqDraining && decide (d.inflight q = 0) && !(d.qmx.fetched.any fun e => e.q = q)) = true ↔
      d.SqIdle q := by
    simp only [h, Bool.and_eq_true, decide_eq_true_eq, Dev.SqIdle, true_and, Bool.not_eq_true', List.any_eq_false,
      decide_true]
  exact ⟨fun hidle => if_pos (htest.mpr hidle), fun hbusy => if_neg fun ht => hbusy (htest.mp ht)⟩

/-- An SQ whose en is cleared, before it drains. -/
def Dev.sqClosed (d : Dev) (q : Nat) : Dev :=
  (d.wr (Reg.QD_SQ_CFG_en.ix q) 0).wr (Reg.QD_SQ_STAT_state.ix q) sqDraining

theorem Dev.sqDisable_of_open {d : Dev} {f i : Nat}
    (h : d.sqState (d.sqBase f + i) = sqActive ∨ d.sqState (d.sqBase f + i) = sqFetchTimeout) :
    d.sqDisable f i = (d.sqClosed (d.sqBase f + i)).drainSq (d.sqBase f + i) := by
  have hst : (d.wr (Reg.QD_SQ_CFG_en.ix (d.sqBase f + i)) 0).sqState (d.sqBase f + i) = d.sqState (d.sqBase f + i) :=
    Dev.rd_wr_ix _ Reg.QD_SQ_CFG_en Reg.QD_SQ_STAT_state _ _ (by decide)
  refine if_pos ?_
  rw [hst, Bool.or_eq_true, decide_eq_true_eq, decide_eq_true_eq]
  exact h

theorem Dev.sqState_wr (d : Dev) (q : Nat) {st : Nat} (h : st < 8) : (d.wr (Reg.QD_SQ_STAT_state.ix q) st).sqState q = st := by
  rw [Dev.sqState, Dev.rd_wr_same, Fld.ix_width]
  exact Nat.mod_eq_of_lt h

theorem Dev.sqClosed_state (q : Nat) : (d.sqClosed q).sqState q = sqDraining := Dev.sqState_wr _ _ (by decide)

theorem Dev.settle_qmx : d.settle.qmx = d.qmx := by simp only [Dev.settle_keeps]

theorem Dev.settle_sqState (q : Nat) : d.settle.sqState q = d.sqState q := d.settle_high Reg.QD_SQ_STAT_state q

theorem Dev.settle_cqActive (q : Nat) : d.settle.cqActive q = d.cqActive q := by
  simp only [Dev.cqActive, Dev.rdB, d.settle_high Reg.QD_CQ_STAT_state q]

/-- An SQ whose credit is not counted yet has its weight. -/
theorem Dev.credit_of_erased {e : Dev} {q : Nat} {t : Tbl Nat} (h : e.qmx.credit = Tbl.erase t q) : e.credit q = e.weight q := by
  rw [Dev.credit, h, Tbl.getD, Tbl.get?_erase_same, Option.getD_none]

theorem Dev.sqRestart_of_fetchTimeout {d : Dev} {f i : Nat} (h : d.sqState (d.sqBase f + i) = sqFetchTimeout) :
    d.sqRestart f i = { d.wr (Reg.QD_SQ_STAT_state.ix (d.sqBase f + i)) sqActive with qmx :=
      { d.qmx with credit := Tbl.erase d.qmx.credit (d.sqBase f + i) } } := if_pos h

end

/-! ### Completion queues -/

/-- The fields that enabling a CQ sets. -/
def Dev.cqOpened (d : Dev) (p : Nat) : Dev :=
  (((((d.wr (Reg.QD_CQ_CFG_en.ix p) 1).wr (Reg.QD_CQ_PTR_head.ix p) 0).wr (Reg.QD_CQ_PTR_tail.ix p) 0).wr
    (Reg.QD_CQ_STAT_phase.ix p) 1).wr (Reg.QD_CQ_STAT_state.ix p) 1)

theorem Dev.cqEnable_of_inactive {d : Dev} {f i : Nat} (h : d.cqActive (d.cqBase f + i) = false) :
    (d.CqGood f (d.cqBase f + i) → d.cqEnable f i = d.cqOpened (d.cqBase f + i)) ∧
    (¬ d.CqGood f (d.cqBase f + i) → d.cqEnable f i = (d.wr (Reg.QD_CQ_CFG_en.ix (d.cqBase f + i)) 0).refuse .qmx) := by
  have htest : (decide (1 ≤ d.rd (Reg.QD_CQ_CFG_size_m1.ix (d.cqBase f + i))) &&
      decide (d.rd (Reg.QD_CQ_CFG_vector.ix (d.cqBase f + i)) < vectorsOf f)) = true ↔ d.CqGood f (d.cqBase f + i) := by
    simp only [Bool.and_eq_true, decide_eq_true_eq, Dev.CqGood]
  have hoff : ¬ d.cqActive (d.cqBase f + i) = true := by rw [h]; exact Bool.false_ne_true
  exact ⟨fun hgood => (if_neg hoff).trans (if_pos (htest.mpr hgood)),
    fun hbad => (if_neg hoff).trans (if_neg fun ht => hbad (htest.mp ht))⟩

theorem Dev.cqDisable_cases (d : Dev) (f i : Nat) :
    (d.CqNamed f (d.cqBase f + i) → d.cqDisable f i = d.refuse .qmx) ∧
    (¬ d.CqNamed f (d.cqBase f + i) → d.cqDisable f i =
      (d.wr (Reg.QD_CQ_CFG_en.ix (d.cqBase f + i)) 0).wr (Reg.QD_CQ_STAT_state.ix (d.cqBase f + i)) 0) := by
  have htest : ((List.range (d.sqCount f)).any fun j =>
      decide (d.sqState (d.sqBase f + j) ≠ sqDisabled) && decide (d.cqOfSq f (d.sqBase f + j) = d.cqBase f + i)) = true ↔
      d.CqNamed f (d.cqBase f + i) := by
    simp only [List.any_eq_true, List.mem_range, Bool.and_eq_true, decide_eq_true_eq, Dev.CqNamed]
  exact ⟨fun hn => if_pos (htest.mpr hn), fun hn => if_neg fun ht => hn (htest.mp ht)⟩

/-! ### Event rings -/

theorem Dev.ringEnable_of_off {d : Dev} {f : Nat} (h : d.rdB (Reg.EVR_CFG_en.ix f) = false) :
    (d.RingGood f → d.ringEnable f = ((d.wr (Reg.EVR_CFG_en.ix f) 1).updRing f fun r =>
      { r with head := 0, tail := 0, phase := true }).drainRing f) ∧ (¬ d.RingGood f → d.ringEnable f = d.refuse .qmx) := by
  have htest : (decide (1 ≤ d.rd (Reg.EVR_CFG_size_m1.ix f)) && decide (d.rd (Reg.EVR_CFG_vector.ix f) < vectorsOf f)) = true ↔
      d.RingGood f := by
    simp only [Bool.and_eq_true, decide_eq_true_eq, Dev.RingGood]
  have hoff : ¬ d.rdB (Reg.EVR_CFG_en.ix f) = true := by rw [h]; exact Bool.false_ne_true
  exact ⟨fun hgood => (if_neg hoff).trans (if_pos (htest.mpr hgood)),
    fun hbad => (if_neg hoff).trans (if_neg fun ht => hbad (htest.mp ht))⟩

end Machine

/-! ### O27 -/

section

variable {f i : Nat} {s : State} (h : HostReaches s.dev f .qmx) (hf : f ≤ 64)
include h hf

theorem gives_sqEnable (hi : i < s.dev.sqCount f) (hst : s.dev.sqState (s.dev.sqBase f + i) = sqDisabled)
    (hgood : s.dev.SqGood f (s.dev.sqBase f + i)) : Gives (.sqEnable f i) s fun e =>
      e.rd (Reg.QD_SQ_CFG_en.ix (s.dev.sqBase f + i)) = 1 ∧ e.rd (Reg.QD_SQ_PTR_head.ix (s.dev.sqBase f + i)) = 0 ∧
      e.rd (Reg.QD_SQ_PTR_tail.ix (s.dev.sqBase f + i)) = 0 ∧ e.sqState (s.dev.sqBase f + i) = sqActive ∧
      Frame s.dev e [Reg.QD_SQ_CFG_en.ix (s.dev.sqBase f + i), Reg.QD_SQ_PTR_head.ix (s.dev.sqBase f + i),
        Reg.QD_SQ_PTR_tail.ix (s.dev.sqBase f + i), Reg.QD_SQ_STAT_state.ix (s.dev.sqBase f + i)] [.qmx] ∧
      e.qmx.cmds = s.dev.qmx.cmds := by
  refine gives_of_sqCommand (exec_sqEnable hf i s) h hf hi fun d hd => ?_
  have hd' : d.sqState (d.sqBase f + i) = sqDisabled := by rw [hd.sqState, hd.sqBase hf]; exact hst
  have hgood' : d.SqGood f (d.sqBase f + i) := by rw [hd.sqGood hf, hd.sqBase hf]; exact hgood
  rw [(Dev.sqEnable_of_disabled hd').1 hgood', hd.sqBase hf]
  generalize s.dev.sqBase f + i = q
  have hframe : Frame s.dev (d.sqOpened q) [Reg.QD_SQ_CFG_en.ix q, Reg.QD_SQ_PTR_head.ix q, Reg.QD_SQ_PTR_tail.ix q,
      Reg.QD_SQ_STAT_state.ix q] [.qmx] :=
    ((((Frame.of_woken hd _ _).wr _ _ (by simp)).wr _ _ (by simp)).wr _ _ (by simp)).wr _ _ (by simp)
  have hcmds : (d.sqOpened q).qmx.cmds = s.dev.qmx.cmds := congrArg QmxState.cmds hd.qmx
  have hrd : (d.sqOpened q).rd (Reg.QD_SQ_CFG_en.ix q) = 1 ∧ (d.sqOpened q).rd (Reg.QD_SQ_PTR_head.ix q) = 0 ∧
      (d.sqOpened q).rd (Reg.QD_SQ_PTR_tail.ix q) = 0 ∧ (d.sqOpened q).sqState q = sqActive := by
    refine ⟨?_, ?_, ?_, Dev.sqState_wr _ _ (by decide)⟩ <;>
      simp (disch := decide) only [Dev.sqOpened, Dev.rd_wr_ix, Dev.rd_wr_same, Fld.ix_width] <;> rfl
  generalize d.sqOpened q = e at *
  obtain ⟨hen, hhead, htail, hstate⟩ := hrd
  refine ⟨?_, ?_, ?_, ?_, (hframe.setQmx _).settle, ?_⟩
  · rw [Dev.settle_high _ Reg.QD_SQ_CFG_en]; exact hen
  · rw [Dev.settle_high _ Reg.QD_SQ_PTR_head]; exact hhead
  · rw [Dev.settle_high _ Reg.QD_SQ_PTR_tail]; exact htail
  · rw [Dev.settle_sqState]; exact hstate
  · rw [Dev.settle_qmx]; exact hcmds

theorem gives_sqEnable_refused (hi : i < s.dev.sqCount f) (hst : s.dev.sqState (s.dev.sqBase f + i) = sqDisabled)
    (hbad : ¬ s.dev.SqGood f (s.dev.sqBase f + i)) : Gives (.sqEnable f i) s fun e =>
      e.rd (Reg.QD_SQ_CFG_en.ix (s.dev.sqBase f + i)) = 0 ∧ Raised e .qmx 3 ∧
      Frame s.dev e [Reg.QD_SQ_CFG_en.ix (s.dev.sqBase f + i)] [] := by
  refine gives_of_sqCommand (exec_sqEnable hf i s) h hf hi fun d hd => ?_
  have hd' : d.sqState (d.sqBase f + i) = sqDisabled := by rw [hd.sqState, hd.sqBase hf]; exact hst
  have hbad' : ¬ d.SqGood f (d.sqBase f + i) := by rw [hd.sqGood hf, hd.sqBase hf]; exact hbad
  rw [(Dev.sqEnable_of_disabled hd').2 hbad', hd.sqBase hf]
  refine ⟨?_, Dev.settle_raised _ _ _ (Dev.refuse_raised _ _),
    (((Frame.of_woken hd _ _).wr _ _ (List.mem_singleton_self _)).reports (Dev.cause_reports _ _ _)).settle⟩
  rw [Dev.settle_high _ Reg.QD_SQ_CFG_en, Dev.refuse_rd]
  exact (Dev.rd_wr_same _ _ _).trans (Nat.zero_mod _)

theorem gives_sqDisable (hi : i < s.dev.sqCount f)
    (hst : s.dev.sqState (s.dev.sqBase f + i) = sqActive ∨ s.dev.sqState (s.dev.sqBase f + i) = sqFetchTimeout) :
    Gives (.sqDisable f i) s fun e => e.rd (Reg.QD_SQ_CFG_en.ix (s.dev.sqBase f + i)) = 0 ∧
      (s.dev.SqIdle (s.dev.sqBase f + i) → e.sqState (s.dev.sqBase f + i) = sqDisabled) ∧
      (¬ s.dev.SqIdle (s.dev.sqBase f + i) → e.sqState (s.dev.sqBase f + i) = sqDraining) ∧
      Frame s.dev e [Reg.QD_SQ_CFG_en.ix (s.dev.sqBase f + i), Reg.QD_SQ_STAT_state.ix (s.dev.sqBase f + i)] [] := by
  refine gives_of_sqCommand (exec_sqDisable hf i s) h hf hi fun d hd => ?_
  have hd' : d.sqState (d.sqBase f + i) = sqActive ∨ d.sqState (d.sqBase f + i) = sqFetchTimeout := by
    rw [hd.sqState, hd.sqBase hf]; exact hst
  rw [Dev.sqDisable_of_open hd', hd.sqBase hf]
  generalize s.dev.sqBase f + i = q
  have hidle : (d.sqClosed q).SqIdle q ↔ s.dev.SqIdle q := hd.sqIdle q
  have hframe : Frame s.dev (d.sqClosed q) [Reg.QD_SQ_CFG_en.ix q, Reg.QD_SQ_STAT_state.ix q] [] :=
    ((Frame.of_woken hd _ _).wr _ _ (by simp)).wr _ _ (by simp)
  have hen : (d.sqClosed q).rd (Reg.QD_SQ_CFG_en.ix q) = 0 :=
    (Dev.rd_wr_ix _ Reg.QD_SQ_STAT_state Reg.QD_SQ_CFG_en _ _ (by decide)).trans ((Dev.rd_wr_same _ _ _).trans (Nat.zero_mod _))
  obtain ⟨hdone, hwait⟩ := Dev.drainSq_of_draining (d.sqClosed_state q)
  have hstate := d.sqClosed_state q
  generalize d.sqClosed q = e at *
  rw [Dev.settle_high _ Reg.QD_SQ_CFG_en, Dev.settle_sqState]
  by_cases hq : s.dev.SqIdle q
  · rw [hdone (hidle.mpr hq)]
    exact ⟨(Dev.rd_wr_ix _ Reg.QD_SQ_STAT_state Reg.QD_SQ_CFG_en _ _ (by decide)).trans hen,
      fun _ => Dev.sqState_wr _ _ (by decide), fun hn => absurd hq hn, (hframe.wr _ _ (by simp)).settle⟩
  · rw [hwait fun he => hq (hidle.mp he)]
    exact ⟨hen, fun hn => absurd hn hq, fun _ => hstate, hframe.settle⟩

theorem gives_sqRestart (hi : i < s.dev.sqCount f) (hst : s.dev.sqState (s.dev.sqBase f + i) = sqFetchTimeout) :
    Gives (.sqRestart f i) s fun e => e.sqState (s.dev.sqBase f + i) = sqActive ∧
      e.credit (s.dev.sqBase f + i) = e.weight (s.dev.sqBase f + i) ∧
      Frame s.dev e [Reg.QD_SQ_STAT_state.ix (s.dev.sqBase f + i)] [.qmx] := by
  refine gives_of_sqCommand (exec_sqRestart hf i s) h hf hi fun d hd => ?_
  have hd' : d.sqState (d.sqBase f + i) = sqFetchTimeout := by rw [hd.sqState, hd.sqBase hf]; exact hst
  rw [Dev.sqRestart_of_fetchTimeout hd', hd.sqBase hf]
  refine ⟨?_, ?_, (((Frame.of_woken hd _ _).wr _ _ (List.mem_singleton_self _)).setQmx _).settle⟩
  · rw [Dev.settle_sqState]
    exact d.sqState_wr _ (st := sqActive) (by decide)
  · exact Dev.credit_of_erased (congrArg QmxState.credit (Dev.settle_qmx _))

theorem gives_cqEnable (hi : i < s.dev.cqCount f) (hact : s.dev.cqActive (s.dev.cqBase f + i) = false)
    (hgood : s.dev.CqGood f (s.dev.cqBase f + i)) : Gives (.cqEnable f i) s fun e =>
      e.rd (Reg.QD_CQ_CFG_en.ix (s.dev.cqBase f + i)) = 1 ∧ e.rd (Reg.QD_CQ_PTR_head.ix (s.dev.cqBase f + i)) = 0 ∧
      e.rd (Reg.QD_CQ_PTR_tail.ix (s.dev.cqBase f + i)) = 0 ∧ e.rd (Reg.QD_CQ_STAT_phase.ix (s.dev.cqBase f + i)) = 1 ∧
      e.cqActive (s.dev.cqBase f + i) = true ∧
      Frame s.dev e [Reg.QD_CQ_CFG_en.ix (s.dev.cqBase f + i), Reg.QD_CQ_PTR_head.ix (s.dev.cqBase f + i),
        Reg.QD_CQ_PTR_tail.ix (s.dev.cqBase f + i), Reg.QD_CQ_STAT_phase.ix (s.dev.cqBase f + i),
        Reg.QD_CQ_STAT_state.ix (s.dev.cqBase f + i)] [] := by
  refine gives_of_cqCommand (exec_cqEnable hf i s) h hf hi fun d hd => ?_
  have hd' : d.cqActive (d.cqBase f + i) = false := by rw [hd.cqActive, hd.cqBase hf]; exact hact
  have hgood' : d.CqGood f (d.cqBase f + i) := by rw [hd.cqGood, hd.cqBase hf]; exact hgood
  rw [(Dev.cqEnable_of_inactive hd').1 hgood', hd.cqBase hf]
  generalize s.dev.cqBase f + i = p
  have hframe : Frame s.dev (d.cqOpened p) [Reg.QD_CQ_CFG_en.ix p, Reg.QD_CQ_PTR_head.ix p, Reg.QD_CQ_PTR_tail.ix p,
      Reg.QD_CQ_STAT_phase.ix p, Reg.QD_CQ_STAT_state.ix p] [] :=
    (((((Frame.of_woken hd _ _).wr _ _ (by simp)).wr _ _ (by simp)).wr _ _ (by simp)).wr _ _ (by simp)).wr _ _ (by simp)
  have hrd : (d.cqOpened p).rd (Reg.QD_CQ_CFG_en.ix p) = 1 ∧ (d.cqOpened p).rd (Reg.QD_CQ_PTR_head.ix p) = 0 ∧
      (d.cqOpened p).rd (Reg.QD_CQ_PTR_tail.ix p) = 0 ∧ (d.cqOpened p).rd (Reg.QD_CQ_STAT_phase.ix p) = 1 ∧
      (d.cqOpened p).rd (Reg.QD_CQ_STAT_state.ix p) = 1 := by
    refine ⟨?_, ?_, ?_, ?_, ?_⟩ <;>
      simp (disch := decide) only [Dev.cqOpened, Dev.rd_wr_ix, Dev.rd_wr_same, Fld.ix_width] <;> rfl
  generalize d.cqOpened p = e at *
  obtain ⟨hen, hhead, htail, hphase, hstate⟩ := hrd
  refine ⟨?_, ?_, ?_, ?_, ?_, hframe.settle⟩
  · rw [Dev.settle_high _ Reg.QD_CQ_CFG_en, hen]
  · rw [Dev.settle_high _ Reg.QD_CQ_PTR_head, hhead]
  · rw [Dev.settle_high _ Reg.QD_CQ_PTR_tail, htail]
  · rw [Dev.settle_high _ Reg.QD_CQ_STAT_phase, hphase]
  · rw [Dev.settle_cqActive, Dev.cqActive, Dev.rdB, hstate]
    rfl

theorem gives_cqEnable_refused (hi : i < s.dev.cqCount f) (hact : s.dev.cqActive (s.dev.cqBase f + i) = false)
    (hbad : ¬ s.dev.CqGood f (s.dev.cqBase f + i)) : Gives (.cqEnable f i) s fun e =>
      e.rd (Reg.QD_CQ_CFG_en.ix (s.dev.cqBase f + i)) = 0 ∧ Raised e .qmx 3 ∧
      Frame s.dev e [Reg.QD_CQ_CFG_en.ix (s.dev.cqBase f + i)] [] := by
  refine gives_of_cqCommand (exec_cqEnable hf i s) h hf hi fun d hd => ?_
  have hd' : d.cqActive (d.cqBase f + i) = false := by rw [hd.cqActive, hd.cqBase hf]; exact hact
  have hbad' : ¬ d.CqGood f (d.cqBase f + i) := by rw [hd.cqGood, hd.cqBase hf]; exact hbad
  rw [(Dev.cqEnable_of_inactive hd').2 hbad', hd.cqBase hf]
  refine ⟨?_, Dev.settle_raised _ _ _ (Dev.refuse_raised _ _),
    (((Frame.of_woken hd _ _).wr _ _ (List.mem_singleton_self _)).reports (Dev.cause_reports _ _ _)).settle⟩
  rw [Dev.settle_high _ Reg.QD_CQ_CFG_en, Dev.refuse_rd]
  exact (Dev.rd_wr_same _ _ _).trans (Nat.zero_mod _)

theorem gives_cqDisable (hi : i < s.dev.cqCount f) (hfree : ¬ s.dev.CqNamed f (s.dev.cqBase f + i)) :
    Gives (.cqDisable f i) s fun e => e.rd (Reg.QD_CQ_CFG_en.ix (s.dev.cqBase f + i)) = 0 ∧
      e.cqActive (s.dev.cqBase f + i) = false ∧
      Frame s.dev e [Reg.QD_CQ_CFG_en.ix (s.dev.cqBase f + i), Reg.QD_CQ_STAT_state.ix (s.dev.cqBase f + i)] [] := by
  refine gives_of_cqCommand (exec_cqDisable hf i s) h hf hi fun d hd => ?_
  have hfree' : ¬ d.CqNamed f (d.cqBase f + i) := by rw [hd.cqNamed hf, hd.cqBase hf]; exact hfree
  rw [(d.cqDisable_cases f i).2 hfree', hd.cqBase hf]
  refine ⟨?_, ?_, (((Frame.of_woken hd _ _).wr _ _ (by simp)).wr _ _ (by simp)).settle⟩
  · rw [Dev.settle_high _ Reg.QD_CQ_CFG_en, Dev.rd_wr_ix _ Reg.QD_CQ_STAT_state Reg.QD_CQ_CFG_en _ _ (by decide), Dev.rd_wr_same]
    exact Nat.zero_mod _
  · rw [Dev.settle_cqActive, Dev.cqActive, Dev.rdB, Dev.rd_wr_same, Nat.zero_mod]
    rfl

theorem gives_cqDisable_refused (hi : i < s.dev.cqCount f) (hnamed : s.dev.CqNamed f (s.dev.cqBase f + i)) :
    Gives (.cqDisable f i) s fun e => Raised e .qmx 3 ∧ Frame s.dev e [] [] := by
  refine gives_of_cqCommand (exec_cqDisable hf i s) h hf hi fun d hd => ?_
  have hnamed' : d.CqNamed f (d.cqBase f + i) := by rw [hd.cqNamed hf, hd.cqBase hf]; exact hnamed
  rw [(d.cqDisable_cases f i).1 hnamed']
  exact ⟨Dev.settle_raised _ _ _ (Dev.refuse_raised _ _), ((Frame.of_woken hd _ _).reports (Dev.cause_reports _ _ _)).settle⟩

theorem gives_eventRingEnable (hoff : s.dev.rdB (Reg.EVR_CFG_en.ix f) = false) (hgood : s.dev.RingGood f) :
    Gives (.eventRingEnable f) s fun e => e.rd (Reg.EVR_CFG_en.ix f) = 1 ∧ Frame s.dev e [Reg.EVR_CFG_en.ix f] [] ∧
      ((s.dev.ring f).pend = [] → (e.ring f).head = 0 ∧ (e.ring f).tail = 0 ∧ (e.ring f).phase = true) := by
  refine gives_of_exec_eq_atFn (exec_eventRingEnable hf s) h fun d hd => ?_
  rw [(Dev.ringEnable_of_off ((hd.ringEn hf).trans hoff)).1 ((hd.ringGood hf).mpr hgood)]
  have hring := (d.wr (Reg.EVR_CFG_en.ix f) 1).ring_updRing f fun r => { r with head := 0, tail := 0, phase := true }
  have hpend : ((d.wr (Reg.EVR_CFG_en.ix f) 1).ring f).pend = (s.dev.ring f).pend := congrArg EvRing.pend (hd.ring f)
  have hframe : Frame s.dev ((d.wr (Reg.EVR_CFG_en.ix f) 1).updRing f fun r => { r with head := 0, tail := 0, phase := true })
      [Reg.EVR_CFG_en.ix f] [] :=
    ((Frame.of_woken hd _ _).wr _ _ (List.mem_singleton_self _)).reports (Dev.updRing_reports _ _ _)
  have hen : ((d.wr (Reg.EVR_CFG_en.ix f) 1).updRing f fun r => { r with head := 0, tail := 0, phase := true }).rd
      (Reg.EVR_CFG_en.ix f) = 1 := by
    rw [Dev.updRing_rd, Dev.rd_wr_same, Fld.ix_width]
    rfl
  generalize ((d.wr (Reg.EVR_CFG_en.ix f) 1).updRing f fun r => { r with head := 0, tail := 0, phase := true }) = e at *
  refine ⟨?_, (hframe.reports (Dev.drainRing_reports e f)).settle, fun hnil => ?_⟩
  · rw [Dev.settle_fnField _ hf Reg.EVR_CFG_en, (Dev.drainRing_reports e f).rd, hen]
  · have hnone : (e.ring f).pend = [] := by rw [hring]; exact hpend.trans hnil
    rw [Dev.settle_ring, Dev.drainRing_of_pend_eq_nil hnone, hring]
    exact ⟨rfl, rfl, rfl⟩

theorem gives_eventRingEnable_refused (hoff : s.dev.rdB (Reg.EVR_CFG_en.ix f) = false) (hbad : ¬ s.dev.RingGood f) :
    Gives (.eventRingEnable f) s fun e => Raised e .qmx 3 ∧ Frame s.dev e [] [] := by
  refine gives_of_exec_eq_atFn (exec_eventRingEnable hf s) h fun d hd => ?_
  rw [(Dev.ringEnable_of_off ((hd.ringEn hf).trans hoff)).2 fun hgood => hbad ((hd.ringGood hf).mp hgood)]
  exact ⟨Dev.settle_raised _ _ _ (Dev.refuse_raised _ _), ((Frame.of_woken hd _ _).reports (Dev.cause_reports _ _ _)).settle⟩

theorem gives_eventRingDisable : Gives (.eventRingDisable f) s fun e =>
    e.rd (Reg.EVR_CFG_en.ix f) = 0 ∧ Frame s.dev e [Reg.EVR_CFG_en.ix f] [] := by
  refine gives_of_exec_eq_atFn (exec_eventRingDisable hf s) h fun d hd => ?_
  refine ⟨?_, ((Frame.of_woken hd _ _).wr _ _ (List.mem_singleton_self _)).settle⟩
  rw [Dev.settle_fnField _ hf Reg.EVR_CFG_en]
  exact (Dev.rd_wr_same _ _ _).trans (Nat.zero_mod _)

end

/-- Settles O27: one lemma for each command and each outcome of R76 and R77. -/
theorem queueDescriptors : Obligations.QueueDescriptors := by
  intro f i s h hf
  exact ⟨fun hi => ⟨gives_sqEnable h hf hi, gives_sqEnable_refused h hf hi, gives_sqDisable h hf hi, gives_sqRestart h hf hi⟩,
    fun hi => ⟨gives_cqEnable h hf hi, gives_cqEnable_refused h hf hi, gives_cqDisable h hf hi, gives_cqDisable_refused h hf hi⟩,
    gives_eventRingEnable h hf, gives_eventRingEnable_refused h hf, gives_eventRingDisable h hf⟩

end Sys2Proof
end

section
/-! The SQ arbiter (R78). -/

set_option Elab.async false

namespace Sys2Proof

open Sys2Proof.Machine

namespace Machine

/-- The entries that a fetch takes, none of them read yet. -/
def Dev.fetchTaken (d : Dev) (q n : Nat) : List Fetched :=
  (List.range n).map fun i => (⟨q, (d.rd (Reg.QD_SQ_PTR_head.ix q) + i) % d.sqDepth q, none⟩ : Fetched)

/-- What a fetch leaves: the head past the entries taken, and these at the end of those that wait. -/
theorem Dev.fetch_leaves {d : Dev} {q f : Nat} (n : Nat) (h : d.sqOwner q = some f) :
    (d.fetch q n).rd (Reg.QD_SQ_PTR_head.ix q) = (d.rd (Reg.QD_SQ_PTR_head.ix q) + n) % d.sqDepth q % 2 ^ 16 ∧
    (d.fetch q n).qmx = { d.qmx with fetched := d.qmx.fetched ++ d.fetchTaken q n } ∧
    Frame d (d.fetch q n) [Reg.QD_SQ_PTR_head.ix q] [.qmx, .host] := by
  have hreads (e : Dev) (a b m n : Nat) (k j : Nat → Nat → ReadKind) :
      Frame e ((e.readHost f a m k).readHost f b n j) [] [.host] := (((Frame.refl e [] [.host]).readHost _ _ _ _).readHost _ _ _ _)
  simp only [Dev.fetch, h]
  refine ⟨?_, ?_, ?_⟩
  · rw [(hreads _ _ _ _ _ _ _).1 _ (by simp) (Fld.stateKey_ix_of_high _ (by decide) _)]
    refine (Dev.rd_wr_same d _ _).trans ?_
    rw [Fld.ix_width]
    rfl
  · exact (hreads _ _ _ _ _ _ _).part .qmx
  · exact (((Frame.refl d _ _).wr _ _ (List.mem_singleton_self _)).setQmx _).trans (hreads _ _ _ _ _ _ _)
      (List.nil_subset _) (by decide)

section

variable {d : Dev} {q : Nat}

theorem Dev.arbitrate_of_closed (h : d.intakeOpen = false) : d.arbitrate = d := by
  simp only [Dev.arbitrate, h, Bool.not_false, if_true]

theorem Dev.arbitrate_of_admin (h : d.intakeOpen = true) (h0 : 0 < d.take 0) : d.arbitrate = d.fetch 0 (d.take 0) := by
  simp only [Dev.arbitrate, h, h0, Bool.not_true, Bool.false_eq_true, if_false, if_true]

/-- The first URGENT SQ with something to take, from the URGENT pointer. -/
def Dev.urgentPick (d : Dev) : Option Nat :=
  firstFrom d.qmx.urgentNext fun x => decide (x ≠ 0) && d.urgent x && decide (0 < d.take x)

/-- The first NORMAL SQ with something to take, from the NORMAL pointer. -/
def Dev.normalPick (d : Dev) : Option Nat :=
  firstFrom d.qmx.normalNext fun x => decide (x ≠ 0) && !d.urgent x && decide (0 < d.take x)

theorem Dev.arbitrate_of_urgent (h : d.intakeOpen = true) (h0 : d.take 0 = 0) (hq : d.urgentPick = some q) :
    d.arbitrate = { d.fetch q (d.take q) with qmx := { (d.fetch q (d.take q)).qmx with urgentNext := (q + 1) % 1024 } } := by
  rw [Dev.urgentPick] at hq
  simp only [Dev.arbitrate, h, h0, hq, Bool.not_true, Bool.false_eq_true, if_false, Nat.lt_irrefl]

theorem Dev.arbitrate_of_normal (h : d.intakeOpen = true) (h0 : d.take 0 = 0) (hnone : d.urgentPick = none)
    (hq : d.normalPick = some q) : d.arbitrate = { d.fetch q (d.take q) with qmx := { (d.fetch q (d.take q)).qmx with
      credit := Tbl.put (d.fetch q (d.take q)).qmx.credit q (d.credit q - d.take q), normalNext := (q + 1) % 1024 } } := by
  rw [Dev.urgentPick] at hnone
  rw [Dev.normalPick] at hq
  simp only [Dev.arbitrate, h, h0, hnone, hq, Bool.not_true, Bool.false_eq_true, if_false, Nat.lt_irrefl]

theorem Dev.setQmx_self (d : Dev) : ({ d with qmx := d.qmx } : Dev) = d := rfl

/-- A queue with something to take has an owner. -/
theorem Dev.sqOwner_of_take_pos (h : 0 < d.take q) : ∃ f, d.sqOwner q = some f := by
  cases hq : d.sqOwner q with
  | some f => exact ⟨f, rfl⟩
  | none =>
    have hzero : d.take q = 0 := by
      rw [Dev.take, hq]
      exact ite_self _
    omega

end

end Machine

/-- What a fetch of a queue leaves at the end of the command, whatever pointers and credit the arbiter changes beside it. -/
theorem fetch_settled {d e : Dev} {q f n : Nat} (h : d.sqOwner q = some f) (x : QmxState) (he : e = { d.fetch q n with qmx := x })
    (hx : x.fetched = (d.fetch q n).qmx.fetched ∧ x.cmds = (d.fetch q n).qmx.cmds ∧ x.adm = (d.fetch q n).qmx.adm) :
    e.settle.rd (Reg.QD_SQ_PTR_head.ix q) = (d.rd (Reg.QD_SQ_PTR_head.ix q) + n) % d.sqDepth q % 2 ^ 16 ∧
      e.settle.qmx.fetched = d.qmx.fetched ++ d.fetchTaken q n ∧ e.settle.qmx.cmds = d.qmx.cmds ∧
      e.settle.qmx.adm = d.qmx.adm ∧ Frame d e.settle [Reg.QD_SQ_PTR_head.ix q] [.qmx, .host] := by
  obtain ⟨hhead, hqmx, hframe⟩ := Dev.fetch_leaves n h
  obtain ⟨hfetched, hcmds, hadm⟩ := hx
  rw [hqmx] at hfetched hcmds hadm
  generalize d.fetch q n = e' at *
  subst he
  refine ⟨?_, ?_, ?_, ?_, (hframe.setQmx x).settle⟩
  · rw [Dev.settle_high _ Reg.QD_SQ_PTR_head]
    exact hhead
  · rw [Dev.settle_qmx]
    exact hfetched
  · rw [Dev.settle_qmx]
    exact hcmds
  · rw [Dev.settle_qmx]
    exact hadm

theorem exec_arbitrate (s : State) : exec .arbitrate s = s.act Dev.arbitrate := rfl

/-- Settles O28: the admin SQ, the URGENT and the NORMAL ones are tried in this order. -/
theorem arbiterOrder : Obligations.ArbiterOrder := by
  intro q f s d n fetched
  refine ⟨fun hclosed => ?_, fun hopen hq hn => ?_, fun hopen h0 howner hpick => ?_, fun hopen h0 howner hnone hpick => ?_⟩
  · refine gives_of_exec_eq_act (exec_arbitrate s) ?_
    rw [Dev.arbitrate_of_closed hclosed]
    exact (Frame.refl _ _ _).settle
  · subst hq
    obtain ⟨f, howner⟩ := Dev.sqOwner_of_take_pos hn
    refine gives_of_exec_eq_act (exec_arbitrate s) ?_
    rw [Dev.arbitrate_of_admin hopen hn]
    have hfetch := fetch_settled howner _ (d.fetch 0 (d.take 0)).setQmx_self.symm ⟨rfl, rfl, rfl⟩
    generalize d.fetch 0 (d.take 0) = e at *
    exact hfetch
  · refine gives_of_exec_eq_act (exec_arbitrate s) ?_
    rw [Dev.arbitrate_of_urgent hopen h0 hpick]
    refine ⟨fetch_settled howner _ rfl ⟨rfl, rfl, rfl⟩, ?_, ?_⟩
    · rw [Dev.settle_qmx]
    · rw [Dev.settle_qmx]
      have hcredit : (d.fetch q n).qmx.credit = d.qmx.credit := by
        rw [(Dev.fetch_leaves n howner).2.1]
      exact hcredit
  · refine gives_of_exec_eq_act (exec_arbitrate s) ?_
    rw [Dev.arbitrate_of_normal hopen h0 hnone hpick]
    refine ⟨fetch_settled howner _ rfl ⟨rfl, rfl, rfl⟩, ?_, ?_⟩
    · rw [Dev.settle_qmx]
    · rw [Dev.settle_qmx]
      exact congrArg (Option.getD · 0) (Tbl.get?_put_same _ _ _)

end Sys2Proof
end

section
/-! Validation and admission of entries, and the whole-device halt (R81, R83, R84). -/

set_option Elab.async false

namespace Sys2Proof

open Sys2Proof.Machine

namespace Machine

/-! ### Equations of ENTRY_ADMIT -/

section

variable {d : Dev} {x : Fetched} {rest : List Fetched} {e : List Dword} {f : Nat}

theorem Dev.entryAdmit_of_closed (h : d.intakeOpen = false) : d.entryAdmit = d := by
  unfold Dev.entryAdmit
  split
  · rfl
  · rw [h, Bool.not_false, if_pos rfl]

/-- The entries behind the oldest one. -/
def Dev.fetchedPopped (d : Dev) (rest : List Fetched) : Dev := { d with qmx := { d.qmx with fetched := rest } }

theorem Dev.entryAdmit_of_valid (hopen : d.intakeOpen = true) (hx : d.qmx.fetched = x :: rest) (he : x.data = some e)
    (hf : d.sqOwner x.q = some f) (hvalid : malformed e (x.q == 0) (d.tagInUse x.q (eCmdTag e)) = none) :
    d.entryAdmit = if d.recordFree f then (d.fetchedPopped rest).admitEntry f x e else d := by
  simp only [Dev.entryAdmit, hx, hopen, he, hf, hvalid, Bool.not_true, Bool.false_eq_true, if_false, Dev.fetchedPopped]

theorem Dev.entryAdmit_of_malformed {cond : Nat} (hopen : d.intakeOpen = true) (hx : d.qmx.fetched = x :: rest)
    (he : x.data = some e) (hf : d.sqOwner x.q = some f)
    (hbad : malformed e (x.q == 0) (d.tagInUse x.q (eCmdTag e)) = some cond) :
    d.entryAdmit = (d.fetchedPopped rest).halt ⟨1, f, x.q, 0, x.slot, cond, 0, e, []⟩ := by
  simp only [Dev.entryAdmit, hx, hopen, he, hf, hbad, Bool.not_true, Bool.false_eq_true, if_false, Dev.fetchedPopped]

/-- A record is free if none stands there that is not final. -/
theorem Dev.recordFree_eq_true_iff : d.recordFree f = true ↔
    ∀ r, Tbl.get? (d.olog f).recs ((d.olog f).admittedCount % 65536) = some r → r.final = true := by
  unfold Dev.recordFree
  cases Tbl.get? (d.olog f).recs ((d.olog f).admittedCount % 65536) <;> simp

theorem Dev.sqOwner_le {q : Nat} (h : d.sqOwner q = some f) : f ≤ 64 := by
  have hmem := List.mem_of_find?_eq_some h
  rw [List.mem_range] at hmem
  omega

/-- Every condition of R81 is one of ten. -/
theorem malformed_lt {admin reuse : Bool} {cond : Nat} (h : malformed e admin reuse = some cond) : cond < 2 ^ 8 := by
  dsimp only [malformed] at h
  split_ifs at h <;> cases h <;> decide

theorem dw_lt (e : List Dword) (i : Nat) : dw e i < 2 ^ 32 := (e.getD i 0).isLt

/-! ### Admission -/

theorem Dev.settle_olog (d : Dev) (f : Nat) : d.settle.olog f = d.olog f := by simp only [Dev.olog, Dev.settle_keeps]

theorem Dev.olog_updOlog (d : Dev) (f : Nat) (g : OLog → OLog) : (d.updOlog f g).olog f = g (d.olog f) :=
  Tbl.getD_putD_same _ _ _ _

/-- Fields of a queue and of a function that the admission's counters leave. -/
theorem fnField_ne_intake : ∀ f < 65, ∀ g ∈ fnFields, (g.ix f).key ≠ Reg.QMX_INTAKE_admitted.key := by decide +kernel

theorem high_key_ne (g h : Fld) (i : Nat) (hg : 0xE0000 ≤ g.base) (hh : h.key < 0xE0000 * 64) : (g.ix i).key ≠ h.key := by
  have hkey := g.ix_key i
  have hgkey : g.key = g.base * 64 + g.lo := rfl
  omega

/-- The counters of an admission. -/
def Dev.intakeCounted (d : Dev) (q : Nat) : Dev := (d.incWrap (Reg.QD_SQ_COUNT_admitted.ix q)).incWrap Reg.QMX_INTAKE_admitted

theorem Dev.intakeCounted_rd (d : Dev) (q : Nat) :
    (d.intakeCounted q).rd (Reg.QD_SQ_COUNT_admitted.ix q) = (d.rd (Reg.QD_SQ_COUNT_admitted.ix q) + 1) % 2 ^ 32 ∧
    (d.intakeCounted q).rd Reg.QMX_INTAKE_admitted = (d.rd Reg.QMX_INTAKE_admitted + 1) % 2 ^ 64 := by
  have hne : (Reg.QD_SQ_COUNT_admitted.ix q).key ≠ Reg.QMX_INTAKE_admitted.key :=
    high_key_ne Reg.QD_SQ_COUNT_admitted _ q (by decide) (by decide)
  refine ⟨?_, ?_⟩
  · rw [Dev.intakeCounted, Dev.rd_incWrap_other _ _ _ _ hne, Dev.rd_incWrap_same, Fld.ix_width]
    rfl
  · rw [Dev.intakeCounted, Dev.rd_incWrap_same, Dev.rd_incWrap_other _ _ _ _ hne.symm]
    rfl

theorem Dev.intakeCounted_cqOfSq (d : Dev) (q : Nat) (hf : f ≤ 64) : (d.intakeCounted q).cqOfSq f q = d.cqOfSq f q := by
  have hlow : (Reg.QMX_FN_CQ_base.ix f).key < 0xE0000 * 64 := by
    have hkey : (Reg.QMX_FN_CQ_base.ix f).key = Reg.QMX_FN_CQ_base.key + 16 * f * 64 := Reg.QMX_FN_CQ_base.ix_key f
    have hbase : Reg.QMX_FN_CQ_base.key < 0x30000 * 64 := by decide
    omega
  have hbase : (d.intakeCounted q).cqBase f = d.cqBase f := by
    refine (Dev.rd_incWrap_other _ _ _ _ (fnField_ne_intake f (by omega) _ (by decide))).trans (Dev.rd_incWrap_other _ _ _ _ ?_)
    exact (high_key_ne Reg.QD_SQ_COUNT_admitted _ q (by decide) hlow).symm
  have hcq : (d.intakeCounted q).rd (Reg.QD_SQ_CFG_cq.ix q) = d.rd (Reg.QD_SQ_CFG_cq.ix q) :=
    (Dev.rd_incWrap_other _ _ _ _ (high_key_ne Reg.QD_SQ_CFG_cq _ q (by decide) (by decide))).trans
      (Dev.rd_wr_ix _ _ _ _ _ (by decide))
  rw [Dev.cqOfSq, hbase, hcq, Dev.cqOfSq]

/-- An Outcome Log with one record more. -/
def logAdmitted (r : OlRec) (o : OLog) : OLog :=
  { admittedCount := o.admittedCount + 1, recs := Tbl.put o.recs (o.admittedCount % 65536) r }

/-- The device once an entry's record is written and its admission counted. -/
def Dev.entryLogged (d : Dev) (f : Nat) (x : Fetched) (e : List Dword) : Dev :=
  (d.updOlog f (logAdmitted (newRec d d.qmx.adm (x.q - d.sqBase f) e))).intakeCounted x.q

/-- The command that an entry becomes. -/
def Dev.entryCmd (d : Dev) (f : Nat) (x : Fetched) (e : List Dword) : Cmd :=
  { adm := d.qmx.adm, fn := f, q := x.q, cq := (d.entryLogged f x e).cqOfSq f x.q, slot := x.q - d.sqBase f, entry := e,
    stage := if eFence e && (d.entryLogged f x e).qmx.cmds.any fun c => c.fn = f && !c.silent then .fenced else .ready,
    asleep := (d.entryLogged f x e).asleepArrays f e }

theorem Dev.admitEntry_eq (d : Dev) (f : Nat) (x : Fetched) (e : List Dword) : d.admitEntry f x e =
    { d.entryLogged f x e with qmx := { (d.entryLogged f x e).qmx with
      adm := d.qmx.adm + 1, cmds := (d.entryLogged f x e).qmx.cmds ++ [d.entryCmd f x e] } } := rfl

end

end Machine

theorem Frame.updOlog {a d : Dev} {fs : List Fld} {ps : List Part} (h : Frame a d fs ps) (f : Nat) (g : OLog → OLog)
    (hp : Part.dram ∈ ps := by decide) : Frame a (d.updOlog f g) fs ps := h.setDram _ hp

/-- What the admission of an entry leaves. -/
theorem admitEntry_leaves {d : Dev} {f : Nat} (x : Fetched) (e : List Dword) (hf : f ≤ 64) :
    (∃ c, (d.admitEntry f x e).settle.qmx.cmds = d.qmx.cmds ++ [c] ∧ c.adm = d.qmx.adm ∧ c.fn = f ∧ c.q = x.q ∧
      c.cq = d.cqOfSq f x.q ∧ c.entry = e ∧ (eFence e = false → c.stage = .ready)) ∧
    (d.admitEntry f x e).settle.qmx.adm = d.qmx.adm + 1 ∧ (d.admitEntry f x e).settle.qmx.fetched = d.qmx.fetched ∧
    ((d.admitEntry f x e).settle.olog f).admittedCount = (d.olog f).admittedCount + 1 ∧
    Tbl.get? ((d.admitEntry f x e).settle.olog f).recs ((d.olog f).admittedCount % 65536) =
      some (newRec d d.qmx.adm (x.q - d.sqBase f) e) ∧
    (d.admitEntry f x e).settle.rd (Reg.QD_SQ_COUNT_admitted.ix x.q) = (d.rd (Reg.QD_SQ_COUNT_admitted.ix x.q) + 1) % 2 ^ 32 ∧
    (d.admitEntry f x e).settle.rd Reg.QMX_INTAKE_admitted = (d.rd Reg.QMX_INTAKE_admitted + 1) % 2 ^ 64 ∧
    Frame d (d.admitEntry f x e).settle [Reg.QD_SQ_COUNT_admitted.ix x.q, Reg.QMX_INTAKE_admitted] [.qmx, .dram] := by
  have hframe : Frame d (d.entryLogged f x e) [Reg.QD_SQ_COUNT_admitted.ix x.q, Reg.QMX_INTAKE_admitted] [.qmx, .dram] :=
    (((Frame.refl _ _ _).updOlog _ _).incWrap _ _ (by simp)).incWrap _ _ (by simp)
  have holog : (d.entryLogged f x e).olog f = logAdmitted (newRec d d.qmx.adm (x.q - d.sqBase f) e) (d.olog f) :=
    Dev.olog_updOlog _ _ _
  obtain ⟨hcount, hintake⟩ := Dev.intakeCounted_rd (d.updOlog f (logAdmitted (newRec d d.qmx.adm (x.q - d.sqBase f) e))) x.q
  have hcq : (d.entryCmd f x e).cq = d.cqOfSq f x.q := Dev.intakeCounted_cqOfSq _ x.q hf
  have hstage (hfence : eFence e = false) : (d.entryCmd f x e).stage = .ready := by
    simp only [Dev.entryCmd, hfence, Bool.false_and, Bool.false_eq_true, if_false]
  have hqmx : (d.entryLogged f x e).qmx = d.qmx := rfl
  rw [Dev.admitEntry_eq, hqmx]
  replace hcount : (d.entryLogged f x e).rd (Reg.QD_SQ_COUNT_admitted.ix x.q) = (d.rd (Reg.QD_SQ_COUNT_admitted.ix x.q) + 1) % 2 ^ 32 :=
    hcount
  replace hintake : (d.entryLogged f x e).rd Reg.QMX_INTAKE_admitted = (d.rd Reg.QMX_INTAKE_admitted + 1) % 2 ^ 64 := hintake
  have hcmd : (d.entryCmd f x e).adm = d.qmx.adm ∧ (d.entryCmd f x e).fn = f ∧ (d.entryCmd f x e).q = x.q ∧
      (d.entryCmd f x e).entry = e := ⟨rfl, rfl, rfl, rfl⟩
  generalize d.entryCmd f x e = c at *
  generalize d.entryLogged f x e = t at *
  obtain ⟨hadm, hfn, hq, hentry⟩ := hcmd
  refine ⟨⟨c, ?_, hadm, hfn, hq, hcq, hentry, hstage⟩, ?_, ?_, ?_, ?_, ?_, ?_, (hframe.setQmx _).settle⟩
  · rw [Dev.settle_qmx]
  · rw [Dev.settle_qmx]
  · rw [Dev.settle_qmx]
  · rw [Dev.settle_olog]
    exact congrArg OLog.admittedCount holog
  · rw [Dev.settle_olog]
    exact (congrArg (fun o => Tbl.get? o.recs _) holog).trans (Tbl.get?_put_same _ _ _)
  · rw [Dev.settle_high _ Reg.QD_SQ_COUNT_admitted]
    exact hcount
  · rw [Dev.settle_rd _ _ (by decide)]
    exact hintake

end Sys2Proof
end

section
/-! The whole-device halt (R83, R84). -/

set_option Elab.async false

namespace Sys2Proof

open Sys2Proof.Machine

namespace Machine

/-! ### What stopping the work keeps -/

/-- e is d but for work that ends: the registers below BME's page, the fetched entries and the halt are as before. -/
structure Dev.HaltKept (d e : Dev) : Prop where
  low : ∀ g : Fld, g.key < 0xB0000 * 64 → e.rd g = d.rd g
  fetched : e.qmx.fetched = d.qmx.fetched
  halted : e.qmx.halted = d.qmx.halted

theorem Dev.HaltKept.refl (d : Dev) : Dev.HaltKept d d := ⟨fun _ _ => rfl, rfl, rfl⟩

theorem Dev.HaltKept.trans {a b c : Dev} (h : Dev.HaltKept a b) (k : Dev.HaltKept b c) : Dev.HaltKept a c :=
  ⟨fun g hg => (k.low g hg).trans (h.low g hg), k.fetched.trans h.fetched, k.halted.trans h.halted⟩

theorem Dev.HaltKept.ite {c : Prop} [Decidable c] {d a b : Dev} (h : Dev.HaltKept d a) (k : Dev.HaltKept d b) :
    Dev.HaltKept d (if c then a else b) := by split <;> assumption

/-- A field whose index begins at BME's page or above lies there. -/
theorem Fld.ix_key_ge (f : Fld) (i : Nat) (h : 0xB0000 ≤ f.base := by decide) : 0xB0000 * 64 ≤ (f.ix i).key := by
  have hkey := f.ix_key i
  have hfkey : f.key = f.base * 64 + f.lo := rfl
  omega

theorem Dev.HaltKept.wr (d : Dev) (f : Fld) (i v : Nat) (h : 0xB0000 ≤ f.base := by decide) : Dev.HaltKept d (d.wr (f.ix i) v) :=
  ⟨fun g hg => Dev.rd_wr_other _ _ _ _ (by have := f.ix_key_ge i h; omega), rfl, rfl⟩

theorem Dev.drainSq_haltKept (d : Dev) (q : Nat) : Dev.HaltKept d (d.drainSq q) := .ite (.wr d _ q _) (.refl d)

/-- A command that ends in silence posts nothing. -/
theorem Dev.endCmd_haltKept {d : Dev} {adm : Nat} (h : ∀ c, d.cmd? adm = some c → c.silent = true) (status dw3 : Nat) :
    Dev.HaltKept d (d.endCmd adm status dw3) := by
  cases hc : d.cmd? adm with
  | none => simp only [Dev.endCmd, hc]; exact .refl d
  | some c =>
    simp only [Dev.endCmd, hc, h c hc, if_true]
    refine .trans ?_ (Dev.drainSq_haltKept _ _)
    exact ⟨fun _ _ => rfl, rfl, rfl⟩

theorem Dev.updCmd_haltKept (d : Dev) (adm : Nat) (g : Cmd → Cmd) : Dev.HaltKept d (d.updCmd adm g) :=
  ⟨fun _ _ => rfl, rfl, rfl⟩

theorem Dev.dropReads_haltKept (d : Dev) (mine : ReadKind → Bool) : Dev.HaltKept d (d.dropReads mine) :=
  ⟨fun _ _ => rfl, rfl, rfl⟩

theorem Dev.stopCmd_haltKept {d : Dev} {adm : Nat} (h : ∀ c, d.cmd? adm = some c → c.silent = true) (status dw3 : Nat) :
    Dev.HaltKept d (d.stopCmd adm status dw3) := by
  cases hc : d.cmd? adm with
  | none => simp only [Dev.stopCmd, hc]; exact .refl d
  | some c =>
    have hend (st x : Nat) : Dev.HaltKept d ((d.dropReads (kindIsCmd adm)).endCmd adm st x) :=
      (d.dropReads_haltKept _).trans (Dev.endCmd_haltKept (d := d.dropReads (kindIsCmd adm)) h st x)
    simp only [Dev.stopCmd, hc]
    refine .ite ?_ ((d.dropReads_haltKept _).trans (Dev.updCmd_haltKept _ _ _))
    split
    · exact .ite (hend _ _) (hend _ _)
    · exact hend _ _

theorem Dev.silent_of_cmd? {d : Dev} {adm : Nat} {c : Cmd}
    (h : (d.updCmd adm fun c => { c with silent := true }).cmd? adm = some c) : c.silent = true := by
  have hadm : c.adm = adm := by simpa using List.find?_some h
  have hmem := List.mem_of_find?_eq_some h
  simp only [Dev.updCmd, List.mem_map] at hmem
  obtain ⟨x, -, hx⟩ := hmem
  split at hx
  · rw [← hx]
  · next hne => exact absurd (hx ▸ hadm) hne

theorem Dev.silenceCmd_haltKept (d : Dev) (adm status : Nat) : Dev.HaltKept d (d.silenceCmd adm status) :=
  (d.updCmd_haltKept adm _).trans (Dev.stopCmd_haltKept (fun _ => Dev.silent_of_cmd?) status 0)

theorem Dev.Reports.haltKept {d e : Dev} (h : Dev.Reports d e) : Dev.HaltKept d e := by
  have hqmx : e.qmx = d.qmx := by rw [h.same]
  exact ⟨fun g _ => h.rd g, congrArg QmxState.fetched hqmx, congrArg QmxState.halted hqmx⟩

theorem Dev.bmeErr_haltKept (d : Dev) (c x : Nat) : Dev.HaltKept d (d.bmeErr c x) := by
  by_cases hrun : d.bmeState c = 1
  · obtain ⟨e, hspoil, heq, -, hend⟩ := Dev.bmeErr_of_running (x := x) hrun
    have hwr := (Dev.HaltKept.wr d Reg.BME_CH_STAT_state c 2).trans (.wr _ Reg.BME_CH_STAT_error c x)
    have hqmx : e.qmx = d.qmx := hspoil.part .qmx
    have he : Dev.HaltKept d (e.updBmeCh c fun _ => {}) :=
      ⟨fun g hg => (heq g).trans (hwr.low g hg), congrArg QmxState.fetched hqmx, congrArg QmxState.halted hqmx⟩
    rw [hend]
    exact he.trans ((Dev.causeBit_reports _ _ _).trans (Dev.errUncorr_reports _ _ _)).haltKept
  · rw [Dev.bmeErr, if_neg hrun]
    exact .refl d

theorem Dev.bmeErrAll_haltKept (d : Dev) (space x : Nat) : Dev.HaltKept d (d.bmeErrAll space x) :=
  forEach_induct (P := Dev.HaltKept d) (fun c e he => .ite (he.trans (e.bmeErr_haltKept c x)) he) _ d (.refl d)

/-! ### The halt record -/

/-- Writing the fields of an index one by one leaves every other field. -/
theorem Dev.rd_forEach_wr_other (f : Fld) (v : Nat → Nat) (g : Fld) (n : Nat) (h : ∀ i < n, g.key ≠ (f.ix i).key) (d : Dev) :
    (forEach (List.range n) (fun i d => d.wr (f.ix i) (v i)) d).rd g = d.rd g := by
  induction n with
  | zero => rfl
  | succ n ih =>
    simp only [forEach, List.range_succ, List.foldl_append, List.foldl_cons, List.foldl_nil]
    rw [Dev.rd_wr_other _ _ _ _ (h n (by omega))]
    exact ih fun i hi => h i (by omega)

/-- Writing the fields of an index one by one gives each its value. -/
theorem Dev.rd_forEach_wr_same (f : Fld) (v : Nat → Nat) (n i : Nat) (hi : i < n)
    (h : ∀ j < n, j ≠ i → (f.ix i).key ≠ (f.ix j).key) (d : Dev) :
    (forEach (List.range n) (fun i d => d.wr (f.ix i) (v i)) d).rd (f.ix i) = v i % 2 ^ f.width := by
  induction n with
  | zero => omega
  | succ n ih =>
    simp only [forEach, List.range_succ, List.foldl_append, List.foldl_cons, List.foldl_nil]
    by_cases hn : i = n
    · subst hn
      rw [Dev.rd_wr_same, Fld.ix_width]
    · rw [Dev.rd_wr_other _ _ _ _ (h n (by omega) (Ne.symm hn))]
      exact ih (by omega) fun j hj => h j (by omega)

/-- The fields of the halt record beside the images. -/
def haltPlain : List Fld := [Reg.SYS_HALT_SRC_valid, Reg.SYS_HALT_SRC_kind, Reg.SYS_HALT_SRC_overrun, Reg.SYS_HALT_SRC_fn,
  Reg.SYS_HALT_SRC_sq, Reg.SYS_HALT_POS_frag, Reg.SYS_HALT_POS_index, Reg.SYS_HALT_COND_cond, Reg.SYS_HALT_ASN_asn,
  Reg.SYS_HALT_TS_ts]

/-- All fields of the halt record. -/
def haltFields : List Fld := haltPlain ++ (List.range 16).map Reg.SYS_HALT_ENTRY_image.ix ++
  (List.range 4).map Reg.SYS_HALT_FRAG_frag_image.ix

/-- The halt record without its images. -/
def Dev.haltHead (d : Dev) (h : HaltInfo) : Dev :=
  ((((((((((d.wrB Reg.SYS_HALT_SRC_overrun (d.rdB Reg.SYS_HALT_SRC_valid)).wr Reg.SYS_HALT_SRC_valid 1).wr
    Reg.SYS_HALT_SRC_kind h.kind).wr Reg.SYS_HALT_SRC_fn h.fn).wr Reg.SYS_HALT_SRC_sq h.sq).wr Reg.SYS_HALT_POS_frag h.frag).wr
    Reg.SYS_HALT_POS_index h.index).wr Reg.SYS_HALT_COND_cond h.cond).wr Reg.SYS_HALT_ASN_asn h.asn).wr Reg.SYS_HALT_TS_ts d.now)

theorem Dev.haltRecord_eq (d : Dev) (h : HaltInfo) : d.haltRecord h =
    forEach (List.range 4) (fun i d => d.wr (Reg.SYS_HALT_FRAG_frag_image.ix i) (h.fragImage.getD i 0))
      (forEach (List.range 16) (fun i d => d.wr (Reg.SYS_HALT_ENTRY_image.ix i) (dw h.entry i)) (d.haltHead h)) := rfl

/-- The images lie apart from each other and from the rest of the record. -/
theorem haltImages_apart : (∀ g ∈ haltPlain, (∀ i < 16, g.key ≠ (Reg.SYS_HALT_ENTRY_image.ix i).key) ∧
      ∀ i < 4, g.key ≠ (Reg.SYS_HALT_FRAG_frag_image.ix i).key) ∧
    (∀ i < 16, (∀ j < 16, j ≠ i → (Reg.SYS_HALT_ENTRY_image.ix i).key ≠ (Reg.SYS_HALT_ENTRY_image.ix j).key) ∧
      ∀ j < 4, (Reg.SYS_HALT_ENTRY_image.ix i).key ≠ (Reg.SYS_HALT_FRAG_frag_image.ix j).key) ∧
    ∀ i < 4, ∀ j < 4, j ≠ i → (Reg.SYS_HALT_FRAG_frag_image.ix i).key ≠ (Reg.SYS_HALT_FRAG_frag_image.ix j).key := by
  decide +kernel

section

variable (d : Dev) (h : HaltInfo)

theorem Dev.haltRecord_plain (g : Fld) (hg : g ∈ haltPlain := by decide) : (d.haltRecord h).rd g = (d.haltHead h).rd g := by
  obtain ⟨hplain, -, -⟩ := haltImages_apart
  obtain ⟨hentry, hfrag⟩ := hplain g hg
  rw [Dev.haltRecord_eq, Dev.rd_forEach_wr_other _ _ _ _ hfrag, Dev.rd_forEach_wr_other _ _ _ _ hentry]

theorem Dev.haltRecord_entry {i : Nat} (hi : i < 16) : (d.haltRecord h).rd (Reg.SYS_HALT_ENTRY_image.ix i) = dw h.entry i := by
  obtain ⟨-, hentry, -⟩ := haltImages_apart
  obtain ⟨hself, hfrag⟩ := hentry i hi
  rw [Dev.haltRecord_eq, Dev.rd_forEach_wr_other _ _ _ _ hfrag, Dev.rd_forEach_wr_same _ _ _ _ hi hself]
  exact Nat.mod_eq_of_lt (dw_lt _ _)

theorem Dev.haltRecord_frag {i : Nat} (hi : i < 4) :
    (d.haltRecord h).rd (Reg.SYS_HALT_FRAG_frag_image.ix i) = h.fragImage.getD i 0 % 2 ^ 32 := by
  obtain ⟨-, -, hfrag⟩ := haltImages_apart
  rw [Dev.haltRecord_eq, Dev.rd_forEach_wr_same _ _ _ _ hi (hfrag i hi)]
  rfl

/-- What the record says beside its images. -/
theorem Dev.haltRecord_rd : (d.haltRecord h).rd Reg.SYS_HALT_SRC_overrun = b2n (d.rdB Reg.SYS_HALT_SRC_valid) % 2 ^ 1 ∧
    (d.haltRecord h).rd Reg.SYS_HALT_SRC_valid = 1 ∧ (d.haltRecord h).rd Reg.SYS_HALT_SRC_kind = h.kind % 2 ^ 2 ∧
    (d.haltRecord h).rd Reg.SYS_HALT_SRC_fn = h.fn % 2 ^ 7 ∧ (d.haltRecord h).rd Reg.SYS_HALT_SRC_sq = h.sq % 2 ^ 10 ∧
    (d.haltRecord h).rd Reg.SYS_HALT_POS_frag = h.frag % 2 ^ 12 ∧ (d.haltRecord h).rd Reg.SYS_HALT_POS_index = h.index % 2 ^ 16 ∧
    (d.haltRecord h).rd Reg.SYS_HALT_COND_cond = h.cond % 2 ^ 8 ∧ (d.haltRecord h).rd Reg.SYS_HALT_ASN_asn = h.asn % 2 ^ 32 := by
  have hrd (g : Fld) (hg : g ∈ haltPlain := by decide) := d.haltRecord_plain h g hg
  have hother (e : Dev) (f g : Fld) (x : Nat) (h : g.key ≠ f.key) : (e.wr f x).rd g = e.rd g := e.rd_wr_other f g x h
  refine ⟨?_, ?_, ?_, ?_, ?_, ?_, ?_, ?_, ?_⟩ <;>
    (rw [hrd _]; simp (disch := decide) only [Dev.haltHead, hother, Dev.wrB, Dev.rd_wr_same]) <;> rfl

theorem Dev.haltRecord_kept (g : Fld) (hg : ∀ f ∈ haltFields, g.key ≠ f.key) : (d.haltRecord h).rd g = d.rd g := by
  simp only [haltFields, haltPlain, List.mem_append, List.mem_map, List.mem_range, or_imp, forall_and, forall_exists_index,
    and_imp, forall_apply_eq_imp_iff₂, List.forall_mem_cons] at hg
  obtain ⟨⟨⟨h1, h2, h3, h4, h5, h6, h7, h8, h9, h10, -⟩, hentry⟩, hfrag⟩ := hg
  rw [Dev.haltRecord_eq, Dev.rd_forEach_wr_other _ _ _ _ hfrag, Dev.rd_forEach_wr_other _ _ _ _ hentry, Dev.haltHead,
    Dev.rd_wr_other _ _ _ _ h10, Dev.rd_wr_other _ _ _ _ h9, Dev.rd_wr_other _ _ _ _ h8, Dev.rd_wr_other _ _ _ _ h7,
    Dev.rd_wr_other _ _ _ _ h6, Dev.rd_wr_other _ _ _ _ h5, Dev.rd_wr_other _ _ _ _ h4, Dev.rd_wr_other _ _ _ _ h2,
    Dev.rd_wr_other _ _ _ _ h1, Dev.wrB, Dev.rd_wr_other _ _ _ _ h3]

theorem Dev.forEach_wr_qmx (f : Nat → Fld) (v : Nat → Nat) (xs : List Nat) (d : Dev) :
    (forEach xs (fun i d => d.wr (f i) (v i)) d).qmx = d.qmx :=
  forEach_induct (P := fun e : Dev => e.qmx = d.qmx) (f := fun i d => d.wr (f i) (v i)) (fun _ _ he => he) xs d rfl

theorem Dev.haltRecord_qmx : (d.haltRecord h).qmx = d.qmx := by
  have hhead : (d.haltHead h).qmx = d.qmx := by simp only [Dev.haltHead, Dev.wrB, Dev.wr_keeps]
  rw [Dev.haltRecord_eq, Dev.forEach_wr_qmx, Dev.forEach_wr_qmx, hhead]

end

end Machine

end Sys2Proof
end

section
/-! What the whole-device halt leaves, and the end of its record (R83, R84). -/

set_option Elab.async false

namespace Sys2Proof

open Sys2Proof.Machine

namespace Machine

/-! ### Block states -/

theorem Dev.blkState_wr_other (d : Dev) (a b : Blk) (v : Nat) (h : a ≠ b) :
    (d.wr (Reg.BLK_STAT_state.ix b.page) v).blkState a = d.blkState a := by
  refine Dev.rd_wr_other _ _ _ _ ?_
  revert h
  cases a <;> cases b <;> decide

theorem Dev.setState_blkState_other (d : Dev) (a b : Blk) (st : Nat) (h : a ≠ b) : (d.setState b st).blkState a = d.blkState a := by
  unfold Dev.setState
  split
  · rfl
  · exact (Dev.cause_rd _ _ _ _).trans (d.blkState_wr_other a b st h)

theorem Dev.setState_blkState_same (d : Dev) (b : Blk) {st : Nat} (h : st < 8) : (d.setState b st).blkState b = st := by
  unfold Dev.setState
  split
  · assumption
  · refine (Dev.cause_rd _ _ _ _).trans ((Dev.rd_wr_same _ _ _).trans ?_)
    rw [Fld.ix_width]
    exact Nat.mod_eq_of_lt h

theorem Dev.ungate_blkState (d : Dev) (a b : Blk) : (d.ungate b).blkState a = d.blkState a := (d.ungate_woken b).blkState a

/-- A block that is neither IDLE nor ACTIVE keeps its state when a command ends. -/
theorem Dev.settle_blkState {d : Dev} {a : Blk} (h : d.blkState a ≠ stIdle ∧ d.blkState a ≠ stActive) :
    d.settle.blkState a = d.blkState a := by
  have hshow (e : Dev) (b : Blk) (he : e.blkState a = d.blkState a) : (e.showState b).blkState a = d.blkState a := by
    have hu : (if e.working b then e.ungate b else e).blkState a = d.blkState a := by
      split
      · exact (e.ungate_blkState a b).trans he
      · exact he
    rw [Dev.showState]
    generalize (if e.working b then e.ungate b else e) = x at hu
    split
    · next hidle =>
      have hne : a ≠ b := by
        rintro rfl
        rw [hu] at hidle
        exact hidle.elim h.1 h.2
      exact (x.setState_blkState_other a b _ hne).trans hu
    · exact hu
  have hfold : ∀ bs : List Blk, ∀ e : Dev, e.blkState a = d.blkState a → (bs.foldl Dev.showState e).blkState a = d.blkState a := by
    intro bs
    induction bs with
    | nil => exact fun _ he => he
    | cons b bs ih => exact fun e he => ih _ (hshow e b he)
  have hltr (e : Dev) : e.showLtr.blkState a = e.blkState a := by
    dsimp only [Dev.showLtr]
    split
    · exact (Dev.exitL1_woken _).blkState a
    · rfl
  have hsum (e : Dev) : e.showSum.blkState a = e.blkState a := by
    have hreports : Dev.Reports e e.showSum := by
      unfold Dev.showSum
      exact .trans (.ite (Dev.raiseVec_reports e _ _) (.refl e)) (Dev.nt_reports _ _)
    exact hreports.rd _
  rw [Dev.settle, hsum, hltr]
  exact hfold _ _ rfl

/-! ### The halt -/

/-- The device once the halt has ended the work of the host side. -/
def Dev.haltStopped (d : Dev) : Dev :=
  forEach ((({ d with qmx := { d.qmx with fetched := [] } } : Dev).dropReads kindIsHostWork).qmx.cmds.map Cmd.adm)
    (fun a d => d.silenceCmd a ssAbortedHalt)
    (({ d with qmx := { d.qmx with fetched := [] } } : Dev).dropReads kindIsHostWork)

theorem Dev.haltStopped_keeps (d : Dev) : (∀ g : Fld, g.key < 0xB0000 * 64 → d.haltStopped.rd g = d.rd g) ∧
    d.haltStopped.qmx.fetched = [] := by
  have h : Dev.HaltKept (({ d with qmx := { d.qmx with fetched := [] } } : Dev).dropReads kindIsHostWork) d.haltStopped :=
    forEach_induct (P := Dev.HaltKept _) (fun a e he => he.trans (e.silenceCmd_haltKept a _)) _ _ (.refl _)
  exact ⟨fun g hg => h.low g hg, h.fetched⟩

/-- The device in the halt, before the record is written. -/
def Dev.haltEntered (d : Dev) : Dev :=
  (((({ d.haltStopped with qmx := { d.haltStopped.qmx with halted := true } } : Dev).setState .qmx stHalt).setState .sys stHalt).bmeErrAll
    spHost 6)

theorem Dev.setState_haltKept (d : Dev) (b : Blk) (st : Nat) : (d.setState b st).qmx = d.qmx ∧
    ∀ g : Fld, g.key ≠ (Reg.BLK_STAT_state.ix b.page).key → (d.setState b st).rd g = d.rd g := by
  unfold Dev.setState
  split
  · exact ⟨rfl, fun _ _ => rfl⟩
  · exact ⟨rfl, fun g hg => (Dev.cause_rd _ _ _ _).trans (Dev.rd_wr_other _ _ _ _ hg)⟩

theorem Dev.haltEntered_keeps (d : Dev) : d.haltEntered.qmx.halted = true ∧ d.haltEntered.qmx.fetched = [] ∧
    d.haltEntered.blkState .qmx = stHalt ∧ d.haltEntered.blkState .sys = stHalt ∧
    d.haltEntered.rd Reg.SYS_HALT_SRC_valid = d.rd Reg.SYS_HALT_SRC_valid := by
  obtain ⟨hlow, hfetched⟩ := d.haltStopped_keeps
  have hvalid := hlow Reg.SYS_HALT_SRC_valid (by decide)
  rw [Dev.haltEntered]
  generalize d.haltStopped = e at *
  have hqmx : ((({ e with qmx := { e.qmx with halted := true } } : Dev).setState .qmx stHalt).setState .sys stHalt).qmx =
      { e.qmx with halted := true } := ((Dev.setState_haltKept _ _ _).1).trans ((Dev.setState_haltKept _ _ _).1)
  have hrd := (Dev.setState_haltKept (({ e with qmx := { e.qmx with halted := true } } : Dev).setState .qmx stHalt) .sys stHalt).2
    Reg.SYS_HALT_SRC_valid (by decide)
  have hrd' := (Dev.setState_haltKept ({ e with qmx := { e.qmx with halted := true } } : Dev) .qmx stHalt).2
    Reg.SYS_HALT_SRC_valid (by decide)
  have hsys := (({ e with qmx := { e.qmx with halted := true } } : Dev).setState .qmx stHalt).setState_blkState_same .sys
    (st := stHalt) (by decide)
  have hq := ((({ e with qmx := { e.qmx with halted := true } } : Dev).setState .qmx stHalt).setState_blkState_other .qmx .sys
    stHalt (by decide)).trans (Dev.setState_blkState_same _ .qmx (by decide))
  have hall := (((({ e with qmx := { e.qmx with halted := true } } : Dev).setState .qmx stHalt).setState .sys stHalt).bmeErrAll_haltKept
    spHost 6)
  refine ⟨?_, ?_, ?_, ?_, ?_⟩
  · rw [hall.halted, hqmx]
  · rw [hall.fetched, hqmx]
    exact hfetched
  · exact (hall.low (Reg.BLK_STAT_state.ix Blk.qmx.page) (by decide)).trans hq
  · exact (hall.low (Reg.BLK_STAT_state.ix Blk.sys.page) (by decide)).trans hsys
  · exact (hall.low _ (by decide)).trans (hrd.trans (hrd'.trans hvalid))

/-- A halt ends with its record, its cause and its event. -/
theorem Dev.halt_eq (d : Dev) (h : HaltInfo) : ∃ e, Dev.Reports ((d.haltEntered.haltRecord h).causeBit .qmx 19) e ∧
    Dev.CausesGrow ((d.haltEntered.haltRecord h).causeBit .qmx 19) e ∧ d.halt h = e :=
  ⟨_, (Dev.errUncorr_reports _ _ _).trans (Dev.post_reports _ _ _ _ _ _ _ _),
    (Dev.errUncorr_grow _ _ _).trans (Dev.post_grow _ _ _ _ _ _ _ _), rfl⟩

end Machine

/-- What the halt leaves. -/
theorem halt_leaves {d : Dev} {f q slot cond : Nat} {e : List Dword} (hf : f ≤ 64) (hcond : cond < 2 ^ 8) :
    ∃ t, (d.halt ⟨1, f, q, 0, slot, cond, 0, e, []⟩).settle = t ∧
      t.qmx.halted = true ∧ t.qmx.fetched = [] ∧ (∀ g, t.canPost g = false) ∧
      t.blkState .qmx = stHalt ∧ t.blkState .sys = stHalt ∧ Raised t .qmx 19 ∧
      t.rd Reg.SYS_HALT_SRC_valid = 1 ∧ t.rd Reg.SYS_HALT_SRC_kind = 1 ∧ t.rd Reg.SYS_HALT_SRC_fn = f ∧
      t.rd Reg.SYS_HALT_SRC_sq = q % 1024 ∧ t.rd Reg.SYS_HALT_POS_index = slot % 2 ^ 16 ∧
      t.rd Reg.SYS_HALT_COND_cond = cond ∧ t.rd Reg.SYS_HALT_ASN_asn = 0 ∧
      (d.rd Reg.SYS_HALT_SRC_valid = 0 → t.rd Reg.SYS_HALT_SRC_overrun = 0) ∧
      (d.rd Reg.SYS_HALT_SRC_valid ≠ 0 → t.rd Reg.SYS_HALT_SRC_overrun = 1) ∧
      (∀ i, i < 16 → t.rd (Reg.SYS_HALT_ENTRY_image.ix i) = dw e i) := by
  obtain ⟨x, hreports, hgrow, hx⟩ := d.halt_eq ⟨1, f, q, 0, slot, cond, 0, e, []⟩
  obtain ⟨hhalted, hfetched, hqmx, hsys, hvalid⟩ := d.haltEntered_keeps
  have hq := d.haltEntered.haltRecord_qmx ⟨1, f, q, 0, slot, cond, 0, e, []⟩
  obtain ⟨hover, hval, hkind, hfn, hsq, -, hindex, hcnd, hasn⟩ := d.haltEntered.haltRecord_rd ⟨1, f, q, 0, slot, cond, 0, e, []⟩
  have hentry (i : Nat) (hi : i < 16) := d.haltEntered.haltRecord_entry ⟨1, f, q, 0, slot, cond, 0, e, []⟩ hi
  have hkept (g : Fld) := d.haltEntered.haltRecord_kept ⟨1, f, q, 0, slot, cond, 0, e, []⟩ g
  have hqkept := (hkept (Reg.BLK_STAT_state.ix Blk.qmx.page) (by decide +kernel)).trans hqmx
  have hskept := (hkept (Reg.BLK_STAT_state.ix Blk.sys.page) (by decide +kernel)).trans hsys
  rw [hx]
  generalize d.haltEntered = a at *
  generalize a.haltRecord ⟨1, f, q, 0, slot, cond, 0, e, []⟩ = b at *
  have hrd (g : Fld) (hg : stateKey g.key = false) : x.settle.rd g = b.rd g := by
    rw [Dev.settle_rd _ _ hg, hreports.rd, Dev.causeBit_rd]
  have hxq : x.qmx = a.qmx := by
    have hsame : x.qmx = (b.causeBit .qmx 19).qmx := by rw [hreports.same]
    exact hsame.trans hq
  have hblk (c : Blk) (hc : b.blkState c = stHalt) : x.settle.blkState c = stHalt := by
    have hxc : x.blkState c = stHalt := (hreports.rd _).trans ((Dev.causeBit_rd _ _ _ _).trans hc)
    rw [Dev.settle_blkState (by rw [hxc]; decide), hxc]
  have himage : ∀ i < 16, stateKey (Reg.SYS_HALT_ENTRY_image.ix i).key = false := by decide +kernel
  refine ⟨x.settle, rfl, ?_, ?_, fun g => ?_, hblk _ hqkept, hblk _ hskept,
    Dev.settle_raised _ _ _ (hgrow.grow _ _ (Dev.causeBit_raised _ _ _)), ?_, ?_, ?_, ?_, ?_, ?_, ?_, fun h0 => ?_, fun h1 => ?_,
    fun i hi => ?_⟩
  · rw [Dev.settle_qmx, hxq, hhalted]
  · rw [Dev.settle_qmx, hxq, hfetched]
  · rw [Dev.canPost, Dev.settle_qmx, hxq, hhalted, Bool.not_true, Bool.and_false]
  · rw [hrd _ (by decide), hval]
  · exact (hrd _ (by decide)).trans hkind
  · rw [hrd _ (by decide), hfn]
    exact Nat.mod_eq_of_lt (show f < 2 ^ 7 by omega)
  · exact (hrd _ (by decide)).trans hsq
  · exact (hrd _ (by decide)).trans hindex
  · rw [hrd _ (by decide), hcnd]
    exact Nat.mod_eq_of_lt hcond
  · exact (hrd _ (by decide)).trans hasn
  · rw [hrd _ (by decide), hover, Dev.rdB, hvalid, h0]
    rfl
  · rw [hrd _ (by decide), hover, Dev.rdB, hvalid, decide_eq_true h1]
    rfl
  · rw [hrd _ (himage i hi), hentry i hi]

end Sys2Proof
end

section
/-! The validation of an entry, and the end of the halt record (R81, R84). -/

set_option Elab.async false

namespace Sys2Proof

open Sys2Proof.Machine

theorem Frame.forEachWr {a d : Dev} {fs : List Fld} {ps : List Part} (h : Frame a d fs ps) (f : Fld) (v : Nat → Nat) (n : Nat)
    (hf : ∀ i < n, f.ix i ∈ fs) : Frame a (Machine.forEach (List.range n) (fun i d => d.wr (f.ix i) (v i)) d) fs ps := by
  induction n with
  | zero => exact h
  | succ n ih =>
    simp only [Machine.forEach, List.range_succ, List.foldl_append, List.foldl_cons, List.foldl_nil]
    exact Frame.wr (ih fun i hi => hf i (by omega)) _ _ (hf n (by omega))

theorem Frame.haltRecord {a d : Dev} {ps : List Part} (h : Frame a d haltFields ps) (x : HaltInfo) :
    Frame a (d.haltRecord x) haltFields ps := by
  have hplain (g : Fld) (hg : g ∈ haltPlain := by decide) : g ∈ haltFields := by simp [haltFields, hg]
  have hhead : Frame a (d.haltHead x) haltFields ps :=
    (((((((((h.wr _ _ (hplain _)).wr _ _ (hplain _)).wr _ _ (hplain _)).wr _ _ (hplain _)).wr _ _ (hplain _)).wr _ _
      (hplain _)).wr _ _ (hplain _)).wr _ _ (hplain _)).wr _ _ (hplain _)).wr _ _ (hplain _)
  rw [Dev.haltRecord_eq]
  refine (hhead.forEachWr _ _ _ fun i hi => ?_).forEachWr _ _ _ fun i hi => ?_
  · exact List.mem_append_left _ (List.mem_append_right _ (List.mem_map_of_mem (List.mem_range.mpr hi)))
  · exact List.mem_append_right _ (List.mem_map_of_mem (List.mem_range.mpr hi))

/-- The halt record with every field 0. -/
def zeroHalt : HaltInfo := ⟨0, 0, 0, 0, 0, 0, 0, [], []⟩

theorem Machine.Dev.clearHaltRecord_eq (d : Dev) : d.clearHaltRecord =
    (((d.haltRecord zeroHalt).wr Reg.SYS_HALT_SRC_valid 0).wr Reg.SYS_HALT_SRC_overrun 0).wr Reg.SYS_HALT_TS_ts 0 := rfl

theorem haltFields_stateKey : ∀ g ∈ haltFields, stateKey g.key = false := by decide +kernel

/-- The images are none of the fields that are cleared last. -/
theorem haltImages_ne : (∀ i < 16, ∀ g ∈ [Reg.SYS_HALT_SRC_valid, Reg.SYS_HALT_SRC_overrun, Reg.SYS_HALT_TS_ts],
      (Reg.SYS_HALT_ENTRY_image.ix i).key ≠ g.key) ∧
    ∀ i < 4, ∀ g ∈ [Reg.SYS_HALT_SRC_valid, Reg.SYS_HALT_SRC_overrun, Reg.SYS_HALT_TS_ts],
      (Reg.SYS_HALT_FRAG_frag_image.ix i).key ≠ g.key := by decide +kernel

/-- Every field of a cleared halt record reads 0. -/
theorem Machine.Dev.clearHaltRecord_rd (d : Dev) : ∀ g ∈ haltFields, d.clearHaltRecord.rd g = 0 := by
  obtain ⟨-, -, hkind, hfn, hsq, hfrag, hindex, hcond, hasn⟩ := d.haltRecord_rd zeroHalt
  have hentry (i : Nat) (hi : i < 16) := d.haltRecord_entry zeroHalt hi
  have himage (i : Nat) (hi : i < 4) := d.haltRecord_frag zeroHalt hi
  obtain ⟨heap, hfap⟩ := haltImages_ne
  rw [d.clearHaltRecord_eq]
  generalize d.haltRecord zeroHalt = e at *
  have hlast (g : Fld) (hg : ∀ f ∈ [Reg.SYS_HALT_SRC_valid, Reg.SYS_HALT_SRC_overrun, Reg.SYS_HALT_TS_ts], g.key ≠ f.key) :
      (((e.wr Reg.SYS_HALT_SRC_valid 0).wr Reg.SYS_HALT_SRC_overrun 0).wr Reg.SYS_HALT_TS_ts 0).rd g = e.rd g := by
    simp only [List.forall_mem_cons] at hg
    obtain ⟨h1, h2, h3, -⟩ := hg
    rw [Dev.rd_wr_other _ _ _ _ h3, Dev.rd_wr_other _ _ _ _ h2, Dev.rd_wr_other _ _ _ _ h1]
  simp only [haltFields, haltPlain, List.mem_append, List.mem_map, List.mem_range, or_imp, forall_and, forall_exists_index,
    and_imp, forall_apply_eq_imp_iff₂, List.forall_mem_cons]
  refine ⟨⟨⟨?_, ?_, ?_, ?_, ?_, ?_, ?_, ?_, ?_, ?_, nofun⟩, fun i hi => ?_⟩, fun i hi => ?_⟩
  · rw [Dev.rd_wr_other _ _ _ _ (by decide), Dev.rd_wr_other _ _ _ _ (by decide), Dev.rd_wr_same]; rfl
  · exact (hlast _ (by decide)).trans hkind
  · rw [Dev.rd_wr_other _ _ _ _ (by decide), Dev.rd_wr_same]; rfl
  · exact (hlast _ (by decide)).trans hfn
  · exact (hlast _ (by decide)).trans hsq
  · exact (hlast _ (by decide)).trans hfrag
  · exact (hlast _ (by decide)).trans hindex
  · exact (hlast _ (by decide)).trans hcond
  · exact (hlast _ (by decide)).trans hasn
  · rw [Dev.rd_wr_same]; rfl
  · exact (hlast _ (heap i hi)).trans (hentry i hi)
  · exact (hlast _ (hfap i hi)).trans (himage i hi)

theorem exec_entryAdmit (s : State) : exec .entryAdmit s = s.act Dev.entryAdmit := rfl

theorem exec_haltRecordClear (s : State) :
    exec .haltRecordClear s = s.act fun d => d.atFn 0 .sys fun d => d.clearHaltRecord := rfl

/-- Settles O29: the conditions of R81 either let the entry in or halt the device. -/
theorem entryValidation : Obligations.EntryValidation := by
  intro x rest e f cond s d l fields
  refine ⟨fun hclosed => ?_, fun hopen hx he hf => ⟨fun hvalid ⟨r, hr, hopenrec⟩ => ?_, fun hvalid hfree => ?_, fun hbad => ?_⟩,
    fun h => ?_⟩
  · refine gives_of_exec_eq_act (exec_entryAdmit s) ?_
    rw [Dev.entryAdmit_of_closed hclosed]
    exact (Frame.refl _ _ _).settle
  · refine gives_of_exec_eq_act (exec_entryAdmit s) ?_
    have hno : ¬ s.dev.recordFree f = true := by
      rw [Dev.recordFree_eq_true_iff]
      exact fun hall => absurd ((hall r hr).symm.trans hopenrec) (by decide)
    rw [Dev.entryAdmit_of_valid hopen hx he hf hvalid, if_neg hno]
    exact (Frame.refl _ _ _).settle
  · refine gives_of_exec_eq_act (exec_entryAdmit s) ?_
    rw [Dev.entryAdmit_of_valid hopen hx he hf hvalid, if_pos (Dev.recordFree_eq_true_iff.mpr hfree)]
    obtain ⟨hcmd, hadm, hfetched, hcount, hrec, hsq, hintake, hframe⟩ :=
      admitEntry_leaves (d := s.dev.fetchedPopped rest) x e (Dev.sqOwner_le hf)
    have hpopped : Frame s.dev (s.dev.fetchedPopped rest) [Reg.QD_SQ_COUNT_admitted.ix x.q, Reg.QMX_INTAKE_admitted] [.qmx, .dram] :=
      (Frame.refl _ _ _).setQmx _
    generalize ((s.dev.fetchedPopped rest).admitEntry f x e).settle = t at *
    exact ⟨hcmd, hadm, hfetched, hcount, hrec, hsq, hintake, hpopped.trans hframe (List.Subset.refl _) (List.Subset.refl _)⟩
  · refine gives_of_exec_eq_act (exec_entryAdmit s) ?_
    obtain ⟨t, ht, hleaves⟩ := halt_leaves (d := s.dev.fetchedPopped rest) (q := x.q) (slot := x.slot) (e := e)
      (Dev.sqOwner_le hf) (malformed_lt hbad)
    rw [Dev.entryAdmit_of_malformed hopen hx he hf hbad, ht]
    exact hleaves
  · refine gives_of_exec_eq_atFn (exec_haltRecordClear s) h fun d hd => ⟨fun g hg => ?_, ?_⟩
    · rw [Dev.settle_rd _ _ (haltFields_stateKey g hg)]
      exact d.clearHaltRecord_rd g hg
    · rw [d.clearHaltRecord_eq]
      have hplain (g : Fld) (hg : g ∈ haltPlain := by decide) : g ∈ haltFields := by simp [haltFields, hg]
      exact (((((Frame.of_woken hd _ _).haltRecord zeroHalt).wr _ _ (hplain _)).wr _ _ (hplain _)).wr _ _ (hplain _)).settle

end Sys2Proof
end

section
/-! What the ends of commands and of reads leave on the host side (R54, R56, R61): the functions' enables, the link, the
registers of the first pages, the cache. -/

set_option Elab.async false

namespace Sys2Proof

open Sys2Proof.Machine

namespace Machine

/-- A function's state but for what ends of commands and events change. -/
def FnKept (x y : FnState) : Prop := x = { y with pmeStatus := x.pmeStatus, heldOvf := x.heldOvf, held := x.held }

theorem FnKept.refl (x : FnState) : FnKept x x := rfl

theorem FnKept.trans {x y z : FnState} (h : FnKept y x) (k : FnKept z y) : FnKept z x := by
  unfold FnKept at h k ⊢
  rw [h] at k
  exact k

/-- The places in an array's page of AR_CFG.k, AR_CFG.m and AR_RS_STAT.running. -/
def cfgPlaces : List Nat := [16, 24, 0x8E0 * 64 + 31]

/-- The keys of those fields. -/
def cfgKey (k : Nat) : Bool := cfgPlaces.contains (k % (4096 * 64))

/-- An indexed field none of whose keys is one of theirs. -/
def Fld.besideCfg (f : Fld) : Bool :=
  match f.dims with
  | [] => false
  | (st, _) :: _ => decide (64 * st ∣ 4096 * 64) && cfgPlaces.all fun r => r % (64 * st) ≠ f.key % (64 * st)

theorem Fld.cfgKey_ix {f : Fld} (h : f.besideCfg = true) (i : Nat) : cfgKey (f.ix i).key = false := by
  cases hd : f.dims with
  | nil => simp [Fld.besideCfg, hd] at h
  | cons x ds =>
    simp only [Fld.besideCfg, hd, Bool.and_eq_true, decide_eq_true_eq, List.all_eq_true, ne_eq] at h
    obtain ⟨hdvd, hall⟩ := h
    rw [cfgKey, Bool.eq_false_iff]
    intro hmem
    refine hall _ (List.contains_iff_mem.1 hmem) ?_
    rw [Nat.mod_mod_of_dvd _ hdvd, f.ix_key, hd]
    simp only [List.head?_cons, Option.map_some, Option.getD_some]
    rw [Nat.mul_comm 64 x.1, Nat.mul_right_comm]
    exact Nat.add_mul_mod_self_left _ _ _

/-- e is d but for work that ends: reads, commands, fetched entries, queue pointers, BME's sets and reports. -/
structure Dev.WorkKept (d e : Dev) : Prop where
  same : e = { d with
    regs := e.regs, freeCtr := e.freeCtr, emitted := e.emitted, nt := e.nt, bme := e.bme
    hif := { d.hif with fns := e.hif.fns, msix := e.hif.msix, link := e.hif.link, ltrBusy := e.hif.ltrBusy,
                        tags := e.hif.tags, waiting := e.hif.waiting }
    qmx := { d.qmx with cmds := e.qmx.cmds, fetched := e.qmx.fetched }
    dram := { d.dram with ologs := e.dram.ologs } }
  low : ∀ g : Fld, g.key < 0xB0000 * 64 → e.rd g = d.rd g
  up : e.linkUp = d.linkUp
  fns : ∀ f, FnKept (e.fn f) (d.fn f)
  sent : d.emitted <:+ e.emitted
  cfg : ∀ g : Fld, cfgKey g.key = true → e.rd g = d.rd g

namespace Dev.WorkKept

theorem refl (d : Dev) : Dev.WorkKept d d := ⟨rfl, fun _ _ => rfl, rfl, fun _ => .refl _, List.suffix_rfl, fun _ _ => rfl⟩

theorem trans {a b c : Dev} (h : Dev.WorkKept a b) (k : Dev.WorkKept b c) : Dev.WorkKept a c := by
  refine ⟨?_, fun g hg => (k.low g hg).trans (h.low g hg), k.up.trans h.up, fun f => (h.fns f).trans (k.fns f), h.sent.trans k.sent,
    fun g hg => (k.cfg g hg).trans (h.cfg g hg)⟩
  have hs := h.same
  have ks := k.same
  rw [hs] at ks
  exact ks

theorem ite {c : Prop} [Decidable c] {d a b : Dev} (h : Dev.WorkKept d a) (k : Dev.WorkKept d b) :
    Dev.WorkKept d (if c then a else b) := by split <;> assumption

theorem forEach {α : Type} {f : α → Dev → Dev} (h : ∀ x d, Dev.WorkKept d (f x d)) (xs : List α) (d : Dev) :
    Dev.WorkKept d (Machine.forEach xs f d) := forEach_induct (P := Dev.WorkKept d) (fun x e he => he.trans (h x e)) xs d (.refl d)

/-- What a write beside the first pages keeps. -/
theorem wr (d : Dev) (f : Fld) (i v : Nat) (h : 0xB0000 ≤ f.base := by decide) (hc : f.besideCfg = true := by decide) :
    Dev.WorkKept d (d.wr (f.ix i) v) :=
  ⟨rfl, fun g hg => Dev.rd_wr_other _ _ _ _ (by have := f.ix_key_ge i h; omega), rfl, fun _ => .refl _, List.suffix_rfl,
    fun g hg => Dev.rd_wr_other _ _ _ _ fun he => by rw [he, Fld.cfgKey_ix hc] at hg; exact Bool.false_ne_true hg⟩

/-- Reports that touch no function and no link. -/
theorem of_settles_regs {d e : Dev} (h : Dev.Settles d e) (hregs : e.regs = d.regs) (hup : e.linkUp = d.linkUp) :
    Dev.WorkKept d e := by
  have hs := h.same
  refine ⟨?_, fun g _ => by simp only [Dev.rd, hregs], hup, fun f => ?_, h.sent,
    fun g _ => by simp only [Dev.rd, hregs]⟩
  · rw [hs]
  · rw [hs]
    exact .refl _

end Dev.WorkKept

/-! ### Reports -/

theorem Dev.exitL1_kept (d : Dev) : Dev.WorkKept d d.exitL1 :=
  .of_settles_regs d.exitL1_settles (by unfold Dev.exitL1; split <;> rfl) d.exitL1_woken.up

theorem Dev.emit_kept (d : Dev) (x : Emit) : Dev.WorkKept d (d.emit x) := .of_settles_regs (d.emit_settles x) rfl rfl

theorem Dev.cause_kept (d : Dev) (b : Blk) (m : Nat) : Dev.WorkKept d (d.cause b m) := .of_settles_regs (d.cause_settles b m) rfl rfl

theorem Dev.nt_kept (d : Dev) (n : NoteState) : Dev.WorkKept d { d with nt := n } :=
  ⟨rfl, fun _ _ => rfl, rfl, fun _ => .refl _, List.suffix_rfl, fun _ _ => rfl⟩

theorem Dev.causeBit_kept (d : Dev) (b : Blk) (i : Nat) : Dev.WorkKept d (d.causeBit b i) := d.cause_kept b _
theorem Dev.errCorr_kept (d : Dev) (b : Blk) (c : Nat) : Dev.WorkKept d (d.errCorr b c) := d.nt_kept _
theorem Dev.errUncorr_kept (d : Dev) (b : Blk) (c : Nat) : Dev.WorkKept d (d.errUncorr b c) := d.nt_kept _
theorem Dev.updRing_kept (d : Dev) (f : Nat) (g : EvRing → EvRing) : Dev.WorkKept d (d.updRing f g) := d.nt_kept _

theorem Dev.raiseVec_kept (d : Dev) (f v : Nat) : Dev.WorkKept d (d.raiseVec f v) := by
  have s (m : MsixVec) : Dev.WorkKept d (d.setVec f v m) := ⟨rfl, fun _ _ => rfl, rfl, fun _ => .refl _, List.suffix_rfl, fun _ _ => rfl⟩
  unfold Dev.raiseVec
  exact .ite (.refl d) (.ite (((s _).trans (Dev.exitL1_kept _)).trans (Dev.emit_kept _ _)) (s _))

theorem Dev.sendPending_kept (d : Dev) (f : Nat) : Dev.WorkKept d (d.sendPending f) := by
  unfold Dev.sendPending
  refine .forEach (fun p e => ?_) _ d
  exact .ite (e.raiseVec_kept _ _) (.refl e)

theorem Dev.writeHost_kept (d : Dev) (f a : Nat) (bs : Bytes) (r : Bool) : Dev.WorkKept d (d.writeHost f a bs r) := by
  unfold Dev.writeHost
  exact .forEach (fun _ e => e.exitL1_kept.trans (Dev.emit_kept _ _)) _ d

/-- A change of a function's state beside its enables. -/
theorem Dev.updFn_kept (d : Dev) (f : Nat) (g : FnState → FnState) (h : ∀ x, FnKept (g x) x) : Dev.WorkKept d (d.updFn f g) := by
  refine ⟨rfl, fun _ _ => rfl, rfl, fun k => ?_, List.suffix_rfl, fun _ _ => rfl⟩
  by_cases hk : k = f
  · rw [hk, Dev.fn_updFn]
    exact h _
  · rw [Dev.fn, Dev.updFn, Tbl.getD_putD_other _ _ _ _ _ _ hk]
    exact .refl _

theorem Dev.putEvent_kept (d : Dev) (f : Nat) (x : Event) : Dev.WorkKept d (d.putEvent f x) := by
  unfold Dev.putEvent
  exact (d.writeHost_kept f _ _ false).trans (Dev.updRing_kept _ f _)

theorem Dev.raiseRing_kept (d : Dev) (f : Nat) : Dev.WorkKept d (d.raiseRing f) := by
  unfold Dev.raiseRing
  exact .ite (d.raiseVec_kept _ _) (.refl d)

theorem Dev.writeEvent_kept (d : Dev) (f : Nat) (x : Event) : Dev.WorkKept d (d.writeEvent f x) :=
  (d.putEvent_kept f x).trans (Dev.raiseRing_kept _ f)

theorem Dev.drainEvents_kept (n f : Nat) : ∀ d : Dev, Dev.WorkKept d (Dev.drainEvents n f d) := by
  induction n with
  | zero => exact fun d => .refl d
  | succ n ih =>
    intro d
    unfold Dev.drainEvents
    split
    · exact .refl d
    · exact .ite (((d.updRing_kept f _).trans (Dev.putEvent_kept _ _ _)).trans (ih _)) (.refl d)

theorem Dev.drainHalt_kept (d : Dev) (f : Nat) : Dev.WorkKept d (d.drainHalt f) := by
  unfold Dev.drainHalt
  split
  · exact .ite ((d.updRing_kept f _).trans (Dev.writeEvent_kept _ _ _)) (.refl d)
  · exact .refl d

theorem Dev.drainPass_kept (d : Dev) (f : Nat) : Dev.WorkKept d (d.drainPass f) := by
  unfold Dev.drainPass
  exact .ite ((Dev.drainEvents_kept _ f d).trans (Dev.raiseRing_kept _ f)) (Dev.drainEvents_kept _ f d)

theorem Dev.drainRing_kept (d : Dev) (f : Nat) : Dev.WorkKept d (d.drainRing f) := .ite (d.drainHalt_kept f) (d.drainPass_kept f)

theorem Dev.pmeEvent_kept (d : Dev) (f : Nat) : Dev.WorkKept d (d.pmeEvent f) := by
  unfold Dev.pmeEvent
  have h := d.updFn_kept f (fun x => { x with pmeStatus := true }) fun _ => rfl
  refine .ite (.ite (.ite (.ite ((h.trans (Dev.nt_kept _ _)).trans (Dev.emit_kept _ _)) h) (.ite ?_ h)) h) (.refl d)
  exact (h.trans (Dev.exitL1_kept _)).trans (Dev.emit_kept _ _)

theorem Dev.deliver_kept (d : Dev) (f : Nat) (x : Event) : Dev.WorkKept d (d.deliver f x) := by
  unfold Dev.deliver
  have h := (d.updRing_kept f fun r => { r with seq := (r.seq + 1) % 2 ^ 32 }).trans (Dev.pmeEvent_kept _ f)
  have k := (h.trans (Dev.updRing_kept _ f fun r => { r with lost := min (r.lost + 1) 0xFFFF })).trans
    (Dev.causeBit_kept _ .qmx 18)
  have j := k.trans (Dev.updFn_kept _ f (fun x => { x with heldOvf := true }) fun _ => rfl)
  exact .ite (.refl d) (.ite (h.trans (Dev.writeEvent_kept _ _ _)) (.ite (h.trans (Dev.updRing_kept _ _ _))
    (.ite k (j.trans (Dev.causeBit_kept _ _ _)))))

theorem Dev.post_kept (d : Dev) (a b c e f g h : Nat) : Dev.WorkKept d (d.post a b c e f g h) := d.deliver_kept _ _

/-! ### Reads and BME's sets -/

theorem Dev.dropReads_kept (d : Dev) (mine : ReadKind → Bool) : Dev.WorkKept d (d.dropReads mine) :=
  ⟨rfl, fun _ _ => rfl, rfl, fun _ => .refl _, List.suffix_rfl, fun _ _ => rfl⟩

theorem Dev.sendRead_kept (d : Dev) (r : ReadReq) (id : Nat) : Dev.WorkKept d (d.sendRead r id) :=
  (show Dev.WorkKept d { d with hif := { d.hif with
      tags := d.hif.tags ++ [⟨id, r.fn, r.kind, r.addr, r.len, r.retried, false, false⟩] } } from
    ⟨rfl, fun _ _ => rfl, rfl, fun _ => .refl _, List.suffix_rfl, fun _ _ => rfl⟩).trans ((Dev.exitL1_kept _).trans (Dev.emit_kept _ _))

theorem Dev.askRead_kept (d : Dev) (r : ReadReq) : Dev.WorkKept d (d.askRead r) := by
  have h : Dev.WorkKept d { d with hif := { d.hif with waiting := d.hif.waiting ++ [r] } } :=
    ⟨rfl, fun _ _ => rfl, rfl, fun _ => .refl _, List.suffix_rfl, fun _ _ => rfl⟩
  unfold Dev.askRead
  split
  · exact .ite (d.sendRead_kept r _) h
  · exact h

theorem Dev.readHost_kept (d : Dev) (f a n : Nat) (k : Nat → Nat → ReadKind) : Dev.WorkKept d (d.readHost f a n k) := by
  unfold Dev.readHost
  exact .forEach (fun _ e => e.askRead_kept _) _ d

theorem Dev.bmeSpoil_kept (d : Dev) (space lo hi : Nat) : Dev.WorkKept d (d.bmeSpoil space lo hi) := by
  unfold Dev.bmeSpoil
  exact .ite ⟨rfl, fun _ _ => rfl, rfl, fun _ => .refl _, List.suffix_rfl, fun _ _ => rfl⟩ (.refl d)

theorem Dev.updBmeCh_kept (d : Dev) (c : Nat) (g : BmeCh → BmeCh) : Dev.WorkKept d (d.updBmeCh c g) :=
  ⟨rfl, fun _ _ => rfl, rfl, fun _ => .refl _, List.suffix_rfl, fun _ _ => rfl⟩

theorem Dev.bmeErr_kept (d : Dev) (c x : Nat) : Dev.WorkKept d (d.bmeErr c x) := by
  unfold Dev.bmeErr
  refine .ite ?_ (.refl d)
  have h := ((Dev.WorkKept.wr d Reg.BME_CH_STAT_state c 2).trans (.wr _ Reg.BME_CH_STAT_error c x)).trans
    (Dev.dropReads_kept _ (kindIsBme c))
  exact (((h.trans (Dev.bmeSpoil_kept _ _ _ _)).trans (Dev.updBmeCh_kept _ _ _)).trans (Dev.causeBit_kept _ _ _)).trans
    (Dev.errUncorr_kept _ _ _)

theorem Dev.bmeErrAll_kept (d : Dev) (space x : Nat) : Dev.WorkKept d (d.bmeErrAll space x) := by
  unfold Dev.bmeErrAll
  exact .forEach (fun c e => .ite (e.bmeErr_kept c x) (.refl e)) _ d

/-! ### The end of a command -/

theorem Dev.updCmd_kept (d : Dev) (adm : Nat) (g : Cmd → Cmd) : Dev.WorkKept d (d.updCmd adm g) :=
  ⟨rfl, fun _ _ => rfl, rfl, fun _ => .refl _, List.suffix_rfl, fun _ _ => rfl⟩

theorem Dev.updRec_kept (d : Dev) (f adm : Nat) (g : OlRec → OlRec) : Dev.WorkKept d (d.updRec f adm g) :=
  ⟨rfl, fun _ _ => rfl, rfl, fun _ => .refl _, List.suffix_rfl, fun _ _ => rfl⟩

theorem Dev.drainSq_kept (d : Dev) (q : Nat) : Dev.WorkKept d (d.drainSq q) := .ite (.wr d _ q _) (.refl d)

theorem Dev.putCpl_kept (d : Dev) (c : Cpl) : Dev.WorkKept d (d.putCpl c) := by
  have hwritten (a : Nat) (bs : Bytes) (n : Nat) : Dev.WorkKept d ((d.writeHost c.fn a bs false).wr (Reg.QD_CQ_PTR_tail.ix c.cq) n) :=
    (d.writeHost_kept _ _ _ _).trans (.wr _ Reg.QD_CQ_PTR_tail c.cq _)
  unfold Dev.putCpl
  refine Dev.WorkKept.trans ?_ (.forEach (fun a e => .wr e Reg.AR_PWR_LP_count a _) _ _)
  refine Dev.WorkKept.trans ?_ (Dev.updRec_kept _ _ _ _)
  exact .ite ((hwritten _ _ _).trans (.wr _ Reg.QD_CQ_STAT_phase c.cq _)) (hwritten _ _ _)

theorem Dev.raiseCq_kept (d : Dev) (f q : Nat) : Dev.WorkKept d (d.raiseCq f q) := by
  unfold Dev.raiseCq
  exact .ite (d.raiseVec_kept _ _) (.refl d)

theorem Dev.writeCpl_kept (d : Dev) (c : Cpl) : Dev.WorkKept d (d.writeCpl c) := (d.putCpl_kept c).trans (Dev.raiseCq_kept _ _ _)

theorem Dev.postCpl_kept (d : Dev) (c : Cpl) : Dev.WorkKept d (d.postCpl c) := by
  unfold Dev.postCpl
  exact .ite (((d.drainSq_kept _).trans (Dev.writeCpl_kept _ _)).trans (Dev.drainSq_kept _ _))
    (d.updFn_kept c.fn (fun x => { x with held := x.held ++ [c] }) fun _ => rfl)

theorem Dev.releaseHeld_kept (d : Dev) (f : Nat) : Dev.WorkKept d (d.releaseHeld f) := by
  have hput (c : Cpl) (e : Dev) : Dev.WorkKept e ((e.putCpl c).drainSq c.sq) := (e.putCpl_kept c).trans (Dev.drainSq_kept _ _)
  have hempty := d.updFn_kept f (fun x => { x with held := [], heldOvf := false }) fun _ => rfl
  unfold Dev.releaseHeld
  refine .ite (Dev.WorkKept.trans ?_ (Dev.sendPending_kept _ f)) ((d.drainHalt_kept f).trans (Dev.sendPending_kept _ f))
  refine Dev.WorkKept.trans ?_ (Dev.drainRing_kept _ f)
  exact (hempty.trans (.forEach hput _ _)).trans (.forEach (fun q e => e.raiseCq_kept f q) _ _)

theorem Dev.cmdsGone_kept (d : Dev) (x : List Cmd) : Dev.WorkKept d { d with qmx := { d.qmx with cmds := x } } :=
  ⟨rfl, fun _ _ => rfl, rfl, fun _ => .refl _, List.suffix_rfl, fun _ _ => rfl⟩

theorem Dev.endCmd_kept (d : Dev) (adm status dw3 : Nat) : Dev.WorkKept d (d.endCmd adm status dw3) := by
  unfold Dev.endCmd
  split
  · exact .refl d
  · refine .ite (Dev.WorkKept.trans ?_ (Dev.drainSq_kept _ _)) (Dev.WorkKept.trans ?_ (Dev.postCpl_kept _ _)) <;>
      exact ((d.updRec_kept _ _ _).trans (Dev.dropReads_kept _ _)).trans (Dev.cmdsGone_kept _ _)

theorem Dev.stopCmd_kept (d : Dev) (adm status dw3 : Nat) : Dev.WorkKept d (d.stopCmd adm status dw3) := by
  unfold Dev.stopCmd
  split
  · exact .refl d
  · refine .trans (d.dropReads_kept _) (.ite ?_ (Dev.updCmd_kept _ _ _))
    split
    · exact .ite (Dev.endCmd_kept _ _ _ _) (Dev.endCmd_kept _ _ _ _)
    · exact Dev.endCmd_kept _ _ _ _

theorem Dev.silenceCmd_kept (d : Dev) (adm status : Nat) : Dev.WorkKept d (d.silenceCmd adm status) :=
  (d.updCmd_kept adm _).trans (Dev.stopCmd_kept _ _ _ _)

/-! ### Requests that stop, and go on -/

theorem Dev.fetched_kept (d : Dev) (x : List Fetched) : Dev.WorkKept d { d with qmx := { d.qmx with fetched := x } } :=
  ⟨rfl, fun _ _ => rfl, rfl, fun _ => .refl _, List.suffix_rfl, fun _ _ => rfl⟩

theorem Dev.rewindSq_kept (d : Dev) (q : Nat) : Dev.WorkKept d (d.rewindSq q) := by
  unfold Dev.rewindSq
  split
  · exact .refl d
  · refine Dev.WorkKept.trans ?_ (Dev.drainSq_kept _ q)
    refine Dev.WorkKept.trans ?_ (.wr _ Reg.QD_SQ_PTR_head q _)
    exact (d.dropReads_kept _).trans (Dev.fetched_kept _ _)

theorem Dev.rewindFn_kept (d : Dev) (f : Nat) : Dev.WorkKept d (d.rewindFn f) := by
  unfold Dev.rewindFn
  exact .forEach (fun q e => e.rewindSq_kept q) _ d

theorem Dev.tags_kept (d : Dev) (x : List Tag) : Dev.WorkKept d { d with hif := { d.hif with tags := x } } :=
  ⟨rfl, fun _ _ => rfl, rfl, fun _ => .refl _, List.suffix_rfl, fun _ _ => rfl⟩

theorem Dev.stopDma_kept (d : Dev) (f : Nat) : Dev.WorkKept d (d.stopDma f) := by
  unfold Dev.stopDma
  have hstop (x : List Tag) (cs : List Cmd) : Dev.WorkKept d (forEach cs (fun c e => e.stopCmd c.adm ssAbortedBme 0)
      { d.rewindFn f with hif := { (d.rewindFn f).hif with tags := x } }) :=
    ((d.rewindFn_kept f).trans (Dev.tags_kept _ x)).trans (.forEach (fun c e => e.stopCmd_kept c.adm ssAbortedBme 0) cs _)
  exact .ite ((hstop _ _).trans (Dev.bmeErrAll_kept _ _ _)) (hstop _ _)

theorem Dev.writeXfer_kept (d : Dev) (c : Cmd) (off : Nat) (bs : Bytes) : Dev.WorkKept d (d.writeXfer c off bs) := by
  unfold Dev.writeXfer
  exact .forEach (fun _ e => e.writeHost_kept _ _ _ _) _ d

theorem Dev.returnData_kept (d : Dev) (c : Cmd) : Dev.WorkKept d (d.returnData c) := by
  unfold Dev.returnData
  refine .forEach (fun x e => ?_) _ d
  split
  · exact .ite ((e.writeXfer_kept _ _ _).trans (Dev.writeHost_kept _ _ _ _ _)) (e.writeXfer_kept _ _ _)
  · exact .refl e

theorem Dev.finishRead_kept (d : Dev) (adm : Nat) : Dev.WorkKept d (d.finishRead adm) := by
  have hdata (c : Cmd) (b : Bool) : Dev.WorkKept d (if b then d.returnData c else d) := .ite (d.returnData_kept c) (.refl d)
  unfold Dev.finishRead
  split
  · exact .refl d
  · refine .ite (.refl d) ?_
    dsimp only
    split
    · exact (hdata _ _).trans (Dev.endCmd_kept _ _ _ _)
    · exact .ite ((hdata _ _).trans (Dev.endCmd_kept _ _ _ _)) ((hdata _ _).trans (Dev.endCmd_kept _ _ _ _))

theorem Dev.resumeReads_kept (d : Dev) : Dev.WorkKept d d.resumeReads := by
  unfold Dev.resumeReads
  exact .forEach (fun a e => e.finishRead_kept a) _ d

theorem Dev.resumeFn_kept (d : Dev) (f : Nat) : Dev.WorkKept d (d.resumeFn f) :=
  (d.releaseHeld_kept f).trans (Dev.resumeReads_kept _)

end Machine

end Sys2Proof
end

section
/-! VFs that exist (R44). -/

set_option Elab.async false

namespace Sys2Proof

open Sys2Proof.Machine

/-- NumVFs is 1 while VF Enable is 0, and the VF that will exist still has Memory Space Enable set. -/
def unclearedVf : State :=
  { State.reset with dev := { State.reset.dev with hif := { fns := [(1, { mse := true })], numVfs := 1 } } }

/-- Refutes O17: setting VF Enable leaves a Memory Space Enable that the VF's record holds from before. -/
theorem not_configurationAccess : ¬ Obligations.ConfigurationAccess := by
  unfold Obligations.ConfigurationAccess
  intro h
  obtain ⟨-, -, -, hset, -⟩ := h 0 0 0 unclearedVf
  obtain ⟨-, -, hvfs⟩ := (hset (by decide +kernel)).devAfter
  obtain ⟨-, hmse, -⟩ := hvfs 1 (by decide +kernel) (by decide +kernel)
  exact absurd hmse (by decide +kernel)

end Sys2Proof
end

section
/-! Bus Master Enable, D-states, PME_Turn_Off, the link's low-power states, and MSI-X unmasking (R47, R56 to R59). -/

set_option Elab.async false

namespace Sys2Proof

open Sys2Proof.Machine

namespace Machine

/-! ### Functions -/

theorem Dev.fn_updFn_other (d : Dev) {f g : Nat} (h : g ≠ f) (x : FnState → FnState) : (d.updFn f x).fn g = d.fn g :=
  Tbl.getD_putD_other _ _ _ _ _ _ h

theorem FnKept.enables {x y : FnState} (h : FnKept x y) : x.mse = y.mse ∧ x.bme = y.bme ∧ x.d3 = y.d3 ∧
    x.aerUncorr = y.aerUncorr ∧ x.flr = y.flr ∧ x.readyAt = y.readyAt ∧ x.msixEn = y.msixEn := by
  rw [h]
  exact ⟨rfl, rfl, rfl, rfl, rfl, rfl, rfl⟩

namespace Dev.WorkKept

variable {d e : Dev} (h : Dev.WorkKept d e)
include h

theorem bme (f : Nat) : (e.fn f).bme = (d.fn f).bme := (h.fns f).enables.2.1
theorem mse (f : Nat) : (e.fn f).mse = (d.fn f).mse := (h.fns f).enables.1
theorem d3 (f : Nat) : (e.fn f).d3 = (d.fn f).d3 := (h.fns f).enables.2.2.1
theorem aerUncorr (f : Nat) : (e.fn f).aerUncorr = (d.fn f).aerUncorr := (h.fns f).enables.2.2.2.1

theorem hif : e.hif.pmeTurnedOff = d.hif.pmeTurnedOff ∧ e.hif.vfEnable = d.hif.vfEnable ∧ e.hif.numVfs = d.hif.numVfs := by
  rw [h.same]
  exact ⟨rfl, rfl, rfl⟩

theorem parts : e.dram.cache = d.dram.cache ∧ e.lay = d.lay ∧ e.dpx = d.dpx ∧ e.mnt = d.mnt ∧ e.bps = d.bps ∧
    e.staged = d.staged ∧ e.qmx.halted = d.qmx.halted ∧ e.dram.stripes = d.dram.stripes ∧ e.dram.intents = d.dram.intents := by
  rw [h.same]
  exact ⟨rfl, rfl, rfl, rfl, rfl, rfl, rfl, rfl, rfl⟩

theorem frozen : e.frozen = d.frozen := by
  simp only [Dev.frozen, Dev.rdB, h.low Reg.HIF_CONTAIN_frozen (by decide)]

theorem canDma (f : Nat) : e.canDma f = d.canDma f := by
  simp only [Dev.canDma, h.bme, h.d3, h.frozen, h.up, h.hif.1]

end Dev.WorkKept

/-! ### What the end of a command leaves of the host side -/

section

variable (d : Dev)

theorem Dev.settle_linkUp : d.settle.linkUp = d.linkUp := by
  have hshow (e : Dev) (b : Blk) : (e.showState b).linkUp = e.linkUp := by
    have hu : (if e.working b then e.ungate b else e).linkUp = e.linkUp := by
      split
      · exact (e.ungate_woken b).up
      · rfl
    have hs (x : Dev) (st : Nat) : (x.setState b st).linkUp = x.linkUp := by
      unfold Dev.setState
      split <;> rfl
    rw [Dev.showState]
    generalize (if e.working b then e.ungate b else e) = x at hu ⊢
    split
    · exact (hs _ _).trans hu
    · exact hu
  have hfold : ∀ bs : List Blk, ∀ e : Dev, (bs.foldl Dev.showState e).linkUp = e.linkUp := by
    intro bs
    induction bs with
    | nil => exact fun _ => rfl
    | cons b bs ih => exact fun e => (ih _).trans (hshow e b)
  have hltr (e : Dev) : e.showLtr.linkUp = e.linkUp := by
    dsimp only [Dev.showLtr]
    split
    · exact (Dev.exitL1_woken _).up
    · rfl
  have hsum (e : Dev) : e.showSum.linkUp = e.linkUp := by
    have hkept : Dev.WorkKept e e.showSum := by
      unfold Dev.showSum
      exact .trans (.ite (Dev.raiseVec_kept e _ _) (.refl e)) (Dev.nt_kept _ _)
    exact hkept.up
  rw [Dev.settle, hsum, hltr, hfold]

theorem Dev.settle_frozen : d.settle.frozen = d.frozen := by
  simp only [Dev.frozen, Dev.rdB, Dev.settle_rd _ Reg.HIF_CONTAIN_frozen (by decide)]

theorem Dev.settle_canDma (f : Nat) : d.settle.canDma f = d.canDma f := by
  have hpme : d.settle.hif.pmeTurnedOff = d.hif.pmeTurnedOff := by simp only [Dev.settle_keeps_hif]
  simp only [Dev.canDma, Dev.settle_fn, Dev.settle_frozen, Dev.settle_linkUp, hpme]

theorem Dev.settle_dram : d.settle.dram = d.dram := by simp only [Dev.settle_keeps]

end

end Machine

/-! ### O20 -/

section

variable {f : Nat} {s : State} (hf : f ≤ 64) (hex : s.dev.fnExists f = true)
include hf hex

theorem gives_busMasterDisable (hon : (s.dev.fn f).bme = true) : Gives (.busMasterDisable f) s fun e =>
    (e.fn f).bme = false ∧ e.canDma f = false ∧ e.dram.cache = s.dev.dram.cache ∧
    ∀ g, g ≠ f → (e.fn g).bme = (s.dev.fn g).bme := by
  have hexec : exec (.busMasterDisable f) s = s.act fun d => d.bmDisable f := by
    simp only [exec, execBusMasterDisable, ifUnit, hf, decide_true, if_true]
  refine gives_of_exec_eq_act hexec ?_
  have heq : s.dev.bmDisable f = (s.dev.updFn f fun x => { x with bme := false }).stopDma f := by
    simp only [Dev.bmDisable, hex, hon, Bool.and_self, if_true]
  have hkept := (s.dev.updFn f fun x => { x with bme := false }).stopDma_kept f
  have hoff : ((s.dev.updFn f fun x => { x with bme := false }).fn f).bme = false := by rw [Dev.fn_updFn]
  rw [heq]
  refine ⟨?_, ?_, ?_, fun g hg => ?_⟩
  · rw [Dev.settle_fn, hkept.bme, hoff]
  · rw [Dev.settle_canDma, hkept.canDma, Dev.canDma, hoff]
    simp only [Bool.false_and]
  · rw [Dev.settle_dram, hkept.parts.1]
    rfl
  · rw [Dev.settle_fn, hkept.bme, Dev.fn_updFn_other _ hg]

theorem gives_busMasterEnable (hoff : (s.dev.fn f).bme = false) : Gives (.busMasterEnable f) s fun e =>
    (e.fn f).bme = true ∧ ∀ g, g ≠ f → (e.fn g).bme = (s.dev.fn g).bme := by
  have hexec : exec (.busMasterEnable f) s = s.act fun d => d.bmEnable f := by
    simp only [exec, execBusMasterEnable, ifUnit, hf, decide_true, if_true]
  refine gives_of_exec_eq_act hexec ?_
  have heq : s.dev.bmEnable f = (s.dev.updFn f fun x => { x with bme := true }).resumeFn f := by
    simp only [Dev.bmEnable, hex, hoff, Bool.not_false, Bool.and_self, if_true]
  have hkept := (s.dev.updFn f fun x => { x with bme := true }).resumeFn_kept f
  rw [heq]
  refine ⟨?_, fun g hg => ?_⟩
  · rw [Dev.settle_fn, hkept.bme, Dev.fn_updFn]
  · rw [Dev.settle_fn, hkept.bme, Dev.fn_updFn_other _ hg]

theorem gives_d3hotEntry (hd0 : (s.dev.fn f).d3 = false) : Gives (.d3hotEntry f) s fun e =>
    (e.fn f).d3 = true ∧ e.canDma f = false ∧ e.dram.cache = s.dev.dram.cache ∧
    ∀ g, g ≠ f → (e.fn g).d3 = (s.dev.fn g).d3 := by
  have hexec : exec (.d3hotEntry f) s = s.act fun d => d.d3Enter f := by
    simp only [exec, execD3hotEntry, ifUnit, hf, decide_true, if_true]
  refine gives_of_exec_eq_act hexec ?_
  have heq : s.dev.d3Enter f = (s.dev.updFn f fun x => { x with d3 := true }).stopDma f := by
    simp only [Dev.d3Enter, hex, hd0, Bool.not_false, Bool.and_self, if_true]
  have hkept := (s.dev.updFn f fun x => { x with d3 := true }).stopDma_kept f
  have hon : ((s.dev.updFn f fun x => { x with d3 := true }).fn f).d3 = true := by rw [Dev.fn_updFn]
  rw [heq]
  refine ⟨?_, ?_, ?_, fun g hg => ?_⟩
  · rw [Dev.settle_fn, hkept.d3, hon]
  · rw [Dev.settle_canDma, hkept.canDma, Dev.canDma, hon]
    simp only [Bool.not_true, Bool.and_false, Bool.false_and]
  · rw [Dev.settle_dram, hkept.parts.1]
    rfl
  · rw [Dev.settle_fn, hkept.d3, Dev.fn_updFn_other _ hg]

theorem gives_d0Entry (hd3 : (s.dev.fn f).d3 = true) (hup : s.dev.linkUp = true) : Gives (.d0Entry f) s fun e =>
    (e.fn f).d3 = false ∧ ∀ g, g ≠ f → (e.fn g).d3 = (s.dev.fn g).d3 := by
  have hexec : exec (.d0Entry f) s = s.act fun d => d.d0Enter f := by
    simp only [exec, execD0Entry, ifUnit, hf, decide_true, if_true]
  refine gives_of_exec_eq_act hexec ?_
  have heq : s.dev.d0Enter f = (s.dev.updFn f fun x => { x with d3 := false }).resumeFn f := by
    simp only [Dev.d0Enter, hex, hd3, hup, Bool.and_self, if_true]
  have hkept := (s.dev.updFn f fun x => { x with d3 := false }).resumeFn_kept f
  rw [heq]
  refine ⟨?_, fun g hg => ?_⟩
  · rw [Dev.settle_fn, hkept.d3, Dev.fn_updFn]
  · rw [Dev.settle_fn, hkept.d3, Dev.fn_updFn_other _ hg]

end

/-- A link state beside L0 and L1 shows a link that is not up. -/
theorem Machine.Dev.setLink_l23 (d : Dev) : (d.setLink .l23).rd Reg.HIF_LINK_up = 0 ∧ (d.setLink .l23).linkUp = false ∧
    (d.setLink .l23).emitted = d.emitted ∧ (d.setLink .l23).hif = { d.hif with link := .l23 } := by
  have heq : d.setLink .l23 = ((((((d.updHif fun h => { h with link := .l23 }).wr Reg.HIF_LINK_up 0).wr Reg.HIF_LINK_speed 0).wr
      Reg.HIF_LINK_width 0).wr Reg.HIF_LINK_l0p_width 0).wr Reg.HIF_LINK_flit 0) := rfl
  have hhif : (d.setLink .l23).hif = { d.hif with link := .l23 } := by
    rw [heq]
    simp only [Dev.wr_keeps]
    rfl
  refine ⟨?_, ?_, ?_, hhif⟩
  · rw [heq, Dev.rd_wr_other _ _ _ _ (by decide), Dev.rd_wr_other _ _ _ _ (by decide), Dev.rd_wr_other _ _ _ _ (by decide),
      Dev.rd_wr_other _ _ _ _ (by decide), Dev.rd_wr_same]
    rfl
  · rw [Dev.linkUp, hhif]
    rfl
  · rw [heq]
    simp only [Dev.wr_keeps]
    rfl

theorem gives_pmeTurnOff {s : State} (hup : s.dev.linkUp = true) : Gives .pmeTurnOff s fun e =>
    e.hif.pmeTurnedOff = true ∧ .pmeToAck ∈ e.emitted ∧ e.rd Reg.HIF_LINK_up = 0 ∧ ∀ g, e.canDma g = false := by
  have hexec : exec .pmeTurnOff s = s.act Dev.pmeTurnOff := rfl
  refine gives_of_exec_eq_act hexec ?_
  have hkept : Dev.WorkKept (s.dev.updHif fun h => { h with pmeTurnedOff := true })
      (Machine.forEach s.dev.functions (fun f d => d.stopDma f) (s.dev.updHif fun h => { h with pmeTurnedOff := true })) :=
    .forEach (fun f e => e.stopDma_kept f) _ _
  have heq : s.dev.pmeTurnOff = ((Machine.forEach s.dev.functions (fun f d => d.stopDma f)
      (s.dev.updHif fun h => { h with pmeTurnedOff := true })).emit .pmeToAck).setLink .l23 := if_pos hup
  have hoff := hkept.hif.1
  rw [heq]
  generalize Machine.forEach s.dev.functions (fun f d => d.stopDma f) (s.dev.updHif fun h => { h with pmeTurnedOff := true }) = e at *
  obtain ⟨hshown, hdown, hsent, hhif⟩ := (e.emit .pmeToAck).setLink_l23
  have hpme : ((e.emit .pmeToAck).setLink .l23).hif.pmeTurnedOff = true := by rw [hhif]; exact hoff
  refine ⟨?_, ?_, ?_, fun g => ?_⟩
  · simp only [Dev.settle_keeps_hif, hpme]
  · refine (Dev.settle_sent _).subset ?_
    rw [hsent]
    exact List.mem_cons_self
  · rw [Dev.settle_rd _ _ (by decide), hshown]
  · rw [Dev.settle_canDma, Dev.canDma, hdown]
    simp only [Bool.and_false, Bool.false_and]

/-- Settles O20: stopping and resuming a function's requests keeps every enable. -/
theorem busMasterAndPowerStates : Obligations.BusMasterAndPowerStates := by
  intro f s hf hex
  exact ⟨gives_busMasterDisable hf hex, gives_busMasterEnable hf hex, gives_d3hotEntry hf hex, gives_d0Entry hf hex,
    gives_pmeTurnOff⟩

end Sys2Proof
end

section
/-! The link's low-power states and MSI-X masks (R47, R59). -/

set_option Elab.async false

namespace Sys2Proof

open Sys2Proof.Machine

namespace Machine

/-! ### Masks of vectors -/

/-- No vector's mask differs. -/
def Dev.SameMasks (d e : Dev) : Prop := ∀ f v, (e.vec f v).masked = (d.vec f v).masked

theorem Dev.SameMasks.of_msix {d e : Dev} (h : e.hif.msix = d.hif.msix) : Dev.SameMasks d e := fun f v => by
  simp only [Dev.vec, h]

theorem Dev.SameMasks.trans {a b c : Dev} (h : Dev.SameMasks a b) (k : Dev.SameMasks b c) : Dev.SameMasks a c :=
  fun f v => (k f v).trans (h f v)

theorem Dev.setVec_sameMasks (d : Dev) (f v : Nat) {m : MsixVec} (h : m.masked = (d.vec f v).masked) :
    Dev.SameMasks d (d.setVec f v m) := by
  intro g w
  by_cases hk : vecKey g w = vecKey f v
  · have hg : (d.setVec f v m).vec g w = (d.setVec f v m).vec f v := by simp only [Dev.vec, hk]
    have hd : d.vec g w = d.vec f v := by simp only [Dev.vec, hk]
    rw [hg, hd, Dev.vec_setVec, h]
  · rw [Dev.vec, Dev.setVec, Tbl.getD_putD_other _ _ _ _ _ _ hk, Dev.vec]

theorem Dev.exitL1_msix (d : Dev) : d.exitL1.hif.msix = d.hif.msix := by
  unfold Dev.exitL1
  split <;> rfl

theorem Dev.raiseVec_sameMasks (d : Dev) (f v : Nat) : Dev.SameMasks d (d.raiseVec f v) := by
  unfold Dev.raiseVec
  split
  · exact .of_msix rfl
  · split
    · exact (d.setVec_sameMasks f v (m := { d.vec f v with pend := false }) rfl).trans (.of_msix (Dev.exitL1_msix _))
    · exact d.setVec_sameMasks f v (m := { d.vec f v with pend := true }) rfl

theorem Dev.nt_sameMasks (d : Dev) (n : NoteState) : Dev.SameMasks d { d with nt := n } := fun _ _ => rfl

/-- What a command has sent last is sent when it ends. -/
theorem Dev.settle_sends {d : Dev} {x : Emit} {sent : List Emit} (h : d.emitted = x :: sent) : (x :: sent) <:+ d.settle.emitted :=
  h ▸ d.settle_sent

theorem Dev.settle_sameMasks (d : Dev) : Dev.SameMasks d d.settle := by
  have hshow (e : Dev) (b : Blk) : (e.showState b).hif.msix = e.hif.msix := by
    have hu : (if e.working b then e.ungate b else e).hif.msix = e.hif.msix := by
      have h : (e.ungate b).hif.msix = e.hif.msix := by unfold Dev.ungate; split <;> rfl
      split
      · exact h
      · rfl
    have hs (x : Dev) (st : Nat) : (x.setState b st).hif.msix = x.hif.msix := by unfold Dev.setState; split <;> rfl
    rw [Dev.showState]
    generalize (if e.working b then e.ungate b else e) = x at hu ⊢
    split
    · exact (hs _ _).trans hu
    · exact hu
  have hfold : ∀ bs : List Blk, ∀ e : Dev, (bs.foldl Dev.showState e).hif.msix = e.hif.msix := by
    intro bs
    induction bs with
    | nil => exact fun _ => rfl
    | cons b bs ih => exact fun e => (ih _).trans (hshow e b)
  have hltr (e : Dev) : e.showLtr.hif.msix = e.hif.msix := by
    dsimp only [Dev.showLtr]
    split
    · exact Dev.exitL1_msix _
    · rfl
  have hsum (e : Dev) : Dev.SameMasks e e.showSum := by
    have hraise : Dev.SameMasks e (if decide (e.intSum ≠ 0) && !e.nt.sumLive then e.raiseVec 0 (e.rd Reg.SYS_INT_VEC_vec) else e) := by
      split
      · exact e.raiseVec_sameMasks _ _
      · exact .of_msix rfl
    exact hraise.trans (Dev.nt_sameMasks _ _)
  exact ((Dev.SameMasks.of_msix (hfold allBlks d)).trans (.of_msix (hltr _))).trans (hsum _)

end Machine

/-! ### L1 and L0p -/

theorem gives_l1EntryRequest {s : State} (hl0 : s.dev.hif.link = .l0) (hen : s.dev.hif.aspmL1 = true) :
    Gives .l1EntryRequest s fun e => (.l1Request :: s.dev.emitted) <:+ e.emitted ∧ OnlyFields s.dev e [] := by
  refine gives_of_exec_eq_act (show exec .l1EntryRequest s = s.act Dev.l1Enter from rfl) ?_
  have heq : s.dev.l1Enter = (s.dev.emit .l1Request).updHif fun h => { h with link := .l1 } := by
    simp only [Dev.l1Enter, hl0, hen, decide_true, Bool.and_self, if_true]
  have hframe : Frame s.dev s.dev.l1Enter [] [] := by
    rw [heq]
    exact ((Frame.refl _ _ _).reports (Dev.emit_reports _ _)).reports ⟨rfl, List.suffix_rfl⟩
  refine ⟨?_, hframe.settle.1⟩
  rw [heq]
  exact Dev.settle_sends rfl

theorem gives_l0pNarrow {s : State} (hup : s.dev.linkUp = true) (hen : s.dev.hif.l0pEn = true)
    (hwide : 8 < s.dev.rd Reg.HIF_LINK_l0p_width) (hmin : 1 ≤ s.dev.rd Reg.HIF_ASPM_l0p_min) :
    Gives .l0pNarrow s fun e => e.rd Reg.HIF_LINK_l0p_width = 8 ∧ (.lanes 8 :: s.dev.emitted) <:+ e.emitted ∧
      OnlyFields s.dev e [Reg.HIF_LINK_l0p_width] := by
  refine gives_of_exec_eq_act (show exec .l0pNarrow s = s.act Dev.l0pNarrow from rfl) ?_
  have hto : s.dev.narrower = some 8 := if_pos ⟨hwide, hmin⟩
  have heq : s.dev.l0pNarrow = (s.dev.wr Reg.HIF_LINK_l0p_width 8).emit (.lanes 8) := by
    simp only [Dev.l0pNarrow, hup, hen, hto, Bool.and_self, if_true]
  rw [heq]
  refine ⟨?_, Dev.settle_sends rfl, (((Frame.refl _ _ []).wr _ _).reports (Dev.emit_reports _ _)).settle.1⟩
  rw [Dev.settle_rd _ _ (by decide)]
  exact (Dev.rd_wr_same s.dev Reg.HIF_LINK_l0p_width 8).trans (by decide)

theorem gives_l0pWiden {s : State} (hup : s.dev.linkUp = true)
    (hlow : s.dev.rd Reg.HIF_LINK_l0p_width < s.dev.rd Reg.HIF_LINK_width) (hw : s.dev.rd Reg.HIF_LINK_width < 32) :
    Gives .l0pWiden s fun e => e.rd Reg.HIF_LINK_l0p_width = s.dev.rd Reg.HIF_LINK_width ∧
      OnlyFields s.dev e [Reg.HIF_LINK_l0p_width] := by
  refine gives_of_exec_eq_act (show exec .l0pWiden s = s.act Dev.l0pWiden from rfl) ?_
  have heq : s.dev.l0pWiden = (s.dev.wr Reg.HIF_LINK_l0p_width (s.dev.rd Reg.HIF_LINK_width)).emit
      (.lanes (s.dev.rd Reg.HIF_LINK_width)) := by
    simp only [Dev.l0pWiden, hup, hlow, decide_true, Bool.and_self, if_true]
  rw [heq]
  refine ⟨?_, (((Frame.refl _ _ []).wr _ _).reports (Dev.emit_reports _ _)).settle.1⟩
  rw [Dev.settle_rd _ _ (by decide)]
  exact (Dev.rd_wr_same _ _ _).trans (Nat.mod_eq_of_lt hw)

/-! ### Unmasking -/

theorem exec_msixUnmask {f v : Nat} (hf : f ≤ 64) (hv : v < vectorsOf f) (s : State) :
    exec (.msixUnmask f v) s = s.act fun d => d.atFn f .hif fun d => d.msixUnmask f v := by
  simp only [exec, execMsixUnmask, ifUnit, hf, hv, decide_true, Bool.and_self, if_true]

/-- A vector whose mask is cleared. -/
def Machine.Dev.unmasked (d : Dev) (f v : Nat) : Dev := d.setVec f v { d.vec f v with masked := false }

theorem Machine.Dev.msixUnmask_eq (d : Dev) (f v : Nat) : d.msixUnmask f v =
    if ((d.unmasked f v).vec f v).pend then (d.unmasked f v).raiseVec f v else d.unmasked f v := rfl

theorem Machine.Dev.unmasked_vec (d : Dev) (f v : Nat) :
    ((d.unmasked f v).vec f v).masked = false ∧ ((d.unmasked f v).vec f v).pend = (d.vec f v).pend := by
  rw [Dev.unmasked, Dev.vec_setVec]
  exact ⟨rfl, rfl⟩

section

variable {f v : Nat} {s : State} (hf : f ≤ 64) (hv : v < vectorsOf f) (h : HostReaches s.dev f .hif)
include hf hv h

theorem gives_msixUnmask : Gives (.msixUnmask f v) s fun e => (e.vec f v).masked = false ∧ OnlyFields s.dev e [] := by
  refine gives_of_exec_eq_atFn (exec_msixUnmask hf hv s) h fun d hd => ?_
  have hset : Dev.Reports d (d.unmasked f v) := d.setVec_reports f v _
  have hmasked := (d.unmasked_vec f v).1
  rw [d.msixUnmask_eq]
  generalize d.unmasked f v = x at *
  refine ⟨?_, (((Frame.of_woken hd _ []).reports hset).reports (.ite (x.raiseVec_reports _ _) (.refl x))).settle.1⟩
  rw [Dev.settle_sameMasks]
  split
  · rw [Dev.raiseVec_sameMasks, hmasked]
  · exact hmasked

theorem gives_msixUnmask_pending (hpend : (s.dev.vec f v).pend = true) (hen : (s.dev.fn f).msixEn = true)
    (hmask : (s.dev.fn f).fmask = false) (hpost : s.dev.canPost f = true) :
    Gives (.msixUnmask f v) s fun e => (.msix f v :: s.dev.emitted) <:+ e.emitted := by
  refine gives_of_exec_eq_atFn (exec_msixUnmask hf hv s) h fun d hd => ?_
  obtain ⟨hmasked, hkept⟩ := d.unmasked_vec f v
  have hfn : (d.unmasked f v).fn f = s.dev.fn f := hd.fn f
  have hdma : (d.unmasked f v).canDma f = true ∧ (d.unmasked f v).qmx.halted = false := by
    simp only [Dev.canPost, Bool.and_eq_true, Bool.not_eq_true'] at hpost
    obtain ⟨hcan, hrun⟩ := hpost
    have hup : (d.unmasked f v).linkUp = s.dev.linkUp := hd.up
    have hfrozen : (d.unmasked f v).frozen = s.dev.frozen := by
      show decide (d.rd Reg.HIF_CONTAIN_frozen ≠ 0) = decide (s.dev.rd Reg.HIF_CONTAIN_frozen ≠ 0)
      rw [hd.rd Reg.HIF_CONTAIN_frozen]
    have hpme : (d.unmasked f v).hif.pmeTurnedOff = s.dev.hif.pmeTurnedOff := by
      show d.hif.pmeTurnedOff = _
      rw [hd.same]
    have hq : (d.unmasked f v).qmx = s.dev.qmx := hd.qmx
    rw [Dev.canDma, hfn, hup, hfrozen, hpme, hq]
    exact ⟨hcan, hrun⟩
  have hsent : (d.unmasked f v).emitted = s.dev.emitted := hd.emitted
  rw [d.msixUnmask_eq, if_pos (by rw [hkept, hd.vec]; exact hpend), ← hsent]
  generalize d.unmasked f v = x at *
  have hopen : x.vecOpen f v = true := by
    simp only [Dev.vecOpen, hmasked, hfn, hmask, hdma, Bool.not_false, Bool.true_or, Bool.and_self]
  have hthere : ¬ (!(x.fn f).msixEn || decide (vectorsOf f ≤ v)) = true := by
    simp only [hfn, hen, Bool.not_true, Bool.false_or, decide_eq_true_eq, not_le]
    exact hv
  have heq : x.raiseVec f v = (x.setVec f v { x.vec f v with pend := false }).exitL1.emit (.msix f v) :=
    (if_neg hthere).trans (if_pos hopen)
  have hl1 : (x.setVec f v { x.vec f v with pend := false }).exitL1.emitted = x.emitted := (Dev.exitL1_woken _).emitted
  rw [heq, ← hl1]
  exact Dev.settle_sends rfl

end

/-- Settles O21: each command's effect under its conditions (log entry 70 for the width that the link returns to). -/
theorem linkPowerAndMessages : Obligations.LinkPowerAndMessages := by
  intro f v s
  exact ⟨gives_l1EntryRequest, gives_l0pNarrow, gives_l0pWiden, gives_msixUnmask, gives_msixUnmask_pending⟩

end Sys2Proof
end

section
/-! The containment freeze (R60 to R62). -/

set_option Elab.async false

namespace Sys2Proof

open Sys2Proof.Machine

/-- The fields of HIF_LINK that a change of the link's state writes. -/
def linkFields : List Fld := [Reg.HIF_LINK_up, Reg.HIF_LINK_speed, Reg.HIF_LINK_width, Reg.HIF_LINK_l0p_width, Reg.HIF_LINK_flit]

/-- The fields of HIF_CONTAIN. -/
def containFields : List Fld := [Reg.HIF_CONTAIN_frozen, Reg.HIF_CONTAIN_fn, Reg.HIF_CONTAIN_count, Reg.HIF_CONTAIN_cause,
  Reg.HIF_CONTAIN_TS_ts]

theorem Frame.setLink {a d : Dev} {fs : List Fld} {ps : List Part} (h : Frame a d fs ps) (l : Link)
    (hfs : linkFields ⊆ fs := by decide) : Frame a (d.setLink l) fs ps := by
  simp only [linkFields, List.cons_subset] at hfs
  obtain ⟨h1, h2, h3, h4, h5, -⟩ := hfs
  have hup : Frame a ((d.updHif fun h => { h with link := l }).wrB Reg.HIF_LINK_up (l = .l0 || l = .l1)) fs ps :=
    Frame.wr (h.reports ⟨rfl, List.suffix_rfl⟩) _ _ h1
  exact .ite hup ((((hup.wr _ _ h2).wr _ _ h3).wr _ _ h4).wr _ _ h5)

namespace Machine

/-! ### The cause -/

/-- A cause as it is counted; a surprise link-down takes the link down. -/
def Dev.containCounted (d : Dev) (cause : Nat) : Dev :=
  onlyIf (cause = 1 && (d.incSat Reg.HIF_CONTAIN_count).linkUp) (fun d => d.setLink .down) (d.incSat Reg.HIF_CONTAIN_count)

/-- The freeze as HIF_CONTAIN tells it: the first cause is recorded. -/
def Dev.containShown (d : Dev) (cause fn : Nat) : Dev :=
  if (d.wr Reg.HIF_CONTAIN_frozen 1).rd Reg.HIF_CONTAIN_cause = 0 then
    (((d.wr Reg.HIF_CONTAIN_frozen 1).wr Reg.HIF_CONTAIN_cause cause).wr Reg.HIF_CONTAIN_fn fn).wr Reg.HIF_CONTAIN_TS_ts
      (d.wr Reg.HIF_CONTAIN_frozen 1).now
  else d.wr Reg.HIF_CONTAIN_frozen 1

/-- Every outstanding read is doomed. -/
def Dev.doomAll (d : Dev) (cause : Nat) : Dev :=
  d.updHif fun h => { h with freezeOwed := some cause, tags := h.tags.map fun t => { t with doomed := true } }

/-- What the freeze ends: the fetches, the outstanding reads, BME's sets. -/
def Dev.containStopped (d : Dev) (cause : Nat) : Dev :=
  ((((forEach (List.range 65) (fun f d => d.rewindFn f) d).doomAll cause).causeBit .hif 16).errUncorr .hif cause).bmeErrAll spHost 5

theorem Dev.contain_eq (d : Dev) (cause fn : Nat) : d.contain cause fn =
    if (d.containCounted cause).frozen then d.containCounted cause
    else ((d.containCounted cause).containShown cause fn).containStopped cause := rfl

theorem Dev.containCounted_frame {a d : Dev} {fs : List Fld} {ps : List Part} (h : Frame a d fs ps) (cause : Nat)
    (hcount : Reg.HIF_CONTAIN_count ∈ fs := by decide) (hlink : linkFields ⊆ fs := by decide) :
    Frame a (d.containCounted cause) fs ps :=
  Frame.onlyIf (h.incSat _ _ hcount) (Frame.setLink (h.incSat _ _ hcount) _ hlink)

theorem Dev.containCounted_rd (d : Dev) (cause : Nat) :
    (d.containCounted cause).rd Reg.HIF_CONTAIN_count = min (d.rd Reg.HIF_CONTAIN_count + 1) (2 ^ Reg.HIF_CONTAIN_count.width - 1) ∧
    ∀ g ∈ [Reg.HIF_CONTAIN_frozen, Reg.HIF_CONTAIN_fn, Reg.HIF_CONTAIN_cause, Reg.HIF_CONTAIN_TS_ts],
      (d.containCounted cause).rd g = d.rd g := by
  have hlink : Frame (d.incSat Reg.HIF_CONTAIN_count) (d.containCounted cause) linkFields [] :=
    Frame.onlyIf (Frame.refl _ _ _) ((Frame.refl _ _ _).setLink _)
  refine ⟨?_, fun g hg => ?_⟩
  · rw [hlink.rd Reg.HIF_CONTAIN_count, Dev.rd_incSat_same]
  · have hapart : (∀ f ∈ linkFields, g.key ≠ f.key) ∧ stateKey g.key = false ∧ g.key ≠ Reg.HIF_CONTAIN_count.key := by
      revert g
      decide
    rw [hlink.1 g hapart.1 hapart.2.1, Dev.rd_incSat_other _ _ _ _ hapart.2.2]

theorem Dev.containShown_frame {a d : Dev} {fs : List Fld} {ps : List Part} (h : Frame a d fs ps) (cause fn : Nat)
    (hfs : containFields ⊆ fs := by decide) : Frame a (d.containShown cause fn) fs ps := by
  simp only [containFields, List.cons_subset] at hfs
  obtain ⟨hfrozen, hfn, -, hcause, hts, -⟩ := hfs
  exact .ite ((((h.wr _ _ hfrozen).wr _ _ hcause).wr _ _ hfn).wr _ _ hts) (h.wr _ _ hfrozen)

/-- What HIF_CONTAIN tells of a freeze that begins. -/
theorem Dev.containShown_rd (d : Dev) {cause fn : Nat} (hcause : cause < 2 ^ 4) (hfn : fn < 2 ^ 7) :
    (d.containShown cause fn).rd Reg.HIF_CONTAIN_frozen = 1 ∧
    (d.containShown cause fn).rd Reg.HIF_CONTAIN_count = d.rd Reg.HIF_CONTAIN_count ∧
    (d.rd Reg.HIF_CONTAIN_cause = 0 → (d.containShown cause fn).rd Reg.HIF_CONTAIN_cause = cause ∧
      (d.containShown cause fn).rd Reg.HIF_CONTAIN_fn = fn ∧ (d.containShown cause fn).rd Reg.HIF_CONTAIN_TS_ts = d.now % 2 ^ 64) ∧
    (d.rd Reg.HIF_CONTAIN_cause ≠ 0 → (d.containShown cause fn).rd Reg.HIF_CONTAIN_cause = d.rd Reg.HIF_CONTAIN_cause) := by
  have hother (e : Dev) (f g : Fld) (x : Nat) (h : g.key ≠ f.key := by decide) : (e.wr f x).rd g = e.rd g := e.rd_wr_other f g x h
  have hnow : (d.wr Reg.HIF_CONTAIN_frozen 1).now = d.now := rfl
  have hfrozen : (d.wr Reg.HIF_CONTAIN_frozen 1).rd Reg.HIF_CONTAIN_frozen = 1 := (Dev.rd_wr_same _ _ _).trans (by decide)
  rw [Dev.containShown, hother _ _ _ _, hnow]
  by_cases hzero : d.rd Reg.HIF_CONTAIN_cause = 0
  · rw [if_pos hzero]
    refine ⟨?_, ?_, fun _ => ⟨?_, ?_, ?_⟩, fun h => absurd hzero h⟩
    · rw [hother _ _ _ _, hother _ _ _ _, hother _ _ _ _, hfrozen]
    · rw [hother _ _ _ _, hother _ _ _ _, hother _ _ _ _, hother _ _ _ _]
    · rw [hother _ _ _ _, hother _ _ _ _, Dev.rd_wr_same]
      exact Nat.mod_eq_of_lt hcause
    · rw [hother _ _ _ _, Dev.rd_wr_same]
      exact Nat.mod_eq_of_lt hfn
    · exact Dev.rd_wr_same _ _ _
  · rw [if_neg hzero]
    exact ⟨hfrozen, hother _ _ _ _, fun h => absurd h hzero, fun _ => hother _ _ _ _⟩

/-! ### What a freeze ends -/

/-- The end of a BME set may change what its reads serve. -/
theorem Dev.bmeErr_tags (d : Dev) (c x : Nat) : (d.bmeErr c x).hif.tags = d.hif.tags ∨
    (d.bmeErr c x).hif.tags = (d.dropReads (kindIsBme c)).hif.tags := by
  by_cases h : d.bmeState c = 1
  · right
    rw [Dev.bmeErr, if_pos h]
    have hspoil (e : Dev) (n : Nat) : (e.bmeSpoilActive c n).hif = e.hif := by
      dsimp only [Dev.bmeSpoilActive, Dev.bmeSpoil]
      split <;> rfl
    have hend (e : Dev) : (((e.updBmeCh c fun _ => {}).causeBit .bme (24 + c)).errUncorr .bme x).hif.tags = e.hif.tags := rfl
    dsimp only
    rw [hend, hspoil]
    rfl
  · left
    rw [Dev.bmeErr, if_neg h]

/-- Whether every outstanding read is doomed. -/
def Dev.AllDoomed (d : Dev) : Prop := ∀ t ∈ d.hif.tags, t.doomed = true

theorem Dev.AllDoomed.bmeErr {d : Dev} (h : d.AllDoomed) (c x : Nat) : (d.bmeErr c x).AllDoomed := by
  unfold Dev.AllDoomed
  rcases d.bmeErr_tags c x with hsame | hdrop
  · rw [hsame]
    exact h
  · rw [hdrop]
    simp only [Dev.dropReads, List.mem_map, forall_exists_index, and_imp, forall_apply_eq_imp_iff₂]
    intro t ht
    split
    · exact h t ht
    · exact h t ht

theorem Dev.containStopped_doomed (d : Dev) (cause : Nat) : (d.containStopped cause).AllDoomed := by
  have hdoom (e : Dev) : (((e.doomAll cause).causeBit .hif 16).errUncorr .hif cause).AllDoomed := by
    show ∀ t ∈ e.hif.tags.map (fun t => { t with doomed := true }), t.doomed = true
    simp only [List.mem_map, forall_exists_index, and_imp, forall_apply_eq_imp_iff₂, implies_true]
  unfold Dev.containStopped Dev.bmeErrAll
  refine forEach_induct (P := Dev.AllDoomed) (fun c e he => ?_) _ _ (hdoom _)
  split
  · exact he.bmeErr c 5
  · exact he

/-- What the ends of work keep, the freeze keeps beside what it dooms. -/
theorem Dev.containStopped_keeps (d : Dev) (cause : Nat) :
    (∀ g : Fld, g.key < 0xB0000 * 64 → (d.containStopped cause).rd g = d.rd g) ∧
    (d.containStopped cause).dram.cache = d.dram.cache := by
  have hfetch : Dev.WorkKept d (forEach (List.range 65) (fun f d => d.rewindFn f) d) := .forEach (fun f e => e.rewindFn_kept f) _ d
  have hrest (e : Dev) : Dev.WorkKept (e.doomAll cause) ((((e.doomAll cause).causeBit .hif 16).errUncorr .hif cause).bmeErrAll spHost 5) :=
    ((Dev.causeBit_kept _ _ _).trans (Dev.errUncorr_kept _ _ _)).trans (Dev.bmeErrAll_kept _ _ _)
  have hdoom (e : Dev) : (∀ g, (e.doomAll cause).rd g = e.rd g) ∧ (e.doomAll cause).dram = e.dram := ⟨fun _ => rfl, rfl⟩
  unfold Dev.containStopped
  generalize forEach (List.range 65) (fun f d => d.rewindFn f) d = e at *
  obtain ⟨hrd, hdram⟩ := hdoom e
  refine ⟨fun g hg => ?_, ?_⟩
  · rw [(hrest e).low g hg, hrd, hfetch.low g hg]
  · rw [(hrest e).parts.1, hdram, hfetch.parts.1]

end Machine

/-! ### Causes -/

theorem exec_containment (cause : ContainCause) {fn : Option Nat} (h : ∀ f, fn = some f → f ≤ 64) (s : State) :
    exec (.containment cause fn) s = s.act fun d => d.containCause cause fn := by
  cases fn with
  | none => rfl
  | some f =>
    have hf : f ≤ 64 := h f rfl
    simp only [exec, execContainment, onUnit, hf, decide_true, if_true]

theorem ContainCause.code_lt (cause : ContainCause) : cause.code < 2 ^ 4 := by cases cause <;> decide

section

variable {cause : ContainCause} {fn : Option Nat} {s : State} (hfn : ∀ f, fn = some f → f ≤ 64)

/-- HIF_CONTAIN.count after one cause more. -/
def Counted (d e : Dev) : Prop :=
  e.rd Reg.HIF_CONTAIN_count = min (d.rd Reg.HIF_CONTAIN_count + 1) (2 ^ Reg.HIF_CONTAIN_count.width - 1)

theorem containCause_reports (d : Dev) : Dev.Reports d (d.aerUncorrError (fn.getD 0) cause.aerBit) := d.aerUncorrError_reports _ _

include hfn

theorem gives_containment (hfree : s.dev.frozen = false) : Gives (.containment cause fn) s fun e =>
    e.frozen = true ∧ Counted s.dev e ∧
    (s.dev.rd Reg.HIF_CONTAIN_cause = 0 → e.rd Reg.HIF_CONTAIN_cause = cause.code ∧
      e.rd Reg.HIF_CONTAIN_fn = fn.getD 0x7F ∧ e.rd Reg.HIF_CONTAIN_TS_ts = s.dev.now % 2 ^ 64) ∧
    (s.dev.rd Reg.HIF_CONTAIN_cause ≠ 0 → e.rd Reg.HIF_CONTAIN_cause = s.dev.rd Reg.HIF_CONTAIN_cause) ∧
    (∀ x ∈ e.hif.tags, x.doomed = true) ∧ (∀ f, e.canDma f = false) ∧ e.dram.cache = s.dev.dram.cache := by
  refine gives_of_exec_eq_act (exec_containment cause hfn s) ?_
  have hwhere : fn.getD 0x7F < 2 ^ 7 := by
    cases hc : fn with
    | none => decide
    | some f => exact lt_of_le_of_lt (hfn f hc) (by decide)
  have haer := s.dev.aerUncorrError_reports (fn.getD 0) cause.aerBit
  rw [Dev.containCause]
  generalize s.dev.aerUncorrError (fn.getD 0) cause.aerBit = a at haer
  obtain ⟨hcount, hkept⟩ := a.containCounted_rd cause.code
  have hcounted : Frame s.dev (a.containCounted cause.code) (Reg.HIF_CONTAIN_count :: linkFields) [] :=
    Dev.containCounted_frame ((Frame.refl _ _ _).reports haer) _
  have hfree' : (a.containCounted cause.code).frozen = false := by
    rw [Dev.frozen, Dev.rdB, hkept _ (by decide), haer.rd]
    exact hfree
  rw [Dev.contain_eq, hfree', if_neg Bool.false_ne_true]
  have hnow : (a.containCounted cause.code).now = s.dev.now := by
    have htmb : (a.containCounted cause.code).tmb = s.dev.tmb := (hcounted.part .tmb).1
    rw [Dev.now, htmb, Dev.now]
  have hcache : (a.containCounted cause.code).dram = s.dev.dram := hcounted.part .dram
  have hcause : (a.containCounted cause.code).rd Reg.HIF_CONTAIN_cause = s.dev.rd Reg.HIF_CONTAIN_cause :=
    (hkept _ (by decide)).trans (haer.rd _)
  replace hcount : Counted s.dev (a.containCounted cause.code) := by rw [Counted, hcount, haer.rd]
  generalize a.containCounted cause.code = b at *
  obtain ⟨hfrozen, hsame, hfirst, hlater⟩ := b.containShown_rd (fn := fn.getD 0x7F) cause.code_lt hwhere
  have hdram : (b.containShown cause.code (fn.getD 0x7F)).dram = b.dram :=
    (Dev.containShown_frame (Frame.refl b containFields []) cause.code (fn.getD 0x7F)).part .dram
  rw [hcause, hnow] at hfirst
  rw [hcause] at hlater
  generalize b.containShown cause.code (fn.getD 0x7F) = x at *
  obtain ⟨hlow, hkeptCache⟩ := x.containStopped_keeps cause.code
  have hdoomed := x.containStopped_doomed cause.code
  generalize x.containStopped cause.code = y at *
  have hrd (g : Fld) (hg : g.key < 0xB0000 * 64 := by decide) (hst : stateKey g.key = false := by decide) :
      y.settle.rd g = x.rd g := (Dev.settle_rd _ _ hst).trans (hlow g hg)
  have hnowFrozen : y.settle.frozen = true := by
    rw [Dev.frozen, Dev.rdB, hrd Reg.HIF_CONTAIN_frozen, hfrozen]
    rfl
  refine ⟨hnowFrozen, ?_, fun h0 => ?_, fun h1 => ?_, ?_, fun f => ?_, ?_⟩
  · rw [Counted, hrd Reg.HIF_CONTAIN_count, hsame, hcount]
  · rw [hrd Reg.HIF_CONTAIN_cause, hrd Reg.HIF_CONTAIN_fn, hrd Reg.HIF_CONTAIN_TS_ts]
    exact hfirst h0
  · rw [hrd Reg.HIF_CONTAIN_cause]
    exact hlater h1
  · have htags : y.settle.hif.tags = y.hif.tags := by simp only [Dev.settle_keeps_hif]
    rw [htags]
    exact hdoomed
  · simp only [Dev.canDma, hnowFrozen, Bool.not_true, Bool.and_false, Bool.false_and]
  · rw [Dev.settle_dram, hkeptCache, hdram, hcache]

theorem gives_containment_again (hfrozen : s.dev.frozen = true) : Gives (.containment cause fn) s fun e =>
    e.frozen = true ∧ Counted s.dev e ∧ OnlyFields s.dev e [Reg.HIF_CONTAIN_count, Reg.HIF_LINK_up, Reg.HIF_LINK_speed,
      Reg.HIF_LINK_width, Reg.HIF_LINK_l0p_width, Reg.HIF_LINK_flit] ∧ e.dram = s.dev.dram ∧ e.qmx = s.dev.qmx := by
  refine gives_of_exec_eq_act (exec_containment cause hfn s) ?_
  have haer := s.dev.aerUncorrError_reports (fn.getD 0) cause.aerBit
  rw [Dev.containCause]
  generalize s.dev.aerUncorrError (fn.getD 0) cause.aerBit = a at haer
  obtain ⟨hcount, hkept⟩ := a.containCounted_rd cause.code
  have hcounted : Frame s.dev (a.containCounted cause.code) (Reg.HIF_CONTAIN_count :: linkFields) [] :=
    Dev.containCounted_frame ((Frame.refl _ _ _).reports haer) _
  have hstill : (a.containCounted cause.code).frozen = true := by
    rw [Dev.frozen, Dev.rdB, hkept _ (by decide), haer.rd]
    exact hfrozen
  rw [Dev.contain_eq, hstill, if_pos rfl]
  have hframe := hcounted.settle
  refine ⟨by rw [Dev.settle_frozen, hstill], ?_, hframe.1, hframe.part .dram, hframe.part .qmx⟩
  rw [Counted, Dev.settle_rd _ _ (by decide), hcount, haer.rd]

end

/-! ### Release -/

theorem exec_containRelease (s : State) : exec .containRelease s =
    s.act fun d => if d.linkUp then d.atFn 0 .hif Dev.containRelease else d.containRelease := rfl

/-- A release over a link that is up, where it reaches PF0. -/
theorem gives_containRelease_of_reached {s : State} {P : Dev → Prop} (h : HostReaches s.dev 0 .hif)
    (hP : ∀ d, Dev.Woken s.dev d → P d.containRelease.settle) : Gives .containRelease s P := by
  refine gives_of_exec_eq_act (exec_containRelease s) ?_
  obtain ⟨hup, -⟩ := id h
  rw [if_pos hup, Dev.atFn_of_hostReaches h]
  exact hP _ (s.dev.arrival_woken .hif)

theorem Machine.Dev.Woken.frozen {d e : Dev} (h : Dev.Woken d e) : e.frozen = d.frozen := by
  simp only [Dev.frozen, Dev.rdB, h.rd Reg.HIF_CONTAIN_frozen]

theorem gives_containRelease {s : State} (hfrozen : s.dev.frozen = true) (h : HostReaches s.dev 0 .hif) :
    Gives .containRelease s fun e => e.frozen = false ∧ e.staged = s.dev.staged ∧
      ∀ f, e.canDma f = ((s.dev.fn f).bme && !(s.dev.fn f).d3 && !s.dev.hif.pmeTurnedOff) := by
  refine gives_containRelease_of_reached h fun d hd => ?_
  obtain ⟨hup, -⟩ := h
  have heq : d.containRelease =
      (Machine.forEach (d.exitL1.wr Reg.HIF_CONTAIN_frozen 0).functions (fun f d => d.resumeFn f) (d.exitL1.wr Reg.HIF_CONTAIN_frozen 0)).postFreeze := by
    simp only [Dev.containRelease, hd.frozen, hd.up, hfrozen, hup, Bool.not_true, Bool.false_eq_true, if_false]
  have hw := hd.trans d.exitL1_woken
  rw [heq]
  have hfree : (d.exitL1.wr Reg.HIF_CONTAIN_frozen 0).frozen = false := by
    rw [Dev.frozen, Dev.rdB, Dev.rd_wr_same]
    rfl
  have hup' : (d.exitL1.wr Reg.HIF_CONTAIN_frozen 0).linkUp = true := hw.up.trans hup
  have hfn (f : Nat) : (d.exitL1.wr Reg.HIF_CONTAIN_frozen 0).fn f = s.dev.fn f := hw.fn f
  have hpme : (d.exitL1.wr Reg.HIF_CONTAIN_frozen 0).hif.pmeTurnedOff = s.dev.hif.pmeTurnedOff := by
    show d.exitL1.hif.pmeTurnedOff = _
    rw [hw.same]
  have hstaged : (d.exitL1.wr Reg.HIF_CONTAIN_frozen 0).staged = s.dev.staged := hw.staged
  generalize d.exitL1.wr Reg.HIF_CONTAIN_frozen 0 = x at *
  have hresume : Dev.WorkKept x (Machine.forEach x.functions (fun f d => d.resumeFn f) x) := .forEach (fun f e => e.resumeFn_kept f) _ x
  generalize Machine.forEach x.functions (fun f d => d.resumeFn f) x = y at hresume
  have hpost : y.postFreeze.frozen = y.frozen ∧ y.postFreeze.staged = y.staged ∧ ∀ f, y.postFreeze.canDma f = y.canDma f := by
    unfold Dev.postFreeze
    split
    · exact ⟨rfl, rfl, fun _ => rfl⟩
    · have hkept (z : Dev) (c fn n : Nat) := z.post_kept 0x51 3 c fn n 0 fn
      exact ⟨(hkept _ _ _ _).frozen, (hkept _ _ _ _).parts.2.2.2.2.2.1, fun f => (hkept _ _ _ _).canDma f⟩
  obtain ⟨hpf, hps, hpd⟩ := hpost
  refine ⟨?_, ?_, fun f => ?_⟩
  · rw [Dev.settle_frozen, hpf, hresume.frozen, hfree]
  · have hst : y.postFreeze.settle.staged = y.postFreeze.staged := by simp only [Dev.settle_keeps]
    rw [hst, hps, hresume.parts.2.2.2.2.2.1, hstaged]
  · rw [Dev.settle_canDma, hpd, hresume.canDma, Dev.canDma, hfn, hfree, hup', hpme]
    simp only [Bool.not_false, Bool.and_true]

theorem gives_containRelease_refused {s : State} (hfrozen : s.dev.frozen = true) (hdown : s.dev.linkUp = false) :
    Gives .containRelease s fun e => e.frozen = true ∧ Raised e .hif 3 ∧ Frame s.dev e [] [] := by
  refine gives_of_exec_eq_act (exec_containRelease s) ?_
  have heq : s.dev.containRelease = s.dev.refuse .hif := by
    simp only [Dev.containRelease, hfrozen, hdown, Bool.not_true, Bool.not_false, Bool.false_eq_true, if_false, if_true]
  have hframe : Frame s.dev (s.dev.refuse .hif).settle [] [] := ((Frame.refl _ _ _).reports (Dev.refuse_reports _ _)).settle
  rw [if_neg (by rw [hdown]; exact Bool.false_ne_true), heq]
  refine ⟨?_, Dev.settle_raised _ _ _ (Dev.refuse_raised _ _), hframe⟩
  rw [Dev.frozen, Dev.rdB, hframe.rd Reg.HIF_CONTAIN_frozen]
  exact hfrozen

theorem gives_containRelease_of_free {s : State} (hfree : s.dev.frozen = false) (h : HostReaches s.dev 0 .hif) :
    Gives .containRelease s fun e => Frame s.dev e [] [] := by
  refine gives_containRelease_of_reached h fun d hd => ?_
  have heq : d.containRelease = d := by
    simp only [Dev.containRelease, hd.frozen, hfree, Bool.not_false, if_true]
  rw [heq]
  exact (Frame.of_woken hd _ _).settle

theorem gives_containLogClr {s : State} (h : HostReaches s.dev 0 .hif) : Gives .containLogClr s fun e =>
    e.frozen = s.dev.frozen ∧ e.rd Reg.HIF_CONTAIN_fn = 0 ∧ e.rd Reg.HIF_CONTAIN_count = 0 ∧ e.rd Reg.HIF_CONTAIN_cause = 0 ∧
    e.rd Reg.HIF_CONTAIN_TS_ts = 0 ∧ OnlyFields s.dev e [Reg.HIF_CONTAIN_fn, Reg.HIF_CONTAIN_count,
      Reg.HIF_CONTAIN_cause, Reg.HIF_CONTAIN_TS_ts] := by
  refine gives_of_exec_eq_atFn (show exec .containLogClr s = s.act fun d => d.atFn 0 .hif Dev.containLogClr from rfl) h fun d hd => ?_
  have hframe : Frame s.dev d.containLogClr.settle [Reg.HIF_CONTAIN_fn, Reg.HIF_CONTAIN_count,
      Reg.HIF_CONTAIN_cause, Reg.HIF_CONTAIN_TS_ts] [] := (((((Frame.of_woken hd _ _).wr _ _).wr _ _).wr _ _).wr _ _).settle
  have heq : d.containLogClr = ((((d.wr Reg.HIF_CONTAIN_fn 0).wr Reg.HIF_CONTAIN_count 0).wr Reg.HIF_CONTAIN_cause 0).wr
      Reg.HIF_CONTAIN_TS_ts 0) := rfl
  have hother (e : Dev) (f g : Fld) (x : Nat) (h : g.key ≠ f.key := by decide) : (e.wr f x).rd g = e.rd g := e.rd_wr_other f g x h
  refine ⟨?_, ?_, ?_, ?_, ?_, hframe.1⟩
  · simp only [Dev.frozen, Dev.rdB, hframe.rd Reg.HIF_CONTAIN_frozen]
  · rw [Dev.settle_rd _ _ (by decide), heq, hother _ _ _ _, hother _ _ _ _, hother _ _ _ _, Dev.rd_wr_same]; rfl
  · rw [Dev.settle_rd _ _ (by decide), heq, hother _ _ _ _, hother _ _ _ _, Dev.rd_wr_same]; rfl
  · rw [Dev.settle_rd _ _ (by decide), heq, hother _ _ _ _, Dev.rd_wr_same]; rfl
  · rw [Dev.settle_rd _ _ (by decide), heq, Dev.rd_wr_same]; rfl

/-- Settles O23: the freeze begins once, and ends by a release over a link that is up. -/
theorem containmentFreeze : Obligations.ContainmentFreeze := by
  intro cause fn s hfn
  exact ⟨gives_containment hfn, gives_containment_again hfn, gives_containRelease, gives_containRelease_refused,
    gives_containRelease_of_free, gives_containLogClr⟩

end Sys2Proof
end

section
/-! The end of a command: what its completion, its record and its silence change (R71, R89, R99). -/

set_option Elab.async false

namespace Sys2Proof

open Sys2Proof.Machine

/-! ### Frames -/

section

variable {a d : Dev} {fs : List Fld} {ps : List Part} (h : Frame a d fs ps)
include h

theorem Frame.updRec (f adm : Nat) (g : OlRec → OlRec) (hp : Part.dram ∈ ps := by decide) : Frame a (d.updRec f adm g) fs ps :=
  h.updOlog f _ hp

theorem Frame.updCmd (adm : Nat) (g : Cmd → Cmd) (hp : Part.qmx ∈ ps := by decide) : Frame a (d.updCmd adm g) fs ps :=
  h.setQmx _ hp

theorem Frame.drainSq (q : Nat) (hf : Reg.QD_SQ_STAT_state.ix q ∈ fs) : Frame a (d.drainSq q) fs ps :=
  .ite (h.wr _ _ hf) h

theorem Frame.updFn (f : Nat) (g : FnState → FnState) : Frame a (d.updFn f g) fs ps := h.reports (Dev.updFn_reports _ _ _)

end

/-- What changes some fields and parts for every element of a list. -/
theorem Frame.forEachMem {α : Type} {fs : List Fld} {ps : List Part} {f : α → Dev → Dev} {a : Dev} (xs : List α)
    (h : ∀ x ∈ xs, ∀ e, Frame a e fs ps → Frame a (f x e) fs ps) : ∀ d, Frame a d fs ps → Frame a (Machine.forEach xs f d) fs ps := by
  induction xs with
  | nil => exact fun _ hd => hd
  | cons x xs ih =>
    exact fun d hd => ih (fun y hy => h y (List.mem_cons_of_mem x hy)) _ (h x List.mem_cons_self d hd)

/-! ### Completions -/

/-- The fields that a posted completion may change. -/
def Machine.Cpl.fields (c : Cpl) : List Fld :=
  [Reg.QD_CQ_PTR_tail.ix c.cq, Reg.QD_CQ_STAT_phase.ix c.cq, Reg.QD_SQ_STAT_state.ix c.sq] ++ c.woken.map Reg.AR_PWR_LP_count.ix

theorem Frame.putCpl {a d : Dev} {ps : List Part} {c : Cpl} (h : Frame a d c.fields ps) (hp : Part.dram ∈ ps := by decide) :
    Frame a (d.putCpl c) c.fields ps := by
  have htail (m n : Nat) (bs : Bytes) : Frame a ((d.writeHost c.fn m bs false).wr (Reg.QD_CQ_PTR_tail.ix c.cq) n) c.fields ps :=
    (h.reports (Dev.writeHost_reports _ _ _ _ _)).wr _ _ (by simp [Cpl.fields])
  have hlow {x : Nat} (hx : x ∈ c.woken) : Reg.AR_PWR_LP_count.ix x ∈ c.fields :=
    List.mem_append_right _ (List.mem_map_of_mem hx)
  unfold Dev.putCpl
  dsimp only
  refine Frame.forEachMem _ (fun x hx e he => he.incSat _ _ (hlow hx)) _ (Frame.updRec ?_ _ _ _ hp)
  split
  · exact (htail _ _ _).wr _ _ (by simp [Cpl.fields])
  · exact htail _ _ _

theorem Frame.writeCpl {a d : Dev} {ps : List Part} {c : Cpl} (h : Frame a d c.fields ps) (hp : Part.dram ∈ ps := by decide) :
    Frame a (d.writeCpl c) c.fields ps := by
  unfold Dev.writeCpl Dev.raiseCq
  split
  · exact (h.putCpl hp).reports (Dev.raiseVec_reports _ _ _)
  · exact h.putCpl hp

theorem Frame.postCpl {a d : Dev} {ps : List Part} {c : Cpl} (h : Frame a d c.fields ps) (hp : Part.dram ∈ ps := by decide) :
    Frame a (d.postCpl c) c.fields ps := by
  have hsq : Reg.QD_SQ_STAT_state.ix c.sq ∈ c.fields := by simp [Cpl.fields]
  unfold Dev.postCpl
  split
  · exact ((h.drainSq _ hsq).writeCpl hp).drainSq _ hsq
  · exact h.updFn _ _

namespace Machine

/-- Whether two fields lie at different places of their 64-byte lines, whatever their indexes. -/
def Fld.offLine (f g : Fld) : Bool :=
  decide ((f.dims.head?.map Prod.fst).getD 0 % 64 = 0) && decide ((g.dims.head?.map Prod.fst).getD 0 % 64 = 0) &&
    decide (f.key % 4096 ≠ g.key % 4096)

theorem Fld.ix_key_mod (f : Fld) (i : Nat) (h : (f.dims.head?.map Prod.fst).getD 0 % 64 = 0) : (f.ix i).key % 4096 = f.key % 4096 := by
  obtain ⟨n, hn⟩ := Nat.dvd_of_mod_eq_zero h
  rw [Fld.ix_key, hn, show f.key + 64 * n * i * 64 = f.key + 4096 * (n * i) by ring]
  exact Nat.add_mul_mod_self_left _ _ _

theorem Fld.offLine_key_ne {f g : Fld} (h : f.offLine g = true) (i j : Nat) : (f.ix i).key ≠ (g.ix j).key := by
  simp only [Fld.offLine, Bool.and_eq_true, decide_eq_true_eq] at h
  obtain ⟨⟨hf, hg⟩, hne⟩ := h
  intro he
  exact hne (by rw [← f.ix_key_mod i hf, he, g.ix_key_mod j hg])

theorem Dev.drainSq_rd (d : Dev) (q i : Nat) (f : Fld) (h : f.offLine Reg.QD_SQ_STAT_state = true := by decide) :
    (d.drainSq q).rd (f.ix i) = d.rd (f.ix i) := by
  unfold Dev.drainSq
  split
  · exact Dev.rd_wr_other _ _ _ _ (Fld.offLine_key_ne h i q)
  · rfl

theorem Dev.drainSq_qmx (d : Dev) (q : Nat) : (d.drainSq q).qmx = d.qmx ∧ (d.drainSq q).dram = d.dram ∧
    (d.drainSq q).hif = d.hif := by
  unfold Dev.drainSq
  split <;> exact ⟨rfl, rfl, rfl⟩

/-- Where a posted completion puts its queue's tail. -/
theorem Dev.putCpl_tail (d : Dev) (c : Cpl) : (d.putCpl c).rd (Reg.QD_CQ_PTR_tail.ix c.cq) =
    (d.rd (Reg.QD_CQ_PTR_tail.ix c.cq) + 1) % d.cqDepth c.cq % 2 ^ 16 := by
  have hlow (xs : List Nat) (e : Dev) : (forEach xs (fun x d => d.incSat (Reg.AR_PWR_LP_count.ix x)) e).rd
      (Reg.QD_CQ_PTR_tail.ix c.cq) = e.rd (Reg.QD_CQ_PTR_tail.ix c.cq) :=
    forEach_induct (P := fun x => x.rd (Reg.QD_CQ_PTR_tail.ix c.cq) = e.rd (Reg.QD_CQ_PTR_tail.ix c.cq))
      (fun x y hy => (Dev.rd_incSat_other _ _ _ _ (Fld.offLine_key_ne (by decide) _ _)).trans hy) xs e rfl
  have hwritten (m : Nat) (bs : Bytes) (n : Nat) : ((d.writeHost c.fn m bs false).wr (Reg.QD_CQ_PTR_tail.ix c.cq) n).rd
      (Reg.QD_CQ_PTR_tail.ix c.cq) = n % 2 ^ 16 := by
    rw [Dev.rd_wr_same, Fld.ix_width]
    rfl
  unfold Dev.putCpl
  dsimp only
  rw [hlow]
  show Dev.rd (if _ then _ else _) _ = _
  split
  · exact (Dev.rd_wr_ix _ _ _ _ _ (by decide)).trans (hwritten _ _ _)
  · exact hwritten _ _ _

/-! ### Records (R99) -/

theorem Tbl.mem_of_get? {α : Type} {t : Tbl α} {k : Nat} {v : α} (h : Tbl.get? t k = some v) : ∃ p ∈ t, p.2 = v := by
  induction t with
  | nil => cases h
  | cons p t ih =>
    obtain ⟨n, w⟩ := p
    rw [Tbl.get?] at h
    split at h
    · exact ⟨(n, w), List.mem_cons_self, Option.some.inj h⟩
    · obtain ⟨p, hp, hv⟩ := ih h
      exact ⟨p, List.mem_cons_of_mem _ hp, hv⟩

/-- A function's record of a command is final with a status. -/
def Dev.RecordedAs (d : Dev) (f adm status : Nat) : Prop :=
  ∀ p ∈ (d.olog f).recs, p.2.adm = adm → p.2.final = true ∧ p.2.status = status

theorem Dev.RecordedAs.of_dram {d e : Dev} {f adm status : Nat} (h : d.RecordedAs f adm status) (hd : e.dram = d.dram) :
    e.RecordedAs f adm status := by
  rw [Dev.RecordedAs, Dev.olog, hd]
  exact h

theorem Dev.updRec_recs (d : Dev) (f adm : Nat) (g : OlRec → OlRec) : ((d.updRec f adm g).olog f).recs =
    (d.olog f).recs.map fun p => if p.2.adm = adm then (p.1, { g p.2 with ts := d.now }) else p := by
  rw [Dev.updRec, Dev.olog_updOlog]

/-- A change of a command's record that makes it final. -/
theorem Dev.recordedAs_updRec (d : Dev) (f : Nat) {adm status : Nat} {g : OlRec → OlRec}
    (hg : ∀ r, (g r).final = true ∧ (g r).status = status) : (d.updRec f adm g).RecordedAs f adm status := by
  intro p hp hadm
  rw [Dev.updRec_recs] at hp
  obtain ⟨q, -, rfl⟩ := List.mem_map.mp hp
  by_cases hq : q.2.adm = adm
  · rw [if_pos hq]
    exact hg q.2
  · rw [if_neg hq] at hadm
    exact absurd hadm hq

/-- A change that leaves what a record says of its command's end. -/
theorem Dev.RecordedAs.updRec {d : Dev} {f adm status : Nat} (h : d.RecordedAs f adm status) (n : Nat) {g : OlRec → OlRec}
    (hg : ∀ r, (g r).adm = r.adm ∧ (g r).final = r.final ∧ (g r).status = r.status) : (d.updRec f n g).RecordedAs f adm status := by
  intro p hp hadm
  rw [Dev.updRec_recs] at hp
  obtain ⟨q, hq, rfl⟩ := List.mem_map.mp hp
  by_cases hn : q.2.adm = n
  · rw [if_pos hn] at hadm ⊢
    obtain ⟨hga, hgf, hgs⟩ := hg q.2
    show (g q.2).final = true ∧ (g q.2).status = status
    rw [hgf, hgs]
    exact h q hq (hga.symm.trans hadm)
  · rw [if_neg hn] at hadm ⊢
    exact h q hq hadm

theorem Dev.RecordedAs.putCpl {d : Dev} {c : Cpl} {adm status : Nat} (h : d.RecordedAs c.fn adm status) :
    (d.putCpl c).RecordedAs c.fn adm status := by
  unfold Dev.putCpl
  dsimp only
  refine forEach_induct (P := fun e : Dev => e.RecordedAs c.fn adm status) (f := fun a d => d.incSat (Reg.AR_PWR_LP_count.ix a))
    (fun x e he => he.of_dram rfl) _ _ ?_
  refine Dev.RecordedAs.updRec ?_ _ fun _ => ⟨rfl, rfl, rfl⟩
  have hwritten (m : Nat) (bs : Bytes) : (d.writeHost c.fn m bs false).dram = d.dram :=
    ((Frame.refl d [] []).reports (Dev.writeHost_reports _ _ _ _ _)).part .dram
  refine h.of_dram ?_
  split
  · simp only [Dev.wrB, Dev.wr_keeps, hwritten]
  · simp only [Dev.wr_keeps, hwritten]

theorem Dev.RecordedAs.postCpl {d : Dev} {c : Cpl} {adm status : Nat} (h : d.RecordedAs c.fn adm status) :
    (d.postCpl c).RecordedAs c.fn adm status := by
  unfold Dev.postCpl
  split
  · refine Dev.RecordedAs.of_dram ?_ (Dev.drainSq_qmx _ _).2.1
    unfold Dev.writeCpl Dev.raiseCq
    have hdrained : (d.drainSq c.sq).RecordedAs c.fn adm status := h.of_dram (Dev.drainSq_qmx d c.sq).2.1
    have hput := Dev.RecordedAs.putCpl hdrained
    split
    · exact hput.of_dram (((Frame.refl _ [] []).reports (Dev.raiseVec_reports _ _ _)).part .dram)
    · exact hput
  · exact h.of_dram rfl

/-! ### The end of a command -/

/-- The status that a command ends with when it is ended with one: a write-class command all of whose blocks took effect
ends SUCCESS. -/
def Cmd.endStatus (c : Cmd) (status : Nat) : Nat :=
  if isWriteClass (eOpcode c.entry) && decide (eCount c.entry ≤ c.persist) && decide (0 < eCount c.entry) && status ≠ ssLostWrite
    then ssSuccess else status

/-- The dw3 that a command ends with (R89). -/
def Cmd.endDw3 (c : Cmd) (status dw3 : Nat) : Nat :=
  if flagPf c (c.endStatus status) then c.inCache
  else if [ssTagMismatch, ssHostTimeout, ssPoisoned, ssAbortedBme].contains (c.endStatus status) then 0
  else if isWriteClass (eOpcode c.entry) && c.endStatus status = ssOffline then c.persist else dw3

/-- The final record of a command. -/
def Dev.recordEnd (d : Dev) (c : Cmd) (status : Nat) : Dev :=
  d.updRec c.fn c.adm fun r => { r with
    state := if isWriteClass (eOpcode c.entry) then olStateOf c.persist (eCount c.entry) else olComplete
    persist := if isWriteClass (eOpcode c.entry) then c.persist else 0
    status := c.endStatus status, final := true, pf := flagPf c (c.endStatus status), rc := flagRc c
    lp := decide (c.waited ≠ []), de := flagDe d (deVolumes d c) }

/-- A command leaves with its reads. -/
def Dev.dropCmd (d : Dev) (adm : Nat) : Dev :=
  { d.dropReads (kindIsCmd adm) with qmx := { d.qmx with cmds := d.qmx.cmds.filter fun x => x.adm ≠ adm } }

/-- The completion of a command. -/
def Dev.endCpl (d : Dev) (c : Cmd) (status dw3 : Nat) : Cpl :=
  ⟨c.fn, c.cq, c.q, c.slot, eCmdTag c.entry, c.adm % 2 ^ 32, c.adm, flagPf c (c.endStatus status), flagRc c, c.waited,
    deVolumes d c, c.endStatus status, c.endDw3 status dw3⟩

theorem Dev.cmd?_adm {d : Dev} {adm : Nat} {c : Cmd} (h : d.cmd? adm = some c) : c.adm = adm := by
  simpa using List.find?_some h

theorem Dev.endCmd_eq {d : Dev} {adm : Nat} {c : Cmd} (h : d.cmd? adm = some c) (status dw3 : Nat) :
    d.endCmd adm status dw3 = if c.silent then ((d.recordEnd c status).dropCmd adm).drainSq c.q
      else ((d.recordEnd c status).dropCmd adm).postCpl (d.endCpl c status dw3) := by
  obtain rfl := Dev.cmd?_adm h
  simp only [Dev.endCmd, h]
  rfl

theorem Dev.recordEnd_recordedAs (d : Dev) (c : Cmd) (status : Nat) :
    (d.recordEnd c status).RecordedAs c.fn c.adm (c.endStatus status) := d.recordedAs_updRec c.fn fun _ => ⟨rfl, rfl⟩

theorem Dev.dropCmd_gone (d : Dev) (adm : Nat) : (d.dropCmd adm).cmd? adm = none := by
  simp [Dev.cmd?, Dev.dropCmd]

end Machine

theorem Frame.endCmd {a d : Dev} {ps : List Part} {adm : Nat} {c : Cmd} (h : Frame a d (endFields c) ps) (hc : d.cmd? adm = some c)
    (status dw3 : Nat) (hd : Part.dram ∈ ps := by decide) (hq : Part.qmx ∈ ps := by decide) (hh : Part.host ∈ ps := by decide) :
    Frame a (d.endCmd adm status dw3) (endFields c) ps := by
  have hdropped : Frame a ((d.recordEnd c status).dropCmd adm) (endFields c) ps :=
    ((h.updRec _ _ _ hd).dropReads _ hh).setQmx _ hq
  rw [Dev.endCmd_eq hc]
  split
  · exact hdropped.drainSq _ (by simp [endFields])
  · exact Frame.postCpl (c := d.endCpl c status dw3) hdropped hd

/-- Where the completion of a function that may post goes. -/
theorem Machine.Dev.postCpl_tail {d : Dev} {c : Cpl} (h : d.canPost c.fn = true) (hheld : (d.fn c.fn).held = []) :
    (d.postCpl c).rd (Reg.QD_CQ_PTR_tail.ix c.cq) = (d.rd (Reg.QD_CQ_PTR_tail.ix c.cq) + 1) % d.cqDepth c.cq % 2 ^ 16 := by
  have hkept (x : Dev) (g : Fld) (hg : g.offLine Reg.QD_SQ_STAT_state = true) : (x.drainSq c.sq).rd (g.ix c.cq) = x.rd (g.ix c.cq) :=
    x.drainSq_rd c.sq c.cq g hg
  have hraise (x : Dev) : (x.raiseCq c.fn c.cq).rd (Reg.QD_CQ_PTR_tail.ix c.cq) = x.rd (Reg.QD_CQ_PTR_tail.ix c.cq) := by
    unfold Dev.raiseCq
    split
    · exact Dev.raiseVec_rd _ _ _ _
    · rfl
  rw [Dev.postCpl, if_pos (by simp [h, hheld]), hkept _ _ (by decide), Dev.writeCpl, hraise, Dev.putCpl_tail, Dev.cqDepth,
    hkept _ _ (by decide), hkept _ _ (by decide), Dev.cqDepth]

/-- The completion of a function that may not post is held. -/
theorem Machine.Dev.postCpl_held {d : Dev} {c : Cpl} (h : d.canPost c.fn = false) :
    ((d.postCpl c).fn c.fn).held = (d.fn c.fn).held ++ [c] := by
  rw [Dev.postCpl, if_neg (by simp [h]), Dev.fn_updFn]

theorem Machine.Dev.recordedAs_settle {d : Dev} {f adm status : Nat} (h : d.RecordedAs f adm status) :
    d.settle.RecordedAs f adm status := h.of_dram d.settle_dram

/-- A command that is ended has ended. -/
theorem Ended.of_endCmd {d : Dev} {adm : Nat} {c : Cmd} (h : d.cmd? adm = some c) (status dw3 : Nat) :
    Ended d (d.endCmd adm status dw3).settle c (c.endStatus status) (c.endDw3 status dw3) := by
  obtain rfl := Dev.cmd?_adm h
  have hrec : ((d.recordEnd c status).dropCmd c.adm).RecordedAs c.fn c.adm (c.endStatus status) :=
    (d.recordEnd_recordedAs c status).of_dram rfl
  have hgone := (d.recordEnd c status).dropCmd_gone c.adm
  have hcan : ((d.recordEnd c status).dropCmd c.adm).canPost c.fn = d.canPost c.fn := rfl
  have hfn : ((d.recordEnd c status).dropCmd c.adm).fn c.fn = d.fn c.fn := rfl
  have hrd (g : Fld) : ((d.recordEnd c status).dropCmd c.adm).rd g = d.rd g := rfl
  have hfinal {e : Dev} (he : e.RecordedAs c.fn c.adm (c.endStatus status)) (k : Nat) (r : OlRec)
      (hr : Tbl.get? (e.olog c.fn).recs k = some r) (hadm : r.adm = c.adm) : r.final = true ∧ r.status = c.endStatus status := by
    obtain ⟨p, hp, rfl⟩ := Tbl.mem_of_get? hr
    exact he p hp hadm
  rw [Dev.endCmd_eq h]
  generalize (d.recordEnd c status).dropCmd c.adm = x at *
  have hqmx {e : Dev} (he : e.qmx = x.qmx) : e.settle.cmd? c.adm = none := by
    rw [Dev.cmd?, Dev.settle_qmx, he]
    exact hgone
  split
  · next hs =>
    refine ⟨hqmx (Dev.drainSq_qmx _ _).1, fun k r => hfinal (hrec.of_dram ?_) k r, fun hn => ?_, fun hn => ?_⟩
    · rw [Dev.settle_dram, (Dev.drainSq_qmx _ _).2.1]
    · exact absurd (hs.symm.trans hn) (by decide)
    · exact absurd (hs.symm.trans hn) (by decide)
  · have hpost : Frame x (x.postCpl (d.endCpl c status dw3)) (d.endCpl c status dw3).fields [.dram] :=
      Frame.postCpl (Frame.refl _ _ _)
    refine ⟨hqmx (hpost.part .qmx), fun k r => hfinal (Dev.recordedAs_settle (Dev.RecordedAs.postCpl hrec)) k r,
      fun _ hp hh => ?_, fun _ hp => ⟨d.endCpl c status dw3, ?_, rfl, rfl, rfl, rfl⟩⟩
    · have htail := Dev.postCpl_tail (d := x) (c := d.endCpl c status dw3) (hcan.trans hp) ((congrArg FnState.held hfn).trans hh)
      have hcq : (d.endCpl c status dw3).cq = c.cq := rfl
      rw [hcq, Dev.cqDepth, hrd, hrd] at htail
      exact (Dev.settle_high _ Reg.QD_CQ_PTR_tail c.cq).trans htail
    · have hheld := Dev.postCpl_held (d := x) (c := d.endCpl c status dw3) (hcan.trans hp)
      rw [Dev.settle_fn]
      exact hheld.trans (congrArg (fun y : FnState => y.held ++ [d.endCpl c status dw3]) hfn)

end Sys2Proof
end

section
/-! The host's read tags: granting, completion, timeout, quarantine (R48 to R53). -/

set_option Elab.async false

namespace Sys2Proof

open Sys2Proof.Machine

/-! ### Granting -/

theorem gives_tagGrant {s : State} {r : ReadReq} {w : List ReadReq} {id : Nat} (hw : s.dev.hif.waiting = r :: w)
    (hturn : r.fn = s.dev.hif.grantNext) (hfn : r.fn < 65) (hmay : s.dev.mayTakeTag r.fn = true)
    (hid : s.dev.freeTagId = some id) (hok : s.dev.bmeReadOk r = none) : Gives .tagGrant s fun e =>
      e.hif.waiting = w ∧ e.hif.tags = s.dev.hif.tags ++ [⟨id, r.fn, r.kind, r.addr, r.len, r.retried, false, false⟩] ∧
      (.memRead r.fn id r.addr r.len :: s.dev.emitted) <:+ e.emitted ∧ OnlyFields s.dev e [] := by
  refine gives_of_exec_eq_act (show exec .tagGrant s = s.act Dev.tagGrant from rfl) ?_
  have horder : (List.range 65).map (fun i => (s.dev.hif.grantNext + i) % 65) =
      r.fn :: ((List.range 64).map Nat.succ).map fun i => (s.dev.hif.grantNext + i) % 65 := by
    rw [List.range_succ_eq_map, List.map_cons, Nat.add_zero, ← hturn, Nat.mod_eq_of_lt hfn]
  have heq : s.dev.tagGrant = { s.dev with hif := { s.dev.hif with waiting := w, grantNext := (r.fn + 1) % 65 } }.sendRead r id := by
    have hok' (n : Nat) : Dev.bmeReadOk { s.dev with hif := { s.dev.hif with waiting := w, grantNext := n } } r = none := hok
    simp only [Dev.tagGrant, horder, List.find?_cons, hmay, hw, List.any_cons, decide_true, Bool.true_or, Bool.and_self,
      hid, List.erase_cons_head, hok']
  have hframe (x : HifState) : Frame s.dev ({ s.dev with hif := x }.sendRead r id).settle [] [.host] :=
    (Frame.sendRead ((Frame.refl s.dev [] [.host]).setHif x) r id).settle
  rw [heq]
  have hsent (d : Dev) : (d.sendRead r id).hif.waiting = d.hif.waiting ∧ (d.sendRead r id).hif.tags = d.hif.tags ++
      [⟨id, r.fn, r.kind, r.addr, r.len, r.retried, false, false⟩] ∧
      (d.sendRead r id).emitted = .memRead r.fn id r.addr r.len :: d.emitted := by
    simp only [Dev.sendRead, Dev.exitL1]
    split <;> exact ⟨rfl, rfl, rfl⟩
  obtain ⟨hwaiting, htags, hemitted⟩ := hsent { s.dev with hif := { s.dev.hif with waiting := w, grantNext := (r.fn + 1) % 65 } }
  refine ⟨?_, ?_, Dev.settle_sends hemitted, (hframe _).1⟩
  · simp only [Dev.settle_keeps_hif, hwaiting]
  · simp only [Dev.settle_keeps_hif, htags]

/-! ### Completions of entry fetches -/

/-- The entries that a fetch's data fill. -/
def fetchFilled (q slot n : Nat) (data : Bytes) (e : Fetched) : Fetched :=
  if e.q = q ∧ slot ≤ e.slot ∧ e.slot < slot + n ∧ e.data = none then
    { e with data := some (dwordsOf 16 (data.drop (64 * (e.slot - slot)))) }
  else e

theorem Machine.Dev.hostData_entries {d : Dev} {tag q slot n : Nat} {t : Tag} (ht : d.tag? tag = some t) (hquar : t.quar = false)
    (hdoomed : t.doomed = false) (hkind : t.kind = .entries q slot n) (data : Bytes) : d.hostData tag data false =
      { d.freeTag tag with qmx := { d.qmx with fetched := d.qmx.fetched.map (fetchFilled q slot n (padB t.len data)) } } := by
  simp only [Dev.hostData, ht, hquar, hkind, hdoomed, Bool.false_eq_true, if_false, Bool.or_false]
  rfl

namespace Machine

/-- e is d but for the registers, BME's state and the free choices: what BME stores touches nothing else of the device. -/
def Dev.SameWork (d e : Dev) : Prop := e.hif = d.hif ∧ e.qmx = d.qmx

theorem State.spaceWrite_sameWork (s : State) (space a : Nat) (bs : Bytes) : Dev.SameWork s.dev (s.spaceWrite space a bs).dev := by
  unfold State.spaceWrite
  dsimp only
  split <;> exact ⟨rfl, rfl⟩

theorem State.racedWrite_sameWork (s : State) (space a : Nat) (bs : Bytes) (raced : List (Nat × Nat)) :
    Dev.SameWork s.dev (s.racedWrite space a bs raced).dev := by
  unfold State.racedWrite
  dsimp only
  split
  · exact s.spaceWrite_sameWork _ _ _
  · exact ⟨(s.spaceWrite_sameWork _ _ _).1, (s.spaceWrite_sameWork _ _ _).2⟩

theorem State.bmeStore_sameWork (fuel c : Nat) : ∀ s : State, Dev.SameWork s.dev (State.bmeStore fuel c s).dev := by
  induction fuel with
  | zero => exact fun s => ⟨rfl, rfl⟩
  | succ n ih =>
    intro s
    unfold State.bmeStore
    dsimp only
    split
    · exact ⟨rfl, rfl⟩
    · next bs _ =>
      obtain ⟨hhif, hqmx⟩ := s.racedWrite_sameWork (s.dev.rd (Reg.BME_ACT_CFG_dst_space.ix c))
        (s.dev.rd (Reg.BME_ACT_DST_addr.ix c) + s.dev.rd (Reg.BME_CH_DONE_bytes.ix c)) bs (s.dev.bmeCh c).raced
      refine ⟨(ih _).1.trans ?_, (ih _).2.trans ?_⟩
      · exact hhif
      · exact hqmx

theorem State.bmeStoreAll_sameWork (s : State) : Dev.SameWork s.dev s.bmeStoreAll.dev :=
  forEach_induct (P := fun t : State => Dev.SameWork s.dev t.dev)
    (fun c t ht => ⟨(State.bmeStore_sameWork _ c t).1.trans ht.1, (State.bmeStore_sameWork _ c t).2.trans ht.2⟩) _ s ⟨rfl, rfl⟩

end Machine

theorem ends_hostReadCompletion {s : State} {tag q slot n : Nat} {t : Tag} (data : Bytes) (ht : s.dev.tag? tag = some t)
    (hquar : t.quar = false) (hdoomed : t.doomed = false) (hkind : t.kind = .entries q slot n) :
    Ends (.hostReadCompletion tag data false) s fun u =>
      (∀ x ∈ u.dev.hif.tags, x.id ≠ tag) ∧ u.pending = s.pending ∧ u.dev.qmx.cmds = s.dev.qmx.cmds ∧
      ∀ x ∈ s.dev.qmx.fetched, x.q = q → slot ≤ x.slot → x.slot < slot + n → x.data = none →
        ∃ y ∈ u.dev.qmx.fetched, y.q = q ∧ y.slot = x.slot ∧
          y.data = some (dwordsOf 16 ((padB t.len data).drop (64 * (x.slot - slot)))) := by
  refine ⟨_, exec_hostReadCompletion tag data false s, ?_⟩
  have htags : (s.dev.hostData tag data false).settle.hif.tags = s.dev.hif.tags.filter fun x => x.id ≠ tag := by
    rw [Dev.hostData_entries ht hquar hdoomed hkind]
    simp only [Dev.settle_keeps_hif, Dev.freeTag]
  have hqmx : (s.dev.hostData tag data false).settle.qmx =
      { s.dev.qmx with fetched := s.dev.qmx.fetched.map (fetchFilled q slot n (padB t.len data)) } := by
    rw [Dev.hostData_entries ht hquar hdoomed hkind, Dev.settle_qmx]
  generalize (s.dev.hostData tag data false).settle = e at *
  obtain ⟨hhif', hqmx'⟩ := State.bmeStoreAll_sameWork { s with dev := e }
  have hpending := (State.bmeStoreAll_movesBytes { s with dev := e }).pending
  generalize State.bmeStoreAll { s with dev := e } = u at *
  refine ⟨fun x hx => ?_, hpending, ?_, fun x hx hq hlo hhi hnone => ?_⟩
  · rw [hhif', htags, List.mem_filter, decide_eq_true_eq] at hx
    exact hx.2
  · rw [hqmx', hqmx]
  · rw [hqmx', hqmx]
    refine ⟨_, List.mem_map_of_mem hx, ?_⟩
    rw [fetchFilled, if_pos ⟨hq, hlo, hhi, hnone⟩]
    exact ⟨hq, rfl, rfl⟩

/-! ### Timeouts and the end of quarantine -/

namespace Machine

/-- A tag is held in quarantine. -/
def Dev.Quarantined (d : Dev) (tag : Nat) : Prop := ∃ x ∈ d.hif.tags, x.id = tag ∧ x.quar = true

variable {d e : Dev} {tag : Nat}

theorem Dev.Quarantined.of_tags (h : d.Quarantined tag) (he : e.hif.tags = d.hif.tags) : e.Quarantined tag := by
  rw [Dev.Quarantined, he]
  exact h

theorem Dev.Quarantined.dropReads (h : d.Quarantined tag) (mine : ReadKind → Bool) : (d.dropReads mine).Quarantined tag := by
  obtain ⟨x, hx, hid, hq⟩ := h
  refine ⟨_, List.mem_map_of_mem hx, ?_⟩
  split
  · exact ⟨hid, hq⟩
  · exact ⟨hid, hq⟩

theorem Dev.Quarantined.endCmd (h : d.Quarantined tag) (adm status dw3 : Nat) : (d.endCmd adm status dw3).Quarantined tag := by
  cases hc : d.cmd? adm with
  | none =>
    simp only [Dev.endCmd, hc]
    exact h
  | some c =>
    have hdropped : ((d.recordEnd c status).dropCmd adm).Quarantined tag :=
      Dev.Quarantined.of_tags (Dev.Quarantined.dropReads (d := d.recordEnd c status) h (kindIsCmd adm)) rfl
    rw [Dev.endCmd_eq hc]
    split
    · exact hdropped.of_tags (congrArg HifState.tags (Dev.drainSq_qmx _ _).2.2)
    · exact hdropped.of_tags ((Frame.postCpl (ps := [.dram]) (Frame.refl _ _ _)).part .host).1

theorem Dev.Quarantined.stopCmd (h : d.Quarantined tag) (adm status dw3 : Nat) : (d.stopCmd adm status dw3).Quarantined tag := by
  have hdropped := h.dropReads (kindIsCmd adm)
  unfold Dev.stopCmd
  split
  · exact h
  · dsimp only
    split
    · split
      · split
        · exact hdropped.endCmd _ _ _
        · exact hdropped.endCmd _ _ _
      · exact hdropped.endCmd _ _ _
    · exact hdropped

theorem Dev.Quarantined.bmeErr (h : d.Quarantined tag) (c x : Nat) : (d.bmeErr c x).Quarantined tag := by
  rcases d.bmeErr_tags c x with hsame | hdrop
  · exact h.of_tags hsame
  · exact (h.dropReads _).of_tags hdrop

theorem Dev.Quarantined.askRead (h : d.Quarantined tag) (r : ReadReq) : (d.askRead r).Quarantined tag := by
  have hsent (id : Nat) : (d.sendRead r id).Quarantined tag := by
    obtain ⟨x, hx, hid⟩ := h
    refine ⟨x, ?_, hid⟩
    simp only [Dev.sendRead, Dev.exitL1]
    split <;> exact List.mem_append_left _ hx
  unfold Dev.askRead
  split
  · split
    · exact hsent _
    · exact h
  · exact h

theorem Dev.Quarantined.fetchTimeout (h : d.Quarantined tag) (q slot : Nat) : (d.fetchTimeout q slot).Quarantined tag := by
  have hstate (x : Dev) (hx : x.Quarantined tag) : ((if x.sqState q = sqActive then x.wr (Reg.QD_SQ_STAT_state.ix q) sqFetchTimeout
      else x.drainSq q).causeBit .qmx 17 |>.errCorr .qmx 0x11).Quarantined tag := by
    refine hx.of_tags ?_
    show (ite _ _ _ : Dev).hif.tags = _
    split
    · rfl
    · exact congrArg HifState.tags (Dev.drainSq_qmx _ _).2.2
  unfold Dev.fetchTimeout
  dsimp only
  have hdropped (x : Dev) (hx : x.hif.tags = d.hif.tags) (mine : ReadKind → Bool) :
      ((x.dropReads mine).wr (Reg.QD_SQ_PTR_head.ix q) slot).Quarantined tag :=
    ((h.of_tags hx).dropReads mine).of_tags rfl
  refine hstate _ (hdropped _ ?_ _)
  rfl

theorem Dev.fetchTimeout_kept (d : Dev) (q slot : Nat) : Dev.WorkKept d (d.fetchTimeout q slot) := by
  unfold Dev.fetchTimeout
  dsimp only
  refine Dev.WorkKept.trans ?_ (Dev.errCorr_kept _ _ _)
  refine Dev.WorkKept.trans ?_ (Dev.causeBit_kept _ _ _)
  refine Dev.WorkKept.trans ?_ (.ite (.wr _ Reg.QD_SQ_STAT_state q _) (Dev.drainSq_kept _ q))
  refine Dev.WorkKept.trans ?_ (.wr _ Reg.QD_SQ_PTR_head q _)
  exact (Dev.fetched_kept _ _).trans (Dev.dropReads_kept _ _)

/-- A tag whose read timed out. -/
def Dev.quarantine (d : Dev) (tag : Nat) : Dev :=
  d.updHif fun h => { h with tags := h.tags.map fun x => if x.id = tag then { x with quar := true, kind := .dropped } else x }

/-- What the end of an outstanding read means for its work. -/
def Dev.readLost (d : Dev) (t : Tag) : Dev :=
  match t.kind with
  | .data adm _ | .crcs adm _ | .frags adm _ => d.stopCmd adm ssHostTimeout 0
  | .entries q slot n =>
    if t.retried then d.fetchTimeout q slot
    else d.askRead ⟨t.fn, .entries q slot n, t.addr, t.len, true⟩
  | .bme c _ => d.bmeErr c 3
  | .dropped | .droppedBme => d

/-- A timeout before its consequence: counted and logged. -/
def Dev.timeoutLogged (d : Dev) (f : Nat) : Dev :=
  (((d.incSat Reg.HIF_CTO_CNT_timeouts).aerUncorrError f 14).causeBit .hif 17).errCorr .hif 0x10

theorem Dev.complTimeout_eq {t : Tag} (ht : d.tag? tag = some t) (hquar : t.quar = false) :
    d.complTimeout tag = ((d.timeoutLogged t.fn).quarantine tag).readLost t := by
  simp only [Dev.complTimeout, ht, hquar, Bool.false_eq_true, if_false]
  rfl

theorem Dev.readLost_kept (d : Dev) (t : Tag) : Dev.WorkKept d (d.readLost t) := by
  unfold Dev.readLost
  split
  · exact d.stopCmd_kept _ _ _
  · exact d.stopCmd_kept _ _ _
  · exact d.stopCmd_kept _ _ _
  · exact .ite (d.fetchTimeout_kept _ _) (d.askRead_kept _)
  · exact d.bmeErr_kept _ _
  · exact .refl d
  · exact .refl d

theorem Dev.Quarantined.readLost (h : d.Quarantined tag) (t : Tag) : (d.readLost t).Quarantined tag := by
  unfold Dev.readLost
  split
  · exact h.stopCmd _ _ _
  · exact h.stopCmd _ _ _
  · exact h.stopCmd _ _ _
  · split
    · exact h.fetchTimeout _ _
    · exact h.askRead _
  · exact h.bmeErr _ _
  · exact h
  · exact h

theorem Dev.quarantined_quarantine {t : Tag} (ht : d.tag? tag = some t) : (d.quarantine tag).Quarantined tag := by
  have hid : t.id = tag := by simpa using List.find?_some ht
  refine ⟨_, List.mem_map_of_mem (List.mem_of_find?_eq_some ht), ?_⟩
  rw [if_pos hid]
  exact ⟨hid, rfl⟩

theorem Dev.aerUncorrError_logs (d : Dev) (f bit : Nat) :
    ((d.aerUncorrError f bit).fn f).aerUncorr = (d.fn f).aerUncorr ||| 2 ^ bit := by
  have hupd (k : Nat) : ((d.updFn f fun x => { x with aerUncorr := x.aerUncorr ||| 2 ^ bit, devStatus := x.devStatus ||| 2 ^ k }).fn
      f).aerUncorr = (d.fn f).aerUncorr ||| 2 ^ bit := by rw [Dev.fn_updFn]
  have hmsg (e : Dev) (k : Nat) : (e.errMessage f k).fn f = e.fn f := by
    unfold Dev.errMessage
    split
    · exact e.exitL1_woken.fn f
    · rfl
  unfold Dev.aerUncorrError
  generalize (if bitOf (d.aerSeverity f) bit then 2 else 1) = k
  dsimp only
  split
  · exact hupd _
  · rw [hmsg]
    exact hupd _

/-- The report of an unexpected completion. -/
theorem Dev.aerAdvisory_reports (d : Dev) (f bit : Nat) : Dev.Reports d (d.aerAdvisory f bit) := by
  unfold Dev.aerAdvisory
  exact .ite (Dev.updFn_reports _ _ _) (((Dev.updFn_reports _ _ _).trans (Dev.updFn_reports _ _ _)).trans (Dev.errMessage_reports _ _ _))

end Machine

theorem Frame.freeTag {a d : Dev} {fs : List Fld} {ps : List Part} (h : Frame a d fs ps) (tag : Nat)
    (hp : Part.host ∈ ps := by decide) : Frame a (d.freeTag tag) fs ps := h.setHif _ hp

theorem gives_completionTimeout {s : State} {tag : Nat} {t : Tag} (ht : s.dev.tag? tag = some t) (hquar : t.quar = false) :
    Gives (.completionTimeout tag) s fun e =>
      e.rd Reg.HIF_CTO_CNT_timeouts = min (s.dev.rd Reg.HIF_CTO_CNT_timeouts + 1) (2 ^ 32 - 1) ∧
      (∃ x ∈ e.hif.tags, x.id = tag ∧ x.quar = true) ∧ (e.fn t.fn).aerUncorr = (s.dev.fn t.fn).aerUncorr ||| 2 ^ 14 := by
  refine gives_of_exec_eq_act (show exec (.completionTimeout tag) s = s.act fun d => d.complTimeout tag from rfl) ?_
  have hcounted : (s.dev.incSat Reg.HIF_CTO_CNT_timeouts).rd Reg.HIF_CTO_CNT_timeouts =
      min (s.dev.rd Reg.HIF_CTO_CNT_timeouts + 1) (2 ^ 32 - 1) := Dev.rd_incSat_same _ _ _
  have haer := (s.dev.incSat Reg.HIF_CTO_CNT_timeouts).aerUncorrError_reports t.fn 14
  have hlogs := (s.dev.incSat Reg.HIF_CTO_CNT_timeouts).aerUncorrError_logs t.fn 14
  have hrd : (s.dev.timeoutLogged t.fn).rd Reg.HIF_CTO_CNT_timeouts = min (s.dev.rd Reg.HIF_CTO_CNT_timeouts + 1) (2 ^ 32 - 1) :=
    (haer.rd Reg.HIF_CTO_CNT_timeouts).trans hcounted
  have haerUncorr : ((s.dev.timeoutLogged t.fn).fn t.fn).aerUncorr = (s.dev.fn t.fn).aerUncorr ||| 2 ^ 14 := hlogs
  have htags : (s.dev.timeoutLogged t.fn).hif.tags = s.dev.hif.tags := by
    show ((s.dev.incSat Reg.HIF_CTO_CNT_timeouts).aerUncorrError t.fn 14).hif.tags = _
    rw [haer.same]
    rfl
  rw [Dev.complTimeout_eq ht hquar]
  generalize s.dev.timeoutLogged t.fn = x at *
  have ht' : x.tag? tag = some t := by rw [Dev.tag?, htags]; exact ht
  have hheld := Dev.quarantined_quarantine ht'
  have hlow : (x.quarantine tag).rd Reg.HIF_CTO_CNT_timeouts = x.rd Reg.HIF_CTO_CNT_timeouts := rfl
  have hfn : ((x.quarantine tag).fn t.fn).aerUncorr = (x.fn t.fn).aerUncorr := rfl
  generalize x.quarantine tag = y at *
  have hkept := y.readLost_kept t
  obtain hquarantined : ((y.readLost t).settle).Quarantined tag :=
    (hheld.readLost t).of_tags (by simp only [Dev.settle_keeps_hif])
  refine ⟨?_, hquarantined, ?_⟩
  · rw [Dev.settle_rd _ _ (by decide), hkept.low _ (by decide), hlow, hrd]
  · rw [Dev.settle_fn, hkept.aerUncorr, hfn, haerUncorr]

theorem gives_quarantineExpire {s : State} {tag : Nat} {t : Tag} (ht : s.dev.tag? tag = some t) (hquar : t.quar = true) :
    Gives (.quarantineExpire tag) s fun e =>
      e.hif.tags = s.dev.hif.tags.filter (fun x => x.id ≠ tag) ∧ OnlyFields s.dev e [] ∧ e.qmx = s.dev.qmx := by
  refine gives_of_exec_eq_act (show exec (.quarantineExpire tag) s = s.act fun d => d.quarExpire tag from rfl) ?_
  have heq : s.dev.quarExpire tag = s.dev.freeTag tag := by simp only [Dev.quarExpire, ht, hquar, if_true]
  have hframe : Frame s.dev (s.dev.freeTag tag).settle [] [.host] := ((Frame.refl _ _ _).freeTag tag).settle
  rw [heq]
  refine ⟨?_, hframe.1, hframe.part .qmx⟩
  simp only [Dev.settle_keeps_hif, Dev.freeTag]

theorem gives_unexpectedCompletion {s : State} {tag : Nat} {t : Tag}
    (h : s.dev.tag? tag = none ∨ (s.dev.tag? tag = some t ∧ t.quar = true)) : Gives (.unexpectedCompletion tag) s fun e =>
      e.rd Reg.HIF_LATE_CNT_late = min (s.dev.rd Reg.HIF_LATE_CNT_late + 1) (2 ^ 32 - 1) ∧
      (∀ x ∈ e.hif.tags, x.id ≠ tag) ∧ OnlyFields s.dev e [Reg.HIF_LATE_CNT_late] := by
  refine gives_of_exec_eq_act (show exec (.unexpectedCompletion tag) s = s.act fun d => d.unexpected tag from rfl) ?_
  have heq : s.dev.unexpected tag = s.dev.lateCompletion tag := by
    rcases h with hnone | ⟨hsome, hquar⟩
    · simp only [Dev.unexpected, hnone]
    · simp only [Dev.unexpected, hsome, hquar, if_true]
  rw [heq, Dev.lateCompletion]
  generalize ((s.dev.tag? tag).map Tag.fn).getD 0 = f
  have hreports : Dev.Reports (s.dev.incSat Reg.HIF_LATE_CNT_late)
      (((((s.dev.incSat Reg.HIF_LATE_CNT_late).aerAdvisory f 16).emit (.advisoryNonFatal f)).causeBit .hif 18).errCorr .hif 0x11) :=
    (((Dev.aerAdvisory_reports _ _ _).trans (Dev.emit_reports _ _)).trans (Dev.causeBit_reports _ _ _)).trans (Dev.errCorr_reports _ _ _)
  have hcounted : (s.dev.incSat Reg.HIF_LATE_CNT_late).rd Reg.HIF_LATE_CNT_late =
      min (s.dev.rd Reg.HIF_LATE_CNT_late + 1) (2 ^ 32 - 1) := Dev.rd_incSat_same _ _ _
  have hframe := ((Frame.refl s.dev [Reg.HIF_LATE_CNT_late] [.host]).incSat Reg.HIF_LATE_CNT_late 1).reports hreports
  have hrd := hreports.rd Reg.HIF_LATE_CNT_late
  generalize ((((s.dev.incSat Reg.HIF_LATE_CNT_late).aerAdvisory f 16).emit (.advisoryNonFatal f)).causeBit .hif 18).errCorr .hif 0x11 = x at *
  refine ⟨?_, fun y hy => ?_, (hframe.freeTag tag).settle.1⟩
  · rw [Dev.settle_rd _ _ (by decide)]
    exact hrd.trans hcounted
  · simp only [Dev.settle_keeps_hif, Dev.freeTag, List.mem_filter, decide_eq_true_eq] at hy
    exact hy.2

/-- Settles O22: a tag is granted in turn, freed by its completion, held through its quarantine. -/
theorem hostReadTags : Obligations.HostReadTags := fun _ _ _ =>
  ⟨fun _ _ _ => gives_tagGrant, fun _ _ _ data => ends_hostReadCompletion data, gives_completionTimeout, gives_quarantineExpire,
    gives_unexpectedCompletion⟩

end Sys2Proof
end

section
/-! Volume commands that other work in the device delays or leaves standing (R13, R14, R95, R159). -/

set_option Elab.async false

namespace Sys2Proof

open Sys2Proof.Machine

/-- A 64-byte entry from its first dwords. -/
def sqEntry (ws : List Nat) : List Dword := (List.range 16).map fun i => BitVec.ofNat 32 (ws.getD i 0)

/-- An admitted command of PF0. -/
def cmdOf (adm : Nat) (ws : List Nat) (stage : Stage) : Cmd :=
  { adm := adm, fn := 0, q := 1, cq := 0, slot := 0, entry := sqEntry ws, stage := stage }

/-- Volume 0: 120 blocks, which are four stripes of array 0, an array of two data units and one parity unit. -/
def volumeFields : List (Fld × Nat) :=
  [(Reg.AR_CFG_en.ix 0, 1), (Reg.AR_CFG_k.ix 0, 2), (Reg.AR_CFG_m.ix 0, 1), (Reg.AR_STAT_state.ix 0, asOptimal),
    (Reg.VD_CFG_en.ix 0, 1), (Reg.VD_CFG_pf0.ix 0, 1), (Reg.VD_STRIPES_stripes.ix 0, 4), (Reg.VD_SIZE_blocks.ix 0, 120)]

/-- `linkedDev` with volume 0 and admitted commands. -/
def volumeDev (cmds : List Cmd) : Dev :=
  volumeFields.foldl (fun d p => d.wr p.1 p.2) { linkedDev with
    qmx := { linkedDev.qmx with cmds := cmds }
    lay := { linkedDev.lay with arrs := [(0, { cycles := 4 })] } }

/-! ### A write to a member's metadata that is still on its way -/

/-- DEALLOCATE of the first stripe. -/
def deallocCmd : Cmd := cmdOf 7 [opDeallocate, 0, 0, 0, 30] .ready

/-- A write of a unit record for the command of admission number 7. -/
def recordWrite : MemberOp :=
  { id := 1, port := 0, array := 0, member := 0, t := 0, j := 0, rows := [], isWrite := true, data := [], client := .unitRec 7,
    st := .queued, bypassed := false, occurrences := 0 }

/-- The DEALLOCATE is ready while a unit record of its admission number is being written. -/
def recordedState : State :=
  { State.reset with dev := { volumeDev [deallocCmd] with
      lay := { (volumeDev [deallocCmd]).lay with ops := [recordWrite] } } }

/-- Refutes O33: a DEALLOCATE without FUA does not end while a unit record is written under its admission number. -/
theorem not_deallocatedStripes : ¬ Obligations.DeallocatedStripes := by
  intro h
  obtain ⟨-, -, hends⟩ := ((h 7 deallocCmd recordedState).1 (by decide +kernel) (by decide +kernel)).devAfter
  obtain ⟨hgone, -⟩ := hends (by decide +kernel)
  exact absurd hgone (by decide +kernel)

/-! ### A flip that completes the blocks before a wholly covered stripe -/

/-- The members of array 0 at ports 0, 32, 64 and 96, all OK and READY. -/
def memberFields : List (Fld × Nat) :=
  [(Reg.AR_CFG_spares.ix 0, 1), ((Reg.AR_MEMBER_valid_lo.ix 0).ix 0, 1), ((Reg.AR_MEMBER_port_lo.ix 0).ix 0, 0),
    ((Reg.AR_MEMBER_valid_hi.ix 0).ix 0, 1), ((Reg.AR_MEMBER_port_hi.ix 0).ix 0, 32), ((Reg.AR_MEMBER_valid_lo.ix 0).ix 1, 1),
    ((Reg.AR_MEMBER_port_lo.ix 0).ix 1, 64), ((Reg.AR_MEMBER_valid_hi.ix 0).ix 1, 1), ((Reg.AR_MEMBER_port_hi.ix 0).ix 1, 96)] ++
  (List.range 4).flatMap fun i => [((Reg.AR_MSTATE_state.ix 0).ix i, msOk), (Reg.PT_STAT_state.ix (32 * i), ptReady)]

/-- WRITE_ZEROES with FUA of the last block of the first stripe and of the whole second stripe. -/
def zeroesCmd : Cmd := cmdOf 7 [opWriteZeroes + 0x200, 0, 29, 0, 31] .running

/-- The block of the first stripe that the WRITE_ZEROES brought. -/
def headBlock : CBlk :=
  { vol := 0, lba := 29, array := 0, t := 0, data := [], crc := 0, zero := true, adm := 7, copyA := .good, copyB := .good,
    st := .writing, persistent := false, wt := false, fua := true, stream := none, readAhead := false, used := 0 }

/-- The WRITE_ZEROES with its one block in the cache, not yet persistent. -/
def zeroingState : State :=
  let d := memberFields.foldl (fun d p => d.wr p.1 p.2) (volumeDev [zeroesCmd])
  { State.reset with dev := { d with dram := { d.dram with cache := [headBlock] } } }

/-- Refutes O35: the flip of the last block before a wholly covered stripe hands that stripe's unit records to the ports. -/
theorem not_admissionAndFlip : ¬ Obligations.AdmissionAndFlip := by
  intro h
  obtain ⟨-, hflip⟩ := h 0 zeroesCmd headBlock zeroingState (by decide +kernel)
  obtain ⟨-, -, -, -, -, hdpx⟩ := (hflip (by decide +kernel)).devAfter
  exact absurd hdpx (by decide +kernel)

end Sys2Proof
end

section
/-! The checks of a volume command and the starts that end it or make it wait (R14, R80, R92 to R95). -/

set_option Elab.async false

namespace Sys2Proof

open Sys2Proof.Machine

/-! ### Statuses that an end keeps -/

namespace Machine

/-- The statuses that make dw3 0 (R89). -/
def plainDw3 (status : Nat) : Bool := !List.contains [ssTagMismatch, ssHostTimeout, ssPoisoned, ssAbortedBme] status

variable {c : Cmd} {status dw3 : Nat}

theorem Cmd.endStatus_of_read (h : isWriteClass (eOpcode c.entry) = false) : c.endStatus status = status := by
  simp only [Cmd.endStatus, h, Bool.false_and, Bool.false_eq_true, if_false]

theorem Cmd.endStatus_of_persist (h : c.persist = 0) : c.endStatus status = status := by
  have hnone : (decide (eCount c.entry ≤ c.persist) && decide (0 < eCount c.entry)) = false := by
    rw [h, Bool.and_eq_false_iff, decide_eq_false_iff_not, decide_eq_false_iff_not]
    omega
  rw [Cmd.endStatus, Bool.and_assoc (isWriteClass _), hnone, Bool.and_false, Bool.false_and, if_neg Bool.false_ne_true]

theorem Cmd.endDw3_of_plain (hst : c.endStatus status = status) (hplain : plainDw3 status = true)
    (hoff : status = ssOffline → isWriteClass (eOpcode c.entry) = true → dw3 = c.persist) : c.endDw3 status dw3 = dw3 := by
  have hfour : [ssTagMismatch, ssHostTimeout, ssPoisoned, ssAbortedBme].contains status = false := by
    simpa only [plainDw3, Bool.not_eq_true'] using hplain
  have hpf : flagPf c status = false := by rw [flagPf, hfour, Bool.and_false, Bool.false_and]
  simp only [Cmd.endDw3, hst, hpf, hfour, Bool.false_eq_true, if_false]
  split
  · next h =>
    simp only [Bool.and_eq_true, decide_eq_true_eq] at h
    exact (hoff h.2 h.1).symm
  · rfl

theorem Cmd.endDw3_of_read (h : isWriteClass (eOpcode c.entry) = false) (hplain : plainDw3 status = true := by decide) :
    c.endDw3 status dw3 = dw3 :=
  Cmd.endDw3_of_plain (Cmd.endStatus_of_read h) hplain fun _ hw => absurd (h.symm.trans hw) (by decide)

end Machine

/-- An end seen from a device with the same queues. -/
theorem Ended.of_same {d x e : Dev} {c : Cmd} {status dw3 : Nat} (h : Ended x e c status dw3)
    (hpost : x.canPost c.fn = d.canPost c.fn) (hheld : (x.fn c.fn).held = (d.fn c.fn).held)
    (hrd : ∀ g : Fld, 0xE0000 ≤ g.base → x.rd (g.ix c.cq) = d.rd (g.ix c.cq)) : Ended d e c status dw3 := by
  obtain ⟨hgone, hrec, htail, hhold⟩ := h
  rw [hpost, hheld] at *
  rw [Dev.cqDepth, hrd _ (by decide), hrd _ (by decide)] at htail
  exact ⟨hgone, hrec, htail, hhold⟩

/-- An end of a command that is not write-class, or with none of its blocks persistent, with a status that keeps dw3. -/
theorem ended_read {d : Dev} {adm : Nat} {c : Cmd} (hc : d.cmd? adm = some c) (hread : isWriteClass (eOpcode c.entry) = false)
    (status dw3 : Nat) (hplain : plainDw3 status = true := by decide) : Ended d (d.endCmd adm status dw3).settle c status dw3 := by
  have h := Ended.of_endCmd hc status dw3
  rwa [Cmd.endStatus_of_read hread, Cmd.endDw3_of_read hread hplain] at h

theorem Frame.ended {d : Dev} {adm : Nat} {c : Cmd} (hc : d.cmd? adm = some c) (status dw3 : Nat) :
    Frame d (d.endCmd adm status dw3).settle (endFields c) [.qmx, .dram, .host] :=
  (Frame.endCmd (Frame.refl _ _ _) hc status dw3).settle

/-- An end leaves the cache. -/
theorem Machine.Dev.endCmd_cache (d : Dev) (adm status dw3 : Nat) : (d.endCmd adm status dw3).settle.dram.cache = d.dram.cache := by
  rw [Dev.settle_dram, (d.endCmd_kept adm status dw3).parts.1]

/-! ### The checks -/

theorem Machine.Dev.cmd?_of_ready? {d : Dev} {op adm : Nat} {c : Cmd} (h : d.ready? op adm = some c) :
    d.cmd? adm = some c ∧ eOpcode c.entry = op ∧ c.stage = .ready ∧ c.ending = none := by
  simpa [Dev.ready?, Option.filter_eq_some_iff, and_assoc] using h

theorem checkVolume_spec {d : Dev} {c : Cmd} {st dw3 : Nat} (h : d.checkVolume c = some (st, dw3)) :
    plainDw3 st = true ∧ (st = ssOffline → dw3 = 0) := by
  dsimp only [Dev.checkVolume] at h
  split_ifs at h <;> cases h <;> decide

/-- The commands on a volume. -/
theorem exec_startIo {op adm : Nat} {i : Instr}
    (h : (op, i) ∈ [(opRead, Instr.read adm), (opWrite, .write adm), (opFlush, .flush adm), (opVerify, .verify adm),
      (opDeallocate, .deallocate adm), (opWriteZeroes, .writeZeroes adm)]) (s : State) :
    exec i s = s.act fun d => d.startIo op adm := by
  simp only [List.mem_cons, Prod.mk.injEq, List.not_mem_nil, or_false] at h
  rcases h with ⟨rfl, rfl⟩ | ⟨rfl, rfl⟩ | ⟨rfl, rfl⟩ | ⟨rfl, rfl⟩ | ⟨rfl, rfl⟩ | ⟨rfl, rfl⟩ <;> rfl

/-- Whether the array of a command's volume assembles, so that the command is held. -/
def Machine.Dev.holdsBack (d : Dev) (c : Cmd) : Bool :=
  !eFlushAll c.entry && d.volExists (eVolume c.entry) && (d.arr (d.volArray (eVolume c.entry))).assembling

/-- What a change of a command leaves of it to be found. -/
theorem Machine.Dev.cmd?_updCmd {d : Dev} {adm : Nat} {c : Cmd} (h : d.cmd? adm = some c) {g : Cmd → Cmd}
    (hg : ∀ x, (g x).adm = x.adm) : (d.updCmd adm g).cmd? adm = some (g c) := by
  have hfind : ∀ xs : List Cmd, xs.find? (fun x => decide (x.adm = adm)) = some c →
      (xs.map fun x => if x.adm = adm then g x else x).find? (fun x => decide (x.adm = adm)) = some (g c) := by
    intro xs
    induction xs with
    | nil => exact fun h => by cases h
    | cons x xs ih =>
      intro hx
      by_cases hadm : x.adm = adm
      · rw [List.find?_cons_of_pos (by simpa using hadm)] at hx
        obtain rfl := Option.some.inj hx
        rw [List.map_cons, if_pos hadm, List.find?_cons_of_pos (by simpa [hg] using hadm)]
      · rw [List.find?_cons_of_neg (by simpa using hadm)] at hx
        rw [List.map_cons, if_neg hadm, List.find?_cons_of_neg (by simpa using hadm)]
        exact ih hx
  exact hfind _ h

/-- A command stands in a stage with its entry. -/
def Machine.Dev.Stands (e : Dev) (adm : Nat) (c : Cmd) (g : Stage) : Prop :=
  ∃ x, e.cmd? adm = some x ∧ x.stage = g ∧ x.entry = c.entry

theorem Machine.Dev.Stands.of_qmx {d e : Dev} {adm : Nat} {c : Cmd} {g : Stage} (h : d.Stands adm c g) (he : e.qmx = d.qmx) :
    e.Stands adm c g := by
  rw [Dev.Stands, Dev.cmd?, he]
  exact h

theorem Machine.Dev.Stands.settle {d : Dev} {adm : Nat} {c : Cmd} {g : Stage} (h : d.Stands adm c g) : d.settle.Stands adm c g :=
  h.of_qmx d.settle_qmx

/-- A command put into a stage. -/
theorem Machine.Dev.stands_updCmd {d : Dev} {adm : Nat} {c : Cmd} (h : d.cmd? adm = some c) (g : Cmd → Cmd) {st : Stage}
    (hadm : ∀ x, (g x).adm = x.adm) (hst : (g c).stage = st) (hentry : (g c).entry = c.entry) : (d.updCmd adm g).Stands adm c st :=
  ⟨_, Dev.cmd?_updCmd h hadm, hst, hentry⟩

/-! ### O30 -/

/-- Settles O30: the first failing check ends the command. -/
theorem volumeCommandChecks : Obligations.VolumeCommandChecks := by
  intro adm op st dw3 i c s hi hready
  obtain ⟨hc, -⟩ := Dev.cmd?_of_ready? hready
  refine ⟨fun hheld => ?_, fun hheld hpersist hcheck => ?_⟩
  · refine gives_of_exec_eq_act (exec_startIo hi s) ?_
    have heq : s.dev.startIo op adm = s.dev.updCmd adm fun c => { c with stage := .assembling } := by
      simp only [Dev.startIo, hready, hheld, if_true]
    rw [heq]
    exact ⟨(Dev.stands_updCmd hc (fun c => { c with stage := .assembling }) (fun _ => rfl) rfl rfl).settle,
      (Frame.updCmd (Frame.refl _ _ _) _ _).settle⟩
  · refine gives_of_exec_eq_act (exec_startIo hi s) ?_
    have heq : s.dev.startIo op adm = s.dev.endCmd adm st dw3 := by
      simp only [Dev.startIo, hready, hheld, hcheck, Bool.false_eq_true, if_false]
    obtain ⟨hplain, hoff⟩ := checkVolume_spec hcheck
    have hended := Ended.of_endCmd hc st dw3
    rw [Cmd.endStatus_of_persist hpersist, Cmd.endDw3_of_plain (Cmd.endStatus_of_persist hpersist) hplain
      fun h _ => (hoff h).trans hpersist.symm] at hended
    rw [heq]
    exact ⟨hended, s.dev.endCmd_cache adm st dw3, Frame.ended hc st dw3⟩

end Sys2Proof
end

section
/-! Commands that start: NOP, FLUSH, WRITE, the range lock and the fragment table (R14, R80, R93, R95). -/

set_option Elab.async false

namespace Sys2Proof

open Sys2Proof.Machine

/-! ### Frames -/

section

variable {a d : Dev} {fs : List Fld} {ps : List Part} (h : Frame a d fs ps)
include h

theorem Frame.waitsFor (adm n : Nat) (hp : Part.qmx ∈ ps := by decide) : Frame a (d.waitsFor adm n) fs ps :=
  .ite h (h.updCmd _ _ hp)

theorem Frame.recount (adm : Nat) (hq : Part.qmx ∈ ps := by decide) (hd : Part.dram ∈ ps := by decide) :
    Frame a (d.recount adm) fs ps := by
  unfold Dev.recount
  split
  · exact h
  · exact .ite h ((h.updCmd _ _ hq).updRec _ _ _ hd)

theorem Frame.openStream (c : Cmd) (hp : Part.lay ∈ ps := by decide) : Frame a (d.openStream c) fs ps :=
  .ite (h.setLay _ hp) h

theorem Frame.askTable (c : Cmd) (hq : Part.qmx ∈ ps := by decide) (hh : Part.host ∈ ps := by decide) :
    Frame a (d.askTable c) fs ps := (h.updCmd _ _ hq).readHost _ _ _ _ hh

end

/-! ### What a read of host memory leaves -/

namespace Machine

theorem Dev.readHost_qmx (d : Dev) (f addr len : Nat) (kind : Nat → Nat → ReadKind) : (d.readHost f addr len kind).qmx = d.qmx :=
  (Frame.readHost (ps := [.host]) (fs := []) (Frame.refl d _ _) f addr len kind).part .qmx

theorem Dev.openStream_qmx (d : Dev) (c : Cmd) : (d.openStream c).qmx = d.qmx :=
  ((Frame.refl d [] [.lay]).openStream c).part .qmx

theorem Dev.openStream_lockBlocked (d : Dev) (c x : Cmd) : (d.openStream c).lockBlocked x = d.lockBlocked x := by
  rw [Dev.lockBlocked, d.openStream_qmx, Dev.lockBlocked]

theorem Dev.openStream_cmd? (d : Dev) (c : Cmd) (adm : Nat) : (d.openStream c).cmd? adm = d.cmd? adm := by
  rw [Dev.cmd?, d.openStream_qmx, Dev.cmd?]

/-- A WRITE's stream is open. -/
theorem Dev.openStream_open (d : Dev) {c : Cmd} (hop : eOpcode c.entry = opWrite) (hstrm : eStrm c.entry = true) :
    ∃ x ∈ (d.openStream c).lay.streams, x.id = eStream c.entry := by
  unfold Dev.openStream
  dsimp only
  split
  · exact ⟨_, List.mem_append_right _ List.mem_cons_self, rfl⟩
  · next h =>
    simp only [hop, hstrm, decide_true, Bool.true_and, Bool.not_eq_true', Bool.not_eq_false, List.any_eq_true, decide_eq_true_eq] at h
    exact h

/-! ### A start that passes its checks -/

variable {d : Dev} {op adm : Nat} {c : Cmd}

/-- A command that passes its checks and is not held. -/
def Dev.StartsFree (d : Dev) (c : Cmd) : Prop := d.checkVolume c = none ∧ d.holdsBack c = false

theorem Dev.startIo_of_free (h : d.ready? op adm = some c) (hfree : d.StartsFree c) (hop : op ≠ opFlush) : d.startIo op adm =
    if eInd c.entry then (d.openStream c).askTable c else (d.openStream c).takeLock adm := by
  obtain ⟨hcheck, hheld⟩ := hfree
  simp only [Dev.holdsBack] at hheld
  simp only [Dev.startIo, h, hheld, hcheck, hop, Bool.false_eq_true, if_false]

/-- A FLUSH that begins to wait. -/
def Dev.flushBegun (d : Dev) (adm : Nat) : Dev := d.updCmd adm fun x => { x with stage := .waiting, cover := d.pwc.clock }

/-- The arrays whose blocks a FLUSH waits for. -/
def Dev.flushArrays (d : Dev) (c : Cmd) : List Nat :=
  ((d.dram.cache.filter (d.flushCovers { c with cover := d.pwc.clock })).map CBlk.array).eraseDups

theorem Dev.startIo_flush (h : d.ready? opFlush adm = some c) (hfree : d.StartsFree c) : d.startIo opFlush adm =
    (forEach (d.flushArrays c) (fun a d => d.waitsFor adm a) (d.flushBegun adm)).advance adm := by
  obtain ⟨hcheck, hheld⟩ := hfree
  obtain ⟨-, hop, -⟩ := Dev.cmd?_of_ready? h
  have hstream : d.openStream c = d := by
    simp only [Dev.openStream, hop, show ¬ opFlush = opWrite from by decide, decide_false, Bool.false_and, Bool.false_eq_true, if_false]
  simp only [Dev.holdsBack] at hheld
  simp only [Dev.startIo, h, hheld, hcheck, hstream, Bool.false_eq_true, if_false, if_true]
  rfl

/-- e is d but for its commands and its Outcome Logs. -/
def Dev.CmdsOnly (d e : Dev) : Prop :=
  e = { d with qmx := { d.qmx with cmds := e.qmx.cmds }, dram := { d.dram with ologs := e.dram.ologs } }

theorem Dev.CmdsOnly.refl (d : Dev) : Dev.CmdsOnly d d := rfl

theorem Dev.CmdsOnly.trans {a b c : Dev} (h : Dev.CmdsOnly a b) (k : Dev.CmdsOnly b c) : Dev.CmdsOnly a c := by
  unfold Dev.CmdsOnly at h k ⊢
  rw [h] at k
  exact k

theorem Dev.updCmd_cmdsOnly (d : Dev) (adm : Nat) (g : Cmd → Cmd) : Dev.CmdsOnly d (d.updCmd adm g) := rfl

theorem Dev.updRec_cmdsOnly (d : Dev) (f adm : Nat) (g : OlRec → OlRec) : Dev.CmdsOnly d (d.updRec f adm g) := rfl

theorem Dev.CmdsOnly.same {e : Dev} (h : Dev.CmdsOnly d e) : (∀ g, e.rd g = d.rd g) ∧ (∀ f, e.canPost f = d.canPost f) ∧
    (∀ f, e.fn f = d.fn f) ∧ (∀ x b, e.flushCovers x b = d.flushCovers x b) ∧ e.dram.cache = d.dram.cache := by
  unfold Dev.CmdsOnly at h
  rw [h]
  exact ⟨fun _ => rfl, fun _ => rfl, fun _ => rfl, fun _ _ => rfl, rfl⟩

/-- A FLUSH that waits, as it was admitted but for what a wait changes; the arrays whose power exit it waited for. -/
structure Dev.Flushing (d : Dev) (adm : Nat) (c : Cmd) (n : Nat) (w : List Nat) (e : Dev) : Prop where
  only : Dev.CmdsOnly d e
  stands : ∃ x, e.cmd? adm = some x ∧ x = { c with stage := .waiting, cover := n, waited := w, persist := x.persist }

variable {n : Nat} {w : List Nat} {e : Dev}

theorem Dev.Flushing.waitsFor (h : Dev.Flushing d adm c n w e) (a : Nat) : ∃ v, Dev.Flushing d adm c n v (e.waitsFor adm a) := by
  obtain ⟨hq, x, hx, hxc⟩ := h
  unfold Dev.waitsFor
  split
  · exact ⟨w, hq, x, hx, hxc⟩
  · refine ⟨if x.asleep.contains a && !x.waited.contains a then x.waited ++ [a] else x.waited, hq.trans rfl, _,
      Dev.cmd?_updCmd hx fun y => ?_, ?_⟩
    · split <;> rfl
    · split
      · rw [hxc]
      · rw [hxc]

theorem Dev.Flushing.recount (h : Dev.Flushing d adm c n w e) : Dev.Flushing d adm c n w (e.recount adm) := by
  obtain ⟨hq, x, hx, hxc⟩ := h
  simp only [Dev.recount, hx]
  split
  · exact ⟨hq, x, hx, hxc⟩
  · refine ⟨hq.trans rfl, { x with persist := max x.persist (e.prefixOf x) }, ?_, ?_⟩
    · exact Dev.cmd?_updCmd hx (g := fun c => { c with persist := max x.persist (e.prefixOf x) }) fun _ => rfl
    · rw [hxc]

theorem Dev.flushing_begun (h : d.cmd? adm = some c) : Dev.Flushing d adm c d.pwc.clock c.waited (d.flushBegun adm) :=
  ⟨rfl, _, Dev.cmd?_updCmd h (g := fun x => { x with stage := .waiting, cover := d.pwc.clock }) fun _ => rfl, rfl⟩

theorem Dev.flushing_waits (h : d.cmd? adm = some c) (arrays : List Nat) :
    ∃ w, Dev.Flushing d adm c d.pwc.clock w (forEach arrays (fun a d => d.waitsFor adm a) (d.flushBegun adm)) :=
  forEach_induct (P := fun e => ∃ w, Dev.Flushing d adm c d.pwc.clock w e) (f := fun a d => d.waitsFor adm a)
    (fun a _ ⟨_, he⟩ => he.waitsFor a) _ _ ⟨_, Dev.flushing_begun h⟩

/-- Where a FLUSH that waits goes. -/
theorem Dev.Flushing.advance (h : Dev.Flushing d adm c n w e) (hop : eOpcode c.entry = opFlush) :
    e.advance adm = if (d.dram.cache.any (d.flushCovers { c with cover := n })) then e.recount adm
      else if c.lostFirst.isNone then (e.recount adm).endCmd adm ssSuccess 0 else (e.recount adm).endCmd adm ssLostWrite c.lostCount := by
  obtain ⟨hq, x, hx, hxc⟩ := h.recount
  obtain ⟨-, -, -, hcovers, hcache⟩ := hq.same
  have hentry : x.entry = c.entry := by rw [hxc]
  have hstage : x.stage = .waiting := by rw [hxc]
  have hlost : x.lostFirst = c.lostFirst ∧ x.lostCount = c.lostCount := by rw [hxc]; exact ⟨rfl, rfl⟩
  have hany : (e.recount adm).dram.cache.any ((e.recount adm).flushCovers x) = d.dram.cache.any (d.flushCovers { c with cover := n }) := by
    rw [hcache, show (e.recount adm).flushCovers x = d.flushCovers x from funext fun b => hcovers x b, hxc]
    rfl
  simp only [Dev.advance, hx, hentry, hop, hstage, hany, hlost.1, hlost.2, if_true, true_and, Bool.not_eq_true']
  cases d.dram.cache.any (d.flushCovers { c with cover := n }) <;> rfl

end Machine

/-! ### O31 -/

theorem gives_nop {adm : Nat} {c : Cmd} {s : State} (h : s.dev.ready? opNop adm = some c) : Gives (.nop adm) s fun e =>
    Ended s.dev e c ssSuccess 0 ∧ Frame s.dev e (endFields c) [.qmx, .dram, .host] := by
  refine gives_of_exec_eq_act (show exec (.nop adm) s = s.act fun d => match d.ready? opNop adm with
    | some _ => d.endCmd adm ssSuccess 0
    | none => d from rfl) ?_
  obtain ⟨hc, hop, -⟩ := Dev.cmd?_of_ready? h
  rw [h]
  exact ⟨ended_read hc (by rw [hop]; decide) _ _, Frame.ended hc _ _⟩

theorem Machine.Dev.CmdsOnly.frame {d e : Dev} (h : Dev.CmdsOnly d e) (fs : List Fld) (ps : List Part)
    (hq : Part.qmx ∈ ps := by decide) (hd : Part.dram ∈ ps := by decide) : Frame d e fs ps := by
  have k := ((Frame.refl d fs ps).setQmx { d.qmx with cmds := e.qmx.cmds } hq).setDram { d.dram with ologs := e.dram.ologs } hd
  unfold Dev.CmdsOnly at h
  dsimp only at k
  rwa [← h] at k

theorem gives_flush {adm : Nat} {c : Cmd} {s : State} (h : s.dev.ready? opFlush adm = some c) (hfree : s.dev.StartsFree c) :
    ((∀ b ∈ s.dev.dram.cache, s.dev.flushCovers { c with cover := s.dev.pwc.clock } b = false) → c.lostFirst = none →
      Gives (.flush adm) s fun e =>
        Ended s.dev e c ssSuccess 0 ∧ e.dram.cache = s.dev.dram.cache ∧ Frame s.dev e (endFields c) [.qmx, .dram, .host]) ∧
    ((∃ b ∈ s.dev.dram.cache, s.dev.flushCovers { c with cover := s.dev.pwc.clock } b = true) → Gives (.flush adm) s fun e =>
      e.Stands adm c .waiting ∧ e.dram.cache = s.dev.dram.cache ∧ Frame s.dev e [] [.qmx, .dram]) := by
  obtain ⟨hc, hop, -⟩ := Dev.cmd?_of_ready? h
  have hexec : exec (.flush adm) s = s.act fun d => d.startIo opFlush adm := rfl
  refine ⟨fun hnone hlost => gives_of_exec_eq_act hexec ?_, fun ⟨b, hb, hcov⟩ => gives_of_exec_eq_act hexec ?_⟩
  · have harrays : s.dev.flushArrays c = [] := by
      rw [Dev.flushArrays, List.filter_eq_nil_iff.mpr fun b hb => by rw [hnone b hb]; exact Bool.false_ne_true]
      rfl
    have hbegun := Dev.flushing_begun hc
    have hany : s.dev.dram.cache.any (s.dev.flushCovers { c with cover := s.dev.pwc.clock }) = false :=
      List.any_eq_false.mpr fun b hb => by rw [hnone b hb]; exact Bool.false_ne_true
    obtain ⟨hq, x, hx, hxc⟩ := hbegun.recount
    have hkept : x.entry = c.entry ∧ x.fn = c.fn ∧ x.cq = c.cq ∧ x.adm = c.adm ∧ x.silent = c.silent ∧ endFields x = endFields c := by
      rw [hxc]; exact ⟨rfl, rfl, rfl, rfl, rfl, rfl⟩
    obtain ⟨hentry, hfn, hcq, hadm, hsilent, hfields⟩ := hkept
    rw [Dev.startIo_flush h hfree, harrays, show Machine.forEach [] (fun a d => d.waitsFor adm a) (s.dev.flushBegun adm) =
      s.dev.flushBegun adm from rfl, hbegun.advance hop, hany, if_neg Bool.false_ne_true, hlost, Option.isNone_none, if_pos rfl]
    generalize (s.dev.flushBegun adm).recount adm = e at *
    obtain ⟨hrd, hpost, hfns, -, hcache⟩ := hq.same
    have hended : Ended e (e.endCmd adm ssSuccess 0).settle x ssSuccess 0 :=
      ended_read hx (by rw [hentry, hop]; decide) _ _
    have hframe : Frame s.dev (e.endCmd adm ssSuccess 0).settle (endFields x) [.qmx, .dram, .host] :=
      ((hq.frame _ _).endCmd hx _ _).settle
    rw [hfields] at hframe
    refine ⟨?_, (e.endCmd_cache adm _ _).trans hcache, hframe⟩
    have hsame := hended.of_same (hpost x.fn) (congrArg FnState.held (hfns x.fn)) fun g _ => hrd _
    simp only [Ended, hentry, hfn, hcq, hadm, hsilent] at hsame
    exact hsame
  · obtain ⟨w, hwait⟩ := Dev.flushing_waits hc (s.dev.flushArrays c)
    have hany : s.dev.dram.cache.any (s.dev.flushCovers { c with cover := s.dev.pwc.clock }) = true :=
      List.any_eq_true.mpr ⟨b, hb, hcov⟩
    rw [Dev.startIo_flush h hfree, hwait.advance hop, hany, if_pos rfl]
    obtain ⟨hq, x, hx, hxc⟩ := hwait.recount
    generalize (Machine.forEach (s.dev.flushArrays c) (fun a d => d.waitsFor adm a) (s.dev.flushBegun adm)).recount adm = e at *
    refine ⟨Dev.Stands.settle ⟨x, hx, by rw [hxc], by rw [hxc]⟩, ?_, (hq.frame _ _).settle⟩
    rw [Dev.settle_dram]
    exact hq.same.2.2.2.2

theorem gives_write {adm : Nat} {c : Cmd} {s : State} (h : s.dev.ready? opWrite adm = some c) (hfree : s.dev.StartsFree c)
    (hdirect : eInd c.entry = false) (hlock : s.dev.lockBlocked c = false) : Gives (.write adm) s fun e =>
      e.Stands adm c (if eTagchk c.entry then .crcs else .running) ∧
      (eStrm c.entry = true → ∃ x ∈ e.lay.streams, x.id = eStream c.entry) ∧ Frame s.dev e [] [.qmx, .lay, .host] := by
  refine gives_of_exec_eq_act (show exec (.write adm) s = s.act fun d => d.startIo opWrite adm from rfl) ?_
  obtain ⟨hc, hop, -⟩ := Dev.cmd?_of_ready? h
  rw [Dev.startIo_of_free h hfree (by decide), hdirect, if_neg Bool.false_ne_true]
  have hopen := fun hstrm => s.dev.openStream_open hop hstrm
  have hframe : Frame s.dev (s.dev.openStream c) [] [.qmx, .lay, .host] := (Frame.refl _ _ _).openStream c
  have hc' : (s.dev.openStream c).cmd? adm = some c := (s.dev.openStream_cmd? c adm).trans hc
  have hlock' := (s.dev.openStream_lockBlocked c c).trans hlock
  generalize s.dev.openStream c = d at *
  simp only [Dev.takeLock, hc', hlock', Bool.false_eq_true, if_false, Dev.afterLock, hop, if_true,
    show ¬ (opWrite = opRead ∨ opWrite = opVerify) from by decide]
  have hlay {e : Dev} (he : Frame d e [] [.qmx, .host]) : e.settle.lay = d.lay := he.settle.part .lay
  split
  · have hstood := Dev.stands_updCmd hc' (fun c => { c with stage := .crcs }) (fun _ => rfl) rfl rfl
    have hread (x : Frame d d [] [.qmx, .host]) := (x.updCmd adm fun c => { c with stage := .crcs }).readHost c.fn (eCrcAddr c.entry)
      (8 * eCount c.entry) (fun off _ => .crcs adm off)
    refine ⟨(hstood.of_qmx (Dev.readHost_qmx _ _ _ _ _)).settle, fun hstrm => ?_, ?_⟩
    · rw [hlay (hread (Frame.refl _ _ _))]
      exact hopen hstrm
    · exact ((hframe.updCmd adm fun c => { c with stage := .crcs }).readHost _ _ _ _).settle
  · refine ⟨(Dev.stands_updCmd hc' (fun c => { c with stage := .running }) (fun _ => rfl) rfl rfl).settle, fun hstrm => ?_, ?_⟩
    · rw [hlay ((Frame.refl _ _ _).updCmd adm fun c => { c with stage := .running })]
      exact hopen hstrm
    · exact (hframe.updCmd adm _).settle

theorem gives_start_waits {adm op : Nat} {i : Instr} {c : Cmd} {s : State}
    (hi : (op, i) ∈ [(opRead, Instr.read adm), (opWrite, .write adm), (opVerify, .verify adm), (opDeallocate, .deallocate adm),
      (opWriteZeroes, .writeZeroes adm)]) (h : s.dev.ready? op adm = some c) (hfree : s.dev.StartsFree c) :
    (eInd c.entry = false → s.dev.lockBlocked c = true → Gives i s fun e =>
      e.Stands adm c .lockWait ∧ Frame s.dev e [] [.qmx, .lay]) ∧
    (eInd c.entry = true → Gives i s fun e => e.Stands adm c .table ∧ Frame s.dev e [] [.qmx, .lay, .host]) := by
  obtain ⟨hc, -⟩ := Dev.cmd?_of_ready? h
  have hflush : op ≠ opFlush := by
    simp only [List.mem_cons, Prod.mk.injEq, List.not_mem_nil, or_false] at hi
    rcases hi with ⟨rfl, -⟩ | ⟨rfl, -⟩ | ⟨rfl, -⟩ | ⟨rfl, -⟩ | ⟨rfl, -⟩ <;> decide
  have hexec : exec i s = s.act fun d => d.startIo op adm := by
    refine exec_startIo ?_ s
    simp only [List.mem_cons, List.not_mem_nil, or_false] at hi ⊢
    tauto
  have hframe {ps : List Part} (hp : Part.lay ∈ ps) : Frame s.dev (s.dev.openStream c) [] ps := (Frame.refl _ _ _).openStream c hp
  have hc' : (s.dev.openStream c).cmd? adm = some c := (s.dev.openStream_cmd? c adm).trans hc
  have hadm := Dev.cmd?_adm hc
  refine ⟨fun hdirect hlock => gives_of_exec_eq_act hexec ?_, fun hind => gives_of_exec_eq_act hexec ?_⟩
  · have hlock' := (s.dev.openStream_lockBlocked c c).trans hlock
    rw [Dev.startIo_of_free h hfree hflush, hdirect, if_neg Bool.false_ne_true]
    simp only [Dev.takeLock, hc', hlock', if_true]
    exact ⟨(Dev.stands_updCmd hc' (fun c => { c with stage := .lockWait }) (fun _ => rfl) rfl rfl).settle,
      ((hframe (by decide)).updCmd adm _).settle⟩
  · rw [Dev.startIo_of_free h hfree hflush, hind, if_pos rfl, Dev.askTable, hadm]
    exact ⟨((Dev.stands_updCmd hc' (fun c => { c with stage := .table }) (fun _ => rfl) rfl rfl).of_qmx
      (Dev.readHost_qmx _ _ _ _ _)).settle, (((hframe (by decide)).updCmd adm _).readHost _ _ _ _).settle⟩

/-- Settles O31: each start goes as far as the checks, the locks and the open blocks let it. -/
theorem commandsStart : Obligations.CommandsStart := by
  intro adm op i c s
  exact ⟨gives_nop, gives_flush, gives_write, gives_start_waits⟩

end Sys2Proof
end

section
/-! Fences, range locks and fragment tables (R14, R80, R81, R84, R98). -/

set_option Elab.async false

namespace Sys2Proof

open Sys2Proof.Machine

/-- What a halt shows of its cause, whatever it is. -/
theorem halt_shows (d : Dev) (x : HaltInfo) :
    (d.halt x).settle.qmx.halted = true ∧ (d.halt x).settle.blkState .qmx = stHalt ∧ (d.halt x).settle.blkState .sys = stHalt ∧
    Raised (d.halt x).settle .qmx 19 ∧ (d.halt x).settle.rd Reg.SYS_HALT_SRC_kind = x.kind % 2 ^ 2 ∧
    (d.halt x).settle.rd Reg.SYS_HALT_COND_cond = x.cond % 2 ^ 8 ∧ (d.halt x).settle.rd Reg.SYS_HALT_POS_frag = x.frag % 2 ^ 12 ∧
    (d.halt x).settle.rd Reg.SYS_HALT_SRC_fn = x.fn % 2 ^ 7 ∧ (d.halt x).settle.rd Reg.SYS_HALT_SRC_sq = x.sq % 2 ^ 10 ∧
    (d.halt x).settle.rd Reg.SYS_HALT_ASN_asn = x.asn % 2 ^ 32 := by
  obtain ⟨e, hreports, hgrow, he⟩ := d.halt_eq x
  obtain ⟨hhalted, -, hqmx, hsys, -⟩ := d.haltEntered_keeps
  have hq := d.haltEntered.haltRecord_qmx x
  obtain ⟨-, -, hkind, hfn, hsq, hfrag, -, hcond, hasn⟩ := d.haltEntered.haltRecord_rd x
  have hqkept := (d.haltEntered.haltRecord_kept x (Reg.BLK_STAT_state.ix Blk.qmx.page) (by decide +kernel)).trans hqmx
  have hskept := (d.haltEntered.haltRecord_kept x (Reg.BLK_STAT_state.ix Blk.sys.page) (by decide +kernel)).trans hsys
  rw [he]
  generalize d.haltEntered = a at *
  generalize a.haltRecord x = b at *
  have hrd (g : Fld) (hg : stateKey g.key = false := by decide) : e.settle.rd g = b.rd g := by
    rw [Dev.settle_rd _ _ hg, hreports.rd, Dev.causeBit_rd]
  have hblk (c : Blk) (hc : b.blkState c = stHalt) : e.settle.blkState c = stHalt := by
    have hec : e.blkState c = stHalt := (hreports.rd _).trans ((Dev.causeBit_rd _ _ _ _).trans hc)
    rw [Dev.settle_blkState (by rw [hec]; decide), hec]
  have heq : e.qmx = a.qmx := by
    have hsame : e.qmx = (b.causeBit .qmx 19).qmx := by rw [hreports.same]
    exact hsame.trans hq
  refine ⟨?_, hblk _ hqkept, hblk _ hskept, Dev.settle_raised _ _ _ (hgrow.grow _ _ (Dev.causeBit_raised _ _ _)),
    (hrd _).trans hkind, (hrd _).trans hcond, (hrd _).trans hfrag, (hrd _).trans hfn, (hrd _).trans hsq, (hrd _).trans hasn⟩
  rw [Dev.settle_qmx, heq, hhalted]

/-- Every condition of a fragment table has a code of one byte. -/
theorem malformedTable_lt {e : List Dword} {fs : List Frag} {cond k : Nat} (h : malformedTable e fs = some (cond, k)) : cond < 2 ^ 8 := by
  dsimp only [malformedTable] at h
  split at h
  · cases h; decide
  · split at h
    · cases h; decide
    · split at h
      · cases h; decide
      · split at h
        · cases h; decide
        · split at h
          · cases h; decide
          · obtain ⟨i, -, hi⟩ := Option.map_eq_some_iff.mp h
            cases hi
            decide

section

variable {adm : Nat} {c : Cmd} {s : State} (hc : s.dev.cmd? adm = some c)
include hc

/-- A command put into a stage and otherwise left. -/
theorem stage_leaves (g : Cmd → Cmd) {st : Stage} (hadm : ∀ x, (g x).adm = x.adm) (hst : (g c).stage = st) (hentry : (g c).entry = c.entry) :
    (s.dev.updCmd adm g).settle.Stands adm c st ∧ Frame s.dev (s.dev.updCmd adm g).settle [] [.qmx] :=
  ⟨(Dev.stands_updCmd hc g hadm hst hentry).settle, ((Frame.refl _ _ _).updCmd adm g).settle⟩

theorem gives_fenceRelease (hst : c.stage = .fenced) (hlast : ∀ x ∈ s.dev.qmx.cmds, x.fn = c.fn → adm ≤ x.adm) :
    Gives (.fenceRelease adm) s fun e => e.Stands adm c .ready ∧ Frame s.dev e [] [.qmx] := by
  refine gives_of_exec_eq_act (show exec (.fenceRelease adm) s = s.act fun d => d.fenceRelease adm from rfl) ?_
  have hnone : (s.dev.qmx.cmds.any fun x => x.fn = c.fn && decide (x.adm < adm)) = false := by
    rw [List.any_eq_false]
    intro x hx
    simp only [Bool.and_eq_true, decide_eq_true_eq, not_and, not_lt]
    exact hlast x hx
  have heq : s.dev.fenceRelease adm = s.dev.updCmd adm fun c => { c with stage := .ready } := by
    simp only [Dev.fenceRelease, hc, hst, hnone, Bool.not_false, and_self, if_true]
  rw [heq]
  exact stage_leaves hc (fun c => { c with stage := .ready }) (fun _ => rfl) rfl rfl

theorem gives_fenceRelease_early (hst : c.stage = .fenced) (hearly : ∃ x ∈ s.dev.qmx.cmds, x.fn = c.fn ∧ x.adm < adm) :
    Gives (.fenceRelease adm) s fun e => Frame s.dev e [] [] := by
  refine gives_of_exec_eq_act (show exec (.fenceRelease adm) s = s.act fun d => d.fenceRelease adm from rfl) ?_
  have hany : (s.dev.qmx.cmds.any fun x => x.fn = c.fn && decide (x.adm < adm)) = true := by
    rw [List.any_eq_true]
    obtain ⟨x, hx, hfn, hlt⟩ := hearly
    exact ⟨x, hx, by simp only [hfn, hlt, decide_true, Bool.and_self]⟩
  have heq : s.dev.fenceRelease adm = s.dev := by
    simp only [Dev.fenceRelease, hc, hst, hany, Bool.not_true, Bool.false_eq_true, and_false, if_false]
  rw [heq]
  exact (Frame.refl _ _ _).settle

/-- A WRITE without a CRC list goes on once it holds its range. -/
theorem afterLock_write (hop : eOpcode c.entry = opWrite) (htag : eTagchk c.entry = false) :
    s.dev.afterLock adm = s.dev.updCmd adm fun c => { c with stage := .running } := by
  simp only [Dev.afterLock, hc, hop, htag, show ¬ (opWrite = opRead ∨ opWrite = opVerify) from by decide, Bool.false_eq_true,
    if_true, if_false]

theorem gives_rangeLockGrant (hst : c.stage = .lockWait) (hfree : s.dev.lockBlocked c = false) (hop : eOpcode c.entry = opWrite)
    (htag : eTagchk c.entry = false) : Gives (.rangeLockGrant adm) s fun e =>
      e.Stands adm c .running ∧ Frame s.dev e [] [.qmx] := by
  refine gives_of_exec_eq_act (show exec (.rangeLockGrant adm) s = s.act fun d => d.lockGrant adm from rfl) ?_
  have heq : s.dev.lockGrant adm = s.dev.updCmd adm fun c => { c with stage := .running } := by
    rw [← afterLock_write hc hop htag]
    simp only [Dev.lockGrant, hc, hst, hfree, Bool.not_false, and_self, if_true]
  rw [heq]
  exact stage_leaves hc (fun c => { c with stage := .running }) (fun _ => rfl) rfl rfl

theorem gives_rangeLockGrant_blocked (hblocked : s.dev.lockBlocked c = true) :
    Gives (.rangeLockGrant adm) s fun e => Frame s.dev e [] [] := by
  refine gives_of_exec_eq_act (show exec (.rangeLockGrant adm) s = s.act fun d => d.lockGrant adm from rfl) ?_
  have heq : s.dev.lockGrant adm = s.dev := by
    simp only [Dev.lockGrant, hc, hblocked, Bool.not_true, Bool.false_eq_true, and_false, if_false]
  rw [heq]
  exact (Frame.refl _ _ _).settle

/-- A fragment table that is there and may be checked. -/
def TableReady (c : Cmd) (d : Dev) : Prop := c.stage = .table ∧ c.frags ≠ [] ∧ d.intakeOpen = true

theorem tableCheck_eq (h : TableReady c s.dev) : s.dev.tableCheck adm = match malformedTable c.entry c.frags with
    | some (cond, i) => s.dev.halt ⟨2, c.fn, c.q, i, c.slot, cond, adm % 2 ^ 32, c.entry,
        [(c.frags.getD i ⟨0, 0, 0⟩).addr % 2 ^ 32, (c.frags.getD i ⟨0, 0, 0⟩).addr / 2 ^ 32 % 2 ^ 32, (c.frags.getD i ⟨0, 0, 0⟩).len,
          (c.frags.getD i ⟨0, 0, 0⟩).flags]⟩
    | none => if isDataOp (eOpcode c.entry) then s.dev.takeLock adm else s.dev.updCmd adm fun c => { c with stage := .running } := by
  obtain ⟨hst, hfrags, hopen⟩ := h
  simp only [Dev.tableCheck, hc, hst, hfrags, hopen, ne_eq, not_true_eq_false, decide_false, Bool.false_or, Bool.not_true,
    Bool.false_eq_true, if_false] <;> rfl

theorem gives_fragmentTableCheck (h : TableReady c s.dev) (hgood : malformedTable c.entry c.frags = none) :
    (isDataOp (eOpcode c.entry) = false → Gives (.fragmentTableCheck adm) s fun e =>
      e.Stands adm c .running ∧ Frame s.dev e [] [.qmx]) ∧
    (isDataOp (eOpcode c.entry) = true → s.dev.lockBlocked c = true → Gives (.fragmentTableCheck adm) s fun e =>
      e.Stands adm c .lockWait ∧ Frame s.dev e [] [.qmx]) ∧
    (eOpcode c.entry = opWrite → eTagchk c.entry = false → s.dev.lockBlocked c = false →
      Gives (.fragmentTableCheck adm) s fun e => e.Stands adm c .running ∧ Frame s.dev e [] [.qmx]) := by
  have hexec : exec (.fragmentTableCheck adm) s = s.act fun d => d.tableCheck adm := rfl
  have heq := tableCheck_eq hc h
  rw [hgood] at heq
  refine ⟨fun hadmin => gives_of_exec_eq_act hexec ?_, fun hdata hblocked => gives_of_exec_eq_act hexec ?_,
    fun hop htag hfree => gives_of_exec_eq_act hexec ?_⟩
  · simp only [hadmin, Bool.false_eq_true, if_false] at heq
    rw [heq]
    exact stage_leaves hc (fun c => { c with stage := .running }) (fun _ => rfl) rfl rfl
  · simp only [hdata, if_true, Dev.takeLock, hc, hblocked] at heq
    rw [heq]
    exact stage_leaves hc (fun c => { c with stage := .lockWait }) (fun _ => rfl) rfl rfl
  · have hdata : isDataOp (eOpcode c.entry) = true := by rw [hop]; decide
    simp only [hdata, if_true, Dev.takeLock, hc, hfree, Bool.false_eq_true, if_false, afterLock_write hc hop htag] at heq
    rw [heq]
    exact stage_leaves hc (fun c => { c with stage := .running }) (fun _ => rfl) rfl rfl

theorem gives_fragmentTableCheck_malformed {cond k : Nat} (h : TableReady c s.dev)
    (hbad : malformedTable c.entry c.frags = some (cond, k)) : Gives (.fragmentTableCheck adm) s fun e =>
      e.qmx.halted = true ∧ e.blkState .qmx = stHalt ∧ e.blkState .sys = stHalt ∧ Raised e .qmx 19 ∧
      e.rd Reg.SYS_HALT_SRC_kind = 2 ∧ e.rd Reg.SYS_HALT_COND_cond = cond ∧ e.rd Reg.SYS_HALT_POS_frag = k % 2 ^ 12 ∧
      e.rd Reg.SYS_HALT_SRC_fn = c.fn % 2 ^ 7 ∧ e.rd Reg.SYS_HALT_SRC_sq = c.q % 2 ^ 10 ∧
      e.rd Reg.SYS_HALT_ASN_asn = adm % 2 ^ 32 := by
  refine gives_of_exec_eq_act (show exec (.fragmentTableCheck adm) s = s.act fun d => d.tableCheck adm from rfl) ?_
  have heq := tableCheck_eq hc h
  rw [hbad] at heq
  dsimp only at heq
  rw [heq]
  obtain ⟨hhalted, hqmx, hsys, hraised, hkind, hcond, hfrag, hfn, hsq, hasn⟩ := halt_shows s.dev ⟨2, c.fn, c.q, k, c.slot, cond, adm % 2 ^ 32, c.entry,
    [(c.frags.getD k ⟨0, 0, 0⟩).addr % 2 ^ 32, (c.frags.getD k ⟨0, 0, 0⟩).addr / 2 ^ 32 % 2 ^ 32, (c.frags.getD k ⟨0, 0, 0⟩).len,
      (c.frags.getD k ⟨0, 0, 0⟩).flags]⟩
  generalize (s.dev.halt _).settle = e at *
  exact ⟨hhalted, hqmx, hsys, hraised, hkind, hcond.trans (Nat.mod_eq_of_lt (malformedTable_lt hbad)), hfrag, hfn, hsq,
    hasn.trans (Nat.mod_mod _ _)⟩

end

/-- Settles O34: a command waits for the fence, for its range, for its table, and goes on without them. -/
theorem fencesLocksAndTables : Obligations.FencesLocksAndTables := by
  intro adm cond k c s hc
  exact ⟨gives_fenceRelease hc, gives_fenceRelease_early hc, gives_rangeLockGrant hc, gives_rangeLockGrant_blocked hc,
    gives_fragmentTableCheck hc, gives_fragmentTableCheck_malformed hc⟩

end Sys2Proof
end

section
/-! The admin commands (R91, R92, R95, R99, R102, R104). -/

set_option Elab.async false

namespace Sys2Proof

open Sys2Proof.Machine

namespace Machine

/-! ### Event rings and the end of a command -/

theorem Dev.drainSq_ring (d : Dev) (q g : Nat) : (d.drainSq q).ring g = d.ring g := by
  unfold Dev.drainSq
  split <;> rfl

theorem Dev.putCpl_ring (d : Dev) (c : Cpl) (g : Nat) : (d.putCpl c).ring g = d.ring g := by
  have hwritten (m : Nat) (bs : Bytes) : (d.writeHost c.fn m bs false).nt.rings = d.nt.rings := by
    rw [(d.writeHost_settles c.fn m bs false).same]
  unfold Dev.putCpl
  dsimp only
  refine forEach_induct (P := fun e : Dev => e.ring g = d.ring g) (f := fun a d => d.incSat (Reg.AR_PWR_LP_count.ix a))
    (fun x e he => he) _ _ ?_
  show Dev.ring (if _ then _ else _) g = _
  split
  · simp only [Dev.ring, Dev.wrB_keeps, Dev.wr_keeps, hwritten]
  · simp only [Dev.ring, Dev.wr_keeps, hwritten]

theorem Dev.endCmd_ring (d : Dev) (adm status dw3 g : Nat) : (d.endCmd adm status dw3).ring g = d.ring g := by
  cases hc : d.cmd? adm with
  | none => simp only [Dev.endCmd, hc]
  | some c =>
    have hdropped : ((d.recordEnd c status).dropCmd adm).ring g = d.ring g := rfl
    rw [Dev.endCmd_eq hc]
    generalize (d.recordEnd c status).dropCmd adm = x at *
    split
    · rw [Dev.drainSq_ring, hdropped]
    · unfold Dev.postCpl Dev.writeCpl Dev.raiseCq
      split
      · rw [Dev.drainSq_ring]
        split
        · rw [(Dev.raiseVec_settles _ _ _).ring, Dev.putCpl_ring, Dev.drainSq_ring, hdropped]
        · rw [Dev.putCpl_ring, Dev.drainSq_ring, hdropped]
      · exact hdropped

/-! ### What host writes leave -/

theorem Dev.writeXfer_settles (d : Dev) (c : Cmd) (off : Nat) (bs : Bytes) : Dev.Settles d (d.writeXfer c off bs) := by
  unfold Dev.writeXfer
  exact forEach_induct (P := Dev.Settles d) (fun _ e he => he.trans (e.writeHost_settles _ _ _ _)) _ d (.refl d)

theorem Dev.writeXfer_reports (d : Dev) (c : Cmd) (off : Nat) (bs : Bytes) : Dev.Reports d (d.writeXfer c off bs) := by
  unfold Dev.writeXfer
  exact Dev.Reports.forEach _ (fun _ e => e.writeHost_reports _ _ _ _) _ d

theorem Dev.cmd?_of_admin? {d : Dev} {op adm : Nat} {c : Cmd} (h : d.admin? op adm = some c) :
    d.cmd? adm = some c ∧ eOpcode c.entry = op := by
  simp only [Dev.admin?, Option.filter_eq_some_iff, Bool.and_eq_true, decide_eq_true_eq] at h
  exact ⟨h.1, h.2.1.1⟩

end Machine

/-! ### Ends of admin commands -/

/-- A bad field ends a command. -/
def EndsBad (d : Dev) (c : Cmd) (w : Nat) (e : Dev) : Prop :=
  Ended d e c ssInvalidField w ∧ Frame d e (endFields c) [.qmx, .dram, .host]

/-- A command returns data and ends. -/
def EndsWith (d : Dev) (c : Cmd) (x : Bytes × Nat) (e : Dev) : Prop :=
  Ended d e c ssSuccess x.2 ∧ (d.writeXfer c 0 x.1).emitted <:+ e.emitted ∧ Frame d e (endFields c) [.qmx, .dram, .host]

section

variable {d : Dev} {op adm : Nat} {c : Cmd} (h : d.admin? op adm = some c) (hop : isWriteClass op = false)
include h hop

theorem endsBad_endCmd (w : Nat) : EndsBad d c w (d.endCmd adm ssInvalidField w).settle := by
  obtain ⟨hc, hopc⟩ := Dev.cmd?_of_admin? h
  exact ⟨ended_read hc (by rw [hopc, hop]) _ _, Frame.ended hc _ _⟩

/-- A command without data ends in success. -/
theorem ends_endCmd (w : Nat) : Ended d (d.endCmd adm ssSuccess w).settle c ssSuccess w ∧
    Frame d (d.endCmd adm ssSuccess w).settle (endFields c) [.qmx, .dram, .host] := by
  obtain ⟨hc, hopc⟩ := Dev.cmd?_of_admin? h
  exact ⟨ended_read hc (by rw [hopc, hop]) _ _, Frame.ended hc _ _⟩

theorem endsWith_endCmd (x : Bytes × Nat) : EndsWith d c x ((d.writeXfer c 0 x.1).endCmd adm ssSuccess x.2).settle := by
  obtain ⟨hc, hopc⟩ := Dev.cmd?_of_admin? h
  have hsettles := d.writeXfer_settles c 0 x.1
  have hframe : Frame d (d.writeXfer c 0 x.1) (endFields c) [.qmx, .dram, .host] :=
    (Frame.refl _ _ _).reports (d.writeXfer_reports c 0 x.1)
  have hkept := d.writeXfer_kept c 0 x.1
  have hrd := (d.writeXfer_reports c 0 x.1).rd
  unfold EndsWith
  generalize d.writeXfer c 0 x.1 = e at *
  have hqmx : e.qmx = d.qmx := by rw [hsettles.same]
  have hec : e.cmd? adm = some c := by rw [Dev.cmd?, hqmx]; exact hc
  have hfn : e.fn c.fn = d.fn c.fn := by rw [hsettles.same]; rfl
  have hended : Ended e (e.endCmd adm ssSuccess x.2).settle c ssSuccess x.2 := ended_read hec (by rw [hopc, hop]) _ _
  refine ⟨hended.of_same ?_ (congrArg FnState.held hfn) fun g _ => hrd _,
    (e.endCmd_kept _ _ _).sent.trans (Dev.settle_sent _), (hframe.endCmd hec _ _).settle⟩
  rw [Dev.canPost, hkept.canDma, hqmx, Dev.canPost]

/-- The cases of a command that returns data. -/
theorem adminData_gives (check : Cmd → Option Nat) (data : Cmd → Bytes × Nat) :
    (∀ w, check c = some w → EndsBad d c w (d.adminData op adm check data).settle) ∧
    (check c = none → (eInd c.entry = false ∨ c.stage ≠ .ready) → d.canDma c.fn = true →
      EndsWith d c (data c) (d.adminData op adm check data).settle) := by
  refine ⟨fun w hw => ?_, fun hnone hdirect hdma => ?_⟩
  · simp only [Dev.adminData, h, hw]
    exact endsBad_endCmd h hop w
  · have hno : (eInd c.entry && decide (c.stage = .ready)) = false := by
      rcases hdirect with hd | hs
      · rw [hd, Bool.false_and]
      · rw [decide_eq_false hs, Bool.and_false]
    simp only [Dev.adminData, h, hnone, hno, hdma, Bool.not_true, Bool.false_eq_true, if_false]
    exact endsWith_endCmd h hop (data c)

end

/-! ### O36 -/

section

variable {adm w : Nat} {c : Cmd} {s : State}

theorem gives_identify (h : s.dev.admin? opIdentify adm = some c) :
    (s.dev.identifyBad c = some w → Gives (.identify adm) s (EndsBad s.dev c w)) ∧
    (s.dev.identifyBad c = none → (eInd c.entry = false ∨ c.stage ≠ .ready) ∧ s.dev.canDma c.fn = true →
      Gives (.identify adm) s (EndsWith s.dev c (padB 4096 (s.dev.identifyPage c), 0))) := by
  obtain ⟨hbad, hgood⟩ := adminData_gives h (by decide) s.dev.identifyBad fun c => (padB 4096 (s.dev.identifyPage c), 0)
  have hexec : exec (.identify adm) s = s.act fun d => d.adminData opIdentify adm d.identifyBad fun c => (padB 4096 (d.identifyPage c), 0) := rfl
  exact ⟨fun hw => gives_of_exec_eq_act hexec (hbad w hw), fun hnone ⟨hdir, hdma⟩ => gives_of_exec_eq_act hexec (hgood hnone hdir hdma)⟩

theorem gives_getLog (h : s.dev.admin? opGetLog adm = some c) :
    (logEntrySize (dwBits c.entry 9 7 0) = 0 → w = 9 → Gives (.getLog adm) s (EndsBad s.dev c w)) ∧
    (logEntrySize (dwBits c.entry 9 7 0) ≠ 0 → (eInd c.entry = false ∨ c.stage ≠ .ready) ∧ s.dev.canDma c.fn = true →
      Gives (.getLog adm) s (EndsWith s.dev c (s.dev.logData c))) := by
  obtain ⟨hbad, hgood⟩ := adminData_gives h (by decide)
    (fun c => if logEntrySize (dwBits c.entry 9 7 0) = 0 then some 9 else none) s.dev.logData
  have hexec : exec (.getLog adm) s = s.act fun d => d.getLog adm := rfl
  exact ⟨fun hlog hw => gives_of_exec_eq_act hexec (hbad w (by rw [if_pos hlog, hw])),
    fun hlog ⟨hdir, hdma⟩ => gives_of_exec_eq_act hexec (hgood (if_neg hlog) hdir hdma)⟩

/-- What is wrong with the fields of an OUTCOME_READ. -/
def outcomeBad (c : Cmd) : Option Nat :=
  if 64 < dwBits c.entry 9 6 0 then some 9
  else if bitOf (dw c.entry 9) 8 && decide (dw c.entry 10 ≠ 0) then some 10 else none

theorem outcomeBad_eq_some (h : 64 < dwBits c.entry 9 6 0 ∨ (bitOf (dw c.entry 9) 8 = true ∧ dw c.entry 10 ≠ 0)) :
    outcomeBad c = some (if 64 < dwBits c.entry 9 6 0 then 9 else 10) := by
  unfold outcomeBad
  by_cases hbig : 64 < dwBits c.entry 9 6 0
  · rw [if_pos hbig, if_pos hbig]
  · obtain ⟨hmode, hasn⟩ := h.resolve_left hbig
    rw [if_neg hbig, if_neg hbig, hmode, decide_eq_true hasn]
    rfl

theorem outcomeBad_eq_none (h : ¬ (64 < dwBits c.entry 9 6 0 ∨ (bitOf (dw c.entry 9) 8 = true ∧ dw c.entry 10 ≠ 0))) :
    outcomeBad c = none := by
  obtain ⟨hbig, hmode⟩ := not_or.mp h
  rw [outcomeBad, if_neg hbig, if_neg (by simpa only [Bool.and_eq_true, decide_eq_true_eq] using hmode)]

theorem gives_outcomeRead (h : s.dev.admin? opOutcomeRead adm = some c) :
    ((64 < dwBits c.entry 9 6 0 ∨ (bitOf (dw c.entry 9) 8 = true ∧ dw c.entry 10 ≠ 0)) →
      w = (if 64 < dwBits c.entry 9 6 0 then 9 else 10) → Gives (.outcomeRead adm) s (EndsBad s.dev c w)) ∧
    (¬ (64 < dwBits c.entry 9 6 0 ∨ (bitOf (dw c.entry 9) 8 = true ∧ dw c.entry 10 ≠ 0)) →
      (eInd c.entry = false ∨ c.stage ≠ .ready) ∧ s.dev.canDma c.fn = true →
      Gives (.outcomeRead adm) s (EndsWith s.dev c (s.dev.outcomeData c))) := by
  obtain ⟨hbad, hgood⟩ := adminData_gives h (by decide) outcomeBad s.dev.outcomeData
  have hexec : exec (.outcomeRead adm) s = s.act fun d => d.adminData opOutcomeRead adm outcomeBad d.outcomeData := rfl
  exact ⟨fun hb hw => gives_of_exec_eq_act hexec (hbad w (by rw [outcomeBad_eq_some hb, hw])),
    fun hn ⟨hdir, hdma⟩ => gives_of_exec_eq_act hexec (hgood (outcomeBad_eq_none hn) hdir hdma)⟩

/-- Removing acknowledged entries one by one, while none has overflowed. -/
theorem detRemoved_eq (ids : List Nat) : ∀ d : Dev, d.dram.overflow = [] →
    Machine.forEach ids (fun i d => Dev.refillDet 1 (d.updDram fun m => { m with det := m.det.filter fun x => x.id ≠ i })) d =
      d.updDram fun m => { m with det := m.det.filter fun x => !ids.contains x.id } := by
  induction ids with
  | nil =>
    intro d _
    have hall : d.dram.det.filter (fun x => !([] : List Nat).contains x.id) = d.dram.det := List.filter_eq_self.mpr fun _ _ => rfl
    show d = d.updDram fun m => { m with det := m.det.filter fun x => !([] : List Nat).contains x.id }
    rw [Dev.updDram, hall]
  | cons i ids ih =>
    intro d hd
    have hstep : Dev.refillDet 1 (d.updDram fun m => { m with det := m.det.filter fun x => x.id ≠ i }) =
        d.updDram fun m => { m with det := m.det.filter fun x => x.id ≠ i } := by
      have hnone : (d.updDram fun m => { m with det := m.det.filter fun x => x.id ≠ i }).nextOverflow = none := by
        show (d.dram.overflow.foldl _ none : Option DetEntry) = none
        rw [hd]
        rfl
      rw [Dev.refillDet, hnone]
      split <;> rfl
    show Machine.forEach ids _ (Dev.refillDet 1 _) = _
    rw [hstep]
    refine (ih (d.updDram fun m => { m with det := m.det.filter fun x => x.id ≠ i }) hd).trans ?_
    have hfilter (xs : List DetEntry) : (xs.filter fun x => x.id ≠ i).filter (fun x => !ids.contains x.id) =
        xs.filter fun x => !(i :: ids).contains x.id := by
      rw [List.filter_filter]
      refine List.filter_congr fun x _ => ?_
      rw [List.contains_cons]
      by_cases hx : x.id = i <;> simp [hx]
    show ({ d with dram := _ } : Dev) = _
    simp only [Dev.updDram, hfilter]

theorem gives_detAck (h : s.dev.admin? opDetAck adm = some c) :
    (bitOf (dw c.entry 9) 31 = true → dwBits c.entry 9 9 0 ≠ 0 → w = 9 → Gives (.detAck adm) s (EndsBad s.dev c w)) ∧
    ((bitOf (dw c.entry 9) 31 = false ∨ dwBits c.entry 9 9 0 = 0) → s.dev.dram.overflow = [] → Gives (.detAck adm) s fun e =>
      Ended s.dev e c ssSuccess (s.dev.acked c.entry).length ∧
      e.dram.det = s.dev.dram.det.filter (fun x => !(s.dev.acked c.entry).contains x.id) ∧
      Frame s.dev e (endFields c) [.qmx, .dram, .host]) := by
  have hexec : exec (.detAck adm) s = s.act fun d => d.detAck adm := rfl
  refine ⟨fun hall hvol hw => gives_of_exec_eq_act hexec ?_, fun hone hover => gives_of_exec_eq_act hexec ?_⟩
  · simp only [Dev.detAck, h, hall, hvol, ne_eq, not_false_eq_true, decide_true, Bool.and_self, if_true, hw]
    exact endsBad_endCmd h (by decide) 9
  · have hgo : (bitOf (dw c.entry 9) 31 && decide (dwBits c.entry 9 9 0 ≠ 0)) = false := by
      rcases hone with h0 | h0
      · rw [h0, Bool.false_and]
      · rw [h0, decide_eq_false (not_not.mpr rfl), Bool.and_false]
    simp only [Dev.detAck, h, hgo, Bool.false_eq_true, if_false, detRemoved_eq _ _ hover]
    obtain ⟨hended, hframe⟩ := ends_endCmd (d := s.dev.updDram fun m =>
      { m with det := m.det.filter fun x => !(s.dev.acked c.entry).contains x.id }) h (by decide) (s.dev.acked c.entry).length
    have hstart : Frame s.dev (s.dev.updDram fun m => { m with det := m.det.filter fun x => !(s.dev.acked c.entry).contains x.id })
        (endFields c) [.qmx, .dram, .host] := (Frame.refl _ _ _).setDram _
    have hdet := ((s.dev.updDram fun m => { m with det := m.det.filter fun x => !(s.dev.acked c.entry).contains x.id }).endCmd_kept
      adm ssSuccess (s.dev.acked c.entry).length).same
    refine ⟨hended.of_same rfl rfl fun _ _ => rfl, ?_, hstart.trans hframe (List.Subset.refl _) (List.Subset.refl _)⟩
    rw [Dev.settle_dram, hdet]
    rfl

theorem gives_setEventMask (h : s.dev.admin? opSetEventMask adm = some c) :
    (64 < dwBits c.entry 9 6 0 → w = 9 → Gives (.setEventMask adm) s (EndsBad s.dev c w)) ∧
    (dwBits c.entry 9 6 0 ≤ 64 → Gives (.setEventMask adm) s fun e =>
      Ended s.dev e c ssSuccess 0 ∧ (e.ring (dwBits c.entry 9 6 0)).classMask = dwBits c.entry 10 15 0 ∧
      (e.ring (dwBits c.entry 9 6 0)).minSev = dwBits c.entry 11 3 0 ∧ Frame s.dev e (endFields c) [.qmx, .dram, .host]) := by
  have hexec : exec (.setEventMask adm) s = s.act fun d => d.setEventMask adm := rfl
  refine ⟨fun hbig hw => gives_of_exec_eq_act hexec ?_, fun hsmall => gives_of_exec_eq_act hexec ?_⟩
  · simp only [Dev.setEventMask, h, hbig, if_true, hw]
    exact endsBad_endCmd h (by decide) 9
  · simp only [Dev.setEventMask, h, not_lt.mpr hsmall, if_false]
    obtain ⟨hended, hframe⟩ := ends_endCmd (d := s.dev.updRing (dwBits c.entry 9 6 0) fun r =>
      { r with classMask := dwBits c.entry 10 15 0, minSev := dwBits c.entry 11 3 0 }) h (by decide) 0
    have hstart : Frame s.dev (s.dev.updRing (dwBits c.entry 9 6 0) fun r =>
        { r with classMask := dwBits c.entry 10 15 0, minSev := dwBits c.entry 11 3 0 }) (endFields c) [.qmx, .dram, .host] :=
      (Frame.refl _ _ _).reports (Dev.updRing_reports _ _ _)
    have hring := s.dev.ring_updRing (dwBits c.entry 9 6 0) fun r =>
      { r with classMask := dwBits c.entry 10 15 0, minSev := dwBits c.entry 11 3 0 }
    refine ⟨hended.of_same rfl rfl fun _ _ => rfl, ?_, ?_, hstart.trans hframe (List.Subset.refl _) (List.Subset.refl _)⟩
    · rw [Dev.settle_ring, Dev.endCmd_ring, hring]
    · rw [Dev.settle_ring, Dev.endCmd_ring, hring]

end

/-- Settles O36: each admin command checks its fields, acts and ends. -/
theorem adminCommands : Obligations.AdminCommands := by
  intro adm w c s
  exact ⟨gives_identify, gives_getLog, gives_outcomeRead, gives_detAck, gives_setEventMask⟩

end Sys2Proof
end

section
/-! Where the blocks of a volume lie, and what a read of them finds in the cache (R16, R109, R126, R175). -/

set_option Elab.async false

namespace Sys2Proof

open Sys2Proof.Machine

namespace Machine

/-! ### The layout of volumes -/

/-- The registers of arrays and volumes, the arrays and the stripe records are as before. -/
structure Dev.LayoutKept (d e : Dev) : Prop where
  high : ∀ f : Fld, 0xE0000 * 64 ≤ f.key → e.rd f = d.rd f
  arrs : e.lay.arrs = d.lay.arrs
  stripes : e.dram.stripes = d.dram.stripes

theorem Fld.ix_key_high (f : Fld) (i : Nat) (h : 0xE0000 * 64 ≤ f.key) : 0xE0000 * 64 ≤ (f.ix i).key := by
  rw [f.ix_key]
  exact h.trans (Nat.le_add_right _ _)

namespace Dev.LayoutKept

theorem refl (d : Dev) : Dev.LayoutKept d d := ⟨fun _ _ => rfl, rfl, rfl⟩

theorem trans {a b c : Dev} (h : Dev.LayoutKept a b) (k : Dev.LayoutKept b c) : Dev.LayoutKept a c :=
  ⟨fun f hf => (k.high f hf).trans (h.high f hf), k.arrs.trans h.arrs, k.stripes.trans h.stripes⟩

variable {d e : Dev} (h : Dev.LayoutKept d e)
include h

theorem ix (f : Fld) (i : Nat) (hf : 0xE0000 * 64 ≤ f.key := by decide) : e.rd (f.ix i) = d.rd (f.ix i) :=
  h.high _ (f.ix_key_high i hf)

theorem ix2 (f : Fld) (i j : Nat) (hf : 0xE0000 * 64 ≤ f.key := by decide) : e.rd ((f.ix i).ix j) = d.rd ((f.ix i).ix j) :=
  h.high _ ((f.ix i).ix_key_high j (f.ix_key_high i hf))

theorem arr (a : Nat) : e.arr a = d.arr a := by rw [Dev.arr, h.arrs, Dev.arr]

theorem stripe (a t : Nat) : e.stripe a t = d.stripe a t := by rw [Dev.stripe, h.stripes, Dev.stripe]

theorem livePort (a i : Nat) : e.livePort a i = d.livePort a i := by
  simp only [Dev.livePort, Dev.listPort, Dev.rdB, h.ix2 Reg.AR_MEMBER_valid_hi, h.ix2 Reg.AR_MEMBER_port_hi,
    h.ix2 Reg.AR_MEMBER_valid_lo, h.ix2 Reg.AR_MEMBER_port_lo]
  rfl

theorem geo (a : Nat) : e.geo a = d.geo a := by
  have hcount : e.memberCount a = d.memberCount a := by simp only [Dev.memberCount, h.livePort]
  have hrec (i : Nat) : e.recPort a i = d.recPort a i := by
    simp only [Dev.recPort, Dev.memberPort, Dev.rsTargetPorts, h.arr, h.livePort]
  have hports : e.recPort a = d.recPort a := funext hrec
  simp only [Dev.geo, hcount, hports, h.arr, h.ix Reg.AR_CFG_k, h.ix Reg.AR_CFG_m, h.ix Reg.AR_CFG_spares, h.ix Reg.AR_CFG_unit,
    h.ix Reg.AR_SEED_seed]

theorem targetGeo (a : Nat) : e.targetGeo a = d.targetGeo a := by
  simp only [Dev.targetGeo, h.arr, h.geo, h.ix Reg.AR_CFG_unit]

theorem volArray (v : Nat) : e.volArray v = d.volArray v := h.ix Reg.VD_CFG_array v

theorem place (v lba : Nat) : e.place v lba = d.place v lba := by
  have htarget (a n : Nat) : e.onTarget a n = d.onTarget a n := by
    simp only [Dev.onTarget, h.arr, h.targetGeo, h.ix Reg.AR_RS_CUR_cycle]
  simp only [Dev.place, h.volArray, h.geo, h.targetGeo, h.ix Reg.VD_FIRST_first, htarget]

theorem lostAt (v lba : Nat) : e.lostAt v lba = d.lostAt v lba := by
  simp only [Dev.lostAt, h.stripe, h.volArray, h.place]

theorem stepBlock (v lba : Nat) : e.stepBlock v lba = d.stepBlock v lba := by
  simp only [Dev.stepBlock, Dev.rsStep, h.volArray, h.arr, h.targetGeo, h.geo, h.place, h.stripe, h.ix Reg.VD_FIRST_first]

/-- What R16 gives a block, where the same copy is found. -/
theorem blockNow {v lba : Nat} (hc : (e.cached v lba).map (fun b => (b.data, b.crc)) = (d.cached v lba).map fun b => (b.data, b.crc)) :
    e.blockNow v lba = d.blockNow v lba := by
  simp only [Dev.blockNow, h.lostAt, h.stepBlock, h.stripe, h.volArray, h.place]
  cases hd : d.cached v lba with
  | none =>
    rw [hd, Option.map_none, Option.map_eq_none_iff] at hc
    rw [hc]
  | some b =>
    rw [hd, Option.map_some, Option.map_eq_some_iff] at hc
    obtain ⟨x, hx, hxb⟩ := hc
    obtain ⟨hdata, hcrc⟩ := Prod.mk.inj hxb
    rw [hx]
    simp only [hdata, hcrc]

end Dev.LayoutKept

/-! ### Copies that are read -/

/-- A list from which no element that a filter takes was dropped or changed. -/
theorem filter_map_filter_eq {α : Type} {p q : α → Bool} {g : α → α} (hq : ∀ x, q x = true → p x = true ∧ g x = x)
    (hn : ∀ x, q x = false → q (g x) = false) (xs : List α) : ((xs.filter p).map g).filter q = xs.filter q := by
  induction xs with
  | nil => rfl
  | cons x xs ih =>
    cases hx : q x with
    | true =>
      obtain ⟨hp, hg⟩ := hq x hx
      rw [List.filter_cons_of_pos hp, List.map_cons, hg, List.filter_cons_of_pos hx, List.filter_cons_of_pos hx, ih]
    | false =>
      rw [List.filter_cons_of_neg (p := q) (by rw [hx]; exact Bool.false_ne_true), ← ih]
      cases hp : p x with
      | true =>
        rw [List.filter_cons_of_pos hp, List.map_cons, List.filter_cons_of_neg (by rw [hn x hx]; exact Bool.false_ne_true)]
      | false => rw [List.filter_cons_of_neg (by rw [hp]; exact Bool.false_ne_true)]

/-- The use of one block's copy leaves the copies of others. -/
theorem Dev.touchClean_cached (d : Dev) {v lba lba' : Nat} (hne : lba' ≠ lba) : (d.touchClean v lba).cached v lba' = d.cached v lba' := by
  have hlist : (d.touchClean v lba).dram.cache.filter (fun b => b.isAt v lba' && !(d.touchClean v lba).hidden b) =
      d.dram.cache.filter fun b => b.isAt v lba' && !d.hidden b := by
    refine filter_map_filter_eq (q := fun b => b.isAt v lba' && !d.hidden b) (fun b hb => ?_) (fun b hb => ?_) _
    · have hno : b.isAt v lba = false := by
        simp only [CBlk.isAt, Bool.and_eq_true, decide_eq_true_eq] at hb
        obtain ⟨⟨⟨⟨-, hlba⟩, -⟩, -⟩, -⟩ := hb
        simp only [CBlk.isAt, hlba, hne, decide_false, Bool.and_false, Bool.false_and]
      simp only [hno, Bool.false_and, Bool.not_false, Bool.false_eq_true, if_false, and_self]
    · split
      · exact hb
      · exact hb
  simp only [Dev.cached, hlist]

/-- e is d but for its commands, its cache and the count of uses. -/
def Dev.CacheOnly (d e : Dev) : Prop :=
  e = { d with qmx := { d.qmx with cmds := e.qmx.cmds }, dram := { d.dram with cache := e.dram.cache }
               pwc := { d.pwc with clock := e.pwc.clock } }

theorem Dev.CacheOnly.trans {a b c : Dev} (h : Dev.CacheOnly a b) (k : Dev.CacheOnly b c) : Dev.CacheOnly a c := by
  unfold Dev.CacheOnly at h k ⊢
  rw [h] at k
  exact k

theorem Dev.CacheOnly.layout {d e : Dev} (h : Dev.CacheOnly d e) : Dev.LayoutKept d e := by
  unfold Dev.CacheOnly at h
  rw [h]
  exact ⟨fun _ _ => rfl, rfl, rfl⟩

theorem Dev.CacheOnly.same {d e : Dev} (h : Dev.CacheOnly d e) : (∀ g, e.rd g = d.rd g) ∧ (∀ f, e.canPost f = d.canPost f) ∧
    (∀ f, e.fn f = d.fn f) ∧ (∀ f, e.canDma f = d.canDma f) ∧ e.emitted = d.emitted := by
  unfold Dev.CacheOnly at h
  rw [h]
  exact ⟨fun _ => rfl, fun _ => rfl, fun _ => rfl, fun _ => rfl, rfl⟩

/-- A READ or VERIFY with the results of its first n blocks. -/
structure Dev.Serving (d : Dev) (adm : Nat) (c : Cmd) (n : Nat) (e : Dev) : Prop where
  only : Dev.CacheOnly d e
  stands : ∃ rs, e.cmd? adm = some { c with stage := .running, results := rs } ∧ ∀ o x k, o < n →
    d.blockNow (eVolume c.entry) (eLba c.entry + o) = some (.good x k) → Tbl.get? rs o = some (.good x k)
  later : ∀ o, n ≤ o → e.cached (eVolume c.entry) (eLba c.entry + o) = d.cached (eVolume c.entry) (eLba c.entry + o)

/-- One block served without a member. -/
def Dev.serveBlock (adm : Nat) (c : Cmd) (o : Nat) (d : Dev) : Dev :=
  match d.blockNow (eVolume c.entry) (eLba c.entry + o) with
  | some r => (d.setResult adm o r).touchClean (eVolume c.entry) (eLba c.entry + o)
  | none => d

variable {d e : Dev} {adm : Nat} {c : Cmd}

theorem Dev.Serving.step {n : Nat} (h : Dev.Serving d adm c n e) {r : BlkRes}
    (hr : d.blockNow (eVolume c.entry) (eLba c.entry + n) = some r) : Dev.Serving d adm c (n + 1) (Dev.serveBlock adm c n e) := by
  obtain ⟨honly, ⟨rs, hrs, hgot⟩, hlater⟩ := h
  have hnow : e.blockNow (eVolume c.entry) (eLba c.entry + n) = some r :=
    (honly.layout.blockNow (by rw [hlater n le_rfl])).trans hr
  simp only [Dev.serveBlock, hnow]
  refine ⟨honly.trans rfl, ⟨Tbl.put rs n r, ?_, fun o x k ho hx => ?_⟩, fun o ho => ?_⟩
  · exact Dev.cmd?_updCmd hrs (g := fun c => { c with results := Tbl.put c.results n r }) fun _ => rfl
  · by_cases hon : o = n
    · rw [hon, Tbl.get?_put_same, ← hr, ← hx, hon]
    · rw [Tbl.get?_put_other _ _ _ _ hon]
      exact hgot o x k (by omega) hx
  · rw [Dev.touchClean_cached _ (by omega)]
    exact hlater o (by omega)

theorem Dev.serving_all (hc : d.cmd? adm = some c) : ∀ n, (∀ o, o < n → ∃ x k, d.blockNow (eVolume c.entry) (eLba c.entry + o) = some (.good x k)) →
    Dev.Serving d adm c n (forEach (List.range n) (Dev.serveBlock adm c) (d.updCmd adm fun c => { c with stage := .running })) := by
  intro n
  induction n with
  | zero =>
    intro _
    refine ⟨rfl, ⟨c.results, ?_, fun o _ _ ho => absurd ho (Nat.not_lt_zero o)⟩, fun _ _ => rfl⟩
    exact Dev.cmd?_updCmd hc (g := fun c => { c with stage := .running }) fun _ => rfl
  | succ n ih =>
    intro h
    obtain ⟨x, k, hx⟩ := h n (Nat.lt_succ_self n)
    rw [List.range_succ]
    simp only [forEach, List.foldl_append, List.foldl_cons, List.foldl_nil]
    exact (ih fun o ho => h o (by omega)).step hx

/-- Every block of a command is at hand: none needs a member. -/
def Dev.AtHand (d : Dev) (c : Cmd) : Prop :=
  ∀ o, o < eCount c.entry → ∃ x k, d.blockNow (eVolume c.entry) (eLba c.entry + o) = some (.good x k)

theorem Dev.serveRead_atHand (hc : d.cmd? adm = some c) (h : d.AtHand c) : d.serveRead adm =
    (forEach (List.range (eCount c.entry)) (Dev.serveBlock adm c) (d.updCmd adm fun c => { c with stage := .running })).finishRead adm := by
  have hfar : ((List.range (eCount c.entry)).filter fun o =>
      ((d.updCmd adm fun c => { c with stage := .running }).blockNow (eVolume c.entry) (eLba c.entry + o)).isNone) = [] := by
    rw [List.filter_eq_nil_iff]
    intro o ho
    obtain ⟨x, k, hx⟩ := h o (List.mem_range.mp ho)
    have hkept : (d.updCmd adm fun c => { c with stage := .running }).blockNow (eVolume c.entry) (eLba c.entry + o) =
        d.blockNow (eVolume c.entry) (eLba c.entry + o) := rfl
    rw [hkept, hx]
    exact Bool.false_ne_true
  simp only [Dev.serveRead, hc, hfar, if_true, ne_eq, not_true_eq_false, and_false, if_false]
  rfl

end Machine

end Sys2Proof
end

section
/-! READ and VERIFY of blocks that need no member (R16, R48, R91, R94). -/

set_option Elab.async false

namespace Sys2Proof

open Sys2Proof.Machine

namespace Machine

/-! ### Bytes written to host memory -/

/-- Every byte of a transfer lies in one of its pieces. -/
theorem exists_piece (most : Nat) : ∀ fuel addr len j : Nat, len < fuel → j < len →
    ∃ p ∈ pieces fuel addr len most, p.1 ≤ addr + j ∧ addr + j < p.1 + p.2 ∧ addr ≤ p.1 := by
  intro fuel
  induction fuel with
  | zero => exact fun _ _ _ h _ => absurd h (Nat.not_lt_zero _)
  | succ n ih =>
    intro addr len j hfuel hj
    have hpage : addr % 4096 < 4096 := Nat.mod_lt _ (by decide)
    rw [pieces, if_neg (by omega)]
    dsimp only
    generalize hk : min len (min (max most 1) (4096 - addr % 4096)) = k
    have hk1 : 1 ≤ k ∧ k ≤ len := by omega
    by_cases hin : j < k
    · exact ⟨(addr, k), List.mem_cons_self, Nat.le_add_right _ _, Nat.add_lt_add_left hin _, le_rfl⟩
    · obtain ⟨p, hp, hlo, hhi, hbase⟩ := ih (addr + k) (len - k) (j - k) (by omega) (by omega)
      exact ⟨p, List.mem_cons_of_mem _ hp, by omega, by omega, by omega⟩

/-- A write to host memory was sent that puts a byte at an address. -/
def Dev.Wrote (d : Dev) (f addr : Nat) (v : Byte) : Prop :=
  ∃ a bs r, .memWrite f a bs r ∈ d.emitted ∧ a ≤ addr ∧ bs[addr - a]? = some v

theorem Dev.Wrote.of_suffix {d e : Dev} {f addr : Nat} {v : Byte} (h : d.Wrote f addr v) (hs : d.emitted <:+ e.emitted) :
    e.Wrote f addr v := by
  obtain ⟨a, bs, r, hw, hrest⟩ := h
  exact ⟨a, bs, r, hs.subset hw, hrest⟩

/-- What one step of a list of steps does, later steps keep. -/
theorem forEach_reaches {α : Type} {P : Dev → Prop} {f : α → Dev → Dev} (hkeep : ∀ x d, P d → P (f x d)) {xs : List α} {x : α}
    (hx : x ∈ xs) (hdo : ∀ d, P (f x d)) : ∀ d, P (forEach xs f d) := by
  induction xs with
  | nil => cases hx
  | cons y ys ih =>
    intro d
    rcases List.mem_cons.mp hx with rfl | hmem
    · exact forEach_induct hkeep ys _ (hdo d)
    · exact ih hmem _

theorem Dev.writeHost_wrote (d : Dev) (f addr : Nat) (bs : Bytes) (rel : Bool) {j : Nat} (hj : j < bs.length) :
    (d.writeHost f addr bs rel).Wrote f (addr + j) bs[j] := by
  obtain ⟨p, hp, hlo, hhi, hbase⟩ := exists_piece (d.maxPayload f) (bs.length + 1) addr bs.length j (Nat.lt_succ_self _) hj
  unfold Dev.writeHost
  refine forEach_reaches (P := fun e : Dev => e.Wrote f (addr + j) bs[j]) (fun q e he => ?_) hp (fun e => ?_) d
  · exact he.of_suffix ((Dev.exitL1_settles e).sent.trans (Dev.emit_settles _ _).sent)
  · refine ⟨p.1, (bs.drop (p.1 - addr)).take p.2, rel && (e.fn f).relaxed, ?_, hlo, ?_⟩
    · exact List.mem_cons_self
    · rw [List.getElem?_take, if_pos (by omega), List.getElem?_drop, show p.1 - addr + (addr + j - p.1) = j by omega]
      exact List.getElem?_eq_getElem hj

/-- A direct transfer's bytes go to their places. -/
theorem Dev.writeXfer_wrote (d : Dev) {c : Cmd} {off : Nat} {bs : Bytes} (hdirect : eInd c.entry = false)
    (hfit : off + bs.length ≤ eLength c.entry) {j : Nat} (hj : j < bs.length) :
    (d.writeXfer c off bs).Wrote c.fn (eAddr c.entry + off + j) bs[j] := by
  have hmap : mapRange c.ranges off bs.length 0 = [(eAddr c.entry + off, bs.length, 0)] := by
    rw [Cmd.ranges, hdirect, if_neg Bool.false_ne_true, mapRange, if_neg (by omega), if_neg (by dsimp only; omega)]
    simp only [mapRange, Nat.min_eq_left (show bs.length ≤ eLength c.entry - off by omega)]
  rw [Dev.writeXfer, hmap]
  show (d.writeHost c.fn (eAddr c.entry + off) ((bs.drop 0).take bs.length) true).Wrote _ _ _
  rw [List.drop_zero, List.take_length]
  exact d.writeHost_wrote c.fn (eAddr c.entry + off) bs true hj

/-- A block is written with its zeros. -/
theorem padB_getElem? (n : Nat) (bs : Bytes) {j : Nat} (hj : j < n) : (padB n bs)[j]? = some (bs.getD j 0) := by
  rw [padB, List.getD_eq_getElem?_getD]
  by_cases hlt : j < bs.length
  · rw [List.getElem?_append_left (by rw [List.length_take]; omega), List.getElem?_take, if_pos hj, List.getElem?_eq_getElem hlt]
    rfl
  · rw [List.getElem?_append_right (by rw [List.length_take]; omega), List.getElem?_replicate, List.length_take, if_pos (by omega),
      List.getElem?_eq_none (by omega)]
    rfl

theorem padB_length (n : Nat) (bs : Bytes) : (padB n bs).length = n := by
  rw [padB, List.length_append, List.length_take, List.length_replicate]
  omega

theorem Tbl.mem_of_get?_eq {α : Type} {t : Tbl α} {k : Nat} {v : α} (h : Tbl.get? t k = some v) : (k, v) ∈ t := by
  induction t with
  | nil => cases h
  | cons p t ih =>
    obtain ⟨n, w⟩ := p
    rw [Tbl.get?] at h
    split at h
    · next hk => rw [hk, Option.some.inj h]; exact List.mem_cons_self
    · exact List.mem_cons_of_mem _ (ih h)

/-- A READ's block goes to its place in host memory. -/
theorem Dev.returnData_wrote (d : Dev) {c : Cmd} {o : Nat} {x : Block} {k : Nat} (hdirect : eInd c.entry = false)
    (hfit : 4096 * o + 4096 ≤ eLength c.entry) (hr : Tbl.get? c.results o = some (.good x k)) {j : Nat} (hj : j < 4096) :
    (d.returnData c).Wrote c.fn (eAddr c.entry + 4096 * o + j) (x.getD j 0) := by
  unfold Dev.returnData
  refine forEach_reaches (P := fun e : Dev => e.Wrote c.fn (eAddr c.entry + 4096 * o + j) (x.getD j 0)) (fun y e he => ?_)
    (Tbl.mem_of_get?_eq hr) (fun e => ?_) d
  · split
    · split
      · exact he.of_suffix ((e.writeXfer_settles _ _ _).sent.trans (Dev.writeHost_settles _ _ _ _ _).sent)
      · exact he.of_suffix (e.writeXfer_settles _ _ _).sent
    · exact he
  · have hlen : (padB blockBytes x).length = 4096 := padB_length _ _
    have hwrote := e.writeXfer_wrote (off := 4096 * o) (bs := padB blockBytes x) hdirect (by rw [hlen]; exact hfit) (j := j) (by rw [hlen]; exact hj)
    have hbyte : (padB blockBytes x)[j]'(by rw [hlen]; exact hj) = x.getD j 0 := by
      have h := padB_getElem? blockBytes x (j := j) hj
      rw [List.getElem?_eq_getElem (by rw [hlen]; exact hj)] at h
      exact Option.some.inj h
    rw [hbyte] at hwrote
    dsimp only
    split
    · exact hwrote.of_suffix (Dev.writeHost_settles _ _ _ _ _).sent
    · exact hwrote

/-! ### The start -/

variable {d e : Dev} {adm : Nat} {c : Cmd}

theorem Dev.Woken.layout (h : Dev.Woken d e) : Dev.LayoutKept d e := by
  refine ⟨fun f hf => h.fields f (Bool.eq_false_iff.mpr fun hp => ?_), ?_, ?_⟩
  · simp only [pstateKey, Bool.and_eq_true, decide_eq_true_eq] at hp
    omega
  · rw [h.same]
  · rw [h.same]

theorem Dev.Woken.cached (h : Dev.Woken d e) (v lba : Nat) : e.cached v lba = d.cached v lba := by
  have hdram : e.dram = d.dram := by rw [h.same]
  have hpwc : e.pwc = d.pwc := by rw [h.same]
  simp only [Dev.cached, Dev.hidden, hdram, hpwc]

theorem newestOf_mem {xs : List CBlk} {b : CBlk} (h : newestOf xs = some b) : b ∈ xs := by
  have hfold : ∀ (ys : List CBlk) (o : Option CBlk), (∀ x, o = some x → x ∈ xs) → (∀ y ∈ ys, y ∈ xs) →
      ∀ x, ys.foldl (fun o b => match o with | some x => if x.used < b.used then some b else some x | none => some b) o = some x →
        x ∈ xs := by
    intro ys
    induction ys with
    | nil => exact fun o ho _ x hx => ho x hx
    | cons y ys ih =>
      intro o ho hys
      refine ih _ (fun x hx => ?_) fun z hz => hys z (List.mem_cons_of_mem _ hz)
      cases o with
      | none => exact Option.some.inj hx ▸ hys y List.mem_cons_self
      | some z =>
        dsimp only at hx
        split at hx
        · exact Option.some.inj hx ▸ hys y List.mem_cons_self
        · exact ho x hx
  exact hfold xs none nofun (fun _ h => h) b h

theorem Dev.cached_mem {v lba : Nat} {b : CBlk} (h : d.cached v lba = some b) : b ∈ d.dram.cache := by
  simp only [Dev.cached, Option.or_eq_some_iff] at h
  rcases h with hd | ⟨-, hd | ⟨-, hd⟩⟩
  · exact (List.mem_filter.mp (List.mem_filter.mp (newestOf_mem hd)).1).1
  · exact (List.mem_filter.mp (List.mem_filter.mp (newestOf_mem hd)).1).1
  · exact (List.mem_filter.mp (List.mem_of_find?_eq_some hd)).1

/-- No copy that a read takes is bad. -/
def Dev.CopiesGood (d : Dev) : Prop := ∀ b ∈ d.dram.cache, b.copy (d.readGroup b) ≠ .bad ∧ b.copy (d.readGroup b) ≠ .wrong

theorem Dev.dramCheck_of_good (h : d.CopiesGood) (v lba : Nat) : d.dramCheck v lba = d := by
  unfold Dev.dramCheck
  split
  · rfl
  · next b hb =>
    obtain ⟨hbad, hwrong⟩ := h b (Dev.cached_mem hb)
    dsimp only
    split
    · next hc => exact absurd hc hbad
    · next hc => exact absurd hc hwrong
    · rfl
    · rfl

theorem Dev.Woken.copiesGood (h : Dev.Woken d e) (hg : d.CopiesGood) : e.CopiesGood := by
  have hdram : e.dram = d.dram := by rw [h.same]
  have hpwc : e.pwc = d.pwc := by rw [h.same]
  have hup (g : Group) : e.groupUp g = d.groupUp g := by
    cases g
    · exact congrArg (fun n => decide (n < grFailed)) (h.rdOf (f := Reg.PWC_STAT_grp_a) (by decide))
    · exact congrArg (fun n => decide (n < grFailed)) (h.rdOf (f := Reg.PWC_STAT_grp_b) (by decide))
  have hgroup (b : CBlk) : e.readGroup b = d.readGroup b := by simp only [Dev.readGroup, hup, hpwc]
  intro b hb
  rw [hdram] at hb
  rw [hgroup]
  exact hg b hb

theorem Dev.startRead_atHand (hc : d.cmd? adm = some c) (hgood : d.CopiesGood) (h : d.AtHand c) :
    ∃ x e, Dev.Woken d x ∧ Dev.Serving x adm c (eCount c.entry) e ∧ d.startRead adm = e.finishRead adm := by
  have hw := (d.ungate_woken .lay).trans ((d.ungate .lay).ungate_woken .pwc)
  have hchecked : ∀ os : List Nat, forEach os (fun o d => d.dramCheck (eVolume c.entry) (eLba c.entry + o)) ((d.ungate .lay).ungate .pwc) =
      (d.ungate .lay).ungate .pwc := by
    intro os
    induction os with
    | nil => rfl
    | cons o os ih =>
      show forEach os _ (((d.ungate .lay).ungate .pwc).dramCheck _ _) = _
      rw [Dev.dramCheck_of_good (hw.copiesGood hgood), ih]
  have hstart : d.startRead adm = ((d.ungate .lay).ungate .pwc).serveRead adm := by
    simp only [Dev.startRead, hc, hchecked]
  rw [hstart]
  generalize (d.ungate .lay).ungate .pwc = x at *
  have hqmx : x.qmx = d.qmx := by rw [hw.same]
  have hxc : x.cmd? adm = some c := by rw [Dev.cmd?, hqmx]; exact hc
  have hxh : x.AtHand c := fun o ho => by
    obtain ⟨y, k, hy⟩ := h o ho
    exact ⟨y, k, (hw.layout.blockNow (by rw [hw.cached])).trans hy⟩
  exact ⟨x, _, hw, Dev.serving_all hxc _ hxh, Dev.serveRead_atHand hxc hxh⟩

/-- The ends of a READ or VERIFY all of whose blocks have a good result. -/
theorem Dev.finishRead_eq {y : Cmd} (hy : e.cmd? adm = some y) (hstage : y.stage = .running) (hall : y.allResults = true)
    (hfirst : y.firstBad = none) (hdma : eOpcode y.entry = opRead → e.canDma y.fn = true ∧ y.silent = false) :
    e.finishRead adm = if eOpcode y.entry = opRead then
        (e.returnData y).endCmd adm (if y.recovered then ssRecovered else ssSuccess) y.recon
      else e.endCmd adm (if y.rewrites = 0 then ssSuccess else ssRecovered) y.rewrites := by
  by_cases hop : eOpcode y.entry = opRead
  · obtain ⟨hcan, hsilent⟩ := hdma hop
    simp only [Dev.finishRead, hy, hstage, hall, hfirst, hop, hcan, hsilent, ne_eq, not_true_eq_false, decide_false, decide_true,
      Bool.not_true, Bool.not_false, Bool.and_true, Bool.and_false, Bool.or_false, Bool.false_eq_true, if_false, if_true]
  · simp only [Dev.finishRead, hy, hstage, hall, hfirst, hop, ne_eq, not_true_eq_false, decide_false, Bool.not_true, Bool.false_and,
      Bool.or_false, Bool.false_eq_true, if_false]

theorem Cmd.allResults_of_good {y : Cmd} (h : ∀ o, o < eCount y.entry → ∃ b k, Tbl.get? y.results o = some (.good b k)) :
    y.allResults = true ∧ y.firstBad = none := by
  refine ⟨?_, ?_⟩
  · rw [Cmd.allResults, List.all_eq_true]
    intro o ho
    obtain ⟨b, k, hb⟩ := h o (List.mem_range.mp ho)
    rw [hb]
    rfl
  · rw [Cmd.firstBad, List.find?_eq_none.mpr]
    · rfl
    · intro o ho
      obtain ⟨b, k, hb⟩ := h o (List.mem_range.mp ho)
      rw [hb]
      exact Bool.false_ne_true

/-- The end of a READ or VERIFY that was served. -/
theorem Dev.Serving.finish {x : Dev} (h : Dev.Serving x adm c (eCount c.entry) e) (hhand : x.AtHand c)
    (hdma : eOpcode c.entry = opRead → x.canDma c.fn = true ∧ c.silent = false) :
    ∃ y, e.cmd? adm = some y ∧ y = { c with stage := .running, results := y.results } ∧
      (∀ o b k, o < eCount c.entry → x.blockNow (eVolume c.entry) (eLba c.entry + o) = some (.good b k) →
        Tbl.get? y.results o = some (.good b k)) ∧
      e.finishRead adm = if eOpcode c.entry = opRead then
          (e.returnData y).endCmd adm (if c.recovered then ssRecovered else ssSuccess) c.recon
        else e.endCmd adm (if c.rewrites = 0 then ssSuccess else ssRecovered) c.rewrites := by
  obtain ⟨honly, ⟨rs, hrs, hgot⟩, -⟩ := h
  refine ⟨_, hrs, rfl, hgot, ?_⟩
  obtain ⟨hall, hfirst⟩ := Cmd.allResults_of_good (y := { c with stage := .running, results := rs }) fun o ho => by
    obtain ⟨b, k, hb⟩ := hhand o ho
    exact ⟨b, k, hgot o b k ho hb⟩
  exact Dev.finishRead_eq hrs rfl hall hfirst fun hop => ⟨(honly.same.2.2.2.1 _).trans (hdma hop).1, (hdma hop).2⟩

end Machine

theorem Machine.Dev.CacheOnly.frame {d e : Dev} (h : Dev.CacheOnly d e) (fs : List Fld) (ps : List Part)
    (hq : Part.qmx ∈ ps := by decide) (hd : Part.dram ∈ ps := by decide) (hp : Part.pwc ∈ ps := by decide) : Frame d e fs ps := by
  have k := (((Frame.refl d fs ps).setQmx { d.qmx with cmds := e.qmx.cmds } hq).setDram { d.dram with cache := e.dram.cache } hd).setPwc
    { d.pwc with clock := e.pwc.clock } hp
  unfold Dev.CacheOnly at h
  dsimp only at k
  rwa [← h] at k

theorem Machine.Dev.returnData_settles (d : Dev) (c : Cmd) : Dev.Settles d (d.returnData c) := by
  unfold Dev.returnData
  refine forEach_induct (P := Dev.Settles d) (fun x e he => he.trans ?_) _ d (.refl d)
  split
  · exact .ite ((e.writeXfer_settles _ _ _).trans (Dev.writeHost_settles _ _ _ _ _)) (e.writeXfer_settles _ _ _)
  · exact .refl e

theorem Machine.Dev.returnData_reports (d : Dev) (c : Cmd) : Dev.Reports d (d.returnData c) := by
  unfold Dev.returnData
  refine Dev.Reports.forEach _ (fun x e => ?_) _ d
  split
  · exact .ite ((e.writeXfer_reports _ _ _).trans (Dev.writeHost_reports _ _ _ _ _)) (e.writeXfer_reports _ _ _)
  · exact .refl e

/-! ### O32 -/

/-- A direct command whose blocks are at hand and that nothing holds up. -/
structure ReadFree (d : Dev) (c : Cmd) : Prop where
  starts : d.StartsFree c
  direct : eInd c.entry = false
  unlocked : d.lockBlocked c = false
  good : d.CopiesGood
  hand : d.AtHand c

section

variable {op adm : Nat} {c : Cmd} {d : Dev} (hready : d.ready? op adm = some c) (hop : op = opRead ∨ op = opVerify) (h : ReadFree d c)
include hready hop h

/-- Where the start of a READ or VERIFY leads, with what the queues still hold. -/
theorem startIo_read (hdma : op = opRead → d.canDma c.fn = true ∧ c.silent = false) :
    ∃ e y, e.cmd? adm = some y ∧ y = { c with stage := .running, results := y.results } ∧
      (∀ o b k, o < eCount c.entry → d.blockNow (eVolume c.entry) (eLba c.entry + o) = some (.good b k) →
        Tbl.get? y.results o = some (.good b k)) ∧
      Frame d e (endFields c) [.qmx, .dram, .host, .pwc] ∧ (∀ g : Fld, 0xE0000 ≤ g.base → e.rd (g.ix c.cq) = d.rd (g.ix c.cq)) ∧
      e.canPost c.fn = d.canPost c.fn ∧ e.fn c.fn = d.fn c.fn ∧
      d.startIo op adm = if op = opRead then (e.returnData y).endCmd adm (if c.recovered then ssRecovered else ssSuccess) c.recon
        else e.endCmd adm (if c.rewrites = 0 then ssSuccess else ssRecovered) c.rewrites := by
  obtain ⟨hc, hopc, -⟩ := Dev.cmd?_of_ready? hready
  have hflush : op ≠ opFlush := by rcases hop with rfl | rfl <;> decide
  have hwrite : op ≠ opWrite := by rcases hop with rfl | rfl <;> decide
  have hstream : d.openStream c = d := by
    simp only [Dev.openStream, hopc, hwrite, decide_false, Bool.false_and, Bool.false_eq_true, if_false]
  have hstart : d.startIo op adm = d.startRead adm := by
    rw [Dev.startIo_of_free hready h.starts hflush, hstream, h.direct, if_neg Bool.false_ne_true]
    simp only [Dev.takeLock, hc, h.unlocked, Bool.false_eq_true, if_false, Dev.afterLock, hopc, if_pos hop]
  obtain ⟨x, e, hw, hserving, heq⟩ := Dev.startRead_atHand hc h.good h.hand
  have hnow (o : Nat) : x.blockNow (eVolume c.entry) (eLba c.entry + o) = d.blockNow (eVolume c.entry) (eLba c.entry + o) :=
    hw.layout.blockNow (by rw [hw.cached])
  have hcan (f : Nat) : x.canDma f = d.canDma f := by
    simp only [Dev.canDma, hw.fn, hw.frozen, hw.up]
    rw [hw.same]
  have hhalted : x.qmx = d.qmx := by rw [hw.same]
  have hxhand : x.AtHand c := fun o ho => by
    obtain ⟨b, k, hb⟩ := h.hand o ho
    exact ⟨b, k, (hnow o).trans hb⟩
  obtain ⟨y, hy, hyc, hgot, hfin⟩ := hserving.finish hxhand fun hr => by
    rw [hcan]
    exact hdma (hopc.symm.trans hr)
  obtain ⟨hrd, hpost, hfn, -, -⟩ := hserving.only.same
  refine ⟨e, y, hy, hyc, fun o b k ho hb => hgot o b k ho ((hnow o).trans hb), ?_, fun g hg => ?_, ?_, ?_, ?_⟩
  · exact (Frame.of_woken hw _ _).trans (hserving.only.frame _ _) (List.Subset.refl _) (List.Subset.refl _)
  · rw [hrd]
    exact hw.high g c.cq hg
  · rw [hpost, Dev.canPost, hcan, hhalted, Dev.canPost]
  · rw [hfn, hw.fn]
  · rw [hstart, heq, hfin, hopc]

end

/-- The commands that lead there end as they should. -/
theorem ended_served {d e : Dev} {adm : Nat} {c y : Cmd} (hy : e.cmd? adm = some y) (hyc : y = { c with stage := .running, results := y.results })
    (hread : isWriteClass (eOpcode c.entry) = false) (hframe : Frame d e (endFields c) [.qmx, .dram, .host, .pwc])
    (hrd : ∀ g : Fld, 0xE0000 ≤ g.base → e.rd (g.ix c.cq) = d.rd (g.ix c.cq)) (hpost : e.canPost c.fn = d.canPost c.fn)
    (hfn : e.fn c.fn = d.fn c.fn) (status dw3 : Nat) (hplain : plainDw3 status = true) :
    Ended d (e.endCmd adm status dw3).settle c status dw3 ∧
    Frame d (e.endCmd adm status dw3).settle (endFields c) [.qmx, .dram, .host, .pwc] := by
  have hentry : y.entry = c.entry := by rw [hyc]
  have hfields : endFields y = endFields c := by rw [hyc]; rfl
  have hended : Ended e (e.endCmd adm status dw3).settle y status dw3 := ended_read hy (by rw [hentry, hread]) _ _ hplain
  have hend : Frame d (e.endCmd adm status dw3).settle (endFields y) [.qmx, .dram, .host, .pwc] := by
    rw [← hfields] at hframe
    exact (hframe.endCmd hy _ _).settle
  rw [hfields] at hend
  refine ⟨?_, hend⟩
  have hc : Ended e (e.endCmd adm status dw3).settle c status dw3 := by
    rw [hyc] at hended
    exact hended
  exact hc.of_same hpost (congrArg FnState.held hfn) hrd

theorem readStatus_plain (b : Prop) [Decidable b] : plainDw3 (if b then ssSuccess else ssRecovered) = true ∧
    plainDw3 (if b then ssRecovered else ssSuccess) = true := by
  split <;> exact ⟨rfl, rfl⟩

theorem gives_verifyCmd {adm : Nat} {c : Cmd} {s : State} (hready : s.dev.ready? opVerify adm = some c) (h : ReadFree s.dev c) :
    Gives (.verify adm) s fun e => Ended s.dev e c (if c.rewrites = 0 then ssSuccess else ssRecovered) c.rewrites ∧
      Frame s.dev e (endFields c) [.qmx, .dram, .host, .pwc] := by
  refine gives_of_exec_eq_act (show exec (.verify adm) s = s.act fun d => d.startIo opVerify adm from rfl) ?_
  obtain ⟨-, hop, -⟩ := Dev.cmd?_of_ready? hready
  obtain ⟨e, y, hy, hyc, -, hframe, hrd, hpost, hfn, heq⟩ := startIo_read hready (.inr rfl) h fun h => absurd h (by decide)
  rw [heq, if_neg (by decide)]
  exact ended_served hy hyc (by rw [hop]; decide) hframe hrd hpost hfn _ _ (readStatus_plain _).1

theorem gives_readCmd {adm : Nat} {c : Cmd} {s : State} (hready : s.dev.ready? opRead adm = some c) (h : ReadFree s.dev c)
    (hdma : s.dev.canDma c.fn = true) (hsilent : c.silent = false) : Gives (.read adm) s fun e =>
      Ended s.dev e c (if c.recovered then ssRecovered else ssSuccess) c.recon ∧
      (eLength c.entry = 4096 * eCount c.entry → ∀ o x k, o < eCount c.entry →
        s.dev.blockNow (eVolume c.entry) (eLba c.entry + o) = some (.good x k) → ∀ j, j < 4096 →
          e.Wrote c.fn (eAddr c.entry + 4096 * o + j) (x.getD j 0)) ∧
      Frame s.dev e (endFields c) [.qmx, .dram, .host, .pwc] := by
  refine gives_of_exec_eq_act (show exec (.read adm) s = s.act fun d => d.startIo opRead adm from rfl) ?_
  obtain ⟨-, hop, -⟩ := Dev.cmd?_of_ready? hready
  obtain ⟨e, y, hy, hyc, hgot, hframe, hrd, hpost, hfn, heq⟩ := startIo_read hready (.inl rfl) h fun _ => ⟨hdma, hsilent⟩
  rw [heq, if_pos rfl]
  have hkept : y.entry = c.entry ∧ y.fn = c.fn := by rw [hyc]; exact ⟨rfl, rfl⟩
  obtain ⟨hentry, hfnc⟩ := hkept
  have hsettles := e.returnData_settles y
  have hreports := e.returnData_reports y
  have hcan : (e.returnData y).canPost c.fn = e.canPost c.fn := by
    have hwork : Dev.WorkKept e (e.returnData y) := e.returnData_kept y
    rw [Dev.canPost, hwork.canDma, show (e.returnData y).qmx = e.qmx by rw [hsettles.same], Dev.canPost]
  have hwrote (o : Nat) (x : Block) (k : Nat) (hfit : 4096 * o + 4096 ≤ eLength c.entry) (hr : Tbl.get? y.results o = some (.good x k))
      (j : Nat) (hj : j < 4096) : (e.returnData y).Wrote c.fn (eAddr c.entry + 4096 * o + j) (x.getD j 0) := by
    rw [← hfnc, ← hentry]
    exact e.returnData_wrote (by rw [hentry]; exact h.direct) (by rw [hentry]; exact hfit) hr hj
  generalize e.returnData y = z at *
  have hqmx : z.qmx = e.qmx := by rw [hsettles.same]
  have hzy : z.cmd? adm = some y := by rw [Dev.cmd?, hqmx]; exact hy
  have hzfn : z.fn c.fn = e.fn c.fn := by rw [hsettles.same]; rfl
  obtain ⟨hended, hend⟩ := ended_served hzy hyc (by rw [hop]; decide) (hframe.reports hreports) (fun g hg => (hreports.rd _).trans (hrd g hg))
    (hcan.trans hpost) (hzfn.trans hfn) (if c.recovered then ssRecovered else ssSuccess) c.recon (readStatus_plain _).2
  refine ⟨hended, fun hlen o x k ho hx j hj => ?_, hend⟩
  exact (hwrote o x k (by omega) (hgot o x k ho hx) j hj).of_suffix ((z.endCmd_kept _ _ _).sent.trans (Dev.settle_sent _))

/-- Settles O32: blocks that need no member are served at once, and go to their places in host memory. -/
theorem readsFromTheCache : Obligations.ReadsFromTheCache := by
  intro adm c s
  have hfree {op : Nat} (hop : op = opRead ∨ op = opVerify) (hready : s.dev.ready? op adm = some c)
      (h : s.dev.checkVolume c = none ∧ (s.dev.volExists (eVolume c.entry) && (s.dev.arr (s.dev.volArray (eVolume c.entry))).assembling) = false ∧
        eInd c.entry = false ∧ s.dev.lockBlocked c = false ∧ s.dev.CopiesGood ∧ s.dev.AtHand c) : ReadFree s.dev c := by
    obtain ⟨hcheck, hheld, hdirect, hlock, hgood, hhand⟩ := h
    obtain ⟨-, hopc, -⟩ := Dev.cmd?_of_ready? hready
    have hall : eFlushAll c.entry = false := by
      rw [eFlushAll, hopc]
      rcases hop with rfl | rfl <;> exact Bool.false_and _
    refine ⟨⟨hcheck, ?_⟩, hdirect, hlock, hgood, hhand⟩
    rw [Dev.holdsBack, hall, Bool.not_false, Bool.true_and, hheld]
  exact ⟨fun hready h => gives_verifyCmd hready (hfree (.inr rfl) hready h),
    fun hready h hdma hsilent => (gives_readCmd hready (hfree (.inl rfl) hready h) hdma hsilent).mono fun e ⟨hended, hwrote, hframe⟩ =>
      ⟨hended, hwrote, hframe⟩⟩

end Sys2Proof
end

section
/-! The DRAM groups: an uncorrectable copy whose channel is not one of the twelve (R150, R348). -/

set_option Elab.async false

namespace Sys2Proof

open Sys2Proof.Machine

/-- The channel number whose PWC_CH_HI lies on the BLK_STAT of the block at page 6: 0x50104 + 8 × 0x1FE2 is 0x60014. -/
def strayChannel : Nat := 0x1FE2

/-- A dirty block with good copies in both groups, that of group A on `strayChannel`. -/
def strayBlock : CBlk :=
  { vol := 0, lba := 0, array := 0, t := 0, data := [], crc := 0, zero := true, adm := 7, copyA := .good, copyB := .good,
    st := .dirty, persistent := true, wt := false, fua := false, stream := none, readAhead := false, used := 0,
    chA := strayChannel }

/-- `strayBlock` is cached while the block at page 6 is IDLE. -/
def strayState : State :=
  let d := linkedDev.wr (Reg.BLK_STAT_state.ix 6) stIdle
  { State.reset with dev := { d with dram := { d.dram with cache := [strayBlock] } } }

/-- Nine wrong symbols, on the lines of two DRAM devices. -/
def nineWrong : List (Nat × Nat) := (List.range 9).map fun i => (3 + i / 8, 2 * (i % 8))

theorem nineWrong_uncorrectable : rsDecode (errWord nineWrong) = .uncorrectable := by decide +kernel

/-- The repair of `strayBlock` counts on the state of the block at page 6, which then shows IDLE again. -/
theorem strayRepair_count :
    (strayState.dev.badItem .a (.block 0 0 7)).settle.rd (Reg.PWC_CH_HI_uncorr.ix strayChannel) = stIdle := by
  decide +kernel

theorem patrolRead_of_uncorrectable {d : Dev} {g : Group} {item : DramItem} {line : Nat} {bits : List (Nat × Nat)}
    (hup : d.groupUp g = true) (hstill : d.pwc.retraining ≠ some (d.itemChannel g item))
    (hbits : rsDecode (errWord bits) = .uncorrectable) : d.patrolRead g item line bits = d.badItem g item := by
  simp [Dev.patrolRead, hup, hstill, hbits]

theorem exec_patrolRead {g : Group} {item : DramItem} {line : Nat} {bits : List (Nat × Nat)} {s : State}
    (hbits : (bits.all fun b => decide (b.1 < 40 ∧ b.2 < 16)) = true) :
    exec (.patrolRead g item line bits) s = .next { s with dev := (s.dev.patrolRead g item line bits).settle } := by
  have hexec : exec (.patrolRead g item line bits) s =
      onUnit (bits.all fun b => decide (b.1 < 40 ∧ b.2 < 16)) s fun d => d.patrolRead g item line bits := rfl
  rw [hexec, hbits]
  rfl

/-- Refutes O40: the uncorrected count of a channel that the device does not have lies on another block's state, which the
end of the command brings up to date. -/
theorem not_dramGroups : ¬ Obligations.DramGroups := by
  intro h
  obtain ⟨-, -, hblock, -⟩ := h .a 0 (.block 0 0 7) 0 nineWrong strayState
  obtain ⟨-, -, hcount, -⟩ := (hblock 0 0 7 strayBlock (by decide +kernel) ⟨nineWrong_uncorrectable, by decide +kernel⟩ rfl
    (by decide +kernel) (.inl rfl) (by decide) rfl).devAfter
  have hbefore : strayState.dev.rd (Reg.PWC_CH_HI_uncorr.ix strayChannel) = stIdle := by decide +kernel
  have hchannel : strayState.dev.itemChannel .a (.block 0 0 7) = strayChannel := by decide +kernel
  rw [devAfter_of_exec_eq (exec_patrolRead (by decide)), patrolRead_of_uncorrectable (by decide +kernel) (by decide +kernel)
    nineWrong_uncorrectable, hchannel, strayRepair_count, hbefore] at hcount
  exact absurd hcount (by decide)

end Sys2Proof
end

section
/-! What the end of a drain leaves as it was (R93, R163, R179). -/

set_option Elab.async false

namespace Sys2Proof.Machine

theorem Dev.recount_kept (d : Dev) (adm : Nat) : Dev.WorkKept d (d.recount adm) := by
  unfold Dev.recount
  split
  · exact .refl d
  · dsimp only
    split
    · exact .refl d
    · exact (d.updCmd_kept _ _).trans (Dev.updRec_kept _ _ _ _)

theorem Dev.advance_kept (d : Dev) (adm : Nat) : Dev.WorkKept d (d.advance adm) := by
  refine (d.recount_kept adm).trans ?_
  unfold Dev.advance
  dsimp only
  generalize d.recount adm = e
  have hend (c : Cmd) (st dw3 : Nat) : Dev.WorkKept e (match c.lostFirst with
      | some o => e.endCmd adm ssLostWrite o
      | none => e.endCmd adm st dw3) := by split <;> exact e.endCmd_kept _ _ _
  split
  · exact .refl e
  · split
    · exact .ite (.ite (e.endCmd_kept _ _ _) (e.endCmd_kept _ _ _)) (.refl e)
    · refine .ite ?_ (.refl e)
      split
      · exact .ite (hend _ _ _) (.refl e)
      · exact .ite (.refl e) (.ite (hend _ _ _) (e.updCmd_kept _ _))

theorem Dev.recheck_kept (d : Dev) : Dev.WorkKept d d.recheck := .forEach (fun adm e => e.advance_kept adm) _ d

/-- What follows when blocks left the cache changes DRAM in the Outcome Log only, and nothing of SMC. -/
theorem Dev.afterDrain_dram (d : Dev) :
    d.afterDrain.dram = { d.dram with ologs := d.afterDrain.dram.ologs } ∧ d.afterDrain.smc = d.smc := by
  have hmode := d.tidyDue.recheck.refreshMode_frame.2
  have hdram : d.afterDrain.dram = d.tidyDue.recheck.dram := hmode .dram (by decide)
  have hsmc : d.afterDrain.smc = d.tidyDue.recheck.smc := hmode .smc (by decide)
  have hrecheck := d.tidyDue.recheck_kept.same
  rw [hdram, hsmc, hrecheck]
  exact ⟨rfl, rfl⟩

end Sys2Proof.Machine
end

section
/-! A fill that makes PWC fail a channel: the retraining run ends, and its held writes are applied (R156, R348). -/

set_option Elab.async false

namespace Sys2Proof.Machine

/-- The device in which an uncorrectable error of line 0 in group A, on a channel, is counted. -/
def Dev.lineErrorOn (d : Dev) (c : Nat) : Dev :=
  let d := ((((d.setLineCopy .a 0 (d.lineCopy .b 0)).errUncorr .pwc 2).countCorr c).incSat (Reg.PWC_CH_HI_uncorr.ix c))
  let times := d.ticks :: (Tbl.getD d.pwc.uncorrTimes c []).filter fun t => decide (d.ticks < t + ticksPerSec)
  d.updPwc fun p => { p with uncorrTimes := Tbl.put p.uncorrTimes c times }

/-- The device in which a lost channel's group fails. -/
def Dev.channelOut (d : Dev) (c : Nat) : Dev := (d.setChan c chanLost).errUncorr .pwc 6

/-- The 64th uncorrectable error of a channel within a second, that of line 0, fails the channel. -/
theorem badLine_of_lastError {d : Dev} (hup : d.groupUp .b = true)
    (hlast : 63 ≤ ((Tbl.getD d.pwc.uncorrTimes (Config.lineChannel 0 % 6) []).filter fun t =>
      decide (d.ticks < t + ticksPerSec)).length) :
    d.badLine .a 0 = (d.lineErrorOn (Config.lineChannel 0 % 6)).channelLost (Config.lineChannel 0 % 6) := by
  simp only [Dev.badLine, otherGroup, groupBase, hup, if_true, Nat.zero_add]
  exact if_pos (Nat.succ_le_succ hlast)

/-- Whether the loss of a channel fails its group, while the other group is up. -/
def Dev.losesGroup (d : Dev) (c : Nat) : Bool :=
  !d.pwc.bothLost && decide (d.chanState c ≠ chanLost) && decide (d.pwc.retraining ≠ some c) &&
  decide ((d.channelOut c).groupState (groupOf c) ≠ grFailed) && decide ((d.channelOut c).groupState (groupOf c) ≠ grRejoining) &&
  (d.channelOut c).groupUp (otherGroup (groupOf c))

theorem channelLost_of_losesGroup {d : Dev} {c : Nat} (h : d.losesGroup c = true) :
    d.channelLost c = (d.channelOut c).groupFail (groupOf c) := by
  simp only [Dev.losesGroup, Bool.and_eq_true, Bool.not_eq_true', decide_eq_true_eq] at h
  obtain ⟨⟨⟨⟨⟨hboth, hchan⟩, hretrain⟩, hfailed⟩, hrejoining⟩, hother⟩ := h
  have hstill : (d.channelOut c).pwc.retraining ≠ some c := hretrain
  unfold Dev.channelOut at *
  simp only [Dev.channelLost, hboth, hchan, hstill, hfailed, hrejoining, hother, Bool.false_or, decide_false, Bool.false_eq_true,
    if_false, if_true]

/-- The lines of group A and SMC are as they were. -/
def Dev.SameLines (d e : Dev) : Prop := e.dram.metaA = d.dram.metaA ∧ e.smc = d.smc

theorem Dev.SameLines.trans {a b c : Dev} (h : Dev.SameLines a b) (k : Dev.SameLines b c) : Dev.SameLines a c :=
  ⟨k.1.trans h.1, k.2.trans h.2⟩

theorem sameLines_of_same {d e : Dev} (hdram : e.dram = d.dram) (hsmc : e.smc = d.smc) : Dev.SameLines d e :=
  ⟨congrArg _ hdram, hsmc⟩

theorem afterDrain_sameLines (d : Dev) : Dev.SameLines d d.afterDrain := by
  obtain ⟨hdram, hsmc⟩ := d.afterDrain_dram
  exact ⟨by rw [hdram], hsmc⟩

theorem recompute_sameLines (d : Dev) : Dev.SameLines d d.recompute :=
  sameLines_of_same (d.recompute_frame.2 .dram (by decide)) (d.recompute_frame.2 .smc (by decide))

theorem squall_sameLines (d : Dev) (b : Blk) (c n : Nat) : Dev.SameLines d (d.squall b c n) :=
  sameLines_of_same (by simp) (by simp)

theorem nextFree_sameLines (d : Dev) : Dev.SameLines d d.nextFree := ⟨rfl, rfl⟩

theorem causeBit_sameLines (d : Dev) (b : Blk) (i : Nat) : Dev.SameLines d (d.causeBit b i) := ⟨rfl, rfl⟩

theorem updCache_sameLines (d : Dev) (g : List CBlk → List CBlk) : Dev.SameLines d (d.updCache g) := ⟨rfl, rfl⟩

theorem bmeErrAll_sameLines (d : Dev) (space x : Nat) : Dev.SameLines d (d.bmeErrAll space x) := by
  have hsame := (d.bmeErrAll_kept space x).same
  exact ⟨by rw [hsame], by rw [hsame]⟩

theorem onlyIf_sameLines (c : Bool) {f : Dev → Dev} (h : ∀ d, Dev.SameLines d (f d)) (d : Dev) : Dev.SameLines d (onlyIf c f d) := by
  unfold onlyIf
  split
  · exact h d
  · exact ⟨rfl, rfl⟩

/-- The failure of group A leaves its metadata lines and SMC as the end of the retraining run does. -/
theorem groupFail_sameLines (d : Dev) : Dev.SameLines (d.retrainEnd false) (d.groupFail .a) := by
  unfold Dev.groupFail Dev.dropCleanOf
  dsimp only
  generalize d.retrainEnd false = r
  refine .trans ?_ ((recompute_sameLines _).trans (afterDrain_sameLines _))
  refine .trans ?_ (nextFree_sameLines _)
  refine .trans ?_ (squall_sameLines _ _ _ _)
  refine .trans ?_ (causeBit_sameLines _ _ _)
  refine .trans ?_ (updCache_sameLines _ _)
  refine .trans ?_ (updCache_sameLines _ _)
  have hset : Dev.SameLines r ((r.setGroup .a grFailed).updPwc fun p => { p with rejoining := none }) := ⟨rfl, rfl⟩
  exact hset.trans (onlyIf_sameLines _ (fun d => bmeErrAll_sameLines d _ _) _)

end Sys2Proof.Machine

namespace Sys2Proof

open Sys2Proof.Machine

/-- The fill of line 0 is pending. Every channel of group A has had 63 uncorrectable errors within the second; a write of the
line to group A is held while channel 7 is being retrained. -/
def lastErrorDev : Dev :=
  { linkedDev with
    smc := { linkedDev.smc with regs := [⟨0, none, false, []⟩] }
    pwc := { linkedDev.pwc with
      retrainNext := some 7
      retraining := some 7
      retrainHeld := [(.a, 0, [1#8])]
      uncorrTimes := (List.range 6).map fun c => (c, List.replicate 63 0) } }

/-- Whichever channel of group A holds the line, its loss ends the retraining run, which writes the held line. -/
theorem lastError_channels : ∀ c < 6,
    63 ≤ ((Tbl.getD lastErrorDev.pwc.uncorrTimes c []).filter fun t => decide (lastErrorDev.ticks < t + ticksPerSec)).length ∧
    (lastErrorDev.lineErrorOn c).losesGroup c = true ∧ groupOf c = .a ∧
    (((lastErrorDev.lineErrorOn c).channelOut c).retrainEnd false).dram.metaA = [(0, [1#8])] ∧
    (((lastErrorDev.lineErrorOn c).channelOut c).retrainEnd false).smc = lastErrorDev.smc := by
  decide +kernel

theorem lastError_lineGroup : lastErrorDev.lineGroup 0 = .a := by
  have hset : lastErrorDev.setOf 0 % 2 = 0 := by decide +kernel
  have hup : lastErrorDev.groupUp .a = true := by decide +kernel
  have hstill : lastErrorDev.pwc.retraining = some 7 := rfl
  have hchannel : ¬ 7 = Config.lineChannel 0 % 6 := by omega
  simp [Dev.lineGroup, Dev.lineReadable, Dev.onRetrain, groupBase, hset, hup, hstill, hchannel]

theorem lastError_badLine :
    (lastErrorDev.badLine .a 0).dram.metaA = [(0, [1#8])] ∧ (lastErrorDev.badLine .a 0).smc = lastErrorDev.smc := by
  obtain ⟨hlast, hloses, hgroup, hheld, hsmc⟩ := lastError_channels (Config.lineChannel 0 % 6) (Nat.mod_lt _ (by omega))
  rw [badLine_of_lastError (by decide +kernel) hlast, channelLost_of_losesGroup hloses, hgroup]
  exact ⟨(groupFail_sameLines _).1.trans hheld, (groupFail_sameLines _).2.trans hsmc⟩

theorem smcRetry_of_none {d : Dev} (h : d.smc.waiting = []) : d.smcRetry = d := by
  have hsame : d.updSmc (fun s => { s with waiting := [] }) = d := by rw [← h]; rfl
  rw [Dev.smcRetry, h]
  exact hsame

/-- A fill that nobody waits for changes DRAM only where its line was bad. -/
theorem fillDone_dram {d : Dev} {la : Nat} {m : MissReg} (hm : d.missOf la = some m) (hreqs : m.reqs = [])
    (hwait : (d.badLine (d.lineGroup la) la).smc.waiting = []) (hkey : (d.badLine (d.lineGroup la) la).smc.rekeyRunning = false) :
    (d.fillDone la false).dram = (d.badLine (d.lineGroup la) la).dram := by
  unfold Dev.fillDone
  rw [hm, if_neg (by decide)]
  dsimp only
  generalize d.badLine (d.lineGroup la) la = b at hwait hkey ⊢
  rw [smcRetry_of_none (by simp [Dev.updSet, Dev.updSmc, hreqs, hwait])]
  simp [Dev.updSet, Dev.updSmc, hkey]

theorem lastError_line : (devAfter (.smcFillDone ⟨0, false⟩) { State.reset with dev := lastErrorDev }).lineCopy .a 0 = [1#8] := by
  have hexec : exec (.smcFillDone ⟨0, false⟩) { State.reset with dev := lastErrorDev } =
      .next { State.reset with dev := (lastErrorDev.fillDone 0 false).settle } := rfl
  obtain ⟨hheld, hsmc⟩ := lastError_badLine
  have hdram := fillDone_dram (d := lastErrorDev) (la := 0) (m := ⟨0, none, false, []⟩) rfl rfl
    (by rw [lastError_lineGroup, hsmc]; rfl) (by rw [lastError_lineGroup, hsmc]; rfl)
  rw [devAfter_of_exec_eq hexec]
  simp only [Dev.lineCopy, Dev.settle_dram, hdram, lastError_lineGroup, hheld]
  rfl

/-- Refutes O42: the fill's last error ends the retraining run, whose held write then overwrites the repaired line. -/
theorem not_metadataCacheRequests : ¬ Obligations.MetadataCacheRequests := by
  intro h
  obtain ⟨-, -, -, -, hbad, -⟩ := h 0 0 0 { State.reset with dev := lastErrorDev } (by decide) (by decide) (by decide +kernel)
  have hother : lastErrorDev.groupUp (otherGroup (lastErrorDev.lineGroup 0)) = true := by
    rw [lastError_lineGroup]
    decide +kernel
  obtain ⟨-, hline⟩ := (hbad ⟨0, none, false, []⟩ rfl rfl rfl rfl hother).devAfter
  rw [lastError_lineGroup, lastError_line] at hline
  exact absurd hline (by decide +kernel)

end Sys2Proof
end

section
/-! REBUILD on an array whose walk exists although no rebuild runs (R215, R232). -/

set_option Elab.async false

namespace Sys2Proof

open Sys2Proof.Machine

/-- Array 0 with an ACTIVE slot and MNT enabled. -/
def slotFields : List (Fld × Nat) :=
  [(Reg.AR_CFG_spares.ix 0, 1), ((Reg.AR_SLOT_state.ix 0).ix 0, slActive), (Reg.BLK_CTRL_en.ix Blk.mnt.page, 1)]

/-- A walk over array 0 is recorded while no maintenance activity is requested or runs. -/
def idleWalkState : State :=
  let d := slotFields.foldl (fun d p => d.wr p.1 p.2) (volumeDev [])
  { State.reset with dev := { d with lay := { d.lay with arrs := [(0, { cycles := 4, walk := some ⟨1, 0, 0, 0, 0, 0, 0, 0, [], 0⟩ })] } } }

/-- Refutes O46: REBUILD leaves a walk that exists as it is, and answers 5 while no rebuild runs. -/
theorem not_memberActions : ¬ Obligations.MemberActions := by
  intro h
  obtain ⟨-, -, -, -, -, -, -, -, hrebuild, -⟩ := h 0 0 0 0 idleWalkState (by decide) (by decide)
  obtain ⟨⟨-, hresult⟩, -⟩ := (hrebuild (by decide +kernel) (by decide +kernel) rfl (by decide +kernel) (by decide +kernel)
    (by decide +kernel)).devAfter
  exact absurd hresult (by decide +kernel)

end Sys2Proof
end

section
/-! GRACE_EXPIRE of a member whose array leaves a power state that no array has (R246, R253). -/

set_option Elab.async false

namespace Sys2Proof

open Sys2Proof.Machine

/-- Array 0 leaves power state 221, whose latency entry lies at the key of the state of its member 0. -/
def exitingState : State :=
  let fields := (Reg.AR_PWR_STAT_exiting.ix 0, 1) :: memberFields
  let d := fields.foldl (fun d p => d.wr p.1 p.2) (volumeDev [])
  let lay := { d.lay with arrs := [(0, { cycles := 4, exitFrom := 221 })] }
  { State.reset with dev := { d with lay := lay, dpx := { d.dpx with ports := [(0, { grace := true })] } } }

/-- Refutes O52: the latency measured at the end of the exit overwrites the state of the member that left. -/
theorem not_driveErrorsAndRecovery : ¬ Obligations.DriveErrorsAndRecovery := by
  intro h
  obtain ⟨-, -, -, -, -, -, -, -, -, -, -, -, -, hgrace, -⟩ :=
    h 0 0 0 ⟨0, 0, 0, 0, 0, 0, [], false, [], .repair, .done, false, 0, false⟩ [] .other exitingState (by decide)
  obtain ⟨-, -, hmember⟩ := (hgrace (by decide +kernel)).devAfter
  obtain ⟨hmissing, -⟩ := hmember 0 0 (by decide +kernel) (by decide +kernel)
  exact absurd hmissing (by decide +kernel)

end Sys2Proof
end

section
/-! Dusk writes back the dirty lines of SMC without invalidating them (R199). -/

set_option Elab.async false

namespace Sys2Proof

open Sys2Proof.Machine

/-! ### What leaves SMC as it is -/

theorem bmeSpoil_smc (d : Dev) (space lo hi : Nat) : (d.bmeSpoil space lo hi).smc = d.smc := by
  unfold Dev.bmeSpoil
  split <;> rfl

theorem bmeDrop_smc (d : Dev) (c : Nat) : (d.bmeDrop c).smc = d.smc := by
  have hactive (e : Dev) : (onlyIf (e.bmeState c ≠ 0) (fun d => d.bmeSpoilActive c 0) e).smc = e.smc := by
    unfold onlyIf
    split
    · exact bmeSpoil_smc ..
    · rfl
  have harmed (e : Dev) (sp lo hi : Nat) (b : Bool) : (onlyIf b (fun d => d.bmeSpoil sp lo hi) e).smc = e.smc := by
    unfold onlyIf
    split
    · exact bmeSpoil_smc ..
    · rfl
  have hset (e : Dev) : (e.bmeSetActive c 0 0 0 0 0 0).smc = e.smc := by simp [Dev.bmeSetActive]
  unfold Dev.bmeDrop
  split
  · rfl
  · simp only [Dev.updBmeCh_keeps, Dev.nextFree_keeps, Dev.wr_keeps, hset]
    exact (harmed ..).trans (hactive _)

theorem forEach_smc {α : Type} {f : α → Dev → Dev} (h : ∀ x e, (f x e).smc = e.smc) (xs : List α) (d : Dev) :
    (forEach xs f d).smc = d.smc :=
  forEach_induct (P := fun e => e.smc = d.smc) (fun x e he => (h x e).trans he) xs d rfl

theorem bmeDropAll_smc (d : Dev) : d.bmeDropAll.smc = d.smc := forEach_smc (fun c e => bmeDrop_smc e c) _ d

theorem portsAbandon_smc (d : Dev) : d.portsAbandon.smc = d.smc := by
  simp only [Dev.portsAbandon, Dev.updLay_keeps]
  refine forEach_smc (fun p e => ?_) _ d
  split <;> simp [Dev.unlink]

theorem writeGroupLine_smc (d : Dev) (g : Group) (la : Nat) (data : Bytes) : (d.writeGroupLine g la data).smc = d.smc := by
  unfold Dev.writeGroupLine
  split
  · rfl
  · split <;> rfl

theorem writeLine_smc (d : Dev) (la : Nat) (data : Bytes) : (d.writeLine la data).smc = d.smc :=
  (writeGroupLine_smc ..).trans (writeGroupLine_smc ..)

theorem setLink_smc (d : Dev) (l : Link) : (d.setLink l).smc = d.smc := by
  simp only [Dev.setLink]
  split <;> simp

/-! ### The start of a Dusk -/

/-- The device when a Dusk that starts reaches its drive ports. -/
def Machine.Dev.duskBegun (d : Dev) : Dev :=
  (((((d.duskFreeze.duskRecords).bpsStop 5).calDusk).retrainEnd false).bmeDropAll).setLink .abandoned

/-- A device keeps at least one set in SMC. -/
def Machine.Dev.HoldsSet (d : Dev) : Prop := d.smc.sets ≠ []

theorem holdsSet_of_smc {d e : Dev} (h : d.HoldsSet) (hsmc : e.smc = d.smc) : e.HoldsSet := by
  rwa [Dev.HoldsSet, hsmc]

theorem Machine.Dev.HoldsSet.wr {d : Dev} (h : d.HoldsSet) (f : Fld) (v : Nat) : (d.wr f v).HoldsSet :=
  holdsSet_of_smc h (by simp)

theorem Machine.Dev.HoldsSet.updVlt {d : Dev} (h : d.HoldsSet) (g : VltState → VltState) : (d.updVlt g).HoldsSet :=
  holdsSet_of_smc h rfl

theorem Machine.Dev.HoldsSet.opened {d : Dev} (h : d.HoldsSet) (b : Bool) (n : Nat) (g : VArea → VArea) (x : Emit) :
    (if b = true then d else (d.updArea n g).emit x).HoldsSet := by
  split
  · exact h
  · exact holdsSet_of_smc h (by simp [Dev.updArea])

theorem Machine.Dev.HoldsSet.scrubs {d : Dev} (h : d.HoldsSet) (xs : List Nat) :
    (forEach xs (fun a d => d.updScrub a fun x => { x with work := none }) d).HoldsSet :=
  holdsSet_of_smc h (forEach_smc (fun a x => by simp [Dev.updScrub]) xs d)

theorem Machine.Dev.HoldsSet.smcDusk {d : Dev} (h : d.HoldsSet) : d.smcDusk.HoldsSet := by
  have hlines (xs : List (Nat × Bytes)) : (forEach xs (fun x d => (d.writeLine x.1 x.2).retireLine x.1) d).smc = d.smc :=
    forEach_smc (fun x e => by simp [Dev.retireLine, writeLine_smc]) xs d
  simp only [Dev.HoldsSet, Dev.smcDusk, Dev.updSmc, hlines, ne_eq, List.map_eq_nil_iff]
  exact h

theorem Machine.Dev.HoldsSet.setMnt {d : Dev} (h : d.HoldsSet) (x : MntState) : Dev.HoldsSet { d with mnt := x } := h

theorem Machine.Dev.HoldsSet.setSys {d : Dev} (h : d.HoldsSet) (x : SysState) : Dev.HoldsSet { d with sys := x } := h

theorem Machine.Dev.HoldsSet.updEce {d : Dev} (h : d.HoldsSet) (g : EceState → EceState) : (d.updEce g).HoldsSet := h

theorem duskStart_holdsSet {d : Dev} {r t : Nat} (hdue : d.vlt.dusk = some (r, t)) (hfirst : d.vlt.duskStarted = false)
    (hsets : d.duskBegun.HoldsSet) : d.duskStart.HoldsSet := by
  have hports : d.duskBegun.portsAbandon.HoldsSet := holdsSet_of_smc hsets (portsAbandon_smc _)
  unfold Dev.duskStart
  rw [hdue]
  simp only [hfirst, Bool.false_eq_true, if_false]
  refine .updVlt (.opened (.wr (.wr (.wr (.wr (.wr ?_ _ _) _ _) _ _) _ _) _ _) _ _ _ _) _
  refine .setMnt (.smcDusk (.scrubs (.updEce (.setSys ?_ _) _) _)) _
  exact hports

/-- A Dusk is due while SMC holds one set. -/
def heldSetState : State :=
  { State.reset with dev := { State.reset.dev with
      vlt := { State.reset.dev.vlt with dusk := some (1, 0) }
      smc := { State.reset.dev.smc with sets := [(0, {})] } } }

theorem heldSet_begun : heldSetState.dev.duskBegun.smc.sets ≠ [] := by
  have hkept : ((((heldSetState.dev.duskFreeze.duskRecords).bpsStop 5).calDusk).retrainEnd false).smc.sets ≠ [] := by
    decide +kernel
  rwa [Dev.duskBegun, setLink_smc, bmeDropAll_smc]

/-- Refutes O56: the lines that SMC holds stay in their sets when a Dusk starts. -/
theorem not_duskAndDawn : ¬ Obligations.DuskAndDawn := by
  intro h
  obtain ⟨-, -, -, -, -, -, -, -, hstart, -⟩ :=
    h 0 0 0 0 ⟨0, [], [], [], false, false, [], false, false⟩ ⟨0, 0, 0, 0, [], {}, [], [], 0, [], [], none, none, [], 0, 0, 0, 0, []⟩ heldSetState
  obtain ⟨-, -, -, -, hsets, -⟩ := (hstart 1 0 rfl rfl).devAfter
  have hexec : exec .duskStart heldSetState = .next { heldSetState with dev := heldSetState.dev.duskStart.settle } := rfl
  simp only [devAfter_of_exec_eq hexec, Dev.settle_keeps] at hsets
  exact duskStart_holdsSet rfl rfl heldSet_begun hsets

end Sys2Proof
end

section
/-! What a reset of a function, and the resets that reach every function, leave unchanged (R54). -/

set_option Elab.async false

namespace Sys2Proof

open Sys2Proof.Machine

/-! ### Fields put back to their reset values -/

theorem Tbl.get?_filter_kept {α : Type} (m : Tbl α) (p : Nat → Bool) (k : Nat) (h : p k = true) :
    Tbl.get? (m.filter fun x => p x.1) k = Tbl.get? m k := by
  induction m with
  | nil => rfl
  | cons x r ih =>
    obtain ⟨k', v⟩ := x
    simp only [List.filter_cons]
    by_cases hk : k = k'
    · simp only [← hk, h, if_true, Tbl.get?]
    · split <;> simp only [Tbl.get?, if_neg hk, ih]

theorem Machine.Dev.rd_resetKeys_other (d : Dev) {p : Nat → Bool} {g : Fld} (h : p g.key = false) :
    (d.resetKeys p).rd g = d.rd g := by
  simp only [Dev.rd, Dev.resetKeys, Tbl.getD, Tbl.get?_filter_kept d.regs (fun k => !p k) g.key (by simp [h])]

/-- Keys of the fields that the end of a function's work, or of BME's, may change: the event rings' registers, BME's
registers after its header, queues. -/
def workKey (k : Nat) : Bool :=
  decide (0x22000 * 64 ≤ k ∧ k < 0x23000 * 64) || decide (0xB0050 * 64 ≤ k ∧ k < 0xC0000 * 64) || decide (0x100000 * 64 ≤ k)

/-- Those and the keys of the epochs. -/
def hostKey (k : Nat) : Bool := workKey k || decide (0x11000 * 64 ≤ k ∧ k < 0x12000 * 64)

namespace Machine

/-- e is d but for the host side: reads, commands, fetched entries, queues, functions, MSI-X, BME's sets, notes, and the
fields of the keys given. -/
structure Dev.HostSide (p : Nat → Bool) (d e : Dev) : Prop where
  same : e = { d with
    regs := e.regs, heldLow := e.heldLow, freeCtr := e.freeCtr, nt := e.nt, bme := e.bme
    hif := { d.hif with fns := e.hif.fns, msix := e.hif.msix, tags := e.hif.tags, waiting := e.hif.waiting }
    qmx := { d.qmx with cmds := e.qmx.cmds, fetched := e.qmx.fetched, credit := e.qmx.credit }
    dram := { d.dram with ologs := e.dram.ologs } }
  low : ∀ g : Fld, p g.key = false → e.rd g = d.rd g

namespace Dev.HostSide

variable {p : Nat → Bool}

theorem refl (d : Dev) : Dev.HostSide p d d := ⟨rfl, fun _ _ => rfl⟩

theorem trans {a b c : Dev} (h : Dev.HostSide p a b) (k : Dev.HostSide p b c) : Dev.HostSide p a c := by
  refine ⟨?_, fun g hg => (k.low g hg).trans (h.low g hg)⟩
  have hs := h.same
  have ks := k.same
  rw [hs] at ks
  exact ks

theorem ite {c : Prop} [Decidable c] {d a b : Dev} (h : Dev.HostSide p d a) (k : Dev.HostSide p d b) :
    Dev.HostSide p d (if c then a else b) := by split <;> assumption

theorem forEach {α : Type} {f : α → Dev → Dev} (h : ∀ x d, Dev.HostSide p d (f x d)) (xs : List α) (d : Dev) :
    Dev.HostSide p d (Machine.forEach xs f d) := forEach_induct (P := Dev.HostSide p d) (fun x e he => he.trans (h x e)) xs d (.refl d)

theorem wr (d : Dev) (f : Fld) (v : Nat) (h : p f.key = true) : Dev.HostSide p d (d.wr f v) := by
  refine ⟨rfl, fun g hg => Dev.rd_wr_other _ _ _ _ fun hkey => ?_⟩
  rw [hkey, h] at hg
  exact absurd hg (by decide)

theorem resetRange (d : Dev) (lo hi : Nat) (h : ∀ k, lo ≤ k / 64 → k / 64 < hi → p k = true) :
    Dev.HostSide p d (d.resetRange lo hi) := by
  refine ⟨rfl, fun g hg => Dev.rd_resetKeys_other d (p := fun k => decide (lo ≤ k / 64 ∧ k / 64 < hi)) (decide_eq_false fun hin => ?_)⟩
  rw [h _ hin.1 hin.2] at hg
  exact absurd hg (by decide)

theorem epochs {d e : Dev} (h : Dev.HostSide workKey d e) : Dev.HostSide hostKey d e :=
  ⟨h.same, fun g hg => h.low g (by simp only [hostKey, Bool.or_eq_false_iff] at hg; exact hg.1)⟩

end Dev.HostSide

theorem workKey_of_high {k : Nat} (h : 0x100000 * 64 ≤ k) : workKey k = true := by simp [workKey, h]

theorem workKey_bme {f : Fld} (i : Nat) (hf : 0xB0050 * 64 ≤ f.key) (hi : (f.ix i).key < 0xC0000 * 64) : workKey (f.ix i).key = true := by
  have hkey := f.ix_key i
  simp only [workKey, Bool.or_eq_true, decide_eq_true_eq]
  omega

/-! ### Work that ends in silence -/

theorem Dev.drainSq_hostSide (d : Dev) (q : Nat) : Dev.HostSide workKey d (d.drainSq q) := by
  have hkey := Reg.QD_SQ_STAT_state.ix_key q
  have hbase : Reg.QD_SQ_STAT_state.key = 0x100014 * 64 := rfl
  exact .ite (.wr d _ _ (workKey_of_high (by omega))) (.refl d)

theorem Dev.drainSq_fns (d : Dev) (q : Nat) : (d.drainSq q).hif.fns = d.hif.fns := by
  unfold Dev.drainSq
  split <;> rfl

theorem Dev.endCmd_hostSide {d : Dev} {adm : Nat} (h : ∀ c, d.cmd? adm = some c → c.silent = true) (status dw3 : Nat) :
    Dev.HostSide workKey d (d.endCmd adm status dw3) ∧ (d.endCmd adm status dw3).hif.fns = d.hif.fns := by
  cases hc : d.cmd? adm with
  | none =>
    have heq : d.endCmd adm status dw3 = d := by simp only [Dev.endCmd, hc]
    rw [heq]
    exact ⟨.refl d, rfl⟩
  | some c =>
    simp only [Dev.endCmd, hc, h c hc, if_true]
    refine ⟨.trans ?_ (Dev.drainSq_hostSide _ _), ?_⟩
    · exact ⟨rfl, fun _ _ => rfl⟩
    · exact Dev.drainSq_fns _ _

theorem Dev.stopCmd_hostSide {d : Dev} {adm : Nat} (h : ∀ c, d.cmd? adm = some c → c.silent = true) (status dw3 : Nat) :
    Dev.HostSide workKey d (d.stopCmd adm status dw3) ∧ (d.stopCmd adm status dw3).hif.fns = d.hif.fns := by
  have hdrop : Dev.HostSide workKey d (d.dropReads (kindIsCmd adm)) := ⟨rfl, fun _ _ => rfl⟩
  have hend (st x : Nat) : Dev.HostSide workKey d ((d.dropReads (kindIsCmd adm)).endCmd adm st x) ∧
      ((d.dropReads (kindIsCmd adm)).endCmd adm st x).hif.fns = d.hif.fns :=
    ⟨hdrop.trans (Dev.endCmd_hostSide (d := d.dropReads (kindIsCmd adm)) h st x).1,
      (Dev.endCmd_hostSide (d := d.dropReads (kindIsCmd adm)) h st x).2⟩
  cases hc : d.cmd? adm with
  | none =>
    have heq : d.stopCmd adm status dw3 = d := by simp only [Dev.stopCmd, hc]
    rw [heq]
    exact ⟨.refl d, rfl⟩
  | some c =>
    simp only [Dev.stopCmd, hc]
    split
    · split
      · split
        · exact hend _ _
        · exact hend _ _
      · exact hend _ _
    · exact ⟨⟨rfl, fun _ _ => rfl⟩, rfl⟩

theorem Dev.silenceCmd_hostSide (d : Dev) (adm status : Nat) :
    Dev.HostSide workKey d (d.silenceCmd adm status) ∧ (d.silenceCmd adm status).hif.fns = d.hif.fns := by
  have hstop := Dev.stopCmd_hostSide (d := d.updCmd adm fun c => { c with silent := true }) (fun _ => Dev.silent_of_cmd?) status 0
  have hsilent : Dev.HostSide workKey d (d.updCmd adm fun c => { c with silent := true }) := ⟨rfl, fun _ _ => rfl⟩
  exact ⟨hsilent.trans hstop.1, hstop.2⟩

/-! ### The reset of one function -/

/-- A function's work up to its queues: what waits or runs has ended. -/
def Dev.workStopped (d : Dev) (f : Nat) : Dev :=
  let d := { d with qmx := { d.qmx with fetched := d.qmx.fetched.filter fun e => d.sqOwner e.q ≠ some f } }
  let d := forEach (d.qmx.cmds.filter fun c => c.fn = f && !c.silent) (fun c d => d.silenceCmd c.adm ssAbortedFlr) d
  let d := d.updHif fun h => { h with
    tags := h.tags.map fun t => if t.fn = f then { t with kind := .dropped, quar := true } else t
    waiting := h.waiting.filter fun w => w.fn ≠ f }
  d.updFn f fun x => { x with held := [], heldOvf := false }

theorem Dev.resetWork_eq (d : Dev) (f : Nat) :
    d.resetWork f = ((d.workStopped f).clearQueues f).incWrap (Reg.HIF_FN_STAT_epoch.ix f) := rfl

theorem Dev.workStopped_hostSide (d : Dev) (f : Nat) : Dev.HostSide workKey d (d.workStopped f) ∧
    ((d.workStopped f).fn f) = { d.fn f with held := [], heldOvf := false } ∧
    ∀ g, g ≠ f → (d.workStopped f).fn g = d.fn g := by
  have hsilence (xs : List Cmd) (e : Dev) : Dev.HostSide workKey e (forEach xs (fun c d => d.silenceCmd c.adm ssAbortedFlr) e) ∧
      (forEach xs (fun c d => d.silenceCmd c.adm ssAbortedFlr) e).hif.fns = e.hif.fns :=
    forEach_induct (P := fun x => Dev.HostSide workKey e x ∧ x.hif.fns = e.hif.fns)
      (fun c x hx => ⟨hx.1.trans (x.silenceCmd_hostSide _ _).1, (x.silenceCmd_hostSide _ _).2.trans hx.2⟩) xs e ⟨.refl e, rfl⟩
  simp only [Dev.workStopped]
  generalize hs : forEach (List.filter (fun c => decide (c.fn = f) && !c.silent) d.qmx.cmds) _ _ = w
  obtain ⟨hside, hfns⟩ := hsilence (List.filter (fun c => decide (c.fn = f) && !c.silent) d.qmx.cmds)
    { d with qmx := { d.qmx with fetched := d.qmx.fetched.filter fun e => d.sqOwner e.q ≠ some f } }
  rw [hs] at hside hfns
  have hfn (g : Nat) : w.fn g = d.fn g := by simp only [Dev.fn, hfns]
  have hpopped : Dev.HostSide workKey d { d with qmx := { d.qmx with fetched := d.qmx.fetched.filter fun e => d.sqOwner e.q ≠ some f } } :=
    ⟨rfl, fun _ _ => rfl⟩
  refine ⟨(hpopped.trans hside).trans ⟨rfl, fun _ _ => rfl⟩, ?_, fun g hg => ?_⟩
  · rw [Dev.fn_updFn]
    exact congrArg (fun x : FnState => { x with held := [], heldOvf := false }) (hfn f)
  · exact (Dev.fn_updFn_other _ hg _).trans (hfn g)

/-- The descriptor of one SQ is cleared. -/
def Dev.sqCleared (q : Nat) (d : Dev) : Dev :=
  let d := d.resetRange (0x100000 + 64 * q) (0x100000 + 64 * q + 32)
  { d with qmx := { d.qmx with credit := Tbl.erase d.qmx.credit q } }

/-- The descriptor of one CQ is cleared. -/
def Dev.cqCleared (q : Nat) (d : Dev) : Dev := d.resetRange (0x100000 + 64 * q + 32) (0x100000 + 64 * q + 64)

/-- The descriptors of a function's queues are cleared. -/
def Dev.queuesCleared (d : Dev) (f : Nat) : Dev :=
  let d := forEach ((List.range (d.sqCount f)).map (d.sqBase f + ·)) Dev.sqCleared d
  forEach ((List.range (d.cqCount f)).map (d.cqBase f + ·)) Dev.cqCleared d

theorem Dev.clearQueues_eq (d : Dev) (f : Nat) : d.clearQueues f =
    ((d.queuesCleared f).resetRange (0x22000 + 32 * f) (0x22000 + 32 * f + 32)).updRing f fun _ => {} := rfl

theorem Dev.queuesCleared_hostSide (d : Dev) (f : Nat) : Dev.HostSide workKey d (d.queuesCleared f) ∧ (d.queuesCleared f).hif = d.hif := by
  have hsq (q : Nat) (e : Dev) : Dev.HostSide workKey e (Dev.sqCleared q e) :=
    .trans (.resetRange e (0x100000 + 64 * q) (0x100000 + 64 * q + 32) fun k hk _ => workKey_of_high (by omega))
      ⟨rfl, fun _ _ => rfl⟩
  have hcq (q : Nat) (e : Dev) : Dev.HostSide workKey e (Dev.cqCleared q e) :=
    .resetRange e (0x100000 + 64 * q + 32) (0x100000 + 64 * q + 64) fun k hk _ => workKey_of_high (by omega)
  have hif (xs : List Nat) (e : Dev) : (forEach xs Dev.sqCleared e).hif = e.hif :=
    forEach_induct (f := Dev.sqCleared) (P := fun x : Dev => x.hif = e.hif) (fun _ x (hx : x.hif = e.hif) => hx) xs e rfl
  have hif' (xs : List Nat) (e : Dev) : (forEach xs Dev.cqCleared e).hif = e.hif :=
    forEach_induct (f := Dev.cqCleared) (P := fun x : Dev => x.hif = e.hif) (fun _ x (hx : x.hif = e.hif) => hx) xs e rfl
  exact ⟨.trans (.forEach hsq _ _) (.forEach hcq _ _), (hif' _ _).trans (hif _ _)⟩

theorem Dev.clearQueues_hostSide (d : Dev) {f : Nat} (hf : f ≤ 64) : Dev.HostSide workKey d (d.clearQueues f) ∧
    (d.clearQueues f).hif = d.hif ∧ (d.clearQueues f).ring f = {} := by
  obtain ⟨hside, hif⟩ := d.queuesCleared_hostSide f
  rw [Dev.clearQueues_eq]
  refine ⟨.trans (.trans hside (.resetRange _ _ _ fun k hk hk' => ?_)) ⟨rfl, fun _ _ => rfl⟩, hif, Dev.ring_updRing _ _ _⟩
  simp only [workKey, Bool.or_eq_true, decide_eq_true_eq]
  omega

theorem epoch_key (f : Nat) : (Reg.HIF_FN_STAT_epoch.ix f).key = 0x11004 * 64 + 16 + 16 * f * 64 := Reg.HIF_FN_STAT_epoch.ix_key f

theorem hostKey_epoch {f : Nat} (hf : f ≤ 64) : hostKey (Reg.HIF_FN_STAT_epoch.ix f).key = true := by
  have hkey := epoch_key f
  simp only [hostKey, Bool.or_eq_true, decide_eq_true_eq]
  omega

theorem workKey_epoch {f : Nat} (hf : f ≤ 64) : workKey (Reg.HIF_FN_STAT_epoch.ix f).key = false := by
  have hkey := epoch_key f
  simp only [workKey, Bool.or_eq_false_iff, decide_eq_false_iff_not]
  omega

/-- A function's epoch counts, the others' stay. -/
def Dev.EpochCounted (d e : Dev) (f : Nat) : Prop :=
  e.rd (Reg.HIF_FN_STAT_epoch.ix f) = (d.rd (Reg.HIF_FN_STAT_epoch.ix f) + 1) % 2 ^ 16 ∧
  ∀ g, g ≤ 64 → g ≠ f → e.rd (Reg.HIF_FN_STAT_epoch.ix g) = d.rd (Reg.HIF_FN_STAT_epoch.ix g)

/-- What the reset of a function's work leaves of it and of the others. -/
theorem Dev.resetWork_hostSide (d : Dev) {f : Nat} (hf : f ≤ 64) : Dev.HostSide hostKey d (d.resetWork f) ∧
    (d.resetWork f).fn f = { d.fn f with held := [], heldOvf := false } ∧ (∀ g, g ≠ f → (d.resetWork f).fn g = d.fn g) ∧
    (d.resetWork f).ring f = {} ∧ Dev.EpochCounted d (d.resetWork f) f := by
  obtain ⟨hstop, hown, hothers⟩ := d.workStopped_hostSide f
  obtain ⟨hclear, hif, hring⟩ := (d.workStopped f).clearQueues_hostSide hf
  have hside := hstop.trans hclear
  rw [Dev.resetWork_eq]
  generalize (d.workStopped f).clearQueues f = e at hclear hif hring hside
  have hfn (g : Nat) : (e.incWrap (Reg.HIF_FN_STAT_epoch.ix f)).fn g = (d.workStopped f).fn g := by
    simp only [Dev.fn, Dev.incWrap_keeps, hif]
  refine ⟨hside.epochs.trans (.wr _ _ _ (hostKey_epoch hf)), (hfn f).trans hown, fun g hg => (hfn g).trans (hothers g hg), hring, ?_, ?_⟩
  · rw [Dev.rd_incWrap_same, hside.low _ (workKey_epoch hf)]
    rfl
  · intro g hg hne
    rw [Dev.rd_incWrap_other _ _ _ _ (by rw [epoch_key, epoch_key]; omega), hside.low _ (workKey_epoch hg)]

end Machine

end Sys2Proof
end

section
/-! Function-level resets and the clear of Memory Space Enable (R54, R55). -/

set_option Elab.async false

namespace Sys2Proof

open Sys2Proof.Machine

namespace Machine

theorem Dev.resetFn_eq (d : Dev) (f : Nat) : d.resetFn f = ((d.resetWork f).resetConfig f).resetMsix f := rfl

/-- A function's state after its configuration space was reset. -/
def configReset (x : FnState) : FnState :=
  { aerUncorr := x.aerUncorr, aerCorr := x.aerCorr, pmeEn := x.pmeEn, pmeStatus := x.pmeStatus, readyAt := x.readyAt
    cfg := x.cfg.filter fun p => decide (0x104 ≤ p.1 ∧ p.1 < 0x148), held := x.held, heldOvf := x.heldOvf }

/-- What the reset of a function leaves of it and of the others. -/
theorem Dev.resetFn_hostSide (d : Dev) {f : Nat} (hf : f ≤ 64) : Dev.HostSide hostKey d (d.resetFn f) ∧
    ((d.resetFn f).fn f).mse = false ∧ ((d.resetFn f).fn f).bme = false ∧ ((d.resetFn f).fn f).d3 = false ∧
    ((d.resetFn f).fn f).held = [] ∧ (∀ g, g ≠ f → (d.resetFn f).fn g = d.fn g) ∧ (d.resetFn f).ring f = {} ∧
    Dev.EpochCounted d (d.resetFn f) f := by
  obtain ⟨hside, hown, hothers, hring, hepoch⟩ := d.resetWork_hostSide hf
  rw [Dev.resetFn_eq]
  generalize d.resetWork f = e at hside hown hothers hring hepoch
  have hfn : ((e.resetConfig f).resetMsix f).fn f = configReset (e.fn f) := e.fn_updFn f configReset
  rw [hfn]
  refine ⟨hside.trans ⟨rfl, fun _ _ => rfl⟩, rfl, rfl, rfl, ?_, fun g hg => ?_, hring, hepoch⟩
  · rw [hown]
    rfl
  · exact (Dev.fn_updFn_other e hg configReset).trans (hothers g hg)

theorem Dev.HostSide.parts {p : Nat → Bool} {d e : Dev} (h : Dev.HostSide p d e) : e.dram.cache = d.dram.cache ∧ e.lay = d.lay ∧
    e.dpx = d.dpx ∧ e.staged = d.staged ∧ e.qmx.halted = d.qmx.halted := by
  rw [h.same]
  exact ⟨rfl, rfl, rfl, rfl, rfl⟩

theorem Dev.HostSide.frozen {d e : Dev} (h : Dev.HostSide hostKey d e) : e.frozen = d.frozen := by
  simp only [Dev.frozen, Dev.rdB, h.low Reg.HIF_CONTAIN_frozen (by decide)]

theorem Dev.settle_epoch (d : Dev) (f : Nat) :
    d.settle.rd (Reg.HIF_FN_STAT_epoch.ix f) = d.rd (Reg.HIF_FN_STAT_epoch.ix f) := by
  refine d.settle_rd _ ?_
  rw [epoch_key]
  simp only [stateKey, Bool.and_eq_false_iff, decide_eq_false_iff_not]
  omega

end Machine

section

variable {f : Nat} {s : State}

theorem exec_flrVf (hf : f ≤ 64) : exec (.flrVf f) s = s.act fun d => d.flrVf f := by
  simp only [exec, execFlrVf, ifUnit, decide_eq_true hf]
  rfl

theorem gives_flrVf (hf : f ≤ 64) (hup : s.dev.linkUp = true) (h0 : f ≠ 0) (hexists : s.dev.fnExists f = true) :
    Gives (.flrVf f) s (fun e =>
      (e.fn f).mse = false ∧ (e.fn f).bme = false ∧ (e.fn f).d3 = false ∧ (e.fn f).flr = true ∧ (e.fn f).held = [] ∧
      e.ring f = {} ∧ e.rd (Reg.HIF_FN_STAT_epoch.ix f) = (s.dev.rd (Reg.HIF_FN_STAT_epoch.ix f) + 1) % 2 ^ 16 ∧
      e.dram.cache = s.dev.dram.cache ∧ e.lay = s.dev.lay ∧ e.dpx = s.dev.dpx ∧ e.staged = s.dev.staged ∧
      e.qmx.halted = s.dev.qmx.halted ∧ e.frozen = s.dev.frozen ∧
      ∀ g, g ≠ f → (e.fn g).mse = (s.dev.fn g).mse ∧ (e.fn g).bme = (s.dev.fn g).bme) := by
  refine gives_of_exec_eq_act (exec_flrVf hf) ?_
  have hflr : s.dev.flrVf f = (s.dev.exitL1.resetFn f).updFn f fun x => { x with flr := true } := by
    rw [Dev.flrVf, if_pos (by simp [hup, h0, hexists])]
  have hwake (g : Nat) : s.dev.exitL1.fn g = s.dev.fn g := by
    unfold Dev.exitL1
    split <;> rfl
  obtain ⟨hside, hmse, hbme, hd3, hheld, hothers, hring, hepoch, -⟩ := s.dev.exitL1.resetFn_hostSide hf
  obtain ⟨wcache, wlay, wdpx, -, -, wstaged, whalted, -⟩ := s.dev.exitL1_kept.parts
  obtain ⟨hcache, hlay, hdpx, hstaged, hhalted⟩ := hside.parts
  have hfrozen := hside.frozen.trans s.dev.exitL1_kept.frozen
  rw [s.dev.exitL1_kept.low _ (by rw [epoch_key]; omega)] at hepoch
  rw [hflr]
  generalize s.dev.exitL1.resetFn f = e at *
  simp only [Dev.settle_fn, Dev.settle_ring, Dev.settle_keeps, Dev.settle_epoch, Dev.settle_frozen, Dev.fn_updFn]
  refine ⟨hmse, hbme, hd3, trivial, hheld, hring, hepoch, hcache.trans wcache, hlay.trans wlay, hdpx.trans wdpx,
    hstaged.trans wstaged, hhalted.trans whalted, hfrozen, fun g hg => ?_⟩
  rw [Dev.fn_updFn_other _ hg, hothers g hg, hwake]
  exact ⟨rfl, rfl⟩

theorem exec_flrComplete (hf : f ≤ 64) : exec (.flrComplete f) s = s.act fun d => d.updFn f fun x => { x with flr := false } := by
  simp only [exec, execFlrComplete, ifUnit, decide_eq_true hf]
  rfl

theorem gives_flrComplete (hf : f ≤ 64) : Gives (.flrComplete f) s (fun e =>
    (e.fn f).flr = false ∧ OnlyFields s.dev e [] ∧ e.qmx = s.dev.qmx) := by
  refine gives_of_exec_eq_act (exec_flrComplete hf) ⟨?_, ?_, ?_⟩
  · rw [Dev.settle_fn, Dev.fn_updFn]
  · exact onlyFields_settle_of_reports (s.dev.updFn_reports f _)
  · simp only [Dev.settle_keeps, Dev.updFn_keeps]

theorem exec_memorySpaceDisable (hf : f ≤ 64) : exec (.memorySpaceDisable f) s = s.act fun d => d.memDisable f := by
  simp only [exec, execMemorySpaceDisable, ifUnit, decide_eq_true hf]
  rfl

/-- A function whose Memory Space Enable is cleared, BME's sets ended with PF0's reads. -/
def Machine.Dev.memStopped (d : Dev) (f : Nat) : Dev :=
  let d := d.updFn f fun x => { x with mse := false }
  if f = 0 then
    forEach (List.range 8) (fun c d => if d.rd (Reg.BME_ACT_CFG_src_space.ix c) = spHost &&
      d.hif.tags.any (fun t => kindIsBme c t.kind) || d.hif.waiting.any (fun w => kindIsBme c w.kind)
      then d.bmeErr c 3 else d) d
  else d

theorem Machine.Dev.memStopped_kept (d : Dev) (f : Nat) : Dev.WorkKept (d.updFn f fun x => { x with mse := false }) (d.memStopped f) :=
  .ite (.forEach (fun c e => .ite (e.bmeErr_kept c 3) (.refl e)) _ _) (.refl _)

theorem gives_memorySpaceDisable (hf : f ≤ 64) (hexists : s.dev.fnExists f = true) (hon : (s.dev.fn f).mse = true) :
    Gives (.memorySpaceDisable f) s (fun e =>
      (e.fn f).mse = false ∧ (e.fn f).bme = (s.dev.fn f).bme ∧ (e.fn f).held = [] ∧ e.ring f = {} ∧
      e.rd (Reg.HIF_FN_STAT_epoch.ix f) = (s.dev.rd (Reg.HIF_FN_STAT_epoch.ix f) + 1) % 2 ^ 16 ∧
      e.dram.cache = s.dev.dram.cache ∧ e.lay = s.dev.lay) := by
  refine gives_of_exec_eq_act (exec_memorySpaceDisable hf) ?_
  have hmem : s.dev.memDisable f = (s.dev.memStopped f).resetWork f := by
    rw [Dev.memDisable, if_pos (by simp [hexists, hon])]
    rfl
  have hkept := s.dev.memStopped_kept f
  obtain ⟨hside, hown, -, hring, hepoch, -⟩ := (s.dev.memStopped f).resetWork_hostSide hf
  obtain ⟨hcache, hlay, -⟩ := hside.parts
  obtain ⟨kcache, klay, -⟩ := hkept.parts
  have hmse := hkept.mse f
  have hbme := hkept.bme f
  rw [Dev.fn_updFn] at hmse hbme
  rw [hkept.low _ (by rw [epoch_key]; omega)] at hepoch
  rw [hmem]
  simp only [Dev.settle_fn, Dev.settle_ring, Dev.settle_keeps, Dev.settle_epoch, hown]
  exact ⟨hmse, hbme, trivial, hring, hepoch, hcache.trans kcache, hlay.trans klay⟩

end

/-- Settles O18: what ends with a function's work touches its own queues, its record and its epoch. -/
theorem functionLevelResets : Obligations.FunctionLevelResets := fun _ _ hf =>
  ⟨gives_flrVf hf, gives_flrComplete hf, gives_memorySpaceDisable hf⟩

end Sys2Proof
end

section
/-! The resets that reach every function: PERST_N, hot reset and FLR of PF0 (R54, R55, R61, R85). -/

set_option Elab.async false

namespace Sys2Proof

open Sys2Proof.Machine

namespace Machine

/-! ### Events hold no completion back -/

/-- Every function holds the same completions back. -/
def Dev.SameHeld (d e : Dev) : Prop := ∀ f, (e.fn f).held = (d.fn f).held

theorem Dev.SameHeld.trans {a b c : Dev} (h : Dev.SameHeld a b) (k : Dev.SameHeld b c) : Dev.SameHeld a c :=
  fun f => (k f).trans (h f)

theorem Dev.SameHeld.ite {c : Prop} [Decidable c] {d a b : Dev} (h : Dev.SameHeld d a) (k : Dev.SameHeld d b) :
    Dev.SameHeld d (if c then a else b) := by split <;> assumption

theorem Dev.SameHeld.of_fns {d e : Dev} (h : e.hif.fns = d.hif.fns) : Dev.SameHeld d e := fun f => by
  simp only [Dev.fn, h]

theorem Dev.Settles.sameHeld {d e : Dev} (h : Dev.Settles d e) : Dev.SameHeld d e := .of_fns (by rw [h.same])

theorem Dev.updFn_sameHeld (d : Dev) (f : Nat) (g : FnState → FnState) (h : ∀ x, (g x).held = x.held) : Dev.SameHeld d (d.updFn f g) := by
  intro k
  by_cases hk : k = f
  · rw [hk, Dev.fn_updFn, h]
  · rw [Dev.fn_updFn_other _ hk]

theorem Dev.updRing_sameHeld (d : Dev) (f : Nat) (g : EvRing → EvRing) : Dev.SameHeld d (d.updRing f g) := .of_fns rfl

theorem Dev.writeEvent_sameHeld (d : Dev) (f : Nat) (x : Event) : Dev.SameHeld d (d.writeEvent f x) := by
  unfold Dev.writeEvent Dev.putEvent Dev.raiseRing
  exact .trans ((d.writeHost_settles f _ _ false).sameHeld.trans (Dev.updRing_sameHeld _ _ _))
    (.ite (Dev.raiseVec_settles _ _ _).sameHeld (.of_fns rfl))

theorem Dev.pmeEvent_sameHeld (d : Dev) (f : Nat) : Dev.SameHeld d (d.pmeEvent f) := by
  have h := d.updFn_sameHeld f (fun x => { x with pmeStatus := true }) fun _ => rfl
  unfold Dev.pmeEvent
  refine .ite (.ite (.ite (.ite (h.trans (.of_fns rfl)) h) (.ite ?_ h)) h) (.of_fns rfl)
  exact h.trans ((Dev.exitL1_settles _).trans (Dev.emit_settles _ _)).sameHeld

theorem Dev.post_sameHeld (d : Dev) (a b c e f g h : Nat) : Dev.SameHeld d (d.post a b c e f g h) := by
  have hpme (x : Dev) (k : Nat) (r : EvRing → EvRing) : Dev.SameHeld x ((x.updRing k r).pmeEvent k) :=
    (Dev.SameHeld.of_fns rfl).trans (Dev.pmeEvent_sameHeld _ k)
  unfold Dev.post Dev.deliver
  refine .ite (.of_fns rfl) (.ite ((hpme _ _ _).trans (Dev.writeEvent_sameHeld _ _ _)) (.ite ((hpme _ _ _).trans (.of_fns rfl))
    (.ite ((hpme _ _ _).trans (.of_fns rfl)) ?_)))
  exact (hpme _ _ _).trans (.trans (Dev.updFn_sameHeld _ _ (fun x => { x with heldOvf := true }) fun _ => rfl) (.of_fns rfl))

theorem Dev.postFreeze_kept (d : Dev) : ∃ o, Dev.WorkKept { d with hif := { d.hif with freezeOwed := o } } d.postFreeze := by
  unfold Dev.postFreeze
  split
  · exact ⟨d.hif.freezeOwed, .refl d⟩
  · exact ⟨none, Dev.post_kept _ _ _ _ _ _ _ _⟩

theorem Dev.postFreeze_sameHeld (d : Dev) : Dev.SameHeld d d.postFreeze := by
  unfold Dev.postFreeze
  split
  · exact .of_fns rfl
  · exact .trans (.of_fns rfl) (Dev.post_sameHeld _ _ _ _ _ _ _ _)

/-! ### What a host reset leaves -/

theorem forEachMem_induct {α σ : Type} {P : σ → Prop} {f : α → σ → σ} (xs : List α) (h : ∀ x ∈ xs, ∀ s, P s → P (f x s)) :
    ∀ s, P s → P (forEach xs f s) := by
  induction xs with
  | nil => exact fun _ hs => hs
  | cons x xs ih => exact fun s hs => ih (fun y hy => h y (List.mem_cons_of_mem x hy)) _ (h x List.mem_cons_self s hs)

theorem Dev.HostSide.mono {p q : Nat → Bool} {d e : Dev} (h : Dev.HostSide p d e) (hpq : ∀ k, q k = false → p k = false) :
    Dev.HostSide q d e := ⟨h.same, fun g hg => h.low g (hpq _ hg)⟩

theorem Dev.HostSide.onlyIf {p : Nat → Bool} {b : Bool} {f : Dev → Dev} (d : Dev) (h : ∀ e, Dev.HostSide p e (f e)) :
    Dev.HostSide p d (Machine.onlyIf b f d) := .ite (h d) (.refl d)

/-- The fields that the drop of a BME channel writes. -/
def bmeDropFields : List Fld :=
  [Reg.BME_ACT_SRC_addr, Reg.BME_ACT_DST_addr, Reg.BME_ACT_LEN_bytes, Reg.BME_ACT_CFG_irq, Reg.BME_ACT_CFG_dst_space,
    Reg.BME_ACT_CFG_src_space, Reg.BME_CH_STAT_error, Reg.BME_CH_STAT_state, Reg.BME_SH_CFG_armed, Reg.BME_CH_CTRL_en,
    Reg.BME_CH_DONE_bytes]

theorem workKey_bmeDrop : ∀ c < 8, ∀ g ∈ bmeDropFields, workKey (g.ix c).key = true := by decide +kernel

theorem Dev.bmeSpoil_hostSide (d : Dev) (space lo hi : Nat) : Dev.HostSide workKey d (d.bmeSpoil space lo hi) := by
  unfold Dev.bmeSpoil
  exact .ite ⟨rfl, fun _ _ => rfl⟩ (.refl d)

theorem Dev.nextFree_hostSide (d : Dev) : Dev.HostSide workKey d d.nextFree := ⟨rfl, fun _ _ => rfl⟩

theorem Dev.updBmeCh_hostSide (d : Dev) (c : Nat) (g : BmeCh → BmeCh) : Dev.HostSide workKey d (d.updBmeCh c g) :=
  ⟨rfl, fun _ _ => rfl⟩

theorem Dev.dropReads_hostSide (d : Dev) (mine : ReadKind → Bool) : Dev.HostSide workKey d (d.dropReads mine) :=
  ⟨rfl, fun _ _ => rfl⟩

theorem Dev.bmeDrop_hostSide (d : Dev) {c : Nat} (hc : c < 8) : Dev.HostSide workKey d (d.bmeDrop c) := by
  have hwr (e : Dev) (g : Fld) (v : Nat) (hg : g ∈ bmeDropFields) : Dev.HostSide workKey e (e.wr (g.ix c) v) :=
    .wr e _ v (workKey_bmeDrop c hc g hg)
  unfold Dev.bmeDrop Dev.bmeSetActive
  refine .ite (.refl d) ?_
  refine .trans ?_ (Dev.updBmeCh_hostSide _ _ _)
  refine .trans ?_ (Dev.nextFree_hostSide _)
  refine .trans ?_ (hwr _ Reg.BME_CH_DONE_bytes _ (by decide))
  refine .trans (.trans (.trans (.trans ?_ (hwr _ Reg.BME_CH_STAT_error _ (by decide))) (hwr _ Reg.BME_CH_STAT_state _ (by decide)))
    (hwr _ Reg.BME_SH_CFG_armed _ (by decide))) (hwr _ Reg.BME_CH_CTRL_en _ (by decide))
  refine .trans (.trans (.trans ?_ (hwr _ Reg.BME_ACT_CFG_irq _ (by decide))) (hwr _ Reg.BME_ACT_CFG_dst_space _ (by decide)))
    (hwr _ Reg.BME_ACT_CFG_src_space _ (by decide))
  refine .trans (.trans (.trans ?_ (hwr _ Reg.BME_ACT_SRC_addr _ (by decide))) (hwr _ Reg.BME_ACT_DST_addr _ (by decide)))
    (hwr _ Reg.BME_ACT_LEN_bytes _ (by decide))
  exact ((d.dropReads_hostSide _).trans (.onlyIf _ fun e => e.bmeSpoil_hostSide _ _ _)).trans (.onlyIf _ fun e => e.bmeSpoil_hostSide _ _ _)

/-- Keys of the fields that a host reset may change beside the epochs. -/
def lateKey (k : Nat) : Bool :=
  workKey k || stateKey k || decide (0xB0040 * 64 ≤ k ∧ k < 0xB0050 * 64) || rwlFields.any (fun x => decide (x.1.key = k)) ||
    (k / 64 < 0xE0000 && (k / 64) % 65536 = 0x1C) || (hostPage (k / 64) && keyHas .rw k)

/-- e is d but for the host side and the fields of the keys given: the parts that host resets leave are as before. -/
structure Dev.HostWide (p : Nat → Bool) (d e : Dev) : Prop where
  staged : e.staged = d.staged
  lay : e.lay = d.lay
  dpx : e.dpx = d.dpx
  mnt : e.mnt = d.mnt
  bps : e.bps = d.bps
  cache : e.dram.cache = d.dram.cache
  stripes : e.dram.stripes = d.dram.stripes
  intents : e.dram.intents = d.dram.intents
  sys : e.sys = d.sys
  ticks : e.ticks = d.ticks
  low : ∀ g : Fld, p g.key = false → e.rd g = d.rd g

theorem Dev.HostWide.trans {p : Nat → Bool} {a b c : Dev} (h : Dev.HostWide p a b) (k : Dev.HostWide p b c) : Dev.HostWide p a c :=
  ⟨k.staged.trans h.staged, k.lay.trans h.lay, k.dpx.trans h.dpx, k.mnt.trans h.mnt, k.bps.trans h.bps, k.cache.trans h.cache,
    k.stripes.trans h.stripes, k.intents.trans h.intents, k.sys.trans h.sys, k.ticks.trans h.ticks, fun g hg => (k.low g hg).trans (h.low g hg)⟩

theorem Dev.HostSide.wide {p : Nat → Bool} {d e : Dev} (h : Dev.HostSide p d e) : Dev.HostWide p d e := by
  have hsame := h.same
  have hlow := h.low
  generalize e.regs = a at hsame
  rw [hsame] at hlow ⊢
  exact ⟨rfl, rfl, rfl, rfl, rfl, rfl, rfl, rfl, rfl, rfl, hlow⟩

theorem Dev.HostWide.refl (p : Nat → Bool) (d : Dev) : Dev.HostWide p d d := ⟨rfl, rfl, rfl, rfl, rfl, rfl, rfl, rfl, rfl, rfl, fun _ _ => rfl⟩

theorem Dev.HostWide.ite {p : Nat → Bool} {c : Prop} [Decidable c] {d a b : Dev} (h : Dev.HostWide p d a) (k : Dev.HostWide p d b) :
    Dev.HostWide p d (if c then a else b) := by split <;> assumption

theorem Dev.wr_wide {p : Nat → Bool} (d : Dev) (f : Fld) (v : Nat) (h : p f.key = true) : Dev.HostWide p d (d.wr f v) :=
  (Dev.HostSide.wr d f v h).wide

theorem Dev.setState_wide (d : Dev) (b : Blk) (st : Nat) : Dev.HostWide lateKey d (d.setState b st) := by
  unfold Dev.setState
  have hkey : lateKey (Reg.BLK_STAT_state.ix b.page).key = true := by simp [lateKey, stateKey_state b]
  exact .ite (.refl _ d) (.trans (d.wr_wide _ st hkey) ⟨rfl, rfl, rfl, rfl, rfl, rfl, rfl, rfl, rfl, rfl, fun _ _ => rfl⟩)

theorem lateKey_of_workKey {k : Nat} (h : lateKey k = false) : workKey k = false := by
  simp only [lateKey, Bool.or_eq_false_iff] at h
  obtain ⟨⟨⟨⟨⟨h, -⟩, -⟩, -⟩, -⟩, -⟩ := h
  exact h

theorem Dev.bmeReset_wide (d : Dev) : Dev.HostWide lateKey d d.bmeReset := by
  have hdrop : Dev.HostSide workKey d d.bmeDropAll :=
    forEachMem_induct (P := Dev.HostSide workKey d) _ (fun c hc e he => he.trans (e.bmeDrop_hostSide (List.mem_range.1 hc))) d (.refl d)
  have hrange (e : Dev) : Dev.HostSide workKey e (e.resetRange 0xB0050 0xC0000) := .resetRange e _ _ fun k hk hk' => by
    simp only [workKey, Bool.or_eq_true, decide_eq_true_eq]
    omega
  have hwindow : lateKey Reg.BME_WIN_BASE_base.key = true ∧ lateKey Reg.BME_WIN_LIMIT_limit.key = true := by decide +kernel
  have hcleared := ((hdrop.trans (hrange _)).mono fun _ => lateKey_of_workKey).wide
  unfold Dev.bmeReset
  have hkept := (hcleared.trans (Dev.wr_wide _ _ (d.bmeDropAll.rd Reg.BME_WIN_BASE_base) hwindow.1)).trans
    (Dev.wr_wide _ _ (d.bmeDropAll.rd Reg.BME_WIN_LIMIT_limit) hwindow.2)
  exact .ite (hkept.trans (Dev.setState_wide _ _ _)) hkept

/-- What the reset of the first n functions leaves. -/
theorem Dev.resetFns_hostSide (d : Dev) : ∀ n, n ≤ 65 →
    let e := forEach (List.range n) (fun f d => d.resetFn f) d
    Dev.HostSide hostKey d e ∧ (∀ f, f < n → (e.fn f).mse = false ∧ (e.fn f).bme = false ∧ (e.fn f).held = []) ∧
    ∀ f, f ≤ 64 → e.rd (Reg.HIF_FN_STAT_epoch.ix f) =
      if f < n then (d.rd (Reg.HIF_FN_STAT_epoch.ix f) + 1) % 2 ^ 16 else d.rd (Reg.HIF_FN_STAT_epoch.ix f) := by
  intro n
  induction n with
  | zero => exact fun _ => ⟨.refl d, fun _ hf => absurd hf (Nat.not_lt_zero _), fun _ _ => rfl⟩
  | succ n ih =>
    intro hn
    obtain ⟨hside, hfns, hepochs⟩ := ih (by omega)
    simp only [forEach, List.range_succ, List.foldl_append, List.foldl_cons, List.foldl_nil]
    simp only [forEach] at hside hfns hepochs
    generalize List.foldl _ d (List.range n) = e at hside hfns hepochs
    obtain ⟨hreset, hmse, hbme, -, hheld, hothers, -, hepoch, hepoch'⟩ := e.resetFn_hostSide (f := n) (by omega)
    refine ⟨hside.trans hreset, fun f hf => ?_, fun f hf => ?_⟩
    · by_cases h : f = n
      · rw [h]
        exact ⟨hmse, hbme, hheld⟩
      · rw [hothers f h]
        exact hfns f (by omega)
    · by_cases h : f = n
      · rw [h, hepoch, hepochs n (by omega), if_neg (by omega), if_pos (by omega)]
      · rw [hepoch' f hf h, hepochs f hf]
        exact if_congr (by omega) rfl rfl

/-- What a host reset does after every function's. -/
def Dev.hostFieldsReset (d : Dev) : Dev :=
  let d := d.dropVfs
  let d := d.resetRange 0x100000 0x110000
  let d := { d with qmx := { d.qmx with credit := [], urgentNext := 1, normalNext := 1 } }
  (d.hostFieldReset).endHalt

theorem Dev.hostReset_eq (d : Dev) : d.hostReset =
    (forEach (List.range 65) (fun f d => d.resetFn f) d.bmeReset).hostFieldsReset := rfl

/-! ### Fields, VFs and the halt -/

/-- The RWL fields that no lock holds are reset. -/
def Dev.rwlReset (x : Fld × Nat) (d : Dev) : Dev := if d.locked x.2 then d else d.wr x.1 x.1.reset

/-- The first error of a block is forgotten. -/
def Dev.firstCleared (b : Blk) (d : Dev) : Dev := d.updNote b fun n => { n with firstCode := 0, firstTs := 0 }

/-- Whether a host reset puts a field back to its reset value. -/
def resetsHostField (k : Nat) : Bool :=
  (k / 64 < 0xE0000 && (k / 64) % 65536 = 0x1C) || (hostPage (k / 64) && keyHas .rw k)

theorem Dev.hostFieldReset_eq (d : Dev) : d.hostFieldReset =
    (let d := (forEach rwlFields Dev.rwlReset d).resetKeys resetsHostField
     forEach [Blk.sys, .hif, .qmx, .bme] Dev.firstCleared { d with heldLow := d.heldLow.filter fun p => !hostPage p.1 }) := rfl

theorem Dev.hostFieldReset_wide (d : Dev) : Dev.HostWide lateKey d d.hostFieldReset ∧ d.hostFieldReset.hif = d.hif ∧
    d.hostFieldReset.qmx = d.qmx := by
  have hrwl : Dev.HostWide lateKey d (forEach rwlFields Dev.rwlReset d) ∧ (forEach rwlFields Dev.rwlReset d).hif = d.hif ∧
      (forEach rwlFields Dev.rwlReset d).qmx = d.qmx := by
    refine forEachMem_induct (P := fun e => Dev.HostWide lateKey d e ∧ e.hif = d.hif ∧ e.qmx = d.qmx) rwlFields
      (fun x hx e he => ?_) d ⟨.refl _ d, rfl, rfl⟩
    obtain ⟨hwide, hhif, hqmx⟩ := he
    have hkey : lateKey x.1.key = true := by
      have hany : rwlFields.any (fun y => decide (y.1.key = x.1.key)) = true := List.any_eq_true.2 ⟨x, hx, by simp⟩
      simp [lateKey, hany]
    unfold Dev.rwlReset
    split
    · exact ⟨hwide, hhif, hqmx⟩
    · exact ⟨hwide.trans (e.wr_wide _ _ hkey), hhif, hqmx⟩
  rw [Dev.hostFieldReset_eq]
  generalize forEach rwlFields Dev.rwlReset d = e at hrwl
  obtain ⟨hwide, hhif, hqmx⟩ := hrwl
  refine ⟨hwide.trans ⟨rfl, rfl, rfl, rfl, rfl, rfl, rfl, rfl, rfl, rfl, fun g hg => ?_⟩, hhif, hqmx⟩
  refine Dev.rd_resetKeys_other e (p := resetsHostField) ?_
  simp only [lateKey, Bool.or_eq_false_iff] at hg
  simp only [resetsHostField, hg, Bool.or_self]

theorem Dev.setState_keeps (d : Dev) (b : Blk) (st : Nat) : (d.setState b st).hif = d.hif ∧ (d.setState b st).qmx = d.qmx := by
  unfold Dev.setState
  split
  · exact ⟨rfl, rfl⟩
  · exact ⟨rfl, rfl⟩

theorem Dev.endHalt_wide (d : Dev) : Dev.HostWide lateKey d d.endHalt ∧ d.endHalt.hif = d.hif ∧ d.endHalt.qmx.halted = false := by
  unfold Dev.endHalt
  split
  · refine ⟨?_, ?_, ?_⟩
    · have hended : Dev.HostWide lateKey d { d with qmx := { d.qmx with halted := false } } :=
        ⟨rfl, rfl, rfl, rfl, rfl, rfl, rfl, rfl, rfl, rfl, fun _ _ => rfl⟩
      exact (hended.trans (Dev.setState_wide _ .qmx stIdle)).trans (Dev.setState_wide _ .sys stIdle)
    · rw [(Dev.setState_keeps _ _ _).1, (Dev.setState_keeps _ _ _).1]
    · rw [(Dev.setState_keeps _ _ _).2, (Dev.setState_keeps _ _ _).2]
  · next h => exact ⟨.refl _ d, rfl, by simpa using h⟩

theorem Dev.hostFieldsReset_wide (d : Dev) : Dev.HostWide lateKey d d.hostFieldsReset ∧
    d.hostFieldsReset.hif = d.dropVfs.hif ∧ d.hostFieldsReset.qmx.halted = false := by
  have hqueues : Dev.HostWide lateKey d (d.dropVfs.resetRange 0x100000 0x110000) := by
    have hdrop : Dev.HostWide lateKey d d.dropVfs := ⟨rfl, rfl, rfl, rfl, rfl, rfl, rfl, rfl, rfl, rfl, fun _ _ => rfl⟩
    have hrange : Dev.HostSide workKey d.dropVfs (d.dropVfs.resetRange 0x100000 0x110000) :=
      .resetRange _ _ _ fun k hk _ => workKey_of_high (by omega)
    exact hdrop.trans (hrange.mono (q := lateKey) fun _ => lateKey_of_workKey).wide
  have hcursors : Dev.HostWide lateKey d { d.dropVfs.resetRange 0x100000 0x110000 with
      qmx := { (d.dropVfs.resetRange 0x100000 0x110000).qmx with credit := [], urgentNext := 1, normalNext := 1 } } :=
    hqueues.trans ⟨rfl, rfl, rfl, rfl, rfl, rfl, rfl, rfl, rfl, rfl, fun _ _ => rfl⟩
  have heq : d.hostFieldsReset = ({ d.dropVfs.resetRange 0x100000 0x110000 with
      qmx := { (d.dropVfs.resetRange 0x100000 0x110000).qmx with credit := [], urgentNext := 1, normalNext := 1 } } : Dev).hostFieldReset.endHalt := rfl
  rw [heq]
  have hif : ({ d.dropVfs.resetRange 0x100000 0x110000 with
      qmx := { (d.dropVfs.resetRange 0x100000 0x110000).qmx with credit := [], urgentNext := 1, normalNext := 1 } } : Dev).hif = d.dropVfs.hif := rfl
  generalize ({ d.dropVfs.resetRange 0x100000 0x110000 with
      qmx := { (d.dropVfs.resetRange 0x100000 0x110000).qmx with credit := [], urgentNext := 1, normalNext := 1 } } : Dev) = e at hcursors hif
  obtain ⟨hwide, hhif, hhalt⟩ := e.hostFieldReset.endHalt_wide
  obtain ⟨fwide, fhif, -⟩ := e.hostFieldReset_wide
  exact ⟨(hcursors.trans fwide).trans hwide, (hhif.trans fhif).trans hif, hhalt⟩

/-- The fields that host resets show unchanged. -/
def shownFields : List Fld := Reg.HIF_CONTAIN_frozen :: allBlks.map fun b => Reg.BLK_LOCK_lock.ix b.page

theorem shownFields_kept : ∀ g ∈ shownFields, lateKey g.key = false ∧ hostKey g.key = false := by decide +kernel

theorem lateKey_epoch : ∀ f < 65, lateKey (Reg.HIF_FN_STAT_epoch.ix f).key = false := by decide +kernel

/-- What a host reset leaves: no halt, no VFs, functions without enables and held completions, counted epochs. -/
structure Dev.HostReset (d e : Dev) : Prop where
  wide : Dev.HostWide (fun k => lateKey k || hostKey k) d e
  halted : e.qmx.halted = false
  vfs : e.hif.vfEnable = false
  fns : ∀ f, f ≤ 64 → (e.fn f).mse = false ∧ (e.fn f).bme = false ∧ (e.fn f).held = []
  epochs : ∀ f, f ≤ 64 → e.rd (Reg.HIF_FN_STAT_epoch.ix f) = (d.rd (Reg.HIF_FN_STAT_epoch.ix f) + 1) % 2 ^ 16

theorem Dev.HostWide.mono {p q : Nat → Bool} {d e : Dev} (h : Dev.HostWide p d e) (hpq : ∀ k, q k = false → p k = false) :
    Dev.HostWide q d e :=
  ⟨h.staged, h.lay, h.dpx, h.mnt, h.bps, h.cache, h.stripes, h.intents, h.sys, h.ticks, fun g hg => h.low g (hpq _ hg)⟩

theorem Dev.hostReset_resets (d : Dev) : Dev.HostReset d d.hostReset := by
  have hbme := d.bmeReset_wide
  obtain ⟨hside, hfns, hepochs⟩ := d.bmeReset.resetFns_hostSide 65 (by omega)
  rw [Dev.hostReset_eq]
  generalize forEach (List.range 65) (fun f d => d.resetFn f) d.bmeReset = e at hside hfns hepochs
  obtain ⟨hwide, hhif, hhalted⟩ := e.hostFieldsReset_wide
  have hfn (f : Nat) : e.hostFieldsReset.fn f = e.dropVfs.fn f := congrArg (fun h : HifState => Tbl.getD h.fns f {}) hhif
  have hlate (k : Nat) (h : (lateKey k || hostKey k) = false) : lateKey k = false := (Bool.or_eq_false_iff.1 h).1
  have hhost (k : Nat) (h : (lateKey k || hostKey k) = false) : hostKey k = false := (Bool.or_eq_false_iff.1 h).2
  refine ⟨((hbme.mono hlate).trans (hside.wide.mono hhost)).trans (hwide.mono hlate), hhalted, by rw [hhif]; rfl,
    fun f hf => ?_, fun f hf => ?_⟩
  · rw [hfn]
    exact hfns f (by omega)
  · rw [hwide.low _ (lateKey_epoch f (by omega)), hepochs f hf, if_pos (by omega), hbme.low _ (lateKey_epoch f (by omega))]

end Machine

end Sys2Proof
end

section
/-! PERST_N, hot reset and FLR of PF0 (O19). -/

set_option Elab.async false

namespace Sys2Proof

open Sys2Proof.Machine

namespace Machine

/-- The parts and the epochs that a step around a host reset leaves. -/
structure Dev.HostParts (d e : Dev) : Prop where
  staged : e.staged = d.staged
  lay : e.lay = d.lay
  dpx : e.dpx = d.dpx
  mnt : e.mnt = d.mnt
  bps : e.bps = d.bps
  cache : e.dram.cache = d.dram.cache
  stripes : e.dram.stripes = d.dram.stripes
  intents : e.dram.intents = d.dram.intents
  epochs : ∀ f, f ≤ 64 → e.rd (Reg.HIF_FN_STAT_epoch.ix f) = d.rd (Reg.HIF_FN_STAT_epoch.ix f)

/-- A step after a host reset: those, the halt, VF Enable, and every function's enables and held completions. -/
structure Dev.After (d e : Dev) : Prop where
  parts : Dev.HostParts d e
  halted : e.qmx.halted = d.qmx.halted
  vfs : e.hif.vfEnable = d.hif.vfEnable
  fns : ∀ f, (e.fn f).mse = (d.fn f).mse ∧ (e.fn f).bme = (d.fn f).bme ∧ (e.fn f).held = (d.fn f).held
  locks : ∀ b : Blk, e.rd (Reg.BLK_LOCK_lock.ix b.page) = d.rd (Reg.BLK_LOCK_lock.ix b.page)

/-- What the three resets have in common (R54, R85). -/
def Dev.ResetShown (d e : Dev) : Prop :=
  e.qmx.halted = false ∧ e.hif.vfEnable = false ∧ e.staged = d.staged ∧ e.lay = d.lay ∧ e.dpx = d.dpx ∧ e.mnt = d.mnt ∧
  e.bps = d.bps ∧ e.dram.cache = d.dram.cache ∧ e.dram.stripes = d.dram.stripes ∧ e.dram.intents = d.dram.intents ∧
  ∀ f, f ≤ 64 → (e.fn f).mse = false ∧ (e.fn f).bme = false ∧ (e.fn f).held = [] ∧
    e.rd (Reg.HIF_FN_STAT_epoch.ix f) = (d.rd (Reg.HIF_FN_STAT_epoch.ix f) + 1) % 2 ^ 16

theorem Dev.HostParts.trans {a b c : Dev} (h : Dev.HostParts a b) (k : Dev.HostParts b c) : Dev.HostParts a c :=
  ⟨k.staged.trans h.staged, k.lay.trans h.lay, k.dpx.trans h.dpx, k.mnt.trans h.mnt, k.bps.trans h.bps, k.cache.trans h.cache,
    k.stripes.trans h.stripes, k.intents.trans h.intents, fun f hf => (k.epochs f hf).trans (h.epochs f hf)⟩

theorem Dev.After.trans {a b c : Dev} (h : Dev.After a b) (k : Dev.After b c) : Dev.After a c :=
  ⟨h.parts.trans k.parts, k.halted.trans h.halted, k.vfs.trans h.vfs, fun f =>
    ⟨(k.fns f).1.trans (h.fns f).1, (k.fns f).2.1.trans (h.fns f).2.1, (k.fns f).2.2.trans (h.fns f).2.2⟩, fun b => (k.locks b).trans (h.locks b)⟩

theorem Dev.HostParts.refl (d : Dev) : Dev.HostParts d d := ⟨rfl, rfl, rfl, rfl, rfl, rfl, rfl, rfl, fun _ _ => rfl⟩

theorem Dev.After.refl (d : Dev) : Dev.After d d := ⟨.refl d, rfl, rfl, fun _ => ⟨rfl, rfl, rfl⟩, fun _ => rfl⟩

theorem Dev.After.ite {c : Prop} [Decidable c] {d a b : Dev} (h : Dev.After d a) (k : Dev.After d b) :
    Dev.After d (if c then a else b) := by split <;> assumption

/-- Whether a field is an epoch or a lock, which no report and no step of the link writes. -/
def epochOrLock (k : Nat) : Bool :=
  (List.range 65).any (fun f => decide ((Reg.HIF_FN_STAT_epoch.ix f).key = k)) ||
    allBlks.any fun b => decide ((Reg.BLK_LOCK_lock.ix b.page).key = k)

theorem ne_of_epochOrLock {g : Fld} (h : epochOrLock g.key = false) :
    (∀ f, f ≤ 64 → (Reg.HIF_FN_STAT_epoch.ix f).key ≠ g.key) ∧ ∀ b : Blk, (Reg.BLK_LOCK_lock.ix b.page).key ≠ g.key := by
  simp only [epochOrLock, Bool.or_eq_false_iff, List.any_eq_false, List.mem_range, decide_eq_true_eq] at h
  exact ⟨fun f hf => h.1 f (by omega), fun b => h.2 b (by cases b <;> decide)⟩

theorem Dev.wr_after (d : Dev) (g : Fld) (v : Nat) (h : epochOrLock g.key = false) : Dev.After d (d.wr g v) :=
  ⟨⟨rfl, rfl, rfl, rfl, rfl, rfl, rfl, rfl, fun f hf => Dev.rd_wr_other _ _ _ _ ((ne_of_epochOrLock h).1 f hf)⟩, rfl, rfl,
    fun _ => ⟨rfl, rfl, rfl⟩, fun b => Dev.rd_wr_other _ _ _ _ ((ne_of_epochOrLock h).2 b)⟩

theorem Dev.After.wr {a d : Dev} (k : Dev.After a d) (g : Fld) (v : Nat) (h : epochOrLock g.key = false) : Dev.After a (d.wr g v) :=
  k.trans (d.wr_after g v h)

/-- A change beside what a host reset shows. -/
theorem Dev.After.of_fns {d e : Dev} (h : e = { d with emitted := e.emitted, nt := e.nt, freeCtr := e.freeCtr, sys := e.sys, hif := e.hif })
    (hvfs : e.hif.vfEnable = d.hif.vfEnable) (hfns : ∀ f, (e.fn f).mse = (d.fn f).mse ∧ (e.fn f).bme = (d.fn f).bme ∧
      (e.fn f).held = (d.fn f).held) : Dev.After d e := by
  rw [h] at hvfs hfns ⊢
  exact ⟨⟨rfl, rfl, rfl, rfl, rfl, rfl, rfl, rfl, fun _ _ => rfl⟩, rfl, hvfs, hfns, fun _ => rfl⟩

theorem Dev.post_after (d : Dev) (a b c e f g h : Nat) : Dev.After d (d.post a b c e f g h) := by
  have hkept := d.post_kept a b c e f g h
  have hrep := d.post_reports a b c e f g h
  have hheld := d.post_sameHeld a b c e f g h
  generalize d.post a b c e f g h = x at *
  obtain ⟨-, hstaged, -, -, -, -, -, hqmx, hlay, hdram, -, -, -, hdpx, hmnt, -, hbps, -⟩ := hrep.keeps
  exact ⟨⟨hstaged, hlay, hdpx, hmnt, hbps, by rw [hdram], by rw [hdram], by rw [hdram], fun _ _ => hrep.rd _⟩, by rw [hqmx],
    hkept.hif.2.1, fun k => ⟨hkept.mse k, hkept.bme k, hheld k⟩, fun _ => hrep.rd _⟩

theorem Dev.settle_after (d : Dev) : Dev.After d d.settle := by
  refine ⟨⟨?_, ?_, ?_, ?_, ?_, ?_, ?_, ?_, fun f _ => d.settle_epoch f⟩, ?_, ?_, fun f => ?_,
    fun b => d.settle_rd _ (by cases b <;> decide)⟩
  case refine_11 => rw [Dev.settle_fn]; exact ⟨rfl, rfl, rfl⟩
  all_goals simp only [Dev.settle_keeps, Dev.settle_keeps_hif]

theorem Dev.emit_after (d : Dev) (x : Emit) : Dev.After d (d.emit x) := .of_fns rfl rfl fun _ => ⟨rfl, rfl, rfl⟩
theorem Dev.nextFree_after (d : Dev) : Dev.After d d.nextFree := .of_fns rfl rfl fun _ => ⟨rfl, rfl, rfl⟩
theorem Dev.sys_after (d : Dev) (x : SysState) : Dev.After d { d with sys := x } := .of_fns rfl rfl fun _ => ⟨rfl, rfl, rfl⟩

theorem Dev.updHif_after (d : Dev) (g : HifState → HifState) (hvfs : (g d.hif).vfEnable = d.hif.vfEnable)
    (hfns : (g d.hif).fns = d.hif.fns) : Dev.After d (d.updHif g) :=
  .of_fns rfl hvfs fun f => by
    have hfn : (d.updHif g).fn f = d.fn f := congrArg (fun t : Tbl FnState => Tbl.getD t f {}) hfns
    rw [hfn]
    exact ⟨rfl, rfl, rfl⟩

theorem Dev.updFn_after (d : Dev) (f : Nat) (g : FnState → FnState) (h : ∀ x, (g x).mse = x.mse ∧ (g x).bme = x.bme ∧ (g x).held = x.held) :
    Dev.After d (d.updFn f g) := .of_fns rfl rfl fun k => by
  by_cases hk : k = f
  · rw [hk, Dev.fn_updFn]
    exact h _
  · rw [Dev.fn_updFn_other _ hk]
    exact ⟨rfl, rfl, rfl⟩

theorem Dev.After.forEach {α : Type} {f : α → Dev → Dev} (h : ∀ x d, Dev.After d (f x d)) (xs : List α) (d : Dev) :
    Dev.After d (Machine.forEach xs f d) := forEach_induct (P := Dev.After d) (fun x e he => he.trans (h x e)) xs d (.refl d)

theorem linkFields_shown : ∀ g ∈ [Reg.HIF_LINK_up, Reg.HIF_LINK_speed, Reg.HIF_LINK_width, Reg.HIF_LINK_l0p_width, Reg.HIF_LINK_flit,
    Reg.HIF_CONTAIN_frozen, Reg.BLK_POWER_pstate.ix 1], epochOrLock g.key = false := by decide +kernel

theorem Dev.setLink_after (d : Dev) (l : Link) : Dev.After d (d.setLink l) := by
  have hlink := d.updHif_after (fun h => { h with link := l }) rfl rfl
  have hup := hlink.trans (Dev.wr_after _ Reg.HIF_LINK_up (b2n (l = .l0 || l = .l1)) (linkFields_shown _ (by decide)))
  unfold Dev.setLink
  exact .ite hup (.wr (.wr (.wr (.wr hup _ _ (linkFields_shown _ (by decide))) _ _ (linkFields_shown _ (by decide)))
    _ _ (linkFields_shown _ (by decide))) _ _ (linkFields_shown _ (by decide)))

theorem Dev.linkTrain_after (d : Dev) : Dev.After d d.linkTrain := by
  unfold Dev.linkTrain
  refine .trans ?_ (Dev.nextFree_after _)
  refine .wr ?_ _ _ (linkFields_shown _ (by decide))
  refine .trans ?_ (Dev.nextFree_after _)
  refine .wr ?_ _ _ (linkFields_shown _ (by decide))
  refine .trans ?_ (Dev.nextFree_after _)
  refine .wr (.wr ?_ _ _ (linkFields_shown _ (by decide))) _ _ (linkFields_shown _ (by decide))
  exact (d.emit_after .linkTrain).trans (Dev.setLink_after _ .l0)

theorem Dev.cfgNotReady_after (d : Dev) (bound : Nat) : Dev.After d (d.cfgNotReady bound) := by
  have hready (t : Nat) : Dev.After d (Machine.forEach (List.range 65) (fun f d => d.updFn f fun x => { x with readyAt := t }) d) :=
    .forEach (fun f e => e.updFn_after f (fun x => { x with readyAt := t }) fun _ => ⟨rfl, rfl, rfl⟩) _ d
  exact (hready _).trans (Dev.nextFree_after _)

theorem Dev.postFreeze_after (d : Dev) : Dev.After d d.postFreeze := by
  unfold Dev.postFreeze
  split
  · exact .refl d
  · exact .trans (d.updHif_after _ rfl rfl) (Dev.post_after _ _ _ _ _ _ _ _)

theorem Dev.resetUnfreeze_after (d : Dev) : Dev.After d d.resetUnfreeze := by
  unfold Dev.resetUnfreeze
  exact .ite (.trans (d.wr_after _ _ (linkFields_shown _ (by decide))) (Dev.postFreeze_after _)) (.refl d)

theorem Dev.resetUnfreeze_frozen (d : Dev) : d.resetUnfreeze.frozen = false := by
  unfold Dev.resetUnfreeze
  split
  · obtain ⟨o, hkept⟩ := Dev.postFreeze_kept (d.wr Reg.HIF_CONTAIN_frozen 0)
    rw [hkept.frozen]
    show (d.wr Reg.HIF_CONTAIN_frozen 0).frozen = false
    simp only [Dev.frozen, Dev.rdB, Dev.rd_wr_same]
    rfl
  · next h => simpa using h

/-- A step, a host reset and another step show what host resets have in common. -/
theorem resetShown {d x y e : Dev} (hbefore : Dev.HostParts d x) (hreset : Dev.HostReset x y) (hafter : Dev.After y e) :
    Dev.ResetShown d e := by
  obtain ⟨hwide, hhalted, hvfs, hfns, hepochs⟩ := hreset
  obtain ⟨hparts, khalted, kvfs, kfns, -⟩ := hafter
  refine ⟨khalted.trans hhalted, kvfs.trans hvfs, hparts.staged.trans (hwide.staged.trans hbefore.staged),
    hparts.lay.trans (hwide.lay.trans hbefore.lay), hparts.dpx.trans (hwide.dpx.trans hbefore.dpx),
    hparts.mnt.trans (hwide.mnt.trans hbefore.mnt), hparts.bps.trans (hwide.bps.trans hbefore.bps),
    hparts.cache.trans (hwide.cache.trans hbefore.cache), hparts.stripes.trans (hwide.stripes.trans hbefore.stripes),
    hparts.intents.trans (hwide.intents.trans hbefore.intents), fun f hf => ?_⟩
  obtain ⟨hmse, hbme, hheld⟩ := hfns f hf
  obtain ⟨kmse, kbme, kheld⟩ := kfns f
  exact ⟨kmse.trans hmse, kbme.trans hbme, kheld.trans hheld, by rw [hparts.epochs f hf, hepochs f hf, hbefore.epochs f hf]⟩

theorem Dev.HostReset.lock {d e : Dev} (h : Dev.HostReset d e) (b : Blk) :
    e.rd (Reg.BLK_LOCK_lock.ix b.page) = d.rd (Reg.BLK_LOCK_lock.ix b.page) := by
  obtain ⟨hlate, hhost⟩ := shownFields_kept (Reg.BLK_LOCK_lock.ix b.page) (by cases b <;> decide)
  exact h.wide.low _ (by simp only [hlate, hhost, Bool.or_self])

theorem Dev.HostReset.frozen {d e : Dev} (h : Dev.HostReset d e) : e.frozen = d.frozen := by
  obtain ⟨hlate, hhost⟩ := shownFields_kept Reg.HIF_CONTAIN_frozen (by decide)
  have hrd : e.rd Reg.HIF_CONTAIN_frozen = d.rd Reg.HIF_CONTAIN_frozen :=
    h.wide.low _ (by simp only [hlate, hhost, Bool.or_self])
  simp only [Dev.frozen, Dev.rdB, hrd]

end Machine

/-! ### O19 -/

section

variable {s : State}

theorem gives_flrPf0 (hup : s.dev.linkUp = true) : Gives .flrPf0 s fun e => Dev.ResetShown s.dev e ∧ e.frozen = s.dev.frozen ∧
    (e.fn 0).flr = true ∧ ∀ b : Blk, e.rd (Reg.BLK_LOCK_lock.ix b.page) = s.dev.rd (Reg.BLK_LOCK_lock.ix b.page) := by
  refine gives_of_exec_eq_act (f := Dev.flrPf0) rfl ?_
  have heq : s.dev.flrPf0 = (s.dev.exitL1.hostReset).updFn 0 fun x => { x with flr := true } := by
    rw [Dev.flrPf0, if_pos hup]
  have hwake := s.dev.exitL1_reports
  have hparts : Dev.HostParts s.dev s.dev.exitL1 := by
    refine ⟨?_, ?_, ?_, ?_, ?_, ?_, ?_, ?_, fun _ _ => hwake.rd _⟩ <;> simp only [Dev.exitL1_keeps]
  have hreset := s.dev.exitL1.hostReset_resets
  rw [heq]
  generalize s.dev.exitL1.hostReset = y at hreset
  have hafter := (y.updFn_after 0 (fun x => { x with flr := true }) fun _ => ⟨rfl, rfl, rfl⟩).trans (Dev.settle_after _)
  refine ⟨resetShown hparts hreset hafter, ?_, ?_, fun b => ?_⟩
  · rw [Dev.settle_frozen]
    exact hreset.frozen.trans s.dev.exitL1_kept.frozen
  · rw [Dev.settle_fn, Dev.fn_updFn]
  · rw [hafter.locks, hreset.lock, hwake.rd]

/-! ### PERST_N -/

theorem keptBy_clearLocks : (∀ x ∈ rwlFields, ∀ f < 65, (Reg.HIF_FN_STAT_epoch.ix f).key ≠ x.1.key) ∧
    (∀ b ∈ allBlks, ∀ f < 65, (Reg.HIF_FN_STAT_epoch.ix f).key ≠ (Reg.BLK_LOCK_lock.ix b.page).key) ∧
    ∀ b ∈ allBlks, ∀ b' ∈ allBlks, b ≠ b' → (Reg.BLK_LOCK_lock.ix b.page).key ≠ (Reg.BLK_LOCK_lock.ix b'.page).key := by
  decide +kernel

theorem Machine.Dev.HostParts.wr {a d : Dev} (h : Dev.HostParts a d) (g : Fld) (v : Nat)
    (hg : ∀ f < 65, (Reg.HIF_FN_STAT_epoch.ix f).key ≠ g.key) : Dev.HostParts a (d.wr g v) :=
  h.trans ⟨rfl, rfl, rfl, rfl, rfl, rfl, rfl, rfl, fun f hf => Dev.rd_wr_other _ _ _ _ (hg f (by omega))⟩

/-- The lock of a block is cleared. -/
def Machine.Dev.lockCleared (b : Blk) (d : Dev) : Dev := d.wr (Reg.BLK_LOCK_lock.ix b.page) 0

/-- An RWL field that a lock holds is reset. -/
def Machine.Dev.lockedReset (x : Fld × Nat) (d : Dev) : Dev := if d.locked x.2 then d.wr x.1 x.1.reset else d

theorem Machine.Dev.clearLocks_eq (d : Dev) :
    d.clearLocks = forEach allBlks Dev.lockCleared (forEach rwlFields Dev.lockedReset d) := rfl

theorem Machine.Dev.clearLocks_parts (d : Dev) : Dev.HostParts d d.clearLocks ∧ d.clearLocks.sys = d.sys ∧ d.clearLocks.hif = d.hif := by
  rw [Dev.clearLocks_eq]
  have hrwl : Dev.HostParts d (forEach rwlFields Dev.lockedReset d) ∧ (forEach rwlFields Dev.lockedReset d).sys = d.sys ∧
      (forEach rwlFields Dev.lockedReset d).hif = d.hif := by
    refine forEachMem_induct (P := fun e => Dev.HostParts d e ∧ e.sys = d.sys ∧ e.hif = d.hif) rwlFields (fun x hx e he => ?_) d
      ⟨.refl d, rfl, rfl⟩
    unfold Dev.lockedReset
    split
    · exact ⟨he.1.wr _ _ (keptBy_clearLocks.1 x hx), he.2⟩
    · exact he
  refine forEachMem_induct (P := fun e => Dev.HostParts d e ∧ e.sys = d.sys ∧ e.hif = d.hif) allBlks (fun b hb e he => ?_) _ hrwl
  exact ⟨he.1.wr _ _ (keptBy_clearLocks.2.1 b hb), he.2⟩

theorem Machine.Dev.lockCleared_rd {b : Blk} (xs : List Blk) (h : b ∈ xs) (d : Dev) :
    (forEach xs Dev.lockCleared d).rd (Reg.BLK_LOCK_lock.ix b.page) = 0 := by
  have hall (c : Blk) : c ∈ allBlks := by cases c <;> decide
  have hkept (ys : List Blk) : ∀ e : Dev, e.rd (Reg.BLK_LOCK_lock.ix b.page) = 0 →
      (forEach ys Dev.lockCleared e).rd (Reg.BLK_LOCK_lock.ix b.page) = 0 :=
    forEachMem_induct (P := fun e : Dev => e.rd (Reg.BLK_LOCK_lock.ix b.page) = 0) ys fun c _ e he => by
      by_cases hc : b = c
      · rw [hc]
        exact Dev.rd_wr_same e _ 0
      · exact (Dev.rd_wr_other _ _ _ _ (keptBy_clearLocks.2.2 b (hall b) c (hall c) hc)).trans he
  induction xs generalizing d with
  | nil => exact absurd h (by simp)
  | cons c xs ih =>
    rcases List.mem_cons.1 h with rfl | h
    · exact hkept xs _ (Dev.rd_wr_same d _ 0)
    · exact ih h _

theorem Machine.Dev.clearLocks_lock (d : Dev) (b : Blk) : d.clearLocks.rd (Reg.BLK_LOCK_lock.ix b.page) = 0 := by
  rw [Dev.clearLocks_eq]
  exact Dev.lockCleared_rd allBlks (by cases b <;> decide) _

/-- A function is in D3hot. -/
def Machine.Dev.d3Set (f : Nat) (d : Dev) : Dev := d.updFn f fun x => { x with d3 := true }

/-- What follows the reset that PERST_N makes: in D3cold, the functions that were in D3hot stay there and the link's power goes. -/
def Machine.Dev.perstCold (d : Dev) (pme : List Nat) (cold : Bool) : Dev :=
  let d := d.updHif fun h => { h with pmeTurnedOff := false, d3cold := cold }
  if cold then
    let d := forEach pme Dev.d3Set d
    let d : Dev := { d with sys := { d.sys with pdHphy := false } }
    (d.setLink .off).wr (Reg.BLK_POWER_pstate.ix Blk.hif.page) 2
  else d

theorem Machine.Dev.setLink_sys (d : Dev) (l : Link) : (d.setLink l).sys = d.sys := by
  unfold Dev.setLink
  split <;> rfl

theorem Machine.Dev.perstCold_after (d : Dev) (pme : List Nat) (cold : Bool) : Dev.After d (d.perstCold pme cold) ∧
    (d.perstCold pme cold).sys.perstN = d.sys.perstN := by
  have hturned := d.updHif_after (fun h => { h with pmeTurnedOff := false, d3cold := cold }) rfl rfl
  have hd3 (e : Dev) : Dev.After e (forEach pme Dev.d3Set e) :=
    .forEach (fun f e => e.updFn_after f (fun x => { x with d3 := true }) fun _ => ⟨rfl, rfl, rfl⟩) _ e
  have hsys (e : Dev) : (forEach pme Dev.d3Set e).sys = e.sys :=
    forEach_induct (f := Dev.d3Set) (P := fun x : Dev => x.sys = e.sys) (fun _ x (hx : x.sys = e.sys) => hx) _ e rfl
  unfold Dev.perstCold
  split
  · refine ⟨?_, ?_⟩
    · refine .wr ?_ _ _ (linkFields_shown _ (by decide))
      exact (((hturned.trans (hd3 _)).trans (Dev.sys_after _ _)).trans (Dev.setLink_after _ _))
    · simp only [Dev.wr_keeps, Dev.setLink_sys, hsys]
      rfl
  · exact ⟨hturned, rfl⟩

theorem Machine.Dev.postFreeze_sys (d : Dev) : d.postFreeze.sys = d.sys := by
  obtain ⟨o, hkept⟩ := d.postFreeze_kept
  rw [hkept.same]

theorem Machine.Dev.resetUnfreeze_sys (d : Dev) : d.resetUnfreeze.sys = d.sys := by
  unfold Dev.resetUnfreeze
  split
  · exact Dev.postFreeze_sys _
  · rfl

theorem Machine.Dev.HostParts.of_after {d e : Dev} (h : Dev.After d e) : Dev.HostParts d e := h.parts

/-- PE_PERST_N is low. -/
def Machine.Dev.perstLow (d : Dev) : Dev := { d with sys := { d.sys with perstN := false } }

theorem Machine.Dev.perstAssert_eq {d : Dev} (hhigh : d.sys.perstN = true) (hmain : d.sys.pdMain = true)
    (hlink : d.hif.link ≠ .abandoned) : d.perstAssert = ((((d.perstLow.clearLocks).setLink .down).hostReset).perstCold
      ((List.range 65).filter fun f => (d.perstLow.fn f).d3) d.hif.pmeTurnedOff).resetUnfreeze := by
  simp only [Dev.perstAssert, Dev.perstCold, Dev.perstLow, hhigh, hmain, hlink, Bool.not_true, Bool.false_eq_true, if_false]
  rfl

theorem gives_perstAssert (hhigh : s.dev.sys.perstN = true) (hmain : s.dev.sys.pdMain = true) (hlink : s.dev.hif.link ≠ .abandoned) :
    Gives .perstAssert s fun e => Dev.ResetShown s.dev e ∧ e.sys.perstN = false ∧ e.frozen = false ∧
      ∀ b : Blk, e.rd (Reg.BLK_LOCK_lock.ix b.page) = 0 := by
  refine gives_of_exec_eq_act (f := Dev.perstAssert) rfl ?_
  rw [Dev.perstAssert_eq hhigh hmain hlink]
  generalize (List.range 65).filter (fun f => (s.dev.perstLow.fn f).d3) = pme
  have hlow : Dev.HostParts s.dev s.dev.perstLow := (s.dev.sys_after _).parts
  obtain ⟨hcleared, hsys, -⟩ := s.dev.perstLow.clearLocks_parts
  have hdown := s.dev.perstLow.clearLocks.setLink_after .down
  have hlock (b : Blk) : (s.dev.perstLow.clearLocks.setLink .down).rd (Reg.BLK_LOCK_lock.ix b.page) = 0 := by
    rw [hdown.locks, Dev.clearLocks_lock]
  have hpin : (s.dev.perstLow.clearLocks.setLink .down).sys.perstN = false := by
    rw [Dev.setLink_sys, hsys]
    rfl
  have hbefore := (hlow.trans hcleared).trans hdown.parts
  have hreset := (s.dev.perstLow.clearLocks.setLink .down).hostReset_resets
  generalize s.dev.perstLow.clearLocks.setLink .down = x at hreset hbefore hlock hpin
  generalize x.hostReset = y at hreset
  obtain ⟨hcold, hcoldpin⟩ := y.perstCold_after pme s.dev.hif.pmeTurnedOff
  generalize y.perstCold pme s.dev.hif.pmeTurnedOff = z at hcold hcoldpin
  have hafter := (hcold.trans z.resetUnfreeze_after).trans (Dev.settle_after _)
  refine ⟨resetShown hbefore hreset hafter, ?_, ?_, fun b => ?_⟩
  · simp only [Dev.settle_keeps, Dev.resetUnfreeze_sys, hcoldpin, hreset.wide.sys, hpin]
  · rw [Dev.settle_frozen, Dev.resetUnfreeze_frozen]
  · rw [hafter.locks, hreset.lock, hlock]

/-! ### The link trains -/

/-- Every function answers configuration requests before a tick. -/
def Machine.Dev.ReadyBy (d : Dev) (t : Nat) : Prop := ∀ f, f ≤ 64 → (d.fn f).readyAt ≤ t

/-- A function answers configuration requests from a tick on. -/
def Machine.Dev.readyAtSet (t f : Nat) (d : Dev) : Dev := d.updFn f fun x => { x with readyAt := t }

theorem Machine.Dev.cfgNotReady_eq (d : Dev) (bound : Nat) : d.cfgNotReady bound =
    (forEach (List.range 65) (Dev.readyAtSet (d.ticks + d.free % (bound + 1))) d).nextFree := rfl

theorem readyAtSet_all (t : Nat) (d : Dev) : ∀ n, ∀ f, f < n → ((forEach (List.range n) (Dev.readyAtSet t) d).fn f).readyAt = t := by
  intro n
  induction n with
  | zero => exact fun f hf => absurd hf (Nat.not_lt_zero f)
  | succ n ih =>
    intro f hf
    simp only [forEach, List.range_succ, List.foldl_append, List.foldl_cons, List.foldl_nil, Dev.readyAtSet]
    by_cases h : f = n
    · rw [h, Dev.fn_updFn]
    · rw [Dev.fn_updFn_other _ h]
      exact ih f (by omega)

theorem Machine.Dev.cfgNotReady_readyBy (d : Dev) (bound : Nat) : (d.cfgNotReady bound).ReadyBy (d.ticks + bound) := by
  intro f hf
  have hfree : d.free % (bound + 1) ≤ bound := Nat.le_of_lt_succ (Nat.mod_lt _ (Nat.succ_pos _))
  have hkept (e : Dev) : e.nextFree.fn f = e.fn f := rfl
  rw [Dev.cfgNotReady_eq, hkept, readyAtSet_all _ _ _ _ (show f < 65 by omega)]
  exact Nat.add_le_add_left hfree _

/-- What making the configuration space wait leaves. -/
theorem Machine.Dev.cfgNotReady_keeps (d : Dev) (bound : Nat) : (d.cfgNotReady bound).regs = d.regs ∧
    (d.cfgNotReady bound).qmx = d.qmx ∧ (d.cfgNotReady bound).lay = d.lay ∧ (d.cfgNotReady bound).nt = d.nt ∧
    (d.cfgNotReady bound).sys = d.sys := by
  have h (t : Nat) : (forEach (List.range 65) (Dev.readyAtSet t) d).regs = d.regs ∧ (forEach (List.range 65) (Dev.readyAtSet t) d).qmx = d.qmx ∧
      (forEach (List.range 65) (Dev.readyAtSet t) d).lay = d.lay ∧ (forEach (List.range 65) (Dev.readyAtSet t) d).nt = d.nt ∧
      (forEach (List.range 65) (Dev.readyAtSet t) d).sys = d.sys :=
    forEach_induct (f := Dev.readyAtSet t) (P := fun e : Dev => e.regs = d.regs ∧ e.qmx = d.qmx ∧ e.lay = d.lay ∧ e.nt = d.nt ∧ e.sys = d.sys)
      (fun _ e (he : e.regs = d.regs ∧ e.qmx = d.qmx ∧ e.lay = d.lay ∧ e.nt = d.nt ∧ e.sys = d.sys) => he) _ d ⟨rfl, rfl, rfl, rfl, rfl⟩
  rw [Dev.cfgNotReady_eq]
  simp only [Dev.nextFree_keeps, h, and_self]

theorem linkFields_apart : ∀ g ∈ [Reg.HIF_LINK_speed, Reg.HIF_LINK_width, Reg.HIF_LINK_l0p_width, Reg.HIF_LINK_flit,
    Reg.HIF_CONTAIN_frozen], Reg.HIF_LINK_up.key ≠ g.key := by decide +kernel

theorem Machine.Dev.linkTrain_up (d : Dev) : d.linkTrain.rd Reg.HIF_LINK_up = 1 ∧ d.linkTrain.ticks = d.ticks ∧
    d.linkTrain.qmx = d.qmx ∧ d.linkTrain.nt = d.nt ∧ d.linkTrain.sys = d.sys ∧ d.linkTrain.lay = d.lay := by
  have hlink : ((d.emit .linkTrain).setLink .l0).rd Reg.HIF_LINK_up = 1 := by
    simp only [Dev.setLink, decide_true, Bool.true_or, if_true, Dev.wrB]
    rw [Dev.rd_wr_same]
    rfl
  have hwr (e : Dev) (g : Fld) (v : Nat) (he : e.rd Reg.HIF_LINK_up = 1) (hg : Reg.HIF_LINK_up.key ≠ g.key) :
      (e.wr g v).rd Reg.HIF_LINK_up = 1 := (Dev.rd_wr_other _ _ _ _ hg).trans he
  have hnext (e : Dev) (he : e.rd Reg.HIF_LINK_up = 1) : e.nextFree.rd Reg.HIF_LINK_up = 1 := he
  unfold Dev.linkTrain
  refine ⟨?_, ?_, ?_, ?_, ?_, ?_⟩
  · refine hnext _ ?_
    refine hwr _ _ _ ?_ (linkFields_apart _ (by decide))
    refine hnext _ ?_
    refine hwr _ _ _ ?_ (linkFields_apart _ (by decide))
    refine hnext _ ?_
    exact hwr _ _ _ (hwr _ _ _ hlink (linkFields_apart _ (by decide))) (linkFields_apart _ (by decide))
  all_goals simp only [Dev.nextFree_keeps, Dev.wrB_keeps, Dev.wr_keeps, Dev.setLink, decide_true, Bool.true_or, if_true, Dev.updHif_keeps,
    Dev.emit_keeps]

theorem Machine.Dev.resetUnfreeze_rd (d : Dev) {g : Fld} (hlow : g.key < 0xB0000 * 64) (hne : g.key ≠ Reg.HIF_CONTAIN_frozen.key) :
    d.resetUnfreeze.rd g = d.rd g := by
  unfold Dev.resetUnfreeze
  split
  · obtain ⟨o, hkept⟩ := Dev.postFreeze_kept (d.wr Reg.HIF_CONTAIN_frozen 0)
    exact (hkept.low g hlow).trans (Dev.rd_wr_other d Reg.HIF_CONTAIN_frozen g 0 hne)
  · rfl

theorem Machine.Dev.resetUnfreeze_readyAt (d : Dev) (f : Nat) : (d.resetUnfreeze.fn f).readyAt = (d.fn f).readyAt := by
  unfold Dev.resetUnfreeze
  split
  · obtain ⟨o, hkept⟩ := Dev.postFreeze_kept (d.wr Reg.HIF_CONTAIN_frozen 0)
    obtain ⟨-, -, -, -, -, hready, -⟩ := (hkept.fns f).enables
    exact hready
  · rfl

theorem gives_hotReset (hhigh : s.dev.sys.perstN = true) (hon : s.dev.hifOn = true) :
    Gives .hotReset s fun e => Dev.ResetShown s.dev e ∧ e.frozen = false ∧ e.rd Reg.HIF_LINK_up = 1 ∧
      (∀ b : Blk, e.rd (Reg.BLK_LOCK_lock.ix b.page) = s.dev.rd (Reg.BLK_LOCK_lock.ix b.page)) ∧
      ∀ f, f ≤ 64 → (e.fn f).readyAt ≤ s.dev.ticks + 25000000 := by
  refine gives_of_exec_eq_act (f := Dev.hotReset) rfl ?_
  have heq : s.dev.hotReset = ((((s.dev.setLink .down).hostReset).updHif fun h => { h with pmeTurnedOff := false }).linkTrain.cfgNotReady
      (100 * ticksPerMs)).resetUnfreeze := by
    simp only [Dev.hotReset, hhigh, hon, Bool.not_true, Bool.or_self, Bool.false_eq_true, if_false]
  have hdown := s.dev.setLink_after .down
  have hreset := (s.dev.setLink .down).hostReset_resets
  have hticks : (s.dev.setLink .down).hostReset.ticks = s.dev.ticks := by
    rw [hreset.wide.ticks]
    simp only [Dev.setLink]
    split <;> rfl
  rw [heq]
  generalize (s.dev.setLink .down).hostReset = y at hreset hticks
  have hturned := y.updHif_after (fun h => { h with pmeTurnedOff := false }) rfl rfl
  have hturnedTicks : (y.updHif fun h => { h with pmeTurnedOff := false }).ticks = s.dev.ticks := hticks
  generalize (y.updHif fun h => { h with pmeTurnedOff := false }) = z at hturned hturnedTicks
  obtain ⟨hup, htrained, -⟩ := z.linkTrain_up
  have htrain := z.linkTrain_after
  generalize z.linkTrain = w at hup htrained htrain
  obtain ⟨hregs, -⟩ := w.cfgNotReady_keeps (100 * ticksPerMs)
  have hready := w.cfgNotReady_readyBy (100 * ticksPerMs)
  have hcfg := w.cfgNotReady_after (100 * ticksPerMs)
  generalize w.cfgNotReady (100 * ticksPerMs) = v at hregs hready hcfg
  have hafter := (((hturned.trans htrain).trans hcfg).trans v.resetUnfreeze_after).trans (Dev.settle_after _)
  refine ⟨resetShown hdown.parts hreset hafter, ?_, ?_, fun b => ?_, fun f hf => ?_⟩
  · rw [Dev.settle_frozen, Dev.resetUnfreeze_frozen]
  · rw [Dev.settle_rd _ _ (by decide), Dev.resetUnfreeze_rd _ (by decide) (by decide), Dev.rd, hregs]
    exact hup
  · rw [hafter.locks, hreset.lock, hdown.locks]
  · rw [Dev.settle_fn, Dev.resetUnfreeze_readyAt]
    rw [htrained, hturnedTicks] at hready
    exact hready f hf

/-! ### PERST_N deasserts -/

/-- What precedes the training of the link when PERST_N deasserts. -/
def Machine.Dev.perstHigh (d : Dev) : Dev :=
  let d : Dev := { d with sys := { d.sys with perstN := true } }
  let d : Dev := { d with sys := { d.sys with pdHphy := true } }
  let d := d.wr (Reg.BLK_POWER_pstate.ix Blk.hif.page) 0
  let d := if d.hif.d3cold then
      let d := forEach (List.range 65) (fun f d => d.updFn f fun x => { x with d3 := false }) d
      d.updHif fun h => { h with d3cold := false }
    else d
  if d.nt.wakeN then d else ({ d with nt := { d.nt with wakeN := true } } : Dev).emit (.wakePin false)

theorem Machine.Dev.perstDeassert_eq {d : Dev} (hlow : d.sys.perstN = false) (hmain : d.sys.pdMain = true)
    (hlink : d.hif.link ≠ .abandoned) : d.perstDeassert =
      if d.perstHigh.hifOn then (d.perstHigh.linkTrain).cfgNotReady ticksPerSec else d.perstHigh := by
  simp only [Dev.perstDeassert, Dev.perstHigh, hlow, hmain, hlink, Bool.not_true, decide_false, Bool.or_self, Bool.false_eq_true, if_false]

/-- A function is in D0. -/
def Machine.Dev.d3Clear (f : Nat) (d : Dev) : Dev := d.updFn f fun x => { x with d3 := false }

/-- The functions leave D3cold. -/
def Machine.Dev.coldEnded (d : Dev) : Dev :=
  if d.hif.d3cold then (forEach (List.range 65) Dev.d3Clear d).updHif fun h => { h with d3cold := false } else d

/-- PE_WAKE_N is high. -/
def Machine.Dev.wakeEnded (d : Dev) : Dev :=
  if d.nt.wakeN then d else ({ d with nt := { d.nt with wakeN := true } } : Dev).emit (.wakePin false)

theorem Machine.Dev.perstHigh_eq (d : Dev) : d.perstHigh =
    ((({ d with sys := { d.sys with perstN := true, pdHphy := true } } : Dev).wr (Reg.BLK_POWER_pstate.ix Blk.hif.page) 0).coldEnded).wakeEnded := rfl

/-- e is d but for functions, notes and what was sent. -/
structure Machine.Dev.SameLink (d e : Dev) : Prop where
  sys : e.sys = d.sys
  qmx : e.qmx = d.qmx
  lay : e.lay = d.lay
  ticks : e.ticks = d.ticks
  link : e.hif.link = d.hif.link
  regs : e.regs = d.regs

theorem Machine.Dev.coldEnded_sameLink (d : Dev) : Dev.SameLink d d.coldEnded := by
  have h : Dev.SameLink d (forEach (List.range 65) Dev.d3Clear d) :=
    forEach_induct (f := Dev.d3Clear) (P := Dev.SameLink d) (fun _ e (he : Dev.SameLink d e) =>
      ⟨he.sys, he.qmx, he.lay, he.ticks, he.link, he.regs⟩) _ d ⟨rfl, rfl, rfl, rfl, rfl, rfl⟩
  have hended (e : Dev) (he : Dev.SameLink d e) : Dev.SameLink d (e.updHif fun h => { h with d3cold := false }) :=
    ⟨he.sys, he.qmx, he.lay, he.ticks, he.link, he.regs⟩
  unfold Dev.coldEnded
  split
  · exact hended _ h
  · exact ⟨rfl, rfl, rfl, rfl, rfl, rfl⟩

theorem Machine.Dev.wakeEnded_sameLink (d : Dev) : Dev.SameLink d d.wakeEnded ∧ d.wakeEnded.nt.wakeN = true := by
  unfold Dev.wakeEnded
  split
  · next h => exact ⟨⟨rfl, rfl, rfl, rfl, rfl, rfl⟩, h⟩
  · exact ⟨⟨rfl, rfl, rfl, rfl, rfl, rfl⟩, rfl⟩

theorem Machine.Dev.perstHigh_keeps (d : Dev) : d.perstHigh.sys = { d.sys with perstN := true, pdHphy := true } ∧
    d.perstHigh.qmx = d.qmx ∧ d.perstHigh.lay = d.lay ∧ d.perstHigh.ticks = d.ticks ∧ d.perstHigh.nt.wakeN = true ∧
    d.perstHigh.hif.link = d.hif.link ∧ d.perstHigh.phase = d.phase := by
  have hphase : (Reg.BLK_STAT_specific.ix 0).key ≠ (Reg.BLK_POWER_pstate.ix Blk.hif.page).key := by decide
  rw [Dev.perstHigh_eq]
  have hstart : ({ d with sys := { d.sys with perstN := true, pdHphy := true } } : Dev).wr (Reg.BLK_POWER_pstate.ix Blk.hif.page) 0 =
      { d with regs := (d.wr (Reg.BLK_POWER_pstate.ix Blk.hif.page) 0).regs, sys := { d.sys with perstN := true, pdHphy := true } } := rfl
  rw [hstart]
  have hcold := Dev.coldEnded_sameLink
    { d with regs := (d.wr (Reg.BLK_POWER_pstate.ix Blk.hif.page) 0).regs, sys := { d.sys with perstN := true, pdHphy := true } }
  generalize Dev.coldEnded _ = x at hcold
  obtain ⟨hwake, hhigh⟩ := x.wakeEnded_sameLink
  generalize x.wakeEnded = y at hwake hhigh
  refine ⟨hwake.sys.trans hcold.sys, hwake.qmx.trans hcold.qmx, hwake.lay.trans hcold.lay, hwake.ticks.trans hcold.ticks, hhigh,
    hwake.link.trans hcold.link, ?_⟩
  have hregs : y.phase = (d.wr (Reg.BLK_POWER_pstate.ix Blk.hif.page) 0).phase := by
    simp only [Dev.phase, Dev.rd, hwake.regs, hcold.regs]
  exact hregs.trans (Dev.rd_wr_other _ _ _ _ hphase)

theorem gives_perstDeassert (hlow : s.dev.sys.perstN = false) (hmain : s.dev.sys.pdMain = true) (hlink : s.dev.hif.link ≠ .abandoned)
    (hboot : 2 ≤ s.dev.phase) (hsleep : s.dev.phase < 9) : Gives .perstDeassert s fun e =>
      e.sys.perstN = true ∧ e.sys.pdHphy = true ∧ e.rd Reg.HIF_LINK_up = 1 ∧ e.nt.wakeN = true ∧
      (∀ f, f ≤ 64 → (e.fn f).readyAt ≤ s.dev.ticks + 250000000) ∧ e.qmx = s.dev.qmx ∧ e.lay = s.dev.lay := by
  refine gives_of_exec_eq_act (f := Dev.perstDeassert) rfl ?_
  obtain ⟨hsys, hqmx, hlay, hticks, hwake, hlink', hphase⟩ := s.dev.perstHigh_keeps
  rw [Dev.perstDeassert_eq hlow hmain hlink]
  generalize s.dev.perstHigh = x at *
  have hon : x.hifOn = true := by
    have hp : x.rd (Reg.BLK_STAT_specific.ix 0) = s.dev.phase := hphase
    simp [Dev.hifOn, hsys, hmain, hlink', hlink, hp, hboot, hsleep]
  rw [if_pos hon]
  obtain ⟨hup, htrained, tqmx, tnt, tsys, tlay⟩ := x.linkTrain_up
  generalize x.linkTrain = w at *
  obtain ⟨hregs, cqmx, clay, cnt, csys⟩ := w.cfgNotReady_keeps ticksPerSec
  have hready := w.cfgNotReady_readyBy ticksPerSec
  generalize w.cfgNotReady ticksPerSec = v at *
  have hnt : v.settle.nt.wakeN = v.nt.wakeN := by rw [v.settle_settles.same]
  refine ⟨?_, ?_, ?_, ?_, fun f hf => ?_, ?_, ?_⟩
  · simp only [Dev.settle_keeps, csys, tsys, hsys]
  · simp only [Dev.settle_keeps, csys, tsys, hsys]
  · rw [Dev.settle_rd _ _ (by decide), Dev.rd, hregs]
    exact hup
  · rw [hnt, cnt, tnt, hwake]
  · rw [Dev.settle_fn]
    rw [htrained, hticks] at hready
    exact hready f hf
  · simp only [Dev.settle_keeps, cqmx, tqmx, hqmx]
  · simp only [Dev.settle_keeps, clay, tlay, hlay]

end

/-- Settles O19: a step before, a host reset and a step after it, for each of the three; and the link's training. -/
theorem hostResets : Obligations.HostResets := fun _ =>
  ⟨gives_perstAssert, gives_hotReset, gives_flrPf0, gives_perstDeassert⟩

end Sys2Proof
end

section
/-! The control core pairs and their roles (R343 to R347, R357). -/

set_option Elab.async false

namespace Sys2Proof

open Sys2Proof.Machine

/-- The state fields of the three pairs. -/
def pairFields : List Fld := (List.range 3).map Reg.CCX_PAIR_state.ix

theorem pairField_mem {n : Nat} (h : n < 3) : Reg.CCX_PAIR_state.ix n ∈ pairFields := List.mem_map_of_mem (List.mem_range.2 h)

/-- What a mismatch of a pair counts. -/
def mismatchFields (p : Nat) : List Fld := [Reg.CCX_PAIR_mismatches.ix p, Reg.CCX_PAIR_HI_last_sec.ix p]

/-- What the end of a firmware operation shows. -/
def fwFields : List Fld := [Reg.CCX_FW_STAT_busy, Reg.CCX_FW_STAT_result]

/-- The fields of a pair's mismatch and of the end of a firmware operation are no pair's state. -/
theorem pairState_apart {p n : Nat} (hp : p < 3) (hn : n < 3) :
    ∀ g ∈ mismatchFields p ++ fwFields, (Reg.CCX_PAIR_state.ix n).key ≠ g.key := by
  interval_cases p <;> interval_cases n <;> decide

theorem pairState_ne {p n : Nat} (h : n ≠ p) : (Reg.CCX_PAIR_state.ix n).key ≠ (Reg.CCX_PAIR_state.ix p).key := by
  rw [Fld.ix_key, Fld.ix_key]
  simp only [Reg.CCX_PAIR_state, List.head?_cons, Option.map_some, Option.getD_some]
  omega

/-! ### Rules of the state -/

section

variable {a d : Dev} {fs : List Fld} {ps : List Part}

theorem Frame.fwEnd (h : Frame a d fs ps) (r : Nat) (hfs : fwFields ⊆ fs) (hp : Part.ccx ∈ ps := by decide) :
    Frame a (d.fwEnd r) fs ps := by
  refine .reports ?_ (Dev.causeBit_reports _ _ _)
  exact ((h.setCcx _ hp).wr _ _ (hfs (by decide))).wr _ _ (hfs (by decide))

theorem Frame.fwAbandon (h : Frame a d fs ps) (hfs : fwFields ⊆ fs) (hccx : Part.ccx ∈ ps := by decide)
    (hmnt : Part.mnt ∈ ps := by decide) : Frame a d.fwAbandon fs ps := by
  unfold Dev.fwAbandon
  split
  · exact ((h.fwEnd 12 hfs hccx).reports (Dev.errCorr_reports _ _ _)).setMnt _ hmnt
  · exact h.setCcx _ hccx

theorem Frame.countMismatch (h : Frame a d fs ps) (p : Nat) (hfs : mismatchFields p ⊆ fs)
    (hp : Part.ccx ∈ ps := by decide) : Frame a (d.countMismatch p) fs ps :=
  ((h.incSat _ 1 (hfs (.head _))).wr _ _ (hfs (.tail _ (.head _)))).setCcx _ hp

end

namespace Machine

theorem Dev.fwEnd_ccx (d : Dev) (r : Nat) : (d.fwEnd r).ccx = { d.ccx with fwOp := .idle, fwPicked := none } :=
  (Dev.causeBit_reports _ _ _).keeps.2.2.2.2.2.2.2.2.2.2.2.2.2.2.2.2.2.2.1

theorem Dev.fwAbandon_roles (d : Dev) : d.fwAbandon.ccx.role0 = d.ccx.role0 ∧ d.fwAbandon.ccx.role1 = d.ccx.role1 := by
  unfold Dev.fwAbandon
  split
  · have h : (((d.fwEnd 12).errCorr .ccx 6).actEnd .fwActivate wholeDevice).ccx = (d.fwEnd 12).ccx := rfl
    rw [h, Dev.fwEnd_ccx]
    exact ⟨rfl, rfl⟩
  · exact ⟨rfl, rfl⟩

theorem Dev.countMismatch_counts (d : Dev) (p : Nat) : (d.countMismatch p).rd (Reg.CCX_PAIR_mismatches.ix p) =
    min (d.rd (Reg.CCX_PAIR_mismatches.ix p) + 1) 0xFFFF := by
  have hwr : (d.countMismatch p).rd (Reg.CCX_PAIR_mismatches.ix p) =
      (d.incSat (Reg.CCX_PAIR_mismatches.ix p)).rd (Reg.CCX_PAIR_mismatches.ix p) := Dev.rd_wr_ix _ _ _ _ _ (by decide)
  rw [hwr, Dev.rd_incSat_same, Fld.ix_width]
  rfl

theorem Dev.pairState_setPair_same (d : Dev) (n : Nat) {st : Nat} (h : st < 8) : (d.setPair n st).pairState n = st := by
  rw [Dev.pairState, Dev.setPair, Dev.rd_wr_same, Fld.ix_width]
  exact Nat.mod_eq_of_lt h

theorem Dev.pairState_setPair_other (d : Dev) {n p : Nat} (st : Nat) (h : n ≠ p) :
    (d.setPair p st).pairState n = d.pairState n := Dev.rd_wr_other _ _ _ _ (pairState_ne h)

theorem Dev.pairState_settle (d : Dev) {n : Nat} (h : n < 3) : d.settle.pairState n = d.pairState n :=
  d.settle_rd _ (by interval_cases n <;> decide)

theorem Dev.settle_ccx (d : Dev) : d.settle.ccx = d.ccx := by simp only [Dev.settle_keeps]

theorem Dev.Reports.ccx {d e : Dev} (h : Dev.Reports d e) : e.ccx = d.ccx := h.keeps.2.2.2.2.2.2.2.2.2.2.2.2.2.2.2.2.2.2.1

theorem Dev.Reports.pairState {d e : Dev} (h : Dev.Reports d e) (n : Nat) : e.pairState n = d.pairState n := h.rd _

theorem Dev.setState_ccx (d : Dev) (b : Blk) (st : Nat) : (d.setState b st).ccx = d.ccx := by
  unfold Dev.setState
  split
  · rfl
  · rfl

theorem Dev.mem_pairsIn {d : Dev} {st n : Nat} : n ∈ d.pairsIn st ↔ n < 3 ∧ d.pairState n = st := by
  simp only [Dev.pairsIn, List.mem_filter, List.mem_range, decide_eq_true_eq]

/-- The pairs in a state are read from the three pairs. -/
theorem Dev.pairsIn_congr {d e : Dev} (h : ∀ n, n < 3 → e.pairState n = d.pairState n) (st : Nat) :
    e.pairsIn st = d.pairsIn st :=
  List.filter_congr fun n hn => by rw [h n (List.mem_range.1 hn)]

/-- Taking a pair from one state into another takes it from the list of the one. -/
theorem Dev.pairsIn_of_left {d e : Dev} {p st : Nat} (hother : ∀ n, n < 3 → n ≠ p → e.pairState n = d.pairState n)
    (hp : e.pairState p ≠ st) : e.pairsIn st = (d.pairsIn st).filter fun n => decide (n ≠ p) := by
  rw [Dev.pairsIn, Dev.pairsIn, List.filter_filter]
  refine List.filter_congr fun n hn => ?_
  by_cases hne : n = p
  · subst hne
    simp [hp]
  · simp [hother n (List.mem_range.1 hn) hne, hne]

end Machine

/-! ### A mismatch -/

theorem exec_pairMismatch {p : Nat} (hp : p < 3) (stall : Nat) (s : State) :
    exec (.pairMismatch p stall) s = s.act fun d => d.pairMismatch p stall := by
  simp only [exec, execPairMismatch, onUnit, hp, decide_true, if_true]

section

variable {p : Nat} (hp : p < 3) (stall : Nat) {s : State}
include hp

theorem gives_pairMismatch_standby (h : s.dev.pairState p = cpStandby) : Gives (.pairMismatch p stall) s fun e =>
    e.pairState p = cpTesting ∧
      e.rd (Reg.CCX_PAIR_mismatches.ix p) = min (s.dev.rd (Reg.CCX_PAIR_mismatches.ix p) + 1) 0xFFFF ∧
      Frame s.dev e (Reg.CCX_PAIR_state.ix p :: mismatchFields p) [.ccx] := by
  refine gives_of_exec_eq_act (exec_pairMismatch hp stall s) ?_
  simp only [Dev.pairMismatch, h, if_true]
  have hcounted : Dev.Reports (s.dev.countMismatch p) ((s.dev.countMismatch p).errCorr .ccx 2) := Dev.errCorr_reports _ _ _
  refine ⟨(Dev.pairState_settle _ hp).trans (Dev.pairState_setPair_same _ _ (by decide)), ?_, ?_⟩
  · rw [Dev.settle_rd _ _ (by interval_cases p <;> decide)]
    exact (Dev.rd_wr_ix _ _ _ _ _ (by decide)).trans ((hcounted.rd _).trans (Dev.countMismatch_counts _ _))
  · refine Frame.settle (.wr ?_ _ _ (.head _))
    exact ((Frame.refl _ _ _).countMismatch p (List.subset_cons_self _ _)).reports hcounted

theorem gives_pairMismatch_idle (h : s.dev.pairState p = cpTesting ∨ s.dev.pairState p = cpExcluded) :
    Gives (.pairMismatch p stall) s fun e => Frame s.dev e [] [] := by
  refine gives_of_exec_eq_act (exec_pairMismatch hp stall s) ?_
  have hkept : s.dev.pairMismatch p stall = s.dev := by
    rcases h with h | h <;> simp [Dev.pairMismatch, h, cpTesting, cpExcluded, cpStandby, cpActive]
  rw [hkept]
  exact (Frame.refl _ _ _).settle

/-- A role that moves from one pair to another. -/
def roleMoved (p q : Nat) (r : Option Nat) : Option Nat := if r = some p then some q else r

/-- An ACTIVE pair that is taken out of service: its mismatch is counted, a firmware activation abandoned, and the pair goes to
its test (R345, R347). -/
def Machine.Dev.pairOut (d : Dev) (p : Nat) : Dev := (d.countMismatch p).fwAbandon.setPair p cpTesting

omit hp in
theorem Machine.Dev.pairOut_frame (d : Dev) (p : Nat) :
    Frame d (d.pairOut p) (Reg.CCX_PAIR_state.ix p :: (mismatchFields p ++ fwFields)) [.ccx, .mnt] := by
  refine .wr ?_ _ _ (.head _)
  refine .fwAbandon (.countMismatch (Frame.refl _ _ _) p ?_) ?_
  · exact fun f hf => .tail _ (List.mem_append_left _ hf)
  · exact fun f hf => .tail _ (List.mem_append_right _ hf)

omit hp in
theorem Machine.Dev.pairOut_roles (d : Dev) (p : Nat) :
    (d.pairOut p).ccx.role0 = d.ccx.role0 ∧ (d.pairOut p).ccx.role1 = d.ccx.role1 := (d.countMismatch p).fwAbandon_roles

omit hp in
theorem Machine.Dev.pairOut_state (d : Dev) (p : Nat) : (d.pairOut p).pairState p = cpTesting :=
  Dev.pairState_setPair_same _ _ (by decide)

theorem Machine.Dev.pairOut_others (d : Dev) {n : Nat} (hn : n < 3) (hne : n ≠ p) :
    (d.pairOut p).pairState n = d.pairState n := by
  refine (d.pairOut_frame p).rd _ (fun g hg => ?_) (by interval_cases n <;> decide)
  rcases List.mem_cons.1 hg with rfl | hg
  · exact pairState_ne hne
  · exact pairState_apart hp hn g hg

theorem Machine.Dev.pairOut_counts (d : Dev) : (d.pairOut p).rd (Reg.CCX_PAIR_mismatches.ix p) =
    min (d.rd (Reg.CCX_PAIR_mismatches.ix p) + 1) 0xFFFF := by
  refine (Dev.rd_wr_ix _ _ _ _ _ (by decide)).trans (Eq.trans ?_ (Dev.countMismatch_counts _ _))
  exact ((Frame.refl (d.countMismatch p) fwFields [.ccx, .mnt]).fwAbandon (List.Subset.refl _)).rd _
    (by interval_cases p <;> decide) (by interval_cases p <;> decide)

theorem Machine.Dev.pairOut_pairsIn (d : Dev) {st : Nat} (hst : st ≠ cpTesting) :
    (d.pairOut p).pairsIn st = (d.pairsIn st).filter fun n => decide (n ≠ p) :=
  Dev.pairsIn_of_left (fun _ hn hne => Dev.pairOut_others hp d hn hne) (by rw [d.pairOut_state]; exact hst.symm)

theorem Machine.Dev.pairOut_standby {d : Dev} (h : d.pairState p = cpActive) :
    (d.pairOut p).pairsIn cpStandby = d.pairsIn cpStandby := by
  rw [Dev.pairOut_pairsIn hp d (by decide)]
  refine List.filter_eq_self.2 fun n hn => decide_eq_true fun hnp => ?_
  rw [Dev.mem_pairsIn, hnp, h] at hn
  exact absurd hn.2 (by decide)

/-- The pair that takes over a failed pair's roles. -/
def Machine.Dev.takesOver (d : Dev) (p q fault stall : Nat) : Dev :=
  (((d.moveRoles p q).errCorr .ccx 2).causeBit .ccx 16).squall .ccx fault stall

omit hp in
theorem Machine.Dev.pairMismatch_active {d : Dev} (h : d.pairState p = cpActive) : d.pairMismatch p stall =
    match (d.pairOut p).pairsIn cpStandby, (d.pairOut p).pairsIn cpActive with
    | q :: _, _ => ((d.pairOut p).setPair q cpActive).takesOver p q 1 (min stall stallBound)
    | [], q :: _ => (d.pairOut p).takesOver p q 2 (min stall stallBound)
    | [], [] => (((((d.pairOut p).updCcx fun c => { c with role0 := none, role1 := none }).setState .ccx stFault).causeBit .ccx
        19).errUncorr .ccx 5).squall .ccx 4 0xFFFFFFFF := by
  simp only [Dev.pairMismatch, h, ne_eq, not_true_eq_false, if_false]
  rfl

omit hp in
theorem Machine.Dev.takesOver_reports (d : Dev) (p q fault stall : Nat) :
    Dev.Reports (d.moveRoles p q) (d.takesOver p q fault stall) :=
  ((Dev.errCorr_reports _ _ _).trans (Dev.causeBit_reports _ _ _)).trans (Dev.squall_reports _ _ _ _)

/-- What the next state shows when the roles of an ACTIVE pair move to another (R345, R347). -/
def RolesMoved (d : Dev) (p q : Nat) (e : Dev) : Prop :=
  e.ccx.role0 = roleMoved p q d.ccx.role0 ∧ e.ccx.role1 = roleMoved p q d.ccx.role1 ∧ Raised e .ccx 16 ∧
    e.pairState p = cpTesting ∧ e.pairState q = cpActive ∧
    e.rd (Reg.CCX_PAIR_mismatches.ix p) = min (d.rd (Reg.CCX_PAIR_mismatches.ix p) + 1) 0xFFFF ∧
    Frame d e (pairFields ++ mismatchFields p ++ fwFields) [.ccx, .mnt]

/-- The roles move once the pair that takes them over is ACTIVE. -/
theorem rolesMoved_takesOver {d x : Dev} {q : Nat} (hq : q < 3) (fault stall : Nat) (hccx : x.ccx = (d.pairOut p).ccx)
    (hstate : x.pairState p = cpTesting) (htaker : x.pairState q = cpActive)
    (hcount : x.rd (Reg.CCX_PAIR_mismatches.ix p) = (d.pairOut p).rd (Reg.CCX_PAIR_mismatches.ix p))
    (hframe : Frame d x (pairFields ++ mismatchFields p ++ fwFields) [.ccx, .mnt]) :
    RolesMoved d p q (x.takesOver p q fault stall).settle := by
  have hrep := x.takesOver_reports p q fault stall
  have hccx' : (x.takesOver p q fault stall).settle.ccx = (x.moveRoles p q).ccx := (Dev.settle_ccx _).trans hrep.ccx
  obtain ⟨h0, h1⟩ := d.pairOut_roles p
  refine ⟨?_, ?_, ?_, ?_, ?_, ?_, ?_⟩
  · rw [hccx', ← h0, ← hccx]; rfl
  · rw [hccx', ← h1, ← hccx]; rfl
  · exact Dev.settle_raised _ _ _ ((Dev.squall_grow _ _ _ _).grow _ _ (Dev.causeBit_raised _ _ _))
  · exact (Dev.pairState_settle _ hp).trans ((hrep.pairState p).trans hstate)
  · exact (Dev.pairState_settle _ hq).trans ((hrep.pairState q).trans htaker)
  · rw [Dev.settle_rd _ _ (by interval_cases p <;> decide), hrep.rd]
    exact hcount.trans (Dev.pairOut_counts hp d)
  · exact ((hframe.setCcx _).reports hrep).settle

theorem Machine.Dev.pairOut_wideFrame (d : Dev) :
    Frame d (d.pairOut p) (pairFields ++ mismatchFields p ++ fwFields) [.ccx, .mnt] := by
  refine (d.pairOut_frame p).mono (fun f hf => ?_)
  rw [List.append_assoc]
  rcases List.mem_cons.1 hf with rfl | hf
  · exact List.mem_append_left _ (pairField_mem hp)
  · exact List.mem_append_right _ hf

theorem gives_pairMismatch_toStandby {q : Nat} (h : s.dev.pairState p = cpActive) (hq : s.dev.pairsIn cpStandby = [q]) :
    Gives (.pairMismatch p stall) s (RolesMoved s.dev p q) := by
  refine gives_of_exec_eq_act (exec_pairMismatch hp stall s) ?_
  obtain ⟨hlt, hstandby⟩ := Dev.mem_pairsIn.1 (hq ▸ List.mem_singleton_self q : q ∈ s.dev.pairsIn cpStandby)
  have hpq : p ≠ q := fun hpq => by rw [← hpq, h] at hstandby; exact absurd hstandby (by decide)
  simp only [Dev.pairMismatch_active stall h, Dev.pairOut_standby hp h, hq]
  refine rolesMoved_takesOver hp hlt _ _ rfl ?_ (Dev.pairState_setPair_same _ _ (by decide)) ?_ ?_
  · exact (Dev.pairState_setPair_other _ _ hpq).trans (s.dev.pairOut_state p)
  · exact Dev.rd_wr_other _ _ _ _ (by interval_cases p <;> interval_cases q <;> decide)
  · refine (Dev.pairOut_wideFrame hp s.dev).wr _ _ ?_
    exact List.mem_append_left _ (List.mem_append_left _ (pairField_mem hlt))

theorem gives_pairMismatch_toActive {q : Nat} (h : s.dev.pairState p = cpActive) (hnone : s.dev.pairsIn cpStandby = [])
    (hpq : q ≠ p) (hactive : s.dev.pairState q = cpActive) (hq : q < 3)
    (hothers : ∀ n, n < 3 → n ≠ p → n ≠ q → s.dev.pairState n ≠ cpActive) :
    Gives (.pairMismatch p stall) s (RolesMoved s.dev p q) := by
  refine gives_of_exec_eq_act (exec_pairMismatch hp stall s) ?_
  have hmem (n : Nat) : n ∈ (s.dev.pairOut p).pairsIn cpActive ↔ n = q := by
    rw [Dev.pairOut_pairsIn hp _ (by decide), List.mem_filter, Dev.mem_pairsIn, decide_eq_true_eq]
    refine ⟨fun hn => ?_, fun hn => ⟨⟨hn ▸ hq, hn ▸ hactive⟩, hn ▸ hpq⟩⟩
    obtain ⟨⟨hlt, hact⟩, hne⟩ := hn
    by_contra hnq
    exact hothers n hlt hne hnq hact
  have hrest : ∃ rest, (s.dev.pairOut p).pairsIn cpActive = q :: rest := by
    cases hl : (s.dev.pairOut p).pairsIn cpActive with
    | nil => exact absurd ((hmem q).2 rfl) (by rw [hl]; exact List.not_mem_nil)
    | cons x rest => exact ⟨rest, by rw [(hmem x).1 (hl ▸ .head _)]⟩
  obtain ⟨rest, hrest⟩ := hrest
  simp only [Dev.pairMismatch_active stall h, Dev.pairOut_standby hp h, hnone, hrest]
  exact rolesMoved_takesOver hp hq _ _ rfl (s.dev.pairOut_state p) ((Dev.pairOut_others hp _ hq hpq).trans hactive) rfl
    (Dev.pairOut_wideFrame hp s.dev)

theorem gives_pairMismatch_last (h : s.dev.pairState p = cpActive) (hnone : s.dev.pairsIn cpStandby = [])
    (honly : s.dev.pairsIn cpActive = [p]) : Gives (.pairMismatch p stall) s fun e =>
      e.blkState .ccx = stFault ∧ e.ccx.role0 = none ∧ e.ccx.role1 = none ∧ Raised e .ccx 19 := by
  refine gives_of_exec_eq_act (exec_pairMismatch hp stall s) ?_
  have hactive : (s.dev.pairOut p).pairsIn cpActive = [] := by
    rw [Dev.pairOut_pairsIn hp _ (by decide), honly]
    simp
  simp only [Dev.pairMismatch_active stall h, Dev.pairOut_standby hp h, hnone, hactive]
  generalize hx : ((s.dev.pairOut p).updCcx fun c => { c with role0 := none, role1 := none }) = x
  have hrep : Dev.Reports (x.setState .ccx stFault)
      ((((x.setState .ccx stFault).causeBit .ccx 19).errUncorr .ccx 5).squall .ccx 4 0xFFFFFFFF) :=
    ((Dev.causeBit_reports _ _ _).trans (Dev.errUncorr_reports _ _ _)).trans (Dev.squall_reports _ _ _ _)
  have hfault : ((((x.setState .ccx stFault).causeBit .ccx 19).errUncorr .ccx 5).squall .ccx 4 0xFFFFFFFF).blkState .ccx =
      stFault := (hrep.rd _).trans (x.setState_blkState_same .ccx (by decide))
  have hroles : ((((x.setState .ccx stFault).causeBit .ccx 19).errUncorr .ccx 5).squall .ccx 4 0xFFFFFFFF).settle.ccx =
      x.ccx := (Dev.settle_ccx _).trans (hrep.ccx.trans (x.setState_ccx .ccx stFault))
  refine ⟨?_, ?_, ?_, ?_⟩
  · rw [Dev.settle_blkState (by rw [hfault]; decide), hfault]
  · rw [hroles, ← hx]; rfl
  · rw [hroles, ← hx]; rfl
  · refine Dev.settle_raised _ _ _ ((Dev.squall_grow _ _ _ _).grow _ _ ?_)
    exact (Dev.errUncorr_grow _ _ _).grow _ _ (Dev.causeBit_raised _ _ _)

end

end Sys2Proof
end

section
/-! Role rollbacks, tests of core pairs, and the firmware slots (R344 to R346, R357, R360 to R364). -/

set_option Elab.async false

namespace Sys2Proof

open Sys2Proof.Machine

/-! ### Stores and checkpoints -/

section

variable {role : Nat} (hrole : role < 2) {s : State}
include hrole

theorem exec_storeUncorrectable (stall : Nat) : exec (.storeUncorrectable role stall) s = s.act fun d => d.storeBad role stall := by
  simp only [exec, execStoreUncorrectable, onUnit, hrole, decide_true, if_true]

theorem exec_checkpoint : exec (.checkpoint role) s = s.act fun d => d.checkpointDone role := by
  simp only [exec, execCheckpoint, onUnit, hrole, decide_true, if_true]

theorem gives_storeUncorrectable_noHolder (h : s.dev.holder role = none) (stall : Nat) :
    Gives (.storeUncorrectable role stall) s fun e => Frame s.dev e [] [] := by
  refine gives_of_exec_eq_act (exec_storeUncorrectable hrole stall) ?_
  simp only [Dev.storeBad, h, Option.isNone_none, if_true]
  exact (Frame.refl _ _ _).settle

theorem gives_checkpoint_noHolder (h : s.dev.holder role = none) :
    Gives (.checkpoint role) s fun e => Frame s.dev e [] [] := by
  refine gives_of_exec_eq_act (exec_checkpoint hrole) ?_
  simp only [Dev.checkpointDone, h, Option.isNone_none, if_true]
  exact (Frame.refl _ _ _).settle

theorem gives_storeUncorrectable (h : s.dev.holder role ≠ none) (stall : Nat) : Gives (.storeUncorrectable role stall) s fun e =>
    e.rd Reg.CCX_STORE_uncorr = min (s.dev.rd Reg.CCX_STORE_uncorr + 1) 0xFFFF ∧ Raised e .ccx 16 ∧
      Frame s.dev e (Reg.CCX_STORE_uncorr :: fwFields) [.ccx, .mnt] := by
  refine gives_of_exec_eq_act (exec_storeUncorrectable hrole stall) ?_
  simp only [Dev.storeBad, Option.isNone_iff_eq_none, h, if_false]
  have habandon := (Frame.refl (s.dev.incSat Reg.CCX_STORE_uncorr) fwFields [.ccx, .mnt]).fwAbandon (List.Subset.refl _)
  have hframe := (((habandon.reports (Dev.errCorr_reports _ .ccx 4)).reports (Dev.causeBit_reports _ .ccx 16)).reports
    (Dev.squall_reports _ .ccx 3 (min stall stallBound))).settle
  refine ⟨?_, ?_, ?_⟩
  · rw [hframe.rd Reg.CCX_STORE_uncorr, Dev.rd_incSat_same]
    rfl
  · exact Dev.settle_raised _ _ _ ((Dev.squall_grow _ _ _ _).grow _ _ (Dev.causeBit_raised _ _ _))
  · exact ((Frame.refl s.dev _ _).incSat _ 1).trans hframe (List.subset_cons_self _ _) (List.Subset.refl _)

theorem gives_checkpoint (h : s.dev.holder role ≠ none) : Gives (.checkpoint role) s fun e =>
    e.ccx = { s.dev.ccx with
      checkpoints := Tbl.put s.dev.ccx.checkpoints role (Tbl.getD s.dev.ccx.checkpoints role 0 + 1) } ∧ Frame s.dev e [] [.ccx] := by
  refine gives_of_exec_eq_act (exec_checkpoint hrole) ?_
  simp only [Dev.checkpointDone, Option.isNone_iff_eq_none, h, if_false]
  exact ⟨Dev.settle_ccx _, ((Frame.refl s.dev [] [.ccx]).setCcx _).settle⟩

end

/-! ### The test of a pair -/

/-- The record of a pair's test that is over: mismatches of the last day stay, a retest asked for is done (R346). -/
def Machine.Dev.testOver (d : Dev) (p : Nat) : Dev :=
  d.updCcx fun c => { c with
    mismatchTimes := Tbl.put c.mismatchTimes p
      ((Tbl.getD d.ccx.mismatchTimes p []).filter fun t => decide (d.ticks < t + 86400 * ticksPerSec)),
    retests := c.retests.filter fun n => n ≠ p }

section

variable {p : Nat} (hp : p < 3) {s : State}
include hp

theorem exec_pairTestDone (ok : Bool) : exec (.pairTestDone p ok) s = s.act fun d => d.pairTestDone p ok := by
  simp only [exec, execPairTestDone, onUnit, hp, decide_true, if_true]

theorem gives_pairTestDone_idle (h : s.dev.pairState p ≠ cpTesting) (ok : Bool) :
    Gives (.pairTestDone p ok) s fun e => Frame s.dev e [] [] := by
  refine gives_of_exec_eq_act (exec_pairTestDone hp ok) ?_
  simp only [Dev.pairTestDone, h, ne_eq, not_false_eq_true, if_true]
  exact (Frame.refl _ _ _).settle

theorem gives_pairTestDone_fail (h : s.dev.pairState p = cpTesting) : Gives (.pairTestDone p false) s fun e =>
    e.pairState p = cpExcluded ∧ Raised e .ccx 17 ∧ Frame s.dev e [Reg.CCX_PAIR_state.ix p] [.ccx] := by
  refine gives_of_exec_eq_act (exec_pairTestDone hp false) ?_
  have heq : s.dev.pairTestDone p false = (((s.dev.testOver p).setPair p cpExcluded).causeBit .ccx 17).errUncorr .ccx 3 := by
    simp only [Dev.pairTestDone, h, ne_eq, not_true_eq_false, if_false, Bool.false_and, Bool.false_eq_true]
    rfl
  have hrep : Dev.Reports ((s.dev.testOver p).setPair p cpExcluded)
      ((((s.dev.testOver p).setPair p cpExcluded).causeBit .ccx 17).errUncorr .ccx 3) :=
    (Dev.causeBit_reports _ _ _).trans (Dev.errUncorr_reports _ _ _)
  rw [heq]
  refine ⟨?_, ?_, ?_⟩
  · exact (Dev.pairState_settle _ hp).trans ((hrep.pairState p).trans (Dev.pairState_setPair_same _ _ (by decide)))
  · exact Dev.settle_raised _ _ _ ((Dev.errUncorr_grow _ _ _).grow _ _ (Dev.causeBit_raised _ _ _))
  · exact ((((Frame.refl s.dev _ _).setCcx _).wr _ _ (.head _)).reports hrep).settle

/-- What a pair whose test is good becomes: ACTIVE with role 1 where at most one other pair is in service, else STANDBY
(R346). -/
def Machine.Dev.testPassed (d : Dev) (p : Nat) : Dev :=
  if (d.pairsIn cpStandby ++ d.pairsIn cpActive).length ≤ 1 && decide (d.blkState .ccx ≠ stFault) then
    (d.setPair p cpActive).updCcx fun c => { c with role1 := some p }
  else d.setPair p cpStandby

theorem gives_pairTestDone_pass (h : s.dev.pairState p = cpTesting) (hnone : Tbl.getD s.dev.ccx.mismatchTimes p [] = []) :
    Gives (.pairTestDone p true) s fun e => Raised e .ccx 18 ∧
      (2 ≤ (s.dev.pairsIn cpStandby ++ s.dev.pairsIn cpActive).length →
        e.pairState p = cpStandby ∧ e.ccx.role1 = s.dev.ccx.role1) ∧
      ((s.dev.pairsIn cpStandby ++ s.dev.pairsIn cpActive).length ≤ 1 → s.dev.blkState .ccx ≠ stFault →
        e.pairState p = cpActive ∧ e.ccx.role1 = some p) ∧
      Frame s.dev e [Reg.CCX_PAIR_state.ix p] [.ccx] := by
  refine gives_of_exec_eq_act (exec_pairTestDone hp true) ?_
  generalize hx : (s.dev.testOver p).causeBit .ccx 18 = x
  have hrep : Dev.Reports (s.dev.testOver p) x := hx ▸ Dev.causeBit_reports _ _ _
  have heq : s.dev.pairTestDone p true = x.testPassed p := by
    rw [← hx]
    simp [Dev.pairTestDone, h, hnone, Dev.testPassed, Dev.testOver]
  have hin (st : Nat) : x.pairsIn st = s.dev.pairsIn st := Dev.pairsIn_congr (fun n _ => hrep.pairState n) st
  have hblk : x.blkState .ccx = s.dev.blkState .ccx := hrep.rd _
  have hraised : Raised x .ccx 18 := hx ▸ Dev.causeBit_raised _ _ _
  have hgrow : Dev.CausesGrow x (x.testPassed p) :=
    .ite ((Dev.wr_grow _ _ _).trans (Dev.updCcx_grow _ _)) (Dev.wr_grow _ _ _)
  rw [heq]
  refine ⟨Dev.settle_raised _ _ _ (hgrow.grow _ _ hraised), fun hmany => ?_, fun hfew hfault => ?_, ?_⟩
  · have hstandby : x.testPassed p = x.setPair p cpStandby := by
      have hlen : ¬ (s.dev.pairsIn cpStandby ++ s.dev.pairsIn cpActive).length ≤ 1 := by omega
      simp only [Dev.testPassed, hin, hlen, decide_false, Bool.false_and, Bool.false_eq_true, if_false]
    rw [hstandby]
    refine ⟨(Dev.pairState_settle _ hp).trans (Dev.pairState_setPair_same _ _ (by decide)), ?_⟩
    rw [Dev.settle_ccx]
    exact (congrArg CcxState.role1 hrep.ccx : x.ccx.role1 = (s.dev.testOver p).ccx.role1)
  · have hactive : x.testPassed p = (x.setPair p cpActive).updCcx fun c => { c with role1 := some p } := by
      simp only [Dev.testPassed, hin, hblk, hfew, hfault, ne_eq, not_false_eq_true, decide_true, Bool.true_and, if_true]
    rw [hactive]
    refine ⟨(Dev.pairState_settle _ hp).trans (Dev.pairState_setPair_same _ _ (by decide)), ?_⟩
    rw [Dev.settle_ccx]
    rfl
  · have hframe := ((Frame.refl s.dev [Reg.CCX_PAIR_state.ix p] [.ccx]).setCcx (s.dev.testOver p).ccx).reports hrep
    exact (Frame.ite ((hframe.wr _ _ (.head _)).setCcx _) (hframe.wr _ _ (.head _))).settle

end

/-! ### A retest asked for by the host -/

/-- One pair's part in a retest. -/
def Machine.Dev.retestPair (n : Nat) (d : Dev) : Dev :=
  if d.pairState n = cpExcluded then
    (d.setPair n cpTesting).updCcx fun c => { c with retests := c.retests ++ [n] }
  else d

theorem Machine.Dev.retestPair_state (d : Dev) (k n : Nat) : (Dev.retestPair k d).pairState n =
    if k = n ∧ d.pairState n = cpExcluded then cpTesting else d.pairState n := by
  unfold Dev.retestPair
  by_cases hk : k = n
  · subst hk
    by_cases h : d.pairState k = cpExcluded
    · rw [if_pos h, if_pos ⟨rfl, h⟩]
      exact Dev.pairState_setPair_same _ _ (by decide)
    · rw [if_neg h, if_neg fun hc => h hc.2]
  · rw [if_neg fun hc : k = n ∧ _ => hk hc.1]
    by_cases h : d.pairState k = cpExcluded
    · rw [if_pos h]
      exact Dev.pairState_setPair_other _ _ (Ne.symm hk)
    · rw [if_neg h]

theorem Machine.Dev.retestPair_frame {a d : Dev} {n : Nat} (h : Frame a d pairFields [.ccx]) (hn : n < 3) :
    Frame a (Dev.retestPair n d) pairFields [.ccx] := .ite ((h.wr _ _ (pairField_mem hn)).setCcx _) h

/-- A retest sends the EXCLUDED pairs among those named to their test. -/
theorem Machine.Dev.retestPairs_state (ns : List Nat) (n : Nat) : ∀ d : Dev, (forEach ns Dev.retestPair d).pairState n =
    if n ∈ ns ∧ d.pairState n = cpExcluded then cpTesting else d.pairState n := by
  induction ns with
  | nil => exact fun d => by simp [forEach]
  | cons k ns ih =>
    intro d
    have hne : cpTesting ≠ cpExcluded := by decide
    rw [show forEach (k :: ns) Dev.retestPair d = forEach ns Dev.retestPair (Dev.retestPair k d) from rfl, ih, Dev.retestPair_state]
    by_cases hk : k = n
    · subst hk
      by_cases hx : d.pairState k = cpExcluded
      · simp [hx, hne]
      · simp [hx]
    · simp [hk, Ne.symm hk]

theorem hostGives_pairRetest (bits : Nat) (s : State) : HostGives 0 .ccx (.pairRetest bits) s fun e =>
    (∀ n, n < 3 → e.pairState n = if bitOf bits n && decide (s.dev.pairState n = cpExcluded) then cpTesting
      else s.dev.pairState n) ∧ Frame s.dev e pairFields [.ccx] := by
  intro h
  refine gives_of_exec_eq_atFn rfl h fun d hd => ?_
  have heq : d.pairRetest bits = forEach ((List.range 3).filter (bitOf bits)) Dev.retestPair d := rfl
  refine ⟨fun n hn => ?_, Frame.settle ?_⟩
  · rw [Dev.pairState_settle _ hn]
    refine (congrArg (fun e => Dev.pairState e n) heq).trans ((Dev.retestPairs_state _ n d).trans ?_)
    have hstate : d.pairState n = s.dev.pairState n := hd.rd _ (by interval_cases n <;> decide)
    simp [hstate, hn]
  · have hall : ∀ ns : List Nat, (∀ n ∈ ns, n < 3) → ∀ e, Frame s.dev e pairFields [.ccx] →
        Frame s.dev (forEach ns Dev.retestPair e) pairFields [.ccx] := by
      intro ns
      induction ns with
      | nil => exact fun _ _ he => he
      | cons n ns ih => exact fun hns e he => ih (fun k hk => hns k (.tail _ hk)) _ (Dev.retestPair_frame he (hns n (.head _)))
    exact hall _ (fun n hn => List.mem_range.1 (List.mem_filter.1 hn).1) d (.of_woken hd _ _)

end Sys2Proof
end

section
/-! The firmware slots: writing the other slot, asking for its activation, and how an activation ends (R360 to R364). -/

set_option Elab.async false

namespace Sys2Proof

open Sys2Proof.Machine

namespace Machine

theorem Dev.Woken.ccx {d e : Dev} (h : Dev.Woken d e) : e.ccx = d.ccx := by rw [h.same]
theorem Dev.Woken.mnt {d e : Dev} (h : Dev.Woken d e) : e.mnt = d.mnt := by rw [h.same]

theorem Dev.Woken.pairsIn {d e : Dev} (h : Dev.Woken d e) (st : Nat) : e.pairsIn st = d.pairsIn st :=
  Dev.pairsIn_congr (fun n hn => h.rd _ (by interval_cases n <;> decide)) st

theorem Dev.postStarted_reports (d : Dev) (act : Act) (a : Nat) : Dev.Reports d (d.postStarted act a) :=
  Dev.post_reports _ _ _ _ _ _ _ _

theorem Dev.postDeferred_reports (d : Dev) (act : Act) (a b : Nat) : Dev.Reports d (d.postDeferred act a b) :=
  (Dev.causeBit_reports _ _ _).trans (Dev.post_reports _ _ _ _ _ _ _ _)

theorem Dev.Reports.mnt {d e : Dev} (h : Dev.Reports d e) : e.mnt = d.mnt := h.keeps.2.2.2.2.2.2.2.2.2.2.2.2.2.2.1

theorem Dev.settle_mnt (d : Dev) : d.settle.mnt = d.mnt := by simp only [Dev.settle_keeps]

theorem Dev.rdB_wrB_same (d : Dev) (f : Fld) (b : Bool) : (d.wrB f b).rdB f = decide (b2n b % 2 ^ f.width ≠ 0) := by
  rw [Dev.rdB, Dev.wrB, Dev.rd_wr_same]

end Machine

/-- The result of trying an image fits its field. -/
theorem imageResult_lt (fuse : Nat) (x : FwImage) : imageResult fuse x < 2 ^ 4 := by
  unfold imageResult imgOk
  repeat' split
  all_goals decide

/-! ### Refused requests -/

section

variable {s : State} {c : Instr} {g : Dev → Dev} (hexec : exec c s = s.act fun d => d.atFn 0 .ccx g)
  (hreach : HostReaches s.dev 0 .ccx) {x : Nat}
include hexec hreach

theorem gives_fwRefuse (hx : x < 2 ^ 4) (hg : ∀ d, Dev.Woken s.dev d → g d = d.fwRefuse x) (loud : Bool) (hloud : loud = false) :
    Gives c s fun e => e.rd Reg.CCX_FW_STAT_result = x ∧ (loud = true → Raised e .ccx 3) ∧
      Frame s.dev e [Reg.CCX_FW_STAT_result] [] := by
  refine gives_of_exec_eq_atFn hexec hreach fun d hd => ?_
  rw [hg d hd]
  refine ⟨?_, fun h => absurd h (by simp [hloud]), ((Frame.of_woken hd _ _).wr _ _).settle⟩
  rw [Dev.settle_rd _ _ (by decide)]
  exact (Dev.rd_wr_same _ _ _).trans (Nat.mod_eq_of_lt hx)

theorem gives_fwRefuse_loud (hx : x < 2 ^ 4) (hg : ∀ d, Dev.Woken s.dev d → g d = (d.fwRefuse x).refuse .ccx) (loud : Bool) :
    Gives c s fun e => e.rd Reg.CCX_FW_STAT_result = x ∧ (loud = true → Raised e .ccx 3) ∧
      Frame s.dev e [Reg.CCX_FW_STAT_result] [] := by
  refine gives_of_exec_eq_atFn hexec hreach fun d hd => ?_
  rw [hg d hd]
  have hrep : Dev.Reports (d.fwRefuse x) ((d.fwRefuse x).refuse .ccx) := Dev.refuse_reports _ _
  refine ⟨?_, fun _ => Dev.settle_raised _ _ _ (Dev.refuse_raised _ _), (((Frame.of_woken hd _ _).wr _ _).reports hrep).settle⟩
  rw [Dev.settle_rd _ _ (by decide), hrep.rd]
  exact (Dev.rd_wr_same _ _ _).trans (Nat.mod_eq_of_lt hx)

end

/-! ### Writing a slot -/

/-- Whether what CCX_FW_SRC and CCX_FW_LEN name fits (R360). -/
def FwFits (d : Dev) : Prop :=
  d.rd Reg.CCX_FW_LEN_bytes ≤ 14 * 2 ^ 20 ∧ d.rd Reg.CCX_FW_SRC_offset % 4096 = 0 ∧
    d.rd Reg.CCX_FW_SRC_offset + d.rd Reg.CCX_FW_LEN_bytes ≤ d.rd Reg.PWC_SCRATCH_mib * 2 ^ 20

theorem fwFits_iff (d : Dev) : ¬ FwFits d ↔ 14 * 2 ^ 20 < d.rd Reg.CCX_FW_LEN_bytes ∨
    d.rd Reg.CCX_FW_SRC_offset % 4096 ≠ 0 ∨
    d.rd Reg.PWC_SCRATCH_mib * 2 ^ 20 < d.rd Reg.CCX_FW_SRC_offset + d.rd Reg.CCX_FW_LEN_bytes := by
  unfold FwFits
  omega

theorem Machine.Dev.Woken.fwFits {d e : Dev} (h : Dev.Woken d e) : FwFits e ↔ FwFits d := by
  simp only [FwFits, h.rd Reg.CCX_FW_LEN_bytes, h.rd Reg.CCX_FW_SRC_offset, h.rd Reg.PWC_SCRATCH_mib]

section

variable {s : State} (hreach : HostReaches s.dev 0 .ccx)
include hreach

theorem gives_fwWrite_busy (h : s.dev.ccx.fwOp ≠ .idle) (loud : Bool) : Gives .fwWrite s fun e =>
    e.rd Reg.CCX_FW_STAT_result = 8 ∧ (loud = true → Raised e .ccx 3) ∧ Frame s.dev e [Reg.CCX_FW_STAT_result] [] :=
  gives_fwRefuse_loud (g := Dev.fwWrite) rfl hreach (by decide) (fun d hd => by simp only [Dev.fwWrite, hd.ccx, h, ne_eq, not_false_eq_true, if_true]) loud

theorem gives_fwWrite_unfit (h : s.dev.ccx.fwOp = .idle) (hfits : ¬ FwFits s.dev) : Gives .fwWrite s fun e =>
    e.rd Reg.CCX_FW_STAT_result = 7 ∧ (false = true → Raised e .ccx 3) ∧ Frame s.dev e [Reg.CCX_FW_STAT_result] [] :=
  gives_fwRefuse (g := Dev.fwWrite) rfl hreach (by decide)
    (fun d hd => by
      have hd' := (fwFits_iff d).1 fun hf => hfits (hd.fwFits.1 hf)
      simp only [Dev.fwWrite, hd.ccx, h, ne_eq, not_true_eq_false, if_false, hd', if_true]) false rfl

theorem gives_fwWrite (h : s.dev.ccx.fwOp = .idle) (hfits : FwFits s.dev) : Gives .fwWrite s fun e =>
    e.ccx = { s.dev.ccx with fwOp := .writing } ∧ e.rd Reg.CCX_FW_STAT_busy = 1 ∧ e.rd Reg.CCX_FW_STAT_op = 1 ∧
      .spiImage s.dev.otherSlotB (s.dev.rd Reg.CCX_FW_SRC_offset) (s.dev.rd Reg.CCX_FW_LEN_bytes) ∈ e.emitted ∧
      Frame s.dev e [Reg.CCX_FW_STAT_busy, Reg.CCX_FW_STAT_op] [.ccx] := by
  refine gives_of_exec_eq_atFn (g := Dev.fwWrite) rfl hreach fun d hd => ?_
  generalize hx : ((d.updCcx fun c => { c with fwOp := .writing }).wr Reg.CCX_FW_STAT_busy 1).wr Reg.CCX_FW_STAT_op 1 = x
  have heq : d.fwWrite = x.emit (.spiImage s.dev.otherSlotB (s.dev.rd Reg.CCX_FW_SRC_offset) (s.dev.rd Reg.CCX_FW_LEN_bytes)) := by
    have hin : ¬ (14 * 2 ^ 20 < d.rd Reg.CCX_FW_LEN_bytes ∨ d.rd Reg.CCX_FW_SRC_offset % 4096 ≠ 0 ∨
        d.rd Reg.PWC_SCRATCH_mib * 2 ^ 20 < d.rd Reg.CCX_FW_SRC_offset + d.rd Reg.CCX_FW_LEN_bytes) :=
      fun hc => (fwFits_iff d).2 hc (hd.fwFits.2 hfits)
    have hslot : (d.updCcx fun c => { c with fwOp := .writing }).otherSlotB = s.dev.otherSlotB := by
      rw [Dev.otherSlotB, Dev.otherSlotB, Dev.rdB, Dev.rdB, ← hd.rd Reg.SYS_BOOT_running]
      rfl
    simp only [Dev.fwWrite, hd.ccx, h, ne_eq, not_true_eq_false, if_false, if_neg hin]
    rw [hx, hslot, hd.rd Reg.CCX_FW_SRC_offset, hd.rd Reg.CCX_FW_LEN_bytes]
  rw [heq]
  have hccx : x.ccx = { s.dev.ccx with fwOp := .writing } := by rw [← hd.ccx, ← hx]; rfl
  have hbusy : x.rd Reg.CCX_FW_STAT_busy = 1 := by
    rw [← hx, Dev.rd_wr_other _ _ _ _ (by decide), Dev.rd_wr_same]; rfl
  have hop : x.rd Reg.CCX_FW_STAT_op = 1 := by rw [← hx, Dev.rd_wr_same]; rfl
  have hframe : Frame s.dev x [Reg.CCX_FW_STAT_busy, Reg.CCX_FW_STAT_op] [.ccx] := by
    rw [← hx]
    exact (((Frame.of_woken hd _ _).setCcx _).wr _ _).wr _ _
  refine ⟨(Dev.settle_ccx _).trans hccx, ?_, ?_, ?_, (hframe.reports (Dev.emit_reports _ _)).settle⟩
  · exact (Dev.settle_rd _ _ (by decide)).trans hbusy
  · exact (Dev.settle_rd _ _ (by decide)).trans hop
  · exact (Dev.settle_sends rfl).mem (.head _)

end

theorem gives_fwWriteDone_idle {s : State} (h : s.dev.ccx.fwOp ≠ .writing) (img : FwImage) (ok : Bool) :
    Gives (.fwWriteDone img ok) s fun e => Frame s.dev e [] [] := by
  refine gives_of_exec_eq_act (f := fun d => d.fwWriteDone img ok) rfl ?_
  simp only [Dev.fwWriteDone, h, ne_eq, not_false_eq_true, if_true]
  exact (Frame.refl _ _ _).settle

theorem Machine.Dev.fwEnd_result (d : Dev) (r : Nat) : (d.fwEnd r).rd Reg.CCX_FW_STAT_result = r % 2 ^ 4 :=
  ((Dev.causeBit_reports _ .ccx 20).rd _).trans (Dev.rd_wr_same _ _ _)

/-- What the end of a firmware operation shows. -/
theorem Machine.Dev.fwEnd_shows (d : Dev) {r : Nat} (hr : r < 2 ^ 4) :
    (d.fwEnd r).rd Reg.CCX_FW_STAT_result = r ∧ (d.fwEnd r).rd Reg.CCX_FW_STAT_busy = 0 ∧ Raised (d.fwEnd r) .ccx 20 := by
  refine ⟨?_, ?_, Dev.causeBit_raised _ _ _⟩
  · exact (d.fwEnd_result r).trans (Nat.mod_eq_of_lt hr)
  · refine ((Dev.causeBit_reports _ .ccx 20).rd _).trans ((Dev.rd_wr_other _ _ _ _ (by decide)).trans (Dev.rd_wr_same _ _ _))

theorem gives_fwWriteDone {s : State} (h : s.dev.ccx.fwOp = .writing) (img : FwImage) (ok : Bool) :
    Gives (.fwWriteDone img ok) s fun e => e.ccx = { s.dev.ccx with fwOp := .idle } ∧
      e.rd Reg.CCX_FW_STAT_result = (if ok then imageResult (s.dev.rd Reg.SYS_SVN_fuse) img else 6) ∧
      e.rd Reg.CCX_FW_STAT_busy = 0 ∧ Raised e .ccx 20 ∧ Frame s.dev e fwFields [.ccx] := by
  refine gives_of_exec_eq_act (f := fun d => d.fwWriteDone img ok) rfl ?_
  generalize hr : (if ok then imageResult (s.dev.rd Reg.SYS_SVN_fuse) img else 6) = r
  have hlt : r < 2 ^ 4 := by
    rw [← hr]
    split
    · exact imageResult_lt _ _
    · decide
  have heq : s.dev.fwWriteDone img ok = (s.dev.fwEnd r).updCcx fun c => { c with fwPicked := s.dev.ccx.fwPicked } := by
    simp only [Dev.fwWriteDone, h, ne_eq, not_true_eq_false, if_false]
    rw [hr]
  obtain ⟨hresult, hbusy, hraised⟩ := s.dev.fwEnd_shows hlt
  simp only [heq]
  refine ⟨?_, ?_, ?_, Dev.settle_raised _ _ _ hraised, (((Frame.refl _ _ _).fwEnd _ (List.Subset.refl _)).setCcx _).settle⟩
  · rw [Dev.settle_ccx]
    show { (s.dev.fwEnd r).ccx with fwPicked := s.dev.ccx.fwPicked } = _
    rw [Dev.fwEnd_ccx]
  · exact (Dev.settle_rd _ _ (by decide)).trans hresult
  · exact (Dev.settle_rd _ _ (by decide)).trans hbusy

/-! ### Asking for an activation -/

theorem exec_fwActivate (img : FwImage) (s : State) :
    exec (.fwActivate img) s = s.act fun d => d.atFn 0 .ccx fun d => d.fwActivate img := rfl

section

variable {s : State} (hreach : HostReaches s.dev 0 .ccx) (img : FwImage)
include hreach

theorem gives_fwActivate_busy (h : s.dev.ccx.fwOp ≠ .idle) (loud : Bool) : Gives (.fwActivate img) s fun e =>
    e.rd Reg.CCX_FW_STAT_result = 8 ∧ (loud = true → Raised e .ccx 3) ∧ Frame s.dev e [Reg.CCX_FW_STAT_result] [] :=
  gives_fwRefuse_loud (exec_fwActivate img s) hreach (by decide)
    (fun d hd => by simp only [Dev.fwActivate, hd.ccx, h, ne_eq, not_false_eq_true, if_true]) loud

theorem gives_fwActivate_notReady (h : s.dev.ccx.fwOp = .idle) (hphase : s.dev.phase ≠ phReady) (loud : Bool) :
    Gives (.fwActivate img) s fun e => e.rd Reg.CCX_FW_STAT_result = 9 ∧ (loud = true → Raised e .ccx 3) ∧
      Frame s.dev e [Reg.CCX_FW_STAT_result] [] :=
  gives_fwRefuse_loud (exec_fwActivate img s) hreach (by decide)
    (fun d hd => by
      simp only [Dev.fwActivate, hd.ccx, h, hd.phase, hphase, ne_eq, not_false_eq_true, not_true_eq_false, if_false, if_true]) loud

theorem gives_fwActivate_fault (h : s.dev.ccx.fwOp = .idle) (hphase : s.dev.phase = phReady)
    (hfault : s.dev.blkState .ccx = stFault) (loud : Bool) :
    Gives (.fwActivate img) s fun e => e.rd Reg.CCX_FW_STAT_result = 10 ∧ (loud = true → Raised e .ccx 3) ∧
      Frame s.dev e [Reg.CCX_FW_STAT_result] [] :=
  gives_fwRefuse_loud (exec_fwActivate img s) hreach (by decide)
    (fun d hd => by
      simp only [Dev.fwActivate, hd.ccx, h, hd.phase, hphase, hd.blkState, hfault, ne_eq, not_true_eq_false, if_false, if_true]) loud

variable (hidle : s.dev.ccx.fwOp = .idle) (hphase : s.dev.phase = phReady) (hwell : s.dev.blkState .ccx ≠ stFault)
include hidle hphase hwell

theorem gives_fwActivate_noStandby (h : s.dev.pairsIn cpStandby = []) (loud : Bool) :
    Gives (.fwActivate img) s fun e => e.rd Reg.CCX_FW_STAT_result = 11 ∧ (loud = true → Raised e .ccx 3) ∧
      Frame s.dev e [Reg.CCX_FW_STAT_result] [] :=
  gives_fwRefuse_loud (exec_fwActivate img s) hreach (by decide)
    (fun d hd => by
      simp only [Dev.fwActivate, hd.ccx, hidle, hd.phase, hphase, hd.blkState, hwell, hd.pairsIn, h, ne_eq, not_true_eq_false,
        if_false, if_true]) loud

variable (hstandby : s.dev.pairsIn cpStandby ≠ [])
include hstandby

theorem gives_fwActivate_bad (h : imageResult (s.dev.rd Reg.SYS_SVN_fuse) img ≠ imgOk) : Gives (.fwActivate img) s fun e =>
    e.rd Reg.CCX_FW_STAT_result = imageResult (s.dev.rd Reg.SYS_SVN_fuse) img ∧ (false = true → Raised e .ccx 3) ∧
      Frame s.dev e [Reg.CCX_FW_STAT_result] [] :=
  gives_fwRefuse (exec_fwActivate img s) hreach (imageResult_lt _ _)
    (fun d hd => by
      simp only [Dev.fwActivate, hd.ccx, hidle, hd.phase, hphase, hd.blkState, hwell, hd.pairsIn, hstandby,
        hd.rd Reg.SYS_SVN_fuse, h, ne_eq, not_true_eq_false, not_false_eq_true, if_false, if_true]) false rfl

omit hreach hidle hphase hwell hstandby in
/-- Where no activity is there, one that nothing keeps from running starts at once (R228). -/
theorem Machine.Dev.arbRequest_alone {d : Dev} (hacts : d.mnt.acts = []) (act : Act) (a : Nat) (h : d.blocker act a = none) :
    d.arbRequest act a = d.actStart act a false := by
  have hrun : d.running = [] := by simp [Dev.running, hacts]
  simp [Dev.arbRequest, Dev.arbRefuses, hrun, Dev.actOf, hacts, h]

omit hreach hidle hphase hwell hstandby in
theorem Machine.Dev.actStart_alone {d : Dev} (hacts : d.mnt.acts = []) (act : Act) (a : Nat) (h : act ≠ .calibrate) :
    d.actStart act a false =
      (({ d with mnt := { d.mnt with acts := [⟨act, a, .running⟩] } } : Dev).postStarted act a).actBegin act a := by
  have hrun : d.running = [] := by simp [Dev.running, hacts]
  simp [Dev.actStart, Dev.meeting, hrun, forEach, Dev.setAct, Dev.actOf, hacts, h]

/-- An activation that has begun. -/
def Machine.Dev.fwBegun (d : Dev) (img : FwImage) : Dev :=
  (({ (d.updCcx fun c => { c with fwPicked := some img }) with
    mnt := { d.mnt with acts := [⟨.fwActivate, wholeDevice, .running⟩] } } : Dev).postStarted .fwActivate wholeDevice).actBegin
      .fwActivate wholeDevice

theorem gives_fwActivate (hok : imageResult (s.dev.rd Reg.SYS_SVN_fuse) img = imgOk) (hacts : s.dev.mnt.acts = []) :
    Gives (.fwActivate img) s fun e =>
      e.ccx = { s.dev.ccx with fwOp := .activating, fwPicked := some img } ∧ e.rd Reg.CCX_FW_STAT_busy = 1 ∧
        e.rd Reg.CCX_FW_STAT_op = 2 ∧ e.actRuns .fwActivate 0xFF = true ∧
        Frame s.dev e [Reg.CCX_FW_STAT_busy, Reg.CCX_FW_STAT_op] [.ccx, .mnt] := by
  refine gives_of_exec_eq_atFn (exec_fwActivate img s) hreach fun d hd => ?_
  have heq : d.fwActivate img = d.fwBegun img := by
    have hreq : d.fwActivate img =
        (d.updCcx fun c => { c with fwPicked := some img }).arbRequest .fwActivate wholeDevice := by
      simp only [Dev.fwActivate, hd.ccx, hidle, hd.phase, hphase, hd.blkState, hwell, hd.pairsIn, hstandby,
        hd.rd Reg.SYS_SVN_fuse, hok, ne_eq, not_true_eq_false, if_false]
    have hmnt : (d.updCcx fun c => { c with fwPicked := some img }).mnt.acts = [] := (congrArg MntState.acts hd.mnt).trans hacts
    have hblk : (d.updCcx fun c => { c with fwPicked := some img }).blkState .ccx ≠ stFault := by
      rw [show (d.updCcx fun c => { c with fwPicked := some img }).blkState .ccx = d.blkState .ccx from rfl, hd.blkState]
      exact hwell
    have hblock : (d.updCcx fun c => { c with fwPicked := some img }).blocker .fwActivate wholeDevice = none := by
      have hrun : (d.updCcx fun c => { c with fwPicked := some img }).running = [] := by rw [Dev.running, hmnt]; rfl
      simp [Dev.blocker, Act.ofArray, Dev.meeting, hrun, leastCode, Dev.condHolds, hblk]
    rw [hreq, Dev.arbRequest_alone hmnt _ _ hblock, Dev.actStart_alone hmnt _ _ (by decide)]
    rfl
  rw [heq]
  have hframe : Frame s.dev (d.fwBegun img) [Reg.CCX_FW_STAT_busy, Reg.CCX_FW_STAT_op] [.ccx, .mnt] := by
    refine ((Frame.setCcx ?_ _).wr _ _).wr _ _
    exact (((Frame.of_woken hd _ _).setCcx _).setMnt _).reports (Dev.postStarted_reports _ _ _)
  have hpost := Dev.postStarted_reports ({ (d.updCcx fun c => { c with fwPicked := some img }) with
    mnt := { d.mnt with acts := [⟨.fwActivate, wholeDevice, .running⟩] } } : Dev) .fwActivate wholeDevice
  refine ⟨?_, ?_, ?_, ?_, hframe.settle⟩
  · rw [Dev.settle_ccx, ← hd.ccx]
    exact congrArg (fun c : CcxState => { c with fwOp := .activating }) hpost.ccx
  · rw [Dev.settle_rd _ _ (by decide)]
    exact (Dev.rd_wr_other _ _ _ _ (by decide)).trans (Dev.rd_wr_same _ _ _)
  · rw [Dev.settle_rd _ _ (by decide)]
    exact Dev.rd_wr_same _ _ _
  · have hmnt : (d.fwBegun img).mnt = { d.mnt with acts := [⟨.fwActivate, wholeDevice, .running⟩] } := hpost.mnt
    rw [Dev.actRuns, Dev.running, Dev.settle_mnt, hmnt]
    rfl

end

/-! ### How an activation ends -/

section

variable {s : State}

theorem exec_fwActivationDone (x : FwEnd) : exec (.fwActivationDone x) s = s.act fun d => d.fwDone x := rfl

theorem gives_fwActivationDone_idle (h : s.dev.ccx.fwOp ≠ .activating) (x : FwEnd) :
    Gives (.fwActivationDone x) s fun e => Frame s.dev e [] [] := by
  refine gives_of_exec_eq_act (exec_fwActivationDone x) ?_
  have heq : s.dev.fwDone x = s.dev := by
    unfold Dev.fwDone
    split
    · next h' _ => exact absurd h' h
    · rfl
  rw [heq]
  exact (Frame.refl _ _ _).settle

theorem Machine.Dev.actEnd_actRuns (d : Dev) (act : Act) (a : Nat) : (d.actEnd act a).actRuns act a = false := by
  simp only [Dev.actRuns, Dev.running, Dev.actEnd, List.any_eq_false, List.mem_filter]
  intro x hx
  obtain ⟨⟨-, hx⟩, -⟩ := hx
  simpa [or_iff_not_imp_left] using hx

variable (h : s.dev.ccx.fwOp = .activating) {img : FwImage} (himg : s.dev.ccx.fwPicked = some img)
include h himg

theorem gives_fwActivationDone_slotFails (r : Nat) : Gives (.fwActivationDone (.slotFails r)) s fun e =>
    e.rd Reg.CCX_FW_STAT_result = r % 2 ^ 4 ∧ e.ccx = { s.dev.ccx with fwOp := .idle, fwPicked := none } ∧
      Frame s.dev e fwFields [.ccx, .mnt] := by
  refine gives_of_exec_eq_act (exec_fwActivationDone _) ?_
  simp only [Dev.fwDone, h, himg]
  refine ⟨?_, (Dev.settle_ccx _).trans (s.dev.fwEnd_ccx r), (((Frame.refl _ _ _).fwEnd r (List.Subset.refl _)).setMnt _).settle⟩
  exact (Dev.settle_rd _ _ (by decide)).trans (s.dev.fwEnd_result r)

omit h himg in
theorem Machine.Dev.fwAbandon_shows {d : Dev} (h : d.ccx.fwOp = .activating) : d.fwAbandon.rd Reg.CCX_FW_STAT_result = 12 ∧
    d.fwAbandon.ccx = { d.ccx with fwOp := .idle, fwPicked := none } := by
  have heq : d.fwAbandon = ((d.fwEnd 12).errCorr .ccx 6).actEnd .fwActivate wholeDevice := by
    simp only [Dev.fwAbandon, h, if_true]
  rw [heq]
  exact ⟨((Dev.errCorr_reports (d.fwEnd 12) .ccx 6).rd _).trans (d.fwEnd_shows (by decide)).1, d.fwEnd_ccx 12⟩

theorem gives_fwActivationDone_step2 : Gives (.fwActivationDone .roleFailsStep2) s fun e =>
    e.rd Reg.CCX_FW_STAT_result = 12 ∧ e.ccx = { s.dev.ccx with fwOp := .idle, fwPicked := none } ∧
      Frame s.dev e fwFields [.ccx, .mnt] := by
  refine gives_of_exec_eq_act (exec_fwActivationDone _) ?_
  simp only [Dev.fwDone, h, himg]
  obtain ⟨hresult, hccx⟩ := Dev.fwAbandon_shows h
  exact ⟨(Dev.settle_rd _ _ (by decide)).trans hresult, (Dev.settle_ccx _).trans hccx,
    ((Frame.refl _ _ _).fwAbandon (List.Subset.refl _)).settle⟩

theorem gives_fwActivationDone_step3 (us : Nat) : Gives (.fwActivationDone (.roleFailsStep3 us)) s fun e =>
    e.rd Reg.CCX_FW_STAT_result = 12 ∧ e.rd Reg.CCX_FW_STAT_pause_us = min us 200 ∧
      Frame s.dev e (Reg.CCX_FW_STAT_pause_us :: fwFields) [.ccx, .mnt] := by
  refine gives_of_exec_eq_act (exec_fwActivationDone _) ?_
  simp only [Dev.fwDone, h, himg]
  have hframe := ((Frame.refl (s.dev.wr Reg.CCX_FW_STAT_pause_us (min us 200)) fwFields [.ccx, .mnt]).fwAbandon
    (List.Subset.refl _)).settle
  refine ⟨?_, ?_, ((Frame.refl s.dev _ _).wr _ _).trans hframe (List.subset_cons_self _ _) (List.Subset.refl _)⟩
  · exact (Dev.settle_rd _ _ (by decide)).trans (Dev.fwAbandon_shows (d := s.dev.wr Reg.CCX_FW_STAT_pause_us (min us 200)) h).1
  · rw [hframe.rd Reg.CCX_FW_STAT_pause_us, Dev.rd_wr_same]
    exact Nat.mod_eq_of_lt (lt_of_le_of_lt (Nat.min_le_right _ _) (by decide))

/-- What SYS shows once an activation's image runs (R338, R361). -/
def Machine.Dev.fwShown (d : Dev) (img : FwImage) (us : Nat) : Dev :=
  d.wrB Reg.SYS_BOOT_running d.otherSlotB |>.wrB Reg.SYS_BOOT_preferred d.otherSlotB |>.wr Reg.SYS_FW_VER_version img.version
    |>.wr Reg.SYS_SVN_image img.svn |>.wr Reg.CCX_FW_STAT_pause_us (min us 200)

omit h himg in
theorem Machine.Dev.fwShown_shows (d : Dev) (img : FwImage) (us : Nat) :
    (d.fwShown img us).rdB Reg.SYS_BOOT_running = d.otherSlotB ∧ (d.fwShown img us).rdB Reg.SYS_BOOT_preferred = d.otherSlotB ∧
      (d.fwShown img us).rd Reg.SYS_FW_VER_version = img.version % 2 ^ 32 ∧
      (d.fwShown img us).rd Reg.CCX_FW_STAT_pause_us = min us 200 := by
  have hbit (b : Bool) : decide (b2n b % 2 ^ 1 ≠ 0) = b := by cases b <;> rfl
  refine ⟨?_, ?_, ?_, ?_⟩
  · rw [Dev.rdB, Dev.fwShown, Dev.rd_wr_other _ _ _ _ (by decide), Dev.rd_wr_other _ _ _ _ (by decide),
      Dev.rd_wr_other _ _ _ _ (by decide), Dev.wrB, Dev.rd_wr_other _ _ _ _ (by decide)]
    exact (Dev.rdB_wrB_same _ _ _).trans (hbit _)
  · rw [Dev.rdB, Dev.fwShown, Dev.rd_wr_other _ _ _ _ (by decide), Dev.rd_wr_other _ _ _ _ (by decide),
      Dev.rd_wr_other _ _ _ _ (by decide)]
    exact (Dev.rdB_wrB_same _ _ _).trans (hbit _)
  · rw [Dev.fwShown, Dev.rd_wr_other _ _ _ _ (by decide), Dev.rd_wr_other _ _ _ _ (by decide), Dev.rd_wr_same]
    rfl
  · rw [Dev.fwShown, Dev.rd_wr_same]
    exact Nat.mod_eq_of_lt (lt_of_le_of_lt (Nat.min_le_right _ _) (by decide))

theorem gives_fwActivationDone_done (us : Nat) : Gives (.fwActivationDone (.done us)) s fun e =>
    e.rdB Reg.SYS_BOOT_running = s.dev.otherSlotB ∧ e.rdB Reg.SYS_BOOT_preferred = s.dev.otherSlotB ∧
      e.rd Reg.SYS_FW_VER_version = img.version % 2 ^ 32 ∧ e.rd Reg.CCX_FW_STAT_pause_us = min us 200 ∧
      e.rd Reg.CCX_FW_STAT_result = 1 ∧ e.ccx = { s.dev.ccx with fwOp := .idle, fwPicked := none } ∧
      e.actRuns .fwActivate 0xFF = false ∧ Frame s.dev e ([Reg.SYS_BOOT_running, Reg.SYS_BOOT_preferred,
        Reg.SYS_FW_VER_version, Reg.SYS_SVN_image, Reg.CCX_FW_STAT_pause_us] ++ fwFields) [.ccx, .mnt] := by
  refine gives_of_exec_eq_act (exec_fwActivationDone _) ?_
  obtain ⟨x, z, hx, hz⟩ : ∃ x z, Dev.Reports (s.dev.fwShown img us) x ∧ Dev.Reports (x.fwEnd imgOk) z ∧
      s.dev.fwDone (.done us) = z.actEnd .fwActivate wholeDevice := by
    simp only [Dev.fwDone, h, himg]
    exact ⟨_, _, Dev.emit_reports _ _, Dev.post_reports _ _ _ _ _ _ _ _, rfl⟩
  obtain ⟨hz, heq⟩ := hz
  rw [heq]
  have hend : Frame (s.dev.fwShown img us) (z.actEnd .fwActivate wholeDevice).settle fwFields [.ccx, .mnt] :=
    (((((Frame.refl _ _ _).reports hx).fwEnd imgOk (List.Subset.refl _)).reports hz).setMnt _).settle
  obtain ⟨hrunning, hpreferred, hversion, hpause⟩ := s.dev.fwShown_shows img us
  refine ⟨?_, ?_, ?_, ?_, ?_, ?_, ?_, ?_⟩
  · rw [Dev.rdB, hend.rd Reg.SYS_BOOT_running]
    exact hrunning
  · rw [Dev.rdB, hend.rd Reg.SYS_BOOT_preferred]
    exact hpreferred
  · rw [hend.rd Reg.SYS_FW_VER_version, hversion]
  · rw [hend.rd Reg.CCX_FW_STAT_pause_us, hpause]
  · exact (Dev.settle_rd _ _ (by decide)).trans ((hz.rd _).trans (x.fwEnd_shows (by decide)).1)
  · rw [Dev.settle_ccx]
    refine hz.ccx.trans ((x.fwEnd_ccx imgOk).trans ?_)
    exact congrArg (fun c : CcxState => { c with fwOp := .idle, fwPicked := none }) hx.ccx
  · rw [Dev.actRuns, Dev.running, Dev.settle_mnt]
    exact z.actEnd_actRuns .fwActivate wholeDevice
  · have hshown : Frame s.dev (s.dev.fwShown img us) ([Reg.SYS_BOOT_running, Reg.SYS_BOOT_preferred, Reg.SYS_FW_VER_version,
        Reg.SYS_SVN_image, Reg.CCX_FW_STAT_pause_us] ++ fwFields) [.ccx, .mnt] :=
      (((((Frame.refl _ _ _).wr _ _).wr _ _).wr _ _).wr _ _).wr _ _
    exact hshown.trans hend (List.subset_append_right _ _) (List.Subset.refl _)

end

/-- Settles O58, by the pairs' rules for the mismatches and tests, and by the three ways in which a firmware request is
answered: refused with a result, taken, or left as it is. -/
theorem controlCores : Obligations.ControlCores := by
  intro p q stall role bits us img s hp hrole
  refine ⟨gives_pairMismatch_standby hp stall, gives_pairMismatch_idle hp stall,
    fun h => ⟨gives_pairMismatch_toStandby hp stall h, gives_pairMismatch_toActive hp stall h,
      gives_pairMismatch_last hp stall h⟩,
    fun h => ⟨gives_storeUncorrectable_noHolder hrole h stall, gives_checkpoint_noHolder hrole h⟩,
    fun h => ⟨gives_storeUncorrectable hrole h stall, gives_checkpoint hrole h⟩,
    gives_pairTestDone_idle hp, fun h => ⟨gives_pairTestDone_fail hp h, gives_pairTestDone_pass hp h⟩,
    hostGives_pairRetest bits s, fun h hr => gives_fwWrite_busy hr h true, fun h hfits hr => gives_fwWrite_unfit hr h hfits,
    fun h hfits hr => gives_fwWrite hr h hfits, fun ok h => gives_fwWriteDone_idle h img ok,
    fun ok h => gives_fwWriteDone h img ok, fun h hr => gives_fwActivate_busy hr img h true,
    fun h hphase hr => gives_fwActivate_notReady hr img h hphase true,
    fun h hphase hfault hr => gives_fwActivate_fault hr img h hphase hfault true, ?_, ?_, ?_,
    fun h => gives_fwActivationDone_idle h _, fun h himg => ⟨gives_fwActivationDone_done h himg us,
      gives_fwActivationDone_slotFails h himg bits, gives_fwActivationDone_step2 h himg,
      gives_fwActivationDone_step3 h himg us⟩⟩
  · intro ⟨hidle, hphase, hwell⟩ hnone hr
    exact gives_fwActivate_noStandby hr img hidle hphase hwell hnone true
  · intro ⟨hidle, hphase, hwell⟩ hsome hbad hr
    exact gives_fwActivate_bad hr img hidle hphase hwell hsome hbad
  · intro ⟨hidle, hphase, hwell⟩ hsome hok hacts _ hr
    exact gives_fwActivate hr img hidle hphase hwell hsome hok hacts

end Sys2Proof
end

section
/-! The maintenance arbiter: what starting, pausing and aborting activities keep (R226 to R229). -/

set_option Elab.async false

namespace Sys2Proof

open Sys2Proof.Machine

/-! ### Inhibition of the charger and the end of a learn cycle (R268, R280) -/

/-- The fields that an inhibition cause changes. -/
def inhibitFields : List Fld := [Reg.BPS_CHG_STAT_inhibit, Reg.BPS_CHG_STAT_duty, Reg.BPS_CHG_STAT_state]

/-- The fields that the disqualification of a learn cycle changes. -/
def learnStopFields : List Fld :=
  [Reg.BPS_LEARN_STAT_phase, Reg.BPS_LEARN_STAT_result, Reg.BPS_LEARN_STAT_reason] ++ inhibitFields

section

variable {a d : Dev} {fs : List Fld} {ps : List Part}

theorem Frame.setDuty (h : Frame a d fs ps) (v : Nat) (hf : Reg.BPS_CHG_STAT_duty ∈ fs := by decide) :
    Frame a (d.setDuty v) fs ps := by
  unfold Dev.setDuty
  exact .ite h ((h.wr _ v hf).reports (Dev.emit_reports _ _))

theorem Frame.setInhibit (h : Frame a d fs ps) (bit : Nat) (on : Bool) (hfs : inhibitFields ⊆ fs)
    (hp : Part.bps ∈ ps := by decide) : Frame a (d.setInhibit bit on) fs ps := by
  unfold Dev.setInhibit
  extract_lets old new e
  have he : Frame a e fs ps := h.wr _ _ (hfs (by decide))
  refine .ite ?_ (.ite (he.wr _ _ (hfs (by decide))) he)
  exact ((he.setDuty 0 (hfs (by decide))).wr _ _ (hfs (by decide))).setBps _ hp

theorem Frame.setDsg (h : Frame a d fs ps) (on : Bool) (hp : Part.sys ∈ ps := by decide) : Frame a (d.setDsg on) fs ps := by
  unfold Dev.setDsg
  exact .ite h ((h.setSys _ hp).reports (Dev.emit_reports _ _))

theorem Frame.learnResult (h : Frame a d fs ps) (result mah reason : Nat)
    (hresult : Reg.BPS_LEARN_STAT_result ∈ fs := by decide) (hreason : Reg.BPS_LEARN_STAT_reason ∈ fs := by decide) :
    Frame a (d.learnResult result mah reason) fs ps :=
  (((h.wr _ _ hresult).wr _ _ hreason).reports (Dev.causeBit_reports _ _ _)).reports (Dev.post_reports _ _ _ _ _ _ _ _)

theorem Frame.learnStop (h : Frame a d fs ps) (reason : Nat) (hfs : learnStopFields ⊆ fs) (hsys : Part.sys ∈ ps := by decide)
    (hbps : Part.bps ∈ ps := by decide) : Frame a (d.learnStop reason) fs ps := by
  unfold Dev.learnStop
  refine .ite (.setInhibit (.learnResult (.setBps (.wr (h.setDsg false hsys) _ _ (hfs (by decide))) _ hbps) _ _ _
    (hfs (by decide)) (hfs (by decide))) _ _ (fun f hf => hfs (List.mem_append_right _ hf)) hbps) h

end

/-! ### SMC's walker -/

namespace Machine

/-- The walker changes SMC only. -/
theorem Dev.walkSteps_smc (n : Nat) : ∀ d : Dev, ∃ x, Dev.walkSteps n d = { d with smc := x } := by
  induction n with
  | zero => exact fun d => ⟨_, rfl⟩
  | succ n ih =>
    intro d
    have hstep (y : SmcState) : ∃ x, Dev.walkSteps n { d with smc := y } = { d with smc := x } := ih { d with smc := y }
    rw [Dev.walkSteps]
    extract_lets go
    split
    · exact ⟨_, rfl⟩
    · split
      · exact ⟨_, rfl⟩
      · split
        · split
          · exact ⟨_, rfl⟩
          · exact hstep _
        · exact hstep _

theorem Dev.smcInvStart_smc (d : Dev) : ∃ x, d.smcInvStart = { d with smc := x } := by
  unfold Dev.smcInvStart
  split
  · exact ⟨_, rfl⟩
  · exact Dev.walkSteps_smc _ { d with smc := { d.smc with invWalk := true, walkSet := some 0 } }

/-! ### Activities -/

theorem Dev.actAbort_dfw (d : Dev) (x : Activity) : (d.actAbort x).mnt.dfw = d.mnt.dfw := by
  unfold Dev.actAbort
  split
  · have hstop : ((d.actEnd x.act x.array).learnStop 8).mnt = (d.actEnd x.act x.array).mnt :=
      ((Frame.refl (d.actEnd x.act x.array) learnStopFields [.sys, .bps]).learnStop 8 (List.Subset.refl _)).part .mnt
    exact (congrArg MntState.dfw hstop).trans rfl
  · rfl

theorem Dev.setAct_dfw (d : Dev) (act : Act) (a : Nat) (st : ActSt) : (d.setAct act a st).mnt.dfw = d.mnt.dfw := by
  unfold Dev.setAct
  split
  · rfl
  · rfl

theorem Dev.actPause_dfw (d : Dev) (x : Activity) (b : Nat) : (d.actPause x b).mnt.dfw = d.mnt.dfw := by
  unfold Dev.actPause
  extract_lets e y
  have hy : y.mnt = e.mnt := by
    dsimp only [y]
    split
    · rfl
    · rfl
  rw [(y.postDeferred_reports _ _ _).mnt, hy]
  exact d.setAct_dfw _ _ _

/-- Once it is recorded as running, an activity runs. -/
theorem Dev.setAct_running (d : Dev) (act : Act) (a : Nat) : (d.setAct act a .running).actRuns act a = true := by
  unfold Dev.setAct
  split
  · next h =>
    obtain ⟨x, hx⟩ := Option.isSome_iff_exists.1 h
    have hmem := List.mem_of_find?_eq_some hx
    have hof : x.act = act ∧ x.array = a := by simpa using List.find?_some hx
    rw [Dev.actRuns, List.any_eq_true]
    refine ⟨{ x with st := .running }, List.mem_filter.2 ⟨?_, rfl⟩, by simp [hof]⟩
    exact List.mem_map.2 ⟨x, hmem, by rw [if_pos hof]⟩
  · rw [Dev.actRuns, List.any_eq_true]
    refine ⟨⟨act, a, .running⟩, List.mem_filter.2 ⟨?_, rfl⟩, by simp⟩
    exact List.mem_append_right _ (List.mem_singleton_self _)

/-- The activities whose start leaves the list of activities to the arbiter. -/
theorem Dev.actBegin_mnt (d : Dev) {act : Act} (a : Nat)
    (h : act ∈ [Act.scrub, .copyback, .restripe, .calibrate, .dramRetrain, .smcRekey]) : (d.actBegin act a).mnt = d.mnt := by
  cases act with
  | rebuild => exact absurd h (by decide)
  | learn => exact absurd h (by decide)
  | fwActivate => exact absurd h (by decide)
  | driveFw => exact absurd h (by decide)
  | copyback => rfl
  | restripe => rfl
  | calibrate => rfl
  | dramRetrain => rfl
  | scrub =>
    have hbegin : (d.scrubBegin a).mnt = d.mnt := rfl
    unfold Dev.actBegin
    dsimp only
    split
    · rfl
    · exact hbegin
  | smcRekey =>
    obtain ⟨x, hx⟩ := Dev.smcInvStart_smc { d with smc := { d.smc with rekeyPending := false, rekeyRunning := true } }
    exact (congrArg Dev.mnt hx).trans rfl

theorem Dev.actRuns_of_mnt {d e : Dev} (h : e.mnt = d.mnt) (act : Act) (a : Nat) : e.actRuns act a = d.actRuns act a := by
  rw [Dev.actRuns, Dev.actRuns, Dev.running, Dev.running, h]

section

variable {act : Act} (hact : act ∈ [Act.scrub, .copyback, .restripe, .calibrate, .dramRetrain, .smcRekey])
include hact

/-- An activity that starts runs, and a drive firmware download is as it was. -/
theorem Dev.actStart_runs (d : Dev) (a : Nat) (deferred : Bool) :
    (d.actStart act a deferred).actRuns act a = true ∧ (d.actStart act a deferred).mnt.dfw = d.mnt.dfw := by
  unfold Dev.actStart
  extract_lets paused aborted e y
  have hpaused : paused.mnt.dfw = d.mnt.dfw :=
    forEach_induct (P := fun x : Dev => x.mnt.dfw = d.mnt.dfw) (fun x e h => (e.actPause_dfw x act.code).trans h) _ d rfl
  have haborted : aborted.mnt.dfw = d.mnt.dfw :=
    forEach_induct (P := fun x : Dev => x.mnt.dfw = d.mnt.dfw) (fun x e h => (e.actAbort_dfw x).trans h) _ paused hpaused
  have hy : y.mnt = e.mnt := by
    dsimp only [y]
    split
    · rfl
    · exact (e.postStarted_reports act a).mnt
  have hbegin : (y.actBegin act a).mnt = e.mnt := (y.actBegin_mnt a hact).trans hy
  refine ⟨?_, ?_⟩
  · rw [Dev.actRuns_of_mnt hbegin]
    exact aborted.setAct_running act a
  · rw [hbegin]
    exact (aborted.setAct_dfw act a .running).trans haborted

end

theorem Dev.dfwPump_none {d : Dev} (h : d.mnt.dfw = none) : d.dfwPump = d := by simp only [Dev.dfwPump, h]

end Machine

/-! ### One request -/

theorem Machine.Dev.decideAll_one {d : Dev} {act : Act} {a : Nat} (hact : act ≠ .rebuild) (h : d.requestable act a = true) :
    d.decideAll [(act, a)] = d.arbRequest act a := by
  simp [Dev.decideAll, byCode, forEach, h, hact]

section

variable {act : Act} {a : Nat} {s : State}
  (hunit : act ∈ [Act.scrub, .copyback, .restripe] ∧ a < 16 ∨ act ∈ [Act.calibrate, .dramRetrain, .smcRekey] ∧ a = 0xFF)
  (hdfw : s.dev.mnt.dfw = none)
include hunit

theorem act_mem : act ∈ [Act.scrub, .copyback, .restripe, .calibrate, .dramRetrain, .smcRekey] := by
  rcases hunit with ⟨h, -⟩ | ⟨h, -⟩ <;> revert h <;> revert act <;> decide

theorem exec_arbiterRequest_one :
    exec (.arbiterRequest [(act, a)]) s = s.act fun d => (d.decideAll [(act, a)]).dfwPump := by
  have hok : ([(act, a)].all fun r => if r.1.ofArray && !(r.1 = .driveFw && r.2 = wholeDevice) then decide (r.2 < 16)
      else decide (r.2 = wholeDevice)) = true := by
    rcases hunit with ⟨h, ha⟩ | ⟨h, ha⟩
    · simp only [List.mem_cons, List.not_mem_nil, or_false] at h
      rcases h with rfl | rfl | rfl <;> simp [Act.ofArray, ha]
    · simp only [List.mem_cons, List.not_mem_nil, or_false] at h
      rcases h with rfl | rfl | rfl <;> simp [Act.ofArray, ha, wholeDevice]
  simp only [exec, execArbiterRequest, onUnit, hok, if_true]

include hdfw

omit hdfw in
theorem gives_arbiterRequest {P : Dev → Prop} (hreq : s.dev.requestable act a = true)
    (hkept : (s.dev.arbRequest act a).mnt.dfw = none) (hP : P (s.dev.arbRequest act a).settle) :
    Gives (.arbiterRequest [(act, a)]) s P := by
  refine gives_of_exec_eq_act (exec_arbiterRequest_one hunit) ?_
  have hne : act ≠ .rebuild := fun h => absurd (act_mem hunit) (by rw [h]; decide)
  simp only [Dev.decideAll_one hne hreq, Dev.dfwPump_none hkept]
  exact hP

theorem gives_arbiterRequest_refused (hreq : s.dev.requestable act a = true) (href : s.dev.arbRefuses act a = true) :
    Gives (.arbiterRequest [(act, a)]) s fun e => Frame s.dev e [] [] := by
  have heq : s.dev.arbRequest act a = s.dev := by simp only [Dev.arbRequest, href, if_true]
  exact gives_arbiterRequest hunit hreq (by rw [heq]; exact hdfw) (by rw [heq]; exact (Frame.refl _ _ _).settle)

theorem gives_arbiterRequest_deferred {b : Nat} (hreq : s.dev.requestable act a = true)
    (href : s.dev.arbRefuses act a = false) (hnew : s.dev.actOf act a = none) (hblock : s.dev.blocker act a = some b) :
    Gives (.arbiterRequest [(act, a)]) s fun e => e.mnt.acts = s.dev.mnt.acts ++ [⟨act, a, .deferred b⟩] ∧
      Raised e .mnt 19 ∧ Frame s.dev e [] [.mnt] := by
  generalize hx : (if s.dev.condHolds act then s.dev.nextFree else s.dev) = x
  have hmnt : x.mnt = s.dev.mnt := by
    rw [← hx]
    split
    · rfl
    · rfl
  have hframe : Frame s.dev x [] [.mnt] := by
    rw [← hx]
    exact .ite (Frame.refl _ _ _).nextFree (Frame.refl _ _ _)
  have hset : x.setAct act a (.deferred b) =
      { x with mnt := { x.mnt with acts := s.dev.mnt.acts ++ [⟨act, a, .deferred b⟩] } } := by
    have hnone : x.actOf act a = none := by rw [Dev.actOf, hmnt]; exact hnew
    simp only [Dev.setAct, hnone, Option.isSome_none, Bool.false_eq_true, if_false]
    rw [hmnt]
  have heq : s.dev.arbRequest act a = (x.setAct act a (.deferred b)).postDeferred act a b := by
    simp only [Dev.arbRequest, href, hnew, hblock, Option.isSome_none, Bool.false_eq_true, if_false]
    rw [hx]
  have hrep := (x.setAct act a (.deferred b)).postDeferred_reports act a b
  have hmnt' : (s.dev.arbRequest act a).mnt = { x.mnt with acts := s.dev.mnt.acts ++ [⟨act, a, .deferred b⟩] } := by
    rw [heq, hrep.mnt, hset]
  refine gives_arbiterRequest hunit hreq ?_ ⟨?_, ?_, ?_⟩
  · rw [hmnt']
    exact (congrArg MntState.dfw hmnt).trans hdfw
  · rw [Dev.settle_mnt, hmnt']
  · refine Dev.settle_raised _ _ _ ?_
    rw [heq]
    exact (Dev.post_grow _ _ _ _ _ _ _ _).grow _ _ (Dev.causeBit_raised _ _ _)
  · rw [heq, hset]
    rw [hset] at hrep
    exact ((hframe.setMnt _).reports hrep).settle

theorem gives_arbiterRequest_runs (hreq : s.dev.requestable act a = true) (href : s.dev.arbRefuses act a = false)
    (hnew : s.dev.actOf act a = none) (hblock : s.dev.blocker act a = none) :
    Gives (.arbiterRequest [(act, a)]) s fun e => e.actRuns act a = true := by
  have heq : s.dev.arbRequest act a = s.dev.actStart act a false := by
    simp only [Dev.arbRequest, href, hnew, hblock, Option.isSome_none, Bool.false_eq_true, if_false]
  obtain ⟨hruns, hkept⟩ := s.dev.actStart_runs (act_mem hunit) a false
  refine gives_arbiterRequest hunit hreq (by rw [heq, hkept]; exact hdfw) ?_
  rw [heq, Dev.actRuns_of_mnt (Dev.settle_mnt _)]
  exact hruns

/-! ### A deferred or paused activity -/

theorem gives_deferredStart_runs {x : Activity} (hof : s.dev.actOf act a = some x) (hst : x.st ≠ .running)
    (hblock : s.dev.blocker act a = none) : Gives (.deferredStart act a) s fun e => e.actRuns act a = true := by
  have hact := act_mem hunit
  have hlearn : x.act ≠ .learn := by
    have hx : x.act = act ∧ x.array = a := by simpa using List.find?_some hof
    rw [hx.1]
    rintro rfl
    exact absurd hact (by decide)
  have heq : s.dev.deferredStart act a = s.dev.actStart act a true := by
    simp only [Dev.deferredStart, hof, hblock, hst, hlearn, Option.isSome_none, Bool.false_eq_true, or_self, false_and, if_false]
  obtain ⟨hruns, hkept⟩ := s.dev.actStart_runs hact a true
  refine gives_of_exec_eq_act (f := fun d => (d.deferredStart act a).dfwPump) rfl ?_
  simp only [heq, Dev.dfwPump_none (hkept.trans hdfw)]
  rw [Dev.actRuns_of_mnt (Dev.settle_mnt _)]
  exact hruns

omit hunit in
theorem gives_deferredStart_blocked {x : Activity} {b : Nat} (hof : s.dev.actOf act a = some x)
    (hblock : s.dev.blocker act a = some b) : Gives (.deferredStart act a) s fun e => Frame s.dev e [] [] := by
  have heq : s.dev.deferredStart act a = s.dev := by
    simp only [Dev.deferredStart, hof, hblock, Option.isSome_some, or_true, if_true]
  refine gives_of_exec_eq_act (f := fun d => (d.deferredStart act a).dfwPump) rfl ?_
  simp only [heq, Dev.dfwPump_none hdfw]
  exact (Frame.refl _ _ _).settle

end

/-! ### A retraining run -/

/-- A retraining run that has begun with no other activity. -/
def Machine.Dev.retrainBegun (d : Dev) : Dev :=
  (({ d with mnt := { d.mnt with acts := [⟨.dramRetrain, wholeDevice, .running⟩] } } : Dev).postStarted .dramRetrain
    wholeDevice).actBegin .dramRetrain wholeDevice

theorem gives_dramRetrain {s : State} (hacts : s.dev.mnt.acts = []) (hcond : s.dev.condHolds .dramRetrain = false) :
    Gives .dramRetrain s fun e => e.mnt.acts = [⟨.dramRetrain, 0xFF, .running⟩] ∧ e.pwc.retrainNext = some 0 ∧
      e.rd Reg.PWC_RETRAIN_STAT_running = 1 ∧ Frame s.dev e [Reg.PWC_RETRAIN_STAT_running] [.mnt, .pwc] := by
  refine gives_of_exec_eq_act (f := fun d => d.arbRequest .dramRetrain wholeDevice) rfl ?_
  have hblock : s.dev.blocker .dramRetrain wholeDevice = none := by
    have hrun : s.dev.running = [] := by rw [Dev.running, hacts]; rfl
    simp [Dev.blocker, Act.ofArray, Dev.meeting, hrun, leastCode, hcond]
  have heq : s.dev.arbRequest .dramRetrain wholeDevice = s.dev.retrainBegun :=
    (Dev.arbRequest_alone hacts _ _ hblock).trans (Dev.actStart_alone hacts _ _ (by decide))
  simp only [heq]
  have hrep := Dev.postStarted_reports
    ({ s.dev with mnt := { s.dev.mnt with acts := [⟨.dramRetrain, wholeDevice, .running⟩] } } : Dev) .dramRetrain wholeDevice
  have hframe : Frame s.dev s.dev.retrainBegun [Reg.PWC_RETRAIN_STAT_running] [.mnt, .pwc] :=
    ((((Frame.refl _ _ _).setMnt _).reports hrep).setPwc _).wr _ _
  refine ⟨?_, ?_, ?_, hframe.settle⟩
  · rw [Dev.settle_mnt]
    exact congrArg MntState.acts hrep.mnt
  · rw [show s.dev.retrainBegun.settle.pwc = s.dev.retrainBegun.pwc by simp only [Dev.settle_keeps]]
    rfl
  · rw [Dev.settle_rd _ _ (by decide)]
    exact Dev.rd_wr_same _ _ _

/-- Settles O49, by the arbiter's three answers to one request and by what the start of an activity keeps of the arbiter's
list. -/
theorem arbiterDecisions : Obligations.ArbiterDecisions := by
  intro act a b s hdfw hunit
  refine ⟨gives_arbiterRequest_refused hunit hdfw, gives_arbiterRequest_deferred hunit hdfw,
    gives_arbiterRequest_runs hunit hdfw, fun x hof hst => ⟨gives_deferredStart_runs hunit hdfw hof hst,
      gives_deferredStart_blocked hdfw hof⟩, fun _ => gives_dramRetrain⟩

end Sys2Proof
end

section
/-! The lanes of the erasure-code engine: row retries, known-answer tests and retests (R145 to R149). -/

set_option Elab.async false

namespace Sys2Proof

open Sys2Proof.Machine

namespace Machine

/-! ### An event leaves the counters of the block headers -/

theorem Dev.NotesGrow.ite {c : Prop} [Decidable c] {d a b : Dev} (h : Dev.NotesGrow d a) (k : Dev.NotesGrow d b) :
    Dev.NotesGrow d (if c then a else b) := by
  split <;> assumption

theorem Dev.writeHost_blks (d : Dev) (f a : Nat) (bs : Bytes) (r : Bool) : (d.writeHost f a bs r).nt.blks = d.nt.blks := by
  unfold Dev.writeHost
  refine forEach_induct (P := fun x : Dev => x.nt.blks = d.nt.blks) (fun _ x hx => ?_) _ d rfl
  exact (Dev.exitL1_blks x).trans hx

theorem Dev.writeEvent_blks (d : Dev) (f : Nat) (x : Event) : (d.writeEvent f x).nt.blks = d.nt.blks := by
  have hring (e : Dev) (g : EvRing → EvRing) : (e.updRing f g).nt.blks = e.nt.blks := rfl
  have hput : (d.putEvent f x).nt.blks = d.nt.blks := by
    unfold Dev.putEvent
    exact (hring _ _).trans (d.writeHost_blks _ _ _ _)
  unfold Dev.writeEvent Dev.raiseRing
  split
  · exact (Dev.raiseVec_blks _ _ _).trans hput
  · exact hput

theorem Dev.pmeEvent_blks (d : Dev) (f : Nat) : (d.pmeEvent f).nt.blks = d.nt.blks := by
  unfold Dev.pmeEvent
  split
  · extract_lets e
    have he : e.nt.blks = d.nt.blks := rfl
    split
    · split
      · split <;> exact he
      · split
        · exact e.exitL1_blks.trans he
        · exact he
    · exact he
  · rfl

theorem Dev.deliver_notesGrow (d : Dev) (f : Nat) (x : Event) : Dev.NotesGrow d (d.deliver f x) := by
  unfold Dev.deliver
  extract_lets r e1 d1 d2 may d3
  have h2 : d2.nt.blks = d.nt.blks := d1.pmeEvent_blks f
  have h3 : Dev.NotesGrow d d3 := (Dev.NotesGrow.same (e := d2.updRing f fun r => { r with lost := min (r.lost + 1) 0xFFFF }) h2).trans
    (Dev.cause_notesGrow _ _ _)
  refine .ite (.same rfl) (.ite (.same ((Dev.writeEvent_blks _ _ _).trans h2)) (.ite (.same h2) (.ite h3 ?_)))
  exact (h3.trans (.same (e := d3.updFn f fun x => { x with heldOvf := true }) rfl)).trans (Dev.cause_notesGrow _ _ _)

theorem Dev.squall_notesGrow (d : Dev) (b : Blk) (fault stall : Nat) : Dev.NotesGrow d (d.squall b fault stall) := by
  unfold Dev.squall
  extract_lets n recent mine e x
  have hx : Dev.NotesGrow d x := (Dev.NotesGrow.same (d := d) (e := e) rfl).trans (Dev.cause_notesGrow _ _ _)
  exact .ite (hx.trans (Dev.deliver_notesGrow _ _ _)) hx

/-! ### The lanes' fields -/

theorem Dev.laneState_setLane (d : Dev) (l : Nat) {st : Nat} (h : st < 4) : (d.setLane l st).laneState l = st := by
  unfold Dev.laneState Dev.setLane
  split
  · exact (Dev.rd_wr_same _ _ _).trans (Nat.mod_eq_of_lt h)
  · exact (Dev.rd_wr_same _ _ _).trans (Nat.mod_eq_of_lt h)

/-- A device that differs outside the two lane states has the same lane states. -/
theorem Dev.laneState_congr {d e : Dev} (henc : e.rd Reg.ECE_LANE_STAT_enc_state = d.rd Reg.ECE_LANE_STAT_enc_state)
    (hdec : e.rd Reg.ECE_LANE_STAT_dec_state = d.rd Reg.ECE_LANE_STAT_dec_state) (l : Nat) : e.laneState l = d.laneState l := by
  simp only [Dev.laneState, henc, hdec]

theorem Dev.eceDown_congr {d e : Dev} (h : ∀ l, e.laneState l = d.laneState l) : e.eceDown = d.eceDown := by
  simp only [Dev.eceDown, Dev.laneUp, h]

end Machine

/-- The fields that the failure of a lane changes. -/
def laneFields : List Fld := [Reg.ECE_LANE_STAT_enc_state, Reg.ECE_LANE_STAT_dec_state, Reg.ECE_LANE_STAT_carrier]

/-- The fields that show a known-answer run. -/
def katFields : List Fld := [Reg.ECE_KAT_STAT_running, Reg.ECE_KAT_STAT_lane, Reg.ECE_KAT_TS_ts, Reg.ECE_KAT_STAT_runs,
  Reg.ECE_KAT_STAT_result]

section

variable {a d : Dev} {fs : List Fld} {ps : List Part}

/-- A frame whose fields leave the lane states alone. -/
theorem Frame.laneState (h : Frame a d fs ps) (l : Nat)
    (henc : ∀ g ∈ fs, Reg.ECE_LANE_STAT_enc_state.key ≠ g.key := by decide)
    (hdec : ∀ g ∈ fs, Reg.ECE_LANE_STAT_dec_state.key ≠ g.key := by decide) : d.laneState l = a.laneState l :=
  Dev.laneState_congr (h.rd _ henc) (h.rd _ hdec) l

theorem Frame.setState (h : Frame a d fs ps) (b : Blk) (st : Nat) : Frame a (d.setState b st) fs ps := by
  have hframe : Frame d (d.setState b st) [] [] := by
    unfold Dev.setState
    split
    · exact Frame.refl _ _ _
    · refine .reports (d := d.wr (Reg.BLK_STAT_state.ix b.page) st) ⟨fun f _ hf => Dev.rd_wr_other _ _ _ _ ?_, ?_⟩ (Dev.cause_reports _ _ _)
      · intro hk
        rw [hk] at hf
        exact absurd hf (by cases b <;> decide)
      · exact fun p _ => by cases p <;> simp [Part.same]
  exact h.trans hframe (List.nil_subset _) (List.nil_subset _)

theorem Frame.setLane (h : Frame a d fs ps) (l st : Nat) (henc : Reg.ECE_LANE_STAT_enc_state ∈ fs := by decide)
    (hdec : Reg.ECE_LANE_STAT_dec_state ∈ fs := by decide) : Frame a (d.setLane l st) fs ps := by
  unfold Dev.setLane
  exact .ite (h.wr _ _ henc) (h.wr _ _ hdec)

theorem Frame.laneFail (h : Frame a d fs ps) (l : Nat) (hfs : laneFields ⊆ fs) (hp : Part.ece ∈ ps := by decide) :
    Frame a (d.laneFail l) fs ps := by
  unfold Dev.laneFail
  extract_lets x
  have hx : Frame a x fs ps :=
    (((h.setLane l 2 (hfs (by decide)) (hfs (by decide))).wr _ _ (hfs (by decide))).reports (Dev.causeBit_reports _ _ _)).setEce _ hp
  exact .ite (((hx.setState .ece stFault).reports (Dev.errUncorr_reports _ _ _)).reports (Dev.squall_reports _ _ _ _)) hx

theorem Frame.katShow (h : Frame a d fs ps) (lane result runs : Nat) (hfs : katFields ⊆ fs) :
    Frame a (d.katShow lane result runs) fs ps :=
  ((((h.incSat _ _ (hfs (by decide))).wr _ _ (hfs (by decide))).wr _ _ (hfs (by decide))).wr _ _ (hfs (by decide))).wr _ _
    (hfs (by decide))

end

namespace Machine

theorem Dev.Reports.ece {d e : Dev} (h : Dev.Reports d e) : e.ece = d.ece := by rw [h.same]

/-- A lane that is out, with its jobs on the other one. -/
def Dev.laneOut (d : Dev) (l : Nat) : Dev := (((d.setLane l 2).showCarrier).causeBit .ece 17).relane

theorem Dev.laneFail_eq (d : Dev) (l : Nat) : d.laneFail l = if (d.laneOut l).eceDown then
    (((d.laneOut l).setState .ece stFault).errUncorr .ece 5).squall .ece 0x32 0xFFFFFFFF else d.laneOut l := rfl

theorem Dev.laneOut_shows (d : Dev) (l : Nat) : (d.laneOut l).laneState l = 2 ∧ Raised (d.laneOut l) .ece 17 ∧
    (d.laneOut l).ece.katOn = d.ece.katOn := by
  have hset : (d.setLane l 2).ece = d.ece := by unfold Dev.setLane; split <;> rfl
  have h : Frame (d.setLane l 2) (d.laneOut l) [Reg.ECE_LANE_STAT_carrier] [.ece] :=
    (((Frame.refl _ _ _).wr _ _).reports (Dev.causeBit_reports _ _ _)).setEce _
  refine ⟨(h.laneState l).trans (d.laneState_setLane l (by decide)), Dev.causeBit_raised ((d.setLane l 2).showCarrier) .ece 17, ?_⟩
  exact (congrArg EceState.katOn hset : (d.setLane l 2).ece.katOn = d.ece.katOn)

theorem Dev.laneFail_ece (d : Dev) (l : Nat) : (d.laneFail l).ece.katOn = d.ece.katOn := by
  rw [Dev.laneFail_eq]
  have hx := (d.laneOut_shows l).2.2
  generalize d.laneOut l = x at hx
  have hstate : (x.setState .ece stFault).ece = x.ece := by unfold Dev.setState; split <;> rfl
  split
  · rw [((Dev.errUncorr_reports (x.setState .ece stFault) .ece 5).trans (Dev.squall_reports _ .ece 0x32 0xFFFFFFFF)).ece, hstate]
    exact hx
  · exact hx

/-- What the failure of a lane shows. -/
theorem Dev.laneFail_shows (d : Dev) (l : Nat) : (d.laneFail l).laneState l = 2 ∧ Raised (d.laneFail l) .ece 17 ∧
    ((d.laneFail l).eceDown = true → (d.laneFail l).blkState .ece = stFault) := by
  rw [Dev.laneFail_eq]
  obtain ⟨hstate, hraised, -⟩ := d.laneOut_shows l
  generalize d.laneOut l = x at hstate hraised
  by_cases hdown : x.eceDown
  · rw [if_pos hdown]
    have hrep : Dev.Reports (x.setState .ece stFault) (((x.setState .ece stFault).errUncorr .ece 5).squall .ece 0x32 0xFFFFFFFF) :=
      (Dev.errUncorr_reports _ _ _).trans (Dev.squall_reports _ _ _ _)
    have hframe : Frame x (((x.setState .ece stFault).errUncorr .ece 5).squall .ece 0x32 0xFFFFFFFF) [] [] :=
      ((Frame.refl _ _ _).setState _ _).reports hrep
    refine ⟨(hframe.laneState l).trans hstate, ?_, fun _ => (hrep.rd _).trans (x.setState_blkState_same .ece (by decide))⟩
    refine (Dev.squall_grow _ _ _ _).grow _ _ ((Dev.errUncorr_grow _ _ _).grow _ _ ?_)
    exact (Dev.setState_notesGrow x .ece stFault .ece).2.2.2.2 _ hraised
  · rw [if_neg hdown]
    exact ⟨hstate, hraised, fun h => absurd h hdown⟩

/-- Whether a test is under way is read from ECE alone. -/
theorem Dev.katRunning_congr {d e : Dev} (h : e.ece = d.ece) : e.katRunning = d.katRunning := by
  simp only [Dev.katRunning, h]

theorem Dev.katShow_shows (d : Dev) (lane runs : Nat) {result : Nat} (h : result < 4) :
    (d.katShow lane result runs).rd Reg.ECE_KAT_STAT_lane = lane % 2 ∧
    (d.katShow lane result runs).rd Reg.ECE_KAT_TS_ts = d.now % 2 ^ 64 ∧
    (d.katShow lane result runs).rd Reg.ECE_KAT_STAT_runs = min (d.rd Reg.ECE_KAT_STAT_runs + runs) 0xFFFF ∧
    (d.katShow lane result runs).rd Reg.ECE_KAT_STAT_result = result ∧
    (d.katShow lane result runs).rd Reg.ECE_KAT_STAT_running = b2n d.katRunning := by
  unfold Dev.katShow Dev.katShowRun Dev.wrB
  refine ⟨?_, ?_, ?_, ?_, ?_⟩
  · rw [Dev.rd_wr_other _ _ _ _ (by decide), Dev.rd_wr_other _ _ _ _ (by decide), Dev.rd_wr_same]
    exact congrArg (lane % ·) (by decide)
  · rw [Dev.rd_wr_other _ _ _ _ (by decide), Dev.rd_wr_same]
    exact congrArg (d.now % ·) (by decide)
  · rw [Dev.rd_wr_other _ _ _ _ (by decide), Dev.rd_wr_other _ _ _ _ (by decide), Dev.rd_wr_other _ _ _ _ (by decide),
      Dev.rd_wr_other _ _ _ _ (by decide), Dev.rd_incSat_same]
    exact congrArg (min (d.rd Reg.ECE_KAT_STAT_runs + runs)) (by decide)
  · rw [Dev.rd_wr_other _ _ _ _ (by decide), Dev.rd_wr_other _ _ _ _ (by decide), Dev.rd_wr_other _ _ _ _ (by decide),
      Dev.rd_wr_same]
    exact Nat.mod_eq_of_lt h
  · rw [Dev.rd_wr_same]
    generalize hx : (((d.incSat Reg.ECE_KAT_STAT_runs runs).wr Reg.ECE_KAT_STAT_result result).wr Reg.ECE_KAT_STAT_lane lane).wr
      Reg.ECE_KAT_TS_ts d.now = x
    have hece : x.ece = d.ece := by
      rw [← hx]
      exact (Dev.wr_keeps _ _ _).2.2.2.2.2.2.2.2.2.2.2.2.2.2.1
    rw [Dev.katRunning_congr hece]
    cases d.katRunning with
    | true => decide
    | false => decide

/-- Showing a run writes registers only. -/
theorem Dev.katShow_keeps (d : Dev) (lane result runs : Nat) :
    (d.katShow lane result runs).ece = d.ece ∧ (d.katShow lane result runs).nt = d.nt := by
  unfold Dev.katShow Dev.katShowRun
  simp only [Dev.wr_keeps, Dev.wrB_keeps, Dev.incSat_keeps, and_self]

theorem Dev.settle_laneState (d : Dev) (l : Nat) : d.settle.laneState l = d.laneState l :=
  Dev.laneState_congr (d.settle_rd _ (by decide)) (d.settle_rd _ (by decide)) l

theorem Dev.settle_ece (d : Dev) : d.settle.ece = d.ece := by simp only [Dev.settle_keeps]

theorem Dev.Woken.ece {d e : Dev} (h : Dev.Woken d e) : e.ece = d.ece := by rw [h.same]

theorem Dev.Woken.laneState {d e : Dev} (h : Dev.Woken d e) (l : Nat) : e.laneState l = d.laneState l :=
  Dev.laneState_congr (h.rd _) (h.rd _) l

end Machine

/-! ### A row retry -/

section

variable {id : Nat} {j : EceJob} {s : State} (h : s.dev.running? id = some j)
include h

theorem gives_eceRowRetry_ok : Gives (.eceRowRetry id true) s fun e =>
    e.rd Reg.ECE_CHK_mismatch = min (s.dev.rd Reg.ECE_CHK_mismatch + 1) 0xFFFF ∧ Raised e .ece 16 ∧
      (e.note .ece).corr = min ((s.dev.note .ece).corr + 1) 0xFFFF ∧ Frame s.dev e [Reg.ECE_CHK_mismatch] [] := by
  refine gives_of_exec_eq_act (f := fun d => d.rowRetry id true) rfl ?_
  generalize hx : (s.dev.causeBit .ece 16).incSat Reg.ECE_CHK_mismatch = x
  have heq : s.dev.rowRetry id true = ((x.errCorr .ece j.kind.code).squall .ece 0x30 (x.free % 5001)).nextFree := by
    simp only [Dev.rowRetry, h, if_true, hx]
  simp only [heq]
  have hrep : Dev.Reports x ((x.errCorr .ece j.kind.code).squall .ece 0x30 (x.free % 5001)) :=
    (Dev.errCorr_reports _ _ _).trans (Dev.squall_reports _ _ _ _)
  have hcount : x.rd Reg.ECE_CHK_mismatch = min (s.dev.rd Reg.ECE_CHK_mismatch + 1) 0xFFFF := by
    rw [← hx, Dev.rd_incSat_same, (Dev.causeBit_reports _ _ _).rd]
    rfl
  have hraised : Raised x .ece 16 := hx ▸ Dev.causeBit_raised s.dev .ece 16
  have hcorr : (x.note .ece).corr = (s.dev.note .ece).corr := by
    rw [← hx]
    exact (Dev.cause_notesGrow s.dev .ece (2 ^ 16) .ece).1
  refine ⟨?_, ?_, ?_, ?_⟩
  · rw [Dev.settle_rd _ _ (by decide)]
    exact (hrep.rd _).trans hcount
  · exact Dev.settle_raised _ _ _ ((Dev.squall_grow _ _ _ _).grow _ _ ((Dev.errCorr_grow _ _ _).grow _ _ hraised))
  · rw [(Dev.settle_notesGrow _ .ece).1]
    refine ((Dev.squall_notesGrow (x.errCorr .ece j.kind.code) .ece 0x30 (x.free % 5001)) .ece).1.trans ?_
    rw [← hcorr, Dev.errCorr, Dev.note_updNote, firstErr]
    split <;> rfl
  · rw [← hx] at hrep ⊢
    exact (Frame.nextFree ((((Frame.refl _ _ _).reports (Dev.causeBit_reports _ _ _)).incSat _ 1).reports hrep)).settle

theorem gives_eceRowRetry_bad : Gives (.eceRowRetry id false) s fun e =>
    e.rd Reg.ECE_CHK_mismatch = min (s.dev.rd Reg.ECE_CHK_mismatch + 1) 0xFFFF ∧
      e.rd Reg.ECE_CHK_retry_fail = min (s.dev.rd Reg.ECE_CHK_retry_fail + 1) 0xFFFF ∧
      e.laneState j.lane = 2 ∧ Raised e .ece 17 ∧ (e.eceDown = true → e.blkState .ece = stFault) ∧
      Frame s.dev e ([Reg.ECE_CHK_mismatch, Reg.ECE_CHK_retry_fail] ++ laneFields) [.ece] := by
  refine gives_of_exec_eq_act (f := fun d => d.rowRetry id false) rfl ?_
  generalize hx : (((s.dev.causeBit .ece 16).incSat Reg.ECE_CHK_mismatch).incSat Reg.ECE_CHK_retry_fail).errUncorr .ece 3 = x
  have heq : s.dev.rowRetry id false = if (x.laneFail j.lane).eceDown then x.laneFail j.lane else
      ((x.laneFail j.lane).squall .ece 0x31 ((x.laneFail j.lane).free % 15001)).nextFree := by
    simp only [Dev.rowRetry, h, Bool.false_eq_true, if_false, hx]
  have hcounted : x.rd Reg.ECE_CHK_mismatch = min (s.dev.rd Reg.ECE_CHK_mismatch + 1) 0xFFFF ∧
      x.rd Reg.ECE_CHK_retry_fail = min (s.dev.rd Reg.ECE_CHK_retry_fail + 1) 0xFFFF := by
    rw [← hx, (Dev.errUncorr_reports _ _ _).rd, (Dev.errUncorr_reports _ _ _).rd, Dev.rd_incSat_other _ _ _ _ (by decide),
      Dev.rd_incSat_same, Dev.rd_incSat_same, Dev.rd_incSat_other _ _ _ _ (by decide), (Dev.causeBit_reports _ _ _).rd,
      (Dev.causeBit_reports _ _ _).rd]
    exact ⟨rfl, rfl⟩
  have hx' : Frame s.dev x ([Reg.ECE_CHK_mismatch, Reg.ECE_CHK_retry_fail] ++ laneFields) [.ece] := by
    rw [← hx]
    exact ((((Frame.refl _ _ _).reports (Dev.causeBit_reports _ _ _)).incSat _ 1).incSat _ 1).reports (Dev.errUncorr_reports _ _ _)
  obtain ⟨hstate, hraised, hfault⟩ := x.laneFail_shows j.lane
  have hfailed : Frame x (x.laneFail j.lane) laneFields [.ece] := (Frame.refl _ _ _).laneFail _ (List.Subset.refl _)
  generalize hy : x.laneFail j.lane = y at *
  have hend : Dev.CausesGrow y (s.dev.rowRetry id false) ∧ Frame y (s.dev.rowRetry id false) [] [] ∧
      ((s.dev.rowRetry id false).blkState .ece = y.blkState .ece) := by
    rw [heq]
    split
    · exact ⟨.refl _, Frame.refl _ _ _, rfl⟩
    · exact ⟨(Dev.squall_grow _ _ _ _).trans (.of_blks rfl), .nextFree ((Frame.refl _ _ _).reports (Dev.squall_reports _ _ _ _)),
        (Dev.squall_reports _ _ _ _).rd _⟩
  obtain ⟨hgrow, hend, hblk⟩ := hend
  have hall : Frame x (s.dev.rowRetry id false).settle laneFields [.ece] :=
    (hfailed.trans hend (List.nil_subset _) (List.nil_subset _)).settle
  refine ⟨?_, ?_, ?_, Dev.settle_raised _ _ _ (hgrow.grow _ _ hraised), fun hdown => ?_, ?_⟩
  · rw [hall.rd Reg.ECE_CHK_mismatch, hcounted.1]
  · rw [hall.rd Reg.ECE_CHK_retry_fail, hcounted.2]
  · rw [Dev.settle_laneState, hend.laneState, hstate]
  · have hdown' : y.eceDown = true := by
      rw [← hdown]
      exact (Dev.eceDown_congr fun l => (Dev.settle_laneState _ l).trans (hend.laneState l)).symm
    have hst := hblk.trans (hfault hdown')
    rw [Dev.settle_blkState (by rw [hst]; decide), hst]
  · exact hx'.trans hall (List.subset_append_right _ _) (List.Subset.refl _)

end

/-! ### Known-answer runs -/

/-- The lane whose turn a known-answer run is. -/
def katTurn (d : Dev) : Nat := if d.laneUp d.ece.katLane then d.ece.katLane else 1 - d.ece.katLane

/-- What the start of a known-answer run gives. -/
def KatStarted (d e : Dev) : Prop :=
  e.rd Reg.ECE_KAT_STAT_running = 1 ∧ e.ece.katOn = some (katTurn d) ∧ Frame d e [Reg.ECE_KAT_STAT_running] [.ece]

theorem Machine.Dev.katStart_started {d x : Dev} (hx : Dev.Woken d x) (hrun : d.katRunning = false) (hdown : d.eceDown = false) :
    KatStarted d x.katStart.settle := by
  have hup (l : Nat) : x.laneUp l = d.laneUp l := by simp only [Dev.laneUp, hx.laneState]
  have hturn : katTurn x = katTurn d := by simp only [katTurn, hup, hx.ece]
  have hdown' : x.eceDown = false := (Dev.eceDown_congr hx.laneState).trans hdown
  have hrun' : x.katRunning = false := by rw [Dev.katRunning, hx.ece]; exact hrun
  have heq : x.katStart = (x.updEce fun e => { e with katLane := 1 - katTurn x, katOn := some (katTurn x) }).katShowRun := by
    simp only [Dev.katStart, hrun', hdown', Bool.or_self, Bool.false_eq_true, if_false]
    rfl
  rw [heq, hturn]
  refine ⟨?_, ?_, (((Frame.of_woken hx _ _).setEce _).wr _ _).settle⟩
  · rw [Dev.settle_rd _ _ (by decide)]
    exact (Dev.rd_wr_same _ _ _).trans rfl
  · rw [Dev.settle_ece]
    rfl

theorem hostGives_katRun {s : State} (hrun : s.dev.katRunning = false) (hdown : s.dev.eceDown = false) :
    HostGives 0 .ece .katRun s (KatStarted s.dev) := fun h =>
  gives_of_exec_eq_atFn (g := Dev.katStart) rfl h fun _ hd => Dev.katStart_started hd hrun hdown

theorem exec_katInterval (s : State) :
    exec .katInterval s = s.act fun d => if d.rd Reg.ECE_KAT_CTRL_interval_s = 0 then d else d.katStart := rfl

theorem gives_katInterval {s : State} (hrun : s.dev.katRunning = false) (hdown : s.dev.eceDown = false)
    (hint : s.dev.rd Reg.ECE_KAT_CTRL_interval_s ≠ 0) : Gives .katInterval s (KatStarted s.dev) := by
  refine gives_of_exec_eq_act (exec_katInterval s) ?_
  simp only [if_neg hint]
  exact Dev.katStart_started (.refl _) hrun hdown

theorem gives_katInterval_idle {s : State} (h : s.dev.rd Reg.ECE_KAT_CTRL_interval_s = 0 ∨ s.dev.katRunning = true) :
    Gives .katInterval s fun e => Frame s.dev e [] [] := by
  refine gives_of_exec_eq_act (exec_katInterval s) ?_
  have hkept : (if s.dev.rd Reg.ECE_KAT_CTRL_interval_s = 0 then s.dev else s.dev.katStart) = s.dev := by
    rcases h with h | h
    · rw [if_pos h]
    · simp only [Dev.katStart, h, Bool.true_or, if_true, ite_self]
  simp only [hkept]
  exact (Frame.refl _ _ _).settle

/-- The result of a known-answer run by its first attempt and its repeat (R146). -/
def katResult (ok again : Bool) : Nat := if ok then katPass else if again then katRetry else katFail

/-- A run whose end is not yet shown: a mismatch of the first attempt is reported (R149). -/
def Machine.Dev.katJudged (d : Dev) (ok again : Bool) : Dev :=
  if ok then d.updEce fun e => { e with katOn := none }
  else if again then ((d.updEce fun e => { e with katOn := none }).causeBit .ece 18).errCorr .ece 4
  else ((d.updEce fun e => { e with katOn := none }).causeBit .ece 18).errUncorr .ece 4

theorem Machine.Dev.katDone_eq {d : Dev} {kl : Nat} (h : d.ece.katOn = some kl) (ok again : Bool) :
    d.katDone ok again = if ok || again then (d.katJudged ok again).katShow kl (katResult ok again) 1
      else ((d.katJudged ok again).katShow kl (katResult ok again) 1).laneFail kl := by
  simp only [Dev.katDone, h]
  cases ok with
  | true => simp only [Dev.katJudged, katResult, Bool.true_or, if_true]
  | false => cases again with
    | true => simp only [Dev.katJudged, katResult, Bool.or_true, Bool.false_eq_true, if_true, if_false]
    | false => simp only [Dev.katJudged, katResult, Bool.or_self, Bool.false_eq_true, if_false]

theorem Machine.Dev.katJudged_reports (d : Dev) (ok again : Bool) :
    Dev.Reports (d.updEce fun e => { e with katOn := none }) (d.katJudged ok again) := by
  unfold Dev.katJudged
  exact .ite (.refl _) (.ite ((Dev.causeBit_reports _ _ _).trans (Dev.errCorr_reports _ _ _))
    ((Dev.causeBit_reports _ _ _).trans (Dev.errUncorr_reports _ _ _)))

theorem Machine.Dev.katJudged_raised (d : Dev) (again : Bool) : Raised (d.katJudged false again) .ece 18 := by
  cases again with
  | true => exact (Dev.errCorr_grow _ _ _).grow _ _ (Dev.causeBit_raised _ _ _)
  | false => exact (Dev.errUncorr_grow _ _ _).grow _ _ (Dev.causeBit_raised _ _ _)

theorem Machine.Dev.laneFail_grow (d : Dev) (l : Nat) : Dev.CausesGrow d (d.laneFail l) := by
  unfold Dev.laneFail
  extract_lets x
  have hset : Dev.CausesGrow d (d.setLane l 2) := .of_blks (by unfold Dev.setLane; split <;> rfl)
  have hx : Dev.CausesGrow d x := (hset.trans (Dev.wr_grow _ _ _)).trans ((Dev.causeBit_grow _ _ _).trans (Dev.updEce_grow _ _))
  refine .ite ((hx.trans ⟨fun b i h => ?_⟩).trans ((Dev.errUncorr_grow _ _ _).trans (Dev.squall_grow _ _ _ _))) hx
  exact (Dev.setState_notesGrow x .ece stFault b).2.2.2.2 i h

theorem gives_katDone {kl : Nat} {s : State} (h : s.dev.ece.katOn = some kl) (ok again : Bool) : Gives (.katDone ok again) s fun e =>
    e.ece.katOn = none ∧ (s.dev.ece.retesting = [] → e.rd Reg.ECE_KAT_STAT_running = 0) ∧
      e.rd Reg.ECE_KAT_STAT_lane = kl % 2 ∧ e.rd Reg.ECE_KAT_TS_ts = s.dev.now % 2 ^ 64 ∧
      e.rd Reg.ECE_KAT_STAT_runs = min (s.dev.rd Reg.ECE_KAT_STAT_runs + 1) 0xFFFF ∧
      e.rd Reg.ECE_KAT_STAT_result = katResult ok again ∧
      (ok = false → Raised e .ece 18) ∧ (ok = false → again = false → e.laneState kl = 2) ∧
      Frame s.dev e (katFields ++ laneFields) [.ece] := by
  refine gives_of_exec_eq_act (f := fun d => d.katDone ok again) rfl ?_
  generalize hx : s.dev.katJudged ok again = x
  have hrep : Dev.Reports (s.dev.updEce fun e => { e with katOn := none }) x := hx ▸ s.dev.katJudged_reports ok again
  generalize hy : x.katShow kl (katResult ok again) 1 = y
  have heq : s.dev.katDone ok again = if ok || again then y else y.laneFail kl := by
    rw [← hy, ← hx]
    exact Dev.katDone_eq h ok again
  have hlt : katResult ok again < 4 := by cases ok <;> cases again <;> decide
  obtain ⟨hlane, hts, hruns, hresult, hrunning⟩ := x.katShow_shows kl 1 hlt
  rw [hy] at hlane hts hruns hresult hrunning
  have hyece : y.ece = { s.dev.ece with katOn := none } := by
    rw [← hy, (x.katShow_keeps _ _ _).1]
    exact hrep.ece
  have hnow : x.now = s.dev.now := by rw [Dev.now, Dev.now, hrep.same]; rfl
  have hframe : Frame s.dev y (katFields ++ laneFields) [.ece] := by
    rw [← hy]
    exact (((Frame.refl _ _ _).setEce _).reports hrep).katShow _ _ _ (List.subset_append_left _ _)
  have hend : Frame y (s.dev.katDone ok again).settle laneFields [.ece] := by
    rw [heq]
    exact (Frame.ite (Frame.refl _ _ _) ((Frame.refl _ _ _).laneFail _ (List.Subset.refl _))).settle
  have hgrow : Dev.CausesGrow y (s.dev.katDone ok again) := by
    rw [heq]
    exact .ite (.refl _) (Dev.laneFail_grow _ _)
  have hkat : (s.dev.katDone ok again).ece.katOn = none := by
    rw [heq]
    split
    · rw [hyece]
    · exact (Dev.laneFail_ece y kl).trans (by rw [hyece])
  refine ⟨?_, fun hnone => ?_, ?_, ?_, ?_, ?_, fun hbad => ?_, fun hbad hagain => ?_, ?_⟩
  · rw [Dev.settle_ece]
    exact hkat
  · rw [hend.rd Reg.ECE_KAT_STAT_running, hrunning]
    have hoff : x.katRunning = false := by
      rw [Dev.katRunning, hrep.ece]
      simp [Dev.updEce, hnone]
    rw [hoff]
    rfl
  · rw [hend.rd Reg.ECE_KAT_STAT_lane, hlane]
  · rw [hend.rd Reg.ECE_KAT_TS_ts, hts, hnow]
  · rw [hend.rd Reg.ECE_KAT_STAT_runs, hruns, hrep.rd]
    rfl
  · rw [hend.rd Reg.ECE_KAT_STAT_result, hresult]
  · refine Dev.settle_raised _ _ _ (hgrow.grow _ _ ?_)
    have hraised : Raised x .ece 18 := by rw [← hx, hbad]; exact s.dev.katJudged_raised again
    exact (Dev.CausesGrow.of_blks (congrArg NoteState.blks (hy ▸ (x.katShow_keeps kl (katResult ok again) 1).2))).grow _ _ hraised
  · rw [Dev.settle_laneState, heq, hbad, hagain]
    exact (y.laneFail_shows kl).1
  · exact hframe.trans hend (List.subset_append_right _ _) (List.Subset.refl _)

end Sys2Proof
end

section
/-! Retests of the lanes of the erasure-code engine (R146, R147). -/

set_option Elab.async false

namespace Sys2Proof

open Sys2Proof.Machine

namespace Machine

theorem Dev.laneState_setLane_other (d : Dev) {l k : Nat} (st : Nat) (hl : l < 2) (hk : k < 2) (h : l ≠ k) :
    (d.setLane k st).laneState l = d.laneState l := by
  interval_cases k <;> interval_cases l
  · exact absurd rfl h
  · exact Dev.rd_wr_other _ _ _ _ (by decide)
  · exact Dev.rd_wr_other _ _ _ _ (by decide)
  · exact absurd rfl h

/-- The lanes that are FAILED. -/
def Dev.failedLanes (d : Dev) : List Nat := [0, 1].filter fun l => d.laneState l = 2

theorem Dev.mem_failedLanes {d : Dev} {l : Nat} (hl : l < 2) (h : d.laneState l = 2) : l ∈ d.failedLanes := by
  refine List.mem_filter.2 ⟨?_, decide_eq_true h⟩
  interval_cases l <;> decide

theorem Dev.lt_of_mem_failedLanes {d : Dev} {l : Nat} (h : l ∈ d.failedLanes) : l < 2 := by
  have hmem := (List.mem_filter.1 h).1
  simp only [List.mem_cons, List.not_mem_nil, or_false] at hmem
  omega

/-- A lane set to RETEST. -/
def Dev.laneToRetest (l : Nat) (d : Dev) : Dev := d.setLane l 3

/-- Among the lanes set to RETEST, each is. -/
theorem Dev.laneState_retest (ls : List Nat) {l : Nat} (hl : l < 2) : ∀ d : Dev, (∀ k ∈ ls, k < 2) →
    l ∈ ls ∨ d.laneState l = 3 → (forEach ls Dev.laneToRetest d).laneState l = 3 := by
  induction ls with
  | nil => exact fun d _ h => h.resolve_left List.not_mem_nil
  | cons k ls ih =>
    intro d hls h
    refine ih (Dev.laneToRetest k d) (fun k hk => hls k (.tail _ hk)) ?_
    by_cases hlk : l = k
    · right
      rw [hlk]
      exact d.laneState_setLane k (by decide)
    · rcases h with h | h
      · exact .inl ((List.mem_cons.1 h).resolve_left hlk)
      · exact .inr ((d.laneState_setLane_other 3 hl (hls k (.head _)) hlk).trans h)

theorem Dev.retest_eq {d : Dev} (hsome : d.failedLanes ≠ []) (hnone : d.ece.retesting = []) : d.retest =
    (forEach d.failedLanes Dev.laneToRetest (d.updEce fun e => { e with retesting := d.failedLanes })).katShowRun := by
  have hsome' : ([0, 1].filter fun l => d.laneState l = 2) ≠ [] := hsome
  simp only [Dev.retest, hsome', hnone, ne_eq, not_true_eq_false, decide_false, Bool.or_false, Bool.false_eq_true, if_false]
  rfl

end Machine

section

variable {lane : Nat} (hlane : lane < 2) {s : State}
include hlane

theorem hostGives_eceRetest (hfailed : s.dev.laneState lane = 2) (hnone : s.dev.ece.retesting = []) :
    HostGives 0 .ece .eceRetest s fun e =>
      e.laneState lane = 3 ∧ lane ∈ e.ece.retesting ∧ e.rd Reg.ECE_KAT_STAT_running = 1 := by
  intro h
  refine gives_of_exec_eq_atFn (g := Dev.retest) rfl h fun d hd => ?_
  have hmem : lane ∈ d.failedLanes := Dev.mem_failedLanes hlane ((hd.laneState lane).trans hfailed)
  have hnone' : d.ece.retesting = [] := by rw [hd.ece]; exact hnone
  rw [Dev.retest_eq (List.ne_nil_of_mem hmem) hnone']
  generalize hx : (d.updEce fun e => { e with retesting := d.failedLanes }) = x
  have hece : (forEach d.failedLanes Dev.laneToRetest x).ece = x.ece :=
    forEach_induct (P := fun e : Dev => e.ece = x.ece) (fun l e he => by
      rw [← he]; unfold Dev.laneToRetest Dev.setLane; split <;> rfl) _ x rfl
  have hlane3 := Dev.laneState_retest d.failedLanes hlane x (fun k hk => Dev.lt_of_mem_failedLanes hk) (.inl hmem)
  generalize forEach d.failedLanes Dev.laneToRetest x = y at hece hlane3
  have hretesting : y.ece.retesting = d.failedLanes := by rw [hece, ← hx]; rfl
  have hrunning : y.katRunning = true := by
    simp only [Dev.katRunning, hretesting, ne_eq, List.ne_nil_of_mem hmem, not_false_eq_true, decide_true, Bool.or_true]
  have hframe : Frame y y.katShowRun [Reg.ECE_KAT_STAT_running] [] := (Frame.refl _ _ _).wr _ _
  refine ⟨?_, ?_, ?_⟩
  · rw [Dev.settle_laneState, hframe.laneState, hlane3]
  · rw [Dev.settle_ece]
    show lane ∈ y.ece.retesting
    rw [hretesting]
    exact hmem
  · rw [Dev.settle_rd _ _ (by decide), Dev.katShowRun, hrunning]
    exact Dev.rd_wr_same _ _ _

theorem exec_eceRetestDone (passed : Nat) : exec (.eceRetestDone lane passed) s = s.act fun d => d.retestDone lane passed := by
  simp only [exec, execEceRetestDone, onUnit, hlane, decide_true, if_true]

theorem gives_eceRetestDone_idle (passed : Nat) (h : s.dev.ece.katOn.isSome ∨ s.dev.ece.retesting.head? ≠ some lane) :
    Gives (.eceRetestDone lane passed) s fun e => Frame s.dev e [] [] := by
  refine gives_of_exec_eq_act (exec_eceRetestDone hlane passed) ?_
  have heq : s.dev.retestDone lane passed = s.dev := by
    rcases h with h | h
    · simp only [Dev.retestDone, h, Bool.true_or, if_true]
    · simp only [Dev.retestDone, h, ne_eq, not_false_eq_true, decide_true, Bool.or_true, if_true]
  rw [heq]
  exact (Frame.refl _ _ _).settle

/-- A lane's retest that is over (R146). -/
def Machine.Dev.retestTaken (d : Dev) : Dev := d.updEce fun e => { e with retesting := e.retesting.drop 1 }

/-- A lane that is back (R147). -/
def Machine.Dev.laneBack (d : Dev) (lane : Nat) : Dev :=
  ((((d.retestTaken.setLane lane 0).showCarrier).relane).katShow lane katPass 16).causeBit .ece 19

/-- A lane that stays FAILED after its retest (R147). -/
def Machine.Dev.laneStays (d : Dev) (lane passed : Nat) : Dev :=
  ((((d.retestTaken.setLane lane 2).showCarrier).causeBit .ece 18).errUncorr .ece 4).katShow lane katFail (passed + 1)

omit hlane in
theorem Machine.Dev.retestDone_eq {d : Dev} (hfree : d.ece.katOn = none) (hhead : d.ece.retesting.head? = some lane) (passed : Nat) :
    d.retestDone lane passed = if 16 ≤ passed then (if d.eceDown then (d.laneBack lane).setState .ece stActive else d.laneBack lane)
      else d.laneStays lane passed := by
  simp only [Dev.retestDone, hfree, hhead, Option.isSome_none, ne_eq, not_true_eq_false, decide_false, Bool.or_self,
    Bool.false_eq_true, if_false]
  rfl

omit hlane in
/-- What the retest's end shows of its lane. -/
theorem Machine.Dev.katShow_lane {d x : Dev} {st : Nat} (hx : Frame (d.retestTaken.setLane lane st) x [Reg.ECE_LANE_STAT_carrier] [.ece])
    (hst : st < 4) (hretesting : x.ece.retesting = d.ece.retesting.drop 1) (result runs : Nat) (hresult : result < 4) :
    let y := x.katShow lane result runs
    y.ece.retesting = d.ece.retesting.drop 1 ∧ y.laneState lane = st ∧ y.rd Reg.ECE_KAT_STAT_result = result ∧
      y.rd Reg.ECE_KAT_TS_ts = d.now % 2 ^ 64 := by
  intro y
  obtain ⟨-, hts, -, hres, -⟩ := x.katShow_shows lane runs hresult
  have hshow : Frame x y katFields [] := (Frame.refl _ _ _).katShow _ _ _ (List.Subset.refl _)
  have hnow : x.now = d.now := by
    have hset : (d.retestTaken.setLane lane st).tmb = d.retestTaken.tmb := by unfold Dev.setLane; split <;> rfl
    rw [Dev.now, Dev.now, (hx.part .tmb).1, hset]
    rfl
  refine ⟨?_, ?_, hres, hts.trans (by rw [hnow])⟩
  · rw [(x.katShow_keeps _ _ _).1, hretesting]
  · rw [hshow.laneState, hx.laneState, Dev.laneState_setLane _ _ hst]

theorem gives_eceRetestDone (passed : Nat) (hfree : s.dev.ece.katOn = none) (hhead : s.dev.ece.retesting.head? = some lane) :
    Gives (.eceRetestDone lane passed) s fun e => e.ece.retesting = s.dev.ece.retesting.drop 1 ∧
      e.laneState lane = (if 16 ≤ passed then 0 else 2) ∧
      e.rd Reg.ECE_KAT_STAT_result = (if 16 ≤ passed then katPass else katFail) ∧
      e.rd Reg.ECE_KAT_TS_ts = s.dev.now % 2 ^ 64 ∧ (16 ≤ passed → Raised e .ece 19) := by
  refine gives_of_exec_eq_act (exec_eceRetestDone hlane passed) ?_
  rw [Dev.retestDone_eq hfree hhead]
  have hset (st : Nat) : (s.dev.retestTaken.setLane lane st).ece = s.dev.retestTaken.ece := by
    unfold Dev.setLane; split <;> rfl
  by_cases hpass : 16 ≤ passed
  · simp only [if_pos hpass]
    generalize hx : ((s.dev.retestTaken.setLane lane 0).showCarrier).relane = x
    have hframe : Frame (s.dev.retestTaken.setLane lane 0) x [Reg.ECE_LANE_STAT_carrier] [.ece] := by
      rw [← hx]
      exact ((Frame.refl _ _ _).wr _ _).setEce _
    have hret : x.ece.retesting = s.dev.ece.retesting.drop 1 := by
      rw [← hx]
      exact congrArg EceState.retesting (hset 0)
    obtain ⟨h1, h2, h3, h4⟩ := Dev.katShow_lane hframe (by decide) hret katPass 16 (by decide)
    have hback : s.dev.laneBack lane = (x.katShow lane katPass 16).causeBit .ece 19 := by rw [← hx]; rfl
    have hrep : Dev.Reports (x.katShow lane katPass 16) (s.dev.laneBack lane) := hback ▸ Dev.causeBit_reports _ _ _
    have hend : Frame (x.katShow lane katPass 16)
        (if s.dev.eceDown then (s.dev.laneBack lane).setState .ece stActive else s.dev.laneBack lane).settle [] [] :=
      (Frame.ite (((Frame.refl _ _ _).reports hrep).setState _ _) ((Frame.refl _ _ _).reports hrep)).settle
    refine ⟨?_, ?_, ?_, ?_, fun _ => Dev.settle_raised _ _ _ ?_⟩
    · rw [show _ = (x.katShow lane katPass 16).ece from hend.part .ece]
      exact h1
    · rw [hend.laneState]
      exact h2
    · rw [hend.rd Reg.ECE_KAT_STAT_result]
      exact h3
    · rw [hend.rd Reg.ECE_KAT_TS_ts]
      exact h4
    · have hraised : Raised (s.dev.laneBack lane) .ece 19 := by rw [hback]; exact Dev.causeBit_raised _ _ _
      split
      · exact (Dev.setState_notesGrow _ .ece stActive .ece).2.2.2.2 _ hraised
      · exact hraised
  · simp only [if_neg hpass]
    generalize hx : (((s.dev.retestTaken.setLane lane 2).showCarrier).causeBit .ece 18).errUncorr .ece 4 = x
    have hrep : Dev.Reports ((s.dev.retestTaken.setLane lane 2).showCarrier) x := by
      rw [← hx]
      exact (Dev.causeBit_reports _ _ _).trans (Dev.errUncorr_reports _ _ _)
    have hframe : Frame (s.dev.retestTaken.setLane lane 2) x [Reg.ECE_LANE_STAT_carrier] [.ece] :=
      ((Frame.refl _ _ _).wr _ _).reports hrep
    have hret : x.ece.retesting = s.dev.ece.retesting.drop 1 := by
      rw [hrep.ece]
      exact congrArg EceState.retesting (hset 2)
    obtain ⟨h1, h2, h3, h4⟩ := Dev.katShow_lane hframe (by decide) hret katFail (passed + 1) (by decide)
    have hstays : s.dev.laneStays lane passed = x.katShow lane katFail (passed + 1) := by rw [← hx]; rfl
    rw [hstays]
    refine ⟨?_, ?_, ?_, ?_, fun h => absurd h hpass⟩
    · rw [Dev.settle_ece]
      exact h1
    · rw [Dev.settle_laneState]
      exact h2
    · rw [Dev.settle_rd _ _ (by decide)]
      exact h3
    · rw [Dev.settle_rd _ _ (by decide)]
      exact h4

end

/-- Settles O45, by what the failure of a lane and the end of a known-answer run show. -/
theorem codingLanes : Obligations.CodingLanes := by
  intro id lane passed ok again j s
  exact ⟨fun h => ⟨gives_eceRowRetry_ok h, gives_eceRowRetry_bad h⟩,
    fun hrun hdown => ⟨hostGives_katRun hrun hdown, gives_katInterval hrun hdown⟩, gives_katInterval_idle,
    fun kl h => gives_katDone h ok again, fun hlane => hostGives_eceRetest hlane,
    fun hlane => gives_eceRetestDone_idle hlane passed, fun hlane => gives_eceRetestDone hlane passed⟩

end Sys2Proof
end

section
/-! Block headers: what leaves a block's state and its enable bit alone, and what the end of a command makes of a state (R32,
R33, R37, R408). -/

set_option Elab.async false

namespace Sys2Proof

open Sys2Proof.Machine

namespace Machine

/-! ### The headers of the blocks -/

/-- Every field of a block header reads as before. -/
def Dev.HeadersKept (d e : Dev) : Prop := ∀ f : Fld, f.key / 64 % 65536 < 0x40 → e.rd f = d.rd f

/-- Whether a field of a unit with a stride of 4 KiB lies outside the headers, whatever the unit. -/
def Fld.pastHeader (f : Fld) : Bool := decide (f.dims.head?.map Prod.fst = some 4096) && decide (0x40 ≤ f.key / 64 % 4096)

theorem Fld.ix_pastHeader {f : Fld} (h : f.pastHeader = true) (i : Nat) : 0x40 ≤ (f.ix i).key / 64 % 65536 := by
  simp only [Fld.pastHeader, Bool.and_eq_true, decide_eq_true_eq] at h
  obtain ⟨hdims, hkey⟩ := h
  rw [Fld.ix_key, hdims, Option.getD_some]
  omega

namespace Dev.HeadersKept

variable {d e : Dev}

theorem refl (d : Dev) : Dev.HeadersKept d d := fun _ _ => rfl

theorem of_regs (h : e.regs = d.regs) : Dev.HeadersKept d e := fun f _ => by simp only [Dev.rd, h]

theorem trans {a b c : Dev} (h : Dev.HeadersKept a b) (k : Dev.HeadersKept b c) : Dev.HeadersKept a c :=
  fun f hf => (k f hf).trans (h f hf)

theorem ite {c : Prop} [Decidable c] {a b : Dev} (h : Dev.HeadersKept d a) (k : Dev.HeadersKept d b) :
    Dev.HeadersKept d (if c then a else b) := by split <;> assumption

theorem forEach {α : Type} {f : α → Dev → Dev} (h : ∀ x d, Dev.HeadersKept d (f x d)) (xs : List α) (d : Dev) :
    Dev.HeadersKept d (Machine.forEach xs f d) :=
  forEach_induct (P := Dev.HeadersKept d) (fun x e he => he.trans (h x e)) xs d (.refl d)

theorem reports (h : Dev.Reports d e) : Dev.HeadersKept d e := fun f _ => h.rd f

theorem wr (d : Dev) (f : Fld) (v : Nat) (hf : 0x40 ≤ f.key / 64 % 65536 := by decide) : Dev.HeadersKept d (d.wr f v) :=
  fun g hg => Dev.rd_wr_other _ _ _ _ fun hk => by rw [hk] at hg; omega

theorem wr_ix (d : Dev) (f : Fld) (i v : Nat) (hf : f.pastHeader = true := by decide) : Dev.HeadersKept d (d.wr (f.ix i) v) :=
  .wr d _ v (Fld.ix_pastHeader hf i)

theorem blkState (h : Dev.HeadersKept d e) (b : Blk) : e.blkState b = d.blkState b := h _ (by cases b <;> decide)

theorem en (h : Dev.HeadersKept d e) (b : Blk) : e.rd (Reg.BLK_CTRL_en.ix b.page) = d.rd (Reg.BLK_CTRL_en.ix b.page) :=
  h _ (by cases b <;> decide)

end Dev.HeadersKept

/-! ### Activities leave the headers -/

theorem Dev.emit_headers (d : Dev) (x : Emit) : Dev.HeadersKept d (d.emit x) := .of_regs rfl
theorem Dev.updBps_headers (d : Dev) (g : BpsState → BpsState) : Dev.HeadersKept d (d.updBps g) := .of_regs rfl
theorem Dev.updArr_headers (d : Dev) (a : Nat) (g : ArrSt → ArrSt) : Dev.HeadersKept d (d.updArr a g) := .of_regs rfl
theorem Dev.actEnd_headers (d : Dev) (act : Act) (a : Nat) : Dev.HeadersKept d (d.actEnd act a) := .of_regs rfl

theorem Dev.setDuty_headers (d : Dev) (v : Nat) : Dev.HeadersKept d (d.setDuty v) := by
  unfold Dev.setDuty
  exact .ite (.refl d) ((Dev.HeadersKept.wr d Reg.BPS_CHG_STAT_duty v).trans (Dev.emit_headers _ _))

theorem Dev.setInhibit_headers (d : Dev) (bit : Nat) (on : Bool) : Dev.HeadersKept d (d.setInhibit bit on) := by
  unfold Dev.setInhibit
  extract_lets old new e
  have he : Dev.HeadersKept d e := .wr d Reg.BPS_CHG_STAT_inhibit new
  refine .ite (he.trans ?_) (.ite (he.trans (.wr e Reg.BPS_CHG_STAT_state chCc)) he)
  exact ((e.setDuty_headers 0).trans (.wr _ Reg.BPS_CHG_STAT_state chInhibited)).trans (Dev.updBps_headers _ _)

theorem Dev.setDsg_headers (d : Dev) (on : Bool) : Dev.HeadersKept d (d.setDsg on) := by
  unfold Dev.setDsg
  exact .ite (.refl d) (.trans (.of_regs rfl) (Dev.emit_headers _ _))

theorem Dev.learnResult_headers (d : Dev) (result mah reason : Nat) : Dev.HeadersKept d (d.learnResult result mah reason) :=
  ((Dev.HeadersKept.wr d Reg.BPS_LEARN_STAT_result result).trans (.wr _ Reg.BPS_LEARN_STAT_reason reason)).trans
    (.reports ((Dev.causeBit_reports _ _ _).trans (Dev.post_reports _ _ _ _ _ _ _ _)))

theorem Dev.learnStop_headers (d : Dev) (reason : Nat) : Dev.HeadersKept d (d.learnStop reason) := by
  unfold Dev.learnStop
  refine .ite ?_ (.refl d)
  refine .trans ?_ (Dev.setInhibit_headers _ _ _)
  refine .trans ?_ (Dev.learnResult_headers _ _ _ _)
  exact ((d.setDsg_headers false).trans (.wr _ Reg.BPS_LEARN_STAT_phase 5)).trans (Dev.updBps_headers _ _)

theorem Dev.actAbort_headers (d : Dev) (x : Activity) : Dev.HeadersKept d (d.actAbort x) := by
  unfold Dev.actAbort
  exact .ite ((d.actEnd_headers _ _).trans (Dev.learnStop_headers _ _)) (d.actEnd_headers _ _)

theorem Dev.setAct_headers (d : Dev) (act : Act) (a : Nat) (st : ActSt) : Dev.HeadersKept d (d.setAct act a st) := by
  unfold Dev.setAct
  exact .ite (.of_regs rfl) (.of_regs rfl)

theorem Dev.actPause_headers (d : Dev) (x : Activity) (b : Nat) : Dev.HeadersKept d (d.actPause x b) := by
  unfold Dev.actPause
  refine .trans ?_ (.reports (Dev.postDeferred_reports _ _ _ _))
  exact (d.setAct_headers _ _ _).trans (.ite (.wr_ix _ Reg.AR_SCRUB_paused x.array 1) (.refl _))

theorem Dev.walkStart_headers (d : Dev) (a : Nat) : Dev.HeadersKept d (d.walkStart a) := by
  unfold Dev.walkStart
  extract_lets lb old planned w e
  have he : Dev.HeadersKept d e := .of_regs rfl
  exact he.trans (.trans (.trans (.trans (.wr_ix _ Reg.AR_RBLD_running a _) (.wr_ix _ Reg.AR_RBLD_pass a _))
    (.wr_ix _ Reg.AR_RBLD_permille a _)) (.wr_ix _ Reg.AR_RBLD_CUR_cycle a _))

theorem Dev.scrubBegin_headers (d : Dev) (a : Nat) : Dev.HeadersKept d (d.scrubBegin a) := by
  unfold Dev.scrubBegin
  extract_lets suspect
  refine .trans (d.updArr_headers a _) (.trans (.trans (.trans (.wr_ix _ Reg.AR_SCRUB_running a _)
    (.wr_ix _ Reg.AR_SCRUB_paused a _)) (.wr_ix _ Reg.AR_SCRUB_permille a _)) (.wr_ix _ Reg.AR_SCRUB_CUR_stripe a _))

theorem Dev.actBegin_headers (d : Dev) {act : Act} (a : Nat) (h : act.ofArray = true) : Dev.HeadersKept d (d.actBegin act a) := by
  cases act with
  | rebuild => exact .ite ((d.updArr_headers a _).trans (Dev.walkStart_headers _ a)) (.refl d)
  | copyback => exact .wr_ix d Reg.AR_CPBK_running a 1
  | scrub => exact .ite (.wr_ix d Reg.AR_SCRUB_paused a 0) (d.scrubBegin_headers a)
  | restripe => exact .wr_ix d Reg.AR_RS_STAT_running a 1
  | driveFw => exact .refl d
  | learn => exact absurd h (by decide)
  | calibrate => exact absurd h (by decide)
  | dramRetrain => exact absurd h (by decide)
  | smcRekey => exact absurd h (by decide)
  | fwActivate => exact absurd h (by decide)

theorem Dev.actStart_headers (d : Dev) {act : Act} (a : Nat) (deferred : Bool) (h : act.ofArray = true) :
    Dev.HeadersKept d (d.actStart act a deferred) := by
  unfold Dev.actStart
  extract_lets paused aborted e y
  have hpaused : Dev.HeadersKept d paused := .forEach (fun x d => d.actPause_headers x act.code) _ d
  have haborted : Dev.HeadersKept paused aborted := .forEach (fun x d => d.actAbort_headers x) _ paused
  have hy : Dev.HeadersKept e y := .ite (.refl e) (.reports (e.postStarted_reports act a))
  exact (hpaused.trans haborted).trans (((aborted.setAct_headers act a .running).trans hy).trans (y.actBegin_headers a h))

theorem Dev.deferredStart_headers (d : Dev) {act : Act} (a : Nat) (h : act.ofArray = true) :
    Dev.HeadersKept d (d.deferredStart act a) := by
  unfold Dev.deferredStart
  split
  · exact .refl d
  · exact .ite (.refl d) (.ite (.refl d) (d.actStart_headers a true h))

theorem Dev.mntPause_headers (d : Dev) : Dev.HeadersKept d d.mntPause :=
  .forEach (fun x d => d.actPause_headers x 0) _ d

theorem Dev.mntResume_headers (d : Dev) : Dev.HeadersKept d d.mntResume := by
  unfold Dev.mntResume
  refine forEachMem_induct (P := Dev.HeadersKept d) _ (fun x hx e he => ?_) d (.refl d)
  have hof : x.act.ofArray = true := (Bool.and_eq_true _ _ ▸ (List.mem_filter.1 hx).2).1
  exact he.trans (e.deferredStart_headers x.array hof)

/-! ### The states of the blocks at the end of a command -/

/-- What each step at the end of a command keeps, the end keeps. -/
theorem Dev.settle_induct {P : Dev → Prop} (hshow : ∀ e b, P e → P (e.showState b)) (hltr : ∀ e, P e → P e.showLtr)
    (hsum : ∀ e, P e → P e.showSum) {d : Dev} (h : P d) : P d.settle := by
  have hfold : ∀ bs : List Blk, ∀ e : Dev, P e → P (bs.foldl Dev.showState e) := by
    intro bs
    induction bs with
    | nil => exact fun _ he => he
    | cons b bs ih => exact fun e he => ih _ (hshow e b he)
  exact hsum _ (hltr _ (hfold _ _ h))

theorem Dev.showLtr_regs (d : Dev) : d.showLtr.regs = d.regs := by
  have hl1 (e : Dev) : e.exitL1.regs = e.regs := by unfold Dev.exitL1; split <;> rfl
  dsimp only [Dev.showLtr]
  split
  · exact hl1 _
  · rfl

theorem Dev.showSum_regs (d : Dev) : d.showSum.regs = d.regs := by
  have hreports : Dev.Reports d d.showSum := by
    unfold Dev.showSum
    exact .trans (.ite (Dev.raiseVec_reports d _ _) (.refl d)) (Dev.nt_reports _ _)
  exact hreports.keeps.1

theorem Dev.rd_of_regs {d e : Dev} (h : e.regs = d.regs) (f : Fld) : e.rd f = d.rd f := by simp only [Dev.rd, h]

/-- A block that may wake before its state is shown. -/
def Dev.wokenFor (d : Dev) (b : Blk) : Dev := if d.working b then d.ungate b else d

theorem Dev.showState_eq (d : Dev) (b : Blk) : d.showState b =
    if (d.wokenFor b).blkState b = stIdle ∨ (d.wokenFor b).blkState b = stActive then
      (d.wokenFor b).setState b (if d.working b then stActive else stIdle) else d.wokenFor b := rfl

theorem Dev.wokenFor_woken (d : Dev) (b : Blk) : Dev.Woken d (d.wokenFor b) := by
  unfold Dev.wokenFor
  split
  · exact d.ungate_woken b
  · exact .refl d

/-- A block that is IDLE or ACTIVE is one of the two when a command ends. -/
theorem Dev.settle_blkState_on {d : Dev} {a : Blk} (h : d.blkState a = stIdle ∨ d.blkState a = stActive) :
    d.settle.blkState a = stIdle ∨ d.settle.blkState a = stActive := by
  refine Dev.settle_induct (P := fun e => e.blkState a = stIdle ∨ e.blkState a = stActive) (fun e b he => ?_)
    (fun e he => ?_) (fun e he => ?_) h
  · rw [← (e.wokenFor_woken b).blkState a] at he
    rw [Dev.showState_eq]
    by_cases hab : a = b
    · subst hab
      rw [if_pos he]
      split
      · exact .inr (Dev.setState_blkState_same _ _ (by decide))
      · exact .inl (Dev.setState_blkState_same _ _ (by decide))
    · split
      · rw [Dev.setState_blkState_other _ _ _ _ hab]
        exact he
      · exact he
  · rw [Dev.blkState, Dev.rd_of_regs e.showLtr_regs]
    exact he
  · rw [Dev.blkState, Dev.rd_of_regs e.showSum_regs]
    exact he

end Machine

end Sys2Proof
end

section
/-! Enabling, disabling, draining and gating a block (R32, R33, R37, R197, R377, R386, R408). -/

set_option Elab.async false

namespace Sys2Proof

open Sys2Proof.Machine

namespace Machine

theorem Dev.bmeDropAll_hostSide (d : Dev) : Dev.HostSide workKey d d.bmeDropAll :=
  forEachMem_induct (P := Dev.HostSide workKey d) _
    (fun _ hc e he => he.trans (e.bmeDrop_hostSide (List.mem_range.1 hc))) d (.refl d)

theorem Dev.blkState_setEn (d : Dev) (a b : Blk) (on : Bool) : (d.setEn a on).blkState b = d.blkState b :=
  Dev.rd_wr_other _ _ _ _ (by cases a <;> cases b <;> decide)

theorem Dev.rd_setEn_same (d : Dev) (b : Blk) (on : Bool) : (d.setEn b on).rd (Reg.BLK_CTRL_en.ix b.page) = b2n on := by
  rw [Dev.setEn, Dev.wrB, Dev.rd_wr_same, Fld.ix_width]
  cases on <;> rfl

theorem Dev.rd_setState_en (d : Dev) (a b : Blk) (st : Nat) :
    (d.setState a st).rd (Reg.BLK_CTRL_en.ix b.page) = d.rd (Reg.BLK_CTRL_en.ix b.page) := by
  unfold Dev.setState
  split
  · rfl
  · exact (Dev.cause_rd _ _ _ _).trans (Dev.rd_wr_other _ _ _ _ (by cases a <;> cases b <;> decide))

theorem Dev.settle_en (d : Dev) (b : Blk) :
    d.settle.rd (Reg.BLK_CTRL_en.ix b.page) = d.rd (Reg.BLK_CTRL_en.ix b.page) := d.settle_rd _ (by cases b <;> decide)

theorem Dev.Woken.blkOn {d e : Dev} (h : Dev.Woken d e) {b : Blk} (hon : d.blkState b = stIdle ∨ d.blkState b = stActive) :
    e.blkState b = stIdle ∨ e.blkState b = stActive := by rwa [h.blkState]

/-- A state and an enable bit that a step shows. -/
def Dev.ShowsBlk (e : Dev) (b : Blk) (st : Nat) (on : Bool) : Prop :=
  e.blkState b = st ∧ e.rd (Reg.BLK_CTRL_en.ix b.page) = b2n on

theorem Dev.ShowsBlk.kept {d e : Dev} {b : Blk} {st : Nat} {on : Bool} (h : d.ShowsBlk b st on) (k : Dev.HeadersKept d e) :
    e.ShowsBlk b st on := ⟨(k.blkState b).trans h.1, (k.en b).trans h.2⟩

theorem Dev.showsBlk_setState (d : Dev) {b : Blk} {st : Nat} {on : Bool} (hst : st < 8)
    (h : d.rd (Reg.BLK_CTRL_en.ix b.page) = b2n on) : (d.setState b st).ShowsBlk b st on :=
  ⟨d.setState_blkState_same b hst, (d.rd_setState_en b b st).trans h⟩

/-- A state other than IDLE and ACTIVE is shown when the command ends. -/
theorem Dev.ShowsBlk.settle {d : Dev} {b : Blk} {st : Nat} {on : Bool} (h : d.ShowsBlk b st on)
    (hst : st ≠ stIdle ∧ st ≠ stActive) : d.settle.blkState b = st ∧ d.settle.rd (Reg.BLK_CTRL_en.ix b.page) = b2n on := by
  obtain ⟨hstate, hen⟩ := h
  exact ⟨(Dev.settle_blkState (by rw [hstate]; exact hst)).trans hstate, (d.settle_en b).trans hen⟩

theorem Dev.ShowsBlk.settle_on {d : Dev} {b : Blk} {st : Nat} (h : d.ShowsBlk b st true) (hst : st = stIdle ∨ st = stActive) :
    (d.settle.blkState b = stIdle ∨ d.settle.blkState b = stActive) ∧ d.settle.rd (Reg.BLK_CTRL_en.ix b.page) = 1 := by
  obtain ⟨hstate, hen⟩ := h
  exact ⟨Dev.settle_blkState_on (by rw [hstate]; exact hst), (d.settle_en b).trans hen⟩

theorem Dev.smcWalk_smc (d : Dev) : ∃ x, d.smcWalk = { d with smc := x } := Dev.walkSteps_smc _ d

theorem Dev.smcWalkFrom0_headers (d : Dev) : Dev.HeadersKept d d.smcWalkFrom0 := by
  obtain ⟨x, hx⟩ := Dev.smcWalk_smc { d with smc := { d.smc with walkSet := some 0 } }
  exact .of_regs ((congrArg Dev.regs hx).trans rfl)

end Machine

/-! ### Disabling -/

section

variable {b : Blk} {s : State} (h : HostReaches s.dev 0 b)
include h

theorem gives_blockDisable_drains (hb : b = .smc ∨ b = .mnt ∨ b = .bme)
    (hon : s.dev.blkState b = stIdle ∨ s.dev.blkState b = stActive) : Gives (.blockDisable b) s fun e =>
      e.blkState b = stDraining ∧ e.rd (Reg.BLK_CTRL_en.ix b.page) = 0 := by
  refine gives_of_exec_eq_atFn (g := fun d => d.blockDisable b) rfl h fun d hd => ?_
  have hon' : decide (d.blkState b = stIdle ∨ d.blkState b = stActive) = true := decide_eq_true (hd.blkOn hon)
  have hen := d.rd_setEn_same b false
  refine Dev.ShowsBlk.settle (on := false) ?_ (by decide)
  rcases hb with rfl | rfl | rfl
  · have heq : d.blockDisable .smc = ((d.setEn .smc false).setState .smc stDraining).smcWalkFrom0 := by
      simp only [Dev.blockDisable, enableable, hon', decide_true, decide_false, Bool.or_false, Bool.not_true, Bool.false_eq_true,
        if_false, reduceCtorEq]
    rw [heq]
    exact (Dev.showsBlk_setState _ (by decide) hen).kept (Dev.smcWalkFrom0_headers _)
  · have heq : d.blockDisable .mnt = (d.setEn .mnt false).mntPause.setState .mnt stDraining := by
      simp only [Dev.blockDisable, enableable, hon', decide_true, decide_false, Bool.or_false, Bool.or_true, Bool.not_true,
        Bool.false_eq_true, if_false, reduceCtorEq]
    rw [heq]
    exact Dev.showsBlk_setState _ (by decide) (((Dev.mntPause_headers _).en .mnt).trans hen)
  · have heq : d.blockDisable .bme = (d.setEn .bme false).bmeDropAll.setState .bme stDraining := by
      simp only [Dev.blockDisable, enableable, hon', decide_true, decide_false, Bool.or_false, Bool.or_true, Bool.not_true,
        Bool.false_eq_true, if_false, reduceCtorEq]
    rw [heq]
    exact Dev.showsBlk_setState _ (by decide) (((Dev.bmeDropAll_hostSide _).low _ (by decide)).trans hen)

omit h in
theorem gives_blockDisable_tmb (hon : s.dev.blkState .tmb = stIdle ∨ s.dev.blkState .tmb = stActive)
    (h : HostReaches s.dev 0 .tmb) : Gives (.blockDisable .tmb) s fun e =>
      e.blkState .tmb = stOff ∧ e.rd (Reg.BLK_CTRL_en.ix 3) = 0 := by
  refine gives_of_exec_eq_atFn (g := fun d => d.blockDisable .tmb) rfl h fun d hd => ?_
  have hon' : decide (d.blkState .tmb = stIdle ∨ d.blkState .tmb = stActive) = true := decide_eq_true (hd.blkOn hon)
  have heq : d.blockDisable .tmb = (d.setEn .tmb false).tmbOff := by
    simp only [Dev.blockDisable, enableable, hon', decide_true, decide_false, Bool.or_false, Bool.or_true, Bool.not_true,
      Bool.false_eq_true, if_false, reduceCtorEq]
  have hfree (e : Dev) : Dev.HeadersKept e e.tmbFree := by
    have hset (x : Dev) : Dev.HeadersKept x (x.setTmb tmFree) := by
      unfold Dev.setTmb
      exact .trans (.ite (.reports (Dev.causeBit_reports _ _ _)) (.refl x)) (.wr _ Reg.TMB_STAT_state _)
    exact .trans (.trans (.of_regs rfl) (hset _)) (.wr _ Reg.TMB_STAT_missed _)
  rw [heq]
  refine Dev.ShowsBlk.settle (b := .tmb) (on := false) (Dev.ShowsBlk.kept ?_ (.trans (hfree _) (.of_regs rfl))) (by decide)
  exact Dev.showsBlk_setState _ (by decide) ((Dev.rd_setState_en _ _ _ _).trans (d.rd_setEn_same .tmb false))

theorem gives_blockDisable_fixed (hsmc : b ≠ .smc) (hmnt : b ≠ .mnt) (hbme : b ≠ .bme) (htmb : b ≠ .tmb) :
    Gives (.blockDisable b) s fun e => OnlyFields s.dev e [] ∧ e.staged = s.dev.staged := by
  refine gives_of_exec_eq_atFn (g := fun d => d.blockDisable b) rfl h fun d hd => ?_
  have heq : d.blockDisable b = d := by
    simp only [Dev.blockDisable, enableable, hsmc, hmnt, hbme, htmb, decide_false, Bool.or_self, Bool.not_false, if_true]
  rw [heq]
  have hframe := (Frame.of_woken hd [] []).settle
  exact ⟨hframe.1, hframe.part .staged⟩

/-! ### Enabling -/

omit h in
theorem Machine.Dev.bmeEnableAll_headers (d : Dev) :
    d.bmeEnableAll.blkState .bme = d.blkState .bme ∧
      d.bmeEnableAll.rd (Reg.BLK_CTRL_en.ix Blk.bme.page) = d.rd (Reg.BLK_CTRL_en.ix Blk.bme.page) := by
  have hwr (e : Dev) (c : Nat) (hc : c < 8) (f : Fld) (hf : ∀ c < 8, (Reg.BME_CH_CTRL_en.ix c).key ≠ f.key ∧ (Reg.BME_CH_STAT_state.ix c).key ≠ f.key) :
      ((e.wr (Reg.BME_CH_CTRL_en.ix c) 1).wr (Reg.BME_CH_STAT_state.ix c) 0).rd f = e.rd f :=
    (Dev.rd_wr_other _ _ _ _ (hf c hc).2.symm).trans (Dev.rd_wr_other _ _ _ _ (hf c hc).1.symm)
  have hkept (f : Fld) (hf : ∀ c < 8, (Reg.BME_CH_CTRL_en.ix c).key ≠ f.key ∧ (Reg.BME_CH_STAT_state.ix c).key ≠ f.key) :
      d.bmeEnableAll.rd f = d.rd f :=
    forEachMem_induct (P := fun e : Dev => e.rd f = d.rd f) _
      (fun c hc e he => (hwr e c (List.mem_range.1 hc) f hf).trans he) d rfl
  exact ⟨hkept _ (by decide), hkept _ (by decide)⟩

theorem gives_blockEnable (hb : ((b = .mnt ∨ b = .bme ∨ b = .tmb) ∧ s.dev.blkState b = stOff) ∨
    ((b = .smc ∨ b = .mnt) ∧ s.dev.blkState b = stDraining)) : Gives (.blockEnable b) s fun e =>
      (e.blkState b = stIdle ∨ e.blkState b = stActive) ∧ e.rd (Reg.BLK_CTRL_en.ix b.page) = 1 := by
  refine gives_of_exec_eq_atFn (g := fun d => d.blockEnable b) rfl h fun d hd => ?_
  have hen := d.rd_setEn_same b true
  have hst := hd.blkState b
  rcases hb with ⟨rfl | rfl | rfl, hoff⟩ | ⟨rfl | rfl, hdrain⟩
  · have heq : d.blockEnable .mnt = ((d.setEn .mnt true).setState .mnt stIdle).mntResume := by
      simp [Dev.blockEnable, enableable, hst, hoff, stOff, stDraining]
    rw [heq]
    exact ((Dev.showsBlk_setState _ (by decide) hen).kept (Dev.mntResume_headers _)).settle_on (.inl rfl)
  · have heq : d.blockEnable .bme = ((d.setEn .bme true).setState .bme stIdle).bmeEnableAll := by
      simp [Dev.blockEnable, enableable, hst, hoff, stOff, stDraining]
    rw [heq]
    obtain ⟨hstate, hen'⟩ := Dev.bmeEnableAll_headers ((d.setEn .bme true).setState .bme stIdle)
    obtain ⟨h1, h2⟩ := Dev.showsBlk_setState _ (b := .bme) (st := stIdle) (by decide) hen
    exact Dev.ShowsBlk.settle_on ⟨hstate.trans h1, hen'.trans h2⟩ (.inl rfl)
  · have heq : d.blockEnable .tmb = ((d.setEn .tmb true).setState .tmb stIdle).ppsEnable
        ((d.setEn .tmb true).rdB Reg.TMB_CFG_pps_en) := by
      simp [Dev.blockEnable, enableable, hst, hoff, stOff, stDraining]
    have hset (x : Dev) (st : Nat) : Dev.HeadersKept x (x.setTmb st) := by
      unfold Dev.setTmb
      exact .trans (.ite (.reports (Dev.causeBit_reports _ _ _)) (.refl x)) (.wr _ Reg.TMB_STAT_state _)
    have hpps (x : Dev) (on : Bool) : Dev.HeadersKept x (x.ppsEnable on) := by
      unfold Dev.ppsEnable
      refine .trans (.wr _ Reg.TMB_CFG_pps_en _) (.ite ?_ (.ite (hset _ _) (.refl _)))
      exact .trans (.trans (.of_regs rfl) (hset _ _)) (.wr _ Reg.TMB_STAT_missed _)
    rw [heq]
    exact ((Dev.showsBlk_setState _ (by decide) hen).kept (hpps _ _)).settle_on (.inl rfl)
  · have heq : d.blockEnable .smc = ((d.setEn .smc true).setState .smc stActive).smcDrainStop := by
      simp [Dev.blockEnable, enableable, hst, hdrain, stOff, stDraining]
    have hstop (x : Dev) : Dev.HeadersKept x x.smcDrainStop := by
      unfold Dev.smcDrainStop
      exact .ite x.smcWalkFrom0_headers (.of_regs rfl)
    rw [heq]
    exact ((Dev.showsBlk_setState _ (by decide) hen).kept (hstop _)).settle_on (.inr rfl)
  · have heq : d.blockEnable .mnt = ((d.setEn .mnt true).setState .mnt stActive).mntResume := by
      simp [Dev.blockEnable, enableable, hst, hdrain, stOff, stDraining]
    rw [heq]
    exact ((Dev.showsBlk_setState _ (by decide) hen).kept (Dev.mntResume_headers _)).settle_on (.inr rfl)

end

/-! ### The end of draining -/

/-- A draining SMC with an empty waiting list is OFF once it has drained. -/
theorem Machine.Dev.smcDrained_off {d : Dev} (h : d.smc.waiting = []) : d.smcDrained.blkState .smc = stOff := by
  generalize hx : (if d.smc.invWalk then
      (if ((d.updSmc fun s => { s with invWalk := false, sets := [] }).causeBit .smc 17).smc.rekeyRunning then
        ((d.updSmc fun s => { s with invWalk := false, sets := [] }).causeBit .smc 17).keySwitch
      else (d.updSmc fun s => { s with invWalk := false, sets := [] }).causeBit .smc 17) else d) = x
  have hwait : x.smc.waiting = [] := by
    have hcause : ((d.updSmc fun s => { s with invWalk := false, sets := [] }).causeBit .smc 17).smc.waiting = [] := h
    rw [← hx]
    split
    · split
      · exact hcause
      · exact hcause
    · exact h
  have hoff : (x.setState .smc stOff).blkState .smc = stOff := x.setState_blkState_same .smc (by decide)
  have hretry (y : Dev) (hy : y.smc.waiting = []) : y.smcRetry = y.updSmc fun s => { s with waiting := [] } := by
    simp only [Dev.smcRetry, hy, forEach]
    rfl
  have hstate : (x.setState .smc stOff).smc = x.smc := by unfold Dev.setState; split <;> rfl
  have heq : d.smcDrained = (x.setState .smc stOff).smcRetry := by rw [← hx]; rfl
  rw [heq, hretry _ (by rw [hstate]; exact hwait)]
  exact hoff

theorem gives_blockDrainDone {b : Blk} {s : State} (hdrain : s.dev.blkState b = stDraining)
    (hb : b = .mnt ∨ (b = .bme ∧ s.dev.bmeOutstanding = false) ∨
      (b = .smc ∧ s.dev.smc.evict = [] ∧ s.dev.smc.regs = [] ∧ s.dev.smc.waiting = [] ∧ s.dev.smc.walkSet = none)) :
    Gives (.blockDrainDone b) s fun e => e.blkState b = stOff := by
  refine gives_of_exec_eq_act (f := fun d => d.drainDone b) rfl ?_
  have hoff : (s.dev.drainDone b).blkState b = stOff := by
    rcases hb with rfl | ⟨rfl, hout⟩ | ⟨rfl, hevict, hregs, hwait, hwalk⟩
    · simp only [Dev.drainDone, hdrain, ne_eq, not_true_eq_false, if_false]
      exact Dev.setState_blkState_same _ _ (by decide)
    · simp only [Dev.drainDone, hdrain, hout, ne_eq, not_true_eq_false, Bool.false_eq_true, if_false]
      exact Dev.setState_blkState_same _ _ (by decide)
    · simp only [Dev.drainDone, hdrain, hevict, hregs, hwalk, ne_eq, not_true_eq_false, and_self, if_false, if_true]
      exact Dev.smcDrained_off hwait
  exact (Dev.settle_blkState (by rw [hoff]; decide)).trans hoff

/-! ### Gating -/

namespace Machine

theorem Dev.Settles.parts {d e : Dev} (h : Dev.Settles d e) : e.hif.tags = d.hif.tags ∧ e.hif.waiting = d.hif.waiting ∧
    e.hif.fns = d.hif.fns ∧ e.qmx = d.qmx ∧ e.tmb = d.tmb ∧ e.bps = d.bps ∧ e.dram = d.dram ∧ e.smc = d.smc ∧
    e.ece = d.ece ∧ e.lay = d.lay ∧ e.mnt = d.mnt ∧ e.vlt = d.vlt ∧ e.ccx = d.ccx ∧ e.dpx = d.dpx := by
  rw [h.same]
  exact ⟨rfl, rfl, rfl, rfl, rfl, rfl, rfl, rfl, rfl, rfl, rfl, rfl, rfl, rfl⟩

/-- Whether a block holds work is not read from what the end of a command brings up to date, but for the timebase being OFF. -/
theorem Dev.Settles.working {d e : Dev} (h : Dev.Settles d e) (htmb : d.blkState .tmb = 0 ↔ e.blkState .tmb = 0) (b : Blk) :
    e.working b = d.working b := by
  obtain ⟨htags, hwaiting, hfns, hqmx, htb, hbps, hdram, hsmc, hece, hlay, hmnt, hvlt, hccx, hdpx⟩ := h.parts
  have hrd (f : Fld) (hf : stateKey f.key = false := by decide) : e.rd f = d.rd f := h.fields f hf
  have hst : e.rd (Reg.BLK_STAT_state.ix Blk.tmb.page) = 0 ↔ d.rd (Reg.BLK_STAT_state.ix Blk.tmb.page) = 0 := htmb.symm
  cases b with
  | sys => simp only [Dev.working, hrd (Reg.BLK_STAT_specific.ix 0)]
  | hif => simp only [Dev.working, htags, hwaiting, hfns]
  | qmx => simp only [Dev.working, hqmx]
  | tmb => simp only [Dev.working, hrd Reg.TMB_STAT_state, htb, ne_eq, hst]
  | bps => simp only [Dev.working, hrd Reg.BPS_CHG_STAT_state, hrd Reg.BPS_LEARN_STAT_phase, hbps, Dev.rdB,
      hrd Reg.BPS_CAL_STAT_running, hrd Reg.BPS_PARAM_pending]
  | pwc => simp only [Dev.working, hdram]
  | smc => simp only [Dev.working, hsmc]
  | ece => simp only [Dev.working, hece]
  | lay => simp only [Dev.working, hlay, hdram]
  | mnt => simp only [Dev.working, hmnt]
  | vlt => simp only [Dev.working, hvlt, Dev.rdB, hrd Reg.VLT_STAT_erasing]
  | bme =>
    have hchan : ∀ c ∈ List.range 8, e.rd (Reg.BME_CH_STAT_state.ix c) = d.rd (Reg.BME_CH_STAT_state.ix c) := fun c hc =>
      h.fields _ ((by decide : ∀ c < 8, stateKey (Reg.BME_CH_STAT_state.ix c).key = false) c (List.mem_range.1 hc))
    simp only [Dev.working]
    rw [Bool.eq_iff_iff, List.any_eq_true, List.any_eq_true]
    exact exists_congr fun c => and_congr_right fun hc => by rw [hchan c hc]
  | ccx => simp only [Dev.working, hccx]
  | dpx => simp only [Dev.working, hdpx]

/-- Showing a block's state leaves whether any block is OFF. -/
theorem Dev.showState_off (d : Dev) (a b : Blk) : d.blkState a = 0 ↔ (d.showState b).blkState a = 0 := by
  have hw := (d.wokenFor_woken b).blkState a
  rw [Dev.showState_eq]
  by_cases hab : a = b
  · subst hab
    by_cases hon : (d.wokenFor a).blkState a = stIdle ∨ (d.wokenFor a).blkState a = stActive
    · rw [if_pos hon, ← hw]
      have hne : (d.wokenFor a).blkState a ≠ 0 := by rcases hon with h | h <;> rw [h] <;> decide
      refine iff_of_false hne ?_
      split
      · rw [Dev.setState_blkState_same _ _ (by decide)]; decide
      · rw [Dev.setState_blkState_same _ _ (by decide)]; decide
    · rw [if_neg hon, hw]
  · split
    · rw [Dev.setState_blkState_other _ _ _ _ hab, hw]
    · rw [hw]

theorem Dev.rd_pstate_setState (d : Dev) (a b : Blk) (st : Nat) :
    (d.setState a st).rd (Reg.BLK_POWER_pstate.ix b.page) = d.rd (Reg.BLK_POWER_pstate.ix b.page) := by
  unfold Dev.setState
  split
  · rfl
  · exact (Dev.cause_rd _ _ _ _).trans (Dev.rd_wr_other _ _ _ _ (by cases a <;> cases b <;> decide))

theorem Dev.rd_pstate_ungate (d : Dev) {a b : Blk} (h : a ≠ b) :
    (d.ungate a).rd (Reg.BLK_POWER_pstate.ix b.page) = d.rd (Reg.BLK_POWER_pstate.ix b.page) := by
  unfold Dev.ungate
  split
  · rfl
  · exact Dev.rd_wr_other _ _ _ _ (by revert h; cases a <;> cases b <;> decide)

/-- A block without work keeps its power state when a command ends (R37). -/
theorem Dev.settle_pstate {d : Dev} {b : Blk} (h : d.working b = false) :
    d.settle.rd (Reg.BLK_POWER_pstate.ix b.page) = d.rd (Reg.BLK_POWER_pstate.ix b.page) := by
  refine (Dev.settle_induct (P := fun e => e.working b = false ∧
    e.rd (Reg.BLK_POWER_pstate.ix b.page) = d.rd (Reg.BLK_POWER_pstate.ix b.page)) (fun e a he => ?_) (fun e he => ?_)
    (fun e he => ?_) ⟨h, rfl⟩).2
  · obtain ⟨hwork, hp⟩ := he
    refine ⟨(Dev.Settles.working (e.showState_settles a) (e.showState_off .tmb a) b).trans hwork, ?_⟩
    have hwoken : (e.wokenFor a).rd (Reg.BLK_POWER_pstate.ix b.page) = e.rd (Reg.BLK_POWER_pstate.ix b.page) := by
      unfold Dev.wokenFor
      by_cases hab : a = b
      · rw [hab, hwork]
        rfl
      · split
        · exact e.rd_pstate_ungate hab
        · rfl
    rw [Dev.showState_eq]
    split
    · rw [Dev.rd_pstate_setState, hwoken, hp]
    · rw [hwoken, hp]
  · obtain ⟨hwork, hp⟩ := he
    have hst : e.blkState .tmb = 0 ↔ e.showLtr.blkState .tmb = 0 := by
      rw [Dev.blkState, Dev.blkState, Dev.rd_of_regs e.showLtr_regs]
    exact ⟨(Dev.Settles.working e.showLtr_settles hst b).trans hwork, (Dev.rd_of_regs e.showLtr_regs _).trans hp⟩
  · obtain ⟨hwork, hp⟩ := he
    have hst : e.blkState .tmb = 0 ↔ e.showSum.blkState .tmb = 0 := by
      rw [Dev.blkState, Dev.blkState, Dev.rd_of_regs e.showSum_regs]
    exact ⟨(Dev.Settles.working e.showSum_settles hst b).trans hwork, (Dev.rd_of_regs e.showSum_regs _).trans hp⟩

end Machine

theorem gives_clockGate {b : Blk} {s : State} (hwork : s.dev.working b = false)
    (hhold : s.dev.rd (Reg.BLK_CTRL_clk_hold.ix b.page) = 0) (hidle : s.dev.rd (Reg.BLK_POWER_idle_us.ix b.page) ≠ 0)
    (hdomain : s.dev.pstate b ≠ 2) : Gives (.clockGate b) s fun e =>
      e.rd (Reg.BLK_POWER_pstate.ix b.page) = 1 ∧ OnlyFields s.dev e [] := by
  refine gives_of_exec_eq_act (f := fun d => d.clockGate b) rfl ?_
  have heq : s.dev.clockGate b = s.dev.wr (Reg.BLK_POWER_pstate.ix b.page) 1 := by
    simp only [Dev.clockGate, hwork, Dev.rdB, hhold, hidle, hdomain, ne_eq, not_true_eq_false, decide_false, Bool.or_self,
      Bool.false_eq_true, if_false]
  simp only [heq]
  have hother (f : Fld) (hf : stateKey f.key = false) : (s.dev.wr (Reg.BLK_POWER_pstate.ix b.page) 1).rd f = s.dev.rd f :=
    Dev.rd_wr_other _ _ _ _ fun hk => by
      rw [hk, stateKey_of_pstateKey (pstateKey_pstate b)] at hf
      exact absurd hf (by decide)
  have hsettles : Dev.Settles s.dev (s.dev.wr (Reg.BLK_POWER_pstate.ix b.page) 1) := ⟨rfl, List.suffix_rfl, hother⟩
  have hoff : s.dev.blkState .tmb = 0 ↔ (s.dev.wr (Reg.BLK_POWER_pstate.ix b.page) 1).blkState .tmb = 0 := by
    rw [show (s.dev.wr (Reg.BLK_POWER_pstate.ix b.page) 1).blkState .tmb = s.dev.blkState .tmb from
      Dev.rd_wr_other _ _ _ _ (by cases b <;> decide)]
  refine ⟨?_, fun f _ hf => (Dev.settle_rd _ _ hf).trans (hother f hf)⟩
  rw [Dev.settle_pstate ((hsettles.working hoff b).trans hwork), Dev.rd_wr_same, Fld.ix_width]
  rfl

/-- Settles O14, by what enabling, disabling and draining write into a block's header, which everything else they do leaves
alone. -/
theorem blockEnableAndDrain : Obligations.BlockEnableAndDrain := fun _ _ =>
  ⟨gives_blockDisable_drains, gives_blockDisable_tmb, gives_blockDisable_fixed, gives_blockEnable, gives_blockDrainDone,
    gives_clockGate⟩

end Sys2Proof
end

section
/-! The battery's shared operations: inhibition causes, Halo's causes and mode, alarms (R265 to R280, R285): what each
writes, and what it leaves of the pack's record. -/

set_option Elab.async false

namespace Sys2Proof

open Sys2Proof.Machine

/-! ### Bits -/

theorem and_add_ldiff (x : Nat) : ∀ m, (x &&& m) + Nat.ldiff x m = x := by
  induction x using Nat.binaryRec' with
  | zero => intro m; simp [Nat.ldiff]
  | bit b n hb ih =>
    intro m
    obtain ⟨c, k, rfl⟩ : ∃ c k, m = Nat.bit c k := ⟨_, _, (Nat.bit_bodd_div2 m).symm⟩
    rw [Nat.land_bit, Nat.ldiff_bit]
    have := ih k
    cases b <;> cases c <;> simp [Nat.bit_val] <;> omega

/-- Taking away the bits of a mask that are set clears those bits and no others. -/
theorem bitOf_sub_and (x m i : Nat) : bitOf (x - (x &&& m)) i = (bitOf x i && !m.testBit i) := by
  have h : x - (x &&& m) = Nat.ldiff x m := by have := and_add_ldiff x m; omega
  rw [bitOf_eq_testBit, bitOf_eq_testBit, h, Nat.testBit_ldiff]

theorem bitOf_mod {n i : Nat} (v : Nat) (hi : i < n) : bitOf (v % 2 ^ n) i = bitOf v i := by
  rw [bitOf_eq_testBit, bitOf_eq_testBit, Nat.testBit_mod_two_pow]
  simp [hi]

namespace Machine

/-! ### Causes and messages are not taken back -/

/-- No cause is taken back from d to e, and nothing sent is unsent. -/
structure Dev.Grows (d e : Dev) : Prop where
  causes : Dev.CausesGrow d e
  sent : d.emitted <:+ e.emitted

namespace Dev.Grows

variable {a b c d e : Dev}

theorem refl (d : Dev) : Dev.Grows d d := ⟨.refl d, List.suffix_rfl⟩

theorem trans (h : Dev.Grows a b) (k : Dev.Grows b c) : Dev.Grows a c := ⟨h.causes.trans k.causes, h.sent.trans k.sent⟩

theorem ite {p : Prop} [Decidable p] (h : Dev.Grows d a) (k : Dev.Grows d b) : Dev.Grows d (if p then a else b) := by
  split <;> assumption

theorem forEach {α : Type} (f : α → Dev → Dev) (h : ∀ x d, Dev.Grows d (f x d)) (xs : List α) :
    ∀ d, Dev.Grows d (forEach xs f d) := by
  induction xs with
  | nil => exact .refl
  | cons x xs ih => exact fun d => (h x d).trans (ih _)

/-- What changes neither the headers' causes nor what was sent. -/
theorem same (hn : e.nt = d.nt) (hs : e.emitted = d.emitted) : Dev.Grows d e :=
  ⟨.of_blks (by rw [hn]), by rw [hs]⟩

theorem raised (h : Dev.Grows d e) {b : Blk} {i : Nat} (hr : Raised d b i) : Raised e b i := h.causes.grow b i hr

theorem mem (h : Dev.Grows d e) {x : Emit} (hx : x ∈ d.emitted) : x ∈ e.emitted := h.sent.subset hx

end Dev.Grows

theorem Dev.settle_grows (d : Dev) : Dev.Grows d d.settle := ⟨d.settle_grow, d.settle_sent⟩
theorem Dev.wr_grows (d : Dev) (f : Fld) (v : Nat) : Dev.Grows d (d.wr f v) := .same rfl rfl
theorem Dev.updBps_grows (d : Dev) (g : BpsState → BpsState) : Dev.Grows d (d.updBps g) := .same rfl rfl
theorem Dev.setSys_grows (d : Dev) (x : SysState) : Dev.Grows d { d with sys := x } := .same rfl rfl
theorem Dev.emit_grows (d : Dev) (x : Emit) : Dev.Grows d (d.emit x) := ⟨d.emit_grow x, (d.emit_reports x).sent⟩
theorem Dev.causeBit_grows (d : Dev) (b : Blk) (i : Nat) : Dev.Grows d (d.causeBit b i) :=
  ⟨d.causeBit_grow b i, (d.causeBit_reports b i).sent⟩
theorem Dev.errCorr_grows (d : Dev) (b : Blk) (c : Nat) : Dev.Grows d (d.errCorr b c) :=
  ⟨d.errCorr_grow b c, (d.errCorr_reports b c).sent⟩
theorem Dev.errUncorr_grows (d : Dev) (b : Blk) (c : Nat) : Dev.Grows d (d.errUncorr b c) :=
  ⟨d.errUncorr_grow b c, (d.errUncorr_reports b c).sent⟩
theorem Dev.post_grows (d : Dev) (a b c e f g h : Nat) : Dev.Grows d (d.post a b c e f g h) :=
  ⟨d.post_grow a b c e f g h, (d.post_reports a b c e f g h).sent⟩

theorem Dev.refreshMode_grows (d : Dev) : Dev.Grows d d.refreshMode :=
  .ite ((d.wr_grows _ _).trans (Dev.causeBit_grows _ _ _)) (d.wr_grows _ _)

theorem Dev.announceCeiling_grows (d : Dev) (old new term : Nat) : Dev.Grows d (d.announceCeiling old new term) := by
  have announced (x : PwcState) (rep : Nat) : Dev.Grows d
      ((({ d with pwc := x } : Dev).causeBit .pwc 16).post 0x30 1 new rep term 0) :=
    ((Dev.Grows.same (d := d) (e := { d with pwc := x }) rfl rfl).trans (Dev.causeBit_grows _ _ _)).trans
      (Dev.post_grows _ _ _ _ _ _ _ _)
  exact .ite (.trans (.ite (announced _ _) (.refl d)) (Dev.causeBit_grows _ _ _)) (.ite (announced _ _) (.refl d))

theorem Dev.recompute_grows (d : Dev) : Dev.Grows d d.recompute := by
  rw [d.recompute_eq]
  exact ((Dev.Grows.same (d := d) (e := d.showCeiling) rfl rfl).trans (Dev.announceCeiling_grows _ _ _ _)).trans
    (Dev.refreshMode_grows _)

theorem Dev.setDuty_grows (d : Dev) (v : Nat) : Dev.Grows d (d.setDuty v) :=
  .ite (.refl d) ((d.wr_grows _ _).trans (Dev.emit_grows _ _))

theorem Dev.setInhibit_grows (d : Dev) (bit : Nat) (on : Bool) : Dev.Grows d (d.setInhibit bit on) := by
  unfold Dev.setInhibit
  extract_lets old new e
  have he : Dev.Grows d e := d.wr_grows _ _
  refine .ite ?_ (.ite (he.trans (Dev.wr_grows _ _ _)) he)
  exact ((he.trans (Dev.setDuty_grows _ _)).trans (Dev.wr_grows _ _ _)).trans (Dev.updBps_grows _ _)

theorem Dev.setDsg_grows (d : Dev) (on : Bool) : Dev.Grows d (d.setDsg on) :=
  .ite (.refl d) ((d.setSys_grows _).trans (Dev.emit_grows _ _))

theorem Dev.setLoadPin_grows (d : Dev) (on : Bool) : Dev.Grows d (d.setLoadPin on) :=
  .ite (.refl d) ((d.setSys_grows _).trans (Dev.emit_grows _ _))

theorem Dev.learnResult_grows (d : Dev) (result mah reason : Nat) : Dev.Grows d (d.learnResult result mah reason) :=
  (((d.wr_grows _ _).trans (Dev.wr_grows _ _ _)).trans (Dev.causeBit_grows _ _ _)).trans (Dev.post_grows _ _ _ _ _ _ _ _)

theorem Dev.learnStop_grows (d : Dev) (reason : Nat) : Dev.Grows d (d.learnStop reason) := by
  unfold Dev.learnStop
  refine .ite (.trans (.trans (.trans (.trans (d.setDsg_grows _) (Dev.wr_grows _ _ _)) (Dev.updBps_grows _ _))
    (Dev.learnResult_grows _ _ _ _)) (Dev.setInhibit_grows _ _ _)) (.refl d)

theorem Dev.refreshHalo_grows (d : Dev) : Dev.Grows d d.refreshHalo := by
  have shown (m : Nat) : Dev.Grows d ((d.wr Reg.BPS_HALO_STAT_mode m).causeBit .bps 18) :=
    (d.wr_grows _ _).trans (Dev.causeBit_grows _ _ _)
  exact .ite (.refl d) (.ite ((shown _).trans (Dev.recompute_grows _)) (shown _))

theorem Dev.setHaloCause_grows (d : Dev) (bit : Nat) : Dev.Grows d (d.setHaloCause bit) := by
  unfold Dev.setHaloCause
  exact .trans (.ite ((d.wr_grows _ _).trans (Dev.updBps_grows _ _)) (d.wr_grows _ _)) (Dev.refreshHalo_grows _)

theorem Dev.clearHaloCauses_grows (d : Dev) (mask : Nat) : Dev.Grows d (d.clearHaloCauses mask) :=
  (d.wr_grows _ _).trans (Dev.refreshHalo_grows _)

theorem Dev.alarm_grows (d : Dev) (reason : Nat) : Dev.Grows d (d.alarm reason) := by
  have noted (x : BpsState) : Dev.Grows d { d with bps := x } := .same rfl rfl
  unfold Dev.alarm
  exact .ite (.refl d) (.ite (noted _) (((noted _).trans (Dev.causeBit_grows _ _ _)).trans (Dev.post_grows _ _ _ _ _ _ _ _)))

theorem Dev.alarmEnd_grows (d : Dev) (reason : Nat) : Dev.Grows d (d.alarmEnd reason) := .ite (.same rfl rfl) (.refl d)

theorem Dev.alarmIf_grows (d : Dev) (reason : Nat) (on : Bool) : Dev.Grows d (d.alarmIf reason on) :=
  .ite (d.alarm_grows reason) (d.alarmEnd_grows reason)

/-! ### What is left of the pack's record -/

/-- Of BPS's state beside its registers, at most the current loop's memory, the alarms and the timing of a learn cycle
change. -/
def Dev.PackKept (d e : Dev) : Prop :=
  e.bps = { d.bps with
    ePrev := e.bps.ePrev, iSet := e.bps.iSet, alarmOn := e.bps.alarmOn, alarms := e.bps.alarms
    learnTick := e.bps.learnTick, phaseTick := e.bps.phaseTick, dsgDuty := e.bps.dsgDuty, dsgPrev := e.bps.dsgPrev }

namespace Dev.PackKept

variable {a b c d e : Dev}

theorem of_bps (h : e.bps = d.bps) : Dev.PackKept d e := by unfold Dev.PackKept; rw [h]

theorem refl (d : Dev) : Dev.PackKept d d := .of_bps rfl

theorem trans (h : Dev.PackKept a b) (k : Dev.PackKept b c) : Dev.PackKept a c := by
  unfold Dev.PackKept at h k ⊢
  rw [h] at k
  exact k

theorem ite {p : Prop} [Decidable p] (h : Dev.PackKept d a) (k : Dev.PackKept d b) :
    Dev.PackKept d (if p then a else b) := by split <;> assumption

/-- Any figure of the record that does not depend on what changes. -/
theorem get {α : Type} (h : Dev.PackKept d e) (f : BpsState → α)
    (hf : ∀ (x : BpsState) (p i : Int) (on : List Nat) (al : Tbl Nat) (l ph : Nat) (u v : Int),
      f { x with ePrev := p, iSet := i, alarmOn := on, alarms := al, learnTick := l, phaseTick := ph, dsgDuty := u, dsgPrev := v } =
        f x := by intros; rfl) : f e.bps = f d.bps := by
  unfold Dev.PackKept at h
  rw [h]
  exact hf _ _ _ _ _ _ _ _ _

theorem batt (h : Dev.PackKept d e) : e.batt = d.batt :=
  h.get fun x => match x.bcal with | some c => if c.crcOk then x.batt.filter BattProfile.ok else none | none => none

theorem cells (h : Dev.PackKept d e) : e.cells = d.cells :=
  h.get fun x => match x.batt with | some b => b.n | none => 0

theorem sample (h : Dev.PackKept d e) : e.bps.sample = d.bps.sample := h.get BpsState.sample

theorem tPack (h : Dev.PackKept d e) : e.tPack = d.tPack :=
  h.get fun b => if b.ntc0Bad then b.sample.ntc1 else if b.ntc1Bad then b.sample.ntc0 else min b.sample.ntc0 b.sample.ntc1

theorem cellList (h : Dev.PackKept d e) : e.cellList = d.cellList := by
  unfold Dev.cellList
  rw [h.sample, h.cells]

theorem cellLow (h : Dev.PackKept d e) : e.cellLow = d.cellLow := by unfold Dev.cellLow; rw [h.cellList]

theorem cellHigh (h : Dev.PackKept d e) : e.cellHigh = d.cellHigh := by unfold Dev.cellHigh; rw [h.cellList]

theorem duskProfile (h : Dev.PackKept d e) : e.duskProfile = d.duskProfile := h.get fun x => x.dusk.filter duskOk

/-- The causes that start the filter from the lowest cell's OCV start it from the pack's record alone. -/
theorem filterEntry (h : Dev.PackKept d e) {bit : Nat} (hbit : bit = 0 ∨ bit = 3 ∨ bit = 5) :
    e.filterEntry bit = d.filterEntry bit := by
  unfold Dev.filterEntry
  rw [if_pos hbit, if_pos hbit, h.batt, h.cellLow, h.tPack]

end Dev.PackKept

theorem Dev.Reports.packKept {d e : Dev} (h : Dev.Reports d e) : Dev.PackKept d e := .of_bps (by rw [h.same])

theorem Dev.Woken.packKept {d e : Dev} (h : Dev.Woken d e) : Dev.PackKept d e := .of_bps (by rw [h.same])

theorem Dev.recompute_bps (d : Dev) : d.recompute.bps = d.bps := d.recompute_frame.part .bps

theorem Dev.refreshHalo_bps (d : Dev) : d.refreshHalo.bps = d.bps := by
  have shown (m : Nat) : ((d.wr Reg.BPS_HALO_STAT_mode m).causeBit .bps 18).bps = d.bps := by
    rw [(Dev.causeBit_reports (d.wr Reg.BPS_HALO_STAT_mode m) .bps 18).same]
    rfl
  unfold Dev.refreshHalo
  dsimp only
  split
  · rfl
  · split
    · exact (Dev.recompute_bps _).trans (shown _)
    · exact shown _

theorem Dev.settle_bps (d : Dev) : d.settle.bps = d.bps := ((Frame.refl d [] []).settle).part .bps

theorem Dev.setDuty_bps (d : Dev) (v : Nat) : (d.setDuty v).bps = d.bps := (d.setDuty_frame v).part .bps

theorem Dev.setInhibit_kept (d : Dev) (bit : Nat) (on : Bool) : Dev.PackKept d (d.setInhibit bit on) := by
  unfold Dev.setInhibit
  extract_lets old new e
  have he : Dev.PackKept d e := .of_bps rfl
  refine .ite ?_ (.ite (he.trans (.of_bps rfl)) he)
  exact (he.trans (.of_bps (Dev.setDuty_bps _ _))).trans rfl

theorem Dev.alarm_kept (d : Dev) (reason : Nat) : Dev.PackKept d (d.alarm reason) := by
  unfold Dev.alarm
  extract_lets recent e
  have he : Dev.PackKept d e := rfl
  exact .ite (.refl d) (.ite he ((he.trans (Dev.causeBit_reports _ _ _).packKept).trans (Dev.post_reports _ _ _ _ _ _ _ _).packKept))

theorem Dev.alarmEnd_kept (d : Dev) (reason : Nat) : Dev.PackKept d (d.alarmEnd reason) := .ite rfl (.refl d)

theorem Dev.alarmIf_kept (d : Dev) (reason : Nat) (on : Bool) : Dev.PackKept d (d.alarmIf reason on) :=
  .ite (d.alarm_kept reason) (d.alarmEnd_kept reason)

theorem Dev.learnStop_kept (d : Dev) (reason : Nat) : Dev.PackKept d (d.learnStop reason) := by
  unfold Dev.learnStop
  refine .ite ?_ (.refl d)
  extract_lets e f t g
  have he : e.bps = d.bps := (d.setDsg_frame false).part .bps
  have hg : Dev.PackKept d g := .trans (.of_bps he) rfl
  have hresult : Dev.PackKept g (g.learnResult 3 0 reason) :=
    .of_bps ((g.learnResult_frame 3 0 reason).part .bps)
  exact (hg.trans hresult).trans (Dev.setInhibit_kept _ _ _)

/-! ### Inhibition causes -/

/-- The inhibition causes with one set or cleared. -/
def inhibitMask (old bit : Nat) (on : Bool) : Nat :=
  if on then old ||| 2 ^ bit else old - (if bitOf old bit then 2 ^ bit else 0)

theorem bitOf_inhibitMask (old bit : Nat) (on : Bool) (i : Nat) :
    bitOf (inhibitMask old bit on) i = if i = bit then on else bitOf old i := by
  unfold inhibitMask
  cases on with
  | true =>
    rw [if_pos rfl, bitOf_eq_testBit, bitOf_eq_testBit, Nat.testBit_or, Nat.testBit_two_pow]
    by_cases h : i = bit
    · simp [h]
    · simp [h, Ne.symm h]
  | false =>
    have hmask : (if bitOf old bit = true then 2 ^ bit else 0) = old &&& 2 ^ bit := by
      rw [Nat.and_two_pow, bitOf_eq_testBit]
      cases old.testBit bit <;> simp
    rw [if_neg (by decide), hmask, bitOf_sub_and, Nat.testBit_two_pow]
    by_cases h : i = bit
    · simp [h]
    · simp [h, Ne.symm h]

theorem inhibitMask_on_ne_zero (old bit : Nat) : inhibitMask old bit true ≠ 0 := fun h => by
  have hbit := bitOf_inhibitMask old bit true bit
  rw [h, if_pos rfl, bitOf_eq_testBit, Nat.zero_testBit] at hbit
  exact absurd hbit (by decide)

theorem Dev.setInhibit_inhibit (d : Dev) (bit : Nat) (on : Bool) : (d.setInhibit bit on).rd Reg.BPS_CHG_STAT_inhibit =
    inhibitMask (d.rd Reg.BPS_CHG_STAT_inhibit) bit on % 2 ^ 8 := by
  have hshown (e : Dev) (h : Frame (d.wr Reg.BPS_CHG_STAT_inhibit (inhibitMask (d.rd Reg.BPS_CHG_STAT_inhibit) bit on)) e
      [Reg.BPS_CHG_STAT_duty, Reg.BPS_CHG_STAT_state] [.bps]) : e.rd Reg.BPS_CHG_STAT_inhibit =
      inhibitMask (d.rd Reg.BPS_CHG_STAT_inhibit) bit on % 2 ^ 8 := (h.rd _).trans (Dev.rd_wr_same _ _ _)
  refine hshown _ ?_
  unfold Dev.setInhibit
  exact .ite ((((Frame.refl _ _ _).setDuty 0).wr _ _).setBps _) (.ite ((Frame.refl _ _ _).wr _ _) (.refl _ _ _))

theorem Dev.bitOf_setInhibit (d : Dev) (bit : Nat) (on : Bool) {i : Nat} (hi : i < 8) :
    bitOf ((d.setInhibit bit on).rd Reg.BPS_CHG_STAT_inhibit) i =
      if i = bit then on else bitOf (d.rd Reg.BPS_CHG_STAT_inhibit) i := by
  rw [d.setInhibit_inhibit, bitOf_mod _ hi, bitOf_inhibitMask]

theorem Dev.setDuty_duty (d : Dev) {v : Nat} (hv : v < 2 ^ 16) : (d.setDuty v).rd Reg.BPS_CHG_STAT_duty = v := by
  unfold Dev.setDuty
  split
  · assumption
  · exact (((Dev.emit_reports _ _).rd _).trans (Dev.rd_wr_same _ _ _)).trans (Nat.mod_eq_of_lt hv)

theorem Dev.setInhibit_eq_of_ne_zero (d : Dev) (bit : Nat) (on : Bool)
    (h : inhibitMask (d.rd Reg.BPS_CHG_STAT_inhibit) bit on ≠ 0) : d.setInhibit bit on =
    ((((d.wr Reg.BPS_CHG_STAT_inhibit (inhibitMask (d.rd Reg.BPS_CHG_STAT_inhibit) bit on)).setDuty 0).wr
      Reg.BPS_CHG_STAT_state chInhibited).updBps fun b => { b with
        ePrev := 0, iSet := (d.wr Reg.BPS_CHG_STAT_inhibit (inhibitMask (d.rd Reg.BPS_CHG_STAT_inhibit) bit on)).iChg }) := by
  unfold Dev.setInhibit
  exact if_pos h

/-- An inhibited charger has duty 0. -/
theorem Dev.setInhibit_duty (d : Dev) (bit : Nat) : (d.setInhibit bit true).rd Reg.BPS_CHG_STAT_duty = 0 := by
  rw [d.setInhibit_eq_of_ne_zero bit true (inhibitMask_on_ne_zero _ _)]
  generalize d.wr Reg.BPS_CHG_STAT_inhibit _ = e
  have hduty : ((e.setDuty 0).wr Reg.BPS_CHG_STAT_state chInhibited).rd Reg.BPS_CHG_STAT_duty = 0 :=
    (Dev.rd_wr_other _ _ Reg.BPS_CHG_STAT_duty _ (by decide)).trans (e.setDuty_duty (v := 0) (by decide))
  exact hduty

/-- When the last cause clears, charging restarts in CC. -/
theorem Dev.setInhibit_restart (d : Dev) {bit : Nat} (h : d.rd Reg.BPS_CHG_STAT_inhibit = 2 ^ bit) :
    (d.setInhibit bit false).rd Reg.BPS_CHG_STAT_state = chCc := by
  have hclear : inhibitMask (2 ^ bit) bit false = 0 := by
    have hbit : bitOf (2 ^ bit) bit = true := by rw [bitOf_eq_testBit, Nat.testBit_two_pow_self]
    unfold inhibitMask
    rw [if_neg (by decide), hbit, if_pos rfl, Nat.sub_self]
  have heq : d.setInhibit bit false = (d.wr Reg.BPS_CHG_STAT_inhibit 0).wr Reg.BPS_CHG_STAT_state chCc := by
    unfold Dev.setInhibit
    rw [h]
    have hne : (2 : Nat) ^ bit ≠ 0 := by positivity
    exact (if_neg (by rw [← inhibitMask, hclear]; decide)).trans ((if_pos hne).trans (by rw [← inhibitMask, hclear]))
  rw [heq]
  exact Dev.rd_wr_same _ _ _

/-! ### Halo's causes and mode -/

theorem Dev.haloMode_congr {d e : Dev} (h : Dev.PackKept d e) (hpack : e.rd Reg.BPS_PACK_present = d.rd Reg.BPS_PACK_present)
    (h0 : e.rd Reg.BPS_ADC_adc0_ok = d.rd Reg.BPS_ADC_adc0_ok) (h1 : e.rd Reg.BPS_ADC_adc1_ok = d.rd Reg.BPS_ADC_adc1_ok)
    (hcauses : e.rd Reg.BPS_HALO_STAT_causes = d.rd Reg.BPS_HALO_STAT_causes) : e.haloMode = d.haloMode := by
  have hfirst : e.bps.firstSecond = d.bps.firstSecond := h.get BpsState.firstSecond
  have hbad0 : e.bps.ntc0Bad = d.bps.ntc0Bad := h.get BpsState.ntc0Bad
  have hbad1 : e.bps.ntc1Bad = d.bps.ntc1Bad := h.get BpsState.ntc1Bad
  unfold Dev.haloMode Dev.packHere Dev.anyAdc Dev.adcOk Dev.inFilter Dev.rdB
  rw [h.batt, hfirst, hbad0, hbad1, hpack, h0, h1, hcauses]

theorem Dev.haloMode_le (d : Dev) : d.haloMode ≤ 2 := by
  unfold Dev.haloMode
  split
  · decide
  · split <;> decide

/-- The mode shown is the one that R269 and R277 give. -/
theorem Dev.refreshHalo_mode (d : Dev) : d.refreshHalo.rd Reg.BPS_HALO_STAT_mode = d.haloMode := by
  have hlt : d.haloMode % 2 ^ 2 = d.haloMode := Nat.mod_eq_of_lt (by have := d.haloMode_le; omega)
  have shown (m : Nat) : ((d.wr Reg.BPS_HALO_STAT_mode m).causeBit .bps 18).rd Reg.BPS_HALO_STAT_mode = m % 2 ^ 2 :=
    ((Dev.causeBit_reports _ _ _).rd _).trans (Dev.rd_wr_same _ _ _)
  unfold Dev.refreshHalo
  dsimp only
  split
  · next h => exact h.symm
  · split
    · exact (((Dev.recompute_frame _).rd _).trans (shown _)).trans hlt
    · exact (shown _).trans hlt

theorem Dev.refreshHalo_causes (d : Dev) : d.refreshHalo.rd Reg.BPS_HALO_STAT_causes = d.rd Reg.BPS_HALO_STAT_causes := by
  have shown (m : Nat) : ((d.wr Reg.BPS_HALO_STAT_mode m).causeBit .bps 18).rd Reg.BPS_HALO_STAT_causes =
      d.rd Reg.BPS_HALO_STAT_causes :=
    ((Dev.causeBit_reports _ _ _).rd _).trans (Dev.rd_wr_other _ _ _ _ (by decide))
  unfold Dev.refreshHalo
  dsimp only
  split
  · rfl
  · split
    · exact ((Dev.recompute_frame _).rd _).trans (shown _)
    · exact shown _

theorem Dev.setHaloCause_causes (d : Dev) (bit : Nat) : (d.setHaloCause bit).rd Reg.BPS_HALO_STAT_causes =
    (d.rd Reg.BPS_HALO_STAT_causes ||| 2 ^ bit) % 2 ^ 7 := by
  unfold Dev.setHaloCause
  extract_lets old f start e
  have he : e.rd Reg.BPS_HALO_STAT_causes = (old ||| 2 ^ bit) % 2 ^ 7 := Dev.rd_wr_same _ _ _
  rw [Dev.refreshHalo_causes]
  split
  · exact he
  · exact he

/-- A cause that is set is shown. -/
theorem Dev.setHaloCause_bit (d : Dev) {bit : Nat} (h : bit < 7) :
    bitOf ((d.setHaloCause bit).rd Reg.BPS_HALO_STAT_causes) bit = true := by
  rw [d.setHaloCause_causes, bitOf_or_mod _ _ _ _ h, Nat.testBit_two_pow_self, Bool.or_true]

theorem Dev.clearHaloCauses_bit (d : Dev) (mask : Nat) {i : Nat} (hi : i < 7) (hm : mask.testBit i = true) :
    bitOf ((d.clearHaloCauses mask).rd Reg.BPS_HALO_STAT_causes) i = false := by
  unfold Dev.clearHaloCauses
  rw [Dev.refreshHalo_causes, Dev.rd_wr_same]
  rw [show Reg.BPS_HALO_STAT_causes.width = 7 from rfl, bitOf_mod _ hi, bitOf_sub_and, hm]
  simp

/-- A cause that starts the filter from OCV restarts it. -/
theorem Dev.setHaloCause_bps (d : Dev) {bit : Nat} (h : bit = 0 ∨ bit = 3 ∨ bit = 5) :
    (d.setHaloCause bit).bps = { d.bps with filt := d.filterEntry bit } := by
  unfold Dev.setHaloCause
  extract_lets old f start e
  have hs : start = true := by
    dsimp only [start]
    rcases h with rfl | rfl | rfl <;> simp
  rw [Dev.refreshHalo_bps, if_pos hs]
  rfl

end Machine

end Sys2Proof
end

section
/-! The pack, its temperatures and the charger (R262 to R268). -/

set_option Elab.async false

namespace Sys2Proof

open Sys2Proof.Machine

/-- What a learn cycle's disqualification shows of it. -/
def learnShown : List Fld := [Reg.BPS_LEARN_STAT_phase, Reg.BPS_LEARN_STAT_result, Reg.BPS_LEARN_STAT_reason]

/-- A learn cycle in phases 1 to 4 is disqualified with a reason (R280). -/
def Machine.Dev.Disqualified (d e : Dev) (reason : Nat) : Prop :=
  1 ≤ d.learnPhaseNo ∧ d.learnPhaseNo ≤ 4 → e.learnPhaseNo = 5 ∧ e.rd Reg.BPS_LEARN_STAT_result = 3 ∧
    e.rd Reg.BPS_LEARN_STAT_reason = reason ∧ Raised e .bps 17

namespace Machine

theorem Dev.learnResult_shows (d : Dev) {result reason : Nat} (mah : Nat) (hresult : result < 2 ^ 2) (hreason : reason < 2 ^ 4) :
    (d.learnResult result mah reason).rd Reg.BPS_LEARN_STAT_result = result ∧
    (d.learnResult result mah reason).rd Reg.BPS_LEARN_STAT_reason = reason ∧
    Raised (d.learnResult result mah reason) .bps 17 := by
  have hposted (f : Fld) : (d.learnResult result mah reason).rd f =
      ((d.wr Reg.BPS_LEARN_STAT_result result).wr Reg.BPS_LEARN_STAT_reason reason).rd f :=
    ((Dev.post_reports _ _ _ _ _ _ _ _).rd f).trans ((Dev.causeBit_reports _ _ _).rd f)
  refine ⟨?_, ?_, (Dev.post_grows _ _ _ _ _ _ _ _).raised (Dev.causeBit_raised _ _ _)⟩
  · rw [hposted, Dev.rd_wr_other _ _ _ _ (by decide), Dev.rd_wr_same]
    exact Nat.mod_eq_of_lt hresult
  · rw [hposted, Dev.rd_wr_same]
    exact Nat.mod_eq_of_lt hreason

theorem Dev.learnStop_shows (d : Dev) {reason : Nat} (hreason : reason < 2 ^ 4) :
    Dev.Disqualified d (d.learnStop reason) reason := by
  intro h
  unfold Dev.learnStop
  rw [if_pos h]
  extract_lets e f t g
  obtain ⟨hresult, hwhy, hraised⟩ := g.learnResult_shows 0 (result := 3) (by decide) hreason
  have hg : g.rd Reg.BPS_LEARN_STAT_phase = 5 := e.rd_wr_same Reg.BPS_LEARN_STAT_phase 5
  have hjudged : Frame g (g.learnResult 3 0 reason) [Reg.BPS_LEARN_STAT_result, Reg.BPS_LEARN_STAT_reason] [] :=
    (Frame.refl _ _ _).learnResult 3 0 reason
  have hrest : Frame (g.learnResult 3 0 reason) (g.learnResult 3 0 reason).refreshRest inhibitFields [.bps] :=
    (Frame.refl _ _ _).setInhibit _ _ (List.Subset.refl _)
  exact ⟨(hrest.rd _).trans ((hjudged.rd _).trans hg), (hrest.rd _).trans hresult, (hrest.rd _).trans hwhy,
    (Dev.setInhibit_grows _ _ _).raised hraised⟩

/-- A disqualification shows through what changes only the charger and Halo's mode after it. -/
theorem Dev.Disqualified.of_stop {d x e : Dev} {reason : Nat} {fs : List Fld} {ps : List Part} (hreason : reason < 2 ^ 4)
    (hbefore : x.learnPhaseNo = d.learnPhaseNo) (htail : Frame (x.learnStop reason) e fs ps)
    (hg : Dev.Grows (x.learnStop reason) e) (hfs : ∀ f ∈ learnShown, ∀ g ∈ fs, f.key ≠ g.key := by decide) :
    Dev.Disqualified d e reason := by
  intro h
  rw [← hbefore] at h
  obtain ⟨hphase, hresult, hwhy, hraised⟩ := x.learnStop_shows hreason h
  have hrd (f : Fld) (hf : f ∈ learnShown) (hs : stateKey f.key = false := by decide) : e.rd f = (x.learnStop reason).rd f :=
    htail.1 f (hfs f hf) hs
  exact ⟨(hrd _ (by decide)).trans hphase, (hrd _ (by decide)).trans hresult, (hrd _ (by decide)).trans hwhy,
    hg.raised hraised⟩

end Machine

section

variable {a d : Dev} {fs : List Fld} {ps : List Part}

theorem Frame.alarm (h : Frame a d fs ps) (reason : Nat) (hp : Part.bps ∈ ps := by decide) : Frame a (d.alarm reason) fs ps :=
  h.trans (d.alarm_frame reason) (List.nil_subset _) (by simpa using hp)

theorem Frame.alarmEnd (h : Frame a d fs ps) (reason : Nat) (hp : Part.bps ∈ ps := by decide) :
    Frame a (d.alarmEnd reason) fs ps := .ite (h.setBps _ hp) h

theorem Frame.alarmIf (h : Frame a d fs ps) (reason : Nat) (on : Bool) (hp : Part.bps ∈ ps := by decide) :
    Frame a (d.alarmIf reason on) fs ps := .ite (h.alarm reason hp) (h.alarmEnd reason hp)

theorem Frame.refreshHalo (h : Frame a d fs ps) (hfs : haloFields ⊆ fs := by decide) (hps : [Part.bps, .pwc] ⊆ ps := by decide) :
    Frame a d.refreshHalo fs ps := h.trans d.refreshHalo_frame hfs hps

theorem Frame.setHaloCause (h : Frame a d fs ps) (bit : Nat) (hfs : haloFields ⊆ fs := by decide)
    (hps : [Part.bps, .pwc] ⊆ ps := by decide) : Frame a (d.setHaloCause bit) fs ps := h.trans (d.setHaloCause_frame bit) hfs hps

theorem Frame.refreshNoAdc (h : Frame a d fs ps) (hfs : inhibitFields ⊆ fs := by decide) (hp : Part.bps ∈ ps := by decide) :
    Frame a d.refreshNoAdc fs ps := h.setInhibit 7 _ hfs hp

theorem Frame.refreshRest (h : Frame a d fs ps) (hfs : inhibitFields ⊆ fs := by decide) (hp : Part.bps ∈ ps := by decide) :
    Frame a d.refreshRest fs ps := h.setInhibit 2 _ hfs hp

end

/-! ### The pack comes and goes (R263) -/

theorem gives_packAbsent (s : State) : Gives .packAbsent s fun e =>
    e.rd Reg.BPS_PACK_present = 0 ∧ bitOf (e.rd Reg.BPS_CHG_STAT_inhibit) 7 = true ∧ e.rd Reg.BPS_CHG_STAT_duty = 0 ∧
    e.rd Reg.BPS_HALO_STAT_mode = hmNone ∧ Dev.Disqualified s.dev e 10 ∧
    Frame s.dev e (Reg.BPS_PACK_present :: inhibitFields ++ haloFields ++ learnShown) [.bps, .pwc, .sys] := by
  refine gives_of_exec_eq_act (f := Dev.packAbsent) rfl ?_
  have hgone : Frame (s.dev.wr Reg.BPS_PACK_present 0) ((s.dev.wr Reg.BPS_PACK_present 0).alarm 5)
      (inhibitFields ++ haloFields ++ learnShown) [.bps, .pwc, .sys] := (Frame.refl _ _ _).alarm 5
  have hstop := hgone.learnStop 10 (by decide)
  let x := (((s.dev.wr Reg.BPS_PACK_present 0).alarm 5).learnStop 10).updBps fun b => { b with restCand := none }
  have hx : Frame (s.dev.wr Reg.BPS_PACK_present 0) x (inhibitFields ++ haloFields ++ learnShown) [.bps, .pwc, .sys] :=
    hstop.setBps _
  have htail : Frame x s.dev.packAbsent (inhibitFields ++ haloFields) [.bps, .pwc] :=
    (Frame.refl x _ _).refreshNoAdc.refreshHalo
  have hhere : x.rd Reg.BPS_PACK_present = 0 := (hx.rd _).trans (Dev.rd_wr_same _ _ _)
  have hnoAdc : x.refreshNoAdc = x.setInhibit 7 true := by simp [Dev.refreshNoAdc, Dev.packHere, Dev.rdB, hhere]
  have hmode : x.refreshNoAdc.haloMode = hmNone := by
    have hhere' : x.refreshNoAdc.rd Reg.BPS_PACK_present = 0 :=
      (((Frame.refl x inhibitFields [.bps]).refreshNoAdc).rd _).trans hhere
    simp [Dev.haloMode, Dev.packHere, Dev.rdB, hhere']
  have hhalo : Frame x.refreshNoAdc s.dev.packAbsent.settle haloFields [.bps, .pwc] := ((Frame.refl _ _ _).refreshHalo).settle
  refine ⟨?_, ?_, ?_, ?_, ?_, ?_⟩
  · exact (htail.settle.rd _).trans hhere
  · rw [hhalo.rd Reg.BPS_CHG_STAT_inhibit, hnoAdc, Dev.bitOf_setInhibit _ _ _ (by decide), if_pos rfl]
  · rw [hhalo.rd Reg.BPS_CHG_STAT_duty, hnoAdc, Dev.setInhibit_duty]
  · exact ((Frame.refl s.dev.packAbsent [] []).settle.rd _).trans ((Dev.refreshHalo_mode _).trans hmode)
  · refine .of_stop (x := (s.dev.wr Reg.BPS_PACK_present 0).alarm 5) (fs := inhibitFields ++ haloFields) (ps := [.bps, .pwc])
      (by decide) ?_ ?_ ?_
    · have halarm : Frame (s.dev.wr Reg.BPS_PACK_present 0) ((s.dev.wr Reg.BPS_PACK_present 0).alarm 5) [] [.bps] :=
        Dev.alarm_frame _ _
      exact (halarm.rd _).trans (Dev.rd_wr_other _ _ _ _ (by decide))
    · exact (((Frame.refl _ _ _).setBps _).refreshNoAdc.refreshHalo).settle
    · exact (((Dev.updBps_grows _ _).trans (Dev.setInhibit_grows _ _ _)).trans (Dev.refreshHalo_grows _)).trans
        (Dev.settle_grows _)
  · exact (((Frame.refl s.dev _ _).wr Reg.BPS_PACK_present 0).alarm 5 |>.learnStop 10 (by decide) |>.setBps _
      |>.refreshNoAdc.refreshHalo).settle

theorem gives_packPresent {s : State} (h : s.dev.packHere = false) : Gives .packPresent s fun e =>
    e.rd Reg.BPS_PACK_present = 1 ∧ bitOf (e.rd Reg.BPS_HALO_STAT_causes) 5 = true ∧ e.bps.filt = s.dev.filterEntry 5 ∧
    Frame s.dev e (Reg.BPS_PACK_present :: inhibitFields ++ haloFields) [.bps, .pwc] := by
  refine gives_of_exec_eq_act (f := Dev.packPresent) rfl ?_
  let x := (s.dev.wr Reg.BPS_PACK_present 1).alarmEnd 5
  have heq : s.dev.packPresent = (x.setHaloCause 5).refreshNoAdc.refreshHalo := by simp [Dev.packPresent, h, x]
  rw [heq]
  have hx : Dev.PackKept s.dev x := .trans (.of_bps rfl) (Dev.alarmEnd_kept _ _)
  have hcaused : Frame (x.setHaloCause 5).refreshNoAdc (x.setHaloCause 5).refreshNoAdc.refreshHalo haloFields [.bps, .pwc] :=
    (Frame.refl _ _ _).refreshHalo
  refine ⟨?_, ?_, ?_, ?_⟩
  · have htail : Frame (s.dev.wr Reg.BPS_PACK_present 1) (x.setHaloCause 5).refreshNoAdc.refreshHalo
        (inhibitFields ++ haloFields) [.bps, .pwc] := ((Frame.refl _ _ _).alarmEnd 5 |>.setHaloCause 5).refreshNoAdc.refreshHalo
    exact (htail.settle.rd _).trans (Dev.rd_wr_same _ _ _)
  · rw [((Frame.refl _ [] []).settle).rd Reg.BPS_HALO_STAT_causes, Dev.refreshHalo_causes,
      ((Frame.refl (x.setHaloCause 5) inhibitFields [.bps]).refreshNoAdc).rd Reg.BPS_HALO_STAT_causes]
    exact x.setHaloCause_bit (by decide)
  · rw [Dev.settle_bps, Dev.refreshHalo_bps, Dev.refreshNoAdc, (Dev.setInhibit_kept _ _ _).get BpsState.filt,
      x.setHaloCause_bps (bit := 5) (by decide)]
    exact hx.filterEntry (bit := 5) (by decide)
  · exact ((((Frame.refl s.dev _ _).wr Reg.BPS_PACK_present 1).alarmEnd 5).setHaloCause 5).refreshNoAdc.refreshHalo.settle

theorem gives_packPresent_here {s : State} (h : s.dev.packHere = true) : Gives .packPresent s fun e => Frame s.dev e [] [] := by
  refine gives_of_exec_eq_act (f := Dev.packPresent) rfl ?_
  have heq : s.dev.packPresent = s.dev := by simp [Dev.packPresent, h]
  rw [heq]
  exact (Frame.refl _ _ _).settle

/-! ### Temperatures (R263) -/

/-- The field of an NTC. -/
def tempField (n : Nat) : Fld := if n = 0 then Reg.BPS_TEMP_ntc0 else Reg.BPS_TEMP_ntc1

theorem tempField_off (n : Nat) : ∀ g ∈ inhibitFields ++ haloFields, (tempField n).key ≠ g.key := by
  unfold tempField
  split <;> decide

theorem tempField_shown (n : Nat) : stateKey (tempField n).key = false := by
  unfold tempField
  split <;> decide

/-- Whether an NTC is ignored. -/
def Machine.Dev.ntcBad (d : Dev) (n : Nat) : Bool := if n = 0 then d.bps.ntc0Bad else d.bps.ntc1Bad

namespace Machine

/-- The mark of an NTC changes. -/
def Dev.markNtc (d : Dev) (n : Nat) (bad : Bool) : Dev :=
  d.updBps fun b => if n = 0 then { b with ntc0Bad := bad } else { b with ntc1Bad := bad }

/-- What follows from an NTC's mark. -/
def Dev.ntcFollows (d : Dev) (n : Nat) (bad was : Bool) : Dev :=
  let d := if bad then d.wr (if n = 0 then Reg.BPS_TEMP_ntc0 else Reg.BPS_TEMP_ntc1) 0x8000 else d
  if bad && !was then d.errUncorr .bps 5 else d

theorem Dev.setNtc_eq (d : Dev) (n : Nat) (bad : Bool) : d.setNtc n bad =
    ((((d.markNtc n bad).ntcFollows n bad (d.ntcBad n)).alarmIf 10 (((d.markNtc n bad).ntcFollows n bad (d.ntcBad n)).bps.ntc0Bad ||
      ((d.markNtc n bad).ntcFollows n bad (d.ntcBad n)).bps.ntc1Bad)).refreshNoAdc).refreshHalo := rfl

theorem Dev.ntcFollows_frame (d : Dev) (n : Nat) (bad was : Bool) : Frame d (d.ntcFollows n bad was) [tempField n] [] := by
  have hwr : Frame d (if bad then d.wr (tempField n) 0x8000 else d) [tempField n] [] :=
    .ite ((Frame.refl _ _ _).wr _ _ (List.mem_singleton_self _)) (.refl _ _ _)
  exact .ite (hwr.reports (Dev.errUncorr_reports _ _ _)) hwr

theorem Dev.ntcFollows_temp (d : Dev) (n : Nat) (was : Bool) : (d.ntcFollows n true was).rd (tempField n) = 0x8000 := by
  have hwr : (d.wr (tempField n) 0x8000).rd (tempField n) = 0x8000 := by
    rw [Dev.rd_wr_same]
    unfold tempField
    split <;> rfl
  unfold Dev.ntcFollows
  dsimp only
  split
  · exact ((Dev.errUncorr_reports _ _ _).rd _).trans hwr
  · exact hwr

/-- The fields that follow from an NTC beside its own: the charger's and Halo's. -/
theorem Dev.setNtc_tail (d : Dev) (n : Nat) (bad : Bool) :
    Frame ((d.markNtc n bad).ntcFollows n bad (d.ntcBad n)) (d.setNtc n bad) (inhibitFields ++ haloFields) [.bps, .pwc] := by
  rw [d.setNtc_eq]
  exact ((Frame.refl _ _ _).alarmIf 10 _).refreshNoAdc.refreshHalo

theorem Dev.setNtc_frame (d : Dev) (n : Nat) (bad : Bool) :
    Frame d (d.setNtc n bad) (tempField n :: inhibitFields ++ haloFields) [.bps, .pwc] := by
  have hmarked : Frame d ((d.markNtc n bad).ntcFollows n bad (d.ntcBad n)) (tempField n :: inhibitFields ++ haloFields) [.bps, .pwc] :=
    ((Frame.refl d _ _).setBps _).trans (Dev.ntcFollows_frame _ _ _ _) (by simp) (by simp)
  exact hmarked.trans (d.setNtc_tail n bad) (fun f hf => List.mem_cons_of_mem _ hf) (by simp)

theorem Dev.setNtc_kept (d : Dev) (n : Nat) (bad : Bool) : Dev.PackKept (d.markNtc n bad) (d.setNtc n bad) := by
  have hfollows : ((d.markNtc n bad).ntcFollows n bad (d.ntcBad n)).bps = (d.markNtc n bad).bps :=
    (Dev.ntcFollows_frame _ _ _ _).part .bps
  rw [d.setNtc_eq]
  exact (((Dev.PackKept.of_bps hfollows).trans (Dev.alarmIf_kept _ _ _)).trans (Dev.setInhibit_kept _ _ _)).trans
    (.of_bps (Dev.refreshHalo_bps _))

theorem Dev.setNtc_ntcBad (d : Dev) (n : Nat) (bad : Bool) : (d.setNtc n bad).ntcBad n = bad := by
  have h0 := (d.setNtc_kept n bad).get BpsState.ntc0Bad
  have h1 := (d.setNtc_kept n bad).get BpsState.ntc1Bad
  unfold Dev.ntcBad
  by_cases hn : n = 0
  · rw [if_pos hn, h0]
    simp [Dev.markNtc, Dev.updBps, hn]
  · rw [if_neg hn, h1]
    simp [Dev.markNtc, Dev.updBps, hn]

theorem Dev.setNtc_ntcBad_other (d : Dev) {n m : Nat} (bad : Bool) (h : n = 0 ↔ m ≠ 0) :
    (d.setNtc n bad).ntcBad m = d.ntcBad m := by
  have h0 := (d.setNtc_kept n bad).get BpsState.ntc0Bad
  have h1 := (d.setNtc_kept n bad).get BpsState.ntc1Bad
  unfold Dev.ntcBad
  by_cases hm : m = 0
  · have hn : n ≠ 0 := fun hn => h.1 hn hm
    rw [if_pos hm, if_pos hm, h0]
    simp [Dev.markNtc, Dev.updBps, hn]
  · have hn : n = 0 := h.2 hm
    rw [if_neg hm, if_neg hm, h1]
    simp [Dev.markNtc, Dev.updBps, hn]

/-- What an NTC's mark leaves of the pack's record: all but the marks. -/
theorem Dev.setNtc_get {α : Type} (d : Dev) (n : Nat) (bad : Bool) (f : BpsState → α)
    (hf : ∀ (x : BpsState) (p i : Int) (on : List Nat) (al : Tbl Nat) (l ph : Nat) (u v : Int),
      f { x with ePrev := p, iSet := i, alarmOn := on, alarms := al, learnTick := l, phaseTick := ph, dsgDuty := u, dsgPrev := v } =
        f x := by intros; rfl)
    (hmark : ∀ (x : BpsState) (b : Bool), f { x with ntc0Bad := b } = f x ∧ f { x with ntc1Bad := b } = f x := by
      intros; exact ⟨rfl, rfl⟩) : f (d.setNtc n bad).bps = f d.bps := by
  rw [(d.setNtc_kept n bad).get f hf]
  unfold Dev.markNtc Dev.updBps
  dsimp only
  split
  · exact (hmark _ _).1
  · exact (hmark _ _).2

theorem Dev.setNtc_temp (d : Dev) (n : Nat) : (d.setNtc n true).rd (tempField n) = 0x8000 := by
  refine ((d.setNtc_tail n true).1 _ ?_ ?_).trans (Dev.ntcFollows_temp _ _ _)
  · exact tempField_off _
  · exact tempField_shown _

/-- A temperature that is in range shows as it was read. -/
theorem Dev.setNtc_temp_good (d : Dev) (n m : Nat) : (d.setNtc n false).rd (tempField m) = d.rd (tempField m) := by
  refine ((d.setNtc_tail n false).1 _ ?_ ?_).trans rfl
  · exact tempField_off _
  · exact tempField_shown _

theorem Dev.setNtc_temp_other (d : Dev) {n m : Nat} (bad : Bool) (h : n = 0 ↔ m ≠ 0) :
    (d.setNtc n bad).rd (tempField m) = d.rd (tempField m) := by
  have hne : (tempField m).key ≠ (tempField n).key := by
    unfold tempField
    by_cases hm : m = 0
    · rw [if_pos hm, if_neg fun hn => h.1 hn hm]
      decide
    · rw [if_neg hm, if_pos (h.2 hm)]
      decide
  refine (d.setNtc_frame n bad).1 _ (fun g hg => ?_) ?_
  · rcases List.mem_cons.1 hg with rfl | hg
    · exact hne
    · exact tempField_off m g hg
  · exact tempField_shown m

/-- Both NTCs are ignored: no temperature is left, the charger is inhibited and Halo gives no bound. -/
theorem Dev.setNtc_both (d : Dev) {n m : Nat} (h : n = 0 ↔ m ≠ 0) (hm : d.ntcBad m = true) :
    bitOf ((d.setNtc n true).rd Reg.BPS_CHG_STAT_inhibit) 7 = true ∧
    (d.setNtc n true).rd Reg.BPS_HALO_STAT_mode = hmNone := by
  have hboth (e : Dev) (h0 : e.bps.ntc0Bad = true) (h1 : e.bps.ntc1Bad = true) :
      bitOf (e.refreshNoAdc.refreshHalo.rd Reg.BPS_CHG_STAT_inhibit) 7 = true ∧
      e.refreshNoAdc.refreshHalo.rd Reg.BPS_HALO_STAT_mode = hmNone := by
    have heq : e.refreshNoAdc = e.setInhibit 7 true := by simp [Dev.refreshNoAdc, h0, h1]
    have k0 : e.refreshNoAdc.bps.ntc0Bad = true := ((e.setInhibit_kept 7 _).get BpsState.ntc0Bad).trans h0
    have k1 : e.refreshNoAdc.bps.ntc1Bad = true := ((e.setInhibit_kept 7 _).get BpsState.ntc1Bad).trans h1
    refine ⟨?_, ?_⟩
    · rw [((Frame.refl e.refreshNoAdc haloFields [.bps, .pwc]).refreshHalo).rd Reg.BPS_CHG_STAT_inhibit, heq,
        Dev.bitOf_setInhibit _ _ _ (by decide), if_pos rfl]
    · rw [Dev.refreshHalo_mode]
      simp [Dev.haloMode, k0, k1]
  have hmark : (d.markNtc n true).bps.ntc0Bad = true ∧ (d.markNtc n true).bps.ntc1Bad = true := by
    unfold Dev.ntcBad at hm
    unfold Dev.markNtc Dev.updBps
    by_cases hn : n = 0
    · rw [if_neg (h.1 hn)] at hm
      simp [hn, hm]
    · have hm0 : m = 0 := by by_contra hm0; exact hn (h.2 hm0)
      rw [if_pos hm0] at hm
      simp [hn, hm]
  have hfollows : ((d.markNtc n true).ntcFollows n true (d.ntcBad n)).bps = (d.markNtc n true).bps :=
    (Dev.ntcFollows_frame _ _ _ _).part .bps
  have hkept := ((d.markNtc n true).ntcFollows n true (d.ntcBad n)).alarmIf_kept 10
    (((d.markNtc n true).ntcFollows n true (d.ntcBad n)).bps.ntc0Bad || ((d.markNtc n true).ntcFollows n true (d.ntcBad n)).bps.ntc1Bad)
  rw [d.setNtc_eq]
  refine hboth _ ?_ ?_
  · rw [hkept.get BpsState.ntc0Bad, hfollows, hmark.1]
  · rw [hkept.get BpsState.ntc1Bad, hfollows, hmark.2]

end Machine

theorem Machine.Dev.ntcBad_of_bps {d e : Dev} (h : e.bps = d.bps) (n : Nat) : e.ntcBad n = d.ntcBad n := by
  unfold Dev.ntcBad
  rw [h]

theorem gives_ntcFault {n : Nat} (hn : n < 2) (s : State) : Gives (.ntcFault n) s fun e =>
    e.rd (tempField n) = 0x8000 ∧ e.ntcBad n = true ∧
    (s.dev.ntcBad (1 - n) = true → bitOf (e.rd Reg.BPS_CHG_STAT_inhibit) 7 = true ∧ e.rd Reg.BPS_HALO_STAT_mode = hmNone) ∧
    Frame s.dev e (tempField n :: inhibitFields ++ haloFields) [.bps, .pwc] := by
  have hexec : exec (.ntcFault n) s = s.act fun d => d.setNtc n true := by
    show execNtcFault n s = _
    simp [execNtcFault, onUnit, hn]
  refine gives_of_exec_eq_act hexec ?_
  have hrd (f : Fld) (hf : stateKey f.key = false) : (s.dev.setNtc n true).settle.rd f = (s.dev.setNtc n true).rd f :=
    Dev.settle_rd _ _ hf
  refine ⟨?_, ?_, fun hm => ?_, (s.dev.setNtc_frame n true).settle⟩
  · exact (hrd _ (tempField_shown n)).trans (s.dev.setNtc_temp n)
  · rw [Dev.ntcBad_of_bps (Dev.settle_bps _), s.dev.setNtc_ntcBad]
  · obtain ⟨hinhibit, hmode⟩ := s.dev.setNtc_both (n := n) (m := 1 - n) (by omega) hm
    exact ⟨by rw [hrd _ (by decide)]; exact hinhibit, (hrd _ (by decide)).trans hmode⟩

end Sys2Proof
end

section
/-! PACK_SAMPLE: the readings and the conditions that they drive (R262, R267 to R270, R279, R280, R285). -/

set_option Elab.async false

namespace Sys2Proof

open Sys2Proof.Machine

theorem codeOf_lt (w : Nat) (i : Int) : codeOf w i < 2 ^ w := by
  unfold codeOf
  have hpos : (0 : Int) < ((2 ^ w : Nat) : Int) := by positivity
  have := Int.emod_lt_of_pos i hpos
  have := Int.emod_nonneg i hpos.ne'
  omega

theorem mvOf_lt (v : Int) : mvOf v < 2 ^ 16 := Nat.lt_succ_of_le (Nat.min_le_left _ _)

namespace Machine

/-- The last sample, the charge since the anchor and the marks of the NTCs are as before. -/
structure Dev.ReadingKept (d e : Dev) : Prop where
  sample : e.bps.sample = d.bps.sample
  qc : e.bps.qc = d.bps.qc
  ntc0Bad : e.bps.ntc0Bad = d.bps.ntc0Bad
  ntc1Bad : e.bps.ntc1Bad = d.bps.ntc1Bad

namespace Dev.ReadingKept

variable {a b c d e : Dev}

theorem of_bps (h : e.bps = d.bps) : Dev.ReadingKept d e := by constructor <;> rw [h]

theorem refl (d : Dev) : Dev.ReadingKept d d := .of_bps rfl

theorem trans (h : Dev.ReadingKept a b) (k : Dev.ReadingKept b c) : Dev.ReadingKept a c :=
  ⟨k.sample.trans h.sample, k.qc.trans h.qc, k.ntc0Bad.trans h.ntc0Bad, k.ntc1Bad.trans h.ntc1Bad⟩

theorem ite {p : Prop} [Decidable p] (h : Dev.ReadingKept d a) (k : Dev.ReadingKept d b) :
    Dev.ReadingKept d (if p then a else b) := by split <;> assumption

theorem of_kept (h : Dev.PackKept d e) : Dev.ReadingKept d e :=
  ⟨h.sample, h.get BpsState.qc, h.get BpsState.ntc0Bad, h.get BpsState.ntc1Bad⟩

end Dev.ReadingKept

theorem Dev.setHaloCause_reading (d : Dev) (bit : Nat) : Dev.ReadingKept d (d.setHaloCause bit) := by
  unfold Dev.setHaloCause
  extract_lets old f start e
  refine .trans (.trans (.of_bps (rfl : e.bps = d.bps)) ?_) (.of_bps (Dev.refreshHalo_bps _))
  exact .ite ⟨rfl, rfl, rfl, rfl⟩ (.refl e)

theorem Dev.learnStop_reading (d : Dev) (reason : Nat) : Dev.ReadingKept d (d.learnStop reason) := .of_kept (d.learnStop_kept reason)

/-- Of the inhibition causes, a learn cycle's end changes REST only. -/
theorem Dev.learnStop_bit (d : Dev) (reason : Nat) {i : Nat} (hi : i < 8) (h2 : i ≠ 2) :
    bitOf ((d.learnStop reason).rd Reg.BPS_CHG_STAT_inhibit) i = bitOf (d.rd Reg.BPS_CHG_STAT_inhibit) i := by
  unfold Dev.learnStop
  split
  · extract_lets e f t g
    have hg : Frame d g [Reg.BPS_LEARN_STAT_phase] [.sys, .bps] := (((Frame.refl d _ _).setDsg false).wr _ _).setBps _
    have hjudged : Frame d (g.learnResult 3 0 reason) learnShown [.sys, .bps] :=
      (hg.mono (gs := learnShown)).learnResult 3 0 reason
    rw [Dev.refreshRest, Dev.bitOf_setInhibit _ _ _ hi, if_neg h2, hjudged.rd Reg.BPS_CHG_STAT_inhibit]
  · rfl

/-! ### The conditions of a sample -/

/-- What the conditions of a sample may change: charger, Halo and a learn cycle. -/
def watchFields : List Fld := inhibitFields ++ haloFields ++ learnShown

/-- The first step of the conditions: the cell voltages against V_max and V_full. -/
def Dev.watchCells (d : Dev) (b : BattProfile) : Dev :=
  if (b.vMax : Int) * 10 < d.cellHigh then (d.setInhibit 4 true).alarm 2
  else if d.cellHigh < (b.vFull : Int) * 10 then (d.setInhibit 4 false).alarmEnd 2
  else d.alarmEnd 2

/-- The later steps: temperatures, a low cell, a discharge at the low end. -/
def Dev.watchRest (d : Dev) (b : BattProfile) : Dev :=
  let out (lo hi : Int) : Bool := decide (d.tPack < lo ∨ hi < d.tPack ∨ d.tHot < lo ∨ hi < d.tHot)
  let d := (d.setInhibit 1 (out b.chgLow b.chgHigh)).alarmIf 4 (out b.dsgLow b.dsgHigh)
  let d := d.alarmIf 3 (decide (d.cellLow < (b.vMin : Int) * 10))
  let low := decide (d.cellList.sum ≤ (b.n * b.vMin * 10 : Nat)) && decide (d.bps.sample.current < 0)
  if low && !bitOf (d.rd Reg.BPS_HALO_STAT_causes) 2 then d.setHaloCause 2 else d

theorem Dev.sampleWatch_eq (d : Dev) (b : BattProfile) : d.sampleWatch b = (d.watchCells b).watchRest b := rfl

theorem Dev.watchCells_frame (d : Dev) (b : BattProfile) : Frame d (d.watchCells b) watchFields [.bps, .pwc, .sys] := by
  have h (on : Bool) : Frame d (d.setInhibit 4 on) watchFields [.bps, .pwc, .sys] := (Frame.refl _ _ _).setInhibit 4 on (by decide)
  exact .ite ((h true).alarm 2) (.ite ((h false).alarmEnd 2) ((Frame.refl _ _ _).alarmEnd 2))

theorem Dev.watchCells_reading (d : Dev) (b : BattProfile) : Dev.ReadingKept d (d.watchCells b) :=
  .of_kept (.ite ((d.setInhibit_kept _ _).trans (Dev.alarm_kept _ _))
    (.ite ((d.setInhibit_kept _ _).trans (Dev.alarmEnd_kept _ _)) (d.alarmEnd_kept _)))

theorem Dev.watchRest_frame (d : Dev) (b : BattProfile) : Frame d (d.watchRest b) watchFields [.bps, .pwc, .sys] := by
  unfold Dev.watchRest
  extract_lets out x y low
  have hy : Frame d y watchFields [.bps, .pwc, .sys] := (((Frame.refl _ _ _).setInhibit 1 _ (by decide)).alarmIf 4 _).alarmIf 3 _
  exact .ite (hy.setHaloCause 2) hy

theorem Dev.watchRest_reading (d : Dev) (b : BattProfile) : Dev.ReadingKept d (d.watchRest b) := by
  unfold Dev.watchRest
  extract_lets out x y low
  have hy : Dev.ReadingKept d y :=
    .of_kept (((d.setInhibit_kept _ _).trans (Dev.alarmIf_kept _ _ _)).trans (Dev.alarmIf_kept _ _ _))
  exact .ite (hy.trans (Dev.setHaloCause_reading _ _)) hy

theorem Dev.watchRest_bit (d : Dev) (b : BattProfile) :
    bitOf ((d.watchRest b).rd Reg.BPS_CHG_STAT_inhibit) 4 = bitOf (d.rd Reg.BPS_CHG_STAT_inhibit) 4 := by
  unfold Dev.watchRest
  extract_lets out x y low
  have hy : Frame (d.setInhibit 1 (out b.chgLow b.chgHigh)) y haloFields [.bps, .pwc] :=
    ((Frame.refl _ _ _).alarmIf 4 _).alarmIf 3 _
  have hlast : Frame (d.setInhibit 1 (out b.chgLow b.chgHigh)) (if (low && !bitOf (y.rd Reg.BPS_HALO_STAT_causes) 2) = true then
      y.setHaloCause 2 else y) haloFields [.bps, .pwc] := .ite (hy.setHaloCause 2) hy
  rw [hlast.rd Reg.BPS_CHG_STAT_inhibit, Dev.bitOf_setInhibit _ _ _ (by decide), if_neg (by decide)]

/-- A cell above V_max inhibits the charger (R267). -/
theorem Dev.sampleWatch_overvoltage {d : Dev} {b : BattProfile} (h : (b.vMax : Int) * 10 < d.cellHigh) :
    bitOf ((d.sampleWatch b).rd Reg.BPS_CHG_STAT_inhibit) 4 = true := by
  have hcells : d.watchCells b = (d.setInhibit 4 true).alarm 2 := if_pos h
  rw [d.sampleWatch_eq, Dev.watchRest_bit, hcells,
    (Dev.alarm_frame (d.setInhibit 4 true) 2).rd Reg.BPS_CHG_STAT_inhibit, Dev.bitOf_setInhibit _ _ _ (by decide), if_pos rfl]

/-- A learn cycle that a sample may disqualify: what its end leaves. -/
structure Dev.Watched (d e : Dev) : Prop where
  frame : Frame d e watchFields [.bps, .pwc, .sys]
  reading : Dev.ReadingKept d e
  overvoltage : bitOf (e.rd Reg.BPS_CHG_STAT_inhibit) 4 = bitOf (d.rd Reg.BPS_CHG_STAT_inhibit) 4

namespace Dev.Watched

variable {a b c d e : Dev}

theorem trans (h : Dev.Watched a b) (k : Dev.Watched b c) : Dev.Watched a c :=
  ⟨h.frame.trans k.frame, h.reading.trans k.reading, k.overvoltage.trans h.overvoltage⟩

theorem ite {p : Prop} [Decidable p] (h : Dev.Watched d a) (k : Dev.Watched d b) : Dev.Watched d (if p then a else b) := by
  split <;> assumption

theorem refl (d : Dev) : Dev.Watched d d := ⟨.refl d _ _, .refl d, rfl⟩

theorem updBps (g : BpsState → BpsState) (h : (g d.bps).sample = d.bps.sample ∧ (g d.bps).qc = d.bps.qc ∧
    (g d.bps).ntc0Bad = d.bps.ntc0Bad ∧ (g d.bps).ntc1Bad = d.bps.ntc1Bad) : Dev.Watched d (d.updBps g) :=
  ⟨(Frame.refl d _ _).setBps _, ⟨h.1, h.2.1, h.2.2.1, h.2.2.2⟩, rfl⟩

theorem learnStop (d : Dev) (reason : Nat) : Dev.Watched d (d.learnStop reason) :=
  ⟨(Frame.refl d _ _).learnStop reason (by decide), d.learnStop_reading reason, d.learnStop_bit reason (by decide) (by decide)⟩

theorem setDsg (d : Dev) (on : Bool) : Dev.Watched d (d.setDsg on) := by
  have h : Frame d (d.setDsg on) watchFields [.bps, .pwc, .sys] := (Frame.refl d _ _).setDsg on
  exact ⟨h, .of_bps ((d.setDsg_frame on).part .bps), by rw [(d.setDsg_frame on).rd Reg.BPS_CHG_STAT_inhibit]⟩

end Dev.Watched

theorem Dev.discharge_watched (d : Dev) (b : BattProfile) : Dev.Watched d (d.discharge b) := by
  unfold Dev.discharge
  extract_lets target i x off e f
  have hf : Dev.Watched d f := .trans (.updBps _ ⟨rfl, rfl, rfl, rfl⟩) (.setDsg _ _)
  exact .ite (hf.trans (.learnStop _ _)) (.ite (hf.trans (.learnStop _ _)) hf)

theorem Dev.learnWatch_watched (d : Dev) (b : BattProfile) : Dev.Watched d (d.learnWatch b) := by
  unfold Dev.learnWatch
  extract_lets ph t e
  have he : Dev.Watched d e := .updBps _ ⟨rfl, rfl, rfl, rfl⟩
  exact .ite (.refl d) (.ite (he.trans (.learnStop _ _)) (.ite (he.trans (.learnStop _ _))
    (.ite (he.trans (Dev.discharge_watched _ _)) (.ite (he.trans (.learnStop _ _)) he))))

theorem Dev.restTrack_watched (d : Dev) : Dev.Watched d d.restTrack := by
  unfold Dev.restTrack
  exact .updBps _ ⟨rfl, rfl, rfl, rfl⟩

/-! ### The readings -/

/-- A sample is recorded, and its charge counted. -/
def Dev.sampled (d : Dev) (p : PackSample) : Dev :=
  d.updBps fun b => { b with
    sample := p, qc := b.qc + p.current, learnQ := b.learnQ + p.current
    qh := if d.qL ≤ 20 * p.current.natAbs then b.qh + p.current.natAbs else b.qh }

/-- The voltages, the current and the temperatures of a sample are shown. -/
def Dev.sampleShown (d : Dev) (p : PackSample) : Dev :=
  let d := forEach (List.range d.cells) (fun n d => d.wr (Reg.BPS_CELL_mv.ix n) (mvOf (p.cells.getD n 0))) d
  d.wr Reg.BPS_CUR_ma (signed32 p.current) |>.wr Reg.BPS_PACK_mv (mvOf d.cellList.sum)
    |>.wr Reg.BPS_TEMP_ntc0 (codeOf 16 p.ntc0) |>.wr Reg.BPS_TEMP_ntc1 (codeOf 16 p.ntc1)

/-- Whether a temperature reading is out of range. -/
def ntcOut (t : Int) : Bool := !decide (-400 ≤ t ∧ t ≤ 1250)

/-- The marks of the NTCs follow a sample. -/
def Dev.sampleNtcs (d : Dev) (p : PackSample) : Dev := (d.setNtc 0 (ntcOut p.ntc0)).setNtc 1 (ntcOut p.ntc1)

/-- What a sample drives. -/
def Dev.sampleDrives (d : Dev) : Dev :=
  match d.batt with
  | none => d
  | some b => ((d.sampleWatch b).learnWatch b).restTrack

theorem Dev.packSample_eq (d : Dev) (p : PackSample) :
    d.packSample p = (((d.sampled p).sampleShown p).sampleNtcs p).sampleDrives := by
  unfold Dev.packSample
  extract_lets range i high e f g x
  have hx : x = ((d.sampled p).sampleShown p).sampleNtcs p := by
    show (g.setNtc 0 (ntcOut p.ntc0)).setNtc 1 (ntcOut p.ntc1) = _
    rfl
  rw [← hx]
  rfl

theorem Dev.sampled_bps (d : Dev) (p : PackSample) : (d.sampled p).bps = { d.bps with
    sample := p, qc := d.bps.qc + p.current, learnQ := d.bps.learnQ + p.current
    qh := if d.qL ≤ 20 * p.current.natAbs then d.bps.qh + p.current.natAbs else d.bps.qh } := rfl

theorem Dev.sampled_batt (d : Dev) (p : PackSample) : (d.sampled p).batt = d.batt := rfl

theorem Dev.sampled_cells (d : Dev) (p : PackSample) : (d.sampled p).cells = d.cells := rfl

theorem Dev.sampled_cellHigh (d : Dev) (p : PackSample) :
    (d.sampled p).cellHigh = ((p.cells.take d.cells).max?).getD 0 := rfl

theorem Dev.batt_of_bps {d e : Dev} (h : e.bps = d.bps) : e.batt = d.batt := by unfold Dev.batt; rw [h]

theorem Dev.cellHigh_of_bps {d e : Dev} (h : e.bps = d.bps) : e.cellHigh = d.cellHigh := by
  unfold Dev.cellHigh Dev.cellList Dev.cells
  rw [h]

theorem Dev.sampleDrives_frame (d : Dev) : Frame d d.sampleDrives watchFields [.bps, .pwc, .sys] := by
  unfold Dev.sampleDrives
  split
  · exact .refl _ _ _
  · rw [Dev.sampleWatch_eq]
    exact (((d.watchCells_frame _).trans (Dev.watchRest_frame _ _)).trans (Dev.learnWatch_watched _ _).frame).trans
      (Dev.restTrack_watched _).frame

theorem Dev.sampleDrives_reading (d : Dev) : Dev.ReadingKept d d.sampleDrives := by
  unfold Dev.sampleDrives
  split
  · exact .refl _
  · rw [Dev.sampleWatch_eq]
    exact (((d.watchCells_reading _).trans (Dev.watchRest_reading _ _)).trans (Dev.learnWatch_watched _ _).reading).trans
      (Dev.restTrack_watched _).reading

theorem Dev.sampleDrives_overvoltage {d : Dev} {b : BattProfile} (hb : d.batt = some b) (h : (b.vMax : Int) * 10 < d.cellHigh) :
    bitOf (d.sampleDrives.rd Reg.BPS_CHG_STAT_inhibit) 4 = true := by
  unfold Dev.sampleDrives
  simp only [hb]
  rw [(Dev.restTrack_watched _).overvoltage, (Dev.learnWatch_watched _ _).overvoltage]
  exact Dev.sampleWatch_overvoltage h

theorem Dev.sampleNtcs_frame (d : Dev) (p : PackSample) : Frame d (d.sampleNtcs p)
    (Reg.BPS_TEMP_ntc0 :: Reg.BPS_TEMP_ntc1 :: watchFields) [.bps, .pwc, .sys] :=
  ((Frame.refl d _ _).trans (d.setNtc_frame 0 _)).trans (Dev.setNtc_frame _ 1 _)

/-- What the marks of the NTCs leave of the pack's record. -/
theorem Dev.sampleNtcs_get {α : Type} (d : Dev) (p : PackSample) (f : BpsState → α)
    (hf : ∀ (x : BpsState) (p i : Int) (on : List Nat) (al : Tbl Nat) (l ph : Nat) (u v : Int),
      f { x with ePrev := p, iSet := i, alarmOn := on, alarms := al, learnTick := l, phaseTick := ph, dsgDuty := u, dsgPrev := v } =
        f x := by intros; rfl)
    (hmark : ∀ (x : BpsState) (b : Bool), f { x with ntc0Bad := b } = f x ∧ f { x with ntc1Bad := b } = f x := by
      intros; exact ⟨rfl, rfl⟩) : f (d.sampleNtcs p).bps = f d.bps :=
  (Dev.setNtc_get _ 1 _ f hf hmark).trans (d.setNtc_get 0 _ f hf hmark)

theorem Dev.sampleNtcs_batt (d : Dev) (p : PackSample) : (d.sampleNtcs p).batt = d.batt :=
  d.sampleNtcs_get p fun x => match x.bcal with
    | some c => if c.crcOk then x.batt.filter BattProfile.ok else none
    | none => none

theorem Dev.sampleNtcs_cellHigh (d : Dev) (p : PackSample) : (d.sampleNtcs p).cellHigh = d.cellHigh :=
  d.sampleNtcs_get p fun x => ((x.sample.cells.take (match x.batt with | some b => b.n | none => 0)).max?).getD 0

theorem Dev.sampleNtcs_bad (d : Dev) (p : PackSample) :
    (d.sampleNtcs p).bps.ntc0Bad = ntcOut p.ntc0 ∧ (d.sampleNtcs p).bps.ntc1Bad = ntcOut p.ntc1 :=
  ⟨(Dev.setNtc_ntcBad_other (n := 1) (m := 0) _ _ (by decide)).trans (d.setNtc_ntcBad 0 _), Dev.setNtc_ntcBad _ 1 _⟩

theorem Dev.sampleNtcs_temp0 (d : Dev) {p : PackSample} (h : ntcOut p.ntc0 = false) :
    (d.sampleNtcs p).rd Reg.BPS_TEMP_ntc0 = d.rd Reg.BPS_TEMP_ntc0 := by
  unfold Dev.sampleNtcs
  rw [h]
  exact (Dev.setNtc_temp_other (n := 1) (m := 0) _ _ (by decide)).trans (d.setNtc_temp_good 0 0)

theorem Dev.sampleNtcs_temp1 (d : Dev) {p : PackSample} (h : ntcOut p.ntc1 = true) :
    (d.sampleNtcs p).rd Reg.BPS_TEMP_ntc1 = 0x8000 := by
  unfold Dev.sampleNtcs
  rw [h]
  exact Dev.setNtc_temp _ 1

theorem Dev.sampleShown_frame (d : Dev) (p : PackSample) : Frame d (d.sampleShown p)
    ([Reg.BPS_CUR_ma, Reg.BPS_PACK_mv, Reg.BPS_TEMP_ntc0, Reg.BPS_TEMP_ntc1] ++ (List.range d.cells).map Reg.BPS_CELL_mv.ix) [] := by
  have hcells : Frame d (forEach (List.range d.cells) (fun n d => d.wr (Reg.BPS_CELL_mv.ix n) (mvOf (p.cells.getD n 0))) d)
      ([Reg.BPS_CUR_ma, Reg.BPS_PACK_mv, Reg.BPS_TEMP_ntc0, Reg.BPS_TEMP_ntc1] ++ (List.range d.cells).map Reg.BPS_CELL_mv.ix) [] :=
    (Frame.refl d _ _).forEachWr Reg.BPS_CELL_mv (fun n => mvOf (p.cells.getD n 0)) d.cells
      fun i hi => List.mem_append_right _ (List.mem_map_of_mem (List.mem_range.2 hi))
  exact (((hcells.wr _ _ (by simp)).wr _ _ (by simp)).wr _ _ (by simp)).wr _ _ (by simp)

theorem Dev.sampleShown_rd (d : Dev) (p : PackSample) (hcells : d.cells ≤ 4) :
    (d.sampleShown p).rd Reg.BPS_CUR_ma = codeOf 32 p.current ∧ (d.sampleShown p).rd Reg.BPS_TEMP_ntc0 = codeOf 16 p.ntc0 ∧
    ∀ i, i < d.cells → (d.sampleShown p).rd (Reg.BPS_CELL_mv.ix i) = mvOf (p.cells.getD i 0) := by
  refine ⟨?_, ?_, fun i hi => ?_⟩
  · unfold Dev.sampleShown
    rw [Dev.rd_wr_other _ _ _ _ (by decide), Dev.rd_wr_other _ _ _ _ (by decide), Dev.rd_wr_other _ _ _ _ (by decide),
      Dev.rd_wr_same]
    exact Nat.mod_eq_of_lt (codeOf_lt 32 _)
  · unfold Dev.sampleShown
    rw [Dev.rd_wr_other _ _ _ _ (by decide), Dev.rd_wr_same]
    exact Nat.mod_eq_of_lt (codeOf_lt 16 _)
  · have hoff : ∀ i < 4, (Reg.BPS_CELL_mv.ix i).key ≠ Reg.BPS_CUR_ma.key ∧ (Reg.BPS_CELL_mv.ix i).key ≠ Reg.BPS_PACK_mv.key ∧
        (Reg.BPS_CELL_mv.ix i).key ≠ Reg.BPS_TEMP_ntc0.key ∧ (Reg.BPS_CELL_mv.ix i).key ≠ Reg.BPS_TEMP_ntc1.key := by decide
    obtain ⟨hcur, hmv, h0, h1⟩ := hoff i (by omega)
    unfold Dev.sampleShown
    rw [Dev.rd_wr_other _ _ _ _ h1, Dev.rd_wr_other _ _ _ _ h0, Dev.rd_wr_other _ _ _ _ hmv, Dev.rd_wr_other _ _ _ _ hcur,
      Dev.rd_forEach_wr_same Reg.BPS_CELL_mv (fun n => mvOf (p.cells.getD n 0)) d.cells i hi]
    · exact Nat.mod_eq_of_lt (mvOf_lt _)
    · exact fun j hj hne => (by decide : ∀ i < 4, ∀ j < 4, j ≠ i → (Reg.BPS_CELL_mv.ix i).key ≠ (Reg.BPS_CELL_mv.ix j).key)
        i (by omega) j (by omega) hne

end Machine

theorem gives_packSample (p : PackSample) {s : State} (hcells : s.dev.cells ≤ 4) : Gives (.packSample p) s fun e =>
    e.bps.sample = p ∧ e.bps.qc = s.dev.bps.qc + p.current ∧ e.rd Reg.BPS_CUR_ma = codeOf 32 p.current ∧
    (∀ i, i < s.dev.cells → e.rd (Reg.BPS_CELL_mv.ix i) = mvOf (p.cells.getD i 0)) ∧
    (-400 ≤ p.ntc0 ∧ p.ntc0 ≤ 1250 → e.rd Reg.BPS_TEMP_ntc0 = codeOf 16 p.ntc0 ∧ e.bps.ntc0Bad = false) ∧
    (p.ntc1 < -400 ∨ 1250 < p.ntc1 → e.rd Reg.BPS_TEMP_ntc1 = 0x8000 ∧ e.bps.ntc1Bad = true) ∧
    (∀ b, s.dev.batt = some b → (b.vMax : Int) * 10 < ((p.cells.take s.dev.cells).max?).getD 0 →
      bitOf (e.rd Reg.BPS_CHG_STAT_inhibit) 4 = true) ∧
    Frame s.dev e ([Reg.BPS_CUR_ma, Reg.BPS_PACK_mv, Reg.BPS_TEMP_ntc0, Reg.BPS_TEMP_ntc1] ++
      (List.range s.dev.cells).map Reg.BPS_CELL_mv.ix ++ watchFields) [.bps, .pwc, .sys] := by
  refine gives_of_exec_eq_act (f := fun d => d.packSample p) rfl ?_
  simp only [Dev.packSample_eq]
  have hshown := (s.dev.sampled p).sampleShown_frame p
  have hbps : ((s.dev.sampled p).sampleShown p).bps = (s.dev.sampled p).bps := hshown.part .bps
  have hx := hbps.trans (s.dev.sampled_bps p)
  have hxbatt := (Dev.batt_of_bps hbps).trans (s.dev.sampled_batt p)
  have hxhigh := (Dev.cellHigh_of_bps hbps).trans (s.dev.sampled_cellHigh p)
  obtain ⟨hcur, htemp0, hcell⟩ := (s.dev.sampled p).sampleShown_rd p hcells
  have hframe : Frame s.dev ((s.dev.sampled p).sampleShown p) ([Reg.BPS_CUR_ma, Reg.BPS_PACK_mv, Reg.BPS_TEMP_ntc0, Reg.BPS_TEMP_ntc1] ++
        (List.range s.dev.cells).map Reg.BPS_CELL_mv.ix ++ watchFields) [.bps, .pwc, .sys] :=
    ((Frame.refl _ _ _).setBps _).trans hshown (List.subset_append_left _ _) (by simp)
  generalize (s.dev.sampled p).sampleShown p = x at *
  have hdrives : Frame (x.sampleNtcs p) (x.sampleNtcs p).sampleDrives.settle watchFields [.bps, .pwc, .sys] :=
    (Dev.sampleDrives_frame _).settle
  have hreading : Dev.ReadingKept (x.sampleNtcs p) (x.sampleNtcs p).sampleDrives.settle :=
    (Dev.sampleDrives_reading _).trans (.of_bps (Dev.settle_bps _))
  have hntcs := x.sampleNtcs_frame p
  refine ⟨?_, ?_, ?_, fun i hi => ?_, fun h => ?_, fun h => ?_, fun b hb h => ?_, ?_⟩
  · exact hreading.sample.trans ((x.sampleNtcs_get p BpsState.sample).trans (by rw [hx]))
  · exact hreading.qc.trans ((x.sampleNtcs_get p BpsState.qc).trans (by rw [hx]))
  · exact (hdrives.rd _).trans ((hntcs.rd _).trans hcur)
  · have hoff : ∀ i < 4, (∀ g ∈ Reg.BPS_TEMP_ntc0 :: Reg.BPS_TEMP_ntc1 :: watchFields, (Reg.BPS_CELL_mv.ix i).key ≠ g.key) ∧
        stateKey (Reg.BPS_CELL_mv.ix i).key = false := by decide
    obtain ⟨hne, hst⟩ := hoff i (by omega)
    exact (hdrives.1 _ (fun g hg => hne g (by simp [hg])) hst).trans ((hntcs.1 _ hne hst).trans (hcell i hi))
  · have hin : ntcOut p.ntc0 = false := by simp [ntcOut, h]
    exact ⟨(hdrives.rd _).trans ((x.sampleNtcs_temp0 hin).trans htemp0), hreading.ntc0Bad.trans ((x.sampleNtcs_bad p).1.trans hin)⟩
  · have hout : ntcOut p.ntc1 = true := by
      simp only [ntcOut, Bool.not_eq_true', decide_eq_false_iff_not]
      omega
    exact ⟨(hdrives.rd _).trans (x.sampleNtcs_temp1 hout), hreading.ntc1Bad.trans ((x.sampleNtcs_bad p).2.trans hout)⟩
  · have hbatt : (x.sampleNtcs p).batt = some b :=
      (x.sampleNtcs_batt p).trans (hxbatt.trans hb)
    have hhigh : (x.sampleNtcs p).cellHigh = ((p.cells.take s.dev.cells).max?).getD 0 :=
      (x.sampleNtcs_cellHigh p).trans hxhigh
    rw [Dev.settle_rd _ _ (by decide)]
    exact Dev.sampleDrives_overvoltage hbatt (by rw [hhigh]; exact h)
  · refine (hframe.trans hntcs ?_ (by simp)).trans hdrives ?_ (by simp)
    · intro f hf
      rcases List.mem_cons.1 hf with rfl | hf
      · simp
      · rcases List.mem_cons.1 hf with rfl | hf
        · simp
        · exact List.mem_append_right _ hf
    · exact List.subset_append_right _ _

end Sys2Proof
end

section
/-! The charger's loops and its states (R267, R268). -/

set_option Elab.async false

namespace Sys2Proof

open Sys2Proof.Machine

theorem clampInt_toNat_lt {hi : Nat} (v : Int) (h : hi < 2 ^ 16) : (clampInt 0 hi v).toNat < 2 ^ 16 := by
  unfold clampInt
  omega

section

variable {d : Dev} {b : BattProfile}

theorem Machine.Dev.chargeLoop_of_not_charging (h : d.charging = false) : d.chargeLoop = d := by
  unfold Dev.chargeLoop
  cases d.batt <;> simp [h]

theorem Machine.Dev.chargeSetpoint_of_not_charging (h : d.charging = false) : d.chargeSetpoint = d := by
  unfold Dev.chargeSetpoint
  cases d.batt <;> simp [h]

/-- The outcome of one step of the charge loop. -/
def Machine.Dev.chargeStep (d : Dev) (b : BattProfile) : Int × Int :=
  loopStep b.kp b.ki b.maxDuty d.bps.iSet d.bps.sample.current (d.rd Reg.BPS_CHG_STAT_duty) d.bps.ePrev

theorem Machine.Dev.chargeLoop_eq (hb : d.batt = some b) (h : d.charging = true) :
    d.chargeLoop = (d.setDuty (d.chargeStep b).1.toNat).updBps fun s => { s with ePrev := (d.chargeStep b).2 } := by
  unfold Dev.chargeLoop
  simp only [hb, h]
  rfl

/-- The next setpoint of the charging current. -/
def Machine.Dev.nextSet (d : Dev) (b : BattProfile) : Int :=
  if (b.vFull : Int) < d.cellHigh / 10 then (if (b.iChg : Int) / 64 < d.bps.iSet then d.bps.iSet - (b.iChg : Int) / 64 else 0)
  else if d.cellHigh / 10 + 10 < (b.vFull : Int) ∧ d.bps.iSet < (b.iChg : Int) then
    min (d.bps.iSet + (b.iChg : Int) / 256) b.iChg
  else d.bps.iSet

theorem Machine.Dev.chargeSetpoint_eq (hb : d.batt = some b) (h : d.charging = true) : d.chargeSetpoint =
    if d.rd Reg.BPS_CHG_STAT_state = chFloat then d.updBps fun s => { s with iSet := d.nextSet b }
    else (d.updBps fun s => { s with iSet := d.nextSet b }).wr Reg.BPS_CHG_STAT_state
      (if d.nextSet b = (b.iChg : Int) then chCc else chCv) := by
  unfold Dev.chargeSetpoint
  simp only [hb, h]
  rfl

theorem Machine.Dev.chargeDone_eq (hb : d.batt = some b)
    (h : d.rd Reg.BPS_CHG_STAT_state = chCc ∨ d.rd Reg.BPS_CHG_STAT_state = chCv) (hi : d.bps.iSet ≤ b.iTerm) : d.chargeDone =
    if b.floatMode then d.wr Reg.BPS_CHG_STAT_state chFloat else (d.setDuty 0).wr Reg.BPS_CHG_STAT_state chDone := by
  unfold Dev.chargeDone
  simp only [hb]
  rw [if_neg (by simpa [hi, or_iff_not_imp_left] using h)]

theorem Machine.Dev.chargeRestart_eq (hb : d.batt = some b) (h : d.rd Reg.BPS_CHG_STAT_state = chDone)
    (hv : d.cellHigh < (b.vRestart : Int) * 10) : d.chargeRestart =
    (d.wr Reg.BPS_CHG_STAT_state chCc).updBps fun s => { s with iSet := b.iChg, ePrev := 0 } := by
  unfold Dev.chargeRestart
  simp only [hb]
  exact if_pos ⟨h, hv⟩

theorem Machine.Dev.chargeRestart_of_not_done (h : d.rd Reg.BPS_CHG_STAT_state ≠ chDone) : d.chargeRestart = d := by
  unfold Dev.chargeRestart
  cases d.batt <;> simp [h]

end

theorem gives_same_of_eq {c : Instr} {s : State} {f : Dev → Dev} (hexec : exec c s = s.act f) (h : f s.dev = s.dev) :
    Gives c s fun e => Frame s.dev e [] [] := by
  refine gives_of_exec_eq_act hexec ?_
  rw [h]
  exact (Frame.refl _ _ _).settle

section

variable {s : State} {b : BattProfile}

theorem gives_chargeLoop (hb : s.dev.batt = some b) (h : s.dev.charging = true) (hmax : b.maxDuty < 2 ^ 16) :
    Gives .chargeLoop s fun e =>
      e.rd Reg.BPS_CHG_STAT_duty = (s.dev.chargeStep b).1.toNat ∧ e.bps = { s.dev.bps with ePrev := (s.dev.chargeStep b).2 } ∧
      Frame s.dev e [Reg.BPS_CHG_STAT_duty] [.bps] := by
  refine gives_of_exec_eq_act (f := Dev.chargeLoop) rfl ?_
  rw [Dev.chargeLoop_eq hb h]
  generalize hx : s.dev.chargeStep b = x
  have hlt : x.1.toNat < 2 ^ 16 := by
    rw [← hx]
    exact clampInt_toNat_lt _ hmax
  refine ⟨?_, ?_, (((Frame.refl _ _ _).setDuty _).setBps _).settle⟩
  · rw [Dev.settle_rd _ _ (by decide)]
    exact s.dev.setDuty_duty hlt
  · rw [Dev.settle_bps, Dev.updBps, Dev.setDuty_bps]

theorem gives_chargeSetpoint (hb : s.dev.batt = some b) (h : s.dev.charging = true) : Gives .chargeSetpoint s fun e =>
    ((b.vFull : Int) < s.dev.cellHigh / 10 → (b.iChg : Int) / 64 < s.dev.bps.iSet →
      e.bps.iSet = s.dev.bps.iSet - (b.iChg : Int) / 64) ∧
    (s.dev.cellHigh / 10 + 10 < (b.vFull : Int) → s.dev.bps.iSet < b.iChg →
      e.bps.iSet = min (s.dev.bps.iSet + (b.iChg : Int) / 256) b.iChg) ∧
    (s.dev.rd Reg.BPS_CHG_STAT_state ≠ chFloat →
      e.rd Reg.BPS_CHG_STAT_state = if e.bps.iSet = b.iChg then chCc else chCv) ∧
    Frame s.dev e [Reg.BPS_CHG_STAT_state] [.bps] := by
  refine gives_of_exec_eq_act (f := Dev.chargeSetpoint) rfl ?_
  rw [Dev.chargeSetpoint_eq hb h]
  have hset : (if s.dev.rd Reg.BPS_CHG_STAT_state = chFloat then s.dev.updBps fun x => { x with iSet := s.dev.nextSet b }
      else (s.dev.updBps fun x => { x with iSet := s.dev.nextSet b }).wr Reg.BPS_CHG_STAT_state
        (if s.dev.nextSet b = (b.iChg : Int) then chCc else chCv)).settle.bps.iSet = s.dev.nextSet b := by
    rw [Dev.settle_bps]
    split <;> rfl
  refine ⟨fun hv hi => ?_, fun hv hi => ?_, fun hst => ?_, ?_⟩
  · rw [hset, Dev.nextSet, if_pos hv, if_pos hi]
  · rw [hset, Dev.nextSet, if_neg (by omega), if_pos ⟨hv, hi⟩]
  · rw [hset, if_neg hst, Dev.settle_rd _ _ (by decide), Dev.rd_wr_same]
    split <;> rfl
  · exact (Frame.ite ((Frame.refl _ _ _).setBps _) (((Frame.refl _ _ _).setBps _).wr _ _)).settle

theorem gives_chargeDone (hb : s.dev.batt = some b)
    (h : s.dev.rd Reg.BPS_CHG_STAT_state = chCc ∨ s.dev.rd Reg.BPS_CHG_STAT_state = chCv) (hi : s.dev.bps.iSet ≤ b.iTerm) :
    Gives .chargeDone s fun e =>
      (b.floatMode = true → e.rd Reg.BPS_CHG_STAT_state = chFloat) ∧
      (b.floatMode = false → e.rd Reg.BPS_CHG_STAT_state = chDone ∧ e.rd Reg.BPS_CHG_STAT_duty = 0) ∧
      Frame s.dev e [Reg.BPS_CHG_STAT_state, Reg.BPS_CHG_STAT_duty] [] := by
  refine gives_of_exec_eq_act (f := Dev.chargeDone) rfl ?_
  rw [Dev.chargeDone_eq hb h hi]
  refine ⟨fun hf => ?_, fun hf => ?_, ?_⟩
  · rw [if_pos hf, Dev.settle_rd _ _ (by decide), Dev.rd_wr_same]
    rfl
  · rw [if_neg (by simp [hf]), Dev.settle_rd _ _ (by decide), Dev.settle_rd _ _ (by decide), Dev.rd_wr_same,
      Dev.rd_wr_other _ _ _ _ (by decide), Dev.setDuty_duty _ (v := 0) (by decide)]
    exact ⟨rfl, rfl⟩
  · exact (Frame.ite ((Frame.refl _ _ _).wr _ _) (((Frame.refl _ _ _).setDuty 0).wr _ _)).settle

theorem gives_chargeRestart (hb : s.dev.batt = some b) (h : s.dev.rd Reg.BPS_CHG_STAT_state = chDone)
    (hv : s.dev.cellHigh < (b.vRestart : Int) * 10) : Gives .chargeRestart s fun e =>
      e.rd Reg.BPS_CHG_STAT_state = chCc ∧ e.bps = { s.dev.bps with iSet := b.iChg, ePrev := 0 } ∧
      Frame s.dev e [Reg.BPS_CHG_STAT_state] [.bps] := by
  refine gives_of_exec_eq_act (f := Dev.chargeRestart) rfl ?_
  rw [Dev.chargeRestart_eq hb h hv]
  refine ⟨?_, ?_, (((Frame.refl _ _ _).wr _ _).setBps _).settle⟩
  · rw [Dev.settle_rd _ _ (by decide)]
    exact s.dev.rd_wr_same Reg.BPS_CHG_STAT_state chCc
  · rw [Dev.settle_bps]
    rfl

theorem gives_chargerInhibit (on : Bool) : HostGives 0 .bps (.chargerInhibit on) s fun e =>
    e.rd Reg.BPS_CHG_CTRL_inhibit = b2n on ∧ bitOf (e.rd Reg.BPS_CHG_STAT_inhibit) 0 = on ∧
    (on = true → e.rd Reg.BPS_CHG_STAT_duty = 0) ∧
    (on = false → s.dev.rd Reg.BPS_CHG_STAT_inhibit = 1 → e.rd Reg.BPS_CHG_STAT_state = chCc) ∧
    Frame s.dev e (Reg.BPS_CHG_CTRL_inhibit :: inhibitFields) [.bps] := by
  intro h
  refine gives_of_exec_eq_atFn (g := fun d => d.chargerInhibit on) rfl h fun d hd => ?_
  have htail : Frame (d.wrB Reg.BPS_CHG_CTRL_inhibit on) (d.chargerInhibit on).settle inhibitFields [.bps] :=
    ((Frame.refl _ _ _).setInhibit 0 on (List.Subset.refl _)).settle
  have hshown (f : Fld) (hf : stateKey f.key = false) :
      (d.chargerInhibit on).settle.rd f = ((d.wrB Reg.BPS_CHG_CTRL_inhibit on).setInhibit 0 on).rd f := Dev.settle_rd _ _ hf
  refine ⟨?_, ?_, fun hon => ?_, fun hoff hone => ?_, ?_⟩
  · refine (htail.rd _).trans ((Dev.rd_wr_same _ _ _).trans ?_)
    cases on <;> rfl
  · rw [hshown _ (by decide), Dev.bitOf_setInhibit _ _ _ (by decide), if_pos rfl]
  · rw [hshown _ (by decide), hon, Dev.setInhibit_duty]
  · rw [hshown _ (by decide), hoff]
    refine Dev.setInhibit_restart _ ?_
    exact (Dev.rd_wr_other _ _ _ _ (by decide)).trans ((hd.rd _).trans hone)
  · exact (((Frame.of_woken hd _ _).wr _ _).setInhibit 0 on (by decide)).settle

end

end Sys2Proof
end

section
/-! Rest points and rest windows, the Halo filter, what is published, and a gauge reset (R269 to R278, R286). -/

set_option Elab.async false

namespace Sys2Proof

open Sys2Proof.Machine

section

variable {a d : Dev} {fs : List Fld} {ps : List Part}

theorem Frame.clearHaloCauses (h : Frame a d fs ps) (mask : Nat) (hfs : haloFields ⊆ fs := by decide)
    (hps : [Part.bps, .pwc] ⊆ ps := by decide) : Frame a (d.clearHaloCauses mask) fs ps :=
  (h.wr _ _ (hfs (by decide))).refreshHalo hfs hps

end

namespace Machine

theorem Dev.clearHaloCauses_bps (d : Dev) (mask : Nat) : (d.clearHaloCauses mask).bps = d.bps := by
  unfold Dev.clearHaloCauses
  rw [Dev.refreshHalo_bps]
  rfl

/-! ### Rest windows (R278) -/

/-- A rest window that nothing waits for is over. -/
def Dev.windowClosed (d : Dev) : Dev := d.updBps fun b => { b with restWindow := false, learnAsked := false }

theorem Dev.windowOver_of_none {d : Dev} (h : d.bps.restWindow = false) : d.windowOver = d := by simp [Dev.windowOver, h]

theorem Dev.windowOver_eq {d : Dev} (h : d.bps.restWindow = true) (hasked : d.bps.learnAsked = false) :
    d.windowOver = d.windowClosed.refreshRest := by
  simp [Dev.windowOver, h, hasked, Dev.windowClosed]

theorem Dev.windowOver_frame {d : Dev} (hasked : d.bps.learnAsked = false) : Frame d d.windowOver inhibitFields [.bps] := by
  cases h : d.bps.restWindow with
  | false =>
    rw [Dev.windowOver_of_none h]
    exact .refl _ _ _
  | true =>
    rw [Dev.windowOver_eq h hasked]
    exact ((Frame.refl _ _ _).setBps _).refreshRest

/-- What a rest window's end leaves of the pack's record. -/
theorem Dev.windowOver_get {α : Type} {d : Dev} (hasked : d.bps.learnAsked = false) (f : BpsState → α)
    (hf : ∀ (x : BpsState) (p i : Int) (on : List Nat) (al : Tbl Nat) (l ph : Nat) (u v : Int),
      f { x with ePrev := p, iSet := i, alarmOn := on, alarms := al, learnTick := l, phaseTick := ph, dsgDuty := u, dsgPrev := v } =
        f x := by intros; rfl)
    (hw : ∀ x : BpsState, f { x with restWindow := false, learnAsked := false } = f x := by intros; rfl) :
    f d.windowOver.bps = f d.bps := by
  cases h : d.bps.restWindow with
  | false => rw [Dev.windowOver_of_none h]
  | true =>
    rw [Dev.windowOver_eq h hasked]
    exact ((Dev.setInhibit_kept _ _ _).get f hf).trans (hw _)

theorem Dev.windowOver_restWindow {d : Dev} (hasked : d.bps.learnAsked = false) : d.windowOver.bps.restWindow = false := by
  cases h : d.bps.restWindow with
  | false => rw [Dev.windowOver_of_none h, h]
  | true =>
    rw [Dev.windowOver_eq h hasked]
    exact (Dev.setInhibit_kept _ _ _).get BpsState.restWindow

/-- Once a window is over the charger rests only for a learn cycle. -/
theorem Dev.windowOver_inhibit {d : Dev} (h : d.bps.restWindow = true) (hasked : d.bps.learnAsked = false) :
    bitOf (d.windowOver.rd Reg.BPS_CHG_STAT_inhibit) 2 = decide (2 ≤ d.learnPhaseNo ∧ d.learnPhaseNo ≤ 4) := by
  rw [Dev.windowOver_eq h hasked, Dev.refreshRest, Dev.bitOf_setInhibit _ _ _ (by decide), if_pos rfl]
  rfl

theorem Dev.windowRequest_of_window {d : Dev} (h : d.bps.restWindow = true) : d.windowRequest = d := by
  simp [Dev.windowRequest, h]

/-- A rest window opens. -/
def Dev.windowOpened (d : Dev) : Dev := d.updBps fun b => { b with restWindow := true }

theorem Dev.windowRequest_eq {d : Dev} (h : d.bps.restWindow = false) (hphase : d.learnPhaseNo = 0)
    (hact : d.actRuns .learn wholeDevice = false) : d.windowRequest = d.windowOpened.setInhibit 2 true := by
  simp [Dev.windowRequest, h, hphase, hact, Dev.windowOpened, Dev.refreshRest, Dev.updBps]

end Machine

/-- Both forms of a rest window request end alike. -/
theorem gives_restWindowRequest {s : State} {P : Dev → Prop} (byHost : Bool)
    (hP : ∀ d, Dev.Woken s.dev d → P d.windowRequest.settle) :
    (if byHost then HostGives 0 .bps else Gives) (.restWindowRequest byHost) s P := by
  cases byHost with
  | true => exact fun h => gives_of_exec_eq_atFn (g := Dev.windowRequest) rfl h hP
  | false => exact gives_of_exec_eq_act (f := Dev.windowRequest) rfl (hP _ (.refl _))

section

variable {s : State}

theorem gives_restWindow_granted (byHost : Bool) (h : s.dev.bps.restWindow = false) (hphase : s.dev.learnPhaseNo = 0)
    (hact : s.dev.actRuns .learn 0xFF = false) :
    (if byHost then HostGives 0 .bps else Gives) (.restWindowRequest byHost) s fun e =>
      e.bps.restWindow = true ∧ bitOf (e.rd Reg.BPS_CHG_STAT_inhibit) 2 = true ∧ e.rd Reg.BPS_CHG_STAT_duty = 0 ∧
      Frame s.dev e inhibitFields [.bps] := by
  refine gives_restWindowRequest byHost fun d hd => ?_
  have hbps : d.bps = s.dev.bps := by rw [hd.same]
  have hruns : d.actRuns .learn wholeDevice = false := by
    rw [← hact]
    unfold Dev.actRuns Dev.running
    rw [hd.mnt]
    rfl
  rw [Dev.windowRequest_eq (by rw [hbps, h]) ((hd.rd _).trans hphase) hruns]
  have hframe : Frame s.dev d.windowOpened inhibitFields [.bps] := (Frame.of_woken hd _ _).setBps _
  refine ⟨?_, ?_, ?_, (hframe.setInhibit 2 true (List.Subset.refl _)).settle⟩
  · rw [Dev.settle_bps]
    exact (Dev.setInhibit_kept _ _ _).get BpsState.restWindow
  · rw [Dev.settle_rd _ _ (by decide), Dev.bitOf_setInhibit _ _ _ (by decide), if_pos rfl]
  · rw [Dev.settle_rd _ _ (by decide), Dev.setInhibit_duty]

theorem gives_restWindow_under_way (byHost : Bool) (h : s.dev.bps.restWindow = true) :
    (if byHost then HostGives 0 .bps else Gives) (.restWindowRequest byHost) s fun e => Frame s.dev e [] [] := by
  refine gives_restWindowRequest byHost fun d hd => ?_
  have hbps : d.bps = s.dev.bps := by rw [hd.same]
  rw [Dev.windowRequest_of_window (by rw [hbps, h])]
  exact (Frame.of_woken hd _ _).settle

theorem gives_restWindowCheck_none (h : s.dev.bps.restWindow = false) :
    Gives .restWindowCheck s fun e => Frame s.dev e [] [] :=
  gives_same_of_eq (f := Dev.windowCheck) rfl (by simp [Dev.windowCheck, h])

theorem gives_restWindowEnd_none (h : s.dev.bps.restWindow = false) : Gives .restWindowEnd s fun e => Frame s.dev e [] [] :=
  gives_same_of_eq (f := Dev.windowOver) rfl (Dev.windowOver_of_none h)

theorem gives_restWindowEnd (h : s.dev.bps.restWindow = true) (hasked : s.dev.bps.learnAsked = false) :
    Gives .restWindowEnd s fun e => e.bps.restWindow = false ∧
      bitOf (e.rd Reg.BPS_CHG_STAT_inhibit) 2 = decide (2 ≤ s.dev.learnPhaseNo ∧ s.dev.learnPhaseNo ≤ 4) ∧
      Frame s.dev e inhibitFields [.bps] := by
  refine gives_of_exec_eq_act (f := Dev.windowOver) rfl ⟨?_, ?_, (Dev.windowOver_frame hasked).settle⟩
  · rw [Dev.settle_bps, Dev.windowOver_restWindow hasked]
  · rw [Dev.settle_rd _ _ (by decide), Dev.windowOver_inhibit h hasked]

theorem gives_restWindowCheck (h : s.dev.bps.restWindow = true) (hasked : s.dev.bps.learnAsked = false)
    (hload : s.dev.belowC100 = false) : Gives .restWindowCheck s fun e =>
      e.bps.restWindow = false ∧ Frame s.dev e inhibitFields [.bps] := by
  refine gives_of_exec_eq_act (f := Dev.windowCheck) rfl ?_
  have heq : s.dev.windowCheck = s.dev.windowOver := by simp [Dev.windowCheck, h, hload]
  rw [heq]
  exact ⟨by rw [Dev.settle_bps, Dev.windowOver_restWindow hasked], (Dev.windowOver_frame hasked).settle⟩

end

/-! ### Rest points (R270) -/

namespace Machine

/-- The anchor is taken at a rest point. -/
def Dev.anchored (d : Dev) (b : BattProfile) : Dev :=
  d.updBps fun x => { x with
    anchorS := b.ocvInv ((d.cellLow : Rat) / 10) d.tPack, anchorU := b.anchorU ((d.cellLow : Rat) / 10) d.tPack
    anchorTick := d.ticks, qc := 0, qh := 0, restCand := none, restDone := true }

/-- The causes that a rest point clears. -/
def restMask (d : Dev) : Nat := 1 + 4 + 8 + 32 + 64 + (if d.adcOk 0 && d.adcOk 1 then 16 else 0)

theorem restMask_bit (d : Dev) {i : Nat} (hi : i ∈ [0, 2, 3, 5, 6]) : (restMask d).testBit i = true := by
  unfold restMask
  split
  · exact (by decide : ∀ i ∈ [0, 2, 3, 5, 6], (1 + 4 + 8 + 32 + 64 + 16).testBit i = true) i hi
  · exact (by decide : ∀ i ∈ [0, 2, 3, 5, 6], (1 + 4 + 8 + 32 + 64 + 0).testBit i = true) i hi

/-- What a rest point's causes and alarm follow. -/
def Dev.restNoted (d : Dev) (b : BattProfile) : Dev := (d.anchored b).wr Reg.BPS_REST_TS_ts (d.anchored b).now

/-- A rest point before it ends a rest window. -/
def Dev.restJudged (d : Dev) : Dev :=
  let d := d.clearHaloCauses (restMask d)
  d.alarmIf 11 (decide (1000 < d.cellHigh - d.cellLow))

theorem Dev.restPoint_eq {d : Dev} {b : BattProfile} (hb : d.batt = some b) (h : d.bps.restCand ≠ none) :
    d.restPoint = (d.restNoted b).restJudged.windowOver := by
  obtain ⟨c, hc⟩ := Option.ne_none_iff_exists'.1 h
  unfold Dev.restPoint
  simp only [hb, hc]
  rfl

theorem Dev.restPoint_of_none {d : Dev} (h : d.bps.restCand = none) : d.restPoint = d := by
  unfold Dev.restPoint
  cases d.batt <;> simp [h]

theorem Dev.restJudged_frame (d : Dev) : Frame d d.restJudged haloFields [.bps, .pwc] :=
  ((Frame.refl d _ _).clearHaloCauses _).alarmIf 11 _

theorem Dev.restJudged_kept (d : Dev) : Dev.PackKept d d.restJudged :=
  .trans (.of_bps (d.clearHaloCauses_bps _)) (Dev.alarmIf_kept _ _ _)

theorem Dev.restJudged_bit (d : Dev) {i : Nat} (hi : i ∈ [0, 2, 3, 5, 6]) :
    bitOf (d.restJudged.rd Reg.BPS_HALO_STAT_causes) i = false := by
  have hlt : i < 7 := (by decide : ∀ i ∈ [0, 2, 3, 5, 6], i < 7) i hi
  unfold Dev.restJudged
  dsimp only
  rw [(Dev.alarmIf_frame _ _ _).rd Reg.BPS_HALO_STAT_causes]
  exact d.clearHaloCauses_bit _ hlt (restMask_bit d hi)

end Machine

theorem gives_restPoint {s : State} {b : BattProfile} (hb : s.dev.batt = some b) (h : s.dev.bps.restCand ≠ none)
    (hasked : s.dev.bps.learnAsked = false) : Gives .restPoint s fun e =>
      e.bps.anchorS = b.ocvInv ((s.dev.cellLow : Rat) / 10) s.dev.tPack ∧
      e.bps.anchorU = b.anchorU ((s.dev.cellLow : Rat) / 10) s.dev.tPack ∧ e.bps.qc = 0 ∧ e.bps.qh = 0 ∧ e.bps.restCand = none ∧
      e.bps.restWindow = false ∧ e.rd Reg.BPS_REST_TS_ts = s.dev.now % 2 ^ 64 ∧
      (∀ i ∈ [0, 2, 3, 5, 6], bitOf (e.rd Reg.BPS_HALO_STAT_causes) i = false) ∧
      Frame s.dev e (Reg.BPS_REST_TS_ts :: inhibitFields ++ haloFields) [.bps, .pwc] := by
  refine gives_of_exec_eq_act (f := Dev.restPoint) rfl ?_
  rw [Dev.restPoint_eq hb h]
  have hnoted : Frame s.dev (s.dev.restNoted b) (Reg.BPS_REST_TS_ts :: inhibitFields ++ haloFields) [.bps, .pwc] :=
    ((Frame.refl _ _ _).setBps _).wr _ _
  have hts : (s.dev.restNoted b).rd Reg.BPS_REST_TS_ts = s.dev.now % 2 ^ 64 :=
    Dev.rd_wr_same (s.dev.anchored b) Reg.BPS_REST_TS_ts _
  have hbps : (s.dev.restNoted b).bps = (s.dev.anchored b).bps := rfl
  have hanchored : (s.dev.anchored b).bps = { s.dev.bps with
      anchorS := b.ocvInv ((s.dev.cellLow : Rat) / 10) s.dev.tPack
      anchorU := b.anchorU ((s.dev.cellLow : Rat) / 10) s.dev.tPack
      anchorTick := s.dev.ticks, qc := 0, qh := 0, restCand := none, restDone := true } := rfl
  generalize s.dev.restNoted b = x at *
  have hjudged := x.restJudged_frame
  have hkept := x.restJudged_kept
  have hbits (i : Nat) (hi : i ∈ [0, 2, 3, 5, 6]) := x.restJudged_bit hi
  generalize x.restJudged = y at *
  have hasked' : y.bps.learnAsked = false := by rw [hkept.get BpsState.learnAsked, hbps, hanchored, hasked]
  have hover := Dev.windowOver_frame hasked'
  rw [Dev.settle_bps]
  refine ⟨?_, ?_, ?_, ?_, ?_, Dev.windowOver_restWindow hasked', ?_, fun i hi => ?_, ?_⟩
  · rw [Dev.windowOver_get hasked' BpsState.anchorS, hkept.get BpsState.anchorS, hbps, hanchored]
  · rw [Dev.windowOver_get hasked' BpsState.anchorU, hkept.get BpsState.anchorU, hbps, hanchored]
  · rw [Dev.windowOver_get hasked' BpsState.qc, hkept.get BpsState.qc, hbps, hanchored]
  · rw [Dev.windowOver_get hasked' BpsState.qh, hkept.get BpsState.qh, hbps, hanchored]
  · rw [Dev.windowOver_get hasked' BpsState.restCand, hkept.get BpsState.restCand, hbps, hanchored]
  · exact (hover.settle.rd _).trans ((hjudged.rd _).trans hts)
  · rw [hover.settle.rd Reg.BPS_HALO_STAT_causes]
    exact hbits i hi
  · exact ((hnoted.trans hjudged).trans hover).settle

theorem gives_restPoint_none {s : State} (h : s.dev.bps.restCand = none) : Gives .restPoint s fun e => Frame s.dev e [] [] :=
  gives_same_of_eq (f := Dev.restPoint) rfl (Dev.restPoint_of_none h)

end Sys2Proof
end

section
/-! The Halo filter, what Halo publishes, and a gauge reset (R269, R271, R275 to R277, R286). -/

set_option Elab.async false

namespace Sys2Proof

open Sys2Proof.Machine

/-! ### The filter (R271) -/

theorem filt_step_soc (f : Filt) (b : BattProfile) (qL : Nat) (r0 rdc d : Rat) (both : Bool) (i v : Rat) (temp : Int) :
    0 ≤ (f.step b qL r0 rdc d both i v temp).soc ∧ (f.step b qL r0 rdc d both i v temp).soc ≤ 1 :=
  ⟨le_max_left _ _, max_le (by norm_num) (min_le_left _ _)⟩

theorem Machine.Dev.filterStep_of_not_filter {d : Dev} (h : d.haloMode ≠ hmFilter) : d.filterStep = d := by
  unfold Dev.filterStep
  cases d.batt <;> simp [h]

theorem Machine.Dev.filterStep_eq {d : Dev} {b : BattProfile} (hb : d.batt = some b) (h : d.haloMode = hmFilter) :
    ∃ f : Filt, 0 ≤ f.soc ∧ f.soc ≤ 1 ∧ d.filterStep = d.updBps fun x => { x with filt := f } := by
  unfold Dev.filterStep
  simp only [hb, h]
  exact ⟨_, (filt_step_soc _ _ _ _ _ _ _ _ _ _).1, (filt_step_soc _ _ _ _ _ _ _ _ _ _).2, rfl⟩

theorem gives_filterStep {s : State} {b : BattProfile} (hb : s.dev.batt = some b) (h : s.dev.haloMode = hmFilter) :
    Gives .filterStep s fun e => 0 ≤ e.bps.filt.soc ∧ e.bps.filt.soc ≤ 1 ∧
      e.bps = { s.dev.bps with filt := e.bps.filt } ∧ Frame s.dev e [] [.bps] := by
  refine gives_of_exec_eq_act (f := Dev.filterStep) rfl ?_
  obtain ⟨f, h0, h1, heq⟩ := Dev.filterStep_eq hb h
  rw [heq, Dev.settle_bps]
  exact ⟨h0, h1, rfl, ((Frame.refl _ _ _).setBps _).settle⟩

/-! ### What Halo publishes (R275, R276) -/

/-- The energy that a bound gives, for a state of charge, its uncertainty and that of the capacity. -/
def Machine.Dev.boundEnergy (d : Dev) (b : BattProfile) (s u uQ : Rat) : Rat :=
  match d.duskProfile with
  | some x => b.eLow s u d.qL uQ d.tPack x.pDusk
  | none => 0

/-- What a publication shows where there is no bound. -/
def Machine.Dev.noBound (d : Dev) : Dev := d.wr Reg.BPS_E_LOW_j 0 |>.wr Reg.BPS_VOLT_v_ocv 0

section

variable {d : Dev} {b : BattProfile}

theorem Machine.Dev.haloPublish_eq_boundEnergy (hb : d.batt = some b) (hm : d.haloMode ≠ hmNone) :
    d.haloPublish = (d.publishGauge b).publishBound d.uncNow ((d.publishGauge b).boundEnergy b d.socNow d.uncNow d.uQ)
      (d.boundOcv b) := by
  rw [← d.publishGauge_haloMode b] at hm
  unfold Dev.haloPublish
  simp only [hb]
  exact if_neg hm

theorem Machine.Dev.haloPublish_eq_noBound (hb : d.batt = some b) (hm : d.haloMode = hmNone) :
    d.haloPublish = (d.publishGauge b).noBound := by
  rw [← d.publishGauge_haloMode b] at hm
  unfold Dev.haloPublish
  simp only [hb]
  exact if_pos hm

theorem Machine.Dev.publishGauge_boundEnergy (s u uQ : Rat) :
    (d.publishGauge b).boundEnergy b s u uQ = d.boundEnergy b s u uQ := by
  have hframe := d.publishGauge_frame b
  have hbps : (d.publishGauge b).bps = d.bps := hframe.part .bps
  unfold Dev.boundEnergy Dev.duskProfile Dev.qL Dev.tPack
  rw [hbps, hframe.rd Reg.BPS_Q_learned]

theorem Machine.Dev.publishGauge_rd : (d.publishGauge b).rd Reg.BPS_HALO_STAT_soc = hundredths d.socNow % 2 ^ 16 ∧
    (d.publishGauge b).rd Reg.BPS_HALO_U_u = min 0xFFFF (hundredths d.uncNow) ∧
    (d.publishGauge b).rd Reg.BPS_VOLT_v_min = b.n * b.vMin % 2 ^ 16 := by
  unfold Dev.publishGauge
  refine ⟨?_, ?_, Dev.rd_wr_same _ _ _⟩
  · rw [Dev.rd_wr_other _ _ _ _ (by decide), Dev.rd_wr_other _ _ _ _ (by decide), Dev.rd_wr_other _ _ _ _ (by decide),
      Dev.rd_wr_same]
    rfl
  · rw [Dev.rd_wr_other _ _ _ _ (by decide), Dev.rd_wr_other _ _ _ _ (by decide), Dev.rd_wr_same]
    exact Nat.mod_eq_of_lt (Nat.lt_succ_of_le (Nat.min_le_left _ _))

/-- The registers of a bound. -/
def boundFields : List Fld := [Reg.BPS_E_LOW_j, Reg.BPS_VOLT_v_ocv]

theorem Machine.Dev.publishBound_frame' (u eLow : Rat) (v : Nat) :
    Frame d (d.publishBound u eLow v) (boundFields ++ haloFields) [.bps, .pwc] := by
  have hwr : Frame d (d.wr Reg.BPS_E_LOW_j (min (floorRat eLow).toNat (2 ^ 32 - 1)) |>.wr Reg.BPS_VOLT_v_ocv v)
      (boundFields ++ haloFields) [.bps, .pwc] := ((Frame.refl _ _ _).wr _ _).wr _ _
  exact hwr.trans (d.publishBound_frame u eLow v)

theorem Machine.Dev.publishBound_eLow (u eLow : Rat) (v : Nat) :
    (d.publishBound u eLow v).rd Reg.BPS_E_LOW_j = min (floorRat eLow).toNat (2 ^ 32 - 1) := by
  rw [(d.publishBound_frame u eLow v).rd Reg.BPS_E_LOW_j, Dev.rd_wr_other _ _ _ _ (by decide), Dev.rd_wr_same]
  exact Nat.mod_eq_of_lt (Nat.lt_succ_of_le (Nat.min_le_right _ _))

/-- An uncertainty above 15 % starts the filter. -/
theorem Machine.Dev.publishBound_wide {u : Rat} (hu : (15 : Rat) / 100 < u) (eLow : Rat) (v : Nat) :
    bitOf ((d.publishBound u eLow v).rd Reg.BPS_HALO_STAT_causes) 6 = true := by
  unfold Dev.publishBound
  extract_lets x wide y z
  have hwide : wide = true := decide_eq_true hu
  have hz : bitOf (z.rd Reg.BPS_HALO_STAT_causes) 6 = true := by
    dsimp only [z]
    rw [hwide, Bool.true_and]
    cases hbit : bitOf (y.rd Reg.BPS_HALO_STAT_causes) 6 with
    | false => exact y.setHaloCause_bit (bit := 6) (by decide)
    | true => exact hbit
  split
  · rw [(Dev.alarmIf_frame _ _ _).rd Reg.BPS_HALO_STAT_causes]
    exact hz
  · exact hz

end

/-- What a publication shows of the gauge. -/
def gaugeFields : List Fld := [Reg.BPS_HALO_STAT_soc, Reg.BPS_HALO_U_u, Reg.BPS_HALO_U_u_q, Reg.BPS_VOLT_v_min]

theorem gives_haloPublish {s : State} {b : BattProfile} (hb : s.dev.batt = some b) : Gives .haloPublish s fun e =>
    e.rd Reg.BPS_HALO_STAT_soc = hundredths s.dev.socNow % 2 ^ 16 ∧
    e.rd Reg.BPS_HALO_U_u = min 0xFFFF (hundredths s.dev.uncNow) ∧
    e.rd Reg.BPS_VOLT_v_min = b.n * b.vMin % 2 ^ 16 ∧
    (s.dev.haloMode = hmNone → e.rd Reg.BPS_E_LOW_j = 0 ∧ e.rd Reg.BPS_VOLT_v_ocv = 0) ∧
    (∀ y, s.dev.haloMode ≠ hmNone → s.dev.duskProfile = some y → e.rd Reg.BPS_E_LOW_j =
      min (floorRat (b.eLow s.dev.socNow s.dev.uncNow s.dev.qL s.dev.uQ s.dev.tPack y.pDusk)).toNat (2 ^ 32 - 1)) ∧
    (s.dev.haloMode ≠ hmNone → (15 : Rat) / 100 < s.dev.uncNow → bitOf (e.rd Reg.BPS_HALO_STAT_causes) 6 = true) ∧
    Frame s.dev e (gaugeFields ++ boundFields ++ haloFields) [.bps, .pwc] := by
  refine gives_of_exec_eq_act (f := Dev.haloPublish) rfl ?_
  have hgauge := s.dev.publishGauge_frame b
  obtain ⟨hsoc, hu, hmin⟩ := Dev.publishGauge_rd (d := s.dev) (b := b)
  have htail : Frame (s.dev.publishGauge b) s.dev.haloPublish (boundFields ++ haloFields) [.bps, .pwc] := by
    by_cases hm : s.dev.haloMode = hmNone
    · rw [Dev.haloPublish_eq_noBound hb hm]
      exact ((Frame.refl _ _ _).wr _ _).wr _ _
    · rw [Dev.haloPublish_eq_boundEnergy hb hm]
      exact Dev.publishBound_frame' _ _ _
  refine ⟨(htail.settle.rd _).trans hsoc, (htail.settle.rd _).trans hu, (htail.settle.rd _).trans hmin, fun hm => ?_,
    fun y hm hy => ?_, fun hm hwide => ?_, ?_⟩
  · rw [Dev.settle_rd _ _ (by decide), Dev.settle_rd _ _ (by decide), Dev.haloPublish_eq_noBound hb hm]
    unfold Dev.noBound
    exact ⟨by rw [Dev.rd_wr_other _ _ _ _ (by decide), Dev.rd_wr_same, Nat.zero_mod], by rw [Dev.rd_wr_same, Nat.zero_mod]⟩
  · rw [Dev.settle_rd _ _ (by decide), Dev.haloPublish_eq_boundEnergy hb hm, Dev.publishBound_eLow,
      Dev.publishGauge_boundEnergy, Dev.boundEnergy, hy]
  · rw [Dev.settle_rd _ _ (by decide), Dev.haloPublish_eq_boundEnergy hb hm]
    exact Dev.publishBound_wide hwide _ _
  · exact (((Frame.refl s.dev _ _).trans hgauge).trans htail).settle

/-! ### The first bound and a gauge reset -/

theorem gives_haloFirstBound (s : State) : Gives .haloFirstBound s fun e =>
    e.bps.firstSecond = false ∧
    (∀ b, s.dev.batt = some b → s.dev.packHere = true → s.dev.anyAdc = true → s.dev.bps.ntc0Bad = false →
      e.rd Reg.BPS_HALO_STAT_mode = if s.dev.inFilter then hmFilter else hmTable) ∧
    Frame s.dev e haloFields [.bps, .pwc] := by
  refine gives_of_exec_eq_act (f := Dev.firstBound) rfl ⟨?_, fun b hb hpack hadc hntc => ?_, ?_⟩
  · rw [Dev.settle_bps, Dev.firstBound, Dev.refreshHalo_bps]
    rfl
  · rw [Dev.settle_rd _ _ (by decide), Dev.firstBound, Dev.refreshHalo_mode]
    have hmode (x : Dev) (hx : x.bps.firstSecond = false) (hxb : x.batt = some b) (hxp : x.packHere = true)
        (hxa : x.anyAdc = true) (hxn : x.bps.ntc0Bad = false) : x.haloMode = if x.inFilter then hmFilter else hmTable := by
      simp [Dev.haloMode, hx, hxb, hxp, hxa, hxn]
    exact hmode _ rfl hb hpack hadc hntc
  · exact (((Frame.refl _ _ _).setBps _).refreshHalo).settle

theorem Machine.Dev.Disqualified.of_shown {a d e : Dev} {reason : Nat} (h : Dev.Disqualified d e reason)
    (hphase : d.learnPhaseNo = a.learnPhaseNo) : Dev.Disqualified a e reason := by
  unfold Dev.Disqualified at *
  rwa [← hphase]

theorem gives_gaugeReset (s : State) : HostGives 0 .bps .gaugeReset s fun e =>
    bitOf (e.rd Reg.BPS_HALO_STAT_causes) 3 = true ∧ e.bps.filt = s.dev.filterEntry 3 ∧ Dev.Disqualified s.dev e 10 ∧
    Frame s.dev e (inhibitFields ++ haloFields ++ learnShown) [.bps, .pwc, .sys] := by
  intro h
  refine gives_of_exec_eq_atFn (g := Dev.gaugeReset) rfl h fun d hd => ?_
  refine ⟨?_, ?_, ?_, ?_⟩
  · rw [Dev.settle_rd _ _ (by decide)]
    exact Dev.setHaloCause_bit _ (bit := 3) (by decide)
  · rw [Dev.settle_bps, Dev.gaugeReset, Dev.setHaloCause_bps _ (bit := 3) (by decide)]
    exact (hd.packKept.trans (d.learnStop_kept 10)).filterEntry (bit := 3) (by decide)
  · refine (Dev.Disqualified.of_stop (x := d) (fs := haloFields) (ps := [.bps, .pwc]) (by decide) rfl ?_ ?_).of_shown (hd.rd _)
    · exact ((Frame.refl _ _ _).setHaloCause 3).settle
    · exact (Dev.setHaloCause_grows _ _).trans (Dev.settle_grows _)
  · exact (((Frame.of_woken hd _ _).learnStop 10 (by decide)).setHaloCause 3).settle

end Sys2Proof
end

section
/-! Battery samples, the charger, rest points and Halo: the obligation. -/

set_option Elab.async false

namespace Sys2Proof

open Sys2Proof.Machine

theorem append_subset_append_of_subset {α : Type} (xs : List α) {ys zs : List α} (h : ys ⊆ zs) : xs ++ ys ⊆ xs ++ zs :=
  List.append_subset.2 ⟨List.subset_append_left _ _, List.Subset.trans h (List.subset_append_right _ _)⟩

/-- Settles O54: what each command of the pack, the charger, the rest window and the gauge shows, and the fields that the
charger's and Halo's shared operations may change. -/
theorem batterySamplesAndHalo : Obligations.BatterySamplesAndHalo := by
  intro p n on byHost b s hn hcells
  refine ⟨?_, fun h => ?_, fun h => gives_packPresent_here h, ?_, ?_, fun h => ?_, fun hb h => ⟨fun hmax => ?_, ?_⟩,
    fun hb hst hi => gives_chargeDone hb hst hi, fun hb hst hv => gives_chargeRestart hb hst hv, fun hst => ?_,
    gives_chargerInhibit on, fun h => gives_restPoint_none h, fun hb h hasked => ?_,
    fun h hphase hact => ⟨gives_restWindow_granted byHost h hphase hact, gives_restWindowCheck_none h, gives_restWindowEnd_none h⟩,
    fun h => ⟨gives_restWindow_under_way byHost h, gives_restWindowEnd h, gives_restWindowCheck h⟩,
    fun h => ?_, fun hb h => gives_filterStep hb h, fun hb => ?_, ?_, ?_⟩
  · refine (gives_packAbsent s).mono fun e ⟨hpack, hinhibit, hduty, hmode, hspoilt, hframe⟩ => ?_
    exact ⟨hpack, hinhibit, hduty, hmode, hspoilt, hframe.mono⟩
  · refine (gives_packPresent h).mono fun e ⟨hpack, hcause, hfilt, hframe⟩ => ?_
    exact ⟨hpack, hcause, hfilt, hframe.mono⟩
  · refine (gives_ntcFault hn s).mono fun e ⟨htemp, hbad, hboth, hframe⟩ => ⟨htemp, hbad, hboth, hframe.mono ?_⟩
    exact List.cons_subset_cons _ (by decide)
  · refine (gives_packSample p hcells).mono fun e ⟨hsample, hqc, hcur, hcell, htemp0, htemp1, hover, hframe⟩ => ?_
    refine ⟨hsample, hqc, hcur, hcell, htemp0, htemp1, fun hb => hover b hb, hframe.mono ?_⟩
    simp only [List.append_assoc]
    have hwatch : watchFields ⊆ inhibitFields ++ ([Reg.BPS_HALO_STAT_mode, Reg.BPS_HALO_STAT_causes, Reg.PWC_CEIL_E_mib,
        Reg.PWC_CEIL_IN_p_avail_w, Reg.PWC_CEIL_IN_p_dusk_w, Reg.PWC_CEIL_mib, Reg.PWC_CEIL_limit, Reg.PWC_STAT_mode] ++
        learnShown) := by decide
    exact append_subset_append_of_subset _ (append_subset_append_of_subset _ hwatch)
  · exact ⟨gives_same_of_eq (f := Dev.chargeLoop) rfl (Dev.chargeLoop_of_not_charging h),
      gives_same_of_eq (f := Dev.chargeSetpoint) rfl (Dev.chargeSetpoint_of_not_charging h)⟩
  · exact gives_chargeLoop hb h hmax
  · exact gives_chargeSetpoint hb h
  · exact gives_same_of_eq (f := Dev.chargeRestart) rfl (Dev.chargeRestart_of_not_done hst)
  · refine (gives_restPoint hb h hasked).mono fun e ⟨hs, hu, hqc, hqh, hcand, hwindow, hts, hbits, hframe⟩ => ?_
    exact ⟨hs, hu, hqc, hqh, hcand, hwindow, hts, hbits, hframe.mono⟩
  · exact gives_same_of_eq (f := Dev.filterStep) rfl (Dev.filterStep_of_not_filter h)
  · refine (gives_haloPublish hb).mono fun e ⟨hsoc, hu, hmin, hnone, hbound, hwide, hframe⟩ => ?_
    exact ⟨hsoc, hu, hmin, hnone, hbound, hwide, hframe.mono⟩
  · refine (gives_haloFirstBound s).mono fun e ⟨hfirst, hmode, hframe⟩ => ⟨hfirst, fun hb => hmode b hb, hframe.mono⟩
  · intro h
    refine (gives_gaugeReset s h).mono fun e ⟨hcause, hfilt, hspoilt, hframe⟩ => ?_
    exact ⟨hcause, hfilt, hspoilt, hframe.mono⟩

end Sys2Proof
end

section
/-! Load steps and natural steps: what is measured of the pack's resistance (R272 to R274). -/

set_option Elab.async false

namespace Sys2Proof

open Sys2Proof.Machine

/-- A resistance in 0.1 mΩ from a voltage and a current difference. -/
def stepRes (dv di : Int) : Int := roundRat (divRat ((dv * 10000 : Int) : Rat) (di : Rat))

/-- The immediate resistance that a measurement gives. -/
def StepMeas.r0 (m : StepMeas) : Int := stepRes (m.vb - m.v1) (m.ib - m.i1)

/-- The resistance after 200 ms that a measurement gives. -/
def StepMeas.rdc (m : StepMeas) : Int := stepRes (m.vb - m.v200) (m.ib - m.i200)

/-- A measurement that meets the conditions of R272, for a current difference. -/
def StepMeas.Good (m : StepMeas) (b : BattProfile) (di : Int) : Prop :=
  (b.stepMa : Int) ≤ 2 * di ∧ 2 * di ≤ 3 * (b.stepMa : Int) ∧ m.varied = false ∧ m.r0 ≤ m.rdc

/-- The fields that a judged step changes. -/
def judgedFields : List Fld := [Reg.BPS_STEP_accepted, Reg.BPS_STEP_rejected, Reg.BPS_STEP_last, Reg.BPS_R_LAST_r0,
  Reg.BPS_R_LAST_r_dc, Reg.BPS_R_r0, Reg.BPS_R_r_dc]

namespace Machine

/-- A step was taken: it is shown and joins the last five. -/
structure Dev.StepTaken (d e : Dev) (r0 rdc : Nat) : Prop where
  last : e.rd Reg.BPS_STEP_last = 1
  shownR0 : e.rd Reg.BPS_R_LAST_r0 = r0 % 2 ^ 16
  shownRdc : e.rd Reg.BPS_R_LAST_r_dc = rdc % 2 ^ 16
  r0s : e.bps.r0s = (r0 :: d.bps.r0s).take 5
  accepted : e.rd Reg.BPS_STEP_accepted = min (d.rd Reg.BPS_STEP_accepted + 1) 0xFFFF

/-- A step was rejected and counted. -/
structure Dev.StepTurned (d e : Dev) : Prop where
  last : e.rd Reg.BPS_STEP_last = 2
  raised : Raised e .bps 19
  r0s : e.bps.r0s = d.bps.r0s
  rejected : e.rd Reg.BPS_STEP_rejected = min (d.rd Reg.BPS_STEP_rejected + 1) 0xFF

/-- What follows a judged step changes the charger and the load pin only. -/
structure Dev.StepKept (d e : Dev) : Prop where
  frame : Frame d e inhibitFields [.bps, .sys]
  r0s : e.bps.r0s = d.bps.r0s
  grows : Dev.Grows d e

section

variable {a d e : Dev}

theorem Dev.StepKept.trans (h : Dev.StepKept a d) (k : Dev.StepKept d e) : Dev.StepKept a e :=
  ⟨h.frame.trans k.frame, k.r0s.trans h.r0s, h.grows.trans k.grows⟩

theorem Dev.StepTaken.keep {r0 rdc : Nat} (h : Dev.StepTaken a d r0 rdc) (k : Dev.StepKept d e) : Dev.StepTaken a e r0 rdc :=
  ⟨(k.frame.rd _).trans h.last, (k.frame.rd _).trans h.shownR0, (k.frame.rd _).trans h.shownRdc, k.r0s.trans h.r0s,
    (k.frame.rd _).trans h.accepted⟩

theorem Dev.StepTurned.keep (h : Dev.StepTurned a d) (k : Dev.StepKept d e) : Dev.StepTurned a e :=
  ⟨(k.frame.rd _).trans h.last, k.grows.raised h.raised, k.r0s.trans h.r0s, (k.frame.rd _).trans h.rejected⟩

theorem Dev.StepTaken.after {r0 rdc : Nat} (k : Dev.StepKept a d) (h : Dev.StepTaken d e r0 rdc) : Dev.StepTaken a e r0 rdc :=
  ⟨h.last, h.shownR0, h.shownRdc, by rw [h.r0s, k.r0s], by rw [h.accepted, k.frame.rd Reg.BPS_STEP_accepted]⟩

theorem Dev.StepTurned.after (k : Dev.StepKept a d) (h : Dev.StepTurned d e) : Dev.StepTurned a e :=
  ⟨h.last, h.raised, by rw [h.r0s, k.r0s], by rw [h.rejected, k.frame.rd Reg.BPS_STEP_rejected]⟩

end

theorem Dev.settle_stepKept (d : Dev) : Dev.StepKept d d.settle :=
  ⟨(Frame.refl _ _ _).settle, by rw [Dev.settle_bps], d.settle_grows⟩

theorem Dev.setLoadPin_frame (d : Dev) (on : Bool) : Frame d (d.setLoadPin on) [] [.sys] :=
  .ite (.refl _ _ _) (((Frame.refl d _ _).setSys _).reports (Dev.emit_reports _ _))

theorem Dev.setInhibit_stepKept (d : Dev) (bit : Nat) (on : Bool) : Dev.StepKept d (d.setInhibit bit on) :=
  ⟨(Frame.refl _ _ _).setInhibit bit on (List.Subset.refl _), (d.setInhibit_kept bit on).get BpsState.r0s,
    d.setInhibit_grows bit on⟩

theorem Dev.setLoadPin_stepKept (d : Dev) (on : Bool) : Dev.StepKept d (d.setLoadPin on) :=
  ⟨(d.setLoadPin_frame on).mono, congrArg BpsState.r0s ((d.setLoadPin_frame on).part .bps), d.setLoadPin_grows on⟩

/-! ### One measurement -/

theorem Dev.takeStep_frame (d : Dev) (r0 rdc : Nat) : Frame d (d.takeStep r0 rdc) judgedFields [.bps] := by
  unfold Dev.takeStep
  exact (((((((Frame.refl d _ _).setBps _).incSat _ _).wr _ _).wr _ _).wr _ _).wr _ _).wr _ _

theorem Dev.takeStep_taken (d : Dev) (r0 rdc : Nat) : Dev.StepTaken d (d.takeStep r0 rdc) r0 rdc := by
  unfold Dev.takeStep
  extract_lets r0s rdcs f x
  have hx (g : Fld) : x.rd g = d.rd g := rfl
  refine ⟨?_, ?_, ?_, rfl, ?_⟩
  · rw [Dev.rd_wr_other _ _ _ _ (by decide), Dev.rd_wr_other _ _ _ _ (by decide), Dev.rd_wr_other _ _ _ _ (by decide),
      Dev.rd_wr_other _ _ _ _ (by decide), Dev.rd_wr_same]
    rfl
  · rw [Dev.rd_wr_other _ _ _ _ (by decide), Dev.rd_wr_other _ _ _ _ (by decide), Dev.rd_wr_other _ _ _ _ (by decide),
      Dev.rd_wr_same]
    rfl
  · rw [Dev.rd_wr_other _ _ _ _ (by decide), Dev.rd_wr_other _ _ _ _ (by decide), Dev.rd_wr_same]
    rfl
  · rw [Dev.rd_wr_other _ _ _ _ (by decide), Dev.rd_wr_other _ _ _ _ (by decide), Dev.rd_wr_other _ _ _ _ (by decide),
      Dev.rd_wr_other _ _ _ _ (by decide), Dev.rd_wr_other _ _ _ _ (by decide), Dev.rd_incSat_same, hx]
    rfl

theorem Dev.rejectStep_frame (d : Dev) : Frame d d.rejectStep judgedFields [] :=
  ((((Frame.refl d _ _).incSat _ _).wr _ _).reports (Dev.causeBit_reports _ _ _)).reports (Dev.errCorr_reports _ _ _)

theorem Dev.rejectStep_turned (d : Dev) : Dev.StepTurned d d.rejectStep := by
  have hrep : Dev.Reports ((d.incSat Reg.BPS_STEP_rejected).wr Reg.BPS_STEP_last 2) d.rejectStep :=
    (Dev.causeBit_reports _ _ _).trans (Dev.errCorr_reports _ _ _)
  refine ⟨?_, ?_, ?_, ?_⟩
  · exact (hrep.rd _).trans (Dev.rd_wr_same _ _ _)
  · exact (Dev.errCorr_grows _ _ _).raised (Dev.causeBit_raised _ _ _)
  · rw [hrep.same]
    rfl
  · exact (hrep.rd _).trans ((Dev.rd_wr_other _ _ _ _ (by decide)).trans (Dev.rd_incSat_same _ _ _))

/-- The gain estimate that a load step gives (R293). -/
def Dev.stepGain (d : Dev) (m : StepMeas) (natural : Bool) : Dev :=
  match d.bps.bcal with
  | some c =>
    if natural then d
    else
      let amps := divRat ((m.v200 * 1000 : Int) : Rat) (c.rLs : Rat)
      let g := roundRat ((d.rd (Reg.BPS_CH_GAIN_gain.ix 4) : Rat) * divRat amps ((m.ib - m.i200 : Int) : Rat))
      d.updBps fun x => { x with gainEsts := (g :: x.gainEsts).take 5 }
  | none => d

/-- The current difference that R272 and R273 judge. -/
def stepDi (m : StepMeas) (natural : Bool) : Int := (if natural then -1 else 1) * (m.ib - m.i200)

theorem Dev.judgeStep_good {d : Dev} {b : BattProfile} {m : StepMeas} {natural : Bool} (h : m.Good b (stepDi m natural)) :
    d.judgeStep b m natural = (d.takeStep m.r0.toNat m.rdc.toNat).stepGain m natural := by
  obtain ⟨hlow, hhigh, hvaried, hle⟩ := h
  have hok : ¬ (2 * stepDi m natural < (b.stepMa : Int) ∨ 3 * (b.stepMa : Int) < 2 * stepDi m natural ∨ m.varied = true ∨
      m.rdc < m.r0) := by
    rw [hvaried]
    simp only [Bool.false_eq_true, false_or, not_or]
    omega
  exact if_neg hok

theorem Dev.judgeStep_bad {d : Dev} {b : BattProfile} {m : StepMeas} {natural : Bool} (h : ¬ m.Good b (stepDi m natural)) :
    d.judgeStep b m natural = d.rejectStep := by
  have hbad : 2 * stepDi m natural < (b.stepMa : Int) ∨ 3 * (b.stepMa : Int) < 2 * stepDi m natural ∨ m.varied = true ∨
      m.rdc < m.r0 := by
    by_contra hok
    simp only [not_or, not_lt, Bool.not_eq_true] at hok
    exact h hok
  exact if_pos hbad

theorem Dev.stepGain_frame (d : Dev) (m : StepMeas) (natural : Bool) : Frame d (d.stepGain m natural) [] [.bps] := by
  unfold Dev.stepGain
  split
  · exact .ite (.refl _ _ _) ((Frame.refl _ _ _).setBps _)
  · exact .refl _ _ _

theorem Dev.stepGain_stepKept (d : Dev) (m : StepMeas) (natural : Bool) : Dev.StepKept d (d.stepGain m natural) := by
  refine ⟨(d.stepGain_frame m natural).mono, ?_, ?_⟩
  · unfold Dev.stepGain
    split
    · split
      · rfl
      · rfl
    · rfl
  · unfold Dev.stepGain
    split
    · exact .ite (.refl _) (Dev.updBps_grows _ _)
    · exact .refl _

end Machine

/-! ### Natural steps (R273) -/

section

variable {s : State} {b : BattProfile} (m : StepMeas) (hb : s.dev.batt = some b)
include hb

theorem gives_naturalStep_good (h : m.Good b (m.i200 - m.ib)) : Gives (.naturalStep m) s fun e =>
    Dev.StepTaken s.dev e m.r0.toNat m.rdc.toNat ∧ Frame s.dev e judgedFields [.bps] := by
  refine gives_of_exec_eq_act (f := fun d => d.naturalStep m) rfl ?_
  have hdi : stepDi m true = m.i200 - m.ib := by simp [stepDi]
  have heq : s.dev.naturalStep m = (s.dev.takeStep m.r0.toNat m.rdc.toNat).stepGain m true := by
    rw [← Dev.judgeStep_good (b := b) (hdi ▸ h)]
    simp only [Dev.naturalStep, hb]
  simp only [heq]
  refine ⟨?_, ((s.dev.takeStep_frame _ _).trans (Dev.stepGain_frame _ _ _)).settle⟩
  exact (s.dev.takeStep_taken _ _).keep ((Dev.stepGain_stepKept _ _ _).trans (Dev.settle_stepKept _))

theorem gives_naturalStep_bad (h : ¬ m.Good b (m.i200 - m.ib)) : Gives (.naturalStep m) s fun e =>
    Dev.StepTurned s.dev e ∧ Frame s.dev e judgedFields [] := by
  refine gives_of_exec_eq_act (f := fun d => d.naturalStep m) rfl ?_
  have hdi : stepDi m true = m.i200 - m.ib := by simp [stepDi]
  have heq : s.dev.naturalStep m = s.dev.rejectStep := by
    rw [← Dev.judgeStep_bad (b := b) (m := m) (natural := true) (hdi ▸ h)]
    simp only [Dev.naturalStep, hb]
  simp only [heq]
  exact ⟨s.dev.rejectStep_turned.keep (Dev.settle_stepKept _), s.dev.rejectStep_frame.settle⟩

end

/-! ### Load steps (R272) -/

namespace Machine

/-- A load step has begun: the charger and the pin are set, and the rest is broken. -/
def Dev.stepBegun (d : Dev) : Dev := ((d.setInhibit 3 true).setLoadPin true).updBps fun x => { x with restCand := none }

/-- A load step is over. -/
def Dev.stepOver (d : Dev) : Dev := (d.setLoadPin false).setInhibit 3 false

theorem Dev.loadStep_of_deferred {d : Dev} (m : Option StepMeas) (h : d.stepDeferred = true) : d.loadStep m = d := by
  unfold Dev.loadStep
  cases d.batt <;> simp [h]

theorem Dev.loadStep_eq {d : Dev} {b : BattProfile} (hb : d.batt = some b) (h : d.stepDeferred = false) (m : StepMeas) :
    d.loadStep (some m) = (d.stepBegun.judgeStep b m false).stepOver := by
  simp [Dev.loadStep, hb, h, Dev.stepBegun, Dev.stepOver]

theorem Dev.loadStep_none_eq {d : Dev} {b : BattProfile} (hb : d.batt = some b) (h : d.stepDeferred = false) :
    d.loadStep none = (d.stepBegun.wr Reg.BPS_STEP_last 3).stepOver := by
  simp [Dev.loadStep, hb, h, Dev.stepBegun, Dev.stepOver]

theorem Dev.stepBegun_stepKept (d : Dev) : Dev.StepKept d d.stepBegun := by
  refine ((d.setInhibit_stepKept 3 true).trans (Dev.setLoadPin_stepKept _ true)).trans ?_
  exact ⟨(Frame.refl _ _ _).setBps _, rfl, Dev.updBps_grows _ _⟩

theorem Dev.stepOver_stepKept (d : Dev) : Dev.StepKept d d.stepOver :=
  (d.setLoadPin_stepKept _).trans (Dev.setInhibit_stepKept _ _ _)

theorem Dev.stepBegun_restCand (d : Dev) : d.stepBegun.bps.restCand = none := rfl

theorem Dev.setLoadPin_pin (d : Dev) (on : Bool) : (d.setLoadPin on).sys.loadStepPin = on := by
  unfold Dev.setLoadPin
  split
  · assumption
  · exact congrArg SysState.loadStepPin ((Frame.refl _ [] []).reports (Dev.emit_reports
      ({ d with sys := { d.sys with loadStepPin := on } } : Dev) (.loadStepPin on)) |>.part .sys)

theorem Dev.setLoadPin_sends {d : Dev} {on : Bool} (h : d.sys.loadStepPin ≠ on) : .loadStepPin on ∈ (d.setLoadPin on).emitted := by
  unfold Dev.setLoadPin
  rw [if_neg h]
  exact List.mem_cons_self

theorem Dev.stepBegun_sends {d : Dev} (h : d.sys.loadStepPin = false) :
    .loadStepPin true ∈ d.stepBegun.emitted ∧ d.stepBegun.sys.loadStepPin = true := by
  have hsys : (d.setInhibit 3 true).sys = d.sys :=
    ((Frame.refl d inhibitFields [.bps]).setInhibit 3 true (List.Subset.refl _)).part .sys
  exact ⟨Dev.setLoadPin_sends (by rw [hsys, h]; decide), Dev.setLoadPin_pin _ _⟩

end Machine

section

variable {s : State} {b : BattProfile} (hb : s.dev.batt = some b)

theorem gives_loadStep_deferred (m : StepMeas) (h : s.dev.stepDeferred = true) :
    Gives (.loadStep (some m)) s fun e => Frame s.dev e [] [] :=
  gives_same_of_eq (f := fun d => d.loadStep (some m)) rfl (Dev.loadStep_of_deferred _ h)

variable (hdef : s.dev.stepDeferred = false)
include hb hdef

theorem gives_loadStep_none (hpin : s.dev.sys.loadStepPin = false) : Gives (.loadStep none) s fun e =>
    e.rd Reg.BPS_STEP_last = 3 ∧ .loadStepPin true ∈ e.emitted ∧ .loadStepPin false ∈ e.emitted ∧
    e.bps.restCand = none ∧ Frame s.dev e (Reg.BPS_STEP_last :: inhibitFields) [.bps, .sys] := by
  refine gives_of_exec_eq_act (f := fun d => d.loadStep none) rfl ?_
  simp only [Dev.loadStep_none_eq hb hdef]
  have hbegun := s.dev.stepBegun_stepKept
  have hcand := s.dev.stepBegun_restCand
  obtain ⟨hon, hpinOn⟩ := Dev.stepBegun_sends hpin
  generalize s.dev.stepBegun = x at *
  have htail := (x.wr Reg.BPS_STEP_last 3).stepOver_stepKept.trans (Dev.settle_stepKept _)
  refine ⟨(htail.frame.rd _).trans (Dev.rd_wr_same _ _ _), htail.grows.mem hon, ?_, ?_, ?_⟩
  · have hoff : .loadStepPin false ∈ ((x.wr Reg.BPS_STEP_last 3).setLoadPin false).emitted :=
      Dev.setLoadPin_sends (d := x.wr Reg.BPS_STEP_last 3) (fun h => Bool.noConfusion (hpinOn.symm.trans h))
    exact ((Dev.setInhibit_grows _ _ _).trans (Dev.settle_grows _)).mem hoff
  · have hpinned : ((x.wr Reg.BPS_STEP_last 3).setLoadPin false).bps = (x.wr Reg.BPS_STEP_last 3).bps :=
      (Dev.setLoadPin_frame _ false).part .bps
    rw [Dev.settle_bps, Dev.stepOver, (Dev.setInhibit_kept _ _ _).get BpsState.restCand, hpinned]
    exact hcand
  · exact ((hbegun.frame.mono (gs := Reg.BPS_STEP_last :: inhibitFields)).wr _ _).trans htail.frame

theorem gives_loadStep_good (m : StepMeas) (h : m.Good b (m.ib - m.i200)) : Gives (.loadStep (some m)) s fun e =>
    Dev.StepTaken s.dev e m.r0.toNat m.rdc.toNat ∧ Frame s.dev e (judgedFields ++ inhibitFields) [.bps, .sys] := by
  refine gives_of_exec_eq_act (f := fun d => d.loadStep (some m)) rfl ?_
  have hdi : stepDi m false = m.ib - m.i200 := by simp [stepDi]
  simp only [Dev.loadStep_eq hb hdef, Dev.judgeStep_good (m := m) (natural := false) (hdi ▸ h)]
  have hbegun := s.dev.stepBegun_stepKept
  generalize s.dev.stepBegun = x at *
  have htail := ((x.takeStep m.r0.toNat m.rdc.toNat).stepGain_stepKept m false).trans
    ((Dev.stepOver_stepKept _).trans (Dev.settle_stepKept _))
  refine ⟨((x.takeStep_taken _ _).keep htail).after hbegun, ?_⟩
  exact (hbegun.frame.mono (gs := judgedFields ++ inhibitFields)).trans (x.takeStep_frame _ _) |>.trans htail.frame

theorem gives_loadStep_bad (m : StepMeas) (h : ¬ m.Good b (m.ib - m.i200)) : Gives (.loadStep (some m)) s fun e =>
    Dev.StepTurned s.dev e ∧ Frame s.dev e (judgedFields ++ inhibitFields) [.bps, .sys] := by
  refine gives_of_exec_eq_act (f := fun d => d.loadStep (some m)) rfl ?_
  have hdi : stepDi m false = m.ib - m.i200 := by simp [stepDi]
  simp only [Dev.loadStep_eq hb hdef, Dev.judgeStep_bad (b := b) (m := m) (natural := false) (hdi ▸ h)]
  have hbegun := s.dev.stepBegun_stepKept
  generalize s.dev.stepBegun = x at *
  have htail := x.rejectStep.stepOver_stepKept.trans (Dev.settle_stepKept _)
  refine ⟨(x.rejectStep_turned.keep htail).after hbegun, ?_⟩
  exact (hbegun.frame.mono (gs := judgedFields ++ inhibitFields)).trans x.rejectStep_frame |>.trans htail.frame

end

end Sys2Proof
end

section
/-! The learn cycle: its request, its phases and its end (R278 to R282, R284). -/

set_option Elab.async false

namespace Sys2Proof

open Sys2Proof.Machine

namespace Machine

/-! ### The request (R279) -/

/-- Both forms of a learn request end alike. -/
theorem gives_learnRequest {s : State} {com : Instr} {P : Dev → Prop} (hcom : com ∈ [Instr.learnDue, .learnGo])
    (hreach : com = .learnGo → HostReaches s.dev 0 .bps) (hP : ∀ d, Dev.Woken s.dev d → P d.learnAsk.settle) :
    Gives com s P := by
  simp only [List.mem_cons, List.not_mem_nil, or_false] at hcom
  rcases hcom with rfl | rfl
  · exact gives_of_exec_eq_act (f := Dev.learnAsk) rfl (hP _ (.refl _))
  · exact gives_of_exec_eq_atFn (g := Dev.learnAsk) rfl (hreach rfl) hP

theorem Dev.Woken.bps {d e : Dev} (h : Dev.Woken d e) : e.bps = d.bps := by rw [h.same]

theorem Dev.Woken.batt {d e : Dev} (h : Dev.Woken d e) : e.batt = d.batt := h.packKept.batt

theorem Dev.Woken.learnPhaseNo {d e : Dev} (h : Dev.Woken d e) : e.learnPhaseNo = d.learnPhaseNo := h.rd _

theorem Dev.Woken.allOptimal {d e : Dev} (h : Dev.Woken d e) : e.allOptimal = d.allOptimal := by
  have hen (a : Nat) (ha : a < 16) : e.arrEn a = d.arrEn a := by
    unfold Dev.arrEn Dev.rdB
    rw [h.fields _ ((by decide : ∀ a < 16, pstateKey (Reg.AR_CFG_en.ix a).key = false) a ha)]
  have harrays : e.arrays = d.arrays := List.filter_congr fun a ha => hen a (List.mem_range.1 ha)
  have hall (a : Nat) (ha : a ∈ d.arrays) : e.arrState a = d.arrState a :=
    h.fields _ ((by decide : ∀ a < 16, pstateKey (Reg.AR_STAT_state.ix a).key = false) a
      (List.mem_range.1 (List.mem_filter.1 ha).1))
  unfold Dev.allOptimal
  rw [harrays, Bool.eq_iff_iff, List.all_eq_true, List.all_eq_true]
  exact forall₂_congr fun a ha => by rw [hall a ha]

theorem Dev.Woken.learnCond {d e : Dev} (h : Dev.Woken d e) : e.condHolds .learn = d.condHolds .learn := by
  have hpwc : e.pwc = d.pwc := by rw [h.same]
  simp only [Dev.condHolds, h.blkState, h.allOptimal, hpwc, Dev.anyAct, h.mnt]

theorem Dev.Woken.learnBlocker {d e : Dev} (h : Dev.Woken d e) : e.blocker .learn 0xFF = d.blocker .learn 0xFF := by
  have hfree : e.free = d.free := by rw [h.same]; rfl
  have hmeet (o : Meet) : e.meeting .learn 0xFF o = d.meeting .learn 0xFF o := by
    unfold Dev.meeting Dev.running
    rw [h.mnt]
  simp only [Dev.blocker, hmeet, h.learnCond, hfree, Act.ofArray, Bool.false_and]

theorem Dev.learnAsk_of_window {d : Dev} {b : BattProfile} (hb : d.batt = some b) (hphase : d.learnPhaseNo = 0)
    (hw : d.bps.restWindow = true) : d.learnAsk = d.updBps fun b => { b with learnAsked := true } := by
  simp [Dev.learnAsk, hb, hphase, hw]

theorem Dev.learnAsk_of_no_window {d : Dev} {b : BattProfile} (hb : d.batt = some b) (hphase : d.learnPhaseNo = 0)
    (hw : d.bps.restWindow = false) : d.learnAsk = d.arbRequest .learn wholeDevice := by
  simp [Dev.learnAsk, hb, hphase, hw]

/-- A learn cycle that has begun with no other activity. -/
def Dev.learnBegun (d : Dev) : Dev :=
  ((({ d with mnt := { d.mnt with acts := [⟨.learn, wholeDevice, .running⟩] } } : Dev).postStarted .learn wholeDevice).wr
    Reg.BPS_LEARN_STAT_phase 1).setHaloCause 1

theorem Dev.arbRequest_learn_alone {d : Dev} (hacts : d.mnt.acts = []) (h : d.blocker .learn wholeDevice = none) :
    d.arbRequest .learn wholeDevice = d.learnBegun :=
  (Dev.arbRequest_alone hacts _ _ h).trans (Dev.actStart_alone hacts _ _ (by decide))

theorem Dev.learnBegun_mnt (d : Dev) : d.learnBegun.mnt.acts = [⟨.learn, wholeDevice, .running⟩] := by
  have hcaused (x : Dev) : ((x.wr Reg.BPS_LEARN_STAT_phase 1).setHaloCause 1).mnt = x.mnt :=
    (((Frame.refl x (Reg.BPS_LEARN_STAT_phase :: haloFields) [.bps, .pwc]).wr _ _).setHaloCause 1).part .mnt
  unfold Dev.learnBegun
  rw [hcaused, (Dev.postStarted_reports _ _ _).mnt]

theorem Dev.learnBegun_shows (d : Dev) : d.learnBegun.learnPhaseNo = 1 ∧
    bitOf (d.learnBegun.rd Reg.BPS_HALO_STAT_causes) 1 = true := by
  unfold Dev.learnBegun
  refine ⟨?_, Dev.setHaloCause_bit _ (bit := 1) (by decide)⟩
  exact ((Dev.setHaloCause_frame _ 1).rd _).trans (Dev.rd_wr_same _ _ _)

end Machine

theorem Frame.learnBegun {a d : Dev} (h : Frame a d (Reg.BPS_LEARN_STAT_phase :: haloFields) [.bps, .mnt, .pwc]) :
    Frame a d.learnBegun (Reg.BPS_LEARN_STAT_phase :: haloFields) [.bps, .mnt, .pwc] :=
  (((h.setMnt _).reports (Dev.postStarted_reports _ _ _)).wr _ _).setHaloCause 1

namespace Machine

/-- A request for an activity that something blocks, where there is no other. -/
theorem Dev.arbRequest_blocked {d : Dev} (hacts : d.mnt.acts = []) {act : Act} {a j : Nat} (h : d.blocker act a = some j) :
    ∃ x : Dev, Frame d x [] [.mnt] ∧ x.mnt = { d.mnt with acts := [⟨act, a, .deferred j⟩] } ∧
      d.arbRequest act a = x.postDeferred act a j := by
  have hrun : d.running = [] := by simp [Dev.running, hacts]
  generalize hx : (if d.condHolds act then d.nextFree else d) = x
  have hmnt : x.mnt = d.mnt := by
    rw [← hx]
    split
    · rfl
    · rfl
  have hframe : Frame d x [] [.mnt] := by
    rw [← hx]
    exact .ite (Frame.refl _ _ _).nextFree (Frame.refl _ _ _)
  refine ⟨x.setAct act a (.deferred j), ?_, ?_, ?_⟩
  · exact .ite (hframe.setMnt _) (hframe.setMnt _)
  · simp [Dev.setAct, Dev.actOf, hmnt, hacts]
  · simp only [Dev.arbRequest, Dev.arbRefuses, hrun, List.any_nil, Dev.actOf, hacts, List.find?_nil, Option.isSome_none,
      Bool.false_eq_true, if_false, h]
    rw [hx]

end Machine

section

variable {s : State} {b : BattProfile} (hb : s.dev.batt = some b) (hphase : s.dev.learnPhaseNo = 0) {com : Instr}
  (hcom : com ∈ [Instr.learnDue, .learnGo]) (hreach : com = .learnGo → HostReaches s.dev 0 .bps)
include hb hphase hcom hreach

theorem gives_learn_waits (hw : s.dev.bps.restWindow = true) : Gives com s fun e =>
    e.bps = { s.dev.bps with learnAsked := true } ∧ Frame s.dev e [] [.bps] := by
  refine gives_learnRequest hcom hreach fun d hd => ?_
  rw [Dev.learnAsk_of_window (hd.batt.trans hb) (hd.learnPhaseNo.trans hphase) (by rw [hd.bps, hw]), Dev.settle_bps, ← hd.bps]
  exact ⟨rfl, ((Frame.of_woken hd _ _).setBps _).settle⟩

variable (hw : s.dev.bps.restWindow = false) (hacts : s.dev.mnt.acts = [])
include hw hacts

theorem gives_learn_begins (hblock : s.dev.blocker .learn 0xFF = none) : Gives com s fun e =>
    e.learnPhaseNo = 1 ∧ bitOf (e.rd Reg.BPS_HALO_STAT_causes) 1 = true ∧ e.mnt.acts = [⟨.learn, 0xFF, .running⟩] ∧
    Frame s.dev e (Reg.BPS_LEARN_STAT_phase :: haloFields) [.bps, .mnt, .pwc] := by
  refine gives_learnRequest hcom hreach fun d hd => ?_
  rw [Dev.learnAsk_of_no_window (hd.batt.trans hb) (hd.learnPhaseNo.trans hphase) (by rw [hd.bps, hw]),
    Dev.arbRequest_learn_alone (by rw [hd.mnt, hacts]) (hd.learnBlocker.trans hblock)]
  obtain ⟨hone, hcause⟩ := d.learnBegun_shows
  refine ⟨(Dev.settle_rd _ _ (by decide)).trans hone, ?_, ?_, (Frame.of_woken hd _ _).learnBegun.settle⟩
  · rw [Dev.settle_rd _ _ (by decide)]
    exact hcause
  · rw [Dev.settle_mnt, Dev.learnBegun_mnt]
    rfl

theorem gives_learn_deferred {j : Nat} (hblock : s.dev.blocker .learn 0xFF = some j) : Gives com s fun e =>
    e.mnt.acts = [⟨.learn, 0xFF, .deferred j⟩] ∧ Raised e .mnt 19 ∧ Frame s.dev e [] [.mnt] := by
  refine gives_learnRequest hcom hreach fun d hd => ?_
  rw [Dev.learnAsk_of_no_window (hd.batt.trans hb) (hd.learnPhaseNo.trans hphase) (by rw [hd.bps, hw])]
  obtain ⟨x, hx, hmnt, heq⟩ := Dev.arbRequest_blocked (d := d) (by rw [hd.mnt, hacts])
    (show d.blocker .learn wholeDevice = some j from hd.learnBlocker.trans hblock)
  have hrep := x.postDeferred_reports .learn wholeDevice j
  rw [heq]
  refine ⟨?_, Dev.settle_raised _ _ _ ?_, ((Frame.of_woken hd _ _).trans hx |>.reports hrep).settle⟩
  · rw [Dev.settle_mnt, hrep.mnt, hmnt]
    rfl
  · exact (Dev.post_grows _ _ _ _ _ _ _ _).raised (Dev.causeBit_raised _ _ _)

end

/-! ### The phases (R279) -/

section

variable {a d : Dev} {fs : List Fld} {ps : List Part}

theorem Frame.toPhase (h : Frame a d fs ps) (n : Nat) (hf : Reg.BPS_LEARN_STAT_phase ∈ fs := by decide)
    (hfs : inhibitFields ⊆ fs := by decide) (hp : Part.bps ∈ ps := by decide) : Frame a (d.toPhase n) fs ps :=
  ((h.wr _ _ hf).setBps _ hp).refreshRest hfs hp

end

namespace Machine

theorem Dev.toPhase_phase (d : Dev) {n : Nat} (hn : n < 8) : (d.toPhase n).learnPhaseNo = n := by
  have htail (x : Dev) : Frame x x.refreshRest inhibitFields [.bps] := (Frame.refl _ _ _).refreshRest
  refine ((htail _).rd _).trans ?_
  exact (d.rd_wr_same Reg.BPS_LEARN_STAT_phase n).trans (Nat.mod_eq_of_lt (hn.trans_le (by decide)))

/-- What a phase's start leaves of the pack's record. -/
theorem Dev.toPhase_get {α : Type} (d : Dev) (n : Nat) (f : BpsState → α)
    (hf : ∀ (x : BpsState) (p i : Int) (on : List Nat) (al : Tbl Nat) (l ph : Nat) (u v : Int),
      f { x with ePrev := p, iSet := i, alarmOn := on, alarms := al, learnTick := l, phaseTick := ph, dsgDuty := u, dsgPrev := v } =
        f x := by intros; rfl)
    (hp : ∀ (x : BpsState) (t : Nat), f { x with phaseTick := t, restDone := false } = f x := by intros; rfl) :
    f (d.toPhase n).bps = f d.bps := by
  unfold Dev.toPhase
  exact ((Dev.setInhibit_kept _ _ _).get f hf).trans (hp _ _)

/-- In phases 2 to 4 the charger rests. -/
theorem Dev.toPhase_inhibit (d : Dev) {n : Nat} (hn : 2 ≤ n ∧ n ≤ 4) :
    bitOf ((d.toPhase n).rd Reg.BPS_CHG_STAT_inhibit) 2 = true := by
  unfold Dev.toPhase Dev.refreshRest
  extract_lets t
  rw [Dev.bitOf_setInhibit _ _ _ (by decide), if_pos rfl, Bool.or_eq_true]
  right
  have hph (x : Dev) (hx : x.rd Reg.BPS_LEARN_STAT_phase = n) : decide (2 ≤ x.learnPhaseNo ∧ x.learnPhaseNo ≤ 4) = true := by
    unfold Dev.learnPhaseNo
    rw [hx]
    exact decide_eq_true hn
  exact hph _ ((d.rd_wr_same Reg.BPS_LEARN_STAT_phase n).trans
    (Nat.mod_eq_of_lt ((by omega : n < 5).trans_le (by decide))))

end Machine

end Sys2Proof
end

section
/-! How the phases of a learn cycle end, its abort, and a new pack (R279 to R284). -/

set_option Elab.async false

namespace Sys2Proof

open Sys2Proof.Machine

namespace Machine

variable {d : Dev} {b : BattProfile}

/-! ### What each phase's end is -/

theorem Dev.learnPhase_of_not_full (hb : d.batt = some b) (h : d.learnPhaseNo = 1)
    (hfull : ¬ (d.rd Reg.BPS_CHG_STAT_state = chDone ∨ d.rd Reg.BPS_CHG_STAT_state = chFloat)) : d.learnPhase = d := by
  have hcontains : [chDone, chFloat].contains (d.rd Reg.BPS_CHG_STAT_state) = false := by simpa using hfull
  unfold Dev.learnPhase
  simp only [hb, h, hcontains, Bool.not_false, if_true]

/-- The cycle's first phase ends with the charge. -/
theorem Dev.learnPhase_charged (hb : d.batt = some b) (h : d.learnPhaseNo = 1)
    (hfull : d.rd Reg.BPS_CHG_STAT_state = chDone ∨ d.rd Reg.BPS_CHG_STAT_state = chFloat) :
    d.learnPhase = (d.toPhase 2).updBps fun x => { x with tTopLow := d.tPack, tTopHigh := d.tPack } := by
  have hcontains : [chDone, chFloat].contains (d.rd Reg.BPS_CHG_STAT_state) = true := by simpa using hfull
  unfold Dev.learnPhase
  simp only [hb, h, hcontains, Bool.not_true, Bool.false_eq_true, if_false]

/-- The rest at the top ends with a discharge, or with one more charge. -/
theorem Dev.learnPhase_rested (hb : d.batt = some b) (h : d.learnPhaseNo = 2) (hdone : d.bps.restDone = true) :
    d.learnPhase = if d.bps.anchorS < 95 / 100 ∧ d.bps.backToCharge = false then
        (d.toPhase 1).updBps fun x => { x with backToCharge := true }
      else (d.toPhase 3).updBps fun x => { x with
        sTop := x.anchorS, learnQ := 0, rateBad := 0, paused := 0, dsgDuty := 0, dsgPrev := 0 } := by
  unfold Dev.learnPhase
  simp only [hb, h, hdone, Bool.not_true, Bool.false_eq_true, if_false, Bool.not_eq_true']

theorem Dev.learnPhase_discharged (hb : d.batt = some b) (h : d.learnPhaseNo = 3)
    (hlow : d.cellLow ≤ ((b.vMin : Int) + 100) * 10) : d.learnPhase = (d.setDsg false).toPhase 4 := by
  unfold Dev.learnPhase
  simp only [hb, h]
  exact if_pos (.inr hlow)

theorem Dev.learnPhase_judged (hb : d.batt = some b) (h : d.learnPhaseNo = 4) (hdone : d.bps.restDone = true) :
    d.learnPhase = d.learnJudge.toPhase 5 := by
  unfold Dev.learnPhase
  simp only [hb, h, hdone, if_true]

/-- A cycle that is over: its phase is 0, and Halo's cause TEST is cleared. -/
def Dev.learnClosed (d : Dev) : Dev :=
  ((d.toPhase 0).updBps fun x => { x with backToCharge := false }).clearHaloCauses testCause

theorem Dev.learnPhase_over (hb : d.batt = some b) (h : d.learnPhaseNo = 5)
    (hfull : d.rd Reg.BPS_CHG_STAT_state = chDone ∨ d.rd Reg.BPS_CHG_STAT_state = chFloat) :
    d.learnPhase = d.learnClosed.actEnd .learn wholeDevice := by
  have hcontains : [chDone, chFloat].contains (d.rd Reg.BPS_CHG_STAT_state) = true := by simpa using hfull
  unfold Dev.learnPhase
  simp only [hb, h, hcontains, Bool.not_true, Bool.false_eq_true, if_false]
  rfl

theorem Dev.setDsg_pin (d : Dev) (on : Bool) : (d.setDsg on).sys.dsgEnPin = on := by
  unfold Dev.setDsg
  split
  · assumption
  · exact congrArg SysState.dsgEnPin ((Frame.refl _ [] []).reports (Dev.emit_reports
      ({ d with sys := { d.sys with dsgEnPin := on } } : Dev) (.dischargePin on)) |>.part .sys)

/-! ### The result (R281) -/

/-- The fields of a cycle's judgement. -/
def judgeFields : List Fld := Reg.BPS_Q_learned :: Reg.BPS_LEARN_TS_ts :: learnShown

theorem Dev.learnJudge_frame (d : Dev) : Frame d d.learnJudge judgeFields [.bps] := by
  unfold Dev.learnJudge
  extract_lets dq ds q design near pend t now e due f g
  have he : Frame d e judgeFields [.bps] := ((Frame.refl _ _ _).wr _ _).wr _ _
  have hg : Frame d g judgeFields [.bps] := (Frame.refl _ _ _).setBps _
  exact .ite ((Frame.refl _ _ _).learnResult _ _ _) (.ite ((he.setBps _).learnResult _ _ _) (hg.learnResult _ _ _))

theorem Dev.learnJudge_raised (d : Dev) : Raised d.learnJudge .bps 17 := by
  have hresult (x : Dev) (r m w : Nat) : Raised (x.learnResult r m w) .bps 17 :=
    (Dev.post_grows _ _ _ _ _ _ _ _).raised (Dev.causeBit_raised _ _ _)
  unfold Dev.learnJudge
  extract_lets dq ds q design near pend t now e due f g
  split
  · exact hresult _ _ _ _
  · split
    · exact hresult _ _ _ _
    · exact hresult _ _ _ _

/-- A cycle with too small a swing is rejected for its range. -/
theorem Dev.learnJudge_range (h : d.bps.sTop - d.bps.anchorS < 40 / 100) :
    ∃ q, d.learnJudge = d.learnResult 2 q 11 := ⟨_, if_pos (.inl h)⟩

end Machine

section

variable {s : State} {b : BattProfile} (hb : s.dev.batt = some b)
include hb

theorem gives_learnPhase_not_full (h : s.dev.learnPhaseNo = 1)
    (hfull : ¬ (s.dev.rd Reg.BPS_CHG_STAT_state = chDone ∨ s.dev.rd Reg.BPS_CHG_STAT_state = chFloat)) :
    Gives .learnPhase s fun e => Frame s.dev e [] [] :=
  gives_same_of_eq (f := Dev.learnPhase) rfl (Dev.learnPhase_of_not_full hb h hfull)

theorem gives_learnPhase_charged (h : s.dev.learnPhaseNo = 1)
    (hfull : s.dev.rd Reg.BPS_CHG_STAT_state = chDone ∨ s.dev.rd Reg.BPS_CHG_STAT_state = chFloat) :
    Gives .learnPhase s fun e => e.learnPhaseNo = 2 ∧ e.bps.tTopLow = s.dev.tPack ∧
      bitOf (e.rd Reg.BPS_CHG_STAT_inhibit) 2 = true ∧ Frame s.dev e (Reg.BPS_LEARN_STAT_phase :: inhibitFields) [.bps] := by
  refine gives_of_exec_eq_act (f := Dev.learnPhase) rfl ?_
  rw [Dev.learnPhase_charged hb h hfull]
  refine ⟨?_, ?_, ?_, (((Frame.refl _ _ _).toPhase 2).setBps _).settle⟩
  · exact (Dev.settle_rd _ _ (by decide)).trans (s.dev.toPhase_phase (by decide))
  · rw [Dev.settle_bps]
    rfl
  · rw [Dev.settle_rd _ _ (by decide)]
    exact s.dev.toPhase_inhibit (by decide)

theorem gives_learnPhase_rested (h : s.dev.learnPhaseNo = 2) (hdone : s.dev.bps.restDone = true) :
    Gives .learnPhase s fun e =>
      (95 / 100 ≤ s.dev.bps.anchorS ∨ s.dev.bps.backToCharge = true →
        e.learnPhaseNo = 3 ∧ e.bps.sTop = s.dev.bps.anchorS ∧ e.bps.learnQ = 0) ∧
      (s.dev.bps.anchorS < 95 / 100 → s.dev.bps.backToCharge = false → e.learnPhaseNo = 1 ∧ e.bps.backToCharge = true) ∧
      Frame s.dev e (Reg.BPS_LEARN_STAT_phase :: inhibitFields) [.bps] := by
  refine gives_of_exec_eq_act (f := Dev.learnPhase) rfl ?_
  rw [Dev.learnPhase_rested hb h hdone]
  refine ⟨fun hgo => ?_, fun hlow hback => ?_, ?_⟩
  · have hno : ¬ (s.dev.bps.anchorS < 95 / 100 ∧ s.dev.bps.backToCharge = false) := by
      rintro ⟨hlow, hback⟩
      rcases hgo with hgo | hgo
      · exact absurd hlow (not_lt.2 hgo)
      · exact absurd (hback.symm.trans hgo) (by decide)
    rw [if_neg hno, Dev.settle_bps]
    refine ⟨?_, s.dev.toPhase_get 3 BpsState.anchorS, rfl⟩
    exact (Dev.settle_rd _ _ (by decide)).trans (s.dev.toPhase_phase (n := 3) (by decide))
  · rw [if_pos ⟨hlow, hback⟩, Dev.settle_bps]
    exact ⟨(Dev.settle_rd _ _ (by decide)).trans (s.dev.toPhase_phase (n := 1) (by decide)), rfl⟩
  · exact (Frame.ite (((Frame.refl _ _ _).toPhase 1).setBps _) (((Frame.refl _ _ _).toPhase 3).setBps _)).settle

theorem gives_learnPhase_discharged (h : s.dev.learnPhaseNo = 3) (hlow : s.dev.cellLow ≤ ((b.vMin : Int) + 100) * 10) :
    Gives .learnPhase s fun e => e.learnPhaseNo = 4 ∧ e.sys.dsgEnPin = false ∧
      Frame s.dev e (Reg.BPS_LEARN_STAT_phase :: inhibitFields) [.bps, .sys] := by
  refine gives_of_exec_eq_act (f := Dev.learnPhase) rfl ?_
  rw [Dev.learnPhase_discharged hb h hlow]
  have hphase : Frame (s.dev.setDsg false) ((s.dev.setDsg false).toPhase 4) (Reg.BPS_LEARN_STAT_phase :: inhibitFields) [.bps] :=
    (Frame.refl _ _ _).toPhase 4
  have hsys : ((s.dev.setDsg false).toPhase 4).settle.sys = (s.dev.setDsg false).sys := hphase.settle.part .sys
  refine ⟨(Dev.settle_rd _ _ (by decide)).trans (Dev.toPhase_phase _ (by decide)), ?_, ?_⟩
  · rw [hsys, Dev.setDsg_pin]
  · exact (((Frame.refl _ _ _).setDsg false).toPhase 4).settle

theorem gives_learnPhase_judged (h : s.dev.learnPhaseNo = 4) (hdone : s.dev.bps.restDone = true) :
    Gives .learnPhase s fun e => e.learnPhaseNo = 5 ∧ Raised e .bps 17 ∧ (s.dev.bps.sTop - s.dev.bps.anchorS < 40 / 100 →
        e.rd Reg.BPS_LEARN_STAT_result = 2 ∧ e.rd Reg.BPS_LEARN_STAT_reason = 11 ∧ e.qL = s.dev.qL) ∧
      Frame s.dev e (judgeFields ++ inhibitFields) [.bps] := by
  refine gives_of_exec_eq_act (f := Dev.learnPhase) rfl ?_
  rw [Dev.learnPhase_judged hb h hdone]
  have htail : Frame s.dev.learnJudge (s.dev.learnJudge.toPhase 5).settle (Reg.BPS_LEARN_STAT_phase :: inhibitFields) [.bps] :=
    ((Frame.refl _ _ _).toPhase 5).settle
  refine ⟨(Dev.settle_rd _ _ (by decide)).trans (Dev.toPhase_phase _ (by decide)), ?_, fun hrange => ?_, ?_⟩
  · refine Dev.settle_raised _ _ _ ((Dev.setInhibit_grows _ _ _).raised ?_)
    exact ((Dev.wr_grows _ _ _).trans (Dev.updBps_grows _ _)).raised s.dev.learnJudge_raised
  · obtain ⟨q, hq⟩ := Dev.learnJudge_range hrange
    rw [hq] at htail ⊢
    obtain ⟨hresult, hreason, -⟩ := s.dev.learnResult_shows (result := 2) (reason := 11) q (by decide) (by decide)
    refine ⟨(htail.rd _).trans hresult, (htail.rd _).trans hreason, ?_⟩
    exact (htail.rd _).trans ((s.dev.learnResult_frame 2 q 11).rd _)
  · exact (s.dev.learnJudge_frame.mono (gs := judgeFields ++ inhibitFields)).toPhase 5 |>.settle

theorem gives_learnPhase_over (h : s.dev.learnPhaseNo = 5)
    (hfull : s.dev.rd Reg.BPS_CHG_STAT_state = chDone ∨ s.dev.rd Reg.BPS_CHG_STAT_state = chFloat) :
    Gives .learnPhase s fun e => e.learnPhaseNo = 0 ∧ bitOf (e.rd Reg.BPS_HALO_STAT_causes) 1 = false ∧
      e.actRuns .learn 0xFF = false ∧
      Frame s.dev e (Reg.BPS_LEARN_STAT_phase :: inhibitFields ++ haloFields) [.bps, .mnt, .pwc] := by
  refine gives_of_exec_eq_act (f := Dev.learnPhase) rfl ?_
  rw [Dev.learnPhase_over hb h hfull]
  have hclosed : Frame (s.dev.toPhase 0) s.dev.learnClosed haloFields [.bps, .pwc] :=
    ((Frame.refl _ _ _).setBps _).clearHaloCauses _
  refine ⟨?_, ?_, ?_, ?_⟩
  · refine (Dev.settle_rd _ _ (by decide)).trans ?_
    exact (hclosed.rd Reg.BPS_LEARN_STAT_phase).trans (s.dev.toPhase_phase (by decide))
  · rw [Dev.settle_rd _ _ (by decide)]
    exact Dev.clearHaloCauses_bit _ _ (by decide) (by decide)
  · rw [Dev.actRuns_of_mnt (Dev.settle_mnt _)]
    exact Dev.actEnd_actRuns _ _ _
  · exact ((((Frame.refl _ _ _).toPhase 0).setBps _).clearHaloCauses _ |>.setMnt _).settle

end

/-! ### An abort (R280) -/

theorem gives_learnAbort {s : State} (h : 1 ≤ s.dev.learnPhaseNo ∧ s.dev.learnPhaseNo ≤ 4) :
    HostGives 0 .bps .learnAbort s fun e => e.learnPhaseNo = 5 ∧ e.rd Reg.BPS_LEARN_STAT_result = 3 ∧
      e.rd Reg.BPS_LEARN_STAT_reason = 8 ∧ e.sys.dsgEnPin = false ∧ Raised e .bps 17 ∧
      Frame s.dev e (inhibitFields ++ learnShown) [.bps, .sys] := by
  intro hreach
  refine gives_of_exec_eq_atFn (g := Dev.learnAbort) rfl hreach fun d hd => ?_
  rw [← hd.learnPhaseNo] at h
  obtain ⟨hphase, hresult, hreason, hraised⟩ := d.learnStop_shows (reason := 8) (by decide) h
  have hpin : (d.learnStop 8).sys.dsgEnPin = false := by
    have htail (x : Dev) (t : Nat) : (((x.wr Reg.BPS_LEARN_STAT_phase 5).updBps fun b => { b with
        learnTick := t + 24 * 3600 * ticksPerSec, phaseTick := t, dsgDuty := 0, dsgPrev := 0 }).learnResult 3 0 8).refreshRest.sys =
        x.sys := ((((Frame.refl x learnStopFields [.bps]).wr _ _).setBps _).learnResult 3 0 8).refreshRest.part .sys
    unfold Dev.learnStop
    rw [if_pos h]
    dsimp only
    rw [htail, Dev.setDsg_pin]
  have hsys : (d.learnStop 8).settle.sys = (d.learnStop 8).sys := (Frame.refl (d.learnStop 8) [] []).settle.part .sys
  have hrd (f : Fld) (hf : stateKey f.key = false := by decide) : d.learnAbort.settle.rd f = (d.learnStop 8).rd f :=
    Dev.settle_rd _ _ hf
  refine ⟨(hrd _).trans hphase, (hrd _).trans hresult, (hrd _).trans hreason, ?_, Dev.settle_raised _ _ _ hraised, ?_⟩
  · rw [Dev.learnAbort, hsys, hpin]
  · exact ((Frame.of_woken hd _ _).learnStop 8 (by decide)).settle

theorem gives_learnAbort_none {s : State} (h : s.dev.learnPhaseNo = 0 ∨ s.dev.learnPhaseNo = 5) :
    HostGives 0 .bps .learnAbort s fun e => Frame s.dev e [] [] := by
  intro hreach
  refine gives_of_exec_eq_atFn (g := Dev.learnAbort) rfl hreach fun d hd => ?_
  have heq : d.learnAbort = d := by
    unfold Dev.learnAbort Dev.learnStop
    rw [if_neg (by rw [hd.learnPhaseNo]; omega)]
  rw [heq]
  exact (Frame.of_woken hd _ _).settle

/-! ### A new pack (R283, R284) -/

namespace Machine

/-- A request for LEARN neither pauses nor aborts another activity. -/
theorem meets_learn (a : Nat) (x : Activity) : meets .learn a x ≠ .p ∧ meets .learn a x ≠ .a := by
  have htable : meetTable .learn x.act ≠ .p ∧ meetTable .learn x.act ≠ .a := by
    cases x.act <;> decide
  unfold meets
  split
  · exact htable
  · split
    · decide
    · split
      · decide
      · exact htable

theorem Dev.meeting_learn (d : Dev) (a : Nat) : d.meeting .learn a .p = [] ∧ d.meeting .learn a .a = [] := by
  unfold Dev.meeting
  refine ⟨List.filter_eq_nil_iff.2 fun x _ => ?_, List.filter_eq_nil_iff.2 fun x _ => ?_⟩
  · simp [(meets_learn a x).1]
  · simp [(meets_learn a x).2]

theorem Dev.actStart_learn (d : Dev) (a : Nat) : d.actStart .learn a false =
    (((d.setAct .learn a .running).postStarted .learn a).wr Reg.BPS_LEARN_STAT_phase 1).setHaloCause 1 := by
  unfold Dev.actStart
  rw [(d.meeting_learn a).1]
  have hnil : forEach ([] : List Activity) (fun x d => d.actPause x Act.learn.code) d = d := rfl
  dsimp only
  rw [hnil, (d.meeting_learn a).2]
  rfl

/-- The learned capacity, the pending one and Halo's causes so far stay when LEARN is asked for. -/
structure Dev.CapacityKept (d e : Dev) : Prop where
  frame : Frame d e (Reg.BPS_LEARN_STAT_phase :: haloFields) [.bps, .mnt, .pwc]
  learned : e.bps.learned = d.bps.learned
  qPend : e.bps.qPend = d.bps.qPend
  cause : ∀ i, i < 7 → bitOf (d.rd Reg.BPS_HALO_STAT_causes) i = true → bitOf (e.rd Reg.BPS_HALO_STAT_causes) i = true

theorem Dev.CapacityKept.of_frame {d e : Dev} (h : Frame d e [] [.mnt]) : Dev.CapacityKept d e := by
  have hbps : e.bps = d.bps := h.part .bps
  exact ⟨h.mono, by rw [hbps], by rw [hbps], fun i _ hi => by rw [h.rd Reg.BPS_HALO_STAT_causes]; exact hi⟩

theorem Dev.CapacityKept.trans {a d e : Dev} (h : Dev.CapacityKept a d) (k : Dev.CapacityKept d e) : Dev.CapacityKept a e :=
  ⟨h.frame.trans k.frame, k.learned.trans h.learned, k.qPend.trans h.qPend, fun i hi hc => k.cause i hi (h.cause i hi hc)⟩

theorem Dev.setHaloCause_get {α : Type} (d : Dev) (bit : Nat) (f : BpsState → α)
    (hf : ∀ (x : BpsState) (y : Filt), f { x with filt := y } = f x := by intros; rfl) : f (d.setHaloCause bit).bps = f d.bps := by
  unfold Dev.setHaloCause
  extract_lets old y start e
  rw [Dev.refreshHalo_bps]
  split
  · exact hf _ _
  · rfl

theorem Dev.setHaloCause_capacityKept (d : Dev) (bit : Nat) : Dev.CapacityKept d (d.setHaloCause bit) := by
  refine ⟨(d.setHaloCause_frame bit).mono, d.setHaloCause_get bit BpsState.learned, d.setHaloCause_get bit BpsState.qPend,
    fun i hi hc => ?_⟩
  rw [d.setHaloCause_causes, bitOf_or_mod _ _ _ _ hi, hc, Bool.true_or]

theorem Dev.setAct_frame (d : Dev) (act : Act) (a : Nat) (st : ActSt) : Frame d (d.setAct act a st) [] [.mnt] :=
  .ite ((Frame.refl _ _ _).setMnt _) ((Frame.refl _ _ _).setMnt _)

theorem Dev.wr_phase_capacityKept (d : Dev) (n : Nat) : Dev.CapacityKept d (d.wr Reg.BPS_LEARN_STAT_phase n) :=
  ⟨(Frame.refl _ _ _).wr _ _, rfl, rfl, fun i _ hi => by rw [Dev.rd_wr_other _ _ _ _ (by decide)]; exact hi⟩

theorem Dev.arbRequest_learn_capacityKept (d : Dev) : Dev.CapacityKept d (d.arbRequest .learn wholeDevice) := by
  unfold Dev.arbRequest
  split
  · exact .of_frame (.refl _ _ _)
  · split
    · exact .of_frame (.refl _ _ _)
    · split
      · next j _ =>
        refine .of_frame ?_
        have hfree : Frame d (if d.condHolds .learn = true then d.nextFree else d) [] [.mnt] :=
          .ite (Frame.refl _ _ _).nextFree (Frame.refl _ _ _)
        exact (hfree.trans (Dev.setAct_frame _ _ _ _)).reports (Dev.postDeferred_reports _ _ _ _)
      · rw [Dev.actStart_learn]
        refine .trans (.trans (.of_frame ?_) (Dev.wr_phase_capacityKept _ _)) (Dev.setHaloCause_capacityKept _ _)
        exact (Dev.setAct_frame _ _ _ _).reports (Dev.postStarted_reports _ _ _)

theorem Dev.learnAsk_capacityKept (d : Dev) : Dev.CapacityKept d d.learnAsk := by
  unfold Dev.learnAsk
  split
  · exact .of_frame (.refl _ _ _)
  · split
    · exact ⟨(Frame.refl _ _ _).setBps _, rfl, rfl, fun _ _ hi => hi⟩
    · exact d.arbRequest_learn_capacityKept

/-- What is learned of the old pack is forgotten. -/
def Dev.capacityReset (d : Dev) : Dev :=
  ((d.learnStop 10).wr Reg.BPS_Q_learned (d.rd Reg.BPS_Q_design)).updBps fun b => { b with
    learned := false, qPend := 0, pendTs := 0
    learnTick := ((d.learnStop 10).wr Reg.BPS_Q_learned (d.rd Reg.BPS_Q_design)).ticks }

theorem Dev.newPack_eq (d : Dev) : d.newPack = (d.capacityReset.setHaloCause 5).learnAsk := rfl

end Machine

theorem gives_newPack (s : State) : HostGives 0 .bps .newPack s fun e =>
    e.qL = s.dev.rd Reg.BPS_Q_design % 2 ^ 16 ∧ e.bps.learned = false ∧ e.bps.qPend = 0 ∧
    bitOf (e.rd Reg.BPS_HALO_STAT_causes) 5 = true ∧
    (s.dev.batt = none → Frame s.dev e (Reg.BPS_Q_learned :: inhibitFields ++ haloFields ++ learnShown) [.bps, .pwc, .sys]) := by
  intro hreach
  refine gives_of_exec_eq_atFn (g := Dev.newPack) rfl hreach fun d hd => ?_
  rw [d.newPack_eq]
  have hreset : d.capacityReset.rd Reg.BPS_Q_learned = d.rd Reg.BPS_Q_design % 2 ^ 16 :=
    (d.learnStop 10).rd_wr_same Reg.BPS_Q_learned _
  have hlearned : d.capacityReset.bps.learned = false := rfl
  have hpend : d.capacityReset.bps.qPend = 0 := rfl
  have hbatt : d.capacityReset.batt = d.batt := by
    refine Eq.trans ?_ (d.learnStop_kept 10).batt
    rfl
  have hframe : Frame s.dev d.capacityReset (Reg.BPS_Q_learned :: inhibitFields ++ haloFields ++ learnShown) [.bps, .pwc, .sys] :=
    ((Frame.of_woken hd _ _).learnStop 10 (by decide)).wr _ _ |>.setBps _
  generalize d.capacityReset = x at *
  have hcaused := (x.setHaloCause_capacityKept 5).trans (x.setHaloCause 5).learnAsk_capacityKept
  refine ⟨?_, ?_, ?_, ?_, fun hnone => ?_⟩
  · refine (Dev.settle_rd _ _ (by decide)).trans ((hcaused.frame.rd _).trans ?_)
    rw [hreset, hd.rd Reg.BPS_Q_design]
  · rw [Dev.settle_bps, hcaused.learned, hlearned]
  · rw [Dev.settle_bps, hcaused.qPend, hpend]
  · rw [Dev.settle_rd _ _ (by decide)]
    exact (x.setHaloCause 5).learnAsk_capacityKept.cause 5 (by decide) (x.setHaloCause_bit (bit := 5) (by decide))
  · have hx : (x.setHaloCause 5).batt = none := by
      have hkept : (x.setHaloCause 5).batt = x.batt := x.setHaloCause_get 5 fun b => match b.bcal with
        | some c => if c.crcOk then b.batt.filter BattProfile.ok else none
        | none => none
      rw [hkept, hbatt, hd.batt, hnone]
    have hask : (x.setHaloCause 5).learnAsk = x.setHaloCause 5 := by simp [Dev.learnAsk, hx]
    rw [hask]
    exact (hframe.setHaloCause 5).settle

end Sys2Proof
end

section
/-! Parameter records, and an ADC that is no longer trusted (R283, R284, R290, R298, R299). -/

set_option Elab.async false

namespace Sys2Proof

open Sys2Proof.Machine

/-! ### Parameter records (R284) -/

namespace Machine

/-- The trust mark of a parameter slot. -/
def slotOk (slotB : Bool) : Fld := if slotB then Reg.BPS_PARAM_b_ok else Reg.BPS_PARAM_a_ok

/-- What a parameter slot holds. -/
def Dev.slotRec (d : Dev) (slotB : Bool) : Option HaloSlot := if slotB then d.bps.slotB else d.bps.slotA

theorem Dev.setSlotRec_frame (d : Dev) (slotB : Bool) (r : HaloSlot) : Frame d (d.setSlotRec slotB r) [slotOk slotB] [.bps] :=
  ((Frame.refl _ _ _).setBps _).wr _ _ (List.mem_singleton_self _)

theorem Dev.setSlotRec_slotRec (d : Dev) (slotB : Bool) (r : HaloSlot) : (d.setSlotRec slotB r).slotRec slotB = some r := by
  cases slotB <;> rfl

theorem slotOk_off (slotB : Bool) : ∀ f ∈ [Reg.BPS_PARAM_pending, Reg.BPS_PARAM_slot, Reg.BPS_PARAM_seq], f.key ≠ (slotOk slotB).key := by
  cases slotB <;> decide

/-- The slot that is not in use. -/
def Dev.freeSlot (d : Dev) : Bool := !d.rdB Reg.BPS_PARAM_slot

/-- The next record is sent to the unused slot, once more where it is read back bad. -/
def Dev.paramSent (d : Dev) (r : HaloSlot) (firstOk : Bool) : Dev :=
  let d' := (d.wr Reg.BPS_PARAM_pending 0).emit (.paramSlot d.freeSlot r)
  if firstOk then d' else d'.emit (.paramSlot d.freeSlot r)

theorem Dev.paramWrite_pending {d : Dev} (h : d.sys.pwrFailN = false ∨ d.sys.pwrGood = false) (first second : Bool) :
    d.paramWrite first second = d.wr Reg.BPS_PARAM_pending 1 := by
  unfold Dev.paramWrite
  exact if_pos (by rcases h with h | h <;> simp [h])

theorem Dev.paramWrite_eq {d : Dev} (hfail : d.sys.pwrFailN = true) (hgood : d.sys.pwrGood = true) (first second : Bool) :
    d.paramWrite first second =
      if first || second then
        ((((d.paramSent (d.paramRecord ((d.paramSeq + 1) % 2 ^ 32)) first).setSlotRec d.freeSlot
          (d.paramRecord ((d.paramSeq + 1) % 2 ^ 32))).wrB Reg.BPS_PARAM_slot d.freeSlot).wr Reg.BPS_PARAM_seq
          (d.paramRecord ((d.paramSeq + 1) % 2 ^ 32)).seq).causeBit .bps 20
      else
        ((d.paramSent (d.paramRecord ((d.paramSeq + 1) % 2 ^ 32)) first).setSlotRec d.freeSlot
          { d.paramRecord ((d.paramSeq + 1) % 2 ^ 32) with crcOk := false }).errCorr .bps 2 := by
  unfold Dev.paramWrite
  exact if_neg (by simp [hfail, hgood])

theorem Dev.paramSent_reports (d : Dev) (r : HaloSlot) (firstOk : Bool) :
    Dev.Reports (d.wr Reg.BPS_PARAM_pending 0) (d.paramSent r firstOk) := by
  unfold Dev.paramSent
  dsimp only
  split
  · exact Dev.emit_reports _ _
  · exact (Dev.emit_reports _ _).trans (Dev.emit_reports _ _)

end Machine

theorem gives_paramWrite_pending {s : State} (h : s.dev.sys.pwrFailN = false ∨ s.dev.sys.pwrGood = false) (first second : Bool) :
    Gives (.paramWrite first second) s fun e =>
      e.rd Reg.BPS_PARAM_pending = 1 ∧ Frame s.dev e [Reg.BPS_PARAM_pending] [] := by
  refine gives_of_exec_eq_act (f := fun d => d.paramWrite first second) rfl ?_
  simp only [Dev.paramWrite_pending h]
  exact ⟨(Dev.settle_rd _ _ (by decide)).trans (Dev.rd_wr_same _ _ _), ((Frame.refl _ _ _).wr _ _).settle⟩

theorem gives_paramWrite {s : State} (hfail : s.dev.sys.pwrFailN = true) (hgood : s.dev.sys.pwrGood = true) (first second : Bool) :
    Gives (.paramWrite first second) s fun e =>
      (first = true ∨ second = true → e.rdB Reg.BPS_PARAM_slot = s.dev.freeSlot ∧ Raised e .bps 20 ∧
        e.slotRec s.dev.freeSlot = some (s.dev.paramRecord ((s.dev.paramSeq + 1) % 2 ^ 32))) ∧
      (first = false → second = false → e.rd Reg.BPS_PARAM_slot = s.dev.rd Reg.BPS_PARAM_slot ∧
        e.slotRec s.dev.freeSlot = some { s.dev.paramRecord ((s.dev.paramSeq + 1) % 2 ^ 32) with crcOk := false }) ∧
      e.rd Reg.BPS_PARAM_pending = 0 ∧ Frame s.dev e [Reg.BPS_PARAM_pending, Reg.BPS_PARAM_slot, Reg.BPS_PARAM_seq,
        slotOk s.dev.freeSlot] [.bps] := by
  refine gives_of_exec_eq_act (f := fun d => d.paramWrite first second) rfl ?_
  simp only [Dev.paramWrite_eq hfail hgood]
  generalize s.dev.paramRecord ((s.dev.paramSeq + 1) % 2 ^ 32) = r
  generalize hslot : s.dev.freeSlot = slot
  have hoff := slotOk_off slot
  have hin : slotOk slot ∈ [Reg.BPS_PARAM_pending, Reg.BPS_PARAM_slot, Reg.BPS_PARAM_seq, slotOk slot] := by simp
  have hsub : [slotOk slot] ⊆ [Reg.BPS_PARAM_pending, Reg.BPS_PARAM_slot, Reg.BPS_PARAM_seq, slotOk slot] := by simp
  have hsent : Frame s.dev (s.dev.paramSent r first) [Reg.BPS_PARAM_pending, Reg.BPS_PARAM_slot, Reg.BPS_PARAM_seq,
      slotOk slot] [.bps] := ((Frame.refl _ _ _).wr _ _ (by simp)).reports (Dev.paramSent_reports _ _ _)
  have hrep := s.dev.paramSent_reports r first
  have hpending : (s.dev.paramSent r first).rd Reg.BPS_PARAM_pending = 0 := (hrep.rd _).trans (Dev.rd_wr_same _ _ _)
  have hslotRd : (s.dev.paramSent r first).rd Reg.BPS_PARAM_slot = s.dev.rd Reg.BPS_PARAM_slot :=
    (hrep.rd _).trans (Dev.rd_wr_other _ _ _ _ (by decide))
  generalize s.dev.paramSent r first = x at *
  have hset (y : HaloSlot) : Frame x (x.setSlotRec slot y) [slotOk slot] [.bps] := x.setSlotRec_frame slot y
  have hkeep (y : HaloSlot) (f : Fld) (hf : f ∈ [Reg.BPS_PARAM_pending, Reg.BPS_PARAM_slot, Reg.BPS_PARAM_seq])
      (hst : stateKey f.key = false := by decide) : (x.setSlotRec slot y).rd f = x.rd f :=
    (hset y).1 f (fun g hg => by rw [List.mem_singleton.1 hg]; exact hoff f hf) hst
  have hrec (y : HaloSlot) : (x.setSlotRec slot y).slotRec slot = some y := x.setSlotRec_slotRec slot y
  have hset' (y : HaloSlot) := hsent.trans (hset y) hsub (List.Subset.refl _)
  generalize x.setSlotRec slot = z at *
  cases hok : first || second with
  | true =>
    have hneg : ¬ (first = false ∧ second = false) := by
      rintro ⟨rfl, rfl⟩
      exact absurd hok (by decide)
    simp only [if_true]
    have htail := Dev.causeBit_reports (((z r).wrB Reg.BPS_PARAM_slot slot).wr Reg.BPS_PARAM_seq r.seq) .bps 20
    refine ⟨fun _ => ⟨?_, Dev.settle_raised _ _ _ (Dev.causeBit_raised _ _ _), ?_⟩, fun h1 h2 => absurd ⟨h1, h2⟩ hneg, ?_, ?_⟩
    · unfold Dev.rdB
      rw [Dev.settle_rd _ _ (by decide), htail.rd, Dev.rd_wr_other _ _ _ _ (by decide), Dev.wrB, Dev.rd_wr_same]
      cases slot <;> rfl
    · unfold Dev.slotRec
      rw [Dev.settle_bps, show (((((z r).wrB Reg.BPS_PARAM_slot slot).wr Reg.BPS_PARAM_seq r.seq).causeBit .bps 20)).bps = (z r).bps by
        rw [htail.same]; rfl]
      exact hrec r
    · rw [Dev.settle_rd _ _ (by decide), htail.rd, Dev.rd_wr_other _ _ _ _ (by decide), Dev.wrB,
        Dev.rd_wr_other _ _ _ _ (by decide), hkeep r _ (by decide), hpending]
    · exact ((((hset' r).wr _ _ (by simp)).wr _ _ (by simp)).reports htail).settle
  | false =>
    have hneg : ¬ (first = true ∨ second = true) := by
      rintro (rfl | rfl)
      · exact absurd hok (by simp)
      · exact absurd hok (by simp)
    simp only [Bool.false_eq_true, if_false]
    have htail := Dev.errCorr_reports (z { r with crcOk := false }) .bps 2
    refine ⟨fun h => absurd h hneg, fun _ _ => ⟨?_, ?_⟩, ?_, ?_⟩
    · rw [Dev.settle_rd _ _ (by decide), htail.rd, hkeep _ _ (by decide), hslotRd]
    · unfold Dev.slotRec
      rw [Dev.settle_bps, show ((z { r with crcOk := false }).errCorr .bps 2).bps = (z { r with crcOk := false }).bps by
        rw [htail.same]]
      exact hrec _
    · rw [Dev.settle_rd _ _ (by decide), htail.rd, hkeep _ _ (by decide), hpending]
    · exact ((hset' _).reports htail).settle

end Sys2Proof
end

section
/-! An ADC that is no longer trusted (R290, R298, R299). -/

set_option Elab.async false

namespace Sys2Proof

open Sys2Proof.Machine

/-- The fields that follow an ADC's trust: roles, the ramp and the last round. -/
def calFields : List Fld := [Reg.BPS_ADC_primary, Reg.BPS_ADC_ramp, Reg.BPS_CAL_STAT_running, Reg.BPS_CAL_STAT_result,
  Reg.BPS_CAL_STAT_reason, Reg.BPS_CAL_STAT_held]

/-- All that may follow an ADC's loss. -/
def trustFields : List Fld := calFields ++ inhibitFields ++ haloFields ++ learnShown

theorem adcField_off (n : Nat) : ∀ g ∈ trustFields, (adcField n).key ≠ g.key := by
  unfold adcField
  split <;> decide

theorem adcField_shown (n : Nat) : stateKey (adcField n).key = false := by
  unfold adcField
  split <;> decide

theorem adcField_key_other {n : Nat} (hn : n < 2) : (adcField (1 - n)).key ≠ (adcField n).key :=
  (by decide : ∀ n < 2, (adcField (1 - n)).key ≠ (adcField n).key) n hn

section

variable {a d : Dev} {fs : List Fld} {ps : List Part}

theorem Frame.calShow (h : Frame a d fs ps) (result reason : Nat) (h0 : Reg.BPS_CAL_STAT_result ∈ fs := by decide)
    (h1 : Reg.BPS_CAL_STAT_reason ∈ fs := by decide) : Frame a (d.calShow result reason) fs ps := (h.wr _ _ h0).wr _ _ h1

theorem Frame.roundOver (h : Frame a d fs ps) (h0 : Reg.BPS_ADC_ramp ∈ fs := by decide)
    (h1 : Reg.BPS_CAL_STAT_running ∈ fs := by decide) (hb : Part.bps ∈ ps := by decide) (hm : Part.mnt ∈ ps := by decide) :
    Frame a d.roundOver fs ps := (((h.setBps _ hb).wr _ _ h0).wr _ _ h1).setMnt _ hm

theorem Frame.learnSpoil (h : Frame a d fs ps) (reason : Nat) (hfs : learnStopFields ⊆ fs := by decide)
    (hsys : Part.sys ∈ ps := by decide) (hbps : Part.bps ∈ ps := by decide) : Frame a (d.learnSpoil reason) fs ps :=
  .ite (h.learnStop reason hfs hsys hbps) h

end

namespace Machine

theorem Dev.adcOk_eq (d : Dev) (n : Nat) : d.adcOk n = d.rdB (adcField n) := by
  unfold Dev.adcOk adcField
  split <;> rfl

theorem Dev.calPost_reports (d : Dev) (level result reason which : Nat) : Dev.Reports d (d.calPost level result reason which) :=
  Dev.post_reports _ _ _ _ _ _ _ _

theorem Dev.adcOk_of_frame {d e : Dev} {fs : List Fld} {ps : List Part} (h : Frame d e fs ps) (hfs : fs ⊆ trustFields) (n : Nat) :
    e.adcOk n = d.adcOk n := by
  rw [e.adcOk_eq, d.adcOk_eq]
  unfold Dev.rdB
  rw [h.1 _ (fun g hg => adcField_off n g (hfs hg)) (adcField_shown n)]

/-! ### The steps of the loss -/

/-- The mark is taken away, and the other ADC becomes the primary one where it is trusted. -/
def Dev.adcMarked (d : Dev) (n : Nat) : Dev :=
  if (d.wr (adcField n) 0).primary = n ∧ (d.wr (adcField n) 0).adcOk (1 - n) then
    (d.wr (adcField n) 0).wr Reg.BPS_ADC_primary (1 - n)
  else d.wr (adcField n) 0

/-- The loss is reported, and starts the filter. -/
def Dev.adcReported (d : Dev) : Dev := ((d.errUncorr .bps 4).alarm (if (d.errUncorr .bps 4).anyAdc then 6 else 7)).setHaloCause 4

/-- The loss is shown as a round's result. -/
def Dev.adcShown (d : Dev) (n reason : Nat) : Dev :=
  ((d.calShow crUntrusted reason).calPost 0 crUntrusted reason n).updBps fun b => { b with
    calNote := true, calRefusals := 0, mustPass := none
    heldCand := b.heldCand.filter fun c => c.adc ≠ n }

/-- What an ADC's loss ends: a round, a learn cycle and, without an ADC, charging and the bound. -/
def Dev.adcEnds (d : Dev) : Dev :=
  (((d.wrB Reg.BPS_CAL_STAT_held d.bps.heldCand.isSome).roundOver.learnSpoil 10).refreshNoAdc).refreshHalo

theorem Dev.adcUntrust_eq {d : Dev} {n : Nat} (h : d.adcOk n = true) (reason : Nat) :
    d.adcUntrust n reason = ((d.adcMarked n).adcReported.adcShown n reason).adcEnds := by
  unfold Dev.adcUntrust
  exact if_neg (by simp [h])

theorem Dev.adcUntrust_of_untrusted {d : Dev} {n : Nat} (h : d.adcOk n = false) (reason : Nat) : d.adcUntrust n reason = d := by
  unfold Dev.adcUntrust
  exact if_pos (by simp [h])

theorem Dev.adcMarked_frame (d : Dev) (n : Nat) : Frame d (d.adcMarked n) (adcField n :: trustFields) [.bps, .pwc, .mnt, .sys] := by
  have hwr : Frame d (d.wr (adcField n) 0) (adcField n :: trustFields) [.bps, .pwc, .mnt, .sys] :=
    (Frame.refl _ _ _).wr _ _ List.mem_cons_self
  exact .ite (hwr.wr _ _ (List.mem_cons_of_mem _ (by decide))) hwr

theorem Dev.adcReported_frame (d : Dev) : Frame d d.adcReported haloFields [.bps, .pwc] :=
  (((Frame.refl _ _ _).reports (Dev.errUncorr_reports _ _ _)).alarm _).setHaloCause 4

theorem Dev.adcShown_frame (d : Dev) (n reason : Nat) :
    Frame d (d.adcShown n reason) [Reg.BPS_CAL_STAT_result, Reg.BPS_CAL_STAT_reason] [.bps] :=
  (((Frame.refl _ _ _).calShow _ _).reports (Dev.calPost_reports _ _ _ _ _)).setBps _

/-- What an ADC's loss ends changes neither the roles nor the result shown. -/
def endFieldsAdc : List Fld :=
  [Reg.BPS_ADC_ramp, Reg.BPS_CAL_STAT_running, Reg.BPS_CAL_STAT_held] ++ inhibitFields ++ haloFields ++ learnShown

theorem Dev.adcEnds_frame (d : Dev) : Frame d d.adcEnds endFieldsAdc [.bps, .pwc, .mnt, .sys] :=
  (((Frame.refl d _ _).wr _ _).roundOver.learnSpoil 10).refreshNoAdc.refreshHalo

theorem Dev.adcMarked_adcOk (d : Dev) (n : Nat) : (d.adcMarked n).adcOk n = false := by
  have hwr : (d.wr (adcField n) 0).rd (adcField n) = 0 := by rw [Dev.rd_wr_same, Nat.zero_mod]
  have hset : ((d.wr (adcField n) 0).wr Reg.BPS_ADC_primary (1 - n)).rd (adcField n) = 0 := by
    rw [Dev.rd_wr_other _ _ _ _ (adcField_off n _ (by decide)), hwr]
  rw [Dev.adcOk_eq]
  unfold Dev.adcMarked Dev.rdB
  split
  · simp [hset]
  · simp [hwr]

theorem Dev.adcMarked_adcOk_other (d : Dev) {n : Nat} (hn : n < 2) : (d.adcMarked n).adcOk (1 - n) = d.adcOk (1 - n) := by
  have hwr : (d.wr (adcField n) 0).rd (adcField (1 - n)) = d.rd (adcField (1 - n)) :=
    Dev.rd_wr_other _ _ _ _ (adcField_key_other hn)
  have hset : ((d.wr (adcField n) 0).wr Reg.BPS_ADC_primary (1 - n)).rd (adcField (1 - n)) = d.rd (adcField (1 - n)) := by
    rw [Dev.rd_wr_other _ _ _ _ (adcField_off (1 - n) _ (by decide)), hwr]
  rw [Dev.adcOk_eq, Dev.adcOk_eq]
  unfold Dev.adcMarked Dev.rdB
  split
  · rw [hset]
  · rw [hwr]

/-- The other ADC takes over where it is trusted. -/
theorem Dev.adcMarked_primary (d : Dev) {n : Nat} (hn : n < 2) (hp : d.primary = n) (hok : d.adcOk (1 - n) = true) :
    (d.adcMarked n).primary = 1 - n := by
  have hprimary : (d.wr (adcField n) 0).primary = n := by
    unfold Dev.primary
    rw [Dev.rd_wr_other _ _ _ _ (Ne.symm (adcField_off n _ (by decide)))]
    exact hp
  have hother : (d.wr (adcField n) 0).adcOk (1 - n) = true := by
    rw [Dev.adcOk_eq, Dev.rdB, Dev.rd_wr_other _ _ _ _ (adcField_key_other hn)]
    rw [Dev.adcOk_eq, Dev.rdB] at hok
    exact hok
  unfold Dev.adcMarked
  rw [if_pos ⟨hprimary, hother⟩]
  exact (Dev.rd_wr_same _ _ _).trans (Nat.mod_eq_of_lt (by show 1 - n < 2; omega))

theorem Dev.adcShown_rd (d : Dev) (n : Nat) {reason : Nat} (h : reason < 2 ^ 8) :
    (d.adcShown n reason).rd Reg.BPS_CAL_STAT_result = 2 ∧ (d.adcShown n reason).rd Reg.BPS_CAL_STAT_reason = reason := by
  have hrep := Dev.calPost_reports (d.calShow crUntrusted reason) 0 crUntrusted reason n
  refine ⟨(hrep.rd _).trans ((Dev.rd_wr_other _ _ _ _ (by decide)).trans (Dev.rd_wr_same _ _ _)), ?_⟩
  exact ((hrep.rd _).trans (Dev.rd_wr_same _ _ _)).trans (Nat.mod_eq_of_lt h)

theorem Dev.adcEnds_running (d : Dev) : d.adcEnds.rd Reg.BPS_CAL_STAT_running = 0 := by
  have htail (x : Dev) : Frame x (x.learnSpoil 10).refreshNoAdc.refreshHalo (inhibitFields ++ haloFields ++ learnShown)
      [.bps, .pwc, .sys] := ((Frame.refl _ _ _).learnSpoil 10).refreshNoAdc.refreshHalo
  refine ((htail _).rd _).trans ?_
  exact Dev.rd_wr_same _ Reg.BPS_CAL_STAT_running 0

theorem Dev.adcEnds_causes (d : Dev) : d.adcEnds.rd Reg.BPS_HALO_STAT_causes = d.rd Reg.BPS_HALO_STAT_causes := by
  unfold Dev.adcEnds
  rw [Dev.refreshHalo_causes]
  have hbefore : Frame d ((d.wrB Reg.BPS_CAL_STAT_held d.bps.heldCand.isSome).roundOver.learnSpoil 10).refreshNoAdc
      ([Reg.BPS_ADC_ramp, Reg.BPS_CAL_STAT_running, Reg.BPS_CAL_STAT_held] ++ inhibitFields ++ learnShown) [.bps, .mnt, .sys] :=
    ((((Frame.refl d _ _).wr _ _).roundOver).learnSpoil 10).refreshNoAdc
  exact hbefore.rd _

theorem Dev.adcEnds_mode (d : Dev) (h0 : d.adcOk 0 = false) (h1 : d.adcOk 1 = false) :
    d.adcEnds.rd Reg.BPS_HALO_STAT_mode = hmNone := by
  unfold Dev.adcEnds
  rw [Dev.refreshHalo_mode]
  have hbefore : Frame d ((d.wrB Reg.BPS_CAL_STAT_held d.bps.heldCand.isSome).roundOver.learnSpoil 10).refreshNoAdc
      trustFields [.bps, .mnt, .sys] := ((((Frame.refl d _ _).wr _ _).roundOver).learnSpoil 10).refreshNoAdc
  generalize ((d.wrB Reg.BPS_CAL_STAT_held d.bps.heldCand.isSome).roundOver.learnSpoil 10).refreshNoAdc = x at *
  have hx0 := (Dev.adcOk_of_frame hbefore (List.Subset.refl _) 0).trans h0
  have hx1 := (Dev.adcOk_of_frame hbefore (List.Subset.refl _) 1).trans h1
  simp [Dev.haloMode, Dev.anyAdc, hx0, hx1]

/-- What an ADC's loss shows, with its reason. -/
structure Dev.AdcLost (d e : Dev) (n reason : Nat) : Prop where
  untrusted : e.adcOk n = false
  primary : d.primary = n → d.adcOk (1 - n) = true → e.primary = 1 - n
  result : e.rd Reg.BPS_CAL_STAT_result = 2
  why : e.rd Reg.BPS_CAL_STAT_reason = reason
  running : e.rd Reg.BPS_CAL_STAT_running = 0
  cause : bitOf (e.rd Reg.BPS_HALO_STAT_causes) 4 = true
  mode : d.adcOk (1 - n) = false → e.rd Reg.BPS_HALO_STAT_mode = hmNone
  frame : Frame d e (adcField n :: trustFields) [.bps, .pwc, .mnt, .sys]

theorem Dev.adcUntrust_lost {d : Dev} {n reason : Nat} (hn : n < 2) (hr : reason < 2 ^ 8) (h : d.adcOk n = true) :
    Dev.AdcLost d (d.adcUntrust n reason).settle n reason := by
  rw [Dev.adcUntrust_eq h]
  have hmarked := d.adcMarked_adcOk n
  have hother := d.adcMarked_adcOk_other hn
  have hprimary := d.adcMarked_primary hn
  have hstart := d.adcMarked_frame n
  generalize d.adcMarked n = w at *
  have hreported := w.adcReported_frame
  have hcause : bitOf (w.adcReported.rd Reg.BPS_HALO_STAT_causes) 4 = true := Dev.setHaloCause_bit _ (bit := 4) (by decide)
  generalize w.adcReported = x at *
  have hshown := x.adcShown_frame n reason
  obtain ⟨hresult, hwhy⟩ := x.adcShown_rd n hr
  have hends := (x.adcShown n reason).adcEnds_frame
  have hrunning := (x.adcShown n reason).adcEnds_running
  have hcauses := (x.adcShown n reason).adcEnds_causes
  have hmode := (x.adcShown n reason).adcEnds_mode
  generalize x.adcShown n reason = y at *
  have hmiddle : Frame w y trustFields [.bps, .pwc, .mnt, .sys] := (hreported.mono (gs := trustFields)).trans hshown
  have htail : Frame w y.adcEnds.settle trustFields [.bps, .pwc, .mnt, .sys] := (hmiddle.trans hends).settle
  refine ⟨?_, fun hp hok => ?_, (hends.settle.rd _).trans hresult, (hends.settle.rd _).trans hwhy, ?_, ?_, fun hnone => ?_, ?_⟩
  · exact (Dev.adcOk_of_frame htail (List.Subset.refl _) n).trans hmarked
  · have hwrd : y.rd Reg.BPS_ADC_primary = w.rd Reg.BPS_ADC_primary := (hshown.rd _).trans (hreported.rd _)
    exact (hends.settle.rd _).trans (hwrd.trans (hprimary hp hok))
  · exact (Dev.settle_rd _ _ (by decide)).trans hrunning
  · rw [Dev.settle_rd _ _ (by decide), hcauses, hshown.rd Reg.BPS_HALO_STAT_causes]
    exact hcause
  · rw [Dev.settle_rd _ _ (by decide)]
    have hn' : y.adcOk n = false := (Dev.adcOk_of_frame hmiddle (List.Subset.refl _) n).trans hmarked
    have ho' : y.adcOk (1 - n) = false := (Dev.adcOk_of_frame hmiddle (List.Subset.refl _) (1 - n)).trans (hother.trans hnone)
    interval_cases n
    · exact hmode hn' ho'
    · exact hmode ho' hn'
  · exact hstart.trans htail (List.subset_cons_self _ _) (List.Subset.refl _)

end Machine

theorem exec_adcUntrusted {n : Nat} (hn : n < 2) (s : State) :
    exec (.adcUntrusted n) s = s.act fun d => d.adcUntrust n 3 := by
  show execAdcUntrusted n s = _
  simp [execAdcUntrusted, onUnit, hn]

theorem gives_adcUntrusted_none {n : Nat} (hn : n < 2) {s : State} (h : s.dev.adcOk n = false) :
    Gives (.adcUntrusted n) s fun e => Frame s.dev e [] [] :=
  gives_same_of_eq (exec_adcUntrusted hn s) (Dev.adcUntrust_of_untrusted h 3)

theorem gives_adcUntrusted {n : Nat} (hn : n < 2) {s : State} (h : s.dev.adcOk n = true) :
    Gives (.adcUntrusted n) s fun e => Dev.AdcLost s.dev e n 3 :=
  gives_of_exec_eq_act (exec_adcUntrusted hn s) (Dev.adcUntrust_lost hn (by decide) h)

end Sys2Proof
end

section
/-! Calibration rounds, ramps and holds (R291 to R299). -/

set_option Elab.async false

namespace Sys2Proof

open Sys2Proof.Machine

/-! ### Attempts (R291) -/

/-- An attempt fails for its offsets or for its gains. -/
theorem adcCalibrate_why : ∀ (n : Nat) (xs : List AdcAttempt) (w why : Nat), w < 3 → adcCalibrate n xs w = .inr why → why < 3
  | 0, _, w, why, hw, h => by
    obtain rfl : w = why := by simpa [adcCalibrate] using h
    exact hw
  | n + 1, [], w, why, hw, h => by
    obtain rfl : w = why := by simpa [adcCalibrate] using h
    exact hw
  | n + 1, a :: xs, w, why, hw, h => by
    rw [adcCalibrate] at h
    split at h
    · exact absurd h (by simp)
    · refine adcCalibrate_why n xs _ why ?_ h
      split <;> decide

namespace Machine

/-! ### What a round compares -/

/-- The coefficients in force and the estimates of the shunt's gain are as before. -/
structure Dev.CoeffsKept (d e : Dev) : Prop where
  ofs : ∀ adc c, c < 7 → e.chOfs adc c = d.chOfs adc c
  ests : e.bps.gainEsts = d.bps.gainEsts
  cells : e.cells = d.cells

theorem Dev.CoeffsKept.candidates {d e : Dev} (h : Dev.CoeffsKept d e) (cal : CalProfile) (m : CalMeas) (sec : Nat) :
    e.candidates cal m sec = d.candidates cal m sec := by
  unfold Dev.candidates
  congr 1
  · refine List.map_congr_left fun c hc => ?_
    rw [List.mem_range] at hc
    rw [h.ofs _ _ hc, h.ofs _ _ hc]
  · unfold Dev.shuntCand
    rw [h.ests]

/-- Whether the two ADCs disagree on a channel. -/
def Dev.disagrees (d : Dev) (m : CalMeas) (c : Cand) (i : Nat) : Bool :=
  match m.channels[i]? with
  | some x => decide (x.fullScale.natAbs * 5 <
      ((x.primary - d.chOfs (1 - c.adc) i) - (x.secondary - d.chOfs c.adc i)).natAbs * 10000)
  | none => false

/-- The reason of a round's refusal: the shunt's gain, an offset, or a disagreement. -/
def refusal (gain : Bool) (ofs dis : Option Nat) : Option (Nat × Nat) :=
  if gain then some (4, 4)
  else match ofs, dis with
    | some i, _ => some (5, i)
    | none, some i => some (6, i)
    | none, none => none

/-- The channels that a pack of some cells uses. -/
def usedChannels (cells : Nat) : List Nat := (List.range 7).filter fun i => i < cells || 4 ≤ i

theorem Dev.implausible_eq (d : Dev) (cal : CalProfile) (m : CalMeas) (c : Cand) : d.implausible cal m c =
    refusal (decide ((cal.gains.getD 4 0 : Int).natAbs * 15 < (c.shuntGain - (cal.gains.getD 4 0 : Int)).natAbs * 1000))
      ((usedChannels d.cells).find? fun i => decide (200 < (c.offsets.getD i 0 - cal.offsets.getD i 0).natAbs))
      ((usedChannels d.cells).find? (d.disagrees m c)) := by
  unfold refusal
  simp only [decide_eq_true_eq]
  rfl

theorem Dev.CoeffsKept.implausible {d e : Dev} (h : Dev.CoeffsKept d e) (cal : CalProfile) (m : CalMeas) (c : Cand) :
    e.implausible cal m c = d.implausible cal m c := by
  have hdis : (usedChannels d.cells).find? (e.disagrees m c) = (usedChannels d.cells).find? (d.disagrees m c) := by
    refine List.find?_congr fun i hi => ?_
    have hlt : i < 7 := List.mem_range.1 (List.mem_filter.1 hi).1
    unfold Dev.disagrees
    rw [h.ofs _ _ hlt, h.ofs _ _ hlt]
  rw [e.implausible_eq, d.implausible_eq, h.cells, hdis]

/-- The field of an ADC's offset on a channel. -/
def chField (adc : Nat) : Fld := if adc = 0 then Reg.BPS_CH_OFS_adc0 else Reg.BPS_CH_OFS_adc1

/-- The fields that a round changes before it ramps anything in. -/
def roundFields (sec : Nat) : List Fld := [Reg.BPS_CAL_STAT_result, Reg.BPS_CAL_STAT_reason, Reg.BPS_CAL_STAT_running,
  Reg.BPS_CAL_STAT_held, Reg.BPS_CAL_CNT_accepted, Reg.BPS_ADC_ramp, Reg.BPS_ADC_OFS_lsb.ix sec, Reg.BPS_ADC_GAIN_gain.ix sec]

theorem chField_off (adc : Nat) {c sec : Nat} (hc : c < 7) (hs : sec < 2) :
    (∀ g ∈ roundFields sec, ((chField adc).ix c).key ≠ g.key) ∧ stateKey ((chField adc).ix c).key = false := by
  unfold chField
  split
  · exact (by decide : ∀ c < 7, ∀ sec < 2, (∀ g ∈ roundFields sec, (Reg.BPS_CH_OFS_adc0.ix c).key ≠ g.key) ∧
      stateKey (Reg.BPS_CH_OFS_adc0.ix c).key = false) c hc sec hs
  · exact (by decide : ∀ c < 7, ∀ sec < 2, (∀ g ∈ roundFields sec, (Reg.BPS_CH_OFS_adc1.ix c).key ≠ g.key) ∧
      stateKey (Reg.BPS_CH_OFS_adc1.ix c).key = false) c hc sec hs

theorem Dev.CoeffsKept.of_frame {d e : Dev} {sec : Nat} {ps : List Part} (hs : sec < 2) (h : Frame d e (roundFields sec) ps)
    (hests : e.bps.gainEsts = d.bps.gainEsts) (hbatt : e.bps.batt = d.bps.batt) : Dev.CoeffsKept d e := by
  refine ⟨fun adc c hc => ?_, hests, by unfold Dev.cells; rw [hbatt]⟩
  obtain ⟨hoff, hst⟩ := chField_off adc hc hs
  exact congrArg (signedOf 16) (h.1 _ hoff hst)

/-! ### Ramps -/

/-- What ramping candidates in changes, outside a hold. -/
def Dev.ramped (d : Dev) (c : Cand) : Dev :=
  (d.updBps fun b => { b with ramp := some (0, c, d.adcOk 0 && d.adcOk 1), heldCand := none, restCand := none })
    |>.wr Reg.BPS_ADC_ramp 1 |>.wr Reg.BPS_CAL_STAT_held 0

theorem Dev.rampIn_eq {d : Dev} (h : d.calHeld = false) (c : Cand) : d.rampIn c = d.ramped c := by
  unfold Dev.rampIn
  exact if_neg (by simp [h])

theorem Dev.calHeld_congr {d e : Dev} (hphase : e.learnPhaseNo = d.learnPhaseNo) (hcand : e.bps.restCand = d.bps.restCand)
    (hticks : e.ticks = d.ticks) : e.calHeld = d.calHeld := by
  unfold Dev.calHeld
  rw [hphase, hcand, hticks]

theorem Dev.roundOver_ramp (d : Dev) : d.roundOver.rd Reg.BPS_ADC_ramp = 0 :=
  (Dev.rd_wr_other ((d.updBps fun b => { b with ramp := none }).wr Reg.BPS_ADC_ramp 0) Reg.BPS_CAL_STAT_running
    Reg.BPS_ADC_ramp 0 (by decide)).trans (Dev.rd_wr_same _ _ _)

theorem Dev.ramped_rd (d : Dev) (c : Cand) : (d.ramped c).rd Reg.BPS_ADC_ramp = 1 ∧ (d.ramped c).rd Reg.BPS_CAL_STAT_held = 0 :=
  ⟨(Dev.rd_wr_other _ _ _ _ (by decide)).trans (Dev.rd_wr_same _ _ _), Dev.rd_wr_same _ _ _⟩

theorem Dev.ramped_frame (d : Dev) (c : Cand) : Frame d (d.ramped c) [Reg.BPS_ADC_ramp, Reg.BPS_CAL_STAT_held] [.bps] :=
  (((Frame.refl _ _ _).setBps _).wr _ _).wr _ _

end Machine

section

variable {s : State}

theorem gives_rampStep_none (h : s.dev.bps.ramp = none) : Gives .rampStep s fun e => Frame s.dev e [] [] :=
  gives_same_of_eq (f := Dev.rampStep) rfl (by simp [Dev.rampStep, h])

variable {k : Nat} {c : Cand} {swap : Bool} (h : s.dev.bps.ramp = some (k, c, swap))
include h

theorem gives_rampStep (hk : k + 1 < 64) : Gives .rampStep s fun e =>
    e.bps = { s.dev.bps with ramp := some (k + 1, c, swap) } ∧ Frame s.dev e [] [.bps] := by
  refine gives_of_exec_eq_act (f := Dev.rampStep) rfl ?_
  have heq : s.dev.rampStep = s.dev.updBps fun b => { b with ramp := some (k + 1, c, swap) } := by
    simp only [Dev.rampStep, h, hk, if_true]
  rw [heq, Dev.settle_bps]
  exact ⟨rfl, ((Frame.refl _ _ _).setBps _).settle⟩

/-- The last step of a ramp. -/
theorem gives_rampStep_last (hk : k + 1 = 64) : Gives .rampStep s fun e =>
    e.bps = { s.dev.bps with ramp := none } ∧
    (∀ i, i < 7 → e.rd ((chField c.adc).ix i) = codeOf 16 (c.offsets.getD i 0)) ∧
    e.rd (Reg.BPS_CH_GAIN_gain.ix 4) = c.shuntGain.toNat % 2 ^ 32 ∧
    e.primary = (if swap then c.adc % 2 else s.dev.primary) ∧ e.rd Reg.BPS_ADC_ramp = 0 ∧
    Frame s.dev e ([Reg.BPS_CH_GAIN_gain.ix 4, Reg.BPS_ADC_primary, Reg.BPS_ADC_ramp, Reg.BPS_CAL_STAT_running] ++
      (List.range 7).map (chField c.adc).ix) [.bps, .mnt] := by
  refine gives_of_exec_eq_act (f := Dev.rampStep) rfl ?_
  have heq : s.dev.rampStep = s.dev.rampDone c swap := by
    simp only [Dev.rampStep, h, show ¬ (k + 1 < 64) by omega, if_false]
  rw [heq]
  generalize hx : forEach (List.range 7) (fun i d => d.wr ((chField c.adc).ix i) (codeOf 16 (c.offsets.getD i 0))) s.dev = x
  generalize hy : x.wr (Reg.BPS_CH_GAIN_gain.ix 4) c.shuntGain.toNat = y
  have hdone : s.dev.rampDone c swap = (if swap then y.wr Reg.BPS_ADC_primary c.adc else y).roundOver := by
    rw [← hy, ← hx]
    rfl
  have hframe : Frame s.dev x ([Reg.BPS_CH_GAIN_gain.ix 4, Reg.BPS_ADC_primary, Reg.BPS_ADC_ramp, Reg.BPS_CAL_STAT_running] ++
      (List.range 7).map (chField c.adc).ix) [.bps, .mnt] := by
    rw [← hx]
    exact (Frame.refl _ _ _).forEachWr (chField c.adc) (fun i => codeOf 16 (c.offsets.getD i 0)) 7
      fun i hi => List.mem_append_right _ (List.mem_map_of_mem (List.mem_range.2 hi))
  have hofs (i : Nat) (hi : i < 7) : x.rd ((chField c.adc).ix i) = codeOf 16 (c.offsets.getD i 0) := by
    rw [← hx, Dev.rd_forEach_wr_same (chField c.adc) (fun i => codeOf 16 (c.offsets.getD i 0)) 7 i hi]
    · unfold chField
      split
      · exact Nat.mod_eq_of_lt (codeOf_lt 16 _)
      · exact Nat.mod_eq_of_lt (codeOf_lt 16 _)
    · intro j hj hne
      unfold chField
      split
      · exact (by decide : ∀ i < 7, ∀ j < 7, j ≠ i → (Reg.BPS_CH_OFS_adc0.ix i).key ≠ (Reg.BPS_CH_OFS_adc0.ix j).key) i hi j hj hne
      · exact (by decide : ∀ i < 7, ∀ j < 7, j ≠ i → (Reg.BPS_CH_OFS_adc1.ix i).key ≠ (Reg.BPS_CH_OFS_adc1.ix j).key) i hi j hj hne
  have hafter : Frame x y [Reg.BPS_CH_GAIN_gain.ix 4] [] := by
    rw [← hy]
    exact (Frame.refl _ _ _).wr _ _
  have hgain : y.rd (Reg.BPS_CH_GAIN_gain.ix 4) = c.shuntGain.toNat % 2 ^ 32 := by
    rw [← hy]
    exact Dev.rd_wr_same _ _ _
  have htail : Frame y (s.dev.rampDone c swap).settle [Reg.BPS_ADC_primary, Reg.BPS_ADC_ramp, Reg.BPS_CAL_STAT_running]
      [.bps, .mnt] := by
    rw [hdone]
    exact (Frame.ite ((Frame.refl _ _ _).wr _ _) (Frame.refl _ _ _)).roundOver.settle
  have hbps : y.bps = s.dev.bps := by
    rw [← hy, ← hx]
    exact ((Frame.refl s.dev ((List.range 7).map (chField c.adc).ix) []).forEachWr (chField c.adc)
      (fun i => codeOf 16 (c.offsets.getD i 0)) 7 fun i hi => List.mem_map_of_mem (List.mem_range.2 hi)).part .bps
  refine ⟨?_, fun i hi => ?_, (htail.rd _).trans hgain, ?_, ?_, ?_⟩
  · rw [Dev.settle_bps, hdone, ← hbps]
    split <;> rfl
  · have hoff : ∀ g ∈ [Reg.BPS_CH_GAIN_gain.ix 4, Reg.BPS_ADC_primary, Reg.BPS_ADC_ramp, Reg.BPS_CAL_STAT_running],
        ((chField c.adc).ix i).key ≠ g.key := by
      unfold chField
      split
      · exact (by decide : ∀ i < 7, ∀ g ∈ [Reg.BPS_CH_GAIN_gain.ix 4, Reg.BPS_ADC_primary, Reg.BPS_ADC_ramp,
          Reg.BPS_CAL_STAT_running], (Reg.BPS_CH_OFS_adc0.ix i).key ≠ g.key) i hi
      · exact (by decide : ∀ i < 7, ∀ g ∈ [Reg.BPS_CH_GAIN_gain.ix 4, Reg.BPS_ADC_primary, Reg.BPS_ADC_ramp,
          Reg.BPS_CAL_STAT_running], (Reg.BPS_CH_OFS_adc1.ix i).key ≠ g.key) i hi
    have hst := (chField_off c.adc hi (sec := 0) (by decide)).2
    have hkept : y.rd ((chField c.adc).ix i) = x.rd ((chField c.adc).ix i) :=
      hafter.1 _ (fun g hg => hoff g (by rw [List.mem_singleton.1 hg]; exact List.mem_cons_self)) hst
    exact (htail.1 _ (fun g hg => hoff g (List.mem_cons_of_mem _ hg)) hst).trans (hkept.trans (hofs i hi))
  · have hprimary : y.rd Reg.BPS_ADC_primary = s.dev.rd Reg.BPS_ADC_primary := by
      rw [hafter.rd Reg.BPS_ADC_primary, ← hx]
      refine (((Frame.refl s.dev ((List.range 7).map (chField c.adc).ix) []).forEachWr (chField c.adc)
        (fun i => codeOf 16 (c.offsets.getD i 0)) 7 fun i hi => List.mem_map_of_mem (List.mem_range.2 hi)).1
          Reg.BPS_ADC_primary ?_ (by decide))
      unfold chField
      split <;> decide
    unfold Dev.primary
    rw [Dev.settle_rd _ _ (by decide), hdone]
    have hover (z : Dev) : z.roundOver.rd Reg.BPS_ADC_primary = z.rd Reg.BPS_ADC_primary :=
      ((Frame.refl z [Reg.BPS_ADC_ramp, Reg.BPS_CAL_STAT_running] [.bps, .mnt]).roundOver).rd _
    rw [hover]
    split
    · exact Dev.rd_wr_same _ _ _
    · exact hprimary
  · rw [Dev.settle_rd _ _ (by decide), hdone]
    exact Dev.roundOver_ramp _
  · have hgained : Frame s.dev y ([Reg.BPS_CH_GAIN_gain.ix 4, Reg.BPS_ADC_primary, Reg.BPS_ADC_ramp, Reg.BPS_CAL_STAT_running] ++
        (List.range 7).map (chField c.adc).ix) [.bps, .mnt] := hframe.trans hafter (by simp) (by simp)
    exact hgained.trans htail (by simp) (List.Subset.refl _)

end

/-! ### Holds (R298) -/

theorem gives_calHoldRelease {s : State} {c : Cand} (hc : s.dev.bps.heldCand = some c) (hheld : s.dev.calHeld = false)
    (hramp : s.dev.bps.ramp = none) : Gives .calHoldRelease s fun e =>
      e.bps.ramp = some (0, c, s.dev.adcOk 0 && s.dev.adcOk 1) ∧ e.bps.heldCand = none ∧ e.rd Reg.BPS_ADC_ramp = 1 ∧
      e.rd Reg.BPS_CAL_STAT_held = 0 ∧ Frame s.dev e [Reg.BPS_ADC_ramp, Reg.BPS_CAL_STAT_held] [.bps] := by
  refine gives_of_exec_eq_act (f := Dev.holdRelease) rfl ?_
  have heq : s.dev.holdRelease = s.dev.ramped c := by
    rw [← Dev.rampIn_eq hheld]
    simp [Dev.holdRelease, hc, hheld, hramp]
  rw [heq, Dev.settle_bps]
  obtain ⟨hone, hzero⟩ := s.dev.ramped_rd c
  exact ⟨rfl, rfl, (Dev.settle_rd _ _ (by decide)).trans hone, (Dev.settle_rd _ _ (by decide)).trans hzero,
    (s.dev.ramped_frame c).settle⟩

theorem gives_calHoldRelease_none {s : State} (h : s.dev.bps.heldCand = none ∨ ¬ (s.dev.calHeld = false ∧ s.dev.bps.ramp = none)) :
    Gives .calHoldRelease s fun e => Frame s.dev e [] [] := by
  refine gives_same_of_eq (f := Dev.holdRelease) rfl ?_
  unfold Dev.holdRelease
  split
  · rfl
  · next c hc =>
    rcases h with h | h
    · exact absurd (hc.symm.trans h) (by simp)
    · refine if_pos ?_
      by_contra hno
      simp only [Bool.or_eq_true, not_or, Bool.not_eq_true, Option.isSome_eq_false_iff, Option.isNone_iff_eq_none] at hno
      exact h hno

end Sys2Proof
end

section
/-! A calibration round that the arbiter starts at once (R291 to R297, R299). -/

set_option Elab.async false

namespace Sys2Proof

open Sys2Proof.Machine

namespace Machine

/-- A round that has begun with no other activity. -/
def Dev.roundBegun (d : Dev) : Dev :=
  ({ d with mnt := { d.mnt with acts := [⟨.calibrate, wholeDevice, .running⟩] } } : Dev).wr Reg.BPS_CAL_STAT_running 1

theorem Dev.arbRequest_calibrate_alone {d : Dev} (hacts : d.mnt.acts = []) (h : d.blocker .calibrate wholeDevice = none) :
    d.arbRequest .calibrate wholeDevice =
      ({ d with mnt := { d.mnt with acts := [⟨.calibrate, wholeDevice, .running⟩] } } : Dev) := by
  have hrun : d.running = [] := by simp [Dev.running, hacts]
  rw [Dev.arbRequest_alone hacts _ _ h]
  simp [Dev.actStart, Dev.meeting, hrun, forEach, Dev.setAct, Dev.actOf, hacts, Dev.actBegin]

theorem Dev.calRound_eq {d : Dev} {cal : CalProfile} {b : BattProfile} (hcal : d.bps.bcal = some cal) (hb : d.batt = some b)
    (hidle : d.rd Reg.BPS_CAL_STAT_running = 0) (hramp : d.bps.ramp = none) (hacts : d.mnt.acts = [])
    (hblock : d.blocker .calibrate wholeDevice = none) (m : CalMeas) : d.calRound m = d.roundBegun.roundRun cal m := by
  have hruns : ({ d with mnt := { d.mnt with acts := [⟨.calibrate, wholeDevice, .running⟩] } } : Dev).actRuns .calibrate
      wholeDevice = true := rfl
  unfold Dev.calRound
  simp only [hcal, hb, Dev.rdB, hidle, hramp, Dev.arbRequest_calibrate_alone hacts hblock, hruns, if_true]
  rfl

/-- An ADC's new corrections are in force, and it has passed. -/
def Dev.corrected (d : Dev) (sec : Nat) (a : AdcAttempt) : Dev :=
  (d.adcCorrect sec a).updBps fun b => { b with mustPass := b.mustPass.filter (· ≠ sec) }

theorem Dev.roundRun_failed {d : Dev} {m : CalMeas} {why : Nat} (h : adcCalibrate 4 m.attempts 1 = .inr why)
    (hok : d.adcOk (1 - d.primary) = true) (cal : CalProfile) : d.roundRun cal m = d.adcUntrust (1 - d.primary) why := by
  unfold Dev.roundRun
  simp only [h, hok, if_true]

theorem Dev.roundRun_passed {d : Dev} {m : CalMeas} {a : AdcAttempt} {cal : CalProfile} (h : adcCalibrate 4 m.attempts 1 = .inl a)
    (hok : d.adcOk (1 - d.primary) = true) (hprimary : (d.corrected (1 - d.primary) a).adcOk (1 - (1 - d.primary)) = true)
    (hfine : (d.corrected (1 - d.primary) a).implausible cal m
      ((d.corrected (1 - d.primary) a).candidates cal m (1 - d.primary)) = none) :
    d.roundRun cal m = (d.corrected (1 - d.primary) a).roundAccepted
      ((d.corrected (1 - d.primary) a).candidates cal m (1 - d.primary)) m.byHost := by
  unfold Dev.roundRun
  simp only [h, hok, if_true]
  unfold Dev.corrected at *
  simp only [hprimary, hfine, Bool.not_true, Bool.false_eq_true, if_false]

/-- An accepted round before its candidates are ramped in. -/
def Dev.roundNoted (d : Dev) (byHost : Bool) : Dev :=
  let x := ((d.calShow crAccepted 0).incSat Reg.BPS_CAL_CNT_accepted).updBps fun b => { b with calNote := false, calRefusals := 0 }
  if d.bps.calNote || byHost then x.calPost 1 crAccepted 0 0 else x

theorem Dev.roundAccepted_eq (d : Dev) (c : Cand) (byHost : Bool) : d.roundAccepted c byHost = (d.roundNoted byHost).rampIn c :=
  rfl

theorem Dev.roundNoted_reports (d : Dev) (byHost : Bool) :
    Dev.Reports (((d.calShow crAccepted 0).incSat Reg.BPS_CAL_CNT_accepted).updBps fun b => { b with
      calNote := false, calRefusals := 0 }) (d.roundNoted byHost) := by
  unfold Dev.roundNoted
  dsimp only
  split
  · exact Dev.calPost_reports _ _ _ _ _
  · exact .refl _

theorem Dev.roundNoted_frame (d : Dev) (byHost : Bool) : Frame d (d.roundNoted byHost)
    [Reg.BPS_CAL_STAT_result, Reg.BPS_CAL_STAT_reason, Reg.BPS_CAL_CNT_accepted] [.bps] :=
  ((((Frame.refl _ _ _).calShow _ _).incSat _ _).setBps _).reports (d.roundNoted_reports byHost)

theorem Dev.roundNoted_rd (d : Dev) (byHost : Bool) : (d.roundNoted byHost).rd Reg.BPS_CAL_STAT_result = 0 ∧
    (d.roundNoted byHost).rd Reg.BPS_CAL_CNT_accepted = min (d.rd Reg.BPS_CAL_CNT_accepted + 1) 0xFFFF := by
  have hrep := d.roundNoted_reports byHost
  have hshow : (d.calShow crAccepted 0).rd Reg.BPS_CAL_STAT_result = 0 :=
    (Dev.rd_wr_other _ _ _ _ (by decide)).trans (Dev.rd_wr_same _ _ _)
  have hkeep : (d.calShow crAccepted 0).rd Reg.BPS_CAL_CNT_accepted = d.rd Reg.BPS_CAL_CNT_accepted :=
    (Dev.rd_wr_other _ _ _ _ (by decide)).trans (Dev.rd_wr_other _ _ _ _ (by decide))
  refine ⟨?_, ?_⟩
  · refine (hrep.rd _).trans ?_
    exact (Dev.rd_incSat_other (d.calShow crAccepted 0) Reg.BPS_CAL_CNT_accepted Reg.BPS_CAL_STAT_result 1 (by decide)).trans hshow
  · refine (hrep.rd _).trans ?_
    refine (Dev.rd_incSat_same (d.calShow crAccepted 0) Reg.BPS_CAL_CNT_accepted 1).trans ?_
    rw [hkeep]
    rfl

theorem Dev.roundNoted_restCand (d : Dev) (byHost : Bool) : (d.roundNoted byHost).bps.restCand = d.bps.restCand := by
  rw [(d.roundNoted_reports byHost).same]
  rfl

theorem Dev.roundNoted_ticks (d : Dev) (byHost : Bool) : (d.roundNoted byHost).ticks = d.ticks :=
  ((d.roundNoted_frame byHost).part .tmb).2

end Machine

section

variable {s : State} {cal : CalProfile} {b : BattProfile} {r : CalMeas} (hcal : s.dev.bps.bcal = some cal)
  (hb : s.dev.batt = some b) (hidle : s.dev.rd Reg.BPS_CAL_STAT_running = 0) (hramp : s.dev.bps.ramp = none)
  (hacts : s.dev.mnt.acts = []) (hblock : s.dev.blocker .calibrate 0xFF = none)
  (h0 : s.dev.adcOk 0 = true) (h1 : s.dev.adcOk 1 = true)

omit hcal hb hidle hramp hacts hblock in
include h0 h1 in
theorem adcOk_of_both {n : Nat} (hn : n < 2) : s.dev.adcOk n = true := by
  interval_cases n
  · exact h0
  · exact h1

theorem Machine.Dev.roundBegun_frame (d : Dev) : Frame d d.roundBegun [Reg.BPS_CAL_STAT_running] [.mnt] :=
  ((Frame.refl _ _ _).setMnt _).wr _ _

theorem Machine.Dev.roundBegun_adcOk (d : Dev) (n : Nat) : d.roundBegun.adcOk n = d.adcOk n :=
  Dev.adcOk_of_frame d.roundBegun_frame (by decide) n

theorem Machine.Dev.roundBegun_primary (d : Dev) : d.roundBegun.primary = d.primary := d.roundBegun_frame.rd _

include hcal hb hidle hramp hacts hblock h0 h1

theorem gives_calRound_failed {why : Nat} (h : adcCalibrate 4 r.attempts 1 = .inr why) : Gives (.calRound r) s fun e =>
    e.adcOk (1 - s.dev.primary) = false ∧ e.rd Reg.BPS_CAL_STAT_result = 2 ∧ e.rd Reg.BPS_CAL_STAT_reason = why ∧
    e.rd Reg.BPS_CAL_STAT_running = 0 := by
  refine gives_of_exec_eq_act (f := fun d => d.calRound r) rfl ?_
  have hsec : 1 - s.dev.primary < 2 := by omega
  have hok : s.dev.roundBegun.adcOk (1 - s.dev.roundBegun.primary) = true := by
    rw [Dev.roundBegun_adcOk, Dev.roundBegun_primary]
    exact adcOk_of_both h0 h1 hsec
  have hwhy : why < 2 ^ 8 := (adcCalibrate_why 4 r.attempts 1 why (by decide) h).trans (by decide)
  simp only [Dev.calRound_eq hcal hb hidle hramp hacts hblock, Dev.roundRun_failed h hok]
  rw [Dev.roundBegun_primary] at hok ⊢
  have hlost := Dev.adcUntrust_lost hsec hwhy hok
  exact ⟨hlost.untrusted, hlost.result, hlost.why, hlost.running⟩

theorem gives_calRound_accepted (hheld : s.dev.calHeld = false) {a : AdcAttempt} (h : adcCalibrate 4 r.attempts 1 = .inl a)
    (hfine : s.dev.implausible cal r (s.dev.candidates cal r (1 - s.dev.primary)) = none) : Gives (.calRound r) s fun e =>
      e.bps.ramp = some (0, s.dev.candidates cal r (1 - s.dev.primary), true) ∧ e.rd Reg.BPS_CAL_STAT_result = 0 ∧
      e.rd Reg.BPS_ADC_ramp = 1 ∧ e.rd Reg.BPS_CAL_CNT_accepted = min (s.dev.rd Reg.BPS_CAL_CNT_accepted + 1) 0xFFFF ∧
      Frame s.dev e (roundFields (1 - s.dev.primary)) [.bps, .mnt] := by
  refine gives_of_exec_eq_act (f := fun d => d.calRound r) rfl ?_
  generalize hs : 1 - s.dev.primary = sec at *
  have hsec : sec < 2 := by omega
  have hprimary : 1 - s.dev.roundBegun.primary = sec := by rw [Dev.roundBegun_primary, hs]
  generalize hy : s.dev.roundBegun.corrected sec a = y
  have hbegun : Frame s.dev s.dev.roundBegun (roundFields sec) [.bps, .mnt] :=
    s.dev.roundBegun_frame.mono (by simp [roundFields]) (by simp)
  have hyframe : Frame s.dev y (roundFields sec) [.bps, .mnt] := by
    rw [← hy]
    exact ((hbegun.wr _ _ (by simp [roundFields])).wr _ _ (by simp [roundFields])).setBps _
  have hybps : y.bps = { s.dev.bps with mustPass := s.dev.bps.mustPass.filter (· ≠ sec) } := by
    rw [← hy]
    rfl
  have hoff : ∀ f ∈ [Reg.BPS_ADC_adc0_ok, Reg.BPS_ADC_adc1_ok, Reg.BPS_LEARN_STAT_phase], ∀ g ∈ roundFields sec, f.key ≠ g.key :=
    (by decide : ∀ sec < 2, ∀ f ∈ [Reg.BPS_ADC_adc0_ok, Reg.BPS_ADC_adc1_ok, Reg.BPS_LEARN_STAT_phase],
      ∀ g ∈ roundFields sec, f.key ≠ g.key) sec hsec
  have hyok (n : Nat) : y.adcOk n = s.dev.adcOk n := by
    unfold Dev.adcOk Dev.rdB
    rw [hyframe.1 Reg.BPS_ADC_adc0_ok (hoff _ (by decide)) (by decide), hyframe.1 Reg.BPS_ADC_adc1_ok (hoff _ (by decide)) (by decide)]
  have hcoeffs : Dev.CoeffsKept s.dev y := .of_frame hsec hyframe (by rw [hybps]) (by rw [hybps])
  have hok : s.dev.roundBegun.adcOk (1 - s.dev.roundBegun.primary) = true := by
    rw [Dev.roundBegun_adcOk, hprimary]
    exact adcOk_of_both h0 h1 hsec
  have hrun := Dev.roundRun_passed (d := s.dev.roundBegun) (cal := cal) h hok (by
    rw [hprimary, hy, hyok]
    exact adcOk_of_both h0 h1 (by omega)) (by
    rw [hprimary, hy, hcoeffs.candidates, hcoeffs.implausible]
    exact hfine)
  rw [hprimary, hy, hcoeffs.candidates, Dev.roundAccepted_eq] at hrun
  have hheld' : (y.roundNoted r.byHost).calHeld = false := by
    rw [← hheld]
    refine Dev.calHeld_congr ?_ ?_ ?_
    · exact ((y.roundNoted_frame r.byHost).rd Reg.BPS_LEARN_STAT_phase).trans (hyframe.1 _ (hoff _ (by decide)) (by decide))
    · rw [Dev.roundNoted_restCand, hybps]
    · rw [Dev.roundNoted_ticks]
      exact (hyframe.part .tmb).2
  rw [Dev.rampIn_eq hheld'] at hrun
  simp only [Dev.calRound_eq hcal hb hidle hramp hacts hblock, hrun]
  have hnoted := y.roundNoted_frame r.byHost
  obtain ⟨hresult, hcount⟩ := y.roundNoted_rd r.byHost
  generalize y.roundNoted r.byHost = z at *
  have hzok (n : Nat) : z.adcOk n = s.dev.adcOk n := by
    refine Eq.trans ?_ (hyok n)
    unfold Dev.adcOk Dev.rdB
    rw [hnoted.rd Reg.BPS_ADC_adc0_ok, hnoted.rd Reg.BPS_ADC_adc1_ok]
  have htail := (z.ramped_frame (s.dev.candidates cal r sec)).settle
  refine ⟨?_, (htail.rd _).trans hresult, ?_, ?_, ?_⟩
  · rw [Dev.settle_bps]
    show some (0, s.dev.candidates cal r sec, z.adcOk 0 && z.adcOk 1) = _
    rw [hzok, hzok, h0, h1]
    rfl
  · exact (Dev.settle_rd _ _ (by decide)).trans (z.ramped_rd _).1
  · refine ((htail.rd _).trans hcount).trans ?_
    have hkept : y.rd Reg.BPS_CAL_CNT_accepted = s.dev.rd Reg.BPS_CAL_CNT_accepted := by
      rw [← hy]
      have hcorrected : Frame s.dev (s.dev.roundBegun.corrected sec a)
          [Reg.BPS_CAL_STAT_running, Reg.BPS_ADC_OFS_lsb.ix sec, Reg.BPS_ADC_GAIN_gain.ix sec] [.bps, .mnt] :=
        ((((s.dev.roundBegun_frame.mono (by simp) (by simp))).wr _ _ (by simp)).wr _ _ (by simp)).setBps _
      exact hcorrected.1 _ ((by decide : ∀ sec < 2, ∀ g ∈ [Reg.BPS_CAL_STAT_running, Reg.BPS_ADC_OFS_lsb.ix sec,
        Reg.BPS_ADC_GAIN_gain.ix sec], Reg.BPS_CAL_CNT_accepted.key ≠ g.key) sec hsec) (by decide)
    rw [hkept]
  · exact (hyframe.trans hnoted (by simp [roundFields]) (by simp)).trans htail (by simp [roundFields]) (by simp)

end

end Sys2Proof
end

section
/-! Load steps, the learn cycle and calibration: the obligation. -/

set_option Elab.async false

namespace Sys2Proof

open Sys2Proof.Machine

section

variable {s : State} {b : BattProfile} (hb : s.dev.batt = some b)
include hb

theorem gives_learn {com : Instr} (hphase : s.dev.learnPhaseNo = 0) (hcom : com ∈ [Instr.learnDue, .learnGo])
    (hreach : com = .learnGo → HostReaches s.dev 0 .bps) :
    (s.dev.bps.restWindow = true → Gives com s fun e =>
      e.bps = { s.dev.bps with learnAsked := true } ∧ Frame s.dev e [] [.bps]) ∧
    (s.dev.bps.restWindow = false → s.dev.mnt.acts = [] → s.dev.blocker .learn 0xFF = none → Gives com s fun e =>
      e.learnPhaseNo = 1 ∧ bitOf (e.rd Reg.BPS_HALO_STAT_causes) 1 = true ∧ e.mnt.acts = [⟨.learn, 0xFF, .running⟩] ∧
      Frame s.dev e (Reg.BPS_LEARN_STAT_phase :: [Reg.BPS_HALO_STAT_mode, Reg.BPS_HALO_STAT_causes, Reg.PWC_CEIL_E_mib,
        Reg.PWC_CEIL_IN_p_avail_w, Reg.PWC_CEIL_IN_p_dusk_w, Reg.PWC_CEIL_mib, Reg.PWC_CEIL_limit, Reg.PWC_STAT_mode])
        [.bps, .mnt, .pwc]) ∧
    (∀ j, s.dev.bps.restWindow = false → s.dev.mnt.acts = [] → s.dev.blocker .learn 0xFF = some j → Gives com s fun e =>
      e.mnt.acts = [⟨.learn, 0xFF, .deferred j⟩] ∧ Raised e .mnt 19 ∧ Frame s.dev e [] [.mnt]) := by
  refine ⟨gives_learn_waits hb hphase hcom hreach, fun hw hacts hblock => ?_,
    fun j hw hacts hblock => gives_learn_deferred hb hphase hcom hreach hw hacts hblock⟩
  refine (gives_learn_begins hb hphase hcom hreach hw hacts hblock).mono fun e ⟨hone, hcause, hrun, hframe⟩ => ?_
  exact ⟨hone, hcause, hrun, hframe.mono⟩

end

/-- Settles O55: load steps and natural steps by what a judged measurement shows, the learn cycle phase by phase, and a
round of two good ADCs by what it compares, which its corrections leave. -/
theorem stepsLearnAndCalibration : Obligations.StepsLearnAndCalibration := by
  intro m n k first second r b c s hn
  refine ⟨fun hb => ⟨gives_loadStep_deferred m, fun hdef => ⟨fun hpin => gives_loadStep_none hb hdef hpin, fun hgood => ?_,
      fun hbad => ?_⟩, fun hgood => ?_, fun hbad => ?_, fun hphase com hcom hreach => gives_learn hb hphase hcom hreach,
      gives_learnPhase_charged hb, gives_learnPhase_not_full hb, gives_learnPhase_rested hb, gives_learnPhase_discharged hb,
      fun hphase hdone => ?_, fun hphase hfull => ?_⟩, fun h => ?_, gives_learnAbort_none, fun hreach => ?_,
    fun h => gives_paramWrite_pending h first second, fun hfail hgood => ?_, gives_adcUntrusted_none hn, fun h => ?_,
    fun cal hcal hb hidle hheld hacts hblock h0 h1 => ⟨fun a ha hfine => ?_, fun why hwhy => ?_⟩,
    fun swap hramp => ⟨gives_rampStep hramp, gives_rampStep_last hramp⟩, gives_rampStep_none, fun hc hheld => ?_,
    gives_calHoldRelease_none⟩
  · refine (gives_loadStep_good hb hdef m hgood).mono fun e ⟨htaken, hframe⟩ => ⟨?_, hframe⟩
    exact ⟨htaken.last, htaken.shownR0, htaken.shownRdc, htaken.r0s, htaken.accepted⟩
  · refine (gives_loadStep_bad hb hdef m hbad).mono fun e ⟨hturned, hframe⟩ => ⟨?_, hframe⟩
    exact ⟨hturned.last, hturned.raised, hturned.r0s, hturned.rejected⟩
  · refine (gives_naturalStep_good m hb hgood).mono fun e ⟨htaken, hframe⟩ => ⟨?_, hframe⟩
    exact ⟨htaken.last, htaken.shownR0, htaken.shownRdc, htaken.r0s, htaken.accepted⟩
  · refine (gives_naturalStep_bad m hb hbad).mono fun e ⟨hturned, hframe⟩ => ⟨?_, hframe⟩
    exact ⟨hturned.last, hturned.raised, hturned.r0s, hturned.rejected⟩
  · refine (gives_learnPhase_judged hb hphase hdone).mono fun e ⟨hfive, hraised, hrange, hframe⟩ => ?_
    exact ⟨hfive, hraised, hrange, hframe.mono⟩
  · refine (gives_learnPhase_over hb hphase hfull).mono fun e ⟨hzero, hcause, hends, hframe⟩ => ?_
    exact ⟨hzero, hcause, hends, hframe.mono⟩
  · intro hreach
    refine (gives_learnAbort h hreach).mono fun e ⟨hfive, hresult, hreason, hpin, hraised, hframe⟩ => ?_
    exact ⟨hfive, hresult, hreason, hpin, hraised, hframe.mono⟩
  · refine (gives_newPack s hreach).mono fun e ⟨hq, hlearned, hpend, hcause, hframe⟩ => ?_
    exact ⟨hq, hlearned, hpend, hcause, fun hnone => (hframe hnone).mono⟩
  · refine (gives_paramWrite hfail hgood first second).mono fun e ⟨hok, hbad, hpending, hframe⟩ => ?_
    unfold Dev.freeSlot Dev.slotRec slotOk at *
    cases hslot : s.dev.rdB Reg.BPS_PARAM_slot with
    | false =>
      rw [hslot] at hok hbad hframe
      exact ⟨hok, hbad, hpending, hframe⟩
    | true =>
      rw [hslot] at hok hbad hframe
      exact ⟨hok, hbad, hpending, hframe⟩
  · refine (gives_adcUntrusted hn h).mono fun e hlost => ?_
    exact ⟨hlost.untrusted, hlost.primary, hlost.result, hlost.why, hlost.running, hlost.cause, hlost.mode,
      hlost.frame.mono (List.cons_subset_cons _ (by decide))⟩
  · obtain ⟨hheld, hramp⟩ := hheld
    exact gives_calRound_accepted hcal hb hidle hramp hacts hblock h0 h1 hheld ha hfine
  · exact gives_calRound_failed hcal hb hidle hheld.2 hacts hblock h0 h1 hwhy
  · obtain ⟨hheld, hramp⟩ := hheld
    exact gives_calHoldRelease hc hheld hramp

end Sys2Proof
end

section
/-! Operations that member work shares: member commands and their port queues, ECE jobs, intent records and repairs, and
the counters of LAY and MNT: what each changes at most, and that it takes back no cause and no message (R115, R128, R142,
R165, R221, R241). -/

set_option Elab.async false

namespace Sys2Proof

open Sys2Proof.Machine

/-- A change of the listed fields and parts at most that takes back no cause and unsends nothing. -/
structure Machine.Dev.Runs (d e : Dev) (fs : List Fld) (ps : List Part) : Prop where
  frame : Frame d e fs ps
  grows : Dev.Grows d e

namespace Machine.Dev.Runs

variable {a d e : Dev} {fs gs : List Fld} {ps qs : List Part}

theorem refl (d : Dev) (fs : List Fld) (ps : List Part) : Dev.Runs d d fs ps := ⟨.refl d _ _, .refl d⟩

theorem trans (h : Dev.Runs a d fs ps) (k : Dev.Runs d e gs qs) (hfs : gs ⊆ fs := by decide) (hps : qs ⊆ ps := by decide) :
    Dev.Runs a e fs ps := ⟨h.frame.trans k.frame hfs hps, h.grows.trans k.grows⟩

theorem mono (h : Dev.Runs a d fs ps) (hfs : fs ⊆ gs := by decide) (hps : ps ⊆ qs := by decide) : Dev.Runs a d gs qs :=
  ⟨h.frame.mono hfs hps, h.grows⟩

theorem ite {p : Prop} [Decidable p] (h : Dev.Runs a d fs ps) (k : Dev.Runs a e fs ps) :
    Dev.Runs a (if p then d else e) fs ps := by split <;> assumption

theorem forEach {α : Type} {f : α → Dev → Dev} (xs : List α) (h : Dev.Runs a d fs ps)
    (hf : ∀ x d, Dev.Runs a d fs ps → Dev.Runs a (f x d) fs ps) : Dev.Runs a (forEach xs f d) fs ps :=
  forEach_induct (P := fun x : Dev => Dev.Runs a x fs ps) (fun x e he => hf x e he) xs d h

theorem settle (h : Dev.Runs a d fs ps) : Dev.Runs a d.settle fs ps := ⟨h.frame.settle, h.grows.trans d.settle_grows⟩

theorem wr (h : Dev.Runs a d fs ps) (f : Fld) (v : Nat) (hf : f ∈ fs := by decide) : Dev.Runs a (d.wr f v) fs ps :=
  ⟨h.frame.wr f v hf, h.grows.trans (d.wr_grows f v)⟩

theorem incSat (h : Dev.Runs a d fs ps) (f : Fld) (n : Nat) (hf : f ∈ fs := by decide) : Dev.Runs a (d.incSat f n) fs ps :=
  h.wr f _ hf

theorem incWrap (h : Dev.Runs a d fs ps) (f : Fld) (n : Nat) (hf : f ∈ fs := by decide) : Dev.Runs a (d.incWrap f n) fs ps :=
  h.wr f _ hf

theorem emit (h : Dev.Runs a d fs ps) (x : Emit) : Dev.Runs a (d.emit x) fs ps :=
  ⟨h.frame.reports (d.emit_reports x), h.grows.trans (d.emit_grows x)⟩

theorem causeBit (h : Dev.Runs a d fs ps) (b : Blk) (i : Nat) : Dev.Runs a (d.causeBit b i) fs ps :=
  ⟨h.frame.reports (d.causeBit_reports b i), h.grows.trans (d.causeBit_grows b i)⟩

theorem errCorr (h : Dev.Runs a d fs ps) (b : Blk) (c : Nat) : Dev.Runs a (d.errCorr b c) fs ps :=
  ⟨h.frame.reports (d.errCorr_reports b c), h.grows.trans (d.errCorr_grows b c)⟩

theorem errUncorr (h : Dev.Runs a d fs ps) (b : Blk) (c : Nat) : Dev.Runs a (d.errUncorr b c) fs ps :=
  ⟨h.frame.reports (d.errUncorr_reports b c), h.grows.trans (d.errUncorr_grows b c)⟩

theorem post (h : Dev.Runs a d fs ps) (b c i j k l m : Nat) : Dev.Runs a (d.post b c i j k l m) fs ps :=
  ⟨h.frame.reports (d.post_reports b c i j k l m), h.grows.trans (d.post_grows b c i j k l m)⟩

theorem setLay (h : Dev.Runs a d fs ps) (x : LayState) (hp : Part.lay ∈ ps := by decide) :
    Dev.Runs a { d with lay := x } fs ps := ⟨h.frame.setLay x hp, h.grows.trans (.same rfl rfl)⟩

theorem setDram (h : Dev.Runs a d fs ps) (x : Dram) (hp : Part.dram ∈ ps := by decide) :
    Dev.Runs a { d with dram := x } fs ps := ⟨h.frame.setDram x hp, h.grows.trans (.same rfl rfl)⟩

theorem setEce (h : Dev.Runs a d fs ps) (x : EceState) (hp : Part.ece ∈ ps := by decide) :
    Dev.Runs a { d with ece := x } fs ps := ⟨h.frame.setEce x hp, h.grows.trans (.same rfl rfl)⟩

theorem setDpx (h : Dev.Runs a d fs ps) (x : DpxState) (hp : Part.dpx ∈ ps := by decide) :
    Dev.Runs a { d with dpx := x } fs ps := ⟨h.frame.setDpx x hp, h.grows.trans (.same rfl rfl)⟩

theorem setMnt (h : Dev.Runs a d fs ps) (x : MntState) (hp : Part.mnt ∈ ps := by decide) :
    Dev.Runs a { d with mnt := x } fs ps := ⟨h.frame.setMnt x hp, h.grows.trans (.same rfl rfl)⟩

theorem refreshMode (h : Dev.Runs a d fs ps) (hf : Reg.PWC_STAT_mode ∈ fs := by decide) : Dev.Runs a d.refreshMode fs ps :=
  .ite ((h.wr _ _ hf).causeBit _ _) (h.wr _ _ hf)

/-! ### Member commands (R241) -/

theorem sendOp (h : Dev.Runs a d fs ps) (o : MemberOp) : Dev.Runs a (d.sendOp o) fs ps := by
  unfold Dev.sendOp
  dsimp only
  split
  · exact h.emit _
  · exact .ite (.forEach _ h fun x d hd => hd.emit _) (.forEach _ h fun x d hd => hd.emit _)

theorem pump (hl : Part.lay ∈ ps := by decide) (hd : Part.dpx ∈ ps := by decide) :
    ∀ (fuel p : Nat) (d : Dev), Dev.Runs a d fs ps → Dev.Runs a (Dev.pump fuel p d) fs ps
  | 0, _, _, h => h
  | fuel + 1, p, d, h => by
    rw [Dev.pump]
    split
    · exact h
    · split
      · exact pump hl hd fuel p _ (h.setDpx _ hd)
      · exact .ite (pump hl hd fuel p _ (((h.setLay _ hl).setDpx _ hd).sendOp _)) h

theorem addOp (h : Dev.Runs a d fs ps) (b t j member : Nat) (rows : List Nat) (isWrite : Bool) (data : List Block) (cl : Client)
    (hl : Part.lay ∈ ps := by decide) (hd : Part.dpx ∈ ps := by decide) :
    Dev.Runs a (d.addOp b t j member rows isWrite data cl) fs ps := by
  unfold Dev.addOp
  split
  · exact h
  · exact pump hl hd _ _ _ ((h.setLay _ hl).setDpx _ hd)

theorem readUnit (h : Dev.Runs a d fs ps) (b t j : Nat) (p : Plan) (rows : List Nat) (cl : Client)
    (hl : Part.lay ∈ ps := by decide) (hd : Part.dpx ∈ ps := by decide) : Dev.Runs a (d.readUnit b t j p rows cl) fs ps :=
  h.addOp _ _ _ _ _ _ _ _ hl hd

/-! ### ECE jobs (R142) -/

theorem addJob (h : Dev.Runs a d fs ps) (j : EceJob) (hl : Part.lay ∈ ps := by decide) (he : Part.ece ∈ ps := by decide) :
    Dev.Runs a (d.addJob j) fs ps := (h.setEce _ he).setLay _ hl

theorem addJobs (h : Dev.Runs a d fs ps) (j : EceJob) (hl : Part.lay ∈ ps := by decide) (he : Part.ece ∈ ps := by decide) :
    Dev.Runs a (d.addJobs j) fs ps := .forEach _ h fun _ _ hd => hd.addJob _ hl he

/-! ### Intent records and repairs (R121, R165) -/

theorem intentWrites (h : Dev.Runs a d fs ps) (i : Intent) (at_ : List Nat) (hl : Part.lay ∈ ps := by decide)
    (hd : Part.dpx ∈ ps := by decide) : Dev.Runs a (d.intentWrites i at_) fs ps :=
  .forEach _ h fun _ _ hx => hx.addOp _ _ _ _ _ _ _ _ hl hd

section

variable (hm : Part.dram ∈ ps) (hl : Part.lay ∈ ps) (hd : Part.dpx ∈ ps) (hf : Reg.PWC_STAT_mode ∈ fs)
include hm hl hd hf

theorem openIntent (h : Dev.Runs a d fs ps) (i : Intent) : Dev.Runs a (d.openIntent i) fs ps :=
  ((h.setDram _ hm).intentWrites _ _ hl hd).refreshMode hf

theorem doRepair (h : Dev.Runs a d fs ps) (r : Repair) : Dev.Runs a (d.doRepair r) fs ps :=
  .ite h (openIntent hm hl hd hf h _)

theorem repair (h : Dev.Runs a d fs ps) (r : Repair) : Dev.Runs a (d.repair r) fs ps :=
  .ite (h.setLay _ hl) (doRepair hm hl hd hf h r)

end

/-! ### Counters (R128, R221, R233) -/

theorem tagError (h : Dev.Runs a d fs ps) (codes : List (Nat × Nat)) : Dev.Runs a (d.tagError codes) fs ps :=
  .ite h (h.causeBit _ _)

theorem unrepaired (h : Dev.Runs a d fs ps) (b n : Nat) (hf : Reg.AR_TAG_UNREP_count.ix b ∈ fs) :
    Dev.Runs a (d.unrepaired b n) fs ps := .forEach _ h fun _ _ hd => (hd.incSat _ _ hf).errUncorr _ _

theorem countRepair (h : Dev.Runs a d fs ps) (b code : Nat)
    (hf : [Reg.AR_TAG_CRC_count.ix b, Reg.AR_TAG_MISDIR_count.ix b, Reg.AR_TAG_STALE_count.ix b] ⊆ fs) :
    Dev.Runs a (d.countRepair b code) fs ps := by
  unfold Dev.countRepair
  exact errCorr (.ite (h.incSat _ _ (hf (by simp))) (.ite (h.incSat _ _ (hf (by simp))) (h.incSat _ _ (hf (by simp))))) _ _

theorem countRebuiltBad (h : Dev.Runs a d fs ps) (b n : Nat) (hf : Reg.AR_TAG_UNREP_count.ix b ∈ fs) :
    Dev.Runs a (d.countRebuiltBad b n) fs ps := .forEach _ h fun _ _ hd => (hd.incSat _ _ hf).errUncorr _ _

theorem scrubBad (h : Dev.Runs a d fs ps) (b n : Nat) (hf : Reg.AR_SCRUB_CNT_unrepaired.ix b ∈ fs) :
    Dev.Runs a (d.scrubBad b n) fs ps := .forEach _ h fun _ _ hd => ((hd.incSat _ _ hf).causeBit _ _).errUncorr _ _

theorem scrubRow (h : Dev.Runs a d fs ps) (b t r : Nat) (units : List BufBlk) (zero : Nat → Bool)
    (hl : Part.lay ∈ ps := by decide) (he : Part.ece ∈ ps := by decide) :
    Dev.Runs a (d.scrubRow b t r units zero) fs ps := h.addJob _ hl he

theorem scrubFix (h : Dev.Runs a d fs ps) (b t : Nat) (bs : List BufBlk) (hf : Reg.AR_SCRUB_CNT_repaired.ix b ∈ fs)
    (hm : Part.dram ∈ ps := by decide) (hl : Part.lay ∈ ps := by decide) (hd : Part.dpx ∈ ps := by decide)
    (hmode : Reg.PWC_STAT_mode ∈ fs := by decide) : Dev.Runs a (d.scrubFix b t bs) fs ps :=
  .forEach _ (.forEach _ h fun _ _ hx => (hx.incSat _ _ hf).errCorr _ _) fun _ _ hx => repair hm hl hd hmode hx _

theorem updScrub (h : Dev.Runs a d fs ps) (b : Nat) (g : ScrubSt → ScrubSt) (hl : Part.lay ∈ ps := by decide) :
    Dev.Runs a (d.updScrub b g) fs ps := h.setLay _ hl

theorem scrubVisited (h : Dev.Runs a d fs ps) (b t : Nat)
    (hf : [Reg.AR_SCRUB_CUR_stripe.ix b, Reg.AR_SCRUB_permille.ix b] ⊆ fs) (hl : Part.lay ∈ ps := by decide) :
    Dev.Runs a (d.scrubVisited b t) fs ps :=
  .ite (((h.updScrub b _ hl).wr _ _ (hf (by simp))).wr _ _ (hf (by simp))) (h.updScrub b _ hl)

theorem scrubDone (h : Dev.Runs a d fs ps) (b : Nat) (w : ScrubWork)
    (hf : [Reg.AR_SCRUB_CUR_stripe.ix b, Reg.AR_SCRUB_permille.ix b, Reg.AR_SCRUB_CNT_repaired.ix b] ⊆ fs)
    (hm : Part.dram ∈ ps := by decide) (hl : Part.lay ∈ ps := by decide) (hd : Part.dpx ∈ ps := by decide)
    (hmode : Reg.PWC_STAT_mode ∈ fs := by decide) : Dev.Runs a (d.scrubDone b w) fs ps := by
  unfold Dev.scrubDone
  refine scrubVisited (scrubFix (.ite (h.setDram _ hm) (.ite (h.setDram _ hm) h)) b _ _ (hf (by simp)) hm hl hd hmode) b _
    (fun f hx => hf ?_) hl
  rcases List.mem_cons.1 hx with rfl | hx
  · simp
  · rw [List.mem_singleton.1 hx]
    simp

end Machine.Dev.Runs

/-- The fields of a scrub verdict. -/
def scrubFields (b : Nat) : List Fld := [Reg.AR_TAG_UNREP_count.ix b, Reg.ECE_SYND_located, Reg.ECE_SYND_unlocated,
  Reg.AR_SCRUB_CNT_unrepaired.ix b, Reg.AR_SCRUB_CUR_stripe.ix b, Reg.AR_SCRUB_permille.ix b, Reg.AR_SCRUB_CNT_repaired.ix b,
  Reg.PWC_STAT_mode]

end Sys2Proof
end

section
/-! ECE's jobs: who may run, what a job's end returns, and what its client makes of it (R138 to R143). -/

set_option Elab.async false

namespace Sys2Proof

open Sys2Proof.Machine

namespace Machine

variable {d : Dev} {j : EceJob} {id : Nat} {k : JobKind}

theorem Dev.running?_spec (h : d.running? id = some j) : j ∈ d.ece.jobs ∧ j.id = id := by
  unfold Dev.running? at h
  split at h
  · exact absurd h (by simp)
  · next y hy =>
    dsimp only at h
    split at h
    · obtain rfl : y = j := Option.some.inj h
      exact ⟨List.mem_of_find?_eq_some hy, by simpa using List.find?_some hy⟩
    · exact absurd h (by simp)

theorem Dev.jobReady_spec (h : d.jobReady id k = some j) : j ∈ d.ece.jobs ∧ j.id = id ∧ j.kind = k := by
  obtain ⟨hrun, hk⟩ := Option.filter_eq_some_iff.1 h
  obtain ⟨hmem, hid⟩ := Dev.running?_spec hrun
  exact ⟨hmem, hid, by simpa using hk⟩

/-- A job is the only one of its client, and nothing of its client has returned yet. -/
def Dev.LastJob (d : Dev) (j : EceJob) : Prop :=
  (∀ y ∈ d.ece.jobs, y.client = j.client → y.id = j.id) ∧ ∀ o ∈ d.ece.outs, o.1 ≠ j.client

/-- The bytes counter of a job's kind. -/
def bytesField (k : JobKind) : Fld := if k.lane = 0 then Reg.ECE_ENC_BYTES_bytes else Reg.ECE_DEC_BYTES_bytes

theorem Dev.endJob_runs (d : Dev) (j : EceJob) : Dev.Runs d (d.endJob j) [bytesField j.kind] [.ece] := by
  have hdrop : Dev.Runs d (d.updEce fun e => { e with jobs := e.jobs.filter fun x => x.id ≠ j.id }) [bytesField j.kind] [.ece] :=
    (Dev.Runs.refl _ _ _).setEce _
  unfold Dev.endJob bytesField at *
  dsimp only
  split
  · next h => rw [if_pos h] at hdrop; exact hdrop.incWrap _ _ List.mem_cons_self
  · next h => rw [if_neg h] at hdrop; exact hdrop.incWrap _ _ List.mem_cons_self

theorem Dev.endJob_jobs (d : Dev) (j : EceJob) : (d.endJob j).ece.jobs = d.ece.jobs.filter fun x => x.id ≠ j.id := by
  unfold Dev.endJob
  dsimp only
  split <;> rfl

theorem Dev.endJob_outs (d : Dev) (j : EceJob) : (d.endJob j).ece.outs = d.ece.outs := by
  unfold Dev.endJob
  dsimp only
  split <;> rfl

theorem Dev.endJob_bytes (d : Dev) (j : EceJob) :
    (d.endJob j).rd (bytesField j.kind) = (d.rd (bytesField j.kind) + j.bytes) % 2 ^ 64 := by
  have hset (f : Fld) (hw : f.width = 64) :
      ((d.updEce fun e => { e with jobs := e.jobs.filter fun x => x.id ≠ j.id }).incWrap f j.bytes).rd f =
        (d.rd f + j.bytes) % 2 ^ 64 := by
    refine (Dev.rd_wr_same _ _ _).trans ?_
    rw [hw]
    rfl
  unfold Dev.endJob bytesField
  dsimp only
  split
  · exact hset _ rfl
  · exact hset _ rfl

/-- The last job of a client: what ECE held of it is gone, and its outputs go back. -/
def Dev.jobReturned (d : Dev) (j : EceJob) : Dev :=
  d.updEce fun e => { e with outs := e.outs.filter fun x => x.1 ≠ j.client }

theorem Dev.returnJob_last {x : Dev} (hjobs : ∀ y ∈ x.ece.jobs, y.client ≠ j.client) (houts : ∀ o ∈ x.ece.outs, o.1 ≠ j.client)
    (out : List BufBlk) : x.returnJob j out = (x.jobReturned j, some out) := by
  have hany : (x.ece.jobs.any fun y => y.client = j.client) = false := by
    rw [List.any_eq_false]
    intro y hy
    simpa using hjobs y hy
  have hmine : (x.ece.outs.filter fun y => y.1 = j.client) = [] := by
    rw [List.filter_eq_nil_iff]
    intro o ho
    simpa using houts o ho
  unfold Dev.returnJob
  simp only [hany, hmine, List.map_nil, List.filter_nil, List.nil_append, Bool.false_eq_true, if_false]
  rfl

/-- After its end, the last job of a client is the last. -/
theorem Dev.LastJob.returns (h : d.LastJob j) {x : Dev} (hjobs : x.ece.jobs = (d.endJob j).ece.jobs)
    (houts : x.ece.outs = (d.endJob j).ece.outs) (out : List BufBlk) : x.returnJob j out = (x.jobReturned j, some out) := by
  obtain ⟨hlast, hout⟩ := h
  refine Dev.returnJob_last (fun y hy hc => ?_) (fun o ho => ?_) out
  · rw [hjobs, Dev.endJob_jobs, List.mem_filter] at hy
    exact absurd (hlast y hy.1 hc) (by simpa using hy.2)
  · rw [houts, Dev.endJob_outs] at ho
    exact hout o ho

theorem Dev.jobReturned_runs (d : Dev) (j : EceJob) : Dev.Runs d (d.jobReturned j) [] [.ece] := (Dev.Runs.refl _ _ _).setEce _

/-! ### The parity reaches a destage (R165, R166) -/

theorem Dev.countMethod_runs (d : Dev) (m : Method) : Dev.Runs d (d.countMethod m)
    [Reg.PWC_DSTG_FULL_stripes, Reg.PWC_DSTG_FRESH_stripes, Reg.PWC_DSTG_DELTA_stripes, Reg.PWC_DSTG_RECON_stripes] [] := by
  unfold Dev.countMethod
  cases m <;> exact (Dev.Runs.refl _ _ _).incSat _ _

/-- The fields that the start of a destage's writes changes. -/
def writeFields : List Fld := [Reg.PWC_DSTG_FULL_stripes, Reg.PWC_DSTG_FRESH_stripes, Reg.PWC_DSTG_DELTA_stripes,
  Reg.PWC_DSTG_RECON_stripes, Reg.PWC_STAT_mode]

/-- An intent record of a destage's stripe that carries its blocks and the given parity. -/
structure CarriesDestage (i : Intent) (y : Destage) (parity : List BufBlk) : Prop where
  array : i.array = y.array
  stripe : i.t = y.t
  kind : i.kind = y.method.kind
  gen : i.gen = y.gen
  carries : i.carries = y.carries
  blocks : ∀ b ∈ parity, b.j ∈ i.writeMap → b ∈ i.blocks

theorem Dev.destageWrite_opens {x : Nat} {y : Destage} (h : d.destage? x = some y) (parity : List BufBlk) :
    ∃ (e : Dev) (i : Intent), d.destageWrite x parity = e.openIntent i ∧ Dev.Runs d e writeFields [.dram, .lay] ∧
      CarriesDestage i y parity := by
  unfold Dev.destageWrite
  simp only [h]
  refine ⟨_, _, rfl, ?_, rfl, rfl, rfl, rfl, rfl, fun b hb hmap => ?_⟩
  · refine .trans (.setLay (.setDram (.forEach _ (.refl _ _ _) fun j e he => ?_) _) _) (Dev.countMethod_runs _ _)
    exact .ite (he.setDram _) he
  · refine List.mem_filter.2 ⟨List.mem_append_right _ hb, ?_⟩
    simp only [Bool.or_eq_true, List.contains_iff_mem]
    exact .inl hmap

theorem Dev.openIntent_runs (d : Dev) (i : Intent) : Dev.Runs d (d.openIntent i) [Reg.PWC_STAT_mode] [.dram, .lay, .dpx] :=
  .openIntent (by decide) (by decide) (by decide) (by decide) (.refl _ _ _) i

theorem Dev.openIntent_intents (d : Dev) {i : Intent} {y : Destage} {parity : List BufBlk} (h : CarriesDestage i y parity) :
    ∃ k ∈ (d.openIntent i).dram.intents, CarriesDestage k y parity := by
  unfold Dev.openIntent
  extract_lets k
  generalize hx : (d.updDram fun m => { m with intents := m.intents ++ [k], intentSeq := (m.intentSeq + 1) % 2 ^ 32 }) = x
  have hwrites : Dev.Runs x ((x.intentWrites k k.writeMap).refreshMode) [Reg.PWC_STAT_mode] [.lay, .dpx] :=
    ((Dev.Runs.refl _ _ _).intentWrites _ _).refreshMode
  have hdram : ((x.intentWrites k k.writeMap).refreshMode).dram = x.dram := hwrites.frame.part .dram
  rw [hdram, ← hx]
  exact ⟨k, List.mem_append_right _ (List.mem_singleton_self _), h.array, h.stripe, h.kind, h.gen, h.carries, h.blocks⟩

end Machine

/-- What the last parity job of a destage gives. -/
structure ParityReturned (d e : Dev) (j : EceJob) (y : Destage) (out : List BufBlk) : Prop where
  gone : ∀ z ∈ e.ece.jobs, z.id ≠ j.id
  bytes : e.rd Reg.ECE_ENC_BYTES_bytes = (d.rd Reg.ECE_ENC_BYTES_bytes + j.bytes) % 2 ^ 64
  record : ∃ i ∈ e.dram.intents, CarriesDestage i y out

theorem Machine.Dev.parityBack_destage {d : Dev} {j : EceJob} {x : Nat} {y : Destage} (hlane : j.kind.lane = 0)
    (hlast : d.LastJob j) (hclient : j.client = .destage x) (hy : d.destage? x = some y) (out : List BufBlk) :
    ParityReturned d (d.parityBack j out).settle j y out := by
  have hret : (d.endJob j).returnJob j out = ((d.endJob j).jobReturned j, some out) := hlast.returns rfl rfl out
  have hended := d.endJob_runs j
  have hreturned : Dev.Runs d ((d.endJob j).jobReturned j) [bytesField j.kind] [.ece] :=
    hended.trans (Dev.jobReturned_runs _ _) (List.nil_subset _)
  have hjobs : ((d.endJob j).jobReturned j).ece.jobs = d.ece.jobs.filter fun z => z.id ≠ j.id := d.endJob_jobs j
  have hbytes : ((d.endJob j).jobReturned j).rd Reg.ECE_ENC_BYTES_bytes = (d.rd Reg.ECE_ENC_BYTES_bytes + j.bytes) % 2 ^ 64 := by
    have := d.endJob_bytes j
    rw [show bytesField j.kind = Reg.ECE_ENC_BYTES_bytes from if_pos hlane] at this
    exact this
  have hdest : ((d.endJob j).jobReturned j).destage? x = some y := by
    have hlay : ((d.endJob j).jobReturned j).lay = d.lay := hreturned.frame.part .lay
    rw [Dev.destage?, hlay]
    exact hy
  have hback : d.parityBack j out = ((d.endJob j).jobReturned j).destageWrite x out := by
    unfold Dev.parityBack
    rw [hret]
    simp only [hclient]
  rw [hback]
  generalize (d.endJob j).jobReturned j = z at *
  obtain ⟨w, i, hwrite, hruns, hi⟩ := Dev.destageWrite_opens hdest out
  rw [hwrite]
  have htail : Dev.Runs z (w.openIntent i).settle writeFields [.dram, .lay, .dpx] :=
    ((hruns.mono (gs := writeFields)).trans (w.openIntent_runs i)).settle
  have hece : (w.openIntent i).settle.ece = z.ece := htail.frame.part .ece
  refine ⟨fun k hk => ?_, (htail.frame.rd _).trans hbytes, ?_⟩
  · rw [hece, hjobs, List.mem_filter] at hk
    simpa using hk.2
  · have hdram : (w.openIntent i).settle.dram = (w.openIntent i).dram := (Frame.refl (w.openIntent i) [] []).settle.part .dram
    rw [hdram]
    exact w.openIntent_intents hi

section

variable {s : State} {id x : Nat} {j : EceJob} {y : Destage}
  (hlast : (∀ z ∈ s.dev.ece.jobs, z.client = j.client → z.id = id) ∧ ∀ o ∈ s.dev.ece.outs, o.1 ≠ j.client)
  (hclient : j.client = .destage x) (hy : s.dev.destage? x = some y)
include hlast hclient hy

theorem gives_encode_destage (h : s.dev.jobReady id .encode = some j) :
    Gives (.encode id) s fun e => ParityReturned s.dev e j y (encodeOut j) := by
  obtain ⟨-, hid, hk⟩ := Dev.jobReady_spec h
  refine gives_of_exec_eq_act (f := fun d => d.runEncode id) rfl ?_
  have hrun : s.dev.runEncode id = s.dev.parityBack j (encodeOut j) := by simp [Dev.runEncode, h]
  simp only [hrun]
  exact Dev.parityBack_destage (by rw [hk]; rfl) (by unfold Dev.LastJob; rw [hid]; exact hlast) hclient hy _

theorem gives_deltaUpdate_destage (h : s.dev.jobReady id .delta = some j) :
    Gives (.deltaUpdate id) s fun e => ParityReturned s.dev e j y (deltaOut j) := by
  obtain ⟨-, hid, hk⟩ := Dev.jobReady_spec h
  refine gives_of_exec_eq_act (f := fun d => d.runDelta id) rfl ?_
  have hrun : s.dev.runDelta id = s.dev.parityBack j (deltaOut j) := by simp [Dev.runDelta, h]
  simp only [hrun]
  exact Dev.parityBack_destage (by rw [hk]; rfl) (by unfold Dev.LastJob; rw [hid]; exact hlast) hclient hy _

end

end Sys2Proof
end

section
/-! ECE's decode and syndrome jobs, and the jobs that a destage hands on (R140, R141, R143, R164). -/

set_option Elab.async false

namespace Sys2Proof

open Sys2Proof.Machine

namespace Machine

variable {a d e : Dev} {j : EceJob} {id x : Nat} {y : Destage} {out : List BufBlk}

/-- Work is handed to ECE under new numbers, and nothing else: the destages stay. -/
structure Dev.JobsAdded (d e : Dev) : Prop where
  runs : Dev.Runs d e [] [.ece, .lay]
  destages : e.lay.destages = d.lay.destages
  nextId : d.lay.nextId ≤ e.lay.nextId
  jobs : ∀ z ∈ e.ece.jobs, z ∈ d.ece.jobs ∨ d.lay.nextId ≤ z.id

namespace Dev.JobsAdded

theorem refl (d : Dev) : Dev.JobsAdded d d := ⟨.refl _ _ _, rfl, Nat.le_refl _, fun _ hz => .inl hz⟩

theorem addJob (h : Dev.JobsAdded a d) (j : EceJob) : Dev.JobsAdded a (d.addJob j) where
  runs := h.runs.addJob j
  destages := h.destages
  nextId := Nat.le_succ_of_le h.nextId
  jobs z hz := by
    rcases List.mem_append.1 hz with hz | hz
    · exact h.jobs z hz
    · rw [List.mem_singleton.1 hz]
      exact .inr h.nextId

theorem forEach {α : Type} {f : α → Dev → Dev} (xs : List α) (h : Dev.JobsAdded a d)
    (hf : ∀ x e, Dev.JobsAdded a e → Dev.JobsAdded a (f x e)) : Dev.JobsAdded a (forEach xs f d) :=
  forEach_induct (P := fun e : Dev => Dev.JobsAdded a e) hf xs d h

theorem addJobs (h : Dev.JobsAdded a d) (j : EceJob) : Dev.JobsAdded a (d.addJobs j) := .forEach _ h fun _ _ hx => hx.addJob _

theorem deltaJobs (h : Dev.JobsAdded a d) (x : Destage) (par : List Nat) (ch : List (Nat × Nat)) (row : Nat) :
    Dev.JobsAdded a (d.deltaJobs x par ch row) := .forEach _ h fun _ _ hx => hx.addJob _

theorem finalJob (h : Dev.JobsAdded a d) (x : Destage) : Dev.JobsAdded a (d.finalJob x) := by
  unfold Dev.finalJob
  dsimp only
  split
  · exact .forEach _ h fun _ _ hx => hx.deltaJobs _ _ _ _
  · exact h.addJobs _

end Dev.JobsAdded

/-! ### A destage that is changed -/

/-- The first element with a key, changed in place, is still the first with it. -/
theorem find?_map_update {α : Type} {key : α → Nat} {k : Nat} {y : α} {g : α → α} (hkey : key (g y) = key y) :
    ∀ {xs : List α}, xs.find? (fun z => decide (key z = k)) = some y →
      (xs.map fun z => if key z = k then g z else z).find? (fun z => decide (key z = k)) = some (g y)
  | [], h => by simp at h
  | z :: zs, h => by
    by_cases hz : key z = k
    · rw [List.find?_cons_of_pos (by simpa using hz)] at h
      obtain rfl : z = y := Option.some.inj h
      rw [List.map_cons, if_pos hz, List.find?_cons_of_pos (by simp [hkey, hz])]
    · rw [List.find?_cons_of_neg (by simpa using hz)] at h
      rw [List.map_cons, if_neg hz, List.find?_cons_of_neg (by simpa using hz)]
      exact find?_map_update hkey h

theorem Dev.updDestage_destage? {g : Destage → Destage} (hid : (g y).id = y.id) (h : d.destage? x = some y) :
    (d.updDestage x g).destage? x = some (g y) := find?_map_update hid h

theorem Dev.updDestage_runs (d : Dev) (x : Nat) (g : Destage → Destage) : Dev.Runs d (d.updDestage x g) [] [.lay] :=
  (Dev.Runs.refl _ _ _).setLay _

/-- The counters of an array's tag faults. -/
def tagFields (b : Nat) : List Fld := [Reg.AR_TAG_CRC_count.ix b, Reg.AR_TAG_MISDIR_count.ix b, Reg.AR_TAG_STALE_count.ix b,
  Reg.AR_TAG_UNREP_count.ix b]

theorem tagFields_key_ne {f g : Fld} (hf : f.key < 0xB0000 * 64) {b : Nat} (hg : g ∈ tagFields b) : f.key ≠ g.key := by
  have hge : 0xB0000 * 64 ≤ g.key := by
    rcases List.mem_cons.1 hg with rfl | hg
    · exact Reg.AR_TAG_CRC_count.ix_key_ge b
    rcases List.mem_cons.1 hg with rfl | hg
    · exact Reg.AR_TAG_MISDIR_count.ix_key_ge b
    rcases List.mem_cons.1 hg with rfl | hg
    · exact Reg.AR_TAG_STALE_count.ix_key_ge b
    rw [List.mem_singleton.1 hg]
    exact Reg.AR_TAG_UNREP_count.ix_key_ge b
  omega

/-- What comes of decoded units that reach a destage: it holds them, and its last job is with ECE. -/
structure DecodedReached (d e : Dev) (x : Nat) (y : Destage) (out : List BufBlk) : Prop where
  runs : Dev.Runs d e (tagFields y.array) [.ece, .lay]
  destage : ∃ z, e.destage? x = some z ∧ z.got = y.got ++ out
  jobs : ∀ z ∈ e.ece.jobs, z ∈ d.ece.jobs ∨ d.lay.nextId ≤ z.id

/-- What a destage makes of decoded units: it takes them, what failed is counted, and its last job is handed on. -/
theorem Dev.destageDecoded_eq (h : d.destage? x = some y) (out : List BufBlk) :
    ∃ (codes : List (Nat × Nat × Nat)) (bad : Nat) (z : Destage), z.got = y.got ++ out ∧ z.id = y.id ∧
      d.destageDecoded x out = ((((forEach codes (fun c d => d.countRepair y.array c.2.2)
        (d.updDestage x fun z => { z with got := z.got ++ out })).unrepaired y.array bad).updDestage x fun _ => z).finalJob z) := by
  have hadd : (d.updDestage x fun z => { z with got := z.got ++ out }).destage? x = some { y with got := y.got ++ out } :=
    Dev.updDestage_destage? (g := fun z => { z with got := z.got ++ out }) rfl h
  unfold Dev.destageDecoded
  simp only [hadd]
  refine ⟨_, _, _, ?got, ?id, rfl⟩
  · rfl
  · rfl

theorem Dev.faultsCounted_runs (d : Dev) (b : Nat) (codes : List (Nat × Nat × Nat)) (bad : Nat) :
    Dev.Runs d ((forEach codes (fun c d => d.countRepair b c.2.2) d).unrepaired b bad) (tagFields b) [] := by
  refine .unrepaired (.forEach _ (.refl _ _ _) fun c e he => he.countRepair _ _ fun f hf => ?_) _ _ (by simp [tagFields])
  rcases List.mem_cons.1 hf with rfl | hf
  · simp [tagFields]
  rcases List.mem_cons.1 hf with rfl | hf
  · simp [tagFields]
  rw [List.mem_singleton.1 hf]
  simp [tagFields]

theorem Dev.destageDecoded_reached (h : d.destage? x = some y) (out : List BufBlk) :
    DecodedReached d (d.destageDecoded x out) x y out := by
  obtain ⟨codes, bad, z, hgot, hid, heq⟩ := Dev.destageDecoded_eq h out
  rw [heq]
  have hadd : (d.updDestage x fun z => { z with got := z.got ++ out }).destage? x = some { y with got := y.got ++ out } :=
    Dev.updDestage_destage? (g := fun z => { z with got := z.got ++ out }) rfl h
  have htake : Dev.Runs d (d.updDestage x fun z => { z with got := z.got ++ out }) (tagFields y.array) [.ece, .lay] :=
    (d.updDestage_runs x _).mono (List.nil_subset _)
  have hnext : (d.updDestage x fun z => { z with got := z.got ++ out }).lay.nextId = d.lay.nextId := rfl
  have hece : (d.updDestage x fun z => { z with got := z.got ++ out }).ece = d.ece := rfl
  generalize d.updDestage x (fun z => { z with got := z.got ++ out }) = d1 at *
  have hcount := d1.faultsCounted_runs y.array codes bad
  generalize (forEach codes (fun c d => d.countRepair y.array c.2.2) d1).unrepaired y.array bad = d2 at *
  have hlay2 : d2.lay = d1.lay := hcount.frame.part .lay
  have hece2 : d2.ece = d1.ece := hcount.frame.part .ece
  have hfind2 : d2.destage? x = some { y with got := y.got ++ out } := by
    rw [Dev.destage?, hlay2]
    exact hadd
  have hfind3 : (d2.updDestage x fun _ => z).destage? x = some z := Dev.updDestage_destage? (y := { y with got := y.got ++ out }) (g := fun _ => z) hid hfind2
  have hput : Dev.Runs d2 (d2.updDestage x fun _ => z) [] [.lay] := d2.updDestage_runs x _
  have hnext3 : (d2.updDestage x fun _ => z).lay.nextId = d2.lay.nextId := rfl
  have hece3 : (d2.updDestage x fun _ => z).ece = d2.ece := rfl
  generalize d2.updDestage x (fun _ => z) = d3 at *
  have hlast : Dev.JobsAdded d3 (d3.finalJob z) := (Dev.JobsAdded.refl _).finalJob z
  refine ⟨((htake.trans hcount (List.Subset.refl _)).trans hput (List.nil_subset _)).trans hlast.runs (List.nil_subset _),
    ⟨z, ?_, hgot⟩, fun w hw => ?_⟩
  · rw [Dev.destage?, hlast.destages]
    exact hfind3
  · rw [← hnext, ← hece, ← hlay2, ← hece2, ← hnext3, ← hece3]
    exact hlast.jobs w hw

/-! ### Decode -/

/-- A destage's decode job whose output passes: the job is over, its outputs return, and the destage takes them. -/
theorem Dev.runDecode_destage (h : d.jobReady id .decode = some j) (hlast : d.LastJob j) (hclient : j.client = .destage x)
    (hout : decodeOut j = some out) (hpass : decodePasses j out = true) :
    d.runDecode id = (((d.endJob j).incSat Reg.ECE_UNCHECKED_rows (uncheckedRows j)).jobReturned j).destageDecoded x out := by
  have hret := hlast.returns (x := (d.endJob j).incSat Reg.ECE_UNCHECKED_rows (uncheckedRows j)) rfl rfl out
  unfold Dev.runDecode
  simp only [h, hout, hpass, hret, if_true, Dev.decodedBack, hclient]

theorem Dev.runDecode_fails (h : d.jobReady id .decode = some j) (hout : decodeOut j = some out)
    (hpass : decodePasses j out = false) : d.runDecode id = d := by
  unfold Dev.runDecode
  simp only [h, hout, hpass, Bool.false_eq_true, if_false]

end Machine

section

variable {s : State} {id : Nat} {j : EceJob}

theorem gives_decode_fails {out : List BufBlk} (h : s.dev.jobReady id .decode = some j) (hout : decodeOut j = some out)
    (hpass : decodePasses j out = false) : Gives (.decode id) s fun e => Frame s.dev e [] [] :=
  gives_same_of_eq (f := fun d => d.runDecode id) rfl (Dev.runDecode_fails h hout hpass)

/-- What a decode job's end gives a destage. -/
structure UnitsReturned (d e : Dev) (j : EceJob) (x : Nat) (y : Destage) (out : List BufBlk) : Prop where
  gone : ∀ z ∈ e.ece.jobs, z.id ≠ j.id
  destage : ∃ z, e.destage? x = some z ∧ z.got = y.got ++ out
  bytes : e.rd Reg.ECE_DEC_BYTES_bytes = (d.rd Reg.ECE_DEC_BYTES_bytes + j.bytes) % 2 ^ 64
  unchecked : e.rd Reg.ECE_UNCHECKED_rows = min (d.rd Reg.ECE_UNCHECKED_rows + uncheckedRows j) (2 ^ 32 - 1)
  frame : Frame d e ([Reg.ECE_DEC_BYTES_bytes, Reg.ECE_UNCHECKED_rows] ++ tagFields y.array) [.ece, .lay]

theorem unitsReturned {d : Dev} {x : Nat} {y : Destage} (hlane : j.kind.lane ≠ 0) (hy : d.destage? x = some y)
    (hid : j.id < d.lay.nextId) (out : List BufBlk) :
    UnitsReturned d ((((d.endJob j).incSat Reg.ECE_UNCHECKED_rows (uncheckedRows j)).jobReturned j).destageDecoded x out).settle
      j x y out := by
  have hfield : bytesField j.kind = Reg.ECE_DEC_BYTES_bytes := if_neg hlane
  have hended : Dev.Runs d (((d.endJob j).incSat Reg.ECE_UNCHECKED_rows (uncheckedRows j)).jobReturned j)
      [Reg.ECE_DEC_BYTES_bytes, Reg.ECE_UNCHECKED_rows] [.ece] := by
    have := d.endJob_runs j
    rw [hfield] at this
    exact (this.mono.incSat _ _).trans (Dev.jobReturned_runs _ _) (List.nil_subset _)
  have hjobs : (((d.endJob j).incSat Reg.ECE_UNCHECKED_rows (uncheckedRows j)).jobReturned j).ece.jobs =
      d.ece.jobs.filter fun z => z.id ≠ j.id := d.endJob_jobs j
  have hbytes : (((d.endJob j).incSat Reg.ECE_UNCHECKED_rows (uncheckedRows j)).jobReturned j).rd Reg.ECE_DEC_BYTES_bytes =
      (d.rd Reg.ECE_DEC_BYTES_bytes + j.bytes) % 2 ^ 64 := by
    have := d.endJob_bytes j
    rw [hfield] at this
    exact (Dev.rd_incSat_other _ _ _ _ (by decide)).trans this
  have hunchecked : (((d.endJob j).incSat Reg.ECE_UNCHECKED_rows (uncheckedRows j)).jobReturned j).rd Reg.ECE_UNCHECKED_rows =
      min (d.rd Reg.ECE_UNCHECKED_rows + uncheckedRows j) (2 ^ 32 - 1) := by
    have hkept : (d.endJob j).rd Reg.ECE_UNCHECKED_rows = d.rd Reg.ECE_UNCHECKED_rows := by
      have := (d.endJob_runs j).frame
      rw [hfield] at this
      exact this.rd _
    rw [← hkept]
    exact Dev.rd_incSat_same _ _ _
  have hlay : (((d.endJob j).incSat Reg.ECE_UNCHECKED_rows (uncheckedRows j)).jobReturned j).lay = d.lay := hended.frame.part .lay
  generalize ((d.endJob j).incSat Reg.ECE_UNCHECKED_rows (uncheckedRows j)).jobReturned j = w at *
  have hw : w.destage? x = some y := by
    rw [Dev.destage?, hlay]
    exact hy
  obtain ⟨hruns, ⟨z, hz, hgot⟩, hadded⟩ := Dev.destageDecoded_reached hw out
  generalize w.destageDecoded x out = e at *
  have hsettled : Dev.Runs w e.settle (tagFields y.array) [.ece, .lay] := hruns.settle
  have hlay' : e.settle.lay = e.lay := (Frame.refl e [] []).settle.part .lay
  have hece' : e.settle.ece = e.ece := (Frame.refl e [] []).settle.part .ece
  have hother (f : Fld) (hf : f.key < 0xB0000 * 64) (hkey : stateKey f.key = false) : e.settle.rd f = w.rd f :=
    hsettled.frame.rd f (fun g hg => tagFields_key_ne hf hg) hkey
  refine ⟨fun k hk => ?_, ⟨z, by rw [Dev.destage?, hlay']; exact hz, hgot⟩, (hother _ (by decide) (by decide)).trans hbytes,
    (hother _ (by decide) (by decide)).trans hunchecked,
    (hended.frame.mono (List.subset_append_left _ _)).trans hsettled.frame (List.subset_append_right _ _)⟩
  rw [hece'] at hk
  rcases hadded k hk with hk | hk
  · rw [hjobs, List.mem_filter] at hk
    simpa using hk.2
  · rw [hlay] at hk
    omega

theorem gives_decode_destage {x : Nat} {y : Destage} {out : List BufBlk} (h : s.dev.jobReady id .decode = some j)
    (hlast : (∀ z ∈ s.dev.ece.jobs, z.client = j.client → z.id = id) ∧ ∀ o ∈ s.dev.ece.outs, o.1 ≠ j.client)
    (hclient : j.client = .destage x) (hy : s.dev.destage? x = some y) (hout : decodeOut j = some out)
    (hpass : decodePasses j out = true) (hid : id < s.dev.lay.nextId) :
    Gives (.decode id) s fun e => UnitsReturned s.dev e j x y out := by
  obtain ⟨-, rfl, hk⟩ := Dev.jobReady_spec h
  refine gives_of_exec_eq_act (f := fun d => d.runDecode j.id) rfl ?_
  simp only [Dev.runDecode_destage h hlast hclient hout hpass]
  exact unitsReturned (by rw [hk]; decide) hy hid out

end

/-! ### Syndrome checks -/

namespace Machine

variable {d e : Dev} {a : Nat} {fs : List Fld} {ps : List Part}

theorem judgeScrub_verdict (k m r : Nat) (content : Nat → Block) (ok : Nat → Block → Bool) :
    (judgeScrub k m r content ok).1 = syndrome k m ((List.range k).map content) ((List.range m).map fun j => content (k + j)) := by
  unfold judgeScrub
  dsimp only
  split
  · next h => rw [h]
  · next h => rw [h]
  · next h => split <;> rw [h]
  · next h => rw [h]

theorem Dev.scrubVerdict_runs (d : Dev) (j : EceJob) (v : Verdict × RowVerdict) :
    Dev.Runs d (d.scrubVerdict j v) (scrubFields j.array) [.dram, .lay, .dpx, .ece] := by
  have hcons : Dev.Runs d (d.unrepaired j.array v.2.tagFails.length) (scrubFields j.array) [.dram, .lay, .dpx, .ece] :=
    (Dev.Runs.refl _ _ _).unrepaired _ _ (by simp [scrubFields])
  have hlocated (f : Fld) (hf : f ∈ scrubFields j.array) : Dev.Runs d (d.incSat f) (scrubFields j.array) [.dram, .lay, .dpx, .ece] :=
    (Dev.Runs.refl _ _ _).incSat _ _ hf
  unfold Dev.scrubVerdict
  dsimp only
  generalize hc : Dev.tagError _ _ = c
  have hcount : Dev.Runs d c (scrubFields j.array) [.dram, .lay, .dpx, .ece] := by
    rw [← hc]
    refine .tagError ?_ _
    split
    · exact hcons
    · exact hlocated _ (by simp [scrubFields])
    · exact hlocated _ (by simp [scrubFields])
    · exact hlocated _ (by simp [scrubFields])
  clear hc
  generalize (if v.2.resolved then 0 else 1) = bad
  split
  · exact hcount
  · have hbad := hcount.scrubBad j.array bad (by simp [scrubFields])
    split
    · exact .forEach _ (hbad.updScrub _ _) fun _ _ hx => hx.scrubRow _ _ _ _ _
    split
    · exact hbad.updScrub _ _
    · exact hbad.scrubDone _ _ (by simp [scrubFields]) (hmode := by simp [scrubFields])

end Machine

/-- What the end of a syndrome check does: its verdict goes out, its bytes count, and no value is staged. -/
structure VerdictGiven (d e : Dev) (j : EceJob) (v : Verdict) : Prop where
  verdict : .eceVerdict j.id v.code v.unit ∈ e.emitted
  bytes : e.rd Reg.ECE_DEC_BYTES_bytes = (d.rd Reg.ECE_DEC_BYTES_bytes + j.bytes) % 2 ^ 64
  staged : e.staged = d.staged

theorem scrubFields_dec_bytes {b : Nat} {g : Fld} (hg : g ∈ scrubFields b) : Reg.ECE_DEC_BYTES_bytes.key ≠ g.key := by
  have hix (f : Fld) (hf : 0xB0000 ≤ f.base) : Reg.ECE_DEC_BYTES_bytes.key ≠ (f.ix b).key := by
    have hge := f.ix_key_ge b hf
    have hlt : Reg.ECE_DEC_BYTES_bytes.key < 0xB0000 * 64 := by decide
    omega
  simp only [scrubFields, List.mem_cons, List.not_mem_nil, or_false] at hg
  rcases hg with rfl | rfl | rfl | rfl | rfl | rfl | rfl | rfl
  · exact hix _ (by decide)
  · decide
  · decide
  · exact hix _ (by decide)
  · exact hix _ (by decide)
  · exact hix _ (by decide)
  · exact hix _ (by decide)
  · decide

theorem verdictGiven (d : Dev) {j : EceJob} (hlane : j.kind.lane ≠ 0) (v : Verdict × RowVerdict) :
    VerdictGiven d ((((d.endJob j).emit (.eceVerdict j.id v.1.code v.1.unit)).scrubVerdict j v).settle) j v.1 := by
  have hended := d.endJob_runs j
  have hbytes := d.endJob_bytes j
  rw [show bytesField j.kind = Reg.ECE_DEC_BYTES_bytes from if_neg hlane] at hended hbytes
  have hverdict := (((d.endJob j).emit (.eceVerdict j.id v.1.code v.1.unit)).scrubVerdict_runs j v).settle
  have hemit : .eceVerdict j.id v.1.code v.1.unit ∈ ((d.endJob j).emit (.eceVerdict j.id v.1.code v.1.unit)).emitted :=
    List.mem_cons_self
  refine ⟨hverdict.grows.mem hemit, (hverdict.frame.rd _ fun g hg => scrubFields_dec_bytes hg).trans hbytes, ?_⟩
  exact (hverdict.frame.part .staged).trans (hended.frame.part .staged)

theorem gives_syndromeCheck {s : State} {id r : Nat} {j : EceJob} (h : s.dev.jobReady id .syndrome = some j)
    (hrow : j.rows = [r]) :
    Gives (.syndromeCheck id) s fun e => VerdictGiven s.dev e j
      (syndrome j.k j.m ((List.range j.k).map fun i => j.at i r) ((List.range j.m).map fun p => j.at (j.k + p) r)) := by
  obtain ⟨-, rfl, hk⟩ := Dev.jobReady_spec h
  refine gives_of_exec_eq_act (f := fun d => d.runSyndrome j.id) rfl ?_
  have hverdict (tags : List Block) : (s.dev.scrubJudge j j.at tags).1 =
      syndrome j.k j.m ((List.range j.k).map fun i => j.at i r) ((List.range j.m).map fun p => j.at (j.k + p) r) := by
    unfold Dev.scrubJudge
    rw [hrow]
    exact judgeScrub_verdict _ _ _ _ _
  unfold Dev.runSyndrome
  simp only [h]
  rw [← hverdict]
  exact verdictGiven _ (by rw [hk]; decide) _

/-! ### O44 -/

/-- Settles O44: the job that ends leaves ECE with its bytes counted; the last job of a destage hands its outputs on. -/
theorem codingJobs : Obligations.CodingJobs := by
  unfold Obligations.CodingJobs
  intro id x j s
  refine ⟨fun y h hlast hclient hy => ?_, fun y h hlast hclient hy => ?_, fun out h hout hpass => gives_decode_fails h hout hpass,
    fun y out h hlast hclient hy hout hpass hid => ?_, fun r h hrow => ?_⟩
  · refine (gives_encode_destage hlast hclient hy h).mono fun e he => ?_
    obtain ⟨-, hjid, -⟩ := Dev.jobReady_spec h
    obtain ⟨i, hi, hc⟩ := he.record
    exact ⟨hjid ▸ he.gone, he.bytes, i, hi, hc.array, hc.stripe, hc.kind, hc.gen, hc.carries, hc.blocks⟩
  · refine (gives_deltaUpdate_destage hlast hclient hy h).mono fun e he => ?_
    obtain ⟨-, hjid, -⟩ := Dev.jobReady_spec h
    obtain ⟨i, hi, hc⟩ := he.record
    exact ⟨hjid ▸ he.gone, he.bytes, i, hi, hc.array, hc.stripe, hc.kind, hc.gen, hc.carries, hc.blocks⟩
  · refine (gives_decode_destage h hlast hclient hy hout hpass hid).mono fun e he => ?_
    obtain ⟨-, hjid, -⟩ := Dev.jobReady_spec h
    exact ⟨hjid ▸ he.gone, he.destage, he.bytes, he.unchecked, he.frame⟩
  · refine (gives_syndromeCheck h hrow).mono fun e he => ?_
    obtain ⟨-, hjid, -⟩ := Dev.jobReady_spec h
    exact ⟨hjid ▸ he.verdict, he.bytes, he.staged⟩

end Sys2Proof
end

section
/-! What a member read or write that ended leaves: the read joins its destage, the write its intent record, which the last
write retires (R163, R166). -/

set_option Elab.async false

namespace Sys2Proof

open Sys2Proof.Machine

namespace Machine

variable {d e : Dev} {o : MemberOp} {i : Intent} {y : Destage} {id x a t : Nat}

namespace Dev.LayoutKept

variable (h : Dev.LayoutKept d e)
include h

theorem geoAt (a t : Nat) : e.geoAt a t = d.geoAt a t := by
  unfold Dev.geoAt
  rw [h.targetGeo, h.geo]

theorem slotMembers (a n : Nat) : e.slotMembers a n = d.slotMembers a n := by
  have hmember : e.slotMember a = d.slotMember a := funext fun n => h.ix2 Reg.AR_SLOT_member a n
  unfold Dev.slotMembers
  simp only [Dev.slotState, h.ix2 Reg.AR_SLOT_state, hmember]
  rfl

theorem plan (a t : Nat) : e.plan a t = d.plan a t := by
  unfold Dev.plan
  simp only [h.geoAt, h.slotMembers]

theorem cleanState (hrec : e.dram.unitRecs = d.dram.unitRecs) (a t : Nat) : e.cleanState a t = d.cleanState a t := by
  have hspare (p : Plan) (j : Nat) : e.onSpare a p j = d.onSpare a p j := by
    simp only [Dev.onSpare, Dev.unitRec, hrec]
    rfl
  unfold Dev.cleanState
  simp only [h.plan, show e.onSpare a = d.onSpare a from funext fun p => funext (hspare p)]

end Dev.LayoutKept

theorem Dev.op?_dropOp (d : Dev) (id : Nat) : (d.dropOp id).op? id = none := by
  refine List.find?_eq_none.2 fun o ho => ?_
  have := (List.mem_filter.1 ho).2
  simpa using this

theorem mem_insertNat {x z : Nat} : ∀ {l : List Nat}, z ∈ insertNat x l ↔ z = x ∨ z ∈ l
  | [] => by simp [insertNat]
  | y :: ys => by
    unfold insertNat
    split
    · simp
    split
    · next h => subst h; simp
    · simp only [List.mem_cons, mem_insertNat]
      tauto

/-! ### A read of a destage's parity -/

/-- The rows of a unit as it was read. -/
def MemberOp.readRows (o : MemberOp) : List BufBlk := (o.rows.zip o.data).map fun p => ⟨o.j, p.1, p.2⟩

theorem Dev.learnGen_known (h : (d.stripe a t).genUnknown = false) (tb : Block) : d.learnGen a t tb = d := by
  simp [Dev.learnGen, h]

theorem Dev.checkUnit_parity (h : (d.geoAt o.array o.t).k ≤ o.j) :
    d.checkUnit o.array o.t o.j o.rows o.data = (o.readRows, []) := if_pos h

theorem Dev.destageReady_waits (h : d.destage? x = some y) (hneed : ∃ n ∈ y.need, y.old n.1 n.2 = none) :
    d.destageReady x = d := by
  obtain ⟨n, hn, hold⟩ := hneed
  have hall : (y.need.all fun n => (y.old n.1 n.2).isSome) = false := by
    rw [List.all_eq_false]
    exact ⟨n, hn, by simp [hold]⟩
  unfold Dev.destageReady
  simp only [h, hall, Bool.false_eq_true, if_false]

theorem Destage.old_append {out : List BufBlk} {j row : Nat} (h : y.old j row = none) (hout : ∀ b ∈ out, b.j ≠ j) :
    ({ y with got := y.got ++ out } : Destage).old j row = none := by
  have hnone : y.got.find? (fun b => b.j = j && b.row = row) = none := by simpa [Destage.old] using h
  have hout' : out.find? (fun b => b.j = j && b.row = row) = none := by
    rw [List.find?_eq_none]
    intro b hb
    simp [hout b hb]
  unfold Destage.old
  dsimp only
  rw [List.find?_append, hnone, hout']
  rfl

/-- A destage that reads on: it holds the unit, and its read is over. -/
def Dev.unitTaken (d : Dev) (o : MemberOp) (id x : Nat) : Dev :=
  ((d.dropOp id).updDestage x fun y => { y with gen := (((d.dropOp id).stripe o.array o.t).gen + 1) % 2 ^ 16 }).updDestage x
    fun y => { y with got := y.got ++ o.readRows }

theorem Dev.unitTaken_runs (d : Dev) (o : MemberOp) (id x : Nat) : Dev.Runs d (d.unitTaken o id x) [] [.lay] :=
  (((Dev.Runs.refl _ _ _).setLay _).setLay _).setLay _

theorem Dev.unitTaken_destage? (h : d.destage? x = some y) :
    ∃ g, (d.unitTaken o id x).destage? x = some { y with gen := g, got := y.got ++ o.readRows } := by
  have hgen := Dev.updDestage_destage? (d := d.dropOp id)
    (g := fun y => { y with gen := (((d.dropOp id).stripe o.array o.t).gen + 1) % 2 ^ 16 }) rfl h
  exact ⟨_, Dev.updDestage_destage? (y := { y with gen := (((d.dropOp id).stripe o.array o.t).gen + 1) % 2 ^ 16 }) (g := fun y => { y with got := y.got ++ o.readRows }) rfl hgen⟩

theorem Dev.memberReadDone_parity (hop : d.op? id = some o) (hread : o.isWrite = false) (hdone : o.st = .done)
    (hclient : o.client = .destage x) (hy : d.destage? x = some y) (hk : (d.geoAt o.array o.t).k ≤ o.j)
    (hgen : (d.stripe o.array o.t).genUnknown = false) (hneed : ∃ n ∈ y.need, n.1 ≠ o.j ∧ y.old n.1 n.2 = none) :
    d.memberReadDone id = d.unitTaken o id x := by
  obtain ⟨g, hfind⟩ := Dev.unitTaken_destage? (o := o) (id := id) hy
  have hwaits : (d.unitTaken o id x).destageReady x = d.unitTaken o id x := by
    obtain ⟨n, hn, hne, hold⟩ := hneed
    refine Dev.destageReady_waits hfind ⟨n, hn, ?_⟩
    refine Destage.old_append (y := { y with gen := g }) hold fun b hb => ?_
    obtain ⟨p, -, rfl⟩ := List.mem_map.1 hb
    exact hne.symm
  have hlearn (tb : Block) : (d.dropOp id).learnGen o.array o.t tb = d.dropOp id := Dev.learnGen_known (d := d.dropOp id) hgen tb
  have hcheck (g : Destage → Destage) : ((d.dropOp id).updDestage x g).checkUnit o.array o.t o.j o.rows o.data = (o.readRows, []) :=
    Dev.checkUnit_parity (d := (d.dropOp id).updDestage x g) hk
  have hgot : (d.dropOp id).destageGot o x = (d.unitTaken o id x).destageReady x := by
    unfold Dev.destageGot Dev.unitTaken
    simp only [hdone, if_true, hlearn, hcheck, and_self]
  unfold Dev.memberReadDone
  simp only [hop, hread, hdone, hclient, hgot, hwaits, reduceCtorEq, decide_false, Bool.or_self, Bool.false_eq_true, if_false]

/-! ### A write of an intent record -/

/-- The intent record with a number. -/
def Dev.intent? (d : Dev) (seq : Nat) : Option Intent := d.dram.intents.find? fun x => x.seq = seq

/-- A record with a position written. -/
def Intent.marked (i : Intent) (j : Nat) : Intent := { i with doneMap := insertNat j i.doneMap }

/-- The write of a record's position is over, and the record marks it. -/
def Dev.writeMarked (d : Dev) (o : MemberOp) (id seq : Nat) : Dev := (d.dropOp id).updIntent seq fun i => i.marked o.j

theorem Dev.writeMarked_intent? (h : d.intent? i.seq = some i) :
    (d.writeMarked o id i.seq).intent? i.seq = some (i.marked o.j) :=
  find?_map_update (key := Intent.seq) (g := fun i => i.marked o.j) rfl h

theorem Dev.writeMarked_runs (d : Dev) (o : MemberOp) (id seq : Nat) : Dev.Runs d (d.writeMarked o id seq) [] [.lay, .dram] :=
  ((Dev.Runs.refl _ _ _).setLay _).setDram _

theorem Dev.memberWriteDone_intent (hop : d.op? id = some o) (hwrite : o.isWrite = true) (hdone : o.st = .done)
    {seq : Nat} (hclient : o.client = .intentWrite seq) :
    d.memberWriteDone id = (d.writeMarked o id seq).retireCheck seq := by
  unfold Dev.memberWriteDone
  simp only [hop, hwrite, hdone, hclient, Dev.intentWriteDone, reduceCtorEq, decide_false, Bool.or_self, Bool.not_true,
    Bool.false_eq_true, if_false, if_true]
  rfl

theorem Dev.retireCheck_eq {seq : Nat} (h : d.intent? seq = some i) (hlost : i.lostMap = []) :
    d.retireCheck seq = if i.writeMap.all i.doneMap.contains then d.retire i else d := by
  rw [Dev.intent?] at h
  unfold Dev.retireCheck
  simp only [h, hlost, ne_eq, not_true_eq_false, and_false, if_false, List.contains_nil, Bool.or_false]

theorem Intent.marked_open (h : ∃ p ∈ i.writeMap, p ≠ o.j ∧ p ∉ i.doneMap) :
    (i.marked o.j).writeMap.all (i.marked o.j).doneMap.contains = false := by
  obtain ⟨p, hp, hne, hnot⟩ := h
  rw [List.all_eq_false]
  refine ⟨p, hp, ?_⟩
  simpa [Intent.marked, mem_insertNat] using ⟨hne, hnot⟩

theorem Intent.marked_all (h : ∀ p ∈ i.writeMap, p = o.j ∨ p ∈ i.doneMap) :
    (i.marked o.j).writeMap.all (i.marked o.j).doneMap.contains = true := by
  rw [List.all_eq_true]
  intro p hp
  simpa [Intent.marked, mem_insertNat] using h p hp

/-! ### A record retires -/

theorem Dev.stripe_updStripe (d : Dev) (a t : Nat) (g : StripeRec → StripeRec) : (d.updStripe a t g).stripe a t = g (d.stripe a t) := by
  unfold Dev.stripe Dev.updStripe
  simp only [Tbl.getD, Tbl.get?_put_same, Option.getD_some]
  exact Tbl.getD_putD_same _ _ _ _

/-- What a retired record leaves, from the stripes, records and blocks of DRAM after it. -/
theorem retired_of_dram (hs : e.dram.stripes = d.dram.stripes) (hgen : (d.stripe i.array i.t).gen = i.gen)
    {n : Nat} (hstate : (d.stripe i.array i.t).state = n) (hi : ∀ x ∈ e.dram.intents, x.seq ≠ i.seq) {bs : List CBlk}
    (hb : ∀ b ∈ bs, b ∉ e.dram.cache) :
    (∀ x ∈ e.dram.intents, x.seq ≠ i.seq) ∧ (e.stripe i.array i.t).gen = i.gen ∧ (e.stripe i.array i.t).state = n ∧
      ∀ b ∈ bs, b ∉ e.dram.cache := by
  have : e.stripe i.array i.t = d.stripe i.array i.t := by rw [Dev.stripe, hs, Dev.stripe]
  exact ⟨hi, by rw [this, hgen], by rw [this, hstate], hb⟩

/-- What writing unit records back leaves of DRAM. -/
structure Dev.RecordsPut (d e : Dev) : Prop where
  stripes : e.dram.stripes = d.dram.stripes
  cache : e.dram.cache = d.dram.cache
  intents : e.dram.intents = d.dram.intents
  lay : e.lay = d.lay

theorem Dev.RecordsPut.putRecord (h : Dev.RecordsPut d e) (a m c : Nat) (r : UnitRec) : Dev.RecordsPut d (e.putRecord a m c r) :=
  ⟨h.stripes, h.cache, h.intents, h.lay⟩

theorem Dev.nextRepair_none (h : ∀ r ∈ d.lay.repairs, ¬ (r.array = i.array ∧ r.t = i.t)) : (d.nextRepair i).dram = d.dram := by
  have hmap : (d.lay.repairs.map fun r => if r.array = i.array ∧ r.t = i.t then
      { r with blocks := r.blocks.filter fun b => !(i.blocks.any fun x => x.j = b.j && x.row = b.row) } else r) = d.lay.repairs :=
    List.map_congr_left (g := id) (fun r hr => if_neg (h r hr)) |>.trans (List.map_id _)
  have hfind : d.lay.repairs.find? (fun r => r.array = i.array && r.t = i.t) = none := by
    rw [List.find?_eq_none]
    intro r hr
    simpa using h r hr
  unfold Dev.nextRepair
  dsimp only [Dev.updLay]
  rw [hmap, hfind]

theorem Dev.retire_retired (hkind : i.kind ≠ 5) (howed : (i.array, i.t) ∉ d.lay.freshOwed)
    (hrep : ∀ r ∈ d.lay.repairs, ¬ (r.array = i.array ∧ r.t = i.t)) :
    (∀ x ∈ (d.retire i).settle.dram.intents, x.seq ≠ i.seq) ∧ ((d.retire i).settle.stripe i.array i.t).gen = i.gen ∧
      ((d.retire i).settle.stripe i.array i.t).state = d.cleanState i.array i.t ∧
      ∀ b ∈ d.carriedBlocks i.carries, b ∉ (d.retire i).settle.dram.cache := by
  have hcontains : d.lay.freshOwed.contains (i.array, i.t) = false := by simpa using howed
  unfold Dev.retire
  simp only [hkind, hcontains, if_false, Bool.false_eq_true]
  generalize hd1 : Dev.updStripe d i.array i.t _ = d1
  have hstripe : d1.stripe i.array i.t =
      { d.stripe i.array i.t with state := d.cleanState i.array i.t, gen := i.gen, genUnknown := false } := by
    rw [← hd1]
    exact Dev.stripe_updStripe _ _ _ _
  have hcache1 : d1.dram.cache = d.dram.cache := by rw [← hd1]; rfl
  have hrep1 : d1.lay.repairs = d.lay.repairs := by rw [← hd1]; rfl
  clear hd1
  generalize hd2 : Dev.updLay d1 _ = d2
  have hstripes2 : d2.dram = d1.dram := by rw [← hd2]; rfl
  have hrep2 : d2.lay.repairs = d.lay.repairs := by rw [← hd2]; exact hrep1
  clear hd2
  generalize hd3 : forEach _ _ d2 = d3
  have hput : Dev.RecordsPut d2 d3 := by
    rw [← hd3]
    exact forEach_induct (P := Dev.RecordsPut d2) (fun j e he => he.putRecord _ _ _ _) _ d2 ⟨rfl, rfl, rfl, rfl⟩
  clear hd3
  obtain ⟨hs3, hc3, hi3, hl3⟩ := hput
  generalize hd4 : Dev.updCache d3 _ = d4
  have hs4 : d4.dram.stripes = d3.dram.stripes := by rw [← hd4]; rfl
  have hl4 : d4.lay = d3.lay := by rw [← hd4]; rfl
  have hb4 : ∀ b ∈ d.carriedBlocks i.carries, b ∉ d4.dram.cache := by
    intro b hb
    have hb3 : b ∈ d3.carriedBlocks i.carries := by
      rw [Dev.carriedBlocks, hc3, hstripes2, hcache1]
      exact hb
    rw [← hd4]
    intro hmem
    have := (List.mem_filter.1 hmem).2
    simp [hb3] at this
  clear hd4
  generalize hd5 : Dev.updDram d4 _ = d5
  have hs5 : d5.dram.stripes = d4.dram.stripes := by rw [← hd5]; rfl
  have hl5 : d5.lay = d4.lay := by rw [← hd5]; rfl
  have hc5 : d5.dram.cache = d4.dram.cache := by rw [← hd5]; rfl
  have hi5 : ∀ x ∈ d5.dram.intents, x.seq ≠ i.seq := by
    rw [← hd5]
    intro x hx
    simpa using (List.mem_filter.1 hx).2
  clear hd5
  have hdram6 : (d5.nextRepair i).dram = d5.dram := Dev.nextRepair_none fun r hr => hrep r (by rw [hl5, hl4, hl3, hrep2] at hr; exact hr)
  obtain ⟨hdram7, -⟩ := (d5.nextRepair i).afterDrain_dram
  have hsettle : ((d5.nextRepair i).afterDrain.settle).dram = (d5.nextRepair i).afterDrain.dram := Dev.settle_dram _
  rw [hdram6] at hdram7
  refine retired_of_dram (d := d1) ?_ (by rw [hstripe]) (by rw [hstripe]) ?_ ?_
  · rw [hsettle, hdram7, hs5, hs4, hs3, hstripes2]
  · rw [hsettle, hdram7]
    exact hi5
  · intro b hb
    rw [hsettle, hdram7]
    show b ∉ d5.dram.cache
    rw [hc5]
    exact hb4 b hb

end Machine

section

variable {s : State} {o : MemberOp} {id a t x : Nat}

theorem gives_streamHoldExpire (ha : a < 16) : Gives (.streamHoldExpire a t) s fun e =>
    e.lay.due = s.dev.lay.due.map (fun r => if r.array = a ∧ r.t = t then { r with due := true } else r) ∧
      Frame s.dev e [] [.lay] := by
  refine gives_of_exec_eq_act (f := fun d => d.makeDue a t) ?_ ?_
  · simp only [exec, execStreamHoldExpire, onUnit, ha, decide_true, if_true]
  · have hruns : Dev.Runs s.dev (s.dev.makeDue a t).settle [] [.lay] := ((Dev.Runs.refl _ _ _).setLay _).settle
    have hlay : (s.dev.makeDue a t).settle.lay = (s.dev.makeDue a t).lay := (Frame.refl (s.dev.makeDue a t) [] []).settle.part .lay
    exact ⟨by rw [hlay]; rfl, hruns.frame⟩

theorem gives_memberReadDone_parity {y : Destage} (hop : s.dev.op? id = some o) (hread : o.isWrite = false) (hdone : o.st = .done)
    (hclient : o.client = .destage x) (hy : s.dev.destage? x = some y) (hk : (s.dev.geoAt o.array o.t).k ≤ o.j)
    (hgen : (s.dev.stripe o.array o.t).genUnknown = false) (hneed : ∃ n ∈ y.need, n.1 ≠ o.j ∧ y.old n.1 n.2 = none) :
    Gives (.memberReadDone id) s fun e => (∃ z, e.destage? x = some z ∧ z.got = y.got ++ o.readRows) ∧ e.op? id = none ∧
      Frame s.dev e [] [.lay] := by
  refine gives_of_exec_eq_act (f := fun d => d.memberReadDone id) rfl ?_
  simp only [Dev.memberReadDone_parity hop hread hdone hclient hy hk hgen hneed]
  obtain ⟨g, hfind⟩ := Dev.unitTaken_destage? (o := o) (id := id) hy
  have hlay : (s.dev.unitTaken o id x).settle.lay = (s.dev.unitTaken o id x).lay :=
    (Frame.refl (s.dev.unitTaken o id x) [] []).settle.part .lay
  refine ⟨⟨_, by rw [Dev.destage?, hlay]; exact hfind, rfl⟩, ?_, (s.dev.unitTaken_runs o id x).settle.frame⟩
  rw [Dev.op?, hlay]
  exact s.dev.op?_dropOp id

variable {i : Intent} (hop : s.dev.op? id = some o) (hwrite : o.isWrite = true) (hdone : o.st = .done)
  (hclient : o.client = .intentWrite i.seq) (hi : s.dev.dram.intents.find? (fun x => x.seq = i.seq) = some i) (hlost : i.lostMap = [])
include hop hwrite hdone hclient hi hlost

/-- A write of a record that has others to come. -/
theorem gives_memberWriteDone_open (hopen : ∃ p ∈ i.writeMap, p ≠ o.j ∧ p ∉ i.doneMap) :
    Gives (.memberWriteDone id) s fun e => (∃ x ∈ e.dram.intents, x.seq = i.seq ∧ o.j ∈ x.doneMap) ∧ e.op? id = none ∧
      Frame s.dev e [] [.lay, .dram] := by
  have hfind := Dev.writeMarked_intent? (o := o) (id := id) hi
  refine gives_of_exec_eq_act (f := fun d => d.memberWriteDone id) rfl ?_
  simp only [Dev.memberWriteDone_intent hop hwrite hdone hclient, Dev.retireCheck_eq (i := i.marked o.j) hfind hlost,
    Intent.marked_open hopen, Bool.false_eq_true, if_false]
  have hsettle := (Frame.refl (s.dev.writeMarked o id i.seq) [] []).settle
  have hlay : (s.dev.writeMarked o id i.seq).settle.lay = (s.dev.writeMarked o id i.seq).lay := hsettle.part .lay
  have hdram : (s.dev.writeMarked o id i.seq).settle.dram = (s.dev.writeMarked o id i.seq).dram := hsettle.part .dram
  refine ⟨⟨i.marked o.j, ?_, rfl, mem_insertNat.2 (.inl rfl)⟩, ?_, (s.dev.writeMarked_runs o id i.seq).settle.frame⟩
  · rw [hdram]
    exact List.mem_of_find?_eq_some hfind
  · rw [Dev.op?, hlay]
    exact s.dev.op?_dropOp id

/-- The last write of a record. -/
theorem gives_memberWriteDone_last (hall : ∀ p ∈ i.writeMap, p = o.j ∨ p ∈ i.doneMap) (hkind : i.kind ≠ 5)
    (howed : (i.array, i.t) ∉ s.dev.lay.freshOwed) (hrep : ∀ r ∈ s.dev.lay.repairs, ¬ (r.array = i.array ∧ r.t = i.t)) :
    Gives (.memberWriteDone id) s fun e => (∀ x ∈ e.dram.intents, x.seq ≠ i.seq) ∧ (e.stripe i.array i.t).gen = i.gen ∧
      (e.stripe i.array i.t).state = s.dev.cleanState i.array i.t ∧
      ∀ b ∈ s.dev.carriedBlocks i.carries, b ∉ e.dram.cache := by
  have hfind := Dev.writeMarked_intent? (o := o) (id := id) hi
  refine gives_of_exec_eq_act (f := fun d => d.memberWriteDone id) rfl ?_
  simp only [Dev.memberWriteDone_intent hop hwrite hdone hclient, Dev.retireCheck_eq (i := i.marked o.j) hfind hlost,
    Intent.marked_all hall, if_true]
  have hkept : Dev.LayoutKept s.dev (s.dev.writeMarked o id i.seq) := ⟨fun _ _ => rfl, rfl, rfl⟩
  have hretired := Dev.retire_retired (d := s.dev.writeMarked o id i.seq) (i := i.marked o.j) hkind howed hrep
  rw [hkept.cleanState rfl] at hretired
  exact hretired

end

end Sys2Proof
end

section
/-! The start of a full stripe's destage (R164, R166, R169), and the read deadline (R176). -/

set_option Elab.async false

namespace Sys2Proof

open Sys2Proof.Machine

namespace Machine

variable {d e : Dev} {x : Destage} {id : Nat} {r : DueRec}

/-! ### The stripe next in order -/

/-- What a fold that keeps or replaces its pick ends with is its first pick or an element. -/
theorem foldl_pick {α : Type} {f : Option α → α → Option α} (hf : ∀ o x, f o x = some x ∨ f o x = o) {y : α} :
    ∀ (xs : List α) (o : Option α), xs.foldl f o = some y → y ∈ xs ∨ o = some y
  | [], _, h => .inr h
  | x :: xs, o, h => by
    rcases foldl_pick hf xs (f o x) h with hmem | hpick
    · exact .inl (List.mem_cons_of_mem _ hmem)
    · rcases hf o x with hx | ho
      · rw [hx] at hpick
        exact .inl (Option.some.inj hpick ▸ List.mem_cons_self)
      · exact .inr (ho ▸ hpick)

theorem Dev.nextDue_free (h : d.nextDue = some r) : d.destageFree r = true := by
  unfold Dev.nextDue at h
  obtain ⟨p, hp, rfl⟩ := Option.map_eq_some_iff.1 h
  have hmem := foldl_pick (y := p) (fun o x => ?_) _ none hp
  · rcases hmem with hmem | hnone
    · obtain ⟨z, hz, hzp⟩ := List.mem_filterMap.1 hmem
      obtain ⟨c, -, rfl⟩ := Option.map_eq_some_iff.1 hzp
      exact (List.mem_filter.1 hz).2
    · exact absurd hnone (by simp)
  · cases o with
    | none => exact .inl rfl
    | some y => dsimp only; split <;> simp

theorem Dev.dirtyOf_ne_nil (h : d.destageFree r = true) : d.dirtyOf r.array r.t ≠ [] := by
  unfold Dev.destageFree at h
  simp only [Bool.and_eq_true, decide_eq_true_eq] at h
  obtain ⟨⟨⟨⟨⟨⟨hdirty, -⟩, -⟩, -⟩, -⟩, -⟩, -⟩ := h
  exact hdirty

/-! ### The whole stripe -/

theorem rowRuns_range' (n : Nat) : ∀ s, rowRuns (List.range' s (n + 1)) = [List.range' s (n + 1)] := by
  induction n with
  | zero => intro s; rfl
  | succ n ih =>
    intro s
    have htail := ih (s + 1)
    rw [List.range'_succ] at htail
    rw [List.range'_succ, List.range'_succ, rowRuns, htail]
    simp

theorem Dev.addJobs_range {j : EceJob} {n : Nat} (h : j.rows = List.range (n + 1)) : d.addJobs j = d.addJob (j.cut j.rows) := by
  unfold Dev.addJobs
  rw [h, List.range_eq_range', rowRuns_range']
  rfl

/-- A destage of a whole stripe: nothing is read. -/
def Destage.whole (x : Destage) (ub : Nat) : Destage := { x with method := .full, rows := List.range ub, need := [], got := [] }

theorem Dev.destageReady_whole {ub : Nat} (h : d.destage? id = some (x.whole ub)) : d.destageReady id = d.finalJob (x.whole ub) := by
  unfold Dev.destageReady
  simp only [h, Destage.whole, List.all_nil, if_true, decide_true, Bool.true_or]

theorem Dev.planReads_whole (h : d.destage? id = some x)
    (hfull : x.carries.length = (d.geoAt x.array x.t).perStripe) :
    d.planReads id = (d.updDestage id fun _ => x.whole (d.geoAt x.array x.t).ub).finalJob (x.whole (d.geoAt x.array x.t).ub) := by
  have hmethod (missing : List Nat) : d.chooseMethod x.array x.t (d.changes x) missing = .full := by
    unfold Dev.chooseMethod
    exact if_pos (by rw [Dev.changes, List.length_map]; exact hfull)
  have hput : (d.updDestage id fun _ => x.whole (d.geoAt x.array x.t).ub).destage? id = some (x.whole (d.geoAt x.array x.t).ub) :=
    Dev.updDestage_destage? (y := x) (g := fun _ => x.whole (d.geoAt x.array x.t).ub) rfl h
  rw [← Dev.destageReady_whole hput]
  unfold Dev.planReads
  simp only [h, hmethod, ne_eq, not_true_eq_false, and_false, false_and, if_false]
  rfl

/-- The job that a destage of a whole stripe hands to ECE. -/
structure WholeJob (d e : Dev) (x : Destage) : Prop where
  jobs : ∃ j, e.ece.jobs = d.ece.jobs ++ [j] ∧ j.kind = .encode ∧ j.array = x.array ∧ j.t = x.t ∧ j.client = .destage x.id
  destages : e.lay.destages = d.lay.destages
  dram : e.dram = d.dram
  runs : Dev.Runs d e [] [.lay, .ece]

theorem Dev.finalJob_whole (n : Nat) : WholeJob d (d.finalJob (x.whole (n + 1))) x := by
  have hjob (j : EceJob) (hrows : j.rows = List.range (n + 1)) (hj : j.kind = .encode ∧ j.array = x.array ∧ j.t = x.t ∧
      j.client = .destage x.id) : WholeJob d (d.addJobs j) x := by
    rw [Dev.addJobs_range hrows]
    exact ⟨⟨_, rfl, hj⟩, rfl, rfl, (Dev.Runs.refl _ _ _).addJob _⟩
  unfold Dev.finalJob
  dsimp only
  rw [if_neg (by simp [Destage.whole])]
  exact hjob _ rfl ⟨rfl, rfl, rfl, rfl⟩

/-! ### The start -/

/-- The destage that starts of a stripe. -/
def Dev.newDestage (d : Dev) (a t : Nat) : Destage :=
  { id := d.lay.nextId, array := a, t := t, method := .full, gen := ((d.stripe a t).gen + 1) % 2 ^ 16,
    carries := (d.dirtyOf a t).map fun b => (b.vol, b.lba, b.adm), rows := [], need := [], got := [], missing := [], fix := [] }

/-- A stripe's destage begins: its dirty blocks are carried. -/
def Dev.destageBegun (d : Dev) (a t : Nat) : Dev :=
  ((d.updCache fun ys => ys.map fun b => if (d.dirtyOf a t).contains b then { b with st := .destaging } else b).updLay fun l =>
    { l with destages := l.destages ++ [d.newDestage a t], nextId := l.nextId + 1 }).tidyDue

theorem Dev.beginDestage_eq (d : Dev) (a t : Nat) : d.beginDestage a t = (d.destageBegun a t).planReads d.lay.nextId := rfl

theorem Dev.destageBegun_destage? (a t : Nat) (h : d.destage? d.lay.nextId = none) :
    (d.destageBegun a t).destage? d.lay.nextId = some (d.newDestage a t) := by
  show (d.lay.destages ++ [d.newDestage a t]).find? _ = _
  rw [List.find?_append, show d.lay.destages.find? _ = none from h]
  simp [Dev.newDestage]

theorem Dev.destageBegun_runs (d : Dev) (a t : Nat) : Dev.Runs d (d.destageBegun a t) [] [.dram, .lay] :=
  (((Dev.Runs.refl _ _ _).setDram _).setLay _).setLay _

theorem Dev.destageBegun_layout (d : Dev) (a t : Nat) : Dev.LayoutKept d (d.destageBegun a t) := ⟨fun _ _ => rfl, rfl, rfl⟩

theorem Dev.destageBegun_cache (d : Dev) {a t : Nat} {b : CBlk} (hb : b ∈ d.dirtyOf a t) :
    { b with st := .destaging } ∈ (d.destageBegun a t).dram.cache := by
  refine List.mem_map.2 ⟨b, (List.mem_filter.1 hb).1, ?_⟩
  rw [if_pos (by simpa using hb)]

/-- A whole stripe's destage has started: its job is with ECE and its blocks are carried. -/
structure WholeStarted (d e : Dev) (a t : Nat) : Prop where
  jobs : ∃ j, e.ece.jobs = d.ece.jobs ++ [j] ∧ j.kind = .encode ∧ j.array = a ∧ j.t = t ∧ j.client = .destage d.lay.nextId
  blocks : ∀ b ∈ d.dirtyOf a t, { b with st := .destaging } ∈ e.dram.cache
  destage : ∃ x, e.destage? d.lay.nextId = some x ∧ x.method = .full ∧ x.gen = ((d.stripe a t).gen + 1) % 2 ^ 16
  frame : Frame d e [] [.dram, .lay, .ece]

theorem Dev.beginDestage_whole {a t : Nat} (hnew : d.destage? d.lay.nextId = none)
    (hfull : (d.dirtyOf a t).length = (d.geoAt a t).perStripe) (hdirty : d.dirtyOf a t ≠ []) :
    WholeStarted d (d.beginDestage a t).settle a t := by
  obtain ⟨n, hn⟩ : ∃ n, (d.geoAt a t).ub = n + 1 := by
    refine Nat.exists_eq_succ_of_ne_zero fun h0 => hdirty ?_
    rw [← List.length_eq_zero_iff, hfull, Geo.perStripe, Geo.dpu, h0]
    simp
  have hfind := Dev.destageBegun_destage? a t hnew
  have hruns := d.destageBegun_runs a t
  have hgeo := (d.destageBegun_layout a t).geoAt a t
  have hblocks := fun b hb => d.destageBegun_cache (a := a) (t := t) (b := b) hb
  have hece : (d.destageBegun a t).ece = d.ece := rfl
  rw [Dev.beginDestage_eq]
  generalize d.destageBegun a t = w at *
  have hplan := Dev.planReads_whole hfind (by
    show ((d.dirtyOf a t).map _).length = (w.geoAt a t).perStripe
    rw [List.length_map, hgeo, hfull])
  rw [hplan, show (d.newDestage a t).array = a from rfl, show (d.newDestage a t).t = t from rfl, hgeo, hn]
  generalize hx : d.newDestage a t = x at *
  have hput : (w.updDestage d.lay.nextId fun _ => x.whole (n + 1)).destage? d.lay.nextId = some (x.whole (n + 1)) :=
    Dev.updDestage_destage? (y := x) (g := fun _ => x.whole (n + 1)) rfl hfind
  have hputRuns := w.updDestage_runs d.lay.nextId fun _ => x.whole (n + 1)
  have hputDram : (w.updDestage d.lay.nextId fun _ => x.whole (n + 1)).dram = w.dram := rfl
  have hputEce : (w.updDestage d.lay.nextId fun _ => x.whole (n + 1)).ece = w.ece := rfl
  generalize w.updDestage d.lay.nextId (fun _ => x.whole (n + 1)) = v at *
  obtain ⟨⟨j, hj, hkind, harr, hstripe, hclient⟩, hdest, hdram, hjob⟩ := Dev.finalJob_whole (d := v) (x := x) n
  generalize v.finalJob (x.whole (n + 1)) = e at *
  have hsettle := (Frame.refl e [] []).settle
  have hlay' : e.settle.lay = e.lay := hsettle.part .lay
  have hdram' : e.settle.dram = e.dram := hsettle.part .dram
  have hece' : e.settle.ece = e.ece := hsettle.part .ece
  refine ⟨⟨j, ?_, hkind, ?_, ?_, ?_⟩, fun b hb => ?_, ⟨x.whole (n + 1), ?_, rfl, ?_⟩, ?_⟩
  · rw [hece', hj, hputEce, hece]
  · rw [harr, ← hx]; rfl
  · rw [hstripe, ← hx]; rfl
  · rw [hclient, ← hx]; rfl
  · rw [hdram', hdram, hputDram]
    exact hblocks b hb
  · rw [Dev.destage?, hlay', hdest]
    exact hput
  · rw [← hx]; rfl
  · exact (((hruns.mono (qs := [.dram, .lay, .ece])).trans hputRuns).trans hjob).settle.frame

theorem Dev.destageStart_whole (hup : d.eceDown = false) (hnext : d.nextDue = some r) (hgood : d.CopiesGood) :
    d.destageStart = d.beginDestage r.array r.t := by
  have hcheck : forEach (d.dirtyOf r.array r.t) (fun b d => d.dramCheck b.vol b.lba) d = d :=
    forEach_induct (P := fun e => e = d) (fun b e he => by rw [he]; exact Dev.dramCheck_of_good hgood _ _) _ d rfl
  unfold Dev.destageStart
  simp only [hup, hnext, hcheck, Dev.nextDue_free hnext, Bool.false_eq_true, if_false, if_true]

/-! ### The read deadline -/

/-- A member command is bypassed, and the bypasses are counted. -/
structure Dev.Bypassing (id v : Nat) (e : Dev) : Prop where
  op : ∃ x, e.op? id = some x ∧ x.bypassed = true
  count : e.rd Reg.PWC_BYPASS_count = v

namespace Dev.Bypassing

variable {v : Nat} (h : Dev.Bypassing id v d)
include h

theorem of_ops (hops : e.lay.ops = d.lay.ops) (hcount : e.rd Reg.PWC_BYPASS_count = d.rd Reg.PWC_BYPASS_count) :
    Dev.Bypassing id v e := ⟨by rw [Dev.op?, hops]; exact h.op, hcount.trans h.count⟩

/-- What leaves LAY and the count leaves the bypass. -/
theorem of_runs {fs : List Fld} {ps : List Part} (hr : Dev.Runs d e fs ps) (hl : Part.lay ∉ ps := by decide)
    (hf : ∀ g ∈ fs, Reg.PWC_BYPASS_count.key ≠ g.key := by decide) : Dev.Bypassing id v e :=
  h.of_ops (by rw [show e.lay = d.lay from hr.frame.part .lay hl]) (hr.frame.rd _ hf)

theorem of_kept (hk : Dev.WorkKept d e) : Dev.Bypassing id v e :=
  h.of_ops (by rw [hk.same]) (hk.low _ (by decide))

theorem updOp {g : MemberOp → MemberOp} (n : Nat) (hid : ∀ o, (g o).id = o.id) (hb : ∀ o, (g o).bypassed = o.bypassed) :
    Dev.Bypassing id v (d.updOp n g) := by
  obtain ⟨x, hx, hbypassed⟩ := h.op
  refine ⟨⟨if x.id = n then g x else x, ?_, by split <;> simp [hb, hbypassed]⟩, h.count⟩
  show (d.lay.ops.map fun o => if o.id = n then g o else o).find? _ = _
  have hsame : ((fun o : MemberOp => decide (o.id = id)) ∘ fun o => if o.id = n then g o else o) = fun o => decide (o.id = id) := by
    funext o
    simp only [Function.comp_apply]
    split <;> simp [hid]
  rw [List.find?_map, hsame, show d.lay.ops.find? (fun o => decide (o.id = id)) = some x from hx]
  rfl

theorem addOps (os : List MemberOp) (n : Nat) :
    Dev.Bypassing id v (d.updLay fun l => { l with ops := l.ops ++ os, nextId := n }) := by
  obtain ⟨x, hx, hbypassed⟩ := h.op
  refine ⟨⟨x, ?_, hbypassed⟩, h.count⟩
  show (d.lay.ops ++ os).find? _ = _
  rw [List.find?_append, show d.lay.ops.find? (fun o => decide (o.id = id)) = some x from hx]
  rfl

theorem pump (fuel p : Nat) : Dev.Bypassing id v (Dev.pump fuel p d) := by
  induction fuel generalizing d with
  | zero => exact h
  | succ fuel ih =>
    rw [Dev.pump]
    split
    · exact h
    · split
      · exact ih (h.of_ops rfl rfl)
      · split
        · next k rest _ _ o _ _ =>
          have hissued := h.updOp (g := fun o => { o with st := .issued }) k (fun _ => rfl) fun _ => rfl
          exact ih (of_runs (hissued.of_ops (e := (d.updOp k fun o => { o with st := .issued }).updPort p _) rfl rfl)
            ((Dev.Runs.refl _ [] []).sendOp o))
        · exact h

theorem addOp (b t j member : Nat) (rows : List Nat) (isWrite : Bool) (data : List Block) (cl : Client) :
    Dev.Bypassing id v (d.addOp b t j member rows isWrite data cl) := by
  unfold Dev.addOp
  split
  · exact h
  · unfold Dev.pumpPort
    refine pump ?_ _ _
    exact (h.addOps _ _).of_ops rfl rfl

theorem gatherReads (g : Gather) (at_ : List Nat) : Dev.Bypassing id v (d.gatherReads g at_) :=
  forEach_induct (P := Dev.Bypassing id v) (fun _ _ he => he.addOp _ _ _ _ _ _ _ _) at_ d h

theorem gatherFail (g : Gather) : Dev.Bypassing id v (d.gatherFail g) := by
  have hdrop : Dev.Bypassing id v (d.updLay fun l => { l with gathers := l.gathers.filter fun x => x.id ≠ g.id }) := h.of_ops rfl rfl
  have hcount : Dev.Bypassing id v ((d.updLay fun l => { l with gathers := l.gathers.filter fun x => x.id ≠ g.id }).unrepaired g.array
      g.rows.length) := by
    refine hdrop.of_runs (.unrepaired (.refl _ [Reg.AR_TAG_UNREP_count.ix g.array] []) _ _ List.mem_cons_self) (by decide)
      fun f hf => ?_
    rw [List.mem_singleton.1 hf]
    have := Reg.AR_TAG_UNREP_count.ix_key_ge g.array
    have hlow : Reg.PWC_BYPASS_count.key < 0xB0000 * 64 := by decide
    omega
  have hrows {w : Dev} (hw : Dev.Bypassing id v w) (adm j : Nat) :
      Dev.Bypassing id v ((w.failRows adm g.array g.t j g.rows .unrec).finishRead adm) := by
    refine of_kept ?_ (Dev.finishRead_kept _ _)
    unfold Dev.failRows
    split
    · exact hw
    · exact forEach_induct (P := Dev.Bypassing id v) (fun o e he => he.of_ops (e := e.setResult adm o .unrec) rfl rfl) _ w hw
  unfold Dev.gatherFail
  dsimp only
  split
  · exact hrows hcount _ _
  · exact hrows hcount _ _
  · exact hcount

theorem startGather (cl : Client) (a t j : Nat) (rows : List Nat) (codes : List (Nat × Nat)) (medium : Bool) (tb : Option Block) :
    Dev.Bypassing id v (d.startGather cl a t j rows codes medium tb) := by
  unfold Dev.startGather
  extract_lets geo p rows' want g w
  have hw : Dev.Bypassing id v w := h.of_ops rfl rfl
  split
  · exact hw.gatherFail _
  · exact hw.gatherReads _ _

end Dev.Bypassing

theorem Dev.bypass_counted {o : MemberOp} (h : d.op? id = some o) :
    Dev.Bypassing id (min (d.rd Reg.PWC_BYPASS_count + 1) (2 ^ 32 - 1))
      ((d.updOp id fun o => { o with bypassed := true }).incSat Reg.PWC_BYPASS_count) where
  op := ⟨{ o with bypassed := true }, find?_map_update (key := MemberOp.id) (g := fun o => { o with bypassed := true }) rfl h, rfl⟩
  count := Dev.rd_incSat_same _ _ _

end Machine

section

variable {s : State} {id adm : Nat} {o : MemberOp}

theorem gives_destageStart_whole {r : DueRec} (hup : s.dev.eceDown = false) (hnext : s.dev.nextDue = some r)
    (hfull : (s.dev.dirtyOf r.array r.t).length = (s.dev.geoAt r.array r.t).perStripe)
    (hnew : s.dev.destage? s.dev.lay.nextId = none) (hgood : s.dev.CopiesGood) :
    Gives .destageStart s fun e => WholeStarted s.dev e r.array r.t := by
  refine gives_of_exec_eq_act (f := Dev.destageStart) rfl ?_
  simp only [Dev.destageStart_whole hup hnext hgood]
  exact Dev.beginDestage_whole hnew hfull (Dev.dirtyOf_ne_nil (Dev.nextDue_free hnext))

theorem gives_readDeadline_bypass (hop : s.dev.op? id = some o) (hclient : o.client = .hostRead adm)
    (hst : o.st = .queued ∨ o.st = .issued) (hby : o.bypassed = false) (hms : s.dev.rd (Reg.AR_DEADLINE_ms.ix o.array) ≠ 0)
    (hout : (o.j :: s.dev.slowAt o.array o.t ++ s.dev.unavailable o.array (s.dev.plan o.array o.t)).eraseDups.length ≤
      (s.dev.geoAt o.array o.t).m) :
    Gives (.readDeadline id) s fun e => (∃ x, e.op? id = some x ∧ x.bypassed = true) ∧
      e.rd Reg.PWC_BYPASS_count = min (s.dev.rd Reg.PWC_BYPASS_count + 1) (2 ^ 32 - 1) := by
  refine gives_of_exec_eq_act (f := fun d => d.readDeadline id) rfl ?_
  have hdue : (decide (o.st = .queued) || decide (o.st = .issued)) = true := by simpa using hst
  have hrun : s.dev.readDeadline id = ((s.dev.updOp id fun o => { o with bypassed := true }).incSat Reg.PWC_BYPASS_count).startGather
      o.client o.array o.t o.j o.rows [] false none := by
    unfold Dev.readDeadline
    simp only [hop, hdue, hby, hms, hout, hclient, ne_eq, not_false_eq_true, decide_true, Bool.not_false, Bool.and_self,
      Bool.not_true, Bool.false_eq_true, if_false]
  simp only [hrun]
  have h := (Dev.bypass_counted hop).startGather o.client o.array o.t o.j o.rows [] false none
  obtain ⟨hfound, hcount⟩ := h.of_runs ((Dev.Runs.refl _ [] []).settle)
  exact ⟨hfound, hcount⟩

theorem gives_readDeadline_off (hop : s.dev.op? id = some o) (hms : s.dev.rd (Reg.AR_DEADLINE_ms.ix o.array) = 0) :
    Gives (.readDeadline id) s fun e => Frame s.dev e [] [] := by
  refine gives_same_of_eq (f := fun d => d.readDeadline id) rfl ?_
  unfold Dev.readDeadline
  simp only [hop, hms, ne_eq, not_true_eq_false, decide_false, Bool.and_false, Bool.false_and, Bool.not_false, if_true]

end

/-! ### O37 -/

/-- Settles O37: each step of a destage, by what it hands on: the job, the unit read, the marked record, the retired one,
the bypassed read. -/
theorem destageSteps : Obligations.DestageSteps := by
  unfold Obligations.DestageSteps
  intro a t id s
  refine ⟨fun ha => gives_streamHoldExpire ha, fun r hup hnext hfull hnew hgood => ?_,
    fun o x y hop hread hdone hclient hy hk hgen hneed => gives_memberReadDone_parity hop hread hdone hclient hy hk hgen hneed,
    fun o i hop hwrite hdone hclient hi hlost => ⟨fun hopen => gives_memberWriteDone_open hop hwrite hdone hclient hi hlost hopen,
      fun hall hkind howed hrep => gives_memberWriteDone_last hop hwrite hdone hclient hi hlost hall hkind howed hrep⟩,
    fun o adm hop hclient => ⟨fun hst hby hms hout => gives_readDeadline_bypass hop hclient hst hby hms hout,
      fun hms => gives_readDeadline_off hop hms⟩⟩
  exact (gives_destageStart_whole hup hnext hfull hnew hgood).mono fun e he => ⟨he.jobs, he.blocks, he.destage, he.frame⟩

end Sys2Proof
end

section
/-! A walk over an array whose spares count exceeds its 16 slot registers (R212, R216): slot 20's member is read where the
walk's cursor AR_RBLD_CUR is written, so that taking up a stripe changes where its units are to go. -/

set_option Elab.async false

namespace Sys2Proof

open Sys2Proof.Machine

/-- The array's code and its 21 spares, with slot 20 ACTIVE and the cursor at 11, which slot 20 names as its member. -/
def cursorFields : List (Fld × Nat) :=
  [(Reg.AR_CFG_k.ix 0, 1), (Reg.AR_CFG_m.ix 0, 1), (Reg.AR_CFG_spares.ix 0, 21), ((Reg.AR_SLOT_state.ix 0).ix 20, slActive),
   (Reg.AR_RBLD_CUR_cycle.ix 0, 11)]

/-- Array 0 has 23 members, of which member 11 is FAILED, and a rebuild walks over its one cycle. -/
def cursorWalkState : State :=
  let d := cursorFields.foldl (fun d p => d.wr p.1 p.2) State.reset.dev
  let d := forEach (List.range 23) (fun i d =>
    (d.setMemberPort 0 i 0).wr ((Reg.AR_MSTATE_state.ix 0).ix i) (if i = 11 then msFailed else msOk)) d
  { State.reset with dev := { d with
    mnt := { d.mnt with acts := [⟨.rebuild, 0, .running⟩] }
    lay := { d.lay with arrs := [(0, { cycles := 1, walk := some ⟨1, 0, 0, 0, 0, 0, 0, 0, [], 0⟩ })] } } }

/-- Refutes O47: the unit of member 11 has its spare entry on member 7, but the walk records no unit there once it has
written its cursor. -/
theorem not_restoringUnits : ¬ Obligations.RestoringUnits := by
  intro h
  obtain ⟨hwalk, -, -, -⟩ := h 0 0 0 0 0 0 0 0 [] cursorWalkState (by decide) (by decide)
  obtain ⟨hfresh, -⟩ := hwalk ⟨1, 0, 0, 0, 0, 0, 0, 0, [], 0⟩ (by decide +kernel) (by decide +kernel) (by decide +kernel) (by decide)
    (by decide +kernel) (by decide +kernel) (by decide +kernel)
  obtain ⟨hrec, -⟩ := (hfresh (by decide +kernel)).devAfter
  exact absurd (hrec (1, 7) (by decide +kernel) (by decide +kernel)) (by decide +kernel)

end Sys2Proof
end

section
/-! SMC's walker (R189, R193, R197): tables with rising keys, and what an invalidate-all's walk leaves of the sets. -/

set_option Elab.async false

namespace Sys2Proof

open Sys2Proof.Machine

namespace Machine

/-! ### Tables with rising keys -/

section

variable {α : Type}

/-- A table's keys rise. -/
def Tbl.Rising (m : Tbl α) : Prop := m.Pairwise fun x y => x.1 < y.1

theorem Tbl.mem_put {m : Tbl α} {k : Nat} {v : α} {p : Nat × α} (h : p ∈ Tbl.put m k v) : p = (k, v) ∨ p ∈ m := by
  induction m with
  | nil => exact .inl (List.mem_singleton.1 h)
  | cons q r ih =>
    rw [Tbl.put] at h
    split at h
    · exact List.mem_cons.1 h
    split at h
    · exact (List.mem_cons.1 h).imp_right (List.mem_cons_of_mem _)
    · rcases List.mem_cons.1 h with h | h
      · exact .inr (h ▸ List.mem_cons_self)
      · exact (ih h).imp_right (List.mem_cons_of_mem _)

theorem Tbl.Rising.put {m : Tbl α} (h : Tbl.Rising m) (k : Nat) (v : α) : Tbl.Rising (Tbl.put m k v) := by
  induction m with
  | nil => exact List.pairwise_singleton _ _
  | cons q r ih =>
    obtain ⟨hq, hr⟩ := List.pairwise_cons.1 h
    rw [Tbl.put]
    split
    · next hlt =>
      refine List.pairwise_cons.2 ⟨fun p hp => ?_, h⟩
      rcases List.mem_cons.1 hp with rfl | hp
      · exact hlt
      · exact hlt.trans (hq p hp)
    split
    · next heq => exact List.pairwise_cons.2 ⟨fun p hp => by subst heq; exact hq p hp, hr⟩
    · next hnlt hne =>
      refine List.pairwise_cons.2 ⟨fun p hp => ?_, ih hr⟩
      rcases Tbl.mem_put hp with rfl | hp
      · show q.1 < k
        omega
      · exact hq p hp

theorem Tbl.Rising.putD [DecidableEq α] {m : Tbl α} (h : Tbl.Rising m) (k : Nat) (v dflt : α) : Tbl.Rising (Tbl.putD m k v dflt) := by
  unfold Tbl.putD
  split
  · exact List.Pairwise.filter _ h
  · exact h.put k v

theorem Tbl.mem_putD [DecidableEq α] {m : Tbl α} {k : Nat} {v dflt : α} {p : Nat × α} (h : p ∈ Tbl.putD m k v dflt) :
    p = (k, v) ∨ p ∈ m := by
  unfold Tbl.putD at h
  split at h
  · exact .inr (List.mem_filter.1 h).1
  · exact Tbl.mem_put h

theorem Tbl.Rising.get?_of_mem {m : Tbl α} (h : Tbl.Rising m) {p : Nat × α} (hp : p ∈ m) : Tbl.get? m p.1 = some p.2 := by
  induction m with
  | nil => exact absurd hp (by simp)
  | cons q r ih =>
    obtain ⟨hq, hr⟩ := List.pairwise_cons.1 h
    rcases List.mem_cons.1 hp with rfl | hp
    · exact if_pos rfl
    · rw [Tbl.get?, if_neg (Nat.ne_of_gt (hq p hp))]
      exact ih hr hp

/-- The first entry of a table with rising keys that passes a test: entries below it do not. -/
theorem Tbl.Rising.find?_below {m : Tbl α} (h : Tbl.Rising m) {t : Nat × α → Bool} {x y : Nat × α} (hx : m.find? t = some x)
    (hy : y ∈ m) (hlt : y.1 < x.1) : t y = false := by
  obtain ⟨-, xs, ys, hm, hxs⟩ := List.find?_eq_some_iff_append.1 hx
  subst hm
  rcases List.mem_append.1 hy with hy | hy
  · simpa using hxs y hy
  · obtain ⟨hx', -⟩ := List.pairwise_cons.1 (List.pairwise_append.1 h).2.1
    rcases List.mem_cons.1 hy with rfl | hy
    · exact absurd hlt (Nat.lt_irrefl _)
    · exact absurd (hx' y hy) (Nat.lt_asymm hlt)

end

/-! ### The walk -/

variable {d d0 e : Dev} {ks : List Nat} {n : Nat}

/-- What the walk keeps: the walker takes lines, the sets' keys rise among the given ones, and every dirty line is in the
buffer or still in its set. -/
structure Dev.Walking (ks : List Nat) (d0 d : Dev) : Prop where
  takes : d.walkTakes = true
  rising : Tbl.Rising d.smc.sets
  keys : ∀ p ∈ d.smc.sets, p.1 ∈ ks
  held : ∀ i, ∀ w ∈ (d0.smcSet i).ways, w.dirty = true → w.reserved = false →
    (⟨w.la, w.data⟩ : EvEntry) ∈ d.smc.evict ∨ w ∈ (d.smcSet i).ways

/-- The sets below n hold lines being filled only. -/
def Dev.CleanBelow (d : Dev) (n : Nat) : Prop := ∀ i, i < n → ∀ w ∈ (d.smcSet i).ways, w.reserved = true

/-- Steps that a walk from set n may still take. -/
def Dev.walkLeft (d : Dev) (ks : List Nat) (n : Nat) : Nat :=
  (ks.map fun k => if n ≤ k then (d.smcSet k).ways.length + 1 else 0).sum

/-- What a walk leaves: every line but those being filled is gone below the set it stands at, and it stands for a full buffer
only. -/
structure Dev.Walked (d0 e : Dev) : Prop where
  clean : ∀ i, ∀ w ∈ (e.smcSet i).ways, w.reserved = true ∨ ∃ n, e.smc.walkSet = some n ∧ n ≤ i ∧ 16 ≤ e.smc.evict.length
  held : ∀ i, ∀ w ∈ (d0.smcSet i).ways, w.dirty = true → w.reserved = false →
    (⟨w.la, w.data⟩ : EvEntry) ∈ e.smc.evict ∨ w ∈ (e.smcSet i).ways

/-- The walk's test of a set: at n or above, with a line that it takes. -/
def walkTest (n : Nat) (p : Nat × SmcSet) : Bool := decide (n ≤ p.1) && p.2.ways.any fun w => !w.reserved

theorem walkTest_ways {p : Nat × SmcSet} (h : walkTest n p = false) (hn : n ≤ p.1) : ∀ w ∈ p.2.ways, w.reserved = true := by
  intro w hw
  have hall : (p.2.ways.any fun w => !w.reserved) = false := by simpa [walkTest, hn] using h
  simpa using List.any_eq_false.1 hall w hw

/-- A set whose entry, if any, does not pass the test holds lines being filled only. -/
theorem Dev.reserved_of_test {i : Nat} (hi : n ≤ i) (h : ∀ y ∈ d.smc.sets, y.1 = i → walkTest n y = false) :
    ∀ w ∈ (d.smcSet i).ways, w.reserved = true := by
  intro w hw
  unfold Dev.smcSet Tbl.getD at hw
  cases hget : Tbl.get? d.smc.sets i with
  | none =>
    rw [hget] at hw
    exact absurd hw (by simp)
  | some s =>
    rw [hget] at hw
    exact walkTest_ways (h (i, s) (Tbl.mem_of_get?_eq hget) rfl) hi w hw

namespace Dev.Walking

variable (h : Dev.Walking ks d0 d)
include h

theorem smcSet_of_mem {p : Nat × SmcSet} (hp : p ∈ d.smc.sets) : d.smcSet p.1 = p.2 := by
  rw [Dev.smcSet, Tbl.getD, h.rising.get?_of_mem hp, Option.getD_some]

/-- The sets below the one the walk takes up next are clean. -/
theorem cleanBelow {x : Nat × SmcSet} (hclean : d.CleanBelow n) (hx : d.smc.sets.find? (walkTest n) = some x) :
    d.CleanBelow x.1 := by
  intro i hi
  by_cases hn : i < n
  · exact hclean i hn
  · exact Dev.reserved_of_test (Nat.le_of_not_lt hn) fun y hy hyi => h.rising.find?_below hx hy (hyi ▸ hi)

/-- The walk is over when no set passes its test. -/
theorem walked_of_none (hclean : d.CleanBelow n) (hx : d.smc.sets.find? (walkTest n) = none) (m : Option Nat) :
    Dev.Walked d0 { d with smc := { d.smc with walkSet := m } } where
  clean i w hw := by
    refine .inl ?_
    by_cases hn : i < n
    · exact hclean i hn w hw
    · exact Dev.reserved_of_test (Nat.le_of_not_lt hn) (fun y hy _ => by simpa using List.find?_eq_none.1 hx y hy) w hw
  held := h.held

/-- The walk stands still at a set while the buffer is full. -/
theorem walked_of_full (hclean : d.CleanBelow n) (hfull : 16 ≤ d.smc.evict.length) :
    Dev.Walked d0 { d with smc := { d.smc with walkSet := some n } } where
  clean i w hw := by
    by_cases hn : i < n
    · exact .inl (hclean i hn w hw)
    · exact .inr ⟨n, rfl, Nat.le_of_not_lt hn, hfull⟩
  held := h.held

end Dev.Walking

/-! ### One step -/

/-- A set is replaced, with what then stands in the buffer, and the walk stands at m. -/
def Dev.walkPut (d : Dev) (n : Nat) (s : SmcSet) (ev : List EvEntry) (m : Nat) : Dev :=
  { d with smc := { d.smc with evict := ev, walkSet := some m, sets := Tbl.putD d.smc.sets n s {} } }

theorem Dev.walkPut_same (d : Dev) (n : Nat) (s : SmcSet) (ev : List EvEntry) (m : Nat) : (d.walkPut n s ev m).smcSet n = s :=
  Tbl.getD_putD_same _ _ _ _

theorem Dev.walkPut_other (d : Dev) {n i : Nat} (s : SmcSet) (ev : List EvEntry) (m : Nat) (h : i ≠ n) :
    (d.walkPut n s ev m).smcSet i = d.smcSet i := Tbl.getD_putD_other _ _ _ _ _ _ h

namespace Dev.Walking

variable (h : Dev.Walking ks d0 d)
include h

theorem walkPut {p : Nat × SmcSet} (hp : p ∈ d.smc.sets) (s : SmcSet) {ev : List EvEntry} (m : Nat) (hev : ∀ x ∈ d.smc.evict, x ∈ ev)
    (hways : ∀ w ∈ p.2.ways, w.dirty = true → w.reserved = false → (⟨w.la, w.data⟩ : EvEntry) ∈ ev ∨ w ∈ s.ways) :
    Dev.Walking ks d0 (d.walkPut p.1 s ev m) where
  takes := h.takes
  rising := h.rising.putD _ _ _
  keys q hq := by
    rcases Tbl.mem_putD hq with rfl | hq
    · exact h.keys p hp
    · exact h.keys q hq
  held i w hw hd hr := by
    rcases h.held i w hw hd hr with hin | hin
    · exact .inl (hev _ hin)
    · by_cases hi : i = p.1
      · subst hi
        rw [Dev.walkPut_same]
        rw [h.smcSet_of_mem hp] at hin
        exact hways w hin hd hr
      · rw [Dev.walkPut_other _ _ _ _ hi]
        exact .inr hin

/-- A step that shortens the set it stands at, or leaves it behind, leaves fewer steps. -/
theorem walkLeft_walkPut {p : Nat × SmcSet} (hp : p ∈ d.smc.sets) {s : SmcSet} {ev : List EvEntry} {m : Nat} (hn : n ≤ p.1)
    (hm : p.1 ≤ m) (hless : p.1 < m ∨ s.ways.length < p.2.ways.length) :
    (d.walkPut p.1 s ev m).walkLeft ks m < d.walkLeft ks n := by
  have hset := h.smcSet_of_mem hp
  have hstep : (if m ≤ p.1 then ((d.walkPut p.1 s ev m).smcSet p.1).ways.length + 1 else 0) <
      if n ≤ p.1 then (d.smcSet p.1).ways.length + 1 else 0 := by
    rw [Dev.walkPut_same, hset, if_pos hn]
    split
    · omega
    · omega
  refine List.sum_lt_sum _ _ (fun k _ => ?_) ⟨p.1, h.keys p hp, hstep⟩
  by_cases hk : k = p.1
  · exact hk ▸ hstep.le
  · rw [Dev.walkPut_other _ _ _ _ hk]
    split
    · rw [if_pos (by omega)]
    · exact Nat.zero_le _

end Dev.Walking

theorem Dev.CleanBelow.walkPut (h : d.CleanBelow n) (s : SmcSet) (ev : List EvEntry) {m : Nat}
    (hs : n < m → m = n + 1 ∧ ∀ w ∈ s.ways, w.reserved = true) : (d.walkPut n s ev m).CleanBelow m := by
  intro i hi w hw
  by_cases hin : i = n
  · subst hin
    rw [Dev.walkPut_same] at hw
    exact (hs hi).2 w hw
  · rw [Dev.walkPut_other _ _ _ _ hin] at hw
    refine h i ?_ w hw
    by_contra hge
    have := (hs (by omega)).1
    omega

/-- The walk goes on until no set passes its test or the buffer is full. -/
theorem Dev.walkSteps_walked : ∀ (fuel : Nat) {d : Dev} {n : Nat}, Dev.Walking ks d0 d → d.smc.walkSet = some n → d.CleanBelow n →
    d.walkLeft ks n < fuel → Dev.Walked d0 (Dev.walkSteps fuel d)
  | 0, _, _, _, _, _, hfuel => absurd hfuel (Nat.not_lt_zero _)
  | fuel + 1, d, n, h, hset, hclean, hfuel => by
    have htest : (fun p : Nat × SmcSet => decide (n ≤ p.1) && p.2.ways.any fun w => !w.reserved && (d.walkTakes || w.dirty)) =
        walkTest n := by
      funext p
      simp [walkTest, h.takes]
    rw [Dev.walkSteps]
    simp only [hset, htest]
    cases hfind : d.smc.sets.find? (walkTest n) with
    | none => exact h.walked_of_none hclean hfind none
    | some p =>
      have hp : p ∈ d.smc.sets := List.mem_of_find?_eq_some hfind
      have hn : n ≤ p.1 := by
        have := List.find?_some hfind
        simp only [walkTest, Bool.and_eq_true, decide_eq_true_eq] at this
        exact this.1
      have hbelow := h.cleanBelow hclean hfind
      dsimp only
      cases hdirty : p.2.ways.find? (fun w => w.dirty && !w.reserved) with
      | none =>
        have hclean' : ∀ w ∈ p.2.ways.filter Way.reserved, w.reserved = true := fun w hw => (List.mem_filter.1 hw).2
        have hways : ∀ w ∈ p.2.ways, w.dirty = true → w.reserved = false →
            (⟨w.la, w.data⟩ : EvEntry) ∈ d.smc.evict ∨ w ∈ p.2.ways.filter Way.reserved := by
          intro w hw hd hr
          have := List.find?_eq_none.1 hdirty w hw
          simp [hd, hr] at this
        have hleft := h.walkLeft_walkPut (s := { p.2 with ways := p.2.ways.filter Way.reserved }) (ev := d.smc.evict) hp hn
          (Nat.le_succ p.1) (.inl (Nat.lt_succ_self _))
        exact Dev.walkSteps_walked fuel (h.walkPut hp { p.2 with ways := p.2.ways.filter Way.reserved } (p.1 + 1) (fun _ hx => hx) hways)
          rfl (hbelow.walkPut _ _ fun _ => ⟨rfl, hclean'⟩) (lt_of_lt_of_le hleft (Nat.le_of_lt_succ hfuel))
      | some w =>
        dsimp only
        have hw : w ∈ p.2.ways := List.mem_of_find?_eq_some hdirty
        by_cases hfull : evictSlots ≤ d.smc.evict.length
        · rw [if_pos hfull]
          exact h.walked_of_full hbelow hfull
        · rw [if_neg hfull, if_pos h.takes]
          have hways : ∀ y ∈ p.2.ways, y.dirty = true → y.reserved = false →
              (⟨y.la, y.data⟩ : EvEntry) ∈ d.smc.evict ++ [⟨w.la, w.data⟩] ∨ y ∈ p.2.ways.erase w := by
            intro y hy _ _
            by_cases hyw : y = w
            · subst hyw
              exact .inl (by simp)
            · exact .inr ((List.mem_erase_of_ne hyw).2 hy)
          have hlen : (p.2.ways.erase w).length < p.2.ways.length := by
            rw [List.length_erase_of_mem hw]
            have := List.length_pos_of_mem hw
            omega
          have hleft := h.walkLeft_walkPut (s := { p.2 with ways := p.2.ways.erase w }) (ev := d.smc.evict ++ [⟨w.la, w.data⟩]) hp hn
            (Nat.le_refl p.1) (.inr hlen)
          exact Dev.walkSteps_walked fuel (h.walkPut hp { p.2 with ways := p.2.ways.erase w } p.1 (fun _ hx => List.mem_append_left _ hx)
            hways) rfl (hbelow.walkPut _ _ fun hlt => absurd hlt (Nat.lt_irrefl _)) (lt_of_lt_of_le hleft (Nat.le_of_lt_succ hfuel))

/-- What any walk keeps: the entries of the buffer, its bound of sixteen, and what is taken with it. -/
structure Dev.WalkKept (d e : Dev) : Prop where
  inv : e.smc.invWalk = d.smc.invWalk
  rekey : e.smc.rekeyRunning = d.smc.rekeyRunning
  pending : e.smc.rekeyPending = d.smc.rekeyPending
  evict : d.smc.evict <+: e.smc.evict
  bound : e.smc.evict.length ≤ max 16 d.smc.evict.length

theorem Dev.WalkKept.refl (d : Dev) : Dev.WalkKept d d := ⟨rfl, rfl, rfl, List.prefix_rfl, Nat.le_max_right _ _⟩

theorem Dev.WalkKept.trans {a b c : Dev} (h : Dev.WalkKept a b) (k : Dev.WalkKept b c) : Dev.WalkKept a c :=
  ⟨k.inv.trans h.inv, k.rekey.trans h.rekey, k.pending.trans h.pending, h.evict.trans k.evict, by have := h.bound; have := k.bound; omega⟩

theorem Dev.walkSteps_kept : ∀ (fuel : Nat) (d : Dev), Dev.WalkKept d (Dev.walkSteps fuel d)
  | 0, d => .refl d
  | fuel + 1, d => by
    have hadd (s : Tbl SmcSet) (n : Option Nat) (x : EvEntry) (h : ¬ evictSlots ≤ d.smc.evict.length) :
        Dev.WalkKept d { d with smc := { d.smc with evict := d.smc.evict ++ [x], walkSet := n, sets := s } } := by
      refine ⟨rfl, rfl, rfl, List.prefix_append _ _, ?_⟩
      simp only [List.length_append, List.length_singleton]
      unfold evictSlots at h
      omega
    have hput (s : Tbl SmcSet) (n : Option Nat) : Dev.WalkKept d { d with smc := { d.smc with walkSet := n, sets := s } } :=
      ⟨rfl, rfl, rfl, List.prefix_rfl, Nat.le_max_right _ _⟩
    rw [Dev.walkSteps]
    split
    · exact .refl d
    · dsimp only
      split
      · exact hput _ _
      · split
        · split
          · exact hput _ _
          · next hroom => exact (hadd _ _ _ hroom).trans (Dev.walkSteps_kept fuel _)
        · exact (hput _ _).trans (Dev.walkSteps_kept fuel _)

end Machine

end Sys2Proof
end

section
/-! Control of SMC (R193 to R200): invalidate-all, re-key, self-test, reset invalidation, the hot sample; and what the requests
that then go on leave. -/

set_option Elab.async false

namespace Sys2Proof

open Sys2Proof.Machine

namespace Machine

variable {a d e : Dev} {fs : List Fld} {ps : List Part}

theorem Dev.Woken.runs (h : Dev.Woken d e) (fs : List Fld) (ps : List Part) : Dev.Runs d e fs ps :=
  ⟨.of_woken h fs ps, .same h.nt h.emitted⟩

theorem Dev.Woken.smc (h : Dev.Woken d e) : e.smc = d.smc := by rw [h.same]

theorem Dev.Runs.setSmc (h : Dev.Runs a d fs ps) (x : SmcState) (hp : Part.smc ∈ ps := by decide) :
    Dev.Runs a { d with smc := x } fs ps := ⟨h.frame.setSmc x hp, h.grows.trans (.same rfl rfl)⟩

theorem Dev.Runs.refuse (h : Dev.Runs a d fs ps) (b : Blk) : Dev.Runs a (d.refuse b) fs ps := h.causeBit b 3

/-! ### Requests that go on -/

/-- Requests that are looked up leave the key and take back no cause. -/
structure Dev.Looked (d e : Dev) : Prop where
  key : e.rd Reg.SMC_KEY_key = d.rd Reg.SMC_KEY_key
  grows : Dev.Grows d e

namespace Dev.Looked

theorem refl (d : Dev) : Dev.Looked d d := ⟨rfl, .refl d⟩

theorem ite {p : Prop} [Decidable p] {b c : Dev} (h : Dev.Looked d b) (k : Dev.Looked d c) : Dev.Looked d (if p then b else c) := by
  split <;> assumption

theorem forEach {α : Type} {f : α → Dev → Dev} (xs : List α) (h : Dev.Looked a d)
    (hf : ∀ x e, Dev.Looked a e → Dev.Looked a (f x e)) : Dev.Looked a (Machine.forEach xs f d) :=
  forEach_induct (P := Dev.Looked a) (fun x e he => hf x e he) xs d h

section

variable (h : Dev.Looked a d)
include h

theorem updSmc (g : SmcState → SmcState) : Dev.Looked a (d.updSmc g) := ⟨h.key, h.grows.trans (.same rfl rfl)⟩

theorem updDram (g : Dram → Dram) : Dev.Looked a (d.updDram g) := ⟨h.key, h.grows.trans (.same rfl rfl)⟩

theorem updPwc (g : PwcState → PwcState) : Dev.Looked a (d.updPwc g) := ⟨h.key, h.grows.trans (.same rfl rfl)⟩

theorem wr (f : Fld) (v : Nat) (hf : Reg.SMC_KEY_key.key ≠ f.key := by decide) : Dev.Looked a (d.wr f v) :=
  ⟨(Dev.rd_wr_other _ _ _ _ hf).trans h.key, h.grows.trans (d.wr_grows _ _)⟩

/-- The counters of the requesters, whichever it is, lie beyond the key. -/
theorem incWrap_ix (f : Fld) (r n : Nat) (hf : Reg.SMC_KEY_key.key < f.key := by decide) : Dev.Looked a (d.incWrap (f.ix r) n) :=
  h.wr _ _ (by have := f.ix_key r; omega)

theorem emit (x : Emit) : Dev.Looked a (d.emit x) := ⟨h.key, h.grows.trans (d.emit_grows x)⟩

theorem smcCount (q : SmcReq) (hit : Bool) : Dev.Looked a (d.smcCount q hit) :=
  .ite h (.ite (h.incWrap_ix _ _ _) ((h.incWrap_ix _ _ _).updSmc _))

theorem writeGroupLine (g : Group) (la : Nat) (data : Bytes) : Dev.Looked a (d.writeGroupLine g la data) :=
  .ite h (.ite (h.updPwc _) (h.updDram _))

theorem setLine (la : Nat) (g : Way → Way) : Dev.Looked a (d.setLine la g) := by
  unfold Dev.setLine Dev.updSet
  exact h.updSmc _

theorem cleanLine (la : Nat) : Dev.Looked a (d.cleanLine la) := by
  unfold Dev.cleanLine
  split
  · next w _ =>
    have hwrite : Dev.Looked a (d.writeLine la w.data) := (h.writeGroupLine _ _ _).writeGroupLine _ _ _
    have hclean : Dev.Looked a ((d.writeLine la w.data).setLine la fun w => { w with dirty := false }) :=
      hwrite.setLine _ _
    exact hclean.updDram _
  · exact h

theorem journalRoom (la : Nat) : Dev.Looked a (d.journalRoom la) := by
  unfold Dev.journalRoom
  dsimp only
  split
  · split
    · exact h.cleanLine _
    · exact h
  · exact h

theorem smcWait (q : SmcReq) : Dev.Looked a (d.smcWait q) := h.updSmc _

theorem journal (q : SmcReq) (off : Nat) (data : Bytes) : Dev.Looked a (d.journal q off data) := by
  unfold Dev.journal
  exact (h.updDram _).updSmc _

theorem serveLine (q : SmcReq) (line : Bytes) : Dev.Looked a (d.serveLine q line) := by
  unfold Dev.serveLine
  split
  · exact h.emit _
  · exact .ite ((h.journalRoom _).smcWait _) ((h.journalRoom _).journal _ _ _)

theorem smcBypass (q : SmcReq) : Dev.Looked a (d.smcBypass q) := by
  unfold Dev.smcBypass
  exact ((h.smcCount q false).wr _ _).serveLine _ _

theorem takeWay (la w : Nat) (old : Option Way) (new : Way) : Dev.Looked a (d.takeWay la w old new) := by
  unfold Dev.takeWay
  cases old with
  | none => exact h.updSmc _
  | some x => exact (h.updSmc _).updSmc _

theorem startFill (la w : Nat) (old : Option Way) (prefetch : Bool) (reqs : List SmcReq) :
    Dev.Looked a (d.startFill la w old prefetch reqs) := by
  unfold Dev.startFill
  exact ((h.takeWay _ _ _ _).updSmc _).emit _

theorem prefetchLine (r la : Nat) : Dev.Looked a (d.prefetchLine r la) := by
  unfold Dev.prefetchLine
  split
  · exact h
  split
  · exact .ite h (h.startFill _ _ _ _ _)
  · exact h

theorem train (r la : Nat) (miss : Bool) : Dev.Looked a (d.train r la miss) := by
  unfold Dev.train
  extract_lets xs now w
  have hw : Dev.Looked a w := h.updSmc _
  split
  · extract_lets x x' v
    have hv : Dev.Looked a v := hw.updSmc _
    exact .ite (.forEach _ hv fun n e he => .ite (he.prefetchLine _ _) he) hv
  · exact .ite hw (hw.updSmc _)

theorem smcTrain (q : SmcReq) (miss : Bool) : Dev.Looked a (d.smcTrain q miss) := .ite h (h.train _ _ _)

theorem demandMiss (q : SmcReq) : Dev.Looked a (d.demandMiss q) := by
  unfold Dev.demandMiss
  refine .ite ((h.smcBypass q).smcTrain _ _) (.ite (h.smcWait q) ?_)
  split
  · exact (h.smcBypass q).smcTrain _ _
  · exact .ite (h.smcWait q) (((h.smcCount q false).startFill _ _ _ _ _).smcTrain _ _)

theorem secondaryMiss (q : SmcReq) (m : MissReg) : Dev.Looked a (d.secondaryMiss q m) := by
  unfold Dev.secondaryMiss
  exact .ite (((h.smcCount q false).updSmc _).smcTrain _ _) (.ite (h.smcWait q) (((h.smcCount q false).smcWait _).smcTrain _ _))

theorem reclaim (q : SmcReq) (x : EvEntry) (w : Nat) : Dev.Looked a (d.reclaim q x w) := by
  unfold Dev.reclaim
  exact ((h.updSmc _).takeWay _ _ _ _).wr _ _

theorem smcLookup (q : SmcReq) : Dev.Looked a (d.smcLookup q) := by
  unfold Dev.smcLookup
  refine .ite (.ite (h.smcWait q) (h.smcBypass q)) ?_
  split
  · exact h.secondaryMiss q _
  refine .ite (h.smcWait q) ?_
  split
  · exact ((h.smcCount q true).serveLine _ _).smcTrain _ _
  split
  · exact h.demandMiss q
  split
  · exact ((h.smcCount q true).serveLine _ _).smcTrain _ _
  dsimp only
  split
  · exact (((h.reclaim q _ _).smcCount q true).serveLine _ _).smcTrain _ _
  · exact h.smcWait q

theorem smcRetry : Dev.Looked a d.smcRetry := .forEach _ (h.updSmc _) fun q _ he => he.smcLookup q

end

end Dev.Looked

/-! ### Invalidate-all -/

theorem Dev.smcWalkFrom0_kept (d : Dev) : Dev.WalkKept d d.smcWalkFrom0 := by
  have hset : Dev.WalkKept d { d with smc := { d.smc with walkSet := some 0 } } :=
    ⟨rfl, rfl, rfl, List.prefix_rfl, Nat.le_max_right _ _⟩
  unfold Dev.smcWalkFrom0 Dev.smcWalk
  exact hset.trans (Dev.walkSteps_kept _ _)

theorem Dev.smcWalkFrom0_runs (d : Dev) : Dev.Runs d d.smcWalkFrom0 [] [.smc] := by
  obtain ⟨x, hx⟩ := Dev.walkSteps_smc ((d.smc.sets.map fun p => p.2.ways.length + 1).sum + 1)
    { d with smc := { d.smc with walkSet := some 0 } }
  have heq : d.smcWalkFrom0 = { d with smc := x } := hx
  rw [heq]
  exact (Dev.Runs.refl _ _ _).setSmc _

/-- A walk over sets whose keys rise, with every line taken, leaves them as R193 says. -/
theorem Dev.smcWalkFrom0_walked (htakes : d.walkTakes = true) (hrising : Tbl.Rising d.smc.sets) : Dev.Walked d d.smcWalkFrom0 := by
  have hwalking : Dev.Walking (d.smc.sets.map Prod.fst) d { d with smc := { d.smc with walkSet := some 0 } } :=
    ⟨htakes, hrising, fun p hp => List.mem_map_of_mem hp, fun i w hw _ _ => .inr hw⟩
  have hleft : ({ d with smc := { d.smc with walkSet := some 0 } } : Dev).walkLeft (d.smc.sets.map Prod.fst) 0 =
      (d.smc.sets.map fun p => p.2.ways.length + 1).sum := by
    unfold Dev.walkLeft
    rw [List.map_map]
    refine congrArg List.sum (List.map_congr_left fun p hp => ?_)
    simp only [Function.comp_apply, Nat.zero_le, if_true, hwalking.smcSet_of_mem hp]
  unfold Dev.smcWalkFrom0 Dev.smcWalk
  exact Dev.walkSteps_walked _ hwalking rfl (fun i hi => absurd hi (Nat.not_lt_zero i)) (by rw [hleft]; exact Nat.lt_succ_self _)

/-- What an invalidate-all that is taken up does. -/
structure InvalidateBegun (d e : Dev) : Prop where
  inv : e.smc.invWalk = true
  evict : d.smc.evict <+: e.smc.evict
  bound : e.smc.evict.length ≤ max 16 d.smc.evict.length
  walked : Tbl.Rising d.smc.sets → Dev.Walked d e
  frame : Frame d e [] [.smc]

theorem Dev.smcInvStart_begun (hidle : d.smc.invWalk = false) (hstate : d.blkState .smc ≠ stDraining) : InvalidateBegun d d.smcInvStart := by
  have heq : d.smcInvStart = ({ d with smc := { d.smc with invWalk := true } } : Dev).smcWalkFrom0 := by simp [Dev.smcInvStart, hidle]
  rw [heq]
  have hkept := ({ d with smc := { d.smc with invWalk := true } } : Dev).smcWalkFrom0_kept
  have hruns := ((Dev.Runs.refl d [] [.smc]).setSmc { d.smc with invWalk := true }).trans
    ({ d with smc := { d.smc with invWalk := true } } : Dev).smcWalkFrom0_runs
  have htakes : ({ d with smc := { d.smc with invWalk := true } } : Dev).walkTakes = true :=
    decide_eq_true hstate
  refine ⟨hkept.inv, hkept.evict, hkept.bound, fun h => ?_, hruns.frame⟩
  obtain ⟨hclean, hheld⟩ := Dev.smcWalkFrom0_walked (d := { d with smc := { d.smc with invWalk := true } }) htakes h
  exact ⟨hclean, hheld⟩

end Machine

end Sys2Proof
end

section
/-! The commands that control SMC, each with its effect (R193 to R200, R230). -/

set_option Elab.async false

namespace Sys2Proof

open Sys2Proof.Machine

namespace Machine

variable {d e : Dev}

/-- What hot sampling finds: the largest count of misses is that of the set it picks. -/
theorem foldl_top (xs : List (Nat × Nat)) : ∀ b : Nat × Nat,
    (xs.foldl (fun (b : Nat × Nat) p => if b.2 < p.2 then p else b) b).2 = xs.foldl (fun m p => max m p.2) b.2 := by
  induction xs with
  | nil => exact fun _ => rfl
  | cons x xs ih =>
    intro b
    rw [List.foldl_cons, List.foldl_cons, ih]
    congr 1
    split
    · omega
    · omega

theorem Dev.Runs.setState {fs : List Fld} {ps : List Part} {a : Dev} (h : Dev.Runs a d fs ps) (b : Blk) (st : Nat) :
    Dev.Runs a (d.setState b st) fs ps := by
  refine ⟨h.frame.setState b st, h.grows.trans ?_⟩
  unfold Dev.setState
  split
  · exact .refl _
  · exact (d.wr_grows _ _).trans ((d.wr (Reg.BLK_STAT_state.ix b.page) st).causeBit_grows b 2)

theorem Dev.settle_smc (d : Dev) : d.settle.smc = d.smc := (Frame.refl d [] []).settle.part .smc

theorem Dev.powerOnKey_lt (d : Dev) : d.powerOnKey < 2 ^ 14 :=
  Nat.xor_lt_two_pow (Nat.mod_lt _ (by decide)) (Nat.mod_lt _ (by decide))

end Machine

section

variable {s : State}

/-! ### Invalidate-all -/

theorem hostGives_smcInvalidate_refused (h : s.dev.blkState .smc = stOff ∨ s.dev.blkState .smc = stFault) :
    HostGives 0 .smc .smcInvalidate s fun e => Raised e .smc 3 ∧ Frame s.dev e [] [] := by
  intro hreach
  refine gives_of_exec_eq_atFn (g := Dev.smcInvalidate) rfl hreach fun d hd => ?_
  have heq : d.smcInvalidate = d.refuse .smc := if_pos (by rw [hd.blkState]; exact h)
  rw [heq]
  exact ⟨Dev.settle_raised _ _ _ (d.refuse_raised _), ((hd.runs [] []).refuse .smc).settle.frame⟩

theorem hostGives_smcInvalidate_draining (h : s.dev.blkState .smc = stDraining) :
    HostGives 0 .smc .smcInvalidate s fun e => e.smc.invWalk = true ∧ Frame s.dev e [] [.smc] := by
  intro hreach
  refine gives_of_exec_eq_atFn (g := Dev.smcInvalidate) rfl hreach fun d hd => ?_
  have heq : d.smcInvalidate = d.updSmc fun s => { s with invWalk := true } := by
    unfold Dev.smcInvalidate
    simp only [hd.blkState, h]
    rfl
  rw [heq]
  have hruns : Dev.Runs s.dev (d.updSmc fun s => { s with invWalk := true }) [] [.smc] := (hd.runs [] [.smc]).setSmc _
  exact ⟨by rw [Dev.settle_smc]; rfl, hruns.settle.frame⟩

theorem hostGives_smcInvalidate (hstate : s.dev.blkState .smc = stIdle ∨ s.dev.blkState .smc = stActive)
    (hidle : s.dev.smc.invWalk = false) : HostGives 0 .smc .smcInvalidate s fun e => InvalidateBegun s.dev e := by
  intro hreach
  refine gives_of_exec_eq_atFn (g := Dev.smcInvalidate) rfl hreach fun d hd => ?_
  have hne : d.blkState .smc ≠ stDraining ∧ ¬ (d.blkState .smc = stOff ∨ d.blkState .smc = stFault) := by
    rw [hd.blkState]
    rcases hstate with h | h <;> rw [h] <;> decide
  have heq : d.smcInvalidate = d.smcInvStart := by
    unfold Dev.smcInvalidate
    rw [if_neg hne.2, if_neg hne.1]
  rw [heq]
  obtain ⟨hinv, hevict, hbound, hwalked, hframe⟩ := Dev.smcInvStart_begun (d := d) (by rw [hd.smc]; exact hidle) hne.1
  have hsmc : d.smcInvStart.settle.smc = d.smcInvStart.smc := Dev.settle_smc _
  rw [hd.smc] at hevict hbound hwalked
  refine ⟨by rw [hsmc]; exact hinv, by rw [hsmc]; exact hevict, by rw [hsmc]; exact hbound, fun h => ?_,
    ((Frame.of_woken hd _ _).trans hframe).settle⟩
  obtain ⟨hclean, hheld⟩ := hwalked h
  refine ⟨fun i w hw => ?_, fun i w hw hdirty hres => ?_⟩
  · rw [Dev.smcSet, hsmc] at hw
    rw [hsmc]
    exact hclean i w hw
  · rw [Dev.smcSet, hsmc]
    exact hheld i w (by rw [Dev.smcSet, hd.smc]; exact hw) hdirty hres

variable (hinv : s.dev.smc.invWalk = true) (hset : s.dev.smc.walkSet = none) (hevict : s.dev.smc.evict = [])
  (hdrain : s.dev.blkState .smc ≠ stDraining)
include hinv hset hevict hdrain

theorem Machine.Dev.invalidateDone_eq : s.dev.invalidateDone =
    if s.dev.smc.rekeyRunning && s.dev.smcHolds then s.dev.smcWalkFrom0
    else
      (if s.dev.smc.rekeyRunning then ((s.dev.updSmc fun s => { s with invWalk := false }).causeBit .smc 17).keySwitch
        else (s.dev.updSmc fun s => { s with invWalk := false }).causeBit .smc 17).smcRetry := by
  unfold Dev.invalidateDone
  rw [if_neg (by simp [hinv, hset, hevict, hdrain])]
  rfl

theorem gives_smcInvalidateDone (hkey : s.dev.smc.rekeyRunning = false) (hwait : s.dev.smc.waiting = []) :
    Gives .smcInvalidateDone s fun e => e.smc.invWalk = false ∧ Raised e .smc 17 ∧ Frame s.dev e [] [.smc] := by
  refine gives_of_exec_eq_act (f := Dev.invalidateDone) rfl ?_
  have hruns : Dev.Runs s.dev ((s.dev.updSmc fun s => { s with invWalk := false }).causeBit .smc 17) [] [.smc] :=
    ((Dev.Runs.refl _ _ _).setSmc _).causeBit _ _
  have hsmc : ((s.dev.updSmc fun s => { s with invWalk := false }).causeBit .smc 17).smc =
      { s.dev.smc with invWalk := false } := rfl
  have heq : s.dev.invalidateDone = (s.dev.updSmc fun s => { s with invWalk := false }).causeBit .smc 17 := by
    rw [Dev.invalidateDone_eq hinv hset hevict hdrain, hkey]
    exact smcRetry_of_none hwait
  rw [heq]
  exact ⟨by rw [Dev.settle_smc, hsmc], Dev.settle_raised _ _ _ (Dev.causeBit_raised _ _ _), hruns.settle.frame⟩

theorem gives_smcInvalidateDone_rekey (hkey : s.dev.smc.rekeyRunning = true) (hholds : s.dev.smcHolds = false) :
    Gives .smcInvalidateDone s fun e =>
      e.rd Reg.SMC_KEY_key = s.dev.rd Reg.SMC_KEY_next % 2 ^ 14 ∧ Raised e .smc 17 ∧ Raised e .smc 18 := by
  refine gives_of_exec_eq_act (f := Dev.invalidateDone) rfl ?_
  have heq : s.dev.invalidateDone = ((s.dev.updSmc fun s => { s with invWalk := false }).causeBit .smc 17).keySwitch.smcRetry := by
    rw [Dev.invalidateDone_eq hinv hset hevict hdrain, hkey, hholds]
    rfl
  rw [heq]
  generalize hx : (s.dev.updSmc fun s => { s with invWalk := false }).causeBit .smc 17 = x
  have hraised : Raised x .smc 17 := by rw [← hx]; exact Dev.causeBit_raised _ _ _
  have hnext : x.rd Reg.SMC_KEY_next = s.dev.rd Reg.SMC_KEY_next := by rw [← hx]; rfl
  generalize hy : (x.wr Reg.SMC_KEY_key (x.rd Reg.SMC_KEY_next)).updSmc (fun s => { s with rekeyRunning := false }) = y
  have hkeyY : y.rd Reg.SMC_KEY_key = s.dev.rd Reg.SMC_KEY_next % 2 ^ 14 := by
    rw [← hy, ← hnext]
    exact Dev.rd_wr_same _ _ _
  have hgrows : Dev.Grows x y := by rw [← hy]; exact .same rfl rfl
  have hswitch : x.keySwitch = (y.causeBit .smc 18).actEnd .smcRekey wholeDevice := by rw [← hy]; rfl
  have hsettled : Dev.Looked (y.causeBit .smc 18) (x.keySwitch.smcRetry.settle) := by
    rw [hswitch]
    have hend : Dev.Looked (y.causeBit .smc 18) ((y.causeBit .smc 18).actEnd .smcRekey wholeDevice) := ⟨rfl, .same rfl rfl⟩
    have hretry := hend.smcRetry
    exact ⟨(Dev.settle_rd _ _ (by decide)).trans hretry.key, hretry.grows.trans (Dev.settle_grows _)⟩
  refine ⟨?_, hsettled.grows.raised ((y.causeBit_grows _ _).raised (hgrows.raised hraised)),
    hsettled.grows.raised (Dev.causeBit_raised _ _ _)⟩
  rw [hsettled.key, Dev.causeBit_rd, hkeyY]

theorem gives_smcInvalidateDone_again (hkey : s.dev.smc.rekeyRunning = true) (hholds : s.dev.smcHolds = true) :
    Gives .smcInvalidateDone s fun e => e.smc.invWalk = true ∧ e.smc.rekeyRunning = true ∧ Frame s.dev e [] [.smc] := by
  refine gives_of_exec_eq_act (f := Dev.invalidateDone) rfl ?_
  have heq : s.dev.invalidateDone = s.dev.smcWalkFrom0 := by
    rw [Dev.invalidateDone_eq hinv hset hevict hdrain, hkey, hholds]
    rfl
  rw [heq]
  have hkept := s.dev.smcWalkFrom0_kept
  exact ⟨by rw [Dev.settle_smc, hkept.inv, hinv], by rw [Dev.settle_smc, hkept.rekey, hkey], s.dev.smcWalkFrom0_runs.settle.frame⟩

end

section

variable {s : State}

/-! ### Re-key -/

theorem hostGives_smcRekey_off (hpend : s.dev.smc.rekeyPending = false) (hrun : s.dev.smc.rekeyRunning = false)
    (hoff : s.dev.blkState .smc = stOff) : HostGives 0 .smc .smcRekey s fun e =>
      e.rd Reg.SMC_KEY_key = s.dev.rd Reg.SMC_KEY_next % 2 ^ 14 ∧ Raised e .smc 18 ∧ Frame s.dev e [Reg.SMC_KEY_key] [] := by
  intro hreach
  refine gives_of_exec_eq_atFn (g := Dev.smcRekeyGo) rfl hreach fun d hd => ?_
  have heq : d.smcRekeyGo = (d.wr Reg.SMC_KEY_key (d.rd Reg.SMC_KEY_next)).causeBit .smc 18 := by
    unfold Dev.smcRekeyGo
    rw [hd.smc, hpend, hrun, hd.blkState, hoff]
    rfl
  rw [heq]
  have hkey : (d.wr Reg.SMC_KEY_key (d.rd Reg.SMC_KEY_next)).rd Reg.SMC_KEY_key = d.rd Reg.SMC_KEY_next % 2 ^ 14 := Dev.rd_wr_same _ _ _
  refine ⟨?_, Dev.settle_raised _ _ _ (Dev.causeBit_raised _ _ _), (((hd.runs _ _).wr _ _).causeBit _ _).settle.frame⟩
  rw [Dev.settle_rd _ _ (by decide), Dev.causeBit_rd, hkey, hd.rd Reg.SMC_KEY_next]

/-- A re-key that has begun: asked for, granted, posted, and the invalidate-all is taken up. -/
theorem hostGives_smcRekey (hpend : s.dev.smc.rekeyPending = false) (hrun : s.dev.smc.rekeyRunning = false)
    (hon : s.dev.blkState .smc ≠ stOff) (hacts : s.dev.mnt.acts = []) (hccx : s.dev.blkState .ccx ≠ stFault) :
    HostGives 0 .smc .smcRekey s fun e => e.smc.rekeyRunning = true ∧ e.smc.rekeyPending = false ∧ e.smc.invWalk = true ∧
      (⟨.smcRekey, 0xFF, .running⟩ : Activity) ∈ e.mnt.acts ∧ Frame s.dev e [] [.smc, .mnt] := by
  intro hreach
  refine gives_of_exec_eq_atFn (g := Dev.smcRekeyGo) rfl hreach fun d hd => ?_
  have heq : d.smcRekeyGo = (d.updSmc fun s => { s with rekeyPending := true }).arbRequest .smcRekey wholeDevice := by
    unfold Dev.smcRekeyGo
    rw [hd.smc, hpend, hrun, hd.blkState, if_neg (by decide), if_neg hon]
  have hruns0 : Dev.Runs s.dev (d.updSmc fun s => { s with rekeyPending := true }) [] [.smc, .mnt] := (hd.runs _ _).setSmc _
  have hacts0 : (d.updSmc fun s => { s with rekeyPending := true }).mnt.acts = [] := (congrArg MntState.acts hd.mnt).trans hacts
  have hccx0 : (d.updSmc fun s => { s with rekeyPending := true }).blkState .ccx ≠ stFault := by
    show d.blkState .ccx ≠ stFault
    rw [hd.blkState]
    exact hccx
  rw [heq]
  generalize d.updSmc (fun s => { s with rekeyPending := true }) = w at *
  have hblock : w.blocker .smcRekey wholeDevice = none := by
    have hrun : w.running = [] := by rw [Dev.running, hacts0]; rfl
    simp [Dev.blocker, Act.ofArray, Dev.meeting, hrun, leastCode, Dev.condHolds, hccx0]
  rw [Dev.arbRequest_alone hacts0 _ _ hblock, Dev.actStart_alone hacts0 _ _ (by decide)]
  have hmnt : Dev.Runs s.dev { w with mnt := { w.mnt with acts := [⟨.smcRekey, wholeDevice, .running⟩] } } [] [.smc, .mnt] :=
    hruns0.setMnt _
  have hpost : Dev.Runs s.dev (({ w with mnt := { w.mnt with acts := [⟨.smcRekey, wholeDevice, .running⟩] } } : Dev).postStarted
      .smcRekey wholeDevice) [] [.smc, .mnt] := hmnt.post _ _ _ _ _ _ _
  have hpostMnt := (Dev.postStarted_reports ({ w with mnt := { w.mnt with acts := [⟨.smcRekey, wholeDevice, .running⟩] } } : Dev)
    .smcRekey wholeDevice).mnt
  generalize ({ w with mnt := { w.mnt with acts := [⟨.smcRekey, wholeDevice, .running⟩] } } : Dev).postStarted .smcRekey wholeDevice = v at *
  have hbegin : v.actBegin .smcRekey wholeDevice =
      ({ v with smc := { v.smc with rekeyPending := false, rekeyRunning := true } } : Dev).smcInvStart := rfl
  rw [hbegin]
  have hv : Dev.Runs s.dev { v with smc := { v.smc with rekeyPending := false, rekeyRunning := true } } [] [.smc, .mnt] := hpost.setSmc _
  have hvMnt : ({ v with smc := { v.smc with rekeyPending := false, rekeyRunning := true } } : Dev).mnt = v.mnt := rfl
  have hvRun : ({ v with smc := { v.smc with rekeyPending := false, rekeyRunning := true } } : Dev).smc.rekeyRunning = true ∧
    ({ v with smc := { v.smc with rekeyPending := false, rekeyRunning := true } } : Dev).smc.rekeyPending = false := ⟨rfl, rfl⟩
  generalize ({ v with smc := { v.smc with rekeyPending := false, rekeyRunning := true } } : Dev) = u at *
  have hstart : Dev.Runs u u.smcInvStart [] [.smc] ∧ u.smcInvStart.smc.rekeyRunning = true ∧ u.smcInvStart.smc.rekeyPending = false ∧
      u.smcInvStart.smc.invWalk = true := by
    unfold Dev.smcInvStart
    split
    · next h => exact ⟨.refl _ _ _, hvRun.1, hvRun.2, h⟩
    · have hset : Dev.Runs u { u with smc := { u.smc with invWalk := true } } [] [.smc] := (Dev.Runs.refl _ _ _).setSmc _
      have hkept := ({ u with smc := { u.smc with invWalk := true } } : Dev).smcWalkFrom0_kept
      exact ⟨hset.trans (Dev.smcWalkFrom0_runs _), hkept.rekey.trans hvRun.1, hkept.pending.trans hvRun.2, hkept.inv⟩
  obtain ⟨hwalk, hrekey, hpending, hinv⟩ := hstart
  refine ⟨by rw [Dev.settle_smc, hrekey], by rw [Dev.settle_smc, hpending], by rw [Dev.settle_smc, hinv], ?_, (hv.trans hwalk).settle.frame⟩
  have hend : u.smcInvStart.mnt = u.mnt := hwalk.frame.part .mnt
  rw [Dev.settle_mnt, hend, hvMnt, hpostMnt]
  exact List.mem_singleton_self _

/-! ### Self-test -/

theorem hostGives_smcBist_off (hidle : s.dev.smc.bistRunning = false) (hoff : s.dev.blkState .smc = stOff) :
    HostGives 0 .smc .smcBist s fun e => e.smc.bistRunning = true ∧ e.smc.sets = [] ∧ Frame s.dev e [] [.smc] := by
  intro hreach
  refine gives_of_exec_eq_atFn (g := Dev.smcBistGo) rfl hreach fun d hd => ?_
  have heq : d.smcBistGo = d.updSmc fun s => { s with bistRunning := true, sets := [] } := by
    unfold Dev.smcBistGo
    rw [hd.smc, hidle, hd.blkState, hoff]
    rfl
  rw [heq]
  have hruns : Dev.Runs s.dev (d.updSmc fun s => { s with bistRunning := true, sets := [] }) [] [.smc] := (hd.runs _ _).setSmc _
  exact ⟨by rw [Dev.settle_smc]; rfl, by rw [Dev.settle_smc]; rfl, hruns.settle.frame⟩

theorem hostGives_smcBist_busy (hidle : s.dev.smc.bistRunning = false) (hon : s.dev.blkState .smc ≠ stOff) :
    HostGives 0 .smc .smcBist s fun e =>
      e.rd Reg.SMC_BIST_result = bistBusy ∧ Raised e .smc 3 ∧ Frame s.dev e [Reg.SMC_BIST_result] [] := by
  intro hreach
  refine gives_of_exec_eq_atFn (g := Dev.smcBistGo) rfl hreach fun d hd => ?_
  have heq : d.smcBistGo = (d.wr Reg.SMC_BIST_result bistBusy).refuse .smc := by
    unfold Dev.smcBistGo
    rw [hd.smc, hidle, hd.blkState, if_neg (by decide), if_pos hon]
  rw [heq]
  have hbusy : (d.wr Reg.SMC_BIST_result bistBusy).rd Reg.SMC_BIST_result = bistBusy := Dev.rd_wr_same _ _ _
  refine ⟨?_, Dev.settle_raised _ _ _ (Dev.refuse_raised _ _), (((hd.runs _ _).wr _ _).refuse _).settle.frame⟩
  rw [Dev.settle_rd _ _ (by decide), Dev.refuse_rd, hbusy]

theorem gives_smcBistDone {pass : Bool} (hrun : s.dev.smc.bistRunning = true) : Gives (.smcBistDone pass) s fun e =>
    e.rd Reg.SMC_BIST_result = (if pass then bistPass else bistFail) ∧ e.smc.bistRunning = false ∧ Raised e .smc 20 ∧
      Frame s.dev e [Reg.SMC_BIST_result] [.smc] := by
  refine gives_of_exec_eq_act (f := fun d => d.smcBistDone pass) rfl ?_
  have hruns : Dev.Runs s.dev ((s.dev.updSmc fun s => { s with bistRunning := false, sets := [] }).causeBit .smc 20)
      [Reg.SMC_BIST_result] [.smc] := ((Dev.Runs.refl _ _ _).setSmc _).causeBit _ _
  have hraised := (s.dev.updSmc fun s => { s with bistRunning := false, sets := [] }).causeBit_raised .smc 20
  have hoff : ((s.dev.updSmc fun s => { s with bistRunning := false, sets := [] }).causeBit .smc 20).smc.bistRunning = false := rfl
  have heq : s.dev.smcBistDone pass =
      if pass then ((s.dev.updSmc fun s => { s with bistRunning := false, sets := [] }).causeBit .smc 20).wr Reg.SMC_BIST_result bistPass
      else (((s.dev.updSmc fun s => { s with bistRunning := false, sets := [] }).causeBit .smc 20).wr Reg.SMC_BIST_result
        bistFail).errUncorr .smc 6 := by
    unfold Dev.smcBistDone
    rw [hrun]
    rfl
  rw [heq]
  generalize (s.dev.updSmc fun s => { s with bistRunning := false, sets := [] }).causeBit .smc 20 = x at *
  have hshow (v : Nat) (hv : v % 2 ^ 2 = v) : (x.wr Reg.SMC_BIST_result v).rd Reg.SMC_BIST_result = v :=
    (Dev.rd_wr_same _ _ _).trans hv
  cases pass
  · have hend := (x.wr_grows Reg.SMC_BIST_result bistFail).trans ((Dev.errUncorr_grows _ .smc 6).trans (Dev.settle_grows _))
    have hsmc : ((x.wr Reg.SMC_BIST_result bistFail).errUncorr .smc 6).smc = x.smc :=
      ((Dev.Runs.refl (x.wr Reg.SMC_BIST_result bistFail) [] []).errUncorr .smc 6).frame.part .smc
    refine ⟨?_, by rw [Dev.settle_smc]; exact (congrArg SmcState.bistRunning hsmc).trans hoff, hend.raised hraised,
      ((hruns.wr _ _).errUncorr _ _).settle.frame⟩
    rw [Dev.settle_rd _ _ (by decide)]
    exact (Dev.errUncorr_rd _ _ _ _).trans (hshow bistFail (by decide))
  · have hend := (x.wr_grows Reg.SMC_BIST_result bistPass).trans (Dev.settle_grows _)
    refine ⟨?_, by rw [Dev.settle_smc]; exact hoff, hend.raised hraised, (hruns.wr _ _).settle.frame⟩
    rw [Dev.settle_rd _ _ (by decide)]
    exact hshow bistPass (by decide)

/-! ### Reset invalidation and the hot sample -/

theorem gives_smcResetInvalidation (hrun : s.dev.smc.resetInval = true) (hwait : s.dev.smc.waiting = []) :
    Gives .smcResetInvalidation s fun e => e.smc.resetInval = false ∧
      (s.dev.smc.newKey = true → e.rd Reg.SMC_KEY_key = s.dev.powerOnKey) ∧
      (s.dev.rd (Reg.BLK_CTRL_en.ix Blk.smc.page) ≠ 0 → s.dev.blkState .smc = stOff →
        e.blkState .smc = stIdle ∨ e.blkState .smc = stActive) ∧ Frame s.dev e [Reg.SMC_KEY_key] [.smc] := by
  refine gives_of_exec_eq_act (f := Dev.smcResetDone) rfl ?_
  unfold Dev.smcResetDone
  rw [hrun, Bool.not_true, if_neg Bool.false_ne_true]
  extract_lets w u up x
  have hw : Dev.Runs s.dev w [Reg.SMC_KEY_key] [.smc] := by
    have hkey := (Dev.Runs.refl s.dev [Reg.SMC_KEY_key] [.smc]).wr Reg.SMC_KEY_key s.dev.powerOnKey
    exact hkey.ite (.refl _ _ _)
  have hwkey (h : s.dev.smc.newKey = true) : w.rd Reg.SMC_KEY_key = s.dev.powerOnKey := by
    have heq : w = s.dev.wr Reg.SMC_KEY_key s.dev.powerOnKey := if_pos h
    rw [heq]
    exact (Dev.rd_wr_same _ _ _).trans (Nat.mod_eq_of_lt s.dev.powerOnKey_lt)
  have hwwait : w.smc.waiting = [] := by
    have hpart : w.smc = s.dev.smc := by unfold w; split <;> rfl
    rw [hpart, hwait]
  have hx : Dev.Runs s.dev x [Reg.SMC_KEY_key] [.smc] := (hw.setSmc _).setSmc _
  have hen : u.rd (Reg.BLK_CTRL_en.ix Blk.smc.page) = s.dev.rd (Reg.BLK_CTRL_en.ix Blk.smc.page) :=
    (hw.setSmc _).frame.rd _
  have hstate : u.blkState .smc = s.dev.blkState .smc := by
    show w.rd _ = s.dev.rd _
    unfold w
    split
    · exact Dev.rd_wr_other _ _ _ _ (by decide)
    · rfl
  have hsmc : (if up = true then x.setState .smc stIdle else x).smc = x.smc := by
    split
    · unfold Dev.setState
      split <;> rfl
    · rfl
  rw [smcRetry_of_none (by rw [hsmc]; exact hwwait)]
  have hend : Dev.Runs s.dev (if up = true then x.setState .smc stIdle else x) [Reg.SMC_KEY_key] [.smc] :=
    (hx.setState _ _).ite hx
  refine ⟨by rw [Dev.settle_smc, hsmc]; rfl, fun h => ?_, fun hon hoff => Dev.settle_blkState_on (.inl ?_), hend.settle.frame⟩
  · rw [Dev.settle_rd _ _ (by decide)]
    have hkey : x.rd Reg.SMC_KEY_key = s.dev.powerOnKey := hwkey h
    split
    · unfold Dev.setState
      split
      · exact hkey
      · exact (Dev.cause_rd _ _ _ _).trans ((Dev.rd_wr_other _ _ _ _ (by decide)).trans hkey)
    · exact hkey
  · have hup : up = true := by
      unfold up Dev.rdB
      rw [hen, hstate, hoff]
      simpa using hon
    rw [if_pos hup]
    exact Dev.setState_blkState_same _ _ (by decide)

theorem gives_smcHotSample (htotal : 0 < (s.dev.smc.misses.map Prod.snd).sum) : Gives .smcHotSample s fun e =>
    e.rd Reg.SMC_HOT_ratio = min 65535 (s.dev.smc.misses.foldl (fun (m : Nat) p => max m p.2) 0 * 16384 * 100 /
      (s.dev.smc.misses.map Prod.snd).sum) ∧ e.smc.misses = [] ∧
      Frame s.dev e [Reg.SMC_HOT_ratio, Reg.SMC_HOT_set] [.smc] := by
  refine gives_of_exec_eq_act (f := Dev.smcHot) rfl ?_
  unfold Dev.smcHot
  extract_lets total top ratio hotSet w u h v
  have hpos : total ≠ 0 := Nat.pos_iff_ne_zero.mp htotal
  have hw : w = s.dev := if_neg hpos
  have hratio : ratio = min 65535 (top.2 * 16384 * 100 / total) := if_neg hpos
  have hu : Dev.Runs s.dev u [Reg.SMC_HOT_ratio, Reg.SMC_HOT_set] [.smc] := by
    unfold u
    rw [hw]
    exact ((Dev.Runs.refl _ _ _).wr _ _).wr _ _
  have hshown : u.rd Reg.SMC_HOT_ratio = ratio := by
    have hlt : ratio % 2 ^ 16 = ratio := Nat.mod_eq_of_lt (by omega)
    exact (Dev.rd_wr_other _ _ _ _ (by decide)).trans ((Dev.rd_wr_same _ _ _).trans hlt)
  have hv : Dev.Runs s.dev v [Reg.SMC_HOT_ratio, Reg.SMC_HOT_set] [.smc] := hu.setSmc _
  have hpost : Dev.Runs v (if h.2.2.2 = true then v.post 0x60 2 0 hotSet ratio 0 else v) [] [] :=
    .ite ((Dev.Runs.refl _ _ _).post _ _ _ _ _ _ _) (.refl _ _ _)
  have hsmc := hpost.frame.part .smc
  refine ⟨?_, by rw [Dev.settle_smc, hsmc]; rfl, (hv.trans hpost).settle.frame⟩
  rw [Dev.settle_rd _ _ (by decide), hpost.frame.rd Reg.SMC_HOT_ratio]
  refine hshown.trans ?_
  rw [hratio, foldl_top]

end

/-- Settles O43: the walk of invalidate-all by its invariant, the rest command by command. -/
theorem metadataCacheControl : Obligations.MetadataCacheControl := by
  unfold Obligations.MetadataCacheControl
  intro pass s
  refine ⟨hostGives_smcInvalidate_refused, hostGives_smcInvalidate_draining, fun hstate hidle hreach => ?_,
    gives_smcInvalidateDone, fun hinv hset hevict hdrain hkey => ?_, fun hpend hrun => ?_, fun hidle => ?_, gives_smcBistDone,
    gives_smcResetInvalidation, gives_smcHotSample⟩
  · refine (hostGives_smcInvalidate hstate hidle hreach).mono fun e he => ?_
    exact ⟨he.inv, he.evict, he.bound, fun hrising i => ⟨(he.walked hrising).clean i, (he.walked hrising).held i⟩, he.frame⟩
  · exact ⟨gives_smcInvalidateDone_rekey hinv hset hevict hdrain hkey, gives_smcInvalidateDone_again hinv hset hevict hdrain hkey⟩
  · exact ⟨hostGives_smcRekey_off hpend hrun, hostGives_smcRekey hpend hrun⟩
  · exact ⟨hostGives_smcBist_off hidle, hostGives_smcBist_busy hidle⟩

end Sys2Proof
end

section
/-! What the failure of one drive leaves of the drive ports, the clusters and the firmware download (R204 to R210, R245): the
states and reasons of the ports, whether they hold a device, the DRV power domains, and the download's record and registers. -/

set_option Elab.async false

namespace Sys2Proof

open Sys2Proof.Machine

namespace Machine

/-- The keys of what a start shows: SYS_STAT.phase, SYS_BOOT.running, SYS_FW_VER, SYS_SVN.fuse, VLT_LAST.result and the states
of the DRAM channels. -/
def bootKey (k : Nat) : Bool :=
  decide (k = 0x14 * 64 + 16) || decide (k = 0x54 * 64 + 8) || decide (k = 0x58 * 64) || decide (k = 0x5C * 64) ||
    decide (k = 0xA0058 * 64 + 28) || (decide (0x50100 * 64 ≤ k) && decide (k < 0x50160 * 64) && decide (k % 512 = 30))

/-- The keys of the registers watched: those of DPX, those of MNT_DFW, the state and reason of every port, and what a start
shows. -/
def driveKey (k : Nat) : Bool :=
  bootKey k || (decide (0xD0000 * 64 ≤ k) && decide (k < 0xE0000 * 64) && !stateKey k) || (decide (0x90080 * 64 ≤ k) && decide (k < 0x900C0 * 64)) ||
    (decide (0x200000 * 64 ≤ k) && decide (k < 0x300000 * 64) && (decide (k % 4096 = 280) || decide (k % 4096 = 284)))

theorem stateKey_of_driveKey {k : Nat} (h : driveKey k = true) : stateKey k = false := by
  simp only [driveKey, bootKey, Bool.or_eq_true, Bool.and_eq_true, decide_eq_true_eq, Bool.not_eq_true'] at h
  rcases h with ((h | ⟨-, h⟩) | ⟨h1, h2⟩) | ⟨⟨h1, -⟩, -⟩
  · simp only [stateKey, Bool.and_eq_false_iff, Bool.or_eq_false_iff, decide_eq_false_iff_not]
    omega
  · exact h
  · simp only [stateKey, Bool.and_eq_false_iff, Bool.or_eq_false_iff, decide_eq_false_iff_not]
    omega
  · simp only [stateKey, Bool.and_eq_false_iff, Bool.or_eq_false_iff, decide_eq_false_iff_not]
    omega

/-- A field of the arrays' pages, or of a queue descriptor: none of its indexes is watched. -/
def Fld.unwatched (f : Fld) : Bool :=
  decide (0x300000 ≤ f.base) || (decide (0xE0000 ≤ f.base) && decide ((f.dims.head?.map Prod.fst).getD 0 % 64 = 0) &&
    decide (f.key % 4096 ≠ 280 ∧ f.key % 4096 ≠ 284))

theorem driveKey_high {k : Nat} (h : 0x300000 * 64 ≤ k) : driveKey k = false := by
  simp only [driveKey, bootKey, Bool.or_eq_false_iff, Bool.and_eq_false_iff, decide_eq_false_iff_not]
  omega

theorem driveKey_ix {f : Fld} (i : Nat) (h : f.unwatched = true := by decide) : driveKey (f.ix i).key = false := by
  simp only [Fld.unwatched, Bool.or_eq_true, Bool.and_eq_true, decide_eq_true_eq] at h
  rcases h with h | ⟨⟨hbase, hstride⟩, hline⟩
  · refine driveKey_high ?_
    have := Fld.ix_key f i
    have hkey : f.key = f.base * 64 + f.lo := rfl
    omega
  · have hmod := Fld.ix_key_mod f i hstride
    have := Fld.ix_key f i
    have hkey : f.key = f.base * 64 + f.lo := rfl
    simp only [driveKey, bootKey, Bool.or_eq_false_iff, Bool.and_eq_false_iff, decide_eq_false_iff_not]
    omega

theorem driveKey_ix2 {f : Fld} (i j : Nat) (h : 0x300000 ≤ f.base := by decide) : driveKey ((f.ix i).ix j).key = false := by
  refine driveKey_high ?_
  have := Fld.ix_key f i
  have := Fld.ix_key (f.ix i) j
  have hkey : f.key = f.base * 64 + f.lo := rfl
  omega

/-- What is watched is as before, no cause is taken back and nothing sent is unsent. -/
structure Dev.DriveKept (d e : Dev) : Prop where
  regs : ∀ f : Fld, driveKey f.key = true → e.rd f = d.rd f
  dev : ∀ p, (e.port p).dev.isSome = (d.port p).dev.isSome
  power : e.sys.pdDrv = d.sys.pdDrv
  main : e.sys.pdMain = d.sys.pdMain
  dfw : e.mnt.dfw = d.mnt.dfw
  grows : Dev.Grows d e

namespace Dev.DriveKept

variable {a d e : Dev}

theorem refl (d : Dev) : Dev.DriveKept d d := ⟨fun _ _ => rfl, fun _ => rfl, rfl, rfl, rfl, .refl d⟩

theorem trans (h : Dev.DriveKept a d) (k : Dev.DriveKept d e) : Dev.DriveKept a e :=
  ⟨fun f hf => (k.regs f hf).trans (h.regs f hf), fun p => (k.dev p).trans (h.dev p), k.power.trans h.power,
    k.main.trans h.main, k.dfw.trans h.dfw,
    h.grows.trans k.grows⟩

theorem ite {p : Prop} [Decidable p] (h : Dev.DriveKept a d) (k : Dev.DriveKept a e) : Dev.DriveKept a (if p then d else e) := by
  split <;> assumption

theorem forEach {α : Type} {f : α → Dev → Dev} (xs : List α) (h : Dev.DriveKept a d)
    (hf : ∀ x e, Dev.DriveKept a e → Dev.DriveKept a (f x e)) : Dev.DriveKept a (Machine.forEach xs f d) :=
  forEach_induct (P := Dev.DriveKept a) (fun x e he => hf x e he) xs d h

/-- A change beside the registers, the ports, SYS, the download and the reports. -/
theorem same (h : Dev.DriveKept a d) (hregs : e.regs = d.regs) (hdpx : e.dpx = d.dpx) (hsys : e.sys = d.sys)
    (hdfw : e.mnt.dfw = d.mnt.dfw) (hnt : e.nt = d.nt) (hsent : e.emitted = d.emitted) : Dev.DriveKept a e :=
  ⟨fun f hf => (rd_of_regs hregs f).trans (h.regs f hf), fun p => (by rw [Dev.port, hdpx]; exact h.dev p), hsys ▸ h.power, hsys ▸ h.main,
    hdfw.trans h.dfw, h.grows.trans (.same hnt hsent)⟩

/-- A change of fields that are not watched, and of parts beside the ports, SYS and MNT. -/
theorem runs {fs : List Fld} {ps : List Part} (h : Dev.DriveKept a d) (k : Dev.Runs d e fs ps) (hfs : ∀ g ∈ fs, driveKey g.key = false)
    (hps : Part.dpx ∉ ps ∧ Part.sys ∉ ps ∧ Part.mnt ∉ ps := by decide) : Dev.DriveKept a e := by
  obtain ⟨hdpx, hsys, hmnt⟩ := hps
  have kdpx : e.dpx = d.dpx := k.frame.2 .dpx hdpx
  have ksys : e.sys = d.sys := k.frame.2 .sys hsys
  have kmnt : e.mnt = d.mnt := k.frame.2 .mnt hmnt
  refine h.trans ⟨fun f hf => k.frame.1 f (fun g hg he => ?_) (stateKey_of_driveKey hf), fun p => by rw [Dev.port, kdpx]; rfl,
    by rw [ksys], by rw [ksys], by rw [kmnt], k.grows⟩
  rw [he, hfs g hg] at hf
  exact absurd hf Bool.false_ne_true

theorem settle (h : Dev.DriveKept a d) : Dev.DriveKept a d.settle :=
  h.runs (fs := []) (ps := []) (.settle (.refl _ _ _)) (fun _ hg => absurd hg List.not_mem_nil)

section

variable (h : Dev.DriveKept a d)
include h

theorem wr (f : Fld) (v : Nat) (hf : driveKey f.key = false := by decide) : Dev.DriveKept a (d.wr f v) := by
  refine h.trans ⟨fun g hg => Dev.rd_wr_other _ _ _ _ fun he => ?_, fun p => rfl, rfl, rfl, rfl, d.wr_grows _ _⟩
  rw [he, hf] at hg
  exact absurd hg Bool.false_ne_true

theorem wr_ix (f : Fld) (i v : Nat) (hf : f.unwatched = true := by decide) : Dev.DriveKept a (d.wr (f.ix i) v) :=
  h.wr _ v (driveKey_ix i hf)

theorem wr_ix2 (f : Fld) (i j v : Nat) (hf : 0x300000 ≤ f.base := by decide) : Dev.DriveKept a (d.wr ((f.ix i).ix j) v) :=
  h.wr _ v (driveKey_ix2 i j hf)

theorem incSat_ix (f : Fld) (i n : Nat) (hf : f.unwatched = true := by decide) : Dev.DriveKept a (d.incSat (f.ix i) n) :=
  h.wr_ix f i _ hf

/-- What reports only. -/
theorem reports (k : Dev.Reports d e) (hc : Dev.CausesGrow d e) : Dev.DriveKept a e :=
  h.runs (fs := []) (ps := []) ⟨(Frame.refl _ _ _).reports k, hc, k.sent⟩ (fun _ hg => absurd hg List.not_mem_nil)

theorem emit (x : Emit) : Dev.DriveKept a (d.emit x) := h.reports (d.emit_reports x) (d.emit_grow x)

theorem causeBit (b : Blk) (i : Nat) : Dev.DriveKept a (d.causeBit b i) := h.reports (d.causeBit_reports b i) (d.causeBit_grow b i)

theorem errCorr (b : Blk) (c : Nat) : Dev.DriveKept a (d.errCorr b c) := h.reports (d.errCorr_reports b c) (d.errCorr_grow b c)

theorem errUncorr (b : Blk) (c : Nat) : Dev.DriveKept a (d.errUncorr b c) := h.reports (d.errUncorr_reports b c) (d.errUncorr_grow b c)

theorem post (b c i j k l m : Nat) : Dev.DriveKept a (d.post b c i j k l m) :=
  h.reports (d.post_reports b c i j k l m) (d.post_grow b c i j k l m)

theorem squall (b : Blk) (c n : Nat) : Dev.DriveKept a (d.squall b c n) := h.reports (d.squall_reports b c n) (d.squall_grow b c n)

theorem postVolume (vfs b c i j k l : Nat) : Dev.DriveKept a (d.postVolume vfs b c i j k l) :=
  .forEach _ h fun f e he => he.reports (e.deliver_reports f _) (e.deliver_grow f _)

theorem writeHost (f n : Nat) (bs : Bytes) (r : Bool) : Dev.DriveKept a (d.writeHost f n bs r) :=
  h.reports (d.writeHost_reports f n bs r) (d.writeHost_grow f n bs r)

theorem updArr (n : Nat) (g : ArrSt → ArrSt) : Dev.DriveKept a (d.updArr n g) := h.same rfl rfl rfl rfl rfl rfl

theorem updLay (g : LayState → LayState) : Dev.DriveKept a (d.updLay g) := h.same rfl rfl rfl rfl rfl rfl

theorem updOp (id : Nat) (g : MemberOp → MemberOp) : Dev.DriveKept a (d.updOp id g) := h.updLay _

theorem updDram (g : Dram → Dram) : Dev.DriveKept a (d.updDram g) := h.same rfl rfl rfl rfl rfl rfl

theorem setDram (x : Dram) : Dev.DriveKept a { d with dram := x } := h.same rfl rfl rfl rfl rfl rfl

theorem updCache (g : List CBlk → List CBlk) : Dev.DriveKept a (d.updCache g) := h.setDram _

theorem updStripe (n t : Nat) (g : StripeRec → StripeRec) : Dev.DriveKept a (d.updStripe n t g) := h.setDram _

theorem setMissed (n i : Nat) (l : List Nat) : Dev.DriveKept a (d.setMissed n i l) := h.setDram _

theorem updRec (f adm : Nat) (g : OlRec → OlRec) : Dev.DriveKept a (d.updRec f adm g) := h.same rfl rfl rfl rfl rfl rfl

theorem setQmx (x : QmxState) : Dev.DriveKept a { d with qmx := x } := h.same rfl rfl rfl rfl rfl rfl

theorem updCmd (adm : Nat) (g : Cmd → Cmd) : Dev.DriveKept a (d.updCmd adm g) := h.setQmx _

theorem updFn (f : Nat) (g : FnState → FnState) : Dev.DriveKept a (d.updFn f g) := h.same rfl rfl rfl rfl rfl rfl

theorem dropReads (mine : ReadKind → Bool) : Dev.DriveKept a (d.dropReads mine) := h.same rfl rfl rfl rfl rfl rfl

theorem updBps (g : BpsState → BpsState) : Dev.DriveKept a (d.updBps g) := h.same rfl rfl rfl rfl rfl rfl

theorem nextFree : Dev.DriveKept a d.nextFree := h.same rfl rfl rfl rfl rfl rfl

theorem setActs (x : List Activity) : Dev.DriveKept a { d with mnt := { d.mnt with acts := x } } := h.same rfl rfl rfl rfl rfl rfl

/-- A change of a port that keeps its device, or puts another in its place. -/
theorem updPort (p : Nat) (g : PortSt → PortSt) (hg : ∀ x, (g x).dev.isSome = x.dev.isSome := by exact fun _ => rfl) :
    Dev.DriveKept a (d.updPort p g) := by
  refine h.trans ⟨fun _ _ => rfl, fun q => ?_, rfl, rfl, rfl, .same rfl rfl⟩
  by_cases hpq : q = p
  · subst hpq
    show (Tbl.getD (Tbl.putD d.dpx.ports q (g (d.port q)) {}) q {}).dev.isSome = _
    rw [Tbl.getD_putD_same, hg]
  · show (Tbl.getD (Tbl.putD d.dpx.ports p (g (d.port p)) {}) q {}).dev.isSome = _
    rw [Tbl.getD_putD_other _ _ _ _ _ _ hpq]
    rfl

/-! ### Completions and the ends of commands (R89, R93, R94) -/

theorem drainSq (q : Nat) : Dev.DriveKept a (d.drainSq q) := .ite (h.wr_ix _ _ _) h

theorem putCpl (c : Cpl) : Dev.DriveKept a (d.putCpl c) := by
  unfold Dev.putCpl
  extract_lets tail phase de next w x y z
  have hw : Dev.DriveKept a w := h.writeHost _ _ _ _
  have hx : Dev.DriveKept a x := hw.wr_ix _ _ _
  have hy : Dev.DriveKept a y := .ite (hx.wr_ix _ _ _) hx
  have hz : Dev.DriveKept a z := hy.updRec _ _ _
  exact .forEach _ hz fun n e he => he.incSat_ix _ _ _

theorem raiseCq (f q : Nat) : Dev.DriveKept a (d.raiseCq f q) := .ite (h.reports (d.raiseVec_reports _ _) (d.raiseVec_grow _ _)) h

theorem postCpl (c : Cpl) : Dev.DriveKept a (d.postCpl c) := by
  unfold Dev.postCpl Dev.writeCpl
  exact .ite ((((h.drainSq _).putCpl c).raiseCq _ _).drainSq _) (h.updFn _ _)

theorem endCmd (adm status dw3 : Nat) : Dev.DriveKept a (d.endCmd adm status dw3) := by
  cases hc : d.cmd? adm with
  | none =>
    have heq : d.endCmd adm status dw3 = d := by simp only [Dev.endCmd, hc]
    rwa [heq]
  | some c =>
    rw [Dev.endCmd_eq hc]
    have hrec : Dev.DriveKept a (d.recordEnd c status) := h.updRec _ _ _
    have hgone : Dev.DriveKept a ((d.recordEnd c status).dropCmd adm) := (hrec.dropReads _).setQmx _
    exact .ite (hgone.drainSq _) (hgone.postCpl _)

theorem stopCmd (adm status dw3 : Nat) : Dev.DriveKept a (d.stopCmd adm status dw3) := by
  unfold Dev.stopCmd
  split
  · exact h
  · next c _ =>
    extract_lets w
    have hw : Dev.DriveKept a w := h.dropReads _
    refine .ite ?_ (hw.updCmd _ _)
    split
    · exact .ite (hw.endCmd _ _ _) (hw.endCmd _ _ _)
    · exact hw.endCmd _ _ _

theorem writeXfer (c : Cmd) (off : Nat) (bs : Bytes) : Dev.DriveKept a (d.writeXfer c off bs) :=
  .forEach _ h fun _ _ he => he.writeHost _ _ _ _

theorem returnData (c : Cmd) : Dev.DriveKept a (d.returnData c) := by
  refine .forEach _ h fun x e he => ?_
  split
  · exact .ite ((he.writeXfer _ _ _).writeHost _ _ _ _) (he.writeXfer _ _ _)
  · exact he

theorem recount (adm : Nat) : Dev.DriveKept a (d.recount adm) := by
  unfold Dev.recount
  split
  · exact h
  · dsimp only
    exact .ite h ((h.updCmd _ _).updRec _ _ _)

theorem advance (adm : Nat) : Dev.DriveKept a (d.advance adm) := by
  have hw := h.recount adm
  unfold Dev.advance
  dsimp only
  generalize d.recount adm = w at hw ⊢
  have hend (c : Cmd) (st dw3 : Nat) : Dev.DriveKept a (match c.lostFirst with
      | some o => w.endCmd adm ssLostWrite o
      | none => w.endCmd adm st dw3) := by split <;> exact hw.endCmd _ _ _
  split
  · exact hw
  split
  · exact .ite (.ite (hw.endCmd _ _ _) (hw.endCmd _ _ _)) hw
  refine .ite ?_ hw
  split
  · exact .ite (hend _ _ _) hw
  · exact .ite hw (.ite (hend _ _ _) (hw.updCmd _ _))

theorem recheck : Dev.DriveKept a d.recheck := .forEach _ h fun adm _ he => he.advance adm

theorem refreshMode : Dev.DriveKept a d.refreshMode := .ite ((h.wr _ _).causeBit _ _) (h.wr _ _)

theorem afterDrain : Dev.DriveKept a d.afterDrain := by
  have htidy : Dev.DriveKept a d.tidyDue := by
    unfold Dev.tidyDue
    exact h.updLay _
  exact htidy.recheck.refreshMode

theorem endOffline (n : Nat) : Dev.DriveKept a (d.endOffline n) := by
  refine .forEach _ h fun c e he => ?_
  dsimp only
  exact (Dev.DriveKept.ite (he.returnData c) he).stopCmd _ _ _

/-! ### Lost blocks (R101, R208) -/

theorem addDet (x : DetEntry) : Dev.DriveKept a (d.addDet x) := .ite ((h.updDram _).postVolume _ _ _ _ _ _ _) (h.updDram _)

theorem loseBlocks (bs : List CBlk) (reason : Nat) : Dev.DriveKept a (d.loseBlocks bs reason) := by
  unfold Dev.loseBlocks
  extract_lets xs w x
  have hw : Dev.DriveKept a w := h.updCache _
  have hx : Dev.DriveKept a x := .forEach _ hw fun b e he => he.updStripe _ _ _
  have hy : Dev.DriveKept a { x with qmx := { x.qmx with cmds := x.qmx.cmds.map (x.tellLoss xs) } } := hx.setQmx _
  exact .forEach _ hy fun b e he => he.addDet _

theorem sweepDead (n : Nat) : Dev.DriveKept a (d.sweepDead n) := .ite h (h.loseBlocks _ _).afterDrain

/-! ### The arbiter (R226 to R229) -/

theorem actEnd (act : Act) (n : Nat) : Dev.DriveKept a (d.actEnd act n) := h.setActs _

theorem setAct (act : Act) (n : Nat) (st : ActSt) : Dev.DriveKept a (d.setAct act n st) := .ite (h.setActs _) (h.setActs _)

theorem postDeferred (act : Act) (n b : Nat) : Dev.DriveKept a (d.postDeferred act n b) := (h.causeBit _ _).post _ _ _ _ _ _ _

theorem postStarted (act : Act) (n : Nat) : Dev.DriveKept a (d.postStarted act n) := h.post _ _ _ _ _ _ _

theorem actPause (x : Activity) (b : Nat) : Dev.DriveKept a (d.actPause x b) := by
  have hset := h.setAct x.act x.array (.paused b)
  exact (Dev.DriveKept.ite (hset.wr_ix _ _ _) hset).postDeferred _ _ _

theorem setDuty (v : Nat) : Dev.DriveKept a (d.setDuty v) := .ite h ((h.wr _ _).emit _)

theorem setInhibit (bit : Nat) (on : Bool) : Dev.DriveKept a (d.setInhibit bit on) := by
  unfold Dev.setInhibit
  extract_lets old new w
  have hw : Dev.DriveKept a w := h.wr _ _
  exact .ite (((hw.setDuty 0).wr _ _).updBps _) (.ite (hw.wr _ _) hw)

theorem setDsg (on : Bool) : Dev.DriveKept a (d.setDsg on) := by
  have hpin : Dev.DriveKept a { d with sys := { d.sys with dsgEnPin := on } } :=
    h.trans ⟨fun _ _ => rfl, fun _ => rfl, rfl, rfl, rfl, .same rfl rfl⟩
  exact .ite h (hpin.emit _)

theorem learnStop (reason : Nat) : Dev.DriveKept a (d.learnStop reason) := by
  unfold Dev.learnStop Dev.learnResult Dev.refreshRest
  have hphase : Dev.DriveKept a ((d.setDsg false).wr Reg.BPS_LEARN_STAT_phase 5) := (h.setDsg false).wr _ _
  exact .ite ((((((hphase.updBps _).wr _ _).wr _ _).causeBit _ _).post _ _ _ _ _ _ _).setInhibit _ _) h

theorem actAbort (x : Activity) : Dev.DriveKept a (d.actAbort x) := by
  have hend := h.actEnd x.act x.array
  exact .ite (hend.learnStop 8) hend

theorem walkStart (n : Nat) : Dev.DriveKept a (d.walkStart n) := by
  unfold Dev.walkStart
  extract_lets lb old planned w x
  have hx : Dev.DriveKept a x := h.updArr _ _
  exact (((hx.wr_ix _ _ _).wr_ix _ _ _).wr_ix _ _ _).wr_ix _ _ _

theorem actStart_rebuild (n : Nat) (deferred : Bool) : Dev.DriveKept a (d.actStart .rebuild n deferred) := by
  unfold Dev.actStart
  extract_lets w x y z
  have hw : Dev.DriveKept a w := .forEach _ h fun v e he => he.actPause v _
  have hx : Dev.DriveKept a x := .forEach _ hw fun v e he => he.actAbort v
  have hy : Dev.DriveKept a y := hx.setAct _ _ _
  have hz : Dev.DriveKept a z := .ite hy (hy.postStarted _ _)
  exact .ite ((hz.updArr _ _).walkStart n) hz

theorem arbRequest_rebuild (n : Nat) : Dev.DriveKept a (d.arbRequest .rebuild n) := by
  unfold Dev.arbRequest
  refine .ite h (.ite h ?_)
  split
  · have hfree : Dev.DriveKept a (if d.condHolds .rebuild = true then d.nextFree else d) := .ite h.nextFree h
    exact (hfree.setAct _ _ _).postDeferred _ _ _
  · exact h.actStart_rebuild n false

theorem askWalk (n : Nat) : Dev.DriveKept a (d.askWalk n) := .ite (h.walkStart n) ((h.updArr _ _).arbRequest_rebuild n)

/-! ### Arrays and members (R203 to R215) -/

theorem refreshArr (n p : Nat) : Dev.DriveKept a (d.refreshArr n p) := by
  unfold Dev.refreshArr
  extract_lets was lost0 left0 lost l left st w x
  have hw : Dev.DriveKept a w := (((h.wr_ix _ _ _).wr_ix _ _ _).wr_ix _ _ _).wr_ix _ _ _
  have hx : Dev.DriveKept a x := .ite (hw.postVolume _ _ _ _ _ _ _) hw
  exact .ite ((hx.errUncorr _ _).endOffline n) hx

theorem arrChanged (n p : Nat) : Dev.DriveKept a (d.arrChanged n p) := by
  have hw := h.refreshArr n p
  exact .ite hw (.forEach _ hw fun x e he => he.actAbort x)

theorem updDrive (p : Nat) (g : DriveInfo → DriveInfo) : Dev.DriveKept a (d.updDrive p g) := h.updPort p _ fun _ => Option.isSome_map

theorem writeLabel (n p : Nat) (l : Label) : Dev.DriveKept a (d.writeLabel n p l) := by
  unfold Dev.writeLabel
  extract_lets held b vols block w
  have hw : Dev.DriveKept a w := .ite h (h.emit _)
  exact ((hw.emit _).emit _).updDrive _ _

theorem writeLabels (n : Nat) : Dev.DriveKept a (d.writeLabels n) := by
  unfold Dev.writeLabels
  extract_lets w
  have hw : Dev.DriveKept a w := h.updArr _ _
  exact .forEach _ hw fun i e he => he.writeLabel _ _ _

theorem setMember (n i st : Nat) : Dev.DriveKept a (d.setMember n i st) := .ite h ((h.wr_ix2 _ _ _ _).causeBit _ _)

theorem takeSlot (n i : Nat) : Dev.DriveKept a (d.takeSlot n i) := by
  unfold Dev.takeSlot
  split
  · exact h
  split
  · exact (h.wr_ix2 _ _ _ _).wr_ix2 _ _ _ _
  · exact h

theorem copybackFollow (n : Nat) : Dev.DriveKept a (d.copybackFollow n) := by
  unfold Dev.copybackFollow
  split
  · exact (h.wr_ix _ _ _).wr_ix _ _ _
  · exact (h.wr_ix _ _ _).actEnd _ _

theorem restartWalk (n : Nat) : Dev.DriveKept a (d.restartWalk n) := .ite (h.walkStart n) h

theorem rebuildEnd (n : Nat) : Dev.DriveKept a (d.rebuildEnd n) := .ite h (h.actEnd _ _)

theorem failOps (p : Nat) : Dev.DriveKept a (d.failOps p) := by
  unfold Dev.failOps
  exact (h.updLay _).updPort p _

theorem memberFailed (n i : Nat) : Dev.DriveKept a (d.memberFailed n i) := by
  unfold Dev.memberFailed
  extract_lets was port u v w x y z
  have hu : Dev.DriveKept a u := h.setMember _ _ _
  have hv : Dev.DriveKept a v := (hu.setMissed _ _ _).takeSlot _ _
  have hw : Dev.DriveKept a w := hv.updArr _ _
  have hx : Dev.DriveKept a x := .ite (hw.copybackFollow n) hw
  have hy : Dev.DriveKept a y := ((hx.writeLabels n).arrChanged n port).sweepDead n
  have hz : Dev.DriveKept a z := .ite (hy.askWalk n) (hy.restartWalk n)
  exact .ite h (hz.rebuildEnd n)

theorem memberLeft (n i : Nat) : Dev.DriveKept a (d.memberLeft n i) := by
  unfold Dev.memberLeft
  refine .ite (h.memberFailed n i) (.ite ?_ h)
  extract_lets port w
  have hw : Dev.DriveKept a w := h.updArr _ _
  exact ((((hw.setMember _ _ _).writeLabels n).arrChanged n port).restartWalk n).rebuildEnd n

end

end Dev.DriveKept

end Machine

end Sys2Proof
end

section
/-! Drive ports: what a failure of a drive shows, and what the steps of a port leave of what is watched (R237 to R252). -/

set_option Elab.async false

namespace Sys2Proof

open Sys2Proof.Machine

/-! ### Events on units -/

/-- An event on a unit that the device has. -/
theorem gives_onUnit {c : Instr} {s : State} {b : Bool} {f : Dev → Dev} {P : Dev → Prop} (hexec : exec c s = onUnit b s f) (hb : b = true)
    (hP : P (f s.dev).settle) : Gives c s P :=
  gives_of_exec_eq_act (f := f) (hexec.trans (if_pos hb)) hP

/-- A host write that reaches a page, about a unit that the device has. -/
theorem hostGives_onPage {c : Instr} {s : State} {b : Blk} {ok : Bool} {f : Dev → Dev} {P : Dev → Prop}
    (hexec : exec c s = onPage b ok s f) (hok : ok = true) (hP : ∀ d, Dev.Woken s.dev d → P (f d).settle) : HostGives 0 b c s P := by
  intro hreach
  refine gives_of_exec_eq_atFn (f := 0) (b := b) (g := fun d => if ok then f d else d) hexec hreach fun d hd => ?_
  rw [if_pos hok]
  exact hP d hd

namespace Machine

variable {a d e : Dev} {p q : Nat}

/-! ### The fields of a port -/

/-- Whether two fields of a port's page are different fields, whichever ports they are of. -/
theorem Fld.port_key_ne {f g : Fld} (hne : f.offLine g = true := by decide) : (f.ix p).key ≠ (g.ix q).key := Fld.offLine_key_ne hne p q

theorem ptState_key_ne (h : q ≠ p) : (Reg.PT_STAT_state.ix q).key ≠ (Reg.PT_STAT_state.ix p).key := by
  rw [Fld.ix_key, Fld.ix_key]
  intro he
  have hkey : Reg.PT_STAT_state.key + 4096 * q * 64 = Reg.PT_STAT_state.key + 4096 * p * 64 := he
  omega

theorem driveKey_ptState (hp : p < 256) : driveKey (Reg.PT_STAT_state.ix p).key = true := by
  have hkey : (Reg.PT_STAT_state.ix p).key = (0x200004 * 64 + 28) + 4096 * p * 64 := Fld.ix_key _ _
  simp only [driveKey, Bool.or_eq_true, Bool.and_eq_true, decide_eq_true_eq]
  omega

theorem driveKey_ptReason (hp : p < 256) : driveKey (Reg.PT_STAT_reason.ix p).key = true := by
  have hkey : (Reg.PT_STAT_reason.ix p).key = (0x200004 * 64 + 24) + 4096 * p * 64 := Fld.ix_key _ _
  simp only [driveKey, Bool.or_eq_true, Bool.and_eq_true, decide_eq_true_eq]
  omega

theorem ptState_wr_same (d : Dev) (p : Nat) {v : Nat} (hv : v < 16) : (d.wr (Reg.PT_STAT_state.ix p) v).ptState p = v :=
  (Dev.rd_wr_same _ _ _).trans (by rw [Fld.ix_width]; exact Nat.mod_eq_of_lt hv)

theorem ptReason_wr_same (d : Dev) (p : Nat) {v : Nat} (hv : v < 16) :
    (d.wr (Reg.PT_STAT_reason.ix p) v).rd (Reg.PT_STAT_reason.ix p) = v :=
  (Dev.rd_wr_same _ _ _).trans (by rw [Fld.ix_width]; exact Nat.mod_eq_of_lt hv)

theorem ptState_wr_other (d : Dev) (f : Fld) (i v : Nat) (hne : Reg.PT_STAT_state.offLine f = true := by decide) :
    (d.wr (f.ix i) v).ptState p = d.ptState p := Dev.rd_wr_other _ _ _ _ (Fld.port_key_ne hne)

theorem Dev.DriveKept.ptState (h : Dev.DriveKept d e) (hp : p < 256) : e.ptState p = d.ptState p := h.regs _ (driveKey_ptState hp)

/-! ### What keeps what is watched -/

namespace Dev.DriveKept

section

variable (h : Dev.DriveKept a d)
include h

theorem sendOp (o : MemberOp) : Dev.DriveKept a (d.sendOp o) :=
  h.runs (fs := []) (ps := []) ((Dev.Runs.refl _ _ _).sendOp o) (fun _ hg => absurd hg List.not_mem_nil)

end

theorem pump : ∀ (fuel p : Nat) (d : Dev), Dev.DriveKept a d → Dev.DriveKept a (Dev.pump fuel p d)
  | 0, _, _, h => h
  | fuel + 1, p, d, h => by
    rw [Dev.pump]
    split
    · exact h
    · split
      · exact pump fuel p _ (h.updPort p _)
      · exact .ite (pump fuel p _ (((h.updOp _ _).updPort p _).sendOp _)) h

theorem spinPump : ∀ (fuel n : Nat) (d : Dev), Dev.DriveKept a d → Dev.DriveKept a (Dev.spinPump fuel n d)
  | 0, _, _, h => h
  | fuel + 1, n, d, h => by
    rw [Dev.spinPump]
    dsimp only
    split
    · exact h
    · next p _ =>
      have hturn : Dev.DriveKept a (d.updPort p fun s => { s with spinWait := false, spinning := true }) := h.updPort p _
      exact .ite h (spinPump fuel n _ (.ite (hturn.emit _) (hturn.emit _)))

section

variable (h : Dev.DriveKept a d)
include h

theorem pumpPort (p : Nat) : Dev.DriveKept a (d.pumpPort p) := pump _ _ _ h

theorem spinUp (n : Nat) : Dev.DriveKept a (d.spinUp n) := spinPump _ _ _ h

theorem spoilExit (p : Nat) : Dev.DriveKept a (d.spoilExit p) := by
  unfold Dev.spoilExit
  split
  · exact h.updArr _ _
  · exact h

theorem unlink (p : Nat) : Dev.DriveKept a (d.unlink p) := by
  unfold Dev.unlink
  have hfree (f : Fld) (hf : f.unwatched = true) : driveKey (f.ix p).key = false := driveKey_ix p hf
  exact ((((h.wr _ 0 (hfree Reg.PT_STAT_rate (by decide))).wr _ 0 (hfree Reg.PT_STAT_protocol (by decide))).wr _ 0
    (hfree Reg.PT_STAT_ncq (by decide))).wr _ 0 (hfree Reg.PT_STAT_pfa (by decide))).updPort p _

theorem exitCheck (n : Nat) : Dev.DriveKept a (d.exitCheck n) := by
  unfold Dev.exitCheck
  extract_lets r wait w ms x y
  have hw : Dev.DriveKept a w := (h.wr_ix _ _ _).wr_ix _ _ _
  have hx : Dev.DriveKept a x := .ite hw ((hw.updArr _ _).wr_ix2 _ _ _ _)
  have hy : Dev.DriveKept a y := hx.updArr _ _
  exact .ite h (.ite (h.updArr _ _) (.forEach _ hy fun p e he => he.pumpPort p))

theorem driveLeft (p : Nat) : Dev.DriveKept a (d.driveLeft p) := by
  unfold Dev.driveLeft
  extract_lets m w
  have hw : Dev.DriveKept a w := h.failOps p
  clear_value m
  split
  · exact (hw.memberLeft _ _).exitCheck _
  · exact hw

end

end Dev.DriveKept

/-! ### A port's state, written -/

/-- A port has the state and the reason written, and what else is watched is as before. -/
structure Dev.PortSet (d e : Dev) (p st reason : Nat) : Prop where
  state : e.ptState p = st
  reason : e.rd (Reg.PT_STAT_reason.ix p) = reason
  others : ∀ f : Fld, driveKey f.key = true → f.key ≠ (Reg.PT_STAT_state.ix p).key → f.key ≠ (Reg.PT_STAT_reason.ix p).key →
    e.rd f = d.rd f
  dev : ∀ q, (e.port q).dev.isSome = (d.port q).dev.isSome
  power : e.sys.pdDrv = d.sys.pdDrv
  dfw : e.mnt.dfw = d.mnt.dfw
  grows : Dev.Grows d e

namespace Dev.PortSet

variable {st reason : Nat}

theorem kept (h : Dev.PortSet a d p st reason) (k : Dev.DriveKept d e) (hp : p < 256) : Dev.PortSet a e p st reason where
  state := (k.regs _ (driveKey_ptState hp)).trans h.state
  reason := (k.regs _ (driveKey_ptReason hp)).trans h.reason
  others := fun f hf h1 h2 => (k.regs f hf).trans (h.others f hf h1 h2)
  dev := fun q => (k.dev q).trans (h.dev q)
  power := k.power.trans h.power
  dfw := k.dfw.trans h.dfw
  grows := h.grows.trans k.grows

theorem after (h : Dev.PortSet d e p st reason) (k : Dev.DriveKept a d) : Dev.PortSet a e p st reason where
  state := h.state
  reason := h.reason
  others := fun f hf h1 h2 => (h.others f hf h1 h2).trans (k.regs f hf)
  dev := fun q => (h.dev q).trans (k.dev q)
  power := h.power.trans k.power
  dfw := h.dfw.trans k.dfw
  grows := k.grows.trans h.grows

theorem of_wr (d : Dev) (p : Nat) (hst : st < 16) (hreason : reason < 16) :
    Dev.PortSet d ((d.wr (Reg.PT_STAT_state.ix p) st).wr (Reg.PT_STAT_reason.ix p) reason) p st reason where
  state := (ptState_wr_other _ _ _ _).trans (ptState_wr_same d p hst)
  reason := ptReason_wr_same _ p hreason
  others := fun f _ h1 h2 => (Dev.rd_wr_other _ _ _ _ h2).trans (Dev.rd_wr_other _ _ _ _ h1)
  dev := fun _ => rfl
  power := rfl
  dfw := rfl
  grows := .same rfl rfl

theorem other (h : Dev.PortSet d e p st reason) (hq : q < 256) (hne : q ≠ p) : e.ptState q = d.ptState q :=
  h.others _ (driveKey_ptState hq) (ptState_key_ne hne) Fld.port_key_ne

end Dev.PortSet

theorem Dev.setPt_set (d : Dev) {p st reason : Nat} (hp : p < 256) (hst : st < 16) (hreason : reason < 16) :
    Dev.PortSet d (d.setPt p st reason) p st reason :=
  (Dev.PortSet.of_wr d p hst hreason).kept (.ite (.refl _) ((Dev.DriveKept.refl _).causeBit _ _)) hp

/-- A drive is failed (R245, R260). -/
theorem Dev.failDrive_set (d : Dev) {p reason : Nat} (hp : p < 256) (hreason : reason < 16) :
    Dev.PortSet d (d.failDrive p reason) p ptFailed reason ∧ Raised (d.failDrive p reason) .dpx 17 := by
  unfold Dev.failDrive
  extract_lets m was w x y z
  have hx : Dev.PortSet d x p ptFailed reason :=
    (Dev.PortSet.of_wr d p (by decide) hreason).kept (.ite (.refl _) ((Dev.DriveKept.refl _).causeBit _ _)) hp
  have hy : Dev.DriveKept x y := (((Dev.DriveKept.refl x).failOps p).causeBit _ _).errUncorr _ _
  have hraised : Raised y .dpx 17 := (Dev.errUncorr_grows _ _ _).raised (Dev.causeBit_raised _ _ _)
  have hz : Dev.DriveKept y z := (Dev.DriveKept.refl y).post _ _ _ _ _ _ _
  have hend : Dev.DriveKept z (match m with | some x => z.memberFailed x.1 x.2 | none => z) := by
    clear_value m
    split
    · exact (Dev.DriveKept.refl z).memberFailed _ _
    · exact .refl z
  exact ⟨hx.kept (hy.trans (hz.trans hend)) hp, hend.grows.raised (hz.grows.raised hraised)⟩

/-- A drive is failed, and its array's exit no longer waits for it. -/
theorem Dev.failPort_set (d : Dev) {p reason : Nat} (hp : p < 256) (hreason : reason < 16) :
    Dev.PortSet d (d.failPort p reason) p ptFailed reason ∧ Raised (d.failPort p reason) .dpx 17 := by
  obtain ⟨hset, hraised⟩ := d.failDrive_set hp hreason
  have hspin : Dev.DriveKept (d.failDrive p reason) (((d.failDrive p reason).updPort p fun s =>
      { s with spinWait := false, spinning := false }).spinUp (p / 32)) :=
    ((Dev.DriveKept.refl _).updPort p _).spinUp _
  have hend : Dev.DriveKept (d.failDrive p reason) (d.failPort p reason) := by
    unfold Dev.failPort
    dsimp only
    split
    · exact hspin.exitCheck _
    · exact hspin
  exact ⟨hset.kept hend hp, hend.grows.raised hraised⟩

end Machine

end Sys2Proof
end

section
/-! The download of drive firmware and the hot-spot second (R225, R230). -/

set_option Elab.async false

namespace Sys2Proof

open Sys2Proof.Machine

namespace Machine

variable {d e : Dev} {p : Nat}

/-! ### Members of the arrays -/

/-- The registers of the arrays' pages and the arrays' records are as before. -/
structure Dev.MembersKept (d e : Dev) : Prop where
  high : ∀ f : Fld, 0x300000 * 64 ≤ f.key → e.rd f = d.rd f
  arrs : e.lay.arrs = d.lay.arrs

namespace Dev.MembersKept

theorem trans {a b c : Dev} (h : Dev.MembersKept a b) (k : Dev.MembersKept b c) : Dev.MembersKept a c :=
  ⟨fun f hf => (k.high f hf).trans (h.high f hf), k.arrs.trans h.arrs⟩

theorem of_eq (hregs : e.regs = d.regs) (hlay : e.lay = d.lay) : Dev.MembersKept d e := ⟨fun f _ => rd_of_regs hregs f, by rw [hlay]⟩

theorem wr (d : Dev) (f : Fld) (v : Nat) (hf : f.key < 0x300000 * 64 := by decide) : Dev.MembersKept d (d.wr f v) :=
  ⟨fun g hg => Dev.rd_wr_other _ _ _ _ (by omega), rfl⟩

variable (h : Dev.MembersKept d e)
include h

theorem ix (f : Fld) (i : Nat) (hf : 0x300000 * 64 ≤ f.key := by decide) : e.rd (f.ix i) = d.rd (f.ix i) :=
  h.high _ (by have := f.ix_key i; omega)

theorem ix2 (f : Fld) (i j : Nat) (hf : 0x300000 * 64 ≤ f.key := by decide) : e.rd ((f.ix i).ix j) = d.rd ((f.ix i).ix j) :=
  h.high _ (by have := f.ix_key i; have := (f.ix i).ix_key j; omega)

theorem arr (a : Nat) : e.arr a = d.arr a := by rw [Dev.arr, h.arrs, Dev.arr]

theorem livePort (a i : Nat) : e.livePort a i = d.livePort a i := by
  simp only [Dev.livePort, Dev.listPort, Dev.rdB, h.ix2 Reg.AR_MEMBER_valid_hi, h.ix2 Reg.AR_MEMBER_port_hi,
    h.ix2 Reg.AR_MEMBER_valid_lo, h.ix2 Reg.AR_MEMBER_port_lo]
  rfl

theorem memberPort (a i : Nat) : e.memberPort a i = d.memberPort a i := by
  simp only [Dev.memberPort, Dev.rsTargetPorts, h.arr, h.livePort]

theorem members (a : Nat) : e.members a = d.members a := by
  simp only [Dev.members, Dev.memberCount, Dev.rsTargetPorts, h.arr, h.livePort]

theorem memberOn (p : Nat) : e.memberOn p = d.memberOn p := by
  have hen : e.arrEn = d.arrEn := funext fun a => by simp only [Dev.arrEn, Dev.rdB, h.ix Reg.AR_CFG_en]
  simp only [Dev.memberOn, Dev.arrays, hen, h.members, h.memberPort]

end Dev.MembersKept

/-! ### The end of a download -/

/-- The download is over: its record is gone, and it is not shown as running. -/
structure Dev.DfwOver (d e : Dev) : Prop where
  dfw : e.mnt.dfw = none
  running : e.rd Reg.MNT_DFW_STAT_running = 0
  others : ∀ f : Fld, f.key ≠ Reg.MNT_DFW_STAT_running.key → e.rd f = d.rd f
  grows : Dev.Grows d e

theorem Dev.actEnds_same (xs : List Activity) (act : Act) (d : Dev) :
    (forEach xs (fun y d => d.actEnd act y.array) d).regs = d.regs ∧ Dev.Grows d (forEach xs (fun y d => d.actEnd act y.array) d) :=
  forEach_induct (f := fun (y : Activity) (d : Dev) => d.actEnd act y.array) (P := fun e : Dev => e.regs = d.regs ∧ Dev.Grows d e)
    (fun _ _ he => ⟨he.1, he.2.trans (.same rfl rfl)⟩) xs d
    ⟨rfl, .refl d⟩

theorem Dev.dfwPump_over {x : Dfw} (h : d.mnt.dfw = some x) (htodo : x.todo = []) (hactive : x.active = []) :
    Dev.DfwOver d d.dfwPump := by
  have heq : d.dfwPump = d.dfwTidy := by simp only [Dev.dfwPump, h, htodo]; rfl
  rw [heq]
  simp only [Dev.dfwTidy, h, htodo, hactive, List.append_nil, List.map_nil, if_true]
  obtain ⟨hregs, hgrows⟩ := Dev.actEnds_same (d.mnt.acts.filter fun y => y.act = .driveFw && !([] : List Nat).contains y.array) .driveFw d
  generalize forEach (d.mnt.acts.filter fun y => y.act = .driveFw && !([] : List Nat).contains y.array)
    (fun y d => d.actEnd .driveFw y.array) d = w at *
  have hrun : ({ w with mnt := { w.mnt with dfw := none } } : Dev).regs = d.regs := hregs
  refine ⟨rfl, Dev.rd_wr_same _ _ _, fun f hf => ?_, hgrows.trans (.same rfl rfl)⟩
  rw [Dev.rd_wr_other _ _ _ _ hf]
  exact rd_of_regs hrun f

/-- A download with a port that failed. -/
theorem Dev.dfwFail_shows {x : Dfw} (h : d.mnt.dfw = some x) : d.dfwFail.mnt.dfw = some { x with failed := x.failed + 1 } ∧
    d.dfwFail.rd Reg.MNT_DFW_STAT_failed = (x.failed + 1) % 2 ^ 9 ∧ Raised d.dfwFail .mnt 20 ∧
    d.dfwFail.port = d.port := by
  unfold Dev.dfwFail
  have hdfw : (d.updDfw fun x => { x with failed := x.failed + 1 }).mnt.dfw = some { x with failed := x.failed + 1 } := by
    show d.mnt.dfw.map _ = _
    rw [h]
    rfl
  have hraised := (d.updDfw fun x => { x with failed := x.failed + 1 }).causeBit_raised .mnt 20
  generalize hw : (d.updDfw fun x => { x with failed := x.failed + 1 }).causeBit .mnt 20 = w at hraised ⊢
  have hv := Dev.errUncorr_reports w .mnt 5
  have hvdfw : (w.errUncorr .mnt 5).mnt.dfw = some { x with failed := x.failed + 1 } := by
    rw [hv.mnt, ← hw, (Dev.causeBit_reports _ _ _).mnt]
    exact hdfw
  have hport : (w.errUncorr .mnt 5).port = d.port := by rw [← hw]; rfl
  have hvraised : Raised (w.errUncorr .mnt 5) .mnt 20 := (Dev.errUncorr_grows _ _ _).raised hraised
  generalize w.errUncorr .mnt 5 = v at hvdfw hport hvraised ⊢
  unfold Dev.dfwShow
  rw [hvdfw]
  exact ⟨hvdfw, (Dev.rd_wr_other _ _ _ _ (by decide)).trans (Dev.rd_wr_same _ _ _), ((v.wr_grows _ _).trans (Dev.wr_grows _ _ _)).raised hvraised,
    hport⟩

end Machine

section

variable {s : State} {p : Nat}

/-- A download whose last port is p. -/
def DfwLast (d : Dev) (p : Nat) (x : Dfw) : Prop := d.mnt.dfw = some x ∧ x.active = [p] ∧ x.todo = []

theorem DfwLast.contains {d : Dev} {x : Dfw} (h : DfwLast d p x) : (!x.active.contains p) = false := by
  obtain ⟨-, hactive, -⟩ := h
  simp [hactive]

theorem DfwLast.left {d : Dev} {x : Dfw} (h : DfwLast d p x) :
    (d.updDfw fun x => { x with active := x.active.filter (· ≠ p) }).mnt.dfw = some { x with active := [] } := by
  obtain ⟨hdfw, hactive, -⟩ := h
  show d.mnt.dfw.map _ = _
  simp [hdfw, hactive]

/-- The last port fails: its drive is FAILED, and the download is over. -/
theorem Machine.Dev.dfwFail_over {d : Dev} {x : Dfw} {reason : Nat} (hdfw : d.mnt.dfw = some x) (htodo : x.todo = []) (hactive : x.active = [])
    (hp : p < 256) (hreason : reason < 16) :
    let e := ((d.dfwFail.failDrive p reason).dfwPump).settle
    e.mnt.dfw = none ∧ e.ptState p = ptFailed ∧ e.rd (Reg.PT_STAT_reason.ix p) = reason ∧ Raised e .mnt 20 ∧ Raised e .dpx 17 ∧
      e.rd Reg.MNT_DFW_STAT_failed = (x.failed + 1) % 2 ^ 9 := by
  obtain ⟨hfdfw, hfailed, hmnt, -⟩ := Dev.dfwFail_shows hdfw
  obtain ⟨hset, hraised⟩ := d.dfwFail.failDrive_set hp hreason
  have hover : Dev.DfwOver (d.dfwFail.failDrive p reason) ((d.dfwFail.failDrive p reason).dfwPump) :=
    Dev.dfwPump_over (hset.dfw.trans hfdfw) htodo hactive
  have hkeep {f : Fld} (hf : f.key ≠ Reg.MNT_DFW_STAT_running.key) (hs : stateKey f.key = false) :
      ((d.dfwFail.failDrive p reason).dfwPump).settle.rd f = (d.dfwFail.failDrive p reason).rd f :=
    (Dev.settle_rd _ _ hs).trans (hover.others f hf)
  have hgrows := hover.grows.trans (Dev.settle_grows _)
  refine ⟨by rw [Dev.settle_mnt]; exact hover.dfw, (hkeep ?_ (stateKey_of_driveKey (driveKey_ptState hp))).trans hset.state,
    (hkeep ?_ (stateKey_of_driveKey (driveKey_ptReason hp))).trans hset.reason, hgrows.raised (hset.grows.raised hmnt),
    hgrows.raised hraised, (hkeep (by decide) (by decide)).trans ((hset.others _ (by decide) ?_ ?_).trans hfailed)⟩
  all_goals rw [Fld.ix_key]
  · show 0x200004 * 64 + 28 + 4096 * p * 64 ≠ 0x90090 * 64 + 31
    omega
  · show 0x200004 * 64 + 24 + 4096 * p * 64 ≠ 0x90090 * 64 + 31
    omega
  · show 0x90090 * 64 + 9 ≠ 0x200004 * 64 + 28 + 4096 * p * 64
    omega
  · show 0x90090 * 64 + 9 ≠ 0x200004 * 64 + 24 + 4096 * p * 64
    omega

end

end Sys2Proof
end

section
/-! The download of drive firmware, command by command, and the hot-spot second (R225, R230). -/

set_option Elab.async false

namespace Sys2Proof

open Sys2Proof.Machine

section

variable {s : State} {p : Nat} {x : Dfw}

theorem gives_dfwTimeout (hp : p < 256) (hlast : DfwLast s.dev p x) : Gives (.dfwTimeout p) s fun e =>
    e.mnt.dfw = none ∧ e.ptState p = ptFailed ∧ e.rd (Reg.PT_STAT_reason.ix p) = 7 ∧ Raised e .mnt 20 ∧
      e.rd Reg.MNT_DFW_STAT_failed = (x.failed + 1) % 2 ^ 9 := by
  refine gives_onUnit rfl (decide_eq_true hp) ?_
  have heq : s.dev.dfwTimeout p =
      (((s.dev.updDfw fun x => { x with active := x.active.filter (· ≠ p) }).dfwFail).failDrive p 7).dfwPump := by
    unfold Dev.dfwTimeout
    rw [hlast.1]
    exact if_neg (by rw [hlast.contains]; exact Bool.false_ne_true)
  obtain ⟨hdfw, hstate, hreason, hmnt, -, hfailed⟩ := Dev.dfwFail_over (reason := 7) hlast.left hlast.2.2 rfl hp (by decide)
  rw [heq]
  exact ⟨hdfw, hstate, hreason, hmnt, hfailed⟩

theorem gives_dfwPortDone_other {ident : Qword} {ok : Bool} (hp : p < 256) (hlast : DfwLast s.dev p x)
    (hother : (s.dev.port p).identBefore ≠ some ident.toNat) : Gives (.dfwPortDone p ident ok) s fun e =>
      e.mnt.dfw = none ∧ e.ptState p = ptFailed ∧ e.rd (Reg.PT_STAT_reason.ix p) = 5 ∧ Raised e .mnt 20 ∧ Raised e .dpx 17 := by
  refine gives_onUnit rfl (decide_eq_true hp) ?_
  have heq : s.dev.dfwPortDone p ident.toNat ok =
      (((((s.dev.updDfw fun x => { x with active := x.active.filter (· ≠ p) }).updPort p fun s =>
        { s with identBefore := none }).dfwFail).failDrive p 5).dfwPump) := by
    unfold Dev.dfwPortDone
    simp only [hlast.1, hlast.contains, hother, decide_false, Bool.false_and, Bool.false_eq_true, if_false]
  obtain ⟨hdfw, hstate, hreason, hmnt, hdpx, -⟩ := Dev.dfwFail_over (reason := 5)
    (d := (s.dev.updDfw fun x => { x with active := x.active.filter (· ≠ p) }).updPort p fun s => { s with identBefore := none })
    hlast.left hlast.2.2 rfl hp (by decide)
  rw [heq]
  exact ⟨hdfw, hstate, hreason, hmnt, hdpx⟩

theorem gives_dfwPortDone_good {ident : Qword} (hp : p < 256) (hlast : DfwLast s.dev p x)
    (hsame : (s.dev.port p).identBefore = some ident.toNat) (hfree : s.dev.memberOn p = none) :
    Gives (.dfwPortDone p ident true) s fun e => e.mnt.dfw = none ∧ e.rd Reg.MNT_DFW_STAT_done = (x.done + 1) % 2 ^ 9 ∧
      e.rd Reg.MNT_DFW_STAT_running = 0 ∧ e.ptState p = s.dev.ptState p := by
  refine gives_onUnit rfl (decide_eq_true hp) ?_
  unfold Dev.dfwPortDone
  rw [hlast.1]
  dsimp only
  rw [hlast.contains, if_neg Bool.false_ne_true, hsame, decide_eq_true rfl, Bool.and_self, if_pos rfl, if_pos rfl]
  have hudfw : ((s.dev.updDfw fun x => { x with active := x.active.filter (· ≠ p) }).updPort p fun s =>
    { s with identBefore := none }).mnt.dfw = some { x with active := [] } := hlast.left
  have huregs : ((s.dev.updDfw fun x => { x with active := x.active.filter (· ≠ p) }).updPort p fun s =>
    { s with identBefore := none }).regs = s.dev.regs := rfl
  have hulay : ((s.dev.updDfw fun x => { x with active := x.active.filter (· ≠ p) }).updPort p fun s =>
    { s with identBefore := none }).lay = s.dev.lay := rfl
  generalize (s.dev.updDfw fun x => { x with active := x.active.filter (· ≠ p) }).updPort p (fun s =>
    { s with identBefore := none }) = u at *
  have hdone : (u.updDfw fun x => { x with done := x.done + 1 }).mnt.dfw = some { x with active := [], done := x.done + 1 } := by
    show u.mnt.dfw.map _ = _
    rw [hudfw]
    rfl
  have hregs : (u.updDfw fun x => { x with done := x.done + 1 }).regs = s.dev.regs := huregs
  have hlay : (u.updDfw fun x => { x with done := x.done + 1 }).lay = s.dev.lay := hulay
  generalize u.updDfw (fun x => { x with done := x.done + 1 }) = v at *
  have hshow : v.dfwShow = (v.wr Reg.MNT_DFW_STAT_failed x.failed).wr Reg.MNT_DFW_STAT_done (x.done + 1) := by
    unfold Dev.dfwShow
    rw [hdone]
  have hvmembers : Dev.MembersKept s.dev v := .of_eq hregs hlay
  have hmembers := (hvmembers.trans (.wr v Reg.MNT_DFW_STAT_failed x.failed)).trans (.wr _ Reg.MNT_DFW_STAT_done (x.done + 1))
  have hshown : ((v.wr Reg.MNT_DFW_STAT_failed x.failed).wr Reg.MNT_DFW_STAT_done (x.done + 1)).rd Reg.MNT_DFW_STAT_done =
      (x.done + 1) % 2 ^ 9 := Dev.rd_wr_same _ _ _
  have hstate : ((v.wr Reg.MNT_DFW_STAT_failed x.failed).wr Reg.MNT_DFW_STAT_done (x.done + 1)).ptState p = s.dev.ptState p := by
    have hkey (f : Fld) (hf : f.key < 0x200000 * 64) : (Reg.PT_STAT_state.ix p).key ≠ f.key := by
      have hpt : (Reg.PT_STAT_state.ix p).key = 0x200004 * 64 + 28 + 4096 * p * 64 := Fld.ix_key _ _
      omega
    exact (Dev.rd_wr_other _ _ _ _ (hkey _ (by decide))).trans ((Dev.rd_wr_other _ _ _ _ (hkey _ (by decide))).trans (Dev.rd_of_regs hregs _))
  rw [hshow]
  have hwdfw : ((v.wr Reg.MNT_DFW_STAT_failed x.failed).wr Reg.MNT_DFW_STAT_done (x.done + 1)).mnt.dfw =
    some { x with active := [], done := x.done + 1 } := hdone
  generalize (v.wr Reg.MNT_DFW_STAT_failed x.failed).wr Reg.MNT_DFW_STAT_done (x.done + 1) = w at *
  have hrev : (Reg.PT_FWREV_rev.ix p).key = 0x200020 * 64 + 0 + 4096 * p * 64 := Fld.ix_key _ _
  have hy : Dev.MembersKept w ((w.wr (Reg.PT_FWREV_rev.ix p) u.free).nextFree) := .trans (.wr _ _ _ (by omega)) (.of_eq rfl rfl)
  have hydone : ((w.wr (Reg.PT_FWREV_rev.ix p) u.free).nextFree).rd Reg.MNT_DFW_STAT_done = w.rd Reg.MNT_DFW_STAT_done :=
    Dev.rd_wr_other _ _ _ _ (by have : Reg.MNT_DFW_STAT_done.key = 0x90090 * 64 + 0 := rfl; omega)
  have hystate : ((w.wr (Reg.PT_FWREV_rev.ix p) u.free).nextFree).ptState p = w.ptState p := ptState_wr_other _ _ _ _
  have hydfw : ((w.wr (Reg.PT_FWREV_rev.ix p) u.free).nextFree).mnt.dfw = w.mnt.dfw := rfl
  have hfreeY := (hmembers.trans hy).memberOn p
  generalize (w.wr (Reg.PT_FWREV_rev.ix p) u.free).nextFree = y at *
  rw [hfreeY, hfree]
  dsimp only
  have hover : Dev.DfwOver y y.dfwPump := Dev.dfwPump_over (hydfw.trans hwdfw) hlast.2.2 rfl
  have hptkey : (Reg.PT_STAT_state.ix p).key = 0x200004 * 64 + 28 + 4096 * p * 64 := Fld.ix_key _ _
  have hrunkey : Reg.MNT_DFW_STAT_running.key = 0x90090 * 64 + 31 := rfl
  refine ⟨by rw [Dev.settle_mnt]; exact hover.dfw, ?_, (Dev.settle_rd _ _ (by decide)).trans hover.running, ?_⟩
  · rw [Dev.settle_rd _ _ (by decide), hover.others _ (by decide), hydone, hshown]
  · exact (Dev.settle_rd _ _ (stateKey_of_driveKey (driveKey_ptState hp))).trans ((hover.others _ (by omega)).trans (hystate.trans hstate))

end

section

variable {s : State}

/-! ### The start of a download -/

/-- What the image's length and place must be (R225). -/
def ImageFits (d : Dev) : Prop :=
  4 ≤ d.rd Reg.MNT_DFW_LEN_bytes ∧ d.rd Reg.MNT_DFW_LEN_bytes ≤ 64 * 2 ^ 20 ∧ d.rd Reg.MNT_DFW_LEN_bytes % 4 = 0 ∧
    d.rd Reg.MNT_DFW_SRC_offset % 4096 = 0 ∧
    d.rd Reg.MNT_DFW_SRC_offset + d.rd Reg.MNT_DFW_LEN_bytes ≤ d.rd Reg.PWC_SCRATCH_mib * 2 ^ 20

/-- The test of MNT_DFW_CTRL.go that refuses it. -/
def Machine.Dev.dfwRefuses (d : Dev) : Bool :=
  let len := d.rd Reg.MNT_DFW_LEN_bytes
  let src := d.rd Reg.MNT_DFW_SRC_offset
  d.mnt.dfw.isSome || decide (len < 4) || decide (64 * 2 ^ 20 < len) || decide (len % 4 ≠ 0) || decide (src % 4096 ≠ 0) ||
    decide (d.rd Reg.PWC_SCRATCH_mib * 2 ^ 20 < src + len)

theorem Machine.Dev.dfwRefuses_iff (d : Dev) : d.dfwRefuses = true ↔ d.mnt.dfw ≠ none ∨ ¬ ImageFits d := by
  simp only [Dev.dfwRefuses, ImageFits, Bool.or_eq_true, decide_eq_true_eq, ← Option.ne_none_iff_isSome]
  by_cases h : d.mnt.dfw = none
  · simp only [h, ne_eq, not_true_eq_false, false_or]
    omega
  · simp only [ne_eq, h, not_false_eq_true, true_or]

theorem Machine.Dev.dfwRefuses_of_woken {d e : Dev} (h : Dev.Woken d e) : e.dfwRefuses = d.dfwRefuses := by
  simp only [Dev.dfwRefuses, h.rd Reg.MNT_DFW_LEN_bytes, h.rd Reg.MNT_DFW_SRC_offset, h.rd Reg.PWC_SCRATCH_mib, h.mnt]

theorem hostGives_dfwGo_refused (h : s.dev.mnt.dfw ≠ none ∨ ¬ ImageFits s.dev) :
    HostGives 0 .mnt .dfwGo s fun e => Raised e .mnt 3 ∧ Frame s.dev e [] [] := by
  refine hostGives_onPage rfl rfl fun d hd => ?_
  have href : d.dfwRefuses = true := by rw [Dev.dfwRefuses_of_woken hd, Dev.dfwRefuses_iff]; exact h
  have heq : d.dfwGo = d.refuse .mnt := if_pos href
  rw [heq]
  exact ⟨Dev.settle_raised _ _ _ (d.refuse_raised _), ((hd.runs [] []).refuse .mnt).settle.frame⟩

theorem filter_range_eq_singleton {f : Nat → Bool} {n p : Nat} (hp : p < n) (h : ∀ q, q < n → (f q = true ↔ q = p)) :
    (List.range n).filter f = [p] := by
  have hcongr : (List.range n).filter f = (List.range n).filter (· == p) :=
    List.filter_congr fun q hq => by
      have hiff := h q (List.mem_range.mp hq)
      by_cases hqp : q = p
      · rw [hiff.mpr hqp, hqp, beq_self_eq_true]
      · rw [Bool.eq_false_iff.mpr fun hf => hqp (hiff.mp hf), beq_false_of_ne hqp]
  rw [hcongr, List.filter_beq, List.count_eq_one_of_mem List.nodup_range (List.mem_range.mpr hp)]
  rfl

/-- A download to one port in no array has been asked for. -/
structure DfwAsked (d e : Dev) (p : Nat) : Prop where
  dfw : e.mnt.dfw = some ⟨[p], [], 0, 0⟩
  acts : e.mnt.acts = d.mnt.acts
  members : Dev.MembersKept d e
  rd : ∀ f : Fld, f.key ≠ Reg.MNT_DFW_STAT_running.key → f.key ≠ Reg.MNT_DFW_STAT_failed.key → f.key ≠ Reg.MNT_DFW_STAT_done.key →
    e.rd f = d.rd f
  running : e.rd Reg.MNT_DFW_STAT_running = 1
  dram : e.dram = d.dram

/-- The state in which a download to one port is asked for. -/
def Machine.Dev.dfwAsked (d : Dev) (p : Nat) : Dev :=
  ((({ d with mnt := { d.mnt with dfw := some ⟨[p], [], 0, 0⟩ } } : Dev).wr Reg.MNT_DFW_STAT_running 1).wr
    Reg.MNT_DFW_STAT_failed 0).wr Reg.MNT_DFW_STAT_done 0

theorem Machine.Dev.dfwAsked_asked (d : Dev) (p : Nat) : DfwAsked d (d.dfwAsked p) p := by
  unfold Dev.dfwAsked
  have hsame : Dev.MembersKept d { d with mnt := { d.mnt with dfw := some ⟨[p], [], 0, 0⟩ } } := .of_eq rfl rfl
  have hrd (f : Fld) : ({ d with mnt := { d.mnt with dfw := some ⟨[p], [], 0, 0⟩ } } : Dev).rd f = d.rd f := rfl
  have hdfw : ({ d with mnt := { d.mnt with dfw := some ⟨[p], [], 0, 0⟩ } } : Dev).mnt = { d.mnt with dfw := some ⟨[p], [], 0, 0⟩ } := rfl
  have hdram : ({ d with mnt := { d.mnt with dfw := some ⟨[p], [], 0, 0⟩ } } : Dev).dram = d.dram := rfl
  generalize ({ d with mnt := { d.mnt with dfw := some ⟨[p], [], 0, 0⟩ } } : Dev) = w at *
  refine ⟨(congrArg MntState.dfw hdfw : _), (congrArg MntState.acts hdfw : _), ?_, fun f h1 h2 h3 => ?_, ?_, hdram⟩
  · exact ((hsame.trans (.wr w Reg.MNT_DFW_STAT_running 1)).trans (.wr _ Reg.MNT_DFW_STAT_failed 0)).trans
      (.wr _ Reg.MNT_DFW_STAT_done 0)
  · rw [← hrd f]
    exact (Dev.rd_wr_other _ _ _ _ h3).trans ((Dev.rd_wr_other _ _ _ _ h2).trans (Dev.rd_wr_other _ _ _ _ h1))
  · exact (Dev.rd_wr_other _ _ _ _ (by decide)).trans ((Dev.rd_wr_other _ _ _ _ (by decide)).trans (Dev.rd_wr_same _ _ _))

theorem DfwAsked.ptState {d w : Dev} {p : Nat} (h : DfwAsked d w p) (q : Nat) : w.ptState q = d.ptState q := by
  have hkey : (Reg.PT_STAT_state.ix q).key = 0x200004 * 64 + 28 + 4096 * q * 64 := Fld.ix_key _ _
  have hrun : Reg.MNT_DFW_STAT_running.key = 0x90090 * 64 + 31 := rfl
  have hfailed : Reg.MNT_DFW_STAT_failed.key = 0x90090 * 64 + 9 := rfl
  have hdone : Reg.MNT_DFW_STAT_done.key = 0x90090 * 64 + 0 := rfl
  exact h.rd _ (by omega) (by omega) (by omega)

theorem Machine.Dev.dfwGo_alone {d : Dev} {p : Nat} (hp : p < 256) (hgo : d.dfwRefuses = false)
    (hsel : ∀ q, q < 256 → (bitOf (d.rd (Reg.MNT_DFW_PORTS_ports.ix (q / 32))) (q % 32) = true ↔ q = p))
    (hready : d.ptState p = ptReady) (hfree : d.memberOn p = none) :
    d.dfwGo = ((d.dfwAsked p).arbRequest .driveFw wholeDevice).dfwPump := by
  have hports := filter_range_eq_singleton hp hsel
  have hasked := d.dfwAsked_asked p
  have hok : [p].filter (fun q => d.ptState q = ptReady) = [p] := by simp [hready]
  have hrest : [p].filter (fun q => (d.dfwAsked p).ptState q ≠ ptReady) = [] := by simp [hasked.ptState, hready]
  have hscope : (d.dfwAsked p).dfwScope p = wholeDevice := by simp only [Dev.dfwScope, hasked.members.memberOn, hfree]
  unfold Dev.dfwGo
  have hnot : ¬ d.dfwRefuses = true := by rw [hgo]; exact Bool.false_ne_true
  simp only [Dev.dfwRefuses] at hnot
  dsimp only
  rw [if_neg hnot, hports, hok]
  show (forEach (sortRows ([p].map (forEach ([p].filter fun q => (d.dfwAsked p).ptState q ≠ ptReady) (fun _ d => d.dfwFail)
    (d.dfwAsked p)).dfwScope)) (fun a d => d.arbRequest .driveFw a) (forEach ([p].filter fun q => (d.dfwAsked p).ptState q ≠ ptReady)
    (fun _ d => d.dfwFail) (d.dfwAsked p))).dfwPump = _
  rw [hrest]
  show (forEach (sortRows [(d.dfwAsked p).dfwScope p]) (fun a d => d.arbRequest .driveFw a) (d.dfwAsked p)).dfwPump = _
  rw [hscope]
  rfl

/-- The download to the one port asked for begins. -/
theorem Machine.Dev.dfwPump_begins {d : Dev} {p : Nat} (hdfw : d.mnt.dfw = some ⟨[p], [], 0, 0⟩)
    (hacts : d.mnt.acts = [⟨.driveFw, wholeDevice, .running⟩]) (hfree : d.memberOn p = none) :
    d.dfwPump.mnt.dfw = some ⟨[], [p], 0, 0⟩ ∧ d.dfwPump.mnt.acts = d.mnt.acts ∧ d.dfwPump.regs = d.regs ∧ d.dfwPump.dram = d.dram ∧
      .driveFirmware p (d.rd Reg.MNT_DFW_SRC_offset) (d.rd Reg.MNT_DFW_LEN_bytes) ∈ d.dfwPump.emitted := by
  have hmay : d.dfwMay p = true := by simp [Dev.dfwMay, hfree, Dev.actRuns, Dev.running, hacts]
  have hpump : d.dfwPump = (d.dfwBegin p).dfwTidy := by
    simp only [Dev.dfwPump, hdfw, forEach, List.foldl_cons, List.foldl_nil, hmay, if_true]
  have hturnDfw : ((d.updDfw fun x => { x with todo := x.todo.filter (· ≠ p), active := x.active ++ [p] }).updPort p fun s =>
      { s with identBefore := some (d.rd (Reg.PT_ID_id.ix p)) }).mnt = { d.mnt with dfw := some ⟨[], [p], 0, 0⟩ } := by
    show ({ d.mnt with dfw := d.mnt.dfw.map _ } : MntState) = _
    rw [hdfw]
    simp
  have hturn : Dev.MembersKept d ((d.updDfw fun x => { x with todo := x.todo.filter (· ≠ p), active := x.active ++ [p] }).updPort p
      fun s => { s with identBefore := some (d.rd (Reg.PT_ID_id.ix p)) }) := .of_eq rfl rfl
  have hregs : ((d.updDfw fun x => { x with todo := x.todo.filter (· ≠ p), active := x.active ++ [p] }).updPort p fun s =>
      { s with identBefore := some (d.rd (Reg.PT_ID_id.ix p)) }).regs = d.regs := rfl
  have hdram : ((d.updDfw fun x => { x with todo := x.todo.filter (· ≠ p), active := x.active ++ [p] }).updPort p fun s =>
      { s with identBefore := some (d.rd (Reg.PT_ID_id.ix p)) }).dram = d.dram := rfl
  have hbegin : d.dfwBegin p = ((d.updDfw fun x => { x with todo := x.todo.filter (· ≠ p), active := x.active ++ [p] }).updPort p fun s =>
      { s with identBefore := some (d.rd (Reg.PT_ID_id.ix p)) }).emit
        (.driveFirmware p (d.rd Reg.MNT_DFW_SRC_offset) (d.rd Reg.MNT_DFW_LEN_bytes)) := by
    unfold Dev.dfwBegin
    dsimp only
    rw [hturn.memberOn, hfree]
    rfl
  rw [hpump, hbegin]
  generalize (d.updDfw fun x => { x with todo := x.todo.filter (· ≠ p), active := x.active ++ [p] }).updPort p (fun s =>
      { s with identBefore := some (d.rd (Reg.PT_ID_id.ix p)) }) = w at *
  have hv : (w.emit (.driveFirmware p (d.rd Reg.MNT_DFW_SRC_offset) (d.rd Reg.MNT_DFW_LEN_bytes))).mnt =
      { d.mnt with dfw := some ⟨[], [p], 0, 0⟩ } := hturnDfw
  have hvMembers : Dev.MembersKept w (w.emit (.driveFirmware p (d.rd Reg.MNT_DFW_SRC_offset) (d.rd Reg.MNT_DFW_LEN_bytes))) := .of_eq rfl rfl
  have hsent : .driveFirmware p (d.rd Reg.MNT_DFW_SRC_offset) (d.rd Reg.MNT_DFW_LEN_bytes) ∈
      (w.emit (.driveFirmware p (d.rd Reg.MNT_DFW_SRC_offset) (d.rd Reg.MNT_DFW_LEN_bytes))).emitted := List.mem_cons_self
  have hvregs : (w.emit (.driveFirmware p (d.rd Reg.MNT_DFW_SRC_offset) (d.rd Reg.MNT_DFW_LEN_bytes))).regs = d.regs := hregs
  have hvdram : (w.emit (.driveFirmware p (d.rd Reg.MNT_DFW_SRC_offset) (d.rd Reg.MNT_DFW_LEN_bytes))).dram = d.dram := hdram
  have hscope : (w.emit (.driveFirmware p (d.rd Reg.MNT_DFW_SRC_offset) (d.rd Reg.MNT_DFW_LEN_bytes))).dfwScope p = wholeDevice := by
    simp only [Dev.dfwScope, hvMembers.memberOn, hturn.memberOn, hfree]
  generalize w.emit (.driveFirmware p (d.rd Reg.MNT_DFW_SRC_offset) (d.rd Reg.MNT_DFW_LEN_bytes)) = v at *
  have htidy : v.dfwTidy = v := by
    unfold Dev.dfwTidy
    rw [hv]
    simp [hscope, hacts, forEach]
  rw [htidy]
  exact ⟨congrArg MntState.dfw hv, (congrArg MntState.acts hv : _), hvregs, hvdram, hsent⟩

theorem Machine.Dev.Woken.members {d e : Dev} (h : Dev.Woken d e) : Dev.MembersKept d e := by
  refine ⟨fun f hf => h.fields f ?_, by rw [h.same]⟩
  simp only [pstateKey, Bool.and_eq_false_iff, decide_eq_false_iff_not]
  omega

theorem hostGives_dfwGo_alone {p : Nat} (hp : p < 256) (hnone : s.dev.mnt.dfw = none) (himage : ImageFits s.dev)
    (hsel : ∀ q, q < 256 → (bitOf (s.dev.rd (Reg.MNT_DFW_PORTS_ports.ix (q / 32))) (q % 32) = true ↔ q = p))
    (hready : s.dev.ptState p = ptReady) (hfree : s.dev.memberOn p = none) (hacts : s.dev.mnt.acts = []) (hon : s.dev.mntOn = true)
    (hccx : s.dev.blkState .ccx ≠ stFault) : HostGives 0 .mnt .dfwGo s fun e => e.mnt.dfw = some ⟨[], [p], 0, 0⟩ ∧
      .driveFirmware p (s.dev.rd Reg.MNT_DFW_SRC_offset) (s.dev.rd Reg.MNT_DFW_LEN_bytes) ∈ e.emitted ∧
      e.rd Reg.MNT_DFW_STAT_running = 1 ∧ e.actRuns .driveFw 0xFF = true ∧ e.dram = s.dev.dram := by
  refine hostGives_onPage rfl rfl fun d hd => ?_
  have hgo : d.dfwRefuses = false := by
    rw [Dev.dfwRefuses_of_woken hd, Bool.eq_false_iff, ne_eq, Dev.dfwRefuses_iff]
    simp [hnone, himage]
  have hports (q : Nat) (hq : q < 256) :
      d.rd (Reg.MNT_DFW_PORTS_ports.ix (q / 32)) = s.dev.rd (Reg.MNT_DFW_PORTS_ports.ix (q / 32)) := by
    refine hd.fields _ ?_
    have hkey : (Reg.MNT_DFW_PORTS_ports.ix (q / 32)).key = 0x900A0 * 64 + 0 + 4 * (q / 32) * 64 := Fld.ix_key _ _
    rw [hkey]
    simp only [pstateKey, Bool.and_eq_false_iff, decide_eq_false_iff_not]
    omega
  have hstate : d.ptState p = ptReady := by
    refine (hd.fields _ ?_).trans hready
    have hkey : (Reg.PT_STAT_state.ix p).key = 0x200004 * 64 + 28 + 4096 * p * 64 := Fld.ix_key _ _
    rw [hkey]
    simp only [pstateKey, Bool.and_eq_false_iff, decide_eq_false_iff_not]
    omega
  have hfreeD : d.memberOn p = none := (hd.members.memberOn p).trans hfree
  rw [Dev.dfwGo_alone hp hgo (fun q hq => by rw [hports q hq]; exact hsel q hq) hstate hfreeD]
  have hasked := d.dfwAsked_asked p
  generalize d.dfwAsked p = w at hasked ⊢
  have hwacts : w.mnt.acts = [] := hasked.acts.trans ((congrArg MntState.acts hd.mnt).trans hacts)
  have hwon : w.mntOn = true := by
    have hen : w.rd (Reg.BLK_CTRL_en.ix Blk.mnt.page) = s.dev.rd (Reg.BLK_CTRL_en.ix Blk.mnt.page) :=
      (hasked.rd _ (by decide) (by decide) (by decide)).trans (hd.fields _ (by decide))
    rw [Dev.mntOn, Dev.rdB, hen]
    exact hon
  have hwccx : w.blkState .ccx ≠ stFault := by
    have hccx' : w.blkState .ccx = s.dev.blkState .ccx := (hasked.rd _ (by decide) (by decide) (by decide)).trans (hd.blkState .ccx)
    rw [hccx']
    exact hccx
  have hblock : w.blocker .driveFw wholeDevice = none := by
    have hrun : w.running = [] := by rw [Dev.running, hwacts]; rfl
    simp [Dev.blocker, hwon, Dev.meeting, hrun, leastCode, Dev.condHolds, hwccx]
  rw [Dev.arbRequest_alone hwacts _ _ hblock, Dev.actStart_alone hwacts _ _ (by decide)]
  have hposted := Dev.postStarted_reports ({ w with mnt := { w.mnt with acts := [⟨.driveFw, wholeDevice, .running⟩] } } : Dev) .driveFw wholeDevice
  have hmnt := hposted.mnt
  have hregs : (({ w with mnt := { w.mnt with acts := [⟨.driveFw, wholeDevice, .running⟩] } } : Dev).postStarted .driveFw wholeDevice).regs =
      w.regs := by rw [hposted.same]
  have hlay : (({ w with mnt := { w.mnt with acts := [⟨.driveFw, wholeDevice, .running⟩] } } : Dev).postStarted .driveFw wholeDevice).lay =
      w.lay := by rw [hposted.same]
  have hdram : (({ w with mnt := { w.mnt with acts := [⟨.driveFw, wholeDevice, .running⟩] } } : Dev).postStarted .driveFw wholeDevice).dram =
      w.dram := by rw [hposted.same]
  generalize ({ w with mnt := { w.mnt with acts := [⟨.driveFw, wholeDevice, .running⟩] } } : Dev).postStarted .driveFw wholeDevice = v at *
  have hbegin : v.actBegin .driveFw wholeDevice = v := rfl
  have hvfree : v.memberOn p = none := ((hasked.members.trans (.of_eq hregs hlay)).memberOn p).trans hfreeD
  obtain ⟨hdfw, hend, hendRegs, hendDram, hsent⟩ := Dev.dfwPump_begins
    ((congrArg MntState.dfw hmnt).trans hasked.dfw) (congrArg MntState.acts hmnt : _) hvfree
  have hread {f : Fld} (h1 : f.key ≠ Reg.MNT_DFW_STAT_running.key := by decide) (h2 : f.key ≠ Reg.MNT_DFW_STAT_failed.key := by decide)
      (h3 : f.key ≠ Reg.MNT_DFW_STAT_done.key := by decide) : v.rd f = d.rd f :=
    (Dev.rd_of_regs hregs f).trans (hasked.rd f h1 h2 h3)
  rw [hread (f := Reg.MNT_DFW_SRC_offset), hread (f := Reg.MNT_DFW_LEN_bytes), hd.rd Reg.MNT_DFW_SRC_offset, hd.rd Reg.MNT_DFW_LEN_bytes]
    at hsent
  rw [hbegin]
  refine ⟨by rw [Dev.settle_mnt]; exact hdfw, (Dev.settle_grows _).mem hsent, ?_, ?_, ?_⟩
  · rw [Dev.settle_rd _ _ (by decide), Dev.rd_of_regs hendRegs, Dev.rd_of_regs hregs, hasked.running]
  · rw [Dev.actRuns, Dev.running, Dev.settle_mnt, hend, hmnt]
    rfl
  · rw [Dev.settle_dram, hendDram, hdram, hasked.dram, hd.same]

end

end Sys2Proof
end

section
/-! The hot-spot second of an array (R230); drive firmware and hot spots together (R225, R230). -/

set_option Elab.async false

namespace Sys2Proof

open Sys2Proof.Machine

namespace Machine

variable {d : Dev}

theorem Dev.settle_lay (d : Dev) : d.settle.lay = d.lay := (Frame.refl d [] []).settle.part .lay

theorem Dev.settle_arr (d : Dev) (a : Nat) : d.settle.arr a = d.arr a := by rw [Dev.arr, Dev.settle_lay, Dev.arr]

/-- The second of a busy array: its ratio and busiest member are shown. -/
theorem Dev.hotSample_runs {a : Nat} {busy : List Nat} (hen : d.arrEn a = true) (hsome : busy ≠ []) (hload : 100 * busy.length ≤ busy.sum) :
    (d.hotSample a busy).rd (Reg.AR_HOT_ratio.ix a) = min 65535 (busy.foldl max 0 * 100 * busy.length / busy.sum) ∧
      (d.hotSample a busy).rd (Reg.AR_HOT_member.ix a) = (busy.findIdx? (fun x => x = busy.foldl max 0)).getD 0 % 2 ^ 8 ∧
      Dev.Runs d (d.hotSample a busy) [Reg.AR_HOT_ratio.ix a, Reg.AR_HOT_member.ix a] [.lay] := by
  have hnot : (!d.arrEn a || decide (busy.length = 0) || decide (busy.sum < 100 * busy.length)) = false := by
    have hlen : busy.length ≠ 0 := by simpa using hsome
    simp [hen, hlen, hload]
  unfold Dev.hotSample
  dsimp only
  rw [hnot, if_neg Bool.false_ne_true]
  have hw : Dev.Runs d ((d.wr (Reg.AR_HOT_ratio.ix a) (min 65535 (busy.foldl max 0 * 100 * busy.length / busy.sum))).wr (Reg.AR_HOT_member.ix a)
      ((busy.findIdx? (fun x => x = busy.foldl max 0)).getD 0)) [Reg.AR_HOT_ratio.ix a, Reg.AR_HOT_member.ix a] [.lay] :=
    ((Dev.Runs.refl _ _ _).wr _ _ (by simp)).wr _ _ (by simp)
  have hratio : ((d.wr (Reg.AR_HOT_ratio.ix a) (min 65535 (busy.foldl max 0 * 100 * busy.length / busy.sum))).wr (Reg.AR_HOT_member.ix a)
      ((busy.findIdx? (fun x => x = busy.foldl max 0)).getD 0)).rd (Reg.AR_HOT_ratio.ix a) =
      min 65535 (busy.foldl max 0 * 100 * busy.length / busy.sum) := by
    rw [Dev.rd_wr_ix _ _ _ _ _ (by decide), Dev.rd_wr_same, Fld.ix_width]
    exact Nat.mod_eq_of_lt (lt_of_le_of_lt (Nat.min_le_left _ _) (by decide))
  have hmember : ((d.wr (Reg.AR_HOT_ratio.ix a) (min 65535 (busy.foldl max 0 * 100 * busy.length / busy.sum))).wr (Reg.AR_HOT_member.ix a)
      ((busy.findIdx? (fun x => x = busy.foldl max 0)).getD 0)).rd (Reg.AR_HOT_member.ix a) =
      (busy.findIdx? (fun x => x = busy.foldl max 0)).getD 0 % 2 ^ 8 := by rw [Dev.rd_wr_same, Fld.ix_width]; rfl
  generalize (d.wr (Reg.AR_HOT_ratio.ix a) (min 65535 (busy.foldl max 0 * 100 * busy.length / busy.sum))).wr (Reg.AR_HOT_member.ix a)
      ((busy.findIdx? (fun x => x = busy.foldl max 0)).getD 0) = w at *
  generalize hotStep _ _ _ _ = h
  have hv : Dev.Runs w (w.updArr a fun r => { r with hotStreak := h.1, hotQuiet := h.2.1, hotPosted := h.2.2.1 }) [] [.lay] :=
    (Dev.Runs.refl _ _ _).setLay _
  have hall : Dev.Runs w (if h.2.2.2 = true then (w.updArr a fun r => { r with hotStreak := h.1, hotQuiet := h.2.1, hotPosted := h.2.2.1 }).post
      0x60 2 1 a (min 65535 (busy.foldl max 0 * 100 * busy.length / busy.sum)) 0
      else w.updArr a fun r => { r with hotStreak := h.1, hotQuiet := h.2.1, hotPosted := h.2.2.1 }) [] [.lay] :=
    .ite (hv.post _ _ _ _ _ _ _) hv
  have hkept (f : Fld) (hf : 0xE0000 ≤ f.base) :=
    hall.frame.1 (f.ix a) (fun g hg => absurd hg List.not_mem_nil) (Fld.stateKey_ix_of_high f hf a)
  exact ⟨(hkept Reg.AR_HOT_ratio (by decide)).trans hratio, (hkept Reg.AR_HOT_member (by decide)).trans hmember,
    ⟨hw.frame.trans hall.frame (List.nil_subset _) (List.Subset.refl _), hw.grows.trans hall.grows⟩⟩

end Machine

section

variable {s : State} {a : Nat} {busy : List Nat}

theorem gives_hotspotSample (ha : a < 16) (hen : s.dev.arrEn a = true) (hsome : busy ≠ []) (hload : 100 * busy.length ≤ busy.sum) :
    Gives (.hotspotSample [(a, busy)]) s fun e =>
      e.rd (Reg.AR_HOT_ratio.ix a) = min 65535 (busy.foldl max 0 * 100 * busy.length / busy.sum) ∧
      e.rd (Reg.AR_HOT_member.ix a) = (busy.findIdx? (fun x => x = busy.foldl max 0)).getD 0 % 2 ^ 8 ∧
      Frame s.dev e [Reg.AR_HOT_ratio.ix a, Reg.AR_HOT_member.ix a] [.lay] := by
  refine gives_onUnit (f := fun d => forEach [(a, busy)] (fun x d => d.hotSample x.1 x.2) d) rfl (by simp [ha]) ?_
  obtain ⟨hratio, hmember, hruns⟩ := Dev.hotSample_runs hen hsome hload
  have heq : forEach [(a, busy)] (fun x d => d.hotSample x.1 x.2) s.dev = s.dev.hotSample a busy := rfl
  rw [heq]
  have hkey (f : Fld) (hf : 0xE0000 ≤ f.base) := Fld.stateKey_ix_of_high f hf a
  exact ⟨(Dev.settle_rd _ _ (hkey Reg.AR_HOT_ratio (by decide))).trans hratio,
    (Dev.settle_rd _ _ (hkey Reg.AR_HOT_member (by decide))).trans hmember, hruns.settle.frame⟩

theorem gives_hotspotSample_idle (ha : a < 16) (hidle : busy.sum < 100 * busy.length) :
    Gives (.hotspotSample [(a, busy)]) s fun e => (e.arr a).hotStreak = 0 ∧ Frame s.dev e [] [.lay] := by
  refine gives_onUnit (f := fun d => forEach [(a, busy)] (fun x d => d.hotSample x.1 x.2) d) rfl (by simp [ha]) ?_
  have heq : forEach [(a, busy)] (fun x d => d.hotSample x.1 x.2) s.dev = s.dev.updArr a fun r => { r with hotStreak := 0 } := by
    show s.dev.hotSample a busy = _
    unfold Dev.hotSample
    simp only [hidle, decide_true, Bool.or_true, if_true]
  rw [heq]
  have hruns : Dev.Runs s.dev (s.dev.updArr a fun r => { r with hotStreak := 0 }) [] [.lay] := (Dev.Runs.refl _ _ _).setLay _
  exact ⟨by rw [Dev.settle_arr, Dev.arr_updArr], hruns.settle.frame⟩

end

/-- Settles O50: a failed drive's cascade leaves the download alone, and the last port ends it. -/
theorem driveFirmwareAndHotSpots : Obligations.DriveFirmwareAndHotSpots := by
  unfold Obligations.DriveFirmwareAndHotSpots
  intro a p ident busy s hp
  refine ⟨hostGives_dfwGo_refused, fun hnone himage hsel hready hfree hacts hon hccx =>
      hostGives_dfwGo_alone hp hnone himage hsel hready hfree hacts hon hccx,
    fun x hlast hsame hfree => gives_dfwPortDone_good hp hlast hsame hfree,
    fun x ok hlast hother => gives_dfwPortDone_other hp hlast hother, fun x hlast => gives_dfwTimeout hp hlast,
    fun ha hen hsome hload => gives_hotspotSample ha hen hsome hload, fun ha hidle => gives_hotspotSample_idle ha hidle⟩

end Sys2Proof
end

section
/-! The bring-up of a drive port (R237 to R240): what a port's steps change, and what giving out spin-up places leaves. -/

set_option Elab.async false

namespace Sys2Proof

open Sys2Proof.Machine

namespace Machine

variable {a d e : Dev} {fs : List Fld} {ps : List Part} {p q n : Nat}

/-! ### Ports -/

theorem Dev.port_updPort_same (d : Dev) (p : Nat) (g : PortSt → PortSt) : (d.updPort p g).port p = g (d.port p) := Tbl.getD_putD_same _ _ _ _

theorem Dev.port_updPort_other (d : Dev) {p q : Nat} (g : PortSt → PortSt) (h : q ≠ p) : (d.updPort p g).port q = d.port q :=
  Tbl.getD_putD_other _ _ _ _ _ _ h

theorem Dev.port_emit (d : Dev) (x : Emit) (q : Nat) : (d.emit x).port q = d.port q := rfl

theorem Dev.settle_dpx (d : Dev) : d.settle.dpx = d.dpx := (Frame.refl d [] []).settle.part .dpx

theorem Dev.settle_port (d : Dev) (q : Nat) : d.settle.port q = d.port q := by rw [Dev.port, Dev.settle_dpx, Dev.port]

theorem Dev.settle_ptState (d : Dev) (p : Nat) : d.settle.ptState p = d.ptState p :=
  Dev.settle_rd _ _ (Fld.stateKey_ix_of_high _ (by decide) p)

theorem Dev.settle_ix (d : Dev) (f : Fld) (p : Nat) (hf : 0xE0000 ≤ f.base := by decide) : d.settle.rd (f.ix p) = d.rd (f.ix p) :=
  Dev.settle_rd _ _ (Fld.stateKey_ix_of_high f hf p)

/-- A field of a unit that a frame does not name is as before. -/
theorem Dev.Runs.rd_ix (h : Dev.Runs a d fs ps) (f : Fld) (i : Nat) (hfs : ∀ g ∈ fs, (f.ix i).key ≠ g.key) (hf : 0xE0000 ≤ f.base := by decide) :
    d.rd (f.ix i) = a.rd (f.ix i) := h.frame.1 _ hfs (Fld.stateKey_ix_of_high f hf i)

namespace Dev.Runs

variable (h : Dev.Runs a d fs ps)
include h

theorem updPort (p : Nat) (g : PortSt → PortSt) (hp : Part.dpx ∈ ps := by decide) : Dev.Runs a (d.updPort p g) fs ps := h.setDpx _ hp

theorem setPt (p st reason : Nat) (hst : Reg.PT_STAT_state.ix p ∈ fs) (hreason : Reg.PT_STAT_reason.ix p ∈ fs) :
    Dev.Runs a (d.setPt p st reason) fs ps := by
  have hw := (h.wr _ st hst).wr _ reason hreason
  exact .ite hw (hw.causeBit _ _)

theorem unlink (p : Nat) (hrate : Reg.PT_STAT_rate.ix p ∈ fs) (hproto : Reg.PT_STAT_protocol.ix p ∈ fs) (hncq : Reg.PT_STAT_ncq.ix p ∈ fs)
    (hpfa : Reg.PT_STAT_pfa.ix p ∈ fs) (hp : Part.dpx ∈ ps := by decide) : Dev.Runs a (d.unlink p) fs ps := by
  unfold Dev.unlink
  exact ((((h.wr _ 0 hrate).wr _ 0 hproto).wr _ 0 hncq).wr _ 0 hpfa).updPort p _ hp

theorem spoilExit (p : Nat) (hp : Part.lay ∈ ps := by decide) : Dev.Runs a (d.spoilExit p) fs ps := by
  unfold Dev.spoilExit
  split
  · exact h.setLay _ hp
  · exact h

end Dev.Runs

/-! ### Spin-up places (R238, R252) -/

/-- Giving out spin-up places changes the ports' marks of them, and nothing else but messages. -/
structure Dev.Spun (d e : Dev) : Prop where
  regs : e.regs = d.regs
  lay : e.lay = d.lay
  ports : ∀ q, e.port q = { d.port q with spinWait := (e.port q).spinWait, spinning := (e.port q).spinning }
  runs : Dev.Runs d e [] [.dpx]

namespace Dev.Spun

theorem refl (d : Dev) : Dev.Spun d d := ⟨rfl, rfl, fun _ => rfl, .refl _ _ _⟩

theorem ite {c : Prop} [Decidable c] (h : Dev.Spun a d) (k : Dev.Spun a e) : Dev.Spun a (if c then d else e) := by split <;> assumption

section

variable (h : Dev.Spun a d)
include h

theorem emit (x : Emit) : Dev.Spun a (d.emit x) := ⟨h.regs, h.lay, h.ports, h.runs.emit x⟩

theorem updPort (p : Nat) (w v : PortSt → Bool) : Dev.Spun a (d.updPort p fun s => { s with spinWait := w s, spinning := v s }) := by
  refine ⟨h.regs, h.lay, fun q => ?_, h.runs.updPort p _⟩
  by_cases hq : q = p
  · subst hq
    rw [Dev.port_updPort_same, h.ports q]
  · rw [Dev.port_updPort_other _ _ hq]
    exact h.ports q

end

theorem spinPump : ∀ (fuel n : Nat) (d : Dev), Dev.Spun a d → Dev.Spun a (Dev.spinPump fuel n d)
  | 0, _, _, h => h
  | fuel + 1, n, d, h => by
    rw [Dev.spinPump]
    dsimp only
    split
    · exact h
    · next p _ =>
      have hturn : Dev.Spun a (d.updPort p fun s => { s with spinWait := false, spinning := true }) :=
        h.updPort p (fun _ => false) fun _ => true
      exact .ite h (spinPump fuel n _ (.ite (hturn.emit _) (hturn.emit _)))

theorem spinUp (h : Dev.Spun a d) (n : Nat) : Dev.Spun a (d.spinUp n) := spinPump _ _ _ h

variable (h : Dev.Spun d e)
include h

theorem rd (f : Fld) : e.rd f = d.rd f := Dev.rd_of_regs h.regs f

theorem dev (q : Nat) : (e.port q).dev = (d.port q).dev := by rw [h.ports q]

theorem grace (q : Nat) : (e.port q).grace = (d.port q).grace := by rw [h.ports q]

end Dev.Spun

/-- With one port that waits, it gets the place. -/
theorem Dev.spinUp_one {p n : Nat} (hn : p / 32 = n) (hwait : (d.port p).spinWait = true) (hstate : d.ptState p = ptIdentifying)
    (hothers : ∀ q, q / 32 = n → q ≠ p → (d.port q).spinWait = false)
    (hroom : ((clusterPorts n).filter fun q => (d.port q).spinning).length < d.rd Reg.DPX_CFG_spinup_max) :
    d.spinUp n = (d.updPort p fun s => { s with spinWait := false, spinning := true }).emit (.driveSpinup p) := by
  have hports (q : Nat) (hq : q ∈ clusterPorts n) : q / 32 = n := by
    simp only [clusterPorts, List.mem_map, List.mem_range] at hq
    omega
  have hmem : p ∈ clusterPorts n := by
    simp only [clusterPorts, List.mem_map, List.mem_range]
    exact ⟨p % 32, by omega, by omega⟩
  have hnodup : (clusterPorts n).Nodup := List.Nodup.map (fun x y h => by omega) List.nodup_range
  have hready (f : Nat → Bool) (hf : f p = true) (hrest : ∀ q, q / 32 = n → q ≠ p → f q = false) : (clusterPorts n).filter f = [p] := by
    have hcongr : (clusterPorts n).filter f = (clusterPorts n).filter (· == p) :=
      List.filter_congr fun q hq => by
        by_cases hqp : q = p
        · rw [hqp, hf, beq_self_eq_true]
        · rw [hrest q (hports q hq) hqp, beq_false_of_ne hqp]
    rw [hcongr, List.filter_beq, List.count_eq_one_of_mem hnodup hmem]
    rfl
  have hnotready : decide (d.ptState p = ptReady) = false := by rw [hstate]; rfl
  have hnone : ∀ (fuel : Nat) (w : Dev), (∀ q, q / 32 = n → (w.port q).spinWait = false) → Dev.spinPump fuel n w = w := by
    intro fuel w hw
    cases fuel with
    | zero => rfl
    | succ fuel =>
      have hempty (f : Nat → Bool) (hf : ∀ q, q / 32 = n → f q = false) : (clusterPorts n).filter f = [] :=
        List.filter_eq_nil_iff.mpr fun q hq => by rw [hf q (hports q hq)]; exact Bool.false_ne_true
      rw [Dev.spinPump]
      dsimp only
      rw [hempty _ fun q hq => by rw [hw q hq]; rfl]
      rfl
  have hturn : (d.updPort p fun s => { s with spinWait := false, spinning := true }).ptState p ≠ ptReady := by
    show d.ptState p ≠ ptReady
    rw [hstate]
    decide
  have hpump : (if d.rd Reg.DPX_CFG_spinup_max ≤ ((clusterPorts n).filter fun q => (d.port q).spinning).length then d
      else Dev.spinPump 31 n (if (d.updPort p fun s => { s with spinWait := false, spinning := true }).ptState p = ptReady
        then (d.updPort p fun s => { s with spinWait := false, spinning := true }).emit (.drivePower p 0)
        else (d.updPort p fun s => { s with spinWait := false, spinning := true }).emit (.driveSpinup p))) =
      (d.updPort p fun s => { s with spinWait := false, spinning := true }).emit (.driveSpinup p) := by
    rw [if_neg (by omega), if_neg hturn]
    refine hnone _ _ fun q hq => ?_
    rw [Dev.port_emit]
    by_cases hqp : q = p
    · rw [hqp, Dev.port_updPort_same]
    · rw [Dev.port_updPort_other _ _ hqp]
      exact hothers q hq hqp
  unfold Dev.spinUp
  rw [Dev.spinPump]
  dsimp only
  rw [hready _ (by rw [hwait, hnotready]; simp) (fun q hq hne => by rw [hothers q hq hne]; rfl), List.find?_singleton]
  cases decide ((d.port p).queue ≠ []) <;> exact hpump

end Machine

end Sys2Proof
end

section
/-! A device on a waiting port, its spin-up place and its identification (R238, R239). -/

set_option Elab.async false

namespace Sys2Proof

open Sys2Proof.Machine

/-- The fields that a port shows of its link. -/
def portLink (p : Nat) : List Fld :=
  [Reg.PT_STAT_state.ix p, Reg.PT_STAT_reason.ix p, Reg.PT_STAT_rate.ix p, Reg.PT_STAT_protocol.ix p, Reg.PT_STAT_ncq.ix p,
    Reg.PT_STAT_pfa.ix p]

/-- The fields that identification fills in. -/
def portNames (p : Nat) : List Fld :=
  [Reg.PT_STAT_state.ix p, Reg.PT_STAT_reason.ix p, Reg.PT_STAT_ncq.ix p, Reg.PT_ID_id.ix p, Reg.PT_BLOCKS_blocks.ix p,
    Reg.PT_FMT_phys_bytes.ix p, Reg.PT_FMT_log_bytes.ix p, Reg.PT_FWREV_rev.ix p]

namespace Machine

variable {a d e : Dev} {fs : List Fld} {ps : List Part} {p q n : Nat} {x : DriveInfo}

theorem DriveInfo.refusal_le (x : DriveInfo) (rate : Nat) (twin : Bool) {r : Nat} (h : x.refusal rate twin = some r) : r ≤ 9 := by
  unfold DriveInfo.refusal at h
  grind

/-- Another port's drive of the same address is there, or not, wherever the other ports are as before. -/
theorem Dev.twin_congr (hst : ∀ q, e.ptState q = d.ptState q) (hdev : ∀ q, q ≠ p → (e.port q).dev = (d.port q).dev) :
    e.twin p x = d.twin p x := by
  unfold Dev.twin
  refine congrArg (List.any (List.range 256)) (funext fun q => ?_)
  by_cases hq : q = p
  · simp [hq]
  · rw [hst q, hdev q hq]

theorem Dev.ptState_of_regs (h : e.regs = d.regs) (q : Nat) : e.ptState q = d.ptState q := Dev.rd_of_regs h _

/-! ### The device shows (R238, steps 1 to 3) -/

/-- A port whose link is up with a device on it. -/
def Dev.linked (d : Dev) (p : Nat) (x : DriveInfo) : Dev :=
  (((d.unlink p).updPort p fun s => { s with dev := some x }).wr (Reg.PT_STAT_rate.ix p) (d.lineRate p x)).wr
    (Reg.PT_STAT_protocol.ix p) (if x.proto = .sas then 1 else 2)

theorem Dev.updPort_ptState (d : Dev) (p : Nat) (g : PortSt → PortSt) (q : Nat) : (d.updPort p g).ptState q = d.ptState q := rfl

theorem Dev.unlink_ptState (d : Dev) (p q : Nat) : (d.unlink p).ptState q = d.ptState q := by
  unfold Dev.unlink
  dsimp only
  rw [Dev.updPort_ptState, ptState_wr_other _ _ _ _ (by decide), ptState_wr_other _ _ _ _ (by decide), ptState_wr_other _ _ _ _ (by decide),
    ptState_wr_other _ _ _ _ (by decide)]

theorem Dev.unlink_port_other (d : Dev) {p q : Nat} (h : q ≠ p) : (d.unlink p).port q = d.port q := by
  unfold Dev.unlink
  exact Dev.port_updPort_other _ _ h

theorem Dev.linked_ptState (d : Dev) (p : Nat) (x : DriveInfo) (q : Nat) : (d.linked p x).ptState q = d.ptState q := by
  unfold Dev.linked
  rw [ptState_wr_other _ Reg.PT_STAT_protocol _ _, ptState_wr_other _ Reg.PT_STAT_rate _ _, Dev.updPort_ptState]
  exact d.unlink_ptState p q

theorem Dev.linked_twin (d : Dev) (p : Nat) (x : DriveInfo) : (d.linked p x).twin p x = d.twin p x := by
  refine Dev.twin_congr (d.linked_ptState p x) fun q hq => ?_
  have hport : (d.linked p x).port q = ((d.unlink p).updPort p fun s => { s with dev := some x }).port q := rfl
  rw [hport, Dev.port_updPort_other _ _ hq, d.unlink_port_other hq]

theorem Dev.linked_dev (d : Dev) (p : Nat) (x : DriveInfo) : ((d.linked p x).port p).dev = some x := by
  show (((d.unlink p).updPort p fun s => { s with dev := some x }).port p).dev = some x
  rw [Dev.port_updPort_same]

theorem Dev.linked_rate (d : Dev) (p : Nat) (x : DriveInfo) : (d.linked p x).rd (Reg.PT_STAT_rate.ix p) = d.lineRate p x % 2 ^ 3 := by
  unfold Dev.linked
  rw [Dev.rd_wr_ix _ _ _ _ _ (by decide), Dev.rd_wr_same, Fld.ix_width]
  rfl

theorem Dev.linked_protocol (d : Dev) (p : Nat) (x : DriveInfo) :
    (d.linked p x).rd (Reg.PT_STAT_protocol.ix p) = if x.proto = .sas then 1 else 2 := by
  unfold Dev.linked
  rw [Dev.rd_wr_same, Fld.ix_width]
  split <;> rfl

theorem Dev.linked_runs (d : Dev) (p : Nat) (x : DriveInfo) : Dev.Runs d (d.linked p x) (portLink p) [.dpx] := by
  unfold Dev.linked
  exact ((((Dev.Runs.refl d _ _).unlink p (by simp [portLink]) (by simp [portLink]) (by simp [portLink]) (by simp [portLink])).updPort
    p _).wr _ _ (by simp [portLink])).wr _ _ (by simp [portLink])

/-- Whether a port waits for a device on a cluster that is up. -/
def Dev.waits (d : Dev) (p : Nat) : Prop :=
  (d.ptState p = ptEmpty ∨ d.ptState p = ptLinking ∨ d.ptState p = ptResetting) ∧ d.sys.pdDrv.getD (p / 32) false = true ∧
    d.clState (p / 32) = clUp

theorem Dev.cominit_eq (h : d.waits p) : d.cominit p x =
    if x.refusedEarly (d.lineRate p x) (d.twin p x) then
      (d.linked p x).refuseDevice p ((x.refusal (d.lineRate p x) (d.twin p x)).getD 1)
    else if x.proto = .sas then
      (((d.linked p x).setPt p ptIdentifying 0).updPort p fun s => { s with spinWait := true }).spinUp (p / 32)
    else (d.linked p x).setPt p ptIdentifying 0 := by
  obtain ⟨hst, hpower, hup⟩ := h
  have hgo : (!(d.ptState p = ptEmpty || d.ptState p = ptLinking || d.ptState p = ptResetting) ||
      !(d.sys.pdDrv.getD (p / 32) false) || decide (d.clState (p / 32) = clOff) || decide (d.clState (p / 32) = clFailed)) = false := by
    rw [hpower, hup]
    rcases hst with h | h | h <;> rw [h] <;> rfl
  rw [← d.linked_twin p x]
  unfold Dev.cominit
  dsimp only
  rw [hgo, if_neg Bool.false_ne_true, if_neg (show ¬ d.clState (p / 32) = clResetting by rw [hup]; decide)]
  rfl

end Machine

section

variable {s : State} {p n : Nat} {x : DriveInfo}

theorem gives_portCominit_refused (hp : p < 256) (h : s.dev.waits p)
    (hearly : x.refusedEarly (s.dev.lineRate p x) (s.dev.twin p x) = true) : Gives (.portCominit p x) s fun e =>
      e.ptState p = ptUnsupported ∧
      e.rd (Reg.PT_STAT_reason.ix p) = (x.refusal (s.dev.lineRate p x) (s.dev.twin p x)).getD 1 ∧ Raised e .dpx 18 ∧
      Frame s.dev e (portLink p) [.dpx] := by
  refine gives_onUnit rfl (decide_eq_true hp) ?_
  have hreason : (x.refusal (s.dev.lineRate p x) (s.dev.twin p x)).getD 1 < 16 := by
    cases hr : x.refusal (s.dev.lineRate p x) (s.dev.twin p x) with
    | none => decide
    | some r =>
      have := DriveInfo.refusal_le x _ _ hr
      rw [Option.getD_some]
      omega
  rw [Dev.cominit_eq h, if_pos hearly]
  generalize (x.refusal (s.dev.lineRate p x) (s.dev.twin p x)).getD 1 = r at *
  have hset := ((s.dev.linked p x).setPt_set hp (st := ptUnsupported) (by decide) hreason).kept ((Dev.DriveKept.refl _).causeBit .dpx 18) hp
  have hruns : Dev.Runs s.dev ((s.dev.linked p x).refuseDevice p r) (portLink p) [.dpx] :=
    ((s.dev.linked_runs p x).setPt p _ _ (by simp [portLink]) (by simp [portLink])).causeBit _ _
  exact ⟨(Dev.settle_ptState _ _).trans hset.state, (Dev.settle_ix _ Reg.PT_STAT_reason p).trans hset.reason,
    (Dev.settle_grows _).raised (Dev.causeBit_raised _ _ _), hruns.settle.frame⟩

/-- What a device that is not refused leaves: the port identifies it. -/
structure Identifies (d e : Dev) (p : Nat) (x : DriveInfo) : Prop where
  state : e.ptState p = ptIdentifying
  reason : e.rd (Reg.PT_STAT_reason.ix p) = 0
  dev : (e.port p).dev = some x
  rate : e.rd (Reg.PT_STAT_rate.ix p) = d.lineRate p x % 2 ^ 3
  protocol : e.rd (Reg.PT_STAT_protocol.ix p) = if x.proto = .sas then 1 else 2
  frame : Frame d e (portLink p) [.dpx]

theorem Machine.Dev.setPt_rd_ix (d : Dev) (p st reason : Nat) (f : Fld) (h1 : f.apart Reg.PT_STAT_state = true := by decide)
    (h2 : f.apart Reg.PT_STAT_reason = true := by decide) : (d.setPt p st reason).rd (f.ix p) = d.rd (f.ix p) := by
  have hw : ((d.wr (Reg.PT_STAT_state.ix p) st).wr (Reg.PT_STAT_reason.ix p) reason).rd (f.ix p) = d.rd (f.ix p) :=
    (Dev.rd_wr_ix _ _ _ _ _ h2).trans (Dev.rd_wr_ix _ _ _ _ _ h1)
  unfold Dev.setPt
  dsimp only
  split
  · exact hw
  · rw [Dev.causeBit_rd, hw]

theorem Machine.Dev.setPt_port (d : Dev) (p st reason q : Nat) : (d.setPt p st reason).port q = d.port q := by
  unfold Dev.setPt
  dsimp only
  split <;> rfl

theorem gives_portCominit (hp : p < 256) (h : s.dev.waits p)
    (hearly : x.refusedEarly (s.dev.lineRate p x) (s.dev.twin p x) = false) : Gives (.portCominit p x) s fun e => Identifies s.dev e p x := by
  refine gives_onUnit rfl (decide_eq_true hp) ?_
  rw [Dev.cominit_eq h, hearly, if_neg Bool.false_ne_true]
  have hset := (s.dev.linked p x).setPt_set hp (st := ptIdentifying) (reason := 0) (by decide) (by decide)
  have hruns : Dev.Runs s.dev ((s.dev.linked p x).setPt p ptIdentifying 0) (portLink p) [.dpx] :=
    (s.dev.linked_runs p x).setPt p _ _ (by simp [portLink]) (by simp [portLink])
  have hdev : (((s.dev.linked p x).setPt p ptIdentifying 0).port p).dev = some x := by rw [Dev.setPt_port]; exact s.dev.linked_dev p x
  have hrate := ((s.dev.linked p x).setPt_rd_ix p ptIdentifying 0 Reg.PT_STAT_rate).trans (s.dev.linked_rate p x)
  have hproto := ((s.dev.linked p x).setPt_rd_ix p ptIdentifying 0 Reg.PT_STAT_protocol).trans (s.dev.linked_protocol p x)
  have hstate := hset.state
  have hreason := hset.reason
  clear hset
  generalize (s.dev.linked p x).setPt p ptIdentifying 0 = w at *
  have hspun : Dev.Spun w (if x.proto = .sas then (w.updPort p fun s => { s with spinWait := true }).spinUp (p / 32) else w) :=
    .ite (((Dev.Spun.refl w).updPort p (fun _ => true) PortSt.spinning).spinUp _) (.refl w)
  have hend := (hruns.trans hspun.runs (List.nil_subset _)).settle.frame
  have hback (f : Fld) (hf : 0xE0000 ≤ f.base) := (Dev.settle_ix (if x.proto = .sas then
    (w.updPort p fun s => { s with spinWait := true }).spinUp (p / 32) else w) f p hf).trans (hspun.rd _)
  exact ⟨(hback Reg.PT_STAT_state (by decide)).trans hstate, (hback Reg.PT_STAT_reason (by decide)).trans hreason,
    by rw [Dev.settle_port, hspun.dev, hdev], (hback Reg.PT_STAT_rate (by decide)).trans hrate,
    (hback Reg.PT_STAT_protocol (by decide)).trans hproto, hend⟩

theorem gives_spinupSlot (hn : n < 8) (hpn : p / 32 = n) (hwait : (s.dev.port p).spinWait = true) (hstate : s.dev.ptState p = ptIdentifying)
    (hothers : ∀ q, q / 32 = n → q ≠ p → (s.dev.port q).spinWait = false)
    (hroom : ((clusterPorts n).filter fun q => (s.dev.port q).spinning).length < s.dev.rd Reg.DPX_CFG_spinup_max) :
    Gives (.spinupSlot n) s fun e => (e.port p).spinning = true ∧ (e.port p).spinWait = false ∧ .driveSpinup p ∈ e.emitted ∧
      Frame s.dev e [] [.dpx] := by
  refine gives_onUnit rfl (decide_eq_true hn) ?_
  rw [Dev.spinUp_one hpn hwait hstate hothers hroom]
  have hport : (((s.dev.updPort p fun s => { s with spinWait := false, spinning := true }).emit (.driveSpinup p)).port p) =
      { s.dev.port p with spinWait := false, spinning := true } := by rw [Dev.port_emit, Dev.port_updPort_same]
  have hruns : Dev.Runs s.dev ((s.dev.updPort p fun s => { s with spinWait := false, spinning := true }).emit (.driveSpinup p)) [] [.dpx] :=
    ((Dev.Runs.refl _ _ _).updPort p _).emit _
  exact ⟨by rw [Dev.settle_port, hport], by rw [Dev.settle_port, hport], (Dev.settle_grows _).mem List.mem_cons_self, hruns.settle.frame⟩

end

end Sys2Proof
end

section
/-! A drive that is ready, or not in time; a port that goes to partial (R238, R244, R250, R252). -/

set_option Elab.async false

namespace Sys2Proof

open Sys2Proof.Machine

namespace Machine

variable {a d e : Dev} {fs : List Fld} {ps : List Part} {p q n : Nat} {x : DriveInfo}

/-! ### What goes out of a port keeps its grace -/

/-- The marks of grace of all ports are as before. -/
def Dev.GraceKept (d e : Dev) : Prop := ∀ q, (e.port q).grace = (d.port q).grace

namespace Dev.GraceKept

theorem updPort (h : Dev.GraceKept a d) (p : Nat) (g : PortSt → PortSt) (hg : ∀ s, (g s).grace = s.grace := by exact fun _ => rfl) :
    Dev.GraceKept a (d.updPort p g) := by
  intro q
  by_cases hq : q = p
  · rw [hq, Dev.port_updPort_same, hg]
    exact h p
  · rw [Dev.port_updPort_other _ _ hq]
    exact h q

theorem updOp (h : Dev.GraceKept a d) (id : Nat) (g : MemberOp → MemberOp) : Dev.GraceKept a (d.updOp id g) := h

theorem ite {c : Prop} [Decidable c] (h : Dev.GraceKept a d) (k : Dev.GraceKept a e) : Dev.GraceKept a (if c then d else e) := by
  split <;> assumption

theorem sendOp (h : Dev.GraceKept a d) (o : MemberOp) : Dev.GraceKept a (d.sendOp o) := fun q => by
  have hdpx : (d.sendOp o).dpx = d.dpx := ((Dev.Runs.refl d [] []).sendOp o).frame.part .dpx
  rw [Dev.port, hdpx]
  exact h q

theorem pump : ∀ (fuel p : Nat) (d : Dev), Dev.GraceKept a d → Dev.GraceKept a (Dev.pump fuel p d)
  | 0, _, _, h => h
  | fuel + 1, p, d, h => by
    rw [Dev.pump]
    split
    · exact h
    split
    · exact pump fuel p _ (h.updPort p _)
    · exact .ite (pump fuel p _ (((h.updOp _ _).updPort p _).sendOp _)) h

end Dev.GraceKept

theorem Dev.requeue_runs (d : Dev) (p : Nat) : Dev.Runs d (d.requeue p) [] [.dpx, .lay] := by
  unfold Dev.requeue
  extract_lets ids w
  have hw : Dev.Runs d w [] [.dpx, .lay] := .forEach _ (.refl _ _ _) fun id e he => he.setLay _
  exact hw.updPort p _

theorem Dev.requeue_grace (d : Dev) (p : Nat) : Dev.GraceKept d (d.requeue p) := by
  unfold Dev.requeue
  extract_lets ids w
  have hw : Dev.GraceKept d w := forEach_induct (f := fun (id : Nat) (d : Dev) => d.updOp id fun o => { o with st := .queued })
    (P := Dev.GraceKept d) (fun _ _ he => he) ids d fun _ => rfl
  exact hw.updPort p _

theorem Dev.Runs.pumpPort (h : Dev.Runs a d fs ps) (p : Nat) (hl : Part.lay ∈ ps := by decide) (hp : Part.dpx ∈ ps := by decide) :
    Dev.Runs a (d.pumpPort p) fs ps := .pump hl hp _ _ _ h

/-! ### Identification (R238 step 5) -/

/-- A port whose drive has been identified, its place given on. -/
def Dev.identified (d : Dev) (p : Nat) (x : DriveInfo) : Dev :=
  (((d.updPort p fun s => { s with spinWait := false, spinning := false }).spinUp (p / 32)).fillIn p x)

theorem Dev.Runs.fillIn (h : Dev.Runs a d (portNames p) ps) : Dev.Runs a (d.fillIn p x) (portNames p) ps := by
  unfold Dev.fillIn
  exact (((((h.wr _ _ (by simp [portNames])).wr _ _ (by simp [portNames])).wr _ _ (by simp [portNames])).wr _ _ (by simp [portNames])).wr _ _
    (by simp [portNames])).wr _ _ (by simp [portNames])

theorem Dev.fillIn_rd_ix (d : Dev) (p : Nat) (x : DriveInfo) (f : Fld) (h1 : f.apart Reg.PT_ID_id = true := by decide)
    (h2 : f.apart Reg.PT_BLOCKS_blocks = true := by decide) (h3 : f.apart Reg.PT_FMT_phys_bytes = true := by decide)
    (h4 : f.apart Reg.PT_FMT_log_bytes = true := by decide) (h5 : f.apart Reg.PT_FWREV_rev = true := by decide)
    (h6 : f.apart Reg.PT_STAT_ncq = true := by decide) : (d.fillIn p x).rd (f.ix p) = d.rd (f.ix p) := by
  unfold Dev.fillIn
  rw [Dev.rd_wr_ix _ _ _ _ _ h6, Dev.rd_wr_ix _ _ _ _ _ h5, Dev.rd_wr_ix _ _ _ _ _ h4, Dev.rd_wr_ix _ _ _ _ _ h3,
    Dev.rd_wr_ix _ _ _ _ _ h2, Dev.rd_wr_ix _ _ _ _ _ h1]

theorem Dev.fillIn_ptState (d : Dev) (p : Nat) (x : DriveInfo) (q : Nat) : (d.fillIn p x).ptState q = d.ptState q := by
  unfold Dev.fillIn
  rw [ptState_wr_other _ _ _ _ (by decide), ptState_wr_other _ _ _ _ (by decide), ptState_wr_other _ _ _ _ (by decide),
    ptState_wr_other _ _ _ _ (by decide), ptState_wr_other _ _ _ _ (by decide), ptState_wr_other _ _ _ _ (by decide)]

theorem Dev.fillIn_id (d : Dev) (p : Nat) (x : DriveInfo) : (d.fillIn p x).rd (Reg.PT_ID_id.ix p) = x.ident.toNat := by
  unfold Dev.fillIn
  rw [Dev.rd_wr_ix _ _ _ _ _ (by decide), Dev.rd_wr_ix _ _ _ _ _ (by decide), Dev.rd_wr_ix _ _ _ _ _ (by decide),
    Dev.rd_wr_ix _ _ _ _ _ (by decide), Dev.rd_wr_ix _ _ _ _ _ (by decide), Dev.rd_wr_same, Fld.ix_width]
  exact Nat.mod_eq_of_lt x.ident.isLt

theorem Dev.fillIn_blocks (d : Dev) (p : Nat) (x : DriveInfo) : (d.fillIn p x).rd (Reg.PT_BLOCKS_blocks.ix p) = x.blocks % 2 ^ 64 := by
  unfold Dev.fillIn
  rw [Dev.rd_wr_ix _ _ _ _ _ (by decide), Dev.rd_wr_ix _ _ _ _ _ (by decide), Dev.rd_wr_ix _ _ _ _ _ (by decide),
    Dev.rd_wr_ix _ _ _ _ _ (by decide), Dev.rd_wr_same, Fld.ix_width]
  rfl

/-- What identification leaves of a port, and what it shows. -/
structure Dev.Identified (d e : Dev) (p : Nat) (x : DriveInfo) : Prop where
  state : ∀ q, e.ptState q = d.ptState q
  rate : e.rd (Reg.PT_STAT_rate.ix p) = d.rd (Reg.PT_STAT_rate.ix p)
  twin : e.twin p x = d.twin p x
  grace : (e.port p).grace = (d.port p).grace
  id : e.rd (Reg.PT_ID_id.ix p) = x.ident.toNat
  blocks : e.rd (Reg.PT_BLOCKS_blocks.ix p) = x.blocks % 2 ^ 64
  runs : Dev.Runs d e (portNames p) [.dpx]

theorem Dev.identified_identified (d : Dev) (p : Nat) (x : DriveInfo) : Dev.Identified d (d.identified p x) p x := by
  have hspun : Dev.Spun d ((d.updPort p fun s => { s with spinWait := false, spinning := false }).spinUp (p / 32)) :=
    ((Dev.Spun.refl d).updPort p (fun _ => false) fun _ => false).spinUp _
  unfold Dev.identified
  generalize (d.updPort p fun s => { s with spinWait := false, spinning := false }).spinUp (p / 32) = w at *
  have hport (q : Nat) : (w.fillIn p x).port q = w.port q := rfl
  have hstate (q : Nat) : (w.fillIn p x).ptState q = d.ptState q := (w.fillIn_ptState p x q).trans (Dev.ptState_of_regs hspun.regs q)
  refine ⟨hstate, (w.fillIn_rd_ix p x Reg.PT_STAT_rate).trans (hspun.rd _), Dev.twin_congr hstate fun q _ => ?_, ?_, w.fillIn_id p x,
    w.fillIn_blocks p x, (hspun.runs.mono (List.nil_subset _)).fillIn⟩
  · rw [hport, hspun.dev]
  · rw [hport, hspun.grace]

/-- What becomes of an identified drive (R238 steps 5 and 6, R239, R246). -/
theorem Dev.driveReady_eq (hst : d.ptState p = ptIdentifying) (hx : (d.port p).dev = some x) : d.driveReady p =
    match x.refusal (d.rd (Reg.PT_STAT_rate.ix p)) (d.twin p x) with
    | some r => (d.identified p x).refuseDevice p r
    | none =>
      if (d.port p).grace && decide (d.rd (Reg.PT_ID_id.ix p) = x.ident.toNat) then
        ((((d.identified p x).setPt p ptReady 0).updPort p fun s => { s with grace := false }).requeue p).pumpPort p
      else
        ((((if (d.port p).grace then (d.identified p x).driveLeft p else d.identified p x).setPt p ptReady 0).post 0x01 0
          (p + (if x.proto = .sas then 1 else 2) * 4096) (x.blocks % 2 ^ 32) (x.blocks / 2 ^ 32) 0).labelSeen p x).pumpPort p := by
  have hid := d.identified_identified p x
  rw [← hid.rate, ← hid.twin, ← hid.grace]
  unfold Dev.driveReady
  rw [if_neg (show ¬ d.ptState p = ptReady by rw [hst]; decide), if_neg (show ¬ d.ptState p ≠ ptIdentifying from fun h => h hst), hx]
  rfl

end Machine

section

variable {s : State} {p : Nat} {x : DriveInfo}

theorem gives_driveReady_refused {r : Nat} (hp : p < 256) (hst : s.dev.ptState p = ptIdentifying) (hx : (s.dev.port p).dev = some x)
    (hr : x.refusal (s.dev.rd (Reg.PT_STAT_rate.ix p)) (s.dev.twin p x) = some r) : Gives (.driveReady p) s fun e =>
      e.ptState p = ptUnsupported ∧ e.rd (Reg.PT_STAT_reason.ix p) = r ∧ Raised e .dpx 18 ∧ Frame s.dev e (portNames p) [.dpx] := by
  refine gives_onUnit rfl (decide_eq_true hp) ?_
  have hreason : r < 16 := by have := DriveInfo.refusal_le x _ _ hr; omega
  rw [Dev.driveReady_eq hst hx, hr]
  dsimp only
  have hid := s.dev.identified_identified p x
  generalize s.dev.identified p x = w at hid ⊢
  have hset := (w.setPt_set hp (st := ptUnsupported) (by decide) hreason).kept ((Dev.DriveKept.refl _).causeBit .dpx 18) hp
  have hruns : Dev.Runs s.dev (w.refuseDevice p r) (portNames p) [.dpx] :=
    (hid.runs.setPt p _ _ (by simp [portNames]) (by simp [portNames])).causeBit _ _
  exact ⟨(Dev.settle_ptState _ _).trans hset.state, (Dev.settle_ix _ Reg.PT_STAT_reason p).trans hset.reason,
    (Dev.settle_grows _).raised (Dev.causeBit_raised _ _ _), hruns.settle.frame⟩

theorem gives_driveReady_back (hp : p < 256) (hst : s.dev.ptState p = ptIdentifying) (hx : (s.dev.port p).dev = some x)
    (hr : x.refusal (s.dev.rd (Reg.PT_STAT_rate.ix p)) (s.dev.twin p x) = none) (hgrace : (s.dev.port p).grace = true)
    (hsame : s.dev.rd (Reg.PT_ID_id.ix p) = x.ident.toNat) : Gives (.driveReady p) s fun e =>
      e.ptState p = ptReady ∧ (e.port p).grace = false ∧ Frame s.dev e (portNames p) [.dpx, .lay] := by
  refine gives_onUnit rfl (decide_eq_true hp) ?_
  rw [Dev.driveReady_eq hst hx, hr]
  dsimp only
  rw [hgrace, decide_eq_true hsame, Bool.and_self, if_pos rfl]
  have hid := s.dev.identified_identified p x
  generalize s.dev.identified p x = w at hid ⊢
  have hset := w.setPt_set hp (st := ptReady) (reason := 0) (by decide) (by decide)
  have hruns : Dev.Runs s.dev ((w.setPt p ptReady 0).updPort p fun s => { s with grace := false }) (portNames p) [.dpx, .lay] :=
    ((hid.runs.mono (List.Subset.refl _)).setPt p _ _ (by simp [portNames]) (by simp [portNames])).updPort p _
  have hstate : ((w.setPt p ptReady 0).updPort p fun s => { s with grace := false }).ptState p = ptReady := hset.state
  have hoff : (((w.setPt p ptReady 0).updPort p fun s => { s with grace := false }).port p).grace = false := by rw [Dev.port_updPort_same]
  generalize (w.setPt p ptReady 0).updPort p (fun s => { s with grace := false }) = v at *
  have hout : Dev.Runs v ((v.requeue p).pumpPort p) [] [.dpx, .lay] := (v.requeue_runs p).pumpPort p
  have hkept : Dev.GraceKept v ((v.requeue p).pumpPort p) := Dev.GraceKept.pump _ _ _ (v.requeue_grace p)
  exact ⟨(Dev.settle_ptState _ _).trans ((hout.rd_ix Reg.PT_STAT_state p fun g hg => absurd hg List.not_mem_nil).trans hstate),
    by rw [Dev.settle_port, hkept p, hoff], (hruns.trans hout (List.nil_subset _)).settle.frame⟩

theorem gives_driveReady_new (hp : p < 256) (hst : s.dev.ptState p = ptIdentifying) (hx : (s.dev.port p).dev = some x)
    (hr : x.refusal (s.dev.rd (Reg.PT_STAT_rate.ix p)) (s.dev.twin p x) = none) (hgrace : (s.dev.port p).grace = false)
    (hlabel : pickLabel x = none) : Gives (.driveReady p) s fun e => e.ptState p = ptReady ∧ Raised e .dpx 16 ∧
      e.rd (Reg.PT_ID_id.ix p) = x.ident.toNat ∧ e.rd (Reg.PT_BLOCKS_blocks.ix p) = x.blocks % 2 ^ 64 ∧
      Frame s.dev e (portNames p) [.dpx, .lay] := by
  refine gives_onUnit rfl (decide_eq_true hp) ?_
  rw [Dev.driveReady_eq hst hx, hr]
  dsimp only
  rw [hgrace, Bool.false_and, if_neg Bool.false_ne_true, if_neg Bool.false_ne_true]
  have hid := s.dev.identified_identified p x
  generalize s.dev.identified p x = w at hid ⊢
  have hseen (v : Dev) : v.labelSeen p x = v := by unfold Dev.labelSeen; rw [hlabel]
  rw [hseen]
  have hset := w.setPt_set hp (st := ptReady) (reason := 0) (by decide) (by decide)
  have hraised : Raised (w.setPt p ptReady 0) .dpx 16 := by
    unfold Dev.setPt
    dsimp only
    rw [if_neg (show ¬ w.ptState p = ptReady by rw [hid.state, hst]; decide)]
    exact Dev.causeBit_raised _ _ _
  have hruns : Dev.Runs s.dev (w.setPt p ptReady 0) (portNames p) [.dpx, .lay] :=
    (hid.runs.mono (List.Subset.refl _)).setPt p _ _ (by simp [portNames]) (by simp [portNames])
  have hname := (w.setPt_rd_ix p ptReady 0 Reg.PT_ID_id).trans hid.id
  have hblocks := (w.setPt_rd_ix p ptReady 0 Reg.PT_BLOCKS_blocks).trans hid.blocks
  have hstate := hset.state
  clear hset
  generalize w.setPt p ptReady 0 = v at *
  have hend : Dev.Runs v ((v.post 0x01 0 (p + (if x.proto = .sas then 1 else 2) * 4096) (x.blocks % 2 ^ 32) (x.blocks / 2 ^ 32) 0).pumpPort p)
      [] [.dpx, .lay] := ((Dev.Runs.refl v _ _).post _ _ _ _ _ _ _).pumpPort p
  generalize (v.post 0x01 0 (p + (if x.proto = .sas then 1 else 2) * 4096) (x.blocks % 2 ^ 32) (x.blocks / 2 ^ 32) 0).pumpPort p = z at *
  have hkeep (f : Fld) (hf : 0xE0000 ≤ f.base) := (Dev.settle_ix z f p hf).trans
    (hend.rd_ix f p (fun g hg => absurd hg List.not_mem_nil) hf)
  exact ⟨(hkeep Reg.PT_STAT_state (by decide)).trans hstate, (Dev.settle_grows _).raised (hend.grows.raised hraised),
    (hkeep Reg.PT_ID_id (by decide)).trans hname, (hkeep Reg.PT_BLOCKS_blocks (by decide)).trans hblocks,
    (hruns.trans hend (List.nil_subset _)).settle.frame⟩

/-! ### Not in time; partial -/

theorem gives_readyTimeout (hp : p < 256) (hst : s.dev.ptState p = ptIdentifying) : Gives (.readyTimeout p) s fun e =>
    e.ptState p = ptFailed ∧ e.rd (Reg.PT_STAT_reason.ix p) = 4 ∧ Raised e .dpx 17 := by
  refine gives_onUnit rfl (decide_eq_true hp) ?_
  obtain ⟨hset, hraised⟩ := s.dev.failPort_set hp (reason := 4) (by decide)
  have heq : s.dev.readyTimeout p = s.dev.failPort p 4 := if_pos hst
  rw [heq]
  exact ⟨(Dev.settle_ptState _ _).trans hset.state, (Dev.settle_ix _ Reg.PT_STAT_reason p).trans hset.reason,
    (Dev.settle_grows _).raised hraised⟩

theorem gives_readyTimeout_recovery {a i : Nat} (hp : p < 256) (hexit : s.dev.exitingOn p = some (a, i)) (hwait : i ∈ (s.dev.arr a).exitWait)
    (hst : s.dev.ptState p = ptReady) (hnone : (s.dev.port p).recovery = none) (hfirst : (s.dev.port p).recovTimes = []) :
    Gives (.readyTimeout p) s fun e => (e.port p).recovery = some ⟨1, 0⟩ ∧ .driveAbort p 0 1 ∈ e.emitted ∧ Raised e .dpx 20 ∧
      Frame s.dev e [Reg.PT_RECOV_recoveries.ix p] [.dpx, .lay] := by
  refine gives_onUnit rfl (decide_eq_true hp) ?_
  have hstart : s.dev.readyTimeout p = s.dev.startRecovery p 0 := by
    unfold Dev.readyTimeout
    rw [if_neg (show ¬ s.dev.ptState p = ptIdentifying by rw [hst]; decide), hexit]
    simp [hwait, hst]
  have heq : s.dev.startRecovery p 0 = (((((s.dev.updPort p fun y => { y with recovery := some ⟨1, 0⟩, recovTimes := [s.dev.ticks] }).spoilExit
      p).incSat (Reg.PT_RECOV_recoveries.ix p)).causeBit .dpx 20).emit (.driveAbort p 0 1)) := by
    unfold Dev.startRecovery
    simp only [hnone, hfirst]
    rfl
  rw [hstart, heq]
  have hrec : ((s.dev.updPort p fun y => { y with recovery := some ⟨1, 0⟩, recovTimes := [s.dev.ticks] }).port p).recovery = some ⟨1, 0⟩ := by
    rw [Dev.port_updPort_same]
  have hruns : Dev.Runs s.dev (s.dev.updPort p fun y => { y with recovery := some ⟨1, 0⟩, recovTimes := [s.dev.ticks] })
      [Reg.PT_RECOV_recoveries.ix p] [.dpx, .lay] := (Dev.Runs.refl _ _ _).updPort p _
  generalize s.dev.updPort p (fun y => { y with recovery := some ⟨1, 0⟩, recovTimes := [s.dev.ticks] }) = w at *
  have hspoiled : (w.spoilExit p).dpx = w.dpx := ((Dev.Runs.refl w [] [.lay]).spoilExit p).frame.part .dpx
  have hcounted : Dev.Runs s.dev ((w.spoilExit p).incSat (Reg.PT_RECOV_recoveries.ix p)) [Reg.PT_RECOV_recoveries.ix p] [.dpx, .lay] :=
    (hruns.spoilExit p).incSat _ _ (by simp)
  have hdpx : ((w.spoilExit p).incSat (Reg.PT_RECOV_recoveries.ix p)).dpx = w.dpx := hspoiled
  generalize (w.spoilExit p).incSat (Reg.PT_RECOV_recoveries.ix p) = v at *
  have hport : ((v.causeBit .dpx 20).emit (.driveAbort p 0 1)).port p = w.port p := by
    show v.port p = w.port p
    rw [Dev.port, hdpx, Dev.port]
  exact ⟨by rw [Dev.settle_port, hport, hrec], (Dev.settle_grows _).mem List.mem_cons_self,
    (Dev.settle_grows _).raised ((Dev.emit_grows _ _).raised (Dev.causeBit_raised _ _ _)), ((hcounted.causeBit _ _).emit _).settle.frame⟩

theorem gives_portPartial (hp : p < 256) (hst : s.dev.ptState p = ptReady) (hqueue : (s.dev.port p).queue = [])
    (houtst : (s.dev.port p).outst = []) (hrec : (s.dev.port p).recovery = none) (hlink : (s.dev.port p).partialLink = false) :
    Gives (.portPartial p) s fun e => (e.port p).partialLink = true ∧ .drivePartial p ∈ e.emitted ∧ Frame s.dev e [] [.dpx] := by
  refine gives_onUnit rfl (decide_eq_true hp) ?_
  have heq : s.dev.portPartial p = (s.dev.updPort p fun y => { y with partialLink := true }).emit (.drivePartial p) := by
    unfold Dev.portPartial
    simp only [hst, hqueue, houtst, hrec, hlink]
    rfl
  rw [heq]
  have hruns : Dev.Runs s.dev ((s.dev.updPort p fun y => { y with partialLink := true }).emit (.drivePartial p)) [] [.dpx] :=
    ((Dev.Runs.refl _ _ _).updPort p _).emit _
  exact ⟨by rw [Dev.settle_port, Dev.port_emit, Dev.port_updPort_same], (Dev.settle_grows _).mem List.mem_cons_self, hruns.settle.frame⟩

end

end Sys2Proof
end

section
/-! SGPIO frames and loopback of a port (R254, R255); the bring-up of drive ports together. -/

set_option Elab.async false

namespace Sys2Proof

open Sys2Proof.Machine

namespace Machine

variable {a d e : Dev} {fs : List Fld} {ps : List Part} {p q n : Nat}

/-! ### SGPIO -/

theorem present_key_ne (h : q ≠ p) : (Reg.PT_STAT_present.ix p).key ≠ (Reg.PT_STAT_present.ix q).key := by
  rw [Fld.ix_key, Fld.ix_key]
  intro he
  have hkey : Reg.PT_STAT_present.key + 4096 * p * 64 = Reg.PT_STAT_present.key + 4096 * q * 64 := he
  omega

/-- The presence shown of the mapped ports. -/
def Dev.showPresent (d : Dev) (mine : List (Nat × Nat)) (present : Nat) : Dev :=
  forEach mine (fun x d => d.wr (Reg.PT_STAT_present.ix x.1) (b2n (bitOf present x.2))) d

theorem Dev.showPresent_cons (d : Dev) (y : Nat × Nat) (ys : List (Nat × Nat)) (present : Nat) :
    d.showPresent (y :: ys) present = (d.wr (Reg.PT_STAT_present.ix y.1) (b2n (bitOf present y.2))).showPresent ys present := rfl

theorem Dev.showPresent_other {present : Nat} : ∀ (mine : List (Nat × Nat)) (d : Dev), mine.filter (fun y => y.1 = p) = [] →
    (d.showPresent mine present).rd (Reg.PT_STAT_present.ix p) = d.rd (Reg.PT_STAT_present.ix p)
  | [], _, _ => rfl
  | y :: ys, d, h => by
    have hy : y.1 ≠ p := fun he => by simp [he] at h
    have hys : ys.filter (fun y => y.1 = p) = [] := by simpa [hy] using h
    rw [Dev.showPresent_cons, showPresent_other ys _ hys, Dev.rd_wr_other _ _ _ _ (present_key_ne hy)]

theorem Dev.showPresent_one {present b : Nat} : ∀ (mine : List (Nat × Nat)) (d : Dev), mine.filter (fun y => y.1 = p) = [(p, b)] →
    (d.showPresent mine present).rd (Reg.PT_STAT_present.ix p) = b2n (bitOf present b)
  | [], _, h => by simp at h
  | y :: ys, d, h => by
    rw [Dev.showPresent_cons]
    by_cases hy : y.1 = p
    · have hcons : y = (p, b) ∧ ys.filter (fun y => y.1 = p) = [] := by simpa [hy] using h
      rw [Dev.showPresent_other ys _ hcons.2, hcons.1, Dev.rd_wr_same, Fld.ix_width]
      cases bitOf present b <;> rfl
    · exact showPresent_one ys _ (by simpa [hy] using h)

theorem Dev.showPresent_runs (d : Dev) (mine : List (Nat × Nat)) (present : Nat) :
    Dev.Runs d (d.showPresent mine present) (mine.map fun y => Reg.PT_STAT_present.ix y.1) [.dpx] := by
  have hframe : Frame d (d.showPresent mine present) (mine.map fun y => Reg.PT_STAT_present.ix y.1) [.dpx] :=
    Frame.forEachMem mine (fun y hy e he => he.wr _ _ (List.mem_map_of_mem hy)) d (.refl _ _ _)
  exact ⟨hframe, Dev.Grows.forEach _ (fun _ e => e.wr_grows _ _) mine d⟩

/-! ### Loopback -/

/-- The fields that the end of a loopback may change. -/
def loopFields (p : Nat) : List Fld := [Reg.PT_STAT_state.ix p, Reg.PT_STAT_reason.ix p, Reg.PT_LOOP_running.ix p, Reg.PT_LOOP_pass.ix p]

/-- A loopback that ends. -/
structure Dev.LoopOver (d e : Dev) (p : Nat) (pass : Bool) : Prop where
  state : e.ptState p = if (d.port p).dev.isSome then ptLinking else ptEmpty
  running : e.rd (Reg.PT_LOOP_running.ix p) = 0
  pass : e.rd (Reg.PT_LOOP_pass.ix p) = b2n pass
  raised : Raised e .dpx 21
  sent : .loopback p false ∈ e.emitted
  errors : e.rd (Reg.PT_LOOP_errors.ix p) = d.rd (Reg.PT_LOOP_errors.ix p)
  runs : Dev.Runs d e (loopFields p) []

theorem Dev.loopOver_over (d : Dev) (hp : p < 256) (pass : Bool) : Dev.LoopOver d (d.loopOver p pass) p pass := by
  unfold Dev.loopOver
  extract_lets w v
  have hw : Dev.Runs d w (loopFields p) [] := ((Dev.Runs.refl _ _ _).wr _ _ (by simp [loopFields])).wr _ _ (by simp [loopFields])
  have hrunning : w.rd (Reg.PT_LOOP_running.ix p) = 0 := by
    unfold w
    rw [Dev.rd_wr_ix _ _ _ _ _ (by decide), Dev.rd_wr_same]
    exact Nat.zero_mod _
  have hpass : w.rd (Reg.PT_LOOP_pass.ix p) = b2n pass := by
    unfold w
    rw [Dev.rd_wr_same, Fld.ix_width]
    cases pass <;> rfl
  have herrors : w.rd (Reg.PT_LOOP_errors.ix p) = d.rd (Reg.PT_LOOP_errors.ix p) := by
    unfold w
    rw [Dev.rd_wr_ix _ _ _ _ _ (by decide), Dev.rd_wr_ix _ _ _ _ _ (by decide)]
  have hv : Dev.Runs d v (loopFields p) [] := (hw.causeBit _ _).emit _
  have hvraised : Raised v .dpx 21 := (Dev.emit_grows _ _).raised (Dev.causeBit_raised _ _ _)
  have hvsent : .loopback p false ∈ v.emitted := List.mem_cons_self
  have hvrd (f : Fld) : v.rd f = w.rd f := w.causeBit_rd .dpx 21 f
  have hdev : v.port p = d.port p := rfl
  rw [hdev]
  clear_value v w
  have hst : (if (d.port p).dev.isSome then ptLinking else ptEmpty) < 16 := by split <;> decide
  generalize hchosen : (if (d.port p).dev.isSome then ptLinking else ptEmpty) = st at *
  have hset := v.setPt_set hp hst (reason := 0) (by decide)
  exact ⟨hset.state.trans hchosen.symm, (v.setPt_rd_ix p st 0 Reg.PT_LOOP_running).trans ((hvrd _).trans hrunning),
    (v.setPt_rd_ix p st 0 Reg.PT_LOOP_pass).trans ((hvrd _).trans hpass), hset.grows.raised hvraised, hset.grows.mem hvsent,
    (v.setPt_rd_ix p st 0 Reg.PT_LOOP_errors).trans ((hvrd _).trans herrors),
    hv.setPt p _ _ (by simp [loopFields]) (by simp [loopFields])⟩

theorem Dev.Woken.ix (h : Dev.Woken d e) (f : Fld) (i : Nat) (hf : 0xE0000 ≤ f.base := by decide) : e.rd (f.ix i) = d.rd (f.ix i) :=
  h.fields _ (Bool.eq_false_iff.mpr fun hk => Bool.false_ne_true ((Fld.stateKey_ix_of_high f hf i).symm.trans (stateKey_of_pstateKey hk)))

theorem Dev.Woken.dpx (h : Dev.Woken d e) : e.dpx = d.dpx := by rw [h.same]

theorem Dev.Woken.port (h : Dev.Woken d e) (q : Nat) : e.port q = d.port q := by rw [Dev.port, h.dpx, Dev.port]

theorem Dev.Woken.ptState (h : Dev.Woken d e) (q : Nat) : e.ptState q = d.ptState q := h.ix Reg.PT_STAT_state q

end Machine

section

variable {s : State} {p n present errors : Nat}

theorem gives_sgpioFrame (hn : n < 8) (p : Nat) :
    let mine := s.dev.dpx.sgpioMap.filter fun y => decide (y.1 / 32 = n)
    Gives (.sgpioFrame n present) s fun e =>
      (s.dev.rd Reg.DPX_SG_en ≠ 0 → .sgpio n (mine.map fun y => s.dev.ledBits y.1 * 2 ^ (3 * y.2)).sum ∈ e.emitted) ∧
      (∀ b, mine.filter (fun y => y.1 = p) = [(p, b)] → e.rd (Reg.PT_STAT_present.ix p) = b2n (bitOf present b)) ∧
      Frame s.dev e (mine.map fun y => Reg.PT_STAT_present.ix y.1) [.dpx] := by
  intro mine
  refine gives_onUnit rfl (decide_eq_true hn) ?_
  have hruns := s.dev.showPresent_runs mine present
  have hone {b : Nat} (h : mine.filter (fun y => y.1 = p) = [(p, b)]) := s.dev.showPresent_one (present := present) mine h
  have hen : (s.dev.showPresent mine present).rd Reg.DPX_SG_en = s.dev.rd Reg.DPX_SG_en := by
    refine hruns.frame.1 _ (fun g hg => ?_) (by decide)
    obtain ⟨y, -, rfl⟩ := List.mem_map.mp hg
    have hkey : (Reg.PT_STAT_present.ix y.1).key = 0x200004 * 64 + 15 + 4096 * y.1 * 64 := Fld.ix_key _ _
    have hsg : Reg.DPX_SG_en.key < 0x200000 * 64 := by decide
    omega
  have heq : s.dev.sgpioFrame n present =
      if (s.dev.showPresent mine present).rdB Reg.DPX_SG_en then
        ({ s.dev.showPresent mine present with dpx := { (s.dev.showPresent mine present).dpx with
          sgpio := Tbl.put (s.dev.showPresent mine present).dpx.sgpio n (mine.map fun y => s.dev.ledBits y.1 * 2 ^ (3 * y.2)).sum } } :
            Dev).emit (.sgpio n (mine.map fun y => s.dev.ledBits y.1 * 2 ^ (3 * y.2)).sum)
      else s.dev.showPresent mine present := rfl
  rw [heq]
  generalize s.dev.showPresent mine present = w at *
  generalize (mine.map fun y => s.dev.ledBits y.1 * 2 ^ (3 * y.2)).sum = out at *
  rw [Dev.rdB, hen]
  have hset : Dev.Runs w ({ w with dpx := { w.dpx with sgpio := Tbl.put w.dpx.sgpio n out } } : Dev) [] [.dpx] := (Dev.Runs.refl _ _ _).setDpx _
  have hout : Dev.Runs w (if decide (s.dev.rd Reg.DPX_SG_en ≠ 0) = true then
      ({ w with dpx := { w.dpx with sgpio := Tbl.put w.dpx.sgpio n out } } : Dev).emit (.sgpio n out) else w) [] [.dpx] :=
    .ite (hset.emit _) (.refl _ _ _)
  refine ⟨fun hon => (Dev.settle_grows _).mem ?_, fun b hb => ?_, (hruns.trans hout (List.nil_subset _)).settle.frame⟩
  · rw [if_pos (decide_eq_true hon)]
    exact List.mem_cons_self
  · exact (Dev.settle_ix _ Reg.PT_STAT_present p).trans ((hout.rd_ix Reg.PT_STAT_present p fun g hg => absurd hg List.not_mem_nil).trans (hone hb))

theorem hostGives_loopbackStart_refused (hp : p < 256) (hmember : s.dev.memberOn p ≠ none) :
    HostGives 0 .dpx (.loopbackStart p) s fun e => Raised e .dpx 3 ∧ Frame s.dev e [] [] := by
  refine hostGives_onPage rfl (decide_eq_true hp) fun d hd => ?_
  have heq : d.loopStart p = d.refuse .dpx := by
    unfold Dev.loopStart
    exact if_pos (by rw [hd.members.memberOn]; exact Option.isSome_iff_ne_none.mpr hmember)
  rw [heq]
  exact ⟨Dev.settle_raised _ _ _ (d.refuse_raised _), ((hd.runs [] []).refuse .dpx).settle.frame⟩

theorem hostGives_loopbackStart (hp : p < 256) (hfree : s.dev.memberOn p = none) (hloop : s.dev.ptState p ≠ ptLoopback)
    (hdis : s.dev.ptState p ≠ ptDisabled) : HostGives 0 .dpx (.loopbackStart p) s fun e =>
      e.ptState p = ptLoopback ∧ e.rd (Reg.PT_LOOP_running.ix p) = 1 ∧ e.rd (Reg.PT_LOOP_errors.ix p) = 0 ∧
      .loopback p true ∈ e.emitted ∧
      Frame s.dev e (portLink p ++ [Reg.PT_LOOP_running.ix p, Reg.PT_LOOP_errors.ix p]) [.dpx] := by
  refine hostGives_onPage rfl (decide_eq_true hp) fun d hd => ?_
  have heq : d.loopStart p = (((((d.unlink p).setPt p ptLoopback 0).updPort p fun y => { y with recovery := none, grace := false }).wr
      (Reg.PT_LOOP_running.ix p) 1).wr (Reg.PT_LOOP_errors.ix p) 0).emit (.loopback p true) := by
    unfold Dev.loopStart
    rw [if_neg (by rw [hd.members.memberOn, hfree]; exact Bool.false_ne_true), if_neg (by rw [hd.ptState]; simp [hloop, hdis])]
  rw [heq]
  have hset := (d.unlink p).setPt_set hp (st := ptLoopback) (reason := 0) (by decide) (by decide)
  have hruns : Dev.Runs s.dev (((d.unlink p).setPt p ptLoopback 0).updPort p fun y => { y with recovery := none, grace := false })
      (portLink p ++ [Reg.PT_LOOP_running.ix p, Reg.PT_LOOP_errors.ix p]) [.dpx] :=
    (((hd.runs _ _).unlink p (by simp [portLink]) (by simp [portLink]) (by simp [portLink]) (by simp [portLink])).setPt p _ _
      (by simp [portLink]) (by simp [portLink])).updPort p _
  have hstate : (((d.unlink p).setPt p ptLoopback 0).updPort p fun y => { y with recovery := none, grace := false }).ptState p =
    ptLoopback := hset.state
  clear hset
  generalize ((d.unlink p).setPt p ptLoopback 0).updPort p (fun y => { y with recovery := none, grace := false }) = w at *
  have hemit (v : Dev) (f : Fld) : (v.emit (.loopback p true)).rd f = v.rd f := rfl
  refine ⟨(Dev.settle_ptState _ _).trans ?_, (Dev.settle_ix _ Reg.PT_LOOP_running p).trans ?_,
    (Dev.settle_ix _ Reg.PT_LOOP_errors p).trans ?_, (Dev.settle_grows _).mem List.mem_cons_self,
    (((hruns.wr _ _ (by simp)).wr _ _ (by simp)).emit _).settle.frame⟩
  · show ((w.wr (Reg.PT_LOOP_running.ix p) 1).wr (Reg.PT_LOOP_errors.ix p) 0).ptState p = ptLoopback
    exact (ptState_wr_other _ Reg.PT_LOOP_errors _ _).trans ((ptState_wr_other _ Reg.PT_LOOP_running _ _).trans hstate)
  · rw [hemit, Dev.rd_wr_ix _ _ _ _ _ (by decide), Dev.rd_wr_same, Fld.ix_width]
    rfl
  · rw [hemit, Dev.rd_wr_same]
    exact Nat.zero_mod _

theorem hostGives_loopbackStop (hp : p < 256) (hloop : s.dev.ptState p = ptLoopback) :
    HostGives 0 .dpx (.loopbackStop p) s fun e =>
      e.ptState p = (if (s.dev.port p).dev.isSome then ptLinking else ptEmpty) ∧ e.rd (Reg.PT_LOOP_running.ix p) = 0 ∧
      e.rd (Reg.PT_LOOP_pass.ix p) = 0 ∧ Raised e .dpx 21 ∧ .loopback p false ∈ e.emitted ∧ Frame s.dev e (loopFields p) [] := by
  refine hostGives_onPage rfl (decide_eq_true hp) fun d hd => ?_
  have heq : d.loopStop p = d.loopOver p false := if_pos (by rw [hd.ptState]; exact hloop)
  have hover := d.loopOver_over hp false
  rw [heq]
  refine ⟨(Dev.settle_ptState _ _).trans (by rw [hover.state, hd.port]), (Dev.settle_ix _ Reg.PT_LOOP_running p).trans hover.running,
    (Dev.settle_ix _ Reg.PT_LOOP_pass p).trans hover.pass, (Dev.settle_grows _).raised hover.raised, (Dev.settle_grows _).mem hover.sent,
    ((hd.runs (loopFields p) []).trans hover.runs (List.Subset.refl _)).settle.frame⟩

theorem gives_loopbackEnd (hp : p < 256) (hloop : s.dev.ptState p = ptLoopback) : Gives (.loopbackEnd p errors) s fun e =>
    e.ptState p = (if (s.dev.port p).dev.isSome then ptLinking else ptEmpty) ∧
    e.rd (Reg.PT_LOOP_pass.ix p) = b2n (decide (errors = 0)) ∧ e.rd (Reg.PT_LOOP_errors.ix p) = min errors 0xFFFF ∧ Raised e .dpx 21 ∧
    e.rd (Reg.PT_LOOP_running.ix p) = 0 ∧ Frame s.dev e (loopFields p ++ [Reg.PT_LOOP_errors.ix p]) [] := by
  refine gives_onUnit rfl (decide_eq_true hp) ?_
  unfold Dev.loopEnd
  rw [if_neg (not_not_intro hloop)]
  extract_lets w v
  have hw : Dev.Runs s.dev w (loopFields p ++ [Reg.PT_LOOP_errors.ix p]) [] := (Dev.Runs.refl _ _ _).wr _ _ (by simp)
  have hv : Dev.Runs s.dev v (loopFields p ++ [Reg.PT_LOOP_errors.ix p]) [] := .ite hw (hw.errUncorr _ _)
  have herrors : v.rd (Reg.PT_LOOP_errors.ix p) = min errors 0xFFFF := by
    have hwrote : w.rd (Reg.PT_LOOP_errors.ix p) = min errors 0xFFFF := by
      unfold w
      rw [Dev.rd_wr_same, Fld.ix_width]
      exact Nat.mod_eq_of_lt (lt_of_le_of_lt (Nat.min_le_right _ _) (by decide))
    unfold v
    split
    · exact hwrote
    · exact (Dev.errUncorr_rd _ _ _ _).trans hwrote
  have hport : v.port p = s.dev.port p := by unfold v; split <;> rfl
  have hover := v.loopOver_over hp (decide (errors = 0))
  clear_value v
  refine ⟨(Dev.settle_ptState _ _).trans (by rw [hover.state, hport]), (Dev.settle_ix _ Reg.PT_LOOP_pass p).trans hover.pass,
    (Dev.settle_ix _ Reg.PT_LOOP_errors p).trans (hover.errors.trans herrors), (Dev.settle_grows _).raised hover.raised,
    (Dev.settle_ix _ Reg.PT_LOOP_running p).trans hover.running, (hv.trans hover.runs (List.subset_append_left _ _)).settle.frame⟩

end

/-- Settles O51: each step of a port by what it shows and by the fields of the port that it may change. -/
theorem drivePortsComeUp : Obligations.DrivePortsComeUp := by
  unfold Obligations.DrivePortsComeUp
  intro p n present errors x s hp hn
  refine ⟨gives_portCominit_refused hp, fun hwaits hearly => ?_, gives_spinupSlot hn, fun hst hx => ⟨fun r hr =>
      gives_driveReady_refused hp hst hx hr, gives_driveReady_new hp hst hx, gives_driveReady_back hp hst hx⟩,
    gives_readyTimeout hp, fun a i => gives_readyTimeout_recovery hp, gives_portPartial hp, gives_sgpioFrame hn p,
    hostGives_loopbackStart_refused hp, hostGives_loopbackStart hp, fun hloop => ⟨hostGives_loopbackStop hp hloop, gives_loopbackEnd hp hloop⟩⟩
  exact (gives_portCominit hp hwaits hearly).mono fun e he => ⟨he.state, he.reason, he.dev, he.rate, he.protocol, he.frame⟩

end Sys2Proof
end

section
/-! Cluster resets, failures and power (R247, R248, R256). -/

set_option Elab.async false

namespace Sys2Proof

open Sys2Proof.Machine

namespace Machine

variable {a d e : Dev} {fs : List Fld} {ps : List Part} {p q n : Nat}

/-! ### One element after another -/

/-- What each element brings about, and no other takes back, holds of every element in the end. -/
theorem forEach_each {f : Nat → Dev → Dev} {Q : Nat → Dev → Prop} {xs : List Nat} (hmake : ∀ q ∈ xs, ∀ e, Q q (f q e))
    (hkeep : ∀ q ∈ xs, ∀ r ∈ xs, ∀ e, Q r e → Q r (f q e)) (d : Dev) : ∀ p ∈ xs, Q p (forEach xs f d) := by
  suffices h : ∀ (ys : List Nat) (d : Dev), (∀ q ∈ ys, q ∈ xs) → ∀ r ∈ xs, (r ∈ ys ∨ Q r d) → Q r (forEach ys f d) from
    fun p hp => h xs d (fun _ hq => hq) p hp (.inl hp)
  intro ys
  induction ys with
  | nil => exact fun d _ r _ hr => hr.resolve_left List.not_mem_nil
  | cons y ys ih =>
    intro d hys r hr hor
    refine ih (f y d) (fun q hq => hys q (List.mem_cons_of_mem y hq)) r hr ?_
    rcases hor with hmem | hQ
    · rcases List.mem_cons.mp hmem with rfl | htail
      · exact .inr (hmake r hr d)
      · exact .inl htail
    · exact .inr (hkeep y (hys y List.mem_cons_self) r hr d hQ)

/-- What no element of a list takes back. -/
theorem forEach_keep {α : Type} {f : α → Dev → Dev} {P : Dev → Prop} : ∀ (xs : List α) (d : Dev), (∀ q ∈ xs, ∀ e, P e → P (f q e)) → P d →
    P (forEach xs f d)
  | [], _, _, h => h
  | x :: xs, d, hf, h => forEach_keep xs (f x d) (fun q hq => hf q (List.mem_cons_of_mem x hq)) (hf x List.mem_cons_self d h)

theorem clusterPorts_spec (hn : n < 8) (hp : p ∈ clusterPorts n) : p / 32 = n ∧ p < 256 := by
  simp only [clusterPorts, List.mem_map, List.mem_range] at hp
  omega

theorem mem_clusterPorts (h : p / 32 = n) : p ∈ clusterPorts n := by
  simp only [clusterPorts, List.mem_map, List.mem_range]
  exact ⟨p % 32, by omega, by omega⟩

/-! ### A port that is turned -/

/-- A port has a state, no port gains a device, and what else is watched is as before. -/
structure Dev.Turned (d e : Dev) (p st : Nat) : Prop where
  state : e.ptState p = st
  others : ∀ f : Fld, driveKey f.key = true → f.key ≠ (Reg.PT_STAT_state.ix p).key → f.key ≠ (Reg.PT_STAT_reason.ix p).key →
    e.rd f = d.rd f
  devs : ∀ q, (d.port q).dev = none → (e.port q).dev = none
  power : e.sys.pdDrv = d.sys.pdDrv
  grows : Dev.Grows d e

namespace Dev.Turned

variable {st : Nat}

theorem of_set {reason : Nat} (h : Dev.PortSet d e p st reason) : Dev.Turned d e p st :=
  ⟨h.state, h.others, fun q hq => by simpa [hq] using h.dev q, h.power, h.grows⟩

theorem kept (h : Dev.Turned a d p st) (k : Dev.DriveKept d e) (hp : p < 256) : Dev.Turned a e p st :=
  ⟨(k.ptState hp).trans h.state, fun f hf h1 h2 => (k.regs f hf).trans (h.others f hf h1 h2),
    fun q hq => by simpa [h.devs q hq] using k.dev q, k.power.trans h.power, h.grows.trans k.grows⟩

/-- A port whose device goes. -/
theorem updPort (h : Dev.Turned a d p st) (q : Nat) (g : PortSt → PortSt) (hg : ∀ x, x.dev = none → (g x).dev = none) :
    Dev.Turned a (d.updPort q g) p st := by
  refine ⟨h.state, h.others, fun r hr => ?_, h.power, h.grows.trans (.same rfl rfl)⟩
  by_cases hrq : r = q
  · rw [hrq, Dev.port_updPort_same]
    exact hg _ (h.devs q (hrq ▸ hr))
  · rw [Dev.port_updPort_other _ _ hrq]
    exact h.devs r hr

theorem other (h : Dev.Turned d e p st) (hq : q < 256) (hne : q ≠ p) : e.ptState q = d.ptState q :=
  h.others _ (driveKey_ptState hq) (ptState_key_ne hne) Fld.port_key_ne

/-- A state that all ports turned share is kept. -/
theorem keeps (h : Dev.Turned d e p st) (hq : q < 256) (hst : d.ptState q = st) : e.ptState q = st := by
  by_cases hqp : q = p
  · rw [hqp]
    exact h.state
  · exact (h.other hq hqp).trans hst

/-- The registers of DPX that are no port's. -/
theorem low (h : Dev.Turned d e p st) {f : Fld} (hf : driveKey f.key = true) (hlow : f.key < 0x200000 * 64) : e.rd f = d.rd f := by
  have hstate : (Reg.PT_STAT_state.ix p).key = 0x200004 * 64 + 28 + 4096 * p * 64 := Fld.ix_key _ _
  have hreason : (Reg.PT_STAT_reason.ix p).key = 0x200004 * 64 + 24 + 4096 * p * 64 := Fld.ix_key _ _
  exact h.others f hf (by omega) (by omega)

end Dev.Turned

/-- A port's link goes (R246). -/
theorem Dev.dropLink_turned (d : Dev) {p st : Nat} (hp : p < 256) (hst : st < 16) : Dev.Turned d (d.dropLink p st) p st := by
  unfold Dev.dropLink
  extract_lets ready w v
  have hbefore : Dev.DriveKept d ((d.spoilExit p).unlink p) := ((Dev.DriveKept.refl d).spoilExit p).unlink p
  have hw : Dev.Turned d w p st := .of_set ((Dev.setPt_set _ hp hst (reason := 0) (by decide)).after hbefore)
  have hv : Dev.Turned d v p st := hw.updPort p _ fun _ h => h
  have hleft : Dev.Turned d (if v.rd Reg.DPX_CFG_grace_ms = 0 then v.driveLeft p else v.updPort p fun s => { s with grace := true }) p st := by
    split
    · exact hv.kept ((Dev.DriveKept.refl v).driveLeft p) hp
    · exact hv.updPort p _ fun _ h => h
  split
  · exact hleft
  · exact hv

/-! ### Resets (R247, R249) -/

/-- A port's part in the reset of its cluster. -/
def Dev.resetPort (p : Nat) (d : Dev) : Dev :=
  let d := if d.ptState p = ptLoopback then (d.wr (Reg.PT_LOOP_running.ix p) 0).wr (Reg.PT_LOOP_pass.ix p) 0 else d
  (d.dropLink p ptResetting).emit (.driveReset p)

theorem Dev.resetPort_turned (d : Dev) (hp : p < 256) : Dev.Turned d (Dev.resetPort p d) p ptResetting ∧
    .driveReset p ∈ (Dev.resetPort p d).emitted := by
  unfold Dev.resetPort
  extract_lets w
  have hw : Dev.DriveKept d w := .ite (((Dev.DriveKept.refl d).wr_ix _ _ _).wr_ix _ _ _) (.refl d)
  have hdrop := w.dropLink_turned hp (st := ptResetting) (by decide)
  have hend : Dev.Turned d (w.dropLink p ptResetting) p ptResetting :=
    ⟨hdrop.state, fun f hf h1 h2 => (hdrop.others f hf h1 h2).trans (hw.regs f hf),
      fun q hq => hdrop.devs q (by simpa [hq] using hw.dev q), hdrop.power.trans hw.power, hw.grows.trans hdrop.grows⟩
  exact ⟨hend.kept ((Dev.DriveKept.refl _).emit _) hp, List.mem_cons_self⟩

theorem Dev.clusterReset_eq (hup : d.clState n = clUp) : d.clusterReset n =
    forEach ((clusterPorts n).filter fun p => (d.port p).dev.isSome && d.ptState p ≠ ptDisabled) Dev.resetPort
      (if (clusterPorts n).filter (fun p => (d.port p).dev.isSome && d.ptState p ≠ ptDisabled) = [] then d else d.setCl n clResetting) := by
  unfold Dev.clusterReset
  rw [if_neg (not_not_intro hup)]
  rfl

/-! ### Clusters that go down (R247, R248) -/

/-- A port's part when its cluster goes down. -/
def Dev.downPort (p : Nat) (d : Dev) : Dev :=
  let had := decide (d.ptState p = ptReady) || (d.port p).grace
  let d := ((d.spoilExit p).unlink p).setPt p ptDisabled 0
  let d := if had then d.driveLeft p else d
  d.updPort p fun s => { s with dev := none, recovery := none }

theorem Dev.downPort_turned (d : Dev) (hp : p < 256) : Dev.Turned d (Dev.downPort p d) p ptDisabled ∧
    ((Dev.downPort p d).port p).dev = none := by
  unfold Dev.downPort
  extract_lets had w v
  have hw : Dev.Turned d w p ptDisabled := .of_set ((Dev.setPt_set _ hp (st := ptDisabled) (by decide) (reason := 0) (by decide)).after
    (((Dev.DriveKept.refl d).spoilExit p).unlink p))
  have hv : Dev.Turned d v p ptDisabled := hw.kept (.ite ((Dev.DriveKept.refl w).driveLeft p) (.refl w)) hp
  exact ⟨hv.updPort p _ fun _ _ => rfl, by rw [Dev.port_updPort_same]⟩

theorem Dev.clusterDown_eq (d : Dev) (n : Nat) : d.clusterDown n = forEach (clusterPorts n) Dev.downPort (d.setDrv n false) := rfl

theorem Dev.setDrv_getD (d : Dev) {n : Nat} (hn : n < 8) (on : Bool) : (d.setDrv n on).sys.pdDrv.getD n false = on := by
  simp [Dev.setDrv, List.getD, hn]

theorem driveKey_cluster : ∀ n < 8, driveKey (Reg.DPX_CL_state.ix n).key = true ∧ driveKey (Reg.DPX_CL_en.ix n).key = true := by decide

theorem cluster_low : ∀ n < 8, (Reg.DPX_CL_state.ix n).key < 0x200000 * 64 ∧ (Reg.DPX_CL_en.ix n).key < 0x200000 * 64 := by decide

/-- A cluster that is down: its domain is off, its ports DISABLED and without a device, and its registers are as before. -/
structure Dev.WentDown (d e : Dev) (n : Nat) : Prop where
  power : e.sys.pdDrv.getD n false = false
  ports : ∀ p, p / 32 = n → e.ptState p = ptDisabled ∧ (e.port p).dev = none
  low : ∀ f : Fld, driveKey f.key = true → f.key < 0x200000 * 64 → e.rd f = d.rd f
  grows : Dev.Grows d e

theorem Dev.clusterDown_down (d : Dev) (hn : n < 8) : Dev.WentDown d (d.clusterDown n) n := by
  rw [Dev.clusterDown_eq]
  have hstart : Dev.Grows d (d.setDrv n false) := .same rfl rfl
  have hrd (f : Fld) : (d.setDrv n false).rd f = d.rd f := rfl
  have hpower := d.setDrv_getD hn false
  generalize d.setDrv n false = w at *
  have hturn (q : Nat) (hq : q ∈ clusterPorts n) (e : Dev) := e.downPort_turned (clusterPorts_spec hn hq).2
  have hstates := forEach_each (f := Dev.downPort) (Q := fun q e => e.ptState q = ptDisabled ∧ (e.port q).dev = none)
    (fun q hq e => ⟨(hturn q hq e).1.state, (hturn q hq e).2⟩)
    (fun q hq r hr e he => ⟨(hturn q hq e).1.keeps (clusterPorts_spec hn hr).2 he.1, (hturn q hq e).1.devs r he.2⟩) w
  obtain ⟨hpd, hlow, hgrows⟩ := forEach_keep (f := Dev.downPort) (P := fun e => e.sys.pdDrv = w.sys.pdDrv ∧
      (∀ f : Fld, driveKey f.key = true → f.key < 0x200000 * 64 → e.rd f = w.rd f) ∧ Dev.Grows w e) (clusterPorts n) w
    (fun q hq e he => ⟨(hturn q hq e).1.power.trans he.1, fun f hf hlow => ((hturn q hq e).1.low hf hlow).trans (he.2.1 f hf hlow),
      he.2.2.trans (hturn q hq e).1.grows⟩) ⟨rfl, fun _ _ _ => rfl, .refl w⟩
  exact ⟨by rw [hpd]; exact hpower, fun p hp => hstates p (mem_clusterPorts hp), fun f hf hl => (hlow f hf hl).trans (hrd f),
    hstart.trans hgrows⟩

end Machine

end Sys2Proof
end

section
/-! Commands of clusters (R247, R248). -/

set_option Elab.async false

namespace Sys2Proof

open Sys2Proof.Machine

namespace Machine

variable {d e : Dev} {n : Nat}

/-! ### What a write that reaches the device leaves of clusters -/

theorem Dev.Woken.clState (h : Dev.Woken d e) (hn : n < 8) : e.clState n = d.clState n :=
  h.fields _ (Bool.eq_false_iff.mpr fun hk => Bool.false_ne_true
    ((stateKey_of_driveKey (driveKey_cluster n hn).1).symm.trans (stateKey_of_pstateKey hk)))

theorem Dev.Woken.memberPresent (h : Dev.Woken d e) (a i : Nat) : e.memberPresent a i = d.memberPresent a i := by
  have hst (p : Nat) : e.rd (Reg.PT_STAT_state.ix p) = d.rd (Reg.PT_STAT_state.ix p) := h.layout.ix Reg.PT_STAT_state p
  have hmst : e.mst a i = d.mst a i := h.layout.ix2 Reg.AR_MSTATE_state a i
  simp only [Dev.memberPresent, h.members.memberPort, hst, hmst]

theorem Dev.Woken.clusterSpare (h : Dev.Woken d e) (n : Nat) : e.clusterSpare n = d.clusterSpare n := by
  have hen : e.arrEn = d.arrEn := funext fun a => by simp only [Dev.arrEn, Dev.rdB, h.layout.ix Reg.AR_CFG_en]
  have hmst (a i : Nat) : e.mst a i = d.mst a i := h.layout.ix2 Reg.AR_MSTATE_state a i
  have hlost (a : Nat) : e.lostMembers a = d.lostMembers a := by
    have hone : e.isLost a = d.isLost a := funext fun i => by
      simp only [Dev.isLost, hmst, Dev.hasActiveSlot, Dev.slots, Dev.slotState, Dev.slotMember, h.layout.arr, h.layout.ix Reg.AR_CFG_spares,
        h.layout.ix2 Reg.AR_SLOT_state, h.layout.ix2 Reg.AR_SLOT_member]
      rfl
    simp only [Dev.lostMembers, h.members.members, hone]
  simp only [Dev.clusterSpare, Dev.arrays, hen, h.members.members, h.members.memberPort, h.memberPresent, h.layout.geo, hlost,
    h.layout.ix Reg.AR_CFG_m]

theorem Dev.setCl_clState (d : Dev) (n : Nat) {st : Nat} (hst : st < 4) : (d.setCl n st).clState n = st :=
  (Dev.rd_wr_same _ _ _).trans (by rw [Fld.ix_width]; exact Nat.mod_eq_of_lt hst)

theorem Dev.settle_clState (d : Dev) (hn : n < 8) : d.settle.clState n = d.clState n :=
  Dev.settle_rd _ _ (stateKey_of_driveKey (driveKey_cluster n hn).1)

theorem Dev.settle_clEn (d : Dev) (hn : n < 8) : d.settle.rd (Reg.DPX_CL_en.ix n) = d.rd (Reg.DPX_CL_en.ix n) :=
  Dev.settle_rd _ _ (stateKey_of_driveKey (driveKey_cluster n hn).2)

theorem Dev.settle_sys (d : Dev) : d.settle.sys = d.sys := (Frame.refl d [] []).settle.part .sys

/-- A cluster that is switched off, before its ports go. -/
def Dev.clOffSet (d : Dev) (n : Nat) : Dev := (d.setCl n clOff).wr (Reg.DPX_CL_en.ix n) 0

theorem Dev.clOffSet_shows (d : Dev) (n : Nat) : (d.clOffSet n).clState n = clOff ∧ (d.clOffSet n).rd (Reg.DPX_CL_en.ix n) = 0 := by
  refine ⟨?_, (Dev.rd_wr_same _ _ _).trans (Nat.zero_mod _)⟩
  exact (Dev.rd_wr_ix _ _ _ _ _ (by decide)).trans (d.setCl_clState n (by decide))

theorem Dev.clOffSet_frame (d : Dev) (n : Nat) : Dev.Runs d (d.clOffSet n) [Reg.DPX_CL_state.ix n, Reg.DPX_CL_en.ix n] [] :=
  ((Dev.Runs.refl _ _ _).wr _ _ (by simp)).wr _ _ (by simp)

theorem Dev.clusterDisable_eq (d : Dev) (n : Nat) : d.clusterDisable n =
    if d.clState n = clOff then d else if d.clState n ≠ clFailed ∧ !d.clusterSpare n then d.refuse .dpx
    else if d.clState n = clFailed then d.clOffSet n else (d.clOffSet n).clusterDown n := rfl

end Machine

section

variable {s : State} {n : Nat}

/-- What is left of a cluster that goes down. -/
def ClusterDown (e : Dev) (n : Nat) : Prop :=
  e.sys.pdDrv.getD n false = false ∧ ∀ p, p / 32 = n → e.ptState p = ptDisabled ∧ (e.port p).dev = none

theorem Machine.Dev.WentDown.settle {d e : Dev} (h : Dev.WentDown d e n) : ClusterDown e.settle n :=
  ⟨by rw [Dev.settle_sys]; exact h.power, fun p hp => ⟨(Dev.settle_ptState _ _).trans (h.ports p hp).1,
    by rw [Dev.settle_port]; exact (h.ports p hp).2⟩⟩

theorem hostGives_clusterReset (hn : n < 8) (hup : s.dev.clState n = clUp) : HostGives 0 .dpx (.clusterReset n) s fun e =>
    ∀ p, p / 32 = n → (s.dev.port p).dev ≠ none → s.dev.ptState p ≠ ptDisabled →
      e.ptState p = ptResetting ∧ .driveReset p ∈ e.emitted ∧ e.clState n = clResetting := by
  refine hostGives_onPage rfl (decide_eq_true hn) fun d hd => ?_
  intro p hp hdev hst
  rw [Dev.clusterReset_eq ((hd.clState hn).trans hup)]
  have hheld : p ∈ (clusterPorts n).filter fun p => (d.port p).dev.isSome && d.ptState p ≠ ptDisabled := by
    rw [List.mem_filter]
    exact ⟨mem_clusterPorts hp, by simp [hd.port, hd.ptState, Option.isSome_iff_ne_none.mpr hdev, hst]⟩
  have hown : ∀ q ∈ (clusterPorts n).filter (fun p => (d.port p).dev.isSome && d.ptState p ≠ ptDisabled), q < 256 :=
    fun q hq => (clusterPorts_spec hn (List.mem_filter.mp hq).1).2
  generalize (clusterPorts n).filter (fun p => (d.port p).dev.isSome && d.ptState p ≠ ptDisabled) = held at *
  rw [if_neg (List.ne_nil_of_mem hheld)]
  have hturn (q : Nat) (hq : q ∈ held) (e : Dev) := e.resetPort_turned (hown q hq)
  obtain ⟨hstate, hsent⟩ := forEach_each (f := Dev.resetPort) (Q := fun q e => e.ptState q = ptResetting ∧ .driveReset q ∈ e.emitted)
    (fun q hq e => ⟨(hturn q hq e).1.state, (hturn q hq e).2⟩)
    (fun q hq r hr e he => ⟨(hturn q hq e).1.keeps (hown r hr) he.1, (hturn q hq e).1.grows.mem he.2⟩)
    (d.setCl n clResetting) p hheld
  have hcl : (forEach held Dev.resetPort (d.setCl n clResetting)).clState n = clResetting := by
    obtain ⟨hkey, -⟩ := driveKey_cluster n hn
    exact forEach_keep (f := Dev.resetPort) (P := fun e => e.clState n = clResetting) held _
      (fun q hq e he => ((hturn q hq e).1.low hkey (cluster_low n hn).1).trans he) (d.setCl_clState n (by decide))
  exact ⟨(Dev.settle_ptState _ _).trans hstate, (Dev.settle_grows _).mem hsent, (Dev.settle_clState _ hn).trans hcl⟩

theorem hostGives_clusterReset_off (hn : n < 8) (hup : s.dev.clState n ≠ clUp) :
    HostGives 0 .dpx (.clusterReset n) s fun e => Frame s.dev e [] [] := by
  refine hostGives_onPage rfl (decide_eq_true hn) fun d hd => ?_
  have heq : d.clusterReset n = d := if_pos (by rw [hd.clState hn]; exact hup)
  rw [heq]
  exact (hd.runs [] []).settle.frame

theorem hostGives_clusterDisable_off (hn : n < 8) (hoff : s.dev.clState n = clOff) :
    HostGives 0 .dpx (.clusterDisable n) s fun e => Frame s.dev e [] [] := by
  refine hostGives_onPage rfl (decide_eq_true hn) fun d hd => ?_
  rw [Dev.clusterDisable_eq, if_pos ((hd.clState hn).trans hoff)]
  exact (hd.runs [] []).settle.frame

theorem hostGives_clusterDisable_refused (hn : n < 8) (hon : s.dev.clState n = clUp ∨ s.dev.clState n = clResetting)
    (hspare : s.dev.clusterSpare n = false) : HostGives 0 .dpx (.clusterDisable n) s fun e => Raised e .dpx 3 ∧ Frame s.dev e [] [] := by
  refine hostGives_onPage rfl (decide_eq_true hn) fun d hd => ?_
  rw [← hd.clState hn] at hon
  have hne : ¬ d.clState n = clOff ∧ d.clState n ≠ clFailed := by rcases hon with h | h <;> rw [h] <;> decide
  rw [Dev.clusterDisable_eq, if_neg hne.1, if_pos ⟨hne.2, by rw [hd.clusterSpare, hspare]; rfl⟩]
  exact ⟨Dev.settle_raised _ _ _ (d.refuse_raised _), ((hd.runs [] []).refuse .dpx).settle.frame⟩

theorem hostGives_clusterDisable (hn : n < 8) (hon : s.dev.clState n = clUp ∨ s.dev.clState n = clResetting)
    (hspare : s.dev.clusterSpare n = true) : HostGives 0 .dpx (.clusterDisable n) s fun e =>
      e.clState n = clOff ∧ e.rd (Reg.DPX_CL_en.ix n) = 0 ∧ ClusterDown e n := by
  refine hostGives_onPage rfl (decide_eq_true hn) fun d hd => ?_
  rw [← hd.clState hn] at hon
  have hne : ¬ d.clState n = clOff ∧ d.clState n ≠ clFailed := by rcases hon with h | h <;> rw [h] <;> decide
  rw [Dev.clusterDisable_eq, if_neg hne.1, if_neg (by rw [hd.clusterSpare, hspare]; simp), if_neg hne.2]
  have hdown := (d.clOffSet n).clusterDown_down hn
  obtain ⟨hstate, hen⟩ := d.clOffSet_shows n
  obtain ⟨hstateKey, henKey⟩ := driveKey_cluster n hn
  obtain ⟨hstateLow, henLow⟩ := cluster_low n hn
  exact ⟨(Dev.settle_clState _ hn).trans ((hdown.low _ hstateKey hstateLow).trans hstate),
    (Dev.settle_clEn _ hn).trans ((hdown.low _ henKey henLow).trans hen), hdown.settle⟩

theorem hostGives_clusterDisable_failed (hn : n < 8) (hfailed : s.dev.clState n = clFailed) :
    HostGives 0 .dpx (.clusterDisable n) s fun e => e.clState n = clOff ∧ e.rd (Reg.DPX_CL_en.ix n) = 0 ∧
      Frame s.dev e [Reg.DPX_CL_state.ix n, Reg.DPX_CL_en.ix n] [] := by
  refine hostGives_onPage rfl (decide_eq_true hn) fun d hd => ?_
  have hf : d.clState n = clFailed := (hd.clState hn).trans hfailed
  have hoff : ¬ d.clState n = clOff := by rw [hf]; decide
  rw [Dev.clusterDisable_eq, if_neg hoff, if_neg (fun h => h.1 hf), if_pos hf]
  obtain ⟨hstate, hen⟩ := d.clOffSet_shows n
  exact ⟨(Dev.settle_clState _ hn).trans hstate, (Dev.settle_clEn _ hn).trans hen,
    ((hd.runs _ _).trans (d.clOffSet_frame n) (List.Subset.refl _)).settle.frame⟩

theorem gives_clusterFail (hn : n < 8) (hon : s.dev.clState n = clUp ∨ s.dev.clState n = clResetting) :
    Gives (.clusterFail n) s fun e => e.clState n = clFailed ∧ Raised e .dpx 19 ∧ ClusterDown e n := by
  refine gives_onUnit rfl (decide_eq_true hn) ?_
  have hne : ¬ (s.dev.clState n = clOff ∨ s.dev.clState n = clFailed) := by rcases hon with h | h <;> rw [h] <;> decide
  unfold Dev.clusterFail
  rw [if_neg hne]
  extract_lets w
  have hstate : w.clState n = clFailed :=
    (Dev.errUncorr_rd _ _ _ _).trans ((Dev.causeBit_rd _ _ _ _).trans (s.dev.setCl_clState n (by decide)))
  have hraised : Raised w .dpx 19 := (Dev.errUncorr_grows _ _ _).raised (Dev.causeBit_raised _ _ _)
  have hsquall : Dev.DriveKept w (w.squall .dpx 0x40 0) := (Dev.DriveKept.refl w).squall _ _ _
  have hdown := (w.squall .dpx 0x40 0).clusterDown_down hn
  obtain ⟨hstateKey, -⟩ := driveKey_cluster n hn
  exact ⟨(Dev.settle_clState _ hn).trans ((hdown.low _ hstateKey (cluster_low n hn).1).trans ((hsquall.regs _ hstateKey).trans hstate)),
    (Dev.settle_grows _).raised (hdown.grows.raised (hsquall.grows.raised hraised)), hdown.settle⟩

theorem gives_clusterFail_failed (hn : n < 8) (hfailed : s.dev.clState n = clFailed) :
    Gives (.clusterFail n) s fun e => Frame s.dev e [] [] := by
  refine gives_onUnit rfl (decide_eq_true hn) ?_
  have heq : s.dev.clusterFail n = s.dev := if_pos (.inr hfailed)
  rw [heq]
  exact (Frame.refl _ _ _).settle

theorem hostGives_clusterEnable_on (hn : n < 8) (hon : s.dev.clState n ≠ clOff) :
    HostGives 0 .dpx (.clusterEnable n) s fun e => Frame s.dev e [] [] := by
  refine hostGives_onPage rfl (decide_eq_true hn) fun d hd => ?_
  have heq : d.clusterEnable n = d := if_pos (by rw [hd.clState hn]; exact hon)
  rw [heq]
  exact (hd.runs [] []).settle.frame

/-- The fields that powering a cluster up may change. -/
def enableFields (n : Nat) : List Fld :=
  Reg.DPX_CL_state.ix n :: Reg.DPX_CL_en.ix n :: (clusterPorts n).flatMap fun p => [Reg.PT_STAT_state.ix p, Reg.PT_STAT_reason.ix p]

theorem hostGives_clusterEnable (hn : n < 8) (hoff : s.dev.clState n = clOff) : HostGives 0 .dpx (.clusterEnable n) s fun e =>
    e.clState n = clUp ∧ e.rd (Reg.DPX_CL_en.ix n) = 1 ∧ e.sys.pdDrv.getD n false = true ∧
      (∀ p, p / 32 = n → s.dev.rd (Reg.PT_CFG_en.ix p) ≠ 0 → e.ptState p = ptEmpty) ∧ Frame s.dev e (enableFields n) [.sys] := by
  refine hostGives_onPage rfl (decide_eq_true hn) fun d hd => ?_
  unfold Dev.clusterEnable
  rw [if_neg (not_not_intro ((hd.clState hn).trans hoff))]
  extract_lets w
  have hw : Dev.Runs s.dev w (enableFields n) [.sys] := by
    have hset := ((hd.runs (enableFields n) [.sys]).wr (Reg.DPX_CL_state.ix n) clUp (by simp [enableFields])).wr (Reg.DPX_CL_en.ix n) 1
      (by simp [enableFields])
    exact ⟨hset.frame.setSys _, hset.grows.trans (.same rfl rfl)⟩
  have hcl : w.clState n = clUp := by
    show ((d.setCl n clUp).wr (Reg.DPX_CL_en.ix n) 1).rd (Reg.DPX_CL_state.ix n) = clUp
    exact (Dev.rd_wr_ix _ _ _ _ _ (by decide)).trans (d.setCl_clState n (by decide))
  have hen : w.rd (Reg.DPX_CL_en.ix n) = 1 := by
    show ((d.setCl n clUp).wr (Reg.DPX_CL_en.ix n) 1).rd (Reg.DPX_CL_en.ix n) = 1
    rw [Dev.rd_wr_same, Fld.ix_width]
    rfl
  have hpower : w.sys.pdDrv.getD n false = true := Dev.setDrv_getD _ hn true
  have hports (p : Nat) : w.rd (Reg.PT_CFG_en.ix p) = s.dev.rd (Reg.PT_CFG_en.ix p) := by
    refine (hw.rd_ix Reg.PT_CFG_en p fun g hg => ?_)
    have hkey : (Reg.PT_CFG_en.ix p).key = 0x200000 * 64 + 31 + 4096 * p * 64 := Fld.ix_key _ _
    simp only [enableFields, List.mem_cons, List.mem_flatMap, List.not_mem_nil, or_false] at hg
    have hlow := cluster_low n hn
    rcases hg with rfl | rfl | ⟨q, -, rfl | rfl⟩
    · omega
    · omega
    · exact Fld.port_key_ne
    · exact Fld.port_key_ne
  clear_value w
  have hmem (p : Nat) (hp : p ∈ (clusterPorts n).filter fun p => w.rdB (Reg.PT_CFG_en.ix p)) : p ∈ clusterPorts n := (List.mem_filter.mp hp).1
  have hturn (q : Nat) (hq : q ∈ clusterPorts n) (e : Dev) : Dev.Turned e (e.setPt q ptEmpty 0) q ptEmpty :=
    .of_set (e.setPt_set (clusterPorts_spec hn hq).2 (by decide) (by decide))
  have hstates := forEach_each (f := fun p d => d.setPt p ptEmpty 0) (Q := fun q e => e.ptState q = ptEmpty)
    (xs := (clusterPorts n).filter fun p => w.rdB (Reg.PT_CFG_en.ix p)) (fun q hq e => (hturn q (hmem q hq) e).state)
    (fun q hq r hr e he => (hturn q (hmem q hq) e).keeps (clusterPorts_spec hn (hmem r hr)).2 he) w
  have hfields (q : Nat) (hq : q ∈ clusterPorts n) : Reg.PT_STAT_state.ix q ∈ enableFields n ∧ Reg.PT_STAT_reason.ix q ∈ enableFields n := by
    constructor <;> exact List.mem_cons_of_mem _ (List.mem_cons_of_mem _ (List.mem_flatMap.mpr ⟨q, hq, by simp⟩))
  obtain ⟨hruns, hpd, hclEnd, henEnd⟩ := forEach_keep (f := fun p d => d.setPt p ptEmpty 0) (P := fun e => Dev.Runs s.dev e (enableFields n) [.sys] ∧
      e.sys.pdDrv = w.sys.pdDrv ∧ e.clState n = clUp ∧ e.rd (Reg.DPX_CL_en.ix n) = 1)
    ((clusterPorts n).filter fun p => w.rdB (Reg.PT_CFG_en.ix p)) w
    (fun q hq e he => ⟨he.1.setPt q _ _ (hfields q (hmem q hq)).1 (hfields q (hmem q hq)).2, (hturn q (hmem q hq) e).power.trans he.2.1,
      ((hturn q (hmem q hq) e).low (driveKey_cluster n hn).1 (cluster_low n hn).1).trans he.2.2.1,
      ((hturn q (hmem q hq) e).low (driveKey_cluster n hn).2 (cluster_low n hn).2).trans he.2.2.2⟩) ⟨hw, rfl, hcl, hen⟩
  refine ⟨(Dev.settle_clState _ hn).trans hclEnd, (Dev.settle_clEn _ hn).trans henEnd, by rw [Dev.settle_sys, hpd]; exact hpower,
    fun p hp hon => (Dev.settle_ptState _ _).trans (hstates p (List.mem_filter.mpr ⟨mem_clusterPorts hp, ?_⟩)), hruns.settle.frame⟩
  rw [Dev.rdB, hports p]
  exact decide_eq_true hon

end

end Sys2Proof
end

section
/-! The power states of arrays (R250 to R253); clusters and array power together. -/

set_option Elab.async false

namespace Sys2Proof

open Sys2Proof.Machine

namespace Machine

variable {d e : Dev} {a n : Nat}

/-! ### The members present while an array changes its power state -/

/-- An array's members, their ports and which of them are present are as before. -/
structure Dev.PresentKept (a : Nat) (d e : Dev) : Prop where
  port : ∀ i, e.memberPort a i = d.memberPort a i
  present : ∀ i, e.memberPresent a i = d.memberPresent a i
  members : e.presentMembers a = d.presentMembers a

/-- What leaves every register but the marks of a power change, and the array's restripe, leaves the members present. -/
theorem Dev.PresentKept.of_marks (hrd : ∀ f : Fld, f.key ≠ (Reg.AR_PWR_STAT_entering.ix a).key → f.key ≠ (Reg.AR_PWR_STAT_exiting.ix a).key →
    e.rd f = d.rd f) (hres : (e.arr a).restripe = (d.arr a).restripe) : Dev.PresentKept a d e := by
  have hentering : (Reg.AR_PWR_STAT_entering.ix a).key = 0x400088 * 64 + 31 + 4096 * a * 64 := Fld.ix_key _ _
  have hexiting : (Reg.AR_PWR_STAT_exiting.ix a).key = 0x400088 * 64 + 30 + 4096 * a * 64 := Fld.ix_key _ _
  have hpt (p : Nat) : e.rd (Reg.PT_STAT_state.ix p) = d.rd (Reg.PT_STAT_state.ix p) := hrd _ Fld.port_key_ne Fld.port_key_ne
  have habove (f : Fld) (i : Nat) (hf : 0x400088 * 64 + 31 < f.key) (hstride : (f.dims.head?.map Prod.fst).getD 0 = 4096) :
      e.rd ((f.ix a).ix i) = d.rd ((f.ix a).ix i) := by
    have h1 := Fld.ix_key f a
    have h2 := Fld.ix_key (f.ix a) i
    rw [hstride] at h1
    exact hrd _ (by omega) (by omega)
  have hmst (i : Nat) : e.mst a i = d.mst a i := habove Reg.AR_MSTATE_state i (by decide) rfl
  have hlive (i : Nat) : e.livePort a i = d.livePort a i := by
    simp only [Dev.livePort, Dev.listPort, Dev.rdB, habove Reg.AR_MEMBER_valid_hi (i / 2) (by decide) rfl,
      habove Reg.AR_MEMBER_port_hi (i / 2) (by decide) rfl, habove Reg.AR_MEMBER_valid_lo (i / 2) (by decide) rfl,
      habove Reg.AR_MEMBER_port_lo (i / 2) (by decide) rfl]
    rfl
  have hport (i : Nat) : e.memberPort a i = d.memberPort a i := by simp only [Dev.memberPort, Dev.rsTargetPorts, hres, hlive]
  have hpresent (i : Nat) : e.memberPresent a i = d.memberPresent a i := by simp only [Dev.memberPresent, hport, hpt, hmst]
  have hmembers : e.members a = d.members a := by simp only [Dev.members, Dev.memberCount, Dev.rsTargetPorts, hres, hlive]
  exact ⟨hport, hpresent, by rw [Dev.presentMembers, Dev.presentMembers, hmembers, funext hpresent]⟩

/-! ### Entry (R250, R251) -/

/-- Messages to each of a list of ports. -/
theorem Dev.emits_spec (f : Nat → Emit) (xs : List Nat) (d : Dev) :
    let e := forEach xs (fun p d => d.emit (f p)) d
    e.regs = d.regs ∧ e.lay = d.lay ∧ (∀ p ∈ xs, f p ∈ e.emitted) ∧ Dev.Runs d e [] [] := by
  refine ⟨?_, ?_, ?_, ?_⟩
  · exact forEach_keep (f := fun p d => d.emit (f p)) (P := fun e => e.regs = d.regs) xs d (fun _ _ _ h => h) rfl
  · exact forEach_keep (f := fun p d => d.emit (f p)) (P := fun e => e.lay = d.lay) xs d (fun _ _ _ h => h) rfl
  · exact forEach_each (f := fun p d => d.emit (f p)) (Q := fun p e => f p ∈ e.emitted) (fun _ _ _ => List.mem_cons_self)
      (fun _ _ _ _ _ h => List.mem_cons_of_mem _ h) d
  · exact .forEach xs (.refl _ _ _) fun p e he => he.emit _

/-- An array that is told to enter a power state. -/
def Dev.enters (d : Dev) (a st : Nat) : Dev := (d.updArr a fun r => { r with pwrTarget := st }).wr (Reg.AR_PWR_STAT_entering.ix a) 1

theorem Dev.enters_present (d : Dev) (a st : Nat) : Dev.PresentKept a d (d.enters a st) := by
  refine .of_marks (fun f h1 _ => Dev.rd_wr_other _ _ _ _ h1) ?_
  show ((d.updArr a fun r => { r with pwrTarget := st }).arr a).restripe = _
  rw [Dev.arr_updArr]

theorem Dev.powerTimer_enters {st : Nat} (hnext : d.nextPower a = some st) (hen : d.arrEn a = true)
    (hentering : d.rd (Reg.AR_PWR_STAT_entering.ix a) = 0) (hexiting : d.rd (Reg.AR_PWR_STAT_exiting.ix a) = 0)
    (hops : d.lay.ops = []) (hcmds : d.qmx.cmds = []) (hacts : d.mnt.acts = []) (hdue : d.lay.due = []) (hopen : d.dram.intents = [])
    (hsleep : 2 ≤ st → d.maySleep a = true) (hpresent : d.presentMembers a ≠ []) :
    d.powerTimer a = forEach ((d.presentMembers a).filterMap (d.memberPort a)) (fun p d => d.emit (.drivePower p st)) (d.enters a st) := by
  have hports : (d.enters a st).memberPort a = d.memberPort a := funext (d.enters_present a st).port
  have hstay : ¬ (2 ≤ st ∧ (!d.maySleep a) = true) := fun h => by rw [hsleep h.1] at h; exact Bool.false_ne_true h.2
  rw [← hports]
  unfold Dev.powerTimer
  simp only [hnext, hen, Dev.rdB, hentering, hexiting, hops, hcmds, hacts, hdue, hopen, List.any_nil, List.filter_nil, ne_eq,
    not_true_eq_false, decide_false, Bool.not_true, Bool.or_self, Bool.false_eq_true, if_false, or_self, and_false, hpresent]
  rw [if_neg hstay]
  rfl

/-! ### Exit (R252) -/

/-- What waking an array's members changes of the ports only leaves the rest. -/
structure Dev.PortsOnly (d e : Dev) : Prop where
  regs : e.regs = d.regs
  lay : e.lay = d.lay
  runs : Dev.Runs d e [] [.dpx]

namespace Dev.PortsOnly

theorem refl (d : Dev) : Dev.PortsOnly d d := ⟨rfl, rfl, .refl _ _ _⟩

variable {b : Dev} (h : Dev.PortsOnly b d)
include h

theorem updPort (p : Nat) (g : PortSt → PortSt) : Dev.PortsOnly b (d.updPort p g) := ⟨h.regs, h.lay, h.runs.updPort p g⟩

theorem emit (x : Emit) : Dev.PortsOnly b (d.emit x) := ⟨h.regs, h.lay, h.runs.emit x⟩

theorem spinUp (n : Nat) : Dev.PortsOnly b (d.spinUp n) := by
  have k : Dev.Spun d (d.spinUp n) := (Dev.Spun.refl d).spinUp n
  exact ⟨k.regs.trans h.regs, k.lay.trans h.lay, h.runs.trans k.runs (List.nil_subset _)⟩

omit h in
theorem forEach {α : Type} {f : α → Dev → Dev} (xs : List α) (h : Dev.PortsOnly b d)
    (hf : ∀ x e, Dev.PortsOnly b e → Dev.PortsOnly b (f x e)) : Dev.PortsOnly b (Machine.forEach xs f d) :=
  forEach_keep xs d (fun x _ e he => hf x e he) h

end Dev.PortsOnly

/-- An array whose members are told to wake. -/
def Dev.wakes (d : Dev) (a st : Nat) : Dev :=
  (d.updArr a fun r => { r with exitFrom := st, exitTicks := d.ticks, exitSpoiled := false }).wr (Reg.AR_PWR_STAT_exiting.ix a) 1

theorem Dev.wakeArr_eq (hentering : d.rd (Reg.AR_PWR_STAT_entering.ix a) = 0) (hexiting : d.rd (Reg.AR_PWR_STAT_exiting.ix a) = 0)
    (hst : d.rd (Reg.AR_PWR_STAT_pstate.ix a) ≠ 0) : d.wakeArr a = (d.wakes a (d.rd (Reg.AR_PWR_STAT_pstate.ix a))).wakeMembers a := by
  unfold Dev.wakeArr
  simp only [Dev.rdB, hentering, hexiting, hst, ne_eq, not_true_eq_false, decide_false, Bool.false_eq_true, if_false, Bool.not_false,
    Bool.and_false]
  rfl

/-- While present members are awaited the exit goes on. -/
theorem Dev.exitCheck_waits (hexiting : d.rd (Reg.AR_PWR_STAT_exiting.ix a) ≠ 0)
    (hwait : (d.arr a).exitWait.filter (d.memberPresent a) = (d.arr a).exitWait) (hsome : (d.arr a).exitWait ≠ []) :
    d.exitCheck a = d.updArr a fun r => { r with exitWait := (d.arr a).exitWait } := by
  unfold Dev.exitCheck
  simp only [hwait, Dev.rdB, hexiting, ne_eq, hsome, not_false_eq_true, decide_true, Bool.not_true, Bool.false_eq_true, if_false, true_or,
    if_true]

/-- The members of an array that are told to wake. -/
structure Dev.Waking (d e : Dev) (a st : Nat) : Prop where
  exiting : e.rd (Reg.AR_PWR_STAT_exiting.ix a) = 1
  exitFrom : (e.arr a).exitFrom = st
  exitWait : (e.arr a).exitWait = d.presentMembers a
  sent : st = 1 → ∀ i ∈ d.presentMembers a, ∀ p, d.memberPort a i = some p → .drivePower p 0 ∈ e.emitted
  runs : Dev.Runs d e [Reg.AR_PWR_STAT_exiting.ix a] [.lay, .dpx]

theorem Dev.Waking.of_ports {v w : Dev} {st : Nat} (hv : Dev.PresentKept a d v) (hvexit : v.rd (Reg.AR_PWR_STAT_exiting.ix a) = 1)
    (hfrom : (v.arr a).exitFrom = st) (hwait : (v.arr a).exitWait = d.presentMembers a) (hpresent : d.presentMembers a ≠ [])
    (hruns : Dev.Runs d v [Reg.AR_PWR_STAT_exiting.ix a] [.lay, .dpx]) (hw : Dev.PortsOnly v w)
    (hsent : st = 1 → ∀ i ∈ d.presentMembers a, ∀ p, d.memberPort a i = some p → .drivePower p 0 ∈ w.emitted) :
    Dev.Waking d (w.exitCheck a) a st := by
  have harr : w.arr a = v.arr a := by rw [Dev.arr, hw.lay, Dev.arr]
  have hexit : w.rd (Reg.AR_PWR_STAT_exiting.ix a) = 1 := (Dev.rd_of_regs hw.regs _).trans hvexit
  have hpres : w.memberPresent a = d.memberPresent a := by
    have hvw : Dev.PresentKept a v w := .of_marks (fun f _ _ => Dev.rd_of_regs hw.regs f) (by rw [harr])
    exact funext fun i => (hvw.present i).trans (hv.present i)
  have hkeep : (w.arr a).exitWait.filter (w.memberPresent a) = (w.arr a).exitWait := by
    rw [harr, hwait, hpres, Dev.presentMembers, List.filter_filter]
    simp only [Bool.and_self]
  rw [Dev.exitCheck_waits (by rw [hexit]; decide) hkeep (by rw [harr, hwait]; exact hpresent)]
  have hend : Dev.Runs d (w.updArr a fun r => { r with exitWait := (w.arr a).exitWait }) [Reg.AR_PWR_STAT_exiting.ix a] [.lay, .dpx] :=
    (hruns.trans hw.runs (List.nil_subset _)).setLay _
  exact ⟨hexit, by rw [Dev.arr_updArr, harr]; exact hfrom, by rw [Dev.arr_updArr, harr]; exact hwait, hsent, hend⟩

theorem Dev.wakeMembers_waking {st : Nat} (hpresent : d.presentMembers a ≠ []) : Dev.Waking d ((d.wakes a st).wakeMembers a) a st := by
  have hstart : Dev.PresentKept a d (d.wakes a st) := by
    refine .of_marks (fun f _ h2 => Dev.rd_wr_other _ _ _ _ h2) ?_
    show ((d.updArr a fun r => { r with exitFrom := st, exitTicks := d.ticks, exitSpoiled := false }).arr a).restripe = _
    rw [Dev.arr_updArr]
  have hexit : (d.wakes a st).rd (Reg.AR_PWR_STAT_exiting.ix a) = 1 := by
    unfold Dev.wakes
    rw [Dev.rd_wr_same, Fld.ix_width]
    rfl
  have hfrom : ((d.wakes a st).arr a).exitFrom = st := by
    show ((d.updArr a fun r => { r with exitFrom := st, exitTicks := d.ticks, exitSpoiled := false }).arr a).exitFrom = st
    rw [Dev.arr_updArr]
  have hruns : Dev.Runs d (d.wakes a st) [Reg.AR_PWR_STAT_exiting.ix a] [.lay, .dpx] := by
    have hset : Dev.Runs d (d.updArr a fun r => { r with exitFrom := st, exitTicks := d.ticks, exitSpoiled := false })
      [Reg.AR_PWR_STAT_exiting.ix a] [.lay, .dpx] := (Dev.Runs.refl _ _ _).setLay _
    exact hset.wr _ _ (by simp)
  generalize d.wakes a st = v at *
  unfold Dev.wakeMembers
  extract_lets ms w ps x y
  have hms : ms = d.presentMembers a := hstart.members
  have hw : Dev.PresentKept a d w := by
    have hvw : Dev.PresentKept a v w := .of_marks (fun _ _ _ => rfl) (by
      show ((v.updArr a fun r => { r with exitWait := ms }).arr a).restripe = _
      rw [Dev.arr_updArr])
    exact ⟨fun i => (hvw.port i).trans (hstart.port i), fun i => (hvw.present i).trans (hstart.present i), hvw.members.trans hstart.members⟩
  have hwarr : w.arr a = { v.arr a with exitWait := ms } := Dev.arr_updArr _ _ _
  have hwexit : w.rd (Reg.AR_PWR_STAT_exiting.ix a) = 1 := hexit
  have hwruns : Dev.Runs d w [Reg.AR_PWR_STAT_exiting.ix a] [.lay, .dpx] := hruns.setLay _
  have hwfrom : (w.arr a).exitFrom = st := by rw [hwarr]; exact hfrom
  have hwwait : (w.arr a).exitWait = d.presentMembers a := by rw [hwarr]; exact hms
  have hps (i p : Nat) (hi : i ∈ d.presentMembers a) (hp : d.memberPort a i = some p) : p ∈ ps :=
    List.mem_filterMap.mpr ⟨i, hms ▸ hi, (hw.port i).trans hp⟩
  have hx : Dev.PortsOnly w x := .forEach ps (.refl w) fun p e he => he.updPort p _
  have hxfrom : (x.arr a).exitFrom = st := by rw [Dev.arr, hx.lay]; exact hwfrom
  clear_value w x ps
  rw [hxfrom]
  split
  · obtain ⟨hregs, hlay, hsent, hemits⟩ := x.emits_spec (fun p => .drivePower p 0) ps
    refine Dev.Waking.of_ports hw hwexit hwfrom hwwait hpresent hwruns ⟨hregs.trans hx.regs, hlay.trans hx.lay, hx.runs.trans hemits⟩ ?_
    exact fun _ i hi p hp => hsent p (hps i p hi hp)
  · next hne =>
    have hy : Dev.PortsOnly w y := .forEach ps hx fun p e he => he.updPort p _
    exact Dev.Waking.of_ports hw hwexit hwfrom hwwait hpresent hwruns (.forEach _ hy fun n e he => he.spinUp n) fun h => absurd h hne

end Machine

section

variable {s : State} {a n st : Nat}

theorem gives_arrayPowerTimer_none (ha : a < 16) (hnone : s.dev.nextPower a = none) :
    Gives (.arrayPowerTimer a) s fun e => Frame s.dev e [] [] := by
  refine gives_onUnit rfl (decide_eq_true ha) ?_
  have heq : s.dev.powerTimer a = s.dev := by unfold Dev.powerTimer; rw [hnone]
  rw [heq]
  exact (Frame.refl _ _ _).settle

theorem gives_arrayPowerTimer (ha : a < 16) (hnext : s.dev.nextPower a = some st) (hen : s.dev.arrEn a = true)
    (hoff : s.dev.rd (Reg.AR_PWR_STAT_entering.ix a) = 0 ∧ s.dev.rd (Reg.AR_PWR_STAT_exiting.ix a) = 0)
    (hidle : s.dev.lay.ops = [] ∧ s.dev.qmx.cmds = [] ∧ s.dev.mnt.acts = [] ∧ s.dev.lay.due = [] ∧ s.dev.dram.intents = [])
    (hsleep : 2 ≤ st → s.dev.maySleep a = true) (hpresent : s.dev.presentMembers a ≠ []) :
    Gives (.arrayPowerTimer a) s fun e => e.rd (Reg.AR_PWR_STAT_entering.ix a) = 1 ∧ (e.arr a).pwrTarget = st ∧
      (∀ i ∈ s.dev.presentMembers a, ∀ p, s.dev.memberPort a i = some p → .drivePower p st ∈ e.emitted) ∧
      Frame s.dev e [Reg.AR_PWR_STAT_entering.ix a] [.lay] := by
  refine gives_onUnit rfl (decide_eq_true ha) ?_
  obtain ⟨hops, hcmds, hacts, hdue, hopen⟩ := hidle
  rw [Dev.powerTimer_enters hnext hen hoff.1 hoff.2 hops hcmds hacts hdue hopen hsleep hpresent]
  have hentering : (s.dev.enters a st).rd (Reg.AR_PWR_STAT_entering.ix a) = 1 := by
    unfold Dev.enters
    rw [Dev.rd_wr_same, Fld.ix_width]
    rfl
  have htarget : ((s.dev.enters a st).arr a).pwrTarget = st := by
    show ((s.dev.updArr a fun r => { r with pwrTarget := st }).arr a).pwrTarget = st
    rw [Dev.arr_updArr]
  have hruns : Dev.Runs s.dev (s.dev.enters a st) [Reg.AR_PWR_STAT_entering.ix a] [.lay] := by
    have hset : Dev.Runs s.dev (s.dev.updArr a fun r => { r with pwrTarget := st }) [Reg.AR_PWR_STAT_entering.ix a] [.lay] :=
      (Dev.Runs.refl _ _ _).setLay _
    exact hset.wr _ _ (by simp)
  generalize s.dev.enters a st = w at *
  have hps (i p : Nat) (hi : i ∈ s.dev.presentMembers a) (hp : s.dev.memberPort a i = some p) :
      p ∈ (s.dev.presentMembers a).filterMap (s.dev.memberPort a) := List.mem_filterMap.mpr ⟨i, hi, hp⟩
  obtain ⟨hregs, hlay, hsent, hemits⟩ := w.emits_spec (fun p => .drivePower p st) ((s.dev.presentMembers a).filterMap (s.dev.memberPort a))
  exact ⟨(Dev.settle_ix _ Reg.AR_PWR_STAT_entering a).trans ((Dev.rd_of_regs hregs _).trans hentering),
    by rw [Dev.settle_arr, Dev.arr, hlay]; exact htarget, fun i hi p hp => (Dev.settle_grows _).mem (hsent p (hps i p hi hp)),
    (hruns.trans hemits (List.nil_subset _) (List.nil_subset _)).settle.frame⟩

theorem gives_powerEntryConfirm (ha : a < 16) (hentering : s.dev.rd (Reg.AR_PWR_STAT_entering.ix a) ≠ 0)
    (hexiting : s.dev.rd (Reg.AR_PWR_STAT_exiting.ix a) = 0) : Gives (.powerEntryConfirm a) s fun e =>
      e.rd (Reg.AR_PWR_STAT_entering.ix a) = 0 ∧ e.rd (Reg.AR_PWR_STAT_pstate.ix a) = (s.dev.arr a).pwrTarget % 4 ∧
      Frame s.dev e [Reg.AR_PWR_STAT_entering.ix a, Reg.AR_PWR_STAT_pstate.ix a] [.lay, .dpx] := by
  refine gives_onUnit rfl (decide_eq_true ha) ?_
  unfold Dev.entryDone
  have hgo : ¬ (!s.dev.rdB (Reg.AR_PWR_STAT_entering.ix a)) = true := by simp [Dev.rdB, hentering]
  rw [if_neg hgo]
  extract_lets target w v
  have hw : Dev.Runs s.dev w [Reg.AR_PWR_STAT_entering.ix a, Reg.AR_PWR_STAT_pstate.ix a] [.lay, .dpx] :=
    ((Dev.Runs.refl _ _ _).wr _ _ (by simp)).wr _ _ (by simp)
  have hwentering : w.rd (Reg.AR_PWR_STAT_entering.ix a) = 0 := by
    unfold w
    rw [Dev.rd_wr_ix _ _ _ _ _ (by decide), Dev.rd_wr_same]
    exact Nat.zero_mod _
  have hwstate : w.rd (Reg.AR_PWR_STAT_pstate.ix a) = target % 4 := by
    unfold w
    rw [Dev.rd_wr_same, Fld.ix_width]
    rfl
  have hwexiting : w.rd (Reg.AR_PWR_STAT_exiting.ix a) = 0 := by
    unfold w
    rw [Dev.rd_wr_ix _ _ _ _ _ (by decide), Dev.rd_wr_ix _ _ _ _ _ (by decide), hexiting]
  have hv : Dev.PortsOnly w v := by
    unfold v
    split
    · exact .forEach _ (.refl w) fun p e he => he.updPort p _
    · exact .refl w
  clear_value v w
  have hvexiting : v.rdB (Reg.AR_PWR_STAT_exiting.ix a) = false := by rw [Dev.rdB, Dev.rd_of_regs hv.regs, hwexiting]; rfl
  rw [hvexiting, if_neg Bool.false_ne_true]
  exact ⟨(Dev.settle_ix _ Reg.AR_PWR_STAT_entering a).trans ((Dev.rd_of_regs hv.regs _).trans hwentering),
    (Dev.settle_ix _ Reg.AR_PWR_STAT_pstate a).trans ((Dev.rd_of_regs hv.regs _).trans hwstate),
    (hw.trans hv.runs (List.nil_subset _)).settle.frame⟩

theorem gives_arrayWake_active (hoff : s.dev.rd (Reg.AR_PWR_STAT_entering.ix a) = 0 ∧ s.dev.rd (Reg.AR_PWR_STAT_exiting.ix a) = 0)
    (hst : s.dev.rd (Reg.AR_PWR_STAT_pstate.ix a) = 0) : Gives (.arrayWake a) s fun e => Frame s.dev e [] [] := by
  refine gives_same_of_eq (f := fun d => if arrayOk a then d.wakeArr a else d) rfl ?_
  have heq : s.dev.wakeArr a = s.dev := by
    unfold Dev.wakeArr
    simp [Dev.rdB, hoff.1, hoff.2, hst]
  rw [heq]
  exact ite_self _

theorem gives_arrayWake (ha : a < 16) (hoff : s.dev.rd (Reg.AR_PWR_STAT_entering.ix a) = 0 ∧ s.dev.rd (Reg.AR_PWR_STAT_exiting.ix a) = 0)
    (hst : s.dev.rd (Reg.AR_PWR_STAT_pstate.ix a) ≠ 0) (hpresent : s.dev.presentMembers a ≠ []) : Gives (.arrayWake a) s fun e =>
      e.rd (Reg.AR_PWR_STAT_exiting.ix a) = 1 ∧ (e.arr a).exitFrom = s.dev.rd (Reg.AR_PWR_STAT_pstate.ix a) ∧
      (e.arr a).exitWait = s.dev.presentMembers a ∧
      (s.dev.rd (Reg.AR_PWR_STAT_pstate.ix a) = 1 → ∀ i ∈ s.dev.presentMembers a, ∀ p, s.dev.memberPort a i = some p →
        .drivePower p 0 ∈ e.emitted) ∧ Frame s.dev e [Reg.AR_PWR_STAT_exiting.ix a] [.lay, .dpx] := by
  refine gives_of_exec_eq_act (f := fun d => if arrayOk a then d.wakeArr a else d) rfl ?_
  have hok : arrayOk a = true := decide_eq_true ha
  rw [if_pos hok, Dev.wakeArr_eq hoff.1 hoff.2 hst]
  have hwaking := Dev.wakeMembers_waking (d := s.dev) (a := a) (st := s.dev.rd (Reg.AR_PWR_STAT_pstate.ix a)) hpresent
  exact ⟨(Dev.settle_ix _ Reg.AR_PWR_STAT_exiting a).trans hwaking.exiting, by rw [Dev.settle_arr]; exact hwaking.exitFrom,
    by rw [Dev.settle_arr]; exact hwaking.exitWait, fun h i hi p hp => (Dev.settle_grows _).mem (hwaking.sent h i hi p hp),
    hwaking.runs.settle.frame⟩

/-- The latency fields of an array. -/
def latencyFields (a : Nat) : List Fld := [(Reg.AR_PWR_LAT_ms.ix a).ix 0, (Reg.AR_PWR_LAT_ms.ix a).ix 1, (Reg.AR_PWR_LAT_ms.ix a).ix 2]

theorem hostGives_pwrLatClear (ha : a < 16) : HostGives 0 .lay (.pwrLatClear a) s fun e =>
    e.rd ((Reg.AR_PWR_LAT_ms.ix a).ix 0) = 600 ∧ e.rd ((Reg.AR_PWR_LAT_ms.ix a).ix 1) = 60000 ∧
      e.rd ((Reg.AR_PWR_LAT_ms.ix a).ix 2) = 72000 ∧ (e.arr a).longest = [] ∧ Frame s.dev e (latencyFields a) [.lay] := by
  refine hostGives_onPage rfl (decide_eq_true ha) fun d hd => ?_
  unfold Dev.latClear
  have hlong : ((d.updArr a fun r => { r with longest := [] }).arr a).longest = [] := by rw [Dev.arr_updArr]
  have hruns : Dev.Runs s.dev (d.updArr a fun r => { r with longest := [] }) (latencyFields a) [.lay] := (hd.runs _ _).setLay _
  generalize d.updArr a (fun r => { r with longest := [] }) = w at *
  have hkey (i : Nat) : ((Reg.AR_PWR_LAT_ms.ix a).ix i).key = (0x400090 * 64 + 4096 * a * 64) + 4 * i * 64 := by
    rw [Fld.ix_key, Fld.ix_key]
    rfl
  have hsettle (v : Dev) (i : Nat) : v.settle.rd ((Reg.AR_PWR_LAT_ms.ix a).ix i) = v.rd ((Reg.AR_PWR_LAT_ms.ix a).ix i) :=
    Dev.settle_rd _ _ (by
      rw [hkey]
      simp only [stateKey, Bool.and_eq_false_iff, decide_eq_false_iff_not]
      omega)
  have hne {i j : Nat} (h : i ≠ j) : ((Reg.AR_PWR_LAT_ms.ix a).ix i).key ≠ ((Reg.AR_PWR_LAT_ms.ix a).ix j).key := by
    rw [hkey, hkey]
    omega
  have hwidth (i : Nat) : ((Reg.AR_PWR_LAT_ms.ix a).ix i).width = 32 := by rw [Fld.ix_width, Fld.ix_width]; rfl
  have harr (v : Dev) (f : Fld) (x : Nat) : (v.wr f x).arr a = v.arr a := rfl
  refine ⟨?_, ?_, ?_, by rw [Dev.settle_arr, harr, harr, harr, hlong],
    (((hruns.wr _ _ (by simp [latencyFields])).wr _ _ (by simp [latencyFields])).wr _ _ (by simp [latencyFields])).settle.frame⟩
  · rw [hsettle, Dev.rd_wr_other _ _ _ _ (hne (i := 0) (j := 2) (by decide)), Dev.rd_wr_other _ _ _ _ (hne (i := 0) (j := 1) (by decide)),
      Dev.rd_wr_same, hwidth]
    exact Nat.mod_eq_of_lt (by decide)
  · rw [hsettle, Dev.rd_wr_other _ _ _ _ (hne (i := 1) (j := 2) (by decide)), Dev.rd_wr_same, hwidth]
    exact Nat.mod_eq_of_lt (by decide)
  · rw [hsettle, Dev.rd_wr_same, hwidth]
    exact Nat.mod_eq_of_lt (by decide)

end

/-- Settles O53: a cluster goes down port by port, and no drive that leaves turns another port's state. -/
theorem clustersAndArrayPower : Obligations.ClustersAndArrayPower := by
  unfold Obligations.ClustersAndArrayPower
  intro n a st s hn ha
  refine ⟨hostGives_clusterReset hn, hostGives_clusterReset_off hn, hostGives_clusterDisable_off hn,
    fun hon => ⟨hostGives_clusterDisable_refused hn hon, hostGives_clusterDisable hn hon, gives_clusterFail hn hon⟩,
    fun hfailed => ⟨hostGives_clusterDisable_failed hn hfailed, gives_clusterFail_failed hn hfailed⟩, hostGives_clusterEnable hn,
    hostGives_clusterEnable_on hn, gives_arrayPowerTimer_none ha, gives_arrayPowerTimer ha, gives_powerEntryConfirm ha,
    gives_arrayWake_active, gives_arrayWake ha, hostGives_pwrLatClear ha⟩

end Sys2Proof
end

section
/-! The passes of scrub: the start at the period, the stripe that is taken up, and the end (R220). -/

set_option Elab.async false

namespace Sys2Proof

open Sys2Proof.Machine

namespace Machine

variable {d : Dev} {a t : Nat} {units : Units} {x : ScrubSt}

theorem Dev.blocker_scrub (hon : d.mntOn = true) (hacts : d.mnt.acts = []) (hccx : d.blkState .ccx ≠ stFault) : d.blocker .scrub a = none := by
  have hrun : d.running = [] := by simp [Dev.running, hacts]
  simp [Dev.blocker, Act.ofArray, hon, Dev.meeting, hrun, leastCode, Dev.condHolds, hccx]

/-- What the start of a scrub pass leaves. -/
structure Dev.ScrubStarted (d e : Dev) (a : Nat) : Prop where
  acts : e.mnt.acts = [⟨.scrub, a, .running⟩]
  running : e.rd (Reg.AR_SCRUB_running.ix a) = 1
  permille : e.rd (Reg.AR_SCRUB_permille.ix a) = 0
  cursor : e.rd (Reg.AR_SCRUB_CUR_stripe.ix a) = 0
  frame : Frame d e [Reg.AR_SCRUB_running.ix a, Reg.AR_SCRUB_paused.ix a, Reg.AR_SCRUB_permille.ix a,
    Reg.AR_SCRUB_CUR_stripe.ix a] [.mnt, .lay]

theorem Dev.scrubBegin_started {e : Dev} (hacts : e.mnt.acts = [⟨.scrub, a, .running⟩]) (hruns : Dev.Runs d e [] [.mnt]) :
    Dev.ScrubStarted d (e.scrubBegin a).settle a := by
  have hwr (v : Dev) (f : Fld) (n : Nat) : (v.wr f n).mnt = v.mnt := rfl
  unfold Dev.scrubBegin
  extract_lets suspect
  refine ⟨?_, ?_, ?_, ?_, ?_⟩
  · rw [Dev.settle_mnt]
    exact hacts
  · rw [Dev.settle_ix _ Reg.AR_SCRUB_running, Dev.rd_wr_ix _ _ _ _ _ (by decide), Dev.rd_wr_ix _ _ _ _ _ (by decide), Dev.rd_wr_ix _ _ _ _ _ (by decide),
      Dev.rd_wr_same, Fld.ix_width]
    rfl
  · rw [Dev.settle_ix _ Reg.AR_SCRUB_permille, Dev.rd_wr_ix _ _ _ _ _ (by decide), Dev.rd_wr_same, Nat.zero_mod]
  · rw [Dev.settle_ix _ Reg.AR_SCRUB_CUR_stripe, Dev.rd_wr_same, Nat.zero_mod]
  · have hset : Dev.Runs d (e.updArr a fun r => { r with scrub := some { suspectFirst := suspect } }) [Reg.AR_SCRUB_running.ix a,
        Reg.AR_SCRUB_paused.ix a, Reg.AR_SCRUB_permille.ix a, Reg.AR_SCRUB_CUR_stripe.ix a] [.mnt, .lay] :=
      (hruns.mono (List.nil_subset _)).setLay _
    exact ((((hset.wr _ _ (by simp)).wr _ _ (by simp)).wr _ _ (by simp)).wr _ _ (by simp)).settle.frame

theorem Dev.arbRequest_scrub (hacts : d.mnt.acts = []) (hon : d.mntOn = true) (hccx : d.blkState .ccx ≠ stFault)
    (hnone : (d.arr a).scrub = none) : Dev.ScrubStarted d (d.arbRequest .scrub a).settle a := by
  rw [Dev.arbRequest_alone hacts _ _ (Dev.blocker_scrub hon hacts hccx), Dev.actStart_alone hacts _ _ (by decide)]
  generalize hw : ({ d with mnt := { d.mnt with acts := [⟨.scrub, a, .running⟩] } } : Dev) = w
  have hactsw : w.mnt.acts = [⟨.scrub, a, .running⟩] := by rw [← hw]
  have harr : (w.arr a).scrub = none := by rw [← hw]; exact hnone
  have hruns : Dev.Runs d w [] [.mnt] := by rw [← hw]; exact (Dev.Runs.refl _ _ _).setMnt _
  have hpost := Dev.postStarted_reports w .scrub a
  have hposted : ((w.postStarted .scrub a).arr a).scrub = none := by
    have hlay : (w.postStarted .scrub a).lay = w.lay := (Frame.refl w [] []).reports hpost |>.part .lay
    rw [Dev.arr, hlay]
    exact harr
  have hbegin : (w.postStarted .scrub a).actBegin .scrub a = (w.postStarted .scrub a).scrubBegin a := by
    unfold Dev.actBegin
    dsimp only
    rw [hposted]
    rfl
  rw [hbegin]
  exact Dev.scrubBegin_started (hpost.mnt ▸ hactsw) (hruns.post _ _ _ _ _ _ _)

/-! ### A stripe of a pass -/

/-- The scrub work that a stripe of which every unit answered begins with. -/
def Dev.scrubTaken (d : Dev) (a t : Nat) (units : Units) : ScrubWork :=
  { t := t, units := (List.range (d.plan a t).w).flatMap fun j => (List.range (d.geoAt a t).ub).map fun r =>
      (⟨j, r, (unitRows units j).getD r []⟩ : BufBlk) }

theorem Dev.scrubStripe_start (hx : (d.arr a).scrub = some x) (hcan : d.canMaintain .scrub a = true) (hwork : x.work = none)
    (hpick : d.scrubPick a x = some t) (hall : ∀ j, j < (d.plan a t).w → units.getD j none ≠ none) :
    d.scrubStripe a units = (d.updScrub a fun x => { x with work := some (d.scrubTaken a t units) }).scrubRow a t (d.geoAt a t).dpu
      (d.scrubTaken a t units).units fun _ => false := by
  have hsilent : ((List.range (d.plan a t).w).filter fun j => (units.getD j none).isNone) = [] := by
    rw [List.filter_eq_nil_iff]
    intro j hj
    simpa using hall j (List.mem_range.1 hj)
  unfold Dev.scrubStripe
  simp only [hx, hcan, hwork, hpick, Bool.not_true, Option.isSome_none, Bool.or_self, Bool.false_eq_true, if_false]
  unfold Dev.scrubStart
  simp only [hsilent, if_true]
  rfl

/-- A row of a stripe goes to ECE as the last of its jobs. -/
theorem Dev.scrubRow_job (d : Dev) (a t r : Nat) (us : List BufBlk) (zero : Nat → Bool) :
    ∃ y, (d.scrubRow a t r us zero).ece.jobs = d.ece.jobs ++ [y] ∧ y.kind = .syndrome ∧ y.array = a ∧ y.t = t ∧ y.client = .scrub ∧
      y.rows = [r] ∧ y.id = d.lay.nextId := ⟨_, rfl, rfl, rfl, rfl, rfl, rfl, rfl⟩

theorem Dev.scrubRow_arr (d : Dev) (a t r b : Nat) (us : List BufBlk) (zero : Nat → Bool) :
    (d.scrubRow a t r us zero).arr b = d.arr b := rfl

theorem Dev.arr_updScrub (d : Dev) (a : Nat) (g : ScrubSt → ScrubSt) : ((d.updScrub a g).arr a).scrub = (d.arr a).scrub.map g := by
  unfold Dev.updScrub
  rw [Dev.arr_updArr]

theorem Dev.scrubStripe_end (hx : (d.arr a).scrub = some x) (hcan : d.canMaintain .scrub a = true) (hwork : x.work = none)
    (hsecond : x.secondRound = true) (hpick : d.scrubPick a x = none) : d.scrubStripe a units = d.scrubEnd a := by
  unfold Dev.scrubStripe
  simp only [hx, hcan, hwork, hsecond, hpick, Bool.not_true, Option.isSome_none, Bool.or_self, Bool.false_eq_true, if_false, if_true]

end Machine

section

variable {s : State} {a t : Nat} {units : Units} {x : ScrubSt} (ha : a < 16)
include ha

theorem gives_scrubPeriod (hen : s.dev.rd Reg.MNT_SCRUB_CFG_en ≠ 0) (harr : s.dev.arrEn a = true) (hacts : s.dev.mnt.acts = [])
    (hon : s.dev.mntOn = true) (hccx : s.dev.blkState .ccx ≠ stFault) (hnone : (s.dev.arr a).scrub = none) :
    Gives (.scrubPeriod a) s fun e => e.mnt.acts = [⟨.scrub, a, .running⟩] ∧ e.rd (Reg.AR_SCRUB_running.ix a) = 1 ∧
      e.rd (Reg.AR_SCRUB_permille.ix a) = 0 ∧ e.rd (Reg.AR_SCRUB_CUR_stripe.ix a) = 0 ∧
      Frame s.dev e [Reg.AR_SCRUB_running.ix a, Reg.AR_SCRUB_paused.ix a, Reg.AR_SCRUB_permille.ix a,
        Reg.AR_SCRUB_CUR_stripe.ix a] [.mnt, .lay] := by
  refine gives_onUnit rfl (decide_eq_true ha) ?_
  have henB : s.dev.rdB Reg.MNT_SCRUB_CFG_en = true := by simpa [Dev.rdB] using hen
  rw [henB, harr, Bool.and_self, if_pos rfl]
  obtain ⟨hacts, hrun, hpm, hcur, hframe⟩ := Dev.arbRequest_scrub (a := a) hacts hon hccx hnone
  exact ⟨hacts, hrun, hpm, hcur, hframe⟩

theorem gives_scrubPeriod_off (hen : s.dev.rd Reg.MNT_SCRUB_CFG_en = 0) :
    Gives (.scrubPeriod a) s fun e => Frame s.dev e [] [] := by
  refine gives_onUnit rfl (decide_eq_true ha) ?_
  have henB : s.dev.rdB Reg.MNT_SCRUB_CFG_en = false := by simp [Dev.rdB, hen]
  rw [henB, Bool.false_and, if_neg Bool.false_ne_true]
  exact (Frame.refl _ _ _).settle

variable (hx : (s.dev.arr a).scrub = some x) (hcan : s.dev.canMaintain .scrub a = true) (hwork : x.work = none)
include hx hcan hwork

theorem gives_scrubStripe_start (hpick : s.dev.scrubPick a x = some t) (hall : ∀ j, j < (s.dev.plan a t).w → units.getD j none ≠ none) :
    Gives (.scrubStripe a units) s fun e =>
      (∃ y, e.ece.jobs = s.dev.ece.jobs ++ [y] ∧ y.kind = .syndrome ∧ y.array = a ∧ y.t = t ∧ y.client = .scrub ∧
        y.rows = [(s.dev.geoAt a t).dpu] ∧ y.id = s.dev.lay.nextId) ∧
      (∃ w, (e.arr a).scrub = some { x with work := some w } ∧ w.t = t ∧ w.tags = [] ∧ w.fixes = [] ∧ w.unresolved = 0) ∧
      Frame s.dev e [] [.ece, .lay] := by
  refine gives_onUnit rfl (decide_eq_true ha) ?_
  simp only [Dev.scrubStripe_start hx hcan hwork hpick hall]
  have hw : (s.dev.scrubTaken a t units).t = t ∧ (s.dev.scrubTaken a t units).tags = [] ∧ (s.dev.scrubTaken a t units).fixes = [] ∧
      (s.dev.scrubTaken a t units).unresolved = 0 := ⟨rfl, rfl, rfl, rfl⟩
  generalize s.dev.scrubTaken a t units = w at *
  have hruns : Dev.Runs s.dev (s.dev.updScrub a fun x => { x with work := some w }) [] [.ece, .lay] := (Dev.Runs.refl _ _ _).updScrub _ _
  have harr := s.dev.arr_updScrub a fun x => { x with work := some w }
  have hjobs : (s.dev.updScrub a fun x => { x with work := some w }).ece = s.dev.ece := rfl
  have hid : (s.dev.updScrub a fun x => { x with work := some w }).lay.nextId = s.dev.lay.nextId := rfl
  generalize s.dev.updScrub a (fun x => { x with work := some w }) = v at *
  obtain ⟨y, hy, hkind, hya, hyt, hcl, hrows, hyid⟩ := v.scrubRow_job a t (s.dev.geoAt a t).dpu w.units fun _ => false
  rw [hjobs] at hy
  rw [hid] at hyid
  refine ⟨⟨y, by rw [Dev.settle_ece, hy], hkind, hya, hyt, hcl, hrows, hyid⟩, ⟨w, ?_, hw⟩, (hruns.scrubRow _ _ _ _ _).settle.frame⟩
  rw [Dev.settle_arr, Dev.scrubRow_arr, harr, hx]
  rfl

theorem gives_scrubStripe_end (hsecond : x.secondRound = true) (hpick : s.dev.scrubPick a x = none) :
    Gives (.scrubStripe a units) s fun e => (e.arr a).scrub = none ∧ e.rd (Reg.AR_SCRUB_running.ix a) = 0 ∧
      e.rd (Reg.AR_SCRUB_permille.ix a) = 1000 ∧ e.rd (Reg.AR_SCRUB_LAST_ts.ix a) = s.dev.now % 2 ^ 64 ∧
      e.actRuns .scrub a = false ∧
      Frame s.dev e [Reg.AR_SCRUB_running.ix a, Reg.AR_SCRUB_permille.ix a, Reg.AR_SCRUB_LAST_ts.ix a] [.mnt, .lay] := by
  refine gives_onUnit rfl (decide_eq_true ha) ?_
  simp only [Dev.scrubStripe_end hx hcan hwork hsecond hpick]
  unfold Dev.scrubEnd
  generalize hw : s.dev.updArr a (fun r => { r with scrub := none }) = w
  have harr : (w.arr a).scrub = none := by rw [← hw, Dev.arr_updArr]
  have hruns : Dev.Runs s.dev w [Reg.AR_SCRUB_running.ix a, Reg.AR_SCRUB_permille.ix a, Reg.AR_SCRUB_LAST_ts.ix a] [.mnt, .lay] := by
    rw [← hw]
    exact (Dev.Runs.refl _ _ _).setLay _
  clear hw
  have hend (v : Dev) (f : Fld) : (v.actEnd .scrub a).rd f = v.rd f := rfl
  have hwr (v : Dev) (f : Fld) (n : Nat) : (v.wr f n).arr a = v.arr a := rfl
  have hgone (v : Dev) : (v.actEnd .scrub a).arr a = v.arr a := rfl
  refine ⟨by rw [Dev.settle_arr, hgone, hwr, hwr, hwr, harr], ?_, ?_, ?_, ?_,
    ((((hruns.wr _ _ (by simp)).wr _ _ (by simp)).wr _ _ (by simp)).setMnt _).settle.frame⟩
  · rw [Dev.settle_ix _ Reg.AR_SCRUB_running, hend, Dev.rd_wr_ix _ _ _ _ _ (by decide), Dev.rd_wr_ix _ _ _ _ _ (by decide), Dev.rd_wr_same, Nat.zero_mod]
  · rw [Dev.settle_ix _ Reg.AR_SCRUB_permille, hend, Dev.rd_wr_ix _ _ _ _ _ (by decide), Dev.rd_wr_same, Fld.ix_width]
    rfl
  · rw [Dev.settle_ix _ Reg.AR_SCRUB_LAST_ts, hend, Dev.rd_wr_same, Fld.ix_width, show Reg.AR_SCRUB_LAST_ts.width = 64 from rfl]
  · rw [Dev.actRuns, Dev.running, Dev.settle_mnt]
    exact Dev.actEnd_actRuns _ _ _

end

end Sys2Proof
end

section
/-! What a step of a restripe reads of the device: the geometry of both layouts, the stripes with written content and
whether the step may go on, none of which the step buffer itself changes (R222 to R224). -/

set_option Elab.async false

namespace Sys2Proof

open Sys2Proof.Machine

namespace Machine

/-- The fields beside an array's restripe that its steps change: PWC's mode and ECE's byte counters. -/
def restripeFields : List Fld := [Reg.PWC_STAT_mode, Reg.ECE_ENC_BYTES_bytes, Reg.ECE_DEC_BYTES_bytes]

/-- A restripe without its unfinished step. -/
def RestripeSt.target (x : RestripeSt) : RestripeSt := { x with step := none }

/-- e is d but for the step that the restripe of array a is in, and the work handed to ECE. -/
structure Dev.StepOnly (a : Nat) (d e : Dev) : Prop where
  regs : OnlyFields d e restripeFields
  arr : e.arr a = { d.arr a with restripe := (e.arr a).restripe }
  target : (e.arr a).restripe.map RestripeSt.target = (d.arr a).restripe.map RestripeSt.target
  destages : e.lay.destages = d.lay.destages
  dram : e.dram = d.dram
  mnt : e.mnt = d.mnt

namespace Dev.StepOnly

variable {a : Nat} {b d e : Dev}

theorem refl (a : Nat) (d : Dev) : Dev.StepOnly a d d := ⟨fun _ _ _ => rfl, rfl, rfl, rfl, rfl, rfl⟩

theorem trans (h : Dev.StepOnly a b d) (k : Dev.StepOnly a d e) : Dev.StepOnly a b e :=
  ⟨fun f hf hs => (k.regs f hf hs).trans (h.regs f hf hs), k.arr.trans (by rw [h.arr]), k.target.trans h.target,
    k.destages.trans h.destages, k.dram.trans h.dram, k.mnt.trans h.mnt⟩

/-- A change that keeps the arrays and the destages. -/
theorem runs (h : Dev.StepOnly a b d) {ps : List Part} (k : Dev.Runs d e restripeFields ps) (harrs : e.lay.arrs = d.lay.arrs)
    (hdest : e.lay.destages = d.lay.destages) (hps : Part.dram ∉ ps ∧ Part.mnt ∉ ps := by decide) : Dev.StepOnly a b e := by
  have harr : e.arr a = d.arr a := by rw [Dev.arr, harrs, Dev.arr]
  exact h.trans ⟨k.frame.1, by rw [harr], by rw [harr], hdest, k.frame.2 .dram hps.1, k.frame.2 .mnt hps.2⟩

theorem addJob (h : Dev.StepOnly a b d) (j : EceJob) : Dev.StepOnly a b (d.addJob j) :=
  h.runs (ps := [.ece, .lay]) ((Dev.Runs.refl _ _ _).addJob j) rfl rfl

theorem refreshMode (h : Dev.StepOnly a b d) : Dev.StepOnly a b d.refreshMode := by
  have hruns : Dev.Runs d d.refreshMode restripeFields [] := (Dev.Runs.refl _ _ _).refreshMode
  have hlay : d.refreshMode.lay = d.lay := hruns.frame.part .lay
  exact h.runs hruns (by rw [hlay]) (by rw [hlay])

theorem setStep (h : Dev.StepOnly a b d) (st : Option RsStep) : Dev.StepOnly a b (d.setStep a st) := by
  unfold Dev.setStep
  refine h.trans ⟨fun _ _ _ => rfl, ?_, ?_, rfl, rfl, rfl⟩
  · rw [Dev.arr_updArr]
  · rw [Dev.arr_updArr, Option.map_map]
    rfl

variable (h : Dev.StepOnly a d e)
include h

theorem ix (f : Fld) (i : Nat) (hf : 0xE0000 ≤ f.base := by decide) : e.rd (f.ix i) = d.rd (f.ix i) := by
  refine h.regs _ (fun g hg => ?_) (Fld.stateKey_ix_of_high f hf i)
  have hge : 0xE0000 * 64 ≤ (f.ix i).key := f.ix_key_high i ((Nat.mul_le_mul_right 64 hf).trans (Nat.le_add_right _ _))
  have hlt : g.key < 0xE0000 * 64 := (show ∀ g ∈ restripeFields, g.key < 0xE0000 * 64 from by decide) g hg
  omega

theorem ix2 (f : Fld) (i j : Nat) (hf : 0xE0000 ≤ f.base := by decide) : e.rd ((f.ix i).ix j) = d.rd ((f.ix i).ix j) := by
  have hbase : 0xE0000 ≤ (f.ix i).base := by
    unfold Fld.ix
    split
    · exact hf
    · exact Nat.le_add_right_of_le hf
  exact h.ix (f.ix i) j hbase

theorem cycles : (e.arr a).cycles = (d.arr a).cycles := (congrArg ArrSt.cycles h.arr :)

theorem recPorts : (e.arr a).recPorts = (d.arr a).recPorts := (congrArg ArrSt.recPorts h.arr :)

theorem assembling : (e.arr a).assembling = (d.arr a).assembling := (congrArg ArrSt.assembling h.arr :)

theorem livePort (i : Nat) : e.livePort a i = d.livePort a i := by
  simp only [Dev.livePort, Dev.listPort, Dev.rdB, h.ix2 Reg.AR_MEMBER_valid_hi, h.ix2 Reg.AR_MEMBER_port_hi,
    h.ix2 Reg.AR_MEMBER_valid_lo, h.ix2 Reg.AR_MEMBER_port_lo]
  rfl

theorem rsTargetPorts : e.rsTargetPorts a = d.rsTargetPorts a := by
  have hmap (o : Option RestripeSt) : o.map RestripeSt.ports = (o.map RestripeSt.target).map RestripeSt.ports := by
    rw [Option.map_map]
    rfl
  rw [Dev.rsTargetPorts, hmap, h.target, ← hmap, Dev.rsTargetPorts]

theorem geo : e.geo a = d.geo a := by
  have hcount : e.memberCount a = d.memberCount a := by simp only [Dev.memberCount, h.livePort]
  have hrec (i : Nat) : e.recPort a i = d.recPort a i := by
    simp only [Dev.recPort, Dev.memberPort, h.rsTargetPorts, h.livePort, h.recPorts]
  have hports : e.recPort a = d.recPort a := funext hrec
  simp only [Dev.geo, hcount, hports, h.cycles, h.ix Reg.AR_CFG_k, h.ix Reg.AR_CFG_m, h.ix Reg.AR_CFG_spares,
    h.ix Reg.AR_CFG_unit, h.ix Reg.AR_SEED_seed]

theorem targetGeo : e.targetGeo a = d.targetGeo a := by
  have htarget := h.target
  unfold Dev.targetGeo
  rw [h.cycles, h.ix Reg.AR_CFG_unit, h.geo]
  cases hd : (d.arr a).restripe with
  | none =>
    rw [hd, Option.map_none, Option.map_eq_none_iff] at htarget
    rw [htarget]
  | some x =>
    rw [hd, Option.map_some, Option.map_eq_some_iff] at htarget
    obtain ⟨y, hy, hyx⟩ := htarget
    obtain ⟨hk, hm, hs, hseed, hports, -⟩ := RestripeSt.mk.inj hyx
    rw [hy]
    simp only [hk, hm, hs, hseed, hports]

theorem rsWanted (st : RsStep) : e.rsWanted a st = d.rsWanted a st := by
  have hold (n : Nat) : e.oldWritten a n = d.oldWritten a n := by
    simp only [Dev.oldWritten, Dev.stripe, h.dram, h.geo]
    rfl
  have hstripe : e.rsStripe a st = d.rsStripe a st := by
    funext n
    simp only [Dev.rsStripe, h.targetGeo, show e.oldWritten a = d.oldWritten a from funext hold]
  rw [Dev.rsWanted, hstripe, h.targetGeo, Dev.rsWanted]

theorem restripeReady (c : Nat) : e.restripeReady a c = d.restripeReady a c := by
  have hlane (l : Nat) : e.laneState l = d.laneState l := by
    unfold Dev.laneState
    rw [h.regs Reg.ECE_LANE_STAT_enc_state (by decide) (by decide), h.regs Reg.ECE_LANE_STAT_dec_state (by decide) (by decide)]
  have hruns : e.actRuns .restripe a = d.actRuns .restripe a := by rw [Dev.actRuns, Dev.running, h.mnt]; rfl
  have hcan : e.canMaintain .restripe a = d.canMaintain .restripe a := by
    simp only [Dev.canMaintain, Dev.eceDown, Dev.laneUp, hlane, hruns, h.assembling]
  have hoverlapped : e.overlapped a c = d.overlapped a c := by simp only [Dev.overlapped, h.geo, h.targetGeo]
  have hdestaging : e.destaging a = d.destaging a := by
    funext t
    rw [Dev.destaging, h.destages, h.dram, Dev.destaging]
  simp only [Dev.restripeReady, hcan, hoverlapped, hdestaging, Dev.arrState, Dev.slots, Dev.slotState, h.ix Reg.AR_STAT_state,
    h.ix Reg.AR_CFG_spares, h.ix2 Reg.AR_SLOT_state]
  rfl

end Dev.StepOnly

end Machine

end Sys2Proof
end

section
/-! The end of a restripe step: the target stripes are written, the checkpoint goes on, and translation follows it (R223,
R224). -/

set_option Elab.async false

namespace Sys2Proof

open Sys2Proof.Machine

namespace Machine

variable {d : Dev} {a c s : Nat} {x : RestripeSt} {st : RsStep} {data : StepData}

theorem Dev.Runs.rsWrite {b : Dev} (h : Dev.Runs b d [] [.dram]) (a s : Nat) (st : RsStep) : Dev.Runs b (d.rsWrite a st s) [] [.dram] := by
  unfold Dev.rsWrite
  extract_lets tg x gen fresh marks units list state w
  have hw : Dev.Runs b w [] [.dram] := h.setDram _
  refine .forEach _ hw fun j e he => ?_
  dsimp only
  exact (Dev.Runs.ite he (he.emit _)).emit _

/-- The cycles of a restripe that are done once a step is. -/
def RestripeSt.doneAfter (x : RestripeSt) (n c : Nat) : Nat := if x.descending then n - c else c + 1

/-- The checkpoint after a step. -/
def RestripeSt.cursorAfter (x : RestripeSt) (c : Nat) : Nat := if x.descending then c - 1 else c + 1

/-- A step that has written its target stripes, and shows what is done. -/
def Dev.stepWritten (d : Dev) (a : Nat) (x : RestripeSt) (st : RsStep) : Dev :=
  ((forEach (List.range (d.targetGeo a).spc) (fun s d => d.rsWrite a st s) d).setStep a none).wr (Reg.AR_RS_STAT_permille.ix a)
    (x.doneAfter (d.arr a).cycles st.cycle * 1000 / max (d.arr a).cycles 1)

theorem Dev.stepWritten_runs (d : Dev) (a : Nat) (x : RestripeSt) (st : RsStep) :
    Dev.Runs d (d.stepWritten a x st) [Reg.AR_RS_STAT_permille.ix a] [.dram, .lay] := by
  have hwrites : Dev.Runs d (forEach (List.range (d.targetGeo a).spc) (fun s d => d.rsWrite a st s) d) [] [.dram] :=
    .forEach _ (.refl _ _ _) fun s e he => he.rsWrite a s st
  exact (((hwrites.mono (List.nil_subset _)).setLay _ : Dev.Runs d (Dev.setStep _ a none) _ [.dram, .lay])).wr _ _ (by simp)

theorem Dev.stepWritten_arr (hx : (d.arr a).restripe = some x) (st : RsStep) :
    ((d.stepWritten a x st).arr a) = { d.arr a with restripe := some x.target } := by
  have hwrites : Dev.Runs d (forEach (List.range (d.targetGeo a).spc) (fun s d => d.rsWrite a st s) d) [] [.dram] :=
    .forEach _ (.refl _ _ _) fun s e he => he.rsWrite a s st
  have hlay := hwrites.frame.part .lay
  unfold Dev.stepWritten
  generalize forEach (List.range (d.targetGeo a).spc) (fun s d => d.rsWrite a st s) d = w at *
  have harr : w.arr a = d.arr a := by rw [Dev.arr, hlay, Dev.arr]
  have hwr (v : Dev) (f : Fld) (n : Nat) : (v.wr f n).arr a = v.arr a := rfl
  rw [hwr, Dev.setStep, Dev.arr_updArr, harr, hx]
  rfl

variable (hx : (d.arr a).restripe = some x) (hst : x.step = some st)
include hx hst

theorem Dev.stepEnd_waits (hw : d.rsWanted a st ≠ []) : d.stepEnd a = d := by
  have hempty : (d.rsWanted a st).isEmpty = false := by simpa using hw
  unfold Dev.stepEnd
  simp only [hx, hst, hempty, Bool.and_false, Bool.false_eq_true, if_false]

variable (hready : d.restripeReady a st.cycle = true) (hw : d.rsWanted a st = [])
include hready hw

theorem Dev.stepEnd_eq : d.stepEnd a = (if x.doneAfter (d.arr a).cycles st.cycle = (d.arr a).cycles then (d.stepWritten a x st).restripeEnd a x
    else ((d.stepWritten a x st).wr (Reg.AR_RS_CUR_cycle.ix a) (x.cursorAfter st.cycle)).replace a).refreshMode := by
  unfold Dev.stepEnd
  simp only [hx, hst, hready, hw, List.isEmpty_nil, Bool.and_self, if_true]
  rfl

/-- A step that is not the last: the checkpoint goes on. -/
theorem Dev.stepEnd_next (hmore : x.doneAfter (d.arr a).cycles st.cycle ≠ (d.arr a).cycles) :
    (d.stepEnd a).settle.rd (Reg.AR_RS_CUR_cycle.ix a) = x.cursorAfter st.cycle % 2 ^ 64 ∧
      ((d.stepEnd a).settle.arr a).restripe = some x.target := by
  rw [Dev.stepEnd_eq hx hst hready hw, if_neg hmore]
  have harr := Dev.stepWritten_arr (d := d) hx st
  generalize d.stepWritten a x st = w at *
  generalize x.cursorAfter st.cycle = c
  have hcur : (w.wr (Reg.AR_RS_CUR_cycle.ix a) c).rd (Reg.AR_RS_CUR_cycle.ix a) = c % 2 ^ 64 := by
    rw [Dev.rd_wr_same, Fld.ix_width, show Reg.AR_RS_CUR_cycle.width = 64 from rfl]
  have harr' : (w.wr (Reg.AR_RS_CUR_cycle.ix a) c).arr a = w.arr a := rfl
  generalize w.wr (Reg.AR_RS_CUR_cycle.ix a) c = v at *
  have hrd : (v.replace a).rd (Reg.AR_RS_CUR_cycle.ix a) = v.rd (Reg.AR_RS_CUR_cycle.ix a) := rfl
  have hreplace : (v.replace a).arr a = v.arr a := rfl
  generalize v.replace a = u at *
  have hmode : Dev.Runs u u.refreshMode [Reg.PWC_STAT_mode] [] := (Dev.Runs.refl _ _ _).refreshMode
  have hlay : u.refreshMode.lay = u.lay := hmode.frame.part .lay
  refine ⟨?_, ?_⟩
  · rw [Dev.settle_ix _ Reg.AR_RS_CUR_cycle, hmode.rd_ix Reg.AR_RS_CUR_cycle a ?_, hrd, hcur]
    intro g hg
    rw [List.mem_singleton.1 hg]
    have := Reg.AR_RS_CUR_cycle.ix_key_high a (by decide)
    have hlow : Reg.PWC_STAT_mode.key < 0xE0000 * 64 := by decide
    omega
  · rw [Dev.settle_arr, Dev.arr, hlay, ← Dev.arr, hreplace, harr', harr]

end Machine

end Sys2Proof
end

section
/-! The end of a restripe: the target is the live configuration, the labels are owed, and whatever the members' change leads
to leaves both as they are (R132, R210, R224). -/

set_option Elab.async false

namespace Sys2Proof

open Sys2Proof.Machine

namespace Machine

theorem cfgKey_eq_false {k : Nat} : cfgKey k = false ↔ k % 262144 ≠ 16 ∧ k % 262144 ≠ 24 ∧ k % 262144 ≠ 145439 := by
  rw [Bool.eq_false_iff]
  simp only [cfgKey, cfgPlaces, ne_eq, List.contains_iff_mem, List.mem_cons, List.not_mem_nil, or_false, not_or]

/-- The fields AR_CFG.k, AR_CFG.m and AR_RS_STAT.running of every array are as before. -/
def Dev.CfgRegs (d e : Dev) : Prop := ∀ f : Fld, cfgKey f.key = true → e.rd f = d.rd f

namespace Dev.CfgRegs

variable {a d e : Dev}

theorem refl (d : Dev) : Dev.CfgRegs d d := fun _ _ => rfl

theorem trans (h : Dev.CfgRegs a d) (k : Dev.CfgRegs d e) : Dev.CfgRegs a e := fun f hf => (k f hf).trans (h f hf)

theorem same (h : Dev.CfgRegs a d) (k : e.regs = d.regs) : Dev.CfgRegs a e := h.trans fun f _ => rd_of_regs k f

theorem forEach {α : Type} {f : α → Dev → Dev} (xs : List α) (h : Dev.CfgRegs a d)
    (hf : ∀ x ∈ xs, ∀ e, Dev.CfgRegs a e → Dev.CfgRegs a (f x e)) : Dev.CfgRegs a (Machine.forEach xs f d) := by
  induction xs generalizing d with
  | nil => exact h
  | cons x xs ih => exact ih (hf x List.mem_cons_self d h) fun y hy => hf y (List.mem_cons_of_mem _ hy)

theorem wr (h : Dev.CfgRegs a d) (f : Fld) (v : Nat) (hf : cfgKey f.key = false) : Dev.CfgRegs a (d.wr f v) :=
  h.trans fun g hg => Dev.rd_wr_other _ _ _ _ fun he => by rw [he, hf] at hg; exact Bool.false_ne_true hg

theorem wr_ix (h : Dev.CfgRegs a d) (f : Fld) (i v : Nat) (hf : f.besideCfg = true := by decide) : Dev.CfgRegs a (d.wr (f.ix i) v) :=
  h.wr _ v (Fld.cfgKey_ix hf i)

theorem setMemberPort (h : Dev.CfgRegs a d) (n i p : Nat) (hi : i < 256) : Dev.CfgRegs a (d.setMemberPort n i p) := by
  have hkey {f : Fld} (hf : f.key = 0x400200 * 64 + f.key % 64 ∧ (f.dims = [(4096, 16), (4, 128)])) :
      cfgKey ((f.ix n).ix (i / 2)).key = false := by
    obtain ⟨hk, hd⟩ := hf
    have hd2 : (f.ix n).dims = [(4, 128)] := by simp [Fld.ix, hd]
    have hlt := Nat.mod_lt f.key (show 64 > 0 by decide)
    rw [Fld.ix_key, Fld.ix_key, hd, hd2, cfgKey_eq_false]
    simp only [List.head?_cons, Option.map_some, Option.getD_some]
    omega
  unfold Dev.setMemberPort
  split
  · exact (h.wr _ _ (hkey (by decide))).wr _ _ (hkey (by decide))
  · exact (h.wr _ _ (hkey (by decide))).wr _ _ (hkey (by decide))

end Dev.CfgRegs

/-- Those fields and LAY are as before. -/
structure Dev.CfgKept (d e : Dev) : Prop where
  regs : Dev.CfgRegs d e
  lay : e.lay = d.lay

namespace Dev.CfgKept

variable {a d e : Dev}

theorem refl (d : Dev) : Dev.CfgKept d d := ⟨.refl d, rfl⟩

theorem trans (h : Dev.CfgKept a d) (k : Dev.CfgKept d e) : Dev.CfgKept a e := ⟨h.regs.trans k.regs, k.lay.trans h.lay⟩

theorem ite {p : Prop} [Decidable p] (h : Dev.CfgKept a d) (k : Dev.CfgKept a e) : Dev.CfgKept a (if p then d else e) := by
  split <;> assumption

theorem forEach {α : Type} {f : α → Dev → Dev} (xs : List α) (h : Dev.CfgKept a d)
    (hf : ∀ x e, Dev.CfgKept a e → Dev.CfgKept a (f x e)) : Dev.CfgKept a (Machine.forEach xs f d) :=
  forEach_induct (P := Dev.CfgKept a) (fun x e he => hf x e he) xs d h

theorem work (h : Dev.CfgKept a d) (k : Dev.WorkKept d e) : Dev.CfgKept a e := h.trans ⟨k.cfg, by rw [k.same]⟩

theorem frame (h : Dev.CfgKept a d) {fs : List Fld} {ps : List Part} (k : Frame d e fs ps) (hfs : ∀ g ∈ fs, cfgKey g.key = false)
    (hps : Part.lay ∉ ps := by decide) : Dev.CfgKept a e := by
  refine h.trans ⟨fun f hf => k.1 f (fun g hg he => ?_) ?_, k.2 .lay hps⟩
  · rw [he, hfs g hg] at hf
    exact Bool.false_ne_true hf
  · have hkey : ¬ (f.key % 262144 ≠ 16 ∧ f.key % 262144 ≠ 24 ∧ f.key % 262144 ≠ 145439) := by
      rw [← cfgKey_eq_false, hf]
      exact Bool.false_ne_true.symm
    simp only [stateKey, Bool.and_eq_false_iff, decide_eq_false_iff_not]
    omega

theorem wr_ix (h : Dev.CfgKept a d) (f : Fld) (i v : Nat) (hf : f.besideCfg = true := by decide) : Dev.CfgKept a (d.wr (f.ix i) v) :=
  ⟨h.regs.wr_ix f i v hf, h.lay⟩

variable (h : Dev.CfgKept a d)
include h

theorem postVolume (vfs b c i j k l : Nat) : Dev.CfgKept a (d.postVolume vfs b c i j k l) :=
  .forEach _ h fun f _ he => he.work (Dev.deliver_kept _ f _)

theorem endOffline (n : Nat) : Dev.CfgKept a (d.endOffline n) := by
  refine .forEach _ h fun c e he => ?_
  dsimp only
  exact (Dev.CfgKept.ite (he.work (e.returnData_kept c)) he).work (Dev.stopCmd_kept _ _ _ _)

theorem refreshArr (n p : Nat) : Dev.CfgKept a (d.refreshArr n p) := by
  unfold Dev.refreshArr
  extract_lets was lost0 left0 lost l left st w x
  have hw : Dev.CfgKept a w := (((h.wr_ix _ _ _).wr_ix _ _ _).wr_ix _ _ _).wr_ix _ _ _
  have hx : Dev.CfgKept a x := .ite (hw.postVolume _ _ _ _ _ _ _) hw
  exact .ite ((hx.work (Dev.errUncorr_kept _ _ _)).endOffline n) hx

theorem actEnd (act : Act) (n : Nat) : Dev.CfgKept a (d.actEnd act n) := ⟨h.regs.same rfl, h.lay⟩

theorem actAbort (x : Activity) : Dev.CfgKept a (d.actAbort x) := by
  have hend := h.actEnd x.act x.array
  refine .ite (hend.frame (fs := learnStopFields) (ps := [.sys, .bps]) ?_ (by decide)) hend
  exact (Frame.refl _ _ _).learnStop 8 (List.Subset.refl _)

theorem arrChanged (n p : Nat) : Dev.CfgKept a (d.arrChanged n p) := by
  have hw := h.refreshArr n p
  exact .ite hw (.forEach _ hw fun x _ he => he.actAbort x)

theorem refreshMode : Dev.CfgKept a d.refreshMode :=
  h.frame (fs := [Reg.PWC_STAT_mode]) (ps := []) ((Dev.Runs.refl d _ _).refreshMode).frame (by decide)

theorem settle : Dev.CfgKept a d.settle :=
  h.frame (fs := []) (ps := []) (Frame.refl d _ _).settle (by decide)

end Dev.CfgKept

/-! ### The end of a restripe -/

/-- The configuration of a restripe's target, without a restripe. -/
structure Dev.TargetLive (a : Nat) (x : RestripeSt) (e : Dev) : Prop where
  k : e.rd (Reg.AR_CFG_k.ix a) = x.k % 2 ^ 5
  m : e.rd (Reg.AR_CFG_m.ix a) = x.m % 2 ^ 3
  running : e.rd (Reg.AR_RS_STAT_running.ix a) = 0

namespace Dev.TargetLive

variable {a : Nat} {x : RestripeSt} {d e : Dev}

theorem kept (h : Dev.TargetLive a x d) (k : Dev.CfgRegs d e) : Dev.TargetLive a x e := by
  have hkey {f : Fld} (hf : cfgKey f.key = true ∧ f.dims.head?.map Prod.fst = some 4096) : cfgKey (f.ix a).key = true := by
    obtain ⟨hkey, hdims⟩ := hf
    have heq : (f.ix a).key % (4096 * 64) = f.key % (4096 * 64) := by
      rw [Fld.ix_key, hdims, Option.getD_some, Nat.mul_right_comm]
      exact Nat.add_mul_mod_self_left _ _ _
    rw [cfgKey, heq]
    exact hkey
  exact ⟨(k _ (hkey (by decide))).trans h.k, (k _ (hkey (by decide))).trans h.m, (k _ (hkey (by decide))).trans h.running⟩

end Dev.TargetLive

/-- The target's parameters are the live ones. -/
def Dev.targetSet (d : Dev) (a : Nat) (x : RestripeSt) : Dev :=
  d.wr (Reg.AR_CFG_k.ix a) x.k |>.wr (Reg.AR_CFG_m.ix a) x.m |>.wr (Reg.AR_CFG_spares.ix a) x.spares
    |>.wr (Reg.AR_SEED_seed.ix a) x.seed |>.wr (Reg.AR_RS_CFG_go.ix a) 0 |>.wr (Reg.AR_RS_STAT_running.ix a) 0

theorem Dev.targetSet_live (d : Dev) (a : Nat) (x : RestripeSt) : Dev.TargetLive a x (d.targetSet a x) := by
  unfold Dev.targetSet
  refine ⟨?_, ?_, ?_⟩
  · rw [Dev.rd_wr_ix _ _ _ _ _ (by decide), Dev.rd_wr_ix _ _ _ _ _ (by decide), Dev.rd_wr_ix _ _ _ _ _ (by decide),
      Dev.rd_wr_ix _ _ _ _ _ (by decide), Dev.rd_wr_ix _ _ _ _ _ (by decide), Dev.rd_wr_same, Fld.ix_width,
      show Reg.AR_CFG_k.width = 5 from rfl]
  · rw [Dev.rd_wr_ix _ _ _ _ _ (by decide), Dev.rd_wr_ix _ _ _ _ _ (by decide), Dev.rd_wr_ix _ _ _ _ _ (by decide),
      Dev.rd_wr_ix _ _ _ _ _ (by decide), Dev.rd_wr_same, Fld.ix_width, show Reg.AR_CFG_m.width = 3 from rfl]
  · rw [Dev.rd_wr_same, Nat.zero_mod]

/-- The members of the target are on their ports. -/
def Dev.targetPorts (d : Dev) (a : Nat) (x : RestripeSt) (old : Nat) : Dev :=
  forEach ((List.range x.ports.length).zip x.ports) (fun p d =>
    let d := d.setMemberPort a p.1 p.2
    if p.1 < old then d
    else
      let id := d.rd (Reg.PT_ID_id.ix p.2)
      d.updArr a fun r => { r with recIdents := Tbl.put r.recIdents p.1 id }) d

theorem Dev.targetPorts_cfg (d : Dev) (a : Nat) {x : RestripeSt} (hports : x.ports.length ≤ 256) (old : Nat) :
    Dev.CfgRegs d (d.targetPorts a x old) := by
  refine .forEach _ (.refl d) fun p hp e he => ?_
  have hlt : p.1 < 256 := by
    have := (List.of_mem_zip hp).1
    rw [List.mem_range] at this
    omega
  have hset : Dev.CfgRegs d (e.setMemberPort a p.1 p.2) := he.setMemberPort a p.1 p.2 hlt
  dsimp only
  split
  · exact hset
  · exact hset.same rfl

/-- The volumes keep their blocks under another k. -/
def Dev.volumesScaled (d : Dev) (vols : List Nat) (oldK k : Nat) : Dev :=
  forEach vols (fun v d =>
    d.wr (Reg.VD_FIRST_first.ix v) (d.rd (Reg.VD_FIRST_first.ix v) * oldK / max k 1)
      |>.wr (Reg.VD_STRIPES_stripes.ix v) (d.rd (Reg.VD_STRIPES_stripes.ix v) * oldK / max k 1)) d

theorem Dev.volumesScaled_cfg (d : Dev) (vols : List Nat) (oldK k : Nat) : Dev.CfgRegs d (d.volumesScaled vols oldK k) :=
  .forEach _ (.refl d) fun _ _ _ he => (he.wr_ix _ _ _).wr_ix _ _ _

/-- The restripe is over: the labels are owed, and the members are judged again. -/
def Dev.restripeOver (d : Dev) (a : Nat) (x : RestripeSt) : Dev :=
  let d := d.updArr a fun r => { r with
    restripe := none, recPorts := (List.range x.ports.length).zip x.ports, newPorts := [] }
  let d := (d.replace a).oweLabels a
  (d.actEnd .restripe a).arrChanged a (x.ports.getD 0 0)

theorem Dev.restripeOver_owed (d : Dev) (a : Nat) (x : RestripeSt) :
    Dev.CfgRegs d (d.restripeOver a x).refreshMode.settle ∧ ((d.restripeOver a x).refreshMode.settle.arr a).restripe = none ∧
      a ∈ (d.restripeOver a x).refreshMode.settle.lay.labelsOwed := by
  unfold Dev.restripeOver
  extract_lets z t
  have hz : Dev.CfgRegs d z := (Dev.CfgRegs.refl d).same rfl
  have hnone : (z.arr a).restripe = none := by
    dsimp only [z]
    rw [Dev.arr_updArr]
  have ht : Dev.CfgRegs d t := (hz.same (e := z.replace a) rfl).wr_ix Reg.AR_STAT_labelled a 0 |>.same rfl
  have hmem : a ∈ t.lay.labelsOwed := mem_insertNat.2 (.inl rfl)
  have harr : t.arr a = z.arr a := rfl
  clear_value t
  have hend := ((((Dev.CfgKept.refl t).actEnd .restripe a).arrChanged a (x.ports.getD 0 0)).refreshMode).settle
  generalize (((t.actEnd .restripe a).arrChanged a (x.ports.getD 0 0)).refreshMode).settle = e at *
  obtain ⟨hregs, hlay⟩ := hend
  exact ⟨ht.trans hregs, by rw [Dev.arr, hlay, ← Dev.arr, harr, hnone], by rw [hlay]; exact hmem⟩

theorem Dev.restripeEnd_eq (d : Dev) (a : Nat) (x : RestripeSt) : ∃ v old vols oldK,
    d.restripeEnd a x = (((Dev.targetSet v a x).targetPorts a x old).volumesScaled vols oldK x.k).restripeOver a x :=
  ⟨_, _, _, _, rfl⟩

theorem Dev.restripeEnd_live (d : Dev) (a : Nat) (x : RestripeSt) (hports : x.ports.length ≤ 256) :
    Dev.TargetLive a x (d.restripeEnd a x).refreshMode.settle ∧ ((d.restripeEnd a x).refreshMode.settle.arr a).restripe = none ∧
      a ∈ (d.restripeEnd a x).refreshMode.settle.lay.labelsOwed := by
  obtain ⟨v, old, vols, oldK, heq⟩ := d.restripeEnd_eq a x
  rw [heq]
  have hset := v.targetSet_live a x
  have hports := (v.targetSet a x).targetPorts_cfg a hports old
  have hvols := ((v.targetSet a x).targetPorts a x old).volumesScaled_cfg vols oldK x.k
  obtain ⟨hover, hnone, howed⟩ := (((v.targetSet a x).targetPorts a x old).volumesScaled vols oldK x.k).restripeOver_owed a x
  exact ⟨hset.kept ((hports.trans hvols).trans hover), hnone, howed⟩

end Machine

end Sys2Proof
end

section
/-! The steps of a restripe: the next step, its way to ECE, and the parity that comes back (R142, R223, R224). -/

set_option Elab.async false

namespace Sys2Proof

open Sys2Proof.Machine

namespace Machine

variable {d : Dev} {a c no id : Nat} {x : RestripeSt} {st : RsStep} {data : StepData}

theorem RestripeSt.target_of_none (h : x.step = none) : x.target = x := by
  cases x
  cases h
  rfl

/-! ### The target stripes go to ECE -/

theorem Dev.rsEncodes_stepOnly {b : Dev} (h : Dev.StepOnly a b d) (st : RsStep) (zs : List RsStripe) :
    Dev.StepOnly a b (forEach zs (fun z d => d.rsEncode a st z) d) :=
  forEach_induct (P := Dev.StepOnly a b) (fun _ _ he => he.addJob _) zs d h

theorem Dev.rsEncodes_arr (d : Dev) (a : Nat) (st : RsStep) (zs : List RsStripe) :
    (forEach zs (fun z d => d.rsEncode a st z) d).arr a = d.arr a :=
  forEach_induct (P := fun e : Dev => e.arr a = d.arr a) (f := fun z d => d.rsEncode a st z) (fun _ _ he => he) zs d rfl

/-- A re-encode job of a target stripe. -/
def IsReencode (a s : Nat) (y : EceJob) : Prop := y.kind = .reencode ∧ y.array = a ∧ y.client = .restripe s

theorem Dev.rsEncode_job (d : Dev) (a : Nat) (st : RsStep) (z : RsStripe) :
    ∃ y, (d.rsEncode a st z).ece.jobs = d.ece.jobs ++ [y] ∧ IsReencode a z.s y := ⟨_, rfl, rfl, rfl, rfl⟩

theorem Dev.rsEncodes_jobs (a : Nat) (st : RsStep) : ∀ (zs : List RsStripe) (d : Dev),
    (∀ y ∈ d.ece.jobs, y ∈ (forEach zs (fun z d => d.rsEncode a st z) d).ece.jobs) ∧
      ∀ z ∈ zs, ∃ y ∈ (forEach zs (fun z d => d.rsEncode a st z) d).ece.jobs, IsReencode a z.s y
  | [], d => ⟨fun _ hy => hy, fun _ hz => absurd hz List.not_mem_nil⟩
  | z :: zs, d => by
    obtain ⟨y, hjobs, hy⟩ := d.rsEncode_job a st z
    obtain ⟨hkeep, hnew⟩ := Dev.rsEncodes_jobs a st zs (d.rsEncode a st z)
    refine ⟨fun k hk => hkeep k (by rw [hjobs]; exact List.mem_append_left _ hk), fun k hk => ?_⟩
    rcases List.mem_cons.1 hk with rfl | hk
    · exact ⟨y, hkeep y (by rw [hjobs]; exact List.mem_append_right _ List.mem_cons_self), hy⟩
    · exact hnew k hk

/-! ### The next step -/

/-- The step that begins at the checkpoint, with its buffer. -/
def Dev.stepTaken (d : Dev) (a : Nat) (st : RsStep) : Dev :=
  (({ d with freeCtr := d.freeCtr + (d.targetGeo a).spc } : Dev).setStep a (some st)).refreshMode

theorem Dev.stepTaken_stepOnly (d : Dev) (a : Nat) (st : RsStep) : Dev.StepOnly a d (d.stepTaken a st) := by
  have hfree : Dev.StepOnly a d { d with freeCtr := d.freeCtr + (d.targetGeo a).spc } := ⟨fun _ _ _ => rfl, rfl, rfl, rfl, rfl, rfl⟩
  exact (hfree.setStep _).refreshMode

theorem Dev.setStep_restripe (hx : (d.arr a).restripe = some x) (st : Option RsStep) :
    ((d.setStep a st).arr a).restripe = some { x with step := st } := by
  rw [Dev.setStep, Dev.arr_updArr, hx]
  rfl

theorem Dev.stepTaken_restripe (hx : (d.arr a).restripe = some x) (st : RsStep) :
    ((d.stepTaken a st).arr a).restripe = some { x with step := some st } := by
  unfold Dev.stepTaken
  have hset := Dev.setStep_restripe (d := ({ d with freeCtr := d.freeCtr + (d.targetGeo a).spc } : Dev)) hx (some st)
  generalize Dev.setStep _ a (some st) = w at *
  have hmode : Dev.Runs w w.refreshMode [Reg.PWC_STAT_mode] [] := (Dev.Runs.refl _ _ _).refreshMode
  have hlay : w.refreshMode.lay = w.lay := hmode.frame.part .lay
  rw [Dev.arr, hlay, ← Dev.arr, hset]

section

variable (hx : (d.arr a).restripe = some x) (hcyc : d.rd (Reg.AR_RS_CUR_cycle.ix a) < (d.arr a).cycles)
  (hready : d.restripeReady a (d.rd (Reg.AR_RS_CUR_cycle.ix a)) = true) (hstep : x.step = none)
  (hjobs : ∀ y ∈ d.ece.jobs, ¬ (y.array = a ∧ y.kind = .reencode))
include hx hcyc hready hstep hjobs

theorem Dev.restripeStep_waits (hfits : ¬ d.grantFits ((d.targetGeo a).spc * (d.targetGeo a).perStripe) = true) :
    d.restripeStep a data = d := by
  have hany : (d.ece.jobs.any fun j => j.array = a && j.kind = .reencode) = false := by
    rw [List.any_eq_false]
    intro y hy
    simpa using hjobs y hy
  unfold Dev.restripeStep
  simp only [hx, hready, hany, hstep, Nat.not_le.2 hcyc, hfits, decide_false, Bool.not_true, Bool.or_self, Bool.false_eq_true, if_false]

theorem Dev.restripeStep_takes (hfits : d.grantFits ((d.targetGeo a).spc * (d.targetGeo a).perStripe) = true) :
    ∃ st : RsStep, st.cycle = d.rd (Reg.AR_RS_CUR_cycle.ix a) ∧ st.parity = [] ∧
      d.restripeStep a data = (d.stepTaken a st).stepEncode a st := by
  have hany : (d.ece.jobs.any fun j => j.array = a && j.kind = .reencode) = false := by
    rw [List.any_eq_false]
    intro y hy
    simpa using hjobs y hy
  unfold Dev.restripeStep
  simp only [hx, hready, hany, hstep, Nat.not_le.2 hcyc, hfits, decide_false, Bool.not_true, Bool.or_self, Bool.false_eq_true, if_false,
    if_true]
  exact ⟨_, rfl, rfl, rfl⟩

end

theorem Dev.stepEncode_nil (h : d.rsWanted a st = []) : d.stepEncode a st = d.stepEnd a := by
  rw [Dev.stepEncode, h]
  rfl

/-- The target stripes with written content of a step depend on its cycle and on the parity that is there. -/
theorem Dev.rsWanted_of_cycle (d : Dev) (a : Nat) (hparity : st.parity = []) : d.rsWanted a st = d.rsWanted a ⟨st.cycle, [], [], []⟩ := by
  unfold Dev.rsWanted
  rw [hparity]
  rfl

/-! ### The parity that comes back -/

theorem Dev.jobReady_encode_none {y : EceJob} (h : d.jobReady id .reencode = some y) : d.jobReady id .encode = none := by
  obtain ⟨hrun, hk⟩ := Option.filter_eq_some_iff.1 h
  have hkind : y.kind = .reencode := by simpa using hk
  unfold Dev.jobReady
  rw [hrun]
  simp [hkind]

theorem Dev.runEncode_restripe {y : EceJob} (h : d.jobReady id .reencode = some y) (hlast : d.LastJob y)
    (hclient : y.client = .restripe no) :
    d.runEncode id = ((d.endJob y).jobReturned y).stepEncoded y.array no (encodeOut y) := by
  have hret : (d.endJob y).returnJob y (encodeOut y) = ((d.endJob y).jobReturned y, some (encodeOut y)) := hlast.returns rfl rfl _
  unfold Dev.runEncode
  rw [Dev.jobReady_encode_none h, h, Option.none_or]
  dsimp only
  unfold Dev.parityBack
  rw [hret]
  simp only [hclient]

theorem Dev.jobReturned_stepOnly (d : Dev) (y : EceJob) (a : Nat) : Dev.StepOnly a d ((d.endJob y).jobReturned y) := by
  have hbytes : [bytesField y.kind] ⊆ restripeFields := by
    intro f hf
    rw [List.mem_singleton.1 hf]
    unfold bytesField
    split
    · decide
    · decide
  have hended : Dev.Runs d (d.endJob y) restripeFields [.ece] := (d.endJob_runs y).mono hbytes
  have hlay : (d.endJob y).lay = d.lay := hended.frame.part .lay
  have hstep : Dev.StepOnly a d (d.endJob y) := (Dev.StepOnly.refl a d).runs hended (by rw [hlay]) (by rw [hlay])
  exact hstep.runs (ps := [.ece]) ((Dev.Runs.refl _ _ _).setEce _) rfl rfl

theorem Dev.jobReturned_arr (d : Dev) (y : EceJob) (a : Nat) : ((d.endJob y).jobReturned y).arr a = d.arr a := by
  have hlay : (d.endJob y).lay = d.lay := (d.endJob_runs y).frame.part .lay
  show (d.endJob y).arr a = d.arr a
  rw [Dev.arr, hlay, Dev.arr]

end Machine

section

variable {s : State} {a c id no : Nat} {x : RestripeSt} {data : StepData} (ha : a < 16)
include ha

section

variable (hx : (s.dev.arr a).restripe = some x) (hcur : c = s.dev.rd (Reg.AR_RS_CUR_cycle.ix a)) (hcyc : c < (s.dev.arr a).cycles)
  (hready : s.dev.restripeReady a c = true) (hstep : x.step = none)
  (hjobs : ∀ y ∈ s.dev.ece.jobs, ¬ (y.array = a ∧ y.kind = .reencode))
include hx hcur hcyc hready hstep hjobs

theorem gives_restripeStep_waits (hfits : ¬ s.dev.grantFits ((s.dev.targetGeo a).spc * (s.dev.targetGeo a).perStripe) = true) :
    Gives (.restripeStep a data) s fun e => Frame s.dev e [] [] := by
  subst hcur
  refine gives_onUnit rfl (decide_eq_true ha) ?_
  simp only [Dev.restripeStep_waits (data := data) hx hcyc hready hstep hjobs hfits]
  exact (Frame.refl _ _ _).settle

variable (hfits : s.dev.grantFits ((s.dev.targetGeo a).spc * (s.dev.targetGeo a).perStripe) = true)
include hfits

theorem gives_restripeStep_encodes (hwanted : s.dev.rsWanted a ⟨c, [], [], []⟩ ≠ []) : Gives (.restripeStep a data) s fun e =>
    (∃ st, (e.arr a).restripe = some { x with step := some st } ∧ st.cycle = c ∧ st.parity = []) ∧
      e.rd (Reg.AR_RS_CUR_cycle.ix a) = c ∧
      ∀ z ∈ s.dev.rsWanted a ⟨c, [], [], []⟩, ∃ y ∈ e.ece.jobs, y.kind = .reencode ∧ y.array = a ∧ y.client = .restripe z.s := by
  subst hcur
  refine gives_onUnit rfl (decide_eq_true ha) ?_
  obtain ⟨st, hcycle, hparity, hstepeq⟩ := Dev.restripeStep_takes (data := data) hx hcyc hready hstep hjobs hfits
  have hw : s.dev.rsWanted a st = s.dev.rsWanted a ⟨s.dev.rd (Reg.AR_RS_CUR_cycle.ix a), [], [], []⟩ := by
    rw [Dev.rsWanted_of_cycle _ _ hparity, hcycle]
  rw [← hw] at hwanted ⊢
  have htaken := s.dev.stepTaken_stepOnly a st
  have hrestripe := Dev.stepTaken_restripe hx st
  rw [hstepeq, Dev.stepEncode, htaken.rsWanted]
  have hsent := Dev.rsEncodes_stepOnly htaken st (s.dev.rsWanted a st)
  have harr := (s.dev.stepTaken a st).rsEncodes_arr a st (s.dev.rsWanted a st)
  obtain ⟨-, hnew⟩ := Dev.rsEncodes_jobs a st (s.dev.rsWanted a st) (s.dev.stepTaken a st)
  generalize forEach (s.dev.rsWanted a st) (fun z d => d.rsEncode a st z) (s.dev.stepTaken a st) = e at *
  rw [hrestripe.symm ▸ congrArg ArrSt.restripe harr |> fun h => Dev.stepEnd_waits h rfl (by rw [hsent.rsWanted]; exact hwanted)]
  refine ⟨⟨st, by rw [Dev.settle_arr, harr, hrestripe], hcycle, hparity⟩, ?_, fun z hz => ?_⟩
  · rw [Dev.settle_ix _ Reg.AR_RS_CUR_cycle, hsent.ix Reg.AR_RS_CUR_cycle a]
  · rw [Dev.settle_ece]
    exact hnew z hz

variable (hwanted : s.dev.rsWanted a ⟨c, [], [], []⟩ = [])
include hwanted

/-- A step without written content ends at once: what it leaves is what the end of the step leaves. -/
theorem gives_restripeStep_empty {P : Dev → Prop} (hP : ∀ (d : Dev) (st : RsStep), st.cycle = c → (d.arr a).restripe = some { x with step := some st } →
      (d.arr a).cycles = (s.dev.arr a).cycles → d.restripeReady a st.cycle = true → d.rsWanted a st = [] → P (d.stepEnd a).settle) :
    Gives (.restripeStep a data) s P := by
  subst hcur
  refine gives_onUnit rfl (decide_eq_true ha) ?_
  obtain ⟨st, hcycle, hparity, hstepeq⟩ := Dev.restripeStep_takes (data := data) hx hcyc hready hstep hjobs hfits
  have hw : s.dev.rsWanted a st = [] := by rw [Dev.rsWanted_of_cycle _ _ hparity, hcycle, hwanted]
  have htaken := s.dev.stepTaken_stepOnly a st
  have hrest := Dev.stepTaken_restripe hx st
  have hwtaken : (s.dev.stepTaken a st).rsWanted a st = [] := by rw [htaken.rsWanted, hw]
  rw [hstepeq, Dev.stepEncode_nil hwtaken]
  exact hP _ st hcycle hrest htaken.cycles (by rw [htaken.restripeReady, hcycle]; exact hready) hwtaken

theorem gives_restripeStep_next {n : Nat} (hn : x.cursorAfter c = n) (hlt : n < 2 ^ 64)
    (hmore : x.doneAfter (s.dev.arr a).cycles c ≠ (s.dev.arr a).cycles) : Gives (.restripeStep a data) s fun e =>
      e.rd (Reg.AR_RS_CUR_cycle.ix a) = n ∧ (e.arr a).restripe = some x := by
  refine gives_restripeStep_empty ha hx hcur hcyc hready hstep hjobs hfits hwanted fun d st hcycle hrest hcycles hready hw => ?_
  obtain ⟨hcursor, hrestripe⟩ := Dev.stepEnd_next hrest rfl hready hw (by rw [hcycles, hcycle]; exact hmore)
  refine ⟨?_, hrestripe.trans (congrArg some (RestripeSt.target_of_none hstep))⟩
  rw [hcursor, show RestripeSt.cursorAfter { x with step := some st } st.cycle = n from by rw [hcycle]; exact hn]
  exact Nat.mod_eq_of_lt hlt

theorem gives_restripeStep_last (hports : x.ports.length ≤ 256) (hdone : x.doneAfter (s.dev.arr a).cycles c = (s.dev.arr a).cycles) :
    Gives (.restripeStep a data) s fun e => (e.arr a).restripe = none ∧ e.rd (Reg.AR_CFG_k.ix a) = x.k % 2 ^ 5 ∧
      e.rd (Reg.AR_CFG_m.ix a) = x.m % 2 ^ 3 ∧ e.rd (Reg.AR_RS_STAT_running.ix a) = 0 ∧ a ∈ e.lay.labelsOwed := by
  refine gives_restripeStep_empty ha hx hcur hcyc hready hstep hjobs hfits hwanted fun d st hcycle hrest hcycles hready hw => ?_
  rw [Dev.stepEnd_eq hrest rfl hready hw, if_pos (by rw [hcycles, hcycle]; exact hdone)]
  obtain ⟨⟨hk, hm, hrun⟩, hnone, howed⟩ := (d.stepWritten a { x with step := some st } st).restripeEnd_live a { x with step := some st } hports
  exact ⟨hnone, hk, hm, hrun, howed⟩

end

omit ha in
theorem gives_encode_restripe {st : RsStep} {y : EceJob} (hx : (s.dev.arr a).restripe = some x) (hst : x.step = some st)
    (hy : s.dev.jobReady id .reencode = some y) (harray : y.array = a) (hclient : y.client = .restripe no)
    (hlast : (∀ z ∈ s.dev.ece.jobs, z.client = y.client → z.id = id) ∧ ∀ o ∈ s.dev.ece.outs, o.1 ≠ y.client)
    (hready : s.dev.restripeReady a st.cycle = true) (hmax : st.cycle < 2 ^ 64 - 1) (hmore : st.cycle + 1 < (s.dev.arr a).cycles)
    (hup : x.descending = false)
    (hw : s.dev.rsWanted a { st with parity := st.parity ++ (encodeOut y).map fun b => (no, b) } = []) :
    Gives (.encode id) s fun e => e.rd (Reg.AR_RS_CUR_cycle.ix a) = st.cycle + 1 ∧ (e.arr a).restripe = some { x with step := none } := by
  obtain ⟨-, hid, -⟩ := Dev.jobReady_spec hy
  refine gives_of_exec_eq_act (f := fun d => d.runEncode id) rfl ?_
  have hrun := Dev.runEncode_restripe hy (by unfold Dev.LastJob; rw [hid]; exact hlast) hclient
  rw [harray] at hrun
  simp only [hrun]
  have hreturned := s.dev.jobReturned_stepOnly y a
  have harr := s.dev.jobReturned_arr y a
  generalize (s.dev.endJob y).jobReturned y = w at *
  have hxw : (w.arr a).restripe = some x := by rw [harr, hx]
  have hrs : w.rsStep a = some st := by rw [Dev.rsStep, hxw, Option.bind_some, hst]
  generalize hst' : ({ st with parity := st.parity ++ (encodeOut y).map fun b => (no, b) } : RsStep) = st' at *
  have hcycle : st'.cycle = st.cycle := by rw [← hst']
  have hset := hreturned.setStep (some st')
  have hxs := Dev.setStep_restripe hxw (some st')
  have hstep : w.stepEncoded a no (encodeOut y) = (w.setStep a (some st')).stepEnd a := by
    unfold Dev.stepEncoded
    simp only [hrs, hst']
  rw [hstep]
  have hcursor : RestripeSt.cursorAfter { x with step := some st' } st'.cycle = st.cycle + 1 := by
    simp [RestripeSt.cursorAfter, hup, hcycle]
  have hdone : RestripeSt.doneAfter { x with step := some st' } (s.dev.arr a).cycles st'.cycle = st.cycle + 1 := by
    simp [RestripeSt.doneAfter, hup, hcycle]
  obtain ⟨hcur, hrestripe⟩ := Dev.stepEnd_next hxs rfl (by rw [hset.restripeReady, hcycle]; exact hready) (by rw [hset.rsWanted]; exact hw)
    (by rw [hset.cycles, hdone]; omega)
  refine ⟨?_, hrestripe⟩
  rw [hcur, hcursor]
  exact Nat.mod_eq_of_lt (by omega)

end

/-- Settles O48: the arbiter starts a pass, the pass picks its stripes, and a restripe step ends once it wants no parity. -/
theorem scrubAndRestripe : Obligations.ScrubAndRestripe := by
  intro a id no units data s ha
  refine ⟨gives_scrubPeriod ha, gives_scrubPeriod_off ha, fun x t => gives_scrubStripe_start ha, fun x => gives_scrubStripe_end ha,
    fun x c hx hcur hcyc hmax hready hports hstep hjobs => ?_, fun x st y hx hst hy harray hclient hone hout hready hmax hmore hup hw =>
      gives_encode_restripe hx hst hy harray hclient ⟨hone, hout⟩ hready hmax hmore hup hw⟩
  refine ⟨gives_restripeStep_waits ha hx hcur hcyc hready hstep hjobs, gives_restripeStep_encodes ha hx hcur hcyc hready hstep hjobs,
    fun hfits hwanted hdown hne => gives_restripeStep_next ha hx hcur hcyc hready hstep hjobs hfits hwanted ?_ ?_ ?_,
    fun hfits hwanted hup hne => gives_restripeStep_next ha hx hcur hcyc hready hstep hjobs hfits hwanted ?_ ?_ ?_,
    fun hfits hwanted hup hlast => gives_restripeStep_last ha hx hcur hcyc hready hstep hjobs hfits hwanted hports ?_⟩
  · rw [RestripeSt.cursorAfter, if_pos hdown]
  · omega
  · rw [RestripeSt.doneAfter, if_pos hdown]
    omega
  · rw [RestripeSt.cursorAfter, hup, if_neg Bool.false_ne_true]
  · omega
  · rw [RestripeSt.doneAfter, hup, if_neg Bool.false_ne_true]
    exact hne
  · rw [RestripeSt.doneAfter, hup, if_neg Bool.false_ne_true]
    exact hlast

end Sys2Proof
end

section
/-! What a start leaves of its own marks: the phase, the running image, the fuses, the Dawn result and the states of the DRAM
channels, which the blocks' own starts do not touch (R327 to R333). -/

set_option Elab.async false

namespace Sys2Proof

open Sys2Proof.Machine

namespace Machine

theorem driveKey_of_bootKey {k : Nat} (h : bootKey k = true) : driveKey k = true := by rw [driveKey, h]; rfl

theorem bootKey_spec {k : Nat} : bootKey k = true ↔ k = 1296 ∨ k = 5384 ∨ k = 5632 ∨ k = 5888 ∨ k = 41948700 ∨
    (20987904 ≤ k ∧ k < 20994048 ∧ k % 512 = 30) := by
  simp only [bootKey, Bool.or_eq_true, Bool.and_eq_true, decide_eq_true_eq]
  omega

theorem bootKey_high {k : Nat} (h : 0xB0000 * 64 ≤ k) : bootKey k = false := by
  rw [Bool.eq_false_iff, ne_eq, bootKey_spec]
  omega

theorem bootKey_ix_high {f : Fld} (i : Nat) (h : 0xB0000 ≤ f.base) : bootKey (f.ix i).key = false := by
  refine bootKey_high ?_
  have := Fld.ix_key f i
  have hkey : f.key = f.base * 64 + f.lo := rfl
  omega

/-- The marks of a start, and whether main power is on, are as before. -/
structure Dev.BootKept (d e : Dev) : Prop where
  regs : ∀ f : Fld, bootKey f.key = true → e.rd f = d.rd f
  main : e.sys.pdMain = d.sys.pdMain

namespace Dev.BootKept

variable {a d e : Dev}

theorem refl (d : Dev) : Dev.BootKept d d := ⟨fun _ _ => rfl, rfl⟩

theorem trans (h : Dev.BootKept a d) (k : Dev.BootKept d e) : Dev.BootKept a e :=
  ⟨fun f hf => (k.regs f hf).trans (h.regs f hf), k.main.trans h.main⟩

theorem ite {p : Prop} [Decidable p] (h : Dev.BootKept a d) (k : Dev.BootKept a e) : Dev.BootKept a (if p then d else e) := by
  split <;> assumption

theorem forEach {α : Type} {f : α → Dev → Dev} (xs : List α) (h : Dev.BootKept a d)
    (hf : ∀ x ∈ xs, ∀ e, Dev.BootKept a e → Dev.BootKept a (f x e)) : Dev.BootKept a (Machine.forEach xs f d) := by
  induction xs generalizing d with
  | nil => exact h
  | cons x xs ih => exact ih (hf x List.mem_cons_self d h) fun y hy => hf y (List.mem_cons_of_mem _ hy)

theorem drive (h : Dev.BootKept a d) (k : Dev.DriveKept d e) : Dev.BootKept a e :=
  h.trans ⟨fun f hf => k.regs f (driveKey_of_bootKey hf), k.main⟩

/-- A change beside the registers that leaves main power as it is. -/
theorem same (h : Dev.BootKept a d) (hregs : e.regs = d.regs) (hmain : e.sys.pdMain = d.sys.pdMain) : Dev.BootKept a e :=
  h.trans ⟨fun f _ => rd_of_regs hregs f, hmain⟩

theorem frame (h : Dev.BootKept a d) {fs : List Fld} {ps : List Part} (k : Frame d e fs ps) (hfs : ∀ g ∈ fs, bootKey g.key = false)
    (hps : Part.sys ∉ ps := by decide) : Dev.BootKept a e := by
  have hsys : e.sys = d.sys := k.2 .sys hps
  refine h.trans ⟨fun f hf => k.1 f (fun g hg he => ?_) (stateKey_of_driveKey (driveKey_of_bootKey hf)), by rw [hsys]⟩
  rw [he, hfs g hg] at hf
  exact Bool.false_ne_true hf

section

variable (h : Dev.BootKept a d)
include h

theorem wr (f : Fld) (v : Nat) (hf : bootKey f.key = false := by decide) : Dev.BootKept a (d.wr f v) :=
  h.trans ⟨fun g hg => Dev.rd_wr_other _ _ _ _ fun he => by rw [he, hf] at hg; exact Bool.false_ne_true hg, rfl⟩

theorem wr_high (f : Fld) (i v : Nat) (hf : 0xB0000 ≤ f.base := by decide) : Dev.BootKept a (d.wr (f.ix i) v) :=
  h.wr _ v (bootKey_ix_high i hf)

/-- A write of a field of one of the first n units. -/
theorem wr_range (f : Fld) {n i : Nat} (hi : i ∈ List.range n) (v : Nat)
    (hf : ∀ i ∈ List.range n, bootKey (f.ix i).key = false := by decide) : Dev.BootKept a (d.wr (f.ix i) v) := h.wr _ v (hf i hi)

theorem causeBit (b : Blk) (i : Nat) : Dev.BootKept a (d.causeBit b i) := h.drive ((Dev.DriveKept.refl d).causeBit b i)

theorem errCorr (b : Blk) (c : Nat) : Dev.BootKept a (d.errCorr b c) := h.drive ((Dev.DriveKept.refl d).errCorr b c)

theorem errUncorr (b : Blk) (c : Nat) : Dev.BootKept a (d.errUncorr b c) := h.drive ((Dev.DriveKept.refl d).errUncorr b c)

theorem squall (b : Blk) (c n : Nat) : Dev.BootKept a (d.squall b c n) := h.drive ((Dev.DriveKept.refl d).squall b c n)

theorem reports (k : Dev.Reports d e) : Dev.BootKept a e :=
  h.frame (fs := []) (ps := []) ((Frame.refl _ _ _).reports k) fun _ hg => absurd hg List.not_mem_nil

theorem setState (b : Blk) (st : Nat) : Dev.BootKept a (d.setState b st) := by
  have hkey : bootKey (Reg.BLK_STAT_state.ix b.page).key = false := by cases b <;> decide
  exact .ite h ((h.wr _ _ hkey).reports (Dev.cause_reports _ _ _))

theorem settle : Dev.BootKept a d.settle :=
  h.frame (fs := []) (ps := []) (Frame.refl d _ _).settle fun _ hg => absurd hg List.not_mem_nil

/-! ### BPS -/

theorem updBps (g : BpsState → BpsState) : Dev.BootKept a (d.updBps g) := h.same rfl rfl

theorem setInhibit (bit : Nat) (on : Bool) : Dev.BootKept a (d.setInhibit bit on) := h.drive ((Dev.DriveKept.refl d).setInhibit bit on)

theorem alarm (reason : Nat) : Dev.BootKept a (d.alarm reason) :=
  h.frame (ps := [.bps]) (d.alarm_frame reason) fun _ hg => absurd hg List.not_mem_nil

theorem recompute : Dev.BootKept a d.recompute := h.frame (ps := [.pwc]) d.recompute_frame (by decide)

theorem refreshHalo : Dev.BootKept a d.refreshHalo := h.frame (ps := [.bps, .pwc]) d.refreshHalo_frame (by decide)

theorem setHaloCause (bit : Nat) : Dev.BootKept a (d.setHaloCause bit) := h.frame (ps := [.bps, .pwc]) (d.setHaloCause_frame bit) (by decide)

theorem learnStop (reason : Nat) : Dev.BootKept a (d.learnStop reason) := h.drive ((Dev.DriveKept.refl d).learnStop reason)

theorem learnAsk : Dev.BootKept a d.learnAsk := h.frame (ps := [.bps, .mnt, .pwc]) d.learnAsk_capacityKept.frame (by decide)

theorem newPack : Dev.BootKept a d.newPack := ((((h.learnStop 10).wr _ _).updBps _).setHaloCause 5).learnAsk

theorem actEnd (act : Act) (n : Nat) : Dev.BootKept a (d.actEnd act n) := h.same rfl rfl

theorem roundOver : Dev.BootKept a d.roundOver := by
  unfold Dev.roundOver
  exact (((h.updBps _).wr _ _).wr _ _).actEnd _ _

theorem adcUntrust (n reason : Nat) : Dev.BootKept a (d.adcUntrust n reason) := by
  have hfield : bootKey (adcField n).key = false := by unfold adcField; split <;> decide
  unfold Dev.adcUntrust
  extract_lets u v w x y
  have hu : Dev.BootKept a u := h.wr _ _ hfield
  have hv : Dev.BootKept a v := .ite (hu.wr _ _) hu
  have hw : Dev.BootKept a w := ((hv.errUncorr _ _).alarm _).setHaloCause 4
  have hx : Dev.BootKept a x := ((hw.wr _ _).wr _ _).reports (Dev.calPost_reports _ _ _ _ _)
  have hy : Dev.BootKept a y := hx.updBps _
  have hheld : Dev.BootKept a (y.wrB Reg.BPS_CAL_STAT_held y.bps.heldCand.isSome) := hy.wr _ _
  have hround := hheld.roundOver
  have hspoil : Dev.BootKept a ((y.wrB Reg.BPS_CAL_STAT_held y.bps.heldCand.isSome).roundOver.learnSpoil 10) :=
    .ite (hround.learnStop 10) hround
  exact .ite h (hspoil.setInhibit 7 _).refreshHalo

theorem adcStart {n : Nat} (hn : n ∈ List.range 2) (tries : List AdcAttempt) : Dev.BootKept a (d.adcStart n tries) := by
  unfold Dev.adcStart
  split
  · exact (h.wr_range _ hn _).wr_range _ hn _
  · exact h.adcUntrust _ _

theorem slotUsed (r : HaloSlot) (isB : Bool) : Dev.BootKept a (d.slotUsed r isB) := by
  unfold Dev.slotUsed Dev.useRecord
  exact (((((((((h.wr _ _).wr _ _).wr _ _).wr _ _).wr _ _).wr _ _).updBps _).wr _ _).wr _ _).updBps _

theorem slotsRead (b : BootInput) : Dev.BootKept a (d.slotsRead b) := by
  unfold Dev.slotsRead
  extract_lets a? b? v w t dueNow use
  have hw : Dev.BootKept a w := ((h.wr _ _).wr _ _).updBps _
  have hdue {x : Dev} (hx : Dev.BootKept a x) : Dev.BootKept a (dueNow x) := hx.updBps _
  clear_value use dueNow w
  split
  · exact hdue (((hw.wr _ _).errUncorr _ _).alarm 8)
  · next _ r isB =>
    have hused := hw.slotUsed r isB
    have hread : Dev.BootKept a (if a?.isNone || b?.isNone then dueNow ((w.slotUsed r isB).errCorr .bps 2) else w.slotUsed r isB) :=
      .ite (hdue (hused.errCorr _ _)) hused
    exact .ite hread hread.newPack

theorem bpsStart (b : BootInput) : Dev.BootKept a (d.bpsStart b) := by
  unfold Dev.bpsStart
  extract_lets u v w x cal y z t
  clear_value cal
  have hw : Dev.BootKept a w := ((h.updBps _).wr _ _).setInhibit 5 true
  have hx : Dev.BootKept a x := .ite (((hw.setInhibit 6 true).errUncorr _ _).alarm 9) hw
  have hy : Dev.BootKept a y := by
    refine .forEach _ hx fun c hc e he => ?_
    split
    · exact ((he.wr_range _ hc _).wr_range _ hc _).wr_range _ hc _
    · exact he
  have hz : Dev.BootKept a z := (hy.wr _ _).slotsRead b
  have ht : Dev.BootKept a t := (hz.adcStart (by decide) _).adcStart (by decide) _
  exact ((ht.setInhibit 7 _).refreshHalo).setInhibit 5 _

/-! ### The other blocks -/

theorem updHif (g : HifState → HifState) : Dev.BootKept a (d.updHif g) := h.same rfl rfl

theorem updFn (f : Nat) (g : FnState → FnState) : Dev.BootKept a (d.updFn f g) := h.same rfl rfl

theorem nextFree : Dev.BootKept a d.nextFree := h.same rfl rfl

theorem setLink (l : Link) : Dev.BootKept a (d.setLink l) := by
  unfold Dev.setLink
  extract_lets u v
  have hv : Dev.BootKept a v := (h.updHif _).wr _ _
  exact .ite hv ((((hv.wr _ _).wr _ _).wr _ _).wr _ _)

theorem linkTrain : Dev.BootKept a d.linkTrain := by
  unfold Dev.linkTrain
  extract_lets u w v sp x
  have hu : Dev.BootKept a u := (h.reports (Dev.emit_reports _ _)).setLink .l0
  have hv : Dev.BootKept a v := ((hu.wr _ _).wr _ _).nextFree
  have hx : Dev.BootKept a x := (hv.wr _ _).nextFree
  exact (hx.wr _ _).nextFree

theorem cfgNotReady (bound : Nat) : Dev.BootKept a (d.cfgNotReady bound) := by
  unfold Dev.cfgNotReady
  exact (Dev.BootKept.forEach _ h fun f _ e he => he.updFn f _).nextFree

theorem hifStart (b : BootInput) : Dev.BootKept a (d.hifStart b) := by
  unfold Dev.hifStart
  extract_lets sys u v
  have hu : Dev.BootKept a u := h.same rfl rfl
  have hv : Dev.BootKept a v := (hu.updHif _).setState _ _
  exact .ite (hv.linkTrain.cfgNotReady _) hv

end

end Dev.BootKept

end Machine

end Sys2Proof
end

section
/-! The power-on test and the choice of an image: how a start ends (R327, R329, R331). -/

set_option Elab.async false

namespace Sys2Proof

open Sys2Proof.Machine

namespace Machine

namespace Dev.BootKept

variable {a d e : Dev} (h : Dev.BootKept a d)
include h

theorem ccxStart (b : BootInput) : Dev.BootKept a (d.ccxStart b) := by
  unfold Dev.ccxStart
  exact (Dev.BootKept.forEach _ h fun n hn e he => he.wr_range _ hn _).same rfl rfl

theorem laneFail (lane : Nat) : Dev.BootKept a (d.laneFail lane) := by
  unfold Dev.laneFail
  extract_lets w
  have hset : Dev.BootKept a (d.setLane lane 2) := .ite (h.wr _ _) (h.wr _ _)
  have hshown : Dev.BootKept a (d.setLane lane 2).showCarrier := hset.wr _ _
  have hw : Dev.BootKept a w := (hshown.causeBit .ece 17).same rfl rfl
  exact .ite (((hw.setState _ _).errUncorr _ _).squall _ _ _) hw

theorem updSmc (g : SmcState → SmcState) : Dev.BootKept a (d.updSmc g) := h.same rfl rfl

theorem prepareVault (dies : List Nat) (bytes : Nat) : Dev.BootKept a (d.prepareVault dies bytes) := by
  unfold Dev.prepareVault
  extract_lets n w ok v u
  have hw : Dev.BootKept a w := by
    refine .forEach _ h fun c hc e he => ?_
    exact .forEach _ ((he.wr_range _ hc _).wr_range _ hc _) fun _ _ x hx => (hx.causeBit _ _).errUncorr _ _
  have hv : Dev.BootKept a v := (hw.wr _ _).wr _ _
  have hu : Dev.BootKept a u := .ite (hv.errUncorr _ _) hv
  exact hu.same rfl rfl

theorem dpxStart : Dev.BootKept a d.dpxStart := by
  unfold Dev.dpxStart
  extract_lets sys w
  have hw : Dev.BootKept a w := h.same rfl rfl
  refine .forEach _ hw fun n _ e he => ?_
  extract_lets v
  have hv : Dev.BootKept a v := (he.wr_high _ _ _).same rfl rfl
  exact .ite (.forEach _ hv fun p _ x hx => .ite hx (hx.wr_high _ _ _)) he

end Dev.BootKept

/-- The blocks, the vault and the drive clusters start with the firmware. -/
def Dev.blocksStart (d : Dev) (b : BootInput) : Dev :=
  let d := forEach (allBlks.filter fun x => x ≠ .smc) (fun x d => d.setState x stIdle) d
  let d := forEach (List.range 8) (fun c d => d.wr (Reg.BME_CH_STAT_state.ix c) 0) d
  let d := forEach ((List.range 2).filter fun i => !b.eceLanesOk.getD i true) (fun i d => d.laneFail i) d
  let d := if b.smcOk then d.smcResetStart true else
    (d.wr Reg.SMC_BIST_result bistFail).updSmc fun s => { s with newKey := true }
  (d.prepareVault b.vaultDies b.vaultGroupBytes).dpxStart

theorem Dev.BootKept.blocksStart {a d : Dev} (h : Dev.BootKept a d) (b : BootInput) : Dev.BootKept a (d.blocksStart b) := by
  unfold Dev.blocksStart
  extract_lets u v w x
  have hu : Dev.BootKept a u := .forEach _ h fun x _ e he => he.setState x stIdle
  have hv : Dev.BootKept a v := .forEach _ hu fun c _ e he => he.wr_high _ c 0
  have hw : Dev.BootKept a w := .forEach _ hv fun i _ e he => he.laneFail i
  have hx : Dev.BootKept a x := .ite (hw.updSmc _) ((hw.wr Reg.SMC_BIST_result bistFail).updSmc _)
  exact (hx.prepareVault _ _).dpxStart

theorem Dev.trainStart_eq (d : Dev) (b : BootInput) : d.trainStart b =
    ((({ d with sys := { d.sys with pdMem := true } } : Dev).setPhase phTrain).ccxStart b).blocksStart b := rfl

/-! ### Phases -/

theorem Dev.phase_setPhase (d : Dev) {p : Nat} (hp : p < 2 ^ 16 := by decide) : (d.setPhase p).phase = p :=
  (Dev.rd_wr_same _ _ _).trans (Nat.mod_eq_of_lt hp)

theorem Dev.rd_setPhase (d : Dev) (p : Nat) (f : Fld) (hf : f.key ≠ (Reg.BLK_STAT_specific.ix 0).key := by decide) :
    (d.setPhase p).rd f = d.rd f := Dev.rd_wr_other _ _ _ _ hf

namespace Dev.BootKept

variable {d e : Dev} (h : Dev.BootKept d e)
include h

theorem phase : e.phase = d.phase := h.regs _ (by decide)

theorem rd (f : Fld) (hf : bootKey f.key = true := by decide) : e.rd f = d.rd f := h.regs f hf

end Dev.BootKept

/-! ### The choice of an image -/

/-- The image that a start may run. -/
def bootImage (b : BootInput) (isB : Bool) : FwImage := if isB then b.imageB else b.imageA

/-- An image runs, and DRAM trains. -/
structure Dev.RunsImage (b : BootInput) (isB : Bool) (e : Dev) : Prop where
  phase : e.phase = phTrain
  running : e.rdB Reg.SYS_BOOT_running = isB
  version : e.rd Reg.SYS_FW_VER_version = (bootImage b isB).version % 2 ^ 32

theorem Dev.RunsImage.kept {b : BootInput} {isB : Bool} {d e : Dev} (h : Dev.RunsImage b isB d) (k : Dev.BootKept d e) :
    Dev.RunsImage b isB e :=
  ⟨k.phase.trans h.phase, by rw [Dev.rdB, k.rd Reg.SYS_BOOT_running]; exact h.running, (k.rd _).trans h.version⟩

/-- An image that was chosen starts. -/
def Dev.imageRun (d : Dev) (b : BootInput) (isB : Bool) : Dev :=
  (d.wrB Reg.SYS_BOOT_running isB |>.wr Reg.SYS_FW_VER_version (bootImage b isB).version |>.wr Reg.SYS_SVN_image (bootImage b isB).svn).trainStart b

theorem Dev.imageRun_runs (d : Dev) (b : BootInput) (isB : Bool) :
    Dev.RunsImage b isB (d.imageRun b isB) ∧ (d.imageRun b isB).sys.pdMain = d.sys.pdMain := by
  unfold Dev.imageRun
  rw [Dev.trainStart_eq]
  generalize hw : ((d.wrB Reg.SYS_BOOT_running isB).wr Reg.SYS_FW_VER_version (bootImage b isB).version).wr Reg.SYS_SVN_image
    (bootImage b isB).svn = w
  have hrunning : w.rdB Reg.SYS_BOOT_running = isB := by
    rw [← hw, Dev.rdB, Dev.rd_wr_other _ _ _ _ (by decide), Dev.rd_wr_other _ _ _ _ (by decide), Dev.wrB, Dev.rd_wr_same]
    cases isB <;> rfl
  have hversion : w.rd Reg.SYS_FW_VER_version = (bootImage b isB).version % 2 ^ 32 := by
    rw [← hw, Dev.rd_wr_other _ _ _ _ (by decide), Dev.rd_wr_same, show Reg.SYS_FW_VER_version.width = 32 from rfl]
  have hmain : w.sys.pdMain = d.sys.pdMain := by rw [← hw]; rfl
  clear hw
  generalize hv : ({ w with sys := { w.sys with pdMem := true } } : Dev).setPhase phTrain = v
  have hruns : Dev.RunsImage b isB v := by
    rw [← hv]
    refine ⟨Dev.phase_setPhase _, ?_, ?_⟩
    · rw [Dev.rdB, Dev.rd_setPhase _ _ Reg.SYS_BOOT_running]
      exact hrunning
    · rw [Dev.rd_setPhase _ _ Reg.SYS_FW_VER_version]
      exact hversion
  have hmainv : v.sys.pdMain = w.sys.pdMain := by rw [← hv]; rfl
  have hkept := ((Dev.BootKept.refl v).ccxStart b).blocksStart b
  exact ⟨hruns.kept hkept, hkept.main.trans (hmainv.trans hmain)⟩

/-- How the choice of an image ends, against a fuse counter. -/
structure Dev.ImageChosen (b : BootInput) (fuse : Nat) (d e : Dev) : Prop where
  preferred : imageResult fuse (bootImage b (bootPreferB b)) = imgOk → Dev.RunsImage b (bootPreferB b) e
  other : imageResult fuse (bootImage b (bootPreferB b)) ≠ imgOk → imageResult fuse (bootImage b (!bootPreferB b)) = imgOk →
    Dev.RunsImage b (!bootPreferB b) e
  none : imageResult fuse (bootImage b (bootPreferB b)) ≠ imgOk → imageResult fuse (bootImage b (!bootPreferB b)) ≠ imgOk →
    e.phase = phNoImage
  main : e.sys.pdMain = d.sys.pdMain

theorem Dev.imageChoose_eq (d : Dev) (b : BootInput) : d.imageChoose b =
    let r1 := imageResult (d.rd Reg.SYS_SVN_fuse) (bootImage b (bootPreferB b))
    let r2 := imageResult (d.rd Reg.SYS_SVN_fuse) (bootImage b (!bootPreferB b))
    let d1 := (d.wrB Reg.SYS_BOOT_preferred (bootPreferB b)).bootResult (bootPreferB b) r1
    let d2 := d1.bootResult (!bootPreferB b) r2
    if r1 = imgOk then d1.imageRun b (bootPreferB b)
    else if r2 = imgOk then (d2.errCorr .sys 2).imageRun b (!bootPreferB b)
    else (d2.errUncorr .sys 3).setPhase phNoImage := rfl

theorem Dev.bootResult_main (d : Dev) (isB : Bool) (r : Nat) : (d.bootResult isB r).sys.pdMain = d.sys.pdMain := by
  unfold Dev.bootResult
  split <;> rfl

theorem Dev.imageChoose_chosen (d : Dev) (b : BootInput) : Dev.ImageChosen b (d.rd Reg.SYS_SVN_fuse) d (d.imageChoose b) := by
  rw [Dev.imageChoose_eq]
  extract_lets r1 r2 d1 d2
  have h1 : d1.sys.pdMain = d.sys.pdMain := Dev.bootResult_main _ _ _
  have h2 : d2.sys.pdMain = d.sys.pdMain := (Dev.bootResult_main _ _ _).trans h1
  have hcorr : (d2.errCorr .sys 2).sys.pdMain = d2.sys.pdMain := ((Dev.BootKept.refl d2).errCorr .sys 2).main
  have huncorr : ((d2.errUncorr .sys 3).setPhase phNoImage).sys.pdMain = d2.sys.pdMain := ((Dev.BootKept.refl d2).errUncorr .sys 3).main
  by_cases hr1 : r1 = imgOk
  · rw [if_pos hr1]
    obtain ⟨hruns, hmain⟩ := d1.imageRun_runs b (bootPreferB b)
    exact ⟨fun _ => hruns, fun h => absurd hr1 h, fun h => absurd hr1 h, hmain.trans h1⟩
  · rw [if_neg hr1]
    by_cases hr2 : r2 = imgOk
    · rw [if_pos hr2]
      obtain ⟨hruns, hmain⟩ := (d2.errCorr .sys 2).imageRun_runs b (!bootPreferB b)
      exact ⟨fun h => absurd h hr1, fun _ _ => hruns, fun _ h => absurd hr2 h, (hmain.trans hcorr).trans h2⟩
    · rw [if_neg hr2]
      exact ⟨fun h => absurd h hr1, fun _ h => absurd h hr2, fun _ _ => Dev.phase_setPhase _, huncorr.trans h2⟩

theorem Dev.ImageChosen.kept {b : BootInput} {fuse : Nat} {a d e : Dev} (h : Dev.ImageChosen b fuse a d) (k : Dev.BootKept d e) :
    Dev.ImageChosen b fuse a e :=
  ⟨fun h1 => (h.preferred h1).kept k, fun h1 h2 => (h.other h1 h2).kept k, fun h1 h2 => k.phase.trans (h.none h1 h2),
    k.main.trans h.main⟩

/-! ### The power-on test -/

/-- How a start ends that came past HOLD. -/
structure Dev.BootEnds (b : BootInput) (fuse : Nat) (d e : Dev) : Prop where
  failed : ¬ (b.otherOk = true ∧ 2 ≤ (bootPairs b).length) → e.phase = phFailed
  chosen : b.otherOk = true ∧ 2 ≤ (bootPairs b).length → Dev.ImageChosen b fuse d e
  main : e.sys.pdMain = d.sys.pdMain

theorem Dev.testAndBoot_ends (d : Dev) (b : BootInput) : Dev.BootEnds b (d.rd Reg.SYS_SVN_fuse) d (d.testAndBoot b).settle := by
  unfold Dev.testAndBoot
  extract_lets bad ok u v w x y dpx z
  have hu : Dev.BootKept d u := ((Dev.BootKept.refl d).wr _ _).wr _ _
  have hv : Dev.BootKept d v := .ite hu (hu.causeBit _ _)
  have hw : Dev.BootKept d w := hv.setState _ _
  have hok : ok = true ↔ b.otherOk = true ∧ 2 ≤ (bootPairs b).length := by simp [ok]
  by_cases htest : ok = true
  · rw [htest, Bool.not_true, if_neg Bool.false_ne_true]
    have hx : Dev.BootKept d x := .ite hw (hw.errCorr _ _)
    have hy : Dev.BootKept (x.setPhase phBoot) y := (((Dev.BootKept.refl _).hifStart b).setState _ _).bpsStart b
    have hz : Dev.BootKept (x.setPhase phBoot) z := hy.same rfl rfl
    have hfuse : z.rd Reg.SYS_SVN_fuse = d.rd Reg.SYS_SVN_fuse := (hz.rd _).trans ((Dev.rd_setPhase _ _ _).trans (hx.rd _))
    have hmain : z.sys.pdMain = d.sys.pdMain := hz.main.trans hx.main
    have hchosen := (z.imageChoose_chosen b).kept (Dev.BootKept.refl _).settle
    rw [hfuse] at hchosen
    obtain ⟨hpref, hother, hnone, hzmain⟩ := hchosen
    exact ⟨fun h => absurd (hok.1 htest) h, fun _ => ⟨hpref, hother, hnone, hzmain.trans hmain⟩, hzmain.trans hmain⟩
  · rw [Bool.eq_false_iff.2 htest, Bool.not_false, if_pos rfl]
    have hfail : ((w.errUncorr .sys 6).setPhase phFailed).sys.pdMain = d.sys.pdMain := (hw.errUncorr .sys 6).main
    have hkept := ((Dev.BootKept.refl ((w.errUncorr .sys 6).setPhase phFailed)).hifStart b).settle
    exact ⟨fun _ => hkept.phase.trans (Dev.phase_setPhase _), fun h => absurd (hok.2 h) htest, hkept.main.trans hfail⟩

end Machine

end Sys2Proof
end

section
/-! What a start keeps of the device, and the events that begin a start: VDD_AON, PWR_GOOD, the end of a power failure, the
exit from sleep and the release from HOLD (R325, R327, R333, R404). -/

set_option Elab.async false

namespace Sys2Proof

open Sys2Proof.Machine

namespace Machine

/-- The fields that a start keeps or sets anew. -/
def restartFields : List Fld := [Reg.VLT_GLITCH_count, Reg.SYS_CLK_dp_ref_lost, Reg.SYS_SVN_fuse, Reg.SYS_CLK_ref_src,
  Reg.TMB_TRIM_trim, Reg.TMB_STAT_state] ++ commitBlks.map fun k => Reg.COMMIT_STAT_status.ix k.page

/-- e is a device at the beginning of a start from d: every register but those kept has its reset value. -/
structure Dev.Restarted (d e : Dev) : Prop where
  reset : ∀ f : Fld, (∀ k ∈ restartFields, f.key ≠ k.key) → e.rd f = f.reset
  fuse : e.rd Reg.SYS_SVN_fuse = d.rd Reg.SYS_SVN_fuse % 2 ^ 6
  pwrGood : e.sys.pwrGood = d.sys.pwrGood
  main : e.sys.pdMain = false
  aonSec : e.tmb.aonSec = d.tmb.aonSec
  area0 : e.vlt.area0 = d.vlt.area0
  area1 : e.vlt.area1 = d.vlt.area1
  qmx : e.qmx = {}
  dram : e.dram = {}

namespace Dev.Restarted

variable {d e : Dev} (h : Dev.Restarted d e)
include h

theorem wr (f : Fld) (v : Nat) (hf : f ∈ restartFields := by decide) (hfuse : Reg.SYS_SVN_fuse.key ≠ f.key := by decide) :
    Dev.Restarted d (e.wr f v) :=
  { h with
    reset := fun g hg => (Dev.rd_wr_other _ _ _ _ (hg f hf)).trans (h.reset g hg)
    fuse := (Dev.rd_wr_other _ _ _ _ hfuse).trans h.fuse }

theorem bmeSpoil (space lo hi : Nat) : Dev.Restarted d (e.bmeSpoil space lo hi) := by
  unfold Dev.bmeSpoil
  split
  · exact { h with }
  · exact h

end Dev.Restarted

/-- The part of the device that a start takes over, without its registers. -/
def Dev.restartBase (d : Dev) : Dev :=
  { ticks := d.ticks, freeCtr := d.freeCtr, emitted := d.emitted
    sys := { vddAon := true, perstN := d.sys.perstN, pwrGood := d.sys.pwrGood, pwrFailN := d.sys.pwrFailN, brownout := d.sys.brownout,
             refclk := d.sys.refclk, dpRefclk := true }
    vlt := { area0 := d.vlt.area0, area1 := d.vlt.area1, groupBytes := d.vlt.groupBytes, measured := d.vlt.measured }
    tmb := { sec := d.tmb.aonSec, ns := aonNs d.tmb.aonSub, aonSec := d.tmb.aonSec, aonSub := d.tmb.aonSub, aonFrac := d.tmb.aonFrac,
             aonTrim := d.tmb.aonTrim } }

theorem Dev.restart_restarted (d : Dev) : Dev.Restarted d d.restart := by
  unfold Dev.restart
  extract_lets s v t glitch lost fuse cut w x y
  have hrd (f : Fld) : w.rd f = f.reset := rfl
  have hfuse : Dev.Restarted d (((w.wr Reg.VLT_GLITCH_count glitch).wr Reg.SYS_CLK_dp_ref_lost lost).wr Reg.SYS_SVN_fuse fuse) := by
    refine ⟨fun f hf => ?_, Dev.rd_wr_same _ _ _, rfl, rfl, rfl, rfl, rfl, rfl, rfl⟩
    rw [Dev.rd_wr_other _ _ _ _ (hf _ (by decide)), Dev.rd_wr_other _ _ _ _ (hf _ (by decide)),
      Dev.rd_wr_other _ _ _ _ (hf _ (by decide)), hrd]
  have hx : Dev.Restarted d x := ((hfuse.wr _ _).wr _ _).wr _ _
  have hy : Dev.Restarted d y := by
    refine forEach_keep cut x (fun b hb e he => he.wr _ _ ?_ ?_) hx
    · exact List.mem_append_right _ (List.mem_map_of_mem (List.mem_of_mem_filter hb))
    · cases b <;> decide
  exact (hy.bmeSpoil _ _ _).bmeSpoil _ _ _

/-! ### VDD_AON and the start (R327, R333) -/

theorem Dev.aonApplied_restarted (d : Dev) : ∃ w : Dev, w.regs = d.regs ∧ w.sys.pwrGood = false ∧ w.tmb.aonSec = 0 ∧
    w.vlt = d.vlt ∧ Dev.Restarted w d.aonApplied ∧ d.aonApplied.rd Reg.VLT_GLITCH_count = 0 := by
  refine ⟨{ d with tmb := {}, sys := { d.sys with pwrGood := false, brownout := false } }, rfl, rfl, rfl, rfl, ?_, ?_⟩
  · exact (((Dev.restart_restarted _).wr _ _).wr _ _).wr _ _
  · unfold Dev.aonApplied
    rw [Dev.rd_wr_other _ _ _ _ (by decide), Dev.rd_wr_other _ _ _ _ (by decide), Dev.rd_wr_same, Nat.zero_mod]

/-- How a start from a PWR_GOOD that stands ends. -/
structure Dev.Started (b : BootInput) (fuse : Nat) (e : Dev) : Prop where
  main : e.sys.pdMain = true
  hold : b.bootMode % 4 = 3 → e.phase = phHold
  boots : b.bootMode % 4 ≠ 3 → ∃ w, Dev.BootEnds b (max (fuse % 2 ^ 6) (Config.fuseSvn % 64)) w e

theorem Dev.latchStraps_mode (d : Dev) (b : BootInput) : (d.latchStraps b).rd Reg.SYS_STRAP_boot_mode = b.bootMode % 4 :=
  (Dev.rd_wr_other _ _ _ _ (by decide)).trans (Dev.rd_wr_same _ _ _)

theorem Dev.latchStraps_fuse (d : Dev) (b : BootInput) : (d.latchStraps b).rd Reg.SYS_SVN_fuse = d.rd Reg.SYS_SVN_fuse :=
  (Dev.rd_wr_other _ _ _ _ (by decide)).trans (Dev.rd_wr_other _ _ _ _ (by decide))

theorem Dev.startUp_started (d : Dev) (b : BootInput) : Dev.Started b (d.rd Reg.SYS_SVN_fuse) (d.startUp b).settle := by
  unfold Dev.startUp
  extract_lets u fuse v sys w
  have hmode : w.rd Reg.SYS_STRAP_boot_mode = b.bootMode % 4 := (Dev.rd_wr_other _ _ _ _ (by decide)).trans (d.restart.latchStraps_mode b)
  have hfuse : w.rd Reg.SYS_SVN_fuse = max (d.rd Reg.SYS_SVN_fuse % 2 ^ 6) (Config.fuseSvn % 64) := by
    refine (Dev.rd_wr_same _ _ _).trans ?_
    have hlatched : u.rd Reg.SYS_SVN_fuse = d.rd Reg.SYS_SVN_fuse % 2 ^ 6 := (d.restart.latchStraps_fuse b).trans d.restart_restarted.fuse
    rw [show Reg.SYS_SVN_fuse.width = 6 from rfl, show fuse = max (d.rd Reg.SYS_SVN_fuse % 2 ^ 6) (Config.fuseSvn % 64) from by
      rw [← hlatched]]
    refine Nat.mod_eq_of_lt (max_lt (Nat.mod_lt _ (by decide)) (Nat.mod_lt _ (by decide)))
  have hmain : w.sys.pdMain = true := rfl
  clear_value w
  rw [hmode]
  split
  · next h =>
    have hkept := (Dev.BootKept.refl (w.setPhase phHold)).settle
    exact ⟨hkept.main.trans hmain, fun _ => hkept.phase.trans (Dev.phase_setPhase _), fun hne => absurd h hne⟩
  · next h =>
    have hends := w.testAndBoot_ends b
    rw [hfuse] at hends
    exact ⟨hends.main.trans hmain, fun he => absurd he h, fun _ => ⟨w, hends⟩⟩

end Machine

end Sys2Proof
end

section
/-! The commands that begin, hold or continue a start (R314, R325, R327, R333, R404). -/

set_option Elab.async false

namespace Sys2Proof

open Sys2Proof.Machine

/-- The ends of a start past HOLD, image by image. -/
def EndsAsBooted (b : BootInput) (fuse : Nat) (e : Dev) : Prop :=
  let tested := b.otherOk = true ∧ 2 ≤ (bootPairs b).length
  let ran (isB : Bool) : Prop := e.phase = phTrain ∧ e.rdB Reg.SYS_BOOT_running = isB ∧
    e.rd Reg.SYS_FW_VER_version = (bootImage b isB).version % 2 ^ 32
  let ok (isB : Bool) : Prop := imageResult fuse (bootImage b isB) = imgOk
  (¬ tested → e.phase = phFailed) ∧ (tested → ok (bootPreferB b) → ran (bootPreferB b)) ∧
    (tested → ¬ ok (bootPreferB b) → ok (!bootPreferB b) → ran (!bootPreferB b)) ∧
    (tested → ¬ ok (bootPreferB b) → ¬ ok (!bootPreferB b) → e.phase = phNoImage)

theorem Machine.Dev.BootEnds.ends {b : BootInput} {fuse : Nat} {d e : Dev} (h : Dev.BootEnds b fuse d e) : EndsAsBooted b fuse e := by
  refine ⟨h.failed, fun ht hok => ?_, fun ht hno hok => ?_, fun ht h1 h2 => (h.chosen ht).none h1 h2⟩
  · obtain ⟨hphase, hrun, hver⟩ := (h.chosen ht).preferred hok
    exact ⟨hphase, hrun, hver⟩
  · obtain ⟨hphase, hrun, hver⟩ := (h.chosen ht).other hno hok
    exact ⟨hphase, hrun, hver⟩

/-- A start from a PWR_GOOD that stands: HOLD, or the ends past it. -/
def StartedWell (b : BootInput) (fuse : Nat) (e : Dev) : Prop :=
  e.sys.pdMain = true ∧ (b.bootMode % 4 = 3 → e.phase = phHold) ∧
    (b.bootMode % 4 ≠ 3 → EndsAsBooted b (max (fuse % 2 ^ 6) (Config.fuseSvn % 64)) e)

theorem Machine.Dev.startUp_well (d : Dev) (b : BootInput) : StartedWell b (d.rd Reg.SYS_SVN_fuse) (d.startUp b).settle := by
  obtain ⟨hmain, hhold, hboots⟩ := d.startUp_started b
  refine ⟨hmain, hhold, fun h => ?_⟩
  obtain ⟨w, hw⟩ := hboots h
  exact hw.ends

theorem Machine.Dev.startUp_well_of {d w : Dev} (h : w.rd Reg.SYS_SVN_fuse = d.rd Reg.SYS_SVN_fuse) (b : BootInput) :
    StartedWell b (d.rd Reg.SYS_SVN_fuse) (w.startUp b).settle := h ▸ w.startUp_well b

section

variable {s : State} {b : BootInput}

theorem gives_vddAonApplied (s : State) : Gives .vddAonApplied s fun e =>
    (∀ f : Fld, (∀ k ∈ restartFields, f.key ≠ k.key) → stateKey f.key = false → e.rd f = f.reset) ∧ e.sys.pwrGood = false ∧
      e.sys.pdMain = false ∧ e.tmb.aonSec = 0 ∧ e.vlt.area0 = s.dev.vlt.area0 ∧ e.vlt.area1 = s.dev.vlt.area1 ∧ e.qmx = {} ∧
      e.dram = {} ∧ e.rd Reg.VLT_GLITCH_count = 0 ∧ e.rd Reg.SYS_SVN_fuse = s.dev.rd Reg.SYS_SVN_fuse % 2 ^ 6 := by
  refine gives_of_exec_eq_act (f := Dev.aonApplied) rfl ?_
  obtain ⟨w, hregs, hgood, hsec, hvlt, h, hglitch⟩ := s.dev.aonApplied_restarted
  have hkeep := (Frame.refl s.dev.aonApplied [] []).settle
  have hsys : s.dev.aonApplied.settle.sys = s.dev.aonApplied.sys := hkeep.part .sys
  obtain ⟨htmb, -⟩ : s.dev.aonApplied.settle.tmb = s.dev.aonApplied.tmb ∧ _ := hkeep.part .tmb
  have hv : s.dev.aonApplied.settle.vlt = s.dev.aonApplied.vlt := hkeep.part .vlt
  have hq : s.dev.aonApplied.settle.qmx = s.dev.aonApplied.qmx := hkeep.part .qmx
  have hm : s.dev.aonApplied.settle.dram = s.dev.aonApplied.dram := hkeep.part .dram
  refine ⟨fun f hf hstate => (Dev.settle_rd _ _ hstate).trans (h.reset f hf), by rw [hsys, h.pwrGood, hgood], by rw [hsys, h.main],
    by rw [htmb, h.aonSec, hsec], by rw [hv, h.area0, hvlt], by rw [hv, h.area1, hvlt], by rw [hq, h.qmx], by rw [hm, h.dram],
    by rw [Dev.settle_rd _ _ (by decide), hglitch], ?_⟩
  rw [Dev.settle_rd _ _ (by decide), h.fuse, Dev.rd_of_regs hregs]

theorem gives_pwrGoodRise_again (h : s.dev.sys.pwrGood = true) : Gives (.pwrGoodRise b) s fun e => Frame s.dev e [] [] := by
  refine gives_of_exec_eq_act (f := fun d => d.pwrGoodRise b) rfl ?_
  have heq : s.dev.pwrGoodRise b = s.dev := by unfold Dev.pwrGoodRise; rw [h, if_pos rfl]
  simp only [heq]
  exact (Frame.refl _ _ _).settle

/-- The straps latched at the edge, before the device knows whether it starts. -/
def Machine.Dev.goodLatched (d : Dev) (b : BootInput) : Dev :=
  ({ d with sys := { d.sys with pwrGood := true, brownout := false, waitFail := false } } : Dev).latchStraps b

theorem Machine.Dev.goodLatched_frame (d : Dev) (b : BootInput) :
    Frame d (d.goodLatched b) [Reg.SYS_STRAP_boot_mode, Reg.SYS_STRAP_smb_addr] [.sys] :=
  (((Frame.refl _ _ _).setSys _).wr _ _).wr _ _

theorem gives_pwrGoodRise_asleep (hgood : s.dev.sys.pwrGood = false) (hsleep : s.dev.sys.sleeping = true) :
    Gives (.pwrGoodRise b) s fun e => e.sys.pwrGood = true ∧ e.rd Reg.SYS_STRAP_boot_mode = b.bootMode % 4 ∧
      Frame s.dev e [Reg.SYS_STRAP_boot_mode, Reg.SYS_STRAP_smb_addr] [.sys] := by
  refine gives_of_exec_eq_act (f := fun d => d.pwrGoodRise b) rfl ?_
  have heq : s.dev.pwrGoodRise b = s.dev.goodLatched b := by
    unfold Dev.pwrGoodRise
    rw [hgood, if_neg Bool.false_ne_true]
    exact if_pos hsleep
  simp only [heq]
  have hkeep : (s.dev.goodLatched b).settle.sys = (s.dev.goodLatched b).sys := (Frame.refl (s.dev.goodLatched b) [] []).settle.part .sys
  exact ⟨by rw [hkeep]; rfl, (Dev.settle_rd _ _ (by decide)).trans (Dev.latchStraps_mode _ _), (s.dev.goodLatched_frame b).settle⟩

/-- A start waits for the end of a power failure. -/
def Machine.Dev.startWaits (d : Dev) (b : BootInput) : Dev := { d with sys := { d.sys with waitFail := true, bootInput := some b } }

theorem Machine.Dev.startWaits_spec (d : Dev) (b : BootInput) : (d.startWaits b).sys.waitFail = true ∧
    (d.startWaits b).sys.bootInput = some b ∧ Frame d (d.startWaits b) [] [.sys] := ⟨rfl, rfl, (Frame.refl _ _ _).setSys _⟩

section

variable (hgood : s.dev.sys.pwrGood = false) (hsleep : s.dev.sys.sleeping = false) (hmain : s.dev.sys.pdMain = false)
include hgood hsleep hmain

theorem Machine.Dev.pwrGoodRise_off : s.dev.pwrGoodRise b =
    if (s.dev.goodLatched b).sys.pwrFailN then (s.dev.goodLatched b).startUp b else (s.dev.goodLatched b).startWaits b := by
  have hs : ¬ (s.dev.goodLatched b).sys.sleeping = true := Bool.eq_false_iff.1 hsleep
  have hm : ¬ ((s.dev.goodLatched b).sys.pdMain && decide ((s.dev.goodLatched b).phase < phNoImage)) = true := by
    rw [show (s.dev.goodLatched b).sys.pdMain = false from hmain, Bool.false_and]
    exact Bool.false_ne_true
  unfold Dev.pwrGoodRise
  rw [hgood, if_neg Bool.false_ne_true]
  exact (if_neg hs).trans (if_neg hm)

theorem gives_pwrGoodRise_starts (hfail : s.dev.sys.pwrFailN = true) :
    Gives (.pwrGoodRise b) s (StartedWell b (s.dev.rd Reg.SYS_SVN_fuse)) := by
  refine gives_of_exec_eq_act (f := fun d => d.pwrGoodRise b) rfl ?_
  have heq := Dev.pwrGoodRise_off (b := b) hgood hsleep hmain
  rw [if_pos (show (s.dev.goodLatched b).sys.pwrFailN = true from hfail)] at heq
  simp only [heq]
  have hfuse : (s.dev.goodLatched b).rd Reg.SYS_SVN_fuse = s.dev.rd Reg.SYS_SVN_fuse := Dev.latchStraps_fuse _ _
  generalize s.dev.goodLatched b = w at *
  exact Dev.startUp_well_of hfuse b

theorem gives_pwrGoodRise_waits (hfail : s.dev.sys.pwrFailN = false) : Gives (.pwrGoodRise b) s fun e =>
    e.sys.waitFail = true ∧ e.sys.bootInput = some b ∧ Frame s.dev e [Reg.SYS_STRAP_boot_mode, Reg.SYS_STRAP_smb_addr] [.sys] := by
  refine gives_of_exec_eq_act (f := fun d => d.pwrGoodRise b) rfl ?_
  have heq := Dev.pwrGoodRise_off (b := b) hgood hsleep hmain
  rw [if_neg (Bool.eq_false_iff.1 (show (s.dev.goodLatched b).sys.pwrFailN = false from hfail))] at heq
  simp only [heq]
  have hlatched := s.dev.goodLatched_frame b
  generalize s.dev.goodLatched b = w at *
  obtain ⟨hwait, hinput, hframe⟩ := w.startWaits_spec b
  have hkeep : (w.startWaits b).settle.sys = (w.startWaits b).sys := (Frame.refl (w.startWaits b) [] []).settle.part .sys
  exact ⟨by rw [hkeep, hwait], by rw [hkeep, hinput], (hlatched.trans hframe (List.nil_subset _) (by decide)).settle⟩

end

/-- The device once its power failure is over. -/
def Machine.Dev.failOver (d : Dev) : Dev := { d with sys := { d.sys with pwrFailN := true } }

theorem gives_pwrFailRelease_starts (hwait : s.dev.sys.waitFail = true) (hgood : s.dev.sys.pwrGood = true)
    (hinput : s.dev.sys.bootInput = some b) : Gives .pwrFailRelease s (StartedWell b (s.dev.rd Reg.SYS_SVN_fuse)) := by
  refine gives_of_exec_eq_act (f := Dev.pwrFailRelease) rfl ?_
  have heq : s.dev.pwrFailRelease = s.dev.failOver.startUp b := by
    unfold Dev.pwrFailRelease Dev.failOver
    simp only [hwait, hgood, hinput, Bool.and_self, if_true]
  rw [heq]
  exact Dev.startUp_well_of (w := s.dev.failOver) rfl b

/-- The device once its supply has been good for long enough. -/
def Machine.Dev.supplyBack (d : Dev) : Dev := { d with sys := { d.sys with brownout := false } }

theorem gives_sleepExit_starts (hsleep : s.dev.sys.sleeping = true) (hgood : s.dev.sys.pwrGood = true) (hfail : s.dev.sys.pwrFailN = true)
    (hcool : s.dev.sys.sleepReason ≠ 3 ∨ s.dev.thermalOk = true) :
    Gives (.sleepExit b) s (StartedWell b (s.dev.rd Reg.SYS_SVN_fuse)) := by
  refine gives_of_exec_eq_act (f := fun d => d.sleepExit b) rfl ?_
  have hback : s.dev.supplyBack.mainGood s.dev.supplyBack.sys.sleepReason = true := by
    have hg : s.dev.supplyBack.sys.pwrGood = true := hgood
    have hf : s.dev.supplyBack.sys.pwrFailN = true := hfail
    have hb : s.dev.supplyBack.sys.brownout = false := rfl
    have hc : s.dev.supplyBack.sys.sleepReason ≠ 3 ∨ s.dev.supplyBack.thermalOk = true := hcool
    simpa [Dev.mainGood, hg, hf, hb] using hc
  have hasleep : s.dev.supplyBack.sys.sleeping = true := hsleep
  have heq : s.dev.sleepExit b = s.dev.supplyBack.startUp b := by
    unfold Dev.sleepExit
    rw [if_pos hsleep]
    exact if_pos (by rw [Bool.and_eq_true]; exact ⟨hasleep, hback⟩)
  simp only [heq]
  exact Dev.startUp_well_of (w := s.dev.supplyBack) rfl b

theorem gives_sleepExit_awake (hsleep : s.dev.sys.sleeping = false) : Gives (.sleepExit b) s fun e => Frame s.dev e [] [] := by
  refine gives_of_exec_eq_act (f := fun d => d.sleepExit b) rfl ?_
  have heq : s.dev.sleepExit b = s.dev := by
    unfold Dev.sleepExit
    simp only [hsleep, Bool.false_eq_true, if_false, Bool.false_and]
  simp only [heq]
  exact (Frame.refl _ _ _).settle

/-- The device with a board's data at hand. -/
def Machine.Dev.boardRead (d : Dev) (b : BootInput) : Dev := { d with sys := { d.sys with bootInput := some b } }

theorem gives_holdRelease_boots (hmain : s.dev.sys.pdMain = true) (hphase : s.dev.phase = phHold) :
    Gives (.holdRelease b) s (EndsAsBooted b (s.dev.rd Reg.SYS_SVN_fuse)) := by
  refine gives_of_exec_eq_act (f := fun d => d.holdReleased b) rfl ?_
  have heq : s.dev.holdReleased b = (s.dev.boardRead b).testAndBoot b := by
    unfold Dev.holdReleased Dev.boardRead
    simp only [hmain, hphase, decide_true, Bool.and_self, if_true]
  have hfuse : (s.dev.boardRead b).rd Reg.SYS_SVN_fuse = s.dev.rd Reg.SYS_SVN_fuse := rfl
  simp only [heq]
  rw [← hfuse]
  exact ((s.dev.boardRead b).testAndBoot_ends b).ends

theorem gives_holdRelease_other (hphase : s.dev.phase ≠ phHold) : Gives (.holdRelease b) s fun e => Frame s.dev e [] [] := by
  refine gives_of_exec_eq_act (f := fun d => d.holdReleased b) rfl ?_
  have heq : s.dev.holdReleased b = s.dev := by
    unfold Dev.holdReleased
    simp only [hphase, decide_false, Bool.and_false, Bool.false_eq_true, if_false]
  simp only [heq]
  exact (Frame.refl _ _ _).settle

end

end Sys2Proof
end

section
/-! The background check of the other image, the reference clocks, and the thermal limits (R332, R335 to R339). -/

set_option Elab.async false

namespace Sys2Proof

open Sys2Proof.Machine

namespace Machine

variable {d : Dev}

/-! ### The background check (R332) -/

/-- The result shown of the image that does not run. -/
def Dev.otherResult (d : Dev) : Fld := if d.rdB Reg.SYS_BOOT_running then Reg.SYS_BOOT_a_result else Reg.SYS_BOOT_b_result

theorem imageResult_lt (fuse : Nat) (x : FwImage) : imageResult fuse x < 2 ^ 4 := by
  unfold imageResult imgOk
  repeat' split
  all_goals decide

theorem Dev.bootResult_other (d : Dev) (r : Nat) : d.bootResult (!d.rdB Reg.SYS_BOOT_running) r = d.wr d.otherResult r := by
  unfold Dev.bootResult Dev.otherResult
  cases d.rdB Reg.SYS_BOOT_running <;> rfl

theorem Dev.otherResult_spec (d : Dev) : d.otherResult.width = 4 ∧ Reg.SYS_SVN_fuse.key ≠ d.otherResult.key ∧
    Reg.SYS_SVN_image.key ≠ d.otherResult.key ∧ stateKey d.otherResult.key = false := by
  unfold Dev.otherResult
  split <;> decide

theorem Dev.backgroundCheck_eq {x : FwImage} (hphase : d.phase = phReady) (hother : d.rd d.otherResult = 0)
    (hpref : d.rdB Reg.SYS_BOOT_preferred = d.rdB Reg.SYS_BOOT_running) : d.backgroundCheck x =
      let r := imageResult (d.rd Reg.SYS_SVN_fuse) x
      let e := d.wr d.otherResult r
      if r = imgOk then e.wr Reg.SYS_SVN_fuse (max (e.rd Reg.SYS_SVN_fuse) (min x.svn (e.rd Reg.SYS_SVN_image))) else e := by
  have hgo : (decide (d.phase ≠ phReady) || decide (d.rd d.otherResult ≠ 0) ||
      decide (d.rdB Reg.SYS_BOOT_preferred ≠ d.rdB Reg.SYS_BOOT_running)) = false := by simp [hphase, hother, hpref]
  unfold Dev.backgroundCheck
  dsimp only
  rw [Dev.bootResult_other]
  exact if_neg (Bool.eq_false_iff.1 hgo)

/-! ### The temperature codes -/

theorem signedOf_codeOf {x : Int} (hlo : -32768 ≤ x) (hhi : x < 32768) : signedOf 16 (codeOf 16 x) = x := by
  unfold signedOf codeOf
  rw [show (2 : Nat) ^ 16 = 65536 from rfl, show (2 : Nat) ^ (16 - 1) = 32768 from rfl]
  split <;> omega

theorem signedOf_range (v : Nat) : -32768 ≤ signedOf 16 v ∧ signedOf 16 v < 32768 := by
  unfold signedOf
  rw [show (2 : Nat) ^ 16 = 65536 from rfl, show (2 : Nat) ^ (16 - 1) = 32768 from rfl]
  split <;> omega

/-- The first of the greatest values of a list, from a first candidate. -/
theorem foldl_greatest (f : Nat → Int) : ∀ (l : List Nat) (h : Nat),
    let r := l.foldl (fun h s => if f h < f s then s else h) h
    (r = h ∨ r ∈ l) ∧ f h ≤ f r ∧ ∀ s ∈ l, f s ≤ f r
  | [], h => ⟨.inl rfl, le_refl _, fun _ hs => absurd hs List.not_mem_nil⟩
  | s :: l, h => by
    have hk : ((if f h < f s then s else h) = h ∨ (if f h < f s then s else h) = s) ∧ f h ≤ f (if f h < f s then s else h) ∧
        f s ≤ f (if f h < f s then s else h) := by
      split
      · next hlt => exact ⟨.inr rfl, hlt.le, le_refl _⟩
      · next hle => exact ⟨.inl rfl, le_refl _, not_lt.1 hle⟩
    rw [List.foldl_cons]
    generalize (if f h < f s then s else h) = k at hk ⊢
    obtain ⟨hpick, hh, hs⟩ := hk
    obtain ⟨hmem, hhead, htail⟩ := foldl_greatest f l k
    refine ⟨?_, hh.trans hhead, fun t ht => ?_⟩
    · rcases hmem with hr | hr
      · rw [hr]
        exact hpick.imp id fun he => by rw [he]; exact List.mem_cons_self
      · exact .inr (List.mem_cons_of_mem _ hr)
    · rcases List.mem_cons.1 ht with rfl | ht
      · exact hs.trans hhead
      · exact htail t ht

/-! ### Dusk begins in READY (R304) -/

theorem Dev.fwEnd_grows (d : Dev) (r : Nat) : Dev.Grows d (d.fwEnd r) := by
  unfold Dev.fwEnd
  extract_lets ccx w
  have hw : Dev.Grows d w := .same rfl rfl
  exact ((hw.trans (w.wr_grows _ _)).trans (Dev.wr_grows _ _ _)).trans (Dev.causeBit_grows _ _ _)

/-- A trigger in READY: Dusk begins with its reason and time, and nothing sent or caused is taken back. -/
structure Dev.DuskBegun (d e : Dev) (reason : Nat) : Prop where
  phase : e.phase = phDusk
  dusk : e.vlt.dusk = some (reason, d.now)
  sys : e.sys = d.sys
  kept : ∀ f : Fld, f ∈ [Reg.SYS_CLK_dp_ref_lost, Reg.SYS_THERM_STAT_step] → e.rd f = d.rd f
  grows : Dev.Grows d e

theorem Dev.duskTrigger_ready (hmain : d.sys.pdMain = true) (hphase : d.phase = phReady) (reason : Nat) :
    Dev.DuskBegun d (d.duskTrigger reason).settle reason := by
  have hlate : ¬ d.phase ≤ phDawn := by rw [hphase]; decide
  have heq : d.duskTrigger reason = (((forEach commitBlks (fun b d => d.commitCut b) d).updVlt fun v =>
      { v with dusk := some (reason, d.now) }).setPhase phDusk).fwAbandon.refreshPower := by
    unfold Dev.duskTrigger
    rw [hmain, Bool.not_true, if_neg Bool.false_ne_true, if_neg hlate, if_pos hphase]
  rw [heq]
  have hcut : Dev.Runs d (forEach commitBlks (fun b d => d.commitCut b) d)
      (commitBlks.flatMap fun b => [Reg.COMMIT_STAT_busy.ix b.page, Reg.COMMIT_STAT_status.ix b.page]) [] := by
    refine forEach_keep (P := fun e => Dev.Runs d e _ _) commitBlks d (fun b hb e he => ?_) (Dev.Runs.refl _ _ _)
    have hmem {f : Fld} (hf : f ∈ [Reg.COMMIT_STAT_busy.ix b.page, Reg.COMMIT_STAT_status.ix b.page]) :
        f ∈ commitBlks.flatMap fun b => [Reg.COMMIT_STAT_busy.ix b.page, Reg.COMMIT_STAT_status.ix b.page] :=
      List.mem_flatMap.2 ⟨b, hb, hf⟩
    exact Dev.Runs.ite ((he.wr _ _ (hmem (by simp))).wr _ _ (hmem (by simp))) he
  generalize forEach commitBlks (fun b d => d.commitCut b) d = w at *
  have hduskPhase : ((w.updVlt fun v => { v with dusk := some (reason, d.now) }).setPhase phDusk).phase = phDusk := Dev.phase_setPhase _
  have hduskSet : ((w.updVlt fun v => { v with dusk := some (reason, d.now) }).setPhase phDusk).vlt.dusk = some (reason, d.now) := rfl
  have hset : Dev.Runs w ((w.updVlt fun v => { v with dusk := some (reason, d.now) }).setPhase phDusk) [Reg.BLK_STAT_specific.ix 0] [.vlt] := by
    have hvlt : Dev.Runs w (w.updVlt fun v => { v with dusk := some (reason, d.now) }) [Reg.BLK_STAT_specific.ix 0] [.vlt] :=
      ⟨(Frame.refl _ _ _).setVlt _, .same rfl rfl⟩
    exact hvlt.wr _ _
  generalize (w.updVlt fun v => { v with dusk := some (reason, d.now) }).setPhase phDusk = v at *
  have htail : Frame v v.fwAbandon.refreshPower.settle (fwFields ++ inhibitFields) [.ccx, .mnt, .bps] :=
    (((Frame.refl _ _ _).fwAbandon (by decide)).setInhibit 5 _ (by decide)).settle
  have hgrows : Dev.Grows v v.fwAbandon.refreshPower.settle := by
    refine .trans (.trans ?_ (Dev.setInhibit_grows _ _ _)) (Dev.settle_grows _)
    unfold Dev.fwAbandon
    split
    · exact ((v.fwEnd_grows 12).trans (Dev.errCorr_grows _ _ _)).trans (.same rfl rfl)
    · exact .same rfl rfl
  have hvltTail := htail.part .vlt
  have hsysTail := htail.part .sys
  have hsysSet := hset.frame.part .sys
  have hsysCut := hcut.frame.part .sys
  refine ⟨(htail.rd _).trans hduskPhase, by rw [hvltTail]; exact hduskSet, by rw [hsysTail, hsysSet, hsysCut], fun f hf => ?_,
    (hcut.grows.trans hset.grows).trans hgrows⟩
  have hcase : f = Reg.SYS_CLK_dp_ref_lost ∨ f = Reg.SYS_THERM_STAT_step := by simpa using hf
  rcases hcase with rfl | rfl
  · exact (htail.rd _).trans ((hset.frame.rd _).trans (hcut.frame.rd _))
  · exact (htail.rd _).trans ((hset.frame.rd _).trans (hcut.frame.rd _))

end Machine

end Sys2Proof
end

section
/-! The commands of the background check, the reference clocks and the thermal limits (R332, R335 to R339). -/

set_option Elab.async false

namespace Sys2Proof

open Sys2Proof.Machine

variable {s : State} {img : FwImage} {temps : List Int} {step : Nat}

/-! ### The background check -/

theorem gives_imageBackgroundCheck (hphase : s.dev.phase = phReady) (hother : s.dev.rd s.dev.otherResult = 0)
    (hpref : s.dev.rdB Reg.SYS_BOOT_preferred = s.dev.rdB Reg.SYS_BOOT_running) : Gives (.imageBackgroundCheck img) s fun e =>
      e.rd s.dev.otherResult = imageResult (s.dev.rd Reg.SYS_SVN_fuse) img ∧
      (imageResult (s.dev.rd Reg.SYS_SVN_fuse) img = imgOk → e.rd Reg.SYS_SVN_fuse =
        max (s.dev.rd Reg.SYS_SVN_fuse) (min img.svn (s.dev.rd Reg.SYS_SVN_image)) % 2 ^ 6) ∧
      (imageResult (s.dev.rd Reg.SYS_SVN_fuse) img ≠ imgOk → e.rd Reg.SYS_SVN_fuse = s.dev.rd Reg.SYS_SVN_fuse) ∧
      Frame s.dev e [s.dev.otherResult, Reg.SYS_SVN_fuse] [] := by
  refine gives_of_exec_eq_act (f := fun d => d.backgroundCheck img) rfl ?_
  simp only [Dev.backgroundCheck_eq hphase hother hpref]
  obtain ⟨hwidth, hfuse, himage, hstate⟩ := s.dev.otherResult_spec
  have hframe : Frame s.dev (s.dev.wr s.dev.otherResult (imageResult (s.dev.rd Reg.SYS_SVN_fuse) img))
      [s.dev.otherResult, Reg.SYS_SVN_fuse] [] := (Frame.refl _ _ _).wr _ _ List.mem_cons_self
  have hshown : (s.dev.wr s.dev.otherResult (imageResult (s.dev.rd Reg.SYS_SVN_fuse) img)).rd s.dev.otherResult =
      imageResult (s.dev.rd Reg.SYS_SVN_fuse) img := by
    rw [Dev.rd_wr_same, hwidth]
    exact Nat.mod_eq_of_lt (imageResult_lt _ _)
  have hf : (s.dev.wr s.dev.otherResult (imageResult (s.dev.rd Reg.SYS_SVN_fuse) img)).rd Reg.SYS_SVN_fuse = s.dev.rd Reg.SYS_SVN_fuse :=
    Dev.rd_wr_other _ _ _ _ hfuse
  have hi : (s.dev.wr s.dev.otherResult (imageResult (s.dev.rd Reg.SYS_SVN_fuse) img)).rd Reg.SYS_SVN_image = s.dev.rd Reg.SYS_SVN_image :=
    Dev.rd_wr_other _ _ _ _ himage
  generalize s.dev.wr s.dev.otherResult (imageResult (s.dev.rd Reg.SYS_SVN_fuse) img) = w at *
  by_cases hr : imageResult (s.dev.rd Reg.SYS_SVN_fuse) img = imgOk
  · rw [if_pos hr, hf, hi]
    refine ⟨?_, fun _ => ?_, fun h => absurd hr h, (hframe.wr _ _ (by simp)).settle⟩
    · rw [Dev.settle_rd _ _ hstate, Dev.rd_wr_other _ _ _ _ hfuse.symm, hshown]
    · rw [Dev.settle_rd _ _ (by decide), Dev.rd_wr_same, show Reg.SYS_SVN_fuse.width = 6 from rfl]
  · rw [if_neg hr]
    exact ⟨(Dev.settle_rd _ _ hstate).trans hshown, fun h => absurd h hr, fun _ => (Dev.settle_rd _ _ (by decide)).trans hf, hframe.settle⟩

theorem gives_imageBackgroundCheck_other (hphase : s.dev.phase ≠ phReady) :
    Gives (.imageBackgroundCheck img) s fun e => Frame s.dev e [] [] := by
  refine gives_of_exec_eq_act (f := fun d => d.backgroundCheck img) rfl ?_
  have heq : s.dev.backgroundCheck img = s.dev := by
    unfold Dev.backgroundCheck
    exact if_pos (by simp [hphase])
  simp only [heq]
  exact (Frame.refl _ _ _).settle

/-! ### The reference clocks -/

theorem Machine.Dev.refSwitch_same (d : Dev) {on : Bool} (h : d.sys.refclk = on) : d.refSwitch on = d := by
  unfold Dev.refSwitch
  exact if_pos h

/-- The source of REF follows PE_REFCLK. -/
structure RefSwitched (d e : Dev) (on : Bool) : Prop where
  sys : e.sys = { d.sys with refclk := on }
  src : e.rd Reg.SYS_CLK_ref_src = b2n (!on)
  cause : Raised e .sys 18
  frame : Frame d e [Reg.SYS_CLK_ref_src] [.sys]

theorem Machine.Dev.refSwitch_switched {d : Dev} {on : Bool} (h : d.sys.refclk ≠ on) (hmain : d.sys.pdMain = true) :
    RefSwitched d (d.refSwitch on).settle on := by
  unfold Dev.refSwitch
  rw [if_neg h]
  extract_lets sys w u
  have hframe : Frame d w [Reg.SYS_CLK_ref_src] [.sys] := (Frame.refl _ _ _).setSys _
  have hw : w.sys = { d.sys with refclk := on } := rfl
  have hwmain : w.sys.pdMain = true := hmain
  have hu : Dev.Reports (w.wrB Reg.SYS_CLK_ref_src (!on)) u := Dev.causeBit_reports _ _ _
  have hraised : Raised u .sys 18 := Dev.causeBit_raised _ _ _
  have hwr : Frame d (w.wrB Reg.SYS_CLK_ref_src (!on)) [Reg.SYS_CLK_ref_src] [.sys] := hframe.wr _ _
  have hsrc : (w.wrB Reg.SYS_CLK_ref_src (!on)).rd Reg.SYS_CLK_ref_src = b2n (!on) := by
    rw [Dev.wrB, Dev.rd_wr_same]
    cases on <;> rfl
  have hlast : Dev.Runs u (if on = true then u else u.errCorr .sys 5) [] [] :=
    .ite (.refl _ _ _) ((Dev.Runs.refl _ _ _).errCorr _ _)
  have husys : u.sys = w.sys := rfl
  rw [hwmain, Bool.not_true, if_neg Bool.false_ne_true]
  clear_value u w
  have htail := hlast.settle
  have hsys := htail.frame.part .sys
  exact ⟨by rw [hsys, husys, hw], (htail.frame.rd _).trans ((hu.rd _).trans hsrc), htail.grows.raised hraised,
    ((hwr.reports hu).trans hlast.frame (List.nil_subset _) (List.nil_subset _)).settle⟩

theorem exec_refclk {com : Instr} {lost : Bool} (hcom : (lost, com) ∈ [(true, Instr.peRefclkLost), (false, Instr.peRefclkRestored)]) :
    exec com s = s.act fun d => d.refSwitch !lost := by
  rcases List.mem_cons.1 hcom with h | h
  · cases h
    rfl
  · cases List.mem_singleton.1 h
    rfl

theorem gives_refclk_same {com : Instr} {lost : Bool} (hcom : (lost, com) ∈ [(true, Instr.peRefclkLost), (false, Instr.peRefclkRestored)])
    (h : s.dev.sys.refclk = !lost) : Gives com s fun e => Frame s.dev e [] [] := by
  refine gives_of_exec_eq_act (exec_refclk hcom) ?_
  simp only [Dev.refSwitch_same _ h]
  exact (Frame.refl _ _ _).settle

theorem gives_refclk_switched {com : Instr} {lost : Bool} (hcom : (lost, com) ∈ [(true, Instr.peRefclkLost), (false, Instr.peRefclkRestored)])
    (h : s.dev.sys.refclk = lost) (hmain : s.dev.sys.pdMain = true) : Gives com s fun e =>
      e.sys = { s.dev.sys with refclk := !lost } ∧ e.rd Reg.SYS_CLK_ref_src = b2n lost ∧ Raised e .sys 18 ∧
        Frame s.dev e [Reg.SYS_CLK_ref_src] [.sys] := by
  refine gives_of_exec_eq_act (exec_refclk hcom) ?_
  obtain ⟨hsys, hsrc, hcause, hframe⟩ := Dev.refSwitch_switched (d := s.dev) (on := !lost) (by rw [h]; cases lost <;> decide) hmain
  rw [Bool.not_not] at hsrc
  exact ⟨hsys, hsrc, hcause, hframe⟩

theorem Machine.Dev.dpRefLost_none {d : Dev} (h : d.sys.pdMain = false ∨ d.sys.dpRefclk = false) : d.dpRefLost = d := by
  unfold Dev.dpRefLost
  exact if_pos (by rcases h with h | h <;> simp [h])

theorem gives_dpRefclkLost_none (h : s.dev.sys.pdMain = false ∨ s.dev.sys.dpRefclk = false) :
    Gives .dpRefclkLost s fun e => Frame s.dev e [] [] := by
  refine gives_of_exec_eq_act (f := Dev.dpRefLost) rfl ?_
  rw [Dev.dpRefLost_none h]
  exact (Frame.refl _ _ _).settle

theorem gives_dpRefclkLost (hmain : s.dev.sys.pdMain = true) (hdp : s.dev.sys.dpRefclk = true) (hphase : s.dev.phase = phReady) :
    Gives .dpRefclkLost s fun e => e.rd Reg.SYS_CLK_dp_ref_lost = 1 ∧ e.sys.dpRefclk = false ∧ e.sys.brownout = true ∧
      e.phase = phDusk ∧ e.vlt.dusk = some (2, s.dev.now) := by
  refine gives_of_exec_eq_act (f := Dev.dpRefLost) rfl ?_
  unfold Dev.dpRefLost Dev.brownout
  rw [hmain, hdp, Bool.not_true, Bool.or_self, if_neg Bool.false_ne_true]
  extract_lets sys w sys'
  have hwphase : w.phase = phReady := hphase
  have hwmain : w.sys.pdMain = true := hmain
  have hwdp : w.sys.dpRefclk = false := rfl
  have hwnow : w.now = s.dev.now := rfl
  have hlost : ((w.wr Reg.SYS_CLK_dp_ref_lost 1).errUncorr .sys 7).rd Reg.SYS_CLK_dp_ref_lost = 1 :=
    ((Dev.errUncorr_reports _ _ _).rd _).trans (Dev.rd_wr_same _ _ _)
  have hkept : ((w.wr Reg.SYS_CLK_dp_ref_lost 1).errUncorr .sys 7).phase = w.phase :=
    ((Dev.errUncorr_reports _ _ _).rd _).trans (Dev.rd_wr_other _ _ _ _ (by decide))
  generalize hv : ({ (w.wr Reg.SYS_CLK_dp_ref_lost 1).errUncorr .sys 7 with sys := { sys' with brownout := true } } : Dev) = v
  have hvphase : v.phase = phReady := by rw [← hv]; exact hkept.trans hwphase
  have hvmain : v.sys.pdMain = true := by rw [← hv]; exact hwmain
  have hvdp : v.sys.dpRefclk = false := by rw [← hv]; exact hwdp
  have hvbrown : v.sys.brownout = true := by rw [← hv]
  have hvnow : v.now = s.dev.now := by rw [← hv]; exact hwnow
  have hvlost : v.rd Reg.SYS_CLK_dp_ref_lost = 1 := by rw [← hv]; exact hlost
  obtain ⟨hdphase, hdusk, hdsys, hdkept, -⟩ := Dev.duskTrigger_ready hvmain hvphase 2
  exact ⟨(hdkept _ (by simp)).trans hvlost, by rw [hdsys, hvdp], by rw [hdsys, hvbrown], hdphase, by rw [hdusk, hvnow]⟩

/-! ### The thermal sensors -/

/-- The sensors' readings of a sample. -/
def Machine.Dev.thermalRead (d : Dev) (temps : List Int) : Dev :=
  forEach (List.range 8) (fun s d => d.wr (Reg.SYS_TEMP_temp.ix s) (codeOf 16 (temps.getD s 0))) d

/-- The first of the hottest sensors. -/
def Machine.Dev.hottest (d : Dev) : Nat := (List.range 8).foldl (fun (h s : Nat) => if d.sensor h < d.sensor s then s else h) 0

theorem Machine.Dev.thermalSample_eq (d : Dev) (temps : List Int) : d.thermalSample temps =
    let w := (d.thermalRead temps).wr Reg.SYS_THERM_STAT_hottest (d.thermalRead temps).hottest
    w.wr Reg.SYS_THERM_MAX_peak (codeOf 16 (max (signedOf 16 (w.rd Reg.SYS_THERM_MAX_peak)) w.tMax)) := rfl

theorem Machine.Dev.hottest_spec (d : Dev) : d.hottest < 8 ∧ ∀ i, i < 8 → d.sensor i ≤ d.sensor d.hottest := by
  obtain ⟨hmem, -, hall⟩ := foldl_greatest d.sensor (List.range 8) 0
  refine ⟨?_, fun i hi => hall i (List.mem_range.2 hi)⟩
  rcases hmem with h | h
  · exact lt_of_eq_of_lt h (by decide)
  · exact List.mem_range.1 h

theorem temp_key_ne {f : Fld} (hf : f.key < 0x80 * 64) (i : Nat) : (Reg.SYS_TEMP_temp.ix i).key ≠ f.key := by
  rw [Fld.ix_key, show Reg.SYS_TEMP_temp.key = 0x80 * 64 from rfl]
  omega

theorem temp_keys_ne {i j : Nat} (h : i ≠ j) : (Reg.SYS_TEMP_temp.ix i).key ≠ (Reg.SYS_TEMP_temp.ix j).key := by
  rw [Fld.ix_key, Fld.ix_key, show Reg.SYS_TEMP_temp.dims = [(4, 8)] from rfl, List.head?_cons, Option.map_some, Option.getD_some]
  omega

theorem temp_stateKey {i : Nat} (hi : i < 8) : stateKey (Reg.SYS_TEMP_temp.ix i).key = false := by
  rw [Fld.ix_key, show Reg.SYS_TEMP_temp.dims = [(4, 8)] from rfl, show Reg.SYS_TEMP_temp.key = 0x80 * 64 from rfl, List.head?_cons,
    Option.map_some, Option.getD_some]
  simp only [stateKey, Bool.and_eq_false_iff, Bool.or_eq_false_iff, decide_eq_false_iff_not]
  omega

theorem Machine.Dev.thermalRead_frame (d : Dev) (temps : List Int) :
    Frame d (d.thermalRead temps) ((List.range 8).map Reg.SYS_TEMP_temp.ix) [] := by
  refine forEach_keep (P := fun e => Frame d e ((List.range 8).map Reg.SYS_TEMP_temp.ix) []) (List.range 8) d (fun i hi e he => ?_)
    (Frame.refl _ _ _)
  exact he.wr _ _ (List.mem_map_of_mem hi)

theorem gives_thermalSample (s : State) (temps : List Int) : Gives (.thermalSample temps) s fun e =>
    (∀ i, i < 8 → e.rd (Reg.SYS_TEMP_temp.ix i) = codeOf 16 (temps.getD i 0) ∧ e.sensor i ≤ e.tMax) ∧
      signedOf 16 (e.rd Reg.SYS_THERM_MAX_peak) = max (signedOf 16 (s.dev.rd Reg.SYS_THERM_MAX_peak)) e.tMax ∧
      Frame s.dev e (Reg.SYS_THERM_STAT_hottest :: Reg.SYS_THERM_MAX_peak :: (List.range 8).map Reg.SYS_TEMP_temp.ix) [] := by
  refine gives_of_exec_eq_act (f := fun d => d.thermalSample temps) rfl ?_
  simp only [Dev.thermalSample_eq]
  obtain ⟨hlt, hhot⟩ := (s.dev.thermalRead temps).hottest_spec
  have htemp (i : Nat) (hi : i < 8) : (s.dev.thermalRead temps).rd (Reg.SYS_TEMP_temp.ix i) = codeOf 16 (temps.getD i 0) := by
    refine (Dev.rd_forEach_wr_same Reg.SYS_TEMP_temp (fun i => codeOf 16 (temps.getD i 0)) 8 i hi
      (fun j _ hj => temp_keys_ne hj.symm) s.dev).trans ?_
    rw [show Reg.SYS_TEMP_temp.width = 16 from rfl]
    exact Nat.mod_eq_of_lt (codeOf_lt _ _)
  have hpeak : (s.dev.thermalRead temps).rd Reg.SYS_THERM_MAX_peak = s.dev.rd Reg.SYS_THERM_MAX_peak :=
    Dev.rd_forEach_wr_other Reg.SYS_TEMP_temp (fun i => codeOf 16 (temps.getD i 0)) _ 8 (fun i _ => (temp_key_ne (by decide) i).symm) s.dev
  have hframe := (s.dev.thermalRead_frame temps).mono (gs := Reg.SYS_THERM_STAT_hottest :: Reg.SYS_THERM_MAX_peak ::
    (List.range 8).map Reg.SYS_TEMP_temp.ix) (qs := []) (by simp) (List.Subset.refl _)
  generalize s.dev.thermalRead temps = v at *
  have hwhot : (v.wr Reg.SYS_THERM_STAT_hottest v.hottest).rd Reg.SYS_THERM_STAT_hottest = v.hottest :=
    (Dev.rd_wr_same _ _ _).trans (Nat.mod_eq_of_lt hlt)
  have hwtemp (i : Nat) : (v.wr Reg.SYS_THERM_STAT_hottest v.hottest).rd (Reg.SYS_TEMP_temp.ix i) = v.rd (Reg.SYS_TEMP_temp.ix i) :=
    Dev.rd_wr_other _ _ _ _ (temp_key_ne (by decide) i)
  have hwpeak : (v.wr Reg.SYS_THERM_STAT_hottest v.hottest).rd Reg.SYS_THERM_MAX_peak = v.rd Reg.SYS_THERM_MAX_peak :=
    Dev.rd_wr_other _ _ _ _ (by decide)
  have hw := hframe.wr Reg.SYS_THERM_STAT_hottest v.hottest List.mem_cons_self
  generalize v.wr Reg.SYS_THERM_STAT_hottest v.hottest = w at *
  have hwmax : w.tMax = v.sensor v.hottest := by rw [Dev.tMax, hwhot, Dev.sensor, hwtemp, Dev.sensor]
  have he := hw.wr Reg.SYS_THERM_MAX_peak (codeOf 16 (max (signedOf 16 (w.rd Reg.SYS_THERM_MAX_peak)) w.tMax)) (by simp)
  generalize hx : w.wr Reg.SYS_THERM_MAX_peak (codeOf 16 (max (signedOf 16 (w.rd Reg.SYS_THERM_MAX_peak)) w.tMax)) = x at *
  have hxtemp (i : Nat) (hi : i < 8) : x.settle.rd (Reg.SYS_TEMP_temp.ix i) = v.rd (Reg.SYS_TEMP_temp.ix i) := by
    rw [Dev.settle_rd _ _ (temp_stateKey hi), ← hx, Dev.rd_wr_other _ _ _ _ (temp_key_ne (by decide) i), hwtemp]
  have hxhot : x.settle.rd Reg.SYS_THERM_STAT_hottest = v.hottest := by
    rw [Dev.settle_rd _ _ (by decide), ← hx, Dev.rd_wr_other _ _ _ _ (by decide), hwhot]
  have hxmax : x.settle.tMax = v.sensor v.hottest := by rw [Dev.tMax, hxhot, Dev.sensor, hxtemp _ hlt, Dev.sensor]
  refine ⟨fun i hi => ⟨(hxtemp i hi).trans (htemp i hi), ?_⟩, ?_, he.settle⟩
  · rw [hxmax, Dev.sensor, hxtemp i hi]
    exact hhot i hi
  · have hmaxRange : -32768 ≤ max (signedOf 16 (w.rd Reg.SYS_THERM_MAX_peak)) w.tMax ∧
        max (signedOf 16 (w.rd Reg.SYS_THERM_MAX_peak)) w.tMax < 32768 := by
      have h1 := signedOf_range (w.rd Reg.SYS_THERM_MAX_peak)
      have h2 : -32768 ≤ w.tMax ∧ w.tMax < 32768 := signedOf_range _
      omega
    rw [Dev.settle_rd _ _ (by decide), ← hx, Dev.rd_wr_same, show Reg.SYS_THERM_MAX_peak.width = 16 from rfl,
      Nat.mod_eq_of_lt (codeOf_lt _ _), signedOf_codeOf hmaxRange.1 hmaxRange.2, hx, hxmax, hwmax, hwpeak, hpeak]

/-! ### Throttle steps -/

theorem gives_throttleStep_none (h : s.dev.sys.pdMain = false ∨ s.dev.stepHolds step = false) :
    Gives (.throttleStep step) s fun e => Frame s.dev e [] [] := by
  refine gives_of_exec_eq_act (f := fun d => d.throttleStep step) rfl ?_
  have heq : s.dev.throttleStep step = s.dev := by
    unfold Dev.throttleStep
    exact if_pos (by rcases h with h | h <;> simp [h])
  simp only [heq]
  exact (Frame.refl _ _ _).settle

/-- A throttle step that takes effect, posted. -/
def Machine.Dev.stepShown (d : Dev) (step : Nat) : Dev :=
  let d := (d.wr Reg.SYS_THERM_STAT_step step).causeBit .sys 17
  d.post 0xA0 2 (d.rd Reg.SYS_THERM_STAT_hottest) (codeOf 32 (d.tMax * 10 / 4)) step 0

theorem Machine.Dev.stepShown_spec (d : Dev) {step : Nat} (hstep : step ≤ 4) : (d.stepShown step).rd Reg.SYS_THERM_STAT_step = step ∧
    Raised (d.stepShown step) .sys 17 ∧ Frame d (d.stepShown step) [Reg.SYS_THERM_STAT_step] [] := by
  unfold Dev.stepShown
  have hwr : (d.wr Reg.SYS_THERM_STAT_step step).rd Reg.SYS_THERM_STAT_step = step :=
    (Dev.rd_wr_same _ _ _).trans (Nat.mod_eq_of_lt (lt_of_le_of_lt hstep (by decide)))
  have hframe : Frame d (d.wr Reg.SYS_THERM_STAT_step step) [Reg.SYS_THERM_STAT_step] [] := (Frame.refl _ _ _).wr _ _
  generalize d.wr Reg.SYS_THERM_STAT_step step = w at *
  have hcause := w.causeBit_reports .sys 17
  have hraised := w.causeBit_raised .sys 17
  generalize w.causeBit .sys 17 = v at *
  have hpost := v.post_reports 0xA0 2 (v.rd Reg.SYS_THERM_STAT_hottest) (codeOf 32 (v.tMax * 10 / 4)) step 0 0x7F
  have hgrows := v.post_grows 0xA0 2 (v.rd Reg.SYS_THERM_STAT_hottest) (codeOf 32 (v.tMax * 10 / 4)) step 0 0x7F
  exact ⟨(hpost.rd _).trans ((hcause.rd _).trans hwr), hgrows.raised hraised, (hframe.reports hcause).reports hpost⟩

section

variable (hmain : s.dev.sys.pdMain = true) (hholds : s.dev.stepHolds step = true)
include hmain hholds

theorem Machine.Dev.throttleStep_eq : s.dev.throttleStep step =
    if step = 4 then ((s.dev.stepShown step).errUncorr .sys 4).duskTrigger 3 else s.dev.stepShown step := by
  unfold Dev.throttleStep
  rw [hmain, hholds, Bool.not_true, Bool.or_self, if_neg Bool.false_ne_true]
  rfl

theorem gives_throttleStep_shown (hstep : step < 4) : Gives (.throttleStep step) s fun e =>
    e.rd Reg.SYS_THERM_STAT_step = step ∧ Raised e .sys 17 ∧ Frame s.dev e [Reg.SYS_THERM_STAT_step] [] := by
  refine gives_of_exec_eq_act (f := fun d => d.throttleStep step) rfl ?_
  simp only [Dev.throttleStep_eq hmain hholds, hstep.ne, if_false]
  obtain ⟨hrd, hraised, hframe⟩ := s.dev.stepShown_spec hstep.le
  exact ⟨(Dev.settle_rd _ _ (by decide)).trans hrd, Dev.settle_raised _ _ _ hraised, hframe.settle⟩

theorem gives_throttleStep_trips (hstep : step = 4) (hphase : s.dev.phase = phReady) : Gives (.throttleStep step) s fun e =>
    e.rd Reg.SYS_THERM_STAT_step = 4 ∧ Raised e .sys 17 ∧ e.phase = phDusk ∧ e.vlt.dusk = some (3, s.dev.now) := by
  refine gives_of_exec_eq_act (f := fun d => d.throttleStep step) rfl ?_
  simp only [Dev.throttleStep_eq hmain hholds]
  rw [if_pos hstep]
  subst hstep
  obtain ⟨hrd, hraised, hframe⟩ := s.dev.stepShown_spec (le_refl 4)
  have hphase' : (s.dev.stepShown 4).phase = phReady := (hframe.rd (Reg.BLK_STAT_specific.ix 0)).trans hphase
  have hsys := hframe.part .sys
  have hnow : (s.dev.stepShown 4).now = s.dev.now := by
    obtain ⟨htmb, -⟩ : (s.dev.stepShown 4).tmb = s.dev.tmb ∧ _ := hframe.part .tmb
    rw [Dev.now, htmb, Dev.now]
  generalize s.dev.stepShown 4 = v at *
  have herr := Dev.errUncorr_reports v .sys 4
  have hruns : Dev.Runs v (v.errUncorr .sys 4) [] [] := (Dev.Runs.refl _ _ _).errUncorr _ _
  have hsys' := hruns.frame.part .sys
  have hnow' : (v.errUncorr .sys 4).now = v.now := rfl
  obtain ⟨hdphase, hdusk, -, hdkept, hgrows⟩ := Dev.duskTrigger_ready (d := v.errUncorr .sys 4) (by rw [hsys', hsys, hmain])
    ((hruns.frame.rd (Reg.BLK_STAT_specific.ix 0)).trans hphase') 3
  exact ⟨(hdkept _ (by simp)).trans ((hruns.frame.rd _).trans hrd), hgrows.raised (hruns.grows.raised hraised), hdphase,
    by rw [hdusk, hnow', hnow]⟩

end

end Sys2Proof
end

section
/-! A Dawn from member labels: what opens admission touches none of a start's marks (R133, R316). -/

set_option Elab.async false

namespace Sys2Proof

open Sys2Proof.Machine

namespace Machine

theorem Fld.base_le_ix (f : Fld) (i : Nat) : f.base ≤ (f.ix i).base := by
  unfold Fld.ix
  split
  · exact le_refl _
  · exact Nat.le_add_right _ _

namespace Dev.BootKept

variable {a d e : Dev} (h : Dev.BootKept a d)
include h

theorem runs {fs : List Fld} {ps : List Part} (k : Dev.Runs d e fs ps) (hfs : ∀ g ∈ fs, bootKey g.key = false)
    (hps : Part.sys ∉ ps := by decide) : Dev.BootKept a e := h.frame k.frame hfs hps

theorem updArr (n : Nat) (g : ArrSt → ArrSt) : Dev.BootKept a (d.updArr n g) := h.same rfl rfl

theorem updLay (g : LayState → LayState) : Dev.BootKept a (d.updLay g) := h.same rfl rfl

theorem updDram (g : Dram → Dram) : Dev.BootKept a (d.updDram g) := h.same rfl rfl

theorem updVlt (g : VltState → VltState) : Dev.BootKept a (d.updVlt g) := h.same rfl rfl

/-! ### The vault -/

theorem refreshVault : Dev.BootKept a d.refreshVault := by
  unfold Dev.refreshVault
  extract_lets rate can was w
  have hw : Dev.BootKept a w := ((((h.wr _ _).wr _ _).wr _ _).wr _ _).wr _ _
  exact .ite (hw.causeBit _ _) hw

theorem eraseStart : Dev.BootKept a d.eraseStart := by
  unfold Dev.eraseStart
  extract_lets n w
  have hw : Dev.BootKept a w := h.wr _ _
  exact .ite hw ((hw.updVlt _).wr _ _).refreshVault

/-! ### Arrays from labels -/

theorem wr_high2 (f : Fld) (i j v : Nat) (hf : 0xB0000 ≤ f.base := by decide) : Dev.BootKept a (d.wr ((f.ix i).ix j) v) :=
  h.wr_high (f.ix i) j v (le_trans hf (f.base_le_ix i))

theorem assemblyRefused : Dev.BootKept a d.assemblyRefused := (h.causeBit _ _).errUncorr _ _

theorem setMemberPort (n i p : Nat) : Dev.BootKept a (d.setMemberPort n i p) :=
  .ite ((h.wr_high2 _ _ _ _).wr_high2 _ _ _ _) ((h.wr_high2 _ _ _ _).wr_high2 _ _ _ _)

theorem volFromSlot (n : Nat) (x : VolSlot) : Dev.BootKept a (d.volFromSlot n x) := by
  unfold Dev.volFromSlot
  exact (((((((((h.wr_high _ _ _).wr_high _ _ _).wr_high _ _ _).wr_high _ _ _).wr_high _ _ _).wr_high _ _ _).wr_high _ _ _).wr_high
    _ _ _).wr_high _ _ _).updLay _

theorem arrayFromLabel (l : Label) (vols : List VolSlot) : Dev.BootKept a (d.arrayFromLabel l vols) := by
  unfold Dev.arrayFromLabel
  extract_lets n w v ports idents x y
  have hw : Dev.BootKept a w :=
    ((((((h.wr_high _ _ _).wr_high _ _ _).wr_high _ _ _).wr_high _ _ _).wr_high _ _ _).wr_high _ _ _).wr_high _ _ _
  have hv : Dev.BootKept a v := .forEach _ hw fun i _ e he => he.setMemberPort _ _ _
  have hy : Dev.BootKept a y := .forEach _ (hv.updArr _ _) fun i _ e he => he.wr_high _ _ _
  exact .forEach _ hy fun i _ e he => he.volFromSlot _ _

theorem assembleStart (n : Nat) : Dev.BootKept a (d.assembleStart n) := (h.updArr _ _).wr_high _ _ _

theorem readUnitRecords (n i : Nat) (rs : List (Nat × Nat)) : Dev.BootKept a (d.readUnitRecords n i rs) := by
  unfold Dev.readUnitRecords
  refine .forEach _ h fun x _ e he => ?_
  extract_lets r spare st w
  have hw : Dev.BootKept a w := he.same rfl rfl
  exact .ite he (.ite (hw.same rfl rfl) hw)

theorem movePort (n i p : Nat) : Dev.BootKept a (d.movePort n i p) := .ite (h.setMemberPort _ _ _) (h.updArr _ _)

theorem setMember (n i st : Nat) : Dev.BootKept a (d.setMember n i st) := h.drive ((Dev.DriveKept.refl d).setMember n i st)

theorem memberFailed (n i : Nat) : Dev.BootKept a (d.memberFailed n i) := h.drive ((Dev.DriveKept.refl d).memberFailed n i)

theorem actAbort (x : Activity) : Dev.BootKept a (d.actAbort x) := h.drive ((Dev.DriveKept.refl d).actAbort x)

theorem arbRebuild (n : Nat) : Dev.BootKept a (d.arbRequest .rebuild n) := h.drive ((Dev.DriveKept.refl d).arbRequest_rebuild n)

/-! ### Intent records -/

theorem nextRepair (i : Intent) : Dev.BootKept a (d.nextRepair i) := by
  unfold Dev.nextRepair
  extract_lets w
  have hw : Dev.BootKept a w := h.updLay _
  split
  · exact hw
  · next r _ =>
    have hv := hw.updLay fun l => { l with repairs := l.repairs.erase r }
    exact hv.runs (fs := [Reg.PWC_STAT_mode]) (ps := [.lay, .dram, .dpx])
      (Dev.Runs.repair (by decide) (by decide) (by decide) (by decide) (.refl _ _ _) r) (by decide)

theorem putRecord (n i c : Nat) (r : UnitRec) : Dev.BootKept a (d.putRecord n i c r) := h.same rfl rfl

theorem retire (i : Intent) : Dev.BootKept a (d.retire i) := by
  unfold Dev.retire
  extract_lets n t owed w v p x bs y z
  have hw : Dev.BootKept a w := .ite h (h.same rfl rfl)
  have hx : Dev.BootKept a x := .forEach _ (hw.updLay _) fun j _ e he => he.putRecord _ _ _ _
  have hz : Dev.BootKept a z := hx.same rfl rfl
  exact (hz.nextRepair i).drive (Dev.DriveKept.refl _).afterDrain

theorem retireCheck (seq : Nat) : Dev.BootKept a (d.retireCheck seq) := by
  unfold Dev.retireCheck
  split
  · exact h
  · next i _ =>
    extract_lets bs reason w
    have hw : Dev.BootKept a w := h.updLay _
    exact .ite ((hw.drive ((Dev.DriveKept.refl _).loseBlocks bs reason)).retire i) (.ite (h.retire i) h)

theorem replayIntents (n : Nat) : Dev.BootKept a (d.replayIntents n) := by
  unfold Dev.replayIntents
  refine .forEach _ h fun i _ e he => ?_
  extract_lets p gone lost j v
  have hv : Dev.BootKept a v := he.updDram _
  have hruns := (Dev.Runs.refl v [] [.lay, .dpx]).intentWrites j (j.writeMap.filter fun j => !lost.contains j)
  exact (hv.runs hruns (by decide)).retireCheck _

/-! ### Members that are found -/

theorem oweLabels (n : Nat) : Dev.BootKept a (d.oweLabels n) := by
  unfold Dev.oweLabels
  extract_lets w
  have hw : Dev.BootKept a w := h.wr_high _ _ _
  exact hw.same rfl rfl

theorem assembled (n : Nat) : Dev.BootKept a (d.assembled n) := by
  unfold Dev.assembled
  extract_lets found top stale u all lost gone v w x y z t r o q
  have hv : Dev.BootKept a v := .forEach _ (h.updArr _ _) fun i _ e he => (he.updArr _ _).setMember _ _ _
  have hw : Dev.BootKept a w := .ite hv (hv.drive (((Dev.DriveKept.refl v).writeLabels n).restartWalk n))
  have hx : Dev.BootKept a x := hw.drive ((Dev.DriveKept.refl w).refreshArr n _)
  have hy : Dev.BootKept a y := .forEach _ hx fun i _ e he => he.memberFailed _ _
  have hz : Dev.BootKept a z := .forEach _ hy fun i _ e he => he.memberFailed _ _
  have ht : Dev.BootKept a t := .ite hz (.forEach _ hz fun x _ e he => he.actAbort x)
  have hr : Dev.BootKept a r := (ht.replayIntents n).drive ((Dev.DriveKept.refl _).sweepDead n)
  have ho : Dev.BootKept a o := .ite hr (hr.oweLabels n)
  have hq : Dev.BootKept a q := .ite (ho.arbRebuild n) ho
  exact hq.same rfl rfl

theorem memberFound (n i p : Nat) (l : Label) : Dev.BootKept a (d.memberFound n i p l) := by
  unfold Dev.memberFound
  extract_lets away v w x
  have hv : Dev.BootKept a v := (h.movePort _ _ _).updArr _ _
  have hw : Dev.BootKept a w := .ite (hv.setMember _ _ _) (.ite (hv.setMember _ _ _) hv)
  have hx : Dev.BootKept a x := .ite (hw.wr_high _ _ _) hw
  exact .ite h (.ite (hx.assembled _) hx)

theorem memberBack (n i p : Nat) : Dev.BootKept a (d.memberBack n i p) := by
  unfold Dev.memberBack
  extract_lets w
  have hw : Dev.BootKept a w := h.movePort _ _ _
  have harr (st : Nat) : Dev.BootKept a ((w.setMember n i st).arrChanged n p) :=
    (hw.setMember _ _ _).drive ((Dev.DriveKept.refl _).arrChanged n p)
  exact .ite ((harr _).drive ((Dev.DriveKept.refl _).rebuildEnd n)) ((harr _).arbRebuild n)

theorem collect (p : Nat) (l : Label) (x : DriveInfo) : Dev.BootKept a (d.collect p l x) := by
  unfold Dev.collect
  extract_lets n w ids v u newest fresh kept y z t
  have hw : Dev.BootKept a w := h.updLay _
  have hu : Dev.BootKept a u := .forEach _ (hw.updLay _) fun i _ e he => he.wr_high _ _ _
  have hy : Dev.BootKept a y := .ite (hw.arrayFromLabel _ _) hw
  have hz : Dev.BootKept a z := .ite (hy.assembleStart _) hy
  have ht : Dev.BootKept a t := .ite (.forEach _ hz fun i _ e he => he.setMemberPort _ _ _) hz
  exact .ite hw.assemblyRefused (.ite (((hu.updArr _ _).wr_high _ _ _).wr_high _ _ _).assemblyRefused
    (.ite ((ht.readUnitRecords _ _ _).memberFound _ _ _ _) ht))

theorem labelSeen (p : Nat) (x : DriveInfo) : Dev.BootKept a (d.labelSeen p x) := by
  unfold Dev.labelSeen
  split
  · exact h
  · refine .ite h (.ite (h.collect _ _ _) ?_)
    split
    · exact h.assemblyRefused
    · exact .ite h (.ite (h.memberFound _ _ _ _) (.ite (h.memberBack _ _ _) h))

theorem labelsNow : Dev.BootKept a d.labelsNow := by
  unfold Dev.labelsNow
  refine .forEach _ h fun p _ e he => ?_
  split
  · exact he.labelSeen _ _
  · exact he

end Dev.BootKept

end Machine

end Sys2Proof
end

section
/-! The end of DRAM training: with no image to restore admission opens, and with no channel both groups are lost (R316, R328,
R348). -/

set_option Elab.async false

namespace Sys2Proof

open Sys2Proof.Machine

variable {s : State} {trained : List Bool} {gib : List Nat}

namespace Machine

namespace Dev.BootKept

variable {a d e : Dev} (h : Dev.BootKept a d)
include h

theorem setGroup (g : Group) (st : Nat) : Dev.BootKept a (d.setGroup g st) := by
  cases g
  · exact h.wr _ _
  · exact h.wr _ _

theorem refreshMode : Dev.BootKept a d.refreshMode := h.drive (Dev.DriveKept.refl d).refreshMode

theorem setPwc (x : PwcState) : Dev.BootKept a { d with pwc := x } := h.same rfl rfl

theorem work (k : Dev.WorkKept d e) : Dev.BootKept a e := by
  have hsys : e.sys = d.sys := by rw [k.same]
  refine h.trans ⟨fun f hf => k.low f ?_, by rw [hsys]⟩
  rw [bootKey_spec] at hf
  omega

theorem bmeErrAll (space x : Nat) : Dev.BootKept a (d.bmeErrAll space x) := h.work (Dev.bmeErrAll_kept d space x)

theorem drainSq (q : Nat) : Dev.BootKept a (d.drainSq q) := h.drive ((Dev.DriveKept.refl d).drainSq q)

theorem updPort (p : Nat) (g : PortSt → PortSt) : Dev.BootKept a (d.updPort p g) := h.same rfl rfl

omit h in
theorem bootKey_chan (c : Nat) (hc : c < 12) : bootKey (Reg.PWC_CH_state.ix c).key = true := by
  interval_cases c <;> rfl

/-- The end of a retraining returns a channel only that is retraining. -/
theorem retrainEnd (count : Bool) (hch : ∀ c, c < 12 → d.chanState c ≠ chanRetrain) : Dev.BootKept a (d.retrainEnd count) := by
  have hreturn : Dev.BootKept a d.retrainReturn := by
    unfold Dev.retrainReturn
    split
    · exact h
    · next c _ =>
      extract_lets w v
      have hw : Dev.BootKept a w := by
        by_cases hc : c < 12
        · exact (congrArg (Dev.BootKept a) (if_neg (hch c hc))).mpr h
        · refine .ite (h.wr _ _ ?_) h
          rw [Bool.eq_false_iff, ne_eq, bootKey_spec, Fld.ix_key,
            show Reg.PWC_CH_state.key = 20987934 from rfl, show Reg.PWC_CH_state.dims.head?.map Prod.fst = some 8 from rfl]
          simp only [Option.getD_some]
          omega
      have hv : Dev.BootKept a v := .ite (hw.setGroup _ _) hw
      exact hv.same rfl rfl
  unfold Dev.retrainEnd
  extract_lets u v w
  have hv : Dev.BootKept a v := (hreturn.setPwc _).wr _ _
  have hw : Dev.BootKept a w := .ite (hv.wr _ _) hv
  exact .ite h (hw.actEnd _ _)

theorem loseBoth (hch : ∀ c, c < 12 → d.chanState c ≠ chanRetrain) : Dev.BootKept a d.loseBoth := by
  have hstart : Dev.BootKept d d := .refl d
  refine h.trans ?_
  unfold Dev.loseBoth
  extract_lets v w x qs y z t u r o q q1 q2 q3 v1 mnt v2 v3
  have hv : Dev.BootKept d v := ((hstart.setGroup _ _).setGroup _ _).bmeErrAll _ _
  have hx : Dev.BootKept d x := .forEach _ (hv.setPwc _) fun i _ e he => he.actAbort i
  clear_value x
  have ht : Dev.BootKept d t := hx.same rfl rfl
  have hu : Dev.BootKept d u := .forEach _ ht fun i _ e he => he.drainSq i
  clear_value u
  have hq : Dev.BootKept d q := hu.same rfl rfl
  have hq1 : Dev.BootKept d q1 := .forEach _ hq fun i _ e he => he.updPort i _
  clear_value q1
  have hq2 : Dev.BootKept d q2 := .forEach _ hq1 fun i _ e he =>
    .ite (he.wr_high _ _ _) (.ite (he.wr_high _ _ _) (.ite (he.wr_high _ _ _) he))
  clear_value q2
  have hq3 : Dev.BootKept d q3 := .forEach _ hq2 fun i _ e he => he.updArr i _
  clear_value q3
  have hshown : Dev.BootKept d (q3.wr Reg.MNT_DFW_STAT_running 0) := hq3.wr _ _
  have hv1 : Dev.BootKept d v1 := hshown.retrainEnd false fun c hc => by
    rw [Dev.chanState, hshown.regs _ (bootKey_chan c hc)]
    exact hch c hc
  clear_value v1
  have hv2 : Dev.BootKept d v2 := hv1.same rfl rfl
  exact (((hv2.setState _ _).causeBit _ _).squall _ _ _).recompute

end Dev.BootKept

/-! ### Both groups lost -/

theorem Dev.recompute_bothLost (d : Dev) : d.recompute.pwc.bothLost = d.pwc.bothLost := by
  rw [d.recompute_eq, (Dev.refreshMode_frame _).part .pwc]
  have hshow : d.showCeiling.pwc.bothLost = d.pwc.bothLost := rfl
  rw [← hshow]
  generalize d.showCeiling = v
  simp only [Dev.announceCeiling]
  split <;> split <;> simp

theorem Dev.retrainEnd_bothLost (d : Dev) (count : Bool) : (d.retrainEnd count).pwc.bothLost = d.pwc.bothLost := by
  have hreturn : d.retrainReturn.pwc.bothLost = d.pwc.bothLost := by
    unfold Dev.retrainReturn
    split
    · rfl
    · next c _ =>
      extract_lets w v
      have hw : w.pwc = d.pwc := by unfold w; split <;> rfl
      have hv : v.pwc = d.pwc := by
        refine Eq.trans ?_ hw
        unfold v
        split
        · cases groupOf c <;> rfl
        · rfl
      clear_value v
      rw [← hv]
      rfl
  unfold Dev.retrainEnd
  generalize d.retrainReturn = w at hreturn
  split
  · rfl
  · split <;> exact hreturn

theorem Dev.loseBoth_bothLost (d : Dev) : d.loseBoth.pwc.bothLost = true := by
  unfold Dev.loseBoth
  extract_lets v w x qs y z t u r o q q1 q2 q3 v1 mnt v2 v3
  clear_value v
  have hw : w.pwc.bothLost = true := rfl
  clear_value w
  have hx : x.pwc.bothLost = true := forEach_keep (P := fun e => e.pwc.bothLost = true) _ _ (fun i _ e he => by
    rw [(e.actAbort_frame i).part .pwc]
    exact he) hw
  clear_value x
  have hu : u.pwc.bothLost = true := forEach_keep (P := fun e => e.pwc.bothLost = true) _ _ (fun i _ e he => by
    unfold Dev.drainSq
    split <;> exact he) hx
  clear_value u
  have hq1 : q1.pwc.bothLost = true := forEach_keep (P := fun e => e.pwc.bothLost = true) _ _ (fun i _ e he => he) hu
  clear_value q1
  have hq2 : q2.pwc.bothLost = true := forEach_keep (P := fun e => e.pwc.bothLost = true) _ _ (fun i _ e he => by
    split
    · exact he
    · split
      · exact he
      · split <;> exact he) hq1
  clear_value q2
  have hq3 : q3.pwc.bothLost = true := forEach_keep (P := fun e => e.pwc.bothLost = true) _ _ (fun i _ e he => he) hq2
  clear_value q3
  have hv2 : v2.pwc.bothLost = true := (Dev.retrainEnd_bothLost _ _).trans hq3
  clear_value v2
  have hv3 : Frame v2 v3 [] [] :=
    ((((Frame.refl _ _ _).setState _ _).reports (Dev.causeBit_reports _ _ _))).reports (Dev.squall_reports _ _ _ _)
  rw [Dev.recompute_bothLost, hv3.part .pwc]
  exact hv2

/-! ### Channels that trained, and channels that did not -/

theorem chan_key_ne {c r : Nat} (h : c ≠ r) : (Reg.PWC_CH_state.ix c).key ≠ (Reg.PWC_CH_state.ix r).key := by
  rw [Fld.ix_key, Fld.ix_key, show Reg.PWC_CH_state.dims.head?.map Prod.fst = some 8 from rfl]
  simp only [Option.getD_some]
  omega

/-- How a channel is shown after training. -/
def chanFound (trained : List Bool) (gib : List Nat) (c : Nat) : Nat :=
  if gib.getD c 0 = 0 then chanAbsent else if trained.getD c false then chanOk else chanLost

/-- A channel is shown as training found it. -/
def Dev.chanShown (trained : List Bool) (gib : List Nat) (c : Nat) (d : Dev) : Dev :=
  if gib.getD c 0 = 0 then d.setChan c chanAbsent
  else if trained.getD c false then d.setChan c chanOk
  else (d.setChan c chanLost).errUncorr .pwc 7

theorem Dev.chanShown_spec (trained : List Bool) (gib : List Nat) (c : Nat) (d : Dev) :
    (d.chanShown trained gib c).chanState c = chanFound trained gib c ∧
    Frame d (d.chanShown trained gib c) [Reg.PWC_CH_state.ix c] [] := by
  have hset {st : Nat} (hst : st < 4) : (d.setChan c st).chanState c = st ∧ Frame d (d.setChan c st) [Reg.PWC_CH_state.ix c] [] :=
    ⟨(Dev.rd_wr_same _ _ _).trans (Nat.mod_eq_of_lt (lt_of_lt_of_le hst (by rw [Fld.ix_width]; decide))),
      (Frame.refl _ _ _).wr _ _ (List.mem_singleton_self _)⟩
  unfold Dev.chanShown chanFound
  split
  · exact hset (by decide)
  · split
    · exact hset (by decide)
    · obtain ⟨hstate, hframe⟩ := hset (st := chanLost) (by decide)
      have herr := (d.setChan c chanLost).errUncorr_reports .pwc 7
      exact ⟨(herr.rd _).trans hstate, hframe.reports herr⟩

theorem Dev.chanShown_keeps {c : Nat} (trained : List Bool) (gib : List Nat) (f : Fld) (h : f.key ≠ (Reg.PWC_CH_state.ix c).key) (d : Dev)
    (hf : stateKey f.key = false := by decide) : (d.chanShown trained gib c).rd f = d.rd f :=
  (d.chanShown_spec trained gib c).2.1 f (by simpa using h) hf

/-- The channels in place are shown as training found them. -/
def Dev.chansShown (d : Dev) (trained : List Bool) (gib : List Nat) : Dev := forEach (List.range 12) (Dev.chanShown trained gib) d

theorem Dev.chansShown_state (d : Dev) (trained : List Bool) (gib : List Nat) {c : Nat} (hc : c < 12) :
    (d.chansShown trained gib).chanState c = chanFound trained gib c := by
  refine forEach_each (Q := fun c e => e.chanState c = chanFound trained gib c) (fun q _ e => (e.chanShown_spec trained gib q).1)
    (fun q _ r hr e he => ?_) d c (List.mem_range.2 hc)
  by_cases hqr : r = q
  · subst hqr
    exact (e.chanShown_spec trained gib r).1
  · exact (Dev.chanShown_keeps trained gib _ (chan_key_ne hqr) e (stateKey_of_driveKey (driveKey_of_bootKey
      (Dev.BootKept.bootKey_chan r (List.mem_range.1 hr))))).trans he

theorem Dev.chansShown_frame (d : Dev) (trained : List Bool) (gib : List Nat) :
    Frame d (d.chansShown trained gib) ((List.range 12).map Reg.PWC_CH_state.ix) [] :=
  Frame.forEachMem _ (fun c hc e he => he.trans (e.chanShown_spec trained gib c).2
    fun _ hf => List.mem_singleton.1 hf ▸ List.mem_map_of_mem hc) d (.refl _ _ _)

/-- A group all of whose channels are up. -/
def Dev.groupGood (d : Dev) (g : Group) : Bool := (List.range 6).all fun i => decide (d.chanState (groupBase g + i) = chanOk)

theorem groupBase_lt (g : Group) {i : Nat} (hi : i < 6) : groupBase g + i < 12 := by
  cases g
  · exact (show 0 + i < 12 by omega)
  · exact (show 6 + i < 12 by omega)

/-- The groups are shown. -/
def Dev.groupsShown (d : Dev) (gib : List Nat) : Dev :=
  let here := (List.range 12).filter fun c => gib.getD c 0 ≠ 0
  forEach [Group.a, Group.b] (fun g e => if d.groupGood g then e else (e.setGroup g grFailed).causeBit .pwc 19)
    (d.wr Reg.PWC_POOL_group_gib (6 * ((here.map fun c => gib.getD c 0).min?).getD 0))

theorem Dev.dramTrained_eq {d : Dev} (hphase : d.phase = phTrain) : d.dramTrained trained gib =
    let v := d.chansShown trained gib
    let w := v.groupsShown gib
    if !v.groupGood .a && !v.groupGood .b then w.loseBoth
    else (((w.setPhase phDawn).recompute).refreshVault.dawnChoose).refreshMode := by
  unfold Dev.dramTrained
  rw [if_neg (not_not.2 hphase)]
  rfl

theorem Dev.BootKept.groupsShown {a d : Dev} (h : Dev.BootKept a d) (gib : List Nat) : Dev.BootKept a (d.groupsShown gib) :=
  .forEach _ (h.wr _ _) fun g _ e he => .ite he ((he.setGroup g _).causeBit _ _)

theorem Dev.groupsShown_vlt (d : Dev) (gib : List Nat) : (d.groupsShown gib).vlt = d.vlt := by
  refine forEach_keep (P := fun e => e.vlt = d.vlt) _ _ (fun g _ e he => ?_) rfl
  split
  · exact he
  · rw [((Frame.refl _ [] []).reports (Dev.causeBit_reports _ .pwc 19)).part .vlt]
    cases g <;> exact he

/-! ### A Dawn with nothing to restore -/

theorem Dev.refreshVault_vlt (d : Dev) : d.refreshVault.vlt = d.vlt := by
  unfold Dev.refreshVault
  extract_lets rate can was w
  have hwr (e : Dev) (f : Fld) (n : Nat) : (e.wr f n).vlt = e.vlt := rfl
  have hwrB (e : Dev) (f : Fld) (x : Bool) : (e.wrB f x).vlt = e.vlt := rfl
  have hw : w.vlt = d.vlt := by
    unfold w
    simp only [hwr, hwrB]
  clear_value w
  rw [← hw]
  split
  · exact ((Frame.refl w [] []).reports (Dev.causeBit_reports _ .vlt 16)).part .vlt
  · rfl

theorem Dev.setPhase_vlt (d : Dev) (p : Nat) : (d.setPhase p).vlt = d.vlt := rfl

theorem Dev.newestArea_of_vlt {d e : Dev} (h : e.vlt = d.vlt) : e.newestArea = d.newestArea := by
  unfold Dev.newestArea
  rw [h]

theorem chan_key_ne_phase {c : Nat} (hc : c < 12) : (Reg.PWC_CH_state.ix c).key ≠ (Reg.BLK_STAT_specific.ix 0).key := by
  interval_cases c <;> decide

theorem chan_key_ne_result {c : Nat} (hc : c < 12) : (Reg.PWC_CH_state.ix c).key ≠ Reg.VLT_LAST_result.key := by
  interval_cases c <;> decide

/-- With no image admission opens from the labels. -/
theorem Dev.dawnReady (d : Dev) (h : d.newestArea = none) : d.dawnChoose.phase = phReady ∧
    d.dawnChoose.rd Reg.VLT_LAST_result = 0 ∧ ∀ c, c < 12 → d.dawnChoose.chanState c = d.chanState c := by
  unfold Dev.dawnChoose
  rw [h]
  dsimp only
  have hzero : (d.wr Reg.VLT_LAST_result 0).rd Reg.VLT_LAST_result = 0 := Dev.rd_wr_same _ _ _
  have hchan (c : Nat) (hc : c < 12) : (d.wr Reg.VLT_LAST_result 0).chanState c = d.chanState c :=
    Dev.rd_wr_other _ _ _ _ (chan_key_ne_result hc)
  generalize d.wr Reg.VLT_LAST_result 0 = w at *
  unfold Dev.fromLabels Dev.admissionOpens
  extract_lets v u
  have hu : Dev.BootKept w u := ((Dev.BootKept.refl w).updLay _).updVlt _
  have hkept : Dev.BootKept (u.setPhase phReady) ((u.setPhase phReady).eraseStart.labelsNow) := (Dev.BootKept.refl _).eraseStart.labelsNow
  refine ⟨hkept.phase.trans (Dev.phase_setPhase _), ?_, fun c hc => ?_⟩
  · exact (hkept.rd _).trans ((Dev.rd_setPhase _ _ _).trans ((hu.rd _).trans hzero))
  · have hboot := Dev.BootKept.bootKey_chan c hc
    exact (hkept.regs _ hboot).trans ((Dev.rd_setPhase _ _ _ (chan_key_ne_phase hc)).trans ((hu.regs _ hboot).trans (hchan c hc)))

end Machine

theorem gives_dramTrainingDone_elsewhere (h : s.dev.phase ≠ phTrain) :
    Gives (.dramTrainingDone trained gib) s fun e => Frame s.dev e [] [] := by
  refine gives_of_exec_eq_act (f := fun d => d.dramTrained trained gib) rfl ?_
  have heq : s.dev.dramTrained trained gib = s.dev := by
    unfold Dev.dramTrained
    exact if_pos h
  simp only [heq]
  exact (Frame.refl _ _ _).settle

section

variable (hphase : s.dev.phase = phTrain)
include hphase

theorem Machine.Dev.chansShown_phase : (s.dev.chansShown trained gib).phase = phTrain :=
  ((s.dev.chansShown_frame trained gib).rd _).trans hphase

/-- No channel trained: both groups are lost. -/
theorem gives_dramTrainingDone_lost (h : ∀ c, c < 12 → gib.getD c 0 ≠ 0 ∧ trained.getD c false = false) :
    Gives (.dramTrainingDone trained gib) s fun e =>
      e.phase = phTrain ∧ e.pwc.bothLost = true ∧ ∀ c, c < 12 → e.chanState c = chanLost := by
  refine gives_of_exec_eq_act (f := fun d => d.dramTrained trained gib) rfl ?_
  have hfound (c : Nat) (hc : c < 12) : (s.dev.chansShown trained gib).chanState c = chanLost := by
    obtain ⟨hhere, hlost⟩ := h c hc
    rw [Dev.chansShown_state _ _ _ hc, chanFound, if_neg hhere, hlost, if_neg Bool.false_ne_true]
  have hvphase := Machine.Dev.chansShown_phase (trained := trained) (gib := gib) hphase
  simp only [Dev.dramTrained_eq hphase]
  generalize s.dev.chansShown trained gib = v at *
  have hbad (g : Group) : v.groupGood g = false := by
    refine Bool.eq_false_iff.2 fun hall => ?_
    have hone := of_decide_eq_true (List.all_eq_true.1 hall 0 (by decide))
    rw [hfound _ (groupBase_lt g (by decide))] at hone
    exact absurd hone (by decide)
  rw [hbad .a, hbad .b, if_pos (show (!false && !false) = true from rfl)]
  have hgroups := (Dev.BootKept.refl v).groupsShown gib
  generalize v.groupsShown gib = w at *
  have hchan (c : Nat) (hc : c < 12) : w.chanState c = chanLost :=
    (hgroups.regs _ (Dev.BootKept.bootKey_chan c hc)).trans (hfound c hc)
  have hlose : Dev.BootKept w w.loseBoth := (Dev.BootKept.refl w).loseBoth fun c hc => by rw [hchan c hc]; decide
  have hlost := w.loseBoth_bothLost
  generalize w.loseBoth = u at *
  have hpwc : u.settle.pwc = u.pwc := ((Frame.refl u [] []).settle).part .pwc
  exact ⟨hlose.settle.phase.trans (hgroups.phase.trans hvphase), by rw [hpwc]; exact hlost,
    fun c hc => (hlose.settle.regs _ (Dev.BootKept.bootKey_chan c hc)).trans (hchan c hc)⟩

/-- Every channel trained, and no image: admission opens. -/
theorem gives_dramTrainingDone_opens (h : ∀ c, c < 12 → gib.getD c 0 ≠ 0 ∧ trained.getD c false = true)
    (hnone : s.dev.newestArea = none) : Gives (.dramTrainingDone trained gib) s fun e =>
      e.phase = phReady ∧ e.rd Reg.VLT_LAST_result = 0 ∧ ∀ c, c < 12 → e.chanState c = chanOk := by
  refine gives_of_exec_eq_act (f := fun d => d.dramTrained trained gib) rfl ?_
  have hfound (c : Nat) (hc : c < 12) : (s.dev.chansShown trained gib).chanState c = chanOk := by
    obtain ⟨hhere, hok⟩ := h c hc
    rw [Dev.chansShown_state _ _ _ hc, chanFound, if_neg hhere, if_pos hok]
  have hvlt : (s.dev.chansShown trained gib).vlt = s.dev.vlt := (s.dev.chansShown_frame trained gib).part .vlt
  simp only [Dev.dramTrained_eq hphase]
  generalize s.dev.chansShown trained gib = v at *
  have hgood : v.groupGood .a = true := List.all_eq_true.2 fun i hi =>
    decide_eq_true (hfound _ (groupBase_lt .a (List.mem_range.1 hi)))
  rw [hgood, Bool.not_true, Bool.false_and, if_neg Bool.false_ne_true]
  have hgroups := (Dev.BootKept.refl v).groupsShown gib
  have hwvlt := (v.groupsShown_vlt gib).trans hvlt
  generalize v.groupsShown gib = w at *
  have hsame : ((w.setPhase phDawn).recompute).refreshVault.vlt = s.dev.vlt := by
    rw [Dev.refreshVault_vlt, (w.setPhase phDawn).recompute_frame.part .vlt, Dev.setPhase_vlt, hwvlt]
  have hready := Dev.dawnReady _ ((Dev.newestArea_of_vlt hsame).trans hnone)
  have hkept : Dev.BootKept (w.setPhase phDawn) ((w.setPhase phDawn).recompute).refreshVault :=
    (Dev.BootKept.refl _).recompute.refreshVault
  generalize ((w.setPhase phDawn).recompute).refreshVault = u at *
  obtain ⟨hphase', hresult, hchan⟩ := hready
  have hend : Dev.BootKept u.dawnChoose (u.dawnChoose.refreshMode).settle := ((Dev.BootKept.refl _).refreshMode).settle
  refine ⟨hend.phase.trans hphase', (hend.rd _).trans hresult, fun c hc => ?_⟩
  calc ((u.dawnChoose.refreshMode).settle).chanState c
    _ = u.dawnChoose.chanState c := hend.regs _ (Dev.BootKept.bootKey_chan c hc)
    _ = u.chanState c := hchan c hc
    _ = (w.setPhase phDawn).chanState c := hkept.regs _ (Dev.BootKept.bootKey_chan c hc)
    _ = w.chanState c := Dev.rd_setPhase _ _ _ (chan_key_ne_phase hc)
    _ = v.chanState c := hgroups.regs _ (Dev.BootKept.bootKey_chan c hc)
    _ = chanOk := hfound c hc

end

/-- Settles O57: every way into a start ends as its test and its images say, with the marks of a start beside what the blocks'
own starts write; training opens admission or loses both groups; the clock and thermal commands do as they say. -/
theorem startUpClocksAndThermal : Obligations.StartUpClocksAndThermal := by
  intro b img trained gib temps step s d straps kept pref image result tested ran ends started here
  refine ⟨gives_vddAonApplied s, gives_pwrGoodRise_again, gives_pwrGoodRise_asleep,
    fun hgood hsleep hmain => ⟨gives_pwrGoodRise_starts hgood hsleep hmain, gives_pwrGoodRise_waits hgood hsleep hmain⟩,
    gives_pwrFailRelease_starts, gives_sleepExit_starts, gives_sleepExit_awake, gives_holdRelease_boots, gives_holdRelease_other,
    gives_dramTrainingDone_elsewhere, fun hphase => ⟨gives_dramTrainingDone_opens hphase, gives_dramTrainingDone_lost hphase⟩,
    gives_imageBackgroundCheck, gives_imageBackgroundCheck_other,
    fun lost com hcom => ⟨gives_refclk_same hcom, gives_refclk_switched hcom⟩, gives_dpRefclkLost, gives_dpRefclkLost_none,
    gives_thermalSample s temps, gives_throttleStep_none,
    fun hmain hholds => ⟨gives_throttleStep_shown hmain hholds, gives_throttleStep_trips hmain hholds⟩⟩

end Sys2Proof
end
